-- ==== Sys2Proof/Word.lean ====
section
/-! DEFINITION. The word types of the package: the 64-bit register word (R12), the byte, and the sparse map
that every table of the state is kept in. -/

namespace Sys2Proof

/-- A register or instruction word, 64 bits (R12, R72). -/
abbrev Word := BitVec 64

/-- One byte of memory or of a packet's payload. -/
abbrev Byte := BitVec 8

/-- A sparse table: key and value pairs, keys strictly rising, no value equal to the table's default. -/
abbrev Map (α : Type) := List (Nat × α)

end Sys2Proof
end

