-- ==== Sys2Proof/Syntax.lean ====
section
/-! DEFINITION. The commands the package takes, one constructor per row of the opcode table, and their operands. -/

namespace Sys2Proof

/-- The three paths a session can be opened on (R444). -/
inductive Path where
  | pcie | eth | i3c
deriving DecidableEq, Repr

/-- Who makes a register or memory access (R151, R428): a session path, a virtual function, a request admitted by
an access window, a tile (its core or its stream engine), or a collective engine. -/
inductive Writer where
  | path (p : Path)
  | vf (v : Nat)
  | fabric (device tenant : Nat)
  | tile (t : Nat)
  | engine (i : Nat)
deriving DecidableEq, Repr

/-- Fields of an S-format instruction word (R73, R74). -/
structure SArgs where
  pn : Bool := false
  pg : BitVec 3 := 0
  d : BitVec 5 := 0
  a : BitVec 5 := 0
  b : BitVec 5 := 0
  c : BitVec 5 := 0
  fn : BitVec 8 := 0
  fmt : BitVec 4 := 0
  rsv : BitVec 20 := 0
deriving DecidableEq, Repr

/-- Fields of an I-format instruction word (R73, R74). -/
structure IArgs where
  pn : Bool := false
  pg : BitVec 3 := 0
  d : BitVec 5 := 0
  a : BitVec 5 := 0
  fn : BitVec 10 := 0
  imm : BitVec 32 := 0
deriving DecidableEq, Repr

/-- Fields of an M-format instruction word (R73, R74). -/
structure MArgs where
  pn : Bool := false
  pg : BitVec 3 := 0
  d : BitVec 5 := 0
  a : BitVec 5 := 0
  b : BitVec 5 := 0
  sel : BitVec 2 := 0
  size : BitVec 2 := 0
  sx : Bool := false
  atype : BitVec 2 := 0
  rsv : BitVec 6 := 0
  off : BitVec 24 := 0
deriving DecidableEq, Repr

/-- Fields of a B-format instruction word (R73, R74). -/
structure BArgs where
  pn : Bool := false
  pg : BitVec 3 := 0
  d : BitVec 5 := 0
  a : BitVec 5 := 0
  ps : BitVec 3 := 0
  mode : BitVec 2 := 0
  ind : Bool := false
  rsv : BitVec 20 := 0
  off : BitVec 16 := 0
deriving DecidableEq, Repr

/-- Fields of an X-format instruction word (R73, R74). `beats` is BEATS−1. -/
structure XArgs where
  pn : Bool := false
  pg : BitVec 3 := 0
  acc : BitVec 3 := 0
  wb : BitVec 2 := 0
  a : BitVec 5 := 0
  b : BitVec 5 := 0
  fmtA : BitVec 4 := 0
  fmtW : BitVec 4 := 0
  beats : BitVec 6 := 0
  chain : Bool := false
  sw : Bool := false
  rnd : BitVec 2 := 0
  out : Bool := false
  rsv : BitVec 18 := 0
deriving DecidableEq, Repr

/-- Fields of a Q-format instruction word (R73, R74). -/
structure QArgs where
  pn : Bool := false
  pg : BitVec 3 := 0
  d : BitVec 5 := 0
  a : BitVec 5 := 0
  b : BitVec 5 := 0
  c : BitVec 5 := 0
  td : BitVec 5 := 0
  pd : BitVec 3 := 0
  nw : Bool := false
  ar : Bool := false
  sub : BitVec 4 := 0
  size : BitVec 5 := 0
  cvu : BitVec 6 := 0
  cvuEn : Bool := false
  rsv : BitVec 6 := 0
deriving DecidableEq, Repr

/-- A fabric packet (R195, R196, R298): the fields of its 24-byte header and its payload bytes. `pos` and `digit`
are the collective meaning of W0 [23:0]; `word1` of management packets is part of the payload. Two fields travel beside
the header (notes/assumptions/51.md): `also` lists the other destinations, each with its twin sequence number, of a pitch
packet that still has more than one on its branch of the tree (R50), and `heldFrom` is the tick at which the packet
arrived at the device, or was injected there (R201). -/
structure Packet where
  dst : Nat := 0
  src : Nat := 0
  vc : Nat := 0
  epoch : Nat := 0
  opcode : Nat := 0
  pos : Nat := 0
  digit : Nat := 0
  narrow : Bool := false
  gen : Nat := 0
  tag : Nat := 0
  tenant : Nat := 0
  len4 : Nat := 0
  addr : Nat := 0
  seg : Nat := 0
  resId : Nat := 0
  twinSeq : Nat := 0
  twin : Bool := false
  late : Bool := false
  poison : Bool := false
  last : Bool := false
  schedVer : Nat := 0
  status : Nat := 0
  payload : List Byte := []
  also : List (Nat × Nat) := []
  heldFrom : Nat := 0
deriving DecidableEq, Repr

/-- A 64-byte flit: 56 data bytes and the 64-bit trailer (R224). -/
structure Flit where
  data : BitVec 448 := 0
  trailer : Word := 0
deriving DecidableEq, Repr

/-- What the check bits of a 32-byte half or sector show when it is read (R143, R174): they match, one bit is in
error, two or more are, or the stored poison mark is set. -/
inductive Syndrome where
  | clean | single | double
deriving DecidableEq, Repr

/-- What a port finds while it trains, retrains or wakes (R238–R241). Lane codes are those of R252: 0 GOOD, 1 OPEN,
2 SHORTED. `laneMap` 0 is identity, 1 full reversal, 2 anything else. `locked` is false when a step does not
complete in its bound. Of the neighbour: its identity, its ALLOW_HALF, the free space and the allocation of its ingress
buffer in flits, the number that it expects. -/
structure TrainObs where
  locked : Bool := true
  rxLanes : List Nat := [0, 0, 0, 0, 0, 0, 0, 0]
  txLanes : List Nat := [0, 0, 0, 0, 0, 0, 0, 0]
  laneMap : Nat := 0
  polarity : Nat := 0
  nbDevice : Nat := 0
  nbPort : Nat := 0
  nbMaxDevices : Nat := 4096
  nbAllowHalf : Bool := false
  delay16 : Nat := 0
  nbFree : List Nat := [0, 0, 0, 0, 0, 0, 0, 0]
  nbAlloc : List Nat := [0, 0, 0, 0, 0, 0, 0, 0]
  nbExpected : Nat := 0
deriving DecidableEq, Repr

/-- An entry of a table that its check bits protect (R386). -/
inductive TableSpot where
  | completion (tag : Nat) | window (i : Nat) | group (gid : Nat) | member (i : Nat)
deriving DecidableEq, Repr

/-- What the check bits show while the routers take a packet: those of its buffer (R278), and an entry of the tables
that the device looks packets up in whose bits cannot be corrected (R386). -/
structure PacketChecks where
  buffer : Syndrome := .clean
  table : Option TableSpot := none
deriving DecidableEq, Repr

/-- What a scrub reads of a line: what its eight sectors show, and the on-die reports of the read (R167, R176). -/
structure ScrubRead where
  syn : List Syndrome := []
  corrected : Nat := 0
  uncorrected : Nat := 0
deriving DecidableEq, Repr

/-- A cluster whose voltage has recovered, and the tick at which it had (R370). -/
structure Recovery where
  cluster : Nat
  tick : Nat := 0
deriving DecidableEq, Repr

/-- What makes a port retrain (R241). -/
inductive RetrainWhy where
  | replayLimit | creditFloor | creditExcess | pattern | frameLock | request
deriving DecidableEq, Repr

/-- What makes a resting port wake (R246). -/
inductive WakeWhy where
  | write (who : Writer) | signal | packet
deriving DecidableEq, Repr

/-- A barrier instance (R82, R87): of a gang, of a tenant's device-scope ID, or of a group. -/
inductive BarKey where
  | gang (leader : Nat)
  | device (tenant id : Nat)
  | group (gid : Nat)
deriving DecidableEq, Repr

/-- Where a packet that reached the hold limit is held (R201). -/
inductive HoldPlace where
  | router | bond (b : Nat) | pitch (n : Nat) | staged (n : Nat) | port (n : Nat) | merge (b : Nat) | deliver
deriving DecidableEq, Repr

/-- An access the host makes through a BAR (R331–R333): a read of `len` bytes, or a write of bytes. -/
inductive HostOp where
  | read (len : Nat)
  | write (bytes : List Byte)
deriving DecidableEq, Repr

/-- The function an access of the host comes through. -/
inductive HostFn where
  | pf | vf (v : Nat)
deriving DecidableEq, Repr

/-- Which conventional reset of the whole host interface (R342). -/
inductive PcieReset where
  | flr | hot | perst
deriving DecidableEq, Repr

/-- A sideband input that R403 filters. -/
inductive SideInput where
  | resetN | pwrgdIn | timePps | timeClk
deriving DecidableEq, Repr

/-- A transport packet of the ordinary network (R344). `malformed` frames lie outside the limits of R344. -/
structure EthFrame where
  malformed : Bool := false
  kind : Nat := 1
  flow : Nat := 0
  seq : Nat := 0
  ack : Nat := 0
  offset : Nat := 0
  payload : List Byte := []
deriving DecidableEq, Repr

/-- A regulator's report of one rail (R351): units of POWER.RAIL (R381). -/
structure RailReading where
  mv : Nat := 0
  current : Nat := 0
  power : Nat := 0
  temp : Nat := 0
  warn : Bool := false
deriving DecidableEq, Repr

/-- The counts of one microsecond on one compute die (R352): beats, bank words, vector operations, mesh flits. -/
structure Activity where
  beats : Nat := 0
  banks : Nat := 0
  vectors : Nat := 0
  flits : Nat := 0
deriving DecidableEq, Repr

/-- A TAP instruction as the chain's dies receive it (R468). -/
structure TapCode where
  code : BitVec 8
deriving DecidableEq, Repr

/-- The beat of a twin unit (R413, R417, R419). -/
structure TwinBeat where
  src : Nat := 0
  role : Nat := 0
  preferred : Bool := false
  round : Nat := 0
  digest : BitVec 32 := 0
deriving DecidableEq, Repr

/-- What a resynchronisation brings to the unit that resynchronises (R422): memory by local address, counters by
destination device, windows by pair entry. -/
structure ResyncCopy where
  mem : List (Nat × List Byte) := []
  seqs : List (Nat × Nat) := []
  windows : List (Nat × BitVec 4096) := []
deriving DecidableEq, Repr

/-- The commands. Every constructor is one row of spec/opcode_table.json, in the table's order. -/
inductive Instr where
  -- scalar, branch and local memory instructions of a tile (R77–R79)
  | add (t : Nat) (x : SArgs)
  | sub (t : Nat) (x : SArgs)
  | mul (t : Nat) (x : SArgs)
  | and (t : Nat) (x : SArgs)
  | or (t : Nat) (x : SArgs)
  | xor (t : Nat) (x : SArgs)
  | shl (t : Nat) (x : SArgs)
  | shr (t : Nat) (x : SArgs)
  | cmp (t : Nat) (x : SArgs)
  | sel (t : Nat) (x : SArgs)
  | addImm (t : Nat) (x : IArgs)
  | subImm (t : Nat) (x : IArgs)
  | mulImm (t : Nat) (x : IArgs)
  | andImm (t : Nat) (x : IArgs)
  | orImm (t : Nat) (x : IArgs)
  | xorImm (t : Nat) (x : IArgs)
  | shlImm (t : Nat) (x : IArgs)
  | shrImm (t : Nat) (x : IArgs)
  | cmpImm (t : Nat) (x : IArgs)
  | br (t : Nat) (x : BArgs)
  | brp (t : Nat) (x : BArgs)
  | ld (t : Nat) (x : MArgs)
  | st (t : Nat) (x : MArgs)
  | atmAdd (t : Nat) (x : MArgs)
  | atmSwp (t : Nat) (x : MArgs)
  | atmCas (t : Nat) (x : MArgs)
  | vld (t : Nat) (x : MArgs)
  | vst (t : Nat) (x : MArgs)
  -- stream engine (R90)
  | sdesc (t : Nat) (x : QArgs)
  | sgo (t : Nat) (x : QArgs)
  | swait (t : Nat) (x : QArgs)
  -- matrix unit (R80, R110–R127)
  | mxw (t : Nat) (x : XArgs)
  | mxm (t : Nat) (x : XArgs)
  | mxd (t : Nat) (x : XArgs)
  | mxx (t : Nat) (x : XArgs)
  -- vector unit (R133–R137)
  | vadd (t : Nat) (x : SArgs)
  | vsub (t : Nat) (x : SArgs)
  | vmul (t : Nat) (x : SArgs)
  | vfma (t : Nat) (x : SArgs)
  | vmax (t : Nat) (x : SArgs)
  | vmin (t : Nat) (x : SArgs)
  | vmaxsub (t : Nat) (x : SArgs)
  | vrsum (t : Nat) (x : SArgs)
  | vcvtS (t : Nat) (x : SArgs)
  | vcvtN (t : Nat) (x : SArgs)
  | vwadd (t : Nat) (x : SArgs)
  | vwrnd (t : Nat) (x : SArgs)
  | vwcvt (t : Nat) (x : SArgs)
  | vexp2 (t : Nat) (x : SArgs)
  | vlog2 (t : Nat) (x : SArgs)
  | vrcp (t : Nat) (x : SArgs)
  | vrsqrt (t : Nat) (x : SArgs)
  | vredadd (t : Nat) (x : SArgs)
  | vredmax (t : Nat) (x : SArgs)
  | vredmin (t : Nat) (x : SArgs)
  -- remote memory, collectives, timed issue, completions, gangs (R82–R99, R187–R193, R293)
  | rld (t : Nat) (x : QArgs)
  | rst (t : Nat) (x : QArgs)
  | rat (t : Nat) (x : QArgs)
  | rcpPut (t : Nat) (x : QArgs)
  | rcpGet (t : Nat) (x : QArgs)
  | rcpThird (t : Nat) (x : QArgs)
  | clvAllReduce (t : Nat) (x : QArgs)
  | clvReduceScatter (t : Nat) (x : QArgs)
  | clvAllGather (t : Nat) (x : QArgs)
  | clvBroadcast (t : Nat) (x : QArgs)
  | clvAllToAll (t : Nat) (x : QArgs)
  | clvCapacityAllToAll (t : Nat) (x : QArgs)
  | tread (t : Nat) (x : QArgs)
  | waitt (t : Nat) (x : QArgs)
  | waittRelease (t : Nat)
  | atslot (t : Nat) (x : QArgs)
  | bar (t : Nat) (x : QArgs)
  | barRelease (k : BarKey)
  | barDeadlineExpiry (k : BarKey)
  | fence (t : Nat) (x : QArgs)
  | cplw (t : Nat) (x : QArgs)
  | cplp (t : Nat) (x : QArgs)
  | steep (t : Nat) (x : QArgs)
  | gangId (t : Nat) (x : QArgs)
  | gangForm (t : Nat) (x : QArgs)
  | gangDissolve (t : Nat) (x : QArgs)
  | gangEnd (t : Nat) (x : QArgs)
  | streamDescStart (t : Nat)
  | streamDescDone (t : Nat)
  -- jobs and tile control (R97–R102, R140)
  | run (q : Nat)
  | formGang (q : Nat)
  | dissolveGang (q : Nat)
  | jobEntry (leader : Nat)
  | tileStop (who : Writer) (t : Nat)
  | tileResume (who : Writer) (t : Nat)
  | tileAbort (who : Writer) (t : Nat)
  | srSeedWrite (who : Writer) (t : Nat) (v : Word)
  -- fabric time and pitch (R35–R64)
  | roundStart
  | timeFlit (n round dev st hops master : Nat) (ver frac : Nat)
  | lockedEntry
  | holdoverEntry
  | parentSwitch
  | timePpsEdge (frac : Nat)
  | ptpMessage (offset16 : Int)
  | extReferenceLost
  | pitchFlitArrive (n : Nat) (p : Packet) (sentAt : Nat) (replayed : Bool)
  | pitchSlotSend (n : Nat)
  | pitchPortResume (n : Nat)
  | pitchPathBoundExpiry (tag : Nat)
  | schedSwitchRoundWrite (who : Writer) (v : Word)
  | schedSwitch
  -- banks (R143, R144, R155, R156)
  | bankScrub (t b : Nat) (lo hi : Syndrome)
  | bankEccWriteback (t b : Nat)
  | bankOwnerNextWrite (who : Writer) (t b : Nat) (v : Word)
  | handoverDone (t b : Nat)
  -- HBM (R171–R184)
  | hbmAccess (p s i : Nat) (syn : List Syndrome) (onDieCorrected onDieUncorrected : Nat)
  | hbmScrub (p s : Nat) (seen : ScrubRead)
  | hbmRefresh (p s : Nat)
  | rfmRequest (p s : Nat)
  | hbmTempRead (p s temp : Nat)
  | hbmParityError (p s : Nat)
  | retrainNow (who : Writer) (p s : Nat)
  | hbmPeriodicRetrainTrigger (p s : Nat)
  | hbmDeferredRetrainStart (p s : Nat)
  | hbmRetrainStart (p s : Nat)
  | hbmRetrainDone (p s : Nat) (pass : Bool) (us : Nat)
  -- requests, responses and timers of remote memory access (R186–R216)
  | rdReq (p : Packet)
  | wr (p : Packet)
  | atAdd32 (p : Packet)
  | atAdd64 (p : Packet)
  | atAddf32 (p : Packet)
  | atSwap (p : Packet)
  | atCas (p : Packet)
  | atBset (p : Packet)
  | atBclr (p : Packet)
  | putData (p : Packet)
  | ackFlushTimeout (dev tag : Nat)
  | getReq (p : Packet)
  | thirdReq (p : Packet)
  | pitchWr (p : Packet)
  | rdResp (p : Packet)
  | ack (p : Packet)
  | atResp (p : Packet)
  | copyDone (p : Packet)
  | getData (p : Packet)
  | lateNote (p : Packet)
  | deadlineExpiry (tag : Nat)
  | quarantineExpiry (tag : Nat)
  | holdLimitDiscard (place : HoldPlace)
  | windowUpdateGo (who : Writer) (v : Word)
  | windowUpdateCommit
  -- links (R222–R254)
  | fecFrame (n sym0 sym1 : Nat) (lanes : List Nat) (flits : List Flit)
  | ackTimerExpiry (n : Nat)
  | auditSend (n : Nat)
  | audit (n : Nat) (totals : List Nat) (nextSeq : Nat)
  | laneLos (n : Nat)
  | txOffExpiry (n : Nat)
  | signalDetect (n : Nat)
  | fullTrain (n : Nat) (obs : TrainObs)
  | trainTimeout (n : Nat)
  | miswiredRetry (n : Nat) (obs : TrainObs)
  | neighbourExpWrite (who : Writer) (n : Nat) (v : Word)
  | qualDone (n : Nat) (hist : List Nat) (lost failed : Nat) (lanes : List Nat)
  | retrain (n : Nat) (why : RetrainWhy)
  | retrainNowPort (who : Writer) (n : Nat)
  | trainingPatternSeen (n : Nat)
  | retrainDone (n : Nat) (obs : TrainObs)
  | forceDownSet (who : Writer) (n : Nat)
  | forceDownClear (who : Writer) (n : Nat)
  | rest (who : Writer) (n : Nat)
  | restReq (n : Nat)
  | restAck (n : Nat)
  | restNak (n : Nat)
  | restTimeout (n : Nat)
  | wake (n : Nat) (why : WakeWhy)
  | wakeDone (n : Nat) (obs : TrainObs)
  | wakeTimeout (n : Nat)
  -- routing (R255–R283)
  | routePacket (seen : PacketChecks)
  | bondDeal (b : Nat)
  | bondMap (b full members : Nat)
  | bondRestart (n full members : Nat)
  | routeTableWrite (who : Writer) (tableB : Bool) (d : Nat) (v : Word)
  | flip (who : Writer)
  | routeDrained
  | routeMachineWrite (who : Writer) (v : Word)
  | presetWrite (who : Writer) (v : Word)
  | portBondWrite (who : Writer) (n : Nat) (v : Word)
  | cmapSnapshot
  | cmapRecord (p : Packet)
  -- collectives (R284–R316)
  | groupGo (who : Writer) (v : Word)
  | groupDelete (who : Writer) (v : Word)
  | abortOld (who : Writer) (v : Word)
  | groupUpdateCommit
  | clReduce (p : Packet)
  | clData (p : Packet)
  | clBar (p : Packet)
  | clCap (p : Packet)
  | clAbort (p : Packet)
  | collPhaseSend (gid inst pos : Nat)
  | collLateSend (gid inst pos : Nat)
  | collComplete (gid inst pos : Nat)
  | groupBarReleaseComputed (gid : Nat)
  -- check-value units (R317–R328)
  | cvuCfgWrite (who : Writer) (c : Nat) (v : Word)
  | cvuResultDelivery (c : Nat)
  -- host interface and ordinary network (R329–R349)
  | qCtrlWrite (who : Writer) (q : Nat) (v : Word)
  | sqTailWrite (who : Writer) (q : Nat) (v : Word)
  | sqFetch (q : Nat)
  | toDevice (q : Nat)
  | fromDevice (q : Nat)
  | ethSend (q : Nat)
  | queueRecordWrite (q : Nat)
  | cqHeadWrite (who : Writer) (q : Nat) (v : Word)
  | cqRtc (who : Writer) (q : Nat)
  | hostBarAccess (fn : HostFn) (bar off : Nat) (op : HostOp)
  | barReadTimeout (id : Nat)
  | flrVf (v : Nat)
  | flrPf (kind : PcieReset)
  | dlDown
  | ethFrame (port : Nat) (f : EthFrame)
  | ethRtoExpiry (f : Nat)
  -- power, droop and thermal control (R350–R384)
  | railRead (r : Nat) (x : RailReading) (alike : Nat)
  | railLost (r : Nat)
  | regulatorWarnStep (r : Nat)
  | regulatorFault (r : Nat)
  | activityEstimate (x : List Activity)
  | freqStep (p : Nat)
  | freqRequestRelease (p : Nat)
  | droopTrip (p c : Nat)
  | droopRecover (p : Nat) (back : Recovery)
  | powerCapWrite (who : Writer) (v : Word)
  | capLeaseExpiry
  | slackPublish
  | powerShift
  | ballastUpdate (t : Nat)
  | governorRelease (t : Nat)
  | sensorRead (temps : List Nat)
  | throttleAdjust (c : Nat)
  | throttleRelease (c : Nat)
  | kilnForecast
  | coolantWrite (who : Writer) (v : Word)
  | coolantStale
  | throttleInAssert (chatter : Bool)
  | throttleInDeassert
  | extLatched
  | domainOn (who : Writer) (d : Nat)
  | domainOff (who : Writer) (d : Nat)
  | domainTurnOn (rail : Nat)
  -- faults, hangs, reset and recovery (R385–R410)
  | faultReaction
  | faultStatusClear (who : Writer) (v : Word)
  | faultForce (who : Writer) (v : Word)
  | abortGo (who : Writer) (v : Word)
  | jobAbort (n : Nat) (p : Packet)
  | fencePartition (who : Writer) (v : Word)
  | fenceDrainDone (p : Nat)
  | drainExpired (p : Nat)
  | partReset (who : Writer) (v : Word)
  | deviceReset (who : Writer)
  | resetN (longerThan10ms : Bool)
  | pwrgdIn
  | inputStuck (i : SideInput) (chatter : Option Bool)
  | stuckMashScan (set : List Nat) (nodeA nodeB : Nat)
  | heartbeatTick
  | mgmtDisagree
  -- twin mode (R411–R426)
  | twinCtrlWrite (who : Writer) (v : Word)
  | twinBeatSend
  | twinBeat (b : TwinBeat)
  | twinBeatMissed (fromDevice : Nat)
  | promote (who : Writer)
  | demote (who : Writer)
  | resync (who : Writer)
  | twinPromote
  | twinDemote
  | twinRevert
  | twinRoleSwap
  | twinHoldoffExpiry
  | twinResyncStart
  | resyncDone (ok : Bool) (copy : ResyncCopy)
  -- bring-up, repair, licences, roles and firmware (R427–R457)
  | cellarBoot
  | cellarBootTimeout
  | fuseLoad (who : Writer)
  | domainUp (who : Writer)
  | selfTest (who : Writer)
  | sramClear (who : Writer)
  | hbmTrain (who : Writer)
  | linkTrain (who : Writer)
  | linkQualify (who : Writer)
  | timeSync (who : Writer)
  | ready (who : Writer)
  | stepDone (badDomains : List Nat) (badTiles : List (Nat × Nat × Nat × Nat)) (meshBad : List Nat)
      (rates : List Nat) (us : Nat)
  | stepTimeout
  | void (who : Writer)
  | install (who : Writer)
  | keyWrite (who : Writer) (k w : Nat) (v : Word)
  | svnMinWrite (who : Writer) (v : Word)
  | getChallenge (p : Path)
  | submit (p : Path) (role slot : Nat)
  | close (p : Path)
  | sessionExpiry (p : Path)
  | authLockoutExpiry (p : Path)
  | start (who : Writer)
  | activate (who : Writer)
  | fwupdAbort (who : Writer)
  | bootOther (who : Writer)
  | fwupdShelfWrite (who : Writer) (v : Word)
  | fwChunk (n : Nat) (p : Packet)
  | fwAck (n : Nat) (p : Packet)
  | fwChildSilent (n : Nat)
  | fwParentSilent
  | fwVerifyDone
  | registerWrite (who : Writer) (addr : Nat) (v : Word)
  -- steps of the host link, the management port, the cellar, the partition reset and the TAP
  | pcieLinkUp (width speed : Nat)
  | hostMemoryReadCompletion (id : Nat) (data : Option (List Byte))
  | managementPortLinkLoss
  | cellarRunning
  | partResetPhaseEnd (p : Nat) (ok : Bool) (badTiles : List (Nat × Nat × Nat × Nat)) (rates : List Nat)
  | boundaryScanInstruction (codes : List (BitVec 8))
deriving DecidableEq, Repr

end Sys2Proof
end

