-- ==== Sys2Proof/Decode.lean ====
section
/-! DEFINITION. Words: the opcode table gives no bits to any command, and the instructions of a tile are encoded in
64-bit words (R72–R75). -/

namespace Sys2Proof

/-- The command that a word of the opcode table's bits spells. No row of the table gives bits, so no word spells one.
-/
def decodeTableWord (_nbits _w : Nat) : Option Instr := none

-- The six formats (R73, R74)

/-- An S-format word. -/
def encS (op : BitVec 8) (x : SArgs) : Word :=
  op ++ BitVec.ofBool x.pn ++ x.pg ++ x.d ++ x.a ++ x.b ++ x.c ++ x.fn ++ x.fmt ++ x.rsv

/-- An I-format word. -/
def encI (op : BitVec 8) (x : IArgs) : Word :=
  op ++ BitVec.ofBool x.pn ++ x.pg ++ x.d ++ x.a ++ x.fn ++ x.imm

/-- An M-format word. -/
def encM (op : BitVec 8) (x : MArgs) : Word :=
  op ++ BitVec.ofBool x.pn ++ x.pg ++ x.d ++ x.a ++ x.b ++ x.sel ++ x.size ++ BitVec.ofBool x.sx ++ x.atype ++ x.rsv
    ++ x.off

/-- A B-format word. -/
def encB (op : BitVec 8) (x : BArgs) : Word :=
  op ++ BitVec.ofBool x.pn ++ x.pg ++ x.d ++ x.a ++ x.ps ++ x.mode ++ BitVec.ofBool x.ind ++ x.rsv ++ x.off

/-- An X-format word. -/
def encX (op : BitVec 8) (x : XArgs) : Word :=
  op ++ BitVec.ofBool x.pn ++ x.pg ++ x.acc ++ x.wb ++ x.a ++ x.b ++ x.fmtA ++ x.fmtW ++ x.beats
    ++ BitVec.ofBool x.chain ++ BitVec.ofBool x.sw ++ x.rnd ++ BitVec.ofBool x.out ++ x.rsv

/-- A Q-format word. -/
def encQ (op : BitVec 8) (x : QArgs) : Word :=
  op ++ BitVec.ofBool x.pn ++ x.pg ++ x.d ++ x.a ++ x.b ++ x.c ++ x.td ++ x.pd ++ BitVec.ofBool x.nw
    ++ BitVec.ofBool x.ar ++ x.sub ++ x.size ++ x.cvu ++ BitVec.ofBool x.cvuEn ++ x.rsv

/-- The fields of an S-format word. -/
def decS (w : Word) : SArgs :=
  { pn := w.getLsbD 55, pg := w.extractLsb' 52 3, d := w.extractLsb' 47 5, a := w.extractLsb' 42 5,
    b := w.extractLsb' 37 5, c := w.extractLsb' 32 5, fn := w.extractLsb' 24 8, fmt := w.extractLsb' 20 4,
    rsv := w.extractLsb' 0 20 }

/-- The fields of an I-format word. -/
def decI (w : Word) : IArgs :=
  { pn := w.getLsbD 55, pg := w.extractLsb' 52 3, d := w.extractLsb' 47 5, a := w.extractLsb' 42 5,
    fn := w.extractLsb' 32 10, imm := w.extractLsb' 0 32 }

/-- The fields of an M-format word. -/
def decM (w : Word) : MArgs :=
  { pn := w.getLsbD 55, pg := w.extractLsb' 52 3, d := w.extractLsb' 47 5, a := w.extractLsb' 42 5,
    b := w.extractLsb' 37 5, sel := w.extractLsb' 35 2, size := w.extractLsb' 33 2, sx := w.getLsbD 32,
    atype := w.extractLsb' 30 2, rsv := w.extractLsb' 24 6, off := w.extractLsb' 0 24 }

/-- The fields of a B-format word. -/
def decB (w : Word) : BArgs :=
  { pn := w.getLsbD 55, pg := w.extractLsb' 52 3, d := w.extractLsb' 47 5, a := w.extractLsb' 42 5,
    ps := w.extractLsb' 39 3, mode := w.extractLsb' 37 2, ind := w.getLsbD 36, rsv := w.extractLsb' 16 20,
    off := w.extractLsb' 0 16 }

/-- The fields of an X-format word. -/
def decX (w : Word) : XArgs :=
  { pn := w.getLsbD 55, pg := w.extractLsb' 52 3, acc := w.extractLsb' 49 3, wb := w.extractLsb' 47 2,
    a := w.extractLsb' 42 5, b := w.extractLsb' 37 5, fmtA := w.extractLsb' 33 4, fmtW := w.extractLsb' 29 4,
    beats := w.extractLsb' 23 6, chain := w.getLsbD 22, sw := w.getLsbD 21, rnd := w.extractLsb' 19 2,
    out := w.getLsbD 18, rsv := w.extractLsb' 0 18 }

/-- The fields of a Q-format word. -/
def decQ (w : Word) : QArgs :=
  { pn := w.getLsbD 55, pg := w.extractLsb' 52 3, d := w.extractLsb' 47 5, a := w.extractLsb' 42 5,
    b := w.extractLsb' 37 5, c := w.extractLsb' 32 5, td := w.extractLsb' 27 5, pd := w.extractLsb' 24 3,
    nw := w.getLsbD 23, ar := w.getLsbD 22, sub := w.extractLsb' 18 4, size := w.extractLsb' 13 5,
    cvu := w.extractLsb' 7 6, cvuEn := w.getLsbD 6, rsv := w.extractLsb' 0 6 }

-- Instructions (R75, R83, R94, R134, R136, R137, R293)

/-- OP 0x60 by FN (R134). -/
def decVector (t : Nat) (x : SArgs) : Option Instr :=
  if x.fn = 0x00 then some (.vadd t x) else if x.fn = 0x01 then some (.vsub t x)
  else if x.fn = 0x02 then some (.vmul t x) else if x.fn = 0x03 then some (.vfma t x)
  else if x.fn = 0x04 then some (.vmax t x) else if x.fn = 0x05 then some (.vmin t x)
  else if x.fn = 0x06 then some (.vmaxsub t x) else if x.fn = 0x07 then some (.vrsum t x)
  else if 0x40 ≤ x.fn.toNat ∧ x.fn.toNat ≤ 0x5C then some (.vcvtS t x)
  else if 0x80 ≤ x.fn.toNat ∧ x.fn.toNat ≤ 0x9C then some (.vcvtN t x)
  else if x.fn = 0xC0 then some (.vwadd t x) else if x.fn = 0xC1 then some (.vwrnd t x)
  else if x.fn = 0xC2 then some (.vwcvt t x) else none

/-- OP 0x61 by FN (R136), and OP 0x62 by FN (R137). -/
def decTrans (t : Nat) (x : SArgs) : Option Instr :=
  if x.fn = 0 then some (.vexp2 t x) else if x.fn = 1 then some (.vlog2 t x)
  else if x.fn = 2 then some (.vrcp t x) else if x.fn = 3 then some (.vrsqrt t x) else none
/-- See `decTrans`. -/
def decReduce (t : Nat) (x : SArgs) : Option Instr :=
  if x.fn = 0 then some (.vredadd t x) else if x.fn = 1 then some (.vredmax t x)
  else if x.fn = 2 then some (.vredmin t x) else none

/-- RCP, CLV and GANG by SUB (R83, R293, R94). -/
def decRcp (t : Nat) (x : QArgs) : Option Instr :=
  if x.sub = 0 then some (.rcpPut t x) else if x.sub = 1 then some (.rcpGet t x)
  else if x.sub = 2 then some (.rcpThird t x) else none
/-- See `decRcp`. -/
def decClv (t : Nat) (x : QArgs) : Option Instr :=
  if x.sub = 0 then some (.clvAllReduce t x) else if x.sub = 1 then some (.clvReduceScatter t x)
  else if x.sub = 2 then some (.clvAllGather t x) else if x.sub = 3 then some (.clvBroadcast t x)
  else if x.sub = 4 then some (.clvAllToAll t x) else if x.sub = 5 then some (.clvCapacityAllToAll t x) else none
/-- See `decRcp`. -/
def decGang (t : Nat) (x : QArgs) : Option Instr :=
  if x.sub = 0 then some (.gangId t x) else if x.sub = 1 then some (.gangForm t x)
  else if x.sub = 2 then some (.gangDissolve t x) else if x.sub = 3 then some (.gangEnd t x) else none

/-- Opcodes below 0x40 (R75). -/
def decLow (t : Nat) (op : Nat) (w : Word) : Option Instr :=
  if op = 0x01 then some (.add t (decS w)) else if op = 0x02 then some (.sub t (decS w))
  else if op = 0x03 then some (.mul t (decS w)) else if op = 0x04 then some (.and t (decS w))
  else if op = 0x05 then some (.or t (decS w)) else if op = 0x06 then some (.xor t (decS w))
  else if op = 0x07 then some (.shl t (decS w)) else if op = 0x08 then some (.shr t (decS w))
  else if op = 0x09 then some (.cmp t (decS w)) else if op = 0x0A then some (.sel t (decS w))
  else if op = 0x11 then some (.addImm t (decI w)) else if op = 0x12 then some (.subImm t (decI w))
  else if op = 0x13 then some (.mulImm t (decI w)) else if op = 0x14 then some (.andImm t (decI w))
  else if op = 0x15 then some (.orImm t (decI w)) else if op = 0x16 then some (.xorImm t (decI w))
  else if op = 0x17 then some (.shlImm t (decI w)) else if op = 0x18 then some (.shrImm t (decI w))
  else if op = 0x19 then some (.cmpImm t (decI w))
  else if op = 0x20 then some (.br t (decB w)) else if op = 0x21 then some (.brp t (decB w))
  else if op = 0x30 then some (.ld t (decM w)) else if op = 0x31 then some (.st t (decM w))
  else if op = 0x32 then some (.atmAdd t (decM w)) else if op = 0x33 then some (.atmSwp t (decM w))
  else if op = 0x34 then some (.atmCas t (decM w))
  else if op = 0x38 then some (.vld t (decM w)) else if op = 0x39 then some (.vst t (decM w)) else none

/-- Opcodes from 0x40 (R75). -/
def decHigh (t : Nat) (op : Nat) (w : Word) : Option Instr :=
  if op = 0x40 then some (.sdesc t (decQ w)) else if op = 0x41 then some (.sgo t (decQ w))
  else if op = 0x42 then some (.swait t (decQ w))
  else if op = 0x50 then some (.mxw t (decX w)) else if op = 0x51 then some (.mxm t (decX w))
  else if op = 0x52 then some (.mxd t (decX w)) else if op = 0x53 then some (.mxx t (decX w))
  else if op = 0x60 then decVector t (decS w) else if op = 0x61 then decTrans t (decS w)
  else if op = 0x62 then decReduce t (decS w)
  else if op = 0x80 then some (.rld t (decQ w)) else if op = 0x81 then some (.rst t (decQ w))
  else if op = 0x82 then some (.rat t (decQ w)) else if op = 0x83 then decRcp t (decQ w)
  else if op = 0x90 then decClv t (decQ w)
  else if op = 0xA0 then some (.tread t (decQ w)) else if op = 0xA1 then some (.waitt t (decQ w))
  else if op = 0xA2 then some (.atslot t (decQ w))
  else if op = 0xB0 then some (.bar t (decQ w)) else if op = 0xB1 then some (.fence t (decQ w))
  else if op = 0xC0 then some (.steep t (decQ w))
  else if op = 0xD0 then some (.cplw t (decQ w)) else if op = 0xD1 then some (.cplp t (decQ w))
  else if op = 0xE0 then decGang t (decQ w) else none

/-- The instruction that a word of instruction memory spells for tile `t`; none raises ILLEGAL_OP (R75). -/
def decodeTile (t : Nat) (w : Word) : Option Instr :=
  let op := (w.extractLsb' 56 8).toNat
  if op < 0x40 then decLow t op w else decHigh t op w

/-- The word of a tile's instruction; none for every other command (R73–R75). -/
def encodeTile : Instr → Option Word
  | .add _ x => some (encS 0x01 x) | .sub _ x => some (encS 0x02 x) | .mul _ x => some (encS 0x03 x)
  | .and _ x => some (encS 0x04 x) | .or _ x => some (encS 0x05 x) | .xor _ x => some (encS 0x06 x)
  | .shl _ x => some (encS 0x07 x) | .shr _ x => some (encS 0x08 x) | .cmp _ x => some (encS 0x09 x)
  | .sel _ x => some (encS 0x0A x)
  | .addImm _ x => some (encI 0x11 x) | .subImm _ x => some (encI 0x12 x) | .mulImm _ x => some (encI 0x13 x)
  | .andImm _ x => some (encI 0x14 x) | .orImm _ x => some (encI 0x15 x) | .xorImm _ x => some (encI 0x16 x)
  | .shlImm _ x => some (encI 0x17 x) | .shrImm _ x => some (encI 0x18 x) | .cmpImm _ x => some (encI 0x19 x)
  | .br _ x => some (encB 0x20 x) | .brp _ x => some (encB 0x21 x)
  | .ld _ x => some (encM 0x30 x) | .st _ x => some (encM 0x31 x) | .atmAdd _ x => some (encM 0x32 x)
  | .atmSwp _ x => some (encM 0x33 x) | .atmCas _ x => some (encM 0x34 x) | .vld _ x => some (encM 0x38 x)
  | .vst _ x => some (encM 0x39 x)
  | .sdesc _ x => some (encQ 0x40 x) | .sgo _ x => some (encQ 0x41 x) | .swait _ x => some (encQ 0x42 x)
  | .mxw _ x => some (encX 0x50 x) | .mxm _ x => some (encX 0x51 x) | .mxd _ x => some (encX 0x52 x)
  | .mxx _ x => some (encX 0x53 x)
  | .vadd _ x => some (encS 0x60 x) | .vsub _ x => some (encS 0x60 x) | .vmul _ x => some (encS 0x60 x)
  | .vfma _ x => some (encS 0x60 x) | .vmax _ x => some (encS 0x60 x) | .vmin _ x => some (encS 0x60 x)
  | .vmaxsub _ x => some (encS 0x60 x) | .vrsum _ x => some (encS 0x60 x) | .vcvtS _ x => some (encS 0x60 x)
  | .vcvtN _ x => some (encS 0x60 x) | .vwadd _ x => some (encS 0x60 x) | .vwrnd _ x => some (encS 0x60 x)
  | .vwcvt _ x => some (encS 0x60 x)
  | .vexp2 _ x => some (encS 0x61 x) | .vlog2 _ x => some (encS 0x61 x) | .vrcp _ x => some (encS 0x61 x)
  | .vrsqrt _ x => some (encS 0x61 x)
  | .vredadd _ x => some (encS 0x62 x) | .vredmax _ x => some (encS 0x62 x) | .vredmin _ x => some (encS 0x62 x)
  | .rld _ x => some (encQ 0x80 x) | .rst _ x => some (encQ 0x81 x) | .rat _ x => some (encQ 0x82 x)
  | .rcpPut _ x => some (encQ 0x83 x) | .rcpGet _ x => some (encQ 0x83 x) | .rcpThird _ x => some (encQ 0x83 x)
  | .clvAllReduce _ x => some (encQ 0x90 x) | .clvReduceScatter _ x => some (encQ 0x90 x)
  | .clvAllGather _ x => some (encQ 0x90 x) | .clvBroadcast _ x => some (encQ 0x90 x)
  | .clvAllToAll _ x => some (encQ 0x90 x) | .clvCapacityAllToAll _ x => some (encQ 0x90 x)
  | .tread _ x => some (encQ 0xA0 x) | .waitt _ x => some (encQ 0xA1 x) | .atslot _ x => some (encQ 0xA2 x)
  | .bar _ x => some (encQ 0xB0 x) | .fence _ x => some (encQ 0xB1 x) | .steep _ x => some (encQ 0xC0 x)
  | .cplw _ x => some (encQ 0xD0 x) | .cplp _ x => some (encQ 0xD1 x)
  | .gangId _ x => some (encQ 0xE0 x) | .gangForm _ x => some (encQ 0xE0 x)
  | .gangDissolve _ x => some (encQ 0xE0 x) | .gangEnd _ x => some (encQ 0xE0 x)
  | _ => none

end Sys2Proof
end

