-- ==== Sys2Proof/Config.lean ====
section
/-! DEFINITION. What the spec leaves open: the free values and the functions it names without stating them. Every
constant here is opaque: nothing can be proved of its value, so a claim holds whatever it is. -/

namespace Sys2Proof.Config

/-- The k-th free value (notes/assumptions/4.md): taken where the spec says that a value is undefined or that any
of several may occur (R70, R202, R340). The state's counter `free` supplies k. -/
opaque freeWord : Nat → BitVec 64

/-- A transcendental function of the vector unit on an input that the table of R136 does not fix: `fn` 0 exp2,
1 log2, 2 reciprocal, 3 reciprocal square root. R136 bounds its error and R133 makes it a function of the operand;
the value itself is not stated (notes/assumptions/8.md). -/
opaque transcendental (fn : Nat) (x : BitVec 32) : BitVec 32

/-- ECDSA P-384 verification (FIPS 186-5) of a signature r‖s over a message, under a key x‖y: the spec names the
standard and does not restate it (notes/assumptions/9.md). -/
opaque ecdsaVerify (key message signature : List (BitVec 64)) : Bool

/-- SHA-384 (FIPS 180-4) of a message: named and not restated by the spec (notes/assumptions/9.md). -/
opaque sha384 (message : List (BitVec 64)) : BitVec 384

/-- PROJ_EXP of a histogram of corrected symbols per codeword: the largest n such that the post-FEC flit error rate that
the histogram projects is below 10^−n. R247 and R254 name the projection and do not state its arithmetic
(notes/assumptions/52.md). -/
opaque projectedExp (hist : List Nat) : Nat

/-- The deadline of a pitch collective at a member that sends nothing of its own, from the tick of its issue, the number
of its group and the bytes of its result: R309 takes it from the member's own reservations and states none for a member
without one (notes/assumptions/27.md). -/
opaque pitchDeadline (issued gid bytes : Nat) : Nat

/-- The first slot of a pitch collective in which a member sends nothing of its own: the schedules of the other members
fix it, and R309 does not say how this one knows it (notes/assumptions/27.md). -/
opaque firstSlotElsewhere (issued gid : Nat) : Nat

/-- The link delay, in 1/16 tick, that the 64 probe flits of a suspended port measure in the two rounds before round `r`
(R38, R55): what the wire gives is no rule of the spec (notes/assumptions/51.md). -/
opaque measuredDelay (n r : Nat) : Nat

/-- The fused leakage curve g of R352 at a rail's voltage (mV) and a temperature (1/8 °C). -/
opaque leakage (mv temp : Nat) : Nat

/-- Coefficient i of compute rail p as fused (R352). -/
opaque fusedCoefficient (p i : Nat) : Nat

/-- The recursive least-squares update of R353: the new coefficient i of rail p from the old ones, the mean of the
estimator and the reading. The spec names the method and its forgetting factor and leaves the arithmetic open. -/
opaque calibrate (i : Nat) (old : List Nat) (estimate reading : Nat) : Nat

/-- The fused voltage of an operating point, in mV, for a frequency in 25 MHz units (R354). -/
opaque voltageOf (p freq : Nat) : Nat

/-- The limit, in 25 MHz units, that the cap sets on a partition whose share of the budget is `watts` (R357, R363). -/
opaque capLimit (p watts : Nat) : Nat

/-- The adaptive choice of frequency of R357 for a partition. -/
opaque adaptiveChoice (p slack watts : Nat) : Nat

/-- The kiln forecaster's prediction, in 1/8 °C, of cluster c 10 ms ahead (R374), from its temperature, the
estimate, the hinted level and the coolant data. -/
opaque forecast (c temp estimate hint starts coolant : Nat) : Nat

/-- The flow request in percent that the forecaster raises for a prediction (R374). -/
opaque flowRequest (predicted : Nat) : Nat

/-- The power in watts that the STEEP hints of the next millisecond add to the projection (R365), from their levels. -/
opaque hintedPower (levels : List Nat) : Nat

/-- The public key of maker key slot k as manufactured (R443, R471): words 1–12, x‖y. -/
opaque makerKey (k w : Nat) : BitVec 64

end Sys2Proof.Config
end

