-- ==== Sys2Proof/Machine/State.lean ====
section
/-! DEFINITION. The state of the package as plain data, and the state right after reset. -/

namespace Sys2Proof.Machine

/-- Condition of the check bits of one 32-byte half (R142, R143) or sector (R173, R174). -/
inductive Ecc where
  | clean | single | poison
deriving DecidableEq, Repr, Inhabited

/-- Special state of an accumulation window (R115). -/
inductive WinState where
  | finite | posInf | negInf | nan
deriving DecidableEq, Repr, Inhabited

/-- One accumulation window (R115): W as a 120-bit two's-complement integer, its sticky bit, its state. -/
structure Window where
  w : BitVec 120 := 0
  sticky : Bool := false
  st : WinState := .finite
deriving DecidableEq, Repr, Inhabited

/-- One accumulator tile (R65, R115): anchor, row count, and its windows keyed by row × 64 + column. -/
structure Acc where
  anchor : Int := 0
  rows : Nat := 0
  wins : Map Window := []
deriving DecidableEq, Repr, Inhabited

/-- One weight buffer (R110): `fmt` is none until an MXW loads it. -/
structure WBuf where
  fmt : Option Nat := none
  elems : List Byte := []
  scales : List Byte := []
  ew : Int := -160
deriving DecidableEq, Repr, Inhabited

/-- A stream descriptor (R90), four words. -/
structure Desc where
  w0 : Word := 0
  w1 : Word := 0
  w2 : Word := 0
  w3 : Word := 0
deriving DecidableEq, Repr, Inhabited

/-- A pending STEEP hint (R89). -/
structure Hint where
  level : Nat
  start : Nat
  dur : Nat
deriving DecidableEq, Repr

/-- What a tile waits for (R67, R78, R82, R90, R99): a WAITT operand, a barrier instance, the resumption of a member that
was halted when its barrier ended (released at `trel`, or failed), a tag, a descriptor slot, the operations of a FENCE
mask, the operations that GANG.END waits for, or the other members at a BRP with ANY or ALL. -/
inductive Wait where
  | waitt (till : Nat)
  | bar (k : BarKey) (d pd : Nat)
  | barOver (trel : Option Nat) (d pd : Nat)
  | cplw (tagWord : Word) (d : Nat) (off : Option Nat)
  | swait (slot d : Nat)
  | fence (mask d : Nat)
  | gangEnd
  | brp (x : BArgs)
deriving DecidableEq, Repr

/-- From when a byte that was written is sure to read new (R70): `lat` cycles after tick `from_`, which is TILE.CYCLES
`ready` at the latest; the SWAIT or FENCE that observes a descriptor slot; the CPLW, CPLP or FENCE that observes an
operation. -/
inductive Until where
  | cycles (ready from_ lat : Nat)
  | slot (i : Nat)
  | tag (tag gen : Nat)
deriving DecidableEq, Repr

/-- A byte of a tile's SRAM whose new value is not yet sure to be read (R70): its tile offset, its old value, and from
when it reads new. -/
structure Unsettled where
  off : Nat
  old : Byte
  till : Until
deriving DecidableEq, Repr

/-- The state of one tile that no register shows (R65). `br` holds the leader's branch decisions that this member has
not reached: whether the link is written, taken or not, and the next index (R78). `wrapped` says that INDEX ran past its
last value (R99), `asked` that the banks have admitted the accesses of the instruction in progress (R146, R153).
`firstMxm` is the tick until which the start governor holds the
next MXM, and when that MXM first asked (R369); `ballast` is in 1/300 of the matrix peak, `beats` the beats of the last
10 µs with their ticks (R367); `scrub` the next word that each bank's scrub reads (R144). -/
structure Tile where
  g : Map Word := []
  p : BitVec 8 := 0
  v : Map (BitVec 4096) := []
  wb : Map WBuf := []
  acc : Map Acc := []
  imem : Map Word := []
  imemLen : Nat := 0
  slots : Map Desc := []
  slotQ : List Nat := []
  running : Option Nat := none
  slotStatus : Map Word := []
  hints : List Hint := []
  gen : Word := 0
  wait : Option Wait := none
  pend : List Nat := []
  iq : List Word := []
  br : List (Bool × Bool × Nat) := []
  wrapped : Bool := false
  asked : Bool := false
  waitFrom : Nat := 0
  fenceErr : List Nat := [0, 0, 0]
  unsettled : List Unsettled := []
  firstMxm : Option (Nat × Option Nat) := none
  ballast : Nat := 0
  beats : List (Nat × Nat) := []
  scrub : Map Nat := []
deriving DecidableEq, Repr, Inhabited

/-- States of a completion-table entry (R198). -/
inductive CplState where
  | free | opened | done | quarantine
deriving DecidableEq, Repr, Inhabited

/-- Kinds of operation that hold an entry (R83, R91, R191–R193, R206, R299, R338). -/
inductive CplKind where
  | load | store | atomic | put | get | third | pitch | coll | desc | dmaIn | dmaOut | eth | image | members
deriving DecidableEq, Repr, Inhabited

/-- Where a response goes (R198): the sink reserved at issue. -/
inductive Sink where
  | none
  | reg (t d : Nat)
  | sram (t off : Nat)
  | queue (q idx : Nat)
  | copyFor (req : Packet)
  | slot (t i : Nat)
  | job (leader : Nat)
deriving DecidableEq, Repr, Inhabited

/-- One completion-table entry (R198, R203). `lateBy` is the deadline that a pitch operation takes when it is late, fixed
at issue (R7, R204, R206). `items` counts the entries of a member list that is fetched, or names the
flow of an ETH_SEND. `damaged` says that an uncorrectable error was found in the entry (R386). -/
structure Cpl where
  st : CplState := .free
  gen : Nat := 0
  kind : CplKind := .store
  tile : Option Nat := none
  sink : Sink := .none
  tenant : Nat := 0
  ar : Bool := false
  target : Word := 0
  base : Nat := 0
  expect : Nat := 0
  got : Nat := 0
  deadline : Nat := 0
  firstErr : Nat := 0
  sent : Bool := false
  answered : Bool := false
  targets : List (Nat × Nat) := []
  slotTick : Nat := 0
  lateBy : Nat := 0
  resId : Nat := 0
  schedVer : Nat := 0
  late : Bool := false
  drops : Nat := 0
  inexact : Bool := false
  items : Nat := 0
  cvu : Option Nat := none
  orphan : Bool := false
  buf : Map Byte := []
  damaged : Bool := false
  seq : Nat := 0
  doneAt : Nat := 0
  valid : Bool := false
  rec0 : Word := 0
  rec1 : Word := 0
  rec2 : Word := 0
  rec3 : Word := 0
deriving DecidableEq, Repr, Inhabited

/-- What an access does at its target (R28, R148, R149, R209). `op` of an atomic is its packet opcode (R196). -/
inductive AccOp where
  | read
  | write
  | atomic (op : Nat) (narrow : Bool) (operand compare : Word)
deriving DecidableEq, Repr, Inhabited

/-- How an access is answered: nobody waits, the request packet is answered, an own completion entry advances, a
segment of a get or of a third-party put is sent on, a host read is answered, a queue record or a ring entry
moves, or the part of an access that spans HBM lines joins the others (R170). `gen` is the generation of the entry that
the access was made for (R199). -/
inductive Reply where
  | none
  | packet (req : Packet)
  | tag (tag gen : Nat)
  | getSeg (req : Packet) (dst seg : Nat) (last : Bool)
  | putSeg (tag gen dst seg : Nat) (last : Bool)
  | bar (id : Nat)
  | copyTo (tag gen dst : Nat)
  | hostOut (tag gen addr : Nat)
  | entry (q idx : Nat)
  | part (id lo : Nat)
  | coll (tag gen : Nat)
deriving DecidableEq, Repr, Inhabited

/-- An access that has passed the checks of R209 steps 1–4, or an own access of this device (R189). `epoch` is the
window epoch it is stamped with (R212), none when no window checked it. -/
structure Access where
  op : AccOp := .read
  addr : Nat := 0
  len : Nat := 0
  data : List Byte := []
  poison : Bool := false
  agent : Nat := 0
  tenant : Nat := 0
  share : Bool := false
  epoch : Option Nat := none
  since : Nat := 0
  reply : Reply := .none
deriving DecidableEq, Repr, Inhabited

/-- Segments of one put performed at this destination and not yet acknowledged (R191). -/
structure AckDue where
  dev : Nat
  tag : Nat
  gen : Nat
  tenant : Nat
  segs : Nat := 0
  unackedSegs : Nat := 0
  unackedBytes : Nat := 0
  lastSeg : Option Nat := none
  err : Nat := 0
  since : Nat := 0
deriving DecidableEq, Repr

/-- An access that spans HBM lines (R170): itself, the bytes that its parts have still to answer for, the data read so
far, the first error among the parts, whether any read poison. -/
structure Part where
  acc : Access
  left : Nat
  data : Map Byte := []
  status : Nat := 0
  poison : Bool := false
deriving DecidableEq, Repr

/-- Remote memory access: window table, held accesses, delivered packets, acknowledgements due, accesses in parts with
the number of the next (R170, R191, R209, R211). An access is held before a bank under 16 × tile + bank, before a stack's
full queue under 8192 + 4 × partition + stack. -/
structure Rma where
  windows : Map (Word × Word) := []
  held : List (Nat × Access) := []
  deliverQ : List Packet := []
  ackDue : List AckDue := []
  parts : List (Nat × Part) := []
  nextPart : Nat := 0
deriving DecidableEq, Repr, Inhabited

/-- What an entry of a bank's queues is there for (R153, R156): an access already performed, whose words still take their
cycles; an access through a view at a normal address, to be performed when its first word proceeds; a unit of tile `t`,
whose instruction goes on when its first word has proceeded. -/
inductive BankWork where
  | spent
  | access (view a : Nat) (x : Access)
  | unit (t : Nat)
deriving DecidableEq, Repr

/-- An admitted access in a bank's queues (R145–R149, R153): its port, the word it accesses next, the words it still has
to access, whether it reads, whether each word takes the write cycle of a fall-back atomic, and the index of its
instruction where a unit of the tile made it. -/
structure BankEntry where
  port : Nat
  word : Nat
  left : Nat
  isRead : Bool
  two : Bool := false
  index : Nat := 0
  work : BankWork := .spent
deriving DecidableEq, Repr

/-- A bank's ports (R145–R158): what they have admitted, in order; words of the tile's units that a pending handover
keeps for the new owner; whether the write cycle of a fall-back atomic runs; the consecutive lost arbitrations of ports
1–4. -/
structure Bank where
  entries : List BankEntry := []
  later : List BankEntry := []
  wcycle : Bool := false
  lost : List Nat := [0, 0, 0, 0]
deriving DecidableEq, Repr, Inhabited

/-- Kinds of retraining of a stack (R179). -/
inductive RetrainKind where
  | periodic | recovery | full
deriving DecidableEq, Repr

/-- A retrain that waits: its kind, whether DEFER holds it, its trigger time. -/
structure RetrainReq where
  kind : RetrainKind
  deferred : Bool
  trigger : Nat
deriving DecidableEq, Repr

/-- One HBM stack's controller (R176–R181). `admitted` counts the accesses at the front of the queue that were admitted
before a retrain or a thermal hold began; `attempt` numbers the attempts of a recovery. -/
structure Stack where
  queue : List Access := []
  admitted : Nat := 0
  wait : Option RetrainReq := none
  run : Option RetrainKind := none
  attempt : Nat := 0
  runFrom : Nat := 0
  ceTimes : List Nat := []
  scrubRow : Nat := 0
  trainedAt : Nat := 0
  hot85 : Bool := false
  selfRefresh : Bool := false
  offAfter : Bool := false
deriving DecidableEq, Repr, Inhabited

/-- A sequenced flit of a port: its number, its place in the bond's stream where it was dealt, or the packet that it
belongs to where it was not, its channel (R227, R230, R260, R261). -/
structure SeqFlit where
  seq : Nat := 0
  pos : Option Nat := none
  vc : Nat := 0
  flit : Flit := {}
  own : Option Packet := none
deriving DecidableEq, Repr

/-- A sequenced flit that a port has accepted and the merge has not taken: its channel, when it arrived. -/
structure RxFlit where
  vc : Nat
  flit : Flit
  since : Nat := 0
deriving DecidableEq, Repr

/-- The state of one port that no register shows (R55, R226–R236, R241–R247). `replay` is the replay buffer, `held` the
flits dealt to it that wait, `rxq` the accepted flits that the merge has not taken; `alloc` the allocation of the ingress
buffer in force, in units of 16 flits, `adv` the neighbour's in flits (R234); `auditFrom` the round that the next audit's
period counts from (R236), `stall` since when a channel waits for credit; `hist`, `laneErr`, `testFlits` and `testFails`
what a qualification has counted (R223, R247); `restPhase` 1 draining for a rest, 2 REST_REQ sent, 3 draining for the
neighbour's rest; `since` when the present step began; `pitchTill` the tick after the last pitch slot that was used. -/
structure Port where
  txSeq : Nat := 0
  rxSeq : Nat := 0
  replay : List SeqFlit := []
  held : List SeqFlit := []
  rxq : List RxFlit := []
  rxVc : Nat := 0
  inPitch : Bool := false
  ackStart : Nat := 0
  replays : Nat := 0
  limitRetrain : Bool := false
  limitDone : Option Nat := none
  alloc : List Nat := [16, 32, 32, 40, 40, 40, 40, 16]
  adv : List Nat := [0, 0, 0, 0, 0, 0, 0, 0]
  auditFrom : Nat := 0
  returned : List Nat := [0, 0, 0, 0, 0, 0, 0, 0]
  received : List Nat := [0, 0, 0, 0, 0, 0, 0, 0]
  owed : List Nat := [0, 0, 0, 0, 0, 0, 0, 0]
  lastOwed : Nat := 7
  stall : Map Nat := []
  hist : List Nat := []
  laneErr : List Nat := []
  testFlits : Nat := 0
  testFails : Nat := 0
  txOffUntil : Option Nat := none
  restPhase : Nat := 0
  since : Nat := 0
  qualified : Bool := false
  resyncRound : Nat := 0
  resyncGood : Nat := 0
  nbState : Nat := 0
  nbHops : Nat := 0
  nbAllowHalf : Bool := false
  pitchTill : Nat := 0
deriving DecidableEq, Repr, Inhabited

/-- A pitch packet held for a port's matched slot (R47): egress tick, schedule version, order of holding. -/
structure PitchHeld where
  port : Nat
  pkt : Packet
  tick : Nat
  ver : Nat
  heldAt : Nat
deriving DecidableEq, Repr

/-- A pitch packet of this device staged, or due to be staged, for its issue slot (R51, R52). -/
structure Staged where
  port : Nat
  pkt : Packet
  tick : Nat
  stagedAt : Nat
  tag : Nat
  coll : Option (Nat × Nat × Nat) := none
deriving DecidableEq, Repr

/-- A packet dealt to a bond: the place after its last flit's, itself (R264). -/
structure Dealt where
  till : Nat
  pkt : Packet
deriving DecidableEq, Repr

/-- One bond (R257–R264, R270). Sender: packets that wait with their ingress port (32 this device), the flits left of
the packet being dealt with their channel, the packets dealt and not surely merged, the place of the next flit in the
stream and the place of position 0 of the present rotation, the losing counts of the two share guarantees, the turns of
channels and ingress ports, the full-width members. Receiver: the rotation in sender port numbers, its position, the
packet being merged and when it arrived, the markers of a restart. -/
structure Bond where
  queue : List (Nat × Packet) := []
  dealing : List (Nat × Flit) := []
  dealt : List Dealt := []
  pos : Nat := 0
  base : Nat := 0
  lostResp : Nat := 0
  lostMgmt : Nat := 0
  turn : Map Nat := []
  full : Nat := 0
  rxMembers : Nat := 0
  rxFull : Nat := 0
  rxPos : Nat := 0
  rxVc : Nat := 0
  merging : List Flit := []
  mergeFrom : Nat := 0
  restartMask : Nat := 0
  restartSeen : Nat := 0
deriving DecidableEq, Repr, Inhabited

/-- Routers, bonds and pitch buffers (R47, R51, R265–R276): `eccFixed` counts the single-bit errors that the routers have
corrected, which no register shows (R278); `cmapGone` lists the devices whose snapshot is being discarded (R276). -/
structure Net where
  routerQ : List (Option Nat × Packet) := []
  bonds : Map Bond := []
  pitchHeld : List PitchHeld := []
  staged : List Staged := []
  claims : List (Nat × Nat) := []
  eccFixed : Nat := 0
  cmapGone : List Nat := []
deriving DecidableEq, Repr, Inhabited

/-- Time keeping that no register shows (R36, R37, R41, R45, R53, R57): phase in 1/16 tick, increments still to be
skipped and to be doubled, the guard in force, the last round that began, whether the alternate parent is in use, the
consecutive good rounds up to round `goodRound`, ticks of correction left in this round, the round of the last valid flit
of a parent, whether TIME_SYNC waits, what is left of the offset from the outside reference in 1/16 tick, the beat master
that the parent names. -/
structure Tim where
  phase16 : Nat := 0
  skip : Nat := 0
  dbl : Nat := 0
  guard : Nat := 16
  lastRound : Nat := 0
  useAlt : Bool := false
  good : Nat := 0
  goodRound : Nat := 0
  budget : Nat := 0
  lastFlitRound : Nat := 0
  syncing : Bool := false
  extLeft : Int := 0
  master : Nat := 0
deriving DecidableEq, Repr, Inhabited

/-- A group entry (R290), its two words. -/
structure Group where
  w0 : Word := 0
  w1 : Word := 0
deriving DecidableEq, Repr, Inhabited

/-- Bytes of a contribution of a collective (R299, R300): phase, share, position of the sender, place in the share. -/
structure Contribution where
  phase : Nat
  share : Nat
  src : Nat
  off : Nat
  data : List Byte
deriving DecidableEq, Repr

/-- One packet of an instance in its plan (R299, R307): phase, peer, share, place in the share, length, its number in the
operation, and its place in the phase's turn among the peers, by which the windows of R301 are cut. -/
structure PlanPacket where
  phase : Nat
  peer : Nat
  share : Nat
  off : Nat
  len : Nat
  num : Nat
  place : Nat
deriving DecidableEq, Repr

/-- An access that an engine makes for an instance (R284): whether it has been made, and its answer. -/
structure EngineIo where
  made : Bool := false
  status : Option Nat := none
  data : List Byte := []
  poison : Bool := false
deriving DecidableEq, Repr, Inhabited

/-- An open instance of a collective, or of the all-reduce of a group barrier (`sub` 6), at one member of this device
(R298–R311). `hold` maps a share to the phase it has reached and its bytes; `todo` lists the packets still to be sent;
`came` counts the packets that have come in a phase; `miss` counts the contributions that have not arrived whole;
`lateBy` is the deadline that a late pitch collective takes; `lastPos` arrived last, at `lastAt`, after the one at
`second`; `input` and `output` are the engine's accesses of SRC and DST. -/
structure Inst where
  gid : Nat
  epoch : Nat
  num : Nat
  pos : Nat
  tile : Nat
  tenant : Nat
  tag : Nat
  sub : Nat
  desc : Desc
  res : Nat := 0
  round : Nat := 0
  ver : Nat := 0
  pitch : Bool := false
  loaded : Bool := false
  hold : Map (Nat × List Byte) := []
  todo : List PlanPacket := []
  came : Map Nat := []
  got : List Contribution := []
  rows : Map (BitVec 32) := []
  miss : Nat := 0
  drops : Nat := 0
  late : Bool := false
  lateBy : Nat := 0
  lastPos : Nat := 0
  lastAt : Nat := 0
  second : Option Nat := none
  input : EngineIo := {}
  output : EngineIo := {}
deriving DecidableEq, Repr

/-- A barrier instance (R87, R88, R311). -/
structure BarInst where
  key : BarKey
  first : Nat
  deadline : Nat
  last : Nat
  release : Nat
  count : Nat
  arrived : List Nat := []
  trel : Option Nat := none
  epoch : Nat := 0
deriving DecidableEq, Repr

/-- Group table, member store, open instances, early packets, barriers (R286–R311); `waitAcc` counts the ticks of this
round in which an instance waited for another member (R305). -/
structure Coll where
  groups : Map Group := []
  store : Map (BitVec 32) := []
  drain : Option (Nat × Group) := none
  insts : List Inst := []
  early : List Packet := []
  bars : List BarInst := []
  nextInst : Map Nat := []
  waitAcc : Nat := 0
deriving DecidableEq, Repr, Inhabited

/-- One check-value channel (R317–R324): remainder, units by destination address, the stream it serves. -/
structure Cvu where
  base : Nat := 0
  total : Nat := 0
  bytes : Map Byte := []
  counted : List Nat := []
  remainder : Option Word := none
  unit0 : Nat := 0
  tag : Option Nat := none
deriving DecidableEq, Repr, Inhabited

/-- A submission entry or job packet: eight words (R97, R338). -/
structure Entry where
  idx : Nat
  words : List Word
deriving DecidableEq, Repr

/-- A queue completion record that waits to be written (R339). -/
structure QRec where
  idx : Nat
  status : Word
  check : Word := 0
deriving DecidableEq, Repr

/-- One queue pair's engine (R336, R339–R341): completion slots reserved for entries not yet answered, records written
and not yet returned, the last W0 written into each slot of the completion ring. -/
structure HQueue where
  reserved : Nat := 0
  ready : Nat := 0
  slots : Map Word := []
  fetched : List Entry := []
  reading : Bool := false
  records : List QRec := []
  seq : Nat := 0
  armed : Bool := false
deriving DecidableEq, Repr, Inhabited

/-- A job on a gang (R97–R99). `st` 1 loading, 2 waiting for its start, 3 running. -/
structure Job where
  q : Nat
  idx : Nat
  tenant : Nat
  leader : Nat
  st : Nat
  entry : Nat
  startTime : Nat
  startValid : Bool
  args : List Word
  loadDone : Nat := 0
  count : Nat := 0
  isLate : Bool := false
  poisoned : Bool := false
  err : Nat := 0
deriving DecidableEq, Repr

/-- What a read of host memory was made for (R336, R338, R450). -/
inductive HostRead where
  | entry (q idx : Nat)
  | dma (tag gen : Nat)
  | firmware (chunk : Nat)
deriving DecidableEq, Repr

/-- A host read through a BAR that has not been answered (R332). -/
structure BarRead where
  id : Nat
  fn : HostFn
  at_ : Nat
deriving DecidableEq, Repr

/-- One Ethernet flow's transport state (R344). -/
structure EthFlow where
  txSeq : Nat := 0
  rxSeq : Nat := 0
  unacked : List (Nat × Nat × List Byte) := []
  tag : Option Nat := none
  sentAt : Nat := 0
deriving DecidableEq, Repr, Inhabited

/-- The host interface and the ordinary network (R329–R349). `msix` is keyed by function × 0x1000 + table word, function
0 physical and 1 + v virtual; the mask bits are kept inverted, since they reset to 1. -/
structure HostIf where
  queues : Map HQueue := []
  jobs : List Job := []
  msix : Map Word := []
  pba : List (Nat × Nat) := []
  reads : List (Nat × HostRead) := []
  barReads : List BarRead := []
  nextId : Nat := 0
  flows : Map EthFlow := []
deriving DecidableEq, Repr, Inhabited

/-- Power, droop and thermal control that no register shows (R351–R380): calibrated coefficients, the last reading of
each rail, estimates in watts, the cap's share and limit of each partition, requests that wait for quiet detectors,
halved clocks as partition, cluster and tick, regulator warnings and the limit they set, the cap's lease, THROTTLE_IN_N,
throttled clusters, the coolant data's tick, domains that wait to turn on and the last turn-on of each rail, slack sums,
the loops' windows, calibration errors as tick and squared 1/1,000, the sum and the number of a rail's estimates since its
last reading. -/
structure Pwr where
  coef : Map (List Nat) := []
  lastRead : Map Nat := []
  lostRails : List Nat := []
  faultRails : List Nat := []
  estimate : Map Nat := []
  share : Map Nat := []
  capLim : Map Nat := []
  capCut : Bool := false
  capFloor : Bool := false
  request : List Nat := []
  halved : List (Nat × Nat × Nat) := []
  quietSince : Map Nat := []
  warned : List Nat := []
  warnLim : Map Nat := []
  leaseFrom : Option Nat := none
  extIn : Bool := false
  extSince : Nat := 0
  floor : Bool := false
  tripped : Bool := false
  hotSince : Map Nat := []
  coolSince : Map Nat := []
  coolantAt : Option Nat := none
  waitOn : List Nat := []
  lastOn : Map Nat := []
  slackSum : Nat := 0
  slackRounds : Nat := 0
  partWait : Map Nat := []
  breach : List Nat := []
  integral : Int := 0
  window : List Nat := []
  calErr : List (Nat × Nat) := []
  estSum : Map Nat := []
  estCount : Map Nat := []
deriving DecidableEq, Repr, Inhabited

/-- A reaction to run (R391): its source, what it captured, its partition, the tenants of dropped packets. -/
structure Reaction where
  src : Nat
  agent : Nat
  tenants : List Nat
  part : Option Nat
  limited : Bool
deriving DecidableEq, Repr

/-- Faults, fences and resets that no register shows (R391–R404). `present` lists the sources whose condition holds now
and shows in no register (R385); `seen` the last floods seen; `resetTenants` the tenants whose jobs a fence ended. -/
structure Flt where
  reactions : List Reaction := []
  seen : List (Nat × Nat) := []
  floodSeq : Nat := 0
  fenceAt : Map Nat := []
  resetAt : Map Nat := []
  resetTenants : Map (List Nat) := []
  halted : Bool := false
  smdOn : Bool := false
  present : List Nat := []
deriving DecidableEq, Repr, Inhabited

/-- Twin mode that no register shows (R415–R423). -/
structure Twin where
  txSeq : Map Nat := []
  openSeqs : List (Nat × Nat × Nat) := []
  windows : Map (BitVec 4096) := []
  digest : BitVec 32 := 0
  sentDigest : List (Nat × BitVec 32) := []
  paired : Bool := false
  conflict : Bool := false
  misses : Nat := 0
  refMisses : Map Nat := []
  refHeard : Map Nat := []
  copying : Bool := false
  resyncAsked : Bool := false
  holdJobs : Bool := false
  standbySince : Nat := 0
  swapAt : Option Nat := none
  heard : Option TwinBeat := none
deriving DecidableEq, Repr, Inhabited

/-- A session on a path (R444, R445). -/
structure Session where
  keyId : Nat := 0
  challenge : List Word := []
  openedAt : Nat := 0
  challengeAt : Option Nat := none
  failures : List Nat := []
  lockedUntil : Option Nat := none
deriving DecidableEq, Repr, Inhabited

/-- An audit log entry (R446). -/
structure Audit where
  role : Nat
  path : Nat
  outcome : Nat
  keyId : Nat
  time : Word
  address : Nat
  words : Nat := 0
  digest : BitVec 256 := 0
deriving DecidableEq, Repr

/-- A firmware image slot in flash (R447, R448): its chunks as written so far. `shipped` is the image that the package
leaves the factory with (notes/assumptions/22.md). -/
structure ImageSlot where
  shipped : Bool := false
  chunks : Map (List Byte) := []
deriving DecidableEq, Repr, Inhabited

/-- Fuses, flash, cellar and bring-up (R427–R457), and the TAP chain (R468). `stackCount` and `ioDies` are the assembly
fuses; `reached` steps and the step in progress are in BRINGUP.STATUS. -/
structure Boot where
  stackCount : Nat := 4
  ioDies : Nat := 4
  fuseBad : Bool := false
  serial : Word := 0
  licence : Option (List Word) := none
  routeWritten : Bool := false
  draff : Map (Word × Word) := []
  slotA : ImageSlot := { shipped := true }
  slotB : ImageSlot := {}
  cellarStarted : Bool := false
  fwFrom : Nat := 0
  fwNext : Nat := 0
  fwAcked : Map Nat := []
  fwSent : Map Nat := []
  /-- When each child port was last heard of, or first sent a chunk (R450). -/
  fwHeard : Map Nat := []
  /-- When the last chunk came (R450). -/
  fwChunkAt : Nat := 0
  sessions : Map Session := []
  audit : Map Audit := []
  auditNext : Nat := 0
  running : Nat := 0
  stepFrom : Nat := 0
  trainEnd : Nat := 0
  ports : List Nat := []
  tap : List (BitVec 8) := []
  jobFetch : Bool := false
  dmaRun : Bool := false
deriving DecidableEq, Repr, Inhabited

/-- A message the package hands to the outside (notes/assumptions/1.md). -/
inductive Out where
  | flit (n : Nat) (f : Flit)
  | branch (n src res : Nat) (also : List (Nat × Nat))
  | train (n : Nat)
  | lanes (n : Nat) (rx : List Nat) (allowHalf : Bool)
  | identity (n dev port maxDev : Nat)
  | probe (n count : Nat)
  | credits (n : Nat) (free alloc : List Nat) (expected : Nat)
  | test (n count : Nat)
  | time (n : Nat) (ack : Nat) (round dev st hops master ver : Nat)
  | ctrl (n : Nat) (ack vc count : Nat) (what : Nat)
  | audit (n : Nat) (ack vc count : Nat) (totals : List Nat) (nextSeq : Nat)
  | msix (fn vector : Nat)
  | pldm (what : Nat) (value : Word)
  | hostWrite (addr : Nat) (bytes : List Byte)
  | hostRead (id addr len : Nat)
  | hostAnswer (id : Nat) (status : Nat) (bytes : List Byte) (poisoned : Bool)
  | eth (port flow kind seq ack offset : Nat) (bytes : List Byte)
  | avs (rail mv : Nat)
  | refresh (p s : Nat) (allBank : Bool)
  | rfm (p s : Nat)
  | gate (c k : Nat)
  | writeStatus (who : Writer) (addr status : Nat)
  | twinCopy (device lo hi : Nat) (cells : List Host.Cell)
  | twinState (device : Nat) (seqs : Map Nat) (windows : Map (BitVec 4096))
deriving DecidableEq, Repr

/-- The whole package. `regs` holds every memory-mapped register word that differs from its reset value, keyed by
its offset in register space (R12, R472); `mem` holds SRAM and HBM by local address (R25); `banks` is keyed 16 × tile +
bank. -/
structure State where
  now : Word := 0
  regs : Map Word := []
  mem : List Host.Cell := []
  ecc : Map Ecc := []
  tiles : Map Tile := []
  banks : Map Bank := []
  cpl : Map Cpl := []
  rma : Rma := {}
  hbm : Map Stack := []
  ports : Map Port := []
  net : Net := {}
  tim : Tim := {}
  coll : Coll := {}
  cvu : Map Cvu := []
  host : HostIf := {}
  pwr : Pwr := {}
  flt : Flt := {}
  twin : Twin := {}
  boot : Boot := {}
  out : List Out := []
  free : Nat := 0
  pending : List Instr := []
deriving DecidableEq, Repr, Inhabited

/-- Reasons to stop with a fault. No meaning raises one: where the spec names an error, the error is an effect on
the state (notes/assumptions/6.md). -/
inductive Fault where
  /-- Raised by nobody: the machine has no state from which it cannot go on. Safe. -/
  | stuck
deriving DecidableEq, Repr

/-- Reasons to refuse a command. -/
inductive Refusal where
  /-- Raised by an arm of `exec` whose command has no meaning yet. Safe: it only stops. -/
  | notModelled (mnemonic : String)
deriving DecidableEq, Repr

/-- The package right after power-on reset of an M16F4 as shipped (R1, R471): every register reads its reset value,
no memory byte has been written, every table is empty. -/
def State.reset : State := {}

end Sys2Proof.Machine
end

