-- ==== Sys2Proof/Machine/Table.lean ====
section
/-! DEFINITION. Sparse tables in one canonical form, bit fields of words, and byte order: the helpers that every
other file builds on. -/

namespace Sys2Proof.Machine

/-- The value of key `k`, or the table's default `d`. -/
def mget {α : Type} (d : α) : Map α → Nat → α
  | [], _ => d
  | (k', v) :: r, k => if k' = k then v else mget d r k

/-- The table with key `k` holding `v`; a value equal to the default removes the entry. -/
def mset {α : Type} [DecidableEq α] (d : α) : Map α → Nat → α → Map α
  | [], k, v => if v = d then [] else [(k, v)]
  | (k', v') :: r, k, v =>
    if k = k' then (if v = d then mset d r k v else (k, v) :: r)
    else if k < k' ∧ v ≠ d then (k, v) :: (k', v') :: r
    else (k', v') :: mset d r k v

/-- Canonical form: keys strictly rising, and no value equal to the default of its key. -/
def mwf {α : Type} [DecidableEq α] (d : Nat → α) : Map α → Bool
  | [] => true
  | [(k, v)] => decide (v ≠ d k)
  | (k, v) :: (k', v') :: r => decide (v ≠ d k) && decide (k < k') && mwf d ((k', v') :: r)

/-- The table without the keys that `f` picks. -/
def mdrop {α : Type} (f : Nat → Bool) (m : Map α) : Map α :=
  m.filter (fun kv => !f kv.1)

/-- Bits [hi:lo] of a word, as a number. -/
def fld (w : Word) (hi lo : Nat) : Nat :=
  w.toNat / 2 ^ lo % 2 ^ (hi + 1 - lo)

/-- The word with bits [hi:lo] replaced by the low bits of `v`. -/
def setFld (w : Word) (hi lo v : Nat) : Word :=
  BitVec.ofNat 64
    (w.toNat / 2 ^ (hi + 1) * 2 ^ (hi + 1) + v % 2 ^ (hi + 1 - lo) * 2 ^ lo + w.toNat % 2 ^ lo)

/-- Bit `i` of a word. -/
def bit (w : Word) (i : Nat) : Bool := w.getLsbD i

/-- The word with bit `i` set to `b`. -/
def setBit (w : Word) (i : Nat) (b : Bool) : Word := setFld w i i (if b then 1 else 0)

/-- Number of ones among the low `n` bits of a mask. -/
def popCount (mask : Nat) : Nat → Nat
  | 0 => 0
  | n + 1 => popCount mask n + (if mask.testBit n then 1 else 0)

/-- The positions of the ones among the low `n` bits of a mask, ascending. -/
def maskBits (mask n : Nat) : List Nat := (List.range n).filter (fun i => mask.testBit i)

/-- A mask with ones at the given positions. -/
def maskOf (l : List Nat) : Nat := l.foldl (fun m i => m ||| 2 ^ i) 0

/-- A number read as signed in `n` bits. -/
def signedOf (n v : Nat) : Int :=
  if v % 2 ^ n < 2 ^ (n - 1) then (v % 2 ^ n : Nat) else ((v % 2 ^ n : Nat) : Int) - (2 ^ n : Nat)

/-- An integer as an `n`-bit two's-complement number. -/
def unsignedOf (n : Nat) (v : Int) : Nat := (v % ((2 ^ n : Nat) : Int)).toNat

/-- Saturating sum at `n` bits, the form of every counter that the spec calls saturating. -/
def satAdd (n a b : Nat) : Nat := min (a + b) (2 ^ n - 1)

/-- The little-endian number that a list of bytes spells (R106, R195). -/
def leNat : List Byte → Nat
  | [] => 0
  | b :: r => b.toNat + 256 * leNat r

/-- The `n` little-endian bytes of a number. -/
def leBytes : Nat → Nat → List Byte
  | 0, _ => []
  | n + 1, v => BitVec.ofNat 8 v :: leBytes n (v / 256)

/-- The word that eight bytes spell. -/
def leWord (bs : List Byte) : Word := BitVec.ofNat 64 (leNat bs)

/-- The bytes of a list of words, in order. -/
def wordsBytes (ws : List Word) : List Byte := ws.flatMap (fun w => leBytes 8 w.toNat)

/-- The words that a list of bytes spells, `n` of them. -/
def bytesWords : Nat → List Byte → List Word
  | 0, _ => []
  | n + 1, bs => leWord (bs.take 8) :: bytesWords n (bs.drop 8)

/-- Element `i` of a list of numbers, 0 past its end. -/
def nth (l : List Nat) (i : Nat) : Nat := l.getD i 0

/-- The list with element `i` replaced, where it has one. -/
def setNth (l : List Nat) (i v : Nat) : List Nat := l.set i v

/-- The quotient rounded up. -/
def ceilDiv (a b : Nat) : Nat := (a + b - 1) / b

/-- A word from a number. -/
def wd (n : Nat) : Word := BitVec.ofNat 64 n

/-- The integer square root of a number below 4^k. -/
def isqrt (n : Nat) : Nat → Nat → Nat
  | 0, r => r
  | k + 1, r => isqrt n k (if (r + 2 ^ k) * (r + 2 ^ k) ≤ n then r + 2 ^ k else r)

/-- An element put into an ordered list before the first that it may precede. -/
def insertBy {α : Type} (le : α → α → Bool) (x : α) : List α → List α
  | [] => [x]
  | y :: r => if le x y then x :: y :: r else y :: insertBy le x r

/-- A list put in order; equals stay in theirs. -/
def sortBy {α : Type} (le : α → α → Bool) : List α → List α
  | [] => []
  | x :: r => insertBy le x (sortBy le r)

end Sys2Proof.Machine
end

