-- ==== Sys2Proof/Machine/Flags.lean ====
section
/-! DEFINITION. Element formats (R105–R108), exact values, rounding with its flags (R123, R124, R133, R135), the
arithmetic of the vector unit (R133, R134, R137) and wide partials (R126–R130). -/

namespace Sys2Proof.Machine

/-- An exact value: NaN, an infinity, a signed zero, or ±m × 2^e with m > 0. -/
inductive Num where
  | nan
  | inf (neg : Bool)
  | zero (neg : Bool)
  | fin (neg : Bool) (m : Nat) (e : Int)
deriving DecidableEq, Repr

/-- The arithmetic flags of R139, in the order of TILE.ARITH_STATUS. -/
structure AFlags where
  invalid : Bool := false
  underflow : Bool := false
  overflow : Bool := false
  saturated : Bool := false
  reanchor : Bool := false
  inexactWindow : Bool := false
deriving DecidableEq, Repr

/-- Both sets of flags. -/
def AFlags.or (a b : AFlags) : AFlags :=
  { invalid := a.invalid || b.invalid, underflow := a.underflow || b.underflow,
    overflow := a.overflow || b.overflow, saturated := a.saturated || b.saturated,
    reanchor := a.reanchor || b.reanchor, inexactWindow := a.inexactWindow || b.inexactWindow }

/-- The flags as bits [5:0] of TILE.ARITH_STATUS (R139). -/
def AFlags.mask (f : AFlags) : Nat :=
  (if f.invalid then 1 else 0) + (if f.underflow then 2 else 0) + (if f.overflow then 4 else 0)
    + (if f.saturated then 8 else 0) + (if f.reanchor then 16 else 0) + (if f.inexactWindow then 32 else 0)

/-- A binary floating-point format (R105): exponent and fraction widths, bias, and what its top codes are: 0 IEEE
infinities and NaNs, 1 one NaN per sign and no infinity, 2 neither. -/
structure Fmt where
  eb : Nat
  fb : Nat
  bias : Int
  top : Nat
deriving DecidableEq, Repr

/-- The floating-point format of a code of R76; codes without one take FP32's. -/
def fmtOf (code : Nat) : Fmt :=
  if code = 1 then ⟨8, 7, 127, 0⟩ else if code = 2 then ⟨5, 10, 15, 0⟩
  else if code = 3 ∨ code = 5 then ⟨4, 3, 7, 1⟩ else if code = 4 ∨ code = 6 then ⟨5, 2, 15, 0⟩
  else if code = 7 then ⟨3, 2, 3, 2⟩ else if code = 8 then ⟨2, 3, 1, 2⟩
  else if code = 9 then ⟨2, 1, 1, 2⟩ else ⟨8, 23, 127, 0⟩

/-- The format codes of R76 that are integers, and those that carry block scales. -/
def isIntFmt (c : Nat) : Bool := decide (c = 0xA ∨ c = 0xB ∨ c = 0xC)
/-- See `isIntFmt`. -/
def isMxFmt (c : Nat) : Bool := decide (5 ≤ c ∧ c ≤ 0xA)

/-- Element width in bits (R105). -/
def widthOf (c : Nat) : Nat :=
  if c = 0 then 32 else if c = 1 ∨ c = 2 then 16 else if c = 7 ∨ c = 8 then 6 else if c = 9 ∨ c = 0xC then 4 else 8

/-- T of R105; BF16 and FP16 take theirs from the data. -/
def topExp (c : Nat) : Int :=
  if c = 3 ∨ c = 5 then 8 else if c = 4 ∨ c = 6 then 15 else if c = 7 then 4 else if c = 8 ∨ c = 9 then 2
  else if c = 0xA then 1 else if c = 0xB then 7 else 3

/-- K_b of a format's own throughput class (R109). -/
def classK (c : Nat) : Nat := if c = 9 ∨ c = 0xC then 128 else if c = 1 ∨ c = 2 then 16 else 64

/-- Smallest normal exponent of a format. -/
def Fmt.emin (f : Fmt) : Int := 1 - f.bias

/-- Largest finite magnitude of a format, as its bits without the sign. -/
def Fmt.maxBits (f : Fmt) : Nat :=
  if f.top = 0 then (2 ^ f.eb - 1) * 2 ^ f.fb - 1
  else if f.top = 1 then 2 ^ (f.eb + f.fb) - 2 else 2 ^ (f.eb + f.fb) - 1

/-- The sign bit of a format set or clear. -/
def Fmt.sign (f : Fmt) (neg : Bool) : Nat := if neg then 2 ^ (f.eb + f.fb) else 0

/-- Infinity and the canonical quiet NaN of a format (R123, R133). -/
def Fmt.infBits (f : Fmt) (neg : Bool) : Nat := f.sign neg + (2 ^ f.eb - 1) * 2 ^ f.fb
/-- See `Fmt.infBits`. -/
def Fmt.nanBits (f : Fmt) : Nat :=
  if f.top = 1 then 2 ^ (f.eb + f.fb) - 1 else (2 ^ f.eb - 1) * 2 ^ f.fb + 2 ^ (f.fb - 1)

/-- The value that the bits of a floating-point format spell (R105, R108). -/
def decodeFp (f : Fmt) (v : Nat) : Num :=
  let neg := v.testBit (f.eb + f.fb)
  let ex := v / 2 ^ f.fb % 2 ^ f.eb
  let fr := v % 2 ^ f.fb
  if f.top = 0 ∧ ex = 2 ^ f.eb - 1 then (if fr = 0 then .inf neg else .nan)
  else if f.top = 1 ∧ v % 2 ^ (f.eb + f.fb) = 2 ^ (f.eb + f.fb) - 1 then .nan
  else if ex = 0 then (if fr = 0 then .zero neg else .fin neg fr (f.emin - f.fb))
  else .fin neg (2 ^ f.fb + fr) (ex - f.bias - f.fb)

/-- The value of a signed integer times a power of two. -/
def ofInt (i : Int) (e : Int) : Num :=
  if i = 0 then .zero false else .fin (decide (i < 0)) i.natAbs e

/-- The value of an element of a format of R105, without its scale. -/
def decodeElem (c v : Nat) : Num :=
  if c = 0xA then ofInt (signedOf 8 v) (-6)
  else if c = 0xB then ofInt (signedOf 8 v) 0
  else if c = 0xC then ofInt (signedOf 4 v) 0
  else decodeFp (fmtOf c) (v % 2 ^ widthOf c)

/-- The element times a power of two. -/
def Num.scale (k : Int) : Num → Num
  | .fin n m e => .fin n m (e + k)
  | x => x

/-- Exponent of the leading bit of a finite value. -/
def leadExp (m : Nat) (e : Int) : Int := (Nat.log2 m : Int) + e

/-- m × 2^e to the nearest multiple of 2^t, ties to even: the multiple, and whether it is inexact. -/
def roundAt (m : Nat) (e t : Int) : Nat × Bool :=
  if t ≤ e then (m * 2 ^ (e - t).toNat, false)
  else
    let d := 2 ^ (t - e).toNat
    let q := m / d
    let r := m % d
    (if 2 * r < d ∨ (2 * r = d ∧ q % 2 = 0) then q else q + 1, decide (r ≠ 0))

/-- A rounded result: bits without the sign, and what happened. -/
structure Rnd where
  mag : Nat
  inexact : Bool
  tiny : Bool
  ovf : Bool
deriving DecidableEq, Repr

/-- ±m × 2^e (m > 0) rounded to nearest even in a format, before infinities and saturation (R123). -/
def roundMag (f : Fmt) (m : Nat) (e : Int) : Rnd :=
  let p := leadExp m e
  let t := max (p - f.fb) (f.emin - f.fb)
  let r := roundAt m e t
  let bits := (t - (f.emin - f.fb)).toNat * 2 ^ f.fb + r.1
  { mag := bits, inexact := r.2, tiny := decide (p < f.emin), ovf := decide (f.maxBits < bits) }

/-- A value in a format with infinities, rounded to nearest even, with its flags (R123, R133). `inval` says that a NaN
arose from operands that were no NaN. -/
def encodeRne (f : Fmt) (inval : Bool) : Num → Nat × AFlags
  | .nan => (f.nanBits, { invalid := inval })
  | .inf n => (f.infBits n, {})
  | .zero n => (f.sign n, {})
  | .fin n m e =>
    let r := roundMag f m e
    if r.ovf then (f.infBits n, { overflow := true })
    else (f.sign n + r.mag, { underflow := r.tiny && r.inexact })

/-- A signed sum of two exact values; the flag says that opposite infinities met. -/
def addNum : Num → Num → Num × Bool
  | .nan, _ => (.nan, false)
  | _, .nan => (.nan, false)
  | .inf a, .inf b => if a = b then (.inf a, false) else (.nan, true)
  | .inf a, _ => (.inf a, false)
  | _, .inf b => (.inf b, false)
  | .zero a, .zero b => (.zero (a && b), false)
  | .zero _, x => (x, false)
  | x, .zero _ => (x, false)
  | .fin a m e, .fin b n k =>
    let lo := min e k
    let x : Int := (m * 2 ^ (e - lo).toNat : Nat)
    let y : Int := (n * 2 ^ (k - lo).toNat : Nat)
    (ofInt ((if a then -x else x) + (if b then -y else y)) lo, false)

/-- The exact product; the flag says that an infinity met a zero. -/
def mulNum : Num → Num → Num × Bool
  | .nan, _ => (.nan, false)
  | _, .nan => (.nan, false)
  | .inf a, .inf b => (.inf (a != b), false)
  | .inf _, .zero _ => (.nan, true)
  | .zero _, .inf _ => (.nan, true)
  | .inf a, .fin b _ _ => (.inf (a != b), false)
  | .fin a _ _, .inf b => (.inf (a != b), false)
  | .zero a, .zero b => (.zero (a != b), false)
  | .zero a, .fin b _ _ => (.zero (a != b), false)
  | .fin a _ _, .zero b => (.zero (a != b), false)
  | .fin a m e, .fin b n k => (.fin (a != b) (m * n) (e + k), false)

/-- The value with its sign turned. -/
def negNum : Num → Num
  | .nan => .nan
  | .inf a => .inf (!a)
  | .zero a => .zero (!a)
  | .fin a m e => .fin (!a) m e

/-- Strictly less, of values that are no NaN; −0 < +0 (R134). -/
def ltNum : Num → Num → Bool
  | .nan, _ => false
  | _, .nan => false
  | .inf a, .inf b => a && !b
  | .inf a, _ => a
  | _, .inf b => !b
  | .zero a, .zero b => a && !b
  | .zero _, .fin b _ _ => !b
  | .fin a _ _, .zero _ => a
  | .fin a m e, .fin b n k =>
    let lo := min e k
    let x : Int := (m * 2 ^ (e - lo).toNat : Nat)
    let y : Int := (n * 2 ^ (k - lo).toNat : Nat)
    decide ((if a then -x else x) < (if b then -y else y))

/-- IEEE 754-2019 maximum and minimum (R134): NaN propagates. -/
def maxNum (a b : Num) : Num := if a = .nan ∨ b = .nan then .nan else if ltNum a b then b else a
/-- See `maxNum`. -/
def minNum (a b : Num) : Num := if a = .nan ∨ b = .nan then .nan else if ltNum b a then b else a

/-- a × b + c rounded once in a format (R133). DESIGN CHOICE (notes/assumptions/48.md): infinity × 0 sets INVALID even
when c is NaN. -/
def fmaBits (f : Fmt) (a b c : Num) : Nat × AFlags :=
  let p := mulNum a b
  let r := addNum p.1 c
  encodeRne f (p.2 || r.2) r.1

/-- a + b and a × b rounded once in a format (R133). -/
def addBits (f : Fmt) (a b : Num) : Nat × AFlags := let r := addNum a b; encodeRne f r.2 r.1
/-- See `addBits`. -/
def mulBits (f : Fmt) (a b : Num) : Nat × AFlags := let r := mulNum a b; encodeRne f r.2 r.1

/-- FP32 addition as a bank performs it (R149): canonical NaN, no flag. -/
def addF32 (a b : Nat) : Nat := (addBits (fmtOf 0) (decodeFp (fmtOf 0) a) (decodeFp (fmtOf 0) b)).1

-- Conversions (R135)

/-- One value converted to FP32, BF16, FP16, E4M3 or E5M2, with (`sat`) or without saturation. -/
def convFp (c : Nat) (sat : Bool) (x : Num) : Nat × AFlags :=
  let f := fmtOf c
  let beyond (n fin : Bool) : Nat × AFlags :=
    if sat then (f.sign n + f.maxBits, { saturated := true })
    else if f.top = 1 then (f.nanBits, { overflow := true })
    else (f.infBits n, { overflow := fin })
  match x with
  | .nan => (f.nanBits, {})
  | .zero n => (f.sign n, {})
  | .inf n => beyond n false
  | .fin n m e =>
    let r := roundMag f m e
    if r.ovf then beyond n true else (f.sign n + r.mag, { underflow := r.tiny && r.inexact })

/-- A finite value rounded to nearest even and clamped to the range of an n-bit integer (R135). -/
def convInt (n : Nat) : Num → Nat × AFlags
  | .nan => (0, { invalid := true })
  | .zero _ => (0, {})
  | .inf g => (if g then 2 ^ (n - 1) else 2 ^ (n - 1) - 1, { saturated := true })
  | .fin g m e =>
    let q := (roundAt m e 0).1
    if g then
      (if 2 ^ (n - 1) < q then (2 ^ (n - 1), { saturated := true }) else (unsignedOf n (-(q : Int)), {}))
    else (if 2 ^ (n - 1) - 1 < q then (2 ^ (n - 1) - 1, { saturated := true }) else (q, {}))

/-- One element of an MX block, already divided by its scale: rounded and clamped to the largest finite element. -/
def convMxElem (c : Nat) (x : Num) : Nat × AFlags :=
  if c = 0xA then convInt 8 (x.scale 6)
  else
    let f := fmtOf c
    match x with
    | .fin n m e =>
      let r := roundMag f m e
      if r.ovf then (f.sign n + f.maxBits, { saturated := true })
      else (f.sign n + r.mag, {})
    | .zero n => (f.sign n, {})
    | _ => (0, {})

/-- Exponent of the leading bit of a value, none for zeros and specials. -/
def Num.lead : Num → Option Int
  | .fin _ m e => some (leadExp m e)
  | _ => none

/-- The larger of two optional exponents. -/
def optMax : Option Int → Option Int → Option Int
  | some a, some b => some (max a b)
  | none, b => b
  | a, none => a

/-- One MX block of values: its element codes, its scale byte, its flags (R135). DESIGN CHOICE
(notes/assumptions/48.md): the elements of a block whose scale is 0xFF. -/
def convMxBlock (c : Nat) (xs : List Num) : List Nat × Nat × AFlags :=
  let special := xs.any (fun x => match x with | .nan => true | .inf _ => true | _ => false)
  let big := xs.foldl (fun a x => optMax a x.lead) none
  let k : Int := match big with | none => 0 | some b => max (-127) (min 127 (b - topExp c))
  let scale := if special then 0xFF else (k + 127).toNat
  let el := xs.map (fun x => convMxElem c (x.scale (-k)))
  (el.map (·.1), scale,
    (el.foldl (fun (a : AFlags) r => a.or r.2) {}).or { invalid := special })

-- Wide partials (R126–R130)

/-- A wide partial: NaN, an infinity, or W × 2^(a − 62) with its sticky bit. -/
inductive Wide where
  | nan
  | inf (neg : Bool)
  | fin (w : Int) (a : Int) (sticky : Bool)
deriving DecidableEq, Repr

/-- The wide partial that 128 bits spell (R126). -/
def Wide.ofBits (v : Nat) : Wide :=
  if v.testBit 1 then
    (if v / 2 ^ 16 % 2 ^ 112 = 1 then .inf false
     else if v / 2 ^ 16 % 2 ^ 112 = 2 ^ 112 - 1 then .inf true else .nan)
  else .fin (signedOf 112 (v / 2 ^ 16)) (signedOf 14 (v / 4)) (v.testBit 0)

/-- The 128 bits of a wide partial as the device writes it (R126). DESIGN CHOICE (notes/assumptions/48.md): an anchor
above 8191 wraps. -/
def Wide.toBits : Wide → Nat
  | .nan => 2
  | .inf n => (if n then (2 ^ 112 - 1) * 2 ^ 16 else 2 ^ 16) + 2
  | .fin w a st => unsignedOf 112 w * 2 ^ 16 + unsignedOf 14 a * 4 + (if st then 1 else 0)

/-- An arithmetic right shift, and whether a non-zero bit was dropped. -/
def shiftDrop (w : Int) (k : Nat) : Int × Bool := (w / 2 ^ k, decide (w % 2 ^ k ≠ 0))

/-- Whether a value fits in 112 bits. -/
def fits112 (w : Int) : Bool := decide (-(2 : Int) ^ 111 ≤ w ∧ w < (2 : Int) ^ 111)

/-- The sum of two wide partials, and whether this addition dropped bits (R128). -/
def Wide.add : Wide → Wide → Wide × Bool
  | .nan, _ => (.nan, false)
  | _, .nan => (.nan, false)
  | .inf a, .inf b => if a = b then (.inf a, false) else (.nan, false)
  | .inf a, _ => (.inf a, false)
  | _, .inf b => (.inf b, false)
  | .fin w a s, .fin x b t =>
    let m := max a b
    let p := shiftDrop w (m - a).toNat
    let q := shiftDrop x (m - b).toNat
    let sum := p.1 + q.1
    if fits112 sum then (.fin sum m (s || t || p.2 || q.2), p.2 || q.2)
    else
      let r := shiftDrop sum 1
      (.fin r.1 (m + 1) (s || t || p.2 || q.2 || r.2), p.2 || q.2 || r.2)

/-- A value converted to a wide partial under an anchor, and whether bits were dropped (R129). -/
def Wide.ofNum (ap : Int) : Num → Wide × Bool
  | .nan => (.nan, false)
  | .inf n => (.inf n, false)
  | .zero _ => (.fin 0 ap false, false)
  | .fin n m e =>
    let a := max ap (leadExp m e - 1)
    let x : Int := if n then -(m : Int) else m
    let k := e - (a - 62)
    if 0 ≤ k then (.fin (x * 2 ^ k.toNat) a false, false)
    else let r := shiftDrop x (-k).toNat; (.fin r.1 a r.2, r.2)

/-- A wide value rounded to nearest even in FP32 or BF16 (R123, R130): a set sticky bit stands just above W × u. -/
def Wide.round (f : Fmt) : Wide → Nat × AFlags
  | .nan => (f.nanBits, {})
  | .inf n => (f.infBits n, {})
  | .fin w a st =>
    if w = 0 then (0, { underflow := st })
    else
      let x : Int := w * 2 ^ 64 + (if st then 1 else 0)
      encodeRne f false (ofInt x (a - 62 - 64))

/-- A wide value rounded stochastically with the 24-bit draw `r` (R124). The flags compare the written value with
the window's exact value, its sticky bit included. -/
def Wide.stochastic (f : Fmt) (r : Nat) : Wide → Nat × AFlags
  | .nan => (f.nanBits, {})
  | .inf n => (f.infBits n, {})
  | .fin w a st =>
    if w = 0 then (0, { underflow := st })
    else
      let m := w.natAbs
      let e := a - 62
      let n := decide (w < 0)
      let p := leadExp m e
      let t := max (p - f.fb) (f.emin - f.fb)
      let scaled : Nat := if t ≤ e then m * 2 ^ (e - t).toNat * 2 ^ 24
        else m * 2 ^ 24 / 2 ^ (t - e).toNat
      let q := scaled / 2 ^ 24
      let fr := scaled % 2 ^ 24
      let q' := if 2 ^ 24 ≤ fr + r then q + 1 else q
      let bits := (t - (f.emin - f.fb)).toNat * 2 ^ f.fb + q'
      let exact := !st && decide (t ≤ e ∨ m % 2 ^ (t - e).toNat = 0) && decide (q' = q)
      let x : Int := w * 2 ^ 64 + (if st then 1 else 0)
      let tiny := decide (leadExp x.natAbs (e - 64) < f.emin)
      if f.maxBits < bits then (f.infBits n, { overflow := true })
      else (f.sign n + bits, { underflow := tiny && !exact })

/-- One step of the tile's generator (R125). -/
def xorshift (x : BitVec 64) : BitVec 64 :=
  let a := x ^^^ (x <<< 13)
  let b := a ^^^ (a >>> 7)
  b ^^^ (b <<< 17)

/-- The generator state that a seed loads (R125). -/
def seedState (seed : Word) : Word := if seed = 0 then 0x9E3779B97F4A7C15#64 else seed

-- Windows of an accumulator (R115–R122)

/-- A window as a wide value for MXD and MXX (R121, R127): the flag says that it does not fit in 112 bits. -/
def Window.wide (a : Int) (x : Window) : Wide × Bool :=
  match x.st with
  | .nan => (.nan, false)
  | .posInf => (.inf false, false)
  | .negInf => (.inf true, false)
  | .finite => if fits112 x.w.toInt then (.fin x.w.toInt a x.sticky, false) else (.inf (decide (x.w.toInt < 0)), true)

/-- A window shifted right when its accumulator takes a larger anchor (R117). -/
def Window.reanchor (k : Nat) (x : Window) : Window :=
  let r := shiftDrop x.w.toInt k
  { x with w := BitVec.ofInt 120 r.1, sticky := x.sticky || r.2 }

/-- One product entering a window of anchor `a` (R118, R122), and whether INVALID is set. -/
def Window.insert (a : Int) (p : Num × Bool) (x : Window) : Window × Bool :=
  match p.1 with
  | .nan => ({ x with st := .nan }, p.2)
  | .zero _ => (x, false)
  | .inf n =>
    (match x.st with
     | .finite => ({ x with st := if n then .negInf else .posInf }, false)
     | .posInf => if n then ({ x with st := .nan }, true) else (x, false)
     | .negInf => if n then (x, false) else ({ x with st := .nan }, true)
     | .nan => (x, false))
  | .fin n m e =>
    let v : Int := if n then -(m : Int) else m
    let k := e - (a - 62)
    if 0 ≤ k then ({ x with w := x.w + BitVec.ofInt 120 (v * 2 ^ k.toNat) }, false)
    else
      let r := shiftDrop v (-k).toNat
      ({ x with w := x.w + BitVec.ofInt 120 r.1, sticky := x.sticky || r.2 }, false)

/-- Element j of a bit stream of w-bit elements (R106). -/
def elemAt (w : Nat) (bytes : List Byte) (j : Nat) : Nat :=
  let lo := w * j / 8
  leNat ((bytes.drop lo).take (w / 8 + 2)) / 2 ^ (w * j % 8) % 2 ^ w

/-- Packs w-bit elements into a bit stream (R106). -/
def packElems (w : Nat) (es : List Nat) : Nat := es.foldr (fun e acc => acc * 2 ^ w + e % 2 ^ w) 0

/-- A scale byte's factor: none for NaN (R107). -/
def scaleExp (s : Nat) : Option Int := if s = 0xFF then none else some ((s : Int) - 127)

/-- An element with its scale applied (R107, R108). -/
def scaled (c v : Nat) (s : Option Int) : Num :=
  match s with
  | none => .nan
  | some k => (decodeElem c v).scale k

/-- Whether an element contributes to the pre-pass: finite and not zero (R116, R122). -/
def Num.isFin : Num → Bool
  | .fin _ _ _ => true
  | _ => false

/-- The pre-pass exponent of an operand, from its scale bytes and its scaled elements (R116): −160 when no element
contributes; else from its scales, its format or its elements. A subnormal element counts as the minimum normal
exponent. -/
def prepass (c : Nat) (scales : List Nat) (vals : List Num) : Int :=
  if !vals.any Num.isFin then -160
  else if isMxFmt c then
    (match scales.foldl (fun a s => optMax a (scaleExp s)) none with
     | none => -160
     | some k => k + topExp c)
  else if c = 1 ∨ c = 2 then
    (match vals.foldl (fun a v => optMax a v.lead) none with
     | none => -160
     | some k => max k (fmtOf c).emin)
  else topExp c

end Sys2Proof.Machine
end

