-- ==== Sys2Proof/Machine/Regs.lean ====
section
/-! DEFINITION. The register space (R12, R472): the place of every register, its reset value, the bits that a plain
write sets or clears (R14), and who may write it. An address here is an offset in register space. -/

namespace Sys2Proof.Machine.Reg

/-- First local address of register space (R25). -/
def spaceBase : Nat := 0x7FF000000000

/-- Size of register space (R25). -/
def spaceSize : Nat := 0x2040000

-- CELLAR (R455)
def authCtrl : Nat := 0x0
def authStatus : Nat := 0x8
def roleRefused : Nat := 0x10
def authChallenge (i : Nat) : Nat := 0x40 + 8 * i
def authResponse (i : Nat) : Nat := 0x80 + 8 * i
def key (k w : Nat) : Nat := 0x400 + 0x80 * k + 8 * w
def auditIndex : Nat := 0x1000
def auditHead : Nat := 0x1008
def auditData (w : Nat) : Nat := 0x1040 + 8 * w
-- BRINGUP (R452)
def step : Nat := 0x10000
def bringupStatus : Nat := 0x10008
def partResult : Nat := 0x10010
def portResult : Nat := 0x10018
def portResult2 : Nat := 0x10020
def timeSyncWait : Nat := 0x10028
def bringupEvent : Nat := 0x10030
def spareMap (p : Nat) : Nat := 0x10100 + 8 * p
def draffIndex : Nat := 0x10200
def draffData0 : Nat := 0x10208
def draffData1 : Nat := 0x10210
def draffCtrl : Nat := 0x10218
def draffCount : Nat := 0x10220
-- FUSELIC (R454)
def serial : Nat := 0x20000
def assembly : Nat := 0x20008
def capability : Nat := 0x20010
def licStatus : Nat := 0x20018
def licCtrl : Nat := 0x20020
def svnMin : Nat := 0x20028
def licStage (i : Nat) : Nat := 0x20100 + 8 * i
-- FAULT (R407)
def faultStatus : Nat := 0x30000
def faultForce : Nat := 0x30008
def firstSource : Nat := 0x30010
def faultCtrl : Nat := 0x30018
def smdStatus : Nat := 0x30020
def smdCtrl : Nat := 0x30028
def fenceCtrl : Nat := 0x30030
def fenceStatus : Nat := 0x30038
def resetCtrl : Nat := 0x30040
def resetStatus : Nat := 0x30048
def fenceDrain : Nat := 0x30050
def heartbeat : Nat := 0x30058
def abortStatus : Nat := 0x30060
def abortCtrl : Nat := 0x30068
def mgmtView : Nat := 0x30070
def disagree : Nat := 0x30078
def inputStatus : Nat := 0x30080
def reaction (s : Nat) : Nat := 0x30100 + 8 * s
def dcap (s w : Nat) : Nat := 0x30400 + 0x20 * s + 8 * w
def abortGroup (t : Nat) : Nat := 0x31000 + 8 * t
-- POWER (R381)
def powerCtrl : Nat := 0x40000
def powerStatus : Nat := 0x40008
def powerEvent : Nat := 0x40010
def powerCap : Nat := 0x40018
def capLease : Nat := 0x40020
def measured : Nat := 0x40028
def slackAvg : Nat := 0x40030
def ballastLevel : Nat := 0x40038
def extThrottle : Nat := 0x40040
def shiftCtrl : Nat := 0x40048
def ffBreach : Nat := 0x40050
def stretchCount : Nat := 0x40058
def calStatus : Nat := 0x40060
def domainCtrl : Nat := 0x40068
def domainStatus : Nat := 0x40070
def rail (r : Nat) : Nat := 0x40100 + 8 * r
-- THERMAL (R384)
def thermalStatus : Nat := 0x50000
def thermalEvent : Nat := 0x50008
def thermalLimits : Nat := 0x50010
def thermalForecast : Nat := 0x50018
def forecastCtrl : Nat := 0x50020
def coolant : Nat := 0x50028
def cluster (c : Nat) : Nat := 0x50100 + 8 * c
def ioTemp (j : Nat) : Nat := 0x50200 + 8 * j
-- TIME (R58)
def timeNow : Nat := 0x60000
def timeStatus : Nat := 0x60008
def timeCtrl : Nat := 0x60010
def timeParent : Nat := 0x60018
def timeGuard : Nat := 0x60020
def extOffset : Nat := 0x60028
def epochTai : Nat := 0x60030
def schedCtrl : Nat := 0x60038
def schedSwitchRound : Nat := 0x60040
def schedOldCount : Nat := 0x60048
def timeEvent : Nat := 0x60050
def slewCount : Nat := 0x60058
def portDelay (n : Nat) : Nat := 0x60100 + 8 * n
def portOffset (n : Nat) : Nat := 0x60200 + 8 * n
def portPitch (n : Nat) : Nat := 0x60300 + 8 * n
def resA (r w : Nat) : Nat := 0x64000 + 16 * r + 8 * w
def resB (r w : Nat) : Nat := 0x68000 + 16 * r + 8 * w
-- ROUTE (R280)
def deviceId : Nat := 0x70000
def routeMachine : Nat := 0x70008
def preset : Nat := 0x70010
def routeEpoch : Nat := 0x70018
def routeEvent : Nat := 0x70020
def routeDiscard : Nat := 0x70028
def cmapCtrl : Nat := 0x70030
def cmapBase : Nat := 0x70038
def cmapStatus : Nat := 0x70040
def portBond (n : Nat) : Nat := 0x70100 + 8 * n
def bond (b : Nat) : Nat := 0x70200 + 8 * b
def oldCount (n : Nat) : Nat := 0x70300 + 8 * n
-- COLL (R314)
def collUpdateCtrl : Nat := 0x80000
def collUpdateStatus : Nat := 0x80008
def collOldCount : Nat := 0x80010
def engineStatus : Nat := 0x80018
def groupIndex : Nat := 0x80020
def groupData0 : Nat := 0x80028
def groupData1 : Nat := 0x80030
def memberIndex : Nat := 0x80038
def memberData : Nat := 0x80040
def collSlack : Nat := 0x80048
def lateInfo : Nat := 0x80050
def collEvent : Nat := 0x80058
def collErrCount : Nat := 0x80060
def stageGroup (w : Nat) : Nat := 0x81000 + 8 * w
def stageMember (i : Nat) : Nat := 0x82000 + 8 * i
-- CVU (R326)
def cvuCfg (c : Nat) : Nat := 0x90000 + 0x40 * c
def cvuPoly (c : Nat) : Nat := 0x90008 + 0x40 * c
def cvuInit (c : Nat) : Nat := 0x90010 + 0x40 * c
def cvuXorout (c : Nat) : Nat := 0x90018 + 0x40 * c
def cvuRxMatch (c : Nat) : Nat := 0x90020 + 0x40 * c
def cvuRxLen (c : Nat) : Nat := 0x90028 + 0x40 * c
def cvuResult (c : Nat) : Nat := 0x90030 + 0x40 * (c % 64)
def cvuStatus (c : Nat) : Nat := 0x90038 + 0x40 * (c % 64)
def cvuDone : Nat := 0x91000
def cvuErr : Nat := 0x91008
-- HOST (R345)
def hostStatus : Nat := 0xA0000
def hostEvent : Nat := 0xA0008
def refusedCount : Nat := 0xA0010
def vfAperture (v i : Nat) : Nat := 0xA1000 + 0x40 * v + 8 * i
def sqBase (q : Nat) : Nat := 0xA8000 + 0x40 * q
def cqBase (q : Nat) : Nat := 0xA8008 + 0x40 * q
def qCtrl (q : Nat) : Nat := 0xA8010 + 0x40 * q
def sqTail (q : Nat) : Nat := 0xA8018 + 0x40 * q
def cqHead (q : Nat) : Nat := 0xA8020 + 0x40 * q
def qStatus (q : Nat) : Nat := 0xA8028 + 0x40 * q
def cqRtc (q : Nat) : Nat := 0xA8030 + 0x40 * q
-- ETH (R348)
def ethStatus : Nat := 0xB0000
def ethCtrl : Nat := 0xB0008
def ethMac (p : Nat) : Nat := 0xB0010 + 0x18 * p
def ethIp6 (p w : Nat) : Nat := 0xB0018 + 0x18 * p + 8 * w
def ethDropCount : Nat := 0xB0040
def ethFlow (f w : Nat) : Nat := 0xB1000 + 0x20 * f + 8 * w
-- TWIN (R425)
def twinCtrl : Nat := 0xC0000
def twinStatus : Nat := 0xC0008
def twinEvent : Nat := 0xC0010
def twinCmd : Nat := 0xC0018
def beatCtrl : Nat := 0xC0020
def syncRound : Nat := 0xC0028
def dupCount : Nat := 0xC0030
def syncRegion (i w : Nat) : Nat := 0xC0100 + 16 * i + 8 * w
def rxPair (k : Nat) : Nat := 0xC0200 + 8 * k
def twinRef (k : Nat) : Nat := 0xC0400 + 8 * k
-- FWUPD (R456)
def fwCtrl : Nat := 0xD0000
def fwStatus : Nat := 0xD0008
def fwEvent : Nat := 0xD0010
def fwTree : Nat := 0xD0018
def fwLock : Nat := 0xD0020
def fwShelf : Nat := 0xD0028
def fwSource : Nat := 0xD0030
def childFail : Nat := 0xD0038
-- WINDOW (R219)
def winUpdateCtrl : Nat := 0xE0000
def winUpdateStatus : Nat := 0xE0008
def winEpoch : Nat := 0xE0010
def winReadIndex : Nat := 0xE0018
def winReadData0 : Nat := 0xE0020
def winReadData1 : Nat := 0xE0028
def winRefuseCount : Nat := 0xE0030
def deadlineCube : Nat := 0xE0040
def deadlineFar : Nat := 0xE0048
def copyAllow : Nat := 0xE0050
def cplQuarantine : Nat := 0xE0058
def cplStatus : Nat := 0xE0060
def staleCount : Nat := 0xE0068
def cplReadIndex : Nat := 0xE0070
def cplReadData (w : Nat) : Nat := 0xE0080 + 8 * w
def winStage (i w : Nat) : Nat := 0xE1000 + 16 * i + 8 * w
def cplQuota (t : Nat) : Nat := 0xE2000 + 8 * t
-- PORT n (R249)
def portBase (n : Nat) : Nat := 0x100000 + 0x10000 * n
def linkctl (n : Nat) : Nat := portBase n
def portStatus (n : Nat) : Nat := portBase n + 0x8
def portEvent (n : Nat) : Nat := portBase n + 0x10
def neighbour (n : Nat) : Nat := portBase n + 0x18
def neighbourExp (n : Nat) : Nat := portBase n + 0x20
def laneStatus (n : Nat) : Nat := portBase n + 0x28
def replayCtrl (n : Nat) : Nat := portBase n + 0x30
def creditCtrl (n : Nat) : Nat := portBase n + 0x38
def creditAlloc (n : Nat) : Nat := portBase n + 0x40
def portErrCount (n : Nat) : Nat := portBase n + 0x48
def qual (n : Nat) : Nat := portBase n + 0x50
def creditState (n v : Nat) : Nat := portBase n + 0x80 + 8 * v
def congLive (n v w : Nat) : Nat := portBase n + 0x400 + 16 * v + 8 * w
def congSnap (n v w : Nat) : Nat := portBase n + 0x600 + 16 * v + 8 * w
def schedA (n e : Nat) : Nat := portBase n + 0x8000 + 8 * e
def schedB (n e : Nat) : Nat := portBase n + 0x8800 + 8 * e
-- PART p, stack s (R183)
def stackBase (p s : Nat) : Nat := 0x300000 + 0x100000 * p + 0x80000 + 0x1000 * s
def hbmStatus (p s : Nat) : Nat := stackBase p s
def hbmCtrl (p s : Nat) : Nat := stackBase p s + 0x8
def hbmEvent (p s : Nat) : Nat := stackBase p s + 0x10
def hbmErrAddr (p s : Nat) : Nat := stackBase p s + 0x18
def hbmId (p s : Nat) : Nat := stackBase p s + 0x20
def hbmEcc (p s : Nat) : Nat := stackBase p s + 0x28
def retrainAt (p s : Nat) : Nat := stackBase p s + 0x30
def hbmThresh (p s : Nat) : Nat := stackBase p s + 0x38
def hbmRefresh (p s : Nat) : Nat := stackBase p s + 0x40
def hbmRetrains (p s : Nat) : Nat := stackBase p s + 0x48
-- TILE t (R100, R162)
def tileBase (t : Nat) : Nat := 0x1000000 + 0x1000 * t
def tileStatus (t : Nat) : Nat := tileBase t
def tileCtrl (t : Nat) : Nat := tileBase t + 0x8
def tileGang (t : Nat) : Nat := tileBase t + 0x10
def tileTenant (t : Nat) : Nat := tileBase t + 0x18
def faultInfo (t : Nat) : Nat := tileBase t + 0x20
def barDeadline (t : Nat) : Nat := tileBase t + 0x28
def srSeed (t : Nat) : Nat := tileBase t + 0x30
def arithStatus (t : Nat) : Nat := tileBase t + 0x38
def cycles (t : Nat) : Nat := tileBase t + 0x40
def stallBank (t : Nat) : Nat := tileBase t + 0x48
def stallWait (t : Nat) : Nat := tileBase t + 0x50
def lateCount (t : Nat) : Nat := tileBase t + 0x58
def descBusy (t : Nat) : Nat := tileBase t + 0x60
def bankOwner (t b : Nat) : Nat := tileBase t + 0x800 + 0x40 * b
def bankOwnerNext (t b : Nat) : Nat := tileBase t + 0x808 + 0x40 * b
def bankStatus (t b : Nat) : Nat := tileBase t + 0x810 + 0x40 * b
def bankInflight (t b : Nat) : Nat := tileBase t + 0x818 + 0x40 * b
def bankEcc (t b : Nat) : Nat := tileBase t + 0x820 + 0x40 * b
def bankRepair (t b : Nat) : Nat := tileBase t + 0x828 + 0x40 * b
def bankConflict (t b : Nat) : Nat := tileBase t + 0x830 + 0x40 * b
def bankCtrl (t : Nat) : Nat := tileBase t + 0xC00
-- Route tables (R265)
def routeTable (tableB : Bool) (d : Nat) : Nat := (if tableB then 0x2020000 else 0x2000000) + 8 * d

/-- Default reactions of a source as REACTION bits (R385, R408): LOG 1, INTERRUPT 2, POISON 4, JOB_ABORT 8,
FENCE 16, HALT 32. -/
def reactionReset (s : Nat) : Nat :=
  if s = 0 ∨ s = 1 ∨ s = 3 then 1 + 2 + 4
  else if s = 2 ∨ s = 5 then 1
  else if s = 4 then 1 + 2
  else if s = 6 then 1 + 2 + 8
  else if s = 16 then 1 + 2 + 16
  else if s = 18 then 1 + 2 + 16 + 32
  else if s = 28 then 1
  else if 17 ≤ s ∧ s ≤ 30 then 1 + 2
  else if 32 ≤ s ∧ s < 64 then 1 + 2 + 8
  else 0

/-- REACTION bits that software may write (R391, R408): LOG never; the bits fixed for a source never; POISON and
JOB_ABORT name a captured tenant, so only a data source can use POISON, and data and link sources JOB_ABORT; FENCE
needs a partition. -/
def reactionWritable (s : Nat) : Nat :=
  if s ≤ 6 then 2 + 4 + 8 + 16 + 32
  else if s = 18 then 2
  else if s = 20 then 2
  else if 16 ≤ s ∧ s ≤ 30 then 2 + 16 + 32
  else if 32 ≤ s ∧ s < 64 then 2 + 8 + 32
  else 0

/-- Bits [hi:lo] as a mask. -/
def bits (hi lo : Nat) : Nat := (2 ^ (hi + 1 - lo) - 1) * 2 ^ lo

/-- Every bit of a word. -/
def all : Nat := bits 63 0

/-- Reset value of the register at an offset (R58, R100, R162, R183, R219, R249, R280, R314, R326, R345, R348,
R381, R384, R407, R425, R452–R456). HW values that the spec does not state are named in notes/assumptions/2.md. -/
def resetValue (a : Nat) : Word :=
  if a < 0x10000 then
    (if 0x400 ≤ a ∧ a < 0x500 ∧ a % 0x80 = 0 then 0x8300000000000000#64 else 0)
  else if a < 0x30000 then (if a = timeSyncWait then 0x2710 else 0)
  else if a < 0x40000 then
    (if a = faultCtrl then 0x8000000000000000#64
     else if a = smdCtrl then 0x800000000000000A#64
     else if a = fenceStatus then 0x0002000200020002#64
     else if a = fenceDrain then 0x186A00
     else if 0x30100 ≤ a ∧ a < 0x30300 then wd (reactionReset ((a - 0x30100) / 8))
     else 0)
  else if a < 0x50000 then
    (if a = powerCtrl then 0x400000
     else if a = powerCap then 0x0000096005140960#64
     else if a = capLease then 0x00000708000003E8#64
     else if a = ballastLevel then 0xC00000000004003C#64
     else if a = extThrottle then 0x20
     else if a = shiftCtrl then 0x780008
     else if a = domainStatus then 0x2000000000000000#64
     else 0)
  else if a < 0x60000 then
    (if a = thermalLimits then 0x6E5F else if a = forecastCtrl then 0x58 else 0)
  else if a < 0x70000 then (if a = timeGuard then 0x10 else 0)
  else if a < 0x80000 then (if a = preset then 2 else 0)
  else if a < 0xC0000 then (if a = engineStatus then 0x0040004000400040#64 else 0)
  else if a < 0xD0000 then
    (if a = twinCtrl then 0x0000003C00000000#64
     else if a = beatCtrl then 0x0000000400000010#64 else 0)
  else if a < 0xE0000 then (if a = fwStatus then 0x20000 else 0)
  else if a < 0x100000 then
    (if a = deadlineCube then 0x7D00
     else if a = deadlineFar then 0x4E200
     else if a = copyAllow then 0x280
     else if a = cplQuarantine then 0x186A0000
     else if 0xE2000 ≤ a ∧ a < 0xE2800 then 0x8000
     else 0)
  else if a < 0x300000 then
    (if a % 0x10000 = 0x30 then 0x000032000C800008#64
     else if a % 0x10000 = 0x38 then 0x1004
     else if a % 0x10000 = 0x40 then 0x1028282828202010#64
     else 0)
  else if a < 0x700000 then
    (if a % 0x100000 < 0x80000 ∨ 0x84000 ≤ a % 0x100000 then 0
     else if a % 0x1000 = 0 then 1
     else if a % 0x1000 = 8 then 0x10
     else if a % 0x1000 = 0x38 then 0x0100000A
     else 0)
  else if a < 0x1000000 then 0
  else if a < 0x1200000 then
    (if a % 0x1000 = 0x10 then wd (2 ^ 30 + (a - 0x1000000) / 0x1000)
     else if a % 0x1000 = 0x28 then 0x80000000
     else if a % 0x1000 = 0xC00 then 0xF01
     else if 0x800 ≤ a % 0x1000 ∧ a % 0x1000 < 0xC00 ∧ a % 0x40 = 0 then 0x03000000
     else 0)
  else 0

/-- Who may write a register (R428, R444): any path that its own checks let in, a path without a session (the
authentication registers), the rights of the physical function, the installer, the maker. -/
inductive Class where
  | any | auth | operator | installer | maker
deriving DecidableEq, Repr

/-- What a plain write does to a register (R14): the bits it sets, the bits that writing 1 clears, who may write it.
-/
structure Kind where
  rw : Nat := 0
  w1c : Nat := 0
  cls : Class := .any
deriving DecidableEq, Repr

/-- CELLAR, BRINGUP, FUSELIC (R452, R454, R455). -/
def kindCellar (a : Nat) : Kind :=
  if 0x80 ≤ a ∧ a < 0xE0 then { rw := all, cls := .auth }
  else if a = auditIndex then { rw := bits 11 0 }
  else if a = timeSyncWait then { rw := bits 31 0 }
  else if a = bringupEvent then { w1c := bits 1 0 }
  else if a = draffIndex then { rw := bits 7 0 }
  else if a = licStatus then { w1c := bits 1 1 }
  else if 0x20100 ≤ a ∧ a < 0x20180 then { rw := all, cls := .installer }
  else {}

/-- FAULT (R407). -/
def kindFault (a : Nat) : Kind :=
  if a = firstSource then { w1c := bits 63 63, cls := .operator }
  else if a = faultCtrl then { rw := bits 63 63 + bits 7 0, cls := .operator }
  else if a = smdCtrl then { rw := bits 63 63 + bits 15 0, cls := .installer }
  else if a = fenceDrain then { rw := bits 31 0, cls := .installer }
  else if a = abortStatus then { w1c := bits 1 0, cls := .operator }
  else if a = abortCtrl then { rw := bits 7 0, cls := .operator }
  else if a = mgmtView then { rw := bits 63 63 + bits 35 0, cls := .installer }
  else if 0x30100 ≤ a ∧ a < 0x30300 then
    { rw := reactionWritable ((a - 0x30100) / 8), cls := .installer }
  else if 0x30400 ≤ a ∧ a < 0x304E0 ∧ a % 0x20 = 8 then { w1c := bits 63 63, cls := .operator }
  else if 0x31000 ≤ a ∧ a < 0x31800 then { rw := bits 63 63 + bits 11 0, cls := .operator }
  else { cls := .operator }

/-- POWER and THERMAL (R381–R384). -/
def kindPower (a : Nat) : Kind :=
  if a = powerCtrl then { rw := bits 23 16 + bits 9 8 + bits 0 0, cls := .operator }
  else if a = powerEvent then { w1c := bits 8 0, cls := .operator }
  else if a = capLease then { rw := bits 47 32 + bits 15 0, cls := .operator }
  else if a = ballastLevel then { rw := bits 63 61 + bits 23 16 + bits 7 0, cls := .operator }
  else if a = extThrottle then { rw := bits 7 0, cls := .operator }
  else if a = shiftCtrl then { rw := bits 31 0, cls := .operator }
  else if a = thermalEvent then { w1c := bits 5 0, cls := .installer }
  else if a = thermalLimits then { rw := bits 7 0, cls := .installer }
  else if a = forecastCtrl then { rw := bits 7 0, cls := .installer }
  else if a < 0x50000 then { cls := .operator }
  else { cls := .installer }

/-- TIME (R58–R62). -/
def kindTime (a : Nat) : Kind :=
  if a = timeCtrl then { rw := bits 7 5, cls := .installer }
  else if a = timeParent then { rw := bits 13 8 + bits 5 0, cls := .installer }
  else if a = timeGuard then { rw := bits 5 0, cls := .installer }
  else if a = epochTai then { rw := all, cls := .installer }
  else if a = timeEvent then { w1c := bits 7 0 }
  else if 0x60300 ≤ a ∧ a < 0x60400 then { w1c := bits 1 1 }
  else if 0x64000 ≤ a ∧ a < 0x6C000 then
    { rw := if a % 16 = 0 then bits 63 12 else bits 47 40 + bits 15 0, cls := .installer }
  else { cls := .installer }

/-- ROUTE and COLL (R280–R282, R314–R316). -/
def kindRoute (a : Nat) : Kind :=
  if a = deviceId then { rw := bits 13 0, cls := .installer }
  else if a = routeEvent then { w1c := bits 8 0, cls := .installer }
  else if a = cmapCtrl then { rw := bits 63 63 + bits 61 48 + bits 15 0, cls := .installer }
  else if a = cmapBase then { rw := bits 47 12, cls := .installer }
  else if a < 0x80000 then { cls := .installer }
  else if a = collUpdateCtrl then { rw := bits 59 48 + bits 13 0, cls := .operator }
  else if a = collUpdateStatus then { w1c := bits 2 2, cls := .operator }
  else if a = groupIndex then { rw := bits 11 0 }
  else if a = memberIndex then { rw := bits 17 0 }
  else if a = collEvent then { w1c := bits 4 0 }
  else if a = stageGroup 0 then { rw := bits 63 61 + bits 59 26 + bits 17 0, cls := .operator }
  else if a = stageGroup 1 then { rw := bits 63 48 + bits 31 0, cls := .operator }
  else if 0x82000 ≤ a ∧ a < 0x8A000 then
    { rw := bits 63 63 + bits 61 48 + bits 43 32 + bits 31 31 + bits 29 16 + bits 11 0, cls := .operator }
  else {}

/-- CVU, HOST, ETH (R326–R328, R345–R349). -/
def kindHost (a : Nat) : Kind :=
  if a = cvuDone ∨ a = cvuErr then { w1c := all }
  else if a < 0x91000 then
    (if a % 0x40 = 0 then { rw := bits 63 63 + bits 61 60 + bits 57 48 + bits 15 13 + bits 9 8 + bits 6 0 }
     else if a % 0x40 = 8 ∨ a % 0x40 = 0x10 ∨ a % 0x40 = 0x18 then { rw := all }
     else if a % 0x40 = 0x20 then { rw := bits 61 0 }
     else if a % 0x40 = 0x28 then { rw := bits 32 0 }
     else if a % 0x40 = 0x38 then { w1c := bits 7 5 }
     else {})
  else if a = hostEvent then { w1c := bits 3 0 }
  else if 0xA1000 ≤ a ∧ a < 0xA5000 then { rw := bits 63 63 + bits 47 33, cls := .operator }
  else if 0xA8000 ≤ a ∧ a < 0xB0000 then
    (if a % 0x40 = 0 ∨ a % 0x40 = 8 then { rw := all }
     else if a % 0x40 = 0x28 then { w1c := bits 1 1 }
     else {})
  else if a = ethCtrl then { rw := bits 63 63 + bits 15 0, cls := .operator }
  else if a = ethMac 0 ∨ a = ethMac 1 then { rw := bits 47 0, cls := .operator }
  else if a = ethIp6 0 0 ∨ a = ethIp6 0 1 ∨ a = ethIp6 1 0 ∨ a = ethIp6 1 1 then { rw := all, cls := .operator }
  else if 0xB1000 ≤ a ∧ a < 0xB3000 then
    { rw := if a % 0x20 = 0x10 then bits 63 55 + bits 47 0 else all, cls := .operator }
  else if 0xB0000 ≤ a then { cls := .operator }
  else {}

/-- TWIN, FWUPD, WINDOW (R219–R221, R425, R426, R456). -/
def kindTwin (a : Nat) : Kind :=
  if a = twinEvent then { w1c := bits 8 0, cls := .installer }
  else if a = beatCtrl then { rw := bits 35 32 + bits 15 0, cls := .installer }
  else if a = syncRound then { rw := bits 53 0, cls := .installer }
  else if 0xC0100 ≤ a ∧ a < 0xC0200 then
    { rw := if a % 16 = 0 then bits 63 63 + bits 47 0 else bits 47 0, cls := .installer }
  else if 0xC0200 ≤ a ∧ a < 0xC0480 then { rw := bits 63 63 + bits 27 0, cls := .installer }
  else if a = fwEvent then { w1c := bits 3 0, cls := .installer }
  else if a = fwTree then { rw := bits 63 63 + bits 36 0, cls := .installer }
  else if a = fwLock then { rw := bits 0 0, cls := .installer }
  else if a = fwSource then { rw := all, cls := .installer }
  else if a < 0xE0000 then { cls := .installer }
  else if a = winUpdateCtrl then { rw := bits 27 16 + bits 6 0, cls := .installer }
  else if a = winUpdateStatus then { w1c := bits 2 2, cls := .installer }
  else if a = winReadIndex then { rw := bits 11 0 }
  else if a = deadlineCube ∨ a = deadlineFar ∨ a = cplQuarantine then { rw := bits 47 0, cls := .installer }
  else if a = copyAllow then { rw := bits 31 0, cls := .installer }
  else if a = cplReadIndex then { rw := bits 14 0 }
  else if 0xE1000 ≤ a ∧ a < 0xE1400 then
    { rw := if a % 16 = 0 then bits 63 57 + bits 55 0 else bits 47 0, cls := .installer }
  else if 0xE2000 ≤ a ∧ a < 0xE2800 then { rw := bits 15 0, cls := .installer }
  else {}

/-- PORT, PART and TILE blocks and the route tables (R63, R100, R162, R183, R249, R265). -/
def kindUnit (a : Nat) : Kind :=
  if a < 0x300000 then
    (if a % 0x10000 = 0 then { rw := bits 4 3, cls := .installer }
     else if a % 0x10000 = 0x10 then { w1c := bits 9 0 }
     else if a % 0x10000 = 0x20 then { rw := bits 63 63 + bits 20 16 + bits 13 0, cls := .installer }
     else if a % 0x10000 = 0x30 then { rw := bits 47 16 + bits 3 0, cls := .installer }
     else if a % 0x10000 = 0x38 then { rw := bits 15 8 + bits 3 0, cls := .installer }
     else if a % 0x10000 = 0x40 then { rw := all, cls := .installer }
     else if 0x8000 ≤ a % 0x10000 ∧ a % 0x10000 < 0x9000 then
       { rw := bits 63 63 + bits 61 11, cls := .installer }
     else {})
  else if a < 0x700000 then
    (if a % 0x100000 < 0x80000 ∨ 0x84000 ≤ a % 0x100000 then {}
     else if a % 0x1000 = 8 then { rw := bits 4 4 + bits 1 0 }
     else if a % 0x1000 = 0x10 then { w1c := bits 6 0 }
     else if a % 0x1000 = 0x30 then { rw := all }
     else if a % 0x1000 = 0x38 then { rw := bits 31 0 }
     else if a % 0x1000 = 0x40 then { rw := bits 0 0 }
     else {})
  else if a < 0x1200000 then
    (if a % 0x1000 = 0x18 then { rw := bits 7 0, cls := .operator }
     else if a % 0x1000 = 0x20 then { w1c := bits 0 0 }
     else if a % 0x1000 = 0x28 then { rw := bits 47 0 }
     else if a % 0x1000 = 0x38 then { w1c := bits 5 0 }
     else if a % 0x1000 = 0xC00 then { rw := bits 11 8 + bits 0 0 }
     else if 0x800 ≤ a % 0x1000 ∧ a % 0x1000 < 0xC00 ∧ a % 0x40 = 0x10 then { w1c := bits 1 0 }
     else {})
  else { rw := bits 63 63 + bits 5 5 + bits 3 0, cls := .installer }

/-- What a plain write does to the register at an offset; an offset that no table lists ignores writes (R473). -/
def kind (a : Nat) : Kind :=
  if a < 0x30000 then kindCellar a
  else if a < 0x40000 then kindFault a
  else if a < 0x60000 then kindPower a
  else if a < 0x70000 then kindTime a
  else if a < 0x90000 then kindRoute a
  else if a < 0xC0000 then kindHost a
  else if a < 0x100000 then kindTwin a
  else kindUnit a

/-- Offsets that R472 leaves unmapped. -/
def isGap (a : Nat) : Bool :=
  (0xF0000 ≤ a && a < 0x100000) || (0x700000 ≤ a && a < 0x1000000) || (0x1200000 ≤ a && a < 0x2000000)
    || spaceSize ≤ a

end Sys2Proof.Machine.Reg
end

