-- ==== Sys2Proof/Machine/Ops.lean ====
section
/-! DEFINITION. The named operations that every meaning is written over: registers, the clock, free values, units
and their states, the audit log, recording a fault, memory with its check bits. -/

namespace Sys2Proof.Machine

-- Registers (R12–R15)

/-- The register word at an offset in register space. -/
def rd (s : State) (a : Nat) : Word := mget (Reg.resetValue a) s.regs a

/-- A register word written by the hardware. -/
def wrReg (a : Nat) (v : Word) (s : State) : State := { s with regs := mset (Reg.resetValue a) s.regs a v }

/-- Bits [hi:lo] of a register. -/
def rdF (s : State) (a hi lo : Nat) : Nat := fld (rd s a) hi lo

/-- Bits [hi:lo] of a register written by the hardware. -/
def wrF (a hi lo v : Nat) (s : State) : State := wrReg a (setFld (rd s a) hi lo v) s

/-- Bit `i` of a register. -/
def rdB (s : State) (a i : Nat) : Bool := bit (rd s a) i

/-- Bit `i` of a register written by the hardware. -/
def wrB (a i : Nat) (b : Bool) (s : State) : State := wrF a i i (if b then 1 else 0) s

/-- Sets every bit of a mask in a register. -/
def orReg (a mask : Nat) (s : State) : State := wrReg a (rd s a ||| wd mask) s

/-- Clears every bit of a mask in a register. -/
def clrReg (a mask : Nat) (s : State) : State := wrReg a (rd s a &&& ~~~ wd mask) s

/-- Adds to a saturating counter in bits [hi:lo] of a register. -/
def addSat (a hi lo n : Nat) (s : State) : State := wrF a hi lo (satAdd (hi + 1 - lo) (rdF s a hi lo) n) s

/-- Adds to a wrapping counter in bits [hi:lo] of a register. -/
def addWrap (a hi lo n : Nat) (s : State) : State := wrF a hi lo (rdF s a hi lo + n) s

/-- Returns every register whose offset `f` picks to its reset value (R12, R472). -/
def resetRegs (f : Nat → Bool) (s : State) : State := { s with regs := mdrop f s.regs }

-- Time and free values

/-- TIME.NOW as a number of ticks. -/
def now (s : State) : Nat := s.now.toNat

/-- Whether a collective instance or group barrier waits for a contribution of another member (R305). -/
def collWaiting (s : State) : Bool := s.coll.insts.any (fun i => i.miss != 0)

/-- Some ticks pass: the slack of this round counts them while an instance waits (R305). -/
def passTicks (n : Nat) (s : State) : State :=
  let s := if collWaiting s then { s with coll := { s.coll with waitAcc := s.coll.waitAcc + n } } else s
  { s with now := s.now + wd n }

/-- The clock stands at least at a given time: what a command that happens at a stated time finds
(notes/assumptions/1.md). -/
def clockTo (t : Nat) (s : State) : State := if now s < t ∧ t < 2 ^ 64 then passTicks (t - now s) s else s

/-- The next free value (notes/assumptions/4.md). -/
def freeNext (s : State) : Word × State := (Config.freeWord s.free, { s with free := s.free + 1 })

/-- A message handed to the outside. -/
def emit (o : Out) (s : State) : State := { s with out := s.out ++ [o] }

/-- Core cycles of a tile's partition in a number of ticks, at its present frequency in 25 MHz units, halved while a
droop holds its clock (R69, R370, R381). -/
def coreCycles (s : State) (t ticks : Nat) : Nat :=
  ticks * rdF s Reg.powerStatus (16 * (t / 128) + 7) (16 * (t / 128))
    / (if s.pwr.halved.any (fun h => h.1 == t / 128) then 128 else 64)

-- Capability (R4, R5, R442)

/-- Highest tenant ID allowed (R4). -/
def tenantOk (s : State) (t : Nat) : Bool := decide (t < (if rdF s Reg.capability 56 48 = 256 then 256 else 16))

/-- Licensed for twin mode with a twinned tenant, and for exact mode (R4). -/
def twinLicensed (s : State) : Bool := rdB s Reg.capability 3
/-- See `twinLicensed`. -/
def exactLicensed (s : State) : Bool := rdB s Reg.capability 4

/-- Largest machine (R4). -/
def maxDevices (s : State) : Nat := if rdF s Reg.capability 46 32 = 16384 then 16384 else 4096

/-- Number of licensed ports (R4). -/
def licensedPorts (s : State) : Nat := if rdF s Reg.capability 13 8 = 32 then 32 else 16

/-- Ports that the assembly has (R19, R439). -/
def portCount (s : State) : Nat := 8 * s.boot.ioDies

-- Numbers of this device

/-- This device's ID (R255). -/
def ownDev (s : State) : Nat := rdF s Reg.deviceId 13 0

/-- Coordinates of a device ID (R9). -/
def devX (d : Nat) : Nat := d / 512 % 32
/-- See `devX`. -/
def devY (d : Nat) : Nat := d / 16 % 32
/-- See `devX`. -/
def devZ (d : Nat) : Nat := d % 16

/-- Two devices of one cube (R9). -/
def sameCube (a b : Nat) : Bool :=
  decide (devX a / 4 = devX b / 4) && decide (devY a / 4 = devY b / 4) && decide (devZ a / 4 = devZ b / 4)

-- Partitions, domains, tiles, gangs

/-- Fence state of a partition (R410): 0 IN_SERVICE, 1 DRAINING, 2 FENCED, 3 RESETTING, 4 ABSENT. -/
def fenceState (s : State) (p : Nat) : Nat := rdF s Reg.fenceStatus (16 * p + 3) (16 * p)

/-- Whether a power domain is on (R378). -/
def domainIsOn (s : State) (d : Nat) : Bool := rdB s Reg.domainStatus d

/-- Whether PCIe and the two Ethernet ports have power: domain 60 (R20). -/
def hostPowered (s : State) : Bool := domainIsOn s 60

/-- Power domain of a tile's cluster (R9, R378). -/
def clusterDomain (t : Nat) : Nat := t / 128 * 9 + t % 128 / 16

/-- A tile's record. -/
def tl (s : State) (t : Nat) : Tile := mget {} s.tiles t

/-- A tile's record replaced. -/
def setTl (t : Nat) (x : Tile) (s : State) : State := { s with tiles := mset {} s.tiles t x }

/-- A tile's record changed by a function. -/
def onTl (t : Nat) (f : Tile → Tile) (s : State) : State := setTl t (f (tl s t)) s

/-- TILE.STATUS.STATE (R101): 0 IDLE, 1 LOADING, 2 WAIT_START, 3 RUNNING, 4 HALTED, 5 FAULTED, 6 ABSENT. -/
def tileState (s : State) (t : Nat) : Nat := rdF s (Reg.tileStatus t) 3 0

/-- Sets TILE.STATUS.STATE. -/
def setTileState (t v : Nat) (s : State) : State := wrF (Reg.tileStatus t) 3 0 v s

/-- TILE.STATUS.INDEX. -/
def tileIndex (s : State) (t : Nat) : Nat := rdF s (Reg.tileStatus t) 44 32

/-- TILE.TENANT. -/
def tileTenant (s : State) (t : Nat) : Nat := rdF s (Reg.tileTenant t) 7 0

/-- The leader of a tile's gang (R103). -/
def leaderOf (s : State) (t : Nat) : Nat := rdF s (Reg.tileGang t) 8 0

/-- The members of the gang that `l` leads, ascending. -/
def membersOf (s : State) (l : Nat) : List Nat :=
  (List.range 512).filter (fun t => leaderOf s t = l)

/-- General register of a tile; g0 reads 0 (R65). -/
def greg (x : Tile) (r : Nat) : Word := if r = 0 then 0 else mget 0 x.g r

/-- A write of a general register; writes to g0 are discarded (R65). -/
def setG (r : Nat) (v : Word) (x : Tile) : Tile := if r = 0 then x else { x with g := mset 0 x.g r v }

/-- Predicate of a tile; p0 reads 1 (R65). -/
def preg (x : Tile) (i : Nat) : Bool := i == 0 || x.p.getLsbD i

/-- A write of a predicate; writes to p0 are discarded (R65). -/
def setP (i : Nat) (b : Bool) (x : Tile) : Tile :=
  if i = 0 then x
  else { x with p := if b then x.p ||| BitVec.ofNat 8 (2 ^ i) else x.p &&& ~~~ BitVec.ofNat 8 (2 ^ i) }

/-- Vector register of a tile. -/
def vreg (x : Tile) (r : Nat) : BitVec 4096 := mget 0 x.v r

/-- A write of a vector register. -/
def setV (r : Nat) (v : BitVec 4096) (x : Tile) : Tile := { x with v := mset 0 x.v r v }

/-- A completion-table entry, and its replacement (R198). -/
def cplOf (s : State) (tag : Nat) : Cpl := mget {} s.cpl tag
/-- See `cplOf`. -/
def setCpl (tag : Nat) (e : Cpl) (s : State) : State := { s with cpl := mset {} s.cpl tag e }

/-- A port's record, and its change. -/
def prt (s : State) (n : Nat) : Port := mget {} s.ports n
/-- See `prt`. -/
def onPrt (n : Nat) (f : Port → Port) (s : State) : State := { s with ports := mset {} s.ports n (f (prt s n)) }

/-- A stack's record, keyed 4p + s, and its change. -/
def stk (s : State) (p i : Nat) : Stack := mget {} s.hbm (4 * p + i)
/-- See `stk`. -/
def onStk (p i : Nat) (f : Stack → Stack) (s : State) : State :=
  { s with hbm := mset {} s.hbm (4 * p + i) (f (stk s p i)) }

/-- A queue pair's record, and its change. -/
def hq (s : State) (q : Nat) : HQueue := mget {} s.host.queues q
/-- See `hq`. -/
def onHq (q : Nat) (f : HQueue → HQueue) (s : State) : State :=
  { s with host := { s.host with queues := mset {} s.host.queues q (f (hq s q)) } }

/-- A bond's record, and its change. -/
def bnd (s : State) (b : Nat) : Bond := mget {} s.net.bonds b
/-- See `bnd`. -/
def onBnd (b : Nat) (f : Bond → Bond) (s : State) : State :=
  { s with net := { s.net with bonds := mset {} s.net.bonds b (f (bnd s b)) } }

-- Audit log (R446)

/-- Words of a log entry (R446). -/
def auditWord (seq : Nat) (e : Audit) (w : Nat) : Word :=
  if w = 0 then wd (seq % 2 ^ 32 * 2 ^ 32 + e.role % 4 * 2 ^ 30 + e.path % 4 * 2 ^ 28 + e.outcome % 16 * 2 ^ 24
    + e.keyId % 256 * 2 ^ 16)
  else if w = 1 then e.time
  else if w = 2 then wd (e.address % 2 ^ 48)
  else if w = 3 then wd (e.words % 2 ^ 32)
  else BitVec.ofNat 64 (e.digest.toNat / 2 ^ (64 * (w - 4)))

/-- The empty log entry. -/
def noAudit : Audit := { role := 0, path := 0, outcome := 0, keyId := 0, time := 0, address := 0 }

/-- Appends a log entry; a full log overwrites the oldest (R446). The digest covers the address, the old words and
the new words of a commit, and is 0 where nothing is committed. -/
def auditLog (role path outcome keyId addr : Nat) (old new : List Word) (s : State) : State :=
  let e : Audit :=
    { role := role, path := path, outcome := outcome, keyId := keyId, time := s.now, address := addr,
      words := new.length,
      digest := if new = [] then 0 else (Config.sha384 (wd addr :: (old ++ new))).extractLsb' 128 256 }
  { s with boot := { s.boot with
      audit := mset noAudit s.boot.audit (s.boot.auditNext % 4096) e, auditNext := s.boot.auditNext + 1 } }

-- Faults (R387–R391)

/-- Sources of R385, by number. -/
def srcSram : Nat := 0
/-- See `srcSram`. -/
def srcHbm : Nat := 1
/-- See `srcSram`. -/
def srcAccess : Nat := 2
/-- See `srcSram`. -/
def srcPoison : Nat := 3
/-- See `srcSram`. -/
def srcDeadline : Nat := 4
/-- See `srcSram`. -/
def srcCompletion : Nat := 5
/-- See `srcSram`. -/
def srcTile : Nat := 6

/-- What a data source captures (R387, R409). -/
structure Occ where
  addr : Word := 0
  dev : Nat := 0
  agent : Nat := 0
  tenant : Nat := 0
  access : Nat := 0
  status : Nat := 0
  tag : Nat := 0
  gen : Nat := 0
deriving DecidableEq, Repr

/-- A reaction to run later (R391). -/
def queueReaction (r : Reaction) (s : State) : State :=
  { s with flt := { s.flt with reactions := s.flt.reactions ++ [r] } }

/-- The words of a first capture (R409). -/
def captureWords (o : Occ) (t : Word) (s : State) (src : Nat) : State :=
  s |> wrReg (Reg.dcap src 0) o.addr
    |> wrReg (Reg.dcap src 1) (wd (2 ^ 63 + o.dev % 2 ^ 14 * 2 ^ 48 + o.agent % 2 ^ 12 * 2 ^ 36
        + o.tenant % 256 * 2 ^ 28 + o.access % 16 * 2 ^ 24 + o.status % 2 ^ 12))
    |> wrReg (Reg.dcap src 2) t
    |> wrReg (Reg.dcap src 3) (wd (o.gen % 16 * 2 ^ 15 + o.tag % 2 ^ 15))

/-- One occurrence of a data source: status bit, first capture in full, later ones counted, reactions (R387, R389). -/
def recordData (src : Nat) (o : Occ) (part : Option Nat) (s : State) : State :=
  let s := orReg Reg.faultStatus (2 ^ src) s
  let s := if rdB s (Reg.dcap src 1) 63 then
      s |> wrB (Reg.dcap src 1) 62 true |> addSat (Reg.dcap src 3) 63 48 1
    else captureWords o s.now s src
  queueReaction { src := src, agent := o.agent, tenants := [o.tenant], part := part, limited := false } s

/-- FIRST_SOURCE latches the first control or link source; later ones set OVERFLOW (R388). -/
def latchFirst (src : Nat) (s : State) : State :=
  if rdB s Reg.firstSource 63 then wrB Reg.firstSource 62 true s
  else wrReg Reg.firstSource (wd (2 ^ 63 + src)) s

/-- One occurrence of a control or link source. A Condition whose bit is already set runs nothing again (R389). -/
def recordControl (src : Nat) (cond : Bool) (part : Option Nat) (tenants : List Nat) (s : State) : State :=
  if cond && rdB s Reg.faultStatus src then s
  else
    s |> latchFirst src |> orReg Reg.faultStatus (2 ^ src)
      |> queueReaction { src := src, agent := 0xFFF, tenants := tenants, part := part, limited := false }

-- The local address map (R25–R28)

/-- What a local address names. -/
inductive Region where
  | hbm (p off : Nat)
  | sram (view t off : Nat)
  | reg (off : Nat)
deriving DecidableEq, Repr

/-- Bytes of the populated part of a partition's HBM slice (R26). -/
def sliceSize (s : State) : Nat := s.boot.stackCount * 0x600000000

/-- Register blocks that do not exist on this assembly (R19). -/
def absentBlock (s : State) (off : Nat) : Bool :=
  decide (0x100000 ≤ off ∧ off < 0x300000 ∧ portCount s ≤ (off - 0x100000) / 0x10000)

/-- The mapped range that a local address lies in, if any (R25–R27, R472). -/
def regionOf (s : State) (a : Nat) : Option Region :=
  if a < 4 * 0x1800000000 then
    (if a % 0x1800000000 < sliceSize s then some (.hbm (a / 0x1800000000) (a % 0x1800000000)) else none)
  else if 0x7F0000000000 ≤ a ∧ a < 0x7F0040000000 then
    some (.sram 0 ((a - 0x7F0000000000) / 0x200000) (a % 0x200000))
  else if 0x7F1000000000 ≤ a ∧ a < 0x7F1040000000 then
    some (.sram 1 ((a - 0x7F1000000000) / 0x200000) (a % 0x200000))
  else if 0x7F1100000000 ≤ a ∧ a < 0x7F1140000000 then
    some (.sram 2 ((a - 0x7F1100000000) / 0x200000) (a % 0x200000))
  else if 0x7F1200000000 ≤ a ∧ a < 0x7F1240000000 then
    some (.sram 3 ((a - 0x7F1200000000) / 0x200000) (a % 0x200000))
  else if Reg.spaceBase ≤ a ∧ a < Reg.spaceBase + Reg.spaceSize then
    (if Reg.isGap (a - Reg.spaceBase) || absentBlock s (a - Reg.spaceBase) then none
     else some (.reg (a - Reg.spaceBase)))
  else none

/-- Whether two addresses lie in one mapped range (R27): the same HBM slice, the same view of SRAM, register space. -/
def sameRange : Region → Region → Bool
  | .hbm p _, .hbm q _ => p == q
  | .sram v _ _, .sram w _ _ => v == w
  | .reg _, .reg _ => true
  | _, _ => false

/-- The range of a whole access, none where R27 refuses it. -/
def accessRange (s : State) (a n : Nat) : Option Region :=
  match regionOf s a, regionOf s (a + (n - 1)) with
  | some r, some r' => if sameRange r r' then some r else none
  | _, _ => none

/-- Whether an access from `a` to `b` stays within one range of the map of R25, whatever a device populates of it: as far
as another device's map is known here (R186, notes/assumptions/15.md). -/
def oneMapRange (a b : Nat) : Bool :=
  decide (b < 4 * 0x1800000000 ∧ a / 0x1800000000 = b / 0x1800000000)
    || [(0x7F0000000000, 0x7F0040000000), (0x7F1000000000, 0x7F1040000000), (0x7F1100000000, 0x7F1140000000),
        (0x7F1200000000, 0x7F1240000000), (Reg.spaceBase, Reg.spaceBase + Reg.spaceSize)].any
      (fun r => decide (r.1 ≤ a ∧ a ≤ b ∧ b < r.2))

/-- The partition that an address belongs to (R385, R396). -/
def partOf (a : Nat) : Option Nat :=
  if a < 4 * 0x1800000000 then some (a / 0x1800000000)
  else if 0x7F0000000000 ≤ a ∧ a < 0x7F1300000000 ∧ a % 0x100000000 < 0x40000000 then
    some (a % 0x100000000 / 0x10000000)
  else if Reg.spaceBase + 0x300000 ≤ a ∧ a < Reg.spaceBase + 0x700000 then
    some ((a - Reg.spaceBase - 0x300000) / 0x100000)
  else if Reg.spaceBase + 0x1000000 ≤ a ∧ a < Reg.spaceBase + 0x1200000 then
    some ((a - Reg.spaceBase - 0x1000000) / 0x80000)
  else none

/-- The partition of an agent: of a tile, else none. -/
def agentPart (agent : Nat) : Option Nat := if agent < 512 then some (agent / 128) else none

/-- Records an access violation (R385): the partition of the target, otherwise of the issuing agent. -/
def violation (o : Occ) (target : Nat) (s : State) : State :=
  recordData srcAccess o ((partOf target).or (agentPart o.agent)) s

/-- Local address of a tile's SRAM offset in the normal view. -/
def sramAddr (t off : Nat) : Nat := 0x7F0000000000 + t * 0x200000 + off

/-- The fabric address that names a local address of this device (R22). -/
def fabricAddr (s : State) (a : Nat) : Word := wd (2 ^ 62 + ownDev s * 2 ^ 48 + a % 2 ^ 48)

-- Memory bytes and check bits (R142, R143, R173, R174)

/-- One byte of SRAM or HBM by its local address in the normal view; a byte that nothing has written reads 0
(notes/assumptions/3.md). -/
def memByte (s : State) (a : Nat) : Byte := mget 0 s.mem a

/-- `n` bytes from an address. -/
def memBytes (s : State) (a n : Nat) : List Byte := (List.range n).map (fun i => memByte s (a + i))

/-- One byte written. -/
def putByte (a : Nat) (b : Byte) (s : State) : State := { s with mem := mset 0 s.mem a b }

/-- Bytes written from an address upward. -/
def putBytes (a : Nat) : List Byte → State → State
  | [], s => s
  | b :: r, s => putBytes (a + 1) r (putByte a b s)

/-- Condition of the check bits of the 32-byte half or sector that holds an address. -/
def eccOf (s : State) (u : Nat) : Ecc := mget .clean s.ecc u

/-- Sets the condition of a half or sector. -/
def setEcc (u : Nat) (e : Ecc) (s : State) : State := { s with ecc := mset .clean s.ecc u e }

/-- The halves or sectors that `n` bytes from `a` touch, ascending. -/
def unitsOf (a n : Nat) : List Nat :=
  if n = 0 then [] else (List.range ((a + n - 1) / 32 - a / 32 + 1)).map (fun i => a / 32 + i)

/-- Whether a write of `n` bytes from `a` covers a whole unit. -/
def coversUnit (a n u : Nat) : Bool := decide (a ≤ 32 * u ∧ 32 * u + 32 ≤ a + n)

/-- The poisoned units that a read of `n` bytes from `a` meets. -/
def poisonedIn (s : State) (a n : Nat) : List Nat := (unitsOf a n).filter (fun u => eccOf s u = .poison)

/-- The units that a write must leave alone: poisoned and not covered whole, or updated through a view (R143, R174). -/
def blockedIn (s : State) (whole : Bool) (a n : Nat) : List Nat :=
  (poisonedIn s a n).filter (fun u => !(whole && coversUnit a n u))

/-- The bytes of a write that land in units that are not blocked. -/
def putUnblocked (blocked : List Nat) (a : Nat) : List Byte → State → State
  | [], s => s
  | b :: r, s => putUnblocked blocked (a + 1) r (if blocked.contains (a / 32) then s else putByte a b s)

/-- A write to memory with its check bits: the units that refused it are left as they were; the others hold the new
bytes with valid check bits, or with poison marks where the data is poisoned (R142, R143, R194). -/
def writeMem (whole poison : Bool) (a : Nat) (bs : List Byte) (s : State) : List Nat × State :=
  let blocked := blockedIn s whole a bs.length
  let s' := putUnblocked blocked a bs s
  (blocked, ((unitsOf a bs.length).filter (fun u => !blocked.contains u)).foldl
    (fun s u => setEcc u (if poison then .poison else .clean) s) s')

/-- Zero-fills a range of memory with valid check bits (R159, R160). -/
def zeroRange (lo hi : Nat) (s : State) : State :=
  { s with mem := mdrop (fun a => decide (lo ≤ a ∧ a < hi)) s.mem,
           ecc := mdrop (fun u => decide (lo ≤ 32 * u ∧ 32 * u < hi)) s.ecc }

/-- Bitwise combination of two lists of bytes, the shorter length. -/
def zipBytes (f : Byte → Byte → Byte) : List Byte → List Byte → List Byte
  | a :: r, b :: t => f a b :: zipBytes f r t
  | _, _ => []

/-- Each aligned 8-byte lane added as int64 (R149). -/
def addLanes : Nat → List Byte → List Byte → List Byte
  | 0, _, _ => []
  | n + 1, a, b => leBytes 8 (leNat (a.take 8) + leNat (b.take 8)) ++ addLanes n (a.drop 8) (b.drop 8)

/-- The bytes that a store through a view leaves (R28, R148, R149). -/
def viewBytes (view : Nat) (old new : List Byte) : List Byte :=
  if view = 0 then new
  else if view = 1 then zipBytes (fun o n => o ||| n) old new
  else if view = 2 then zipBytes (fun o n => o &&& ~~~ n) old new
  else addLanes (new.length / 8) old new

/-- Width in bytes of an atomic (R187, R196). -/
def atomicWidth (op : Nat) (narrow : Bool) : Nat :=
  if op = 0x10 ∨ op = 0x12 then 4 else if op = 0x11 then 8 else if narrow then 4 else 8

/-- The new value of a word under an atomic (R148, R149, R196). -/
def atomicResult (op w old operand compare : Nat) : Nat :=
  let m := 2 ^ (8 * w)
  if op = 0x10 ∨ op = 0x11 then (old + operand) % m
  else if op = 0x12 then addF32 old (operand % m)
  else if op = 0x13 then operand % m
  else if op = 0x14 then (if old = compare % m then operand % m else old)
  else if op = 0x15 then old ||| operand % m
  else old &&& (m - 1 - operand % m)

-- Banks (R141, R151–R153)

/-- Bank of a tile offset (R141). -/
def bankOf (off : Nat) : Nat := off / 0x20000 % 16

/-- The ownership check of R152. -/
def owns (s : State) (t b agent tenant : Nat) : Bool :=
  let o := rd s (Reg.bankOwner t b)
  (fld o 7 0 == tenant) && (fld o 27 16 == agent || fld o 27 16 == 0xFFF)

/-- Whether a handover of a bank is pending (R156). -/
def handoverPending (s : State) (t b : Nat) : Bool := rdB s (Reg.bankStatus t b) 2

/-- Whether a tile's cluster is on, and whether a wake of it is in progress (R159). -/
def bankOn (s : State) (t : Nat) : Bool := domainIsOn s (clusterDomain t)
/-- See `bankOn`. -/
def bankWaking (s : State) (t : Nat) : Bool := s.pwr.waitOn.contains (clusterDomain t)

/-- The banks that an access of a tile's SRAM touches. -/
def banksOf (off n : Nat) : List Nat :=
  (List.range (bankOf (off + (n - 1)) - bankOf off + 1)).map (fun i => bankOf off + i)

/-- Tile and bank of a local address in the normal view of SRAM. -/
def tileBankOf (a : Nat) : Nat × Nat := ((a - 0x7F0000000000) / 0x200000, (a - 0x7F0000000000) / 0x20000 % 16)

/-- Counts the error conditions that a read of `n` bytes of SRAM at a normal address meets, and records one occurrence
per uncorrectable half (R143, R387). -/
def noteErrors (a n : Nat) (o : Occ) (s : State) : State :=
  (unitsOf a n).foldl (fun s u =>
    let tb := tileBankOf (32 * u)
    match eccOf s u with
    | .clean => s
    | .single => s |> addSat (Reg.bankEcc tb.1 tb.2) 63 48 1 |> wrF (Reg.bankEcc tb.1 tb.2) 11 0 (u % 4096)
    | .poison => s |> addSat (Reg.bankEcc tb.1 tb.2) 47 32 1 |> wrF (Reg.bankEcc tb.1 tb.2) 11 0 (u % 4096)
        |> recordData srcSram o (some (tb.1 / 128))) s

/-- `noteErrors` at an offset of a tile. -/
def noteBankErrors (t off n : Nat) (o : Occ) (s : State) : State := noteErrors (sramAddr t off) n o s

-- HBM placement (R170)

/-- Stack that serves a slice offset. -/
def stackOf (s : State) (off : Nat) : Nat := off / 256 % s.boot.stackCount

/-- Pseudo-channel of its stack that serves a slice offset, the line within it, and the sector within the line. -/
def pseudoChannel (s : State) (off : Nat) : Nat := off / 256 / s.boot.stackCount % 32
/-- See `pseudoChannel`. -/
def channelRow (s : State) (off : Nat) : Nat := off / 256 / (32 * s.boot.stackCount)
/-- See `pseudoChannel`. -/
def lineSector (off : Nat) : Nat := off / 32 % 8

/-- Slice offset of a line, from its stack, its pseudo-channel and its row. -/
def lineOffset (s : State) (stack pc row : Nat) : Nat := ((row * 32 + pc) * s.boot.stackCount + stack) * 256

/-- State of a stack (R184): 0 ABSENT, 1 OFF, 2 TRAINING, 3 READY, 4 RETRAIN, 5 THERMAL_HOLD, 6 FAILED. -/
def stackState (s : State) (p i : Nat) : Nat := rdF s (Reg.hbmStatus p i) 3 0

/-- Sets the state of a stack. -/
def setStackState (p i v : Nat) (s : State) : State := wrF (Reg.hbmStatus p i) 3 0 v s

-- Tile faults (R71, R104)

/-- FAULT_INFO captures the first fault of a tile until software clears VALID. -/
def captureAt (t index code : Nat) (s : State) : State :=
  if rdB s (Reg.faultInfo t) 0 then s
  else wrReg (Reg.faultInfo t) (wd (index * 2 ^ 32 + code * 2 + 1)) s

/-- The capture of a fault at the instruction that a tile has reached. -/
def captureTile (t code : Nat) (s : State) : State := captureAt t (tileIndex s t) code s

/-- A tile fault of the instruction at an index: captured on the tile, GANG_MEMBER on every other member, the whole gang
FAULTED, TILE_FAULT recorded (R71, R104, R385). -/
def tileFaultAt (t index code : Nat) (s : State) : State :=
  let ms := membersOf s (leaderOf s t)
  let s := captureAt t index code s
  let s := (ms.filter (fun m => m ≠ t)).foldl (fun s m => captureTile m 8 s) s
  let s := ms.foldl (fun s m => s |> setTileState m 5 |> wrF (Reg.tileStatus m) 15 12 0
    |> onTl m (fun x => { x with wait := none, iq := [], br := [], asked := false })) s
  recordData srcTile
    { addr := wd index, dev := ownDev s, agent := t, tenant := tileTenant s t, access := 5, status := code }
    (some (t / 128)) s

/-- A tile fault of the instruction that a tile has reached. -/
def tileFault (t code : Nat) (s : State) : State := tileFaultAt t (tileIndex s t) code s

end Sys2Proof.Machine
end

