-- ==== Sys2Proof/Machine/Banks.lean ====
section
/-! DEFINITION. The ports of a bank: their queues, what they have admitted, and which words proceed in a cycle
(R141, R145–R149, R153, R156; notes/assumptions/13.md). -/

namespace Sys2Proof.Machine

/-- A bank's record, and its change; `g` is 16 × tile + bank. -/
def bank (s : State) (g : Nat) : Bank := mget {} s.banks g
/-- See `bank`. -/
def onBank (g : Nat) (f : Bank → Bank) (s : State) : State := { s with banks := mset {} s.banks g (f (bank s g)) }

/-- The banks that `n` bytes of SRAM from a normal address touch: 16 × tile + bank. -/
def banksAt (a n : Nat) : List Nat :=
  let lo := (a - 0x7F0000000000) / 0x20000
  (List.range ((a + (n - 1) - 0x7F0000000000) / 0x20000 - lo + 1)).map (fun i => lo + i)

/-- The part of `n` bytes of SRAM from a normal address that lies in bank `g`: its first word, and its number of words
(R141). -/
def bankPart (g a n : Nat) : Nat × Nat :=
  let lo := max (a - 0x7F0000000000) (g * 0x20000)
  let hi := min (a - 0x7F0000000000 + (n - 1)) (g * 0x20000 + 0x1FFFF)
  (lo / 64 % 2048, hi / 64 - lo / 64 + 1)

/-- Words that a port's queue holds (R153). -/
def portRoom (port : Nat) : Nat := if port = 1 then 8 else 4

/-- What a port has admitted, in order. -/
def Bank.ofPort (b : Bank) (port : Nat) : List BankEntry := b.entries.filter (fun e => e.port == port)

/-- Words that a port has still to access. -/
def Bank.words (b : Bank) (port : Nat) : Nat := ((b.ofPort port).map (fun e => e.left)).foldl (fun a n => a + n) 0

/-- Whether a port's queue has room for `n` more words. An access larger than the queue goes through it alone. -/
def Bank.room (b : Bank) (port n : Nat) : Bool := b.words port == 0 || decide (b.words port + n ≤ portRoom port)

/-- Whether an access of a port finds no other port before it and none of its own port unperformed: its first word
proceeds at once (R146). -/
def Bank.clear (b : Bank) (port : Nat) : Bool := !b.wcycle && b.entries.all (fun e => e.port == port && e.work == .spent)

/-- Words admitted under the current owner and not yet accessed (R156, R165): BANK_INFLIGHT.OLD_COUNT. -/
def Bank.oldCount (b : Bank) : Nat :=
  ([1, 2, 3, 4].map (fun p => min (portRoom p) (b.words p))).foldl (fun a n => a + n) 0

/-- An access of `n` bytes from a normal address as bank `g` admits it. -/
def entryFor (g a n : Nat) (e : BankEntry) : BankEntry :=
  { e with word := (bankPart g a n).1, left := (bankPart g a n).2 }

/-- Puts an access into the queues of the banks it touches. -/
def admitWords (a n : Nat) (e : BankEntry) (s : State) : State :=
  (banksAt a n).foldl (fun s g => onBank g (fun b => { b with entries := b.entries ++ [entryFor g a n e] }) s) s

/-- Whether an access of a port may proceed at once at every bank that it touches: nothing is before it, and its words
find room. -/
def banksClear (s : State) (port a n : Nat) : Bool :=
  (banksAt a n).all (fun g => (bank s g).clear port && (bank s g).room port (bankPart g a n).2)

/-- Whether every bank that an access touches has room for its words. -/
def banksRoom (s : State) (port a n : Nat) : Bool :=
  (banksAt a n).all (fun g => (bank s g).room port (bankPart g a n).2)

-- A cycle of a bank (R146, R147)

/-- The word access that each port asks for. -/
def Bank.fronts (b : Bank) : List BankEntry := [1, 2, 3, 4].filterMap (fun p => (b.ofPort p).head?)

/-- Whether a port is starved. -/
def Bank.starved (b : Bank) (limit port : Nat) : Bool := decide (limit ≤ nth b.lost (port - 1))

/-- What the ports ask for in the order of the bank: starved ports first, each kind by fixed priority. -/
def Bank.ranked (b : Bank) (limit : Nat) : List BankEntry :=
  b.fronts.filter (fun e => b.starved limit e.port) ++ b.fronts.filter (fun e => !b.starved limit e.port)

/-- The word accesses that proceed in a cycle: the first in order, and with it those of the same word, every read and one
write or atomic; the reads come first, since they return the data from before. -/
def Bank.winners (b : Bank) (limit : Nat) : List BankEntry :=
  match b.ranked limit with
  | [] => []
  | e :: r =>
    let same := e :: r.filter (fun x => x.word == e.word)
    same.filter (fun x => x.isRead) ++ (same.filter (fun x => !x.isRead)).take 1

/-- A queue whose front word has been accessed. -/
def passFront (port : Nat) : List BankEntry → List BankEntry
  | [] => []
  | e :: r =>
    if e.port = port then
      (if e.left ≤ 1 then r else { e with word := e.word + 1, left := e.left - 1, work := .spent } :: r)
    else e :: passFront port r

/-- A bank after a cycle in which some ports proceeded: each of the others that asked has lost an arbitration. -/
def Bank.after (b : Bank) (won : List BankEntry) : Bank :=
  let ports := won.map (fun e => e.port)
  { b with
    entries := ports.foldl (fun l p => passFront p l) b.entries,
    wcycle := won.any (fun e => e.two),
    lost := [1, 2, 3, 4].map (fun p =>
      if ports.contains p ∨ (b.ofPort p) = [] then 0 else nth b.lost (p - 1) + 1) }

-- A pending handover (R156, R158)

/-- The words of a unit's accesses that its queue holds, and those behind them. -/
def splitWords : Nat → List BankEntry → List BankEntry × List BankEntry
  | _, [] => ([], [])
  | room, e :: r =>
    if e.left ≤ room then
      let q := splitWords (room - e.left) r
      (e :: q.1, q.2)
    else
      (if room = 0 then [] else [{ e with left := room }],
       { e with word := e.word + room, left := e.left - room, work := if room = 0 then e.work else .spent } :: r)

/-- A bank that accepts a handover keeps in its queues what it has admitted. Later words of the tile's units wait for
the new owner. -/
def Bank.holdBack (b : Bank) : Bank :=
  let units := [3, 4].map (fun p => splitWords (portRoom p) (b.ofPort p))
  { b with entries := b.ofPort 1 ++ b.ofPort 2 ++ units.flatMap (fun q => q.1), later := units.flatMap (fun q => q.2) }

/-- The banks of some tiles forget what they have admitted. -/
def dropBanks (f : Nat → Bool) (s : State) : State := { s with banks := mdrop (fun g => f (g / 16)) s.banks }

end Sys2Proof.Machine
end

