-- ==== Sys2Proof/Machine/Fabric.lean ====
section
/-! DEFINITION. Packets, their classes and channels (R195, R196, R268), injection into the fabric (R23, R266, R273),
status codes (R217) and answers. -/

namespace Sys2Proof.Machine

-- Status codes (R217)

/-- Status codes by name (R217). -/
def stOk : Nat := 0
/-- See `stOk`. -/
def stTimeout : Nat := 0x001
/-- See `stOk`. -/
def stAddr : Nat := 0x002
/-- See `stOk`. -/
def stNoRoute : Nat := 0x003
/-- See `stOk`. -/
def stNoGroup : Nat := 0x004
/-- See `stOk`. -/
def stMisaligned : Nat := 0x005
/-- See `stOk`. -/
def stSize : Nat := 0x006
/-- See `stOk`. -/
def stNoWindow : Nat := 0x007
/-- See `stOk`. -/
def stNotOwner : Nat := 0x008
/-- See `stOk`. -/
def stPoisoned : Nat := 0x009
/-- See `stOk`. -/
def stBankOff : Nat := 0x00A
/-- See `stOk`. -/
def stStackOff : Nat := 0x00B
/-- See `stOk`. -/
def stStackFailed : Nat := 0x00C
/-- See `stOk`. -/
def stFenced : Nat := 0x00D
/-- See `stOk`. -/
def stLinkDown : Nat := 0x00E
/-- See `stOk`. -/
def stStale : Nat := 0x00F
/-- See `stOk`. -/
def stUnlicensed : Nat := 0x010
/-- See `stOk`. -/
def stNoReservation : Nat := 0x011
/-- See `stOk`. -/
def stPitchSuspended : Nat := 0x012
/-- See `stOk`. -/
def stSlotTaken : Nat := 0x013
/-- See `stOk`. -/
def stMissedSlot : Nat := 0x014
/-- See `stOk`. -/
def stJobAborted : Nat := 0x015
/-- See `stOk`. -/
def stTwin : Nat := 0x016
/-- See `stOk`. -/
def stBadJob : Nat := 0x020
/-- See `stOk`. -/
def stNoGang : Nat := 0x021
/-- See `stOk`. -/
def stAborted : Nat := 0x022
/-- See `stOk`. -/
def stLateStart : Nat := 0x023

/-- Errors of R218: every status but OK and LATE_START. -/
def isError (st : Nat) : Bool := st != 0 && st != stLateStart

/-- The status word of R85. -/
def statusWord (status drops : Nat) (check inexact late : Bool) : Word :=
  wd (min drops 0xFFFF * 2 ^ 48 + (if check then 2 ^ 34 else 0) + (if inexact then 2 ^ 33 else 0)
    + (if late then 2 ^ 32 else 0) + status % 2 ^ 16)

-- Packet classes (R196, R268)

/-- Request, pitch, collective, response and management opcodes (R196). -/
def isRequest (op : Nat) : Bool :=
  decide (op = 1 ∨ op = 2 ∨ (0x10 ≤ op ∧ op ≤ 0x16) ∨ op = 0x20 ∨ op = 0x21 ∨ op = 0x23)
/-- See `isRequest`. -/
def isPitchOp (op : Nat) : Bool := decide (op = 0x30)
/-- See `isRequest`. -/
def isColl (op : Nat) : Bool := decide (0x40 ≤ op ∧ op ≤ 0x4F)
/-- See `isRequest`. -/
def isResponse (op : Nat) : Bool := decide (0x60 ≤ op ∧ op ≤ 0x65)
/-- See `isRequest`. -/
def isMgmt (op : Nat) : Bool := decide (0x70 ≤ op ∧ op ≤ 0x7F)

/-- The before channel of a packet's class (R268); a late pitch packet travels with the collective class (R54). -/
def beforeVc (p : Packet) : Nat :=
  if isMgmt p.opcode then 7 else if isPitchOp p.opcode then (if p.late then 1 else 0)
  else if isColl p.opcode then (if p.vc = 0 && !p.late then 0 else 1)
  else if isResponse p.opcode then 3 else 5

/-- The class of a channel in arbitration order: 0 pitch, 1 collective, 2 response, 3 request, 4 management (R270). -/
def vcClass (vc : Nat) : Nat := if vc = 0 then 0 else if vc = 7 then 4 else (vc + 1) / 2

/-- Words of a header (R195, R298). -/
def headerWord (p : Packet) (w : Nat) : Word :=
  if w = 0 then
    wd (p.dst % 2 ^ 14 * 2 ^ 50 + p.src % 2 ^ 14 * 2 ^ 36 + p.vc % 8 * 2 ^ 33 + p.epoch % 2 * 2 ^ 32
      + p.opcode % 256 * 2 ^ 24
      + (if isColl p.opcode then p.digit % 2 ^ 8 * 2 ^ 16 + p.pos % 2 ^ 16
         else (if p.narrow then 2 ^ 19 else 0) + p.gen % 16 * 2 ^ 15 + p.tag % 2 ^ 15))
  else if w = 1 then wd (p.tenant % 256 * 2 ^ 56 + p.len4 % 256 * 2 ^ 48 + p.addr % 2 ^ 48)
  else
    wd (p.seg % 2 ^ 24 * 2 ^ 40 + p.resId % 2 ^ 10 * 2 ^ 30 + p.twinSeq % 2 ^ 12 * 2 ^ 18
      + (if p.twin then 2 ^ 17 else 0) + (if p.late then 2 ^ 16 else 0) + (if p.poison then 2 ^ 15 else 0)
      + (if p.last then 2 ^ 14 else 0) + p.schedVer % 2 * 2 ^ 13 + p.status % 2 ^ 12)

/-- The bytes of a packet (R195): 24 of header, then the payload. -/
def packetBytes (p : Packet) : List Byte :=
  wordsBytes [headerWord p 0, headerWord p 1, headerWord p 2] ++ p.payload

/-- The packet that the bytes of its flits spell (R195, R298). Where it has more flits than its LEN4 implies, all that
follows the header stands as its payload, so that R197 finds it. -/
def bytesPacket (bs : List Byte) : Packet :=
  let w0 := leWord (bs.take 8)
  let w1 := leWord ((bs.drop 8).take 8)
  let w2 := leWord ((bs.drop 16).take 8)
  let op := fld w0 31 24
  let coll := isColl op
  let len4 := fld w1 55 48
  let n := if op = 1 then 0 else 4 * len4
  { dst := fld w0 63 50, src := fld w0 49 36, vc := fld w0 35 33, epoch := fld w0 32 32, opcode := op,
    pos := if coll then fld w0 15 0 else 0, digit := if coll then fld w0 23 16 else 0,
    narrow := !coll && bit w0 19, gen := if coll then 0 else fld w0 18 15, tag := if coll then 0 else fld w0 14 0,
    tenant := fld w1 63 56, len4 := len4, addr := fld w1 47 0, seg := fld w2 63 40, resId := fld w2 39 30,
    twinSeq := fld w2 29 18, twin := bit w2 17, late := bit w2 16, poison := bit w2 15, last := bit w2 14,
    schedVer := fld w2 13 13, status := fld w2 11 0,
    payload := if 56 * ceilDiv (24 + n) 56 < bs.length then bs.drop 24 else (bs.drop 24).take n }

/-- Flits that a packet occupies (R195). -/
def flitCount (p : Packet) : Nat := ceilDiv (24 + p.payload.length) 56

/-- A packet whose opcode is listed and whose LEN4 agrees with its payload (R196, R197). -/
def packetOk (p : Packet) : Bool :=
  (isRequest p.opcode || isPitchOp p.opcode || isColl p.opcode || isResponse p.opcode || isMgmt p.opcode)
    && (if p.opcode = 1 then p.payload.length == 0 && decide (1 ≤ p.len4 ∧ p.len4 ≤ 64)
        else p.payload.length == 4 * p.len4)

-- Routing state

/-- The epoch that this device stamps on what it injects (R273). -/
def injectEpoch (s : State) : Nat := rdF s Reg.routeEpoch 32 32

/-- A destination's entry in the table that an epoch selects (R265, R266). -/
def routeEntry (s : State) (epoch d : Nat) : Word := rd s (Reg.routeTable (epoch % 2 == 1) d)

/-- The egress bond of a packet for another device, none where the entry is invalid (R266). -/
def egressBond (s : State) (epoch d : Nat) : Option Nat :=
  let e := routeEntry s epoch d
  if bit e 63 && decide (fld e 3 0 < 12) then some (fld e 3 0) else none

/-- Devices in the configured machine (R23, R255). -/
def inMachine (s : State) (d : Nat) : Bool :=
  decide (d < 16384 ∧ devX d < 4 * (rdF s Reg.routeMachine 18 16 + 1)
    ∧ devY d < 4 * (rdF s Reg.routeMachine 10 8 + 1) ∧ devZ d < 4 * (rdF s Reg.routeMachine 1 0 + 1))

/-- Hands a packet to the router, or to local delivery when it is for this device (R23, R266). -/
def inject (p : Packet) (s : State) : State :=
  let p := { p with src := ownDev s, epoch := injectEpoch s, vc := beforeVc p, heldFrom := now s }
  if p.dst = ownDev s then { s with rma := { s.rma with deliverQ := s.rma.deliverQ ++ [p] } }
  else { s with net := { s.net with routerQ := s.net.routerQ ++ [(none, p)] } }

/-- A response to a request (R196): same tag, generation, tenant, and address. -/
def respond (req : Packet) (op status : Nat) (payload : List Byte) (late : Bool) (s : State) : State :=
  inject { dst := req.src, opcode := op, gen := req.gen, tag := req.tag, tenant := req.tenant,
           len4 := payload.length / 4, addr := req.addr, seg := req.seg, late := late, status := status,
           payload := payload } s

/-- The 8-byte payload of ACK and COPY_DONE: a byte count (R196). -/
def countBytes (n : Nat) : List Byte := leBytes 8 (n % 2 ^ 33)

/-- Access type of a packet's opcode in a fault capture (R409). -/
def accessType (op : Nat) : Nat :=
  if op = 1 then 0 else if 0x10 ≤ op ∧ op ≤ 0x16 then 2 else if op = 0x21 ∨ op = 0x23 then 3
  else if op = 0x20 ∨ op = 0x64 then 4 else if isColl op then 6 else 1

/-- What a fault captures of a request at its target (R387). -/
def occOf (s : State) (p : Packet) (status : Nat) : Occ :=
  { addr := fabricAddr s p.addr, dev := p.src, agent := 0x800, tenant := p.tenant,
    access := accessType p.opcode, status := status, tag := p.tag, gen := p.gen }

-- Twinned operations (R411–R417)

/-- TWIN.CTRL.EN, the twinned tenant if any, and the peer (R426). -/
def twinOn (s : State) : Bool := rdB s Reg.twinCtrl 63
/-- See `twinOn`. -/
def twinTenant (s : State) : Option Nat := if rdB s Reg.twinCtrl 60 then some (rdF s Reg.twinCtrl 55 48) else none
/-- See `twinOn`. -/
def twinPeer (s : State) : Nat := rdF s Reg.twinCtrl 13 0
/-- See `twinOn`. -/
def twinPreferred (s : State) : Bool := rdB s Reg.twinCtrl 62

/-- TWIN.STATUS.ROLE (R426): 0 OFF, 1 SYNCING, 2 STANDBY, 3 ACTIVE, 4 OUTCAST. -/
def twinRole (s : State) : Nat := rdF s Reg.twinStatus 2 0

/-- Sets the role. -/
def setRoleTwin (r : Nat) (s : State) : State := wrF Reg.twinStatus 2 0 r s

/-- Sets bits of TWIN.EVENT. -/
def twinEvents (mask : Nat) (s : State) : State := orReg Reg.twinEvent mask s

/-- A write or a command of the pair is refused (R426). -/
def twinRefuse (s : State) : State := twinEvents (2 ^ 7) s

/-- Changes the record of the pair. -/
def onTwin (f : Twin → Twin) (s : State) : State := { s with twin := f s.twin }

/-- Operations of a tenant are twinned (R412). -/
def isTwinned (s : State) (tenant : Nat) : Bool := twinOn s && twinTenant s == some tenant

/-- Whether a unit injects twinned packets (R413, R417, R421): an OUTCAST, a SYNCING unit and one whose pair has not
formed do not. -/
def injectsTwin (s : State) : Bool := twinRole s == 2 || twinRole s == 3

-- Queue completion records (R339)

/-- A record of an entry of a queue, waiting to be written. Work of a queue that was stopped carries no queue number
any more, and its record is discarded (R343). -/
def pushRecord (q idx : Nat) (status : Word) (check : Word) (s : State) : State :=
  if q < 512 then onHq q (fun x => { x with records := x.records ++ [{ idx := idx, status := status, check := check }] }) s
  else s

end Sys2Proof.Machine
end

