-- ==== Sys2Proof/Machine/Gangs.lean ====
section
/-! DEFINITION. Gangs and the jobs that run on them (R94–R99): formation, dissolution, the end and the abort of a job,
checks of a tile's own SRAM accesses (R79, R152). -/

namespace Sys2Proof.Machine

/-- The members of a gang in the order of its flattened list (R95, R103). -/
def gangList (s : State) (l : Nat) : List Nat :=
  (List.range 512).filterMap (fun i => (membersOf s l).find? (fun t => rdF s (Reg.tileGang t) 29 21 = i))

/-- Appends the tiles that are not yet in a list. -/
def addNew (acc l : List Nat) : List Nat := l.foldl (fun a t => if a.contains t then a else a ++ [t]) acc

/-- Flattens a list of tiles: a tile of a gang brings in every member; duplicates count once (R95). -/
def flatten (s : State) (l : List Nat) : List Nat :=
  l.foldl (fun acc t => addNew acc (gangList s (leaderOf s t))) []

/-- DELAY of a gang (R96). -/
def gangDelay (l : List Nat) : Nat :=
  if l.length ≤ 1 then 0
  else if l.all (fun t => t / 128 = l.headD 0 / 128) then 8 else 24

/-- The lowest number of a list. -/
def lowest (l : List Nat) : Nat := l.foldl min 511

/-- Writes TILE.GANG of every member (R103). -/
def writeGang (l : List Nat) (s : State) : State :=
  l.zipIdx.foldl (fun s ti =>
    wrReg (Reg.tileGang ti.1) (wd (gangDelay l * 2 ^ 40 + l.length * 2 ^ 30 + ti.2 * 2 ^ 21 + lowest l)) s) s

/-- Forms a gang for a tenant: its ID, or none when formation fails (R94, R95). -/
def formGang (tenant : Nat) (entries : List Nat) (s : State) : Option Nat × State :=
  let l := flatten s entries
  if l = [] ∨ 512 < l.length ∨ entries.any (fun t => decide (512 ≤ t))
      ∨ l.any (fun t => tileState s t != 0 || tileTenant s t != tenant) then (none, s)
  else (some (lowest l), writeGang l s)

/-- Makes each of some tiles a gang of one (R94, R399). -/
def soloGangs (l : List Nat) (s : State) : State := l.foldl (fun s t => writeGang [t] s) s

/-- Dissolves an idle gang of a tenant; the answer says whether it succeeded (R94). -/
def dissolve (tenant g : Nat) (s : State) : Bool × State :=
  let l := membersOf s g
  if l = [] ∨ l.any (fun t => tileState s t != 0 || tileTenant s t != tenant) then (false, s)
  else (true, soloGangs l s)

/-- The job on a gang. -/
def jobOf (s : State) (leader : Nat) : Option Job := s.host.jobs.find? (fun j => j.leader = leader)

/-- Removes the job of a gang. -/
def dropJob (leader : Nat) (s : State) : State :=
  { s with host := { s.host with jobs := s.host.jobs.filter (fun j => j.leader ≠ leader) } }

/-- Changes the job of a gang. -/
def onJob (leader : Nat) (f : Job → Job) (s : State) : State :=
  { s with host := { s.host with jobs := s.host.jobs.map (fun j => if j.leader = leader then f j else j) } }

/-- Every member of a gang IDLE, waiting for nothing, with no descriptor queued. -/
def idleGang (leader : Nat) (s : State) : State :=
  (membersOf s leader).foldl (fun s t => s |> setTileState t 0 |> wrF (Reg.tileStatus t) 15 12 0
    |> onTl t (fun x => { x with
        wait := none, iq := [], br := [], asked := false, pend := [], slotQ := [], running := none })) s

/-- The status a job that ends by itself reports: its first error, POISONED for a marked one, LATE_START for a late
one (R98, R99, R391). -/
def jobStatus (j : Job) (status : Nat) : Nat :=
  if isError status then status else if j.poisoned then stPoisoned else if j.isLate then stLateStart else stOk

/-- Ends the job of a gang with a status and queues its record (R99). -/
def endJob (leader status : Nat) (s : State) : State :=
  match jobOf s leader with
  | none => s
  | some j => s |> dropJob leader |> idleGang leader
      |> pushRecord j.q j.idx (statusWord (jobStatus j status) 0 false false false) 0

/-- A free entry keeps its generation and the record of its last issue (R198, R203). -/
def freedEntry (e : Cpl) : Cpl :=
  { gen := e.gen, seq := e.seq, valid := e.valid, rec0 := e.rec0, rec1 := e.rec1, rec2 := e.rec2, rec3 := e.rec3 }

/-- Releases a DONE entry: to FREE, or to QUARANTINE when it sent a packet and completed without a final response
(R198). -/
def release (tag : Nat) (s : State) : State :=
  let e := cplOf s tag
  if e.sent && !e.answered then setCpl tag { e with st := .quarantine } s else setCpl tag (freedEntry e) s

/-- Stops the gang's job: its tags are released as their completions arrive, its members become IDLE, its record says
ABORTED (R99). -/
def abortGang (leader : Nat) (s : State) : State :=
  let ms := membersOf s leader
  let own (e : Cpl) : Bool := match e.tile with | some t => ms.contains t | none => false
  let done := s.cpl.filter (fun kv => own kv.2 && kv.2.st == .done)
  let s := { s with cpl := s.cpl.map (fun kv =>
      if own kv.2 && kv.2.st == .opened then (kv.1, { kv.2 with orphan := true }) else kv) }
  let s := done.foldl (fun s kv => release kv.1 s) s
  let s := { s with coll := { s.coll with bars := s.coll.bars.map (fun (b : BarInst) =>
      if b.key = BarKey.gang leader then b else { b with arrived := b.arrived.filter (fun t => !ms.contains t) }) } }
  let s := { s with coll := { s.coll with bars := s.coll.bars.filter (fun (b : BarInst) =>
      b.key ≠ BarKey.gang leader && b.arrived != []) } }
  match jobOf s leader with
  | none => idleGang leader s
  | some j => s |> dropJob leader |> idleGang leader
      |> pushRecord j.q j.idx (statusWord stAborted 0 false false false) 0

/-- Leaders of the gangs that have a job of a tenant. -/
def tenantJobs (s : State) (tenant : Nat) : List Nat :=
  (s.host.jobs.filter (fun j => j.tenant = tenant)).map (fun j => j.leader)

/-- One core cycle of a tile's job in which nothing issues (R67, R100). -/
def stalled (t : Nat) (s : State) : State := wrReg (Reg.cycles t) (rd s (Reg.cycles t) + 1) s

/-- Issue moves on: the instruction leaves the tile's queue, INDEX and CYCLES advance by one (R96, R100, R101). Past
index 8,191 INDEX wraps, and there is no next instruction (R99). -/
def advance (t : Nat) (s : State) : State :=
  s |> onTl t (fun x => { x with iq := x.iq.tail, asked := false, wrapped := decide (tileIndex s t = 8191) })
    |> wrF (Reg.tileStatus t) 44 32 (tileIndex s t + 1)
    |> wrF (Reg.tileStatus t) 15 12 0 |> wrReg (Reg.cycles t) (rd s (Reg.cycles t) + 1)

-- A tile's accesses to its own SRAM (R66, R79, R152)

/-- Whether a tile may access `n` bytes of its SRAM now: none when it may, else the tile fault code; code 0 says that
a pending handover stalls it (R156). -/
def localCheck (s : State) (t off n : Nat) : Option Nat :=
  if n = 0 then none
  else if 0x200000 < off + n then some 4
  else if (banksOf off n).any (fun b => handoverPending s t b) then some 0
  else if (banksOf off n).all (fun b => owns s t b t (tileTenant s t)) then none
  else some 6

/-- A tile fault of a refused local access; a refused ownership also records an access violation (R152). -/
def localFault (t code off : Nat) (isWrite : Bool) (s : State) : State :=
  let s := tileFault t code s
  if code = 6 then
    violation
      { addr := wd (sramAddr t off), dev := ownDev s, agent := t, tenant := tileTenant s t,
        access := if isWrite then 1 else 0, status := stNotOwner }
      (sramAddr t off) s
  else s

/-- How a request of a tile for its own SRAM stands. -/
inductive Asked where
  | granted (s : State)
  | waits (s : State)
  | refused (code off : Nat)
deriving DecidableEq, Repr

/-- The first range that `localCheck` does not let pass: its fault code, and its offset. -/
def firstRefused (s : State) (t : Nat) : List (Nat × Nat) → Option (Nat × Nat)
  | [] => none
  | r :: l =>
    match localCheck s t r.1 r.2 with
    | some c => some (c, r.1)
    | none => firstRefused s t l

/-- Whether a unit of a tile still waits in the queue of one of the tile's banks. -/
def unitWaits (s : State) (t : Nat) : Bool :=
  (List.range 16).any (fun b => (bank s (16 * t + b)).entries.any (fun e => e.work == .unit t)
    || (bank s (16 * t + b)).later.any (fun e => e.work == .unit t))

/-- A unit of a tile asks, by a port, for some ranges of the tile's own SRAM, as offset and length (R66, R145, R153). It
has them at once when no other access is before it at their banks; else it waits in the banks' queues, or in front of
them where they are full. What has been admitted is not checked again. -/
def askBanks (t port : Nat) (isRead two : Bool) (l : List (Nat × Nat)) (s : State) : Asked :=
  let l := l.filter (fun r => r.2 != 0)
  let e : BankEntry := { port := port, word := 0, left := 0, isRead := isRead, two := two, index := tileIndex s t }
  let enter (w : BankWork) (s : State) : State :=
    l.foldl (fun s r => admitWords (sramAddr t r.1) r.2 { e with work := w } s) s
  if (tl s t).asked then (if unitWaits s t then .waits s else .granted s)
  else
    match firstRefused s t l with
    | some (0, _) => .waits s
    | some (c, off) => .refused c off
    | none =>
      if l.all (fun r => banksClear s port (sramAddr t r.1) r.2) then
        .granted (s |> enter .spent |> onTl t (fun x => { x with asked := true }))
      else if l.all (fun r => banksRoom s port (sramAddr t r.1) r.2) then
        .waits (s |> enter (.unit t) |> onTl t (fun x => { x with asked := true }))
      else .waits s

/-- What a data fault captures of a tile's own access. -/
def tileOcc (s : State) (t off : Nat) (isWrite : Bool) (status : Nat) : Occ :=
  { addr := wd (sramAddr t off), dev := ownDev s, agent := t, tenant := tileTenant s t,
    access := if isWrite then 1 else 0, status := status }

/-- The halves that a write reads before it writes: those it covers only in part, or all when it updates them
(R142, R148). -/
def rmwUnits (whole : Bool) (a n : Nat) : List Nat := (unitsOf a n).filter (fun u => !(whole && coversUnit a n u))

/-- A store of a tile to its own SRAM through a view, after `localCheck` (R28, R142, R143): a poisoned half that it
would have to read is left alone and counted. Its bytes read new from now on (R70). -/
def localStore (t view off : Nat) (bs : List Byte) (s : State) : State :=
  let a := sramAddr t off
  let o := tileOcc s t off true stPoisoned
  let s := (rmwUnits (view == 0) a bs.length).foldl (fun s u => noteBankErrors t (u * 32 - sramAddr t 0) 32 o s) s
  let new := viewBytes view (memBytes s a bs.length) bs
  let s := (writeMem (view == 0) false a new s).2
  onTl t (fun x => { x with unsettled := x.unsettled.filter (fun u => !decide (off ≤ u.off ∧ u.off < off + bs.length)) }) s

/-- Words of the completion record of an entry (R203). -/
def recordWords (e : Cpl) : List Word := [e.rec0, e.rec1, e.rec2, e.rec3]

end Sys2Proof.Machine
end

