-- ==== Sys2Proof/Machine/Completion.lean ====
section
/-! DEFINITION. The completion table (R198–R203): allocation, completion into each sink, and what waits on it (R82,
R90, R99). -/

namespace Sys2Proof.Machine

/-- Entries that a tenant holds (R202). -/
def heldBy (s : State) (tenant : Nat) : Nat :=
  (s.cpl.filter (fun kv => kv.2.st != .free && kv.2.tenant == tenant)).length

/-- Entries in a state (R221). -/
def countState (s : State) (st : CplState) : Nat := (s.cpl.filter (fun kv => kv.2.st == st)).length

/-- The lowest FREE entry at or above `k`, searching `fuel` entries. -/
def lowestFree (s : State) (k : Nat) : Nat → Option Nat
  | 0 => none
  | fuel + 1 => if (cplOf s k).st = .free then some k else lowestFree s (k + 1) fuel

/-- Picks a FREE entry (R202): any one. A free value names it where that entry is FREE, else the lowest FREE one
(notes/assumptions/4.md). None when the tenant's quota is used up or no entry is FREE. -/
def pickTag (tenant : Nat) (s : State) : Option Nat × State :=
  if rdF s (Reg.cplQuota tenant) 15 0 ≤ heldBy s tenant then (none, s)
  else
    let f := freeNext s
    let k := f.1.toNat % 32768
    if (cplOf s k).st = .free then (some k, f.2) else (lowestFree s 0 32768, f.2)

/-- Opens an entry for an operation; its record reads VALID = 0 until it completes (R198, R203). -/
def openTag (tag : Nat) (e : Cpl) (s : State) : State :=
  let old := cplOf s tag
  setCpl tag { e with st := .opened, gen := old.gen, seq := old.seq, valid := false,
                      rec0 := old.rec0 &&& ~~~ wd (2 ^ 31), rec1 := old.rec1, rec2 := old.rec2, rec3 := old.rec3 } s

/-- The tag register of R84. -/
def tagWord (gen tag : Nat) : Word := wd (gen % 16 * 2 ^ 15 + tag % 2 ^ 15)

/-- Kinds of operation in the mask of FENCE (R82): 0 remote, 1 stream, 2 collective. -/
def kindMask (k : CplKind) : Nat :=
  match k with
  | .desc => 1
  | .coll => 2
  | _ => 0

/-- Open operations of a tile of the kinds of a mask (R82). -/
def openOf (s : State) (t mask : Nat) : Bool :=
  s.cpl.any (fun kv => kv.2.st == .opened && kv.2.tile == some t && mask.testBit (kindMask kv.2.kind))
    || (mask.testBit 1 && ((tl s t).slotQ != [] || (tl s t).running != none))

-- What waits for a completion

/-- A CPLW or CPLP of a tag register: `wait` when its entry is OPEN with the named generation, else the status word
and the entry to release, if one matches (R84, R199). -/
inductive TagLook where
  | wait
  | done (tag : Nat) (e : Cpl)
  | stale
deriving DecidableEq, Repr

/-- Looks a tag register up in the table (R199). -/
def lookTag (s : State) (w : Word) : TagLook :=
  if bit w 63 then .stale
  else
    let tag := fld w 14 0
    let e := cplOf s tag
    if e.st = .done ∧ e.gen = (fld w 18 15 + 1) % 16 then .done tag e
    else if e.st = .opened ∧ e.gen = fld w 18 15 then .wait else .stale

/-- A tile begins to wait at an instruction; `kind` is its WAIT_KIND (R101). -/
def beginWait (t kind : Nat) (w : Wait) (s : State) : State :=
  s |> wrF (Reg.tileStatus t) 15 12 kind |> onTl t (fun x => { x with wait := some w, waitFrom := now s })

/-- The wait of a tile ended: the cycles it took are counted, and the next instruction may issue (R100). Time spent at
a BAR, or in CPLW or FENCE for a collective, is slack of the tile's partition (R362). -/
def resume (t : Nat) (s : State) : State :=
  let dt := now s - (tl s t).waitFrom
  let c := coreCycles s t dt
  let slack := match (tl s t).wait with
    | some (.bar _ _ _) => dt
    | some (.barOver _ _ _) => dt
    | some (.cplw w _ _) => if (cplOf s (fld w 14 0)).kind = .coll then dt else 0
    | some (.fence mask _) => if mask.testBit 2 then dt else 0
    | _ => 0
  { s with pwr := { s.pwr with partWait := mset 0 s.pwr.partWait (t / 128) (mget 0 s.pwr.partWait (t / 128) + slack) } }
    |> onTl t (fun x => { x with wait := none })
    |> wrReg (Reg.stallWait t) (rd s (Reg.stallWait t) + wd c)
    |> wrReg (Reg.cycles t) (rd s (Reg.cycles t) + wd c)
    |> advance t

/-- Bytes of a tile's SRAM whose writer has been observed read new from now on (R70). -/
def observe (t : Nat) (f : Until → Bool) (s : State) : State :=
  onTl t (fun x => { x with unsettled := x.unsettled.filter (fun u => !f u.till) }) s

/-- What the completion of an entry shows to have been written. -/
def untilTag (tag : Nat) (e : Cpl) (u : Until) : Bool := u == .tag tag ((e.gen + 15) % 16)

/-- What a FENCE of a mask shows to have been written (R70, R82). -/
def untilFence (mask : Nat) : Until → Bool
  | .cycles _ _ _ => false
  | .slot _ => mask.testBit 1
  | .tag _ _ => mask.testBit 0

/-- A CPLW that waits: its status word, its record, the release (R82, R85). -/
def settleCplw (t : Nat) (w : Word) (d : Nat) (off : Option Nat) (s : State) : State :=
  match lookTag s w with
  | .wait => s
  | .stale => s |> onTl t (setG d (wd stStale)) |> resume t
  | .done tag e =>
    (match off with
     | none => s |> onTl t (setG d e.rec1) |> observe t (untilTag tag e) |> release tag |> resume t
     | some o =>
       (match askBanks t 4 false false [(o, 32)] s with
        | .granted s =>
          s |> localStore t 0 o (wordsBytes (recordWords e)) |> onTl t (setG d e.rec1) |> observe t (untilTag tag e)
            |> release tag |> resume t
        | .waits s => s
        | .refused c off => localFault t c off true s))

/-- A SWAIT that waits (R90). -/
def settleSwait (t slot d : Nat) (s : State) : State :=
  let x := tl s t
  if x.slotQ.contains slot ∨ x.running = some slot then s
  else s |> onTl t (setG d (mget 0 x.slotStatus slot)) |> observe t (fun u => u == .slot slot) |> resume t

/-- Errors of AR = 1 operations of the kinds of a mask (R82). -/
def fenceCount (x : Tile) (mask : Nat) : Nat :=
  (if mask.testBit 0 then nth x.fenceErr 0 else 0) + (if mask.testBit 1 then nth x.fenceErr 1 else 0)
    + (if mask.testBit 2 then nth x.fenceErr 2 else 0)

/-- A FENCE that waits (R82). -/
def settleFence (t mask d : Nat) (s : State) : State :=
  if openOf s t mask then s
  else s |> onTl t (fun x => setG d (wd (fenceCount x mask)) x) |> observe t (untilFence mask) |> resume t

/-- GANG.END: the job ends when every member has executed it and none has an open operation (R94, R99). -/
def settleEnd (t : Nat) (s : State) : State :=
  let l := leaderOf s t
  if (membersOf s l).all (fun m => decide ((tl s m).wait = some .gangEnd) && !openOf s m 7) then
    (match jobOf s l with
     | none => idleGang l s
     | some j => endJob l j.err s)
  else s

/-- Looks again at what a tile waits for (R82, R90, R99). Barriers and WAITT end by their own events. -/
def settle (t : Nat) (s : State) : State :=
  if tileState s t = 3 then
    (match (tl s t).wait with
     | some (.cplw w d off) => settleCplw t w d off s
     | some (.swait slot d) => settleSwait t slot d s
     | some (.fence mask d) => settleFence t mask d s
     | some .gangEnd => settleEnd t s
     | _ => s)
  else s

/-- Every waiting tile looked at again. -/
def settleAll (s : State) : State := (s.tiles.map (·.1)).foldl (fun s t => settle t s) s

-- Completion

/-- A program image that is loaded: the gang waits for its start (R98), and the length is recorded (R72). -/
def jobLoaded (leader status : Nat) (s : State) : State :=
  if isError status then endJob leader status s
  else
    match jobOf s leader with
    | none => s
    | some j =>
      let s := onJob leader (fun x => { x with st := 2, loadDone := now s }) s
      let s := onTl leader (fun x => { x with imemLen := j.count }) s
      (membersOf s leader).foldl (fun s t => s |> setTileState t 2 |> wrF (Reg.tileStatus t) 15 12 8) s

/-- A member list that is fetched: the FORM_GANG job forms its gang and completes (R95, R97). -/
def membersLoaded (q idx tenant status : Nat) (buf : Map Byte) (n : Nat) (s : State) : State :=
  if isError status then pushRecord q idx (statusWord status 0 false false false) 0 s
  else
    let l := (List.range n).map (fun i => (mget 0 buf (2 * i)).toNat + 256 * (mget 0 buf (2 * i + 1)).toNat)
    let r := formGang tenant l s
    pushRecord q idx (statusWord (if r.1 = none then stNoGang else stOk) 0 false false false) 0 r.2

/-- Hands a completed entry to its sink (R91, R98, R193, R198, R338). -/
def toSink (tag : Nat) (e : Cpl) (status : Nat) (word check : Word) (s : State) : State :=
  match e.sink with
  | .none => s
  | .sram _ _ => s
  | .reg t d => onTl t (fun x =>
      let x := { x with pend := x.pend.erase d }
      if isError status then setG d 0 x else x) s
  | .copyFor req => release tag (respond req 0x63 status (countBytes (e.got / max 1 e.targets.length)) false s)
  | .slot t i =>
    if e.orphan then s
    else release tag (onTl t (fun x => { x with running := none, slotStatus := mset 0 x.slotStatus i word }) s)
  | .queue q idx =>
    if e.kind = .members then membersLoaded q idx e.tenant status e.buf e.items (release tag s)
    else pushRecord q idx word check (release tag s)
  | .job leader => jobLoaded leader status (release tag s)

/-- An AR = 1 operation: its error is a data-path fault and counts for FENCE; the entry is released at once (R84). -/
def afterAr (tag : Nat) (e : Cpl) (status : Nat) (s : State) : State :=
  let t := e.tile.getD 0
  let s := if isError status then
      s |> onTl t (fun x => { x with fenceErr := setNth x.fenceErr (kindMask e.kind) (nth x.fenceErr (kindMask e.kind) + 1) })
        |> recordData srcCompletion
            { addr := e.target, dev := ownDev s, agent := t, tenant := e.tenant, access := 8, status := status,
              tag := tag, gen := e.gen }
            (some (t / 128))
    else s
  release tag s

/-- The first error among what GANG.END waits for is the job's (R99). -/
def noteJobError (e : Cpl) (status : Nat) (s : State) : State :=
  match e.tile with
  | none => s
  | some t =>
    if isError status ∧ !e.ar ∧ (tl s t).wait = some .gangEnd then
      onJob (leaderOf s t) (fun j => if j.err = 0 then { j with err := status } else j) s
    else s

/-- Writes the completion record of an entry and advances its generation (R198, R203). -/
def writeRecord (tag : Nat) (e : Cpl) (word check : Word) (s : State) : State :=
  let n := (e.seq + 1) % 2 ^ 32
  setCpl tag { e with st := .done, gen := (e.gen + 1) % 16, seq := n, doneAt := now s, valid := true,
                      rec0 := wd (n * 2 ^ 32 + 2 ^ 31 + e.gen % 16 * 2 ^ 15 + tag % 2 ^ 15),
                      rec1 := word, rec2 := s.now, rec3 := check, cvu := none } s

/-- Completes an OPEN entry (R198): its record, its sink, its release when AR = 1 or its job was aborted, and whatever
waited for it. An entry that is not OPEN is left alone, and so is a damaged one until its deadline (R386). -/
def finishTag (tag status drops : Nat) (inexact late : Bool) (check : Option Word) (s : State) : State :=
  let e := cplOf s tag
  if e.st ≠ .opened ∨ e.damaged then s
  else
    let word := statusWord status drops check.isSome inexact late
    let s := writeRecord tag e word (check.getD 0) s
    let s := toSink tag e status word (check.getD 0) s
    let s := noteJobError e status s
    let s := if e.orphan then release tag s
      else if e.ar then afterAr tag e status s else s
    match e.tile with
    | none => s
    | some t => settle t s

/-- A check-value channel's stream ends as an error (R325). -/
def cvuError (c : Nat) (s : State) : State :=
  { s with cvu := mset {} s.cvu c {} } |> wrF (Reg.cvuStatus c) 1 0 3 |> orReg Reg.cvuErr (2 ^ c)

/-- Completes an entry without a check value; an attached channel ends in error, or, when the deadline passed with
every byte covered, returns to IDLE (R324, R325). -/
def failTag (tag status : Nat) (late : Bool) (s : State) : State :=
  let e := cplOf s tag
  if e.st ≠ .opened then s
  else
    let s := match e.cvu with
      | none => s
      | some c => if e.answered then wrF (Reg.cvuStatus c) 1 0 0 s else cvuError c s
    finishTag tag status 0 false late none s

/-- A damaged entry completes with TIMEOUT, and holds a quarantine even where nothing was sent (R386). -/
def expireDamaged (tag : Nat) (s : State) : State :=
  s |> setCpl tag { cplOf s tag with damaged := false, sent := true } |> failTag tag stTimeout (cplOf s tag).late

/-- An operation whose every part has arrived. With an error it completes at once; with success an attached channel's
result is waited for (R324). -/
def concludeTag (tag : Nat) (late : Bool) (s : State) : State :=
  let e := cplOf s tag
  let s := setCpl tag { e with answered := true, late := late } s
  if e.firstErr ≠ 0 then
    (match e.cvu with
     | none => finishTag tag e.firstErr 0 false late none s
     | some c => finishTag tag e.firstErr 0 false late none (cvuError c s))
  else
    match e.cvu with
    | none => finishTag tag 0 e.drops e.inexact late none s
    | some c =>
      if rdF s (Reg.cvuStatus c) 1 0 = 2 then
        finishTag tag 0 e.drops e.inexact late (some (rd s (Reg.cvuResult c))) s
      else if rdF s (Reg.cvuStatus c) 1 0 = 1 then s else finishTag tag 0 e.drops e.inexact late none s

/-- What a deadline fault captures of an operation (R309, R385, R409). -/
def deadlineOcc (s : State) (tag status : Nat) : Occ :=
  let e := cplOf s tag
  { addr := e.target, dev := ownDev s, agent := e.tile.getD 0x300, tenant := e.tenant, access := 8, status := status,
    tag := tag, gen := e.gen }

/-- A pitch collective of this device becomes late: its deadline is extended and a deadline fault raised, once
(R309). -/
def markLate (gid num pos : Nat) (s : State) : State :=
  match s.coll.insts.find? (fun i => i.gid == gid && i.num == num && i.pos == pos && i.sub != 6) with
  | none => s
  | some i =>
    if i.late || !i.pitch then s
    else
      let s := setCpl i.tag { cplOf s i.tag with deadline := i.lateBy, late := true } s
      let s := { s with coll := { s.coll with insts := s.coll.insts.map (fun j =>
        if j.gid = gid ∧ j.num = num ∧ j.pos = pos ∧ j.sub ≠ 6 then { j with late := true } else j) } }
      recordData srcDeadline (deadlineOcc s i.tag stOk) (some (i.tile / 128)) s

/-- Records the first error of an operation (R218). -/
def noteError (tag status : Nat) (s : State) : State :=
  let e := cplOf s tag
  if isError status ∧ e.firstErr = 0 then setCpl tag { e with firstErr := status } s else s

/-- `n` bytes of an operation have arrived with a status; the operation ends when all of them have (R191–R194). -/
def progress (tag n status : Nat) (late : Bool) (s : State) : State :=
  let s := noteError tag status s
  let e := cplOf s tag
  if e.st ≠ .opened then s
  else
    let s := setCpl tag { e with got := e.got + n } s
    if e.expect ≤ e.got + n then concludeTag tag late s else s

end Sys2Proof.Machine
end

