-- ==== Sys2Proof/Machine/Roles.lean ====
section
/-! DEFINITION. Who may write a register (R428, R444), and what the audit log keeps of it (R446). -/

namespace Sys2Proof.Machine

/-- Number of a path (R446). -/
def pathNo : Path → Nat
  | .pcie => 0
  | .eth => 1
  | .i3c => 2

/-- The role of the session on a path (R444, R455): 0 none, 1 operator, 2 installer, 3 maker. -/
def roleOf (s : State) (p : Path) : Nat := rdF s Reg.authStatus (9 + 2 * pathNo p) (8 + 2 * pathNo p)

/-- The session record of a path. -/
def sess (s : State) (p : Path) : Session := mget {} s.boot.sessions (pathNo p)

/-- Changes the session record of a path. -/
def onSess (p : Path) (f : Session → Session) (s : State) : State :=
  { s with boot := { s.boot with sessions := mset {} s.boot.sessions (pathNo p) (f (sess s p)) } }

/-- The role a register's writer must hold on a session path. -/
def needRole : Reg.Class → Nat
  | .auth => 0
  | .any => 1
  | .operator => 1
  | .installer => 2
  | .maker => 3

/-- Agent and tenant that a writer presents (R151). -/
def writerAgent (s : State) : Writer → Nat × Nat
  | .path _ => (0x300, 0)
  | .vf v => (0x800, v)
  | .fabric _ t => (0x800, t)
  | .tile t => (t, tileTenant s t)
  | .engine i => (0x200 + i, 0)

/-- Device that a writer's access comes from (R409). -/
def writerDev (s : State) : Writer → Nat
  | .fabric d _ => d
  | _ => ownDev s

/-- What a fault captures of a register write. -/
def writeOcc (s : State) (who : Writer) (a status : Nat) : Occ :=
  { addr := match who with
      | .fabric _ _ => fabricAddr s (Reg.spaceBase + a)
      | _ => wd (Reg.spaceBase + a),
    dev := writerDev s who, agent := (writerAgent s who).1, tenant := (writerAgent s who).2, access := 1,
    status := status }

/-- Registers whose role-checked writes get no entry of their own: staging areas, route tables, schedules, and the
commits that log their content (R446). -/
def unlogged (a : Nat) : Bool :=
  decide ((0xE1000 ≤ a ∧ a < 0xE1400) ∨ (0x81000 ≤ a ∧ a < 0x8A000) ∨ (0x20100 ≤ a ∧ a < 0x20180) ∨ 0x2000000 ≤ a
    ∨ (0x64000 ≤ a ∧ a < 0x6C000)
    ∨ (0x100000 ≤ a ∧ a < 0x300000 ∧ 0x8000 ≤ a % 0x10000 ∧ a % 0x10000 < 0x9000))

/-- Registers whose writes are counted in AUDIT_SKIPPED (R446). -/
def skipsLog (a : Nat) : Bool := decide (a = Reg.powerCap ∨ a = Reg.coolant ∨ a = Reg.fwShelf)

/-- Logs a role-checked write (R446): `outcome` 0 DONE, 1 REFUSED_ROLE, 2 REFUSED. -/
def logWrite (who : Writer) (a outcome : Nat) (old new : List Word) (s : State) : State :=
  match who with
  | .path p => auditLog (roleOf s p) (pathNo p) outcome (sess s p).keyId (Reg.spaceBase + a) old new s
  | _ => auditLog 0 3 outcome 0 (Reg.spaceBase + a) old new s

/-- A write that lacks its role has no effect, is counted and is logged (R444). -/
def refuseRole (who : Writer) (a : Nat) (s : State) : State :=
  s |> addSat Reg.roleRefused 31 0 1
    |> (fun s => if skipsLog a then addSat Reg.auditHead 63 32 1 s else logWrite who a 1 [] [] s)

/-- A writer without a session at a register that needs one (R428): NO_WINDOW; a tile's also records a violation. -/
def refuseOther (who : Writer) (a : Nat) (s : State) : State :=
  match who with
  | .tile _ => violation (writeOcc s who a stNoWindow) (Reg.spaceBase + a) s
  | _ => s

/-- Whether a writer holds what a class of register needs. -/
def mayWrite (s : State) (c : Reg.Class) : Writer → Bool
  | .path p => decide (needRole c ≤ roleOf s p)
  | _ => c == .any || c == .auth

/-- Logs the outcome of an admitted write where R446 asks for it. -/
def logOutcome (c : Reg.Class) (who : Writer) (a : Nat) (ok : Bool) (s : State) : State :=
  if skipsLog a then addSat Reg.auditHead 63 32 1 s
  else if decide (2 ≤ needRole c) && !unlogged a then logWrite who a (if ok then 0 else 2) [] [] s
  else s

/-- A register write under its role check: the status that a writer without a session sees, and the state. `f` says
whether it accepted the write. -/
def withRole (c : Reg.Class) (who : Writer) (a : Nat) (f : State → Bool × State) (s : State) : Nat × State :=
  if mayWrite s c who then
    let r := f s
    (stOk, logOutcome c who a r.1 r.2)
  else
    match who with
    | .path _ => (stOk, refuseRole who a s)
    | _ => (stNoWindow, refuseOther who a s)

/-- A write whose effect cannot be refused. -/
def withRoleDo (c : Reg.Class) (who : Writer) (a : Nat) (f : State → State) (s : State) : Nat × State :=
  withRole c who a (fun s => (true, f s)) s

/-- A write under its role check that is answered UNLICENSED where it asks for what the package is not licensed for
(R4). -/
def unlicensedIf (c : Reg.Class) (who : Writer) (beyond : State → Bool) (f : State → Nat × State) (s : State) :
    Nat × State :=
  let r := f s
  if mayWrite s c who && beyond s && r.1 == stOk then (stUnlicensed, r.2) else r

/-- A register write that is a command of its own: a status other than OK is handed to the writer (R4, R13, R27). -/
def answered (who : Writer) (a : Nat) (r : Nat × State) : State :=
  if r.1 = stOk then r.2 else emit (.writeStatus who (Reg.spaceBase + a) r.1) r.2

/-- A register write that is refused before any register sees it: its status, and an access violation with the address
(R13, R19, R27). -/
def refuseWrite (who : Writer) (addr status : Nat) (s : State) : State :=
  s |> violation { writeOcc s who 0 status with addr := match who with | .fabric _ _ => fabricAddr s addr | _ => wd addr } addr
    |> emit (.writeStatus who addr status)

/-- A command that writes a register of port `n`: where the package lacks the port, ADDR_INVALID (R19). -/
def portCommand (who : Writer) (n a : Nat) (f : State → Nat × State) (s : State) : State :=
  if n < portCount s then answered who a (f s)
  else if n < 32 then refuseWrite who (Reg.spaceBase + a) stAddr s else s

/-- What the plain access codes of R14 make of a write: RW bits set, W1C bits cleared. -/
def plainValue (k : Reg.Kind) (old v : Word) : Word :=
  ((old &&& ~~~ wd k.rw) ||| (v &&& wd k.rw)) &&& ~~~ (v &&& wd k.w1c)

/-- A plain write of a register (R14). -/
def plainWrite (who : Writer) (a : Nat) (v : Word) (s : State) : Nat × State :=
  withRoleDo (Reg.kind a).cls who a (fun s => wrReg a (plainValue (Reg.kind a) (rd s a) v) s) s

/-- The outcome of a meaning that always goes on. -/
def ok (s : State) : Host.Outcome State Fault Refusal := .next s

end Sys2Proof.Machine
end

