-- ==== Sys2Proof/Machine/TimeOps.lean ====
section
/-! DEFINITION. Fabric time, pitch slots and the schedule (R34–R64). -/

namespace Sys2Proof.Machine

/-- PORT.STATUS.STATE (R250): 0 DISABLED, 1 DOWN, 2 TRAINING, 3 QUALIFY, 4 UP, 5 RETRAIN, 6 MISWIRED, 7 RESTING,
8 WAKING. -/
def portState (s : State) (n : Nat) : Nat := rdF s (Reg.portStatus n) 3 0

/-- TIME.STATUS.STATE (R59): 0 UNSET, 1 ACQUIRE, 2 LOCKED, 3 HOLDOVER, 4 RESYNC, 5 LOST. -/
def timeState (s : State) : Nat := rdF s Reg.timeStatus 7 4

/-- Sets TIME.STATUS.STATE. -/
def setTimeState (v : Nat) (s : State) : State := wrF Reg.timeStatus 7 4 v s

/-- TIME.PORT_PITCH.STATE (R61): 0 DOWN, 1 ACTIVE, 2 PITCH_SUSP. -/
def pitchState (s : State) (n : Nat) : Nat := rdF s (Reg.portPitch n) 3 2

/-- Active schedule version (R58): true is B. -/
def schedActive (s : State) : Bool := rdB s Reg.schedCtrl 0

/-- Old-version pitch flits held in the device (R57): TIME.SCHED_OLD_COUNT. -/
def oldPitch (s : State) : Nat :=
  (s.net.pitchHeld.filter (fun h => h.ver != (schedActive s).toNat)).foldl (fun a h => a + flitCount h.pkt) 0
    + (s.net.staged.filter (fun h => h.pkt.schedVer != (schedActive s).toNat)).foldl (fun a h => a + flitCount h.pkt) 0

/-- Ports that are UP and lead to a device. -/
def portsTo (s : State) (d : Nat) : List Nat :=
  (List.range 32).filter (fun n => portState s n == 4 && rdB s (Reg.neighbour n) 63 && rdF s (Reg.neighbour n) 13 0 == d)

/-- The direct link of the standby of a pair that twins fabric time alone to the active twin, its parent (R43). -/
def twinParent (s : State) : Option Nat :=
  if twinOn s && s.twin.paired && (twinTenant s).isNone && (twinRole s == 1 || twinRole s == 2) then
    (portsTo s (twinPeer s)).head?
  else none

/-- The parent port in use (R42, R43, R60), none when it is not configured. -/
def parentPort (s : State) : Option Nat :=
  if (twinParent s).isSome then twinParent s
  else if s.tim.useAlt then (if rdB s Reg.timeParent 13 then some (rdF s Reg.timeParent 12 8) else none)
  else (if rdB s Reg.timeParent 5 then some (rdF s Reg.timeParent 4 0) else none)

/-- The configured parent that is not in use (R42). -/
def otherParent (s : State) : Option Nat :=
  if s.tim.useAlt then (if rdB s Reg.timeParent 5 then some (rdF s Reg.timeParent 4 0) else none)
  else (if rdB s Reg.timeParent 13 then some (rdF s Reg.timeParent 12 8) else none)

/-- Whether this device is the beat master (R43). -/
def isMaster (s : State) : Bool := rdB s Reg.timeCtrl 5

/-- Entry `e` of a port's schedule in a version (R63). -/
def portSched (s : State) (b : Bool) (n e : Nat) : Word := rd s (if b then Reg.schedB n e else Reg.schedA n e)

/-- Word `w` of source reservation `r` in a version (R62). -/
def srcRes (s : State) (b : Bool) (r w : Nat) : Word := rd s (if b then Reg.resB r w else Reg.resA r w)

/-- The entry of a port's schedule that a packet's source and reservation match, if any (R47). -/
def matchSched (s : State) (b : Bool) (n src res : Nat) : Option Word :=
  ((List.range 256).map (fun e => portSched s b n e)).find? (fun w =>
    bit w 63 && fld w 61 48 == src && fld w 47 38 == res)

/-- The first tick at or after `t` of a slot that recurs every 2^pl rounds at a phase (R46). -/
def nextSlot (t slot pl phase : Nat) : Nat :=
  let m := 2 ^ pl
  let r := t / 1024 + (phase % m + m - t / 1024 % m) % m
  if t ≤ r * 1024 + slot then r * 1024 + slot else (r + m) * 1024 + slot

/-- Ports of a bond: of the preset and the spares assigned to it (R257, R258). -/
def presetPorts (preset j : Nat) : List Nat :=
  if preset = 1 then
    (if j < 9 then [2 * j + 1, 2 * j + 2]
     else [19 + 4 * (j - 9), 20 + 4 * (j - 9), 21 + 4 * (j - 9), 22 + 4 * (j - 9)])
  else if preset = 2 then
    (if j < 9 then [j + 1] else [10 + 2 * (j - 9), 11 + 2 * (j - 9)])
  else (if j < 9 then [3 * j + 1, 3 * j + 2, 3 * j + 3] else [28 + (j - 9)])

/-- The preset in force. PRESET resets to CUBE3 on a licensed F4 variant and to HALF otherwise (R281). -/
def presetOf (s : State) : Nat := rdF s Reg.preset 1 0

/-- Length in cubes of the ring of an axis (R255). -/
def ringLen (s : State) (a : Nat) : Nat :=
  if a = 0 then rdF s Reg.routeMachine 18 16 + 1
  else if a = 1 then rdF s Reg.routeMachine 10 8 + 1 else rdF s Reg.routeMachine 1 0 + 1

/-- Local coordinate of this device on an axis (R9). -/
def ownLocal (s : State) (a : Nat) : Nat :=
  (if a = 0 then devX (ownDev s) else if a = 1 then devY (ownDev s) else devZ (ownDev s)) % 4

/-- Whether this device has an external link on an axis (R256). -/
def hasExternal (s : State) (a : Nat) : Bool :=
  decide (1 < ringLen s a ∧ (ownLocal s a = 0 ∨ ownLocal s a = 3))

/-- The bond of a port by the preset, none for a spare (R258). -/
def presetBond (s : State) (n : Nat) : Option Nat :=
  (List.range 12).find? (fun j => (presetPorts (presetOf s) j).contains n && (decide (j < 9) || hasExternal s (j - 9)))

/-- Whether a port is spare (R258): of no bond by the preset, and one of the ports that the preset divides up; HALF divides
up ports 0–15. -/
def isSpare (s : State) (n : Nat) : Bool := (presetBond s n).isNone && (presetOf s != 2 || decide (n < 16))

/-- The bond that a port is assigned to (R258, R282). -/
def bondOf (s : State) (n : Nat) : Option Nat :=
  match presetBond s n with
  | some b => some b
  | none =>
    let w := rd s (Reg.portBond n)
    if bit w 63 && isSpare s n then (if fld w 3 0 < 12 then some (fld w 3 0) else none) else none

/-- The ports of a bond, ascending (R282). -/
def bondPorts (s : State) (b : Nat) : List Nat := (List.range 32).filter (fun n => bondOf s n = some b)

/-- The rotation of a bond (R260, R282), as ports. -/
def rotation (s : State) (b : Nat) : List Nat := maskBits (rdF s (Reg.bond b) 31 0) 32

-- What every flit carries (R229, R235)

/-- ACK_SEQ that a port sends (R229). -/
def ackSeq (p : Port) : Nat := (p.rxSeq + 4095) % 4096

/-- The channel whose credits are returned next, in round robin (R235). -/
def nextReturn (p : Port) : Option Nat :=
  ((List.range 8).map (fun i => (p.lastOwed + 1 + i) % 8)).find? (fun v => nth p.owed v != 0)

/-- Takes one credit return of up to 31 credits: its channel and count. -/
def takeReturn (p : Port) : Nat × Nat × Port :=
  match nextReturn p with
  | none => (0, 0, p)
  | some v =>
    let k := min 31 (nth p.owed v)
    (v, k, { p with owed := setNth p.owed v (nth p.owed v - k), lastOwed := v,
                    returned := setNth p.returned v ((nth p.returned v + k) % 65536) })

/-- Sends a CTRL flit (R225) with one credit return (R235): 1 REST_REQ, 2 REST_ACK, 3 REST_NAK. -/
def sendCtrl (n what : Nat) (s : State) : State :=
  let r := takeReturn (prt s n)
  s |> onPrt n (fun _ => r.2.2) |> emit (.ctrl n (ackSeq (prt s n)) r.1 r.2.1 what)

-- Late forwarding (R54, R56, R206)

/-- The copies of a pitch packet, one for each destination (R50). -/
def copiesOf (p : Packet) : List Packet :=
  { p with also := [] } :: p.also.map (fun d => { p with dst := d.1, twinSeq := d.2, also := [] })

/-- One packet for the copies that leave by one branch (R50). -/
def joinCopies : List Packet → Option Packet
  | [] => none
  | p :: r => some { p with also := r.map (fun q => (q.dst, q.twinSeq)) }

/-- Copies with the branch that each leaves by, joined by branch, in the order of the branches' first copies. -/
def joinBy {α : Type} [DecidableEq α] (l : List (α × Packet)) : List (α × Packet) :=
  ((l.map (·.1)).eraseDups).filterMap (fun k =>
    (joinCopies ((l.filter (fun x => x.1 = k)).map (·.2))).map (fun p => (k, p)))

/-- Tells the source of a pitch store that its packet was forwarded late (R206). -/
def lateNoteTo (p : Packet) (s : State) : State :=
  if isPitchOp p.opcode then
    inject { dst := p.src, opcode := 0x65, gen := p.gen, tag := p.tag, tenant := p.tenant, addr := p.addr } s
  else s

/-- A packet for this device. -/
def deliverHere (p : Packet) (s : State) : State := { s with rma := { s.rma with deliverQ := s.rma.deliverQ ++ [p] } }

/-- A copy of a pitch packet goes on late, on VC1 (R54). Each copy travels by itself from here on. -/
def sendLate (from_ : Option Nat) (p : Packet) (s : State) : State :=
  let p' := { p with late := true, vc := 1 }
  let s := if p.late then s else lateNoteTo p s
  if p.dst = ownDev s then deliverHere p' s
  else { s with net := { s.net with routerQ := s.net.routerQ ++ [(from_, p')] } }

/-- Forwards a pitch packet on VC1 with LATE, counted at a port (R54, R56). -/
def lateForward (n : Nat) (from_ : Option Nat) (p : Packet) (s : State) : State :=
  (copiesOf p).foldl (fun s c => sendLate from_ c s) (addSat (Reg.portPitch n) 31 16 (flitCount p) s)

/-- Every pitch packet held or staged for a port moves to VC1 with LATE, in slot order (R54, R56, R241, R243). -/
def lateAll (n : Nat) (s : State) : State :=
  let held := (s.net.pitchHeld.filter (fun h => h.port = n)).map (fun h => (h.tick, h.pkt))
  let st := (s.net.staged.filter (fun h => h.port = n)).map (fun h => (h.tick, h.pkt))
  let s := (s.net.staged.filter (fun h => h.port = n)).foldl (fun s h =>
    match h.coll with | some k => markLate k.1 k.2.1 k.2.2 s | none => s) s
  let s := { s with net := { s.net with
    pitchHeld := s.net.pitchHeld.filter (fun h => h.port ≠ n),
    staged := s.net.staged.filter (fun h => h.port ≠ n) } }
  (sortBy (fun a b => decide (a.1 ≤ b.1)) (held ++ st)).foldl (fun s x => lateForward n none x.2 s) s

/-- A port enters PITCH_SUSP (R54). -/
def suspend (n : Nat) (s : State) : State :=
  s |> wrF (Reg.portPitch n) 3 2 2 |> wrB (Reg.portPitch n) 1 true
    |> onPrt n (fun x => { x with resyncRound := 0, resyncGood := 0 }) |> lateAll n

/-- Suspends pitch on every port that is ACTIVE (R54). -/
def suspendAll (s : State) : State :=
  ((List.range 32).filter (fun n => pitchState s n = 1)).foldl (fun s n => suspend n s) s

/-- Enters RESYNC (R41). -/
def enterResync (s : State) : State :=
  suspendAll { s with tim := { s.tim with good := 0, budget := 8 } } |> setTimeState 4

/-- Enters LOST and raises the time fault (R41, R385). -/
def enterLost (s : State) : State :=
  s |> setTimeState 5 |> suspendAll |> orReg Reg.timeEvent (2 ^ 7) |> recordControl 21 true none []

-- Steering (R36, R39)

/-- What the clock will show once the increments that wait to be skipped or doubled have passed, in 1/16 tick. -/
def phaseNow (s : State) : Int := ((now s + s.tim.dbl) * 16 + s.tim.phase16 : Nat) - (s.tim.skip * 16 : Nat)

/-- A correction of the clock by 1/16 ticks, forward or back, within the ticks left for this round. It is taken as skipped
or doubled increments of the ticks that follow, so TIME.NOW never decreases and never jumps; SLEW_COUNT counts each of
them (R36, R58). -/
def steer (off16 : Int) (s : State) : State :=
  let lim : Int := (s.tim.budget * 16 : Nat)
  let adj : Int := max (-lim) (min lim off16)
  let was := (phaseNow s / 16).toNat
  let t := ((phaseNow s - adj) / 16).toNat
  s |> (fun s => { s with tim := { s.tim with
      phase16 := ((phaseNow s - adj) % 16).toNat, skip := now s - t, dbl := t - now s,
      budget := s.tim.budget - ceilDiv adj.natAbs 16 } })
    |> addSat Reg.slewCount 63 0 ((t - was) + (was - t))

/-- Corrections allowed per round in a time state (R36, R41). -/
def stateBudget (st : Nat) : Nat := if st = 2 then 1 else if st = 1 ∨ st = 4 then 8 else 0

/-- The slack of the round that ended is reported (R305, R316). -/
def reportSlack (r : Nat) (s : State) : State :=
  let w := min 1024 s.coll.waitAcc
  let s := wrReg Reg.collSlack (wd (r % 2 ^ 32 * 2 ^ 32 + w)) s
  { s with coll := { s.coll with waitAcc := 0 },
           pwr := { s.pwr with slackSum := s.pwr.slackSum + w, slackRounds := s.pwr.slackRounds + 1 } }

/-- The ticks of correction of the round that begins: those of the time state, and 8 from round 3 of the resynchronisation
of the parent port on (R36, R41, R55). -/
def roundBudget (s : State) : Nat :=
  match parentPort s with
  | some n => if timeState s = 2 ∧ pitchState s n = 2 ∧ 3 ≤ (prt s n).resyncRound then 8 else stateBudget (timeState s)
  | none => stateBudget (timeState s)

/-- A suspended port enters the next round of its resynchronisation: in the first it sends 64 probe flits again, and the
delay that they have given in the first two stands from the third on (R38, R55). -/
def resyncStep (r n : Nat) (s : State) : State :=
  if pitchState s n = 2 ∧ portState s n = 4 then
    let s := onPrt n (fun x => { x with resyncRound := x.resyncRound + 1 }) s
    let k := (prt s n).resyncRound
    let s := if k = 1 then emit (.probe n 64) s else s
    if k = 3 then wrReg (Reg.portDelay n) (wd (Config.measuredDelay n r)) s else s
  else s

/-- The beat master that this device names in its time flits (R37). -/
def beatMaster (s : State) : Nat := if isMaster s then ownDev s else s.tim.master

/-- The time flit of a port (R37, R229). -/
def sendTime (n r : Nat) (s : State) : State :=
  emit (.time n (ackSeq (prt s n)) r (ownDev s) (timeState s) (if isMaster s then 0 else rdF s Reg.timeStatus 55 48)
    (beatMaster s) (schedActive s).toNat) s

/-- The beat master slews toward its outside reference by at most 1 tick in a round (R44, R45). -/
def slewExt (s : State) : State :=
  let a : Int := max (-16) (min 16 s.tim.extLeft)
  if isMaster s && decide (a ≠ 0 ∧ 0 < s.tim.budget) then
    steer a { s with tim := { s.tim with extLeft := s.tim.extLeft - a } }
  else s

/-- A new round begins (R35, R37, R53, R55): the clock stands at its start, the written guard applies, corrections are
counted anew, and every port that is UP sends its time flit. -/
def startRound (s : State) : State :=
  let r := if now s % 1024 = 0 ∧ now s / 1024 ≠ s.tim.lastRound then now s / 1024 else now s / 1024 + 1
  let s := clockTo (r * 1024) s
  let s := reportSlack (r - 1) s
  let s := { s with tim := { s.tim with lastRound := r, guard := max 4 (rdF s Reg.timeGuard 5 0) } }
  let s := (List.range 32).foldl (fun s n => resyncStep r n s) s
  let s := slewExt { s with tim := { s.tim with budget := roundBudget s } }
  ((List.range 32).filter (fun n => portState s n = 4)).foldl (fun s n => sendTime n r s) s

/-- The offset of a time flit in 1/16 tick (R39). -/
def flitOffset (s : State) (n round frac : Nat) : Int :=
  phaseNow s + (frac : Nat) - (round * 1024 * 16 + rdF s (Reg.portDelay n) 63 0 : Nat)

/-- A round with an offset within 1 tick, or a flit that is not, in the count of consecutive rounds (R41). -/
def countGood (good : Bool) (s : State) : State :=
  let r := now s / 1024
  let k := if !good then 0 else if s.tim.goodRound = r ∧ s.tim.good ≠ 0 then s.tim.good
    else if s.tim.goodRound + 1 = r then s.tim.good + 1 else 1
  { s with tim := { s.tim with good := k, goodRound := r } }

/-- What a time flit on the parent port does to the time state (R41). Which flits are valid R41 does not say: the model
takes one as valid when its sender is LOCKED or in HOLDOVER, and a parent in any other state counts as silent (DESIGN
CHOICE, notes/assumptions/49.md). -/
def parentFlit (off : Int) (st hops : Nat) (s : State) : State :=
  let s := s |> wrF Reg.timeStatus 31 16 (unsignedOf 16 off)
  if st ≠ 2 ∧ st ≠ 3 then s
  else
    let s := wrF Reg.timeStatus 55 48 (hops + 1) s
    let s := { s with tim := { s.tim with lastFlitRound := now s / 1024 } }
    let ts := timeState s
    if ts = 0 ∨ ts = 5 then s
    else if 1024 * 16 < off.natAbs then enterLost s
    else
      let s := if (ts = 2 ∨ ts = 3) ∧ s.tim.guard * 16 < off.natAbs then enterResync s
        else if ts = 3 then setTimeState 2 s else s
      s |> countGood (decide (off.natAbs ≤ 16)) |> steer off

/-- TIME_SYNC has found a LOCKED parent (R36, R41): TIME.NOW takes the parent's value plus D, and the device acquires. -/
def acquire (n round hops : Nat) (s : State) : State :=
  let t := round * 1024 + rdF s (Reg.portDelay n) 63 0 / 16
  let s := { s with now := wd t, tim := { s.tim with
    phase16 := rdF s (Reg.portDelay n) 63 0 % 16, skip := 0, dbl := 0, good := 0, budget := 8, syncing := false,
    lastRound := round, lastFlitRound := round } }
  s |> setTimeState 1 |> orReg Reg.timeEvent (2 ^ 4) |> wrF Reg.timeStatus 55 48 (hops + 1)

/-- A valid flit of the parent that is not in use keeps the device out of HOLDOVER, and ends it (R41, R42). -/
def otherFlit (off : Int) (st : Nat) (s : State) : State :=
  if st ≠ 2 ∧ st ≠ 3 then s
  else
    let s := { s with tim := { s.tim with lastFlitRound := now s / 1024 } }
    if timeState s ≠ 3 then s
    else if 1024 * 16 < off.natAbs then enterLost s
    else if s.tim.guard * 16 < off.natAbs then enterResync s else setTimeState 2 s

/-- A time flit arrives (R37, R39, R54, R55). The parent's names the beat master. -/
def timeFlit (n round st hops master frac : Nat) (s : State) : State :=
  if portState s n ≠ 4 then s
  else
    let off := flitOffset s n round frac
    let s := s |> wrReg (Reg.portOffset n) (wd (unsignedOf 64 off))
      |> onPrt n (fun x => { x with nbState := st, nbHops := hops,
                                    resyncGood := if x.resyncRound < 7 then 0
                                      else if off.natAbs ≤ 16 then x.resyncGood + 1 else 0 })
    let s := if pitchState s n = 1 ∧ s.tim.guard * 16 < off.natAbs then suspend n s else s
    if isMaster s then s
    else if parentPort s != some n then (if otherParent s == some n then otherFlit off st s else s)
    else
      let s := { s with tim := { s.tim with master := master } }
      if s.tim.syncing && st == 2 then acquire n round hops s else parentFlit off st hops s

/-- ROUND_START (R35). -/
def execRoundStart (s : State) : Host.Outcome State Fault Refusal := ok (startRound s)

/-- TIME_FLIT (R39). -/
def execTimeFlit (n round dev st hops master ver frac : Nat) (s : State) : Host.Outcome State Fault Refusal :=
  ok (if dev < 16384 ∧ master < 16384 ∧ ver < 2 then timeFlit n round st hops master frac s else s)

/-- LOCKED_ENTRY (R41): from ACQUIRE after 16 consecutive rounds within 1 tick, from RESYNC after 2. -/
def execLockedEntry (s : State) : Host.Outcome State Fault Refusal :=
  ok (if now s / 1024 ≤ s.tim.goodRound + 1
        ∧ ((timeState s = 1 ∧ 16 ≤ s.tim.good) ∨ (timeState s = 4 ∧ 2 ≤ s.tim.good)) then
      setTimeState 2 { s with tim := { s.tim with good := 0, budget := min s.tim.budget 1 } }
    else s)

/-- HOLDOVER_ENTRY (R41, R42): LOCKED, and no valid flit from either parent for 2 rounds. -/
def execHoldoverEntry (s : State) : Host.Outcome State Fault Refusal :=
  ok (if timeState s = 2 && !isMaster s then
      s |> clockTo ((s.tim.lastFlitRound + 2) * 1024) |> setTimeState 3 |> orReg Reg.timeEvent (2 ^ 6)
    else s)

/-- Whether a port cannot serve as parent: down, resting or suspended (R42). A port in RETRAIN or WAKING carries no time
flits either, and counts; the alternate takes over where it is UP, be it suspended or not LOCKED (DESIGN CHOICE,
notes/assumptions/49.md). -/
def parentLost (s : State) (n : Nat) : Bool := portState s n != 4 || pitchState s n == 2

/-- PARENT_SWITCH (R42): at a round boundary, from a parent that is down, resting or suspended to the other one. -/
def execParentSwitch (s : State) : Host.Outcome State Fault Refusal :=
  ok (match parentPort s, otherParent s with
    | some a, some b =>
      if parentLost s a && portState s b == 4 then
        let s := clockTo ((now s + 1023) / 1024 * 1024) s
        wrF Reg.timeStatus 55 48 ((prt s b).nbHops + 1) { s with tim := { s.tim with useAlt := !s.tim.useAlt } }
      else s
    | _, _ => s)

/-- An outside reference gives the beat master its offset, which it slews off round by round (R44, R45). When EXT_LOCK is
set the spec does not say: the model sets it at an edge or message whose offset lies within the alignment of R44, and
clears it at any other (DESIGN CHOICE, notes/assumptions/49.md). -/
def steerExt (off : Int) (bound : Nat) (s : State) : State :=
  { s with tim := { s.tim with extLeft := off } }
    |> wrReg Reg.extOffset (wd (unsignedOf 64 off)) |> wrB Reg.timeStatus 3 (decide (off.natAbs ≤ bound))

/-- Offset in 1/16 tick of a PPS edge from the nearest multiple of one second (R44). -/
def ppsOffset (s : State) (frac : Nat) : Int :=
  let sec := 16 * 1600000000
  let t := now s * 16 + s.tim.phase16 + frac
  if 2 * (t % sec) ≤ sec then (t % sec : Nat) else ((t % sec : Nat) : Int) - (sec : Nat)

/-- TIME_PPS_EDGE (R44): the beat master steers toward the edge. -/
def execTimePpsEdge (frac : Nat) (s : State) : Host.Outcome State Fault Refusal :=
  ok (if isMaster s && rdF s Reg.timeCtrl 7 6 == 1 then steerExt (ppsOffset s frac) 64 s else s)

/-- PTP_MESSAGE (R44, R56): the beat master steers by the offset that the message gives, in 1/16 tick. -/
def execPtpMessage (off : Int) (s : State) : Host.Outcome State Fault Refusal :=
  ok (if isMaster s && rdF s Reg.timeCtrl 7 6 == 2 then steerExt off 1280 s else s)

/-- The outside reference is lost (R45). -/
def extLost (s : State) : State :=
  { s with tim := { s.tim with extLeft := 0 } } |> wrB Reg.timeStatus 3 false |> orReg Reg.timeEvent (2 ^ 5)

/-- EXT_REFERENCE_LOST (R45). -/
def execExtReferenceLost (s : State) : Host.Outcome State Fault Refusal :=
  ok (if isMaster s && rdF s Reg.timeCtrl 7 6 != 0 then extLost s else s)

-- Pitch packets (R47, R52–R56)

/-- The port of a bond whose schedule matches a pitch packet, with the matching entry (R261). -/
def pitchEgress (s : State) (p : Packet) : Option (Nat × Word) :=
  match egressBond s p.epoch p.dst with
  | none => none
  | some b => (bondPorts s b).findSome? (fun n =>
      (matchSched s (p.schedVer == 1) n p.src p.resId).map (fun w => (n, w)))

/-- The branch by which a copy leaves: its port, and the entry that matches there. Where none of the bond matches, R56 does
not say at which of its ports NO_SCHED and LATE_FWD count: the model takes the lowest, or the ingress port `n` where no
route leads on (DESIGN CHOICE, notes/assumptions/49.md). -/
def pitchBranch (s : State) (n : Nat) (p : Packet) : Nat × Option Word :=
  match pitchEgress s p, egressBond s p.epoch p.dst with
  | some (m, w), _ => (m, some w)
  | none, some b => ((bondPorts s b).headD n, none)
  | none, none => (n, none)

/-- Flits that the pitch buffer of a port holds (R47). -/
def pitchLoad (s : State) (m : Nat) : Nat :=
  ((s.net.pitchHeld.filter (fun h => h.port = m)).map (·.pkt) ++ (s.net.staged.filter (fun h => h.port = m)).map (·.pkt)).foldl
    (fun a p => a + flitCount p) 0

/-- Whether the pitch buffer of a port takes a packet: the port is ACTIVE, and the buffer of 256 flits has room (R47,
R54, R272). -/
def pitchTakes (s : State) (m : Nat) (p : Packet) : Bool := pitchState s m == 1 && decide (pitchLoad s m + flitCount p ≤ 256)

/-- One branch of a pitch packet is held for its matched slot, or forwarded late (R47, R56). -/
def holdPitch (n : Nat) (k : Nat × Option Word) (p : Packet) (s : State) : State :=
  match k.2 with
  | none => s |> addSat (Reg.portPitch k.1) 47 32 (flitCount p) |> lateForward k.1 (some n) p
  | some w =>
    if pitchTakes s k.1 p then
      { s with net := { s.net with pitchHeld := s.net.pitchHeld ++
        [{ port := k.1, pkt := p, tick := nextSlot (now s) (fld w 34 25) (fld w 24 21) (fld w 20 11),
           ver := p.schedVer, heldAt := now s }] } }
    else lateForward k.1 (some n) p s

/-- A pitch packet inside its guard: the copy for this device is delivered, the others go on by their branches (R47, R50,
R56). -/
def acceptPitch (n : Nat) (p : Packet) (s : State) : State :=
  let l := (copiesOf p).map (fun c => { c with heldFrom := now s })
  let s := (l.filter (fun c => c.dst = ownDev s)).foldl (fun s c => deliverHere c s) s
  (joinBy ((l.filter (fun c => c.dst ≠ ownDev s)).map (fun c => (pitchBranch s n c, c)))).foldl
    (fun s x => holdPitch n x.1 x.2 s) s

/-- PITCH_FLIT_ARRIVE (R47, R53, R54, R233): a pitch packet that its sender sent at tick `sentAt`. One that comes in by a
port that is not ACTIVE, inside the guard or not, is forwarded late and counted at that port: R54 speaks of flits that
arrive for a suspended port (DESIGN CHOICE, notes/assumptions/49.md). -/
def execPitchFlitArrive (n : Nat) (p : Packet) (sentAt : Nat) (replayed : Bool) (s : State) :
    Host.Outcome State Fault Refusal :=
  ok (if portState s n ≠ 4 then s
    else
      let due := sentAt + ceilDiv (rdF s (Reg.portDelay n) 63 0) 16
      if replayed || pitchState s n != 1 then lateForward n (some n) { p with heldFrom := now s } s
      else if due + s.tim.guard < now s ∨ now s + s.tim.guard < due then
        s |> addSat (Reg.portPitch n) 63 48 (flitCount p) |> suspend n
          |> lateForward n (some n) { p with heldFrom := now s }
      else acceptPitch n p s)

/-- One claim on an egress slot: held or staged. -/
structure Claim where
  tick : Nat
  pkt : Packet
  heldAt : Nat
  own : Option Staged := none
deriving DecidableEq, Repr

/-- The claims on a port's slots. -/
def claimsOf (s : State) (n : Nat) : List Claim :=
  (s.net.pitchHeld.filter (fun h => h.port = n)).map (fun h => { tick := h.tick, pkt := h.pkt, heldAt := h.heldAt })
    ++ (s.net.staged.filter (fun h => h.port = n)).map (fun h =>
      { tick := h.tick, pkt := h.pkt, heldAt := h.stagedAt, own := some h })

/-- Which of two claims on one slot is sent (R56, R57): the old version first, then the one held first, then the lower
source device, then the lower reservation. -/
def claimFirst (old : Nat) (a b : Claim) : Bool :=
  if a.pkt.schedVer ≠ b.pkt.schedVer then a.pkt.schedVer == old
  else if a.heldAt ≠ b.heldAt then decide (a.heldAt < b.heldAt)
  else if a.pkt.src ≠ b.pkt.src then decide (a.pkt.src < b.pkt.src)
  else decide (a.pkt.resId ≤ b.pkt.resId)

/-- Whether two claims share a slot (R57). -/
def Claim.overlaps (a b : Claim) : Bool :=
  decide (a.tick < b.tick + flitCount b.pkt ∧ b.tick < a.tick + flitCount a.pkt)

/-- Whether a claim loses its slot to one among others that it shares a slot with (R56, R57). -/
def beaten (old : Nat) (cs : List Claim) (c : Claim) : Bool := cs.any (fun d => c.overlaps d && !claimFirst old c d)

/-- PITCH_PORT_RESUME (R55): the 8 rounds of resynchronisation ended with 2 flits within 1 tick. -/
def execPitchPortResume (n : Nat) (s : State) : Host.Outcome State Fault Refusal :=
  ok (if pitchState s n = 2 ∧ portState s n = 4 ∧ rdF s (Reg.portStatus n) 13 12 = 3 ∧ 8 ≤ (prt s n).resyncRound
        ∧ 2 ≤ (prt s n).resyncGood ∧ (timeState s = 2 ∨ timeState s = 3) then
      s |> clockTo ((now s + 1023) / 1024 * 1024) |> wrF (Reg.portPitch n) 3 2 1
        |> onPrt n (fun x => { x with resyncRound := 0, resyncGood := 0 })
    else s)

/-- PITCH_PATH_BOUND_EXPIRY (R52, R206): an admitted operation that stayed on its schedule completes OK at t_1 + B; one
that was not staged by its slot ended there with MISSED_SLOT. -/
def execPitchPathBoundExpiry (tag : Nat) (s : State) : Host.Outcome State Fault Refusal :=
  ok (let e := cplOf s tag
    if e.damaged then s
    else if e.st = .opened ∧ e.kind = .pitch ∧ !e.late ∧ !e.sent then
      s |> clockTo e.slotTick |> failTag tag stMissedSlot false
    else if e.st = .opened ∧ e.kind = .pitch ∧ !e.late then
      s |> clockTo e.deadline |> (fun s => setCpl tag { cplOf s tag with answered := true } s)
        |> finishTag tag stOk 0 false false none
    else s)

-- The schedule (R57, R62–R64)

/-- The words of a version: source reservations, then every port's entries. -/
def schedWords (s : State) (b : Bool) : List Word :=
  ((List.range 1024).flatMap (fun r => [srcRes s b r 0, srcRes s b r 1]))
    ++ (List.range 32).flatMap (fun n => (List.range 256).map (fun e => portSched s b n e))

/-- SCHED_SWITCH_ROUND (R57): accepted at least 4 rounds ahead, one change at a time (R212). -/
def switchRoundWrite (who : Writer) (v : Word) (s : State) : Nat × State :=
  let a := Reg.schedSwitchRound
  let r := fld v 53 0
  if !mayWrite s .installer who then withRoleDo .installer who a id s
  else if r < now s / 1024 + 4 ∨ rdB s Reg.schedCtrl 1 ∨ oldPitch s ≠ 0 then
    (stOk, s |> orReg Reg.timeEvent (2 ^ 2) |> logWrite who a 2 [] [])
  else
    (stOk, s |> wrReg a (wd r) |> wrB Reg.schedCtrl 1 true
      |> logWrite who (if schedActive s then Reg.resA 0 0 else Reg.resB 0 0) 0
          (schedWords s (schedActive s)) (schedWords s (!schedActive s)))

/-- SCHED_SWITCH_ROUND_WRITE (R57). -/
def execSchedSwitchRoundWrite (who : Writer) (v : Word) (s : State) : Host.Outcome State Fault Refusal :=
  ok (answered who Reg.schedSwitchRound (switchRoundWrite who v s))

/-- Fields of a schedule entry that its place in words does not matter for: FLITS, SLOT, PERIOD_LOG2, PHASE. -/
structure Slotting where
  flits : Nat
  slot : Nat
  pl : Nat
  phase : Nat
deriving DecidableEq, Repr

/-- Slotting of a port entry and of a source reservation (R62, R63). -/
def portSlotting (w : Word) : Slotting := ⟨fld w 37 35, fld w 34 25, fld w 24 21, fld w 20 11⟩
/-- See `portSlotting`. -/
def resSlotting (w : Word) : Slotting := ⟨fld w 42 40, fld w 39 30, fld w 29 26, fld w 25 16⟩

/-- A well-formed entry (R64). -/
def Slotting.fine (x : Slotting) : Bool :=
  decide (1 ≤ x.flits ∧ x.flits ≤ 5 ∧ 1 ≤ x.slot ∧ x.slot + x.flits ≤ 1024 ∧ x.pl ≤ 10 ∧ x.phase < 2 ^ x.pl)

/-- Whether two entries of one port claim one slot in some round (R64). -/
def Slotting.overlaps (a b : Slotting) : Bool :=
  decide (a.slot < b.slot + b.flits ∧ b.slot < a.slot + a.flits
    ∧ a.phase % 2 ^ min a.pl b.pl = b.phase % 2 ^ min a.pl b.pl)

/-- The valid entries of a port in a version. -/
def validEntries (s : State) (b : Bool) (n : Nat) : List Word :=
  ((List.range 256).map (fun e => portSched s b n e)).filter (fun w => bit w 63)

/-- Slots reserved on a port in round `r` of the cycle of 1,024. -/
def roundLoad (l : List Slotting) (r : Nat) : Nat :=
  l.foldl (fun a x => if r % 2 ^ x.pl = x.phase then a + x.flits else a) 0

/-- No two entries of a list overlap. -/
def noOverlap : List Slotting → Bool
  | [] => true
  | x :: r => r.all (fun y => !x.overlaps y) && noOverlap r

/-- One port's schedule passes R64. -/
def portFine (s : State) (b : Bool) (n : Nat) : Bool :=
  let l := (validEntries s b n).map portSlotting
  l.all Slotting.fine && noOverlap l && (List.range 1024).all (fun r => decide (roundLoad l r ≤ 256))

/-- A source reservation passes R64: well formed, HOPS and PATH_BOUND not 0, and a matching first-hop entry. -/
def resFine (s : State) (b : Bool) (r : Nat) : Bool :=
  let w := srcRes s b r 0
  !bit w 63 || ((resSlotting w).fine && fld w 15 12 != 0 && fld (srcRes s b r 1) 15 0 != 0
    && (validEntries s b (fld w 47 43)).any (fun e =>
      fld e 61 48 == ownDev s && fld e 47 38 == r && decide (portSlotting e = resSlotting w)))

/-- A version passes R64 as a whole. -/
def versionFine (s : State) (b : Bool) : Bool :=
  (List.range 32).all (fun n => portFine s b n) && (List.range 1024).all (fun r => resFine s b r)

/-- SCHED_SWITCH (R57, R64): at the start of the named round. -/
def execSchedSwitch (s : State) : Host.Outcome State Fault Refusal :=
  ok (if rdB s Reg.schedCtrl 1 then
      let s := s |> clockTo (rdF s Reg.schedSwitchRound 53 0 * 1024) |> wrB Reg.schedCtrl 1 false
      if versionFine s (!schedActive s) then
        s |> wrB Reg.schedCtrl 0 (!schedActive s) |> orReg Reg.timeEvent (2 ^ 3)
      else orReg Reg.timeEvent (2 ^ 2) s
    else s)

/-- A write to a schedule (R57): refused for the active version, and for the other while old flits are held. -/
def schedWrite (isB : Bool) (who : Writer) (a : Nat) (v : Word) (s : State) : Nat × State :=
  withRole .installer who a (fun s =>
    if isB = schedActive s ∨ oldPitch s ≠ 0 then (false, orReg Reg.timeEvent (2 ^ 1) s)
    else (true, wrReg a (plainValue (Reg.kind a) (rd s a) v) s)) s

/-- TIME.CTRL (R44, R60): EXT_SOURCE 0b11 is refused. -/
def timeCtrlWrite (who : Writer) (v : Word) (s : State) : Nat × State :=
  withRole .installer who Reg.timeCtrl (fun s =>
    if fld v 7 6 = 3 then (false, s)
    else (true, s |> wrReg Reg.timeCtrl (wd (fld v 7 5 * 32)) |> wrB Reg.timeStatus 2 (bit v 5)
      |> (fun s => if bit v 5 then wrF Reg.timeStatus 55 48 0 s else s))) s

/-- TIME.GUARD (R53): values below 4 are stored as 4; in force from the next round. -/
def timeGuardWrite (who : Writer) (v : Word) (s : State) : Nat × State :=
  withRoleDo .installer who Reg.timeGuard (wrReg Reg.timeGuard (wd (max 4 (fld v 5 0)))) s

/-- TIME.PARENT (R60): a new parent is used from the start. -/
def timeParentWrite (who : Writer) (v : Word) (s : State) : Nat × State :=
  withRoleDo .installer who Reg.timeParent (fun s =>
    wrReg Reg.timeParent (plainValue (Reg.kind Reg.timeParent) (rd s Reg.timeParent) v)
      { s with tim := { s.tim with useAlt := false } }) s

end Sys2Proof.Machine
end

