-- ==== Sys2Proof/Machine/Groups.lean ====
section
/-! DEFINITION. Groups and their lists (R286–R292), the plan of a collective (R289, R299), its instances and how they
end (R298–R306). -/

namespace Sys2Proof.Machine

-- Group entries (R287, R289, R290)

/-- A group entry of the table. -/
def groupOf (s : State) (g : Nat) : Group := mget {} s.coll.groups g

/-- Fields of a group entry (R290). -/
def Group.valid (x : Group) : Bool := bit x.w0 63
/-- See `Group.valid`. -/
def Group.epoch (x : Group) : Nat := fld x.w0 62 62
/-- See `Group.valid`. -/
def Group.cube (x : Group) : Bool := bit x.w0 61
/-- See `Group.valid`. -/
def Group.tenant (x : Group) : Nat := fld x.w0 59 52
/-- See `Group.valid`. -/
def Group.count (x : Group) : Nat := fld x.w0 51 36 + 1
/-- See `Group.valid`. -/
def Group.engine (x : Group) : Nat := fld x.w0 35 34
/-- See `Group.valid`. -/
def Group.buf (x : Group) : Nat := fld x.w0 33 26
/-- See `Group.valid`. -/
def Group.first (x : Group) : Nat := fld x.w0 17 0
/-- Whether the member list of a group takes in an entry of the store (R287, R290). -/
def Group.holds (x : Group) (i : Nat) : Bool := decide (x.first ≤ i ∧ i < x.first + x.count)
/-- L for group barriers; values below 64 are stored as 64 (R290). -/
def Group.lead (x : Group) : Nat := fld x.w1 63 48

/-- The sizes n1–n4 of a shape word (R290). -/
def shapeOf (w : Word) : List Nat := [fld w 7 0 + 1, fld w 15 8 + 1, fld w 23 16 + 1, fld w 31 24 + 1]

/-- The shape of a group. -/
def Group.shape (x : Group) : List Nat := shapeOf x.w1

/-- The entry that a packet or an instance of an epoch uses: the current one, or the one that drains (R292). -/
def groupAt (s : State) (g epoch : Nat) : Option Group :=
  let x := groupOf s g
  if x.valid && x.epoch == epoch then some x
  else
    match s.coll.drain with
    | some (g', old) => if g' = g ∧ old.epoch = epoch ∧ old.valid then some old else none
    | none => none

/-- A member entry of the store, by position (R287). -/
def memberAt (s : State) (x : Group) (p : Nat) : Nat := (mget 0 s.coll.store (x.first + p)).toNat

/-- Device and gang of a member entry (R287). -/
def memDevice (m : Nat) : Nat := m / 2 ^ 16 % 2 ^ 14
/-- See `memDevice`. -/
def memGang (m : Nat) : Nat := m % 2 ^ 12

/-- Positions of a group's list. -/
def positions (x : Group) : List Nat := List.range x.count

/-- The position of a gang of this device in a group (R288). -/
def posOf (s : State) (x : Group) (gang : Nat) : Option Nat :=
  (positions x).find? (fun p => memDevice (memberAt s x p) = ownDev s ∧ memGang (memberAt s x p) = gang)

/-- The positions of a group that lie on this device. -/
def ownPositions (s : State) (x : Group) : List Nat :=
  (positions x).filter (fun p => memDevice (memberAt s x p) = ownDev s)

/-- Stride of an axis, and a position's digit on it (R289). -/
def stride (shape : List Nat) (d : Nat) : Nat := (shape.take d).foldl (fun a b => a * b) 1
/-- See `stride`. -/
def digit (shape : List Nat) (p d : Nat) : Nat := p / stride shape d % shape.getD d 1

/-- A position with another digit on an axis. -/
def withDigit (shape : List Nat) (p d v : Nat) : Nat := p - digit shape p d * stride shape d + v * stride shape d

/-- The axes of a shape that have a phase (R289). -/
def axesOf (shape : List Nat) : List Nat := (List.range 4).filter (fun d => 1 < shape.getD d 1)

/-- The peers of a position on an axis, ascending (R289). -/
def peersOf (shape : List Nat) (p d : Nat) : List Nat :=
  ((List.range (shape.getD d 1)).filter (fun v => v ≠ digit shape p d)).map (fun v => withDigit shape p d v)

-- The plan of an operation (R299, R303)

/-- One phase at one member: the packet opcode, the shares for each peer in send order, and for each share that is
received the positions that contribute to it. -/
structure Phase where
  op : Nat
  axis : Nat
  sends : List (Nat × List Nat)
  recv : List (Nat × List Nat)
deriving DecidableEq, Repr

/-- A whole plan: its phases, the shares held at the start and at the end, and the number of shares of the vector. -/
structure Plan where
  phases : List Phase
  own : List Nat
  final : List Nat
  shares : Nat
deriving DecidableEq, Repr

/-- The direct form: in each phase the whole vector goes to every peer of the axis. -/
def directPlan (shape : List Nat) (p op : Nat) : Plan :=
  { phases := (axesOf shape).map (fun d =>
      { op := op, axis := d, sends := (peersOf shape p d).map (fun q => (q, [0])), recv := [(0, peersOf shape p d)] }),
    own := [0], final := [0], shares := 1 }

/-- The shares of a peer in send order: first those it will forward, by the next phase's peer, then those it keeps
(R299). -/
def sendOrder (shape : List Nat) (q : Nat) (next : Option Nat) (l : List Nat) : List Nat :=
  match next with
  | none => l
  | some d =>
    let key := fun s => ((if digit shape s d = digit shape q d then 1 else 0) * 256 + digit shape s d) * 65536 + s
    sortBy (fun a b => decide (key a ≤ key b)) l

/-- The phases of a reduce-scatter from the axes left and the current range. -/
def scatterPhases (shape : List Nat) (p : Nat) : List Nat → List Nat → List Phase
  | [], _ => []
  | d :: r, cur =>
    let keep := cur.filter (fun s => digit shape s d = digit shape p d)
    { op := 0x40, axis := d,
      sends := (peersOf shape p d).map (fun q =>
        (q, sendOrder shape q r.head? (cur.filter (fun s => digit shape s d = digit shape q d)))),
      recv := keep.map (fun s => (s, peersOf shape p d)) } :: scatterPhases shape p r keep

/-- The phases of an all-gather from the axes left and the shares held. What has been received is sent on in the order in
which the peers sent it, their first shares before their second (the example of R307 under R310;
notes/assumptions/55.md). -/
def gatherPhases (shape : List Nat) (p : Nat) : List Nat → List Nat → List Phase
  | [], _ => []
  | d :: r, held =>
    let recv := held.flatMap (fun s =>
      (peersOf shape p d).map (fun q => (withDigit shape s d (digit shape q d), [q])))
    { op := 0x41, axis := d, sends := (peersOf shape p d).map (fun q => (q, held)), recv := recv }
      :: gatherPhases shape p r (held ++ recv.map (·.1))

/-- The phases of a broadcast from `root` (R299). -/
def broadcastPhases (shape : List Nat) (p root : Nat) : List Phase :=
  let same := fun d => digit shape p d == digit shape root d
  (axesOf shape).map (fun d =>
    let later := (axesOf shape).filter (fun e => d < e)
    if later.all same then
      (if same d then { op := 0x41, axis := d, sends := (peersOf shape p d).map (fun q => (q, [0])), recv := [] }
       else { op := 0x41, axis := d, sends := [], recv := [(0, [withDigit shape p d (digit shape root d)])] })
    else { op := 0x41, axis := d, sends := [], recv := [] })

/-- The one phase of an all-to-all of either kind: share p × N + j goes from p to j. -/
def allToAllPlan (n p op : Nat) : Plan :=
  let others := (List.range n).filter (fun j => j ≠ p)
  { phases := if others = [] then [] else
      [{ op := op, axis := 0, sends := others.map (fun j => (j, [p * n + j])),
         recv := others.map (fun i => (i * n + p, [i])) }],
    own := (List.range n).map (fun j => p * n + j), final := (List.range n).map (fun i => i * n + p),
    shares := n * n }

/-- Whether an all-reduce takes the split form (R299). -/
def splitForm (n count : Nat) (wide : Bool) : Bool :=
  decide (512 < count ∧ count % ((if wide then 16 else 8) * n) = 0)

/-- The plan of an operation at a position: `sub` of R296, or 6 for a group barrier (R299, R303, R311). -/
def planOf (sub : Nat) (shape : List Nat) (n count root p : Nat) (wide : Bool) : Plan :=
  let all := List.range n
  if sub = 6 then directPlan shape p 0x42
  else if sub = 0 ∧ !splitForm n count wide then directPlan shape p 0x40
  else if sub = 0 then
    { phases := scatterPhases shape p (axesOf shape) all ++ gatherPhases shape p (axesOf shape).reverse [p],
      own := all, final := all, shares := n }
  else if sub = 1 then
    { phases := scatterPhases shape p (axesOf shape) all, own := all, final := [p], shares := n }
  else if sub = 2 then
    { phases := gatherPhases shape p (axesOf shape).reverse [p], own := [p], final := all, shares := n }
  else if sub = 3 then
    { phases := broadcastPhases shape p root, own := if p = root then [0] else [], final := [0], shares := 1 }
  else allToAllPlan n p (if sub = 4 then 0x41 else 0x43)

-- Descriptors (R294, R296)

/-- Fields of a collective descriptor (R294). -/
def Desc.gid (d : Desc) : Nat := fld d.w0 59 48
/-- See `Desc.gid`. -/
def Desc.src (d : Desc) : Nat := fld d.w0 47 0
/-- See `Desc.gid`. -/
def Desc.dst (d : Desc) : Nat := fld d.w1 47 0
/-- See `Desc.gid`. -/
def Desc.count (d : Desc) : Nat := fld d.w2 63 32
/-- See `Desc.gid`. -/
def Desc.etype (d : Desc) : Nat := fld d.w2 31 28
/-- See `Desc.gid`. -/
def Desc.red (d : Desc) : Nat := fld d.w2 27 26
/-- See `Desc.gid`. -/
def Desc.exact_ (d : Desc) : Bool := bit d.w2 25
/-- See `Desc.gid`. -/
def Desc.outWide (d : Desc) : Bool := bit d.w2 24
/-- See `Desc.gid`. -/
def Desc.outBf16 (d : Desc) : Bool := bit d.w2 23
/-- See `Desc.gid`. -/
def Desc.anchor (d : Desc) : Int := signedOf 14 (fld d.w2 13 0)
/-- See `Desc.gid`. -/
def Desc.root (d : Desc) : Nat := fld d.w3 63 48
/-- See `Desc.gid`. -/
def Desc.rowBytes (d : Desc) : Nat := fld d.w3 15 0

/-- Bytes of an element of a type (R294). -/
def esize (etype : Nat) : Nat :=
  if etype = 1 then 2 else if etype = 3 then 8 else if etype = 4 then 16 else 4

/-- Bytes of an element as the engines carry it: wide partials in exact mode (R300). -/
def wireSize (d : Desc) : Nat := if d.exact_ then 16 else esize d.etype

/-- The plan of an instance in its group. -/
def instPlan (x : Group) (i : Inst) : Plan :=
  planOf i.sub x.shape x.count i.desc.count i.desc.root i.pos (i.desc.etype == 4)

/-- Bytes of one share on the wire (R296, R299, R303). -/
def shareBytes (x : Group) (i : Inst) : Nat :=
  if i.sub = 6 then 16
  else if i.sub ≤ 1 then i.desc.count / esize i.desc.etype / (instPlan x i).shares * wireSize i.desc
  else if i.sub = 5 then i.desc.count * i.desc.rowBytes
  else i.desc.count

/-- Bytes of a chunk at most: 256; a capacity share's chunk leaves room for its row counts (R299, R303). -/
def chunkMax (i : Inst) : Nat := if i.sub = 5 then 248 else 256

/-- Places and lengths of the chunks of `n` bytes. -/
def chunkSpan (most n : Nat) : List (Nat × Nat) :=
  (List.range (ceilDiv n most)).map (fun k => (k * most, min most (n - k * most)))

/-- Whether an instance is of an all-to-all of either kind. -/
def Inst.isSwap (i : Inst) : Bool := i.sub == 4 || i.sub == 5

/-- The turn of a peer in a phase: the peers after this position on the axis come first. Seen from the peer it is the
same for what it sends here. -/
def turnOf (x : Group) (i : Inst) (axis q : Nat) : Nat :=
  if i.isSwap then (q + x.count - i.pos) % x.count - 1
  else
    let n := x.shape.getD axis 1
    (digit x.shape q axis + n - digit x.shape i.pos axis) % n - 1

/-- The packets of one phase in their order, not yet numbered (R299). -/
def phasePackets (x : Group) (i : Inst) (j : Nat) (ph : Phase) : List PlanPacket :=
  ph.sends.flatMap (fun q =>
    (q.2.flatMap (fun sh => (chunkSpan (chunkMax i) (shareBytes x i)).map (fun c => (sh, c)))).zipIdx.map (fun c =>
      { phase := j, peer := q.1, share := c.1.1, off := c.1.2.1, len := c.1.2.2, num := 0,
        place := c.2 * ph.sends.length + turnOf x i ph.axis q.1 }))

/-- The packets of an instance in their order (R307). -/
def packetList (x : Group) (i : Inst) : List PlanPacket :=
  ((instPlan x i).phases.zipIdx.flatMap (fun ph => phasePackets x i ph.2 ph.1)).zipIdx.map (fun c =>
    { c.1 with num := c.2 })

-- Instances

/-- An instance by group, number and position: of a collective, or of a barrier. -/
def instOf (s : State) (gid num pos : Nat) (bar : Bool) : Option Inst :=
  s.coll.insts.find? (fun i => i.gid == gid && i.num == num && i.pos == pos && (i.sub == 6) == bar)

/-- Removes an instance. -/
def dropInst (i : Inst) (s : State) : State :=
  { s with coll := { s.coll with insts := s.coll.insts.filter (fun j =>
      !(j.gid == i.gid && j.num == i.num && j.pos == i.pos && j.epoch == i.epoch && (j.sub == 6) == (i.sub == 6))) } }

/-- Whether a packet that is staged for its slot is of an instance. -/
def Inst.staged (i : Inst) (h : Staged) : Bool := h.coll == some (i.gid, i.num, i.pos) && h.tag == i.tag

/-- Takes back the packets that an instance has staged and not sent. -/
def dropStaged (i : Inst) (s : State) : State :=
  { s with net := { s.net with staged := s.net.staged.filter (fun h => !i.staged h) } }

/-- The header address of a collective packet (R298). -/
def collAddr (i : Inst) (phase off : Nat) : Nat :=
  i.gid % 4096 * 2 ^ 36 + i.epoch % 2 * 2 ^ 35 + phase % 8 * 2 ^ 32 + off % 2 ^ 32

/-- CL_ABORT to a member of an instance (R306). -/
def sendAbort (x : Group) (i : Inst) (status q : Nat) (s : State) : State :=
  inject { dst := memDevice (memberAt s x q), opcode := 0x44, vc := 1, pos := q, tenant := x.tenant,
           addr := collAddr i 0 0, seg := i.num % 2 ^ 24, status := status } s

/-- The positions that still expect data from an instance: of its packets some are still to be sent, or are staged for
their slots (R306). -/
def owedTo (s : State) (i : Inst) : List Nat :=
  (i.todo.map (·.peer) ++ (s.net.staged.filter i.staged).map (fun h => h.pkt.pos)).eraseDups

/-- An instance ends with an error: CL_ABORT goes to every member that still expects data from it, its member's tag
completes (R306, R314). A barrier instance only goes away: its members resume at their deadline (R88). -/
def endInst (i : Inst) (status : Nat) (s : State) : State :=
  if i.sub = 6 then dropInst i s
  else
    let owed := match groupAt s i.gid i.epoch with | some x => (owedTo s i).map (fun q => (x, q)) | none => []
    let s := owed.foldl (fun s xq => sendAbort xq.1 i status xq.2 s) s
    let s := if owed = [] then s else orReg Reg.collEvent (2 ^ 4) s
    let s := if status = 0x042 then orReg Reg.collEvent (2 ^ 3) s else s
    s |> dropInst i |> addSat Reg.collErrCount 15 0 1
      |> dropStaged i |> failTag i.tag status i.late

/-- Ends every instance that a test picks. -/
def endInsts (f : Inst → Bool) (status : Nat) (s : State) : State :=
  (s.coll.insts.filter f).foldl (fun s i => endInst i status s) s

/-- A member whose barrier ended before it was released goes on with D = 0 and PD = 0 (R88, R311). -/
def failMember (t d pd : Nat) (s : State) : State := s |> onTl t (fun x => setP pd false (setG d 0 x)) |> resume t

/-- A halted member keeps the end of its barrier, released at a time or not, until it is resumed (R99). -/
def keepBarEnd (t : Nat) (trel : Option Nat) (d pd : Nat) (s : State) : State :=
  onTl t (fun x => { x with wait := some (.barOver trel d pd) }) s

/-- The members of a barrier that ended without a release. -/
def failWaiters (l : List Nat) (s : State) : State :=
  l.foldl (fun s t =>
    match (tl s t).wait with
    | some (.bar _ d pd) => if tileState s t = 3 then failMember t d pd s else keepBarEnd t none d pd s
    | _ => s) s

/-- A barrier instance ends without a release. -/
def failBar (b : BarInst) (s : State) : State :=
  { s with coll := { s.coll with bars := s.coll.bars.erase b } } |> failWaiters b.arrived

/-- Ends the group barriers of a tenant's groups (R394). -/
def failGroupBars (tenant : Nat) (s : State) : State :=
  (s.coll.bars.filter (fun b =>
    match b.key with
    | .group g => (match groupAt s g b.epoch with | some x => x.tenant == tenant | none => false)
    | _ => false)).foldl (fun s b => failBar b s) s

-- Updates (R291, R292)

/-- Reserved buffer of an engine, in units of 64 KiB (R285, R292). -/
def engineUsed (s : State) (e : Nat) : Nat :=
  let cur := (s.coll.groups.filter (fun kv => kv.2.valid && kv.2.engine == e)).foldl (fun a kv => a + kv.2.buf) 0
  match s.coll.drain with
  | some (g, old) =>
    if old.valid && old.engine == e then
      let new := groupOf s g
      cur + (if new.valid && new.engine == e then old.buf - new.buf else old.buf)
    else cur
  | none => cur

/-- Free buffer of an engine; an absent one has none (R316). -/
def engineFree (s : State) (e : Nat) : Nat := if e < s.boot.ioDies then 64 - engineUsed s e else 0

/-- The engine with the most free buffer, the lowest-numbered on a tie (R285). -/
def pickEngine (s : State) : Nat :=
  (List.range 4).foldl (fun b e => if engineFree s b < engineFree s e then e else b) 0

/-- A staged member entry. -/
def stagedMember (s : State) (i : Nat) : Nat :=
  fld (rd s (Reg.stageMember (i / 2))) (if i % 2 = 0 then 31 else 63) (if i % 2 = 0 then 0 else 32)

/-- A member entry whose fields lie in their ranges (R287, R291). -/
def memberFine (m : Nat) : Bool :=
  if m.testBit 31 then memDevice m == 0 else decide (m % 2 ^ 12 < 512)

/-- The list that staged entries flatten to, none when a reference is invalid (R288). -/
def flattenGroup (s : State) (tenant : Nat) (l : List Nat) : Option (List Nat) :=
  l.foldl (fun acc m =>
    match acc with
    | none => none
    | some a =>
      if m.testBit 31 then
        let x := groupOf s (m % 4096)
        if x.valid && x.tenant == tenant then some (addNew a ((positions x).map (memberAt s x))) else none
      else some (addNew a [m])) (some [])

/-- Ranges of the member store that are in use. -/
def storeUsed (s : State) : List (Nat × Nat) :=
  ((s.coll.groups.filter (fun kv => kv.2.valid)).map (fun kv => (kv.2.first, kv.2.count)))
    ++ (match s.coll.drain with | some (_, old) => if old.valid then [(old.first, old.count)] else [] | none => [])

/-- The lowest free run of `n` entries of the member store (R291). -/
def freeRun (s : State) (n : Nat) : Option Nat :=
  let u := storeUsed s
  (sortBy (fun a b => decide (a ≤ b)) (0 :: u.map (fun r => r.1 + r.2))).find? (fun a =>
    decide (a + n ≤ 262144) && u.all (fun r => decide (a + n ≤ r.1 ∨ r.1 + r.2 ≤ a)))

/-- The staged shape: all zeros is taken as N × 1 × 1 × 1 (R289). -/
def stagedShape (w : Word) (n : Nat) : Word := if fld w 31 0 = 0 then wd (n - 1) else wd (fld w 31 0)

/-- Whether every member lies in this device's cube with its digits as local coordinates (R290). -/
def isCube (s : State) (shape : List Nat) (l : List Nat) : Bool :=
  l.zipIdx.all (fun mp =>
    let d := memDevice mp.1
    sameCube d (ownDev s) && digit shape mp.2 0 == devX d % 4 && digit shape mp.2 1 == devY d % 4
      && digit shape mp.2 2 == devZ d % 4 && digit shape mp.2 3 == 0)

/-- A refused update (R291, R315). -/
def refuseGroup (why : Nat) (s : State) : State :=
  s |> wrF Reg.collUpdateStatus 11 8 why |> orReg Reg.collUpdateStatus 4

/-- The instances of a draining group's old epoch, and its old barriers, still open (R292). -/
def oldInsts (s : State) : Nat :=
  match s.coll.drain with
  | none => 0
  | some (g, old) =>
    (s.coll.insts.filter (fun i => i.gid == g && i.epoch == old.epoch && i.sub != 6)).length
      + (s.coll.bars.filter (fun b => b.key == .group g && b.epoch == old.epoch)).length

/-- Instance numbers of a group start again (R292). -/
def restartNumbers (g : Nat) (s : State) : State :=
  { s with coll := { s.coll with nextInst := mdrop (fun k => k / 2 ^ 17 == g) s.coll.nextInst } }

/-- An update is accepted: the new entry holds from now on, the old one drains (R292). -/
def acceptGroup (g : Nat) (new : Group) (s : State) : State :=
  { s with coll := { s.coll with drain := some (g, groupOf s g), groups := mset {} s.coll.groups g new } }
    |> restartNumbers g |> wrF Reg.collUpdateStatus 1 0 1

/-- Members of a list written to the store. -/
def writeStore : Nat → List Nat → State → State
  | _, [], s => s
  | a, m :: r, s =>
    writeStore (a + 1) r { s with coll := { s.coll with store := mset 0 s.coll.store a (BitVec.ofNat 32 m) } }

/-- The word 0 of a new entry (R290). -/
def groupWord0 (s : State) (g : Nat) (w : Word) (cube : Bool) (n engine first : Nat) : Word :=
  wd (2 ^ 63 + (1 - (groupOf s g).epoch) * 2 ^ 62 + (if cube then 2 ^ 61 else 0) + fld w 59 52 * 2 ^ 52
    + (n - 1) * 2 ^ 36 + engine * 2 ^ 34 + fld w 33 26 * 2 ^ 26 + first)

/-- GO: validates the staged group in the order of R291 and accepts it. The caller has checked the role. -/
def groupUpdate (g m : Nat) (s : State) : Bool × State :=
  let w0 := rd s (Reg.stageGroup 0)
  let w1 := rd s (Reg.stageGroup 1)
  let l := (List.range m).map (stagedMember s)
  let tenant := fld w0 59 52
  if s.coll.drain ≠ none then (false, refuseGroup 1 s)
  else if m = 0 ∨ 8192 < m then (false, refuseGroup 8 s)
  else if !bit w0 63 ∨ fld w0 33 26 = 0 ∨ 64 < fld w0 33 26 ∨ l.any (fun x => !memberFine x) then
    (false, refuseGroup 2 s)
  else if !tenantOk s tenant then (false, refuseGroup 3 s)
  else
    match flattenGroup s tenant l with
    | none => (false, refuseGroup 4 s)
    | some list =>
      let n := list.length
      if 65536 < n then (false, refuseGroup 8 s)
      else if (fld w1 31 0 = 0 ∧ 256 < n) ∨ (shapeOf (stagedShape w1 n)).foldl (fun a b => a * b) 1 ≠ n then
        (false, refuseGroup 2 s)
      else
        match freeRun s n with
        | none => (false, refuseGroup 5 s)
        | some first =>
          let e := pickEngine s
          let old := groupOf s g
          let held := if old.valid && old.engine == e then old.buf else 0
          if engineFree s e + held < fld w0 33 26 then (false, refuseGroup 6 s)
          else
            let shape := stagedShape w1 n
            let new : Group :=
              { w0 := groupWord0 s g w0 (isCube s (shapeOf shape) list) n e first,
                w1 := wd (max 64 (fld w1 63 48) * 2 ^ 48 + shape.toNat) }
            (true, s |> writeStore first list |> acceptGroup g new)

/-- DELETE: invalidates a group under the same drain (R291, R312). -/
def groupRemove (g : Nat) (s : State) : Bool × State :=
  let old := groupOf s g
  if s.coll.drain ≠ none then (false, refuseGroup 1 s)
  else if !old.valid then (false, refuseGroup 4 s)
  else (true, acceptGroup g { w0 := wd ((1 - old.epoch) * 2 ^ 62) } s)

/-- The barriers of an epoch of a group end without a release. -/
def failOldBars (g epoch : Nat) (s : State) : State :=
  (s.coll.bars.filter (fun b => b.key == .group g && b.epoch == epoch)).foldl (fun s b => failBar b s) s

/-- ABORT_OLD: ends every old-epoch instance of the draining group, its barriers too, so that the update can commit
(R292). The group is the one that drains, whatever the write names. -/
def abortOldNow (s : State) : Bool × State :=
  match s.coll.drain with
  | some (g, old) =>
    (true, s |> endInsts (fun i => i.gid == g && i.epoch == old.epoch) 0x043 |> failOldBars g old.epoch)
  | none => (false, refuseGroup 9 s)

/-- Content of a group as it is read back: its entry and its list (R446). -/
def groupContent (s : State) (x : Group) : List Word :=
  x.w0 :: x.w1 :: (if x.valid then (positions x).map (fun p => wd (memberAt s x p)) else [])

/-- A write of COLL.UPDATE_CTRL without its status (R291, R315): the content committed is logged (R446). -/
def groupCtrlDo (who : Writer) (v : Word) (s : State) : Nat × State :=
  let g := fld v 59 48
  let n := popCount (fld v 63 61) 3
  if !mayWrite s .operator who then
    let s := if n = 0 then s else refuseGroup 7 s
    withRoleDo .operator who Reg.collUpdateCtrl id s
  else
    withRoleDo .operator who Reg.collUpdateCtrl (fun s =>
      let s := wrReg Reg.collUpdateCtrl (wd (g * 2 ^ 48 + fld v 13 0)) s
      if n = 0 then s
      else if 1 < n then refuseGroup 10 s
      else
        let old := groupContent s (groupOf s g)
        let r := if bit v 63 then groupUpdate g (fld v 13 0) s
          else if bit v 62 then groupRemove g s else abortOldNow s
        if bit v 61 then r.2
        else if r.1 then logWrite who (Reg.stageGroup 0) 0 old (groupContent r.2 (groupOf r.2 g)) r.2
        else logWrite who Reg.collUpdateCtrl 2 [] [] r.2) s

/-- A write of COLL.UPDATE_CTRL (R4, R291, R315): UNLICENSED where GO is refused for its tenant. -/
def groupCtrlWrite (who : Writer) (v : Word) (s : State) : Nat × State :=
  unlicensedIf .operator who (fun s => decide (fld v 63 61 = 4) && !(groupUpdate (fld v 59 48) (fld v 13 0) s).1
      && decide (rdF (groupUpdate (fld v 59 48) (fld v 13 0) s).2 Reg.collUpdateStatus 11 8 = 3))
    (groupCtrlDo who v) s

/-- GROUP_GO (R291). -/
def execGroupGo (who : Writer) (v : Word) (s : State) : Host.Outcome State Fault Refusal :=
  ok (answered who Reg.collUpdateCtrl (groupCtrlWrite who (setFld v 63 61 4) s))

/-- GROUP_DELETE (R291). -/
def execGroupDelete (who : Writer) (v : Word) (s : State) : Host.Outcome State Fault Refusal :=
  ok (answered who Reg.collUpdateCtrl (groupCtrlWrite who (setFld v 63 61 2) s))

/-- ABORT_OLD (R292). -/
def execAbortOld (who : Writer) (v : Word) (s : State) : Host.Outcome State Fault Refusal :=
  ok (answered who Reg.collUpdateCtrl (groupCtrlWrite who (setFld v 63 61 1) s))

/-- The update commits once no old instance is open (R292). -/
def groupCommit (s : State) : State :=
  if s.coll.drain = none ∨ oldInsts s ≠ 0 then s
  else
    let gone := match s.coll.drain with | some (g, old) => (g, old.epoch) | none => (4096, 0)
    { s with coll := { s.coll with drain := none, early := s.coll.early.filter (fun p =>
        !(p.addr / 2 ^ 36 % 4096 == gone.1 && p.addr / 2 ^ 35 % 2 == gone.2)) } } |> wrF Reg.collUpdateStatus 1 0 2
      |> addWrap Reg.collUpdateStatus 63 48 1 |> orReg Reg.collEvent 1

/-- GROUP_UPDATE_COMMIT (R292). -/
def execGroupUpdateCommit (s : State) : Host.Outcome State Fault Refusal := ok (groupCommit s)

end Sys2Proof.Machine
end

