-- ==== Sys2Proof/Machine/Issue.lean ====
section
/-! DEFINITION. How a tile issues one instruction (R67, R68, R71, R74), reads its own SRAM (R70, R79), and how the start
governor holds an MXM (R369). -/

namespace Sys2Proof.Machine

/-- A tile issues while it is RUNNING and waits for nothing (R67, R101). -/
def canIssue (s : State) (t : Nat) : Bool := decide (tileState s t = 3 ∧ (tl s t).wait = none)

/-- The guard of an instruction (R68, R73). -/
def guardTrue (x : Tile) (pn : Bool) (pg : BitVec 3) : Bool := preg x pg.toNat != pn

/-- Issues one instruction of a tile: nothing happens while the tile cannot issue; it stalls a cycle while a register it
reads has an RLD pending; an illegal encoding faults whatever the guard says; a false guard only advances (R67, R68, R74,
R100). -/
def issue (t : Nat) (pn : Bool) (pg : BitVec 3) (illegal : Bool) (reads : List Nat) (body : State → State)
    (s : State) : State :=
  if !canIssue s t then s
  else if illegal then tileFault t 1 s
  else if !guardTrue (tl s t) pn pg then advance t s
  else if reads.any (fun r => r != 0 && (tl s t).pend.contains r) then stalled t s
  else body s

/-- The value of a general register of a tile. -/
def gv (s : State) (t : Nat) (r : BitVec 5) : Word := greg (tl s t) r.toNat

/-- Writes a general register and advances. -/
def putG (t : Nat) (d : BitVec 5) (v : Word) (s : State) : State := s |> onTl t (setG d.toNat v) |> advance t

/-- Writes a predicate and advances. -/
def putP (t : Nat) (d : Nat) (b : Bool) (s : State) : State := s |> onTl t (setP d b) |> advance t

-- A tile's own SRAM

/-- Accesses of a unit of a tile to some ranges of its own SRAM, by a port: they stall while a handover of a bank is
pending (R156) or other accesses are before them (R146), fault where one is refused (R79, R152), and else go on. -/
def withLocal (t port : Nat) (l : List (Nat × Nat)) (isWrite two : Bool) (body : State → State) (s : State) : State :=
  match askBanks t port (!isWrite) two l s with
  | .granted s => body s
  | .waits s => stalled t s
  | .refused c off => localFault t c off isWrite s

/-- Whether a byte written by a slow writer may still read old (R70): at cycle `c` of the tile's job. -/
def stillOld (s : State) (t c : Nat) : Until → Bool
  | .cycles ready from_ lat => decide (c < ready ∧ coreCycles s t (now s - from_) < lat)
  | _ => true

/-- The bytes of a tile's own SRAM as one of its instructions reads them: a byte whose new value is not yet sure to be
read reads old or new, word by word, by a free value (R70, R141, notes/assumptions/4.md). -/
def ownBytes (t off n : Nat) (s : State) : List Byte × State :=
  let c := (rd s (Reg.cycles t)).toNat
  let live := (tl s t).unsettled.filter (fun u => stillOld s t c u.till && decide (off ≤ u.off ∧ u.off < off + n))
  if live = [] then (memBytes s (sramAddr t off) n, s)
  else
    ((List.range n).map (fun i =>
      let new := memByte s (sramAddr t (off + i))
      let olds := (live.filter (fun u => u.off = off + i)).map (fun u => u.old)
      (new :: olds).getD ((Config.freeWord (s.free + ((off + i) / 64 - off / 64))).toNat % (olds.length + 1)) new),
     { s with free := s.free + ((off + n - 1) / 64 - off / 64 + 1) })

/-- A read of a tile's own SRAM that the banks have granted: it counts the errors it meets, and an uncorrectable half
raises SRAM_UNCORRECTABLE (R79, R143). -/
def loadGranted (t off n : Nat) (body : List Byte → State → State) (s : State) : State :=
  let bad := poisonedIn s (sramAddr t off) n
  let s := noteBankErrors t off n (tileOcc s t off false stPoisoned) s
  if bad != [] then tileFault t 9 s
  else
    let r := ownBytes t off n s
    body r.1 r.2

/-- A read of a range of a tile's own SRAM by one of its units. -/
def withLoad (t port off n : Nat) (body : List Byte → State → State) (s : State) : State :=
  withLocal t port [(off, n)] false false (loadGranted t off n body) s

/-- A result of the matrix unit written to the tile's own SRAM: its bytes may read old until `lat` cycles have passed
(R70). -/
def slowStore (t off lat : Nat) (bs : List Byte) (s : State) : State :=
  let c := (rd s (Reg.cycles t)).toNat
  let a := sramAddr t off
  let old := memBytes s a bs.length
  let keep := (tl s t).unsettled.filter (fun u => stillOld s t c u.till)
  let new := old.zipIdx.map (fun b => ({ off := off + b.2, old := b.1, till := .cycles (c + lat) (now s) lat } : Unsettled))
  let s := (writeMem true false a bs s).2
  onTl t (fun x => { x with unsettled := keep ++ new }) s

-- The start governor (R365, R367, R369)

/-- Beats that a tile's matrix unit performed in the last ticks. -/
def beatsSince (s : State) (t ticks : Nat) : Nat :=
  ((tl s t).beats.filter (fun b => decide (now s ≤ b.1 + ticks))).foldl (fun a b => a + b.2) 0

/-- Mean matrix activity of a tile over the last ticks, in 1/300 of its peak of one beat per cycle. -/
def meanActivity (s : State) (t ticks : Nat) : Nat :=
  min 300 (300 * beatsSince s t ticks / max 1 (coreCycles s t ticks))

/-- The level of a hint in force at a time, in 1/300 of the peak (R89, R365); of several, the highest. -/
def hintAt (x : Tile) (time : Nat) : Option Nat :=
  (x.hints.filter (fun h => decide (h.start ≤ time ∧ time < h.start + h.dur))).foldl
    (fun a h => some (max (a.getD 0) (h.level * 20))) none

/-- Whether the start governor holds a tile's next MXM at a release (R369). -/
def governs (s : State) (t : Nat) : Bool :=
  rdB s Reg.ballastLevel 62 &&
    (!rdB s Reg.ballastLevel 63
      || decide (300 < 16 * ((hintAt (tl s t) (now s)).getD (meanActivity s t 16000) - (tl s t).ballast)))

/-- A release of a tile at a tick, as the start governor sees it (R369). Ballast goes on until real work issues (R368). -/
def governRelease (t rel : Nat) (s : State) : State :=
  let hold := if governs s t then some (rel + 13 * (t % 32), none) else none
  onTl t (fun x => { x with firstMxm := hold }) s

/-- The governor lets the held MXM go; the delay counts in STALL_WAIT (R369). -/
def governorLetGo (t : Nat) (s : State) : State :=
  match (tl s t).firstMxm with
  | none => s
  | some (till, since) =>
    let c := match since with | some f => coreCycles s t (till - f) | none => 0
    s |> onTl t (fun x => { x with firstMxm := none }) |> wrReg (Reg.stallWait t) (rd s (Reg.stallWait t) + wd c)
      |> wrReg (Reg.cycles t) (rd s (Reg.cycles t) + wd c)

/-- GOVERNOR_RELEASE (R369): at the tick to which the first MXM was held. -/
def execGovernorRelease (t : Nat) (s : State) : Host.Outcome State Fault Refusal :=
  .next (match (tl s t).firstMxm with
    | none => s
    | some (till, _) => s |> clockTo till |> governorLetGo t)

end Sys2Proof.Machine
end

