-- ==== Sys2Proof/Machine/Timed.lean ====
section
/-! DEFINITION. Timed issue, barriers, fences, completions, hints and gangs of a tile, and tile control (R82–R103,
R311). -/

namespace Sys2Proof.Machine

/-- A Q-format instruction: a field that it does not name must be 0 (R82); `named` is the word with only its named
fields. -/
def qissue (t : Nat) (x named : QArgs) (illegal : Bool) (reads : List Nat) (body : State → State) (s : State) : State :=
  issue t x.pn x.pg (decide (x ≠ { named with pn := x.pn, pg := x.pg }) || illegal) reads body s

/-- TREAD (R82): the tick of issue. -/
def execTread (t : Nat) (x : QArgs) (s : State) : Host.Outcome State Fault Refusal :=
  ok (qissue t x { d := x.d } false [] (fun s => putG t x.d s.now s) s)

/-- WAITT (R82, R86): a time already passed is counted and does not wait. -/
def execWaitt (t : Nat) (x : QArgs) (s : State) : Host.Outcome State Fault Refusal :=
  ok (qissue t x { a := x.a, pd := x.pd } false [x.a.toNat] (fun s =>
    let till := (gv s t x.a).toNat
    if till < now s then
      s |> onTl t (setP x.pd.toNat true) |> wrReg (Reg.lateCount t) (rd s (Reg.lateCount t) + 1)
        |> governRelease t (now s) |> advance t
    else s |> onTl t (setP x.pd.toNat false) |> beginWait t 1 (.waitt till)) s)

/-- WAITT_RELEASE (R86): TIME.NOW reaches the operand of a waiting tile. -/
def execWaittRelease (t : Nat) (s : State) : Host.Outcome State Fault Refusal :=
  ok (match (tl s t).wait with
    | some (.waitt till) =>
      if tileState s t = 3 then s |> clockTo till |> resume t |> governRelease t till else s
    | _ => s)

-- Barriers (R82, R87, R88, R311)

/-- Gangs all of whose members have arrived at a barrier. -/
def fullGangs (s : State) (l : List Nat) : List Nat :=
  ((l.map (leaderOf s)).eraseDups).filter (fun g => (membersOf s g).all (fun m => l.contains m))

/-- Whether every member of a barrier on this device has arrived (R87, R311). -/
def barFull (s : State) (b : BarInst) : Bool :=
  match b.key with
  | .gang l => (membersOf s l).all (fun m => b.arrived.contains m)
  | .device _ _ => decide (b.count ≤ (fullGangs s b.arrived).length)
  | .group g =>
    match groupAt s g b.epoch with
    | some x => (ownPositions s x).all (fun p => (fullGangs s b.arrived).contains (memGang (memberAt s x p)))
    | none => false

/-- The next instance number of a member, of collectives (`bar` false) or of barriers (R298, R311). -/
def numKey (gid pos : Nat) (bar : Bool) : Nat := gid * 2 ^ 17 + pos * 2 + (if bar then 1 else 0)

/-- Opens an instance at a position and takes its number; the contributions it will wait for are counted. -/
def openInst (x : Group) (i : Inst) (s : State) : State :=
  let bar := i.sub == 6
  let n := mget 0 s.coll.nextInst (numKey i.gid i.pos bar)
  let p := instPlan x i
  let miss := (p.phases.map (fun ph => (ph.recv.map (fun r => r.2.length)).foldl (fun a b => a + b) 0)).foldl
    (fun a b => a + b) 0
  { s with coll := { s.coll with
      insts := s.coll.insts ++ [{ i with num := n, todo := packetList x i, miss := miss, lastPos := i.pos, lastAt := now s }],
      nextInst := mset 0 s.coll.nextInst (numKey i.gid i.pos bar) (n + 1) } }

/-- The two values of a device's arrival at a group barrier: T_last and C (R311). -/
def barVector (last release : Nat) : List Byte := leBytes 8 last ++ leBytes 8 release

/-- This device has arrived at a group barrier: the all-reduce of arrivals starts at each of its positions (R311). -/
def startArrivals (g : Nat) (b : BarInst) (s : State) : State :=
  match groupAt s g b.epoch with
  | none => s
  | some x => (ownPositions s x).foldl (fun s p =>
      openInst x { gid := g, epoch := b.epoch, num := 0, pos := p, tile := 0, tenant := x.tenant, tag := 32768,
                   sub := 6, desc := {}, loaded := true, hold := [(0, 0, barVector b.last b.release)],
                   got := [{ phase := 0, share := 0, src := p, off := 0, data := barVector b.last b.release }] } s) s

/-- The last member of a barrier arrived: its release time is announced, or the arrivals are exchanged (R87, R311). -/
def barComplete (b : BarInst) (s : State) : State :=
  match b.key with
  | .gang _ => { s with coll := { s.coll with bars := s.coll.bars.map (fun c =>
      if c = b then { c with trel := some (max b.release (b.last + 16)) } else c) } }
  | .device _ _ => { s with coll := { s.coll with bars := s.coll.bars.map (fun c =>
      if c = b then { c with trel := some (max b.release (b.last + 64)) } else c) } }
  | .group g => startArrivals g b s

/-- The instance of a key that still waits for members. -/
def openBar (s : State) (k : BarKey) (epoch : Nat) : Option BarInst :=
  s.coll.bars.find? (fun b => b.key == k && b.epoch == epoch && b.trel == none && !barFull s b)

/-- Arrivals of different counts end the instance with BAR_MISMATCH on every member (R88). -/
def barMismatch (b : BarInst) (t : Nat) (s : State) : State :=
  let l := b.arrived ++ [t]
  let s := { s with coll := { s.coll with bars := s.coll.bars.erase b } }
  let s := l.foldl (fun s m => captureTile m 7 s) s
  ((l.map (leaderOf s)).eraseDups).foldl (fun s g => tileFault ((l.find? (fun m => leaderOf s m = g)).getD t) 7 s) s

/-- A tile arrives at a barrier and waits (R87, R88). An instance whose deadline has passed ends first. DESIGN CHOICE
(notes/assumptions/50.md): of several C the largest counts at every scope. -/
def arriveBar (t : Nat) (k : BarKey) (epoch count release d pd : Nat) (s : State) : State :=
  let s := match openBar s k epoch with
    | some b => if b.deadline < now s then failBar b s else s
    | none => s
  match openBar s k epoch with
  | some b =>
    if (match k with | .device _ _ => b.count != count | _ => false) then barMismatch b t s
    else
      let b' := { b with arrived := b.arrived ++ [t], last := now s, release := max b.release release }
      let s := { s with coll := { s.coll with bars := s.coll.bars.map (fun c => if c = b then b' else c) } }
      let s := beginWait t 2 (.bar k d pd) s
      if barFull s b' then barComplete b' s else s
  | none =>
    let b : BarInst := { key := k, first := now s, deadline := now s + rdF s (Reg.barDeadline t) 47 0, last := now s,
                         release := release, count := count, arrived := [t], epoch := epoch }
    let s := { s with coll := { s.coll with bars := s.coll.bars ++ [b] } }
    let s := beginWait t 2 (.bar k d pd) s
    if barFull s b then barComplete b s else s

/-- A BAR that releases at once as if its deadline had passed, with an access violation (R311). -/
def refusedBar (t g d pd : Nat) (s : State) : State :=
  s |> onTl t (fun x => setP pd false (setG d 0 x))
    |> violation { addr := wd g, dev := ownDev s, agent := t, tenant := tileTenant s t, access := 6,
                   status := stNoGroup } (sramAddr t 0)
    |> advance t

/-- BAR (R82, R87, R88, R311): SUB 0 gang, 1 device, 2 group. A twinned tenant's BAR of a group exchanges nothing and
releases as if its deadline had passed (R415). DESIGN CHOICE (notes/assumptions/50.md): at gang scope A is ignored. -/
def execBar (t : Nat) (x : QArgs) (s : State) : Host.Outcome State Fault Refusal :=
  ok (qissue t x { d := x.d, a := x.a, b := x.b, c := x.c, pd := x.pd, sub := x.sub } (decide (2 < x.sub.toNat))
    [x.a.toNat, x.b.toNat, x.c.toNat] (fun s =>
      let id := (gv s t x.a).toNat
      let c := (gv s t x.c).toNat
      let d := x.d.toNat
      let pd := x.pd.toNat
      if x.sub = 0 then arriveBar t (.gang (leaderOf s t)) 0 0 c d pd s
      else if x.sub = 1 then
        arriveBar t (.device (tileTenant s t) (id % 64)) 0 (gv s t x.b).toNat c d pd s
      else if isTwinned s (tileTenant s t) then
        s |> onTl t (fun y => setP pd false (setG d 0 y)) |> advance t
      else
        let g := groupOf s id
        if decide (id < 4096) && g.valid && g.tenant == tileTenant s t && (posOf s g (leaderOf s t)).isSome then
          arriveBar t (.group id) g.epoch 0 c d pd s
        else refusedBar t id d pd s) s)

/-- A member of a released barrier goes on with D = T_rel and PD = 1 (R87). -/
def releaseMember (t trel d pd : Nat) (s : State) : State :=
  s |> onTl t (fun x => setP pd true (setG d (wd trel) x)) |> resume t |> governRelease t trel

/-- The members of a barrier that is released. -/
def releaseWaiters (l : List Nat) (trel : Nat) (s : State) : State :=
  l.foldl (fun s t =>
    match (tl s t).wait with
    | some (.bar _ d pd) => if tileState s t = 3 then releaseMember t trel d pd s else keepBarEnd t (some trel) d pd s
    | _ => s) s

/-- BAR_RELEASE (R87): fabric time reaches T_rel. -/
def execBarRelease (k : BarKey) (s : State) : Host.Outcome State Fault Refusal :=
  ok (match s.coll.bars.find? (fun b => b.key == k && b.trel != none) with
    | some b =>
      let trel := b.trel.getD 0
      { s with coll := { s.coll with bars := s.coll.bars.erase b } } |> clockTo trel |> releaseWaiters b.arrived trel
    | none => s)

/-- BAR_DEADLINE_EXPIRY (R88): the deadline passes before the release. -/
def execBarDeadlineExpiry (k : BarKey) (s : State) : Host.Outcome State Fault Refusal :=
  ok (match s.coll.bars.find? (fun b => b.key == k && !(match b.trel with | some r => decide (r ≤ b.deadline) | none => false)) with
    | some b =>
      let s := clockTo b.deadline s
      let s := match k with
        | .group g => (s.coll.insts.filter (fun i => i.sub == 6 && i.gid == g && i.epoch == b.epoch)).foldl
            (fun s i => dropInst i s) s
        | _ => s
      failBar b s
    | none => s)

/-- A finished all-reduce of arrivals: its two values (R311). -/
def arrivalsOf (x : Group) (i : Inst) : Option (Nat × Nat) :=
  match i.hold.find? (fun h => h.1 = 0 && h.2.1 == (instPlan x i).phases.length) with
  | some h => if i.todo = [] then some (leNat (h.2.2.take 8), leNat (h.2.2.drop 8)) else none
  | none => none

/-- The barrier of a group whose arrivals have been exchanged is released at a time (R311). -/
def announceGroupBar (g : Nat) (x : Group) (i : Inst) (last release : Nat) (s : State) : State :=
  let trel := max release (last + max 64 x.lead)
  let s := (s.coll.insts.filter (fun j => j.sub == 6 && j.gid == g && j.epoch == i.epoch && j.num == i.num)).foldl
    (fun s j => dropInst j s) s
  match s.coll.bars.find? (fun b => b.key == .group g && b.epoch == i.epoch && b.trel == none && barFull s b) with
  | none => s
  | some b =>
    if trel < now s then
      { s with coll := { s.coll with bars := s.coll.bars.erase b } } |> orReg Reg.collEvent (2 ^ 2)
        |> addSat Reg.collErrCount 31 16 1 |> releaseWaiters b.arrived trel
    else
      { s with coll := { s.coll with bars := s.coll.bars.map (fun c =>
          if c = b then { c with trel := some trel } else c) } }

/-- GROUP_BAR_RELEASE_COMPUTED (R311): the all-reduce of arrivals has ended at every position of this device. -/
def execGroupBarReleaseComputed (gid : Nat) (s : State) : Host.Outcome State Fault Refusal :=
  ok (match s.coll.insts.find? (fun i => i.sub == 6 && i.gid == gid) with
    | none => s
    | some i =>
      match groupAt s gid i.epoch with
      | none => s
      | some x =>
        let same := s.coll.insts.filter (fun j => j.sub == 6 && j.gid == gid && j.epoch == i.epoch && j.num == i.num)
        if same.all (fun j => (arrivalsOf x j).isSome) then
          match arrivalsOf x i with
          | some (last, release) => announceGroupBar gid x i last release s
          | none => s
        else s)

-- Fences and completions (R82, R84, R85)

/-- FENCE (R82): SUB[2:0] is the mask, SUB[3] must be 0. -/
def execFence (t : Nat) (x : QArgs) (s : State) : Host.Outcome State Fault Refusal :=
  ok (qissue t x { d := x.d, sub := x.sub } (decide (7 < x.sub.toNat)) [] (fun s =>
    s |> beginWait t 5 (.fence x.sub.toNat x.d.toNat) |> settle t) s)

/-- CPLW (R82, R84, R85): with B other than g0 the completion record is written at the offset in B. -/
def execCplw (t : Nat) (x : QArgs) (s : State) : Host.Outcome State Fault Refusal :=
  ok (qissue t x { d := x.d, a := x.a, b := x.b } false [x.a.toNat, x.b.toNat] (fun s =>
    s |> beginWait t 3 (.cplw (gv s t x.a) x.d.toNat (if x.b = 0 then none else some (gv s t x.b).toNat))
      |> settle t) s)

/-- CPLP (R82, R84, R85). -/
def execCplp (t : Nat) (x : QArgs) (s : State) : Host.Outcome State Fault Refusal :=
  ok (qissue t x { d := x.d, a := x.a, pd := x.pd } false [x.a.toNat] (fun s =>
    match lookTag s (gv s t x.a) with
    | .wait => putP t x.pd.toNat false s
    | .done tag e =>
      s |> onTl t (setG x.d.toNat e.rec1) |> observe t (untilTag tag e) |> release tag |> putP t x.pd.toNat true
    | .stale => s |> onTl t (setG x.d.toNat (wd stStale)) |> putP t x.pd.toNat true) s)

-- Hints (R89)

/-- Adds a hint; a fifth replaces the pending one with the earliest start (R89). -/
def addHint (t : Nat) (h : Hint) (l : List Hint) : List Hint :=
  let live := l.filter (fun y => decide (t < y.start + y.dur))
  if live.length < 4 then live ++ [h]
  else
    let first := live.foldl (fun a y => min a y.start) (live.headD h).start
    match live.find? (fun y => y.start = first) with
    | some y => live.erase y ++ [h]
    | none => live ++ [h]

/-- STEEP (R82, R89): a hint whose start has passed takes effect now. -/
def execSteep (t : Nat) (x : QArgs) (s : State) : Host.Outcome State Fault Refusal :=
  ok (qissue t x { a := x.a, b := x.b, sub := x.sub } false [x.a.toNat, x.b.toNat] (fun s =>
    let h : Hint := { level := x.sub.toNat, start := max (now s) (gv s t x.a).toNat, dur := (gv s t x.b).toNat }
    s |> onTl t (fun y => { y with hints := addHint (now s) h y.hints }) |> advance t) s)

-- Gangs (R94, R95)

/-- GANG.ID (R94, R103). -/
def execGangId (t : Nat) (x : QArgs) (s : State) : Host.Outcome State Fault Refusal :=
  ok (qissue t x { d := x.d, sub := 0 } false [] (fun s => putG t x.d (rd s (Reg.tileGang t)) s) s)

/-- GANG.FORM (R94, R95): D is the new gang ID, or all ones. -/
def execGangForm (t : Nat) (x : QArgs) (s : State) : Host.Outcome State Fault Refusal :=
  ok (qissue t x { d := x.d, a := x.a, b := x.b, sub := 1 } false [x.a.toNat, x.b.toNat] (fun s =>
    let n := (gv s t x.b).toNat
    withLoad t 4 (gv s t x.a).toNat (2 * n) (fun bs s =>
      let l := (List.range n).map (fun i => leNat ((bs.drop (2 * i)).take 2))
      let r := formGang (tileTenant s t) l s
      putG t x.d (match r.1 with | some g => wd g | none => wd (2 ^ 64 - 1)) r.2) s) s)

/-- GANG.DISSOLVE (R94): D = 0 on success; on failure a value other than 0, which the spec does not state
(notes/assumptions/4.md). -/
def execGangDissolve (t : Nat) (x : QArgs) (s : State) : Host.Outcome State Fault Refusal :=
  ok (qissue t x { d := x.d, a := x.a, sub := 2 } false [x.a.toNat] (fun s =>
    let r := dissolve (tileTenant s t) (gv s t x.a).toNat s
    if r.1 then putG t x.d 0 r.2
    else
      let f := freeNext r.2
      putG t x.d (if f.1 = 0 then 1 else f.1) f.2) s)

/-- GANG.END (R94, R99): waits for the operations with AR = 0, then ends the job. -/
def execGangEnd (t : Nat) (x : QArgs) (s : State) : Host.Outcome State Fault Refusal :=
  ok (qissue t x { sub := 3 } false [] (fun s => s |> beginWait t 5 .gangEnd |> settle t) s)

-- Tile control (R99, R102, R125, R140)

/-- Whether a register belongs to a partition that is not in service: requests at it are refused (R396). -/
def regFenced (s : State) (a : Nat) : Bool :=
  match partOf (Reg.spaceBase + a) with
  | some p => fenceState s p != 0
  | none => false

/-- A write to a register of a partition that is not in service is refused with FENCED (R396). -/
def inService (a : Nat) (f : State → Nat × State) (s : State) : Nat × State :=
  if regFenced s a then (stFenced, s) else f s

/-- STOP: the gang halts at its next instruction boundary; a waiting member halts at its instruction (R99, R102). -/
def stopGang (l : Nat) (s : State) : State :=
  (membersOf s l).foldl (fun s m => if tileState s m = 3 then setTileState m 4 s else s) s

/-- What a resumed tile waited for is looked at again; a barrier that ended while it was halted lets it go on (R99). -/
def rewait (t : Nat) (s : State) : State :=
  match (tl s t).wait with
  | some (.barOver (some trel) d pd) => releaseMember t trel d pd s
  | some (.barOver none d pd) => failMember t d pd s
  | _ => settle t s

/-- RESUME: a halted gang goes on; a wait goes on with its original deadline (R99, R102). -/
def resumeGang (l : Nat) (s : State) : State :=
  let ms := (membersOf s l).filter (fun m => tileState s m = 4)
  let s := ms.foldl (fun s m => setTileState m 3 s) s
  ms.foldl (fun s m => rewait m s) s

/-- A write of TILE.CTRL acts on the whole gang; more than one field in one write is refused (R100, R102). -/
def tileCtrlWrite (who : Writer) (t : Nat) (v : Word) (s : State) : Nat × State :=
  inService (Reg.tileCtrl t) (withRole .any who (Reg.tileCtrl t) (fun s =>
    let l := leaderOf s t
    if tileState s t = 6 ∨ 1 < popCount (fld v 2 0) 3 then (false, s)
    else if bit v 0 then (true, stopGang l s)
    else if bit v 1 then (true, resumeGang l s)
    else if bit v 2 then (true, abortGang l s) else (true, s))) s

/-- TILE_STOP (R99, R102). -/
def execTileStop (who : Writer) (t : Nat) (s : State) : Host.Outcome State Fault Refusal :=
  ok (answered who (Reg.tileCtrl t) (tileCtrlWrite who t 1 s))

/-- TILE_RESUME (R99, R102). -/
def execTileResume (who : Writer) (t : Nat) (s : State) : Host.Outcome State Fault Refusal :=
  ok (answered who (Reg.tileCtrl t) (tileCtrlWrite who t 2 s))

/-- TILE_ABORT (R99, R102). -/
def execTileAbort (who : Writer) (t : Nat) (s : State) : Host.Outcome State Fault Refusal :=
  ok (answered who (Reg.tileCtrl t) (tileCtrlWrite who t 4 s))

/-- A write of TILE.SR_SEED reloads the generator (R125, R140). -/
def seedWrite (who : Writer) (t : Nat) (v : Word) (s : State) : Nat × State :=
  inService (Reg.srSeed t) (withRoleDo .any who (Reg.srSeed t) (fun s =>
    if tileState s t = 6 then s
    else s |> wrReg (Reg.srSeed t) v |> onTl t (fun x => { x with gen := seedState v }))) s

/-- SR_SEED_WRITE (R125, R140). -/
def execSrSeedWrite (who : Writer) (t : Nat) (v : Word) (s : State) : Host.Outcome State Fault Refusal :=
  ok (answered who (Reg.srSeed t) (seedWrite who t v s))

end Sys2Proof.Machine
end

