-- ==== Sys2Proof/Machine/Windows.lean ====
section
/-! DEFINITION. The access windows: which entry governs an access (R210, R211), and their update by drain-then-commit
(R212–R216, R220). -/

namespace Sys2Proof.Machine

/-- What an access needs of the window that governs it (R210). -/
inductive Perm where
  | read | write | pitch | atomic
deriving DecidableEq, Repr

/-- A window entry, its two words (R211). -/
def winEntry (s : State) (i : Nat) : Word × Word := mget (0, 0) s.rma.windows i

/-- Whether an entry holds an access of a tenant whole (R210). -/
def winCovers (tenant a n : Nat) (w : Word × Word) : Bool :=
  bit w.1 63 && fld w.1 55 48 == tenant && decide (fld w.1 47 0 ≤ a ∧ a + (n - 1) ≤ fld w.2 47 0)

/-- The window that governs an access: the lowest-numbered entry that holds it (R210). -/
def windowFor (s : State) (tenant a n : Nat) : Option (Word × Word) :=
  (s.rma.windows.find? (fun kv => winCovers tenant a n kv.2)).map (·.2)

/-- Whether an entry grants a permission (R210). -/
def winGrants (w : Word) : Perm → Bool
  | .read => bit w 60
  | .write => bit w 59
  | .pitch => bit w 59 && bit w 57
  | .atomic => bit w 58

/-- The window check of R210: none when it refuses, else whether the window shares reads. -/
def windowCheck (s : State) (tenant a n : Nat) (p : Perm) (isReg : Bool) : Option Bool :=
  match windowFor s tenant a n with
  | none => none
  | some w => if winGrants w.1 p && (!isReg || bit w.1 61) then some (bit w.1 62) else none

/-- The window epoch (R221). -/
def winEpochNow (s : State) : Nat := rdF s Reg.winEpoch 32 32

/-- The access that an entry of a bank's queues is to perform, if any. -/
def BankEntry.access (e : BankEntry) : Option Access := match e.work with | .access _ _ x => some x | _ => none

/-- Every access that waits in front of a bank or a stack, in a bank's queues, or at a stack (R212). -/
def waitingAccesses (s : State) : List Access :=
  s.rma.held.map (·.2) ++ s.banks.flatMap (fun kv => kv.2.entries.filterMap BankEntry.access)
    ++ s.hbm.flatMap (fun kv => kv.2.queue)

/-- Accesses stamped with the previous epoch that have not retired (R221): WINDOW.EPOCH.OLD_COUNT. -/
def oldAccesses (s : State) : Nat :=
  ((waitingAccesses s).filter (fun x => x.epoch == some (1 - winEpochNow s))).length

/-- A staged entry (R211). -/
def stagedWin (s : State) (i : Nat) : Word × Word := (rd s (Reg.winStage i 0), rd s (Reg.winStage i 1))

/-- BASE and LIMIT as R211 wants them. -/
def winFine (w : Word × Word) : Bool :=
  !bit w.1 63 || (fld w.1 7 0 == 0 && fld w.2 7 0 == 255 && decide (fld w.1 47 0 ≤ fld w.2 47 0))

/-- A refused update (R214, R220). -/
def refuseWin (why : Nat) (s : State) : State :=
  s |> wrF Reg.winUpdateStatus 11 8 why |> orReg Reg.winUpdateStatus 4

/-- Copies staged entries into the table. -/
def putWindows (first : Nat) (l : List (Word × Word)) (s : State) : State :=
  l.zipIdx.foldl (fun s e =>
    { s with rma := { s.rma with windows := mset (0, 0) s.rma.windows (first + e.2) e.1 } }) s

/-- GO: validates the staged entries in the order of R214, then switches to them (R212, R214). -/
def windowUpdate (first count : Nat) (s : State) : Bool × State :=
  let l := (List.range count).map (stagedWin s)
  if rdF s Reg.winUpdateStatus 1 0 = 1 then (false, refuseWin 1 s)
  else if count = 0 ∨ 64 < count ∨ 4096 < first + count then (false, refuseWin 4 s)
  else if l.any (fun w => !winFine w) then (false, refuseWin 2 s)
  else if l.any (fun w => bit w.1 63 && !tenantOk s (fld w.1 55 48)) then (false, refuseWin 3 s)
  else
    (true, s |> putWindows first l |> wrF Reg.winEpoch 32 32 (1 - winEpochNow s) |> wrF Reg.winUpdateStatus 1 0 1)

/-- The words of some entries of the table. -/
def winWords (s : State) (first count : Nat) : List Word :=
  (List.range count).flatMap (fun i => [(winEntry s (first + i)).1, (winEntry s (first + i)).2])

/-- A write of WINDOW.UPDATE_CTRL (R4, R214, R220); the content committed is logged (R446). -/
def windowCtrlWrite (who : Writer) (v : Word) (s : State) : Nat × State :=
  let first := fld v 27 16
  let count := fld v 6 0
  if !mayWrite s .installer who then
    withRoleDo .installer who Reg.winUpdateCtrl id (if bit v 63 then refuseWin 5 s else s)
  else
    let s := wrReg Reg.winUpdateCtrl (wd (first * 2 ^ 16 + count)) s
    if !bit v 63 then (stOk, logWrite who Reg.winUpdateCtrl 0 [] [] s)
    else
      let old := winWords s first count
      let r := windowUpdate first count s
      if r.1 then (stOk, logWrite who (Reg.winStage 0 0) 0 old (winWords r.2 first count) r.2)
      else (if rdF r.2 Reg.winUpdateStatus 11 8 = 3 then stUnlicensed else stOk,
            logWrite who Reg.winUpdateCtrl 2 [] [] r.2)

/-- WINDOW_UPDATE_GO (R214). -/
def execWindowUpdateGo (who : Writer) (v : Word) (s : State) : Host.Outcome State Fault Refusal :=
  ok (answered who Reg.winUpdateCtrl (windowCtrlWrite who (setBit v 63 true) s))

/-- The update commits once no access of the previous epoch waits (R212, R215). -/
def windowCommit (s : State) : State :=
  if rdF s Reg.winUpdateStatus 1 0 = 1 ∧ oldAccesses s = 0 then
    s |> wrF Reg.winUpdateStatus 1 0 2 |> addWrap Reg.winUpdateStatus 63 48 1
  else s

/-- WINDOW_UPDATE_COMMIT (R212, R215). -/
def execWindowUpdateCommit (s : State) : Host.Outcome State Fault Refusal := ok (windowCommit s)

end Sys2Proof.Machine
end

