-- ==== Sys2Proof/Machine/QueueCtl.lean ====
section
/-! DEFINITION. Queue pairs as software sees them: their registers, doorbells, the return of completion slots, MSI-X
(R329, R334–R341, R346, R347). -/

namespace Sys2Proof.Machine

-- MSI-X (R329, R341)

/-- Key of an MSI-X table word: function 0 physical, 1 + v virtual. -/
def msixKey (fn w : Nat) : Nat := fn * 0x1000 + w

/-- The mask bit of a vector sits in bit 32 of its second word; it is kept inverted because it resets to 1. -/
def msixFlip (w : Nat) : Word := if w % 2 = 1 then 0x100000000#64 else 0

/-- A word of a function's MSI-X table: two words for each vector. -/
def msixWord (s : State) (fn w : Nat) : Word := mget 0 s.host.msix (msixKey fn w) ^^^ msixFlip w

/-- Writes a word of an MSI-X table. -/
def msixPut (fn w : Nat) (v : Word) (s : State) : State :=
  { s with host := { s.host with msix := mset 0 s.host.msix (msixKey fn w) (v ^^^ msixFlip w) } }

/-- Vectors of a function (R329). -/
def msixCount (fn : Nat) : Nat := if fn = 0 then 256 else 7

/-- Sends a vector's message, or sets its pending bit while it is masked (R341). -/
def sendMsix (fn vec : Nat) (s : State) : State :=
  if msixCount fn ≤ vec then s
  else if bit (msixWord s fn (2 * vec + 1)) 32 then
    { s with host := { s.host with pba := s.host.pba.erase (fn, vec) ++ [(fn, vec)] } }
  else emit (.msix fn vec) s

/-- A write of an MSI-X table word; a vector that is unmasked with its bit pending is sent. -/
def msixWrite (fn w : Nat) (v : Word) (s : State) : State :=
  let s := msixPut fn w v s
  if s.host.pba.contains (fn, w / 2) && !bit (msixWord s fn (w / 2 * 2 + 1)) 32 then
    sendMsix fn (w / 2) { s with host := { s.host with pba := s.host.pba.erase (fn, w / 2) } }
  else s

-- Fields of a queue (R335, R346, R347)

/-- Fields of Q_CTRL (R346). -/
def qEnabled (s : State) (q : Nat) : Bool := rdB s (Reg.qCtrl q) 63
/-- See `qEnabled`. -/
def qSqDevice (s : State) (q : Nat) : Bool := rdB s (Reg.qCtrl q) 62
/-- See `qEnabled`. -/
def qCqDevice (s : State) (q : Nat) : Bool := rdB s (Reg.qCtrl q) 61
/-- See `qEnabled`. -/
def qKind (s : State) (q : Nat) : Nat := rdF s (Reg.qCtrl q) 60 59
/-- See `qEnabled`. -/
def qTenant (s : State) (q : Nat) : Nat := rdF s (Reg.qCtrl q) 55 48
/-- See `qEnabled`. -/
def sqSize (s : State) (q : Nat) : Nat := 2 ^ (rdF s (Reg.qCtrl q) 47 44 + 4)
/-- See `qEnabled`. -/
def cqSize (s : State) (q : Nat) : Nat := 2 ^ (rdF s (Reg.qCtrl q) 43 40 + 4)

/-- The queues that run. -/
def enabledQueues (s : State) : List Nat := (List.range 512).filter (qEnabled s)

/-- SQ_HEAD, CQ_TAIL and the head of the completion ring (R347). -/
def sqHead (s : State) (q : Nat) : Nat := rdF s (Reg.qStatus q) 50 32
/-- See `sqHead`. -/
def cqTail (s : State) (q : Nat) : Nat := rdF s (Reg.qStatus q) 31 13
/-- See `sqHead`. -/
def cqHeadOf (s : State) (q : Nat) : Nat := rdF s (Reg.cqHead q) 18 0

/-- The function that owns a queue for its interrupts: the physical function for tenant 0, else the tenant's VF
(R334, R335, R346). -/
def qFunction (s : State) (q : Nat) : Nat := if qTenant s q = 0 then 0 else qTenant s q + 1

/-- A refused host or queue access is counted (R334, R345). -/
def countRefused (s : State) : State := addSat Reg.refusedCount 63 0 1 s

/-- A refused doorbell or head write (R336, R340). -/
def badDoorbell (s : State) : State := s |> orReg Reg.hostEvent 4 |> countRefused

-- Rings (R335)

/-- Where an access of HBM is held when its stack's queue is full: 8192 + 4 × partition + stack. -/
def stackKey (s : State) (a : Nat) : Nat := 8192 + 4 * (a / 0x1800000000) + stackOf s (a % 0x1800000000)

/-- Puts an admitted access that lies in one line into its stack's queue of 512 entries. Behind a full queue, and behind
what waits there already, it is held (R171, R181). -/
def toStack (x : Access) (s : State) : State :=
  let p := x.addr / 0x1800000000
  let i := stackOf s (x.addr % 0x1800000000)
  let k := stackKey s x.addr
  if 512 ≤ (stk s p i).queue.length ∨ s.rma.held.any (fun h => h.1 == k) then
    { s with rma := { s.rma with held := s.rma.held ++ [(k, x)] } }
  else onStk p i (fun k => { k with queue := k.queue ++ [x] }) s

/-- Whether a ring lies wholly in mapped HBM and starts on a 4 KiB boundary (R335). -/
def ringFits (s : State) (base bytes : Nat) : Bool :=
  base % 4096 == 0 && (match accessRange s base bytes with | some (.hbm _ _) => true | _ => false)

/-- The queue engine's access of a ring in device memory: a queue of another tenant than 0 goes through a window
(R335). None when a check refuses it. -/
def ringAccess (s : State) (q addr : Nat) (op : AccOp) (data : List Byte) (n : Nat) (reply : Reply) : Option Access :=
  let t := qTenant s q
  let p := addr / 0x1800000000
  let k := stackState s p (stackOf s (addr % 0x1800000000))
  let perm := match op with | .read => Perm.read | _ => Perm.write
  if fenceState s p ≠ 0 ∨ k = 1 ∨ k = 6 then none
  else if t = 0 then
    some { op := op, addr := addr, len := n, data := data, agent := 0x300, tenant := 0, since := now s, reply := reply }
  else if (windowCheck s t addr n perm false).isSome then
    some { op := op, addr := addr, len := n, data := data, agent := 0x800, tenant := t,
           epoch := some (winEpochNow s), since := now s, reply := reply }
  else none

/-- Writes bytes into a queue's completion ring: posted to host memory, or through the stack's queue (R335, R340). A
write that the ring refuses is lost with an access violation. -/
def ringWrite (q off : Nat) (bs : List Byte) (s : State) : State :=
  let addr := (rd s (Reg.cqBase q)).toNat + off
  if qCqDevice s q then
    (match ringAccess s q addr .write bs bs.length .none with
     | some x => toStack x s
     | none => violation { addr := wd addr, dev := ownDev s, agent := 0x800, tenant := qTenant s q, access := 1,
                           status := stNoWindow } addr s)
  else emit (.hostWrite addr bs) s

-- Stopping (R342, R343, R396)

/-- The work of a stopped queue runs on without it: its records are discarded (R343). -/
def orphanWork (q : Nat) (s : State) : State :=
  { s with
    host := { s.host with
      jobs := s.host.jobs.map (fun j => if j.q = q then { j with q := 512 } else j),
      reads := s.host.reads.filter (fun r => match r.2 with | .entry q' _ => q' != q | _ => true) },
    rma := { s.rma with held := s.rma.held.filter (fun h => match h.2.reply with | .entry q' _ => q' != q | _ => true) },
    hbm := s.hbm.map (fun kv => (kv.1, { kv.2 with
      queue := kv.2.queue.filter (fun x => match x.reply with | .entry q' _ => q' != q | _ => true) })),
    cpl := s.cpl.map (fun kv => (kv.1,
      match kv.2.sink with
      | .queue q' _ => if q' = q then { kv.2 with sink := .none, orphan := true } else kv.2
      | _ => kv.2)) }

/-- Clears ENABLE of a queue: nothing more is fetched, entries not started are dropped, records are discarded (R342,
R343). `why` 0 is a write of software, which does not set STOPPED. -/
def stopQueue (q why : Nat) (s : State) : State :=
  if !qEnabled s q then s
  else
    let s := s |> wrB (Reg.qCtrl q) 63 false |> wrB (Reg.qStatus q) 0 false |> orphanWork q
      |> onHq q (fun x => { x with reserved := 0, fetched := [], reading := false, records := [], armed := false })
    if why = 0 then s else s |> wrF (Reg.qStatus q) 7 4 why |> wrB (Reg.qStatus q) 1 true

-- Register writes (R334–R341)

/-- The bits of Q_CTRL that exist (R346). -/
def qCtrlMask : Nat := Reg.bits 63 59 + Reg.bits 55 48 + Reg.bits 47 40 + Reg.bits 26 16

/-- Who may write a queue's registers (R334, R337): the physical function with a session, the VF whose number is
TENANT, a fabric write of that tenant. -/
def queueWrite (who : Writer) (q a : Nat) (f : State → State) (s : State) : Nat × State :=
  match who with
  | .path _ => withRoleDo .operator who a f s
  | .vf v => if v = qTenant s q then (stOk, f s) else (stOk, countRefused s)
  | .fabric _ t =>
    if t = qTenant s q then (stOk, f s)
    else (stNotOwner, violation (writeOcc s who a stNotOwner) (Reg.spaceBase + a) s)
  | _ => (stNoWindow, refuseOther who a s)

/-- Enables a queue: both rings start at index 0 with SEQ 1 (R335, R336, R339). A ring in device memory that does not
fit leaves the queue stopped with FETCH_ERROR. -/
def enableQueue (q : Nat) (v : Word) (s : State) : State :=
  let s := wrReg (Reg.qCtrl q) (setBit v 63 false) s
  let fits (dev : Bool) (base bytes : Nat) : Bool := base % 4096 == 0 && (!dev || ringFits s base bytes)
  if fits (qSqDevice s q) (rd s (Reg.sqBase q)).toNat (sqSize s q * 64)
      && fits (qCqDevice s q) (rd s (Reg.cqBase q)).toNat (cqSize s q * 32) then
    s |> wrReg (Reg.qCtrl q) (setBit v 63 true) |> wrReg (Reg.sqTail q) 0 |> wrReg (Reg.cqHead q) 0
      |> wrReg (Reg.qStatus q) (wd ((if rdB s (Reg.qStatus q) 1 then 2 else 0) + 1)) |> onHq q (fun _ => {})
  else wrF (Reg.qStatus q) 7 4 2 s

/-- What a write of Q_CTRL changes besides ENABLE. -/
def qCtrlDiffers (old v : Word) : Bool := setBit old 63 false != setBit v 63 false

/-- A write of Q_CTRL (R334, R335, R346). -/
def qCtrlWrite (who : Writer) (q : Nat) (v : Word) (s : State) : Nat × State :=
  unlicensedIf .any who (fun s => !tenantOk s (fld v 55 48)) (queueWrite who q (Reg.qCtrl q) (fun s =>
    let v := v &&& wd qCtrlMask
    let old := rd s (Reg.qCtrl q)
    let pf := match who with | .path _ => true | _ => false
    if 2 ≤ fld v 60 59 ∨ (bit old 63 ∧ qCtrlDiffers old v) ∨ (!pf ∧ fld v 55 48 ≠ fld old 55 48)
        ∨ !tenantOk s (fld v 55 48) then countRefused s
    else if bit old 63 then (if bit v 63 then s else stopQueue q 0 s)
    else if bit v 63 then enableQueue q v s else wrReg (Reg.qCtrl q) v s)) s

/-- A write of SQ_BASE or CQ_BASE: refused while the queue is enabled (R334). -/
def ringBaseWrite (who : Writer) (q a : Nat) (v : Word) (s : State) : Nat × State :=
  queueWrite who q a (fun s =>
    if qEnabled s q && v != rd s a then countRefused s else wrReg a v s) s

/-- A doorbell (R336): refused when the tail lies outside the ring or passes entries not yet fetched. -/
def sqTailWrite (who : Writer) (q : Nat) (v : Word) (s : State) : Nat × State :=
  queueWrite who q (Reg.sqTail q) (fun s =>
    let n := sqSize s q
    let t := fld v 18 0
    let gap (x : Nat) : Nat := (x + n - sqHead s q) % n
    if n ≤ t ∨ (qEnabled s q ∧ gap t < gap (rdF s (Reg.sqTail q) 18 0)) then badDoorbell s
    else wrReg (Reg.sqTail q) (wd t) s) s

/-- Returns a slot of a completion ring: VALID reads 0 from now on, SEQ and SQ_INDEX stay. W1–W3 are undefined while
VALID is 0: in device memory they read free values (R340, notes/assumptions/4.md). -/
def returnSlot (q i : Nat) (s : State) : State :=
  let w := setBit (mget 0 (hq s q).slots i) 31 false
  let s := onHq q (fun x => { x with slots := mset 0 x.slots i w, ready := x.ready - 1 }) s
  if qCqDevice s q then
    ringWrite q (32 * i)
      (wordsBytes [w, Config.freeWord s.free, Config.freeWord (s.free + 1), Config.freeWord (s.free + 2)])
      { s with free := s.free + 3 }
  else ringWrite q (32 * i) (leBytes 8 w.toNat) s

/-- Arms a queue's vector: a ready record sends the message at once (R341). -/
def armQueue (q : Nat) (s : State) : State :=
  if (hq s q).ready = 0 then onHq q (fun x => { x with armed := true }) s
  else sendMsix (qFunction s q) (rdF s (Reg.qCtrl q) 26 16) (onHq q (fun x => { x with armed := false }) s)

/-- A write of CQ_HEAD (R340, R341). -/
def cqHeadWrite (who : Writer) (q : Nat) (v : Word) (s : State) : Nat × State :=
  queueWrite who q (Reg.cqHead q) (fun s =>
    let n := cqSize s q
    let h := fld v 18 0
    let k := (h + n - cqHeadOf s q) % n
    if n ≤ h ∨ (hq s q).ready < k then badDoorbell s
    else
      let s := ((List.range k).map (fun i => (cqHeadOf s q + i) % n)).foldl (fun s i => returnSlot q i s) s
      let s := wrReg (Reg.cqHead q) (wd ((if bit v 63 then 2 ^ 63 else 0) + h)) s
      if bit v 63 then armQueue q s else s) s

/-- A read of CQ_RTC (R340): W0 of the head slot; a valid one is returned and the head advances. Host memory has no
such alias: the value read there is not stated (notes/assumptions/4.md). -/
def cqRtcRead (q : Nat) (s : State) : Word × State :=
  if !qCqDevice s q then freeNext s
  else
    let i := cqHeadOf s q
    let w := mget 0 (hq s q).slots i
    if bit w 31 then (w, s |> returnSlot q i |> wrF (Reg.cqHead q) 18 0 ((i + 1) % cqSize s q)) else (w, s)

/-- Whether a reader of CQ_RTC has its side effect (R331, R337): a VF or a fabric reader needs the queue's tenant. -/
def mayPop (s : State) (who : Writer) (q : Nat) : Bool :=
  match who with
  | .path _ => true
  | .vf v => v == qTenant s q
  | .fabric _ t => t == qTenant s q
  | _ => true

/-- Q_CTRL_WRITE (R334, R335). -/
def execQCtrlWrite (who : Writer) (q : Nat) (v : Word) (s : State) : Host.Outcome State Fault Refusal :=
  ok (if q < 512 then answered who (Reg.qCtrl q) (qCtrlWrite who q v s) else s)

/-- SQ_TAIL_WRITE (R336, R337). -/
def execSqTailWrite (who : Writer) (q : Nat) (v : Word) (s : State) : Host.Outcome State Fault Refusal :=
  ok (if q < 512 then answered who (Reg.sqTail q) (sqTailWrite who q v s) else s)

/-- CQ_HEAD_WRITE (R340, R341). -/
def execCqHeadWrite (who : Writer) (q : Nat) (v : Word) (s : State) : Host.Outcome State Fault Refusal :=
  ok (if q < 512 then answered who (Reg.cqHead q) (cqHeadWrite who q v s) else s)

/-- CQ_RTC (R340): what is read is handed to the reader. -/
def execCqRtc (who : Writer) (q : Nat) (s : State) : Host.Outcome State Fault Refusal :=
  ok (if q < 512 then
      (if mayPop s who q then
        let r := cqRtcRead q s
        emit (.hostAnswer 0 stOk (leBytes 8 r.1.toNat) false) r.2
      else emit (.hostAnswer 0 stOk (leBytes 8 0) false) s)
    else s)

end Sys2Proof.Machine
end

