-- ==== Sys2Proof/Machine/CvuOps.lean ====
section
/-! DEFINITION. Check-value units (R317–R328): the CRC they compute, attachment, the bytes they cover, results and
their configuration. -/

namespace Sys2Proof.Machine

-- The CRC (R319, R320)

/-- The parameters of a CRC (R319). -/
structure Crc where
  width : Nat
  poly : Nat
  init : Nat
  refin : Bool
  refout : Bool
  xorout : Nat
deriving DecidableEq, Repr

/-- The low `n` bits of a number in reverse order. -/
def reflect (n v : Nat) : Nat := maskOf ((List.range n).filter (fun i => v.testBit (n - 1 - i)))

/-- One bit of the message enters the remainder. -/
def crcBit (k : Crc) (r : Nat) (b : Bool) : Nat :=
  let x := 2 * r % 2 ^ k.width
  if r.testBit (k.width - 1) != b then x ^^^ k.poly else x

/-- One byte of the message enters the remainder: most significant bit first, or least with REFIN. -/
def crcByte (k : Crc) (r : Nat) (b : Byte) : Nat :=
  let v := if k.refin then reflect 8 b.toNat else b.toNat
  [7, 6, 5, 4, 3, 2, 1, 0].foldl (fun r i => crcBit k r (v.testBit i)) r

/-- A whole message enters the remainder. -/
def crcRun (k : Crc) (r : Nat) (bs : List Byte) : Nat := bs.foldl (crcByte k) r

/-- The result that a remainder gives (R319). -/
def crcOut (k : Crc) (r : Nat) : Nat := (if k.refout then reflect k.width r else r) ^^^ k.xorout

/-- The presets (R320). -/
def crcPreset (p : Nat) : Crc :=
  if p = 1 then ⟨32, 0x1EDC6F41, 0xFFFFFFFF, true, true, 0xFFFFFFFF⟩
  else if p = 2 then ⟨64, 0x42F0E1EBA9EA3693, 0, false, false, 0⟩
  else ⟨64, 0x42F0E1EBA9EA3693, 2 ^ 64 - 1, true, true, 2 ^ 64 - 1⟩

/-- The parameters of a channel (R319, R320, R327). -/
def crcOf (s : State) (c : Nat) : Crc :=
  let g := rd s (Reg.cvuCfg c)
  if fld g 9 8 ≠ 0 then crcPreset (fld g 9 8)
  else
    let w := fld g 6 0
    { width := w, poly := (rd s (Reg.cvuPoly c)).toNat % 2 ^ w, init := (rd s (Reg.cvuInit c)).toNat % 2 ^ w,
      refin := bit g 13, refout := bit g 14, xorout := (rd s (Reg.cvuXorout c)).toNat % 2 ^ w }

-- Streams (R317, R318, R321–R325)

/-- A channel's record. -/
def cvuOf (s : State) (c : Nat) : Cvu := mget {} s.cvu c

/-- A channel's record replaced. -/
def setCvu (c : Nat) (x : Cvu) (s : State) : State := { s with cvu := mset {} s.cvu c x }

/-- STATUS.STATE of a channel (R328): 0 IDLE, 1 RUNNING, 2 DONE, 3 ERROR. -/
def cvuState (s : State) (c : Nat) : Nat := rdF s (Reg.cvuStatus c) 1 0

/-- Units that a stream of `total` bytes from `base` falls into (R321). -/
def unitCount (base total : Nat) : Nat := if total = 0 then 0 else (base % 256 + total - 1) / 256 + 1

/-- A stream starts on a channel (R321, R323). -/
def cvuStart (c base total : Nat) (tag : Option Nat) (s : State) : State :=
  let old := cvuOf s c
  s |> setCvu c { old with base := base, total := total, bytes := [], counted := [], tag := tag }
    |> wrF (Reg.cvuStatus c) 1 0 1 |> wrF (Reg.cvuStatus c) 63 32 0

/-- Whether an operation of a tenant may attach a channel (R318). A channel whose last stream has ended is idle again,
once the operation of that stream has its record. -/
def cvuFree (s : State) (c tenant : Nat) : Bool :=
  let g := rd s (Reg.cvuCfg c)
  bit g 63 && fld g 61 60 == 0 && fld g 55 48 == tenant && cvuState s c != 1
    && !s.cpl.any (fun kv => kv.2.st == .opened && kv.2.cvu == some c)

/-- Attaches a channel to an operation, or sets ATTACH_REFUSED (R318). -/
def cvuAttach (c tenant tag base total : Nat) (s : State) : State :=
  if cvuFree s c tenant then
    s |> cvuStart c base total (some tag) |> (fun s => setCpl tag { cplOf s tag with cvu := some c } s)
  else wrB (Reg.cvuStatus c) 5 true s

/-- Bytes at an offset from the stream's first byte come in; an RX channel ignores a byte that was counted and sets
OVERLAP (R322). -/
def cvuFeed (c : Nat) : Nat → List Byte → State → State
  | _, [], s => s
  | off, b :: r, s =>
    let x := cvuOf s c
    cvuFeed c (off + 1) r
      (if x.counted.contains off && rdF s (Reg.cvuCfg c) 61 60 == 1 then wrB (Reg.cvuStatus c) 6 true s
       else setCvu c { x with bytes := mset 0 x.bytes off b, counted := x.counted ++ [off] } s)

/-- The length of the run of offsets 0, 1, 2, … at the front of an ascending list. -/
def cvuPrefix : Nat → List Nat → Nat
  | n, [] => n
  | n, o :: r => if o = n then cvuPrefix (n + 1) r else n

/-- UNITS of the current stream (R328): the units whose bytes have all come in, in order. -/
def cvuCount (c : Nat) (s : State) : State :=
  let x := cvuOf s c
  let n := cvuPrefix 0 (sortBy (fun a b => decide (a ≤ b)) x.counted)
  let whole := if n = x.total then unitCount x.base x.total else (x.base % 256 + n) / 256
  wrF (Reg.cvuStatus c) 63 32 (min whole (2 ^ 32 - 1)) s

/-- Bytes covered by the channel of an open operation, at an offset of its destination (R317). -/
def cvuCover (tag off : Nat) (bs : List Byte) (poison : Bool) (s : State) : State :=
  match (cplOf s tag).cvu with
  | none => s
  | some c => if cvuState s c ≠ 1 then s else if poison then cvuError c s else s |> cvuFeed c off bs |> cvuCount c

/-- Bytes that an incoming write put at an address are covered by every RX channel that they match (R317, R322). -/
def cvuIncoming (src tenant addr : Nat) (bs : List Byte) (poison : Bool) (s : State) : State :=
  (List.range 64).foldl (fun s c =>
    let g := rd s (Reg.cvuCfg c)
    let m := rd s (Reg.cvuRxMatch c)
    let x := cvuOf s c
    let lo := max addr x.base
    let hi := min (addr + bs.length) (x.base + x.total)
    if bit g 63 && fld g 61 60 == 1 && fld g 55 48 == tenant && cvuState s c == 1 && fld m 61 48 == src
        && decide (lo < hi) then
      (if poison then cvuError c s else s |> cvuFeed c (lo - x.base) ((bs.drop (lo - addr)).take (hi - lo)) |> cvuCount c)
    else s) s

/-- The offsets of a stream's bytes, ascending. -/
def cvuOffsets (x : Cvu) : List Nat := sortBy (fun a b => decide (a ≤ b)) x.counted.eraseDups

/-- The 256-byte blocks of the destination that a stream's bytes fall into, ascending (R321). -/
def cvuBlocks (x : Cvu) : List Nat := ((cvuOffsets x).map (fun o => (x.base + o) / 256)).eraseDups

/-- The units of a stream in order, each with its number when SEQ is folded (R321). -/
def cvuUnits (x : Cvu) (seq : Bool) (first : Nat) : List Byte :=
  (cvuBlocks x).zipIdx.flatMap (fun k =>
    (if seq then leBytes 4 (first + k.2) else [])
      ++ ((cvuOffsets x).filter (fun o => (x.base + o) / 256 = k.1)).map (fun o => mget 0 x.bytes o))

/-- The logical message of a stream (R321, R323): `addr` is the destination address that is folded. -/
def cvuMessage (fold : Nat) (chain : Bool) (addr : Nat) (x : Cvu) : List Byte :=
  (if fold % 2 = 1 ∧ !chain then leBytes 8 addr else []) ++ cvuUnits x (decide (2 ≤ fold)) (if chain then x.unit0 else 0)

/-- The address that a channel folds: an RX channel's base as a class 0b01 address of this device (R321). -/
def cvuAddr (s : State) (c : Nat) : Nat :=
  if rdF s (Reg.cvuCfg c) 61 60 = 1 then (fabricAddr s (cvuOf s c).base).toNat else (cvuOf s c).base

/-- A finished stream's result is delivered (R323, R324). -/
def cvuFinish (c : Nat) (s : State) : State :=
  let g := rd s (Reg.cvuCfg c)
  let x := cvuOf s c
  let k := crcOf s c
  let r0 := if bit g 15 then (match x.remainder with | some r => r.toNat | none => k.init) else k.init
  let r := crcRun k r0 (cvuMessage (fld g 57 56) (bit g 15) (cvuAddr s c) x)
  let n := (cvuBlocks x).length
  let result := wd (crcOut k r)
  let s := s |> wrReg (Reg.cvuResult c) result |> wrF (Reg.cvuStatus c) 1 0 2
    |> wrF (Reg.cvuStatus c) 63 32 (min n (2 ^ 32 - 1)) |> orReg Reg.cvuDone (2 ^ c)
    |> setCvu c { x with bytes := [], counted := [], tag := none, remainder := some (wd r),
                         unit0 := (if bit g 15 then x.unit0 else 0) + n }
  match x.tag with
  | none => s
  | some tag =>
    if (cplOf s tag).answered && (cplOf s tag).cvu == some c then
      finishTag tag stOk (cplOf s tag).drops (cplOf s tag).inexact (cplOf s tag).late (some result) s
    else s

/-- CVU_RESULT_DELIVERY (R324): every covered byte of the running stream has come in. -/
def execCvuResultDelivery (c : Nat) (s : State) : Host.Outcome State Fault Refusal :=
  ok (if c < 64 ∧ cvuState s c = 1 ∧ (cvuOf s c).total ≤ (cvuOf s c).counted.length then cvuFinish c s else s)

-- Configuration (R325–R327)

/-- Who may write a channel (R326): the physical function; a VF, a window or a tile only a channel of its tenant. -/
def cvuWriter (who : Writer) (c a : Nat) (f : Bool → State → State) (s : State) : Nat × State :=
  match who with
  | .path _ => withRoleDo .operator who a (f true) s
  | _ =>
    if (writerAgent s who).2 = rdF s (Reg.cvuCfg c) 55 48 then (stOk, f false s)
    else (stNotOwner, violation (writeOcc s who a stNotOwner) (Reg.spaceBase + a) s)

/-- A write of CVU.CFG (R322, R325, R327). Arming an RX channel starts its stream; a write of VALID = 0 disarms it
without a result. -/
def cvuCfgWrite (who : Writer) (c : Nat) (v : Word) (s : State) : Nat × State :=
  unlicensedIf .any who (fun s => !tenantOk s (fld v 55 48)) (cvuWriter who c (Reg.cvuCfg c) (fun pf s =>
    let a := Reg.cvuCfg c
    let old := rd s a
    let v := v &&& wd (Reg.kind a).rw
    let refuse (s : State) : State := wrB (Reg.cvuStatus c) 7 true s
    if cvuState s c = 1 ∧ !(fld old 61 60 == 1 && !bit v 63) then refuse s
    else if 2 ≤ fld v 61 60 ∨ (fld v 9 8 = 0 ∧ (fld v 6 0 < 8 ∨ 64 < fld v 6 0)) ∨ !tenantOk s (fld v 55 48)
        ∨ (!pf ∧ fld v 55 48 ≠ fld old 55 48) then
      (if cvuState s c = 1 ∧ !bit v 63 then wrF (Reg.cvuStatus c) 1 0 0 (refuse s) else refuse s)
    else
      let s := s |> wrReg a v |> wrF (Reg.cvuStatus c) 1 0 0
      if bit v 63 && fld v 61 60 == 1 then
        cvuStart c (rdF s (Reg.cvuRxMatch c) 47 0) (rdF s (Reg.cvuRxLen c) 32 0) none s
      else s)) s

/-- A write of a parameter register of a channel: refused while it is RUNNING (R325). -/
def cvuParamWrite (who : Writer) (c a : Nat) (v : Word) (s : State) : Nat × State :=
  cvuWriter who c a (fun _ s =>
    if cvuState s c = 1 then wrB (Reg.cvuStatus c) 7 true s else wrReg a (plainValue (Reg.kind a) (rd s a) v) s) s

/-- CVU_CFG_WRITE (R325, R327). -/
def execCvuCfgWrite (who : Writer) (c : Nat) (v : Word) (s : State) : Host.Outcome State Fault Refusal :=
  ok (if c < 64 then answered who (Reg.cvuCfg c) (cvuCfgWrite who c v s) else s)

end Sys2Proof.Machine
end

