-- ==== Sys2Proof/Machine/Answer.lean ====
section
/-! DEFINITION. How a performed or refused access is answered: responses, acknowledgements of puts (R191), segments of
copies (R190–R194), sinks of own operations (R198), host reads (R332), ring entries (R336). -/

namespace Sys2Proof.Machine

/-- Segment `k` of a copy of `n` bytes whose destination starts at `base` (R190): its offset and its length. -/
def segOf (base n k : Nat) : Nat × Nat :=
  let lo := k * 256 - base % 256
  (lo, min n ((k + 1) * 256 - base % 256) - lo)

/-- Number of segments of a copy (R190). -/
def segCount (base n : Nat) : Nat := unitCount base n

/-- The answer limit of R201, in ticks. -/
def answerLimit : Nat := 102400000

/-- An answer is suppressed and counted when it would leave too late (R201). -/
def inTime (x : Access) (send : State → State) (s : State) : State :=
  if x.since + answerLimit < now s then addSat Reg.staleCount 63 0 1 s else send s

/-- An access of an own operation is answered while its entry is OPEN with the generation that it was made for, and
within the answer limit; else it can match no entry, and is counted (R181, R199, R201). -/
def ifCurrent (x : Access) (tag gen : Nat) (f : State → List Access × State) (s : State) : List Access × State :=
  if (cplOf s tag).st = .opened ∧ (cplOf s tag).gen = gen ∧ !(cplOf s tag).damaged ∧ now s ≤ x.since + answerLimit then f s
  else ([], addSat Reg.staleCount 63 0 1 s)

-- Accesses in parts (R170)

/-- The access that a part belongs to. -/
def partFor (s : State) (id : Nat) : Option Part := (s.rma.parts.find? (fun p => p.1 == id)).map (·.2)

/-- What waits for an access: of a part, what waits for the whole. -/
def replyOf (s : State) (x : Access) : Reply :=
  match x.reply with
  | .part id _ => (match partFor s id with | some p => p.acc.reply | none => .none)
  | r => r

/-- The record of an access in parts replaced. -/
def putPart (id : Nat) (p : Part) (s : State) : State :=
  { s with rma := { s.rma with parts := s.rma.parts.map (fun q => if q.1 = id then (id, p) else q) } }

/-- The record of an access in parts dropped. -/
def dropPart (id : Nat) (s : State) : State :=
  { s with rma := { s.rma with parts := s.rma.parts.filter (fun q => q.1 != id) } }

/-- An access in parts after one of them, `lo` bytes into it, is answered. -/
def Part.join (p : Part) (lo n status : Nat) (bs : List Byte) (poison : Bool) : Part :=
  { p with left := p.left - n, data := bs.zipIdx.foldl (fun m b => mset 0 m (lo + b.2) b.1) p.data,
           status := if p.status = 0 then status else p.status, poison := p.poison || poison }

/-- The data of an access in parts. -/
def Part.bytes (p : Part) : List Byte :=
  if p.acc.op = .read then (List.range p.acc.len).map (fun i => mget 0 p.data i) else []

-- Acknowledgements of puts (R191)

/-- Sends the ACK that an acknowledgement record owes. -/
def sendAck (a : AckDue) (s : State) : State :=
  inject { dst := a.dev, opcode := 0x61, gen := a.gen, tag := a.tag, tenant := a.tenant, len4 := 2,
           status := a.err, payload := countBytes a.unackedBytes } s

/-- Whether an acknowledgement record is of a put. -/
def AckDue.isFor (a : AckDue) (p : Packet) : Bool := a.dev == p.src && a.tag == p.tag && a.gen == p.gen

/-- The record of a put, new where there is none. -/
def ackOf (s : State) (p : Packet) : AckDue :=
  (s.rma.ackDue.find? (fun a => a.isFor p)).getD { dev := p.src, tag := p.tag, gen := p.gen, tenant := p.tenant }

/-- A segment of a put was performed or refused (R191): an ACK goes after 64 segments or after the last of all. -/
def putPerformed (p : Packet) (status : Nat) (s : State) : State :=
  let a := ackOf s p
  let a : AckDue := { a with
    segs := a.segs + 1, unackedSegs := a.unackedSegs + 1, unackedBytes := a.unackedBytes + p.payload.length,
    lastSeg := if p.last then some p.seg else a.lastSeg,
    err := if a.err = 0 then status else a.err,
    since := if a.unackedSegs = 0 then now s else a.since }
  let others := s.rma.ackDue.filter (fun b => !b.isFor p)
  let whole := match a.lastSeg with | some k => decide (k < a.segs) | none => false
  if whole then sendAck a { s with rma := { s.rma with ackDue := others } }
  else if 64 ≤ a.unackedSegs then
    sendAck a { s with rma := { s.rma with
      ackDue := others ++ [{ a with unackedSegs := 0, unackedBytes := 0, err := 0 }] } }
  else { s with rma := { s.rma with ackDue := others ++ [a] } }

/-- ACK_FLUSH_TIMEOUT (R191): a round has passed since the oldest unacknowledged segment was performed. -/
def execAckFlushTimeout (dev tag : Nat) (s : State) : Host.Outcome State Fault Refusal :=
  ok (match s.rma.ackDue.find? (fun a => a.dev == dev && a.tag == tag && a.unackedSegs != 0) with
    | none => s
    | some a =>
      s |> clockTo (a.since + 1024) |> (fun s => { s with rma := { s.rma with ackDue := s.rma.ackDue.map (fun b =>
          if b = a then { b with unackedSegs := 0, unackedBytes := 0, err := 0 } else b) } })
        |> sendAck a)

/-- A response to a request packet (R191, R196, R206): data of a read or an atomic, a byte count of a write. A pitch
write that arrived on time is not answered. -/
def respondTo (req : Packet) (status : Nat) (data : List Byte) (s : State) : State :=
  if req.opcode = 0x20 then putPerformed req status s
  else if req.opcode = 1 then respond req 0x60 status (if status = stOk then data else []) false s
  else if 0x10 ≤ req.opcode ∧ req.opcode ≤ 0x16 then
    respond req 0x62 status (if status = stOk then data else []) false s
  else if req.opcode = 0x30 then
    (if req.late then respond req 0x61 status (countBytes req.payload.length) true s else s)
  else respond req 0x61 status (countBytes req.payload.length) false s

-- Sinks of own operations (R198)

/-- Instruction words of an image at an offset (R72, R98). -/
def putImage (leader off : Nat) (bs : List Byte) (s : State) : State :=
  onTl leader (fun x => { x with imem :=
    (bytesWords (bs.length / 8) bs).zipIdx.foldl (fun m w => mset 0 m (off / 8 + w.2) w.1) x.imem }) s

/-- Bytes kept in an entry's buffer. -/
def putBuf (tag off : Nat) (bs : List Byte) (s : State) : State :=
  let e := cplOf s tag
  setCpl tag { e with buf := bs.zipIdx.foldl (fun m b => mset 0 m (off + b.2) b.1) e.buf } s

-- The ordinary network, sender (R344)

/-- A flow's record, and its change. -/
def flowOf (s : State) (f : Nat) : EthFlow := mget {} s.host.flows f
/-- See `flowOf`. -/
def onFlow (f : Nat) (g : EthFlow → EthFlow) (s : State) : State :=
  { s with host := { s.host with flows := mset {} s.host.flows f (g (flowOf s f)) } }

/-- Word `w` of a flow entry (R349). -/
def flowWord (s : State) (f w : Nat) : Word := rd s (Reg.ethFlow f w)

/-- The Ethernet port of a flow. -/
def flowPort (s : State) (f : Nat) : Nat := rdF s (Reg.ethFlow f 2) 62 62

/-- Sends a DATA packet of a flow (R20, R344); nothing leaves while the transport is off or has no power. -/
def ethData (f : Nat) (x : Nat × Nat × List Byte) (s : State) : State :=
  if rdB s Reg.ethCtrl 63 && hostPowered s then
    emit (.eth (flowPort s f) (fld (flowWord s f 3) 55 40) 1 x.1 (flowOf s f).rxSeq x.2.1 x.2.2) s
  else s

/-- Cuts the bytes of an ETH_SEND into payloads of at most 8,192 bytes (R344). -/
def ethPieces (bs : List Byte) : List (Nat × List Byte) :=
  (List.range (ceilDiv bs.length 8192)).map (fun k => (8192 * k, (bs.drop (8192 * k)).take 8192))

/-- Every byte of an ETH_SEND has been read: its packets are numbered and sent (R344). -/
def ethBegin (tag n : Nat) (s : State) : State :=
  let f := (cplOf s tag).items
  let buf := (cplOf s tag).buf
  let k := (flowOf s f).txSeq
  let l := (ethPieces ((List.range n).map (fun i => mget 0 buf i))).zipIdx.map (fun p =>
    ((k + p.2) % 2 ^ 32, p.1.1, p.1.2))
  let s := onFlow f (fun x => { x with txSeq := (k + l.length) % 2 ^ 32, unacked := x.unacked ++ l, sentAt := now s }) s
  l.foldl (fun s x => ethData f x s) s

/-- Bytes of an operation's copy: an ETH_SEND expects each byte twice, read and acknowledged (R344). -/
def copySize (e : Cpl) : Nat := if e.kind = .eth then e.expect / 2 else e.expect

/-- The packets of an ETH_SEND leave once all its bytes have been read; an error among them ends it. -/
def ethReady (tag : Nat) (s : State) : State :=
  let e := cplOf s tag
  if e.kind = .eth ∧ e.st = .opened ∧ e.got = copySize e then
    (if e.firstErr = 0 then ethBegin tag e.got s else concludeTag tag false s)
  else s

/-- Data of an own operation arrives at an offset of it with a status: it goes to the operation's sink. A sink in the
tile's SRAM is reached by an access that presents the tile (R192). -/
def deliver (tag off n status : Nat) (bs : List Byte) (poison late : Bool) (s : State) : List Access × State :=
  let e := cplOf s tag
  if e.st ≠ .opened then ([], s)
  else if isError status then ([], s |> progress tag n status late |> ethReady tag)
  else
    match e.sink with
    | .sram t o =>
      ([{ op := .write, addr := sramAddr t (o + off), len := n, data := bs, poison := poison, agent := t,
          tenant := e.tenant, since := now s, reply := .tag tag e.gen }],
       if poison then noteError tag stPoisoned s else s)
    | .reg t d => ([], s |> onTl t (setG d (leWord bs)) |> cvuCover tag off bs poison |> progress tag n status late)
    | .job l => ([], s |> putImage l off bs |> progress tag n (if poison then stPoisoned else status) late)
    | .queue _ _ =>
      if e.kind = .dmaOut then
        ([], s |> emit (.hostWrite ((e.targets.headD (0, 0)).2 + off) bs) |> cvuCover tag off bs poison
          |> progress tag n (if poison then stPoisoned else status) late)
      else
        ([], s |> putBuf tag off bs |> cvuCover tag off bs poison
          |> progress tag n (if poison then stPoisoned else status) late |> ethReady tag)
    | _ => ([], progress tag n status late s)

/-- Whether an operation's channel covers bytes as they are written at their destination (R317, R338). -/
def coversLanding (k : CplKind) : Bool := k == .load || k == .get || k == .desc || k == .dmaIn

/-- The start of the destination of an own operation's local writes. -/
def landingBase (e : Cpl) : Nat := match e.sink with | .sram t o => sramAddr t o | _ => e.base

/-- An own access is answered (R189): data goes to its sink, a store advances its operation. -/
def answerOwn (tag : Nat) (x : Access) (status : Nat) (data : List Byte) (poison : Bool) (s : State) :
    List Access × State :=
  let e := cplOf s tag
  match x.op with
  | .write =>
    let s := if coversLanding e.kind && !isError status && decide (e.st = .opened) then
        cvuCover tag (x.addr - landingBase e) x.data x.poison s
      else s
    ([], progress tag x.len status false s)
  | _ =>
    if poison && e.kind == .load then ([], progress tag x.len stPoisoned false s)
    else deliver tag (x.addr - e.base) x.len status data poison false s

-- Copies (R190–R193)

/-- The CRC of a twinned packet: its header with SRC_DEVICE 0, then its payload (R417). -/
def twinCrc (p : Packet) : Nat := let k := crcPreset 1; crcOut k (crcRun k k.init (packetBytes { p with src := 0 }))

/-- A packet as its source injects it: source, epoch and channel filled in (R195, R268, R273). -/
def stamped (s : State) (p : Packet) : Packet :=
  { p with src := ownDev s, epoch := injectEpoch s, vc := if isPitchOp p.opcode then 0 else beforeVc p,
           heldFrom := now s }

/-- Gives a twinned packet its number and takes it into the digest (R415, R417). -/
def numberTwin (tag : Nat) (p : Packet) (s : State) : Packet × State :=
  let n := mget 0 s.twin.txSeq p.dst
  let p := { p with twin := true, twinSeq := n % 4096 }
  let known := s.twin.openSeqs.any (fun o => o.1 == p.dst && o.2.2 == tag)
  (p, onTwin (fun x => { x with
    txSeq := mset 0 x.txSeq p.dst (n + 1), digest := x.digest ^^^ BitVec.ofNat 32 (twinCrc (stamped s p)),
    openSeqs := if known then x.openSeqs else x.openSeqs ++ [(p.dst, n, tag)] }) s)

/-- Whether an entry's packets are twinned: a tile of the twinned tenant issued it (R415). -/
def entryTwinned (s : State) (e : Cpl) : Bool := e.tile.isSome && isTwinned s e.tenant

/-- Sends a packet of an own operation. A unit that does not inject twinned packets sends none of them (R413, R421). -/
def sendOwn (tag : Nat) (twins : Bool) (p : Packet) (s : State) : State :=
  let e := cplOf s tag
  let p := { p with gen := e.gen, tag := tag, tenant := e.tenant }
  if twins && entryTwinned s e then
    if injectsTwin s then
      let r := numberTwin tag p s
      inject r.1 (setCpl tag { e with sent := true } r.2)
    else s
  else inject p (setCpl tag { e with sent := true } s)

/-- Puts a branch of a pitch packet of this device into the pitch buffer of its port for tick `tick`; where the port is
suspended by now, or its buffer is full, it goes on late (R52, R54). -/
def stageBranch (tag tick : Nat) (b : Nat × Packet) (s : State) : State :=
  if pitchTakes s b.1 b.2 then
    { s with net := { s.net with staged := s.net.staged ++
      [{ port := b.1, pkt := b.2, tick := tick, stagedAt := now s, tag := tag }] } }
  else lateForward b.1 none b.2 s

/-- Stages a pitch store in the pitch buffers of the ports of its slot, one packet for each branch (R50–R52): `targets` are
devices with their ports. A copy for this device waits for the slot with the others. -/
def stagePitch (tag dst : Nat) (poison : Bool) (bs : List Byte) (s : State) : State :=
  let e := cplOf s tag
  let twins := entryTwinned s e
  if twins && !injectsTwin s then s
  else
    let r := e.targets.foldl (fun (a : List (Nat × Packet) × State) t =>
      let p : Packet := { dst := t.1, opcode := 0x30, gen := e.gen, tag := tag, tenant := e.tenant,
                          len4 := bs.length / 4, addr := dst, resId := e.resId, schedVer := e.schedVer,
                          poison := poison, payload := bs }
      let q := if twins then numberTwin tag p a.2 else (p, a.2)
      (a.1 ++ [(t.2, stamped s q.1)], q.2)) ([], setCpl tag { e with sent := true } s)
    (joinBy r.1).foldl (fun s b => stageBranch tag e.slotTick b s) r.2

/-- Sends a segment of a put, or a store, to every device of the operation's targets (R24, R191). -/
def sendPut (tag dst seg : Nat) (last poison : Bool) (bs : List Byte) (s : State) : State :=
  let e := cplOf s tag
  if e.kind = .pitch then stagePitch tag dst poison bs s
  else
    e.targets.foldl (fun s t => sendOwn tag true
      { dst := t.1, opcode := if e.kind = .store then 2 else 0x20, len4 := bs.length / 4, addr := dst, seg := seg,
        last := last, poison := poison, payload := bs } s) s

/-- A segment that a put read at its source is sent, or fails (R191, R193, R194). -/
def answerPutSeg (tag dst seg : Nat) (last : Bool) (n status : Nat) (data : List Byte) (poison : Bool) (s : State) :
    State :=
  let e := cplOf s tag
  if isError status then progress tag (n * e.targets.length) status false s
  else
    s |> (if poison then noteError tag stPoisoned else id)
      |> (if e.kind = .store ∨ e.kind = .put then cvuCover tag (dst - e.base) data poison else id)
      |> sendPut tag dst seg last poison data

/-- An entry of a submission ring arrives, or its read failed (R336, R347). -/
def entryFetched (q idx status : Nat) (data : List Byte) (s : State) : State :=
  if !qEnabled s q then s
  else if isError status then stopQueue q 2 s
  else onHq q (fun x => { x with reading := false, fetched := x.fetched ++ [{ idx := idx, words := bytesWords 8 data }] }) s

/-- The replies to an own operation that has taken entry `tag`. -/
def ownReply (s : State) (tag : Nat) : Reply := .tag tag (cplOf s tag).gen

/-- An engine's access for the instance of a tag is answered (R284): the instance goes on with it at its next step. -/
def engineAnswered (tag : Nat) (x : Access) (status : Nat) (data : List Byte) (poison : Bool) (s : State) : State :=
  let io : EngineIo := { made := true, status := some status, data := data, poison := poison }
  { s with coll := { s.coll with insts := s.coll.insts.map (fun i =>
      if i.sub ≠ 6 ∧ i.tag = tag then (if x.op = .read then { i with input := io } else { i with output := io })
      else i) } }

/-- Answers a whole access: the accesses that follow from it, and the state. -/
def answerWhole (x : Access) (status : Nat) (data : List Byte) (poison : Bool) (s : State) : List Access × State :=
  match x.reply with
  | .none => ([], s)
  | .packet req =>
    ([], inTime x (respondTo req (if poison && !isError status then stPoisoned else status) data) s)
  | .tag tag gen => ifCurrent x tag gen (answerOwn tag x status data poison) s
  | .getSeg req dst seg last =>
    ([], inTime x (fun s => inject
      { dst := req.src, opcode := 0x64, gen := req.gen, tag := req.tag, tenant := req.tenant,
        len4 := if isError status then 0 else data.length / 4, addr := dst, seg := seg, last := last,
        poison := poison && !isError status, status := status, payload := if isError status then [] else data } s) s)
  | .putSeg tag gen dst seg last =>
    ifCurrent x tag gen (fun s => ([], answerPutSeg tag dst seg last x.len status data poison s)) s
  | .bar id =>
    let s := if isError status && status != stPoisoned then countRefused s else s
    if s.host.barReads.any (fun r => r.id == id) then
      ([], emit (.hostAnswer id status (if isError status then [] else data) poison)
        { s with host := { s.host with barReads := s.host.barReads.filter (fun r => r.id != id) } })
    else ([], s)
  | .copyTo tag gen dst => ifCurrent x tag gen (fun s =>
      if isError status then ([], progress tag x.len status false s)
      else
        let e := cplOf s tag
        ([{ x with op := .write, addr := dst, data := data, poison := poison, share := false, reply := .tag tag gen }],
         s |> (if poison then noteError tag stPoisoned else id)
           |> (if e.kind = .store ∨ e.kind = .put then cvuCover tag (dst - e.base) data poison else id))) s
  | .hostOut tag gen addr => ifCurrent x tag gen (fun s =>
      if isError status then ([], progress tag x.len status false s)
      else ([], s |> emit (.hostWrite addr data) |> cvuCover tag (x.addr - (cplOf s tag).base) data poison
        |> progress tag x.len (if poison then stPoisoned else stOk) false)) s
  | .entry q idx => ([], entryFetched q idx (if poison then stPoisoned else status) data s)
  | .part _ _ => ([], s)
  | .coll tag gen => ifCurrent x tag gen (fun s => ([], engineAnswered tag x status data poison s)) s

/-- Answers an access. A part joins the others; with the last of them the whole is answered (R170). -/
def answer (x : Access) (status : Nat) (data : List Byte) (poison : Bool) (s : State) : List Access × State :=
  match x.reply with
  | .part id lo =>
    (match partFor s id with
     | none => ([], s)
     | some p =>
       let q := p.join lo x.len status data poison
       if q.left = 0 then answerWhole q.acc q.status q.bytes q.poison (dropPart id s) else ([], putPart id q s))
  | _ => answerWhole x status data poison s

/-- An access that is refused while it waits: nothing follows from it. -/
def answerRefused (x : Access) (status : Nat) (s : State) : State := (answer x status [] false s).2

end Sys2Proof.Machine
end

