-- ==== Sys2Proof/Machine/Faults.lean ====
section
/-! DEFINITION. Conditions and the clearing of faults (R385, R389, R390), the abort of a tenant and its flood
(R392–R394), fences and drains (R396, R397), reactions (R391), hangs, inputs and the management view (R401–R404). -/

namespace Sys2Proof.Machine

-- Conditions (R385)

/-- Whether port `n` shows what LINK_n reports (R385). -/
def linkCondition (s : State) (n : Nat) : Bool :=
  let st := portState s n
  let w := rdF s (Reg.portStatus n) 13 12
  (prt s n).qualified && (bondOf s n).isSome
    && ((st == 1 && rdF s (Reg.portStatus n) 11 8 != 3) || st == 6 || (st == 4 && (w == 1 || w == 2)))

/-- Stacks of the assembly. -/
def stacks_ (s : State) : List (Nat × Nat) :=
  (List.range 4).flatMap (fun p => (List.range s.boot.stackCount).map (fun i => (p, i)))

/-- Whether the condition of a source is still present (R385). -/
def faultPresent (s : State) (src : Nat) : Bool :=
  if src = 16 then (stacks_ s).any (fun k => stackState s k.1 k.2 == 6)
  else if src = 17 then (stacks_ s).any (fun k => stackState s k.1 k.2 == 5)
  else if src = 18 then s.pwr.tripped
  else if src = 21 then timeState s == 5
  else if src = 25 then s.pwr.floor
  else if src = 30 then rd s Reg.disagree != 0
  else if 32 ≤ src ∧ src < 64 then linkCondition s (src - 32)
  else s.flt.present.contains src

/-- Notes that the condition of a source holds, or holds no more. -/
def setPresent (src : Nat) (b : Bool) (s : State) : State :=
  let others := s.flt.present.filter (fun x => x != src)
  { s with flt := { s.flt with present := if b then others ++ [src] else others } }

/-- LINK_n looked at again after its port changed (R385). -/
def checkLink (n : Nat) (tenants : List Nat) (s : State) : State :=
  if linkCondition s n then recordControl (32 + n) true none tenants s else s

/-- A W1C write of FAULT.STATUS: a bit whose condition is present is set again without a reaction (R389). -/
def clearStatus (v : Word) (s : State) : State :=
  wrReg Reg.faultStatus (rd s Reg.faultStatus
    &&& ~~~ (v &&& ~~~ wd (maskOf ((List.range 64).filter (fun i => faultPresent s i))))) s

/-- A write of FAULT.STATUS (R389, R407). -/
def faultStatusWrite (who : Writer) (v : Word) (s : State) : Nat × State :=
  withRoleDo .operator who Reg.faultStatus (clearStatus v) s

/-- FAULT_STATUS_CLEAR (R389). -/
def execFaultStatusClear (who : Writer) (v : Word) (s : State) : Host.Outcome State Fault Refusal :=
  ok (answered who Reg.faultStatus (faultStatusWrite who v s))

/-- A W1C write of VALID of a capture or of FIRST_SOURCE also clears OVERFLOW and COUNT (R389). -/
def captureClear (who : Writer) (a : Nat) (v : Word) (s : State) : Nat × State :=
  withRoleDo .operator who a (fun s =>
    if !bit v 63 then s
    else if a = Reg.firstSource then wrF a 63 62 0 s
    else s |> wrF a 63 62 0 |> wrF (a + 16) 63 48 0) s

-- Forced occurrences (R390)

/-- Sources that exist (R385). -/
def sourceExists (src : Nat) : Bool := decide (src ≤ 6 ∨ (16 ≤ src ∧ src ≠ 31 ∧ src < 64))

/-- One forced occurrence of a source (R390). With FORCE_LIMIT it runs only LOG and INTERRUPT. -/
def forceOne (who : Writer) (src : Nat) (s : State) : State :=
  if !sourceExists src then s
  else
    let n := s.flt.reactions.length
    let s := if src ≤ 6 then
        recordData src { dev := writerDev s who, agent := (writerAgent s who).1, tenant := (writerAgent s who).2,
                         access := 15 } none s
      else recordControl src false none [] s
    let lim := rdB s Reg.faultCtrl 63
    { s with flt := { s.flt with reactions := s.flt.reactions.zipIdx.map (fun r =>
        if n ≤ r.2 then { r.1 with limited := lim } else r.1) } }

/-- A write of FAULT.FORCE (R390, R407). -/
def faultForceWrite (who : Writer) (v : Word) (s : State) : Nat × State :=
  withRoleDo .operator who Reg.faultForce (fun s => (maskBits v.toNat 64).foldl (fun s i => forceOne who i s) s) s

/-- FAULT_FORCE (R390). -/
def execFaultForce (who : Writer) (v : Word) (s : State) : Host.Outcome State Fault Refusal :=
  ok (answered who Reg.faultForce (faultForceWrite who v s))

-- The abort of a tenant (R394)

/-- Whether a packet that waits at the router is an operation of this device not yet injected (R394). -/
def notInjected (s : State) (tenant : Nat) (e : Option Nat × Packet) : Bool :=
  e.1 == none && e.2.src == ownDev s && isRequest e.2.opcode && e.2.tenant == tenant

/-- Discards the operations of a tenant that have not been injected, and completes each with JOB_ABORTED (R394). An
operation none of whose packets left holds no quarantine (R198). -/
def dropUninjected (tenant : Nat) (s : State) : State :=
  let gone := (s.net.routerQ.filter (notInjected s tenant)).map (·.2)
  let s := { s with net := { s.net with routerQ := s.net.routerQ.filter (fun e => !notInjected s tenant e) } }
  ((gone.map (·.tag)).eraseDups).foldl (fun s tag =>
    let mine := gone.filter (fun p => p.tag == tag)
    let e := cplOf s tag
    let all := match e.kind with
      | .put => decide (e.expect ≤ (mine.map (fun p => p.payload.length)).foldl (fun a b => a + b) 0)
      | .dmaIn => decide (e.expect ≤ (mine.map (fun p => p.payload.length)).foldl (fun a b => a + b) 0)
      | _ => true
    s |> setCpl tag { e with sent := e.sent && !all } |> failTag tag stJobAborted false) s

/-- Fabric operations of a tenant of which no packet has been made yet, since their data is still being read: discarded
before injection, each completes with JOB_ABORTED (R394). A pitch operation counts as injected. -/
def dropUnsent (tenant : Nat) (s : State) : State :=
  let waiting (e : Cpl) : Bool :=
    e.st == .opened && e.tenant == tenant && !e.sent && e.targets != []
      && (match e.kind with | .pitch | .coll | .dmaOut | .eth => false | _ => true)
  ((s.cpl.filter (fun kv => waiting kv.2)).map (·.1)).foldl (fun s tag => failTag tag stJobAborted false s) s

/-- Stream descriptors of a tenant's tiles that wait in their queues complete with JOB_ABORTED (R394). -/
def dropStreams (tenant : Nat) (s : State) : State :=
  ((s.tiles.map (·.1)).filter (fun t => tileTenant s t == tenant)).foldl (fun s t =>
    onTl t (fun x => { x with
      slotQ := [],
      slotStatus := x.slotQ.foldl (fun m i => mset 0 m i (statusWord stJobAborted 0 false false false)) x.slotStatus }) s) s

/-- Fetched entries of a tenant that have not started: jobs complete with ABORTED, descriptors with JOB_ABORTED
(R394). -/
def dropEntries (tenant : Nat) (s : State) : State :=
  ((enabledQueues s).filter (fun q => qTenant s q == tenant)).foldl (fun s q =>
    let l := (hq s q).fetched
    let st := if qKind s q = 0 then stAborted else stJobAborted
    let s := onHq q (fun x => { x with fetched := [] }) s
    l.foldl (fun s e => pushRecord q e.idx (statusWord st 0 false false false) 0 s) s) s

/-- Aborts a tenant on this device (R394). -/
def abortTenant (tenant : Nat) (s : State) : State :=
  let s := (tenantJobs s tenant).foldl (fun s l => abortGang l s) s
  let s := s |> dropEntries tenant |> dropStreams tenant |> dropUninjected tenant |> dropUnsent tenant
  s |> endInsts (fun i => i.tenant == tenant && i.sub != 6) stJobAborted |> failGroupBars tenant

-- The flood (R392, R393)

/-- Payload of a JOB_ABORT packet (R393). -/
def floodBytes (origin seq hops group tenant time : Nat) : List Byte :=
  leBytes 8 (origin % 2 ^ 14 * 2 ^ 50 + seq % 2 ^ 16 * 2 ^ 34 + hops % 64 * 2 ^ 28 + group % 4096 * 2 ^ 16 + tenant % 256)
    ++ leBytes 8 time

/-- One UP member of each bond but one (R269, R393). -/
def floodPorts (s : State) (except : Option Nat) : List Nat :=
  ((List.range 12).filter (fun b => some b != except)).filterMap (fun b =>
    (bondPorts s b).find? (fun n => portState s n == 4))

/-- Sends a management packet to the neighbour of a port, through its bond (R269, R270). -/
def sendVc7 (n op : Nat) (payload : List Byte) (s : State) : State :=
  let p : Packet := { dst := rdF s (Reg.neighbour n) 13 0, src := ownDev s, vc := 7, epoch := injectEpoch s, opcode := op,
                      len4 := payload.length / 4, payload := payload }
  match bondOf s n with
  | some b => onBnd b (fun x => { x with queue := x.queue ++ [(32, p)] }) s
  | none => s

/-- Sends one copy of a flood on one port of every bond but one. -/
def sendFlood (except : Option Nat) (payload : List Byte) (s : State) : State :=
  (floodPorts s except).foldl (fun s n => sendVc7 n 0x72 payload s) s

/-- The last 64 floods seen (R393). -/
def seeFlood (origin seq : Nat) (s : State) : State :=
  let l := s.flt.seen ++ [(origin, seq)]
  { s with flt := { s.flt with seen := l.drop (l.length - 64) } }

/-- ABORT_STATUS names the last flood originated or acted on; events that stand in it stay (R410). -/
def noteFlood (origin seq group tenant event : Nat) (s : State) : State :=
  wrReg Reg.abortStatus (wd (origin % 2 ^ 14 * 2 ^ 50 + seq % 2 ^ 16 * 2 ^ 34 + group % 4096 * 2 ^ 22
    + tenant % 256 * 2 ^ 14) ||| wd (rdF s Reg.abortStatus 1 0) ||| wd event) s

/-- Originates the flood of a tenant whose ABORT_GROUP is valid (R392, R393). -/
def originate (tenant : Nat) (s : State) : State :=
  let g := rd s (Reg.abortGroup tenant)
  if !bit g 63 then s
  else
    let seq := (s.flt.floodSeq + 1) % 65536
    let s := { s with flt := { s.flt with floodSeq := seq } }
    s |> seeFlood (ownDev s) seq |> noteFlood (ownDev s) seq (fld g 11 0) tenant 2
      |> sendFlood none (floodBytes (ownDev s) seq 63 (fld g 11 0) tenant (now s))

/-- JOB_ABORT for a tenant: aborted here, and flooded (R392). -/
def abortAndFlood (tenant : Nat) (s : State) : State := s |> abortTenant tenant |> originate tenant

/-- A write of FAULT.ABORT_CTRL (R392). -/
def abortCtrlWrite (who : Writer) (v : Word) (s : State) : Nat × State :=
  withRoleDo .operator who Reg.abortCtrl (fun s =>
    let s := wrReg Reg.abortCtrl (wd (fld v 7 0)) s
    if bit v 63 then abortAndFlood (fld v 7 0) s else s) s

/-- ABORT_GO (R392). -/
def execAbortGo (who : Writer) (v : Word) (s : State) : Host.Outcome State Fault Refusal :=
  ok (answered who Reg.abortCtrl (abortCtrlWrite who (setBit v 63 true) s))

/-- A flood that arrives on a port (R393). -/
def floodArrives (n : Nat) (p : Packet) (s : State) : State :=
  let w := leWord (p.payload.take 8)
  let time := leNat ((p.payload.drop 8).take 8)
  let origin := fld w 63 50
  let seq := fld w 49 34
  let hops := fld w 33 28
  let tenant := fld w 7 0
  if s.flt.seen.contains (origin, seq) ∨ time + 1600000 < now s then s
  else
    let s := seeFlood origin seq s
    let g := groupOf s (fld w 27 16)
    let s := if g.valid && g.tenant == tenant then
        s |> abortTenant tenant |> noteFlood origin seq (fld w 27 16) tenant 1
      else s
    if hops = 0 then s else sendFlood (bondOf s n) (floodBytes origin seq (hops - 1) (fld w 27 16) tenant time) s

/-- JOB_ABORT (R393). -/
def execJobAbort (n : Nat) (p : Packet) (s : State) : Host.Outcome State Fault Refusal :=
  ok (if p.opcode = 0x72 ∧ p.payload.length = 16 ∧ portState s n = 4 then floodArrives n p s else s)

-- Fences (R396, R397)

/-- The partition of an entry's tile. -/
def entryIn (p : Nat) (e : Cpl) : Bool := match e.tile with | some t => t / 128 == p | none => false

/-- Whether a gang has a member in a partition. -/
def gangIn (s : State) (p l : Nat) : Bool := (membersOf s l).any (fun m => m / 128 == p)

/-- Abandons the handovers of a partition's banks: the reset owner applies (R154, R158). -/
def abandonHandovers (p : Nat) (s : State) : State :=
  (List.range 128).foldl (fun s i => (List.range 16).foldl (fun s b =>
    let t := p * 128 + i
    if handoverPending s t b then
      s |> wrB (Reg.bankStatus t b) 2 false |> wrB (Reg.bankStatus t b) 0 false |> wrReg (Reg.bankOwner t b) 0x03000000
        |> onBank (16 * t + b) (fun x => { x with later := [] })
    else s) s) s

/-- Abandons the retrains of a partition's stacks; they need a full retrain (R182). -/
def abandonRetrains (p : Nat) (s : State) : State :=
  (List.range s.boot.stackCount).foldl (fun s i =>
    let s := if stackState s p i = 4 then setStackState p i 2 s else s
    s |> wrB (Reg.hbmStatus p i) 19 false |> onStk p i (fun k => { k with wait := none, run := none, attempt := 0 })) s

/-- Stops every queue with a ring in a partition's slice (R396). -/
def stopSliceQueues (p : Nat) (s : State) : State :=
  ((s.host.queues.map (·.1)).filter (fun q =>
    (qSqDevice s q && decide ((rd s (Reg.sqBase q)).toNat / 0x1800000000 = p))
      || (qCqDevice s q && decide ((rd s (Reg.cqBase q)).toNat / 0x1800000000 = p)))).foldl
    (fun s q => stopQueue q 2 s) s

/-- Channels that run for tiles of a partition end in error (R325). -/
def stopChannels (p : Nat) (s : State) : State :=
  (s.cvu.map (·.1)).foldl (fun s c =>
    match (cvuOf s c).tag with
    | some tag => if cvuState s c == 1 && entryIn p (cplOf s tag) then cvuError c s else s
    | none => s) s

/-- A fence of a partition begins (R396); `cause` as in R410. -/
def startFence (p cause : Nat) (s : State) : State :=
  if fenceState s p ≠ 0 then s
  else
    let mine := s.host.jobs.filter (fun j => gangIn s p j.leader)
    let s := s |> wrF Reg.fenceStatus (16 * p + 15) (16 * p) (cause * 16 + 1)
      |> (fun s => { s with flt := { s.flt with
            fenceAt := mset 0 s.flt.fenceAt p (now s),
            resetTenants := mset [] s.flt.resetTenants p ((mine.map (·.tenant)).eraseDups) } })
    let s := mine.foldl (fun s j => abortGang j.leader s) s
    s |> stopSliceQueues p |> stopChannels p |> abandonHandovers p |> abandonRetrains p
      |> endInsts (fun i => i.sub != 6 && gangIn s p (leaderOf s i.tile)) stFenced

/-- Whether a waiting access is held in a partition. -/
def heldIn (p : Nat) (x : Access) : Bool := partOf x.addr == some p

/-- Whether a partition still holds an admitted access or an OPEN entry of its tiles (R397). -/
def busyPart (s : State) (p : Nat) : Bool :=
  (waitingAccesses s).any (heldIn p) || s.cpl.any (fun kv => kv.2.st == .opened && entryIn p kv.2)

/-- Domains of a partition: clusters, die-common, HBM PHYs (R378). -/
def partDomains (p : Nat) : List Nat :=
  (List.range 9).map (fun c => p * 9 + c) ++ (List.range 4).map (fun i => 36 + p * 4 + i)

/-- Switches domains off; what they wait for goes with them. -/
def domainsOff (l : List Nat) (s : State) : State :=
  let s := clrReg Reg.domainStatus (maskOf l) s
  { s with pwr := { s.pwr with waitOn := s.pwr.waitOn.filter (fun d => !l.contains d) } }

/-- PHASE of a partition's reset (R410). -/
def resetPhase (s : State) (p : Nat) : Nat := rdF s Reg.resetStatus (16 * p + 15) (16 * p + 12)

/-- Sets PHASE of a partition's reset. -/
def setPhase (p v : Nat) (s : State) : State := wrF Reg.resetStatus (16 * p + 15) (16 * p + 12) v s

/-- Sets the fence state of a partition (R410). -/
def setFence (p v : Nat) (s : State) : State := wrF Reg.fenceStatus (16 * p + 3) (16 * p) v s

/-- The stacks of a partition OFF, their queues and waits gone (R182, R398). -/
def stacksOff (p : Nat) (s : State) : State :=
  (List.range s.boot.stackCount).foldl (fun s i =>
    s |> (if stackState s p i = 0 then id else setStackState p i 1) |> wrB (Reg.hbmStatus p i) 19 false
      |> onStk p i (fun k => { k with queue := [], wait := none, run := none, selfRefresh := false, offAfter := false })) s

/-- Phase HOLD of a partition reset begins (R398): floods go out for the tenants whose jobs it ended, the domains go
off. -/
def enterHold (p : Nat) (s : State) : State :=
  let s := s |> setFence p 3 |> setPhase p 3
  let s := (mget [] s.flt.resetTenants p).foldl (fun s t => originate t s) s
  let s := { s with flt := { s.flt with resetTenants := mset [] s.flt.resetTenants p [] } }
  s |> domainsOff (partDomains p) |> stacksOff p

/-- The drain of a partition ended: FENCED, and a reset that waits for it goes on (R397, R398). -/
def drained (p : Nat) (s : State) : State :=
  let s := setFence p 2 s
  if resetPhase s p = 2 then enterHold p s else s

/-- FENCE_DRAIN_DONE (R397): the partition holds nothing any more. -/
def execFenceDrainDone (p : Nat) (s : State) : Host.Outcome State Fault Refusal :=
  ok (if p < 4 ∧ fenceState s p = 1 ∧ !busyPart s p then drained p s else s)

/-- An OPEN entry of a fenced tile completes with FENCED and enters quarantine (R397). -/
def fenceTag (tag : Nat) (s : State) : State :=
  let s := failTag tag stFenced false s
  let e := cplOf s tag
  if e.st = .done ∨ e.st = .free then setCpl tag { e with st := .quarantine, doneAt := now s } s else s

/-- The drain limit of a partition passes (R397): what is held is answered FENCED. -/
def expireDrain (p : Nat) (s : State) : State :=
  let held := (waitingAccesses s).filter (heldIn p)
  let s := { s with
    rma := { s.rma with held := s.rma.held.filter (fun h => !heldIn p h.2) },
    banks := s.banks.map (fun kv => (kv.1, { kv.2 with entries := kv.2.entries.map (fun e =>
      match e.work with
      | .access _ _ x => if heldIn p x then { e with work := .spent } else e
      | _ => e) })),
    hbm := s.hbm.map (fun kv => (kv.1, { kv.2 with queue := kv.2.queue.filter (fun x => !heldIn p x) })) }
  let s := held.foldl (fun s x => answerRefused x stFenced s) s
  let tags := (s.cpl.filter (fun kv => kv.2.st == .opened && entryIn p kv.2)).map (·.1)
  let s := tags.foldl (fun s t => fenceTag t s) s
  s |> wrF Reg.fenceStatus (16 * p + 15) (16 * p + 8) (min 255 held.length)
    |> recordControl 29 false (some p) [] |> drained p

/-- DRAIN_EXPIRED (R397). -/
def execDrainExpired (p : Nat) (s : State) : Host.Outcome State Fault Refusal :=
  ok (if p < 4 ∧ fenceState s p = 1 then
      s |> clockTo (mget 0 s.flt.fenceAt p + rdF s Reg.fenceDrain 31 0) |> expireDrain p
    else s)

/-- A write of FAULT.FENCE_CTRL (R396, R407). -/
def fenceCtrlWrite (who : Writer) (v : Word) (s : State) : Nat × State :=
  withRoleDo .operator who Reg.fenceCtrl (fun s => (maskBits (fld v 3 0) 4).foldl (fun s p => startFence p 1 s) s) s

/-- FENCE_PARTITION (R396). -/
def execFencePartition (who : Writer) (v : Word) (s : State) : Host.Outcome State Fault Refusal :=
  ok (answered who Reg.fenceCtrl (fenceCtrlWrite who v s))

-- Reactions (R391)

/-- POISON marks the running jobs of the captured tenant (R391). -/
def poisonJobs (r : Reaction) (s : State) : State :=
  { s with host := { s.host with jobs := s.host.jobs.map (fun j =>
      if r.tenants.contains j.tenant && decide (j.st = 3)
          && (decide (512 ≤ r.agent) || (membersOf s j.leader).contains r.agent) then { j with poisoned := true }
      else j) } }

/-- HALT stops every tile and fences every partition (R391). -/
def haltAll (cause : Nat) (s : State) : State :=
  let s := s.host.jobs.foldl (fun s j => abortGang j.leader s) s
  (List.range 4).foldl (fun s p => startFence p cause s) { s with flt := { s.flt with halted := true } }

/-- The reactions that run for an occurrence: those selected and those fixed for its source (R385, R391); LOG and
INTERRUPT alone for a limited forced one (R390). -/
def reactionBits (s : State) (r : Reaction) : Nat :=
  let v := (rd s (Reg.reaction r.src)).toNat % 64
  let v := if r.src = 18 then v ||| 48
    else if r.src = 20 then (if r.part = none then v ||| 32 else v ||| 16) else v
  if r.limited then v % 4 else v

/-- INTERRUPT: the MSI-X message and a PLDM event (R391). -/
def raiseInterrupt (src : Nat) (s : State) : State :=
  s |> sendMsix 0 (rdF s Reg.faultCtrl 7 0) |> emit (.pldm src s.now)

/-- Applies the reactions of one occurrence in their order (R391). -/
def react (r : Reaction) (s : State) : State :=
  let b := reactionBits s r
  let s := if b.testBit 2 && decide (r.src ≤ 6) then poisonJobs r s else s
  let s := if b.testBit 3 then r.tenants.foldl (fun s t => abortAndFlood t s) s else s
  let s := if b.testBit 4 then
      (if r.src = 18 then (List.range 4).foldl (fun s p => startFence p 3 s) s
       else match r.part with | some p => startFence p 2 s | none => s)
    else s
  let s := if b.testBit 5 then haltAll 5 s else s
  if b.testBit 1 then raiseInterrupt r.src s else s

/-- FAULT_REACTION (R391): the reactions of the oldest occurrence that waits. -/
def execFaultReaction (s : State) : Host.Outcome State Fault Refusal :=
  ok (match s.flt.reactions with
    | [] => s
    | r :: rest => react r { s with flt := { s.flt with reactions := rest } })

-- Hangs, inputs, the management view (R401–R404)

/-- The partition of a stuck-mash node (R401, R408). -/
def nodePart (node : Nat) : Option Nat :=
  let k := node / 2 ^ 20
  let i := node % 2 ^ 20
  if k = 1 then some (i / 16 / 128 % 4) else if k = 2 then some (i / 4 % 4) else if k = 7 then some (i / 128 % 4) else none

/-- STUCK_MASH_SCAN (R401): the detector finds a stuck set, or none. -/
def execStuckMashScan (set : List Nat) (a b : Nat) (s : State) : Host.Outcome State Fault Refusal :=
  ok (if !(s.flt.smdOn && rdB s Reg.smdCtrl 63) then s
    else if set = [] then setPresent 26 false s
    else if set.any (fun n => match nodePart n with | some p => fenceState s p != 0 | none => false) then s
    else
      s |> wrReg Reg.smdStatus (wd (min 255 set.length * 2 ^ 56 + b % 2 ^ 24 * 2 ^ 24 + a % 2 ^ 24))
        |> setPresent 26 true |> recordControl 26 true (nodePart a) [])

/-- HEARTBEAT_TICK (R402). -/
def execHeartbeatTick (s : State) : Host.Outcome State Fault Refusal := ok (addWrap Reg.heartbeat 31 0 1 s)

/-- What differs from the management view (R404): partitions in bits 35–32, ports below. -/
def viewDiffers (s : State) : Nat :=
  let v := rd s Reg.mgmtView
  if !bit v 63 then 0
  else
    maskOf ((List.range 32).filter (fun n => bit v n != decide (portState s n = 4)))
      + maskOf (((List.range 4).filter (fun p => bit v (32 + p) != decide (fenceState s p = 0))).map (fun p => 32 + p))

/-- MGMT_DISAGREE (R404): the view has differed for 10 ms, or differs no more. -/
def execMgmtDisagree (s : State) : Host.Outcome State Fault Refusal :=
  ok (let d := viewDiffers s
    let s := wrReg Reg.disagree (wd d) s
    if d = 0 then s else recordControl 30 true none [] s)

end Sys2Proof.Machine
end

