-- ==== Sys2Proof/Machine/BankCtl.lean ====
section
/-! DEFINITION. The handover of a bank (R151, R155–R158, R163, R164). -/

namespace Sys2Proof.Machine

/-- Agent IDs that an owner may have (R151). -/
def agentOk (a : Nat) : Bool := decide (a < 0x204 ∨ a = 0x300 ∨ a = 0x800 ∨ a = 0xFFF)

/-- Whether a writer may hand a bank over (R155): the physical function, or an access that the owner admits. -/
def mayHand (s : State) (who : Writer) (t b : Nat) : Bool :=
  match who with
  | .path _ => true
  | _ => owns s t b (writerAgent s who).1 (writerAgent s who).2

/-- A handover write that is refused (R155, R164). -/
def refuseHandover (t b why : Nat) (s : State) : State :=
  s |> wrF (Reg.bankStatus t b) 7 4 why |> wrB (Reg.bankStatus t b) 1 true

/-- The checks of a handover write, in their order, and its acceptance (R155, R156). -/
def requestHandover (t b : Nat) (v : Word) (s : State) : State :=
  if handoverPending s t b then refuseHandover t b 1 s
  else if !agentOk (fld v 27 16) then refuseHandover t b 2 s
  else if !tenantOk s (fld v 7 0) then refuseHandover t b 3 s
  else
    s |> wrReg (Reg.bankOwnerNext t b) (wd (fld v 27 16 * 2 ^ 16 + fld v 7 0)) |> wrB (Reg.bankStatus t b) 2 true
      |> onBank (16 * t + b) Bank.holdBack

/-- A write of BANK_OWNER_NEXT (R155). -/
def bankNextWrite (who : Writer) (t b : Nat) (v : Word) (s : State) : Nat × State :=
  let a := Reg.bankOwnerNext t b
  inService a (fun s =>
    if mayHand s who t b then
      unlicensedIf .any who (fun s => !handoverPending s t b && agentOk (fld v 27 16) && !tenantOk s (fld v 7 0))
        (withRoleDo .any who a (requestHandover t b v)) s
    else (stNotOwner, violation (writeOcc s who a stNotOwner) (Reg.spaceBase + a) s)) s

/-- BANK_OWNER_NEXT_WRITE (R155). -/
def execBankOwnerNextWrite (who : Writer) (t b : Nat) (v : Word) (s : State) : Host.Outcome State Fault Refusal :=
  ok (if t < 512 ∧ b < 16 then answered who (Reg.bankOwnerNext t b) (bankNextWrite who t b v s) else s)

/-- The words that a tile's units had still to access when their bank was handed over are checked against the new owner;
where they fail, the gang halts with NOT_OWNER at the instruction that they belong to (R158). -/
def recheckUnits (t b : Nat) (s : State) : State :=
  let g := 16 * t + b
  let l := (bank s g).later
  let s := onBank g (fun x => { x with later := [] }) s
  match l with
  | [] => s
  | e :: _ =>
    if owns s t b t (tileTenant s t) then onBank g (fun x => { x with entries := x.entries ++ l }) s
    else
      let off := b * 0x20000 + e.word * 64
      s |> tileFaultAt t e.index 6
        |> violation (tileOcc s t off (!e.isRead) stNotOwner) (sramAddr t off)

/-- The new owner of a bank is installed (R156). -/
def installOwner (t b : Nat) (s : State) : State :=
  recheckUnits t b <| s |> wrReg (Reg.bankOwner t b) (rd s (Reg.bankOwnerNext t b))
    |> wrB (Reg.bankInflight t b) 8 (!rdB s (Reg.bankInflight t b) 8)
    |> wrB (Reg.bankStatus t b) 2 false |> wrB (Reg.bankStatus t b) 0 true |> addWrap (Reg.bankStatus t b) 63 48 1

end Sys2Proof.Machine
end

