-- ==== Sys2Proof/Machine/Power.lean ====
section
/-! DEFINITION. Power, droop and thermal control (R350–R384): the limits and the frequency of each partition, the cap,
calibration, slack, ballast, sensors and the trip, THROTTLE_IN_N, domains. -/

namespace Sys2Proof.Machine

-- Frequencies (R354–R358)

/-- FREQ of a partition, in 25 MHz units (R382). -/
def freqOf (s : State) (p : Nat) : Nat := rdF s Reg.powerStatus (16 * p + 7) (16 * p)

/-- Fixed-frequency mode, and the pinned frequency (R358, R382). -/
def fixedMode (s : State) : Bool := rdB s Reg.powerCtrl 0
/-- See `fixedMode`. -/
def pinned (s : State) : Nat := 48 + 8 * rdF s Reg.powerCtrl 9 8

/-- Temperature of a cluster in 1/8 °C, and its gated cycles of 16 (R384). -/
def clusterTemp (s : State) (c : Nat) : Nat := rdF s (Reg.cluster c) 27 16
/-- See `clusterTemp`. -/
def gated (s : State) (c : Nat) : Nat := rdF s (Reg.cluster c) 3 0

/-- Whether a cluster of a partition is throttled. -/
def throttled (s : State) (p : Nat) : Bool := (List.range 8).any (fun c => gated s (8 * p + c) != 0)

/-- Published slack of a partition (R362, R381). -/
def slackOf (s : State) (p : Nat) : Nat := rdF s Reg.slackAvg (12 * p + 11) (12 * p)

/-- The limits that bear on a partition, highest rank first, as LIMITER code and frequency (R356, R357, R382). A
throttled cluster gates its own clock and leaves the die's frequency alone. -/
def limitsOf (s : State) (p : Nat) : List (Nat × Nat) :=
  (if s.pwr.tripped then [(7, 16)] else [])
    ++ (if s.pwr.floor || s.pwr.capFloor then [(6, 16)] else [])
    ++ (if s.pwr.extIn then [(5, rdF s Reg.extThrottle 7 0)] else [])
    ++ (if throttled s p then [(3, 72)] else [])
    ++ (if s.pwr.warned.contains p then [(4, mget 72 s.pwr.warnLim p)] else [])
    ++ [(2, min (mget 72 s.pwr.capLim p) (Config.capLimit p (mget 0 s.pwr.share p)))]
    ++ (if fixedMode s then [(0, pinned s)]
        else [(0, rdF s Reg.powerCtrl 23 16), (1, Config.adaptiveChoice p (slackOf s p) (mget 0 s.pwr.share p))])

/-- The loop that sets a partition's frequency and that frequency, never below 0.4 GHz (R354, R357); of equal values the
higher rank is named. -/
def lowestLimit (s : State) (p : Nat) : Nat × Nat :=
  let l : List (Nat × Nat) := (limitsOf s p).map (fun x => (x.1, max 16 x.2))
  let f := l.foldl (fun a x => min a x.2) 72
  (((l.find? (fun x => x.2 = f)).getD (0, f)).1, f)

/-- LIMITER and FREQ of a partition (R357, R382). A throttled cluster is named where no loop of higher rank is. -/
def decideFreq (s : State) (p : Nat) : Nat × Nat :=
  let d := lowestLimit s p
  (if throttled s p && decide (d.1 ≠ 7 ∧ d.1 ≠ 6 ∧ d.1 ≠ 5) then 3 else d.1, d.2)

/-- A fixed-frequency breach begins or ends (R358). -/
def noteBreach (p f : Nat) (s : State) : State :=
  if fixedMode s ∧ f < pinned s then
    (if s.pwr.breach.contains p then s
     else { s with pwr := { s.pwr with breach := s.pwr.breach ++ [p] } }
       |> addSat Reg.ffBreach (16 * p + 15) (16 * p) 1 |> orReg Reg.powerEvent 1)
  else { s with pwr := { s.pwr with breach := s.pwr.breach.filter (fun x => x != p) } }

/-- A frequency step of a die (R355): the voltage leads a raise and follows a lowering. -/
def doStep (p : Nat) (s : State) : State :=
  let d := decideFreq s p
  s |> (if d.2 = freqOf s p then id else emit (.avs p (Config.voltageOf p d.2)))
    |> wrF Reg.powerStatus (16 * p + 7) (16 * p) d.2 |> wrF Reg.powerStatus (16 * p + 15) (16 * p + 12) d.1
    |> noteBreach p d.2
    |> (fun s => { s with pwr := { s.pwr with request := s.pwr.request.filter (fun x => x != p) } })

/-- A die's droop detectors have been quiet for 1 µs (R371). -/
def quiet (s : State) (p : Nat) : Bool :=
  !s.pwr.halved.any (fun h => h.1 == p) && decide (mget 0 s.pwr.quietSince p + 1600 ≤ now s ∨ mget 0 s.pwr.quietSince p = 0)

/-- Whether a step goes at once (R371): a lowering by protection or by the cap. -/
def stepsAtOnce (s : State) (p : Nat) : Bool :=
  let d := lowestLimit s p
  decide (d.2 < freqOf s p ∧ 2 ≤ d.1)

/-- A change of a die's limits: a step now, or a request that waits for quiet detectors; the latest wins (R371). -/
def stepOrWait (p : Nat) (s : State) : State :=
  if decideFreq s p = (rdF s Reg.powerStatus (16 * p + 15) (16 * p + 12), freqOf s p) then s
  else if stepsAtOnce s p || quiet s p then doStep p s
  else { s with pwr := { s.pwr with request := s.pwr.request.filter (fun x => x != p) ++ [p] } }

/-- FREQ_STEP (R355, R357, R371). -/
def execFreqStep (p : Nat) (s : State) : Host.Outcome State Fault Refusal := ok (if p < 4 then stepOrWait p s else s)

/-- FREQ_REQUEST_RELEASE (R371): the detectors have been quiet for 1 µs. -/
def execFreqRequestRelease (p : Nat) (s : State) : Host.Outcome State Fault Refusal :=
  ok (if s.pwr.request.contains p ∧ !s.pwr.halved.any (fun h => h.1 == p) then
      s |> clockTo (mget 0 s.pwr.quietSince p + 1600) |> doStep p
    else s)

/-- Sets the gated cycles of a cluster (R372). -/
def setGate (c k : Nat) (s : State) : State :=
  if gated s c = k then s else s |> wrF (Reg.cluster c) 3 0 k |> emit (.gate c k)

/-- Every die's limits looked at again. -/
def stepAll (s : State) : State := (List.range 4).foldl (fun s p => stepOrWait p s) s

-- Ballast that protection stops (R366)

/-- Whether protection stops a tile's ballast (R356, R366, R376, R377): the floor, the trip, THROTTLE_IN_N, a regulator
warning or a droop of its die, a throttled cluster. -/
def ballastStopped (s : State) (t : Nat) : Bool :=
  s.pwr.extIn || s.pwr.floor || s.pwr.capFloor || s.pwr.tripped || s.pwr.warned.contains (t / 128)
    || s.pwr.halved.any (fun h => h.1 == t / 128) || gated s (t / 16) != 0

/-- The ballast of every tile that protection stops ends at once (R366). -/
def stopBallast (s : State) : State :=
  (s.tiles.map (·.1)).foldl (fun s t =>
    if ballastStopped s t then onTl t (fun x => { x with ballast := 0 }) s else s) s

-- Droop (R370)

/-- DROOP_TRIP (R370): the die's clock is halved; a stretch is counted (R358). -/
def execDroopTrip (p c : Nat) (s : State) : Host.Outcome State Fault Refusal :=
  ok (if p < 4 ∧ c < 8 ∧ !s.pwr.halved.any (fun h => h.1 == p && h.2.1 == c) then
      let first := !s.pwr.halved.any (fun h => h.1 == p)
      let s := { s with pwr := { s.pwr with halved := s.pwr.halved ++ [(p, c, now s)] } }
      stopBallast (if first then addSat Reg.stretchCount (16 * p + 15) (16 * p) 1 s else s)
    else s)

/-- Ticks of `n` core cycles of a die, rounded up (R34, R382). -/
def dieTicks (s : State) (p n : Nat) : Nat := ceilDiv (n * 64) (max 1 (freqOf s p))

/-- DROOP_RECOVER (R370): the clock is restored when 32 cycles have passed, and 16 since the voltage recovered. -/
def execDroopRecover (p : Nat) (back : Recovery) (s : State) : Host.Outcome State Fault Refusal :=
  ok (match s.pwr.halved.find? (fun h => h.1 == p && h.2.1 == back.cluster) with
    | none => s
    | some h =>
      let s := clockTo (max (h.2.2 + dieTicks s p 32) (back.tick + dieTicks s p 16)) s
      let s := { s with pwr := { s.pwr with halved := s.pwr.halved.erase h } }
      if s.pwr.halved.any (fun h => h.1 == p) then s
      else { s with pwr := { s.pwr with quietSince := mset 0 s.pwr.quietSince p (now s) } })

-- Telemetry, calibration and the cap (R351–R353, R359–R361)

/-- Latest reading of a rail, in 0.1 W (R381). -/
def railPower (s : State) (r : Nat) : Nat := rdF s (Reg.rail r) 31 16

/-- Whether a rail's reading is stale (R351). -/
def railStale (s : State) (r : Nat) : Bool := decide (mget 0 s.pwr.lastRead r + 480000 < now s)

/-- A rail in the sum of the cap loop, in 0.1 W: the estimate for a compute rail, else the reading; 10 % more while it is
stale (R351, R352). -/
def railTerm (s : State) (r : Nat) : Nat :=
  let v := if r < 4 then 10 * mget 0 s.pwr.estimate r else railPower s r
  if railStale s r then v + v / 10 else v

/-- Sum of the readings, and of the terms of the cap loop, in watts. -/
def sumReadings (s : State) : Nat := ((List.range 18).map (railPower s)).foldl (fun a b => a + b) 0 / 10
/-- See `sumReadings`. -/
def sumEstimate (s : State) : Nat := ((List.range 18).map (railTerm s)).foldl (fun a b => a + b) 0 / 10

/-- POWER.CAP.CAP. -/
def capOf (s : State) : Nat := rdF s Reg.powerCap 15 0

/-- Coefficients of a compute rail: calibrated, or as fused (R352). -/
def coefOf (s : State) (p : Nat) : List Nat :=
  mget ((List.range 5).map (Config.fusedCoefficient p)) s.pwr.coef p

/-- The mean of a rail's estimates over the window that a reading ends (R353). -/
def meanEstimate (s : State) (p : Nat) : Nat :=
  if mget 0 s.pwr.estCount p = 0 then mget 0 s.pwr.estimate p else mget 0 s.pwr.estSum p / mget 0 s.pwr.estCount p

/-- The next window of a rail's estimates begins. -/
def nextWindow (p : Nat) (s : State) : State :=
  { s with pwr := { s.pwr with estSum := mset 0 s.pwr.estSum p 0, estCount := mset 0 s.pwr.estCount p 0 } }

/-- The calibration of a compute rail at a reading (R353): held while the condition number lies above 2^16. -/
def calibrateRail (p alike watts : Nat) (s : State) : State :=
  let est := meanEstimate s p
  let s := nextWindow p s
  let e := 1000 * (max est watts - min est watts) / max 1 watts
  let errs := (s.pwr.calErr.filter (fun x => decide (now s ≤ x.1 + 1600000000))) ++ [(now s, e * e)]
  let rms := isqrt ((errs.map (·.2)).foldl (fun a b => a + b) 0 / errs.length) 40 0
  let s := { s with pwr := { s.pwr with calErr := errs } } |> wrF Reg.calStatus 47 32 (min rms 65535)
  if 65536 < alike then s |> wrB Reg.calStatus p true |> orReg Reg.powerEvent (2 ^ 4)
  else
    let c := coefOf s p
    let new := (List.range 5).map (fun i => Config.calibrate i c est watts)
    let m := mset ((List.range 5).map (Config.fusedCoefficient p)) s.pwr.coef p new
    { s with pwr := { s.pwr with coef := m } } |> wrB Reg.calStatus p false

/-- The window of 1 ms and the integral of the slow loop, at the last rail of a reading (R360, R381). -/
def closeReading (s : State) : State :=
  let w := sumReadings s
  let win := s.pwr.window ++ [w]
  let s := wrF Reg.measured 47 32 (min w 65535) s
  let s := { s with pwr := { s.pwr with integral := s.pwr.integral + (w : Int) - (capOf s : Int), window := win } }
  if win.length < 10 then s
  else { s with pwr := { s.pwr with window := [] } }
    |> wrF Reg.measured 63 48 (min 65535 (win.foldl (fun a b => a + b) 0 / win.length))

/-- A rail is read (R351, R353). -/
def readRail (r : Nat) (x : RailReading) (alike : Nat) (s : State) : State :=
  let s := s |> wrReg (Reg.rail r) (wd (x.mv % 2 ^ 16 * 2 ^ 48 + x.current % 2 ^ 16 * 2 ^ 32 + x.power % 2 ^ 16 * 2 ^ 16
      + x.temp % 256 * 2 ^ 8 + (if x.warn then 2 else 0)))
    |> (fun s => { s with pwr := { s.pwr with lastRead := mset 0 s.pwr.lastRead r (now s),
                                              lostRails := s.pwr.lostRails.filter (fun y => y != r) } })
  let s := if s.pwr.lostRails = [] then setPresent 19 false s else s
  let s := if r < 4 then
      (let s := calibrateRail r alike (x.power / 10) s
       if x.warn then
         { s with pwr := { s.pwr with warned := s.pwr.warned.filter (fun y => y != r) ++ [r] } }
           |> orReg Reg.powerEvent (2 ^ 5) |> stopBallast
       else { s with pwr := { s.pwr with warned := s.pwr.warned.filter (fun y => y != r),
                                         warnLim := mset 72 s.pwr.warnLim r 72 } })
    else s
  if r = 17 then closeReading s else s

/-- RAIL_READ (R351). -/
def execRailRead (r : Nat) (x : RailReading) (alike : Nat) (s : State) : Host.Outcome State Fault Refusal :=
  ok (if r < 18 then readRail r x alike s else s)

/-- The partition of a compute or HBM rail (R350, R385). -/
def railPart (r : Nat) : Option Nat := if r < 4 then some r else if 8 ≤ r ∧ r < 16 then some (r % 4) else none

/-- RAIL_LOST (R351): no reading for 1 ms. -/
def execRailLost (r : Nat) (s : State) : Host.Outcome State Fault Refusal :=
  ok (if r < 18 then
      s |> clockTo (mget 0 s.pwr.lastRead r + 1600000)
        |> (fun s => { s with pwr := { s.pwr with lostRails := s.pwr.lostRails.filter (fun y => y != r) ++ [r] } })
        |> recordControl 19 true (railPart r) [] |> setPresent 19 true
    else s)

/-- REGULATOR_WARN_STEP (R351): a warned compute rail's die goes one step lower. -/
def execRegulatorWarnStep (r : Nat) (s : State) : Host.Outcome State Fault Refusal :=
  ok (if s.pwr.warned.contains r then
      { s with pwr := { s.pwr with warnLim := mset 72 s.pwr.warnLim r (max 16 (freqOf s r - 1)) } } |> stepOrWait r
    else s)

/-- REGULATOR_FAULT (R351, R385). -/
def execRegulatorFault (r : Nat) (s : State) : Host.Outcome State Fault Refusal :=
  ok (if r < 18 then
      { s with pwr := { s.pwr with faultRails := s.pwr.faultRails.filter (fun y => y != r) ++ [r] } }
        |> recordControl 20 true (railPart r) [] |> setPresent 20 true
    else s)

/-- The estimate of a compute rail in watts (R352), in the units that its coefficients fix. -/
def estimateOf (s : State) (p : Nat) (x : Activity) : Nat :=
  let c := coefOf s p
  let v := rdF s (Reg.rail p) 63 48
  let t := ((List.range 8).map (fun i => clusterTemp s (8 * p + i))).foldl max 0
  nth c 0 * Config.leakage v t
    + v * v * (nth c 1 * x.beats + nth c 2 * x.banks + nth c 3 * x.vectors + nth c 4 * x.flits)

/-- Levels of the hints that start or hold within the next ticks (R365, R374). -/
def hintsAhead (s : State) (ticks : Nat) : List Nat :=
  s.tiles.flatMap (fun kv => (kv.2.hints.filter (fun h =>
    decide (h.start ≤ now s + ticks ∧ now s < h.start + h.dur))).map (·.level))

/-- Jobs that start within the next 10 ms, by their START_TIME (R97, R374). -/
def startsAhead (s : State) : Nat :=
  (s.host.jobs.filter (fun j => j.startValid && decide (now s ≤ j.startTime ∧ j.startTime ≤ now s + 16000000))).length

/-- The projected mean of the window, in watts (R360). The gain of the integral is a choice (notes/assumptions/20.md). -/
def projected (s : State) : Int :=
  let n := s.pwr.window.length
  ((s.pwr.window.foldl (fun a b => a + b) 0 + sumEstimate s + Config.hintedPower (hintsAhead s 1600000) : Nat) : Int) / (n + 1)
    + s.pwr.integral / 10

/-- The partition with the most slack that the cap can still lower; ties go to the lower number (R360). -/
def capVictim (s : State) : Option Nat :=
  let l := (List.range 4).filter (fun p => decide (16 < mget 72 s.pwr.capLim p))
  l.foldl (fun a p => match a with
    | none => some p
    | some b => if slackOf s b < slackOf s p then some p else some b) none

/-- The power floor gates every cluster in 8 of 16 cycles and stops ballast (R377). -/
def holdFloor (s : State) : State := stopBallast ((List.range 32).foldl (fun s c => setGate c 8 s) s)

/-- The clusters run again once nothing holds the floor. -/
def leaveFloor (s : State) : State :=
  if s.pwr.floor || s.pwr.capFloor then s else (List.range 32).foldl (fun s c => setGate c 0 s) s

/-- The cap cuts power (R356, R360): ballast first, then boost, then frequency, one step at a time; at the floor it says
so. -/
def cutPower (s : State) : State :=
  if !s.pwr.capCut then { s with pwr := { s.pwr with capCut := true } }
  else
    match capVictim s with
    | some p =>
      let f := mget 72 s.pwr.capLim p
      { s with pwr := { s.pwr with capLim := mset 72 s.pwr.capLim p (if 64 < f then 64 else f - 1) } } |> stepOrWait p
    | none => { s with pwr := { s.pwr with capFloor := true } } |> holdFloor |> orReg Reg.powerEvent (2 ^ 8) |> stepAll

/-- The cap lets power rise again, one step at a time. -/
def easePower (s : State) : State :=
  let was := s.pwr.capFloor
  let s := { s with pwr := { s.pwr with
    capCut := false, capFloor := false, capLim := (s.pwr.capLim.map (fun kv => (kv.1, kv.2 + 1))).filter (fun kv => kv.2 < 72) } }
  stepAll (if was then leaveFloor s else s)

/-- ACTIVITY_ESTIMATE (R352, R360): the counts of the last microsecond on each compute die. -/
def execActivityEstimate (x : List Activity) (s : State) : Host.Outcome State Fault Refusal :=
  ok (let s := (List.range 4).foldl (fun s p =>
      let e := estimateOf s p (x.getD p {})
      { s with pwr := { s.pwr with estimate := mset 0 s.pwr.estimate p e,
                                   estSum := mset 0 s.pwr.estSum p (mget 0 s.pwr.estSum p + e),
                                   estCount := mset 0 s.pwr.estCount p (mget 0 s.pwr.estCount p + 1) } }) s
    let s := wrF Reg.measured 31 16 (min 65535 (sumEstimate s)) s
    if (capOf s : Int) < projected s then cutPower s else easePower s)

/-- A write of POWER.CAP (R359, R361). -/
def powerCapWrite (who : Writer) (v : Word) (s : State) : Nat × State :=
  withRoleDo .installer who Reg.powerCap (fun s =>
    let c := fld v 15 0
    let lo := rdF s Reg.powerCap 31 16
    let hi := rdF s Reg.powerCap 47 32
    let s := s |> wrF Reg.powerCap 15 0 (max lo (min hi c)) |> setPresent 24 false
    let s := if c < lo ∨ hi < c then orReg Reg.powerEvent (2 ^ 7) s else s
    { s with pwr := { s.pwr with leaseFrom := some (now s), integral := 0 } }) s

/-- POWER_CAP_WRITE (R359). -/
def execPowerCapWrite (who : Writer) (v : Word) (s : State) : Host.Outcome State Fault Refusal :=
  ok (answered who Reg.powerCap (powerCapWrite who v s))

/-- CAP_LEASE_EXPIRY (R361): the cap becomes SAFE. A LEASE of 0 turns the lease off. -/
def execCapLeaseExpiry (s : State) : Host.Outcome State Fault Refusal :=
  ok (match s.pwr.leaseFrom with
    | none => s
    | some t =>
      let lease := rdF s Reg.capLease 15 0
      if lease = 0 then s
      else
        s |> clockTo (t + lease * 1600000) |> wrF Reg.powerCap 15 0 (rdF s Reg.capLease 47 32)
          |> orReg Reg.powerEvent 2
          |> (fun s => { s with pwr := { s.pwr with leaseFrom := none, integral := 0 } })
          |> recordControl 24 true none [] |> setPresent 24 true)

-- Slack and shares (R362, R363)

/-- Running tiles of a partition. -/
def runningIn (s : State) (p : Nat) : Nat :=
  ((List.range 128).filter (fun i => tileState s (p * 128 + i) = 3)).length

/-- SLACK_PUBLISH (R362). -/
def execSlackPublish (s : State) : Host.Outcome State Fault Refusal :=
  ok (let rounds := max 1 s.pwr.slackRounds
    let part (p : Nat) : Nat := min 1024 (mget 0 s.pwr.partWait p / (rounds * max 1 (runningIn s p)))
    let v := min 1024 (s.pwr.slackSum / rounds) * 2 ^ 48
      + ((List.range 4).map (fun p => part p * 2 ^ (12 * p))).foldl (fun a b => a + b) 0
    let s := s |> wrReg Reg.slackAvg (wd v) |> emit (.pldm 64 (wd v))
    { s with pwr := { s.pwr with slackSum := 0, slackRounds := 0, partWait := [] } })

/-- Shares scaled so that they sum to a budget. -/
def scaleShares (budget : Nat) (l : List Nat) : List Nat :=
  let sum := l.foldl (fun a b => a + b) 0
  if sum = 0 then l.map (fun _ => budget / 4) else l.map (fun x => x * budget / sum)

/-- POWER_SHIFT (R363). -/
def execPowerShift (s : State) : Host.Outcome State Fault Refusal :=
  ok (let compute := ((List.range 4).map (railPower s)).foldl (fun a b => a + b) 0 / 10
    let budget := capOf s - (sumReadings s - compute) - capOf s / 50
    let sh := (List.range 4).map (fun p => mget 0 s.pwr.share p)
    let lo := (List.range 4).foldl (fun b p => if slackOf s p < slackOf s b then p else b) 0
    let hi := (List.range 4).foldl (fun b p => if slackOf s b < slackOf s p then p else b) 0
    let step := rdF s Reg.shiftCtrl 15 0
    let sh := if fixedMode s then [0, 0, 0, 0]
      else if slackOf s lo + 64 < slackOf s hi ∧ rdF s Reg.shiftCtrl 31 16 + step ≤ nth sh hi then
        let sh := setNth sh hi (nth sh hi - step)
        setNth sh lo (nth sh lo + step)
      else sh
    let new := scaleShares budget sh
    let m := (List.range 4).foldl (fun m p => mset 0 m p (nth new p)) s.pwr.share
    let s := { s with pwr := { s.pwr with share := m } }
    s |> wrF Reg.measured 15 0 (min 65535 budget) |> stepAll)

-- Ballast (R366, R367)

/-- Whether a tile is in a wait that runs ballast (R366). -/
def ballastWaits (s : State) (t : Nat) : Bool :=
  let waits := rdB s Reg.ballastLevel 61
  if tileState s t = 2 then waits
  else if tileState s t = 3 then
    (match (tl s t).wait with
     | some (.bar _ _ _) => true
     | some (.waitt _) => waits
     | _ => false)
  else false

/-- The lower bound that the next hints set on ballast, in 1/300 of the peak (R367). -/
def hintFloor (s : State) (t slope : Nat) : Nat :=
  ((tl s t).hints.filter (fun h => decide (now s < h.start ∧ h.start ≤ now s + 32000))).foldl
    (fun a h => max a (h.level * 20 - slope * ((h.start - now s) / 1600))) 0

/-- BALLAST_UPDATE (R366, R367): a waiting tile's ballast moves toward its target by at most SLOPE. -/
def execBallastUpdate (t : Nat) (s : State) : Host.Outcome State Fault Refusal :=
  ok (if t < 512 then
      (if !rdB s Reg.ballastLevel 63 || ballastStopped s t || !ballastWaits s t then
        onTl t (fun x => { x with ballast := 0 }) s
      else
        let slope := 3 * rdF s Reg.ballastLevel 23 16
        let level := rdF s Reg.ballastLevel 7 0
        let cur := if now s ≤ (tl s t).waitFrom + 1600 then meanActivity s t 1600 else (tl s t).ballast
        let target := if s.pwr.capCut then 0
          else max (level * meanActivity s t 16000 / 100) ((hintAt (tl s t) (now s)).getD 0)
        let b := if cur < target then min target (cur + slope) else max target (cur - slope)
        onTl t (fun x => { x with ballast := min 300 (max b (hintFloor s t slope)) }) s)
    else s)

-- Sensors, throttling, the trip (R372–R375)

/-- THERM_ALERT_N (R373): a trip, a cluster gated for more than 10 ms, a stack in THERMAL_HOLD. -/
def alertOf (s : State) : Bool :=
  s.pwr.tripped || (List.range 32).any (fun c => gated s c != 0 && decide (mget 0 s.pwr.hotSince c + 16000000 < now s))
    || (stacks_ s).any (fun k => stackState s k.1 k.2 == 5)

/-- The readings of THERMAL.STATUS (R384): hottest reading and its sensor, over clusters, I/O dies and stacks. -/
def hottest (s : State) : Nat × Nat :=
  let l := (List.range 32).map (fun c => (clusterTemp s c, c))
    ++ (List.range (2 * s.boot.ioDies)).map (fun j => (rdF s (Reg.ioTemp j) 11 0, 32 + j))
    ++ (stacks_ s).map (fun k => (8 * rdF s (Reg.hbmStatus k.1 k.2) 47 40, 40 + 4 * k.1 + k.2))
  l.foldl (fun a x => if a.1 < x.1 then x else a) (0, 0)

/-- THERMAL.STATUS as the sensors and the trip make it. -/
def updateThermal (s : State) : State :=
  let h := hottest s
  wrReg Reg.thermalStatus (wd (h.1 % 4096 * 2 ^ 52 + h.2 * 2 ^ 46 + (if alertOf s then 4 else 0)
    + (if (List.range 32).any (fun c => gated s c != 0) then 2 else 0) + (if s.pwr.tripped then 1 else 0))) s

/-- The trip (R373, R406): every tile stops, every partition is fenced, clusters and PHYs go off. A partition reset in
progress fails. -/
def trip (s : State) : State :=
  if s.pwr.tripped then s
  else
    let s := { s with pwr := { s.pwr with tripped := true } }
    let s := (List.range 4).foldl (fun s p =>
      if 2 ≤ resetPhase s p ∧ resetPhase s p ≤ 8 then s |> setPhase p 9 |> (if fenceState s p = 3 then setFence p 2 else id)
      else s) s
    let s := s |> haltAll 3 |> stopBallast
    let s := domainsOff ((List.range 4).flatMap (fun p =>
      (List.range 8).map (fun c => 9 * p + c) ++ (List.range 4).map (fun i => 36 + 4 * p + i))) s
    let s := (stacks_ s).foldl (fun s k => setStackState k.1 k.2 1 s) s
    s |> orReg Reg.thermalEvent 2 |> recordControl 18 true none [] |> stepAll

/-- A cluster's sensor is read (R372). -/
def readCluster (c temp : Nat) (s : State) : State :=
  let limit := 8 * rdF s Reg.thermalLimits 7 0
  let s := wrF (Reg.cluster c) 27 16 (min 4095 temp) s
  let cool := if temp + 24 ≤ limit then
      (if mget 0 s.pwr.coolSince c = 0 then mset 0 s.pwr.coolSince c (max 1 (now s)) else s.pwr.coolSince)
    else mset 0 s.pwr.coolSince c 0
  let s := { s with pwr := { s.pwr with coolSince := cool } }
  if limit ≤ temp ∧ gated s c = 0 then
    { s with pwr := { s.pwr with hotSince := mset 0 s.pwr.hotSince c (now s) } } |> setGate c 1 |> orReg Reg.thermalEvent 1
      |> stopBallast
  else s

/-- SENSOR_READ (R372, R373): 32 clusters, then 8 I/O sensors, in 1/8 °C. -/
def execSensorRead (temps : List Nat) (s : State) : Host.Outcome State Fault Refusal :=
  ok (let s := (List.range 32).foldl (fun s c => readCluster c (nth temps c) s) s
    let s := (List.range (2 * s.boot.ioDies)).foldl (fun s j =>
      s |> wrF (Reg.ioTemp j) 11 0 (min 4095 (nth temps (32 + j)))
        |> (if 760 ≤ nth temps (32 + j) then orReg Reg.thermalEvent 4 else id)) s
    let s := if 880 ≤ (hottest s).1 then trip s else s
    updateThermal s)

/-- THROTTLE_ADJUST (R372): a hot cluster is held 1 °C below its threshold. -/
def execThrottleAdjust (c : Nat) (s : State) : Host.Outcome State Fault Refusal :=
  ok (if c < 32 ∧ gated s c ≠ 0 then
      let aim := 8 * rdF s Reg.thermalLimits 7 0 - 8
      let k := if aim < clusterTemp s c then min 15 (gated s c + 1)
        else if clusterTemp s c < aim then max (if s.pwr.floor || s.pwr.capFloor then 8 else 1) (gated s c - 1)
        else gated s c
      s |> setGate c k |> updateThermal
    else s)

/-- THROTTLE_RELEASE (R372): 1 ms at least 3 °C below the threshold. -/
def execThrottleRelease (c : Nat) (s : State) : Host.Outcome State Fault Refusal :=
  ok (if c < 32 ∧ gated s c ≠ 0 ∧ mget 0 s.pwr.coolSince c ≠ 0 ∧ !s.pwr.floor ∧ !s.pwr.capFloor then
      s |> clockTo (mget 0 s.pwr.coolSince c + 1600000) |> setGate c 0 |> updateThermal |> stepAll
    else s)

/-- Age of the coolant data in ms (R375, R384). -/
def coolantAge (s : State) : Nat :=
  match s.pwr.coolantAt with
  | none => 0
  | some t => min (2 ^ 32 - 1) ((now s - t) / 1600000)

/-- Inlet and flow that the forecaster uses (R375): 45 °C and 1.5 L/min while the data is stale or missing. -/
def coolantUsed (s : State) : Nat :=
  if s.pwr.coolantAt = none ∨ 10000 < coolantAge s then 45 * 2 ^ 16 + 150
  else rdF s Reg.coolant 63 56 * 2 ^ 16 + rdF s Reg.coolant 55 40

/-- KILN_FORECAST (R374). -/
def execKilnForecast (s : State) : Host.Outcome State Fault Refusal :=
  ok (let hints := (hintsAhead s 16000000).foldl (fun a b => a + b) 0
    let l := (List.range 32).map (fun c =>
      (Config.forecast c (clusterTemp s c) (mget 0 s.pwr.estimate (c / 8)) hints (startsAhead s)
        (coolantUsed s), c))
    let h := l.foldl (fun (a : Nat × Nat) x => if a.1 < x.1 then x else a) (0, 0)
    let hot := decide (8 * rdF s Reg.forecastCtrl 7 0 ≤ h.1)
    let flow := if hot then Config.flowRequest h.1 % 128 else 0
    let s := wrReg Reg.thermalForecast (wd (min 4095 h.1 * 2 ^ 52 + h.2 * 2 ^ 46 + flow)) s
    if hot then s |> orReg Reg.thermalEvent (2 ^ 3) |> emit (.pldm 65 (wd flow)) else s)

/-- Whether an inlet temperature or a flow lies outside its range (R375). -/
def coolantOut (inlet flow : Nat) : Bool := decide (inlet < 17 ∨ 45 < inlet ∨ flow < 150)

/-- A write of THERMAL.COOLANT (R375, R384): AGE starts again. -/
def coolantWrite (who : Writer) (v : Word) (s : State) : Nat × State :=
  withRoleDo .installer who Reg.coolant (fun s =>
    let inlet := fld v 63 56
    let flow := fld v 55 40
    let s := { s with pwr := { s.pwr with coolantAt := some (now s) } }
      |> wrReg Reg.coolant (wd (inlet * 2 ^ 56 + flow * 2 ^ 40))
    if coolantOut inlet flow then orReg Reg.thermalEvent (2 ^ 5) s else s) s

/-- COOLANT_WRITE (R375). -/
def execCoolantWrite (who : Writer) (v : Word) (s : State) : Host.Outcome State Fault Refusal :=
  ok (answered who Reg.coolant (coolantWrite who v s))

/-- COOLANT_STALE (R375): the data is more than 10 s old. -/
def execCoolantStale (s : State) : Host.Outcome State Fault Refusal :=
  ok (match s.pwr.coolantAt with
    | none => s
    | some t => s |> clockTo (t + 16000000000 + 1600000) |> orReg Reg.thermalEvent (2 ^ 4))

-- THROTTLE_IN_N (R376, R377)

/-- THROTTLE_IN_ASSERT (R376): low for 2 µs, or chatter. -/
def execThrottleInAssert (_chatter : Bool) (s : State) : Host.Outcome State Fault Refusal :=
  ok (if s.pwr.extIn then s
    else
      { s with pwr := { s.pwr with extIn := true, extSince := now s } } |> orReg Reg.powerEvent (2 ^ 3)
        |> stopBallast |> stepAll)

/-- THROTTLE_IN_DEASSERT (R376): high without an edge for 50 µs. -/
def execThrottleInDeassert (s : State) : Host.Outcome State Fault Refusal :=
  ok (stepAll { s with pwr := { s.pwr with extIn := false } })

/-- EXT_LATCHED (R376, R377): asserted for more than 100 ms; the power floor holds. -/
def execExtLatched (s : State) : Host.Outcome State Fault Refusal :=
  ok (if s.pwr.extIn ∧ !s.pwr.floor then
      let s := clockTo (s.pwr.extSince + 160000000 + 1) s
      let s := { s with pwr := { s.pwr with floor := true } } |> orReg Reg.powerEvent (2 ^ 2)
      s |> holdFloor |> recordControl 25 true none [] |> stepAll |> updateThermal
    else s)

/-- A W1C write of POWER.EVENT (R15, R376): EXT_LATCHED stays while the input is asserted; cleared, the floor ends. -/
def powerEventWrite (who : Writer) (v : Word) (s : State) : Nat × State :=
  withRoleDo .operator who Reg.powerEvent (fun s =>
    let keep := (if s.pwr.extIn then 2 ^ 3 + 2 ^ 2 else 0) + (if s.pwr.breach = [] then 0 else 1)
      + (if s.pwr.warned = [] then 0 else 2 ^ 5) + (if s.pwr.capFloor then 2 ^ 8 else 0)
      + (if rdF s Reg.calStatus 3 0 = 0 then 0 else 2 ^ 4) + (if s.flt.present.contains 24 then 2 else 0)
    let s' := wrReg Reg.powerEvent (rd s Reg.powerEvent &&& ~~~ (v &&& ~~~ wd keep &&& wd 0x1FF)) s
    if bit v 2 && s.pwr.floor && !s.pwr.extIn then
      { s' with pwr := { s'.pwr with floor := false } } |> leaveFloor |> stepAll |> updateThermal
    else s') s

-- Domains (R378–R380)

/-- Whether a domain exists on this assembly (R378). -/
def domainExists (s : State) (d : Nat) : Bool :=
  if d < 36 then fenceState s (d / 9) != 4
  else if d < 52 then decide ((d - 36) % 4 < s.boot.stackCount) && fenceState s ((d - 36) / 4) != 4
  else if d < 60 then decide ((d - 52) / 2 < s.boot.ioDies)
  else decide (d < 62)

/-- The rail of a domain (R350, R378); the rail of domains 52–60 is a reading of R350 (notes/assumptions/21.md). -/
def domainRail (d : Nat) : Nat :=
  if d < 36 then d / 9
  else if d < 52 then 8 + (d - 36) / 4
  else if d < 60 then (if d % 2 = 0 then 16 else 4 + (d - 52) / 2)
  else if d = 60 then 4 else 17

/-- First tile of a cluster domain. -/
def clusterTiles (d : Nat) : List Nat := (List.range 16).map (fun i => d / 9 * 128 + d % 9 * 16 + i)

/-- Whether a stack still has work that must end before its PHY goes off (R182, R378). -/
def stackBusy (s : State) (p i : Nat) : Bool :=
  (stk s p i).queue != [] || (stk s p i).wait.isSome || (stk s p i).run.isSome

/-- A PHY goes off. -/
def phyOff (p i : Nat) (s : State) : State :=
  s |> domainsOff [36 + 4 * p + i] |> (if stackState s p i = 6 then id else setStackState p i 1)
    |> onStk p i (fun k => { k with offAfter := false })

/-- Reason to refuse switching a domain off (R378, R383): 0 none, 1 busy, 2 a dependent domain, 3 not switchable. -/
def offRefused (s : State) (d : Nat) : Nat :=
  if d = 61 then 3
  else if d = 60 then (if rdB s Reg.hostStatus 0 || rdB s Reg.ethCtrl 63 then 1 else 0)
  else if 52 ≤ d then
    let i := (d - 52) / 2
    if d % 2 = 0 then
      (if (List.range 8).all (fun k => portState s (8 * i + k) == 0 || portState s (8 * i + k) == 7) then 0 else 1)
    else if domainIsOn s (d - 1) then 2
    else if s.coll.groups.any (fun kv => kv.2.valid && kv.2.engine == i)
        || (match s.coll.drain with | some (_, old) => old.valid && old.engine == i | none => false) then 1 else 0
  else if 36 ≤ d then 0
  else if d % 9 = 8 then
    let p := d / 9
    if ((List.range 8).any (fun c => domainIsOn s (9 * p + c)))
        || ((List.range 4).any (fun i => domainIsOn s (36 + 4 * p + i))) || fenceState s p != 2 then 2 else 0
  else if (clusterTiles d).all (fun t => tileState s t == 0 || tileState s t == 6) then 0 else 1

/-- A domain goes off: pending handovers of a cluster complete first, a busy stack first finishes (R158, R182). -/
def switchOff (d : Nat) (s : State) : State :=
  if d < 36 ∧ d % 9 < 8 then
    let s := (clusterTiles d).foldl (fun s t => (List.range 16).foldl (fun s b =>
      if handoverPending s t b then installOwner t b s else s) s) s
    domainsOff [d] s
  else if 36 ≤ d ∧ d < 52 then
    let p := (d - 36) / 4
    let i := (d - 36) % 4
    if stackBusy s p i then onStk p i (fun k => { k with offAfter := true }) s else phyOff p i s
  else domainsOff [d] s

/-- A refused domain request (R379, R383). -/
def refuseDomain (why : Nat) (s : State) : State := s |> wrF Reg.domainCtrl 11 8 why |> orReg Reg.powerEvent (2 ^ 6)

/-- A write of POWER.DOMAIN_CTRL (R379, R383). -/
def domainCtrlWrite (who : Writer) (v : Word) (s : State) : Nat × State :=
  let d := fld v 5 0
  if !mayWrite s .operator who then
    withRoleDo .operator who Reg.domainCtrl id (if bit v 63 || bit v 62 then refuseDomain 5 s else s)
  else
    withRoleDo .operator who Reg.domainCtrl (fun s =>
      let s := wrF Reg.domainCtrl 5 0 d s
      if bit v 63 && bit v 62 then refuseDomain 3 s
      else if !(bit v 63 || bit v 62) then s
      else if !domainExists s d then refuseDomain 4 s
      else if bit v 63 then
        (if domainIsOn s d || s.pwr.waitOn.contains d then s
         else { s with pwr := { s.pwr with waitOn := s.pwr.waitOn ++ [d] } })
      else if !domainIsOn s d then s
      else if offRefused s d ≠ 0 then refuseDomain (offRefused s d) s
      else switchOff d s) s

/-- DOMAIN_ON (R379). -/
def execDomainOn (who : Writer) (d : Nat) (s : State) : Host.Outcome State Fault Refusal :=
  ok (answered who Reg.domainCtrl (domainCtrlWrite who (wd (2 ^ 63 + d % 64)) s))

/-- DOMAIN_OFF (R378, R379). -/
def execDomainOff (who : Writer) (d : Nat) (s : State) : Host.Outcome State Fault Refusal :=
  ok (answered who Reg.domainCtrl (domainCtrlWrite who (wd (2 ^ 62 + d % 64)) s))

/-- The retrain that a stack waits for, which RETRAIN_PENDING shows (R184). -/
def setWait (p i : Nat) (w : Option RetrainReq) (s : State) : State :=
  s |> onStk p i (fun k => { k with wait := w }) |> wrB (Reg.hbmStatus p i) 19 w.isSome

/-- What follows when a domain is on (R159, R380): banks clear, a stack retrains before it is READY, ports train. `boot`
says that the step DOMAIN_UP turned it on, which leaves stacks in TRAINING (R430). -/
def domainCameOn (boot : Bool) (d : Nat) (s : State) : State :=
  let s := orReg Reg.domainStatus (2 ^ d) s
  if d < 36 ∧ d % 9 < 8 then
    s |> zeroRange (sramAddr ((clusterTiles d).headD 0) 0) (sramAddr ((clusterTiles d).headD 0 + 16) 0)
      |> dropBanks (fun t => clusterDomain t == d)
  else if 36 ≤ d ∧ d < 52 then
    let p := (d - 36) / 4
    let i := (d - 36) % 4
    if stackState s p i = 6 then s
    else
      s |> setStackState p i 2 |> (if boot then id else setWait p i (some
        { kind := .periodic, deferred := false, trigger := now s }))
  else if 52 ≤ d ∧ d < 60 ∧ d % 2 = 0 then
    (List.range 8).foldl (fun s k =>
      let n := 8 * ((d - 52) / 2) + k
      if portState s n = 0 ∧ n < licensedPorts s ∧ !rdB s (Reg.linkctl n) 4 then wrF (Reg.portStatus n) 3 0 1 s else s) s
  else s

/-- Whether the bring-up step DOMAIN_UP runs (R430, R453). -/
def inDomainUp (s : State) : Bool := s.boot.running == 2

end Sys2Proof.Machine
end

