-- ==== Sys2Proof/Machine/Resets.lean ====
section
/-! DEFINITION. Sessions' ends (R445), resets and removal of the host (R342, R343), fuses and capability (R439–R442),
self-test and spares (R434–R437), partition and device resets (R398–R400), stuck inputs (R403). -/

namespace Sys2Proof.Machine

-- Sessions (R445)

/-- Sets the role of the session on a path (R455). -/
def setRole (p : Path) (r : Nat) (s : State) : State := wrF Reg.authStatus (9 + 2 * pathNo p) (8 + 2 * pathNo p) r s

/-- The session on a path ends; its close is logged (R445, R446). -/
def endSession (p : Path) (s : State) : State :=
  if roleOf s p = 0 then s
  else s |> auditLog (roleOf s p) (pathNo p) 5 (sess s p).keyId (Reg.spaceBase + Reg.authCtrl) [] [] |> setRole p 0

-- Resets and removal of the host (R342, R343)

/-- Clears a function's MSI-X state (R342). -/
def clearMsix (fn : Nat) (s : State) : State :=
  { s with host := { s.host with msix := s.host.msix.filter (fun kv => kv.1 / 0x1000 != fn),
                                 pba := s.host.pba.filter (fun v => v.1 != fn) } }

/-- What a function-level reset does for one tenant (R342). -/
def flrTenant (v : Nat) (s : State) : State :=
  let s := (tenantJobs s v).foldl (fun s l => abortGang l s) s
  let s := ((enabledQueues s).filter (fun q => qTenant s q == v)).foldl (fun s q => stopQueue q 3 s) s
  let s := clearMsix (v + 1) s
  (List.range 8).foldl (fun s i => wrReg (Reg.vfAperture v i) 0 s) s

/-- FLR_VF (R342). -/
def execFlrVf (v : Nat) (s : State) : Host.Outcome State Fault Refusal :=
  ok (if v < 256 then s |> flrTenant v |> orReg Reg.hostEvent 8 else s)

/-- The physical function's resets (R342): the same for every tenant, every HOST register, the link trains again. -/
def resetHost (s : State) : State :=
  let s := (List.range 256).foldl (fun s v => flrTenant v s) s
  let s := resetRegs (fun a => decide (0xA0000 ≤ a ∧ a < 0xB0000)) s
  let s := clearMsix 0 s
  { s with host := { s.host with queues := [], barReads := [] } } |> endSession .pcie

/-- FLR_PF (R342): a function-level reset of the physical function, a hot reset, PERST#. -/
def execFlrPf (kind : PcieReset) (s : State) : Host.Outcome State Fault Refusal :=
  ok (s |> resetHost |> (if kind = .flr then orReg Reg.hostEvent 8 else id))

/-- Host reads made for descriptors fail (R338). -/
def failHostReads (s : State) : State :=
  let tags := s.host.reads.filterMap (fun r => match r.2 with | .dma tag _ => some tag | _ => none)
  let s := { s with host := { s.host with
    reads := s.host.reads.filter (fun r => match r.2 with | .firmware _ => true | _ => false), barReads := [] } }
  tags.foldl (fun s t => failTag t 0x00E false s) s

/-- A queue with a ring in host memory stops at a loss of the link: its descriptors in flight complete with LINK_DOWN,
their records are discarded (R343). -/
def loseQueue (q : Nat) (s : State) : State :=
  let tags := (s.cpl.filter (fun kv =>
    kv.2.st == .opened && (match kv.2.sink with | .queue q' _ => q' == q | _ => false))).map (·.1)
  let s := tags.foldl (fun s t => failTag t 0x00E false s) s
  stopQueue q 1 s

/-- DL_DOWN (R343): the link goes down without a reset. -/
def execDlDown (s : State) : Host.Outcome State Fault Refusal :=
  ok (let s := ((enabledQueues s).filter (fun q => !(qSqDevice s q && qCqDevice s q))).foldl
        (fun s q => loseQueue q s) s
    s |> failHostReads |> wrReg Reg.hostStatus (wd (rdF s Reg.hostStatus 24 16 * 2 ^ 16)) |> orReg Reg.hostEvent 1
      |> recordControl 28 true none [] |> setPresent 28 true |> endSession .pcie)

/-- PCIE_LINK_UP (R20, R329, R347). -/
def execPcieLinkUp (width speed : Nat) (s : State) : Host.Outcome State Fault Refusal :=
  ok (if hostPowered s ∧ width ∈ [1, 2, 4, 8, 16] ∧ 1 ≤ speed ∧ speed ≤ 6 then
      s |> wrF Reg.hostStatus 12 8 width |> wrF Reg.hostStatus 7 4 speed |> wrB Reg.hostStatus 0 true
        |> setPresent 28 false |> (if width < 16 ∨ speed < 6 then orReg Reg.hostEvent 2 else id)
    else s)

/-- MANAGEMENT_PORT_LINK_LOSS (R445). -/
def execManagementPortLinkLoss (s : State) : Host.Outcome State Fault Refusal := ok (endSession .eth s)

-- Fuses, licences, capability (R2, R439–R442)

/-- Word `w` of a key slot; the maker keys' points are fixed at manufacture (R443, R455). -/
def keyWord (s : State) (k w : Nat) : Word := if k < 2 ∧ 1 ≤ w then Config.makerKey k w else rd s (Reg.key k w)

/-- The point of a key slot. -/
def keyPoint (s : State) (k : Nat) : List Word := (List.range 12).map (fun i => keyWord s k (i + 1))

/-- The valid maker key with an ID (R440, R448). -/
def makerSlot (s : State) (id : Nat) : Option Nat :=
  [0, 1].find? (fun k => bit (keyWord s k 0) 63 && fld (keyWord s k 0) 7 0 == id)

/-- The checks of a licence in the order of LIC_RESULT (R440, R441): 0 when it passes. -/
def licenceResult (s : State) (l : List Word) : Nat :=
  let w (i : Nat) : Word := l.getD i 0
  if fld (w 0) 63 56 ≠ 1 then 1
  else if w 1 ≠ s.boot.serial then 2
  else
    match makerSlot s (fld (w 0) 55 48) with
    | none => 3
    | some k => if Config.ecdsaVerify (keyPoint s k) (l.take 4) ((l.drop 4).take 12) then 0 else 4

/-- The stored licence, when it is valid (R440). -/
def validLicence (s : State) : Option (List Word) := s.boot.licence.filter (fun l => licenceResult s l == 0)

/-- FUSELIC.CAPABILITY (R442, R454). -/
def capabilityOf (s : State) : Word :=
  let f := match validLicence s with | some l => fld (l.getD 2 0) 4 0 | none => 0
  wd ((if f.testBit 1 then 256 else 16) * 2 ^ 48 + (if f.testBit 2 then 16384 else 4096) * 2 ^ 32
    + (if s.boot.ioDies = 4 ∧ f.testBit 0 then 32 else 16) * 2 ^ 8 + (if f.testBit 4 then 16 else 0)
    + (if f.testBit 3 then 8 else 0))

/-- TDP of the variant in watts (R2, R439). -/
def tdpOf (s : State) : Nat :=
  if s.boot.ioDies = 4 then (if s.boot.stackCount = 4 then 2400 else 2300)
  else if s.boot.stackCount = 4 then 2250 else 2000

/-- What FUSE_LOAD leaves in the registers (R430, R439–R442, R454): identity, capability, the variant's TDP, the stacks
and blocks that the assembly lacks. -/
def loadFuses (s : State) : State :=
  let s := s |> wrReg Reg.serial s.boot.serial
    |> wrReg Reg.assembly (wd (s.boot.ioDies * 2 ^ 8 + s.boot.stackCount * 2 ^ 4 + 1))
    |> wrReg Reg.capability (capabilityOf s)
    |> wrB Reg.licStatus 0 (validLicence s).isSome
    |> wrF Reg.licStatus 63 32 (match validLicence s with | some l => fld (l.getD 0 0) 31 0 | none => 0)
  let s := s |> wrF Reg.powerCap 47 32 (tdpOf s) |> wrF Reg.powerCap 15 0 (tdpOf s)
    |> wrF Reg.capLease 47 32 (tdpOf s * 3 / 4)
    |> (if rdF s Reg.capability 13 8 = 32 ∧ rd s Reg.preset = Reg.resetValue Reg.preset then wrReg Reg.preset 0 else id)
  (List.range 4).foldl (fun s p => (List.range 4).foldl (fun s i =>
    if i < s.boot.stackCount then s else setStackState p i 0 s) s) s

-- The draff list and spares (R434–R438)

/-- The CRC of a draff entry, over W0 [59:32] as four bytes and W1 (R437). -/
def draffCrc (w0 w1 : Word) : Nat :=
  let k := crcPreset 1
  crcOut k (crcRun k k.init (leBytes 4 (fld w0 59 32) ++ leBytes 8 w1.toNat))

/-- An erased entry reads all ones (R437). -/
def erased : Word × Word := (wd (2 ^ 64 - 1), wd (2 ^ 64 - 1))

/-- Entry `i` of a partition's list. -/
def draffEntry (s : State) (p i : Nat) : Word × Word := mget erased s.boot.draff (64 * p + i)

/-- Entries appended in a partition (R452). -/
def draffCount (s : State) (p : Nat) : Nat :=
  ((List.range 64).filter (fun i => fld (draffEntry s p i).1 63 60 != 15)).length

/-- The physical tile that a valid entry names; VOID and damaged entries name none (R437). -/
def draffTile (e : Word × Word) : Option Nat :=
  let k := fld e.1 63 60
  if 1 ≤ k ∧ k ≤ 5 ∧ fld e.1 31 0 = draffCrc e.1 e.2 then some (fld e.1 59 52) else none

/-- Physical tiles that a partition's list retires (R434). -/
def draffTiles (s : State) (p : Nat) : List Nat := (List.range 64).filterMap (fun i => draffTile (draffEntry s p i))

/-- Appends one entry for a failing tile; a full list takes none (R436). -/
def appendDraff (p phys kindBank test : Nat) (s : State) : State :=
  let n := draffCount s p
  if 64 ≤ n then orReg Reg.bringupEvent 2 s
  else
    let w0 := wd (kindBank / 16 % 16 * 2 ^ 60 + phys % 256 * 2 ^ 52 + kindBank % 16 * 2 ^ 48 + test % 256 * 2 ^ 40
      + 0xFF * 2 ^ 32)
    let w0' := setFld w0 31 0 (draffCrc w0 s.now)
    { s with boot := { s.boot with draff := mset erased s.boot.draff (64 * p + n) (w0', s.now) } }

/-- A map of logical tiles to spares, and the logical tiles that are ABSENT (R435). -/
structure Remap where
  spares : List (Option Nat)
  absent : List Nat
deriving DecidableEq, Repr

/-- The highest logical tile still present. -/
def topPresent (m : Remap) : Nat := ((List.range 128).filter (fun t => !m.absent.contains t)).foldl max 0

/-- Moves a retired logical tile to the lowest free spare, else to the highest present tile's place (R435). -/
def moveTile (retired : List Nat) (m : Remap) (t : Nat) : Remap :=
  if m.absent.contains t then m
  else
    match (List.range 4).find? (fun k => !retired.contains (128 + k) && m.spares.getD k none == none) with
    | some k => { m with spares := m.spares.set k (some t) }
    | none =>
      let h := topPresent m
      { spares := m.spares.map (fun x => if x = some h then some t else x), absent := m.absent ++ [h] }

/-- The remap of a partition from its retired physical tiles (R435). -/
def remapOf (retired : List Nat) : Remap :=
  ((List.range 128).filter (fun t => retired.contains t)).foldl (moveTile retired) ⟨[none, none, none, none], []⟩

/-- BRINGUP.SPARE_MAP of a remap (R452). -/
def spareWord (retired : List Nat) (m : Remap) : Word :=
  wd (((List.range 4).map (fun k => 2 ^ (16 * k) *
    ((match m.spares.getD k none with | some t => 2 ^ 15 + t | none => 0)
      + (if retired.contains (128 + k) then 2 ^ 14 else 0)))).foldl (fun a b => a + b) 0)

/-- The self-test of a partition (R434–R437) that found some tiles bad, as physical tile, kind × 16 + bank, test. A list
that was full is not enough to keep a bad tile in use. -/
def selfTestPart (p : Nat) (bad : List (Nat × Nat × Nat)) (s : State) : State :=
  let old := draffTiles s p
  let new := bad.filter (fun b => !old.contains b.1 && decide (b.1 < 132))
  let s := new.foldl (fun s b => appendDraff p b.1 b.2.1 b.2.2 s) s
  let retired := (old ++ new.map (·.1)).eraseDups
  let m := remapOf retired
  let s := wrReg (Reg.spareMap p) (spareWord retired m) s
  let n := 128 - m.absent.length
  let s := wrF Reg.partResult (16 * p + 15) (16 * p)
    (n * 256 + (m.spares.filter Option.isSome).length * 16 + (if n < 128 then 1 else 0)) s
  (List.range 128).foldl (fun s t => setTileState (128 * p + t) (if m.absent.contains t then 6 else 0) s) s

-- Partition reset (R398, R399)

/-- Whether a full retrain left every populated stack working (R168, R179): `rates` gives RATE per stack, 0 a failure. -/
def allTrained (s : State) (rates : List Nat) : Bool := (List.range s.boot.stackCount).all (fun i => nth rates i != 0)

/-- Every stack of a partition as its full retrain left it (R168, R179, R185). -/
def trainedPart (p : Nat) (rates : List Nat) (s : State) : State :=
  (List.range s.boot.stackCount).foldl (fun s i =>
    let r := nth rates i
    let f := freeNext s
    f.2 |> setStackState p i (if r = 0 then 6 else 3) |> orReg (Reg.hbmEvent p i) (if r = 0 then 4 else 2) |> wrF (Reg.hbmStatus p i) 29 28 (min r 3)
      |> wrReg (Reg.hbmId p i) f.1
      |> onStk p i (fun k => { k with trainedAt := now s, wait := none, run := none, admitted := 0 })) s

/-- The SRAM of a partition is cleared (R159, R160); nothing is left in its banks' queues. -/
def clearSram (p : Nat) (s : State) : State :=
  s |> zeroRange (sramAddr (128 * p) 0) (sramAddr (128 * (p + 1)) 0) |> dropBanks (fun t => t / 128 == p)

/-- Tiles of a partition that are ABSENT. -/
def absentTiles (s : State) (p : Nat) : List Nat :=
  ((List.range 128).map (fun i => 128 * p + i)).filter (fun t => tileState s t == 6)

/-- RESTORE (R154, R398, R399): the TILE and PART blocks read their reset values, the stacks' state and ID word as
training left them (R183), gangs with a member there fall apart,
its tiles' finished entries are released, its HBM contents are lost, the partition is IN_SERVICE. -/
def restorePart (p : Nat) (s : State) : State :=
  let absent := absentTiles s p
  let kept := (List.range 4).flatMap (fun i =>
    [(Reg.hbmStatus p i, rd s (Reg.hbmStatus p i)), (Reg.hbmId p i, rd s (Reg.hbmId p i))])
  let gangs := ((List.range 512).filter (fun t => leaderOf s t != t && gangIn s p (leaderOf s t))).map (leaderOf s)
  let s := soloGangs (gangs.flatMap (membersOf s)) s
  let tags := (s.cpl.filter (fun kv => kv.2.st == .done && entryIn p kv.2)).map (·.1)
  let s := tags.foldl (fun s t => release t s) s
  let s := resetRegs (fun a => decide ((0x1000000 + 0x80000 * p ≤ a ∧ a < 0x1000000 + 0x80000 * (p + 1))
    ∨ (0x300000 + 0x100000 * p ≤ a ∧ a < 0x300000 + 0x100000 * (p + 1)))) s
  let s := kept.foldl (fun s w => wrReg w.1 w.2 s) s
  let s := absent.foldl (fun s t => setTileState t 6 s) s
  let s := { s with
    tiles := s.tiles.filter (fun kv => kv.1 / 128 != p),
    rma := { s.rma with parts := s.rma.parts.filter (fun q => !heldIn p q.2.acc) } }
  let s := zeroRange (p * 0x1800000000) ((p + 1) * 0x1800000000) s
  s |> wrF Reg.fenceStatus (16 * p + 15) (16 * p) 0

/-- ELAPSED of a reset that ends (R410). -/
def noteElapsed (p : Nat) (s : State) : State :=
  wrF Reg.resetStatus (16 * p + 11) (16 * p) (min 4095 ((now s - mget 0 s.flt.resetAt p) / 1600000)) s

/-- A phase of a partition reset failed (R398): the partition stays FENCED. -/
def failReset (p : Nat) (s : State) : State := s |> setPhase p 9 |> setFence p 2 |> noteElapsed p

/-- A phase of a partition reset ends and the next one begins (R398). -/
def phaseDone (p : Nat) (bad : List (Nat × Nat × Nat × Nat)) (rates : List Nat) (s : State) : State :=
  let ph := resetPhase s p
  if ph = 4 then
    (partDomains p).foldl (fun s d => if domainExists s d then domainCameOn true d s else s) s |> setPhase p 5
  else if ph = 5 then s |> selfTestPart p ((bad.filter (fun b => b.1 == p)).map (·.2)) |> setPhase p 6
  else if ph = 6 then s |> clearSram p |> setPhase p 7
  else if ph = 7 then s |> trainedPart p rates |> setPhase p 8
  else if ph = 8 then s |> restorePart p |> setPhase p 0 |> noteElapsed p
  else setPhase p 4 s

/-- PART_RESET_PHASE_END (R398). A stack that no rate trains fails the phase (R179). -/
def execPartResetPhaseEnd (p : Nat) (good : Bool) (bad : List (Nat × Nat × Nat × Nat)) (rates : List Nat) (s : State) :
    Host.Outcome State Fault Refusal :=
  ok (let ph := resetPhase s p
    if 4 ≤ p ∨ ph < 3 ∨ 8 < ph then s
    else if good && (ph != 7 || allTrained s rates) then phaseDone p bad rates s
    else if ph = 7 then s |> trainedPart p rates |> failReset p |> recordControl 16 true (some p) []
    else failReset p s)

/-- A partition reset is asked for (R396, R398, R406, R433). -/
def startReset (p : Nat) (s : State) : State :=
  let f := fenceState s p
  if f = 3 ∨ f = 4 ∨ s.flt.halted ∨ rdF s Reg.bringupStatus 19 16 < 9 ∨ resetPhase s p = 2 then s
  else
    let s := { s with flt := { s.flt with resetAt := mset 0 s.flt.resetAt p (now s) } }
    if f = 2 then enterHold p s
    else s |> startFence p 4 |> setPhase p 2

-- Device reset (R400) and power-on (R403)

/-- Registers that the always-on domain keeps over a device reset (R378, R400). -/
def alwaysOn (a : Nat) : Bool :=
  decide (a < 0x40000 ∨ (0x60000 ≤ a ∧ a < 0x70000) ∨ (0xD0000 ≤ a ∧ a < 0xE0000))

/-- Bring-up right after FUSE_LOAD (R400, R453). -/
def afterFuseLoad (s : State) : State :=
  wrReg Reg.bringupStatus (wd (2 ^ 16 + (if (validLicence s).isSome then 0 else 2) * 2 ^ 8 + 2 * 2 ^ 4 + 1)) s

/-- A device reset (R400, R433): the always-on domain keeps its blocks, the clock and the audit log; bring-up stands
after FUSE_LOAD; every partition is FENCED; all else takes its reset value. -/
def resetDevice (s : State) : State :=
  let s := endSession .pcie s
  let s := resetRegs (fun a => !alwaysOn a) s
  let s := (List.range 32).foldl (fun s n => wrF (Reg.portPitch n) 3 2 0 s) s
  let s := (List.range 4).foldl (fun s p => s |> wrF Reg.fenceStatus (16 * p + 15) (16 * p) 0x42 |> setPhase p 0) s
  let kept : Flt := { s.flt with
    halted := false, smdOn := false, fenceAt := [], resetTenants := [],
    present := s.flt.present.filter (fun x => x == 19 || x == 20 || x == 27) }
  let boot : Boot := { s.boot with
    routeWritten := false, jobFetch := false, dmaRun := false, ports := [], running := 0, stepFrom := 0, trainEnd := 0 }
  let pwr : Pwr := { lastRead := s.pwr.lastRead, lostRails := s.pwr.lostRails, faultRails := s.pwr.faultRails }
  { s with mem := [], ecc := [], tiles := [], banks := [], cpl := [], rma := {}, hbm := [], ports := [], net := {}, coll := {},
           cvu := [], host := {}, twin := {}, pwr := pwr, flt := kept, boot := boot }
    |> loadFuses |> afterFuseLoad

/-- A write of FAULT.RESET_CTRL (R398, R400, R407): DEVICE_RESET overrides the PART bits. -/
def resetCtrlWrite (who : Writer) (v : Word) (s : State) : Nat × State :=
  withRoleDo .operator who Reg.resetCtrl (fun s =>
    if bit v 63 then resetDevice s else (maskBits (fld v 3 0) 4).foldl (fun s p => startReset p s) s) s

/-- PART_RESET (R398). -/
def execPartReset (who : Writer) (v : Word) (s : State) : Host.Outcome State Fault Refusal :=
  ok (answered who Reg.resetCtrl (resetCtrlWrite who (setBit v 63 false) s))

/-- DEVICE_RESET (R400). -/
def execDeviceReset (who : Writer) (s : State) : Host.Outcome State Fault Refusal :=
  ok (answered who Reg.resetCtrl (resetCtrlWrite who (wd (2 ^ 63)) s))

/-- Registers whose contents lie in fuses or flash (R441, R443, R447): keys, SVN_MIN, the update lock, the slot states and
the boot slot. -/
def inFlash (a : Nat) : Bool := decide ((0x400 ≤ a ∧ a < 0xC00) ∨ a = Reg.svnMin ∨ a = Reg.fwLock)

/-- The slot states and the boot slot of FWUPD.STATUS; an update that ran leaves its slot EMPTY (R449, R457). -/
def flashStatus (s : State) : Word :=
  let w := rd s Reg.fwStatus
  let w := if fld w 2 0 = 1 ∨ fld w 2 0 = 2 then (if bit w 15 then setFld w 19 16 0 else setFld w 23 20 0) else w
  wd (fld w 23 15 * 2 ^ 15)

/-- Power-on (R403, R427): everything starts again but fuses and flash. -/
def powerOn (s : State) : State :=
  let boot : Boot := {
    stackCount := s.boot.stackCount, ioDies := s.boot.ioDies, fuseBad := s.boot.fuseBad, serial := s.boot.serial,
    licence := s.boot.licence, draff := s.boot.draff, slotA := s.boot.slotA, slotB := s.boot.slotB,
    audit := s.boot.audit, auditNext := s.boot.auditNext }
  ({ regs := s.regs.filter (fun kv => inFlash kv.1), boot := boot, out := s.out, free := s.free,
     pending := s.pending } : State) |> wrReg Reg.fwStatus (flashStatus s)

/-- RESET_N (R400, R402, R403): low for more than 10 ms it also resets the always-on domain. -/
def execResetN (longer : Bool) (s : State) : Host.Outcome State Fault Refusal :=
  ok (if longer then powerOn s else resetDevice s)

/-- PWRGD_IN (R403): low. -/
def execPwrgdIn (s : State) : Host.Outcome State Fault Refusal := ok (powerOn s)

/-- Bits of INPUT_STATUS of an input (R407). -/
def inputNo : SideInput → Nat
  | .resetN => 0
  | .pwrgdIn => 1
  | .timePps => 2
  | .timeClk => 3

/-- An input is found chattering or stuck (R403): INPUT is raised. -/
def markInput (i : SideInput) (chatter : Bool) (s : State) : State :=
  s |> wrB Reg.inputStatus (8 * inputNo i + (if chatter then 1 else 2)) true
    |> recordControl 27 true none [] |> setPresent 27 true

/-- An input is steady again; the condition of INPUT ends with the last one (R385, R403). -/
def steadyInput (i : SideInput) (s : State) : State :=
  let s := wrF Reg.inputStatus (8 * inputNo i + 2) (8 * inputNo i + 1) 0 s
  setPresent 27 ([0, 1, 2, 3].any (fun k => rdF s Reg.inputStatus (8 * k + 2) (8 * k + 1) != 0)) s

/-- INPUT_STUCK (R403): what the filter of an input finds, chatter, a stuck state, or none that the input is steady again.
An input that chatters counts as asserted; TIME_PPS and TIME_CLK can also stick. -/
def execInputStuck (i : SideInput) (chatter : Option Bool) (s : State) : Host.Outcome State Fault Refusal :=
  ok (match chatter with
    | none => steadyInput i s
    | some c =>
      match i with
      | .resetN => if c then markInput i c (resetDevice s) else s
      | .pwrgdIn => if c then markInput i c (powerOn s) else s
      | _ => if isMaster s && rdF s Reg.timeCtrl 7 6 != 0 then extLost (markInput i c s) else markInput i c s)

end Sys2Proof.Machine
end

