-- ==== Sys2Proof/Machine/Links.lean ====
section
/-! DEFINITION. Sequenced flits, credits, the merge of a bond and the loss of a port (R222–R236, R242–R244, R259–R264),
and the send of pitch packets in their slots (R47, R52). -/

namespace Sys2Proof.Machine

-- Flits (R222–R226)

/-- The data of a flit as bytes. -/
def flitBytes (f : Flit) : List Byte := leBytes 56 f.data.toNat

/-- TYPE of a flit (R225). -/
def flitType (f : Flit) : Nat := fld f.trailer 11 8

/-- Sequenced types, first sent or replayed (R225). -/
def sequenced (t : Nat) : Bool := decide ((1 ≤ t ∧ t ≤ 4) ∨ (9 ≤ t ∧ t ≤ 12))

/-- The CRC of a flit (R226). -/
def flitCrc (data : List Byte) (low seq : Nat) : Nat :=
  let k := crcPreset 1
  crcOut k (crcRun k k.init (data ++ leBytes 4 low ++ leBytes 2 seq))

/-- A flit with its trailer (R224, R226). -/
def mkFlit (data : BitVec 448) (type ack vc count seq : Nat) : Flit :=
  let low := ack % 4096 * 2 ^ 20 + vc % 8 * 2 ^ 17 + count % 32 * 2 ^ 12 + type % 16 * 2 ^ 8
  { data := data,
    trailer := wd (flitCrc (leBytes 56 data.toNat) low (if sequenced type then seq else 0xFFFF) * 2 ^ 32 + low) }

/-- Cuts bytes into the data of flits. -/
def cutFlits : Nat → List Byte → List (BitVec 448)
  | 0, _ => []
  | n + 1, bs => BitVec.ofNat 448 (leNat (bs.take 56)) :: cutFlits n (bs.drop 56)

/-- The flits of a packet (R195, R225), without their trailers' link fields. -/
def packetFlits (p : Packet) : List Flit :=
  let n := flitCount p
  (cutFlits n (packetBytes p)).zipIdx.map (fun d =>
    let t := if n = 1 then 4 else if d.2 = 0 then 1 else if d.2 + 1 = n then 3 else 2
    { data := d.1, trailer := wd (t * 2 ^ 8) })

/-- Whether a flit begins a packet, and whether it ends one. -/
def isHead (f : Flit) : Bool := [1, 4, 9, 12].contains (flitType f)
/-- See `isHead`. -/
def isTail (f : Flit) : Bool := [3, 4, 11, 12].contains (flitType f)

/-- The header of the packet that a first flit begins. -/
def headOf (f : Flit) : Packet := bytesPacket (flitBytes f)

-- Sending (R227–R230, R234, R235)

/-- Credits that the sender holds on a channel (R253). -/
def available (s : State) (n v : Nat) : Nat := rdF s (Reg.creditState n v) 31 16

/-- Whether a port that is UP can send a new flit on a channel now (R230, R234). -/
def canSend (s : State) (n v : Nat) : Bool :=
  decide (portState s n = 4 ∧ (prt s n).replay.length < 2048 ∧ 0 < available s n v)

/-- The wait of a channel for credit so far: its ticks are counted (R283). -/
def countStall (n v : Nat) (s : State) : State :=
  match mget 0 (prt s n).stall v with
  | 0 => s
  | t => addSat (Reg.congLive n v 1) 63 32 (now s + 1 - t) s

/-- The wait of a channel for credit ends: its ticks are counted (R283). -/
def endStall (n v : Nat) (s : State) : State :=
  s |> countStall n v |> onPrt n (fun x => { x with stall := mset 0 x.stall v 0 })

/-- Every wait of a port for credit ends. -/
def endStalls (n : Nat) (s : State) : State := (List.range 8).foldl (fun s v => endStall n v s) s

/-- A channel of a port that is UP waits for credit from now on (R283). -/
def startStall (n v : Nat) (s : State) : State :=
  if portState s n = 4 then
    onPrt n (fun x => if mget 0 x.stall v = 0 then { x with stall := mset 0 x.stall v (now s + 1) } else x) s
  else s

/-- What waits at a port waits for credit where the channel has none. -/
def beginStall (n v : Nat) (s : State) : State := if available s n v = 0 then startStall n v s else s

/-- Sends a new sequenced flit on a port (R226–R230, R234, R235). -/
def sendSeq (n : Nat) (x : SeqFlit) (s : State) : State :=
  let p := prt s n
  let r := takeReturn p
  let f := mkFlit x.flit.data (flitType x.flit) (ackSeq p) r.1 r.2.1 p.txSeq
  let q : Port := r.2.2
  s |> endStall n x.vc
    |> onPrt n (fun y => { q with
        stall := y.stall, txSeq := (p.txSeq + 1) % 4096, replay := p.replay ++ [{ x with seq := p.txSeq, flit := f }],
        ackStart := if p.replay = [] then now s else p.ackStart })
    |> wrF (Reg.creditState n x.vc) 31 16 (available s n x.vc - 1)
    |> addSat (Reg.congLive n x.vc 0) 63 0 1
    |> emit (.flit n f)

/-- Sends an unsequenced IDLE flit with the acknowledgement and one credit return (R229, R235). -/
def sendIdle (n : Nat) (s : State) : State :=
  let p := prt s n
  let r := takeReturn p
  s |> onPrt n (fun _ => r.2.2) |> emit (.flit n (mkFlit 0 0 (ackSeq p) r.1 r.2.1 0))

/-- IDLE flits until no credit is owed (R235). -/
def returnCredits (n : Nat) : Nat → State → State
  | 0, s => s
  | k + 1, s => if portState s n = 4 ∧ nextReturn (prt s n) ≠ none then returnCredits n k (sendIdle n s) else s

/-- Sends what waits at a port while it can (R241). -/
def flushHeld (n : Nat) : Nat → State → State
  | 0, s => s
  | k + 1, s =>
    match (prt s n).held with
    | [] => s
    | x :: r =>
      if canSend s n x.vc then flushHeld n k (sendSeq n x (onPrt n (fun p => { p with held := r }) s))
      else beginStall n x.vc s

/-- A flit for a port: sent, or held behind what waits there (R241, R263). -/
def putFlit (n : Nat) (x : SeqFlit) (s : State) : State :=
  if (prt s n).held = [] && canSend s n x.vc then sendSeq n x s
  else onPrt n (fun p => { p with held := p.held ++ [x] }) s

/-- The flits of a packet that is not dealt, in consecutive places of one port (R261, R264). -/
def ownFlits (p : Packet) : List SeqFlit := (packetFlits p).map (fun f => { vc := p.vc, flit := f, own := some p })

/-- A packet that is not dealt goes out on one port behind what waits there (R264). -/
def putPacket (n : Nat) (p : Packet) (s : State) : State := (ownFlits p).foldl (fun s x => putFlit n x s) s

/-- TYPE of a flit that is sent again (R225). -/
def replayType (t : Nat) : Nat := if 1 ≤ t ∧ t ≤ 4 then t + 8 else t

/-- A replay: every unacknowledged flit is sent again in order, with its own credit return and the current ACK_SEQ, and the
replay is counted (R230, R231, R254). -/
def replayAll (n : Nat) (s : State) : State :=
  let p := prt s n
  let s := addSat (Reg.portErrCount n) 31 16 1 s
  let s := p.replay.foldl (fun s x =>
    emit (.flit n (mkFlit x.flit.data (replayType (flitType x.flit)) (ackSeq p) (fld x.flit.trailer 19 17)
      (fld x.flit.trailer 16 12) x.seq)) s) s
  onPrt n (fun x => { x with ackStart := now s, replays := x.replays + 1 }) s

-- Packets that a port drops (R244, R306)

/-- An operation of this device is answered LINK_DOWN where no response matched before (R244). -/
def linkDownOwn (p : Packet) (s : State) : State :=
  let e := cplOf s p.tag
  if e.st = .opened ∧ e.gen = p.gen then
    let s := noteError p.tag 0x00E s
    failTag p.tag (cplOf s p.tag).firstErr e.late s
  else s

/-- The ACK of R244 to a requester. -/
def linkDownAck (back : Nat) (p : Packet) (s : State) : State :=
  if back = ownDev s then linkDownOwn p s
  else
    inject { dst := back, opcode := 0x61, gen := p.gen, tag := p.tag, tenant := p.tenant, len4 := 2, addr := p.addr,
             status := 0x00E, payload := countBytes 0 } s

/-- The axis of a phase of an operation whose plan is not at hand: reductions run from axis 1, gathers back from the
last (R299). -/
def phaseAxis (x : Group) (op phase : Nat) : Nat :=
  let ax := axesOf x.shape
  if op = 0x41 then ax.reverse.getD (phase % max 1 ax.length) 0 else ax.getD (phase % max 1 ax.length) 0

/-- The position that sent a collective packet (R298), as far as this device can tell. -/
def srcPos (s : State) (p : Packet) : Nat :=
  match groupAt s (p.addr / 2 ^ 36 % 4096) (p.addr / 2 ^ 35 % 2) with
  | none => p.pos
  | some x =>
    match s.coll.insts.find? (fun i => i.gid == p.addr / 2 ^ 36 % 4096 && i.num % 2 ^ 24 == p.seg) with
    | some i =>
      if i.sub = 4 ∨ i.sub = 5 then p.addr % 2 ^ 32 / max 1 (shareBytes x i)
      else
        match (instPlan x i).phases[p.addr / 2 ^ 32 % 8]? with
        | some ph => withDigit x.shape p.pos ph.axis p.digit
        | none => p.pos
    | none => withDigit x.shape p.pos (phaseAxis x p.opcode (p.addr / 2 ^ 32 % 8)) p.digit

/-- The CL_ABORTs of a collective packet that is dropped (R306). -/
def linkDownColl (p : Packet) (s : State) : State :=
  let go (dev pos : Nat) (s : State) : State :=
    inject { dst := dev, opcode := 0x44, vc := 1, pos := pos, tenant := p.tenant, addr := p.addr / 2 ^ 35 * 2 ^ 35,
             seg := p.seg, status := 0x00E } s
  if p.opcode = 0x44 then s else s |> go p.dst p.pos |> go p.src (srcPos s p)

/-- Answers the requester of a dropped packet (R244). -/
def answerDropped (p : Packet) (s : State) : State :=
  if isRequest p.opcode || isPitchOp p.opcode then linkDownAck p.src p s
  else if isResponse p.opcode then (if p.opcode = 0x61 ∧ p.status = 0x00E then s else linkDownAck p.dst p s)
  else if isColl p.opcode then linkDownColl p s
  else s

-- Bonds, sender (R259–R264)

/-- The rotation list of a bond: every member ascending, then every full-width one again (R260). -/
def rotList (members full : Nat) : List Nat := maskBits members 32 ++ (maskBits members 32).filter (fun n => full.testBit n)

/-- Members of a bond's rotation as a mask (R282). -/
def rotMask (s : State) (b : Nat) : Nat := rdF s (Reg.bond b) 31 0

/-- Sets the rotation of a bond. -/
def setRot (b members full : Nat) (s : State) : State :=
  s |> wrF (Reg.bond b) 31 0 members |> onBnd b (fun x => { x with full := full })

/-- A BOND_MAP or BOND_RESTART packet (R262). -/
def bondPacket (s : State) (op n full members : Nat) : Packet :=
  { dst := rdF s (Reg.neighbour n) 13 0, src := ownDev s, vc := 7, epoch := injectEpoch s, opcode := op, len4 := 2,
    payload := leBytes 4 members ++ leBytes 4 full }

/-- The masks of a BOND_MAP or BOND_RESTART packet: members and full-width members. -/
def bondMasks (p : Packet) : Nat × Nat := (leNat (p.payload.take 4), leNat ((p.payload.drop 4).take 4))

/-- A new rotation is announced: dealt like any packet, or on the first member of an empty bond (R262). -/
def announceRot (b members full : Nat) (s : State) : State :=
  if rotMask s b = 0 then
    match maskBits members 32 with
    | [] => s
    | n :: _ =>
      let p := bondPacket s 0x70 n full members
      (packetFlits p).foldl (fun s f => putFlit n { pos := some (bnd s b).pos, vc := 7, flit := f } s) s
        |> onBnd b (fun x => { x with pos := x.pos + 1 }) |> setRot b members full
  else
    onBnd b (fun x => { x with queue := x.queue ++
      [(32, bondPacket s 0x70 ((maskBits (rotMask s b) 32).headD 0) full members)] }) s

/-- The rotation that a bond has or will have once every BOND_MAP that waits is dealt. -/
def rotAhead (s : State) (b : Nat) : Nat × Nat :=
  match ((bnd s b).queue.filter (fun q => q.2.opcode == 0x70)).getLast? with
  | some q => bondMasks q.2
  | none => (rotMask s b, (bnd s b).full)

/-- A port joins its bond's rotation, or changes its width there; a port whose neighbour differs is kept out (R259,
R262). -/
def joinBond (n : Nat) (s : State) : State :=
  match bondOf s n with
  | none => s
  | some b =>
    let r := rotAhead s b
    let others := (maskBits r.1 32).filter (fun m => m != n)
    if others.any (fun m => rdF s (Reg.neighbour m) 13 0 != rdF s (Reg.neighbour n) 13 0) then
      orReg Reg.routeEvent (2 ^ 8) s
    else
      let wide := rdF s (Reg.portStatus n) 13 12 = 3
      let full := maskOf ((maskBits r.2 32).filter (fun m => m != n)) + (if wide then 2 ^ n else 0)
      if r.1.testBit n && decide (full = r.2) then s else announceRot b (r.1 ||| 2 ^ n) full s

/-- A port leaves its bond's rotation before it rests (R245, R262). -/
def leaveBond (n : Nat) (s : State) : State :=
  match bondOf s n with
  | none => s
  | some b =>
    let r := rotAhead s b
    announceRot b (maskOf ((maskBits r.1 32).filter (fun m => m != n)))
      (maskOf ((maskBits r.2 32).filter (fun m => m != n))) s

/-- The first place in the bond's stream of a dealt flit that a member has not had acknowledged, or has not sent (R264). -/
def firstUnacked (p : Port) : Option Nat := (p.replay ++ p.held).findSome? (fun x => x.pos)

/-- Packets dealt to a bond that every member has had acknowledged are forgotten, but for the one still being dealt. -/
def pruneDealt (b : Nat) (s : State) : State :=
  let l := (bondPorts s b).filterMap (fun n => firstUnacked (prt s n))
  onBnd b (fun x => { x with
    dealt := x.dealt.filter (fun d => decide (x.pos < d.till) || l.any (fun k => decide (k < d.till))) }) s

/-- A mask without a member. -/
def without (mask n : Nat) : Nat := maskOf ((maskBits mask 32).filter (fun m => m != n))

/-- The packets of a bond with a flit at a place or later: still queued at a member, or not sent whole (R264). -/
def dealtFrom (x : Bond) (p0 : Nat) : List Dealt := x.dealt.filter (fun d => decide (p0 < d.till))

/-- The place of the first flit of the first of some dealt packets, at most `p0`. -/
def cutAt (l : List Dealt) (p0 : Nat) : Nat := l.foldl (fun a d => min a (d.till - flitCount d.pkt)) p0

/-- A queued BOND_MAP without a member that is gone (R262). -/
def mapWithout (n : Nat) (q : Nat × Packet) : Nat × Packet :=
  if q.2.opcode = 0x70 then
    (q.1, { q.2 with payload := leBytes 4 (without (bondMasks q.2).1 n) ++ leBytes 4 (without (bondMasks q.2).2 n) })
  else q

/-- The loss of a member of a bond (R264): packets from its first unacknowledged place on are answered and dropped, the
rotation restarts without it, and members that wait to join are announced again. Places count on across a restart, so the
loss of a second member finds its packets (R279). -/
def restartBond (n b : Nat) (s : State) : State :=
  let s := onBnd b (fun x => { x with queue := x.queue.map (mapWithout n) }) s
  if !(rotMask s b).testBit n then s
  else
    let p0 := (firstUnacked (prt s n)).getD (bnd s b).pos
    let lost := dealtFrom (bnd s b) p0
    let left := without (rotMask s b) n
    let full := without (bnd s b).full n
    let want := (without (rotAhead s b).1 n, without (rotAhead s b).2 n)
    let s := (maskBits left 32).foldl (fun s m => onPrt m (fun x => { x with
      held := x.held.filter (fun y => match y.pos with | some k => decide (k < cutAt lost p0) | none => true) }) s) s
    let fresh (x : Bond) : Bond :=
      { x with base := x.pos, dealing := [], dealt := x.dealt.filter (fun d => decide (d.till ≤ p0)),
               queue := x.queue.filter (fun q => q.2.opcode != 0x70) }
    let s := s |> onBnd b fresh |> setRot b left full
    let s := (maskBits left 32).foldl (fun s m => putPacket m (bondPacket s 0x71 m full left) s) s
    let s := lost.foldl (fun s d => answerDropped d.pkt s) (orReg Reg.routeEvent (2 ^ 7) s)
    if want = (left, full) then s else announceRot b want.1 want.2 s

-- The loss of a port (R243)

/-- Whether a bond still has a port that takes packets, now or once it is back (R243, R279). -/
def bondAlive (s : State) (b : Nat) : Bool :=
  (bondPorts s b).any (fun n => portState s n == 4 || portState s n == 5 || portState s n == 7 || portState s n == 8)

/-- A resting port wakes (R246). -/
def wakePort (n : Nat) (s : State) : State :=
  if portState s n = 7 then s |> wrF (Reg.portStatus n) 3 0 8 |> onPrt n (fun p => { p with since := now s }) |> emit (.train n)
  else s

/-- A packet waits for a bond none of whose members is UP: a resting one wakes (R246, R279). -/
def wakeBond (b : Nat) (s : State) : State :=
  if (bondPorts s b).any (fun n => portState s n == 4) then s
  else match (bondPorts s b).find? (fun n => portState s n == 7) with
    | some n => wakePort n s
    | none => s

/-- Packets that wait for a bond with no member left are answered LINK_DOWN (R243, R279). -/
def emptyBond (b : Nat) (s : State) : State :=
  if bondAlive s b then s
  else
    let l := (bnd s b).queue.map (·.2)
    l.foldl (fun s p => answerDropped p s) (onBnd b (fun x => { x with queue := [] }) s)

/-- Tenants of packets, each once. -/
def tenantsOf (l : List Packet) : List Nat := (l.map (·.tenant)).eraseDups

/-- Packets of a port that are not dealt, such as pitch packets, and whose last flit is not acknowledged: they are not
surely delivered. -/
def ownPackets (p : Port) : List Packet := ((p.replay ++ p.held).filter (fun x => isTail x.flit)).filterMap (fun x => x.own)

/-- Everything queued for a port is dropped and answered; pitch packets held in the pitch buffer go on late (R243,
R244, R264). The tenants of the dropped packets are handed on. -/
def dropPort (n : Nat) (s : State) : List Nat × State :=
  let b := bondOf s n
  let mine := ownPackets (prt s n)
  let gone := match b with
    | some k =>
      if (rotMask s k).testBit n then
        (dealtFrom (bnd s k) ((firstUnacked (prt s n)).getD (bnd s k).pos)).map (·.pkt)
      else []
    | none => []
  let s := match b with | some k => restartBond n k s | none => s
  let s := onPrt n (fun x => { x with replay := [], held := [] }) s
  let s := mine.foldl (fun s p => (copiesOf p).foldl (fun s c => answerDropped c s) s) s
  (tenantsOf (gone ++ mine), s |> lateAll n)

/-- States in which a port runs (R251). -/
def isRunning (st : Nat) : Bool := [3, 4, 5, 7, 8].contains st

/-- The port of a bond whose sender number is given (R260). -/
def portFrom (s : State) (b m : Nat) : Option Nat :=
  (bondPorts s b).find? (fun n => rdF s (Reg.neighbour n) 20 16 == m)

/-- A rotation of the receiver none of whose members runs any more is forgotten: the bond takes its first member anew
(R262, R264). -/
def forgetRx (b : Nat) (s : State) : State :=
  let l := (maskBits (bnd s b).rxMembers 32).filterMap (portFrom s b)
  if l.any (fun n => [4, 5, 7, 8].contains (portState s n)) then s
  else onBnd b (fun x => { x with
    rxMembers := 0, rxFull := 0, rxPos := 0, merging := [], restartMask := 0, restartSeen := 0 }) s

/-- Whether a port that leaves service sets LINK_DOWN (R243, R248, R251): from any state but DOWN and DISABLED, and with
FORCE_DOWN from any state. -/
def setsLinkDown (was why : Nat) : Bool := decide (1 < was ∨ why = 3)

/-- A port leaves service: DOWN (1) or DISABLED (0), with the reason (R243, R248). -/
def portOff (n st why : Nat) (s : State) : State :=
  let was := portState s n
  let r := dropPort n s
  let s := endStalls n r.2
  let quiet (x : Port) : Port :=
    { x with rxq := [], inPitch := false, restPhase := 0, replays := 0, limitRetrain := false,
             txOffUntil := if st = 1 then some (now s + 1600000) else none }
  let s := s |> wrF (Reg.portStatus n) 31 0 (why * 2 ^ 8 + st + (if rdB s (Reg.portStatus n) 14 then 2 ^ 14 else 0))
    |> wrF (Reg.portPitch n) 3 2 0
    |> (if setsLinkDown was why then orReg (Reg.portEvent n) 2 else id)
    |> onPrt n quiet
  let s := match bondOf s n with
    | some b =>
      let s := s |> emptyBond b |> forgetRx b
      if (bnd s b).queue = [] then s else wakeBond b s
    | none => s
  checkLink n r.1 s

/-- A port goes DOWN (R243). -/
def portDown (n why : Nat) (s : State) : State := portOff n 1 why s

-- Bonds, receiver (R260–R264)

/-- Space of the ingress buffer of a port is free again: the credit is owed (R235). -/
def owe (n v : Nat) (s : State) : State :=
  onPrt n (fun x => { x with owed := setNth x.owed v (nth x.owed v + 1) }) s

/-- A new rotation at the receiver (R262). -/
def rxMap (b : Nat) (p : Packet) (s : State) : State :=
  onBnd b (fun x => { x with rxMembers := (bondMasks p).1, rxFull := (bondMasks p).2 }) s

/-- A packet leaves the merge: BOND_MAP applies, any other goes to the router (R260, R262). -/
def mergeOut (b n : Nat) (fs : List Flit) (s : State) : State :=
  let p := { bytesPacket (fs.flatMap flitBytes) with heldFrom := (bnd s b).mergeFrom }
  if p.opcode = 0x70 then rxMap b p s
  else { s with net := { s.net with routerQ := s.net.routerQ ++ [(some n, p)] } }

/-- The merge takes the next flit from a port. -/
def mergeTake (b n : Nat) (r : RxFlit) (s : State) : State :=
  let f := r.flit
  let v := if isHead f then (headOf f).vc else (bnd s b).rxVc
  let fs := (if isHead f then [] else (bnd s b).merging) ++ [f]
  let took (x : Bond) : Bond :=
    { x with rxPos := x.rxPos + 1, rxVc := v, merging := if isTail f then [] else fs,
             mergeFrom := if isHead f then r.since else x.mergeFrom }
  let s := s |> onPrt n (fun x => { x with rxq := x.rxq.drop 1 }) |> owe n v |> onBnd b took
  if isTail f then mergeOut b n fs s else s

/-- Merges what has arrived, in the order in which it was dealt (R260). A bond with no member yet takes its first by
BOND_MAP (R262). -/
def merge (b : Nat) : Nat → State → State
  | 0, s => s
  | k + 1, s =>
    let x := bnd s b
    if x.restartMask ≠ 0 then s
    else
      let l := rotList x.rxMembers x.rxFull
      if l = [] then
        (match (bondPorts s b).find? (fun n => match (prt s n).rxq with
            | r :: _ => isHead r.flit && (headOf r.flit).opcode == 0x70
            | [] => false) with
         | some n => (match (prt s n).rxq with | r :: _ => merge b k (mergeTake b n r s) | [] => s)
         | none => s)
      else
        match portFrom s b (l.getD (x.rxPos % l.length) 0) with
        | none => s
        | some n => (match (prt s n).rxq with | r :: _ => merge b k (mergeTake b n r s) | [] => s)

/-- Every flit that waits in the merges of a bond. -/
def mergeLoad (s : State) (b : Nat) : Nat := ((bondPorts s b).map (fun n => (prt s n).rxq.length)).foldl (fun a c => a + c) 0

/-- A BOND_RESTART marker arrives on a port (R264). -/
def rxRestart (n full members : Nat) (s : State) : State :=
  match bondOf s n with
  | none => s
  | some b =>
    let s := (prt s n).rxq.foldl (fun s x => owe n x.vc s) s
    let s := onPrt n (fun x => { x with rxq := [] }) s
    let me := rdF s (Reg.neighbour n) 20 16
    let x := bnd s b
    let seen := (if x.restartMask = members then x.restartSeen else 0) ||| 2 ^ me
    let mark (x : Bond) : Bond :=
      { x with merging := [], restartMask := members, restartSeen := seen }
    let s := onBnd b mark s
    if seen &&& members = members then
      s |> onBnd b (fun x => { x with restartMask := 0, restartSeen := 0, rxMembers := members, rxFull := full, rxPos := 0 })
        |> orReg Reg.routeEvent (2 ^ 7) |> (fun s => merge b (mergeLoad s b) s)
    else s

/-- BOND_MAP (R262): the receiver's rotation changes at the position after the packet. -/
def execBondMap (b full members : Nat) (s : State) : Host.Outcome State Fault Refusal :=
  ok (if b < 12 then
      s |> onBnd b (fun x => { x with rxMembers := members, rxFull := full, rxPos := x.rxPos + 1 })
        |> (fun s => merge b (mergeLoad s b) s)
    else s)

/-- BOND_RESTART (R264). -/
def execBondRestart (n full members : Nat) (s : State) : Host.Outcome State Fault Refusal :=
  ok (if portState s n = 4 then rxRestart n full members s else s)

-- Pitch slots (R47, R52, R56)

/-- A staged packet that was not staged 24 ticks before its slot: an ATSLOT completes MISSED_SLOT, a collective's own
data is sent late (R52, R308). -/
def missStaged (h : Staged) (s : State) : State :=
  match h.coll with
  | none => s |> (fun s => setCpl h.tag { cplOf s h.tag with answered := true } s) |> failTag h.tag stMissedSlot false
  | some k => s |> markLate k.1 k.2.1 k.2.2 |> lateForward h.port none h.pkt

/-- Whether a port can send `k` flits of a channel in consecutive slots now (R230, R234). -/
def roomFor (s : State) (n v k : Nat) : Bool :=
  decide (portState s n = 4 ∧ (prt s n).replay.length + k ≤ 2048 ∧ k ≤ available s n v)

/-- A pitch packet goes out in its slots, past whatever waits at the port; the copy for this device is delivered, and the
other destinations of the branch travel beside it (R47, R50, R270). -/
def sendPitch (n : Nat) (p : Packet) (s : State) : State :=
  let l := copiesOf p
  match joinCopies (l.filter (fun c => c.dst ≠ ownDev s)) with
  | none => l.foldl (fun s c => deliverHere c s) s
  | some q =>
    if roomFor s n 0 (flitCount q) then
      let s := (l.filter (fun c => c.dst = ownDev s)).foldl (fun s c => deliverHere c s) s
      let s := if q.also = [] then s else emit (.branch n q.src q.resId q.also) s
      (ownFlits q).foldl (fun s x => sendSeq n x s) s
    else lateForward n none p s

/-- Sends a claim in its slot, unless it was staged too late (R52). -/
def sendClaim (n : Nat) (w : Claim) (s : State) : State :=
  match w.own with
  | some h => if w.tick < h.stagedAt + 24 then missStaged h s else sendPitch n w.pkt s
  | none => sendPitch n w.pkt s

/-- A claim leaves the pitch buffer. -/
def takeClaim (n : Nat) (c : Claim) (s : State) : State :=
  match c.own with
  | some h => { s with net := { s.net with staged := s.net.staged.erase h } }
  | none => { s with net := { s.net with pitchHeld := s.net.pitchHeld.filter (fun h =>
      !(h.port == n && h.tick == c.tick && h.pkt == c.pkt && h.heldAt == c.heldAt)) } }

/-- A claim loses its slot and goes on late, a collective's own data marked so (R56, R57, R308). -/
def loseClaim (n : Nat) (c : Claim) (s : State) : State :=
  s |> orReg Reg.timeEvent 1
    |> (match c.own with
        | some h => (match h.coll with | some k => markLate k.1 k.2.1 k.2.2 | none => id)
        | none => id)
    |> lateForward n none c.pkt

/-- What a port's earliest claimed slot brings (R47, R56, R57): the claim that is sent, if any, and those that lose their
slots. A claim loses to every one that it shares a slot with and that goes first, and to a packet still in its slots. -/
def slotOutcome (s : State) (n : Nat) (cs : List Claim) (t : Nat) : Option Claim × List Claim :=
  let old := (!schedActive s).toNat
  let here := sortBy (claimFirst old) (cs.filter (fun c => c.tick = t))
  if t < (prt s n).pitchTill then (none, here)
  else
    match here.find? (fun c => !beaten old cs c) with
    | some w => (some w, (cs.erase w).filter w.overlaps)
    | none => (none, here)

/-- PITCH_SLOT_SEND (R47): the earliest claimed slot of a port arrives. -/
def execPitchSlotSend (n : Nat) (s : State) : Host.Outcome State Fault Refusal :=
  ok (let cs := claimsOf s n
    match cs.foldl (fun (a : Option Nat) c => some (match a with | none => c.tick | some x => min x c.tick)) none with
    | none => s
    | some t =>
      let r := slotOutcome s n cs t
      let s := clockTo t s
      let s := (r.1.toList ++ r.2).foldl (fun s c => takeClaim n c s) s
      let s := r.2.foldl (fun s c => loseClaim n c s) s
      match r.1 with
      | none => s
      | some w => s |> onPrt n (fun x => { x with pitchTill := t + flitCount w.pkt }) |> sendClaim n w)

end Sys2Proof.Machine
end

