-- ==== Sys2Proof/Machine/Ports.lean ====
section
/-! DEFINITION. Port states, training, retraining, rest, wake and qualification (R237–R248), the acknowledgement timer
(R230, R231), credit audits (R236), the receipt of frames (R223–R229). -/

namespace Sys2Proof.Machine

/-- Sets PORT.STATUS.STATE. -/
def setPortState (n v : Nat) (s : State) : State := wrF (Reg.portStatus n) 3 0 v s

/-- Sets bits of PORT.EVENT. -/
def portEvents (n mask : Nat) (s : State) : State := orReg (Reg.portEvent n) mask s

-- Training (R238–R240)

/-- A full train begins (R237, R238): an unlicensed port is held DISABLED, a port of no bond stays down (R4, R248,
R258). -/
def startTrain (n : Nat) (s : State) : State :=
  if licensedPorts s ≤ n then s |> setPortState n 0 |> wrF (Reg.portStatus n) 11 8 7
  else if bondOf s n = none ∨ rdB s (Reg.linkctl n) 4 then s
  else
    s |> setPortState n 2 |> emit (.train n)
      |> onPrt n (fun p => { p with since := now s, txOffUntil := none })

/-- Lanes that are usable: good in both directions (R239). -/
def usable (obs : TrainObs) : Nat :=
  maskOf ((List.range 8).filter (fun l => obs.rxLanes.getD l 1 == 0 && obs.txLanes.getD l 1 == 0))

/-- The width that the usable lanes give: 3 full, 1 lanes 0–3, 2 lanes 4–7, 0 none (R239). -/
def widthFor (lanes : Nat) (half : Bool) : Nat :=
  if lanes = 0xFF then 3
  else if !half then 0
  else if lanes % 16 = 15 then 1
  else if lanes / 16 = 15 then 2 else 0

/-- Lanes in use at a width (R250). -/
def lanesOf (w : Nat) : Nat := if w = 3 then 0xFF else if w = 1 then 0x0F else if w = 2 then 0xF0 else 0

/-- PORT.LANE_STATUS of a training: the classification of each direction, unused lanes shown as such (R239, R252). -/
def laneWord (w : Nat) (obs : TrainObs) : Word :=
  let code (l c : Nat) : Nat := if w ≠ 0 ∧ !(lanesOf w).testBit l ∧ c = 0 then 3 else c % 4
  wd (((List.range 8).map (fun l =>
    code l (obs.txLanes.getD l 1) * 2 ^ (4 * l + 32) + code l (obs.rxLanes.getD l 1) * 2 ^ (4 * l))).foldl (fun a b => a + b) 0)

/-- Half width is permitted when both ends permit it (R239). -/
def halfAllowed (s : State) (n : Nat) (obs : TrainObs) : Bool := rdB s (Reg.linkctl n) 3 && obs.nbAllowHalf

/-- Steps 2 and 3, and the locks of 1 and 4 (R238, R239): the width, or the reason for DOWN. -/
def trainWidth (s : State) (n : Nat) (obs : TrainObs) : Nat ⊕ Nat :=
  if 2 ≤ obs.laneMap then .inr 5
  else
    let w := widthFor (usable obs) (halfAllowed s n obs)
    if w = 0 then .inr 4 else if obs.locked then .inl w else .inr 8

/-- Step 3 reports this end's receive classification and its ALLOW_HALF to the neighbour (R239). -/
def reportLanes (n : Nat) (obs : TrainObs) (s : State) : State :=
  if 2 ≤ obs.laneMap then s else emit (.lanes n obs.rxLanes (rdB s (Reg.linkctl n) 3)) s

/-- What steps 1–3 leave in STATUS and LANE_STATUS (R250, R252). -/
def noteWidth (n w : Nat) (obs : TrainObs) (s : State) : State :=
  s |> wrF (Reg.portStatus n) 31 24 (lanesOf w) |> wrF (Reg.portStatus n) 23 16 obs.polarity
    |> wrB (Reg.portStatus n) 15 (obs.laneMap == 1) |> wrF (Reg.portStatus n) 13 12 w
    |> wrF (Reg.portStatus n) 11 8 0 |> wrReg (Reg.laneStatus n) (laneWord w obs)
    |> onPrt n (fun p => { p with nbAllowHalf := obs.nbAllowHalf })

/-- PORT.NEIGHBOUR of an identity (R240, R252). -/
def neighbourWord (obs : TrainObs) : Word := wd (2 ^ 63 + obs.nbPort % 32 * 2 ^ 16 + obs.nbDevice % 2 ^ 14)

/-- Whether the identity received is the one expected (R240). -/
def expected (s : State) (n : Nat) (obs : TrainObs) : Bool :=
  let e := rd s (Reg.neighbourExp n)
  !bit e 63 || (fld e 13 0 == obs.nbDevice % 2 ^ 14 && fld e 20 16 == obs.nbPort % 32)

/-- Step 5: the identities are exchanged, and the neighbour's is recorded (R240). -/
def noteNeighbour (n : Nat) (obs : TrainObs) (s : State) : State :=
  s |> emit (.identity n (ownDev s) n (maxDevices s)) |> wrReg (Reg.neighbour n) (neighbourWord obs)
    |> wrB (Reg.portStatus n) 14 (!sameCube (obs.nbDevice % 2 ^ 14) (ownDev s))

/-- A full train or a retrain brings the written allocation into force; a wake does not (R234). -/
def noteAlloc (n : Nat) (s : State) : State :=
  onPrt n (fun p => { p with alloc := (List.range 8).map (fun v => rdF s (Reg.creditAlloc n) (8 * v + 7) (8 * v)) }) s

/-- The free space of the ingress buffer per channel: the allocation minus the flits still held (R234). -/
def freeRoom (p : Port) : List Nat :=
  (List.range 8).map (fun v => 16 * nth p.alloc v - (p.rxq.filter (fun x => x.vc == v)).length)

/-- Step 6: 64 probe flits measure the delay (R38). Step 7: the credits that the neighbour advertises, and what this end
tells it (R234, R241). -/
def noteCredits (n : Nat) (obs : TrainObs) (s : State) : State :=
  let s := s |> emit (.probe n 64) |> wrReg (Reg.portDelay n) (wd obs.delay16) |> endStalls n
  let s := (List.range 8).foldl (fun s v =>
    wrReg (Reg.creditState n v) (wd (nth obs.nbFree v % 65536 * 65536 + nth obs.nbAlloc v % 65536)) s) s
  let fresh (p : Port) : Port :=
    { p with adv := (List.range 8).map (nth obs.nbAlloc), returned := List.replicate 8 0, received := List.replicate 8 0,
             owed := List.replicate 8 0, auditFrom := now s / 1024 }
  let s := onPrt n fresh s
  emit (.credits n (freeRoom (prt s n)) ((prt s n).alloc.map (fun a => 16 * a)) (prt s n).rxSeq) s

/-- A qualification begins: the port sends its test flits and counts those that it receives (R247). -/
def startQual (n : Nat) (s : State) : State :=
  s |> onPrt n (fun p => { p with hist := [], laneErr := [], testFlits := 0, testFails := 0, since := now s })
    |> emit (.test n 1953125000)

/-- Whether the neighbour's identity differs from the one recorded (R248). -/
def neighbourDiffers (s : State) (n : Nat) (obs : TrainObs) : Bool := rd s (Reg.neighbour n) != neighbourWord obs

/-- A full train ends (R238–R240, R247): QUALIFY, MISWIRED, or DOWN with a reason. -/
def fullTrain (n : Nat) (obs : TrainObs) (s : State) : State :=
  let s := reportLanes n obs s
  match trainWidth s n obs with
  | .inr why => s |> wrReg (Reg.laneStatus n) (laneWord 0 obs) |> portDown n why
  | .inl w =>
    let changed := rdB s (Reg.neighbour n) 63 && neighbourDiffers s n obs
    let s := s |> noteWidth n w obs |> noteNeighbour n obs
    if !expected s n obs then s |> setPortState n 6 |> portEvents n (2 ^ 6) |> checkLink n []
    else
      let fresh (p : Port) : Port :=
        { p with txSeq := 0, rxSeq := 0, replay := [], held := [], rxq := [], inPitch := false, replays := 0,
                 limitDone := none }
      s |> (if changed then portEvents n (2 ^ 9) else id) |> onPrt n fresh |> noteAlloc n |> noteCredits n obs
        |> setPortState n 3 |> wrReg (Reg.qual n) 0 |> startQual n

/-- FULL_TRAIN (R238). -/
def execFullTrain (n : Nat) (obs : TrainObs) (s : State) : Host.Outcome State Fault Refusal :=
  ok (if n < 32 ∧ portState s n = 2 then fullTrain n obs s else s)

/-- TRAIN_TIMEOUT (R238): 50 ms, or 500 µs of a retrain (R241). -/
def execTrainTimeout (n : Nat) (s : State) : Host.Outcome State Fault Refusal :=
  ok (if portState s n = 2 then s |> clockTo ((prt s n).since + 80000000) |> portDown n 8
    else if portState s n = 5 then s |> clockTo ((prt s n).since + 800000) |> portDown n 8
    else s)

/-- Steps 1–5 again at a MISWIRED port (R240): it goes on when the neighbour is the expected one. -/
def execMiswiredRetry (n : Nat) (obs : TrainObs) (s : State) : Host.Outcome State Fault Refusal :=
  ok (if portState s n ≠ 6 then s
    else if (trainWidth s n obs).isLeft && !expected s n obs then s |> reportLanes n obs |> noteNeighbour n obs
    else fullTrain n obs s)

/-- A write of NEIGHBOUR_EXP: a MISWIRED port trains again at once (R240, R249). -/
def neighbourExpWrite (who : Writer) (n : Nat) (v : Word) (s : State) : Nat × State :=
  let a := Reg.neighbourExp n
  withRoleDo .installer who a (fun s =>
    let s := wrReg a (plainValue (Reg.kind a) (rd s a) v) s
    if portState s n = 6 then startTrain n s else s) s

/-- NEIGHBOUR_EXP_WRITE (R240). -/
def execNeighbourExpWrite (who : Writer) (n : Nat) (v : Word) (s : State) : Host.Outcome State Fault Refusal :=
  ok (portCommand who n (Reg.neighbourExp n) (fun s => neighbourExpWrite who n v s) s)

/-- SIGNAL_DETECT (R237): a DOWN port has seen signal on all needed lanes for 10 ms. -/
def execSignalDetect (n : Nat) (s : State) : Host.Outcome State Fault Refusal :=
  ok (if n < portCount s ∧ portState s n = 1 ∧ domainIsOn s (52 + 2 * (n / 8)) then startTrain n s else s)

/-- TX_OFF_EXPIRY (R243): the transmitters come on again and send the training pattern. -/
def execTxOffExpiry (n : Nat) (s : State) : Host.Outcome State Fault Refusal :=
  ok (match (prt s n).txOffUntil with
    | none => s
    | some t => s |> clockTo t |> onPrt n (fun p => { p with txOffUntil := none }) |> emit (.train n))

/-- LANE_LOS (R232, R247, R248): every lane in use shows loss of signal. -/
def execLaneLos (n : Nat) (s : State) : Host.Outcome State Fault Refusal :=
  ok (if isRunning (portState s n) && portState s n != 7 then portDown n 1 s
    else if portState s n = 2 ∨ portState s n = 6 then portDown n 1 s else s)

-- Coming up (R241, R246, R247, R259)

/-- A port is UP (R239, R241, R259): pitch resynchronises, the port joins its bond. -/
def comeUp (n : Nat) (s : State) : State :=
  let w := rdF s (Reg.portStatus n) 13 12
  s |> setPortState n 4 |> wrF (Reg.portPitch n) 3 2 2 |> wrB (Reg.portPitch n) 1 true
    |> onPrt n (fun p => { p with resyncRound := 0, resyncGood := 0, qualified := true, restPhase := 0, since := now s })
    |> (if w = 1 ∨ w = 2 then portEvents n (2 ^ 5) else id)
    |> joinBond n |> checkLink n []

/-- The held queue of a port whose neighbour changed is dropped (R248); the numbers go on (R227). -/
def dropForNew (n : Nat) (s : State) : State :=
  let r := dropPort n s
  r.2 |> onPrt n (fun p => { p with rxq := [], inPitch := false }) |> portEvents n 2

/-- The neighbour's expected number releases what it has accepted; that resets the count of replays (R231, R241). -/
def release_ (n expected : Nat) (s : State) : State :=
  onPrt n (fun p =>
    let left := p.replay.filter (fun x => decide ((x.seq + 4096 - expected % 4096) % 4096 < 2048))
    { p with replay := left, replays := if left = p.replay then p.replays else 0 }) s

/-- A retrain or a wake ends well (R227, R240, R241, R248): identity, credits, what is unacknowledged, then what waits. -/
def backUp (n : Nat) (obs : TrainObs) (s : State) : State :=
  let changed := neighbourDiffers s n obs
  if !expected s n obs then
    s |> dropForNew n |> noteNeighbour n obs |> setPortState n 6 |> portEvents n (2 ^ 6) |> checkLink n []
  else
    let s := if changed then s |> dropForNew n |> portEvents n (2 ^ 9) else s
    let s := s |> noteNeighbour n obs |> release_ n obs.nbExpected |> noteCredits n obs |> portEvents n 1 |> comeUp n
    let s := if (prt s n).replay = [] then s else replayAll n s
    flushHeld n (prt s n).held.length s

-- Retraining (R241, R242)

/-- A retrain begins (R61, R241): the pitch counters are cleared, pitch flits go on late, the queue is held. -/
def startRetrain (n : Nat) (s : State) : State :=
  if portState s n ≠ 4 then s
  else
    s |> setPortState n 5 |> wrF (Reg.portPitch n) 63 16 0 |> lateAll n |> wrF (Reg.portPitch n) 3 2 0
      |> onPrt n (fun p => { p with since := now s, restPhase := 0 }) |> emit (.train n)

/-- The replay limit is reached (R231): a retrain, or DOWN when that happens again within 1 s of the last one's end. -/
def limitReached (n : Nat) (s : State) : State :=
  let s := portEvents n (2 ^ 2) s
  let soon := match (prt s n).limitDone with | some t => decide (now s ≤ t + 1600000000) | none => false
  if soon then portDown n 2 s else s |> onPrt n (fun p => { p with limitRetrain := true }) |> startRetrain n

/-- The events that a trigger sets (R248, R251). -/
def retrainEvents : RetrainWhy → Nat
  | .replayLimit => 2 ^ 2
  | .creditFloor => 2 ^ 3
  | .creditExcess => 2 ^ 4
  | _ => 0

/-- RETRAIN (R241, R248): triggers that fall together run one retrain and set every event. -/
def execRetrain (n : Nat) (why : RetrainWhy) (s : State) : Host.Outcome State Fault Refusal :=
  ok (if portState s n = 4 ∧ why = .replayLimit then limitReached n s
    else if portState s n = 4 ∨ portState s n = 5 then
      s |> portEvents n (retrainEvents why)
        |> onPrt n (fun p => { p with limitRetrain := p.limitRetrain || decide (why = .replayLimit) }) |> startRetrain n
    else s)

/-- TRAINING_PATTERN_SEEN (R241, R247). -/
def execTrainingPatternSeen (n : Nat) (s : State) : Host.Outcome State Fault Refusal :=
  ok (if portState s n = 3 then startTrain n s else startRetrain n s)

/-- RETRAIN_DONE (R241, R242): the width may change; a step that fails sends the port DOWN with its reason. -/
def execRetrainDone (n : Nat) (obs : TrainObs) (s : State) : Host.Outcome State Fault Refusal :=
  ok (if portState s n ≠ 5 then s
    else
      let s := reportLanes n obs s
      match trainWidth s n obs with
      | .inr why => s |> wrReg (Reg.laneStatus n) (laneWord 0 obs) |> portDown n why
      | .inl w =>
        let after (p : Port) : Port :=
          { p with limitDone := if p.limitRetrain then some (now s) else p.limitDone, limitRetrain := false }
        s |> noteWidth n w obs |> onPrt n after |> noteAlloc n |> addSat (Reg.portErrCount n) 15 0 1 |> backUp n obs)

/-- The acknowledgement timeout of a port (R230). -/
def ackTimeout (s : State) (n : Nat) : Nat :=
  if rdB s (Reg.portStatus n) 14 then rdF s (Reg.replayCtrl n) 47 32 else rdF s (Reg.replayCtrl n) 31 16

/-- In slot 0 the time flits of the round go out before anything else (R37, R230, R248). -/
def timeFirst (s : State) : State :=
  if now s % 1024 = 0 ∧ now s / 1024 ≠ s.tim.lastRound then startRound s else s

/-- ACK_TIMER_EXPIRY (R230, R231, R248): a replay, or what R231 says at the limit. -/
def execAckTimerExpiry (n : Nat) (s : State) : Host.Outcome State Fault Refusal :=
  ok (let p := prt s n
    if portState s n ≠ 4 ∨ p.replay = [] then s
    else
      let s := s |> clockTo (p.ackStart + ackTimeout s n) |> timeFirst
      if rdF s (Reg.replayCtrl n) 3 0 ≤ p.replays then limitReached n s else replayAll n s)

-- Credit audits (R236)

/-- Sends an AUDIT with the totals returned before it and one credit return of its own (R235, R236). -/
def sendAudit (n : Nat) (s : State) : State :=
  let p := prt s n
  let r := takeReturn p
  s |> onPrt n (fun _ => { r.2.2 with auditFrom := now s / 1024 })
    |> emit (.audit n (ackSeq p) r.1 r.2.1 r.2.2.returned p.txSeq)

/-- AUDIT_SEND (R236): AUDIT_ROUNDS rounds after the last audit, or after the train, retrain or wake. -/
def execAuditSend (n : Nat) (s : State) : Host.Outcome State Fault Refusal :=
  ok (if portState s n = 4 then
      s |> clockTo (((prt s n).auditFrom + rdF s (Reg.creditCtrl n) 15 8) * 1024) |> sendAudit n
    else s)

/-- LEAKED of a channel by an audit sumOf (R236). -/
def leaked (p : Port) (totals : List Nat) (v : Nat) : Int :=
  signedOf 16 ((nth totals v % 65536 + 65536 - nth p.received v % 65536) % 65536)

/-- The window that is left, and whether it has reached the floor (R236). -/
def auditWindow (p : Port) (totals : List Nat) (v : Nat) : Int := (nth p.adv v : Nat) - leaked p totals v

/-- AUDIT (R236): evaluated only when the expected number is NEXT_SEQ. -/
def execAudit (n : Nat) (totals : List Nat) (nextSeq : Nat) (s : State) : Host.Outcome State Fault Refusal :=
  ok (let p := prt s n
    if portState s n ≠ 4 ∨ p.rxSeq ≠ nextSeq then s
    else
      let s := (List.range 8).foldl (fun s v =>
        s |> wrF (Reg.creditState n v) 47 32 (unsignedOf 16 (leaked p totals v))
          |> wrF (Reg.creditState n v) 15 0 (unsignedOf 16 (auditWindow p totals v))) s
      let excess := (List.range 8).any (fun v => decide (leaked p totals v < 0))
      let low := (List.range 8).any (fun v =>
        decide (16 * auditWindow p totals v ≤ (nth p.adv v * rdF s (Reg.creditCtrl n) 3 0 : Nat)))
      if excess || low then
        s |> portEvents n ((if excess then 2 ^ 4 else 0) + (if low then 2 ^ 3 else 0)) |> startRetrain n
      else s)

-- Frames (R222, R223, R226, R228, R229, R234, R235)

/-- Flits that a receiver drops are counted (R223, R254). -/
def dropFlits (n k : Nat) (s : State) : State := addSat (Reg.portErrCount n) 63 32 k s

/-- An ACK_SEQ releases every flit up to its number, where it names one of the unacknowledged (R229, R231). -/
def takeAck (n ack : Nat) (s : State) : State :=
  let p := prt s n
  if p.replay.any (fun x => x.seq == ack) then
    let rest := (p.replay.dropWhile (fun x => x.seq != ack)).drop 1
    let s := onPrt n (fun p => { p with replay := rest, replays := 0, ackStart := now s }) s
    match bondOf s n with | some b => pruneDealt b s | none => s
  else s

/-- Credits that a flit returns (R224, R235). -/
def takeCredits (n v k : Nat) (s : State) : State :=
  if k = 0 then s
  else
    s |> wrF (Reg.creditState n v) 31 16 (available s n v + k)
      |> onPrt n (fun p => { p with received := setNth p.received v ((nth p.received v + k) % 65536) })

/-- A sequenced flit is accepted (R228, R261): a pitch flit and a BOND_RESTART are taken out of the merge, any other
waits for it. -/
def acceptFlit (n : Nat) (f : Flit) (s : State) : State :=
  let s := onPrt n (fun p => { p with rxSeq := (p.rxSeq + 1) % 4096 }) s
  let h := headOf f
  if (isHead f && h.vc == 0) || (!isHead f && (prt s n).inPitch) then
    s |> onPrt n (fun p => { p with inPitch := !isTail f }) |> owe n 0
      |> wrF (Reg.congLive n 0 1) 31 16 (max (rdF s (Reg.congLive n 0 1) 31 16) 1)
  else if isHead f && h.opcode == 0x71 && h.vc == 7 then
    s |> owe n 7 |> rxRestart n (bondMasks h).2 (bondMasks h).1
  else
    let v := if isHead f then h.vc else (prt s n).rxVc
    let s := onPrt n (fun p => { p with rxq := p.rxq ++ [{ vc := v, flit := f, since := now s }], rxVc := v }) s
    let depth := ((prt s n).rxq.filter (fun x => x.vc == v)).length
    let s := wrF (Reg.congLive n v 1) 31 16 (max (rdF s (Reg.congLive n v 1) 31 16) depth) s
    match bondOf s n with | some b => merge b (mergeLoad s b) s | none => s

/-- Types that carry a credit return (R235). -/
def returnsCredit (t : Nat) : Bool := t == 0 || t == 8 || sequenced t

/-- Whether a flit passes its check at a port (R225, R226, R228). -/
def flitGood (s : State) (n : Nat) (f : Flit) : Bool :=
  let t := flitType f
  let fold := if sequenced t then (prt s n).rxSeq else 0xFFFF
  decide (t < 13 ∧ fld f.trailer 63 32 = flitCrc (flitBytes f) (fld f.trailer 31 0) fold)

/-- One flit of a good frame is checked (R225, R226, R228). What a TIME or CTRL flit says comes by its own command: the
spec gives those contents no layout (notes/assumptions/51.md). -/
def rxFlit (n : Nat) (f : Flit) (s : State) : State :=
  let t := flitType f
  if !flitGood s n f then dropFlits n 1 s
  else
    let s := takeAck n (fld f.trailer 31 20) s
    let s := if returnsCredit t then takeCredits n (fld f.trailer 19 17) (fld f.trailer 16 12) s else s
    if sequenced t then acceptFlit n f s else s

/-- Counts a test flit, or one that failed its check, in a qualification (R247, R254). -/
def countTest (n flits fails : Nat) (s : State) : State :=
  onPrt n (fun p => { p with testFlits := p.testFlits + flits, testFails := p.testFails + fails }) s

/-- One flit of a good frame while the port qualifies (R225, R247): TYPE 7 is a test flit. -/
def testFlit (n : Nat) (f : Flit) (s : State) : State :=
  if !flitGood s n f then s |> dropFlits n 1 |> countTest n 1 1
  else if flitType f = 7 then countTest n 1 0 s else s

/-- Corrected symbols of a codeword, in the histogram of R223. -/
def countSymbols (l : List Nat) (k : Nat) : List Nat :=
  setNth (l ++ List.replicate (k + 1 - l.length) 0) k (nth l k + 1)

/-- A port that drains for a rest goes on when it has nothing left: REST_REQ, or REST_ACK and its lanes off (R245). -/
def restStep (n : Nat) (s : State) : State :=
  let p := prt s n
  let out := match bondOf s n with | some b => !(rotMask s b).testBit n | none => true
  if out && decide (p.replay = []) && decide (p.held = []) then
    if p.restPhase = 1 then s |> onPrt n (fun p => { p with restPhase := 2 }) |> sendCtrl n 1
    else if p.restPhase = 3 then
      s |> sendCtrl n 2 |> setPortState n 7 |> onPrt n (fun p => { p with restPhase := 0 })
    else s
  else s

/-- A port that has accepted or released something answers with IDLE flits (R229, R235) and sends what waits. -/
def afterFrame (n : Nat) (s : State) : State :=
  if portState s n = 4 then s |> sendIdle n |> returnCredits n 1024 |> flushHeld n (prt s n).held.length |> restStep n
  else s

/-- Lists added place by place. -/
def addLists (a b : List Nat) : List Nat := (List.range (max a.length b.length)).map (fun i => nth a i + nth b i)

/-- FEC_FRAME (R222, R223, R242, R247): a frame of 16 flits arrives, with the number of symbol errors in each of its two
codewords and, over both, on each lane. The decoder corrects up to 18 in a codeword; the flits of any other frame are dropped. -/
def execFecFrame (n sym0 sym1 : Nat) (lanes : List Nat) (flits : List Flit) (s : State) : Host.Outcome State Fault Refusal :=
  ok (if !(portState s n == 3 || portState s n == 4) then s
    else if 18 < sym0 ∨ 18 < sym1 then s |> dropFlits n 16 |> (if portState s n = 3 then countTest n 16 16 else id)
    else
      let s := onPrt n (fun p => { p with
        hist := countSymbols (countSymbols p.hist sym0) sym1, laneErr := addLists p.laneErr lanes }) s
      if portState s n = 3 then flits.foldl (fun s f => testFlit n f s) s
      else afterFrame n (flits.foldl (fun s f => rxFlit n f s) s))

-- Qualification (R247)

/-- A sum. -/
def sumOf (l : List Nat) : Nat := l.foldl (fun a b => a + b) 0

/-- What a qualification has counted, with what the port saw beside the frames that FEC_FRAME commands showed: codewords
by their number of corrected symbols, uncorrectable frames, test flits that failed their check in corrected frames,
corrected symbols by lane (R223, R247). -/
def addSeen (hist : List Nat) (lost failed : Nat) (lanes : List Nat) (p : Port) : Port :=
  { p with hist := addLists p.hist hist, laneErr := addLists p.laneErr lanes,
           testFlits := p.testFlits + 16 * (sumOf hist / 2 + lost), testFails := p.testFails + failed + 16 * lost }

/-- PROJ_EXP of a qualification, from its histogram alone (R254). -/
def projExp (p : Port) : Nat := min 255 (Config.projectedExp p.hist)

/-- PORT.QUAL with a result (R254). -/
def qualWord (p : Port) (result : Nat) : Word :=
  wd (min (2 ^ 32 - 1) p.testFlits * 2 ^ 32 + min 255 p.testFails * 2 ^ 24 + projExp p * 2 ^ 16 + result * 4)

/-- The half whose lanes show fewer corrected symbols, the lower one where they show as many: 1 lanes 0–3, 2 lanes 4–7
(R247). -/
def betterHalf (p : Port) : Nat := if sumOf (p.laneErr.drop 4) < sumOf (p.laneErr.take 4) then 2 else 1

/-- A width in use after training: its lanes, and UNUSED for the good lanes that are not (R239, R250, R252). -/
def narrowTo (n w : Nat) (s : State) : State :=
  let st := rd s (Reg.laneStatus n)
  let unused (v : Word) (i : Nat) : Word :=
    if (lanesOf w).testBit (i % 8) then v
    else
      let lo := 4 * (i % 8) + 32 * (i / 8)
      if fld v (lo + 3) lo = 0 then setFld v (lo + 3) lo 3 else v
  s |> wrF (Reg.portStatus n) 13 12 w |> wrF (Reg.portStatus n) 31 24 (lanesOf w)
    |> wrReg (Reg.laneStatus n) ((List.range 16).foldl unused st)

/-- QUAL_DONE (R247, R254): the test flits of the qualification have had their time. -/
def execQualDone (n : Nat) (hist : List Nat) (lost failed : Nat) (lanes : List Nat) (s : State) :
    Host.Outcome State Fault Refusal :=
  ok (if portState s n ≠ 3 then s
    else
      let w := rdF s (Reg.portStatus n) 13 12
      let s := s |> clockTo ((prt s n).since + 1953125000 * (if w = 3 then 1 else 2))
        |> onPrt n (addSeen hist lost failed lanes)
      let p := prt s n
      if p.testFails = 0 ∧ 12 ≤ projExp p then
        s |> wrReg (Reg.qual n) (qualWord p (if w = 3 then 1 else 2)) |> portEvents n (2 ^ 7) |> comeUp n
      else if w = 3 ∧ rdB s (Reg.linkctl n) 3 ∧ p.nbAllowHalf then
        s |> wrReg (Reg.qual n) (qualWord p 0) |> narrowTo n (betterHalf p) |> startQual n
      else s |> wrReg (Reg.qual n) (qualWord p 3) |> portEvents n (2 ^ 7) |> portOff n 0 6)

-- Rest and wake (R245, R246)

/-- A rest is refused or cancelled: the port takes packets again (R245, R248). -/
def refuseRest (n : Nat) (s : State) : State :=
  let was := (prt s n).restPhase
  s |> portEvents n (2 ^ 8) |> onPrt n (fun p => { p with restPhase := 0 }) |> (if was = 0 then id else joinBond n)

/-- Whether a port may not rest: it is not UP, it is the last UP member of its bond, or its active schedule holds a
valid entry (R245). -/
def mayNotRest (s : State) (n : Nat) : Bool :=
  portState s n != 4
    || (match bondOf s n with
        | some b => !(bondPorts s b).any (fun m => m != n && portState s m == 4)
        | none => false)
    || (validEntries s (schedActive s) n) != []

/-- A port begins to drain for a rest of its own (1) or its neighbour's (3) (R245). -/
def beginRest (n phase : Nat) (s : State) : State :=
  s |> onPrt n (fun p => { p with restPhase := phase, since := now s }) |> leaveBond n |> restStep n

/-- REST written to LINKCTL (R245, R248). -/
def askRest (n : Nat) (s : State) : State :=
  if mayNotRest s n || (prt s n).restPhase != 0 then portEvents n (2 ^ 8) s else beginRest n 1 s

/-- REST_REQ (R245): the neighbour asks; this end drains its direction, or answers REST_NAK. -/
def execRestReq (n : Nat) (s : State) : Host.Outcome State Fault Refusal :=
  ok (if portState s n ≠ 4 then s
    else if (prt s n).restPhase = 2 ∨ (prt s n).restPhase = 1 then
      s |> onPrt n (fun p => { p with restPhase := 3 }) |> restStep n
    else if mayNotRest s n then sendCtrl n 3 s else beginRest n 3 s)

/-- REST_ACK (R245): lanes off. -/
def execRestAck (n : Nat) (s : State) : Host.Outcome State Fault Refusal :=
  ok (if portState s n = 4 ∧ (prt s n).restPhase = 2 then
      s |> setPortState n 7 |> onPrt n (fun p => { p with restPhase := 0 })
    else s)

/-- REST_NAK (R245). -/
def execRestNak (n : Nat) (s : State) : Host.Outcome State Fault Refusal :=
  ok (if portState s n = 4 ∧ (prt s n).restPhase ≠ 0 then refuseRest n s else s)

/-- REST_TIMEOUT (R245): not complete within 20 µs. -/
def execRestTimeout (n : Nat) (s : State) : Host.Outcome State Fault Refusal :=
  ok (if portState s n = 4 ∧ (prt s n).restPhase ≠ 0 then s |> clockTo ((prt s n).since + 32000) |> refuseRest n else s)

/-- WAKE written to LINKCTL (R246, R248). -/
def askWake (n : Nat) (s : State) : State :=
  if portState s n = 4 ∧ (prt s n).restPhase ≠ 0 then refuseRest n s else wakePort n s

/-- WAKE_DONE (R246): the width before the rest, the credits anew. -/
def execWakeDone (n : Nat) (obs : TrainObs) (s : State) : Host.Outcome State Fault Refusal :=
  ok (if portState s n = 8 then (if obs.locked then backUp n obs s else portDown n 9 s) else s)

/-- WAKE_TIMEOUT (R246): not UP within 50 µs. -/
def execWakeTimeout (n : Nat) (s : State) : Host.Outcome State Fault Refusal :=
  ok (if portState s n = 8 then s |> clockTo ((prt s n).since + 80000) |> portDown n 9 else s)

-- PORT.LINKCTL (R241, R245, R246, R248, R250)

/-- FORCE_DOWN set (R248): the lanes off, DISABLED. -/
def forceDown (n : Nat) (s : State) : State := portOff n 0 3 s

/-- A write of LINKCTL; more than one WO bit is refused without effect (R250). -/
def linkctlWrite (who : Writer) (n : Nat) (v : Word) (s : State) : Nat × State :=
  withRole .installer who (Reg.linkctl n) (fun s =>
    if 1 < popCount (fld v 7 5) 3 then (false, s)
    else
      let was := rdB s (Reg.linkctl n) 4
      let s := wrReg (Reg.linkctl n) (wd (fld v 4 3 * 8)) s
      let s := if bit v 4 && !was then forceDown n s else if was && !bit v 4 then startTrain n s else s
      (true, s |> (if bit v 5 then startRetrain n else id) |> (if bit v 6 then askRest n else id)
        |> (if bit v 7 then askWake n else id))) s

/-- LINKCTL as it stands with one of its bits set. -/
def linkctlWith (s : State) (n bitNo : Nat) : Word := rd s (Reg.linkctl n) ||| wd (2 ^ bitNo)

/-- RETRAIN_NOW_PORT (R250). -/
def execRetrainNowPort (who : Writer) (n : Nat) (s : State) : Host.Outcome State Fault Refusal :=
  ok (portCommand who n (Reg.linkctl n) (fun s => linkctlWrite who n (linkctlWith s n 5) s) s)

/-- FORCE_DOWN_SET (R248). -/
def execForceDownSet (who : Writer) (n : Nat) (s : State) : Host.Outcome State Fault Refusal :=
  ok (portCommand who n (Reg.linkctl n) (fun s => linkctlWrite who n (linkctlWith s n 4) s) s)

/-- FORCE_DOWN_CLEAR (R248). -/
def execForceDownClear (who : Writer) (n : Nat) (s : State) : Host.Outcome State Fault Refusal :=
  ok (portCommand who n (Reg.linkctl n) (fun s => linkctlWrite who n (setBit (rd s (Reg.linkctl n)) 4 false) s) s)

/-- REST (R245). -/
def execRest (who : Writer) (n : Nat) (s : State) : Host.Outcome State Fault Refusal :=
  ok (portCommand who n (Reg.linkctl n) (fun s => linkctlWrite who n (linkctlWith s n 6) s) s)

/-- WAKE (R246): written, signalled by the neighbour, or for a packet. -/
def execWake (n : Nat) (why : WakeWhy) (s : State) : Host.Outcome State Fault Refusal :=
  ok (match why with
    | .write who => portCommand who n (Reg.linkctl n) (fun s => linkctlWrite who n (linkctlWith s n 7) s) s
    | _ => wakePort n s)

end Sys2Proof.Machine
end

