-- ==== Sys2Proof/Machine/Bringup.lean ====
section
/-! DEFINITION. The cellar's boot (R427, R451), the bring-up steps (R429–R433), draff edits (R438), licence install (R441),
keys (R443), sessions (R444, R445), firmware update (R447–R451), the TAP chain (R468). -/

namespace Sys2Proof.Machine

-- The cellar (R427, R447, R448, R451)

/-- CELLAR_STATE (R408): 0 ROM, 1 RUNNING, 2 RECOVERY. -/
def cellarState (s : State) : Nat := rdF s Reg.heartbeat 63 56

/-- Sets CELLAR_STATE. -/
def setCellar (v : Nat) (s : State) : State := wrF Reg.heartbeat 63 56 v s

/-- BOOT_SLOT (R457): false A, true B. -/
def bootB (s : State) : Bool := rdB s Reg.fwStatus 15

/-- State of a slot (R457): 0 EMPTY, 1 VERIFIED, 2 GOOD, 3 BAD. -/
def slotState (s : State) (b : Bool) : Nat := if b then rdF s Reg.fwStatus 23 20 else rdF s Reg.fwStatus 19 16

/-- Sets the state of a slot. -/
def setSlotState (b : Bool) (v : Nat) (s : State) : State :=
  if b then wrF Reg.fwStatus 23 20 v s else wrF Reg.fwStatus 19 16 v s

/-- A slot's image, and its replacement. -/
def slotOf (s : State) (b : Bool) : ImageSlot := if b then s.boot.slotB else s.boot.slotA
/-- See `slotOf`. -/
def putSlot (b : Bool) (x : ImageSlot) (s : State) : State :=
  { s with boot := if b then { s.boot with slotB := x } else { s.boot with slotA := x } }

/-- Words of the header of an image (R448). -/
def headerWords (x : ImageSlot) : List Word := bytesWords 32 (mget [] x.chunks 0)

/-- Whether a header is accepted (R448). -/
def headerFine (s : State) (h : List Word) : Bool :=
  let w0 := h.getD 0 0
  fld w0 63 56 == 1 && decide (rdF s Reg.svnMin 15 0 ≤ fld w0 47 32)
    && decide (fld (h.getD 1 0) 31 0 ≤ 0x2000000 - 256)
    && (match makerSlot s (fld w0 55 48) with
        | some k => Config.ecdsaVerify (keyPoint s k) (h.take 8) ((h.drop 8).take 12)
        | none => false)

/-- The body of an image, cut to its LENGTH, as words. -/
def bodyWords (x : ImageSlot) : List Word :=
  let n := fld ((headerWords x).getD 1 0) 31 0
  let bs := ((x.chunks.filter (fun kv => kv.1 != 0)).flatMap (·.2)).take n
  bytesWords (ceilDiv bs.length 8) bs

/-- The digest that six header words spell, W2 first. -/
def digestOf (h : List Word) : BitVec 384 :=
  BitVec.ofNat 384 (((h.drop 2).take 6).foldl (fun a w => a * 2 ^ 64 + w.toNat) 0)

/-- Whether a whole image is accepted (R448). -/
def imageFine (s : State) (x : ImageSlot) : Bool :=
  x.shipped || (headerFine s (headerWords x) && Config.sha384 (bodyWords x) == digestOf (headerWords x))

/-- The boot failed (R451): the slot is BAD, the cellar stays in its ROM. -/
def bootFailed (s : State) : State :=
  { s with boot := { s.boot with cellarStarted := false } } |> setSlotState (bootB s) 3 |> setCellar 2

/-- The ROM verifies the boot slot and starts its firmware (R427, R451). -/
def bootRom (s : State) : State :=
  let s := s |> setCellar 0 |> orReg Reg.domainStatus (2 ^ 60)
  if imageFine s (slotOf s (bootB s)) then
    { s with boot := { s.boot with cellarStarted := true, fwFrom := now s } }
  else bootFailed s

/-- CELLAR_BOOT (R427): PWRGD_IN has been high for 10 ms. -/
def execCellarBoot (s : State) : Host.Outcome State Fault Refusal :=
  ok (if cellarState s = 0 ∧ !s.boot.cellarStarted then bootRom s else s)

/-- CELLAR_BOOT_TIMEOUT (R451): the firmware does not reach RUNNING within 1 s. -/
def execCellarBootTimeout (s : State) : Host.Outcome State Fault Refusal :=
  ok (if cellarState s = 0 ∧ s.boot.cellarStarted then s |> clockTo (s.boot.fwFrom + 1600000000) |> bootFailed else s)

/-- CELLAR_RUNNING (R451): the slot is GOOD. -/
def execCellarRunning (s : State) : Host.Outcome State Fault Refusal :=
  ok (if cellarState s = 0 ∧ s.boot.cellarStarted then
      { s with boot := { s.boot with cellarStarted := false } } |> setCellar 1 |> setSlotState (bootB s) 2
    else s)

-- Bring-up steps (R429–R433, R453)

/-- REACHED. -/
def reached (s : State) : Nat := rdF s Reg.bringupStatus 19 16

/-- Partitions that are not ABSENT. -/
def presentParts (s : State) : List Nat := (List.range 4).filter (fun p => fenceState s p != 4)

/-- A step write is refused (R429, R431). -/
def refuseStep (why : Nat) (s : State) : State := s |> wrF Reg.bringupStatus 15 8 why |> wrF Reg.bringupStatus 7 4 4

/-- Milliseconds since the step started. -/
def stepMs (s : State) : Nat := (now s - s.boot.stepFrom) / 1600000

/-- The running step ends FAILED (3) or DONE (2) with a result (R429, R453). -/
def endStep (st result : Nat) (s : State) : State :=
  let c := s.boot.running
  { s with boot := { s.boot with running := 0, trainEnd := if c = 6 then now s else s.boot.trainEnd },
           tim := { s.tim with syncing := s.tim.syncing && c != 8 } }
    |> wrReg Reg.bringupStatus (wd (stepMs s % 2 ^ 32 * 2 ^ 32 + (if st = 2 then max c (reached s) else reached s) * 2 ^ 16
        + result * 2 ^ 8 + st * 2 ^ 4 + c))
    |> orReg Reg.bringupEvent 1

/-- Ports that LINK_TRAIN trains: of the preset and the assigned spares (R430). -/
def stepPorts (s : State) : List Nat :=
  (List.range (portCount s)).filter (fun n => (bondOf s n).isSome && decide (n < licensedPorts s))

/-- What a step does as it starts (R430). -/
def beginStep (c : Nat) (s : State) : State :=
  let s := { s with boot := { s.boot with running := c, stepFrom := now s } }
    |> wrReg Reg.bringupStatus (wd (reached s * 2 ^ 16 + 1 * 2 ^ 4 + c))
  if c = 6 then
    (if !s.boot.routeWritten then endStep 3 0x12 s
     else
      let s := (List.range s.boot.ioDies).foldl (fun s i => domainCameOn false (52 + 2 * i) s) s
      (List.range (portCount s)).foldl (fun s n => if portState s n ≤ 1 then startTrain n s else s) s)
  else if c = 8 then
    (if isMaster s then setTimeState 2 s
     else if parentPort s = none then endStep 3 0x13 s
     else { s with tim := { s.tim with syncing := true } })
  else s

/-- A write of BRINGUP.STEP (R429): the refusals of its table, in its order. -/
def stepWrite (who : Writer) (c : Nat) (s : State) : Nat × State :=
  let s := if mayWrite s .operator who then s else (match who with | .path _ => refuseStep 0x11 s | _ => s)
  withRoleDo .operator who Reg.step (fun s =>
    if s.boot.running ≠ 0 then refuseStep 0x14 s
    else if (reached s < 9 ∧ c ≠ reached s + 1) ∨ (9 ≤ reached s ∧ c ≠ 6 ∧ c ≠ 7 ∧ c ≠ 8) then refuseStep 0x10 s
    else if cellarState s = 2 then refuseStep 0x15 s
    else beginStep c s) s

/-- FUSE_LOAD (R430). -/
def execFuseLoad (who : Writer) (s : State) : Host.Outcome State Fault Refusal := ok (answered who Reg.step (stepWrite who 1 s))
/-- DOMAIN_UP (R430). -/
def execDomainUp (who : Writer) (s : State) : Host.Outcome State Fault Refusal := ok (answered who Reg.step (stepWrite who 2 s))
/-- SELF_TEST (R430). -/
def execSelfTest (who : Writer) (s : State) : Host.Outcome State Fault Refusal := ok (answered who Reg.step (stepWrite who 3 s))
/-- SRAM_CLEAR (R430). -/
def execSramClear (who : Writer) (s : State) : Host.Outcome State Fault Refusal := ok (answered who Reg.step (stepWrite who 4 s))
/-- HBM_TRAIN (R430). -/
def execHbmTrain (who : Writer) (s : State) : Host.Outcome State Fault Refusal := ok (answered who Reg.step (stepWrite who 5 s))
/-- LINK_TRAIN (R430). -/
def execLinkTrain (who : Writer) (s : State) : Host.Outcome State Fault Refusal := ok (answered who Reg.step (stepWrite who 6 s))
/-- LINK_QUALIFY (R430). -/
def execLinkQualify (who : Writer) (s : State) : Host.Outcome State Fault Refusal := ok (answered who Reg.step (stepWrite who 7 s))
/-- TIME_SYNC (R430). -/
def execTimeSync (who : Writer) (s : State) : Host.Outcome State Fault Refusal := ok (answered who Reg.step (stepWrite who 8 s))
/-- READY (R430). -/
def execReady (who : Writer) (s : State) : Host.Outcome State Fault Refusal := ok (answered who Reg.step (stepWrite who 9 s))

/-- FUSE_LOAD ends (R430). -/
def fuseLoadDone (s : State) : State :=
  if s.boot.fuseBad then s |> wrReg Reg.assembly 2 |> endStep 3 0x20
  else s |> loadFuses |> endStep 2 (if (validLicence s).isSome then 0 else 2)

/-- A partition becomes ABSENT (R430, R434, R452). -/
def losePart (p : Nat) (s : State) : State :=
  (List.range 128).foldl (fun s i => setTileState (128 * p + i) 6 s)
    (s |> wrF Reg.fenceStatus (16 * p + 15) (16 * p) 4 |> wrF Reg.partResult (16 * p + 15) (16 * p) 2)

/-- DOMAIN_UP ends; some domains failed power-good (R430). -/
def domainUpDone (bad : List Nat) (s : State) : State :=
  let routers := (List.range s.boot.ioDies).map (fun i => 53 + 2 * i)
  if routers.any (fun d => bad.contains d) then endStep 3 0x21 s
  else
    let lost := (presentParts s).filter (fun p => (partDomains p).any (fun d => bad.contains d))
    let s := lost.foldl (fun s p => losePart p s) s
    let s := (routers ++ (presentParts s).flatMap partDomains).foldl (fun s d =>
      if domainExists s d then domainCameOn true d s else s) s
    if presentParts s = [] then endStep 3 0x22 s else endStep 2 (if lost = [] then 0 else 1) s

/-- SELF_TEST ends with the tiles and meshes that it found bad (R430, R434–R436). -/
def selfTestDone (bad : List (Nat × Nat × Nat × Nat)) (mesh : List Nat) (s : State) : State :=
  let lost := (presentParts s).filter (fun p => mesh.contains p)
  let s := lost.foldl (fun s p => losePart p s) s
  let s := (presentParts s).foldl (fun s p => selfTestPart p ((bad.filter (fun b => b.1 == p)).map (·.2)) s) s
  if presentParts s = [] then endStep 3 0x22 s
  else
    let retired := (presentParts s).any (fun p =>
      draffTiles s p != [] || bad.any (fun b => b.1 == p && decide (b.2.1 < 132)))
    endStep 2 (if lost = [] ∧ !retired then 0 else 1) s

/-- HBM_TRAIN ends (R168, R430): `rates` gives the rate of stack i of partition p at 4p + i, 0 a failure. A partition
with a FAILED stack stays fenced. -/
def hbmTrainDone (rates : List Nat) (s : State) : State :=
  let s := (presentParts s).foldl (fun s p =>
    let mine := rates.drop (4 * p)
    let s := trainedPart p mine s
    if (List.range s.boot.stackCount).any (fun i => nth mine i == 0) then
      s |> wrF Reg.fenceStatus (16 * p + 15) (16 * p) 0x22 |> recordControl 16 true (some p) []
    else wrF Reg.fenceStatus (16 * p + 15) (16 * p) 0 s) s
  let s := { s with boot := { s.boot with dmaRun := true } }
  if (presentParts s).all (fun p => fenceState s p != 0) then endStep 3 0x22 s
  else
    let low := (presentParts s).any (fun p => (List.range s.boot.stackCount).any (fun i => decide (nth rates (4 * p + i) < 3)))
    endStep 2 (if low then 1 else 0) s

/-- LINK_TRAIN ends: every port that trained is known (R430). -/
def linkTrainDone (s : State) : State :=
  let good := (stepPorts s).filter (fun n => portState s n == 3 || portState s n == 4)
  { s with boot := { s.boot with ports := good } } |> endStep 2 (if good = stepPorts s then 0 else 1)

/-- The class of a port in PORT_RESULT (R432): 0 PASS, 1 DEGRADED, 2 DISABLED, 3 NO_SIGNAL. -/
def portClass (s : State) (n : Nat) : Nat :=
  if portState s n = 0 then 2
  else if portState s n = 4 ∨ portState s n = 5 ∨ portState s n = 7 ∨ portState s n = 8 then
    (if rdF s (Reg.qual n) 3 2 = 1 then 0 else 1)
  else 3

/-- LINK_QUALIFY ends (R430, R432). -/
def linkQualifyDone (s : State) : State :=
  let cls (k : Nat) : Nat := maskOf ((stepPorts s).filter (fun n => portClass s n == k))
  let all := s.boot.ports.all (fun n => portClass s n == 0)
  s |> wrReg Reg.portResult (wd (cls 1 * 2 ^ 32 + cls 0)) |> wrReg Reg.portResult2 (wd (cls 3 * 2 ^ 32 + cls 2))
    |> endStep 2 (if all then 0 else 1)

/-- READY ends (R258, R401, R430). -/
def readyDone (s : State) : State :=
  if (timeState s = 2 ∨ timeState s = 3) ∧ (List.range 4).any (fun p => fenceState s p == 0) then
    { s with flt := { s.flt with smdOn := true }, boot := { s.boot with jobFetch := true } }
      |> wrB Reg.preset 8 true |> endStep 2 0
  else endStep 3 0x24 s

/-- Bound of a step in ticks (R430): it runs from the write of the step, or from the end of LINK_TRAIN. -/
def stepLimit (s : State) : Nat :=
  let ms := 1600000
  match s.boot.running with
  | 1 => s.boot.stepFrom + 50 * ms
  | 2 => s.boot.stepFrom + 20 * ms
  | 3 => s.boot.stepFrom + 800 * ms
  | 4 => s.boot.stepFrom + ms
  | 5 => s.boot.stepFrom + 1200 * ms
  | 6 => s.boot.stepFrom + 50 * ms
  | 7 => s.boot.trainEnd + 3662 * ms
  | 8 => s.boot.stepFrom + rdF s Reg.timeSyncWait 31 0 * ms + 256 * 1024
  | _ => s.boot.stepFrom + ms

/-- STEP_DONE (R429, R430): the running step ends `us` µs after its write, with what it found. A step whose end has not
come yet, or that a thermal trip stopped (R433), goes on. -/
def execStepDone (badDomains : List Nat) (badTiles : List (Nat × Nat × Nat × Nat)) (meshBad rates : List Nat) (us : Nat)
    (s : State) : Host.Outcome State Fault Refusal :=
  ok (let s := if s.boot.running = 0 ∨ s.pwr.tripped then s else clockTo (s.boot.stepFrom + us * 1600) s
    if s.boot.running = 0 ∨ s.pwr.tripped then s
    else if stepLimit s < now s then endStep 3 0x23 s
    else
      match s.boot.running with
      | 1 => fuseLoadDone s
      | 2 => domainUpDone badDomains s
      | 3 => selfTestDone badTiles meshBad s
      | 4 => (presentParts s).foldl (fun s p => clearSram p s) s |> endStep 2 0
      | 5 => hbmTrainDone rates s
      | 6 => if (stepPorts s).any (fun n => portState s n == 2) then s else linkTrainDone s
      | 7 => if s.boot.ports.any (fun n => portState s n == 3) then s else linkQualifyDone s
      | 8 =>
        if timeState s = 2 ∧ !s.tim.syncing then endStep 2 0 s
        else if s.tim.syncing ∧ s.boot.stepFrom + rdF s Reg.timeSyncWait 31 0 * 1600000 ≤ now s then endStep 3 0x13 s
        else s
      | 9 => readyDone s
      | _ => s)

/-- STEP_TIMEOUT (R430, R433). -/
def execStepTimeout (s : State) : Host.Outcome State Fault Refusal :=
  ok (if s.boot.running = 0 then s else s |> clockTo (stepLimit s) |> endStep 3 0x23)

-- Draff edits (R438)

/-- A write of DRAFF_CTRL (R438, R452): VOID programs KIND of the indexed entry to 0. -/
def draffWrite (who : Writer) (v : Word) (s : State) : Nat × State :=
  withRole .maker who Reg.draffCtrl (fun s =>
    let i := rdF s Reg.draffIndex 7 0
    let e := mget erased s.boot.draff i
    if !bit v 63 then (true, s)
    else if fld e.1 63 60 = 15 then (false, s)
    else (true, { s with boot := { s.boot with draff := mset erased s.boot.draff i (setFld e.1 63 60 0, e.2) } })) s

/-- VOID (R438). -/
def execVoid (who : Writer) (s : State) : Host.Outcome State Fault Refusal := ok (answered who Reg.draffCtrl (draffWrite who (wd (2 ^ 63)) s))

-- Licence install (R441)

/-- An install is refused (R441). -/
def refuseInstall (why : Nat) (s : State) : State :=
  s |> wrF Reg.licStatus 15 8 why |> wrB Reg.licStatus 1 true

/-- The staged licence is checked and stored (R441). -/
def install (s : State) : Bool × State :=
  let l := (List.range 16).map (fun i => rd s (Reg.licStage i))
  let why := licenceResult s l
  let stale := match s.boot.licence with | some o => decide (fld (l.getD 0 0) 31 0 ≤ fld (o.getD 0 0) 31 0) | none => false
  if why ≠ 0 then (false, refuseInstall why s)
  else if stale then (false, refuseInstall 5 s)
  else
    (true, { s with boot := { s.boot with licence := some l } } |> wrF Reg.licStatus 15 8 0
      |> wrF Reg.licStatus 63 32 (fld (l.getD 0 0) 31 0) |> wrB Reg.licStatus 0 true)

/-- A write of LIC_CTRL (R441, R454). -/
def licCtrlWrite (who : Writer) (v : Word) (s : State) : Nat × State :=
  let s := if mayWrite s .installer who || !bit v 63 then s
    else (match who with | .path _ => refuseInstall 6 s | _ => s)
  withRole .installer who Reg.licCtrl (fun s => if bit v 63 then install s else (true, s)) s

/-- INSTALL (R441). -/
def execInstall (who : Writer) (s : State) : Host.Outcome State Fault Refusal := ok (answered who Reg.licCtrl (licCtrlWrite who (wd (2 ^ 63)) s))

-- Keys (R443) and SVN_MIN (R454)

/-- A write of a key slot (R443, R455): only while VALID = 0, but for the clearing of VALID. The slot fixes the role. -/
def keyWrite (who : Writer) (k w : Nat) (v : Word) (s : State) : Nat × State :=
  withRole (if k < 6 then .maker else .installer) who (Reg.key k w) (fun s =>
    let valid := bit (rd s (Reg.key k 0)) 63
    if k < 2 then (false, s)
    else if w = 0 then
      (if !valid then
        (true, wrReg (Reg.key k 0) (wd ((if bit v 63 then 2 ^ 63 else 0) + (if k < 6 then 2 else 1) * 2 ^ 56 + fld v 7 0)) s)
       else if bit v 63 then (false, s)
       else (true, wrB (Reg.key k 0) 63 false s))
    else if valid then (false, s) else (true, wrReg (Reg.key k w) v s)) s

/-- KEY_WRITE (R443). -/
def execKeyWrite (who : Writer) (k w : Nat) (v : Word) (s : State) : Host.Outcome State Fault Refusal :=
  ok (if k < 16 ∧ w < 13 then answered who (Reg.key k w) (keyWrite who k w v s) else s)

/-- A write of SVN_MIN: only upward (R454). -/
def svnWrite (who : Writer) (v : Word) (s : State) : Nat × State :=
  withRole .maker who Reg.svnMin (fun s =>
    if fld v 15 0 < rdF s Reg.svnMin 15 0 then (false, s) else (true, wrReg Reg.svnMin (wd (fld v 15 0)) s)) s

/-- SVN_MIN_WRITE (R454). -/
def execSvnMinWrite (who : Writer) (v : Word) (s : State) : Host.Outcome State Fault Refusal := ok (answered who Reg.svnMin (svnWrite who v s))

-- Sessions (R445)

/-- Six free values: the random bytes of a challenge (R445). -/
def freeWords : Nat → State → List Word × State
  | 0, s => ([], s)
  | n + 1, s =>
    let f := freeNext s
    let r := freeWords n f.2
    (f.1 :: r.1, r.2)

/-- GET_CHALLENGE (R445): 48 random bytes; a new challenge replaces the old one. -/
def getChallenge (p : Path) (s : State) : State :=
  let r := freeWords 6 s
  let s := r.1.zipIdx.foldl (fun s w => wrReg (Reg.authChallenge w.2) w.1 s) r.2
  onSess p (fun x => { x with challenge := r.1, challengeAt := some (now s) }) s

/-- GET_CHALLENGE (R445). -/
def execGetChallenge (p : Path) (s : State) : Host.Outcome State Fault Refusal := ok (getChallenge p s)

/-- What a session's signature covers (R445). -/
def authMessage (s : State) (p : Path) (role keyId : Nat) : List Word :=
  (sess s p).challenge ++ [s.boot.serial, wd (role % 256 * 2 ^ 16 + pathNo p * 2 ^ 8 + keyId % 256)]

/-- The outcome of a submission (R445, R455): 0 OK, 1 no challenge, 2 slot, 3 role, 4 signature, 5 locked. -/
def authResult (s : State) (p : Path) (role slot : Nat) : Nat :=
  let x := sess s p
  let w := keyWord s slot 0
  if (match x.lockedUntil with | some t => decide (now s < t) | none => false) then 5
  else if (match x.challengeAt with | some t => decide (t + 96000000000 < now s) | none => true) then 1
  else if !bit w 63 then 2
  else if role = 0 ∨ fld w 57 56 < role then 3
  else if Config.ecdsaVerify (keyPoint s slot) (authMessage s p role (fld w 7 0))
      ((List.range 12).map (fun i => rd s (Reg.authResponse i))) then 0
  else 4

/-- A failed submission is counted; the eighth within 60 s locks the path for 60 s (R445). -/
def countFailure (p : Path) (s : State) : State :=
  let l := ((sess s p).failures.filter (fun t => decide (now s < t + 96000000000))) ++ [now s]
  let lock := if 8 ≤ l.length then some (now s + 96000000000) else (sess s p).lockedUntil
  s |> onSess p (fun x => { x with failures := l, lockedUntil := lock }) |> wrF Reg.authStatus 3 0 (min 15 l.length)

/-- SUBMIT (R445, R446). -/
def submit (p : Path) (role slot : Nat) (s : State) : State :=
  let r := authResult s p role slot
  let id := fld (keyWord s slot 0) 7 0
  let s := wrF Reg.authStatus 7 4 r s
  if r = 5 then s
  else
    let s := onSess p (fun x => { x with challengeAt := none, challenge := [] }) s
    let a := Reg.spaceBase + Reg.authCtrl
    if r = 0 then
      let s := s |> endSession p |> auditLog role (pathNo p) 3 id a [] []
      s |> onSess p (fun x => { x with keyId := id, openedAt := now s }) |> setRole p role
    else s |> auditLog role (pathNo p) 4 id a [] [] |> countFailure p

/-- SUBMIT (R445). -/
def execSubmit (p : Path) (role slot : Nat) (s : State) : Host.Outcome State Fault Refusal :=
  ok (if role < 4 ∧ slot < 16 then submit p role slot s else s)

/-- CLOSE (R445). -/
def execClose (p : Path) (s : State) : Host.Outcome State Fault Refusal := ok (endSession p s)

/-- SESSION_EXPIRY (R445): 3,600 s after it opened. -/
def execSessionExpiry (p : Path) (s : State) : Host.Outcome State Fault Refusal :=
  ok (if roleOf s p = 0 then s else s |> clockTo ((sess s p).openedAt + 5760000000000) |> endSession p)

/-- AUTH_LOCKOUT_EXPIRY (R445). -/
def execAuthLockoutExpiry (p : Path) (s : State) : Host.Outcome State Fault Refusal :=
  ok (match (sess s p).lockedUntil with
    | none => s
    | some t => s |> clockTo t |> onSess p (fun x => { x with lockedUntil := none, failures := [] })
        |> wrF Reg.authStatus 3 0 0)

/-- A write of AUTH_CTRL (R428, R445, R455): a register of the session paths alone. -/
def authCtrlWrite (who : Writer) (v : Word) (s : State) : Nat × State :=
  match who with
  | .path p =>
    (stOk, s |> (if bit v 63 then getChallenge p else id) |> (if bit v 62 then submit p (fld v 9 8) (fld v 3 0) else id)
      |> (if bit v 61 then endSession p else id))
  | _ => (stNoWindow, refuseOther who Reg.authCtrl s)

-- Firmware (R449–R451, R456, R457)

/-- Why an update is refused now (R449): 0 it is not. -/
def fwRefusal (s : State) : Nat :=
  if (List.range 512).any (fun t => decide (1 ≤ tileState s t ∧ tileState s t ≤ 4)) then 1
  else if rdF s Reg.fwShelf 1 0 ≠ 0 then 2
  else if rdB s Reg.fwLock 0 then 3 else 0

/-- STATE of the update (R457): 0 IDLE, 1 RECEIVING, 2 VERIFYING, 3 VERIFIED, 4 FAILED. -/
def fwState (s : State) : Nat := rdF s Reg.fwStatus 2 0

/-- Whether an update is in progress. -/
def fwBusy (s : State) : Bool := fwState s == 1 || fwState s == 2

/-- The slot that an update writes: the inactive one, or in RECOVERY the boot slot, which is BAD (R451). -/
def fwSlot (s : State) : Bool := if cellarState s = 2 then bootB s else !bootB s

/-- A refused update command (R449, R456). -/
def refuseFw (why : Nat) (s : State) : State := s |> wrF Reg.fwStatus 11 8 why |> orReg Reg.fwEvent 4

/-- The update ends without an image: the slot is EMPTY (R449). -/
def abortFw (st why : Nat) (s : State) : State :=
  s |> putSlot (fwSlot s) {} |> setSlotState (fwSlot s) 0 |> wrF Reg.fwStatus 2 0 st
    |> (if why = 0 then id else wrF Reg.fwStatus 11 8 why) |> (if st = 4 then orReg Reg.fwEvent 2 else id)

/-- An update in progress is aborted when a refusal of R449 holds (R449). -/
def recheckFw (s : State) : State := if fwBusy s && fwRefusal s != 0 then abortFw 4 (fwRefusal s) s else s

/-- Child ports that still take the image (R450). -/
def fwChildren (s : State) : List Nat :=
  if rdB s Reg.fwTree 63 then
    (maskBits (rdF s Reg.fwTree 31 0) 32).filter (fun n => !rdB s Reg.childFail n)
  else []

/-- FW_ACK to the parent (R450): the root has none. -/
def fwAckParent (status : Nat) (s : State) : State :=
  if rdB s Reg.fwTree 63 && rd s Reg.fwSource == 0 then
    sendVc7 (rdF s Reg.fwTree 36 32) 0x78 (leBytes 8 (status % 2 ^ 16 * 2 ^ 32 + rdF s Reg.fwStatus 63 32)) s
  else s

/-- Whether a chunk is the last of its image. -/
def lastChunk (x : ImageSlot) (k : Nat) : Bool := decide (fld ((headerWords x).getD 1 0) 31 0 ≤ k * 256)

/-- Forwards a chunk to a child (R450). -/
def sendChunk (n k : Nat) (s : State) : State :=
  let x := slotOf s (fwSlot s)
  let p : Packet := { dst := rdF s (Reg.neighbour n) 13 0, src := ownDev s, vc := 7, opcode := 0x77, len4 := 64,
                      addr := 256 * k, last := lastChunk x k, payload := mget [] x.chunks k }
  match bondOf s n with
  | some b => onBnd b (fun y => { y with queue := y.queue ++ [(32, p)] }) s
  | none => s

/-- Forwards to a child what it has not been sent, at most 64 chunks ahead of its acknowledgements (R450). -/
def feedChild (n : Nat) : Nat → State → State
  | 0, s => s
  | f + 1, s =>
    let k := mget 0 s.boot.fwSent n
    if k < s.boot.fwNext ∧ k < mget 0 s.boot.fwAcked n / 256 + 64 then
      feedChild n f (sendChunk n k { s with boot := { s.boot with
        fwSent := mset 0 s.boot.fwSent n (k + 1),
        fwHeard := if k = 0 then mset 0 s.boot.fwHeard n (now s) else s.boot.fwHeard } })
    else s

/-- Every child fed. -/
def feedAll (s : State) : State := (fwChildren s).foldl (fun s n => feedChild n 65 s) s

/-- The root asks for the next chunk of the image in host memory (R450). -/
def readChunk (s : State) : State :=
  let id := s.host.nextId
  let k := s.boot.fwNext
  { s with host := { s.host with nextId := id + 1, reads := s.host.reads ++ [(id, .firmware k)] } }
    |> emit (.hostRead id ((rd s Reg.fwSource).toNat + 256 * k) 256)

/-- A new image begins: the slot is empty (R450, R457). -/
def openFw (s : State) : State :=
  let s := { s with boot := { s.boot with fwNext := 0, fwAcked := [], fwSent := [], fwHeard := [],
                                             fwChunkAt := now s } }
  s |> putSlot (fwSlot s) {} |> setSlotState (fwSlot s) 0 |> wrF Reg.fwStatus 63 32 0 |> wrF Reg.fwStatus 11 8 0
    |> wrF Reg.fwStatus 2 0 1 |> wrReg Reg.childFail 0

/-- A chunk of the image arrives in order (R450): the header is checked with the first. -/
def takeChunk (k : Nat) (bs : List Byte) (root : Bool) (s : State) : State :=
  if k ≠ s.boot.fwNext ∨ fwState s ≠ 1 then s
  else if fwRefusal s ≠ 0 then s |> abortFw 4 (fwRefusal s) |> fwAckParent (fwRefusal s)
  else if k = 0 ∧ !headerFine s (bytesWords 32 bs) then s |> abortFw 4 6 |> fwAckParent 6
  else
    let x := slotOf s (fwSlot s)
    let s := { s with boot := { s.boot with fwNext := k + 1, fwChunkAt := now s } }
      |> putSlot (fwSlot s) { x with shipped := false, chunks := mset [] x.chunks k bs }
      |> wrF Reg.fwStatus 63 32 (256 * (k + 1)) |> feedAll
    let last := lastChunk (slotOf s (fwSlot s)) k
    let s := if last then wrF Reg.fwStatus 2 0 2 s else s
    let s := if (k + 1) % 64 = 0 ∨ last then fwAckParent 0 s else s
    if root && !last then readChunk s else s

/-- FW_CHUNK (R450): from the parent port. The first chunk starts an update on a device below the root. -/
def execFwChunk (n : Nat) (p : Packet) (s : State) : Host.Outcome State Fault Refusal :=
  ok (if p.opcode ≠ 0x77 ∨ p.payload.length ≠ 256 ∨ !rdB s Reg.fwTree 63 ∨ rdF s Reg.fwTree 36 32 ≠ n then s
    else if p.addr = 0 ∧ !fwBusy s then
      (if fwRefusal s ≠ 0 then s |> refuseFw (fwRefusal s) |> fwAckParent (fwRefusal s)
       else s |> openFw |> takeChunk 0 p.payload false)
    else takeChunk (p.addr / 256) p.payload false s)

/-- A child is given up (R450). -/
def failChild (n : Nat) (s : State) : State := s |> orReg Reg.childFail (2 ^ n) |> orReg Reg.fwEvent (2 ^ 3)

/-- FW_ACK (R450): from a child port. -/
def execFwAck (n : Nat) (p : Packet) (s : State) : Host.Outcome State Fault Refusal :=
  ok (let w := leWord (p.payload.take 8)
    if p.opcode ≠ 0x78 ∨ !(fwChildren s).contains n then s
    else if fld w 47 32 ≠ 0 then failChild n s
    else feedChild n 65 { s with boot := { s.boot with fwAcked := mset 0 s.boot.fwAcked n (fld w 31 0),
                                                           fwHeard := mset 0 s.boot.fwHeard n (now s) } })

/-- FW_CHILD_SILENT (R450): 1 s without an acknowledgement of a child that was sent chunks. -/
def execFwChildSilent (n : Nat) (s : State) : Host.Outcome State Fault Refusal :=
  ok (if (fwChildren s).contains n then s |> clockTo (mget 0 s.boot.fwHeard n + 1600000000) |> failChild n else s)

/-- FW_PARENT_SILENT (R450): 10 s without a chunk. -/
def execFwParentSilent (s : State) : Host.Outcome State Fault Refusal :=
  ok (if fwState s = 1 then s |> clockTo (s.boot.fwChunkAt + 16000000000) |> abortFw 4 7 else s)

/-- FW_VERIFY_DONE (R450): the body digest decides. -/
def execFwVerifyDone (s : State) : Host.Outcome State Fault Refusal :=
  ok (if fwState s ≠ 2 then s
    else if fwRefusal s ≠ 0 then s |> abortFw 4 (fwRefusal s) |> fwAckParent (fwRefusal s)
    else if imageFine s (slotOf s (fwSlot s)) then
      s |> setSlotState (fwSlot s) 1 |> wrF Reg.fwStatus 2 0 3 |> orReg Reg.fwEvent 1 |> fwAckParent 0
    else s |> abortFw 4 0 |> fwAckParent 6)

/-- START (R449–R451). -/
def startFw (who : Writer) (s : State) : Bool × State :=
  if fwBusy s then (false, refuseFw 5 s)
  else if fwRefusal s ≠ 0 then (false, refuseFw (fwRefusal s) s)
  else if cellarState s = 2 ∧ who = .path .i3c then (false, refuseFw 4 s)
  else (true, s |> openFw |> readChunk)

/-- ACTIVATE (R451): only a VERIFIED slot becomes the boot slot. -/
def activateFw (s : State) : Bool × State :=
  if fwRefusal s ≠ 0 then (false, refuseFw (fwRefusal s) s)
  else if fwBusy s ∨ cellarState s = 2 then (false, refuseFw 5 s)
  else if slotState s (!bootB s) ≠ 1 then (false, refuseFw 6 s)
  else (true, wrB Reg.fwStatus 15 (!bootB s) s)

/-- BOOT_OTHER (R451): only in RECOVERY, and only when the other slot is GOOD. -/
def bootOther (s : State) : Bool × State :=
  if cellarState s = 2 ∧ slotState s (!bootB s) = 2 then (true, s |> wrB Reg.fwStatus 15 (!bootB s) |> bootRom)
  else (false, refuseFw 5 s)

/-- A write of FWUPD.CTRL (R449–R451, R456). -/
def fwCtrlWrite (who : Writer) (v : Word) (s : State) : Nat × State :=
  let s := if mayWrite s .installer who then s else (match who with | .path _ => refuseFw 4 s | _ => s)
  withRole .installer who Reg.fwCtrl (fun s =>
    if 1 < popCount (fld v 63 60) 4 then (false, orReg Reg.fwEvent 4 s)
    else if bit v 63 then startFw who s
    else if bit v 62 then activateFw s
    else if bit v 61 then (if fwBusy s then (true, abortFw 0 0 s) else (false, orReg Reg.fwEvent 4 s))
    else if bit v 60 then bootOther s else (true, s)) s

/-- START (R449, R450). -/
def execStart (who : Writer) (s : State) : Host.Outcome State Fault Refusal := ok (answered who Reg.fwCtrl (fwCtrlWrite who (wd (2 ^ 63)) s))
/-- ACTIVATE (R451). -/
def execActivate (who : Writer) (s : State) : Host.Outcome State Fault Refusal := ok (answered who Reg.fwCtrl (fwCtrlWrite who (wd (2 ^ 62)) s))
/-- FWUPD_ABORT (R449, R456). -/
def execFwupdAbort (who : Writer) (s : State) : Host.Outcome State Fault Refusal := ok (answered who Reg.fwCtrl (fwCtrlWrite who (wd (2 ^ 61)) s))
/-- BOOT_OTHER (R451). -/
def execBootOther (who : Writer) (s : State) : Host.Outcome State Fault Refusal := ok (answered who Reg.fwCtrl (fwCtrlWrite who (wd (2 ^ 60)) s))

/-- A write of FWUPD.SHELF or FWUPD.LOCK: an update in progress may end (R449, R456). -/
def fwGuardWrite (a mask : Nat) (who : Writer) (v : Word) (s : State) : Nat × State :=
  withRoleDo .installer who a (fun s => s |> wrReg a (v &&& wd mask) |> recheckFw) s

/-- FWUPD_SHELF_WRITE (R449, R456). -/
def execFwupdShelfWrite (who : Writer) (v : Word) (s : State) : Host.Outcome State Fault Refusal :=
  ok (answered who Reg.fwShelf (fwGuardWrite Reg.fwShelf 3 who v s))

-- The TAP chain (R468)

/-- An instruction as a die obeys it: those that drive lanes act only while REACHED ≤ 1; codes that the table does not
list act as BYPASS (R468). -/
def tapEffect (s : State) (c : BitVec 8) : BitVec 8 :=
  if c = 0 ∨ c = 4 ∨ c = 5 ∨ c = 8 ∨ c = 9 then (if reached s ≤ 1 then c else 0xFF)
  else if c = 1 ∨ c = 2 then c else 0xFF

/-- What the dies obey now. -/
def tapNow (s : State) : List (BitVec 8) := s.boot.tap.map (tapEffect s)

/-- BOUNDARY_SCAN_INSTRUCTION (R468): one instruction register per die of the chain. -/
def execBoundaryScanInstruction (codes : List (BitVec 8)) (s : State) : Host.Outcome State Fault Refusal :=
  ok (if codes.length = 4 + s.boot.ioDies then { s with boot := { s.boot with tap := codes } } else s)

end Sys2Proof.Machine
end

