-- ==== Sys2Proof/Machine/RouteCtl.lean ====
section
/-! DEFINITION. Routing as the installer controls it: the device's ID, the machine, presets and spare ports (R255, R258),
route tables and epoch flips (R265, R273, R274), the congestion map (R276). -/

namespace Sys2Proof.Machine

-- ID, machine, preset, spare ports (R255, R257, R258)

/-- A refused write of the preset, the machine, the ID or a spare (R282). -/
def refusePreset (s : State) : Bool × State := (false, orReg Reg.routeEvent (2 ^ 6) s)

/-- A write of ROUTE.DEVICE_ID: refused after LINK_TRAIN (R255). -/
def deviceIdWrite (who : Writer) (v : Word) (s : State) : Nat × State :=
  withRole .installer who Reg.deviceId (fun s =>
    if 6 ≤ reached s then refusePreset s else (true, wrReg Reg.deviceId (wd (fld v 13 0)) s)) s

/-- Cubes of a machine word (R281). -/
def machineCubes (v : Word) : Nat := (fld v 18 16 + 1) * (fld v 10 8 + 1) * (fld v 1 0 + 1)

/-- A write of ROUTE.MACHINE: refused after LINK_TRAIN, and when the machine is larger than the licence allows
(R255). -/
def routeMachineWrite (who : Writer) (v : Word) (s : State) : Nat × State :=
  unlicensedIf .installer who (fun s => decide (maxDevices s < 64 * machineCubes v))
    (withRole .installer who Reg.routeMachine (fun s =>
    if 6 ≤ reached s ∨ maxDevices s < 64 * machineCubes v then refusePreset s
    else
      (true, wrReg Reg.routeMachine (wd (fld v 18 16 * 2 ^ 16 + fld v 10 8 * 2 ^ 8 + fld v 1 0))
        { s with boot := { s.boot with routeWritten := true } }))) s

/-- ROUTE_MACHINE_WRITE (R255). -/
def execRouteMachineWrite (who : Writer) (v : Word) (s : State) : Host.Outcome State Fault Refusal :=
  ok (answered who Reg.routeMachine (routeMachineWrite who v s))

/-- Whether the preset and the spares are frozen (R258). -/
def presetFrozen (s : State) : Bool := rdB s Reg.preset 8

/-- Whether a preset fits the ports that exist and are licensed (R4, R258): only HALF stays within ports 0–15. -/
def presetFits (s : State) (v : Nat) : Bool := v == 2 || (decide (v < 2) && licensedPorts s == 32 && portCount s == 32)

/-- A write of ROUTE.PRESET (R258). -/
def presetWrite (who : Writer) (v : Word) (s : State) : Nat × State :=
  unlicensedIf .installer who (fun s => decide (fld v 1 0 < 2 ∧ licensedPorts s ≠ 32))
    (withRole .installer who Reg.preset (fun s =>
    if presetFrozen s || !presetFits s (fld v 1 0) then refusePreset s
    else (true, wrF Reg.preset 1 0 (fld v 1 0) s))) s

/-- PRESET_WRITE (R258). -/
def execPresetWrite (who : Writer) (v : Word) (s : State) : Host.Outcome State Fault Refusal :=
  ok (answered who Reg.preset (presetWrite who v s))

/-- A write of ROUTE.PORT_BOND (R258, R282): only of a spare port, before the freeze. Bit 63 marks the port as assigned
by a write, and is not read back. -/
def portBondWrite (who : Writer) (n : Nat) (v : Word) (s : State) : Nat × State :=
  withRole .installer who (Reg.portBond n) (fun s =>
    if presetFrozen s || !isSpare s n || decide (12 ≤ fld v 3 0 ∧ fld v 3 0 < 15) then refusePreset s
    else (true, wrReg (Reg.portBond n) (wd (2 ^ 63 + fld v 3 0)) s)) s

/-- PORT_BOND_WRITE (R258). -/
def execPortBondWrite (who : Writer) (n : Nat) (v : Word) (s : State) : Host.Outcome State Fault Refusal :=
  ok (portCommand who n (Reg.portBond n) (fun s => portBondWrite who n v s) s)

/-- ROUTE.PORT_BOND as it reads (R282). -/
def portBondRead (s : State) (n : Nat) : Word :=
  wd ((if isSpare s n then 32 else 0) + (bondOf s n).getD 15)

/-- ROUTE.BOND as it reads (R282). -/
def bondRead (s : State) (b : Nat) : Word := wd (maskOf (bondPorts s b) * 2 ^ 32 + rotMask s b)

-- Packets of the previous epoch (R273)

/-- Whether a packet carries the epoch that this device no longer stamps. -/
def oldEpoch (s : State) (p : Packet) : Bool := p.epoch != injectEpoch s

/-- The bond that a packet leaves by from here, if any. -/
def leavesBy (s : State) (p : Packet) : Option Nat := if p.dst = ownDev s then none else egressBond s p.epoch p.dst

/-- The lowest port of a bond. -/
def lowestPort (s : State) (b : Nat) : Nat := (bondPorts s b).headD 32

/-- The port that a packet at the router is held for: the one it came in by, else the lowest of its bond. -/
def routerPort (s : State) (e : Option Nat × Packet) : Nat :=
  match e.1, leavesBy s e.2 with
  | some n, _ => n
  | none, some b => lowestPort s b
  | none, none => 32

/-- Packets of the previous epoch that a bond holds: in its queue, dealt and not acknowledged, in its merge. -/
def oldInBond (s : State) (b : Nat) : Nat :=
  let x := bnd s b
  ((x.queue.map (·.2) ++ x.dealt.map (·.pkt)).filter (oldEpoch s)).length
    + (match x.merging with | f :: _ => if oldEpoch s (headOf f) then 1 else 0 | [] => 0)

/-- ROUTE.OLD_COUNT of a port (R273). -/
def oldAtPort (s : State) (n : Nat) : Nat :=
  (s.net.routerQ.filter (fun e => oldEpoch s e.2 && routerPort s e == n)).length
    + (match bondOf s n with | some b => if lowestPort s b = n then oldInBond s b else 0 | none => 0)
    + ((ownPackets (prt s n)).filter (oldEpoch s)).length
    + (((prt s n).rxq.filter (fun x => isHead x.flit)).filter (fun x => oldEpoch s (headOf x.flit))).length
    + (s.net.pitchHeld.filter (fun h => h.port == n && oldEpoch s h.pkt)).length
    + (s.net.staged.filter (fun h => h.port == n && oldEpoch s h.pkt)).length

/-- ROUTE.EPOCH.OLD_TOTAL (R281). -/
def oldTotal (s : State) : Nat := ((List.range 32).map (oldAtPort s)).foldl (fun a b => a + b) 0

-- Tables and flips (R265, R273, R274)

/-- A write of a route table entry: refused for the version in use, and for the other while old packets are held
(R274). -/
def routeTableWrite (who : Writer) (tableB : Bool) (d : Nat) (v : Word) (s : State) : Nat × State :=
  let a := Reg.routeTable tableB d
  withRole .installer who a (fun s =>
    if tableB = decide (injectEpoch s = 1) ∨ oldTotal s ≠ 0 then (false, orReg Reg.routeEvent (2 ^ 2) s)
    else (true, wrReg a (plainValue (Reg.kind a) (rd s a) v) s)) s

/-- ROUTE_TABLE_WRITE (R265, R274). -/
def execRouteTableWrite (who : Writer) (tableB : Bool) (d : Nat) (v : Word) (s : State) :
    Host.Outcome State Fault Refusal :=
  ok (if d < 16384 then answered who (Reg.routeTable tableB d) (routeTableWrite who tableB d v s) else s)

/-- The words of a route table. -/
def tableWords (s : State) (tableB : Bool) : List Word := (List.range 16384).map (fun d => rd s (Reg.routeTable tableB d))

/-- A write of ROUTE.EPOCH (R273, R274): a flip is refused while packets of the previous epoch are held; the log keeps
a digest over the table that comes into use (R446). -/
def routeEpochWrite (who : Writer) (v : Word) (s : State) : Nat × State :=
  let a := Reg.routeEpoch
  if !mayWrite s .installer who then withRoleDo .installer who a id s
  else if !bit v 63 then (stOk, logWrite who a 0 [] [] s)
  else if oldTotal s ≠ 0 then (stOk, s |> orReg Reg.routeEvent 2 |> logWrite who a 2 [] [])
  else
    let b := decide (injectEpoch s = 1)
    (stOk, s |> wrF a 32 32 (1 - injectEpoch s) |> orReg Reg.routeEvent 1
      |> logWrite who (Reg.routeTable (!b) 0) 0 (tableWords s b) (tableWords s (!b)))

/-- FLIP (R273, R274). -/
def execFlip (who : Writer) (s : State) : Host.Outcome State Fault Refusal :=
  ok (answered who Reg.routeEpoch (routeEpochWrite who (wd (2 ^ 63)) s))

/-- ROUTE_DRAINED (R273): OLD_TOTAL has reached 0. -/
def execRouteDrained (s : State) : Host.Outcome State Fault Refusal :=
  ok (if oldTotal s = 0 then orReg Reg.routeEvent (2 ^ 3) s else s)

-- The congestion map (R276)

/-- Opcode of a piece of a record; R276 names none (notes/assumptions/30.md). -/
def cmapOpcode : Nat := 0x79

/-- Bytes of a snapshot record (R276). -/
def cmapBytes (s : State) (round : Nat) : List Byte :=
  let entry (n v : Nat) : List Byte :=
    let w := rd s (Reg.congSnap n v 1)
    leBytes 8 (min (2 ^ 32 - 1) (rd s (Reg.congSnap n v 0)).toNat * 2 ^ 32 + min (2 ^ 24 - 1) (fld w 63 32) * 2 ^ 8
      + min 255 (fld w 31 16 / 16))
  leBytes 8 (ownDev s) ++ leBytes 8 round ++ List.replicate 48 0
    ++ (List.range 32).flatMap (fun n => (List.range 8).flatMap (entry n)) ++ List.replicate 1984 0

/-- Whether a packet is a piece of another device's record, or of the record of device `d`. -/
def isRelay (s : State) (p : Packet) : Bool := p.opcode == cmapOpcode && p.addr / 4096 != ownDev s
/-- See `isRelay`. -/
def isPieceOf (d : Nat) (p : Packet) : Bool := p.opcode == cmapOpcode && p.addr / 4096 == d

/-- Pieces of other devices' records that wait in the relay buffer. -/
def cmapWaiting (s : State) : Nat :=
  ((List.range 12).map (fun b => ((bnd s b).queue.filter (fun q => isRelay s q.2)).length)).foldl (fun a b => a + b) 0

/-- The snapshot of device `d` is discarded whole and counted once (R276): the pieces that wait here, and those to come. -/
def cmapDiscard (d : Nat) (s : State) : State :=
  let s := (List.range 12).foldl (fun s b =>
    onBnd b (fun x => { x with queue := x.queue.filter (fun q => !isPieceOf d q.2) }) s) s
  addSat Reg.cmapStatus 63 32 1 { s with net := { s.net with cmapGone := s.net.cmapGone ++ [d] } }

/-- A piece of a record goes on toward the collector (R269, R276). -/
def cmapSend (b addr : Nat) (bs : List Byte) (s : State) : State :=
  let p : Packet := { dst := rdF s (Reg.neighbour ((bondPorts s b).headD 0)) 13 0, src := ownDev s, vc := 7,
                      epoch := injectEpoch s, opcode := cmapOpcode, addr := addr, len4 := bs.length / 4, payload := bs }
  onBnd b (fun x => { x with queue := x.queue ++ [(32, p)] }) s

/-- The collector stores a piece of a record (R276). -/
def cmapStore (addr : Nat) (bs : List Byte) (s : State) : State :=
  let a := (rd s Reg.cmapBase).toNat + addr
  match accessRange s a bs.length with
  | some (.hbm _ _) => toStack { op := .write, addr := a, len := bs.length, data := bs, agent := 0x300, since := now s } s
  | _ => s

/-- A piece of a neighbour's record, or of one that it relays, reaches this device: the collector stores it, any other
device sends it on. A relay that finds its buffer full, or has no route, discards the snapshot (R276). -/
def cmapArrives (addr : Nat) (bs : List Byte) (s : State) : State :=
  let d := addr / 4096
  let s := if addr % 4096 = 0 then { s with net := { s.net with cmapGone := s.net.cmapGone.filter (fun x => x != d) } } else s
  if rdF s Reg.cmapCtrl 61 48 = ownDev s then cmapStore addr bs s
  else if s.net.cmapGone.contains d then s
  else
    match egressBond s (injectEpoch s) (rdF s Reg.cmapCtrl 61 48) with
    | none => cmapDiscard d s
    | some b => if 64 ≤ cmapWaiting s then cmapDiscard d s else cmapSend b addr bs s

/-- A piece of this device's own record is stored, or sent to the first relay (R276). -/
def cmapOwn (addr : Nat) (bs : List Byte) (s : State) : State :=
  if rdF s Reg.cmapCtrl 61 48 = ownDev s then cmapStore addr bs s
  else
    match egressBond s (injectEpoch s) (rdF s Reg.cmapCtrl 61 48) with
    | none => s
    | some b => cmapSend b addr bs s

/-- The round of the next snapshot (R276, R281). -/
def cmapRound (s : State) : Nat :=
  let p := max 1024 (rdF s Reg.cmapCtrl 15 0)
  let r := now s / 1024
  if now s % 1024 = 0 ∧ r % p = 0 ∧ rdF s Reg.cmapStatus 31 0 ≠ r % 2 ^ 32 then r else (r / p + 1) * p

/-- A wait for credit that goes on counts in two periods: up to the snapshot, and from it on (R283). -/
def splitStall (n v : Nat) (s : State) : State :=
  if mget 0 (prt s n).stall v = 0 then s
  else s |> countStall n v |> onPrt n (fun x => { x with stall := mset 0 x.stall v (now s + 1) })

/-- The period counters of every port are copied and cleared (R276, R283). -/
def snapCounters (s : State) : State :=
  (List.range 32).foldl (fun s n => (List.range 8).foldl (fun s v =>
    s |> splitStall n v |> wrReg (Reg.congSnap n v 0) (rd s (Reg.congLive n v 0)) |> wrReg (Reg.congSnap n v 1) (rd s (Reg.congLive n v 1))
      |> wrReg (Reg.congLive n v 0) 0 |> wrReg (Reg.congLive n v 1) 0) s) s

/-- CMAP_SNAPSHOT (R276). -/
def execCmapSnapshot (s : State) : Host.Outcome State Fault Refusal :=
  let r := cmapRound s
  let s := s |> clockTo (r * 1024) |> snapCounters |> wrF Reg.cmapStatus 31 0 r
  ok (if rdB s Reg.cmapCtrl 63 then
      let bs := cmapBytes s r
      (List.range 16).foldl (fun s i => cmapOwn (ownDev s * 4096 + 256 * i) ((bs.drop (256 * i)).take 256) s) s
    else s)

/-- CMAP_RECORD (R276): a piece of a record arrives from a neighbour. -/
def execCmapRecord (p : Packet) (s : State) : Host.Outcome State Fault Refusal :=
  ok (if p.payload.length = 256 ∧ p.addr + 256 ≤ 16384 * 4096 then cmapArrives p.addr p.payload s else s)

/-- A write of ROUTE.CMAP_CTRL: a PERIOD below 1,024 is stored as 1,024 (R281). -/
def cmapCtrlWrite (who : Writer) (v : Word) (s : State) : Nat × State :=
  withRoleDo .installer who Reg.cmapCtrl
    (wrReg Reg.cmapCtrl (setFld (plainValue (Reg.kind Reg.cmapCtrl) 0 v) 15 0 (max 1024 (fld v 15 0)))) s

end Sys2Proof.Machine
end

