-- ==== Sys2Proof/Machine/HbmCtl.lean ====
section
/-! DEFINITION. The control of the HBM stacks: temperature bands, refresh, retraining (R176–R182). -/

namespace Sys2Proof.Machine

/-- Whether a stack is populated (R169). -/
def stackPresent (s : State) (p i : Nat) : Bool := decide (p < 4 ∧ i < s.boot.stackCount)

/-- Sets bits of HBM_EVENT. -/
def hbmEvents (p i mask : Nat) (s : State) : State := orReg (Reg.hbmEvent p i) mask s

/-- A stack whose PHY waits to be switched off goes off once it has nothing left (R182). -/
def finishOff (p i : Nat) (s : State) : State :=
  if (stk s p i).offAfter && !stackBusy s p i then phyOff p i s else s

-- Retraining (R179–R182)

/-- Whether a stack of a partition retrains. -/
def partRetrains (s : State) (p : Nat) : Bool := (List.range 4).any (fun i => (stk s p i).run.isSome)

/-- Order of two retrains that wait (R180): recoveries first, then by trigger. -/
def waitsBefore (a b : RetrainReq) : Bool :=
  if (a.kind == .recovery) != (b.kind == .recovery) then a.kind == .recovery else decide (a.trigger ≤ b.trigger)

/-- Whether the temperature of a stack lets it be retrained: a held one waits until it is below 102 °C (R178). -/
def coolEnough (s : State) (p i : Nat) : Bool :=
  stackState s p i != 5 || decide (rdF s (Reg.hbmStatus p i) 47 40 < 102)

/-- The stack of a partition whose retrain starts next: it waits, is not deferred, and is not held by its
temperature. -/
def nextRetrain (s : State) (p : Nat) : Option Nat :=
  let l := (List.range 4).filterMap (fun i =>
    match (stk s p i).wait with
    | some w => if w.deferred || !coolEnough s p i then none else some (i, w)
    | none => none)
  (sortBy (fun a b => waitsBefore a.2 b.2) l).head?.map (·.1)

/-- A retrain of a stack begins: what it has admitted is finished first (R181). -/
def beginRetrain (p i : Nat) (s : State) : State :=
  match (stk s p i).wait with
  | none => s
  | some w =>
    let ready := stackState s p i = 3
    s |> setWait p i none |> setStackState p i 4 |> onStk p i (fun k => { k with
      run := some w.kind, attempt := 1, runFrom := now s, selfRefresh := true,
      admitted := if ready then k.queue.length else k.admitted })

/-- The retrain that is first in order starts, unless one runs in the partition (R180). -/
def startNext (p : Nat) (s : State) : State :=
  if partRetrains s p then s
  else match nextRetrain s p with
    | none => s
    | some i => beginRetrain p i s

/-- Whether a stack can be retrained: it trains on its way back, serves, retrains, or is held by its temperature. -/
def canRetrain (s : State) (p i : Nat) : Bool :=
  let k := stackState s p i
  k == 3 || k == 4 || k == 5 || (k == 2 && ((stk s p i).wait.isSome || (stk s p i).run.isSome))

/-- A running retrain turns into a recovery (R179, R182): its bound runs from now. -/
def intoRecovery (p i : Nat) (s : State) : State :=
  onStk p i (fun k => { k with run := some .recovery, attempt := 1, runFrom := now s }) s

/-- A trigger of a recovery (R179, R180, R182): it turns a running periodic retrain into a recovery, and replaces one
that waits. A stack held by its temperature recovers when it returns. -/
def triggerRecovery (p i : Nat) (s : State) : State :=
  if !canRetrain s p i then s
  else
    match (stk s p i).run, (stk s p i).wait with
    | some .periodic, _ => intoRecovery p i s
    | some _, _ => s
    | none, some w => if w.kind = .recovery then s
        else setWait p i (some { kind := .recovery, deferred := false, trigger := now s }) s
    | none, none =>
      setWait p i (some { kind := .recovery, deferred := false, trigger := now s }) s

/-- A recovery is triggered and starts when it may. -/
def recoverStack (p i : Nat) (s : State) : State := s |> triggerRecovery p i |> startNext p

/-- The start of a retrain that was deferred at a trigger (R180): RETRAIN_AT as it stands, where it is later than the
trigger, or 10 s after the trigger. -/
def deferredStart (s : State) (p i trigger : Nat) : Nat :=
  let r := (rd s (Reg.retrainAt p i)).toNat
  if trigger < r then min r (trigger + 16000000000) else trigger + 16000000000

/-- A trigger of a periodic retrain; `mayDefer` where RETRAIN_MODE applies (R180). One that waits stays, except that a
request not to be deferred releases a deferred one. -/
def triggerPeriodic (p i : Nat) (mayDefer : Bool) (s : State) : State :=
  if !canRetrain s p i || (stk s p i).run.isSome then s
  else
    let defer_ := mayDefer && rdF s (Reg.hbmCtrl p i) 1 0 == 1
    let new : RetrainReq := { kind := .periodic, deferred := defer_, trigger := now s }
    match (stk s p i).wait with
    | none => setWait p i (some new) s
    | some w => if w.deferred && !defer_ then setWait p i (some new) s else s

/-- HBM_PERIODIC_RETRAIN_TRIGGER (R179, R180): the drift monitor, or 3,600 s since the last training. -/
def execHbmPeriodicRetrainTrigger (p i : Nat) (s : State) : Host.Outcome State Fault Refusal :=
  ok (if stackPresent s p i && stackState s p i == 3 then s |> triggerPeriodic p i true |> startNext p else s)

/-- HBM_DEFERRED_RETRAIN_START (R180): RETRAIN_AT, or 10 s after the trigger. -/
def execHbmDeferredRetrainStart (p i : Nat) (s : State) : Host.Outcome State Fault Refusal :=
  ok (match (stk s p i).wait with
    | some w =>
      if stackPresent s p i && w.deferred then
        s |> clockTo (deferredStart s p i w.trigger) |> setWait p i (some { w with deferred := false }) |> startNext p
      else s
    | none => s)

/-- HBM_RETRAIN_START (R180): no other stack of the partition retrains, and this one is first in order. -/
def execHbmRetrainStart (p i : Nat) (s : State) : Host.Outcome State Fault Refusal :=
  ok (if stackPresent s p i && nextRetrain s p == some i then startNext p s else s)

/-- The stack has failed (R179): what it holds completes with STACK_FAILED, and the control fault is raised. -/
def failStack (p i : Nat) (s : State) : State :=
  let q := (stk s p i).queue
  let s := s |> setStackState p i 6 |> setWait p i none |> onStk p i (fun k => { k with
      queue := [], admitted := 0, run := none, attempt := 0, selfRefresh := false })
    |> hbmEvents p i 4
  let s := q.foldl (fun s x => answerRefused x stStackFailed s) s
  s |> recordControl 16 true (some p) [] |> finishOff p i

/-- Data rate of the k-th attempt of a recovery (R179), as RATE. -/
def attemptRate (k : Nat) : Nat := 4 - k

/-- A retrain ended well (R179, R184, R185): a recovery reports its rate. -/
def retrainPassed (p i us : Nat) (s : State) : State :=
  let k := stk s p i
  let old := rdF s (Reg.hbmStatus p i) 29 28
  let rate := if k.run = some .recovery then attemptRate k.attempt else old
  let s := s |> setStackState p i 3 |> wrF (Reg.hbmStatus p i) 29 28 rate
    |> hbmEvents p i (2 + (if rate < old then 8 else 0))
    |> wrReg (Reg.hbmRetrains p i) (wd (satAdd 32 (rdF s (Reg.hbmRetrains p i) 63 32) 1 * 2 ^ 32 + us % 2 ^ 32))
    |> onStk p i (fun k => { k with run := none, attempt := 0, selfRefresh := false, trainedAt := now s, ceTimes := [] })
  finishOff p i s

/-- HBM_RETRAIN_DONE (R179): the attempt that runs ends after `us` microseconds, once everything admitted before it has
been performed. -/
def execHbmRetrainDone (p i : Nat) (pass : Bool) (us : Nat) (s : State) : Host.Outcome State Fault Refusal :=
  ok (let k := stk s p i
    if !stackPresent s p i || k.run.isNone || k.admitted != 0 then s
    else
      let s := clockTo (k.runFrom + 1600 * us) s
      if pass then retrainPassed p i us s
      else if k.run ≠ some .recovery then intoRecovery p i s
      else if k.attempt < 3 then onStk p i (fun k => { k with attempt := k.attempt + 1 }) s
      else failStack p i s)

/-- HBM_PARITY_ERROR (R167, R179). -/
def execHbmParityError (p i : Nat) (s : State) : Host.Outcome State Fault Refusal :=
  ok (if stackPresent s p i && canRetrain s p i then s |> hbmEvents p i (2 ^ 6) |> recoverStack p i else s)

/-- A corrected error of a stack at this time: more than CE_LIMIT within 1 s trigger a recovery (R179). -/
def noteCorrected (p i : Nat) (s : State) : State :=
  let l := ((stk s p i).ceTimes.filter (fun t => decide (now s ≤ t + 1600000000))) ++ [now s]
  let many := decide (rdF s (Reg.hbmThresh p i) 31 16 < l.length)
  let s := s |> addSat (Reg.hbmEcc p i) 63 48 1 |> onStk p i (fun k => { k with ceTimes := if many then [] else l })
  if many then recoverStack p i s else s

/-- A write of HBM_CTRL (R183, R184): a mode that does not exist leaves the mode. A stack that is not populated answers
ADDR_INVALID. -/
def hbmCtrlWrite (who : Writer) (p i : Nat) (v : Word) (s : State) : Nat × State :=
  let a := Reg.hbmCtrl p i
  if !stackPresent s p i then (stAddr, violation (writeOcc s who a stAddr) (Reg.spaceBase + a) s)
  else
    inService a (withRoleDo .any who a (fun s =>
      let mode := if fld v 1 0 < 2 then fld v 1 0 else rdF s a 1 0
      let s := wrReg a (wd ((if bit v 4 then 16 else 0) + mode)) s
      if bit v 5 then s |> triggerPeriodic p i false |> startNext p else s)) s

/-- RETRAIN_NOW (R179, R180, R184). -/
def execRetrainNow (who : Writer) (p i : Nat) (s : State) : Host.Outcome State Fault Refusal :=
  ok (if p < 4 ∧ i < 4 then answered who (Reg.hbmCtrl p i) (hbmCtrlWrite who p i (rd s (Reg.hbmCtrl p i) ||| 32) s) else s)

-- Temperature and refresh (R177, R178)

/-- A stack enters THERMAL_HOLD (R178, R182): what it has admitted is finished, a running retrain is abandoned. -/
def thermalHold (p i : Nat) (s : State) : State :=
  let ready := stackState s p i = 3
  s |> setStackState p i 5 |> onStk p i (fun k => { k with
      run := none, attempt := 0, selfRefresh := true, admitted := if ready then k.queue.length else k.admitted })
    |> hbmEvents p i (2 ^ 5) |> recordControl 17 true (some p) []

/-- A band that is entered at a temperature and left 3 °C below it (R178). -/
def inBand (was : Bool) (temp enter : Nat) : Bool := decide (enter ≤ temp) || (was && decide (enter ≤ temp + 3))

/-- HBM_TEMP_READ (R177, R178): the bands act in order. -/
def execHbmTempRead (p i temp : Nat) (s : State) : Host.Outcome State Fault Refusal :=
  ok (if !stackPresent s p i then s
    else
      let was := rdB s (Reg.hbmStatus p i) 18
      let hot := inBand was temp 95
      let s := s |> wrF (Reg.hbmStatus p i) 47 40 (min 255 temp) |> wrB (Reg.hbmStatus p i) 18 hot
        |> (if hot && !was then hbmEvents p i (2 ^ 4) else id)
        |> onStk p i (fun k => { k with hot85 := inBand k.hot85 temp 85 })
      let st := stackState s p i
      let s := if 105 ≤ temp ∧ (st = 2 ∨ st = 3 ∨ st = 4) then thermalHold p i s
        else if st = 5 ∧ temp < 102 then s |> triggerPeriodic p i false |> startNext p
        else s
      updateThermal s)

/-- HBM_REFRESH (R177): a refresh is issued while the stack does not refresh itself. -/
def execHbmRefresh (p i : Nat) (s : State) : Host.Outcome State Fault Refusal :=
  ok (if stackPresent s p i && stackState s p i == 3 then emit (.refresh p i (rdB s (Reg.hbmRefresh p i) 0)) s else s)

/-- RFM_REQUEST (R177): the request is answered. -/
def execRfmRequest (p i : Nat) (s : State) : Host.Outcome State Fault Refusal :=
  ok (if stackPresent s p i && stackState s p i == 3 then emit (.rfm p i) s else s)

end Sys2Proof.Machine
end

