-- ==== Sys2Proof/Machine/TwinCtl.lean ====
section
/-! DEFINITION. Twin mode as a pair runs it: pairing, beats, digests, the referee, promotion and demotion,
resynchronisation, reversion (R411–R424). -/

namespace Sys2Proof.Machine

-- Configuration and role (R411, R426)

/-- Whether the entries of a tenant stay in their queues because its pair has a conflict (R413). -/
def twinKeeps (s : State) (tenant : Nat) : Bool := isTwinned s tenant && s.twin.conflict

/-- What a unit forgets when its pair ends: the windows and the referee's counts are kept. -/
def freshPair (x : Twin) : Twin :=
  { windows := x.windows, refMisses := x.refMisses, refHeard := x.refHeard }

/-- Whether a write of TWIN.CTRL asks for a twinned tenant that the licence does not cover (R4, R411). -/
def twinOver (v : Word) (s : State) : Bool :=
  !twinOn s && bit v 63 && bit v 60 && (!twinLicensed s || !tenantOk s (fld v 55 48))

/-- A write of TWIN.CTRL (R411). -/
def twinCtrlWrite (who : Writer) (v : Word) (s : State) : Nat × State :=
  unlicensedIf .installer who (twinOver v) (withRole .installer who Reg.twinCtrl (fun s =>
    let mask := Reg.bits 63 60 + Reg.bits 55 32 + Reg.bits 29 16 + Reg.bits 13 0
    let v := v &&& wd mask
    let old := rd s Reg.twinCtrl
    if twinOn s then
      (if setBit v 63 true ≠ old then (false, twinRefuse s)
       else if bit v 63 then (true, s)
       else (true, s |> wrReg Reg.twinCtrl v |> setRoleTwin 0 |> wrB Reg.twinStatus 3 false |> onTwin freshPair))
    else if !bit v 63 then (true, wrReg Reg.twinCtrl v s)
    else if (bit v 60 && (!twinLicensed s || !tenantOk s (fld v 55 48))) || portsTo s (fld v 13 0) = [] then
      (false, twinRefuse s)
    else (true, s |> wrReg Reg.twinCtrl v |> setRoleTwin 1 |> onTwin freshPair))) s

/-- TWIN_CTRL_WRITE (R411). -/
def execTwinCtrlWrite (who : Writer) (v : Word) (s : State) : Host.Outcome State Fault Refusal :=
  ok (answered who Reg.twinCtrl (twinCtrlWrite who v s))

/-- A write of TWIN.BEAT_CTRL: values below 1 are stored as 1, a BEAT_ROUNDS above 1,024 as 1,024 (R425). -/
def beatCtrlWrite (who : Writer) (v : Word) (s : State) : Nat × State :=
  withRoleDo .installer who Reg.beatCtrl
    (wrReg Reg.beatCtrl (wd (max 1 (fld v 35 32) * 2 ^ 32 + min 1024 (max 1 (fld v 15 0))))) s

-- VC7 packets of the pair (R269, R419, R420, R423)

/-- Sends a management packet toward a device, re-originated at every hop (R269): W0 [63:50] names the device it is
for (notes/assumptions/31.md). -/
def sendToward (d op : Nat) (payload : List Byte) (s : State) : State :=
  match (match portsTo s d with | n :: _ => bondOf s n | [] => egressBond s (injectEpoch s) d) with
  | none => s
  | some b =>
    let p : Packet := { dst := rdF s (Reg.neighbour ((bondPorts s b).headD 0)) 13 0, src := ownDev s, vc := 7,
                        epoch := injectEpoch s, opcode := op, len4 := payload.length / 4, payload := payload }
    onBnd b (fun x => { x with queue := x.queue ++ [(32, p)] }) s

/-- Payload of a beat (notes/assumptions/31.md). -/
def beatBytes (d : Nat) (b : TwinBeat) : List Byte :=
  leBytes 8 (d % 2 ^ 14 * 2 ^ 50 + b.src % 2 ^ 14 * 2 ^ 36 + (if b.preferred then 2 ^ 35 else 0) + b.role % 8 * 2 ^ 32
    + b.digest.toNat) ++ leBytes 8 b.round

/-- The beat that a payload spells. -/
def bytesBeat (bs : List Byte) : TwinBeat :=
  let w := leWord (bs.take 8)
  { src := fld w 49 36, role := fld w 34 32, preferred := bit w 35, round := leNat ((bs.drop 8).take 8),
    digest := BitVec.ofNat 32 (fld w 31 0) }

/-- Payload of TWIN_PROMOTE, TWIN_DEMOTE and TWIN_REVERT (notes/assumptions/31.md). -/
def orderBytes (s : State) (d : Nat) : List Byte := leBytes 8 (d % 2 ^ 14 * 2 ^ 50 + ownDev s % 2 ^ 14 * 2 ^ 36)

-- Digests (R417)

/-- Two digests of one period are compared once both are known: a difference sets DIVERGED, and a STANDBY unit becomes
SYNCING (R417). -/
def compareDigests (s : State) : State :=
  match s.twin.heard with
  | none => s
  | some b =>
    match s.twin.sentDigest.find? (fun d => d.1 == b.round) with
    | none => s
    | some d =>
      let s := onTwin (fun x => { x with heard := none }) s
      let pair := (twinRole s == 2 && b.role == 3) || (twinRole s == 3 && b.role == 2)
      if !pair || d.2 == b.digest then s
      else s |> twinEvents (2 ^ 6) |> (if twinRole s = 2 then setRoleTwin 1 else id)

/-- The round of the next beat (R419). -/
def beatRound (s : State) : Nat :=
  let k := max 1 (rdF s Reg.beatCtrl 15 0)
  let r := now s / 1024
  let sent := match s.twin.sentDigest.getLast? with | some d => decide (d.1 = r) | none => false
  if now s % 1024 = 0 ∧ r % k = 0 ∧ !sent then r else (r / k + 1) * k

/-- TWIN_BEAT_SEND (R417, R419): to the peer, and with ARB = 1 to the referee. -/
def execTwinBeatSend (s : State) : Host.Outcome State Fault Refusal :=
  ok (if !twinOn s then s
    else
      let r := beatRound s
      let s := clockTo (r * 1024) s
      let b : TwinBeat := { src := ownDev s, role := twinRole s, preferred := twinPreferred s, round := r,
                            digest := s.twin.digest }
      let s := s |> sendToward (twinPeer s) 0x73 (beatBytes (twinPeer s) b)
        |> (if rdB s Reg.twinCtrl 61 then
              sendToward (rdF s Reg.twinCtrl 29 16) 0x73 (beatBytes (rdF s Reg.twinCtrl 29 16) b) else id)
      let l := s.twin.sentDigest ++ [(r, s.twin.digest)]
      s |> onTwin (fun x => { x with digest := 0, sentDigest := l.drop (l.length - 4) }) |> compareDigests)

-- Pairing (R412, R413)

/-- A resynchronisation is agreed for a round 4 rounds ahead (R422). -/
def askResync (s : State) : State :=
  s |> wrReg Reg.syncRound (wd (now s / 1024 + 4)) |> onTwin (fun x => { x with resyncAsked := true })

/-- Both units have PREFERRED, or neither: the pair does not form (R413). -/
def pairConflict (s : State) : State :=
  if s.twin.conflict then s
  else s |> setRoleTwin 1 |> twinEvents (2 ^ 8 + 2 ^ 7) |> onTwin (fun x => { x with conflict := true, paired := false })

/-- A beat of the peer settles the pair where it has not formed (R412, R413). A unit that finds its peer ACTIVE
becomes SYNCING even when it is the preferred one (R423, notes/assumptions/32.md). -/
def pairUp (b : TwinBeat) (s : State) : State :=
  if b.preferred == twinPreferred s then pairConflict s
  else if s.twin.paired then s
  else if s.twin.sentDigest = [] then s
  else
    let r := if twinPreferred s && b.role != 3 then 3 else 1
    s |> setRoleTwin r |> onTwin (fun x => { x with paired := true, conflict := false }) |> askResync

/-- A beat of the peer (R419). -/
def peerBeat (b : TwinBeat) (s : State) : State :=
  let lost := decide (rdF s Reg.beatCtrl 35 32 ≤ s.twin.misses)
  s |> wrB Reg.twinStatus 3 true
    |> onTwin (fun x => { x with misses := 0, heard := some b, standbySince := if lost then now s else x.standbySince })
    |> pairUp b |> compareDigests

/-- The key of a unit of a pair that this device referees: twice the entry, plus 1 for the other unit (R420). -/
def refKey (s : State) (d : Nat) : Option Nat :=
  (List.range 16).findSome? (fun k =>
    let w := rd s (Reg.twinRef k)
    if !bit w 63 then none else if fld w 27 14 = d then some (2 * k) else if fld w 13 0 = d then some (2 * k + 1) else none)

/-- Role that a referee last heard of a unit, plus 1. -/
def refRole (s : State) (key : Nat) : Nat := mget 0 s.twin.refHeard key

/-- A beat reaches a referee. -/
def refereeBeat (b : TwinBeat) (s : State) : State :=
  match refKey s b.src with
  | none => s
  | some k => onTwin (fun x => { x with refMisses := mset 0 x.refMisses k 0, refHeard := mset 0 x.refHeard k (b.role + 1) }) s

/-- A beat arrives (R412, R419, R420). -/
def beatArrives (b : TwinBeat) (s : State) : State :=
  s |> (if twinOn s && b.src == twinPeer s then peerBeat b else id) |> refereeBeat b

/-- TWIN_BEAT (R419). -/
def execTwinBeat (b : TwinBeat) (s : State) : Host.Outcome State Fault Refusal := ok (beatArrives b s)

-- Misses (R419, R420, R424)

/-- A resynchronisation ends without success (R422, R424). -/
def failResync (s : State) : State :=
  s |> twinEvents (2 ^ 4) |> onTwin (fun x => { x with copying := false, resyncAsked := false, holdJobs := false })

/-- The peer is lost: no role changes; a SYNCING unit abandons its copy (R419, R424). -/
def peerLost (s : State) : State :=
  s |> twinEvents (2 ^ 5) |> wrB Reg.twinStatus 3 false |> (if twinRole s = 1 && s.twin.copying then failResync else id)

/-- The referee misses a beat of a unit; it decides when the ACTIVE unit is silent and the STANDBY unit is heard
(R420). -/
def refereeMiss (k d : Nat) (s : State) : State :=
  let n := mget 0 s.twin.refMisses k + 1
  let s := onTwin (fun x => { x with refMisses := mset 0 x.refMisses k n }) s
  let other := if k % 2 = 0 then k + 1 else k - 1
  let w := rd s (Reg.twinRef (k / 2))
  let standby := if k % 2 = 0 then fld w 13 0 else fld w 27 14
  if rdF s Reg.beatCtrl 35 32 ≤ n ∧ refRole s k = 4 ∧ refRole s other = 3 ∧ mget 0 s.twin.refMisses other = 0 then
    s |> onTwin (fun x => { x with refHeard := mset 0 x.refHeard k 5 })
      |> sendToward standby 0x74 (orderBytes s standby) |> sendToward d 0x75 (orderBytes s d)
  else s

/-- TWIN_BEAT_MISSED (R419): a beat has not arrived by one round after the round in which it was due. -/
def execTwinBeatMissed (d : Nat) (s : State) : Host.Outcome State Fault Refusal :=
  ok (let s := if twinOn s && d == twinPeer s then
        let n := s.twin.misses + 1
        s |> onTwin (fun x => { x with misses := n })
          |> (if n = rdF s Reg.beatCtrl 35 32 then peerLost else id)
      else s
    match refKey s d with
    | none => s
    | some k => refereeMiss k d s)

-- Promotion and demotion (R420, R421)

/-- The next round boundary. -/
def nextRound (s : State) : Nat := (now s / 1024 + 1) * 1024

/-- The beat-master role is taken, without a step of the clock (R36, R421). -/
def takeMaster (s : State) : State :=
  s |> wrB Reg.timeCtrl 5 true |> wrB Reg.timeStatus 2 true |> wrF Reg.timeStatus 55 48 0
    |> (if timeState s = 3 then setTimeState 2 else id)

/-- The beat-master role is given up. -/
def dropMaster (s : State) : State := s |> wrB Reg.timeCtrl 5 false |> wrB Reg.timeStatus 2 false

/-- A STANDBY unit is promoted at the next round boundary; any other refuses (R421). -/
def promoteNow (s : State) : Bool × State :=
  if twinRole s ≠ 2 then (false, twinRefuse s)
  else
    (true, s |> clockTo (nextRound s) |> setRoleTwin 3 |> twinEvents 1 |> onTwin (fun x => { x with swapAt := none })
      |> (if twinTenant s = none then takeMaster else id))

/-- A unit is demoted (R421): a swap that was agreed does not take place (R424). -/
def demoteNow (s : State) : Bool × State :=
  if !twinOn s then (false, twinRefuse s)
  else
    (true, s |> setRoleTwin 4 |> onTwin (fun x => { x with swapAt := none, copying := false, holdJobs := false })
      |> (match twinTenant s with | some t => abortTenant t | none => id) |> dropMaster |> twinEvents 2)

/-- RESYNC written (R422, R424): only on a SYNCING unit of a pair that has formed, and not while one runs. -/
def resyncNow (s : State) : Bool × State :=
  if twinRole s ≠ 1 ∨ !s.twin.paired ∨ s.twin.resyncAsked ∨ s.twin.copying then (false, twinRefuse s)
  else (true, askResync s)

/-- A write of TWIN.CMD: more than one bit is refused (R425). -/
def twinCmdWrite (who : Writer) (v : Word) (s : State) : Nat × State :=
  withRole .installer who Reg.twinCmd (fun s =>
    if 1 < popCount (fld v 2 0) 3 then (false, twinRefuse s)
    else if bit v 0 then promoteNow s
    else if bit v 1 then demoteNow s
    else if bit v 2 then resyncNow s else (true, s)) s

/-- PROMOTE (R420, R421). -/
def execPromote (who : Writer) (s : State) : Host.Outcome State Fault Refusal :=
  ok (answered who Reg.twinCmd (twinCmdWrite who 1 s))

/-- DEMOTE (R420, R421). -/
def execDemote (who : Writer) (s : State) : Host.Outcome State Fault Refusal :=
  ok (answered who Reg.twinCmd (twinCmdWrite who 2 s))

/-- RESYNC (R422). -/
def execResync (who : Writer) (s : State) : Host.Outcome State Fault Refusal :=
  ok (answered who Reg.twinCmd (twinCmdWrite who 4 s))

/-- TWIN_PROMOTE (R420, R421): the referee's decision reaches this unit. -/
def execTwinPromote (s : State) : Host.Outcome State Fault Refusal := ok (promoteNow s).2

/-- TWIN_DEMOTE (R420, R421). -/
def execTwinDemote (s : State) : Host.Outcome State Fault Refusal := ok (demoteNow s).2

-- Reversion (R423, R424)

/-- A swap at the round boundary four rounds later (R423). -/
def agreeSwap (s : State) : State := onTwin (fun x => { x with swapAt := some ((now s / 1024 + 4) * 1024) }) s

/-- TWIN_REVERT reaches the peer: an ACTIVE unit agrees; a demoted one does not (R423, R424). -/
def revertNow (s : State) : State := if twinRole s = 3 then agreeSwap s else s

/-- TWIN_REVERT (R423). -/
def execTwinRevert (s : State) : Host.Outcome State Fault Refusal := ok (revertNow s)

/-- TWIN.CTRL.HOLDOFF in seconds (R426). -/
def holdoff (s : State) : Nat := rdF s Reg.twinCtrl 47 32

/-- HOLDOFF_LEFT (R426). -/
def holdoffLeft (s : State) : Nat :=
  if twinRole s = 2 && twinPreferred s && holdoff s != 0 then
    ceilDiv (s.twin.standbySince + holdoff s * 1600000000 - now s) 1600000000
  else 0

/-- TWIN_HOLDOFF_EXPIRY (R423): a preferred STANDBY unit has spent the hold-off without loss or divergence. -/
def execTwinHoldoffExpiry (s : State) : Host.Outcome State Fault Refusal :=
  ok (if twinRole s = 2 && twinPreferred s && holdoff s != 0 && decide (s.twin.misses < rdF s Reg.beatCtrl 35 32)
        && s.twin.swapAt.isNone then
      s |> clockTo (s.twin.standbySince + holdoff s * 1600000000) |> agreeSwap
        |> sendToward (twinPeer s) 0x76 (orderBytes s (twinPeer s))
    else s)

/-- TWIN_ROLE_SWAP (R423): the round boundary comes. -/
def execTwinRoleSwap (s : State) : Host.Outcome State Fault Refusal :=
  ok (match s.twin.swapAt with
    | none => s
    | some t =>
      let s := s |> clockTo t |> onTwin (fun x => { x with swapAt := none })
      if twinRole s = 2 then
        s |> setRoleTwin 3 |> twinEvents 4 |> (if twinTenant s = none then takeMaster else id)
      else if twinRole s = 3 then
        s |> setRoleTwin 2 |> twinEvents 4 |> onTwin (fun x => { x with standbySince := now s })
          |> (if twinTenant s = none then dropMaster else id)
      else s)

-- Resynchronisation (R422)

/-- Cells of memory from `lo` to `hi`. -/
def cellsIn (s : State) (lo hi : Nat) : List Host.Cell := s.mem.filter (fun c => decide (lo ≤ c.1 ∧ c.1 ≤ hi))

/-- The ACTIVE unit copies every valid region, then its counters and windows (R422). -/
def copyOut (s : State) : State :=
  let s := (List.range 16).foldl (fun s i =>
    let w := rd s (Reg.syncRegion i 0)
    let lo := fld w 47 0
    let hi := rdF s (Reg.syncRegion i 1) 47 0
    if bit w 63 then emit (.twinCopy (twinPeer s) lo hi (cellsIn s lo hi)) s else s) s
  emit (.twinState (twinPeer s) s.twin.txSeq s.twin.windows) s

/-- Whether a job of the twinned tenant runs. -/
def twinJobRuns (s : State) : Bool :=
  match twinTenant s with
  | some t => s.host.jobs.any (fun j => j.tenant == t && j.st == 3)
  | none => false

/-- TWIN_RESYNC_START (R422): the first round boundary at or after the agreed round at which no job of the twinned
tenant runs on the ACTIVE unit. -/
def execTwinResyncStart (s : State) : Host.Outcome State Fault Refusal :=
  ok (let go (s : State) : State :=
      let t := max (rdF s Reg.syncRound 53 0 * 1024) ((now s + 1023) / 1024 * 1024)
      s |> clockTo t |> onTwin (fun x => { x with copying := true, resyncAsked := false })
    if s.twin.copying || !s.twin.paired then s
    else if twinRole s = 3 && !twinJobRuns s then
      s |> go |> onTwin (fun x => { x with holdJobs := true }) |> copyOut
    else if twinRole s = 1 && s.twin.resyncAsked then go s
    else s)

/-- What a copy brings is stored (R422). -/
def takeCopy (c : ResyncCopy) (s : State) : State :=
  let s := c.mem.foldl (fun s m => (writeMem true false m.1 m.2 s).2) s
  onTwin (fun x => { x with
    txSeq := c.seqs.foldl (fun m q => mset 0 m q.1 q.2) [], openSeqs := [],
    windows := c.windows.foldl (fun m w => mset 0 m w.1 w.2) [] }) s

/-- RESYNC_DONE (R422). -/
def execResyncDone (good : Bool) (c : ResyncCopy) (s : State) : Host.Outcome State Fault Refusal :=
  ok (if !s.twin.copying then s
    else if !good then failResync s
    else
      let s := s |> twinEvents 8 |> onTwin (fun x => { x with copying := false, resyncAsked := false, holdJobs := false })
      if twinRole s = 1 then
        s |> takeCopy c |> setRoleTwin 2 |> onTwin (fun x => { x with standbySince := now s })
      else s)

end Sys2Proof.Machine
end

