-- ==== Sys2Proof/Machine/RegAccess.lean ====
section
/-! DEFINITION. A write and a read of any register of the device (R12–R15, R472): every rule of a register that is more
than its access code, and every value that a register computes. -/

namespace Sys2Proof.Machine

-- Writes

/-- A plain write whose value is first adjusted. -/
def adjustedWrite (who : Writer) (a : Nat) (v : Word) (f : Word → Word) (s : State) : Nat × State :=
  withRoleDo (Reg.kind a).cls who a (fun s => wrReg a (f (plainValue (Reg.kind a) (rd s a) v)) s) s

/-- A field of a word kept between two bounds. -/
def clampFld (hi lo least most : Nat) (v : Word) : Word := setFld v hi lo (min most (max least (fld v hi lo)))

/-- A write that is refused unless a test passes. -/
def testedWrite (who : Writer) (a : Nat) (v : Word) (fine : Bool) (f : Word → Word) (s : State) : Nat × State :=
  withRole (Reg.kind a).cls who a (fun s =>
    if fine then (true, wrReg a (f (plainValue (Reg.kind a) (rd s a) v)) s) else (false, s)) s

/-- Whether a port is kept out of its bond's rotation now: it is UP and not a member, and a member has another neighbour
(R259). -/
def keptOut (s : State) (n : Nat) : Bool :=
  portState s n == 4 && (match bondOf s n with
    | some b => !(rotAhead s b).1.testBit n && (maskBits (rotAhead s b).1 32).any (fun m =>
        rdF s (Reg.neighbour m) 13 0 != rdF s (Reg.neighbour n) 13 0)
    | none => false)

/-- Bits of THERMAL.EVENT and ROUTE.EVENT whose condition holds now (R15, R282, R384, R389): the trip, an I/O die at 95 °C,
coolant data that is stale or out of range; a port kept out of its rotation. -/
def standing (s : State) (a : Nat) : Nat :=
  if a = Reg.thermalEvent then
    (if s.pwr.tripped then 2 else 0)
      + (if (List.range (2 * s.boot.ioDies)).any (fun j => decide (760 ≤ rdF s (Reg.ioTemp j) 11 0)) then 4 else 0)
      + (if 10000 < coolantAge s then 2 ^ 4 else 0)
      + (if s.pwr.coolantAt.isSome && coolantOut (rdF s Reg.coolant 63 56) (rdF s Reg.coolant 55 40) then 2 ^ 5 else 0)
  else if a = Reg.routeEvent then (if (List.range 32).any (keptOut s) then 2 ^ 8 else 0)
  else 0

/-- A W1C write of an event register: a bit whose condition holds stays set (R15, R389). -/
def eventWrite (who : Writer) (a : Nat) (v : Word) (s : State) : Nat × State :=
  withRoleDo (Reg.kind a).cls who a (fun s =>
    wrReg a (plainValue (Reg.kind a) (rd s a) (v &&& ~~~ wd (standing s a))) s) s

/-- CELLAR, BRINGUP, FUSELIC (R452–R455). -/
def writeCellar (who : Writer) (a : Nat) (v : Word) (s : State) : Nat × State :=
  if a = Reg.authCtrl then authCtrlWrite who v s
  else if 0x400 ≤ a ∧ a < 0xC00 ∧ a % 0x80 / 8 < 13 then keyWrite who ((a - 0x400) / 0x80) (a % 0x80 / 8) v s
  else if a = Reg.step then stepWrite who (fld v 3 0) s
  else if a = Reg.draffCtrl then draffWrite who v s
  else if a = Reg.licCtrl then licCtrlWrite who v s
  else if a = Reg.svnMin then svnWrite who v s
  else plainWrite who a v s

/-- FAULT (R407). -/
def writeFault (who : Writer) (a : Nat) (v : Word) (s : State) : Nat × State :=
  if a = Reg.faultStatus then faultStatusWrite who v s
  else if a = Reg.faultForce then faultForceWrite who v s
  else if a = Reg.firstSource ∨ (0x30400 ≤ a ∧ a < 0x304E0 ∧ a % 0x20 = 8) then captureClear who a v s
  else if a = Reg.fenceCtrl then fenceCtrlWrite who v s
  else if a = Reg.resetCtrl then resetCtrlWrite who v s
  else if a = Reg.abortCtrl then abortCtrlWrite who v s
  else plainWrite who a v s

/-- POWER and THERMAL (R381–R384). -/
def writePower (who : Writer) (a : Nat) (v : Word) (s : State) : Nat × State :=
  if a = Reg.powerCtrl then
    (let r := testedWrite who a v (fld v 9 8 != 3) (clampFld 23 16 16 72) s
     (r.1, if mayWrite s .operator who then stepAll r.2 else r.2))
  else if a = Reg.powerEvent then powerEventWrite who v s
  else if a = Reg.thermalEvent then eventWrite who a v s
  else if a = Reg.powerCap then powerCapWrite who v s
  else if a = Reg.ballastLevel then adjustedWrite who a v (fun w => clampFld 7 0 0 100 (clampFld 23 16 1 20 w)) s
  else if a = Reg.domainCtrl then domainCtrlWrite who v s
  else if a = Reg.thermalLimits then adjustedWrite who a v (clampFld 7 0 70 95) s
  else if a = Reg.coolant then coolantWrite who v s
  else plainWrite who a v s

/-- TIME (R57–R63). -/
def writeTime (who : Writer) (a : Nat) (v : Word) (s : State) : Nat × State :=
  if a = Reg.timeCtrl then timeCtrlWrite who v s
  else if a = Reg.timeParent then timeParentWrite who v s
  else if a = Reg.timeGuard then timeGuardWrite who v s
  else if a = Reg.schedSwitchRound then switchRoundWrite who v s
  else if 0x64000 ≤ a ∧ a < 0x6C000 then schedWrite (decide (0x68000 ≤ a)) who a v s
  else plainWrite who a v s

/-- ROUTE and COLL (R280, R314). -/
def writeRoute (who : Writer) (a : Nat) (v : Word) (s : State) : Nat × State :=
  if a = Reg.deviceId then deviceIdWrite who v s
  else if a = Reg.routeMachine then routeMachineWrite who v s
  else if a = Reg.preset then presetWrite who v s
  else if a = Reg.routeEpoch then routeEpochWrite who v s
  else if a = Reg.cmapCtrl then cmapCtrlWrite who v s
  else if 0x70100 ≤ a ∧ a < 0x70200 then portBondWrite who ((a - 0x70100) / 8) v s
  else if a = Reg.routeEvent then eventWrite who a v s
  else if a = Reg.collUpdateCtrl then groupCtrlWrite who v s
  else plainWrite who a v s

/-- A queue register (R334–R347). -/
def writeQueue (who : Writer) (a : Nat) (v : Word) (s : State) : Nat × State :=
  let q := (a - 0xA8000) / 0x40
  let k := a % 0x40
  if k = 0 ∨ k = 8 then ringBaseWrite who q a v s
  else if k = 0x10 then qCtrlWrite who q v s
  else if k = 0x18 then sqTailWrite who q v s
  else if k = 0x20 then cqHeadWrite who q v s
  else queueWrite who q a (fun s => wrReg a (plainValue (Reg.kind a) (rd s a) v) s) s

/-- CVU, HOST, ETH (R326, R345, R348). -/
def writeHost (who : Writer) (a : Nat) (v : Word) (s : State) : Nat × State :=
  if a < 0x91000 then
    (let c := (a - 0x90000) / 0x40
     if a % 0x40 = 0 then cvuCfgWrite who c v s
     else if a % 0x40 ≤ 0x28 then cvuParamWrite who c a v s
     else cvuWriter who c a (fun _ s => wrReg a (plainValue (Reg.kind a) (rd s a) v) s) s)
  else if 0xA8000 ≤ a ∧ a < 0xB0000 then writeQueue who a v s
  else if 0xB1000 ≤ a ∧ a < 0xB3000 ∧ a % 0x20 = 0x18 then
    adjustedWrite who a v (fun w => clampFld 39 32 1 255 (clampFld 31 16 1 65535 w)) s
  else plainWrite who a v s

/-- TWIN, FWUPD, WINDOW (R219, R425, R456). -/
def writeTwin (who : Writer) (a : Nat) (v : Word) (s : State) : Nat × State :=
  if a = Reg.twinCtrl then twinCtrlWrite who v s
  else if a = Reg.twinCmd then twinCmdWrite who v s
  else if a = Reg.beatCtrl then beatCtrlWrite who v s
  else if a = Reg.fwCtrl then fwCtrlWrite who v s
  else if a = Reg.fwLock then fwGuardWrite a 1 who v s
  else if a = Reg.fwShelf then fwGuardWrite a 3 who v s
  else if a = Reg.winUpdateCtrl then windowCtrlWrite who v s
  else if a = Reg.deadlineCube ∨ a = Reg.deadlineFar then
    adjustedWrite who a v (clampFld 47 0 1600 (2 ^ 48 - 1)) s
  else if a = Reg.cplQuarantine then adjustedWrite who a v (clampFld 47 0 409600000 (2 ^ 48 - 1)) s
  else if 0xE2000 ≤ a ∧ a < 0xE2800 then adjustedWrite who a v (clampFld 15 0 0 32768) s
  else plainWrite who a v s

/-- Sum of the shares of CREDIT_ALLOC (R253). -/
def allocSum (v : Word) : Nat := ((List.range 8).map (fun i => fld v (8 * i + 7) (8 * i))).foldl (fun a b => a + b) 0

/-- A PORT block (R249–R254). -/
def writePort (who : Writer) (a : Nat) (v : Word) (s : State) : Nat × State :=
  let n := (a - 0x100000) / 0x10000
  let k := a % 0x10000
  if k = 0 then linkctlWrite who n v s
  else if k = 0x20 then neighbourExpWrite who n v s
  else if k = 0x30 then
    adjustedWrite who a v (fun w => clampFld 47 32 1600 65535 (clampFld 31 16 1600 65535 (clampFld 3 0 1 15 w))) s
  else if k = 0x38 then adjustedWrite who a v (fun w => clampFld 15 8 1 255 (clampFld 3 0 1 15 w)) s
  else if k = 0x40 then testedWrite who a v (decide (allocSum v ≤ 256)) id s
  else if 0x8000 ≤ k ∧ k < 0x9000 then schedWrite (decide (0x8800 ≤ k)) who a v s
  else plainWrite who a v s

/-- A PART block (R183). -/
def writePart (who : Writer) (a : Nat) (v : Word) (s : State) : Nat × State :=
  let p := (a - 0x300000) / 0x100000
  let i := a % 0x80000 / 0x1000
  if a % 0x100000 < 0x80000 ∨ 0x84000 ≤ a % 0x100000 then inService a (plainWrite who a v) s
  else if a % 0x1000 = 8 then hbmCtrlWrite who p i v s
  else if !stackPresent s p i then (stAddr, violation (writeOcc s who a stAddr) (Reg.spaceBase + a) s)
  else if a % 0x1000 = 0x38 then inService a (adjustedWrite who a v (clampFld 15 0 1 65535)) s
  else inService a (plainWrite who a v) s

/-- A write of TILE.TENANT: by the physical function, while the tile is IDLE (R100). -/
def tileTenantWrite (who : Writer) (t : Nat) (v : Word) (s : State) : Nat × State :=
  unlicensedIf .operator who (fun s => !tenantOk s (fld v 7 0)) (withRole .operator who (Reg.tileTenant t) (fun s =>
    if tileState s t = 0 ∧ tenantOk s (fld v 7 0) then (true, wrReg (Reg.tileTenant t) (wd (fld v 7 0)) s)
    else (false, s))) s

/-- A TILE block (R100, R162, R166). -/
def writeTile (who : Writer) (a : Nat) (v : Word) (s : State) : Nat × State :=
  let t := (a - 0x1000000) / 0x1000
  let k := a % 0x1000
  if k = 8 then tileCtrlWrite who t v s
  else if k = 0x18 then inService a (tileTenantWrite who t v) s
  else if k = 0x30 then seedWrite who t v s
  else if 0x800 ≤ k ∧ k < 0xC00 ∧ k % 0x40 = 8 then bankNextWrite who t ((k - 0x800) / 0x40) v s
  else if k = 0xC00 then inService a (adjustedWrite who a v (clampFld 11 8 1 15)) s
  else inService a (plainWrite who a v) s

/-- A write of the register at an offset of register space (R12, R472). An answer other than OK is what a writer
without a session sees. -/
def writeReg (who : Writer) (a : Nat) (v : Word) (s : State) : Nat × State :=
  if a < 0x30000 then writeCellar who a v s
  else if a < 0x40000 then writeFault who a v s
  else if a < 0x60000 then writePower who a v s
  else if a < 0x70000 then writeTime who a v s
  else if a < 0x90000 then writeRoute who a v s
  else if a < 0xC0000 then writeHost who a v s
  else if a < 0x100000 then writeTwin who a v s
  else if a < 0x300000 then writePort who a v s
  else if a < 0x700000 then writePart who a v s
  else if a < 0x1200000 then writeTile who a v s
  else routeTableWrite who (decide (0x2020000 ≤ a)) (a % 0x20000 / 8) v s

-- Reads

/-- The audit log entry in slot `i`, as words (R446). -/
def auditRead (s : State) (i w : Nat) : Word :=
  let n := s.boot.auditNext
  if i < n then auditWord (n - 1 - (n - 1 - i) % 4096) (mget noAudit s.boot.audit i) w else 0

/-- CELLAR, BRINGUP, FUSELIC (R452–R455). -/
def readCellar (s : State) (a : Nat) : Word :=
  if 0x400 ≤ a ∧ a < 0xC00 ∧ a % 0x80 / 8 < 13 then keyWord s ((a - 0x400) / 0x80) (a % 0x80 / 8)
  else if a = Reg.auditHead then setFld (rd s a) 31 0 s.boot.auditNext
  else if 0x1040 ≤ a ∧ a < 0x1080 then auditRead s (rdF s Reg.auditIndex 11 0) ((a - 0x1040) / 8)
  else if a = Reg.bringupStatus ∧ s.boot.running ≠ 0 then setFld (rd s a) 63 32 (stepMs s)
  else if a = Reg.draffData0 then (draffEntry s (rdF s Reg.draffIndex 7 6) (rdF s Reg.draffIndex 5 0)).1
  else if a = Reg.draffData1 then (draffEntry s (rdF s Reg.draffIndex 7 6) (rdF s Reg.draffIndex 5 0)).2
  else if a = Reg.draffCount then
    wd (((List.range 4).map (fun p => draffCount s p * 2 ^ (8 * p))).foldl (fun a b => a + b) 0)
  else rd s a

/-- FAULT, POWER, THERMAL, TIME (R58, R381, R384, R407). -/
def readPower (s : State) (a : Nat) : Word :=
  if 0x40100 ≤ a ∧ a < 0x40190 then setBit (rd s a) 0 (railStale s ((a - 0x40100) / 8))
  else if a = Reg.coolant then setFld (rd s a) 31 0 (coolantAge s)
  else if a = Reg.timeNow then s.now
  else if a = Reg.schedOldCount then wd (oldPitch s)
  else rd s a

/-- ROUTE and COLL (R280, R314). -/
def readRoute (s : State) (a : Nat) : Word :=
  if a = Reg.routeEpoch then setFld (rd s a) 31 0 (oldTotal s)
  else if 0x70100 ≤ a ∧ a < 0x70200 then portBondRead s ((a - 0x70100) / 8)
  else if 0x70200 ≤ a ∧ a < 0x70260 then bondRead s ((a - 0x70200) / 8)
  else if 0x70300 ≤ a ∧ a < 0x70400 then wd (oldAtPort s ((a - 0x70300) / 8))
  else if a = Reg.collOldCount then wd (oldInsts s)
  else if a = Reg.engineStatus then
    wd (((List.range 4).map (fun i => engineFree s i * 2 ^ (16 * i))).foldl (fun a b => a + b) 0)
  else if a = Reg.groupData0 then (groupOf s (rdF s Reg.groupIndex 11 0)).w0
  else if a = Reg.groupData1 then (groupOf s (rdF s Reg.groupIndex 11 0)).w1
  else if a = Reg.memberData then wd (mget 0 s.coll.store (rdF s Reg.memberIndex 17 0)).toNat
  else rd s a

/-- TWIN and WINDOW (R219, R221, R426). -/
def readTwin (s : State) (a : Nat) : Word :=
  if a = Reg.twinStatus then setFld (rd s a) 63 48 (holdoffLeft s)
  else if a = Reg.winEpoch then setFld (rd s a) 31 0 (oldAccesses s)
  else if a = Reg.winReadData0 then (winEntry s (rdF s Reg.winReadIndex 11 0)).1
  else if a = Reg.winReadData1 then (winEntry s (rdF s Reg.winReadIndex 11 0)).2
  else if a = Reg.cplStatus then
    wd (countState s .done * 2 ^ 48 + countState s .quarantine * 2 ^ 32 + countState s .opened * 2 ^ 16
      + (32768 - countState s .done - countState s .quarantine - countState s .opened))
  else if 0xE0080 ≤ a ∧ a < 0xE00A0 then
    (recordWords (cplOf s (rdF s Reg.cplReadIndex 14 0))).getD ((a - 0xE0080) / 8) 0
  else rd s a

/-- Accesses that a stack holds and has not admitted (R181, R184): HELD. -/
def heldAt (s : State) (p i : Nat) : Nat :=
  min 255 ((s.rma.held.filter (fun h => h.1 == 8192 + 4 * p + i)).length
    + (if stackState s p i = 3 then 0 else (stk s p i).queue.length - (stk s p i).admitted))

/-- A PART block (R183, R184). -/
def readPart (s : State) (a : Nat) : Word :=
  let p := (a - 0x300000) / 0x100000
  let i := a % 0x80000 / 0x1000
  if a % 0x100000 < 0x80000 ∨ 0x84000 ≤ a % 0x100000 then 0
  else if !stackPresent s p i then 0
  else if a % 0x1000 = 0 then setFld (rd s a) 15 8 (heldAt s p i)
  else rd s a

/-- A TILE block (R100): DESC_BUSY shows the slots that are queued or run, BANK_INFLIGHT what a bank has admitted and not
yet accessed (R165). The block of an absent tile reads 0 but for STATUS. -/
def readTile (s : State) (a : Nat) : Word :=
  let t := (a - 0x1000000) / 0x1000
  let off := a % 0x1000
  if off = 0 then rd s a
  else if tileState s t = 6 then 0
  else if off = 0x60 then wd (maskOf ((tl s t).slotQ ++ (tl s t).running.toList))
  else if 0x800 ≤ off ∧ off < 0xC00 ∧ off % 0x40 = 0x18 then
    setFld (rd s a) 4 0 (bank s (16 * t + (off - 0x800) / 0x40)).oldCount
  else rd s a

/-- The value that a read of the register at an offset returns (R12, R472). -/
def regValue (s : State) (a : Nat) : Word :=
  if a < 0x30000 then readCellar s a
  else if a < 0x70000 then readPower s a
  else if a < 0x90000 then readRoute s a
  else if a < 0xC0000 then rd s a
  else if a < 0x100000 then readTwin s a
  else if a < 0x300000 then rd s a
  else if a < 0x700000 then readPart s a
  else if a < 0x1200000 then readTile s a
  else rd s a

/-- A read of a register by a reader: HOST.CQ_RTC and COLL.MEMBER_DATA have a side effect (R314, R340). -/
def readReg (who : Writer) (a : Nat) (s : State) : Word × State :=
  if a = Reg.memberData then (regValue s a, wrF Reg.memberIndex 17 0 (rdF s Reg.memberIndex 17 0 + 1) s)
  else if 0xA8000 ≤ a ∧ a < 0xB0000 ∧ a % 0x40 = 0x30 then
    (let q := (a - 0xA8000) / 0x40
     if mayPop s who q then cqRtcRead q s else (0, s))
  else (regValue s a, s)

end Sys2Proof.Machine
end

