-- ==== Sys2Proof/Machine/Access.lean ====
section
/-! DEFINITION. Accesses at their target: the checks of R209 and R189, banks (R141–R160), stacks (R171–R176), registers,
and what follows from an access that is performed. -/

namespace Sys2Proof.Machine

-- Who makes an access, and what a fault captures of it

/-- The device that asked for an access. -/
def accessDev (s : State) (x : Access) : Nat :=
  match replyOf s x with
  | .packet req => req.src
  | .getSeg req _ _ _ => req.src
  | .putSeg tag _ _ _ _ | .copyTo tag _ _ => (match (cplOf s tag).sink with | .copyFor req => req.src | _ => ownDev s)
  | _ => ownDev s

/-- Access type of an access in a capture (R409). -/
def accessKind (s : State) (x : Access) : Nat :=
  if 0x200 ≤ x.agent ∧ x.agent < 0x204 then 6
  else
    match replyOf s x with
    | .packet req => accessType req.opcode
    | .getSeg _ _ _ _ | .putSeg _ _ _ _ _ | .copyTo _ _ _ => 3
    | .bar _ | .hostOut _ _ _ | .entry _ _ => 7
    | .tag tag _ =>
      (match x.op with
       | .read => if (cplOf s tag).kind = .put ∨ (cplOf s tag).kind = .third then 3 else 0
       | .write => if (cplOf s tag).kind = .get ∨ (cplOf s tag).kind = .third then 4 else 1
       | .atomic _ _ _ _ => 2)
    | _ => (match x.op with | .read => 0 | .write => 1 | .atomic _ _ _ _ => 2)

/-- Completion tag and generation of an access, where one applies. -/
def accessTag (s : State) (x : Access) : Nat × Nat :=
  match replyOf s x with
  | .packet req => (req.tag, req.gen)
  | .getSeg req _ _ _ => (req.tag, req.gen)
  | .tag tag gen | .putSeg tag gen _ _ _ | .copyTo tag gen _ | .hostOut tag gen _ | .coll tag gen => (tag, gen)
  | _ => (0, 0)

/-- What a fault captures of an access with a status (R387, R409). -/
def accOcc (s : State) (x : Access) (status : Nat) : Occ :=
  { addr := if x.agent = 0x800 then fabricAddr s x.addr else wd x.addr, dev := accessDev s x, agent := x.agent,
    tenant := x.tenant, access := accessKind s x, status := status, tag := (accessTag s x).1,
    gen := (accessTag s x).2 }

/-- Who reaches a register by an access (R428). -/
def accessWho (s : State) (x : Access) : Writer :=
  if x.agent < 0x200 then .tile x.agent
  else if x.agent < 0x204 then .engine (x.agent - 0x200)
  else if x.agent = 0x300 then .path .pcie
  else match replyOf s x with
    | .bar _ => .vf x.tenant
    | _ => .fabric (accessDev s x) x.tenant

/-- An access that is refused without effect: an access violation, and its answer (R209). -/
def failAccess (x : Access) (status : Nat) (s : State) : List Access × State :=
  answer x status [] false (violation (accOcc s x status) x.addr s)

/-- Poisoned data reaches the one who asked for it, or its destination (R385). -/
def poisonConsumed (x : Access) (part : Option Nat) (s : State) : State :=
  recordData srcPoison (accOcc s x stPoisoned) part s

/-- Data that an access read is answered. Data that is only on its way to a destination of its own is not yet
consumed. -/
def answerRead (x : Access) (bs : List Byte) (poison : Bool) (s : State) : List Access × State :=
  let s := if poison then
      (match replyOf s x with
       | .putSeg _ _ _ _ _ | .copyTo _ _ _ => s
       | _ => poisonConsumed x (agentPart x.agent) s)
    else s
  answer x stOk bs poison s

/-- Bytes that an incoming WR, PUT_DATA or GET_DATA put in memory are covered by the RX channels (R317). -/
def coverIncoming (x : Access) (bs : List Byte) (poison : Bool) (s : State) : State :=
  match replyOf s x with
  | .packet req => if req.opcode = 0x30 then s else cvuIncoming req.src x.tenant x.addr bs poison s
  | .tag tag _ =>
    let e := cplOf s tag
    (match e.targets with
     | d :: _ => if e.kind = .get then cvuIncoming d.1 x.tenant x.addr bs poison s else s
     | [] => s)
  | _ => s

/-- A write is answered: POISONED where a poisoned unit refused it or it carried poison (R143, R174, R194). -/
def answerWrite (x : Access) (blocked : Bool) (s : State) : List Access × State :=
  let s := if x.poison then poisonConsumed x (partOf x.addr) s else s
  let s := if blocked then s else coverIncoming x x.data x.poison s
  answer x (if blocked || x.poison then stPoisoned else stOk) [] false s

/-- Operand bytes of an atomic, its width (R187, R196). -/
def opWidth : AccOp → Nat
  | .atomic op narrow _ _ => atomicWidth op narrow
  | _ => 1

-- Banks

/-- Bytes of SRAM that read new from now on (R70). -/
def settleBytes (a n : Nat) (s : State) : State :=
  ((banksAt a n).map (· / 16)).eraseDups.foldl (fun s t => onTl t (fun x => { x with
    unsettled := x.unsettled.filter (fun u => !decide (a ≤ sramAddr t u.off ∧ sramAddr t u.off < a + n)) }) s) s

/-- The tile and the event from which the bytes that an access writes are sure to read new to the tile's own instructions
(R70): a descriptor of its stream engine, or a read of its own into its SRAM. Other writes read new at once
(notes/assumptions/19.md). -/
def unsureFor (s : State) (x : Access) : Option (Nat × Until) :=
  match replyOf s x with
  | .tag tag gen =>
    if (cplOf s tag).st = .opened ∧ (cplOf s tag).gen = gen then
      (match (cplOf s tag).sink with
       | .sram t _ => some (t, .tag tag gen)
       | .slot t i => some (t, .slot i)
       | _ => none)
    else none
  | _ => none

/-- Bytes of a tile's SRAM, of which `old` is what they held, are not yet sure to read new. -/
def unsettle (t off : Nat) (old : List Byte) (u : Until) (s : State) : State :=
  onTl t (fun x => { x with unsettled := x.unsettled ++ old.zipIdx.map (fun b =>
    ({ off := off + b.2, old := b.1, till := u } : Unsettled)) }) s

/-- Bytes that a write of SRAM has replaced read new from now on, or once their writer is observed (R70). -/
def afterWrite (x : Access) (a : Nat) (old : List Byte) (s : State) : State :=
  let s := settleBytes a old.length s
  match unsureFor s x with
  | some (t, u) => if sramAddr t 0 ≤ a ∧ a < sramAddr (t + 1) 0 then unsettle t (a - sramAddr t 0) old u s else s
  | none => s

/-- An admitted access of SRAM through a view at a normal address is performed (R28, R142, R143, R147–R150). -/
def performSram (view a : Nat) (x : Access) (s : State) : List Access × State :=
  match x.op with
  | .read =>
    let bad := poisonedIn s a x.len
    let bs := memBytes s a x.len
    let s := noteErrors a x.len (accOcc s x stPoisoned) s
    answerRead x bs (bad != []) s
  | .write =>
    let s := (rmwUnits (view == 0) a x.len).foldl (fun s u => noteErrors (32 * u) 32 (accOcc s x stPoisoned) s) s
    let old := memBytes s a x.len
    let r := writeMem (view == 0) x.poison a (viewBytes view old x.data) s
    answerWrite x (r.1 != []) (afterWrite x a old r.2)
  | .atomic op narrow operand compare =>
    let w := atomicWidth op narrow
    let bad := poisonedIn s a w
    let s := noteErrors a w (accOcc s x stPoisoned) s
    if bad != [] then answer x stPoisoned [] false s
    else
      let old := leNat (memBytes s a w)
      let s := (writeMem false false a (leBytes w (atomicResult op w old operand.toNat compare.toNat)) s).2
      answer x stOk (leBytes 8 old) false (settleBytes a w s)

/-- Whether an atomic, or a store through the atomic-add view, is not aligned (R149). -/
def misaligned (view : Nat) (x : Access) : Bool :=
  match x.op with
  | .atomic op narrow _ _ => x.addr % atomicWidth op narrow != 0
  | .write => view == 3 && (x.addr % 8 != 0 || x.len % 8 != 0)
  | .read => false

/-- Bytes that an access touches. -/
def accLen (x : Access) : Nat := max x.len (opWidth x.op)

/-- The port by which an access reaches a tile's banks (R145). -/
def accessPort (s : State) (x : Access) (t : Nat) : Nat :=
  if x.agent ≠ t then 1
  else
    match replyOf s x, x.op with
    | .putSeg _ _ _ _ _, .read | .copyTo _ _ _, .read => 2
    | .tag tag _, .write => if (cplOf s tag).kind = .desc then 2 else 1
    | _, _ => 1

/-- An access as the queue of a port holds it (R145–R149). -/
def sramEntry (port view : Nat) (x : Access) (work : BankWork) : BankEntry :=
  { port := port, word := 0, left := 0, isRead := x.op == .read, work := work,
    two := match x.op with | .atomic op _ _ _ => decide (op < 0x15) | .write => view == 3 | .read => false }

/-- An access that is held in front of the queues under a key (R153, R156, R181). -/
def holdAccess (g : Nat) (x : Access) (s : State) : State :=
  { s with rma := { s.rma with held := s.rma.held ++ [(g, x)] } }

/-- Whether an access finds one of its port held in front of a bank that it touches too. -/
def heldBefore (s : State) (port : Nat) (l : List Nat) : Bool :=
  s.rma.held.any (fun h =>
    match accessRange s h.2.addr (max 1 h.2.len) with
    | some (.sram _ t off) => (banksAt (sramAddr t off) (accLen h.2)).any (fun g => l.contains g) && accessPort s h.2 t == port
    | _ => false)

/-- An access that passes the checks of its banks is admitted (R153). It is performed at once where no access is before
it, else when its first word proceeds. One that finds no room, or spans banks that are not clear, is held in front of the
queues. -/
def admitSram (view a : Nat) (x : Access) (s : State) : List Access × State :=
  let l := banksAt a (accLen x)
  let g := l.headD 0
  let port := accessPort s x (g / 16)
  if heldBefore s port l then ([], holdAccess g x s)
  else if banksClear s port a (accLen x) then
    performSram view a x (admitWords a (accLen x) (sramEntry port view x .spent) s)
  else if l = [g] ∧ banksRoom s port a (accLen x) then
    ([], admitWords a (accLen x) (sramEntry port view x (.access view a x)) s)
  else ([], holdAccess g x s)

/-- Steps 5 and 6 of R209 at banks (R152, R153, R156, R159), then the access. An access waits in front of a bank whose
handover is pending or whose cluster wakes. -/
def placeSram (view a : Nat) (x : Access) (s : State) : List Access × State :=
  let l := banksAt a (accLen x)
  match l.find? (fun g => bankWaking s (g / 16) || handoverPending s (g / 16) (g % 16)) with
  | some g => ([], holdAccess g x s)
  | none =>
    if l.any (fun g => !bankOn s (g / 16)) then failAccess x stBankOff s
    else if !(x.share && x.op == .read) && !l.all (fun g => owns s (g / 16) (g % 16) x.agent x.tenant) then
      failAccess x stNotOwner s
    else if misaligned view x then failAccess x stMisaligned s
    else admitSram view a x s

-- Stacks and registers

/-- The lines that `n` bytes from an address touch, as offset and length (R170). -/
def linesOf (a n : Nat) : List (Nat × Nat) := (List.range (segCount a n)).map (segOf a n)

/-- The part of an access that lies in one line. -/
def linePart (x : Access) (id : Nat) (g : Nat × Nat) : Access :=
  { x with addr := x.addr + g.1, len := g.2, data := (x.data.drop g.1).take g.2, reply := .part id g.1 }

/-- An access that spans lines goes to the stacks of its lines in parts (R170). -/
def splitLines (x : Access) (s : State) : State :=
  let id := s.rma.nextPart
  let s := { s with rma := { s.rma with
    parts := s.rma.parts ++ [(id, { acc := x, left := x.len })], nextPart := id + 1 } }
  (linesOf x.addr x.len).foldl (fun s g => toStack (linePart x id g) s) s

/-- Step 5 of R209 at the stacks of an access, then their queues (R170, R171, R182). -/
def placeHbm (p off : Nat) (x : Access) (s : State) : List Access × State :=
  let l := linesOf x.addr (accLen x)
  let st := l.map (fun g => stackState s p (stackOf s (off + g.1)))
  if st.any (fun k => decide (k ≤ 1)) then failAccess x stStackOff s
  else if st.contains 6 then failAccess x stStackFailed s
  else if misaligned 0 x then failAccess x stMisaligned s
  else if l.length ≤ 1 then ([], toStack x s)
  else ([], splitLines x s)

/-- An access of a register (R12, R13). -/
def placeReg (a : Nat) (x : Access) (s : State) : List Access × State :=
  match x.op with
  | .read =>
    let r := readReg (accessWho s x) a s
    answerRead x (leBytes 8 r.1.toNat) false r.2
  | .write =>
    let r := writeReg (accessWho s x) a (leWord x.data) s
    answer x r.1 [] false r.2
  | .atomic _ _ _ _ => failAccess x stAddr s

/-- Whether an atomic aims at an alias view or at register space (R187). -/
def badAtomic (x : Access) (r : Region) : Bool :=
  match x.op, r with
  | .atomic _ _ _ _, .sram v _ _ => v != 0
  | .atomic _ _ _ _, .reg _ => true
  | _, _ => false

/-- Whether an access of a register is not 8 bytes, aligned (R13). -/
def badSize (x : Access) (r : Region) : Bool :=
  match r with
  | .reg a => x.len != 8 || a % 8 != 0
  | _ => false

/-- Steps 2 and 3 of R209: the status of the first that fails, else the range. -/
def rangeCheck (s : State) (x : Access) : Except Nat Region :=
  match accessRange s x.addr (max 1 x.len) with
  | none => .error stAddr
  | some r => if badAtomic x r then .error stAddr else if badSize x r then .error stSize else .ok r

/-- An access that has passed steps 1–4 goes to its home. -/
def place (r : Region) (x : Access) (s : State) : List Access × State :=
  match r with
  | .hbm p off => placeHbm p off x s
  | .sram v t off => placeSram v (sramAddr t off) x s
  | .reg a => placeReg a x s

-- The checks of requests and of own accesses

/-- Whether an access aims at a partition that is not in service (R396). -/
def isFenced (s : State) (x : Access) : Bool :=
  match partOf x.addr with
  | some p => fenceState s p != 0
  | none => false

/-- The permission that an access needs (R210). -/
def permOf (x : Access) : Perm :=
  match x.op with
  | .read => .read
  | .atomic _ _ _ _ => .atomic
  | .write => match x.reply with | .packet req => if req.opcode = 0x30 then .pitch else .write | _ => .write

/-- Whether a range is register space. -/
def Region.isReg : Region → Bool
  | .reg _ => true
  | _ => false

/-- A request refused at steps 1–4 of R209 is counted. -/
def refuseRequest (x : Access) (status : Nat) (s : State) : List Access × State :=
  failAccess x status (addSat Reg.winRefuseCount 63 0 1 s)

/-- Steps 1–4 of R209 on an access of agent 0x800: fence, range, size, window, and the stamp of the epoch (R212). The
status of the first that fails, else the range and the access that goes on. -/
def admission (s : State) (x : Access) : Except Nat (Region × Access) :=
  if isFenced s x then .error stFenced
  else
    match rangeCheck s x with
    | .error e => .error e
    | .ok r =>
      match windowCheck s x.tenant x.addr (max 1 x.len) (permOf x) r.isReg with
      | none => .error stNoWindow
      | some share => .ok (r, { x with share := share, epoch := some (winEpochNow s), since := now s })

/-- An access that R209 checks. -/
def request (x : Access) (s : State) : List Access × State :=
  match admission s x with
  | .error e => refuseRequest x e s
  | .ok r => place r.1 r.2 s

/-- Whether an access puts data of a response where its operation wants it (R198): it is absorbed while its partition
drains (R397). -/
def isLanding (s : State) (x : Access) : Bool :=
  match x.reply, x.op with
  | .tag tag _, .write => (match (cplOf s tag).sink with | .sram _ _ => true | _ => false)
  | _, _ => false

/-- Whether a range is the register block of a tile of a tenant (R189). -/
def ownTileBlock (s : State) (r : Region) (tenant : Nat) : Bool :=
  match r with
  | .reg a => decide (0x1000000 ≤ a ∧ a < 0x1200000) && tileTenant s ((a - 0x1000000) / 0x1000) == tenant
  | _ => false

/-- An access of this device to itself (R29, R189). -/
def ownAccess (x : Access) (s : State) : List Access × State :=
  if x.agent = 0x800 then request x s
  else if isFenced s x && !isLanding s x then failAccess x stFenced s
  else
    match rangeCheck s x with
    | .error e => failAccess x e s
    | .ok r =>
      let exempt := x.agent == 0x300 || (match r with | .sram _ _ _ => true | _ => false) || ownTileBlock s r x.tenant
      if exempt then place r { x with since := now s } s
      else
        match windowCheck s x.tenant x.addr (max 1 x.len) (permOf x) r.isReg with
        | none => failAccess x stNoWindow s
        | some _ => place r { x with epoch := some (winEpochNow s), since := now s } s

/-- Some accesses one after another, each followed by what follows from it. -/
def runAll : Nat → List Access → State → State
  | 0, _, s => s
  | _ + 1, [], s => s
  | n + 1, x :: r, s =>
    let p := ownAccess x s
    runAll n (p.1 ++ r) p.2

/-- Some accesses and all that follows: an access leads to one more at most, that to none. -/
def submitAll (l : List Access) (s : State) : State := runAll (4 * l.length) l s

/-- What follows from an access goes on. -/
def follow (r : List Access × State) : State := submitAll r.1 r.2

-- What waits at banks

/-- One held access looked at again: a fenced partition answers it FENCED (R216, R396). -/
def retryOne (x : Access) (s : State) : State :=
  if isFenced s x && !isLanding s x then follow (failAccess x stFenced s)
  else
    match accessRange s x.addr (max 1 x.len) with
    | some (.hbm _ _) => toStack x s
    | some r => follow (place r x s)
    | none => follow (failAccess x stAddr s)

/-- The accesses that are held under some keys are looked at again; each finds the earlier ones before it (R156,
R208). -/
def retryAt (f : Nat → Bool) (s : State) : State :=
  let l := s.rma.held
  l.foldl (fun s h => if f h.1 then retryOne h.2 s else holdAccess h.1 h.2 s)
    { s with rma := { s.rma with held := [] } }

-- A cycle of the banks (R146, R147)

/-- Stall cycles of a bank's tile are counted (R69, R146). -/
def countStalls (g n : Nat) (s : State) : State :=
  wrReg (Reg.stallBank (g / 16)) (rd s (Reg.stallBank (g / 16)) + wd n) s

/-- One cycle of a bank (R146, R147): in the write cycle of a fall-back atomic every port waits; else the ports that
proceed access their words, the others lose an arbitration, and an access whose first word proceeds is performed. -/
def bankCycle (g : Nat) (s : State) : State :=
  let b := bank s g
  if b.wcycle then s |> countStalls g b.fronts.length |> onBank g (fun b => { b with wcycle := false })
  else
    let won := b.winners (rdF s (Reg.bankCtrl (g / 16)) 11 8)
    let lost := b.fronts.length - won.length
    let s := s |> onBank g (fun b => b.after won) |> countStalls g lost
      |> addSat (Reg.bankConflict (g / 16) (g % 16)) 63 0 lost
    won.foldl (fun s e =>
      match e.work with
      | .access view a x => follow (performSram view a x s)
      | _ => s) s

/-- One cycle of every bank that has something to do. -/
def bankCycles (s : State) : State := (s.banks.map (·.1)).foldl (fun s g => bankCycle g s) s

/-- HANDOVER_DONE (R156, R158): every access admitted before has been performed. -/
def execHandoverDone (t b : Nat) (s : State) : Host.Outcome State Fault Refusal :=
  ok (if t < 512 ∧ b < 16 ∧ handoverPending s t b ∧ (bank s (16 * t + b)).entries = [] then s |> installOwner t b |> retryAt (fun g => g == 16 * t + b)
    else s)

/-- DOMAIN_TURN_ON (R159, R380): the first request that waits on a rail, 10 µs after the last turn-on of the rail. The
accesses held at the banks of a woken cluster go on. -/
def execDomainTurnOn (rail : Nat) (s : State) : Host.Outcome State Fault Refusal :=
  ok (match s.pwr.waitOn.find? (fun d => domainRail d == rail) with
    | none => s
    | some d =>
      let s := match s.pwr.lastOn.find? (fun kv => kv.1 == rail) with
        | some kv => clockTo (kv.2 + 16000) s
        | none => s
      let s := { s with pwr := { s.pwr with waitOn := s.pwr.waitOn.erase d, lastOn := mset 0 s.pwr.lastOn rail (now s) } }
      s |> domainCameOn (inDomainUp s) d |> retryAt (fun g => clusterDomain (g / 16) == d))

-- Scrub of banks (R144)

/-- What the check bits of a unit show joins what is stored of it: one bit in error that shows again is the same one. -/
def mergeEcc (u : Nat) (x : Syndrome) (s : State) : State :=
  match x, eccOf s u with
  | .double, _ => setEcc u .poison s
  | .single, .clean => setEcc u .single s
  | _, _ => s

/-- What a scrub read captures: the home of the data reads for itself. -/
def scrubOcc (s : State) (a : Nat) : Occ :=
  { addr := wd a, dev := ownDev s, agent := 0xFFF, status := stPoisoned }

/-- BANK_SCRUB (R143, R144): a bank reads its next word, whose halves show `lo` and `hi`. -/
def execBankScrub (t b : Nat) (lo hi : Syndrome) (s : State) : Host.Outcome State Fault Refusal :=
  ok (if t < 512 ∧ b < 16 ∧ rdB s (Reg.bankCtrl t) 0 ∧ bankOn s t then
      let k := mget 0 (tl s t).scrub b
      let a := sramAddr t (b * 0x20000 + k * 64)
      s |> mergeEcc (a / 32) lo |> mergeEcc (a / 32 + 1) hi |> noteErrors a 64 (scrubOcc s a)
        |> onTl t (fun x => { x with scrub := mset 0 x.scrub b ((k + 1) % 2048) })
    else s)

/-- BANK_ECC_WRITEBACK (R143): a half that was read with one bit in error is written back corrected. -/
def execBankEccWriteback (t b : Nat) (s : State) : Host.Outcome State Fault Refusal :=
  ok (if t < 512 ∧ b < 16 then
      match s.ecc.find? (fun kv => kv.2 == .single && tileBankOf (32 * kv.1) == (t, b) && decide (sramAddr 0 0 ≤ 32 * kv.1)) with
      | some kv => setEcc kv.1 .clean s
      | none => s
    else s)

-- Accesses of a stack (R171–R176)

/-- Sectors of an access, and whether two accesses share one. -/
def sectorsOf (x : Access) : List Nat := unitsOf x.addr (accLen x)

/-- Sectors that an access reads: all of a read or an atomic, those that a write covers in part (R171, R172). -/
def readSectors (x : Access) : List Nat :=
  match x.op with
  | .write => rmwUnits true x.addr x.len
  | _ => sectorsOf x

/-- A stack reads one sector (R174): its code is judged, counted and reported. -/
def readSector (p i : Nat) (o : Occ) (u : Nat) (x : Syndrome) (s : State) : State :=
  if eccOf s u = .poison then
    s |> wrReg (Reg.hbmErrAddr p i) (wd (32 * u)) |> recordData srcHbm o (some p)
  else
    match x with
    | .clean => s
    | .single => noteCorrected p i s
    | .double =>
      s |> addSat (Reg.hbmEcc p i) 47 32 1 |> wrReg (Reg.hbmErrAddr p i) (wd (32 * u)) |> hbmEvents p i 1
        |> setEcc u .poison |> recordData srcHbm o (some p)

/-- Some sectors read in order, each with what its code shows. -/
def readAll (p i : Nat) (o : Occ) : List Nat → List Syndrome → State → State
  | [], _, s => s
  | u :: r, l, s => readAll p i o r l.tail (readSector p i o u (l.headD .clean) s)

/-- The severity reports of the stack's own code are counted (R175, R184). -/
def onDie (p i corrected uncorrected : Nat) (s : State) : State :=
  s |> addSat (Reg.hbmEcc p i) 31 16 corrected |> addSat (Reg.hbmEcc p i) 15 0 uncorrected

/-- A stack performs an access whose sectors have been read (R171, R172, R174). -/
def performHbm (x : Access) (s : State) : List Access × State :=
  match x.op with
  | .read => answerRead x (memBytes s x.addr x.len) (poisonedIn s x.addr x.len != []) s
  | .write =>
    let r := writeMem true x.poison x.addr x.data s
    answerWrite x (r.1 != []) r.2
  | .atomic op narrow operand compare =>
    let w := atomicWidth op narrow
    if poisonedIn s x.addr w != [] then answer x stPoisoned [] false s
    else
      let old := leNat (memBytes s x.addr w)
      let s := (writeMem false false x.addr (leBytes w (atomicResult op w old operand.toNat compare.toNat)) s).2
      answer x stOk (leBytes 8 old) false s

/-- Whether a stack may perform the access at a place of its queue now: in RETRAIN and THERMAL_HOLD, and after a retrain
that a fence abandoned, only what it had admitted (R178, R181, R397), and none before an earlier one of the same sector
(R171). -/
def mayPerform (s : State) (p i k : Nat) (x : Access) : Bool :=
  let q := stk s p i
  let v := stackState s p i
  (v == 3 || ((v == 2 || v == 4 || v == 5) && decide (k < q.admitted)))
    && !(q.queue.take k).any (fun y => (sectorsOf y).any (fun u => (sectorsOf x).contains u))

/-- HBM_ACCESS (R171–R175): the access at place `k` of a stack's queue. `syn` is what the code of each sector it reads
shows, in address order. -/
def execHbmAccess (p i k : Nat) (syn : List Syndrome) (corrected uncorrected : Nat) (s : State) :
    Host.Outcome State Fault Refusal :=
  ok (match (stk s p i).queue[k]? with
    | none => s
    | some x =>
      let v := stackState s p i
      if !stackPresent s p i then s
      else if v = 1 ∨ v = 6 then
        s |> onStk p i (fun q => { q with queue := q.queue.eraseIdx k })
          |> failAccess x (if v = 1 then stStackOff else stStackFailed) |> follow
      else if !mayPerform s p i k x then s
      else
        let s := onStk p i (fun q => { q with
          queue := q.queue.eraseIdx k, admitted := if k < q.admitted then q.admitted - 1 else q.admitted }) s
        let s := s |> onDie p i corrected uncorrected |> readAll p i (accOcc s x stPoisoned) (readSectors x) syn
        finishOff p i (follow (performHbm x s)))

/-- Local address of the line that a stack scrubs next (R170, R176). -/
def scrubLine (s : State) (p i : Nat) : Nat :=
  p * 0x1800000000 + lineOffset s i ((stk s p i).scrubRow % 32) ((stk s p i).scrubRow / 32)

/-- HBM_SCRUB (R175, R176): one line, behind every access that waits. -/
def execHbmScrub (p i : Nat) (seen : ScrubRead) (s : State) : Host.Outcome State Fault Refusal :=
  ok (if stackPresent s p i && stackState s p i == 3 && rdB s (Reg.hbmCtrl p i) 4 && (stk s p i).queue == [] then
      let a := scrubLine s p i
      s |> onDie p i seen.corrected seen.uncorrected |> readAll p i (scrubOcc s a) (unitsOf a 256) seen.syn
        |> onStk p i (fun q => { q with scrubRow := (q.scrubRow + 1) % 100663296 })
    else s)

end Sys2Proof.Machine
end

