-- ==== Sys2Proof/Machine/Remote.lean ====
section
/-! DEFINITION. Remote memory instructions of a tile at issue (R83–R85, R186–R193), timed pitch stores (R51, R52, R82),
deadlines (R204) and the twinned operations (R415, R416). -/

namespace Sys2Proof.Machine

-- Targets (R22–R24)

/-- What a fabric address names: this device by its own map, a device, the devices of a group, or nothing, with the
status and whether an access violation is recorded. -/
inductive Target where
  | own (a : Nat)
  | device (d a : Nat)
  | group (l : List Nat) (a : Nat)
  | bad (status : Nat) (viol : Bool)
deriving DecidableEq, Repr

/-- The distinct devices of a group's flattened list (R24). -/
def groupDevices (s : State) (x : Group) : List Nat :=
  ((positions x).map (fun p => memDevice (memberAt s x p))).eraseDups

/-- The checks of R23 on an address; `store` where class 0b10 is accepted. -/
def targetOf (s : State) (a : Word) (store : Bool) : Target :=
  let c := fld a 63 62
  let d := fld a 61 48
  let l := fld a 47 0
  if c = 0 then (if d = 0 then .own l else .bad stAddr true)
  else if c = 1 then
    if d = ownDev s ∨ (inMachine s d ∧ (egressBond s (injectEpoch s) d).isSome) then .device d l else .bad stNoRoute false
  else if c = 3 ∨ !store ∨ 4096 ≤ d then .bad stAddr true
  else if (groupOf s d).valid then .group (groupDevices s (groupOf s d)) l
  else .bad stNoGroup false

/-- The devices of a target. -/
def Target.devices (s : State) : Target → List Nat
  | .own _ => [ownDev s]
  | .device d _ => [d]
  | .group l _ => l
  | .bad _ _ => []

/-- Class deadline of an operation that reaches some devices (R204). -/
def classDeadline (s : State) (l : List Nat) : Nat :=
  rdF s (if l.all (sameCube (ownDev s)) then Reg.deadlineCube else Reg.deadlineFar) 47 0

/-- What a copy of `n` bytes adds to it (R204). -/
def copyAllowance (s : State) (n : Nat) : Nat := ceilDiv n 4096 * rdF s Reg.copyAllow 31 0

-- Size and alignment (R186, R187)

/-- Whether a local address lies in register space. -/
def isRegAddr (a : Nat) : Bool := decide (Reg.spaceBase ≤ a ∧ a < Reg.spaceBase + Reg.spaceSize)

/-- Whether a local address lies in an alias view. -/
def isAlias (a : Nat) : Bool := decide (0x7F1000000000 ≤ a ∧ a < 0x7F1240000000)

/-- The check of a load or store of `n` bytes: its status. A register takes 8 aligned bytes and nothing else (R13). -/
def wordCheck (a n : Nat) : Nat :=
  if isRegAddr a then (if a % 8 = 0 ∧ n = 8 then stOk else stSize)
  else if a % 8 ≠ 0 ∨ 256 < a % 256 + n then stMisaligned else stOk

/-- The check of an atomic of `w` bytes: an alias view or a register is no target of it, whatever its alignment. -/
def atomicCheck (a w : Nat) : Nat :=
  if isRegAddr a || isAlias a then stAddr else if a % w ≠ 0 then stMisaligned else stOk

/-- The check of a copy of `n` bytes with its other end. The upper bound of a put or get is that of its local side. -/
def copyCheck (a other n : Nat) : Nat :=
  if a % 8 ≠ 0 ∨ other % 8 ≠ 0 ∨ n % 8 ≠ 0 ∨ n < 8 then stMisaligned else stOk

/-- The check of one end of a third-party copy of `n` bytes: it lies within one mapped range, of this device's own map
where it is this device's (R27, R186). -/
def rangeOk (s : State) (tg : Target) (n : Nat) : Bool :=
  match tg with
  | .own a => (accessRange s a n).isSome
  | .device d a => if d = ownDev s then (accessRange s a n).isSome else oneMapRange a (a + (n - 1))
  | .group _ a => oneMapRange a (a + (n - 1))
  | .bad _ _ => true

/-- The local side lies in the tile's SRAM. -/
def localSide (off n : Nat) : Nat := if 0x200000 < off + n then stAddr else stOk

/-- The first status of a list that is not OK. -/
def firstBad (l : List Nat) : Nat := (l.find? (fun x => x != 0)).getD 0

-- Issue (R84, R188)

/-- Kind of access that a refused operation is captured as (R409). -/
def kindAccess (k : CplKind) : Nat :=
  match k with
  | .load => 0
  | .atomic => 2
  | .get | .third => 3
  | .put => 4
  | .coll => 6
  | _ => 1

/-- An operation refused at issue: it completes at once, having sent nothing (R84, R188). -/
def refuseTag (tag status : Nat) (viol : Bool) (s : State) : State :=
  let e := cplOf s tag
  let agent := e.tile.getD 0x300
  let o : Occ := { addr := e.target, dev := ownDev s, agent := agent, tenant := e.tenant, access := kindAccess e.kind,
                   status := status, tag := tag, gen := e.gen }
  s |> (if viol then recordData srcAccess o (agentPart agent) else id) |> failTag tag status false

/-- TD of an instruction that allocated a tag (R84). -/
def writeTd (t : Nat) (x : QArgs) (w : Word) (s : State) : State :=
  if x.ar then s else onTl t (setG x.td.toNat w) s

/-- A tile stalls for a completion slot: WAIT_KIND shows it from the first time on (R84, R101). -/
def stallForTag (t : Nat) (s : State) : State :=
  if rdF s (Reg.tileStatus t) 15 12 = 6 then s
  else s |> wrF (Reg.tileStatus t) 15 12 6 |> onTl t (fun x => { x with waitFrom := now s })

/-- A tile that stalled for a completion slot has got one: the cycles of the stall count (R100). -/
def endTagStall (t : Nat) (s : State) : State :=
  if rdF s (Reg.tileStatus t) 15 12 ≠ 6 then s
  else
    let c := coreCycles s t (now s - (tl s t).waitFrom)
    s |> wrReg (Reg.stallWait t) (rd s (Reg.stallWait t) + wd c) |> wrReg (Reg.cycles t) (rd s (Reg.cycles t) + wd c)

/-- A tile's operation takes an entry, writes TD and goes on; with no entry free it stalls, or with NW = 1 is not issued
(R84, R202). -/
def issueOp (t : Nat) (x : QArgs) (kind : CplKind) (sink : Sink) (target : Word) (go : Nat → State → State) (s : State) :
    State :=
  match pickTag (tileTenant s t) s with
  | (none, _) => if x.nw then s |> writeTd t x (wd (2 ^ 63)) |> advance t else stallForTag t s
  | (some k, s) =>
    s |> endTagStall t |> openTag k { kind := kind, sink := sink, tile := some t, tenant := tileTenant s t, ar := x.ar, target := target }
      |> writeTd t x (tagWord (cplOf s k).gen k) |> advance t |> go k

/-- What an operation expects, and its deadline. -/
def expectTag (tag base expect after : Nat) (targets : List Nat) (s : State) : State :=
  setCpl tag { cplOf s tag with base := base, expect := expect, deadline := now s + after,
                                targets := targets.map (fun d => (d, 0)) } s

/-- Attaches the channel that CVU_EN names (R83, R318). -/
def attachCvu (t : Nat) (x : QArgs) (tag base total : Nat) (s : State) : State :=
  if x.cvuEn then cvuAttach x.cvu.toNat (tileTenant s t) tag base total s else s

/-- CVU_EN on an operation to which no channel is attached (R318). -/
def refuseCvu (x : QArgs) (s : State) : State :=
  if x.cvuEn then wrB (Reg.cvuStatus x.cvu.toNat) 5 true s else s

/-- Whether a twinned operation of `n` packets has to wait: it would give a destination a number 2,048 or more ahead of
the oldest one still OPEN (R416). -/
def twinStalls (s : State) (tenant n : Nat) (l : List Nat) : Bool :=
  isTwinned s tenant && l.any (fun d =>
    match (s.twin.openSeqs.filter (fun o => o.1 == d && (cplOf s o.2.2).st == .opened)).map (·.2.1) with
    | [] => false
    | k :: r => decide (r.foldl min k + 2048 < mget 0 s.twin.txSeq d + n))

/-- What the pair no longer needs to know of operations that have ended. -/
def pruneTwin (s : State) : State :=
  onTwin (fun x => { x with openSeqs := x.openSeqs.filter (fun o => (cplOf s o.2.2).st == .opened) }) s

/-- A twinned operation that has to wait stalls its tile (R416). -/
def withTwin (t n : Nat) (l : List Nat) (body : State → State) (s : State) : State :=
  if twinStalls s (tileTenant s t) n l then s
  else if isTwinned s (tileTenant s t) then body (pruneTwin s) else body s

/-- An operation that twin mode does not carry (R415). -/
def unlessTwinned (tag : Nat) (f : State → State) (s : State) : State :=
  if isTwinned s (cplOf s tag).tenant then refuseTag tag stTwin false s else f s

-- RLD, RST, RAT (R83, R186, R187)

/-- Bytes named by SIZE. -/
def sizeOf_ (x : QArgs) : Nat := 8 * (x.size.toNat + 1)

/-- A load of a tile after its entry is open. -/
def goLoad (t : Nat) (x : QArgs) (a : Word) (off tag : Nat) (s : State) : State :=
  let n := sizeOf_ x
  let lo := fld a 47 0
  let tg := targetOf s a false
  match tg with
  | .bad st v => refuseTag tag st v s
  | _ =>
    let st := firstBad [wordCheck lo n, if x.d ≠ 0 ∧ n ≠ 8 then stMisaligned else stOk,
                        if x.d = 0 then localSide off n else stOk]
    if st ≠ 0 then refuseTag tag st (st == stSize) s
    else
      let s := s |> expectTag tag lo n (classDeadline s (tg.devices s)) []
        |> attachCvu t x tag (if x.d = 0 then sramAddr t off else 0) n
      match tg with
      | .device d _ => sendOwn tag false { dst := d, opcode := 1, len4 := n / 4, addr := lo } s
      | _ => submitAll [{ op := .read, addr := lo, len := n, agent := t, tenant := tileTenant s t, since := now s,
                          reply := ownReply s tag }] s

/-- RLD (R82, R83, R186). -/
def execRld (t : Nat) (x : QArgs) (s : State) : Host.Outcome State Fault Refusal :=
  ok (qissue t x { d := x.d, a := x.a, b := x.b, td := x.td, nw := x.nw, ar := x.ar, size := x.size, cvu := x.cvu,
                   cvuEn := x.cvuEn } false [x.a.toNat, x.b.toNat] (fun s =>
    let a := gv s t x.a
    let off := (gv s t x.b).toNat
    issueOp t x .load (if x.d = 0 then .sram t off else .reg t x.d.toNat) a (fun tag s =>
      s |> (if x.d = 0 then id else onTl t (fun y => { y with pend := y.pend ++ [x.d.toNat] }))
        |> goLoad t x a off tag) s) s)

/-- The reads of a store or of a copy from a tile's own SRAM: `seg` gives each part its place and its length. -/
def ownReads (t off tag dst : Nat) (own : Bool) (l : List (Nat × Nat × Nat)) (last : Nat) (s : State) : State :=
  submitAll (l.map (fun g =>
    { op := .read, addr := sramAddr t (off + g.2.1), len := g.2.2, agent := t, tenant := tileTenant s t, since := now s,
      reply := if own then .copyTo tag (cplOf s tag).gen (dst + g.2.1)
        else .putSeg tag (cplOf s tag).gen (dst + g.2.1) g.1 (g.1 == last) })) s

/-- A store of a tile after its entry is open. -/
def goStore (t : Nat) (x : QArgs) (a : Word) (off tag : Nat) (s : State) : State :=
  let n := sizeOf_ x
  let lo := fld a 47 0
  let tg := targetOf s a true
  match tg with
  | .bad st v => refuseTag tag st v s
  | _ =>
    let st := firstBad [wordCheck lo n, localSide off n]
    if st ≠ 0 then refuseTag tag st (st == stSize) s
    else
      let l := tg.devices s
      let own := match tg with | .own _ => true | _ => false
      s |> expectTag tag lo (n * l.length) (classDeadline s l) l |> attachCvu t x tag a.toNat n
        |> ownReads t off tag lo own [(0, 0, n)] 1

/-- RST (R82, R83, R186). -/
def execRst (t : Nat) (x : QArgs) (s : State) : Host.Outcome State Fault Refusal :=
  ok (qissue t x { a := x.a, b := x.b, td := x.td, nw := x.nw, ar := x.ar, size := x.size, cvu := x.cvu,
                   cvuEn := x.cvuEn } false [x.a.toNat, x.b.toNat] (fun s =>
    let a := gv s t x.a
    let off := (gv s t x.b).toNat
    withTwin t 1 ((targetOf s a true).devices s) (issueOp t x .store .none a (goStore t x a off)) s) s)

/-- Width of a RAT, none where SIZE is illegal (R187). -/
def ratWidth (x : QArgs) : Option Nat :=
  if x.sub.toNat ≤ 2 then (if x.size = 0 then some (if x.sub = 1 then 8 else 4) else none)
  else if x.sub.toNat ≤ 6 ∧ x.size.toNat < 2 then some (if x.size = 0 then 8 else 4) else none

/-- A word of an atomic's payload: the high bytes of a 4-byte operation are 0 (R196). -/
def atomicWord (w : Nat) (v : Word) : Word := if w = 4 then wd (v.toNat % 2 ^ 32) else v

/-- An atomic of a tile after its entry is open. -/
def goAtomic (t op w : Nat) (a operand compare : Word) (tag : Nat) (s : State) : State :=
  let lo := fld a 47 0
  let tg := targetOf s a false
  match tg with
  | .bad st v => refuseTag tag st v s
  | _ =>
    let st := atomicCheck lo w
    if st ≠ 0 then refuseTag tag st false s
    else
      let s := expectTag tag lo w (classDeadline s (tg.devices s)) [] s
      let narrow := decide (0x13 ≤ op) && w == 4
      let payload := leBytes 8 (atomicWord w operand).toNat
        ++ (if op = 0x14 then leBytes 8 (atomicWord w compare).toNat else [])
      match tg with
      | .device d _ =>
        sendOwn tag false { dst := d, opcode := op, narrow := narrow, len4 := payload.length / 4, addr := lo,
                            payload := payload } s
      | _ => submitAll [{ op := .atomic op narrow operand compare, addr := lo, len := w, agent := t,
                          tenant := tileTenant s t, since := now s, reply := ownReply s tag }] s

/-- RAT (R82, R83, R187). -/
def execRat (t : Nat) (x : QArgs) (s : State) : Host.Outcome State Fault Refusal :=
  ok (qissue t x { d := x.d, a := x.a, b := x.b, c := x.c, td := x.td, nw := x.nw, ar := x.ar, sub := x.sub,
                   size := x.size, cvu := x.cvu, cvuEn := x.cvuEn } (ratWidth x).isNone
    [x.a.toNat, x.b.toNat, x.c.toNat] (fun s =>
      let a := gv s t x.a
      let b := gv s t x.b
      let c := gv s t x.c
      issueOp t x .atomic (if x.d = 0 then .none else .reg t x.d.toNat) a (fun tag s =>
        s |> (if x.d = 0 then id else onTl t (fun y => { y with pend := y.pend ++ [x.d.toNat] })) |> refuseCvu x
          |> unlessTwinned tag (goAtomic t (0x10 + x.sub.toNat) ((ratWidth x).getD 8) a b c tag)) s) s)

-- RCP (R83, R186, R190–R194)

/-- Segments of a copy of `n` bytes: number, offset, length (R190). -/
def segments (base n : Nat) : List (Nat × Nat × Nat) :=
  (List.range (segCount base n)).map (fun k => (k, segOf base n k))

/-- A put of a tile after its entry is open. -/
def goPut (t : Nat) (x : QArgs) (a : Word) (off n tag : Nat) (s : State) : State :=
  let lo := fld a 47 0
  let tg := targetOf s a true
  match tg with
  | .bad st v => refuseTag tag st v s
  | _ =>
    let st := firstBad [copyCheck lo off n, localSide off n]
    if st ≠ 0 then refuseTag tag st false s
    else
      let l := tg.devices s
      let own := match tg with | .own _ => true | _ => false
      s |> expectTag tag lo (n * l.length) (classDeadline s l + copyAllowance s n) l |> attachCvu t x tag a.toNat n
        |> ownReads t off tag lo own (segments lo n) (segCount lo n - 1)

/-- RCP put (R191): SUB 0. -/
def execRcpPut (t : Nat) (x : QArgs) (s : State) : Host.Outcome State Fault Refusal :=
  ok (qissue t x { a := x.a, b := x.b, c := x.c, td := x.td, nw := x.nw, ar := x.ar, sub := 0, cvu := x.cvu,
                   cvuEn := x.cvuEn } false [x.a.toNat, x.b.toNat, x.c.toNat] (fun s =>
    let a := gv s t x.a
    let off := (gv s t x.b).toNat
    let n := (gv s t x.c).toNat
    withTwin t (segCount (fld a 47 0) n) ((targetOf s a true).devices s)
      (issueOp t x .put .none a (goPut t x a off n)) s) s)

/-- The payload of GET_REQ and THIRD_REQ (R196). -/
def pairBytes (a n : Nat) : List Byte := leBytes 8 a ++ leBytes 8 n

/-- A get to a place of this device after its entry is open: `dst` is the requester's local address. -/
def goGet (agent tenant : Nat) (a : Word) (dst n tag : Nat) (s : State) : State :=
  let lo := fld a 47 0
  let tg := targetOf s a false
  match tg with
  | .bad st v => refuseTag tag st v s
  | _ =>
    let after := classDeadline s (tg.devices s) + copyAllowance s n
    match tg with
    | .device d _ =>
      s |> expectTag tag dst n after [d]
        |> sendOwn tag false { dst := d, opcode := 0x21, len4 := 4, addr := lo, payload := pairBytes dst n }
    | _ =>
      s |> expectTag tag lo n after []
        |> submitAll ((segments dst n).map (fun g =>
            { op := .read, addr := lo + g.2.1, len := g.2.2, agent := agent, tenant := tenant, since := now s,
              reply := ownReply s tag }))

/-- RCP get (R192): SUB 1. -/
def execRcpGet (t : Nat) (x : QArgs) (s : State) : Host.Outcome State Fault Refusal :=
  ok (qissue t x { a := x.a, b := x.b, c := x.c, td := x.td, nw := x.nw, ar := x.ar, sub := 1, cvu := x.cvu,
                   cvuEn := x.cvuEn } false [x.a.toNat, x.b.toNat, x.c.toNat] (fun s =>
    let a := gv s t x.a
    let off := (gv s t x.b).toNat
    let n := (gv s t x.c).toNat
    issueOp t x .get (.sram t off) a (fun tag s =>
      let st := firstBad [copyCheck (fld a 47 0) off n, localSide off n]
      match targetOf s a false with
      | .bad st v => refuseTag tag st v s
      | _ =>
        if st ≠ 0 then refuseTag tag st false s
        else s |> attachCvu t x tag (sramAddr t off) n |> goGet t (tileTenant s t) a (sramAddr t off) n tag) s) s)

/-- The segments of a copy from this device's memory to a destination, as an agent reads them (R193). -/
def copyReads (agent tenant src tag : Nat) (dst : Target) (n : Nat) (s : State) : State :=
  let base := match dst with | .own a => a | .device _ a => a | .group _ a => a | .bad _ _ => 0
  let own := match dst with | .own _ => true | _ => false
  let last := segCount base n - 1
  submitAll ((segments base n).map (fun g =>
    { op := .read, addr := src + g.2.1, len := g.2.2, agent := agent, tenant := tenant, since := now s,
      reply := if own then .copyTo tag (cplOf s tag).gen (base + g.2.1)
        else .putSeg tag (cplOf s tag).gen (base + g.2.1) g.1 (g.1 == last) })) s

/-- Devices that a third-party destination reaches, as its requester sees it (R204). -/
def thirdDevices (s : State) (src : Nat) (b : Word) : List Nat :=
  if fld b 63 62 = 0 then [src]
  else if fld b 63 62 = 1 then [fld b 61 48]
  else match targetOf s b true with | .group l _ => l | _ => []

/-- The status that refuses a third-party copy at issue, and whether a violation is recorded (R23, R27, R186, R188):
class and target of both addresses, then size and alignment, then their ranges. -/
def thirdCheck (s : State) (a b : Word) (n : Nat) : Nat × Bool :=
  match targetOf s a false, targetOf s b true with
  | .bad st v, _ => (st, v)
  | _, .bad st v => (st, v)
  | src, dst =>
    let st := if 2 ^ 32 < n then stMisaligned else copyCheck (fld a 47 0) (fld b 47 0) n
    if st ≠ 0 then (st, false) else if rangeOk s src n && rangeOk s dst n then (stOk, false) else (stAddr, true)

/-- A third-party copy of a tile after its entry is open. A source on this device is read here, with no request
(R193). -/
def goThird (t : Nat) (a b : Word) (n tag : Nat) (s : State) : State :=
  let lo := fld a 47 0
  let tg := targetOf s a false
  let bad := thirdCheck s a b n
  if bad.1 ≠ 0 then refuseTag tag bad.1 bad.2 s
  else
    let src := tg.devices s
    let after := classDeadline s (src ++ thirdDevices s (src.headD 0) b) + copyAllowance s n
    match tg with
    | .device d _ =>
      s |> expectTag tag 0 n after []
        |> sendOwn tag false { dst := d, opcode := 0x23, len4 := 4, addr := lo, payload := pairBytes b.toNat n }
    | _ =>
      let dst := targetOf s b true
      let l := dst.devices s
      s |> expectTag tag (fld b 47 0) (n * l.length) after l |> copyReads t (tileTenant s t) lo tag dst n

/-- RCP third-party (R193): SUB 2. -/
def execRcpThird (t : Nat) (x : QArgs) (s : State) : Host.Outcome State Fault Refusal :=
  ok (qissue t x { a := x.a, b := x.b, c := x.c, td := x.td, nw := x.nw, ar := x.ar, sub := 2, cvu := x.cvu,
                   cvuEn := x.cvuEn } false [x.a.toNat, x.b.toNat, x.c.toNat] (fun s =>
    let a := gv s t x.a
    let b := gv s t x.b
    let n := (gv s t x.c).toNat
    issueOp t x .third .none a (fun tag s => s |> refuseCvu x |> unlessTwinned tag (goThird t a b n tag)) s) s)

-- ATSLOT (R51, R52, R82)

/-- What the admission of R51 finds of a reservation in the active version: its two words, or the status that refuses
it. The egress port and the claim are looked at last. -/
def admitPitch (s : State) (tenant res round flits : Nat) : Nat :=
  let b := schedActive s
  let w := srcRes s b res 0
  if !bit w 63 || fld (srcRes s b res 1) 47 40 != tenant || round % 2 ^ fld w 29 26 != fld w 25 16
      || fld w 42 40 != flits then stNoReservation
  else if !(timeState s == 2 || timeState s == 3) || pitchState s (fld w 47 43) != 1 then stPitchSuspended
  else if s.net.claims.contains (res, round) then stSlotTaken
  else stOk

/-- Claims an occurrence; occurrences that have passed are forgotten. -/
def claimSlot (res round : Nat) (s : State) : State :=
  { s with net := { s.net with
    claims := s.net.claims.filter (fun c => decide (now s < (c.2 + 1) * 1024)) ++ [(res, round)] } }

/-- First-hop port toward a device for a reservation: of the bond that leads there, the one whose schedule names it
(R47, R50), else the reservation's own. -/
def branchPort (s : State) (b : Bool) (res d port : Nat) : Nat :=
  match egressBond s (injectEpoch s) d with
  | none => port
  | some k => ((bondPorts s k).find? (fun n => (matchSched s b n (ownDev s) res).isSome)).getD port

/-- The targets of a reservation with their first-hop ports: a device, or the devices of a group (R50, R62). -/
def resTargets (s : State) (b : Bool) (res : Nat) : Option (List (Nat × Nat)) :=
  let w := srcRes s b res 0
  if bit w 62 then
    (let g := groupOf s (fld w 59 48)
     if g.valid then some ((groupDevices s g).map (fun d => (d, branchPort s b res d (fld w 47 43)))) else none)
  else some [(fld w 61 48, fld w 47 43)]

/-- A pitch store of a tile after its entry is open. -/
def goPitch (t : Nat) (a c : Word) (off n tag : Nat) (s : State) : State :=
  let res := fld a 9 0
  let round := fld a 63 10
  let flits := ceilDiv (24 + n) 56
  let b := schedActive s
  let st := firstBad [if fld c 63 48 ≠ 0 then stAddr else stOk, localSide off n, admitPitch s (tileTenant s t) res round flits]
  if st ≠ 0 then refuseTag tag st false s
  else
    match resTargets s b res with
    | none => refuseTag tag stNoGroup false s
    | some l =>
      let t1 := round * 1024 + fld (srcRes s b res 0) 39 30
      let s := claimSlot res round s
      let s := setCpl tag { cplOf s tag with
        base := n, expect := n, targets := l, slotTick := t1, resId := res, schedVer := b.toNat,
        deadline := t1 + fld (srcRes s b res 1) 15 0, lateBy := t1 + classDeadline s (l.map (·.1)) } s
      submitAll [{ op := .read, addr := sramAddr t off, len := n, agent := t, tenant := tileTenant s t, since := now s,
                   reply := .putSeg tag (cplOf s tag).gen (fld c 47 0) 0 false }] s

/-- ATSLOT (R51, R52, R82). -/
def execAtslot (t : Nat) (x : QArgs) (s : State) : Host.Outcome State Fault Refusal :=
  ok (qissue t x { a := x.a, b := x.b, c := x.c, td := x.td, nw := x.nw, ar := x.ar, size := x.size } false
    [x.a.toNat, x.b.toNat, x.c.toNat] (fun s =>
      let a := gv s t x.a
      let c := gv s t x.c
      let off := (gv s t x.b).toNat
      let l := ((resTargets s (schedActive s) (fld a 9 0)).getD []).map (·.1)
      withTwin t 1 l (issueOp t x .pitch .none c (goPitch t a c off (sizeOf_ x))) s) s)

end Sys2Proof.Machine
end

