-- ==== Sys2Proof/Machine/Target.lean ====
section
/-! DEFINITION. Packets of remote memory access that reach this device: requests at their target (R191–R193, R209,
R418), responses at their requester (R191–R193, R199, R206), and the bounds on entries and packets (R30, R198, R201). -/

namespace Sys2Proof.Machine

-- Requests (R196, R197, R209)

/-- A packet whose opcode or length is wrong is discarded and counted (R197). -/
def ifListed (p : Packet) (f : State → State) (s : State) : State :=
  if packetOk p then f s else addSat Reg.winRefuseCount 63 0 1 s

/-- The access that a request packet asks for, by agent 0x800 with the packet's tenant. -/
def reqAccess (s : State) (p : Packet) (op : AccOp) (n : Nat) (data : List Byte) : Access :=
  { op := op, addr := p.addr, len := n, data := data, poison := p.poison, agent := 0x800, tenant := p.tenant,
    since := now s, reply := .packet p }

/-- RD_REQ (R196, R209). -/
def execRdReq (p : Packet) (s : State) : Host.Outcome State Fault Refusal :=
  let p := { p with opcode := 1 }
  ok (ifListed p (fun s => follow (request (reqAccess s p .read (4 * p.len4) []) s)) s)

/-- The pair entry that a twinned packet's source belongs to (R418). -/
def rxPairOf (s : State) (src : Nat) : Option Nat :=
  (List.range 64).find? (fun k =>
    let w := rd s (Reg.rxPair k)
    bit w 63 && (fld w 27 14 == src || fld w 13 0 == src))

/-- The window of a pair entry. -/
def rxWindow (s : State) (k : Nat) : BitVec 4096 := mget 0 s.twin.windows k

/-- A window after number `n`: bit n set, bit n + 2,048 clear (R418). -/
def markWindow (w : BitVec 4096) (n : Nat) : BitVec 4096 :=
  (w ||| BitVec.ofNat 4096 (2 ^ (n % 4096))) &&& ~~~ BitVec.ofNat 4096 (2 ^ ((n + 2048) % 4096))

/-- A write that arrives: a twinned one is performed once for its pair, and a duplicate is answered as if it had been
performed (R418). -/
def writeArrives (p : Packet) (s : State) : State :=
  let x := reqAccess s p .write p.payload.length p.payload
  if !p.twin then follow (request x s)
  else
    match admission s x with
    | .error e => follow (refuseRequest x e s)
    | .ok r =>
      match rxPairOf s p.src with
      | none => follow (place r.1 r.2 (addSat Reg.dupCount 31 0 1 s))
      | some k =>
        let w := rxWindow s k
        if w.getLsbD (p.twinSeq % 4096) then
          follow (answer r.2 stOk [] false (addSat Reg.dupCount 63 32 1 s))
        else
          follow (place r.1 r.2 (onTwin (fun y => { y with
            windows := mset 0 y.windows k (markWindow w p.twinSeq) }) s))

/-- WR (R196, R209, R418). -/
def execWr (p : Packet) (s : State) : Host.Outcome State Fault Refusal :=
  let p := { p with opcode := 2 }
  ok (ifListed p (writeArrives p) s)

/-- PUT_DATA (R191, R418). -/
def execPutData (p : Packet) (s : State) : Host.Outcome State Fault Refusal :=
  let p := { p with opcode := 0x20 }
  ok (ifListed p (writeArrives p) s)

/-- PITCH_WR (R206, R209, R418). -/
def execPitchWr (p : Packet) (s : State) : Host.Outcome State Fault Refusal :=
  let p := { p with opcode := 0x30 }
  ok (ifListed p (writeArrives p) s)

/-- An atomic that arrives (R196): operand, then compare value. -/
def atomicArrives (p : Packet) (s : State) : State :=
  ifListed p (fun s =>
    let op := AccOp.atomic p.opcode p.narrow (leWord (p.payload.take 8)) (leWord ((p.payload.drop 8).take 8))
    follow (request (reqAccess s p op (opWidth op) []) s)) s

/-- AT_ADD32 (R149, R196). -/
def execAtAdd32 (p : Packet) (s : State) : Host.Outcome State Fault Refusal := ok (atomicArrives { p with opcode := 0x10 } s)

/-- AT_ADD64 (R149, R196). -/
def execAtAdd64 (p : Packet) (s : State) : Host.Outcome State Fault Refusal := ok (atomicArrives { p with opcode := 0x11 } s)

/-- AT_ADDF32 (R149, R196). -/
def execAtAddf32 (p : Packet) (s : State) : Host.Outcome State Fault Refusal := ok (atomicArrives { p with opcode := 0x12 } s)

/-- AT_SWAP (R149, R196). -/
def execAtSwap (p : Packet) (s : State) : Host.Outcome State Fault Refusal := ok (atomicArrives { p with opcode := 0x13 } s)

/-- AT_CAS (R149, R196). -/
def execAtCas (p : Packet) (s : State) : Host.Outcome State Fault Refusal := ok (atomicArrives { p with opcode := 0x14 } s)

/-- AT_BSET (R148, R196). -/
def execAtBset (p : Packet) (s : State) : Host.Outcome State Fault Refusal := ok (atomicArrives { p with opcode := 0x15 } s)

/-- AT_BCLR (R148, R196). -/
def execAtBclr (p : Packet) (s : State) : Host.Outcome State Fault Refusal := ok (atomicArrives { p with opcode := 0x16 } s)

/-- GET_REQ (R192): every segment is read as an access of its own. -/
def execGetReq (p : Packet) (s : State) : Host.Outcome State Fault Refusal :=
  let p := { p with opcode := 0x21 }
  let dst := leNat (p.payload.take 8) % 2 ^ 48
  let n := leNat ((p.payload.drop 8).take 8)
  let last := segCount dst n - 1
  ok (ifListed p (fun s => submitAll ((segments dst n).map (fun g =>
    { op := .read, addr := p.addr + g.2.1, len := g.2.2, agent := 0x800, tenant := p.tenant, since := now s,
      reply := .getSeg p (dst + g.2.1) g.1 (g.1 == last) })) s) s)

/-- The put that this device performs for a THIRD_REQ, after its entry is open (R193). -/
def putFor (p : Packet) (b : Word) (n tag : Nat) (s : State) : State :=
  match targetOf s b true with
  | .bad st v => refuseTag tag st v s
  | dst =>
    let l := dst.devices s
    s |> expectTag tag (fld b 47 0) (n * l.length) (classDeadline s l + copyAllowance s n) l
      |> copyReads 0x800 p.tenant p.addr tag dst n

/-- THIRD_REQ (R193): the put takes an entry of this device, and the request waits for one when none is free. -/
def execThirdReq (p : Packet) (s : State) : Host.Outcome State Fault Refusal :=
  let p := { p with opcode := 0x23 }
  ok (ifListed p (fun s =>
    let b := leWord (p.payload.take 8)
    let n := leNat ((p.payload.drop 8).take 8)
    match pickTag p.tenant s with
    | (none, _) => { s with rma := { s.rma with deliverQ := s.rma.deliverQ ++ [p] } }
    | (some k, s) =>
      s |> openTag k { kind := .third, sink := .copyFor p, tenant := p.tenant, target := b } |> putFor p b n k) s)

-- Responses (R198, R199)

/-- A response that matches an OPEN entry goes on with it; another is stale (R199). -/
def onResponse (p : Packet) (f : Cpl → State → State) (s : State) : State :=
  ifListed p (fun s =>
    let e := cplOf s p.tag
    if e.st = .opened ∧ e.gen = p.gen ∧ !e.damaged then f e s else addSat Reg.staleCount 63 0 1 s) s

/-- RD_RESP (R196, R199). -/
def execRdResp (p : Packet) (s : State) : Host.Outcome State Fault Refusal :=
  let p := { p with opcode := 0x60 }
  ok (onResponse p (fun e s =>
    if e.kind = .dmaOut ∨ e.kind = .eth then
      follow (deliver p.tag (p.addr - e.base) (segOf e.base (copySize e) p.seg).2 p.status p.payload p.poison p.late s)
    else follow (deliver p.tag 0 e.expect p.status p.payload p.poison p.late s)) s)

/-- AT_RESP (R196, R199): the old value. -/
def execAtResp (p : Packet) (s : State) : Host.Outcome State Fault Refusal :=
  let p := { p with opcode := 0x62 }
  ok (onResponse p (fun e s => follow (deliver p.tag 0 e.expect p.status p.payload p.poison p.late s)) s)

/-- A deadline fault for a pitch operation whose packet was forwarded late or dropped (R54, R206, R244). -/
def lateFault (tag : Nat) (s : State) : State :=
  recordData srcDeadline (deadlineOcc s tag stOk) (agentPart ((cplOf s tag).tile.getD 0x300)) s

/-- ACK (R191, R196, R206, R244): acknowledged bytes. A synthetic one ends the operation, whatever it acknowledged. -/
def execAck (p : Packet) (s : State) : Host.Outcome State Fault Refusal :=
  let p := { p with opcode := 0x61 }
  let e := cplOf s p.tag
  let stale := decide (e.st ≠ .opened ∨ e.gen ≠ p.gen)
  ok (onResponse p (fun _ s =>
      if p.status = stLinkDown then
        s |> noteError p.tag stLinkDown |> (fun s => failTag p.tag (cplOf s p.tag).firstErr (cplOf s p.tag).late s)
      else progress p.tag (leNat p.payload % 2 ^ 33) p.status p.late s) s
    |> (if stale && p.status == stLinkDown && e.kind == .pitch then lateFault p.tag else id))

/-- COPY_DONE (R193): the copy ends with the put's status. -/
def execCopyDone (p : Packet) (s : State) : Host.Outcome State Fault Refusal :=
  let p := { p with opcode := 0x63 }
  ok (onResponse p (fun e s =>
    s |> (fun s => setCpl p.tag { e with got := leNat p.payload % 2 ^ 33 } s) |> noteError p.tag p.status
      |> concludeTag p.tag p.late) s)

/-- GET_DATA (R192): a segment goes to its place; a refused one carries no data. -/
def execGetData (p : Packet) (s : State) : Host.Outcome State Fault Refusal :=
  let p := { p with opcode := 0x64 }
  ok (onResponse p (fun e s =>
    let n := if isError p.status then (segOf e.base e.expect p.seg).2 else p.payload.length
    follow (deliver p.tag (p.addr - e.base) n p.status p.payload p.poison p.late s)) s)

/-- LATE_NOTE (R206): before t_1 + B the entry stays open for the ACK under its class deadline; later it is stale. Every
further late copy of a group's packet is waited for too. -/
def execLateNote (p : Packet) (s : State) : Host.Outcome State Fault Refusal :=
  let p := { p with opcode := 0x65 }
  ok (ifListed p (fun s =>
    let e := cplOf s p.tag
    if e.st = .opened ∧ e.gen = p.gen ∧ e.kind = .pitch then
      s |> (fun s => setCpl p.tag { e with
              late := true, expect := if e.late then e.expect + e.base else e.base,
              deadline := e.lateBy } s)
        |> lateFault p.tag
    else s |> addSat Reg.staleCount 63 0 1 |> lateFault p.tag) s)

-- Bounds (R30, R198, R200, R201)

/-- The deadline of an OPEN entry passes (R30, R194): its first error, else TIMEOUT. The instance of a collective goes
with it. -/
def expireTag (tag : Nat) (s : State) : State :=
  let e := cplOf s tag
  let s := match s.coll.insts.find? (fun i => i.sub != 6 && i.tag == tag) with
    | some i => s |> dropInst i |> dropStaged i |> addSat Reg.collErrCount 15 0 1
    | none => s
  failTag tag (if e.firstErr = 0 then stTimeout else e.firstErr) e.late s

/-- DEADLINE_EXPIRY (R30). A pitch operation that keeps its schedule ends at its path bound instead (R206), and one
without a deadline does not expire; a damaged entry does (R386). -/
def execDeadlineExpiry (tag : Nat) (s : State) : Host.Outcome State Fault Refusal :=
  ok (let e := cplOf s tag
    if e.st = .opened ∧ e.damaged then s |> clockTo e.deadline |> expireDamaged tag
    else if e.st = .opened ∧ !(e.kind == .pitch && !e.late) ∧ e.deadline ≠ 0 then s |> clockTo e.deadline |> expireTag tag
    else s)

/-- QUARANTINE_EXPIRY (R198, R200). -/
def execQuarantineExpiry (tag : Nat) (s : State) : Host.Outcome State Fault Refusal :=
  ok (let e := cplOf s tag
    if e.st = .quarantine then
      s |> clockTo (e.doneAt + rdF s Reg.cplQuarantine 47 0) |> setCpl tag (freedEntry e)
    else s)

/-- Packets that the hold limit applies to (R201). -/
def limited (p : Packet) : Bool := isRequest p.opcode || isResponse p.opcode || isPitchOp p.opcode

/-- Counts a discard at the hold limit (R201, R281). -/
def countDiscard (s : State) : State := addSat Reg.routeDiscard 63 32 1 s

/-- Whether a dealt packet still has a flit at a port that its neighbour has not acknowledged (R201, R264). -/
def atPort (p : Port) (d : Dealt) : Bool :=
  (p.replay ++ p.held).any (fun x => match x.pos with
    | some k => decide (k < d.till ∧ d.till ≤ k + flitCount d.pkt)
    | none => false)

/-- The packets that a place holds (R201). -/
def packetsIn (s : State) : HoldPlace → List Packet
  | .router => s.net.routerQ.map (·.2)
  | .bond b => (bnd s b).queue.map (·.2)
  | .pitch n => (s.net.pitchHeld.filter (fun h => h.port = n)).map (·.pkt)
  | .staged n => (s.net.staged.filter (fun h => h.port = n)).map (·.pkt)
  | .port n =>
    (match bondOf s n with | some b => ((bnd s b).dealt.filter (atPort (prt s n))).map (·.pkt) | none => [])
      ++ ownPackets (prt s n)
  | .merge b =>
    (match (bnd s b).merging with | f :: _ => [{ headOf f with heldFrom := (bnd s b).mergeFrom }] | [] => [])
      ++ (bondPorts s b).flatMap (fun n =>
        ((prt s n).rxq.filter (fun x => isHead x.flit)).map (fun x => { headOf x.flit with heldFrom := x.since }))
  | .deliver => s.rma.deliverQ

/-- The first flit of a discarded packet keeps its number and its place in the stream, and names no opcode any more, so
that no router takes the packet (R197, R201; notes/assumptions/54.md). -/
def blank (f : Flit) : Flit := { f with data := f.data &&& ~~~(0xFF000000#448) }

/-- A packet in the replay buffers and held queues is discarded (R201). -/
def blankSent (n : Nat) (p : Packet) (s : State) : State :=
  let own (x : SeqFlit) : SeqFlit :=
    if x.own = some p then { x with own := none, flit := if isHead x.flit then blank x.flit else x.flit } else x
  let s := onPrt n (fun x => { x with replay := x.replay.map own, held := x.held.map own }) s
  match bondOf s n with
  | none => s
  | some b =>
    match (bnd s b).dealt.find? (fun d => d.pkt = p && atPort (prt s n) d) with
    | none => s
    | some d =>
      let first (x : SeqFlit) : SeqFlit :=
        if x.pos = some (d.till - flitCount p) then { x with flit := blank x.flit } else x
      let s := onBnd b (fun x => { x with dealt := x.dealt.erase d }) s
      (bondPorts s b).foldl (fun s m => onPrt m (fun x => { x with replay := x.replay.map first, held := x.held.map first }) s) s

/-- A packet in a merge is discarded (R201). -/
def blankMerge (b : Nat) (p : Packet) (s : State) : State :=
  let x := bnd s b
  match x.merging with
  | f :: r =>
    if { headOf f with heldFrom := x.mergeFrom } = p then onBnd b (fun x => { x with merging := blank f :: r }) s
    else blankRx s
  | [] => blankRx s
where
  /-- The flit that begins the packet, in the ports' queues. -/
  blankRx (s : State) : State :=
    (bondPorts s b).foldl (fun s n => onPrt n (fun x => { x with rxq := x.rxq.map (fun r =>
      if isHead r.flit && decide ({ headOf r.flit with heldFrom := r.since } = p) then { r with flit := blank r.flit }
      else r) }) s) s

/-- Takes a packet out of the place that holds it (R201). -/
def discardFrom (p : Packet) (s : State) : HoldPlace → State
  | .router => { s with net := { s.net with routerQ := s.net.routerQ.eraseP (fun x => x.2 = p) } }
  | .bond b => onBnd b (fun x => { x with queue := x.queue.eraseP (fun q => q.2 = p) }) s
  | .pitch n => { s with net := { s.net with pitchHeld := s.net.pitchHeld.eraseP (fun h => h.port = n && h.pkt = p) } }
  | .staged n => { s with net := { s.net with staged := s.net.staged.eraseP (fun h => h.port = n && h.pkt = p) } }
  | .port n => blankSent n p s
  | .merge b => blankMerge b p s
  | .deliver => { s with rma := { s.rma with deliverQ := s.rma.deliverQ.eraseP (fun q => q = p) } }

/-- The packet of some that has been held longest, of those that the hold limit applies to (R201). -/
def longestHeld (l : List Packet) : Option Packet :=
  (l.filter limited).foldl (fun (a : Option Packet) p => match a with
    | none => some p
    | some q => if p.heldFrom < q.heldFrom then some p else some q) none

/-- HOLD_LIMIT_DISCARD (R201): the packet that a place has held longest has been held for 1,600,000 ticks since it arrived
at the device or was injected, and is discarded without an answer. -/
def execHoldLimitDiscard (place : HoldPlace) (s : State) : Host.Outcome State Fault Refusal :=
  ok (match longestHeld (packetsIn s place) with
    | none => s
    | some p => s |> clockTo (p.heldFrom + 1600000) |> (fun s => discardFrom p s place) |> countDiscard)

end Sys2Proof.Machine
end

