-- ==== Sys2Proof/Machine/Router.lean ====
section
/-! DEFINITION. Routing (R265–R269, R278, R279) and the dealing of a bond's flits (R260, R263, R270). -/

namespace Sys2Proof.Machine

/-- The axis of a bond (R265). -/
def bondAxis (b : Nat) : Nat := if b < 9 then b / 3 else b - 9

/-- The after channel of a channel's class (R268). -/
def afterVc (vc : Nat) : Nat := if vc = 1 then 2 else if vc = 3 then 4 else if vc = 5 then 6 else vc

/-- The channel of a packet on its next hop (R268): the before channel when it is injected or turns to another axis, else
the one it came on; the after channel from the date line on. -/
def chooseVc (s : State) (came : Option Nat) (p : Packet) (b : Nat) (cross : Bool) : Nat :=
  let keeps := match came with
    | some n => (match bondOf s n with | some k => bondAxis k == bondAxis b | none => false)
    | none => false
  let v := if keeps then p.vc else beforeVc p
  if cross then afterVc v else v

/-- Counts a packet that no valid entry routes (R266). -/
def countNoRoute (s : State) : State := s |> addSat Reg.routeDiscard 31 0 1 |> orReg Reg.routeEvent (2 ^ 5)

/-- The response with NO_ROUTE to a request that has no valid entry at a transit hop (R266). -/
def answerNoRoute (p : Packet) (s : State) : State :=
  if p.opcode = 1 then respond p 0x60 stNoRoute [] false s
  else if 0x10 ≤ p.opcode ∧ p.opcode ≤ 0x16 then respond p 0x62 stNoRoute [] false s
  else if p.opcode = 0x23 then respond p 0x63 stNoRoute (countBytes 0) false s
  else if p.opcode = 0x21 then
    respond p 0x61 stNoRoute (countBytes (leNat ((p.payload.drop 8).take 8))) false s
  else respond p 0x61 stNoRoute (countBytes p.payload.length) false s

/-- An own request whose entry has become invalid by the time it is routed completes with NO_ROUTE (R23, R266). -/
def ownNoRoute (p : Packet) (s : State) : State :=
  let e := cplOf s p.tag
  if (isRequest p.opcode || isPitchOp p.opcode) && e.st == .opened && e.gen == p.gen then
    (if p.opcode = 2 ∨ p.opcode = 0x20 then progress p.tag p.payload.length stNoRoute false s
     else s |> noteError p.tag stNoRoute |> (fun s => failTag p.tag (cplOf s p.tag).firstErr e.late s))
  else countNoRoute s

/-- A packet for another device goes to its egress bond (R266, R268, R279). -/
def routeOut (came : Option Nat) (p : Packet) (s : State) : State :=
  match egressBond s p.epoch p.dst with
  | none =>
    (match came with
     | none => ownNoRoute p s
     | some _ => if isRequest p.opcode then s |> countNoRoute |> answerNoRoute p else countNoRoute s)
  | some b =>
    let p := { p with vc := chooseVc s came p b (bit (routeEntry s p.epoch p.dst) 5) }
    if !bondAlive s b then answerDropped p s
    else s |> wakeBond b |> onBnd b (fun x => { x with queue := x.queue ++ [(came.getD 32, p)] })

/-- The state after a meaning that goes on. -/
def stateOf (d : State) : Host.Outcome State Fault Refusal → State
  | .next s => s
  | _ => d

/-- A packet of the pair that is for another device is passed on to it as a new one (R269, R420). -/
def passTwin (p : Packet) (here : State → State) (s : State) : State :=
  let d := fld (leWord (p.payload.take 8)) 63 50
  if d = ownDev s then here s else sendToward d p.opcode p.payload s

/-- A management packet is consumed by the device that receives it (R269); one whose opcode is not listed is counted
(R197). -/
def consumeMgmt (n : Nat) (p : Packet) (s : State) : State :=
  if p.opcode = 0x72 then floodArrives n p s
  else if p.opcode = 0x73 then passTwin p (beatArrives (bytesBeat p.payload)) s
  else if p.opcode = 0x74 then passTwin p (fun s => (promoteNow s).2) s
  else if p.opcode = 0x75 then passTwin p (fun s => (demoteNow s).2) s
  else if p.opcode = 0x76 then passTwin p revertNow s
  else if p.opcode = 0x77 then stateOf s (execFwChunk n p s)
  else if p.opcode = 0x78 then stateOf s (execFwAck n p s)
  else if p.opcode = cmapOpcode then cmapArrives p.addr p.payload s
  else if p.opcode = 0x70 ∨ p.opcode = 0x71 then s
  else addSat Reg.winRefuseCount 63 0 1 s

/-- An uncorrectable error in a table raises TABLE_ECC (R386). A window or group entry is invalid until it is rewritten; an
error in the member store makes every group invalid whose list it lies in; an OPEN completion entry matches nothing any
more, and completes with TIMEOUT at its deadline. -/
def damage (x : TableSpot) (s : State) : State :=
  let dead (g : Group) : Group := { g with w0 := setBit g.w0 63 false }
  recordControl 23 false none [] (match x with
    | .window i =>
      let w := winEntry s i
      { s with rma := { s.rma with windows := mset (0, 0) s.rma.windows i (setBit w.1 63 false, w.2) } }
    | .group gid => { s with coll := { s.coll with groups := mset {} s.coll.groups gid (dead (groupOf s gid)) } }
    | .member i =>
      { s with coll := { s.coll with groups := s.coll.groups.map (fun g =>
          if g.2.valid && (g.2.holds i) then (g.1, dead g.2) else g) } }
    | .completion tag =>
      if (cplOf s tag).st = .opened then setCpl tag { cplOf s tag with damaged := true } s else s)

/-- ROUTE_PACKET (R197, R266, R269, R278, R386): an error that a table's check bits show, if any; then the packet at the
front of the routers: a single-bit error of its buffer is corrected and counted, a packet with more is discarded. -/
def execRoutePacket (seen : PacketChecks) (s : State) : Host.Outcome State Fault Refusal :=
  ok (let s := match seen.table with | some x => damage x s | none => s
    match s.net.routerQ with
    | [] => s
    | (came, p) :: r =>
      let s := { s with net := { s.net with
        routerQ := r, eccFixed := s.net.eccFixed + (if seen.buffer = .single then 1 else 0) } }
      if seen.buffer = .double then
        s |> addSat Reg.routeDiscard 63 32 1 |> orReg Reg.routeEvent (2 ^ 4) |> recordControl 22 false none []
      else if isMgmt p.opcode then
        (if packetOk p then consumeMgmt (came.getD 0) p s else addSat Reg.winRefuseCount 63 0 1 s)
      else if p.dst = ownDev s then { s with rma := { s.rma with deliverQ := s.rma.deliverQ ++ [p] } }
      else routeOut came p s)

-- Dealing (R260, R263, R270)

/-- Flits of a channel that a member takes now: those it has credit for beyond the flits that wait in its held queue,
while it is UP, retrains or wakes (R234, R263, R270). -/
def memberRoom (s : State) (n v : Nat) : Nat :=
  if [4, 5, 8].contains (portState s n) then available s n v - ((prt s n).held.filter (fun x => x.vc == v)).length else 0

/-- The ingress port that is served next on a channel, in round robin (R270). -/
def nextIngress (x : Bond) (v : Nat) : Option Nat :=
  let last := mget 0 x.turn (8 + v)
  ((List.range 33).map (fun i => (last + 1 + i) % 33)).find? (fun n => x.queue.any (fun q => q.1 == n && q.2.vc == v))

/-- The packet that a channel sends next: the oldest from the ingress port whose turn it is (R270). -/
def nextPacket (x : Bond) (v : Nat) : Option (Nat × Packet) :=
  (nextIngress x v).bind (fun i => x.queue.find? (fun q => q.1 == i && q.2.vc == v))

/-- The member whose position is `i` places on in the bond's stream (R260). -/
def dealtTo (s : State) (b i : Nat) : Option Nat :=
  let l := rotList (rotMask s b) (bnd s b).full
  l[((bnd s b).pos - (bnd s b).base + i) % max 1 l.length]?

/-- Flits of a packet of `k` flits that would fall to member `n`, dealt from here on. -/
def shareOf (s : State) (b n k : Nat) : Nat := ((List.range k).filter (fun i => dealtTo s b i == some n)).length

/-- Members without credit for their flits of a packet (R270). -/
def shortOf (s : State) (b : Nat) (p : Packet) : List Nat :=
  (maskBits (rotMask s b) 32).filter (fun n => decide (memberRoom s n p.vc < shareOf s b n (flitCount p)))

/-- The channels with a packet ready, with credit for all of its flits (R270). A packet begins only then, so that a begun
one never holds up another class (R272). -/
def readyVcs (s : State) (b : Nat) : List Nat :=
  (List.range 8).filter (fun v => match nextPacket (bnd s b) v with
    | some q => (shortOf s b q.2).isEmpty
    | none => false)

/-- Flits of the next packet of a channel. -/
def nextFlits (x : Bond) (v : Nat) : Nat := match nextPacket x v with | some q => flitCount q.2 | none => 0

/-- The channel whose packet begins, among those ready (R270): by the order of the classes, but never so that the response
class would lose more than 15 positions in a row, or VC7 more than 63; within a class the channels alternate. Positions
are won by whole packets: a flit after the first names no channel, so the merge could not tell interleaved packets apart
(DEDUCED from R224 and R260, notes/assumptions/53.md). -/
def winner (x : Bond) (ready : List Nat) : Option Nat :=
  let cls (c : Nat) : List Nat := ready.filter (fun v => vcClass v == c)
  let pick (c : Nat) : Option Nat :=
    let last := mget 0 x.turn c
    match (cls c).find? (fun v => v != last) with
    | some v => some v
    | none => (cls c).head?
  let first := ((pick 1).or (pick 2)).or ((pick 3).or (pick 4))
  let k := match first with | some v => nextFlits x v | none => 0
  if cls 2 ≠ [] ∧ 15 < x.lostResp + k then pick 2
  else if cls 4 ≠ [] ∧ 63 < x.lostMgmt + k then pick 4
  else first

/-- What a position that went to a channel makes of the two losing counts (R270). -/
def countLosses (ready : List Nat) (won : Nat) (x : Bond) : Bond :=
  let lost (c : Nat) (k : Nat) : Nat :=
    if vcClass won = c then 0 else if ready.any (fun v => vcClass v == c) then k + 1 else 0
  { x with lostResp := lost 2 x.lostResp, lostMgmt := lost 4 x.lostMgmt }

/-- The next packet of a bond begins (R270). -/
def startPacket (b : Nat) (s : State) : State :=
  let x := bnd s b
  match winner x (readyVcs s b) with
  | none => s
  | some v =>
    match nextPacket x v with
    | none => s
    | some q =>
      let d : Dealt := { till := x.pos + flitCount q.2, pkt := q.2 }
      let begin_ (x : Bond) : Bond :=
        { x with queue := x.queue.erase q, dealing := (packetFlits q.2).map (fun f => (v, f)), dealt := x.dealt ++ [d],
                 turn := mset 0 (mset 0 x.turn (vcClass v) v) (8 + v) q.1 }
      onBnd b begin_ s

/-- No packet of a bond can begin: its channels wait for credit at the members that are short of it (R283). -/
def stallBond (b : Nat) (s : State) : State :=
  (List.range 8).foldl (fun s v => match nextPacket (bnd s b) v with
    | some q => (shortOf s b q.2).foldl (fun s n => startStall n v s) s
    | none => s) s

/-- A BOND_MAP that has been dealt: the rotation changes at the position after it, and members that wait to rest go on
(R245, R262). -/
def afterMap (b : Nat) (s : State) : State :=
  match (bnd s b).dealt.getLast? with
  | none => s
  | some d =>
    if d.pkt.opcode = 0x70 ∧ (bnd s b).dealing = [] then
      let m := bondMasks d.pkt
      let s := setRot b m.1 m.2 s
      (bondPorts s b).foldl (fun s n => restStep n s) s
    else s

/-- One flit is dealt to the member whose position it is. -/
def dealFlit (b n : Nat) (s : State) : State :=
  match (bnd s b).dealing with
  | [] => s
  | (v, f) :: r =>
    let ready := readyVcs s b
    s |> putFlit n { pos := some (bnd s b).pos, vc := v, flit := f }
      |> onBnd b (fun x => countLosses ready v { x with dealing := r, pos := x.pos + 1 })
      |> afterMap b

/-- BOND_DEAL (R260, R263, R270): the next position of a bond's stream. -/
def execBondDeal (b : Nat) (s : State) : Host.Outcome State Fault Refusal :=
  ok (match dealtTo s b 0 with
    | none => emptyBond b s
    | some n =>
      let s := pruneDealt b s
      let s := if (bnd s b).dealing = [] then startPacket b s else s
      if (bnd s b).dealing = [] then stallBond b s else dealFlit b n s)

end Sys2Proof.Machine
end

