-- ==== Sys2Proof/Machine/Coll.lean ====
section
/-! DEFINITION. Collectives (R284, R293–R311): their issue, the engines that combine and send, the packets that arrive,
their completion. -/

namespace Sys2Proof.Machine

-- Combination (R300, R311)

/-- Cuts bytes into numbers of `n` bytes. -/
def elemsOf (n : Nat) : Nat → List Byte → List Nat
  | 0, _ => []
  | k + 1, bs => leNat (bs.take n) :: elemsOf n k (bs.drop n)

/-- The sum of FP32 values in order (R133, R300). -/
def sumF32 : List Nat → Nat
  | [] => 0
  | v :: r => r.foldl addF32 v

/-- The largest or the smallest of some floating-point values (R134). -/
def pickFp (f : Fmt) (isMax : Bool) : List Nat → Nat
  | [] => 0
  | v :: r =>
    (encodeRne f false (r.foldl (fun a w => if isMax then maxNum a (decodeFp f w) else minNum a (decodeFp f w))
      (decodeFp f v))).1

/-- The largest or the smallest of some signed integers (R134). -/
def pickInt (w : Nat) (isMax : Bool) : List Nat → Nat
  | [] => 0
  | v :: r => unsignedOf w (r.foldl (fun a x => if isMax then max a (signedOf w x) else min a (signedOf w x)) (signedOf w v))

/-- The sum of wide partials (R128). -/
def sumWide : List Nat → Nat
  | [] => 0
  | v :: r => (r.foldl (fun a w => (a.add (Wide.ofBits w)).1) (Wide.ofBits v)).toBits

/-- One element of a phase's result from its contributions in order (R300); of a group barrier the latest (R311). BF16
is added in FP32 and rounded once. -/
def combineElem (bar : Bool) (d : Desc) (l : List Nat) : Nat :=
  if bar then l.foldl max 0
  else if d.exact_ then sumWide l
  else if d.etype = 0 then (if d.red = 0 then sumF32 l else pickFp (fmtOf 0) (d.red == 1) l)
  else if d.etype = 1 then
    (if d.red = 0 then (encodeRne (fmtOf 1) false (decodeFp (fmtOf 0) (sumF32 (l.map (fun v => v * 65536))))).1
     else pickFp (fmtOf 1) (d.red == 1) l)
  else
    let w := 8 * esize d.etype
    if d.red = 0 then l.foldl (fun a b => (a + b) % 2 ^ w) 0 else pickInt w (d.red == 1) l

/-- Bytes of an element that an instance combines. -/
def Inst.unit (i : Inst) : Nat := if i.sub = 6 then 8 else wireSize i.desc

/-- The result of some contributions of equal length. -/
def combineBytes (i : Inst) (l : List (List Byte)) : List Byte :=
  let k := (l.headD []).length / i.unit
  let cols := l.map (elemsOf i.unit k)
  (List.range k).flatMap (fun j => leBytes i.unit (combineElem (i.sub == 6) i.desc (cols.map (fun c => nth c j))))

-- Chunks (R298, R299, R303)

/-- Whether a packet opcode carries chunks to be combined. -/
def reduces (op : Nat) : Bool := op == 0x40 || op == 0x42

/-- The offset of a chunk in the operation (R298). -/
def chunkOffset (x : Group) (i : Inst) (share off : Nat) : Nat :=
  (if i.isSwap then share / x.count else share) * shareBytes x i + off

/-- Bytes of a contribution that have come. -/
def haveOf (i : Inst) (phase share src : Nat) : Nat :=
  ((i.got.filter (fun c => c.phase == phase && c.share == share && c.src == src)).map (fun c => c.data.length)).foldl
    (fun a b => a + b) 0

/-- Takes contributions to a share in a phase away. -/
def Inst.clearGot (phase share : Nat) (i : Inst) : Inst :=
  { i with got := i.got.filter (fun c => !(c.phase == phase && c.share == share)) }

/-- A share reaches a phase with its bytes. -/
def Inst.holdAt (share phase : Nat) (bs : List Byte) (i : Inst) : Inst :=
  { i with hold := mset (0, []) i.hold share (phase, bs) }

-- How an instance advances (R299, R300)

/-- The member's own contribution to a share that has reached a phase that combines it is present (R300). -/
def joinOwn (p : Plan) (i : Inst) : Inst :=
  i.hold.foldl (fun i h =>
    match p.phases[h.2.1]? with
    | none => i
    | some ph =>
      if reduces ph.op && ph.recv.any (fun r => r.1 == h.1)
          && !i.got.any (fun c => c.phase == h.2.1 && c.share == h.1 && c.src == i.pos) then
        { i with got := i.got ++ (chunkSpan (chunkMax i) h.2.2.length).map (fun c =>
            { phase := h.2.1, share := h.1, src := i.pos, off := c.1, data := (h.2.2.drop c.1).take c.2 }) }
      else i) i

/-- The bytes of a share that has come whole from a position. -/
def wholeOf (i : Inst) (phase share src : Nat) : List Byte :=
  (sortBy (fun a b => decide (a.off ≤ b.off))
    (i.got.filter (fun c => c.phase == phase && c.share == share && c.src == src))).flatMap (fun c => c.data)

/-- Shares that are only placed, once they have come whole (R299). -/
def placeData (p : Plan) (sb : Nat) (i : Inst) : Inst :=
  p.phases.zipIdx.foldl (fun i ph =>
    if reduces ph.1.op then i
    else ph.1.recv.foldl (fun i r =>
      let src := r.2.headD 0
      if haveOf i ph.2 r.1 src = sb then
        (i.holdAt r.1 (ph.2 + 1) (wholeOf i ph.2 r.1 src)).clearGot ph.2 r.1
      else i) i) i

/-- The contributions to a share in a phase, chunk by chunk: in order of arrival, on pitch in ascending position
(R300). -/
def combineShare (sb phase share : Nat) (i : Inst) : List Byte :=
  (chunkSpan (chunkMax i) sb).flatMap (fun c =>
    let l := i.got.filter (fun g => g.phase == phase && g.share == share && g.off == c.1)
    let l := if i.pitch then sortBy (fun a b => decide (a.src ≤ b.src)) l else l
    combineBytes i (l.map (fun g => g.data)))

/-- A share held goes on to its next phase once it has been sent, and combined where the phase combines it; a share of
a combining phase that this member does not keep is let go. -/
def stepShare (p : Plan) (sb : Nat) (i : Inst) (h : Nat × Nat × List Byte) : Inst :=
  let share := h.1
  let j := h.2.1
  match p.phases[j]? with
  | none => i
  | some ph =>
    if i.todo.any (fun t => t.phase == j && t.share == share) then i
    else if reduces ph.op then
      match ph.recv.find? (fun r => r.1 == share) with
      | none => i.holdAt share 0 []
      | some r =>
        if r.2.all (fun q => decide (haveOf i j share q = sb)) then
          (i.holdAt share (j + 1) (combineShare sb j share i)).clearGot j share
        else i
    else i.holdAt share (j + 1) h.2.2

/-- One look at every share. -/
def stepShares (p : Plan) (sb : Nat) (i : Inst) : Inst :=
  let i := i |> joinOwn p |> placeData p sb
  i.hold.foldl (stepShare p sb) i

/-- An instance advances as far as it can. -/
def settleInst (p : Plan) (sb : Nat) : Nat → Inst → Inst
  | 0, i => i
  | n + 1, i => settleInst p sb n (stepShares p sb i)

/-- An instance of a group advances as far as it can. -/
def goOn (x : Group) (i : Inst) : Inst :=
  let p := instPlan x i
  joinOwn p (settleInst p (shareBytes x i) (p.phases.length + 2) i)

/-- Whether two records are of one instance. -/
def sameInst (i j : Inst) : Bool :=
  i.gid == j.gid && i.num == j.num && i.pos == j.pos && i.epoch == j.epoch && (i.sub == 6) == (j.sub == 6)

/-- An instance's record replaced. -/
def putInst (i : Inst) (s : State) : State :=
  { s with coll := { s.coll with insts := s.coll.insts.map (fun j => if sameInst i j then i else j) } }

/-- An instance's present record. -/
def freshInst (s : State) (i : Inst) : Option Inst := s.coll.insts.find? (sameInst i)

-- Memory of a member (R284)

/-- What an engine finds at its member's memory: it has to wait, it is refused with a status, or it reaches a range. -/
inductive Reach where
  | waits
  | refused (status : Nat)
  | found (r : Region)
deriving DecidableEq, Repr

/-- Whether the lines of an access of HBM are at stacks that can perform it now (R171, R182); none where they can,
`some 0` where it waits, else a status. -/
def stacksReach (s : State) (p off : Nat) (x : Access) : Option Nat :=
  let lines := (List.range (min s.boot.stackCount ((off % 256 + x.len - 1) / 256 + 1))).map (fun k => off + 256 * k)
  let ks := lines.map (stackOf s)
  if ks.any (fun k => stackState s p k ≤ 1) then some stStackOff
  else if ks.any (fun k => stackState s p k = 6) then some stStackFailed
  else if ks.any (fun k => stackState s p k ≠ 3
      ∨ (stk s p k).queue.any (fun y => (sectorsOf y).any (fun u => (sectorsOf x).contains u))) then some 0
  else none

/-- The checks of an engine's access (R152, R156, R159, R210, R284, R396). -/
def engineReach (s : State) (x : Access) : Reach :=
  if isFenced s x then .refused stFenced
  else
    match rangeCheck s x with
    | .error e => .refused e
    | .ok (.reg _) => .refused stAddr
    | .ok (.sram v t off) =>
      let l := banksAt (sramAddr t off) (max 1 x.len)
      if l.any (fun g => bankWaking s (g / 16) || handoverPending s (g / 16) (g % 16)) then .waits
      else if l.any (fun g => !bankOn s (g / 16)) then .refused stBankOff
      else if !l.all (fun g => owns s (g / 16) (g % 16) x.agent x.tenant) then .refused stNotOwner
      else if misaligned v x then .refused stMisaligned
      else .found (.sram v t off)
    | .ok (.hbm p off) =>
      match windowCheck s x.tenant x.addr (max 1 x.len) (permOf x) false, stacksReach s p off x with
      | none, _ => .refused stNoWindow
      | some _, some 0 => .waits
      | some _, some e => .refused e
      | some _, none => .found (.hbm p off)

/-- The address by which memory holds what a range names. -/
def Region.home (a : Nat) : Region → Nat
  | .sram _ t off => sramAddr t off
  | _ => a

/-- An engine reads what it has reached: the bytes, and whether any was poisoned (R143, R174, R385). -/
def engineRead (x : Access) (r : Region) (s : State) : List Byte × Bool × State :=
  let a := r.home x.addr
  let bad := poisonedIn s a x.len != []
  let s := match r with | .sram _ _ _ => noteErrors a x.len (accOcc s x stPoisoned) s | _ => s
  (memBytes s a x.len, bad, if bad then poisonConsumed x (agentPart x.agent) s else s)

/-- An engine writes what it has reached: whether a poisoned unit refused it (R28, R142, R143, R174). What it writes
carries the poison of what was read for it (R143). -/
def engineWrite (x : Access) (r : Region) (s : State) : Bool × State :=
  let a := r.home x.addr
  match r with
  | .sram v _ _ =>
    let s := (rmwUnits (v == 0) a x.len).foldl (fun s u => noteErrors (32 * u) 32 (accOcc s x stPoisoned) s) s
    let w := writeMem (v == 0) x.poison a (viewBytes v (memBytes s a x.len) x.data) s
    (w.1 != [], settleBytes a x.len w.2)
  | _ => let w := writeMem true x.poison a x.data s; (w.1 != [], w.2)

/-- Bytes of a member's input and of its result (R296, R303). -/
def inputBytes (x : Group) (i : Inst) : Nat :=
  if i.sub = 3 then (if i.pos = i.desc.root then i.desc.count else 0)
  else if i.sub = 4 then x.count * i.desc.count
  else if i.sub = 5 then x.count * (i.desc.count * i.desc.rowBytes) + 4 * x.count
  else i.desc.count

/-- Bytes of an element as DST receives it. -/
def outSize (d : Desc) : Nat := if d.exact_ then (if d.outWide then 16 else if d.outBf16 then 2 else 4) else esize d.etype

/-- See `inputBytes`. -/
def resultBytes (x : Group) (i : Inst) : Nat :=
  let e := i.desc.count / esize i.desc.etype
  if i.sub = 0 then e * outSize i.desc
  else if i.sub = 1 then e / x.count * outSize i.desc
  else if i.sub = 3 then i.desc.count
  else if i.sub = 5 then x.count * (i.desc.count * i.desc.rowBytes) + 4 * x.count
  else x.count * i.desc.count

/-- An access of a member's memory by its home engine (R284). -/
def engineAccess (s : State) (x : Group) (i : Inst) (op : AccOp) (a : Nat) (bs : List Byte) (n : Nat) : Access :=
  { op := op, addr := a, len := n, data := bs, agent := 0x200 + x.engine, tenant := x.tenant, since := now s,
    reply := .coll i.tag (cplOf s i.tag).gen }

-- The member's data (R296, R299, R303)

/-- Bytes of SRC in the form that the engines carry (R129, R300). -/
def toWire (d : Desc) (bs : List Byte) : List Byte :=
  if d.exact_ && d.etype != 4 then
    (elemsOf (esize d.etype) (bs.length / esize d.etype) bs).flatMap (fun v =>
      leBytes 16 (Wide.ofNum d.anchor (decodeFp (fmtOf d.etype) v)).1.toBits)
  else bs

/-- Rows wanted for a position, by the demand entries behind the segments (R303). -/
def demandOf (x : Group) (i : Inst) (bs : List Byte) (j : Nat) : Nat :=
  leNat ((bs.drop (x.count * shareBytes x i + 4 * j)).take 2)

/-- Rows delivered to and dropped for a position (R303). -/
def rowsFor (x : Group) (i : Inst) (bs : List Byte) (j : Nat) : Nat × Nat :=
  let want := demandOf x i bs j
  (min want i.desc.count, want - i.desc.count)

/-- The segment sent to a position: its rows, then zero rows (R303). -/
def segmentFor (x : Group) (i : Inst) (bs : List Byte) (j : Nat) : List Byte :=
  let n := shareBytes x i
  let keep := (rowsFor x i bs j).1 * i.desc.rowBytes
  ((bs.drop (j * n)).take keep) ++ List.replicate (n - keep) 0

/-- What the input of a member puts into its instance. -/
def withInput (x : Group) (i : Inst) (bs : List Byte) : Inst :=
  let own := (instPlan x i).own
  let n := x.count
  if i.sub ≤ 1 then
    let raw := i.desc.count / (instPlan x i).shares
    { i with loaded := true,
             hold := own.map (fun k => (k, (0, toWire i.desc ((bs.drop (k * raw)).take raw)))) }
  else if i.sub = 4 then
    { i with loaded := true,
             hold := (List.range n).map (fun j => (i.pos * n + j, (0, (bs.drop (j * i.desc.count)).take i.desc.count))) }
  else if i.sub = 5 then
    { i with
      loaded := true,
      hold := (List.range n).map (fun j => (i.pos * n + j, (0, segmentFor x i bs j))),
      rows := (List.range n).foldl (fun m j =>
        mset 0 m (i.pos * n + j) (BitVec.ofNat 32 ((rowsFor x i bs j).2 * 65536 + (rowsFor x i bs j).1))) i.rows,
      drops := ((List.range n).map (fun j => (rowsFor x i bs j).2)).foldl (fun a b => a + b) 0 }
  else { i with loaded := true, hold := own.foldl (fun m k => mset (0, []) m k (0, bs)) i.hold }

/-- An engine asks for a member's input (R284); the access goes the way of every access, through the checks and queues
of its banks or stacks. -/
def askInput (x : Group) (i : Inst) (s : State) : State :=
  if i.loaded || i.input.made then s
  else if inputBytes x i = 0 then putInst (goOn x { i with loaded := true }) s
  else submitAll [engineAccess s x i .read i.desc.src [] (inputBytes x i)]
    (putInst { i with input := { i.input with made := true } } s)

/-- A member's input that has been read goes into its instance; a refused or poisoned read ends it (R284, R306). -/
def takeInput (x : Group) (i : Inst) (s : State) : State :=
  match i.input.status with
  | none => s
  | some e =>
    if i.loaded then s
    else if isError e then endInst i e s
    else if i.input.poison then endInst i stPoisoned s
    else putInst (goOn x { withInput x i i.input.data with input := { made := true } }) s

-- Packets that arrive (R298, R300–R303, R306)

/-- The part of an instance that a chunk is, if the member expects it (R302): sender, share, place, bytes, and the row
counts of a capacity share. -/
structure Chunk where
  src : Nat
  share : Nat
  off : Nat
  data : List Byte
  rows : Nat
deriving DecidableEq, Repr

/-- The phase of a packet's header (R298). -/
def phaseOf (p : Packet) : Nat := p.addr / 2 ^ 32 % 8

/-- Reads a packet as a chunk of an instance; none is COLL_MISMATCH (R302). -/
def chunkOf (x : Group) (i : Inst) (p : Packet) : Option Chunk :=
  let sb := shareBytes x i
  let off := p.addr % 2 ^ 32
  match (instPlan x i).phases[phaseOf p]? with
  | none => none
  | some ph =>
    let n := x.shape.getD ph.axis 1
    let src := if i.isSwap then off / sb else withDigit x.shape i.pos ph.axis p.digit
    let share := if i.isSwap then src * x.count + i.pos else off / sb
    let inPhase := if i.isSwap then p.digit == 0 && decide (src < x.count) else decide (p.digit < n)
    let len := p.payload.length - (if i.sub = 5 then 4 else 0)
    let twice := i.got.any (fun c =>
      c.phase == phaseOf p && c.share == share && c.src == src && c.off == off % sb)
    if p.opcode == ph.op && inPhase && src != i.pos && ph.recv.any (fun r => r.1 == share && r.2.contains src)
        && off % sb % chunkMax i == 0 && len == min (chunkMax i) (sb - off % sb) && !twice then
      some { src := src, share := share, off := off % sb, data := p.payload.take len, rows := leNat (p.payload.drop len) }
    else none

/-- A contribution has come whole at a tick: the position that arrived last, its tick, and the tick of the one before
(R305). -/
def noteArrival (src t : Nat) (i : Inst) : Inst :=
  let i := { i with miss := i.miss - 1 }
  if src = i.lastPos then { i with lastAt := max i.lastAt t }
  else if i.lastAt ≤ t then { i with second := some i.lastAt, lastPos := src, lastAt := t }
  else { i with second := some (max t (i.second.getD 0)) }

/-- Ticks by which the last arrival followed the second-to-last; 0 where no other position contributes (R305). -/
def Inst.lateness (i : Inst) : Nat := match i.second with | some t => i.lastAt - t | none => 0

/-- What an engine's poisoned input captures (R306, R385). -/
def engineOcc (x : Group) (p : Packet) : Occ :=
  { addr := wd p.addr, dev := p.src, agent := 0x200 + x.engine, tenant := x.tenant, access := 6, status := stPoisoned }

/-- A chunk joins an instance. -/
def joinChunk (x : Group) (i : Inst) (p : Packet) (c : Chunk) (t : Nat) : Inst :=
  let part : Contribution := { phase := phaseOf p, share := c.share, src := c.src, off := c.off, data := c.data }
  let i := { i with got := i.got ++ [part], came := mset 0 i.came (phaseOf p) (mget 0 i.came (phaseOf p) + 1),
                    rows := if i.sub = 5 then mset 0 i.rows c.share (BitVec.ofNat 32 c.rows) else i.rows }
  goOn x (if haveOf i (phaseOf p) c.share c.src = shareBytes x i then noteArrival c.src t i else i)

/-- A packet of an open instance, which reached the engine at tick `t` (R298–R303, R306, R309). -/
def instPacket (x : Group) (i : Inst) (t : Nat) (p : Packet) (s : State) : State :=
  if p.opcode = 0x44 then endInst i p.status s
  else
    match chunkOf x i p with
    | none => endInst i 0x042 s
    | some c =>
      if p.poison then endInst i stPoisoned (recordData srcPoison (engineOcc x p) (some (i.tile / 128)) s)
      else
        let s := if p.late then markLate i.gid i.num i.pos s else s
        putInst (joinChunk x ((freshInst s i).getD i) p c t) s

/-- A collective packet that belongs to nothing is discarded and counted (R312). -/
def staleColl (s : State) : State := s |> orReg Reg.collEvent 2 |> addSat Reg.collErrCount 63 32 1

/-- Group, epoch and instance that a packet names (R298). -/
def packetGid (p : Packet) : Nat := p.addr / 2 ^ 36 % 4096
/-- See `packetGid`. -/
def packetEpoch (p : Packet) : Nat := p.addr / 2 ^ 35 % 2

/-- Whether a packet is of an instance. -/
def isOf (p : Packet) (i : Inst) : Bool :=
  i.gid == packetGid p && i.epoch == packetEpoch p && i.pos == p.pos && i.num % 2 ^ 24 == p.seg
    && (i.sub == 6) == (p.opcode == 0x42)

/-- Whether a packet may be of an instance that its member has not opened yet: of a later number in the current epoch,
or of the group's next epoch (R301). -/
def isEarly (s : State) (p : Packet) : Bool :=
  let x := groupOf s (packetGid p)
  if x.epoch = packetEpoch p then
    x.valid && decide (p.pos < x.count) && memDevice (memberAt s x p.pos) == ownDev s
      && decide ((p.seg + 2 ^ 24 - mget 0 s.coll.nextInst (numKey (packetGid p) p.pos (p.opcode == 0x42)) % 2 ^ 24)
          % 2 ^ 24 < 2 ^ 23)
  else
    match s.coll.drain with
    | some (g, _) => g != packetGid p
    | none => true

/-- A sum. -/
def total (l : List Nat) : Nat := l.foldl (fun a b => a + b) 0

/-- Bytes that a group's buffer holds: of early packets, and of contributions that open instances have not combined or
placed yet (R301). -/
def bufferBytes (s : State) (g : Nat) : Nat :=
  total ((s.coll.early.filter (fun p => packetGid p = g)).map (fun p => p.payload.length))
    + total ((s.coll.insts.filter (fun i => i.gid == g)).map (fun i =>
        total ((i.got.filter (fun c => c.src != i.pos)).map (fun c => c.data.length))))

/-- A collective packet has reached its home engine at tick `t` (R285, R301, R312). An early one is held in the group's
buffer with that tick; where the buffer is full it waits (notes/assumptions/55.md). -/
def collPacket (t : Nat) (p : Packet) (s : State) : State :=
  match s.coll.insts.find? (isOf p) with
  | some i =>
    (match groupAt s i.gid i.epoch with
     | some x => instPacket x i t p s
     | none => s)
  | none =>
    if !isEarly s p then staleColl s
    else if bufferBytes s (packetGid p) + p.payload.length ≤ (groupOf s (packetGid p)).buf * 65536 then
      { s with coll := { s.coll with early := s.coll.early ++ [{ p with heldFrom := t }] } }
    else { s with rma := { s.rma with deliverQ := s.rma.deliverQ ++ [p] } }

/-- The early packets of an instance that is now open go to it, each with the tick of its arrival (R301, R305). -/
def takeEarly (i : Inst) (s : State) : State :=
  let l := s.coll.early.filter (fun p => isOf p i)
  let s := { s with coll := { s.coll with early := s.coll.early.filter (fun p => !isOf p i) } }
  l.foldl (fun s p => collPacket p.heldFrom p s) s

/-- A packet of one of the collective opcodes (R298). -/
def collArrives (op : Nat) (p : Packet) (s : State) : State := if p.opcode = op then collPacket (now s) p s else s

/-- CL_REDUCE (R299, R300): a chunk to be combined. -/
def execClReduce (p : Packet) (s : State) : Host.Outcome State Fault Refusal := ok (collArrives 0x40 p s)

/-- CL_DATA (R299): a chunk to be placed and forwarded. -/
def execClData (p : Packet) (s : State) : Host.Outcome State Fault Refusal := ok (collArrives 0x41 p s)

/-- CL_BAR (R311): arrival times of a group barrier. -/
def execClBar (p : Packet) (s : State) : Host.Outcome State Fault Refusal := ok (collArrives 0x42 p s)

/-- CL_CAP (R303): a capacity share with its row counts. -/
def execClCap (p : Packet) (s : State) : Host.Outcome State Fault Refusal := ok (collArrives 0x43 p s)

/-- CL_ABORT (R306): ends the instance and goes on to the members that expect data from this one. -/
def execClAbort (p : Packet) (s : State) : Host.Outcome State Fault Refusal := ok (collArrives 0x44 p s)

-- Sending (R299, R307, R308)

/-- Payload bytes of a chunk of a length. -/
def chunkPayload (i : Inst) (n : Nat) : Nat := n + (if i.sub = 5 then 4 else 0)

/-- One packet of an instance (R298); `bs` is the share. -/
def chunkPacket (s : State) (x : Group) (i : Inst) (c : PlanPacket) (bs : List Byte) : Packet :=
  let ph := ((instPlan x i).phases[c.phase]?).getD { op := 0, axis := 0, sends := [], recv := [] }
  let data := (bs.drop c.off).take c.len ++ (if i.sub = 5 then leBytes 4 (mget 0 i.rows c.share).toNat else [])
  { dst := memDevice (memberAt s x c.peer), opcode := ph.op, vc := 1, pos := c.peer,
    digit := if i.isSwap then 0 else digit x.shape i.pos ph.axis, tenant := x.tenant, len4 := data.length / 4,
    addr := collAddr i c.phase (chunkOffset x i c.share c.off), seg := i.num % 2 ^ 24, payload := data }

/-- Whether a share is still the member's own data as SRC holds it (R308). -/
def isOwnData (x : Group) (i : Inst) (phase share : Nat) : Bool :=
  let p := instPlan x i
  p.own.contains share && (p.phases.take phase).all (fun ph => !reduces ph.op)

/-- Slot of packet `k` of an instance (R307): its port and its tick. -/
def packetSlot (s : State) (i : Inst) (k : Nat) : Nat × Nat :=
  let w := srcRes s (i.ver == 1) (i.res + k) 0
  (fld w 47 43, i.round * 1024 + fld w 39 30)

/-- Stages a packet for its slot (R308): its lead is 24 ticks for own data and 12 for what an engine combined. On a
suspended port, or where the port's pitch buffer is full, it goes late at once (R54). -/
def stageColl (i : Inst) (k lead : Nat) (p : Packet) (s : State) : State :=
  let w := packetSlot s i k
  let p := { stamped s { p with resId := i.res + k, schedVer := i.ver } with vc := 0 }
  if !pitchTakes s w.1 p then s |> markLate i.gid i.num i.pos |> lateForward w.1 none p
  else
    { s with net := { s.net with staged := s.net.staged ++
      [{ port := w.1, pkt := p, tick := w.2, stagedAt := now s + lead - 24, tag := i.tag,
         coll := some (i.gid, i.num, i.pos) }] } }

/-- Sends or stages a packet of an instance. -/
def sendPlanned (x : Group) (i : Inst) (c : PlanPacket) (s : State) : State :=
  let p := chunkPacket s x i c (mget (0, []) i.hold c.share).2
  if i.pitch then stageColl i c.num (if isOwnData x i c.phase c.share then 24 else 12) p s else inject p s

/-- Packets of one window of a phase: BUF bytes at 256 bytes a packet (R301). -/
def windowPackets (x : Group) : Nat := max 1 x.buf * 256

/-- Packets that this member receives in a phase. -/
def phaseExpects (x : Group) (i : Inst) (j : Nat) : Nat :=
  match (instPlan x i).phases[j]? with
  | some ph => total (ph.recv.map (fun r => r.2.length)) * ceilDiv (shareBytes x i) (chunkMax i)
  | none => 0

/-- The window of a phase that an instance is in: the first of which it has not sent every packet (R301). -/
def windowOf (x : Group) (i : Inst) (j : Nat) : Nat :=
  match (i.todo.filter (fun t => t.phase == j)).map (fun t => t.place / windowPackets x) with
  | [] => 0
  | a :: r => r.foldl min a

/-- Whether a packet lies in the window that its phase is in, and what this member receives in the earlier windows of the
phase has come (R301). -/
def inWindow (x : Group) (i : Inst) (c : PlanPacket) : Bool :=
  let w := windowOf x i c.phase
  c.place / windowPackets x == w
    && decide (min (phaseExpects x i c.phase) (w * windowPackets x) ≤ mget 0 i.came c.phase)

/-- The packets that an instance can send: their inputs are present (R299), and off pitch the window allows them (R301,
notes/assumptions/55.md). -/
def sendable (x : Group) (i : Inst) : List PlanPacket :=
  i.todo.filter (fun c => i.hold.any (fun h => h.1 == c.share && h.2.1 == c.phase) && (i.pitch || inWindow x i c))

/-- An engine sends what an instance can send (R299, R301, R311). -/
def sendReady (x : Group) (i : Inst) (s : State) : State :=
  let l := sendable x i
  let s := l.foldl (fun s c => sendPlanned x i c s) s
  match freshInst s i with
  | none => s
  | some i => putInst (goOn x { i with todo := i.todo.filter (fun t => !l.contains t) }) s

/-- Something done with the present record of an instance and its group. -/
def withInst (i : Inst) (f : Group → Inst → State → State) (s : State) : State :=
  match freshInst s i, groupAt s i.gid i.epoch with
  | some i, some x => f x i s
  | _, _ => s

/-- The instances at a position with a number: of a collective, of a barrier, of either epoch. -/
def instsAt (s : State) (gid num pos : Nat) : List Inst :=
  s.coll.insts.filter (fun i => i.gid == gid && i.num == num && i.pos == pos)

/-- COLL_PHASE_SEND (R299, R301, R308, R311): an engine asks for a member's input if it has not yet, and sends every chunk
of the present window whose inputs are present; on pitch it stages them. -/
def execCollPhaseSend (gid num pos : Nat) (s : State) : Host.Outcome State Fault Refusal :=
  ok ((instsAt s gid num pos).foldl (fun s i =>
    s |> withInst i (fun _ i s => takeEarly i s) |> withInst i askInput |> withInst i takeInput |> withInst i sendReady) s)

/-- COLL_LATE_SEND (R52, R308, R309): the packets of an instance that were staged too late for their slot go on VC1
with LATE. -/
def execCollLateSend (gid num pos : Nat) (s : State) : Host.Outcome State Fault Refusal :=
  ok (let missed := s.net.staged.filter (fun h => h.coll == some (gid, num, pos) && decide (h.tick < h.stagedAt + 24))
    let s := { s with net := { s.net with staged := s.net.staged.filter (fun h => !missed.contains h) } }
    missed.foldl (fun s h => missStaged h s) s)

-- Completion (R304, R305, R309)

/-- Bytes of a result as DST receives them (R130, R296, R300). -/
def fromWire (d : Desc) (bs : List Byte) : List Byte :=
  if d.exact_ && !d.outWide then
    (elemsOf 16 (bs.length / 16) bs).flatMap (fun v =>
      leBytes (outSize d) ((Wide.ofBits v).round (if d.outBf16 then fmtOf 1 else fmtOf 0)).1)
  else bs

/-- Whether a wide partial of a result carries STICKY (R304). -/
def anySticky (bs : List Byte) : Bool :=
  (elemsOf 16 (bs.length / 16) bs).any (fun v => match Wide.ofBits v with | .fin _ _ st => st | _ => false)

/-- The result of an instance on the wire, none while a share is not final. -/
def finalBytes (x : Group) (i : Inst) : Option (List Byte) :=
  let p := instPlan x i
  if p.final.all (fun k => i.hold.any (fun h => h.1 == k && h.2.1 == p.phases.length)) then
    some (p.final.flatMap (fun k => (mget (0, []) i.hold k).2))
  else none

/-- What DST receives (R296, R303). -/
def resultOf (x : Group) (i : Inst) (bs : List Byte) : List Byte :=
  if i.sub ≤ 1 then fromWire i.desc bs
  else if i.sub = 5 then
    bs ++ (List.range x.count).flatMap (fun k => leBytes 4 (mget 0 i.rows (k * x.count + i.pos)).toNat)
  else bs

/-- LATE_INFO of an instance (R305, R316). -/
def noteLatest (i : Inst) (s : State) : State :=
  wrReg Reg.lateInfo (wd (i.lastPos % 65536 * 2 ^ 48 + i.gid * 2 ^ 36 + min i.lateness (2 ^ 36 - 1))) s

/-- Whether an instance has its result and owes nothing more (R304). -/
def isFinal (s : State) (x : Group) (i : Inst) : Bool :=
  i.sub != 6 && (finalBytes x i).isSome && i.todo == [] && !s.net.staged.any i.staged

/-- An instance whose result is complete and whose chunks have all been sent has its engine write DST (R284, R304). -/
def askOutput (x : Group) (i : Inst) (s : State) : State :=
  if !isFinal s x i || i.output.made then s
  else
    let out := resultOf x i ((finalBytes x i).getD [])
    submitAll [engineAccess s x i .write i.desc.dst out out.length]
      (putInst { i with output := { i.output with made := true } } s)

/-- An instance whose result is in DST completes its member's tag (R304, R309); a refused write ends it (R306). -/
def completeInst (x : Group) (i : Inst) (s : State) : State :=
  match i.output.status, finalBytes x i with
  | some e, some bs =>
    if isError e then endInst i e s
    else
      let sticky := decide (i.sub ≤ 1) && i.desc.exact_ && anySticky bs
      let s := setCpl i.tag { cplOf s i.tag with drops := i.drops, inexact := sticky } s
      s |> noteLatest i |> dropInst i |> cvuCover i.tag 0 (resultOf x i bs) false |> concludeTag i.tag i.late
  | _, _ => s

/-- COLL_COMPLETE (R304, R309). -/
def execCollComplete (gid num pos : Nat) (s : State) : Host.Outcome State Fault Refusal :=
  ok ((instsAt s gid num pos).foldl (fun s i =>
    s |> withInst i askInput |> withInst i takeInput |> withInst i askOutput |> withInst i completeInst) s)

-- Issue (R293–R297, R304, R307, R309)

/-- A descriptor of 32 bytes (R294). -/
def readDesc (bs : List Byte) : Desc :=
  { w0 := leWord (bs.take 8), w1 := leWord ((bs.drop 8).take 8), w2 := leWord ((bs.drop 16).take 8),
    w3 := leWord ((bs.drop 24).take 8) }

/-- Check 1 of R297: the descriptor (R294–R296). `n` is N where the group is valid. -/
def descStatus (s : State) (sub : Nat) (d : Desc) (n : Option Nat) : Nat :=
  let red := decide (sub ≤ 1)
  let unit := if d.etype = 4 then 16 else 8
  let count := n.getD 1
  if red && (d.exact_ || d.etype == 4) && !exactLicensed s then stUnlicensed
  else if fld d.w0 63 60 ≠ 0 ∨ fld d.w1 63 48 ≠ 0 ∨ fld d.w2 22 14 ≠ 0 ∨ fld d.w3 47 16 ≠ 0
      ∨ d.src % 8 ≠ 0 ∨ d.dst % 8 ≠ 0 ∨ d.count = 0 then 0x040
  else if sub = 5 then
    (if d.exact_ ∨ 65535 < d.count ∨ d.rowBytes % 8 ≠ 0 ∨ d.rowBytes = 0 ∨ 32768 < d.rowBytes then 0x040 else stOk)
  else if d.count % 8 ≠ 0 then 0x040
  else if red then
    (if 4 < d.etype ∨ d.red = 3 ∨ (d.exact_ ∧ (d.red ≠ 0 ∨ d.etype = 2 ∨ d.etype = 3))
        ∨ (d.etype = 4 ∧ (!d.exact_ ∨ d.count % 16 ≠ 0)) ∨ (sub = 1 ∧ d.count % (unit * count) ≠ 0) then 0x040
     else stOk)
  else if d.exact_ ∨ (sub = 3 ∧ n ≠ none ∧ count ≤ d.root) then 0x040
  else stOk

/-- Check 4 of R297: one side of a member's data. -/
def sideFine (s : State) (a n : Nat) : Bool :=
  n == 0 || (match accessRange s a n with | some (.reg _) => false | some _ => true | none => false)

/-- Check 5 of R297: every packet's reservation (R51, R307). The target must be the peer's device. -/
def admitColl (s : State) (x : Group) (i : Inst) : Nat :=
  if !x.cube ∨ i.sub = 1 ∨ i.sub = 4 then stNoReservation
  else firstBad ((packetList x i).zipIdx.map (fun c =>
    let r := i.res + c.2
    let w := srcRes s (i.ver == 1) r 0
    if 1024 ≤ r ∨ bit w 62 = true ∨ fld w 61 48 ≠ memDevice (memberAt s x c.1.peer) then stNoReservation
    else admitPitch s x.tenant r i.round (ceilDiv (24 + chunkPayload i c.1.len) 56)))

/-- Bytes that a member sends and receives (R304). -/
def trafficOf (x : Group) (i : Inst) : Nat :=
  shareBytes x i * total ((instPlan x i).phases.map (fun ph =>
    total (ph.sends.map (fun q => q.2.length)) + total (ph.recv.map (fun r => r.2.length))))

/-- The deadline of a collective on pitch, from its own reservations (R309); where it sends nothing the spec states none,
and it is a free value (notes/assumptions/27.md). -/
def pitchBound (s : State) (x : Group) (i : Inst) : Option Nat :=
  let ks := List.range (packetList x i).length
  if !i.pitch then none
  else if ks = [] then some (Config.pitchDeadline (now s) i.gid (resultBytes x i))
  else
    some ((ks.map (fun k => (packetSlot s i k).2 + fld (srcRes s (i.ver == 1) (i.res + k) 1) 15 0)).foldl max 0
      + 32 + ceilDiv (resultBytes x i) 64)

/-- The first slot of a collective on pitch (R309); a free value where this member sends nothing
(notes/assumptions/27.md). -/
def firstSlot (s : State) (x : Group) (i : Inst) : Nat :=
  match (List.range (packetList x i).length).map (fun k => (packetSlot s i k).2) with
  | [] => Config.firstSlotElsewhere (now s) i.gid
  | a :: r => r.foldl min a

/-- Claims the reservations of a collective (R51, R307). -/
def claimAll (x : Group) (i : Inst) (s : State) : State :=
  if i.pitch then (List.range (packetList x i).length).foldl (fun s k => claimSlot (i.res + k) i.round s) s else s

/-- A collective that has passed its checks: its deadline (R304, R309), its reservations, its instance, the packets that
came early. -/
def startColl (t : Nat) (x : QArgs) (g : Group) (i : Inst) (s : State) : State :=
  let after := classDeadline s (groupDevices s g) + copyAllowance s (trafficOf g i)
  let w := resultBytes g i
  let i := { i with lateBy := firstSlot s g i + after }
  let s := setCpl i.tag { cplOf s i.tag with
    base := i.desc.dst, expect := w, deadline := (pitchBound s g i).getD (now s + after) } s
  let s := s |> claimAll g i |> attachCvu t x i.tag i.desc.dst w |> openInst g i
  match s.coll.insts.find? (fun j => j.tag == i.tag && j.sub != 6) with
  | some j => takeEarly j s
  | none => s

/-- The checks of R297 in order, then the collective. -/
def goColl (t sub : Nat) (x : QArgs) (d : Desc) (b tag : Nat) (s : State) : State :=
  let g := groupOf s d.gid
  let st := descStatus s sub d (if g.valid then some g.count else none)
  if st ≠ 0 then refuseTag tag st false s
  else if !g.valid || g.tenant != tileTenant s t then refuseTag tag stNoGroup false s
  else
    match posOf s g t with
    | none => refuseTag tag 0x041 false s
    | some pos =>
      let i : Inst :=
        { gid := d.gid, epoch := g.epoch, num := 0, pos := pos, tile := t, tenant := g.tenant, tag := tag, sub := sub,
          desc := d, res := b % 1024, round := b / 1024, pitch := b != 0, ver := (schedActive s).toNat }
      let st := if sideFine s d.src (inputBytes g i) && sideFine s d.dst (resultBytes g i) then stOk else stAddr
      let st := if st = 0 ∧ b ≠ 0 then admitColl s g i else st
      if st ≠ 0 then refuseTag tag st false s else startColl t x g i s

/-- CLV (R293): the leader performs it for the whole gang; another member only goes on. -/
def clv (sub t : Nat) (x : QArgs) (s : State) : State :=
  qissue t x { a := x.a, b := x.b, td := x.td, nw := x.nw, ar := x.ar, sub := BitVec.ofNat 4 sub, cvu := x.cvu,
               cvuEn := x.cvuEn } false [x.a.toNat, x.b.toNat] (fun s =>
    if leaderOf s t ≠ t then advance t s
    else
      let off := (gv s t x.a).toNat
      let b := (gv s t x.b).toNat
      if off % 32 ≠ 0 then tileFault t 5 s
      else withLoad t 4 off 32 (fun bs s =>
        let d := readDesc bs
        issueOp t x .coll .none (wd d.dst) (fun tag s =>
          unlessTwinned tag (goColl t sub x d b tag) s) s) s) s

/-- CLV all-reduce (R299). -/
def execClvAllReduce (t : Nat) (x : QArgs) (s : State) : Host.Outcome State Fault Refusal := ok (clv 0 t x s)

/-- CLV reduce-scatter (R299). -/
def execClvReduceScatter (t : Nat) (x : QArgs) (s : State) : Host.Outcome State Fault Refusal := ok (clv 1 t x s)

/-- CLV all-gather (R299). -/
def execClvAllGather (t : Nat) (x : QArgs) (s : State) : Host.Outcome State Fault Refusal := ok (clv 2 t x s)

/-- CLV broadcast (R299). -/
def execClvBroadcast (t : Nat) (x : QArgs) (s : State) : Host.Outcome State Fault Refusal := ok (clv 3 t x s)

/-- CLV all-to-all (R299). -/
def execClvAllToAll (t : Nat) (x : QArgs) (s : State) : Host.Outcome State Fault Refusal := ok (clv 4 t x s)

/-- CLV capacity all-to-all (R303). -/
def execClvCapacityAllToAll (t : Nat) (x : QArgs) (s : State) : Host.Outcome State Fault Refusal := ok (clv 5 t x s)

end Sys2Proof.Machine
end

