-- ==== Sys2Proof/Machine/HostDma.lean ====
section
/-! DEFINITION. The queue engine: fetching entries (R336), DMA descriptors (R338), completion records (R339–R341), reads
of host memory, and the transport of the ordinary network (R344). -/

namespace Sys2Proof.Machine

-- Fetching (R336)

/-- Whether the host link is up (R347). -/
def hostUp (s : State) : Bool := rdB s Reg.hostStatus 0

/-- Asks the host for bytes of its memory. -/
def readHost (addr n : Nat) (what : HostRead) (s : State) : State :=
  let id := s.host.nextId
  { s with host := { s.host with nextId := id + 1, reads := s.host.reads ++ [(id, what)] } } |> emit (.hostRead id addr n)

/-- Whether a queue can fetch its next entry: one lies before the tail, a completion slot is free for it, and its
tenant's pair has no conflict (R336, R413). The device fetches no job before READY and no descriptor before HBM_TRAIN
(R431). One entry is fetched at a time (notes/assumptions/7.md). -/
def mayFetch (s : State) (q : Nat) : Bool :=
  qEnabled s q && sqHead s q != rdF s (Reg.sqTail q) 18 0 && !(hq s q).reading
    && decide ((hq s q).reserved + (hq s q).ready < cqSize s q) && !twinKeeps s (qTenant s q)
    && (if qKind s q = 0 then s.boot.jobFetch else s.boot.dmaRun)

/-- SQ_FETCH (R335, R336): a ring that cannot be read stops the queue with FETCH_ERROR (R347). -/
def execSqFetch (q : Nat) (s : State) : Host.Outcome State Fault Refusal :=
  ok (if q < 512 ∧ mayFetch s q = true then
      let idx := sqHead s q
      let addr := (rd s (Reg.sqBase q)).toNat + 64 * idx
      let s := s |> wrF (Reg.qStatus q) 50 32 ((idx + 1) % sqSize s q)
        |> onHq q (fun x => { x with reserved := x.reserved + 1, reading := true })
      if qSqDevice s q then
        (match ringAccess s q addr .read [] 64 (.entry q idx) with
         | some x => toStack x s
         | none => stopQueue q 2 s)
      else if hostUp s then readHost addr 64 (.entry q idx) s
      else stopQueue q 2 s
    else s)

-- Completion records (R339–R341)

/-- QUEUE_RECORD_WRITE (R339, R340, R341): the oldest record goes into the next slot, W0 last. -/
def execQueueRecordWrite (q : Nat) (s : State) : Host.Outcome State Fault Refusal :=
  ok (match (hq s q).records with
    | [] => s
    | r :: rest =>
      let x := hq s q
      let i := rdF s (Reg.qStatus q) 31 13
      let w0 := wd ((x.seq + 1) % 2 ^ 32 * 2 ^ 32 + 2 ^ 31 + r.idx % 2 ^ 19)
      let s := s |> ringWrite q (32 * i + 8) (wordsBytes [r.status, s.now, r.check]) |> ringWrite q (32 * i) (leBytes 8 w0.toNat)
      let s := s |> wrF (Reg.qStatus q) 31 13 ((i + 1) % cqSize s q)
        |> onHq q (fun x => { x with records := rest, seq := (x.seq + 1) % 2 ^ 32, reserved := x.reserved - 1,
                                     ready := x.ready + 1, slots := mset 0 x.slots i w0, armed := false })
      if x.armed then sendMsix (qFunction s q) (rdF s (Reg.qCtrl q) 26 16) s else s)

-- DMA descriptors (R338)

/-- The agent and tenant with which the queue engine reaches device addresses (R151, R189, R335). -/
def dmaAgent (tenant : Nat) : Nat := if tenant = 0 then 0x300 else 0x800

/-- Word `w` of an entry. -/
def Entry.word (e : Entry) (w : Nat) : Word := e.words.getD w 0

/-- TYPE of an entry (R97, R338). -/
def Entry.type (e : Entry) : Nat := fld (e.word 0) 63 56

/-- Descriptors of a queue in flight. -/
def inFlight (s : State) (q : Nat) : Nat :=
  (s.cpl.filter (fun kv => kv.2.st == .opened && (match kv.2.sink with | .queue q' _ => q' == q | _ => false))).length

/-- Takes the front entry of a queue away. -/
def popEntry (q : Nat) (s : State) : State := onHq q (fun x => { x with fetched := x.fetched.tail }) s

/-- An entry that is answered without having run. -/
def refuseEntry (q idx status : Nat) (s : State) : State :=
  s |> popEntry q |> pushRecord q idx (statusWord status 0 false false false) 0

/-- The types of DMA descriptors. -/
def dmaType (t : Nat) : Bool := t == 0x10 || t == 0x11 || t == 0x12

/-- The sizes and alignments of a descriptor: its status (R338). -/
def dmaCheck (e : Entry) : Nat :=
  let n := fld (e.word 3) 32 0
  let bad := n % 8 ≠ 0 ∨ n < 8 ∨ 2 ^ 32 < n ∨ (e.word 2).toNat % 8 ≠ 0 ∨ (e.type ≠ 0x12 ∧ (e.word 1).toNat % 8 ≠ 0)
  if bad then stMisaligned else stOk

/-- Starts the front descriptor of a DMA queue if it is of a type (R336, R338): it takes an entry of the table, and
waits while none is free or 64 are in flight. One that is no descriptor, or that uses a reserved word, is BAD_JOB. -/
def startDma (q type : Nat) (kind : CplKind) (go : Entry → Nat → State → State) (s : State) : State :=
  match (hq s q).fetched with
  | [] => s
  | e :: _ =>
    if !qEnabled s q ∨ qKind s q ≠ 1 ∨ 64 ≤ inFlight s q then s
    else if !dmaType e.type ∨ e.word 4 ≠ 0 ∨ e.word 5 ≠ 0 ∨ e.word 6 ≠ 0 ∨ e.word 7 ≠ 0 then refuseEntry q e.idx stBadJob s
    else if e.type ≠ type then s
    else
      match pickTag (qTenant s q) s with
      | (none, _) => s
      | (some k, s) =>
        let s := s |> popEntry q |> openTag k
          { kind := kind, sink := .queue q e.idx, tenant := qTenant s q, target := e.word 2 }
        match targetOf s (e.word 2) false with
        | .bad st v => refuseTag k st v s
        | _ => if dmaCheck e ≠ 0 then refuseTag k (dmaCheck e) false s else go e k s

/-- What a started descriptor expects: its bytes, its place at the device, its deadline (R204, R338), its channel. -/
def openDma (q : Nat) (e : Entry) (tag : Nat) (targets : List (Nat × Nat)) (s : State) : State :=
  let n := fld (e.word 3) 32 0
  let s := setCpl tag { cplOf s tag with
    base := fld (e.word 2) 47 0, expect := n, targets := targets,
    deadline := now s + rdF s Reg.deadlineFar 47 0 + copyAllowance s n } s
  if bit (e.word 0) 15 then cvuAttach (fld (e.word 0) 13 8) (qTenant s q) tag (e.word 2).toNat n s else s

/-- Reads the device side of a descriptor: by accesses of this device, or by read requests to another one (R189,
R338). -/
def readDevice (q tag : Nat) (a : Word) (n : Nat) (reply : Nat → Reply) (s : State) : State :=
  let lo := fld a 47 0
  let tenant := qTenant s q
  match targetOf s a false with
  | .device d _ => (segments lo n).foldl (fun s g => sendOwn tag false
      { dst := d, opcode := 1, len4 := g.2.2 / 4, addr := lo + g.2.1, seg := g.1 } s) s
  | _ => submitAll ((segments lo n).map (fun g =>
      { op := .read, addr := lo + g.2.1, len := g.2.2, agent := dmaAgent tenant, tenant := tenant, since := now s,
        reply := reply g.2.1 })) s

/-- TO_DEVICE (R338): the bytes are first asked of the host. -/
def execToDevice (q : Nat) (s : State) : Host.Outcome State Fault Refusal :=
  ok (startDma q 0x10 .dmaIn (fun e k s =>
    let l := match targetOf s (e.word 2) false with | .device d _ => [(d, 0)] | _ => []
    let s := openDma q e k l s
    if hostUp s then readHost (e.word 1).toNat (fld (e.word 3) 32 0) (.dma k (cplOf s k).gen) s else failTag k stLinkDown false s) s)

/-- FROM_DEVICE (R338). -/
def execFromDevice (q : Nat) (s : State) : Host.Outcome State Fault Refusal :=
  ok (startDma q 0x11 .dmaOut (fun e k s =>
    let host := (e.word 1).toNat
    let s := openDma q e k [(0, host)] s
    if hostUp s then readDevice q k (e.word 2) (fld (e.word 3) 32 0) (fun off => .hostOut k (cplOf s k).gen (host + off)) s
    else failTag k stLinkDown false s) s)

/-- ETH_SEND (R338, R344): the bytes are read, then sent in order; one of a flow runs at a time. Its deadline is the
flow's. -/
def execEthSend (q : Nat) (s : State) : Host.Outcome State Fault Refusal :=
  let f := match (hq s q).fetched with | e :: _ => fld (e.word 0) 7 0 | [] => 0
  let busy : Bool := match (flowOf s f).tag with
    | some k => (cplOf s k).st == CplState.opened && (cplOf s k).kind == CplKind.eth && (cplOf s k).items == f
    | none => false
  ok (if busy then s
    else startDma q 0x12 .eth (fun e k s =>
      if !bit (flowWord s f 2) 63 then refuseTag k stBadJob false s
      else
        let n := fld (e.word 3) 32 0
        let s := s |> onFlow f (fun x => { x with tag := some k, unacked := [],
                                                  txSeq := (x.unacked.map (fun (p : Nat × Nat × List Byte) => p.1)).headD x.txSeq })
          |> setCpl k { cplOf s k with
               base := fld (e.word 2) 47 0, expect := 2 * n, items := f,
               deadline := now s + fld (flowWord s f 3) 31 16 * 1600000 }
        let s := if bit (flowWord s f 2) 61 then
            cvuAttach (fld (flowWord s f 2) 60 55) (qTenant s q) k (e.word 2).toNat n s else s
        readDevice q k (e.word 2) n (fun _ => ownReply s k) s) s)

-- Reads of host memory that return (R336, R338, R450)

/-- The bytes of a TO_DEVICE descriptor have come: they are written at the device, or sent to another one (R338). -/
def dmaArrives (tag : Nat) (bs : List Byte) (s : State) : State :=
  let e := cplOf s tag
  if e.kind ≠ .dmaIn then s
  else
    let l := segments e.base e.expect
    if e.targets ≠ [] then
      l.foldl (fun s g =>
        let data := (bs.drop g.2.1).take g.2.2
        s |> cvuCover tag g.2.1 data false |> sendPut tag (e.base + g.2.1) g.1 (g.1 + 1 == l.length) false data) s
    else
      submitAll (l.map (fun g =>
        { op := .write, addr := e.base + g.2.1, len := g.2.2, data := (bs.drop g.2.1).take g.2.2,
          agent := dmaAgent e.tenant, tenant := e.tenant, since := now s, reply := ownReply s tag })) s

/-- HOST_MEMORY_READ_COMPLETION (R336, R338, R450): what a read of host memory was made for gets its bytes; none says
that the read failed. -/
def execHostMemoryReadCompletion (id : Nat) (data : Option (List Byte)) (s : State) : Host.Outcome State Fault Refusal :=
  ok (match s.host.reads.find? (fun r => r.1 == id) with
    | none => s
    | some (_, what) =>
      let s := { s with host := { s.host with reads := s.host.reads.filter (fun r => r.1 != id) } }
      match what, data with
      | .entry q idx, some bs => entryFetched q idx (if bs.length = 64 then stOk else stLinkDown) bs s
      | .entry q idx, none => entryFetched q idx stLinkDown [] s
      | .dma tag gen, r =>
        if (cplOf s tag).st ≠ .opened ∨ (cplOf s tag).gen ≠ gen then s
        else
          match r with
          | some bs => if bs.length = (cplOf s tag).expect then dmaArrives tag bs s else failTag tag stLinkDown false s
          | none => failTag tag stLinkDown false s
      | .firmware k, some bs => if bs.length = 256 then takeChunk k bs true s else s
      | .firmware _, none => s)

-- The ordinary network, receiver (R344)

/-- A transport packet, or a frame, is dropped and counted (R344, R348). -/
def dropTransport (s : State) : State := addSat Reg.ethDropCount 31 0 1 s
/-- See `dropTransport`. -/
def dropFrame (s : State) : State := addSat Reg.ethDropCount 63 32 1 s

/-- The cumulative acknowledgement of a flow (R344). -/
def sendEthAck (f : Nat) (s : State) : State :=
  emit (.eth (flowPort s f) (fld (flowWord s f 3) 55 40) 2 0 (flowOf s f).rxSeq 0 []) s

/-- The write of a payload into a flow's receive region (R209, R344). -/
def ethWrite (s : State) (f : Nat) (x : EthFrame) : Access :=
  { op := .write, addr := fld (flowWord s f 2) 47 0 + x.offset, len := x.payload.length, data := x.payload,
    agent := 0x800, tenant := fld (flowWord s f 3) 63 56, since := now s }

/-- An in-sequence payload is written, if R209 admits it (R344). -/
def takePayload (f : Nat) (x : EthFrame) (s : State) : State :=
  let a := ethWrite s f x
  let accept (s : State) : State := onFlow f (fun y => { y with rxSeq := (y.rxSeq + 1) % 2 ^ 32 }) s
  if x.payload = [] then accept s
  else
    match admission s a with
    | .error e => s |> (fun s => follow (refuseRequest a e s)) |> dropTransport
    | .ok r =>
      match engineReach s a with
      | .refused _ => s |> (fun s => follow (place r.1 r.2 s)) |> dropTransport
      | _ => s |> (fun s => follow (place r.1 r.2 s)) |> accept

/-- A DATA packet (R344). -/
def ethDataArrives (f : Nat) (x : EthFrame) (s : State) : State :=
  if x.seq ≠ (flowOf s f).rxSeq ∨ 8192 < x.payload.length
      ∨ fld (flowWord s f 3) 15 0 * 65536 < x.offset + x.payload.length then s |> dropTransport |> sendEthAck f
  else s |> takePayload f x |> sendEthAck f

/-- Whether a sequence number lies before an acknowledged one. -/
def seqBefore (a b : Nat) : Bool := decide (a ≠ b ∧ (b + 2 ^ 32 - a) % 2 ^ 32 < 2 ^ 31)

/-- An ACK packet: every earlier packet of the flow is acknowledged (R344). -/
def ethAckArrives (f : Nat) (x : EthFrame) (s : State) : State :=
  let l := (flowOf s f).unacked.filter (fun p => seqBefore p.1 x.ack)
  if l = [] then s
  else
    let s := onFlow f (fun y => { y with unacked := y.unacked.filter (fun p => !seqBefore p.1 x.ack), sentAt := now s }) s
    match (flowOf s f).tag with
    | none => s
    | some k =>
      if (cplOf s k).kind = .eth ∧ (cplOf s k).items = f then
        progress k ((l.map (fun p => p.2.2.length)).foldl (fun a b => a + b) 0) stOk false s
      else s

/-- ETH_FRAME (R20, R344). -/
def execEthFrame (port : Nat) (x : EthFrame) (s : State) : Host.Outcome State Fault Refusal :=
  ok (if !hostPowered s then s
    else if x.malformed then dropFrame s
    else if !rdB s Reg.ethCtrl 63 ∨ 256 ≤ x.flow ∨ !bit (flowWord s x.flow 2) 63 ∨ flowPort s x.flow ≠ port then
      dropTransport s
    else if x.kind = 1 then ethDataArrives x.flow x s
    else if x.kind = 2 then ethAckArrives x.flow x s
    else dropTransport s)

/-- ETH_RTO_EXPIRY (R344): the flow sends again from the oldest unacknowledged packet. What belongs to an ETH_SEND that
has ended is forgotten, and its numbers are used again. -/
def execEthRtoExpiry (f : Nat) (s : State) : Host.Outcome State Fault Refusal :=
  ok (let x := flowOf s f
    match x.unacked with
    | [] => s
    | p :: _ =>
      let live : Bool := match x.tag with
        | some k => (cplOf s k).st == CplState.opened && (cplOf s k).kind == CplKind.eth && (cplOf s k).items == f
        | none => false
      let s := clockTo (x.sentAt + fld (flowWord s f 3) 39 32 * 1600) s
      if live then x.unacked.foldl (fun s p => ethData f p s) (onFlow f (fun y => { y with sentAt := now s }) s)
      else onFlow f (fun y => { y with unacked := [], txSeq := p.1, tag := none }) s)

end Sys2Proof.Machine
end

