-- ==== Sys2Proof/Machine/HostBar.lean ====
section
/-! DEFINITION. Accesses of the host through its BARs (R331–R333), and writes of registers that have no command of their
own (R12, R14). -/

namespace Sys2Proof.Machine

-- BAR accesses (R331–R333)

/-- The number that a function has in MSI-X tables (R329): 0 physical, 1 + v virtual. -/
def fnNumber : HostFn → Nat
  | .pf => 0
  | .vf v => v + 1

/-- Who a function is as the writer of a register. -/
def fnWriter : HostFn → Writer
  | .pf => .path .pcie
  | .vf v => .vf v

/-- Agent and tenant of a function's accesses (R151, R333). -/
def fnAgent : HostFn → Nat × Nat
  | .pf => (0x300, 0)
  | .vf v => (0x800, v)

/-- Answers a read of the host at once. -/
def answerHost (id status : Nat) (bs : List Byte) (s : State) : State := emit (.hostAnswer id status bs false) s

/-- What a fault captures of a host access that never reaches a target (R332, R387). -/
def barOcc (s : State) (fn : HostFn) (a status : Nat) : Occ :=
  { addr := wd a, dev := ownDev s, agent := (fnAgent fn).1, tenant := (fnAgent fn).2, access := 7, status := status }

/-- An access that R332 refuses before it has a target: counted, recorded, and a read answered. -/
def refuseBar (fn : HostFn) (id a status : Nat) (op : HostOp) (s : State) : State :=
  let s := s |> countRefused |> violation (barOcc s fn a status) a
  match op with
  | .read _ => answerHost id status [] s
  | .write _ => s

/-- The local address that a BAR0 offset names (R331, R333). -/
def bar0Address (s : State) (fn : HostFn) (off : Nat) : Option Nat :=
  match fn with
  | .pf => if off < 2 ^ 48 then some off else none
  | .vf v =>
    let w := rd s (Reg.vfAperture v (off / 2 ^ 33))
    if off < 8 * 2 ^ 33 ∧ bit w 63 = true then some (fld w 47 33 * 2 ^ 33 + off % 2 ^ 33) else none

/-- A BAR0 access (R331–R333): an access of this device, of a VF a request that R209 checks. -/
def bar0 (fn : HostFn) (id off : Nat) (op : HostOp) (s : State) : State :=
  match bar0Address s fn off with
  | none => refuseBar fn id off stNoWindow op s
  | some a =>
    let x : Access := { addr := a, agent := (fnAgent fn).1, tenant := (fnAgent fn).2, since := now s, reply := .bar id }
    match op with
    | .read n => follow (ownAccess { x with op := .read, len := n }
        { s with host := { s.host with barReads := s.host.barReads ++ [{ id := id, fn := fn, at_ := now s }] } })
    | .write bs => follow (ownAccess { x with op := .write, len := bs.length, data := bs } s)

/-- A queue page through BAR2 (R331, R337): a page of another tenant reads 0 and ignores writes, which are counted. -/
def bar2Queue (fn : HostFn) (id off : Nat) (op : HostOp) (s : State) : State :=
  let a := 0xA8000 + off
  let mine := match fn with | .pf => true | .vf v => v == qTenant s (off / 0x40)
  match op with
  | .read n =>
    if n ≠ 8 ∨ off % 8 ≠ 0 then refuseBar fn id (Reg.spaceBase + a) stSize op s
    else if mine then
      (let r := readReg (fnWriter fn) a s
       answerHost id stOk (leBytes 8 r.1.toNat) r.2)
    else answerHost id stOk (leBytes 8 0) s
  | .write bs =>
    if bs.length ≠ 8 ∨ off % 8 ≠ 0 then refuseBar fn id (Reg.spaceBase + a) stSize op s
    else if mine then (writeReg (fnWriter fn) a (leWord bs) s).2
    else countRefused s

/-- A word of a function's pending-bit array (R331). -/
def pbaWord (s : State) (fn w : Nat) : Nat :=
  maskOf ((s.host.pba.filter (fun v => v.1 == fn && v.2 / 64 == w)).map (fun v => v.2 % 64))

/-- A word of BAR2 above the queue pages: MSI-X table, pending bits, else 0 (R331). -/
def bar2Word (s : State) (fn w : Nat) : Nat :=
  if 0x1000 ≤ w ∧ w < 0x1000 + 2 * msixCount fn then (msixWord s fn (w - 0x1000)).toNat
  else if 0x1200 ≤ w ∧ w < 0x1200 + ceilDiv (msixCount fn) 64 then pbaWord s fn (w - 0x1200)
  else 0

/-- The MSI-X table and the pending bits through BAR2, by 4 or 8 bytes (R331, R341). -/
def bar2Msix (fn : HostFn) (id off : Nat) (op : HostOp) (s : State) : State :=
  let f := fnNumber fn
  let old := bar2Word s f (off / 8)
  let lo := off % 8
  let fine := fun (n : Nat) => (n == 4 || n == 8) && off % n == 0
  match op with
  | .read n =>
    if fine n then answerHost id stOk ((leBytes 8 old).drop lo |>.take n) s
    else refuseBar fn id (Reg.spaceBase + 0xA8000 + off) stSize op s
  | .write bs =>
    if !fine bs.length then refuseBar fn id (Reg.spaceBase + 0xA8000 + off) stSize op s
    else if 0x1000 ≤ off / 8 ∧ off / 8 < 0x1000 + 2 * msixCount f then
      msixWrite f (off / 8 - 0x1000) (leWord ((leBytes 8 old).take lo ++ bs ++ (leBytes 8 old).drop (lo + bs.length))) s
    else s

/-- HOST_BAR_ACCESS (R20, R331–R333). A function that the package does not have is refused; without power the endpoint
takes nothing. -/
def execHostBarAccess (fn : HostFn) (bar off : Nat) (op : HostOp) (s : State) : Host.Outcome State Fault Refusal :=
  ok (if !hostPowered s then s else
    let id := s.host.nextId
    let s := { s with host := { s.host with nextId := id + 1 } }
    let known := match fn with | .pf => true | .vf v => tenantOk s v
    if !known then refuseBar fn id off stAddr op s
    else if bar = 0 then bar0 fn id off op s
    else if bar = 2 ∧ off < 0x8000 then bar2Queue fn id off op s
    else if bar = 2 ∧ off < 0x10000 then bar2Msix fn id off op s
    else refuseBar fn id off stAddr op s)

/-- BAR_READ_TIMEOUT (R332): a read that 8 ms did not answer gets Completer Abort; an access that still waits is
performed later. -/
def execBarReadTimeout (id : Nat) (s : State) : Host.Outcome State Fault Refusal :=
  ok (match s.host.barReads.find? (fun r => r.id == id) with
    | none => s
    | some r =>
      let s := clockTo (r.at_ + 12800000) s
      answerHost id stTimeout [] { s with host := { s.host with barReads := s.host.barReads.filter (fun x => x.id != id) } })

-- Registers without a command of their own (R12–R14, R396)

/-- REGISTER_WRITE (R12–R14): an 8-byte write of a register at a local address; its status goes to the writer. An address
outside the local map, or of a block that the package lacks, is ADDR_INVALID, a misaligned one ACCESS_SIZE, one of a fenced
partition FENCED (R13, R19, R27, R396). An address of memory names no register, and nothing happens. -/
def execRegisterWrite (who : Writer) (addr : Nat) (v : Word) (s : State) : Host.Outcome State Fault Refusal :=
  ok (match regionOf s addr with
    | none => refuseWrite who addr stAddr s
    | some (.reg a) =>
      if a % 8 ≠ 0 then refuseWrite who addr stSize s
      else if regFenced s a then emit (.writeStatus who addr stFenced) s
      else answered who a (writeReg who a v s)
    | _ => s)

end Sys2Proof.Machine
end

