-- ==== Sys2Proof/Machine/Stream.lean ====
section
/-! DEFINITION. The stream engine of a tile (R90, R91). -/

namespace Sys2Proof.Machine

/-- Fields of a stream descriptor (R90). -/
def Desc.rows (d : Desc) : Nat := fld d.w2 31 16 + 1
/-- See `Desc.rows`. -/
def Desc.rowLen (d : Desc) : Nat := fld d.w2 63 32
/-- See `Desc.rows`. -/
def Desc.size (d : Desc) : Nat := d.rows * d.rowLen
/-- See `Desc.rows`. -/
def Desc.channel (d : Desc) : Option Nat := if bit d.w2 15 then some (fld d.w2 13 8) else none

/-- The rows of a descriptor: where each is read and where it is written. -/
def Desc.rowList (d : Desc) : List (Nat × Nat) :=
  (List.range d.rows).map (fun k => (d.w0.toNat + k * fld d.w3 63 32, d.w1.toNat + k * fld d.w3 31 0))

/-- Whether a slot is still queued or running (R90). -/
def slotBusy (x : Tile) (i : Nat) : Bool := x.slotQ.contains i || x.running == some i

/-- SDESC (R90): a slot still in use stalls the tile. -/
def execSdesc (t : Nat) (x : QArgs) (s : State) : Host.Outcome State Fault Refusal :=
  ok (qissue t x { d := x.d, a := x.a, sub := x.sub } false [x.a.toNat] (fun s =>
    let i := x.sub.toNat + 16 * (x.d.toNat % 4)
    if slotBusy (tl s t) i then stalled t s
    else withLoad t 4 (gv s t x.a).toNat 32 (fun bs s =>
      s |> onTl t (fun y => { y with slots := mset {} y.slots i (readDesc bs) }) |> advance t) s) s)

/-- SGO (R90): the slot joins the queue of the tile's stream engine; one still in use stalls the tile. -/
def execSgo (t : Nat) (x : QArgs) (s : State) : Host.Outcome State Fault Refusal :=
  ok (qissue t x { a := x.a } false [x.a.toNat] (fun s =>
    let i := (gv s t x.a).toNat % 64
    if slotBusy (tl s t) i then stalled t s
    else s |> onTl t (fun y => { y with slotQ := y.slotQ ++ [i] }) |> advance t) s)

/-- SWAIT (R90). -/
def execSwait (t : Nat) (x : QArgs) (s : State) : Host.Outcome State Fault Refusal :=
  ok (qissue t x { d := x.d, a := x.a } false [x.a.toNat] (fun s =>
    s |> beginWait t 4 (.swait ((gv s t x.a).toNat % 64) x.d.toNat) |> settle t) s)

/-- Whether every row of one side of a descriptor lies in the issuing tile's own SRAM (R91). -/
def insideOwn (t : Nat) (d : Desc) (a : Word) (stride : Nat) : Bool :=
  decide (sramAddr t 0 ≤ a.toNat ∧ a.toNat + (d.rows - 1) * stride + d.rowLen ≤ sramAddr (t + 1) 0)

/-- Whether a descriptor copies within the issuing tile's own SRAM (R91). -/
def isLocalCopy (t : Nat) (d : Desc) : Bool :=
  insideOwn t d d.w0 (fld d.w3 63 32) && insideOwn t d d.w1 (fld d.w3 31 0)

/-- The status of a descriptor that copies nothing (R90, R91): 0 where it can run. -/
def streamCheck (d : Desc) : Nat :=
  if fld d.w0 63 62 ≠ 0 ∨ fld d.w1 63 62 ≠ 0 ∨ 2 ^ 32 < d.size ∨ d.rowLen = 0 then stAddr
  else if d.rowLen % 8 ≠ 0 then stMisaligned else stOk

/-- A slot ends without a completion entry. -/
def endSlot (t i status : Nat) (check : Bool) (s : State) : State :=
  s |> onTl t (fun x => { x with running := none,
                                 slotStatus := mset 0 x.slotStatus i (statusWord status 0 check false false) })
    |> settle t

/-- The rows of a descriptor in pieces that end at 256-byte blocks of the destination (R190): source, destination,
length. -/
def streamPieces (d : Desc) : List (Nat × Nat × Nat) :=
  d.rowList.flatMap (fun r => (segments r.2 d.rowLen).map (fun g => (r.1 + g.2.1, r.2 + g.2.1, g.2.2)))

/-- A descriptor that leaves the tile's SRAM takes an entry of the table and makes its accesses (R91); none free, it is
not started yet. -/
def startCopy (t i : Nat) (d : Desc) (s : State) : State :=
  match pickTag (tileTenant s t) s with
  | (none, _) => s
  | (some k, s) =>
    let s := s |> onTl t (fun x => { x with slotQ := x.slotQ.tail, running := some i })
      |> openTag k { kind := .desc, sink := .slot t i, tile := some t, tenant := tileTenant s t, target := d.w0 }
      |> expectTag k d.w1.toNat d.size (classDeadline s [ownDev s] + copyAllowance s d.size) []
    let s := match d.channel with
      | some c => cvuAttach c (tileTenant s t) k d.w1.toNat d.size s
      | none => s
    submitAll ((streamPieces d).map (fun p =>
      { op := .read, addr := p.1, len := p.2.2, agent := t, tenant := tileTenant s t, since := now s,
        reply := .copyTo k (cplOf s k).gen p.2.1 })) s

/-- A descriptor that copies nothing ends (R91); one whose address R23 refuses for its class records a violation. -/
def refuseSlot (t i : Nat) (d : Desc) (s : State) : State :=
  let bad (a : Word) (store : Bool) : Bool := fld a 63 62 == 3 || (fld a 63 62 == 2 && !store)
  let note (a : Word) (op : AccOp) (s : State) : State :=
    recordData srcAccess { accOcc s { op := op, agent := t, tenant := tileTenant s t } stAddr with addr := a }
      (agentPart t) s
  let s := if bad d.w0 false then note d.w0 .read s else if bad d.w1 true then note d.w1 .write s else s
  endSlot t i (streamCheck d) false s

/-- STREAM_DESC_START (R90, R91): the engine starts the next queued slot. A fenced partition starts none (R396). -/
def execStreamDescStart (t : Nat) (s : State) : Host.Outcome State Fault Refusal :=
  ok (let x := tl s t
    match x.running, x.slotQ with
    | none, i :: r =>
      let d := mget {} x.slots i
      if fenceState s (t / 128) ≠ 0 then s
      else if streamCheck d ≠ 0 then refuseSlot t i d (onTl t (fun y => { y with slotQ := r }) s)
      else if isLocalCopy t d then onTl t (fun y => { y with slotQ := r, running := some i }) s
      else startCopy t i d s
    | _, _ => s)

/-- An access of a tile's stream engine to the tile's own SRAM. -/
def streamAccess (s : State) (t : Nat) (op : AccOp) (a : Nat) (bs : List Byte) (n : Nat) : Access :=
  { op := op, addr := a, len := n, data := bs, agent := t, tenant := tileTenant s t, since := now s }

/-- One row of slot `i` copied within the tile's SRAM: the first error so far, whether the channel that covers it failed,
and the state (R91, R143, R152). What it writes is sure to read new once the slot's end is observed (R70). -/
def copyRow (t i : Nat) (d : Desc) (chan : Option Nat) (r : Nat × Nat) (p : Nat × State) : Nat × State :=
  let s := p.2
  let from_ := streamAccess s t .read r.1 [] d.rowLen
  match engineReach s from_ with
  | .found a =>
    let got := engineRead from_ a s
    let dest := { streamAccess s t .write r.2 got.1 d.rowLen with poison := got.2.1 }
    (match engineReach got.2.2 dest with
     | .found b =>
       let off := r.2 - sramAddr t 0
       let old := memBytes got.2.2 (sramAddr t off) d.rowLen
       let w := engineWrite dest b got.2.2
       let w := (w.1, unsettle t off old (.slot i) w.2)
       let s := match chan with
         | some c =>
           if cvuState w.2 c ≠ 1 then w.2
           else if got.2.1 then cvuError c w.2 else cvuFeed c (r.2 - d.w1.toNat) got.1 w.2
         | none => w.2
       (if p.1 = 0 ∧ (got.2.1 ∨ w.1) then stPoisoned else p.1, s)
     | .refused e => (if p.1 = 0 then e else p.1, violation (accOcc got.2.2 dest e) r.2 got.2.2)
     | .waits => (p.1, got.2.2))
  | .refused e => (if p.1 = 0 then e else p.1, violation (accOcc s from_ e) r.1 s)
  | .waits => p

/-- Whether a bank that a local descriptor uses makes it wait (R156, R159). -/
def streamWaits (s : State) (t : Nat) (d : Desc) : Bool :=
  d.rowList.any (fun r =>
    engineReach s (streamAccess s t .read r.1 [] d.rowLen) == .waits
      || engineReach s (streamAccess s t .write r.2 [] d.rowLen) == .waits)

/-- The whole copy of a local descriptor, with its channel from start to result (R91, R318, R324). -/
def copyLocal (t i : Nat) (d : Desc) (s : State) : State :=
  let take := match d.channel with
    | some c => if cvuFree s c (tileTenant s t) then some c else none
    | none => none
  let s := match d.channel, take with
    | some _, some c => cvuStart c d.w1.toNat d.size none s
    | some c, none => wrB (Reg.cvuStatus c) 5 true s
    | none, _ => s
  let r := d.rowList.foldl (fun p row => copyRow t i d take row p) (0, s)
  match take with
  | none => endSlot t i r.1 false r.2
  | some c =>
    if cvuState r.2 c ≠ 1 then endSlot t i r.1 false r.2
    else if r.1 ≠ 0 then endSlot t i r.1 false (cvuError c r.2)
    else endSlot t i r.1 true (cvuFinish c r.2)

/-- STREAM_DESC_DONE (R90, R91): a copy within the tile's SRAM ends and its status is recorded. Any other descriptor
ends with its completion entry. -/
def execStreamDescDone (t : Nat) (s : State) : Host.Outcome State Fault Refusal :=
  ok (match (tl s t).running with
    | none => s
    | some i =>
      let d := mget {} (tl s t).slots i
      if !isLocalCopy t d ∨ streamWaits s t d then s else copyLocal t i d s)

end Sys2Proof.Machine
end

