-- ==== Sys2Proof/Machine/Jobs.lean ====
section
/-! DEFINITION. Job packets and program entry (R95–R99). -/

namespace Sys2Proof.Machine

/-- The front entry of a job queue, none while an earlier FORM_GANG of the queue still fetches its list: job packets
begin in ring order (notes/assumptions/40.md). -/
def frontJob (s : State) (q : Nat) : Option Entry :=
  if qEnabled s q && qKind s q == 0
      && !s.cpl.any (fun kv => kv.2.st == .opened && kv.2.kind == .members
        && (match kv.2.sink with | .queue q' _ => q' == q | _ => false)) then (hq s q).fetched.head?
  else none

/-- GANG of a job packet (R97). -/
def Entry.gang (e : Entry) : Nat := fld (e.word 0) 40 32
/-- COUNT of a job packet (R97). -/
def Entry.count (e : Entry) : Nat := fld (e.word 2) 13 0

/-- Whether a gang ID names a current gang whose tiles all belong to a tenant (R99). An absent tile is in no gang. -/
def gangOk (s : State) (g tenant : Nat) : Bool :=
  leaderOf s g == g && (membersOf s g).all (fun t => tileTenant s t == tenant && tileState s t != 6)

/-- Whether a gang is busy with an earlier job (R99). -/
def gangBusy (s : State) (g : Nat) : Bool :=
  (jobOf s g).isSome || (membersOf s g).any (fun t => tileState s t != 0)

/-- Whether a RUN packet's fields are valid (R99). -/
def runOk (s : State) (e : Entry) : Bool :=
  let load := bit (e.word 0) 49
  (!load || decide (1 ≤ e.count ∧ e.count ≤ 8192))
    && decide (fld (e.word 0) 12 0 < (if load then e.count else (tl s e.gang).imemLen))

/-- The members of a gang in a run state that waits for a job's start (R101). -/
def gangWaits (g st : Nat) (s : State) : State :=
  (membersOf s g).foldl (fun s t => s |> setTileState t st |> wrF (Reg.tileStatus t) 15 12 (if st = 2 then 8 else 0)) s

/-- The job that a RUN packet describes. -/
def jobFor (s : State) (q : Nat) (e : Entry) (st : Nat) : Job :=
  { q := q, idx := e.idx, tenant := qTenant s q, leader := e.gang, st := st, entry := fld (e.word 0) 12 0,
    startTime := (e.word 3).toNat, startValid := bit (e.word 0) 48,
    args := [e.word 4, e.word 5, e.word 6, e.word 7], loadDone := now s, count := e.count }

/-- A job joins the running ones; an update of the firmware that it meets is given up (R449). -/
def addJob (j : Job) (s : State) : State :=
  recheckFw { s with host := { s.host with jobs := s.host.jobs ++ [j] } }

/-- Starts the image copy of a RUN packet (R98): its completion-table entry is `k`. -/
def loadImage (q : Nat) (e : Entry) (k : Nat) (s : State) : State :=
  let tenant := qTenant s q
  let n := 8 * e.count
  let s := s |> popEntry q |> gangWaits e.gang 1 |> addJob (jobFor s q e 1)
    |> openTag k { kind := .image, sink := .job e.gang, tenant := tenant, target := e.word 1 }
  match targetOf s (e.word 1) false with
  | .bad st v => refuseTag k st v s
  | _ =>
    if (e.word 1).toNat % 8 ≠ 0 then refuseTag k stMisaligned false s
    else goGet (dmaAgent tenant) tenant (e.word 1) 0 n k s

/-- RUN (R98, R99): the front packet of a job queue. An unknown type is BAD_JOB. A busy gang holds it and every later
packet of the queue. -/
def execRun (q : Nat) (s : State) : Host.Outcome State Fault Refusal :=
  ok (match frontJob s q with
    | none => s
    | some e =>
      if e.type ≠ 1 ∧ e.type ≠ 2 ∧ e.type ≠ 3 then refuseEntry q e.idx stBadJob s
      else if e.type ≠ 1 then s
      else if !gangOk s e.gang (qTenant s q) then refuseEntry q e.idx stNoGang s
      else if gangBusy s e.gang then s
      else if !runOk s e then refuseEntry q e.idx stBadJob s
      else if bit (e.word 0) 49 then
        (match pickTag (qTenant s q) s with
         | (none, _) => s
         | (some k, s) => loadImage q e k s)
      else s |> popEntry q |> gangWaits e.gang 2 |> addJob (jobFor s q e 2))

/-- FORM_GANG (R95, R97, R99): the member list is fetched first. -/
def execFormGang (q : Nat) (s : State) : Host.Outcome State Fault Refusal :=
  ok (match frontJob s q with
    | none => s
    | some e =>
      if e.type ≠ 2 then s
      else if e.count = 0 ∨ 512 < e.count then refuseEntry q e.idx stBadJob s
      else
        match pickTag (qTenant s q) s with
        | (none, _) => s
        | (some k, s) =>
          let tenant := qTenant s q
          let s := s |> popEntry q |> openTag k
            { kind := .members, sink := .queue q e.idx, tenant := tenant, target := e.word 1, items := e.count }
          match targetOf s (e.word 1) false with
          | .bad st v => refuseTag k st v s
          | _ =>
            if (e.word 1).toNat % 8 ≠ 0 then refuseTag k stMisaligned false s
            else goGet (dmaAgent tenant) tenant (e.word 1) 0 (ceilDiv (2 * e.count) 8 * 8) k s)

/-- DISSOLVE_GANG (R94, R97, R99). -/
def execDissolveGang (q : Nat) (s : State) : Host.Outcome State Fault Refusal :=
  ok (match frontJob s q with
    | none => s
    | some e =>
      if e.type ≠ 3 then s
      else if !gangOk s e.gang (qTenant s q) then refuseEntry q e.idx stNoGang s
      else if gangBusy s e.gang then s
      else
        let r := dissolve (qTenant s q) e.gang s
        refuseEntry q e.idx (if r.1 then stOk else stNoGang) r.2)

-- Entry (R98)

/-- What an earlier job's slow writers leave unsettled for the next: the matrix unit's cycles go on, and the end of the
earlier job has shown every other writer (R70, R99). -/
def carryUnsettled (s : State) (t : Nat) (l : List Unsettled) : List Unsettled :=
  let c := (rd s (Reg.cycles t)).toNat
  l.filterMap (fun u =>
    match u.till with
    | .cycles ready from_ lat => if stillOld s t c u.till then some { u with till := .cycles (ready - c) from_ lat } else none
    | _ => none)

/-- A tile as a job finds it: everything cleared but its instruction memory, its arguments in g1–g4, the time of entry
in g5, its generator loaded from the seed (R98, R125). -/
def freshTile (s : State) (t : Nat) (args : List Word) (time : Word) : Tile :=
  let x := tl s t
  let y : Tile := { imem := x.imem, imemLen := x.imemLen, gen := seedState (rd s (Reg.srSeed t)), scrub := x.scrub,
                    beats := x.beats, ballast := x.ballast, unsettled := carryUnsettled s t x.unsettled }
  (args.zipIdx.foldl (fun y a => setG (a.2 + 1) a.1 y) y) |> setG 5 time

/-- One member enters at an index, its windows clear of sticky bits (R98, R100, R101, R138, R139, R369). -/
def enterTile (j : Job) (time : Nat) (t : Nat) (s : State) : State :=
  s |> setTl t (freshTile s t j.args (wd time)) |> setTileState t 3 |> wrF (Reg.tileStatus t) 15 12 0
    |> wrF (Reg.tileStatus t) 44 32 j.entry |> wrReg (Reg.cycles t) 0 |> wrF (Reg.arithStatus t) 15 8 0
    |> governRelease t time

/-- The earliest tick at which a job may enter (R98). -/
def entryTick (j : Job) : Nat := max (if j.startValid then j.startTime else 0) j.loadDone

/-- JOB_ENTRY (R98): every member of a loaded gang enters. While a resynchronisation copies, the jobs of the twinned
tenant are held (R422). -/
def execJobEntry (leader : Nat) (s : State) : Host.Outcome State Fault Refusal :=
  ok (match jobOf s leader with
    | none => s
    | some j =>
      if j.st ≠ 2 ∨ (s.twin.holdJobs && isTwinned s j.tenant) = true then s
      else
        let s := clockTo (entryTick j) s
        let late := j.startValid && decide (j.startTime < now s)
        let s := onJob leader (fun x => { x with st := 3, isLate := late }) s
        (membersOf s leader).foldl (fun s t => enterTile j (now s) t s) s)

end Sys2Proof.Machine
end

