-- ==== Sys2Proof/Machine/LocalMem.lean ====
section
/-! DEFINITION. Loads, stores and atomics of a tile on its own SRAM (R79, R147–R149). -/

namespace Sys2Proof.Machine

/-- The tile offset of a memory instruction: A + OFF (R79). -/
def memOff (s : State) (t : Nat) (x : MArgs) : Nat := (gv s t x.a + x.off.signExtend 64).toNat

/-- Bytes of an access: 1, 2, 4 or 8 (R79). -/
def memSize (x : MArgs) : Nat := 2 ^ x.size.toNat

/-- A value of `n` bytes in a register: zero-extended, or sign-extended when SX = 1 (R79). -/
def extend (sx : Bool) (n v : Nat) : Word :=
  if sx then BitVec.ofInt 64 (signedOf (8 * n) v) else wd (v % 2 ^ (8 * n))

/-- A store that is aligned, in its bank and permitted goes on; else its fault (R79). -/
def memAccess (t port off n align : Nat) (body : State → State) (s : State) : State :=
  if off % align ≠ 0 then tileFault t 5 s else withLocal t port [(off, n)] true false body s

/-- LD (R79). -/
def execLd (t : Nat) (x : MArgs) (s : State) : Host.Outcome State Fault Refusal :=
  ok (issue t x.pn x.pg (decide (x.rsv ≠ 0 ∨ x.sel = 3)) [x.a.toNat] (fun s =>
    let off := memOff s t x
    if off % memSize x ≠ 0 then tileFault t 5 s
    else withLoad t 4 off (memSize x) (fun bs s => putG t x.d (extend x.sx (memSize x) (leNat bs)) s) s) s)

/-- ST (R79): the low bytes of D, through the view that SEL names. -/
def execSt (t : Nat) (x : MArgs) (s : State) : Host.Outcome State Fault Refusal :=
  ok (issue t x.pn x.pg (decide (x.rsv ≠ 0 ∨ x.sel = 3)) [x.a.toNat, x.d.toNat] (fun s =>
    memAccess t 4 (memOff s t x) (memSize x) (memSize x) (fun s =>
      s |> localStore t x.sel.toNat (memOff s t x) (leBytes (memSize x) (gv s t x.d).toNat) |> advance t) s) s)

/-- An atomic of a tile (R79, R149): the bank's old value goes to D; its result is stored through the view that SEL
names (R28). -/
def localAtomic (t : Nat) (x : MArgs) (op n : Nat) (compare : Word) (s : State) : State :=
  let off := memOff s t x
  if off % n ≠ 0 then tileFault t 5 s
  else
    withLocal t 4 [(off, n)] true true (fun s =>
      if poisonedIn s (sramAddr t off) n ≠ [] then
        s |> noteBankErrors t off n (tileOcc s t off true stPoisoned) |> tileFault t 9
      else
        let r := ownBytes t off n s
        let old := leNat r.1
        let new := atomicResult op n old (gv s t x.d).toNat compare.toNat
        r.2 |> localStore t x.sel.toNat off (leBytes n new) |> putG t x.d (extend x.sx n old)) s

/-- ATM.ADD (R79, R149): ATYPE selects int32, int64 or FP32. -/
def execAtmAdd (t : Nat) (x : MArgs) (s : State) : Host.Outcome State Fault Refusal :=
  ok (issue t x.pn x.pg (decide (x.rsv ≠ 0 ∨ x.sel = 3 ∨ x.atype = 3)) [x.a.toNat, x.d.toNat]
    (localAtomic t x (0x10 + x.atype.toNat) (if x.atype = 1 then 8 else 4) 0) s)

/-- ATM.SWP (R79, R149). -/
def execAtmSwp (t : Nat) (x : MArgs) (s : State) : Host.Outcome State Fault Refusal :=
  ok (issue t x.pn x.pg (decide (x.rsv ≠ 0 ∨ x.sel = 3 ∨ x.size.toNat < 2)) [x.a.toNat, x.d.toNat]
    (localAtomic t x 0x13 (memSize x) 0) s)

/-- ATM.CAS (R79, R149): the compare value is B. -/
def execAtmCas (t : Nat) (x : MArgs) (s : State) : Host.Outcome State Fault Refusal :=
  ok (issue t x.pn x.pg (decide (x.rsv ≠ 0 ∨ x.sel = 3 ∨ x.size.toNat < 2)) [x.a.toNat, x.d.toNat, x.b.toNat]
    (fun s => localAtomic t x 0x14 (memSize x) (gv s t x.b) s) s)

/-- VLD (R79): 512 bytes into a vector register. A load reads the same through every view (R28). -/
def execVld (t : Nat) (x : MArgs) (s : State) : Host.Outcome State Fault Refusal :=
  ok (issue t x.pn x.pg (decide (x.rsv ≠ 0 ∨ x.sel = 3)) [x.a.toNat] (fun s =>
    let off := memOff s t x
    if off % 64 ≠ 0 then tileFault t 5 s
    else withLoad t 3 off 512 (fun bs s =>
      s |> onTl t (setV x.d.toNat (BitVec.ofNat 4096 (leNat bs))) |> advance t) s) s)

/-- VST (R79): 512 bytes from a vector register, through the view that SEL names. -/
def execVst (t : Nat) (x : MArgs) (s : State) : Host.Outcome State Fault Refusal :=
  ok (issue t x.pn x.pg (decide (x.rsv ≠ 0 ∨ x.sel = 3)) [x.a.toNat] (fun s =>
    memAccess t 3 (memOff s t x) 512 64 (fun s =>
      s |> localStore t x.sel.toNat (memOff s t x) (leBytes 512 (vreg (tl s t) x.d.toNat).toNat) |> advance t) s) s)

end Sys2Proof.Machine
end

