-- ==== Sys2Proof/Machine/Vector.lean ====
section
/-! DEFINITION. The vector unit (R133–R137). -/

namespace Sys2Proof.Machine

/-- Lane `i` of width `w` of a vector register. -/
def lane (v : BitVec 4096) (w i : Nat) : Nat := v.toNat / 2 ^ (w * i) % 2 ^ w

/-- Format, lane width and lane count of FMT (R133). -/
def vfmt (fmt : Nat) : Fmt := if fmt = 1 then fmtOf 1 else fmtOf 0
/-- See `vfmt`. -/
def vwidth (fmt : Nat) : Nat := if fmt = 1 then 16 else 32
/-- See `vfmt`. -/
def vlanes (fmt : Nat) : Nat := if fmt = 1 then 256 else 128

/-- The value of a lane. -/
def laneNum (fmt : Nat) (v : BitVec 4096) (i : Nat) : Num := decodeFp (vfmt fmt) (lane v (vwidth fmt) i)

/-- A vector register from its lanes. -/
def vpack (w : Nat) (l : List Nat) : BitVec 4096 := BitVec.ofNat 4096 (packElems w l)

/-- Sets flags of TILE.ARITH_STATUS (R133, R139). -/
def raiseFlags (t : Nat) (f : AFlags) (s : State) : State :=
  if f.mask = 0 then s else orReg (Reg.arithStatus t) f.mask s

/-- The flags of a list of lane results together. -/
def allFlags (l : List (Nat × AFlags)) : AFlags := l.foldl (fun a r => a.or r.2) {}

/-- A vector instruction: reserved bits and undefined FN values are illegal, a format it does not take raises
ILLEGAL_FORMAT (R74, R76, R134). -/
def vissue (t : Nat) (x : SArgs) (illegal badFmt : Bool) (body : State → State) (s : State) : State :=
  issue t x.pn x.pg (decide (x.rsv ≠ 0) || illegal) [] (fun s => if badFmt then tileFault t 2 s else body s) s

/-- FMT names neither FP32 nor BF16 (R76). -/
def badVFmt (x : SArgs) : Bool := decide (2 ≤ x.fmt.toNat)

/-- Writes the lanes of D with their flags, and advances. -/
def vput (t : Nat) (d : BitVec 5) (w : Nat) (l : List (Nat × AFlags)) (s : State) : State :=
  s |> onTl t (setV d.toNat (vpack w (l.map (·.1)))) |> raiseFlags t (allFlags l) |> advance t

/-- A lanewise operation of OP 0x60 (R134): `f` takes the format and the lanes of A, B, C, D and lane 0 of B. -/
def vlanewise (t : Nat) (x : SArgs) (f : Fmt → Num → Num → Num → Num → Num → Nat × AFlags) (s : State) : State :=
  vissue t x false (badVFmt x) (fun s =>
    let k := x.fmt.toNat
    let y := tl s t
    let a := vreg y x.a.toNat
    let b := vreg y x.b.toNat
    let c := vreg y x.c.toNat
    let d := vreg y x.d.toNat
    let b0 := laneNum k b 0
    vput t x.d (vwidth k) ((List.range (vlanes k)).map (fun i =>
      f (vfmt k) (laneNum k a i) (laneNum k b i) (laneNum k c i) (laneNum k d i) b0)) s) s

/-- VADD (R134). -/
def execVadd (t : Nat) (x : SArgs) (s : State) : Host.Outcome State Fault Refusal :=
  ok (vlanewise t x (fun f a b _ _ _ => addBits f a b) s)

/-- VSUB (R134). -/
def execVsub (t : Nat) (x : SArgs) (s : State) : Host.Outcome State Fault Refusal :=
  ok (vlanewise t x (fun f a b _ _ _ => addBits f a (negNum b)) s)

/-- VMUL (R134). -/
def execVmul (t : Nat) (x : SArgs) (s : State) : Host.Outcome State Fault Refusal :=
  ok (vlanewise t x (fun f a b _ _ _ => mulBits f a b) s)

/-- VFMA (R133, R134): rounds once. -/
def execVfma (t : Nat) (x : SArgs) (s : State) : Host.Outcome State Fault Refusal :=
  ok (vlanewise t x (fun f a b c _ _ => fmaBits f a b c) s)

/-- VMAX (R134). -/
def execVmax (t : Nat) (x : SArgs) (s : State) : Host.Outcome State Fault Refusal :=
  ok (vlanewise t x (fun f a b _ _ _ => encodeRne f false (maxNum a b)) s)

/-- VMIN (R134). -/
def execVmin (t : Nat) (x : SArgs) (s : State) : Host.Outcome State Fault Refusal :=
  ok (vlanewise t x (fun f a b _ _ _ => encodeRne f false (minNum a b)) s)

/-- VMAXSUB (R134): A − B[0]. -/
def execVmaxsub (t : Nat) (x : SArgs) (s : State) : Host.Outcome State Fault Refusal :=
  ok (vlanewise t x (fun f a _ _ _ b0 => addBits f a (negNum b0)) s)

/-- VRSUM (R133, R134): D × B[0] + A, rounded once. -/
def execVrsum (t : Nat) (x : SArgs) (s : State) : Host.Outcome State Fault Refusal :=
  ok (vlanewise t x (fun f a _ _ d b0 => fmaBits f d b0 a) s)

-- Conversions (R135)

/-- The source half FN[5:4] and the target code FN[3:0] of a conversion (R134). -/
def cvtHalf (x : SArgs) : Nat := x.fn.toNat / 16 % 4
/-- See `cvtHalf`. -/
def cvtTarget (x : SArgs) : Nat := x.fn.toNat % 16

/-- The 128 source lanes of a conversion (R135). -/
def cvtSource (x : SArgs) (v : BitVec 4096) : List Num :=
  (List.range 128).map (fun i => laneNum x.fmt.toNat v (128 * cvtHalf x + i))

/-- The packed result of a conversion and its flags (R135): MX targets hold 128 elements, then 4 scale bytes. -/
def convert (c : Nat) (sat : Bool) (xs : List Num) : BitVec 4096 × AFlags :=
  if isMxFmt c then
    let bl := (List.range 4).map (fun i => convMxBlock c ((xs.drop (32 * i)).take 32))
    (BitVec.ofNat 4096 (packElems (widthOf c) (bl.flatMap (fun b => b.1))
        + 2 ^ (128 * widthOf c) * packElems 8 (bl.map (fun b => b.2.1))),
     bl.foldl (fun a b => a.or b.2.2) {})
  else
    let l := xs.map (fun y => if isIntFmt c then convInt (widthOf c) y else convFp c sat y)
    (vpack (widthOf c) (l.map (·.1)), allFlags l)

/-- A VCVT (R135). -/
def vcvt (t : Nat) (x : SArgs) (base : Nat) (sat : Bool) (s : State) : State :=
  vissue t x
    (decide (x.fn.toNat < base ∨ base + 0x1C < x.fn.toNat) || decide (x.fmt = 0 ∧ cvtHalf x ≠ 0))
    (badVFmt x || decide (0xD ≤ cvtTarget x)) (fun s =>
      let r := convert (cvtTarget x) sat (cvtSource x (vreg (tl s t) x.a.toNat))
      s |> onTl t (setV x.d.toNat r.1) |> raiseFlags t r.2 |> advance t) s

/-- VCVT.S (R135): converts with saturation. -/
def execVcvtS (t : Nat) (x : SArgs) (s : State) : Host.Outcome State Fault Refusal := ok (vcvt t x 0x40 true s)

/-- VCVT.N (R135): converts without saturation. -/
def execVcvtN (t : Nat) (x : SArgs) (s : State) : Host.Outcome State Fault Refusal := ok (vcvt t x 0x80 false s)

-- Wide partials (R126–R130, R134)

/-- VWADD (R128, R134). DESIGN CHOICE (notes/assumptions/48.md): opposite infinities set INVALID, by R139. -/
def execVwadd (t : Nat) (x : SArgs) (s : State) : Host.Outcome State Fault Refusal :=
  ok (vissue t x false (decide (x.fmt ≠ 0)) (fun s =>
    let a := vreg (tl s t) x.a.toNat
    let b := vreg (tl s t) x.b.toNat
    vput t x.d 128 ((List.range 32).map (fun i =>
      let p := Wide.ofBits (lane a 128 i)
      let q := Wide.ofBits (lane b 128 i)
      let r := p.add q
      (r.1.toBits, { inexactWindow := r.2, invalid := decide (r.1 = .nan ∧ p ≠ .nan ∧ q ≠ .nan) }))) s) s)

/-- VWRND (R130, R134). -/
def execVwrnd (t : Nat) (x : SArgs) (s : State) : Host.Outcome State Fault Refusal :=
  ok (vissue t x false (decide (x.fmt ≠ 0)) (fun s =>
    let a := vreg (tl s t) x.a.toNat
    vput t x.d 32 ((List.range 32).map (fun i => (Wide.ofBits (lane a 128 i)).round (fmtOf 0))) s) s)

/-- VWCVT (R129, R134). -/
def execVwcvt (t : Nat) (x : SArgs) (s : State) : Host.Outcome State Fault Refusal :=
  ok (vissue t x false (decide (x.fmt ≠ 0)) (fun s =>
    let a := vreg (tl s t) x.a.toNat
    let ap := signedOf 14 (lane (vreg (tl s t) x.b.toNat) 32 0)
    vput t x.d 128 ((List.range 32).map (fun i =>
      let r := Wide.ofNum ap (laneNum 0 a i)
      (r.1.toBits, { inexactWindow := r.2 }))) s) s)

-- Transcendental functions (R136)

/-- 2^(2^−k) for k = 1 to n, in units of 2^−128. -/
def exp2Roots : Nat → Nat → List Nat
  | 0, _ => []
  | n + 1, c => let r := isqrt (c * 2 ^ 128) 130 0; r :: exp2Roots n r

/-- 2^(f × 2^−64) for f < 2^64, in units of 2^−128. -/
def exp2Frac (f : Nat) : Nat :=
  (exp2Roots 64 (2 * 2 ^ 128)).zipIdx.foldl (fun a c => if f.testBit (63 - c.2) then a * c.1 / 2 ^ 128 else a) (2 ^ 128)

/-- Binary digits of log2 of y (in units of 2^−128, between 1 and 2), as a number below 2^n. -/
def log2Frac : Nat → Nat → Nat → Nat
  | 0, _, acc => acc
  | n + 1, y, acc =>
    let z := y * y / 2 ^ 128
    if 2 * 2 ^ 128 ≤ z then log2Frac n (z / 2) (2 * acc + 1) else log2Frac n z (2 * acc)

/-- ±m × 2^e scaled to an integer number of 2^−k, rounded down. -/
def floorAt (neg : Bool) (m : Nat) (e : Int) (k : Nat) : Int :=
  let x : Int := if neg then -(m : Int) else m
  if 0 ≤ e + k then x * 2 ^ (e + k).toNat else x / 2 ^ (-(e + k)).toNat

/-- The exact result of a transcendental function on a finite non-zero input, to within far less than an ulp: sign,
magnitude as m × 2^e (R136). -/
def approx (fn : Nat) (neg : Bool) (m : Nat) (e : Int) : Bool × Nat × Int :=
  if fn = 0 then
    (if leadExp m e ≥ 8 then (false, if neg then 0 else 1, 300)
     else
       let v := floorAt neg m e 64
       (false, exp2Frac (v % 2 ^ 64).toNat, v / 2 ^ 64 - 128))
  else if fn = 1 then
    let k := Nat.log2 m
    let l : Int := (e + k) * 2 ^ 100 + log2Frac 100 (m * 2 ^ (128 - k)) 0
    (decide (l < 0), l.natAbs, -100)
  else if fn = 2 then (neg, 2 ^ 128 / m, -128 - e)
  else
    let odd := e % 2 ≠ 0
    let m' := if odd then 2 * m else m
    let e' := if odd then e - 1 else e
    (false, isqrt (2 ^ 160 / m') 80 0, -80 - e' / 2)

/-- Whether an FP32 magnitude lies within 2 ulp of m × 2^e, an ulp being that of m × 2^e (R136). Infinity counts as the
value after the largest finite one. -/
def withinTwoUlp (m : Nat) (e : Int) (r : Nat) : Bool :=
  let f := fmtOf 0
  let u := (if m = 0 then f.emin else max (leadExp m e) f.emin) - f.fb
  let v : Nat × Int := match decodeFp f r with
    | .fin _ a b => (a, b)
    | .zero _ => (0, u)
    | _ => (1, 128)
  let z := min e (min u v.2)
  let d : Int := (m * 2 ^ (e - z).toNat : Nat) - (v.1 * 2 ^ (v.2 - z).toNat : Nat)
  decide (d.natAbs ≤ 2 * 2 ^ (u - z).toNat)

/-- A result within the bound that R136 sets on its error: the free value where it is within 2 ulp of the exact result,
else the exact result rounded to nearest (notes/assumptions/8.md). -/
def boundedResult (fn : Nat) (bits : Nat) (neg : Bool) (m : Nat) (e : Int) : Nat :=
  let f := fmtOf 0
  let a := approx fn neg m e
  let q := if a.2.1 = 0 then 0 else (roundMag f a.2.1 a.2.2).mag
  let r := min ((Config.transcendental fn (BitVec.ofNat 32 bits)).toNat % 2 ^ 31) (f.maxBits + 1)
  f.sign a.1 + (if withinTwoUlp a.2.1 a.2.2 r then r else min q (f.maxBits + 1))

/-- Whether a finite value is an integer from lo to hi, and which. -/
def intIn (lo hi : Int) (neg : Bool) (m : Nat) (e : Int) : Option Int :=
  if leadExp m e ≥ 9 then none
  else
    let v := floorAt neg m e 0
    if decide (0 ≤ e ∨ m % 2 ^ (-e).toNat = 0) && decide (lo ≤ v ∧ v ≤ hi) then some v else none

/-- The FP32 result of a transcendental function (R136), INVALID apart no flag. -/
def transFp32 (fn bits : Nat) : Nat × Bool :=
  let f := fmtOf 0
  match decodeFp f bits with
  | .nan => (f.nanBits, false)
  | .zero n => (if fn = 0 then (encodeRne f false (.fin false 1 0)).1 else f.infBits (if fn = 1 then true else n), false)
  | .inf n =>
    if fn = 0 then (if n then 0 else f.infBits false, false)
    else if fn = 2 then (f.sign n, false)
    else if n then (f.nanBits, true) else (if fn = 1 then f.infBits false else 0, false)
  | .fin n m e =>
    if (fn = 1 ∨ fn = 3) ∧ n then (f.nanBits, true)
    else if fn = 0 ∧ !n ∧ leadExp m e ≥ 7 then (f.infBits false, false)
    else if fn = 0 then
      (match intIn (-149) 127 n m e with
       | some k => ((encodeRne f false (.fin false 1 k)).1, false)
       | none => (boundedResult fn bits n m e, false))
    else if fn = 1 ∧ intIn 1 1 n m e = some 1 then (0, false)
    else (boundedResult fn bits n m e, false)

/-- Whether the exact result is non-zero and below the smallest normal magnitude (R123, R136). -/
def transTiny (fn : Nat) (x : Num) : Bool :=
  match x with
  | .fin n m e =>
    if fn = 0 then n && decide (126 * 2 ^ 160 < -(floorAt n m e 160))
    else if fn = 2 then decide (126 < leadExp m e ∨ (leadExp m e = 126 ∧ 2 ^ Nat.log2 m ≠ m))
    else false
  | _ => false

/-- Whether a written value is exactly the result (R123, R136): 2^x, or 1 ÷ x. -/
def transExact (fn : Nat) (x r : Num) : Bool :=
  match x with
  | .fin n m e =>
    if fn = 0 then
      (match intIn (-200) 200 n m e with
       | some k => decide ((addNum r (.fin true 1 k)).1 = .zero false)
       | none => false)
    else if fn = 2 then decide ((addNum (mulNum r x).1 (.fin true 1 0)).1 = .zero false)
    else true
  | _ => true

/-- One lane of a transcendental function: the FP32 result, rounded once to BF16 for a BF16 lane, and its flags
(R133, R136). A result that became infinite from a finite non-zero operand sets OVERFLOW. -/
def transLane (fn fmt bits : Nat) : Nat × AFlags :=
  let x := decodeFp (vfmt fmt) bits
  let r := transFp32 fn (if fmt = 1 then bits * 2 ^ 16 else bits)
  let b := if fmt = 1 then (encodeRne (fmtOf 1) false (decodeFp (fmtOf 0) r.1)).1 else r.1
  let y := decodeFp (vfmt fmt) b
  let infinite := match y with | .inf _ => true | _ => false
  (b, { invalid := r.2, overflow := infinite && x.isFin, underflow := transTiny fn x && !transExact fn x y })

/-- A transcendental instruction. -/
def vtrans (t : Nat) (x : SArgs) (fn : Nat) (s : State) : State :=
  vissue t x false (badVFmt x) (fun s =>
    let k := x.fmt.toNat
    let a := vreg (tl s t) x.a.toNat
    vput t x.d (vwidth k) ((List.range (vlanes k)).map (fun i => transLane fn k (lane a (vwidth k) i))) s) s

/-- VEXP2 (R136). -/
def execVexp2 (t : Nat) (x : SArgs) (s : State) : Host.Outcome State Fault Refusal := ok (vtrans t x 0 s)

/-- VLOG2 (R136). -/
def execVlog2 (t : Nat) (x : SArgs) (s : State) : Host.Outcome State Fault Refusal := ok (vtrans t x 1 s)

/-- VRCP (R136). -/
def execVrcp (t : Nat) (x : SArgs) (s : State) : Host.Outcome State Fault Refusal := ok (vtrans t x 2 s)

/-- VRSQRT (R136). -/
def execVrsqrt (t : Nat) (x : SArgs) (s : State) : Host.Outcome State Fault Refusal := ok (vtrans t x 3 s)

-- Reductions (R137)

/-- Adjacent pairs of a list combined. -/
def pairLanes (f : Nat × AFlags → Nat × AFlags → Nat × AFlags) : List (Nat × AFlags) → List (Nat × AFlags)
  | a :: b :: r => f a b :: pairLanes f r
  | l => l

/-- The root of the binary tree of R137: `n` levels of adjacent pairs. -/
def treeRoot (f : Nat × AFlags → Nat × AFlags → Nat × AFlags) : Nat → List (Nat × AFlags) → Nat × AFlags
  | 0, l => l.headD (0, {})
  | n + 1, l => treeRoot f n (pairLanes f l)

/-- An FP32 addition of the tree, with its flags. -/
def treeAdd (a b : Nat × AFlags) : Nat × AFlags :=
  let r := addBits (fmtOf 0) (decodeFp (fmtOf 0) a.1) (decodeFp (fmtOf 0) b.1)
  (r.1, (a.2.or b.2).or r.2)

/-- Writes one value to every lane of D (R137). -/
def vsplat (t : Nat) (x : SArgs) (r : Nat × AFlags) (s : State) : State :=
  let k := x.fmt.toNat
  vput t x.d (vwidth k) ((List.range (vlanes k)).map (fun _ => r)) s

/-- VREDADD (R137): a fixed binary tree in FP32; for BF16 the root is rounded once. -/
def execVredadd (t : Nat) (x : SArgs) (s : State) : Host.Outcome State Fault Refusal :=
  ok (vissue t x false (badVFmt x) (fun s =>
    let k := x.fmt.toNat
    let a := vreg (tl s t) x.a.toNat
    let l := (List.range (vlanes k)).map (fun i =>
      ((if k = 1 then lane a 16 i * 2 ^ 16 else lane a 32 i), ({} : AFlags)))
    let r := treeRoot treeAdd (if k = 1 then 8 else 7) l
    let b := if k = 1 then encodeRne (fmtOf 1) false (decodeFp (fmtOf 0) r.1) else (r.1, {})
    vsplat t x (b.1, r.2.or b.2) s) s)

/-- A reduction by maximum or minimum. -/
def vredBy (t : Nat) (x : SArgs) (f : Num → Num → Num) (s : State) : State :=
  vissue t x false (badVFmt x) (fun s =>
    let k := x.fmt.toNat
    let a := vreg (tl s t) x.a.toNat
    vsplat t x (encodeRne (vfmt k) false
      (((List.range (vlanes k)).map (laneNum k a)).foldl f (laneNum k a 0))) s) s

/-- VREDMAX (R137). -/
def execVredmax (t : Nat) (x : SArgs) (s : State) : Host.Outcome State Fault Refusal := ok (vredBy t x maxNum s)

/-- VREDMIN (R137). -/
def execVredmin (t : Nat) (x : SArgs) (s : State) : Host.Outcome State Fault Refusal := ok (vredBy t x minNum s)

end Sys2Proof.Machine
end

