-- ==== Sys2Proof/Machine/Matrix.lean ====
section
/-! DEFINITION. The matrix unit (R80, R81, R109–R127). -/

namespace Sys2Proof.Machine

/-- A format code of the matrix unit (R76). -/
def matFmt (c : Nat) : Bool := decide (1 ≤ c ∧ c ≤ 0xC)

/-- Two formats that one matrix instruction may combine (R76). -/
def pairOk (a w : Nat) : Bool := matFmt a && matFmt w && isIntFmt a == isIntFmt w

/-- An operand in SRAM: format, its elements' bytes, the scale bytes, how many vectors, and elements per vector. -/
structure Operand where
  fmt : Nat
  elems : List Byte
  scales : List Byte
  vecs : Nat
  len : Nat
deriving DecidableEq, Repr

/-- Bytes of the elements and of the scales of `vecs` vectors of `len` elements (R107, R109–R112). -/
def elemBytes (c vecs len : Nat) : Nat := vecs * (len * widthOf c / 8)
/-- See `elemBytes`. -/
def scaleBytes (c vecs len : Nat) : Nat := if isMxFmt c then vecs * ceilDiv len 32 else 0

/-- The operand that bytes hold: elements first, then scales. -/
def operandOf (c vecs len : Nat) (bs : List Byte) : Operand :=
  { fmt := c, elems := bs.take (elemBytes c vecs len), scales := bs.drop (elemBytes c vecs len), vecs := vecs,
    len := len }

/-- Element j of vector v with its scale applied (R106–R108). -/
def Operand.at_ (o : Operand) (v j : Nat) : Num :=
  let e := elemAt (widthOf o.fmt) (o.elems.drop (v * (o.len * widthOf o.fmt / 8))) j
  if isMxFmt o.fmt then
    scaled o.fmt e (scaleExp ((o.scales.getD (v * ceilDiv o.len 32 + j / 32) 0).toNat))
  else decodeElem o.fmt e

/-- The pre-pass exponent of a whole operand (R116). -/
def Operand.exponent (o : Operand) : Int :=
  prepass o.fmt (o.scales.map (fun b => b.toNat))
    ((List.range o.vecs).flatMap (fun v => (List.range o.len).map (fun j => o.at_ v j)))

/-- An address of a matrix operand that R114 refuses: misaligned, or past the tile's SRAM. DESIGN CHOICE
(notes/assumptions/48.md): MISALIGNED comes first, and an operand of no bytes is checked too. -/
def matCheck (t off n : Nat) (body : State → State) (s : State) : State :=
  if off % 64 ≠ 0 then tileFault t 5 s
  else if 0x200000 < off + n ∨ 0x200000 ≤ off then tileFault t 4 s else body s

/-- Reads an operand of the matrix unit. -/
def matLoad (t off n : Nat) (body : List Byte → State → State) (s : State) : State :=
  matCheck t off n (withLoad t 3 off n body) s

/-- A weight buffer. -/
def wbuf (x : Tile) (i : Nat) : WBuf := mget {} x.wb i

/-- MXW (R80, R110): loads a weight block and its pre-pass exponent. -/
def execMxw (t : Nat) (x : XArgs) (s : State) : Host.Outcome State Fault Refusal :=
  ok (issue t x.pn x.pg (decide (x.rsv ≠ 0)) [x.a.toNat] (fun s =>
    let c := x.fmtW.toNat
    if !matFmt c then tileFault t 2 s
    else
      let k := classK c
      matLoad t (gv s t x.a).toNat (elemBytes c 64 k + scaleBytes c 64 k) (fun bs s =>
        let o := operandOf c 64 k bs
        let b : WBuf := { fmt := some c, elems := o.elems, scales := o.scales, ew := o.exponent }
        s |> onTl t (fun y => { y with wb := mset {} y.wb x.wb.toNat b }) |> advance t) s) s)

-- MXM (R111–R113, R116–R122)

/-- An accumulator, and its window (i, n). -/
def accOf (x : Tile) (a : Nat) : Acc := mget {} x.acc a
/-- See `accOf`. -/
def Acc.win (c : Acc) (i n : Nat) : Window := mget {} c.wins (64 * i + n)

/-- The accumulator cleared with an anchor (R117). -/
def clearedAcc (a : Int) (rows : Nat) : Acc := { anchor := a, rows := rows }

/-- The accumulator with a larger anchor (R117). -/
def Acc.raise (c : Acc) (a : Int) : Acc :=
  let l := c.wins.map (fun kv => (kv.1, kv.2.reanchor (a - c.anchor).toNat))
  { c with anchor := a, wins := l.filter (fun kv => kv.2 ≠ {}) }

/-- Whether any window has its sticky bit set (R120, R139). -/
def Acc.anySticky (c : Acc) : Bool := c.wins.any (fun kv => kv.2.sticky)

/-- Windows whose sticky bit is set in the second accumulator and not in the first (R120). -/
def newSticky (old new : Acc) : Bool := new.wins.any (fun kv => kv.2.sticky && !(mget {} old.wins kv.1).sticky)

/-- Adds `k` products of one beat into window (row, n): the accumulator and whether INVALID is set (R118, R122). -/
def addProducts (row n : Nat) (f : Nat → Num × Bool) (k : Nat) (c : Acc × Bool) : Acc × Bool :=
  let r := (List.range k).foldl (fun (w : Window × Bool) j =>
    let q := w.1.insert c.1.anchor (f j)
    (q.1, w.2 || q.2)) (c.1.win row n, c.2)
  ({ c.1 with wins := mset {} c.1.wins (64 * row + n) r.1 }, r.2)

/-- All beats of an MXM: beat i takes input row i; `w i n j` is the weight of column n, row j of K. -/
def mxmBeats (x : Operand) (w : Nat → Nat → Nat → Num) (sw : Bool) (k beats : Nat) (c : Acc) : Acc × Bool :=
  (List.range beats).foldl (fun a i =>
    (List.range 64).foldl (fun a n =>
      addProducts (if sw then 0 else i) n (fun j => mulNum (x.at_ i j) (w i n j)) k a) a) (c, false)

/-- The accumulator before the products: cleared, raised to a larger anchor, or kept (R113, R117). -/
def startAcc (old : Acc) (chain : Bool) (anchor : Int) (rows : Nat) : Acc × Bool :=
  if !chain || old.rows == 0 then (clearedAcc anchor rows, false)
  else if old.anchor < anchor then (old.raise anchor, true)
  else (old, false)

/-- Leaves the result of an MXM in its accumulator with its flags (R117, R120, R122, R139). -/
def putAcc (t a : Nat) (start : Acc) (old : Acc) (r : Acc × Bool) (reanchored : Bool) (s : State) : State :=
  let f : AFlags := { invalid := r.2, reanchor := reanchored,
                      inexactWindow := newSticky start r.1 || (reanchored && newSticky old start) }
  s |> onTl t (fun y => { y with acc := mset {} y.acc a r.1 })
    |> wrB (Reg.arithStatus t) (8 + a) r.1.anySticky |> raiseFlags t f

/-- The products of an MXM whose operands are read (R116–R122). -/
def mxmRun (t : Nat) (x : XArgs) (input : Operand) (ew : Int) (w : Option (Nat → Nat → Nat → Num)) (k : Nat)
    (s : State) : State :=
  let beats := x.beats.toNat + 1
  let old := accOf (tl s t) x.acc.toNat
  let st := startAcc old x.chain (ew + input.exponent) (if x.sw then 1 else beats)
  let r := match w with
    | some f => mxmBeats input f x.sw k beats st.1
    | none => (st.1, false)
  let live := (tl s t).beats.filter (fun b => decide (now s ≤ b.1 + 16000))
  s |> putAcc t x.acc.toNat st.1 old r st.2
    |> onTl t (fun y => { y with beats := live ++ [(now s, beats)], ballast := 0 }) |> advance t

/-- The weights of an MXM from a buffer (R110, R111): none from a buffer that nothing has loaded. -/
def bufWeights (b : WBuf) : Option (Nat → Nat → Nat → Num) :=
  b.fmt.map (fun c => fun _ n j =>
    ({ fmt := c, elems := b.elems, scales := b.scales, vecs := 64, len := classK c } : Operand).at_ n j)

/-- Bytes of the input of an MXM, and the input that bytes hold. -/
def mxmInputSize (x : XArgs) (k : Nat) : Nat :=
  elemBytes x.fmtA.toNat (x.beats.toNat + 1) k + scaleBytes x.fmtA.toNat (x.beats.toNat + 1) k
/-- See `mxmInputSize`. -/
def mxmInput (x : XArgs) (k : Nat) (bs : List Byte) : Operand := operandOf x.fmtA.toNat (x.beats.toNat + 1) k bs

/-- MXM with its weights in a buffer (R111). -/
def mxmBuffer (t : Nat) (x : XArgs) (s : State) : State :=
  let b := wbuf (tl s t) x.wb.toNat
  let k := match b.fmt with
    | some c => min (classK x.fmtA.toNat) (classK c)
    | none => classK x.fmtA.toNat
  let okPair := match b.fmt with
    | some c => pairOk x.fmtA.toNat c
    | none => matFmt x.fmtA.toNat
  if !okPair then tileFault t 2 s
  else matLoad t (gv s t x.a).toNat (mxmInputSize x k) (fun bs s => mxmRun t x (mxmInput x k bs) b.ew (bufWeights b) k s) s

/-- MXM with weights streamed from SRAM (R112): vector 64 × i + n is column n of block i. Both operands are asked for
before either is read. -/
def mxmStream (t : Nat) (x : XArgs) (s : State) : State :=
  let c := x.fmtW.toNat
  let beats := x.beats.toNat + 1
  let k := min (classK x.fmtA.toNat) (classK c)
  if !pairOk x.fmtA.toNat c then tileFault t 2 s
  else
    let a := (gv s t x.a).toNat
    let b := (gv s t x.b).toNat
    let na := mxmInputSize x k
    let nb := elemBytes c (64 * beats) k + scaleBytes c (64 * beats) k
    matCheck t a na (matCheck t b nb (withLocal t 3 [(a, na), (b, nb)] false false
      (loadGranted t a na (fun input => loadGranted t b nb (fun weights s =>
        let o := operandOf c (64 * beats) k weights
        mxmRun t x (mxmInput x k input) o.exponent (some (fun i n j => o.at_ (64 * i + n) j)) k s))))) s

/-- The start governor at an MXM (R369): before its tick the first MXM stalls; from then on it goes. -/
def governed (t : Nat) (body : State → State) (s : State) : State :=
  match (tl s t).firstMxm with
  | none => body s
  | some (till, since) =>
    if now s < till then onTl t (fun y => { y with firstMxm := some (till, some (since.getD (now s))) }) s
    else body (governorLetGo t s)

/-- MXM (R80, R111–R122): a chained MXM must produce the rows that its accumulator holds (R113). -/
def execMxm (t : Nat) (x : XArgs) (s : State) : Host.Outcome State Fault Refusal :=
  ok (issue t x.pn x.pg (decide (x.rsv ≠ 0)) (if x.sw then [x.a.toNat, x.b.toNat] else [x.a.toNat])
    (governed t (fun s =>
      let old := accOf (tl s t) x.acc.toNat
      if x.chain && old.rows != 0 && old.rows != (if x.sw then 1 else x.beats.toNat + 1) then tileFault t 1 s
      else if x.sw then mxmStream t x s else mxmBuffer t x s)) s)

-- MXD and MXX (R114, R121, R123–R127)

/-- The windows of the rows an accumulator holds, in row-major order. -/
def Acc.rowWins (c : Acc) : List Window := (List.range (64 * c.rows)).map (fun k => mget {} c.wins k)

/-- One value of MXD: rounded to nearest even, or stochastically with a draw of the generator (R123–R125). -/
def mxdValue (f : Fmt) (stoch : Bool) (a : Int) (acc : List Nat × AFlags × Word) (w : Window) :
    List Nat × AFlags × Word :=
  let x := w.wide a
  let g := if stoch then xorshift acc.2.2 else acc.2.2
  let r := if stoch then x.1.stochastic f (fld g 63 40) else x.1.round f
  (r.1 :: acc.1, (acc.2.1.or r.2).or { overflow := x.2 }, g)

/-- A result of `n` bytes goes to SRAM at B, or nothing when the accumulator holds no rows (R114). -/
def matStore (t : Nat) (x : XArgs) (n lat : Nat) (bs : Unit → List Byte) (after : State → State) (s : State) : State :=
  let off := (gv s t x.b).toNat
  matCheck t off n (withLocal t 3 [(off, n)] true false (fun s => s |> slowStore t off lat (bs ()) |> after |> advance t)) s

/-- MXD (R80, R114, R123, R124). -/
def execMxd (t : Nat) (x : XArgs) (s : State) : Host.Outcome State Fault Refusal :=
  ok (issue t x.pn x.pg (decide (x.rsv ≠ 0 ∨ 2 ≤ x.rnd.toNat)) [x.b.toNat] (fun s =>
    let c := accOf (tl s t) x.acc.toNat
    let f := if x.out then fmtOf 1 else fmtOf 0
    let n := if x.out then 2 else 4
    let r := c.rowWins.foldl (mxdValue f (decide (x.rnd = 1)) c.anchor) ([], {}, (tl s t).gen)
    matStore t x (64 * n * c.rows) 24 (fun _ => r.1.reverse.flatMap (fun v => leBytes n v))
      (fun s => s |> onTl t (fun y => { y with gen := r.2.2 }) |> raiseFlags t r.2.1) s) s)

/-- MXX (R80, R114, R127): the windows as wide partials. -/
def execMxx (t : Nat) (x : XArgs) (s : State) : Host.Outcome State Fault Refusal :=
  ok (issue t x.pn x.pg (decide (x.rsv ≠ 0)) [x.b.toNat] (fun s =>
    let c := accOf (tl s t) x.acc.toNat
    let l := c.rowWins.map (fun w => w.wide c.anchor)
    matStore t x (1024 * c.rows) 72 (fun _ => l.flatMap (fun w => leBytes 16 w.1.toBits))
      (raiseFlags t { overflow := l.any (fun w => w.2) }) s) s)

end Sys2Proof.Machine
end

