-- ==== Sys2Proof/Machine/Scalar.lean ====
section
/-! DEFINITION. Scalar and branch instructions (R77, R78). -/

namespace Sys2Proof.Machine

/-- A scalar instruction of two operands that writes D. -/
def scalarS (t : Nat) (x : SArgs) (f : Word → Word → Word) (s : State) : State :=
  issue t x.pn x.pg (decide (x.rsv ≠ 0)) [x.a.toNat, x.b.toNat] (fun s => putG t x.d (f (gv s t x.a) (gv s t x.b)) s) s

/-- The immediate of an I-format instruction (R74). -/
def immOf (x : IArgs) : Word := x.imm.signExtend 64

/-- A scalar instruction with an immediate that writes D. -/
def scalarI (t : Nat) (x : IArgs) (f : Word → Word → Word) (s : State) : State :=
  issue t x.pn x.pg false [x.a.toNat] (fun s => putG t x.d (f (gv s t x.a) (immOf x)) s) s

/-- MUL: the low half, or the high half signed or unsigned (R77). -/
def mulWord (fn : Nat) (a b : Word) : Word :=
  if !fn.testBit 0 then a * b
  else if fn.testBit 1 then BitVec.ofInt 64 (a.toInt * b.toInt / 2 ^ 64)
  else BitVec.ofNat 64 (a.toNat * b.toNat / 2 ^ 64)

/-- SHL and SHR by the low 6 bits of the second operand (R77). -/
def shlWord (a b : Word) : Word := a <<< (b.toNat % 64)
/-- See `shlWord`. -/
def shrWord (fn : Nat) (a b : Word) : Word :=
  if fn.testBit 0 then a.sshiftRight (b.toNat % 64) else a >>> (b.toNat % 64)

/-- The comparisons of CMP (R77). -/
def cmpWord (k : Nat) (a b : Word) : Bool :=
  if k = 0 then a == b else if k = 1 then a != b else if k = 2 then a.slt b
  else if k = 3 then a.sle b else if k = 4 then a.ult b else a.ule b

/-- CMP needs D[4:3] = 0 and a comparison below 6 (R77). -/
def cmpIllegal (d : BitVec 5) (fn : Nat) : Bool := decide (8 ≤ d.toNat ∨ 6 ≤ fn % 8)

/-- ADD (R77). -/
def execAdd (t : Nat) (x : SArgs) (s : State) : Host.Outcome State Fault Refusal :=
  ok (scalarS t x (fun a b => a + b) s)

/-- SUB (R77). -/
def execSub (t : Nat) (x : SArgs) (s : State) : Host.Outcome State Fault Refusal :=
  ok (scalarS t x (fun a b => a - b) s)

/-- MUL (R77). -/
def execMul (t : Nat) (x : SArgs) (s : State) : Host.Outcome State Fault Refusal :=
  ok (scalarS t x (mulWord x.fn.toNat) s)

/-- AND (R77). -/
def execAnd (t : Nat) (x : SArgs) (s : State) : Host.Outcome State Fault Refusal :=
  ok (scalarS t x (fun a b => a &&& b) s)

/-- OR (R77). -/
def execOr (t : Nat) (x : SArgs) (s : State) : Host.Outcome State Fault Refusal :=
  ok (scalarS t x (fun a b => a ||| b) s)

/-- XOR (R77). -/
def execXor (t : Nat) (x : SArgs) (s : State) : Host.Outcome State Fault Refusal :=
  ok (scalarS t x (fun a b => a ^^^ b) s)

/-- SHL (R77). -/
def execShl (t : Nat) (x : SArgs) (s : State) : Host.Outcome State Fault Refusal := ok (scalarS t x shlWord s)

/-- SHR (R77). -/
def execShr (t : Nat) (x : SArgs) (s : State) : Host.Outcome State Fault Refusal :=
  ok (scalarS t x (shrWord x.fn.toNat) s)

/-- CMP (R77): writes the predicate D[2:0]. -/
def execCmp (t : Nat) (x : SArgs) (s : State) : Host.Outcome State Fault Refusal :=
  ok (issue t x.pn x.pg (decide (x.rsv ≠ 0) || cmpIllegal x.d x.fn.toNat) [x.a.toNat, x.b.toNat]
    (fun s => putP t x.d.toNat (cmpWord (x.fn.toNat % 8) (gv s t x.a) (gv s t x.b)) s) s)

/-- SEL (R77): A when the predicate C[2:0] is 1, else B. -/
def execSel (t : Nat) (x : SArgs) (s : State) : Host.Outcome State Fault Refusal :=
  ok (issue t x.pn x.pg (decide (x.rsv ≠ 0)) [x.a.toNat, x.b.toNat]
    (fun s => putG t x.d (if preg (tl s t) (x.c.toNat % 8) then gv s t x.a else gv s t x.b) s) s)

/-- ADD with immediate (R77). -/
def execAddImm (t : Nat) (x : IArgs) (s : State) : Host.Outcome State Fault Refusal :=
  ok (scalarI t x (fun a b => a + b) s)

/-- SUB with immediate (R77). -/
def execSubImm (t : Nat) (x : IArgs) (s : State) : Host.Outcome State Fault Refusal :=
  ok (scalarI t x (fun a b => a - b) s)

/-- MUL with immediate (R77). -/
def execMulImm (t : Nat) (x : IArgs) (s : State) : Host.Outcome State Fault Refusal :=
  ok (scalarI t x (mulWord x.fn.toNat) s)

/-- AND with immediate (R77). -/
def execAndImm (t : Nat) (x : IArgs) (s : State) : Host.Outcome State Fault Refusal :=
  ok (scalarI t x (fun a b => a &&& b) s)

/-- OR with immediate (R77). -/
def execOrImm (t : Nat) (x : IArgs) (s : State) : Host.Outcome State Fault Refusal :=
  ok (scalarI t x (fun a b => a ||| b) s)

/-- XOR with immediate (R77). -/
def execXorImm (t : Nat) (x : IArgs) (s : State) : Host.Outcome State Fault Refusal :=
  ok (scalarI t x (fun a b => a ^^^ b) s)

/-- SHL with immediate (R77). -/
def execShlImm (t : Nat) (x : IArgs) (s : State) : Host.Outcome State Fault Refusal := ok (scalarI t x shlWord s)

/-- SHR with immediate (R77). -/
def execShrImm (t : Nat) (x : IArgs) (s : State) : Host.Outcome State Fault Refusal :=
  ok (scalarI t x (shrWord x.fn.toNat) s)

/-- CMP with immediate (R77). -/
def execCmpImm (t : Nat) (x : IArgs) (s : State) : Host.Outcome State Fault Refusal :=
  ok (issue t x.pn x.pg (cmpIllegal x.d x.fn.toNat) [x.a.toNat]
    (fun s => putP t x.d.toNat (cmpWord (x.fn.toNat % 8) (gv s t x.a) (immOf x)) s) s)

-- Branches (R78)

/-- The target of a branch: A + OFF, or the index of the branch + OFF. -/
def branchTarget (s : State) (t : Nat) (x : BArgs) : Nat :=
  ((if x.ind then gv s t x.a else wd (tileIndex s t)) + x.off.signExtend 64).toNat

/-- What a tile does at a branch whose guard was true or not and that its gang takes or not: the link, which a branch
whose guard is true writes whether it is taken or not, and the next index. A taken branch issues in 2 cycles (R68, R78,
R92). -/
def followBranch (t : Nat) (x : BArgs) (guard taken : Bool) (next : Nat) (s : State) : State :=
  let c := rd s (Reg.cycles t)
  let s := (if guard then onTl t (setG x.d.toNat (wd (tileIndex s t + 1))) s else s) |> advance t
  if taken then
    s |> onTl t (fun y => { y with wrapped := false }) |> wrF (Reg.tileStatus t) 44 32 next |> wrReg (Reg.cycles t) (c + 2)
  else s

/-- The leader decides a branch: IMEM_RANGE past the loaded image, else the decision goes to every member. -/
def decideBranch (t : Nat) (x : BArgs) (guard taken : Bool) (s : State) : State :=
  let next := branchTarget s t x
  if taken && decide ((tl s t).imemLen ≤ next) then tileFault t 3 s
  else
    let s := ((membersOf s t).filter (fun m => m ≠ t)).foldl (fun s m =>
      onTl m (fun y => { y with br := y.br ++ [(guard, taken, next)] }) s) s
    followBranch t x guard taken next s

/-- A branch that the leader alone decides, by its guard and a condition; another member waits for the decision
(R78). -/
def leaderBranch (t : Nat) (x : BArgs) (cond : Tile → Bool) (s : State) : State :=
  let y := tl s t
  if leaderOf s t = t then decideBranch t x (guardTrue y x.pn x.pg) (guardTrue y x.pn x.pg && cond y) s
  else
    match y.br with
    | [] => stalled t s
    | (guard, taken, next) :: r => s |> onTl t (fun y => { y with br := r }) |> followBranch t x guard taken next

/-- A branch of a tile: what it reads is ready, and no field is reserved (R67, R74). The guard belongs to the
condition, because in a gang the leader's guard decides (R78). -/
def issueBranch (t : Nat) (x : BArgs) (illegal : Bool) (body : State → State) (s : State) : State :=
  if !canIssue s t then s
  else if decide (x.rsv ≠ 0) || illegal then tileFault t 1 s
  else if x.ind && x.a != 0 && (tl s t).pend.contains x.a.toNat then stalled t s
  else body s

/-- BR (R78). -/
def execBr (t : Nat) (x : BArgs) (s : State) : Host.Outcome State Fault Refusal :=
  ok (issueBranch t x false (leaderBranch t x (fun _ => true)) s)

/-- BRP with ANY or ALL: every member comes to it, then the leader's guard and all members' PS decide (R78, R96). -/
def meetBranch (t : Nat) (x : BArgs) (s : State) : State :=
  let l := leaderOf s t
  let ms := membersOf s l
  let s := onTl t (fun y => { y with wait := some (.brp x) }) s
  if ms.all (fun m => decide ((tl s m).wait = some (.brp x))) then
    let ps := fun m => preg (tl s m) x.ps.toNat
    let guard := guardTrue (tl s l) x.pn x.pg
    let taken := guard && (if x.mode = 1 then ms.any ps else ms.all ps)
    let next := branchTarget s l x
    let s := ms.foldl (fun s m => onTl m (fun y => { y with wait := none }) s) s
    if taken && decide ((tl s l).imemLen ≤ next) then tileFault l 3 s
    else ms.foldl (fun s m => followBranch m x guard taken next s) s
  else s

/-- BRP (R78). -/
def execBrp (t : Nat) (x : BArgs) (s : State) : Host.Outcome State Fault Refusal :=
  ok (issueBranch t x (decide (x.mode = 3))
    (if x.mode = 0 then leaderBranch t x (fun y => preg y x.ps.toNat) else meetBranch t x) s)

end Sys2Proof.Machine
end

