-- ==== Sys2Proof/Machine/Dispatch.lean ====
section
/-! DEFINITION. One arm per command: the direct call of its meaning. -/

namespace Sys2Proof.Machine

/-- The effect of a command on everything but the queue of waiting commands. -/
def exec (i : Instr) (s : State) : Host.Outcome State Fault Refusal :=
  match i with
  | .add a0 a1 => Sys2Proof.Machine.execAdd a0 a1 s
  | .sub a0 a1 => Sys2Proof.Machine.execSub a0 a1 s
  | .mul a0 a1 => Sys2Proof.Machine.execMul a0 a1 s
  | .and a0 a1 => Sys2Proof.Machine.execAnd a0 a1 s
  | .or a0 a1 => Sys2Proof.Machine.execOr a0 a1 s
  | .xor a0 a1 => Sys2Proof.Machine.execXor a0 a1 s
  | .shl a0 a1 => Sys2Proof.Machine.execShl a0 a1 s
  | .shr a0 a1 => Sys2Proof.Machine.execShr a0 a1 s
  | .cmp a0 a1 => Sys2Proof.Machine.execCmp a0 a1 s
  | .sel a0 a1 => Sys2Proof.Machine.execSel a0 a1 s
  | .addImm a0 a1 => Sys2Proof.Machine.execAddImm a0 a1 s
  | .subImm a0 a1 => Sys2Proof.Machine.execSubImm a0 a1 s
  | .mulImm a0 a1 => Sys2Proof.Machine.execMulImm a0 a1 s
  | .andImm a0 a1 => Sys2Proof.Machine.execAndImm a0 a1 s
  | .orImm a0 a1 => Sys2Proof.Machine.execOrImm a0 a1 s
  | .xorImm a0 a1 => Sys2Proof.Machine.execXorImm a0 a1 s
  | .shlImm a0 a1 => Sys2Proof.Machine.execShlImm a0 a1 s
  | .shrImm a0 a1 => Sys2Proof.Machine.execShrImm a0 a1 s
  | .cmpImm a0 a1 => Sys2Proof.Machine.execCmpImm a0 a1 s
  | .br a0 a1 => Sys2Proof.Machine.execBr a0 a1 s
  | .brp a0 a1 => Sys2Proof.Machine.execBrp a0 a1 s
  | .ld a0 a1 => Sys2Proof.Machine.execLd a0 a1 s
  | .st a0 a1 => Sys2Proof.Machine.execSt a0 a1 s
  | .atmAdd a0 a1 => Sys2Proof.Machine.execAtmAdd a0 a1 s
  | .atmSwp a0 a1 => Sys2Proof.Machine.execAtmSwp a0 a1 s
  | .atmCas a0 a1 => Sys2Proof.Machine.execAtmCas a0 a1 s
  | .vld a0 a1 => Sys2Proof.Machine.execVld a0 a1 s
  | .vst a0 a1 => Sys2Proof.Machine.execVst a0 a1 s
  | .sdesc a0 a1 => Sys2Proof.Machine.execSdesc a0 a1 s
  | .sgo a0 a1 => Sys2Proof.Machine.execSgo a0 a1 s
  | .swait a0 a1 => Sys2Proof.Machine.execSwait a0 a1 s
  | .mxw a0 a1 => Sys2Proof.Machine.execMxw a0 a1 s
  | .mxm a0 a1 => Sys2Proof.Machine.execMxm a0 a1 s
  | .mxd a0 a1 => Sys2Proof.Machine.execMxd a0 a1 s
  | .mxx a0 a1 => Sys2Proof.Machine.execMxx a0 a1 s
  | .vadd a0 a1 => Sys2Proof.Machine.execVadd a0 a1 s
  | .vsub a0 a1 => Sys2Proof.Machine.execVsub a0 a1 s
  | .vmul a0 a1 => Sys2Proof.Machine.execVmul a0 a1 s
  | .vfma a0 a1 => Sys2Proof.Machine.execVfma a0 a1 s
  | .vmax a0 a1 => Sys2Proof.Machine.execVmax a0 a1 s
  | .vmin a0 a1 => Sys2Proof.Machine.execVmin a0 a1 s
  | .vmaxsub a0 a1 => Sys2Proof.Machine.execVmaxsub a0 a1 s
  | .vrsum a0 a1 => Sys2Proof.Machine.execVrsum a0 a1 s
  | .vcvtS a0 a1 => Sys2Proof.Machine.execVcvtS a0 a1 s
  | .vcvtN a0 a1 => Sys2Proof.Machine.execVcvtN a0 a1 s
  | .vwadd a0 a1 => Sys2Proof.Machine.execVwadd a0 a1 s
  | .vwrnd a0 a1 => Sys2Proof.Machine.execVwrnd a0 a1 s
  | .vwcvt a0 a1 => Sys2Proof.Machine.execVwcvt a0 a1 s
  | .vexp2 a0 a1 => Sys2Proof.Machine.execVexp2 a0 a1 s
  | .vlog2 a0 a1 => Sys2Proof.Machine.execVlog2 a0 a1 s
  | .vrcp a0 a1 => Sys2Proof.Machine.execVrcp a0 a1 s
  | .vrsqrt a0 a1 => Sys2Proof.Machine.execVrsqrt a0 a1 s
  | .vredadd a0 a1 => Sys2Proof.Machine.execVredadd a0 a1 s
  | .vredmax a0 a1 => Sys2Proof.Machine.execVredmax a0 a1 s
  | .vredmin a0 a1 => Sys2Proof.Machine.execVredmin a0 a1 s
  | .rld a0 a1 => Sys2Proof.Machine.execRld a0 a1 s
  | .rst a0 a1 => Sys2Proof.Machine.execRst a0 a1 s
  | .rat a0 a1 => Sys2Proof.Machine.execRat a0 a1 s
  | .rcpPut a0 a1 => Sys2Proof.Machine.execRcpPut a0 a1 s
  | .rcpGet a0 a1 => Sys2Proof.Machine.execRcpGet a0 a1 s
  | .rcpThird a0 a1 => Sys2Proof.Machine.execRcpThird a0 a1 s
  | .clvAllReduce a0 a1 => Sys2Proof.Machine.execClvAllReduce a0 a1 s
  | .clvReduceScatter a0 a1 => Sys2Proof.Machine.execClvReduceScatter a0 a1 s
  | .clvAllGather a0 a1 => Sys2Proof.Machine.execClvAllGather a0 a1 s
  | .clvBroadcast a0 a1 => Sys2Proof.Machine.execClvBroadcast a0 a1 s
  | .clvAllToAll a0 a1 => Sys2Proof.Machine.execClvAllToAll a0 a1 s
  | .clvCapacityAllToAll a0 a1 => Sys2Proof.Machine.execClvCapacityAllToAll a0 a1 s
  | .tread a0 a1 => Sys2Proof.Machine.execTread a0 a1 s
  | .waitt a0 a1 => Sys2Proof.Machine.execWaitt a0 a1 s
  | .waittRelease a0 => Sys2Proof.Machine.execWaittRelease a0 s
  | .atslot a0 a1 => Sys2Proof.Machine.execAtslot a0 a1 s
  | .bar a0 a1 => Sys2Proof.Machine.execBar a0 a1 s
  | .barRelease a0 => Sys2Proof.Machine.execBarRelease a0 s
  | .barDeadlineExpiry a0 => Sys2Proof.Machine.execBarDeadlineExpiry a0 s
  | .fence a0 a1 => Sys2Proof.Machine.execFence a0 a1 s
  | .cplw a0 a1 => Sys2Proof.Machine.execCplw a0 a1 s
  | .cplp a0 a1 => Sys2Proof.Machine.execCplp a0 a1 s
  | .steep a0 a1 => Sys2Proof.Machine.execSteep a0 a1 s
  | .gangId a0 a1 => Sys2Proof.Machine.execGangId a0 a1 s
  | .gangForm a0 a1 => Sys2Proof.Machine.execGangForm a0 a1 s
  | .gangDissolve a0 a1 => Sys2Proof.Machine.execGangDissolve a0 a1 s
  | .gangEnd a0 a1 => Sys2Proof.Machine.execGangEnd a0 a1 s
  | .streamDescStart a0 => Sys2Proof.Machine.execStreamDescStart a0 s
  | .streamDescDone a0 => Sys2Proof.Machine.execStreamDescDone a0 s
  | .run a0 => Sys2Proof.Machine.execRun a0 s
  | .formGang a0 => Sys2Proof.Machine.execFormGang a0 s
  | .dissolveGang a0 => Sys2Proof.Machine.execDissolveGang a0 s
  | .jobEntry a0 => Sys2Proof.Machine.execJobEntry a0 s
  | .tileStop a0 a1 => Sys2Proof.Machine.execTileStop a0 a1 s
  | .tileResume a0 a1 => Sys2Proof.Machine.execTileResume a0 a1 s
  | .tileAbort a0 a1 => Sys2Proof.Machine.execTileAbort a0 a1 s
  | .srSeedWrite a0 a1 a2 => Sys2Proof.Machine.execSrSeedWrite a0 a1 a2 s
  | .roundStart => Sys2Proof.Machine.execRoundStart s
  | .timeFlit a0 a1 a2 a3 a4 a5 a6 a7 => Sys2Proof.Machine.execTimeFlit a0 a1 a2 a3 a4 a5 a6 a7 s
  | .lockedEntry => Sys2Proof.Machine.execLockedEntry s
  | .holdoverEntry => Sys2Proof.Machine.execHoldoverEntry s
  | .parentSwitch => Sys2Proof.Machine.execParentSwitch s
  | .timePpsEdge a0 => Sys2Proof.Machine.execTimePpsEdge a0 s
  | .ptpMessage a0 => Sys2Proof.Machine.execPtpMessage a0 s
  | .extReferenceLost => Sys2Proof.Machine.execExtReferenceLost s
  | .pitchFlitArrive a0 a1 a2 a3 => Sys2Proof.Machine.execPitchFlitArrive a0 a1 a2 a3 s
  | .pitchSlotSend a0 => Sys2Proof.Machine.execPitchSlotSend a0 s
  | .pitchPortResume a0 => Sys2Proof.Machine.execPitchPortResume a0 s
  | .pitchPathBoundExpiry a0 => Sys2Proof.Machine.execPitchPathBoundExpiry a0 s
  | .schedSwitchRoundWrite a0 a1 => Sys2Proof.Machine.execSchedSwitchRoundWrite a0 a1 s
  | .schedSwitch => Sys2Proof.Machine.execSchedSwitch s
  | .bankScrub a0 a1 a2 a3 => Sys2Proof.Machine.execBankScrub a0 a1 a2 a3 s
  | .bankEccWriteback a0 a1 => Sys2Proof.Machine.execBankEccWriteback a0 a1 s
  | .bankOwnerNextWrite a0 a1 a2 a3 => Sys2Proof.Machine.execBankOwnerNextWrite a0 a1 a2 a3 s
  | .handoverDone a0 a1 => Sys2Proof.Machine.execHandoverDone a0 a1 s
  | .hbmAccess a0 a1 a2 a3 a4 a5 => Sys2Proof.Machine.execHbmAccess a0 a1 a2 a3 a4 a5 s
  | .hbmScrub a0 a1 a2 => Sys2Proof.Machine.execHbmScrub a0 a1 a2 s
  | .hbmRefresh a0 a1 => Sys2Proof.Machine.execHbmRefresh a0 a1 s
  | .rfmRequest a0 a1 => Sys2Proof.Machine.execRfmRequest a0 a1 s
  | .hbmTempRead a0 a1 a2 => Sys2Proof.Machine.execHbmTempRead a0 a1 a2 s
  | .hbmParityError a0 a1 => Sys2Proof.Machine.execHbmParityError a0 a1 s
  | .retrainNow a0 a1 a2 => Sys2Proof.Machine.execRetrainNow a0 a1 a2 s
  | .hbmPeriodicRetrainTrigger a0 a1 => Sys2Proof.Machine.execHbmPeriodicRetrainTrigger a0 a1 s
  | .hbmDeferredRetrainStart a0 a1 => Sys2Proof.Machine.execHbmDeferredRetrainStart a0 a1 s
  | .hbmRetrainStart a0 a1 => Sys2Proof.Machine.execHbmRetrainStart a0 a1 s
  | .hbmRetrainDone a0 a1 a2 a3 => Sys2Proof.Machine.execHbmRetrainDone a0 a1 a2 a3 s
  | .rdReq a0 => Sys2Proof.Machine.execRdReq a0 s
  | .wr a0 => Sys2Proof.Machine.execWr a0 s
  | .atAdd32 a0 => Sys2Proof.Machine.execAtAdd32 a0 s
  | .atAdd64 a0 => Sys2Proof.Machine.execAtAdd64 a0 s
  | .atAddf32 a0 => Sys2Proof.Machine.execAtAddf32 a0 s
  | .atSwap a0 => Sys2Proof.Machine.execAtSwap a0 s
  | .atCas a0 => Sys2Proof.Machine.execAtCas a0 s
  | .atBset a0 => Sys2Proof.Machine.execAtBset a0 s
  | .atBclr a0 => Sys2Proof.Machine.execAtBclr a0 s
  | .putData a0 => Sys2Proof.Machine.execPutData a0 s
  | .ackFlushTimeout a0 a1 => Sys2Proof.Machine.execAckFlushTimeout a0 a1 s
  | .getReq a0 => Sys2Proof.Machine.execGetReq a0 s
  | .thirdReq a0 => Sys2Proof.Machine.execThirdReq a0 s
  | .pitchWr a0 => Sys2Proof.Machine.execPitchWr a0 s
  | .rdResp a0 => Sys2Proof.Machine.execRdResp a0 s
  | .ack a0 => Sys2Proof.Machine.execAck a0 s
  | .atResp a0 => Sys2Proof.Machine.execAtResp a0 s
  | .copyDone a0 => Sys2Proof.Machine.execCopyDone a0 s
  | .getData a0 => Sys2Proof.Machine.execGetData a0 s
  | .lateNote a0 => Sys2Proof.Machine.execLateNote a0 s
  | .deadlineExpiry a0 => Sys2Proof.Machine.execDeadlineExpiry a0 s
  | .quarantineExpiry a0 => Sys2Proof.Machine.execQuarantineExpiry a0 s
  | .holdLimitDiscard a0 => Sys2Proof.Machine.execHoldLimitDiscard a0 s
  | .windowUpdateGo a0 a1 => Sys2Proof.Machine.execWindowUpdateGo a0 a1 s
  | .windowUpdateCommit => Sys2Proof.Machine.execWindowUpdateCommit s
  | .fecFrame a0 a1 a2 a3 a4 => Sys2Proof.Machine.execFecFrame a0 a1 a2 a3 a4 s
  | .ackTimerExpiry a0 => Sys2Proof.Machine.execAckTimerExpiry a0 s
  | .auditSend a0 => Sys2Proof.Machine.execAuditSend a0 s
  | .audit a0 a1 a2 => Sys2Proof.Machine.execAudit a0 a1 a2 s
  | .laneLos a0 => Sys2Proof.Machine.execLaneLos a0 s
  | .txOffExpiry a0 => Sys2Proof.Machine.execTxOffExpiry a0 s
  | .signalDetect a0 => Sys2Proof.Machine.execSignalDetect a0 s
  | .fullTrain a0 a1 => Sys2Proof.Machine.execFullTrain a0 a1 s
  | .trainTimeout a0 => Sys2Proof.Machine.execTrainTimeout a0 s
  | .miswiredRetry a0 a1 => Sys2Proof.Machine.execMiswiredRetry a0 a1 s
  | .neighbourExpWrite a0 a1 a2 => Sys2Proof.Machine.execNeighbourExpWrite a0 a1 a2 s
  | .qualDone a0 a1 a2 a3 a4 => Sys2Proof.Machine.execQualDone a0 a1 a2 a3 a4 s
  | .retrain a0 a1 => Sys2Proof.Machine.execRetrain a0 a1 s
  | .retrainNowPort a0 a1 => Sys2Proof.Machine.execRetrainNowPort a0 a1 s
  | .trainingPatternSeen a0 => Sys2Proof.Machine.execTrainingPatternSeen a0 s
  | .retrainDone a0 a1 => Sys2Proof.Machine.execRetrainDone a0 a1 s
  | .forceDownSet a0 a1 => Sys2Proof.Machine.execForceDownSet a0 a1 s
  | .forceDownClear a0 a1 => Sys2Proof.Machine.execForceDownClear a0 a1 s
  | .rest a0 a1 => Sys2Proof.Machine.execRest a0 a1 s
  | .restReq a0 => Sys2Proof.Machine.execRestReq a0 s
  | .restAck a0 => Sys2Proof.Machine.execRestAck a0 s
  | .restNak a0 => Sys2Proof.Machine.execRestNak a0 s
  | .restTimeout a0 => Sys2Proof.Machine.execRestTimeout a0 s
  | .wake a0 a1 => Sys2Proof.Machine.execWake a0 a1 s
  | .wakeDone a0 a1 => Sys2Proof.Machine.execWakeDone a0 a1 s
  | .wakeTimeout a0 => Sys2Proof.Machine.execWakeTimeout a0 s
  | .routePacket a0 => Sys2Proof.Machine.execRoutePacket a0 s
  | .bondDeal a0 => Sys2Proof.Machine.execBondDeal a0 s
  | .bondMap a0 a1 a2 => Sys2Proof.Machine.execBondMap a0 a1 a2 s
  | .bondRestart a0 a1 a2 => Sys2Proof.Machine.execBondRestart a0 a1 a2 s
  | .routeTableWrite a0 a1 a2 a3 => Sys2Proof.Machine.execRouteTableWrite a0 a1 a2 a3 s
  | .flip a0 => Sys2Proof.Machine.execFlip a0 s
  | .routeDrained => Sys2Proof.Machine.execRouteDrained s
  | .routeMachineWrite a0 a1 => Sys2Proof.Machine.execRouteMachineWrite a0 a1 s
  | .presetWrite a0 a1 => Sys2Proof.Machine.execPresetWrite a0 a1 s
  | .portBondWrite a0 a1 a2 => Sys2Proof.Machine.execPortBondWrite a0 a1 a2 s
  | .cmapSnapshot => Sys2Proof.Machine.execCmapSnapshot s
  | .cmapRecord a0 => Sys2Proof.Machine.execCmapRecord a0 s
  | .groupGo a0 a1 => Sys2Proof.Machine.execGroupGo a0 a1 s
  | .groupDelete a0 a1 => Sys2Proof.Machine.execGroupDelete a0 a1 s
  | .abortOld a0 a1 => Sys2Proof.Machine.execAbortOld a0 a1 s
  | .groupUpdateCommit => Sys2Proof.Machine.execGroupUpdateCommit s
  | .clReduce a0 => Sys2Proof.Machine.execClReduce a0 s
  | .clData a0 => Sys2Proof.Machine.execClData a0 s
  | .clBar a0 => Sys2Proof.Machine.execClBar a0 s
  | .clCap a0 => Sys2Proof.Machine.execClCap a0 s
  | .clAbort a0 => Sys2Proof.Machine.execClAbort a0 s
  | .collPhaseSend a0 a1 a2 => Sys2Proof.Machine.execCollPhaseSend a0 a1 a2 s
  | .collLateSend a0 a1 a2 => Sys2Proof.Machine.execCollLateSend a0 a1 a2 s
  | .collComplete a0 a1 a2 => Sys2Proof.Machine.execCollComplete a0 a1 a2 s
  | .groupBarReleaseComputed a0 => Sys2Proof.Machine.execGroupBarReleaseComputed a0 s
  | .cvuCfgWrite a0 a1 a2 => Sys2Proof.Machine.execCvuCfgWrite a0 a1 a2 s
  | .cvuResultDelivery a0 => Sys2Proof.Machine.execCvuResultDelivery a0 s
  | .qCtrlWrite a0 a1 a2 => Sys2Proof.Machine.execQCtrlWrite a0 a1 a2 s
  | .sqTailWrite a0 a1 a2 => Sys2Proof.Machine.execSqTailWrite a0 a1 a2 s
  | .sqFetch a0 => Sys2Proof.Machine.execSqFetch a0 s
  | .toDevice a0 => Sys2Proof.Machine.execToDevice a0 s
  | .fromDevice a0 => Sys2Proof.Machine.execFromDevice a0 s
  | .ethSend a0 => Sys2Proof.Machine.execEthSend a0 s
  | .queueRecordWrite a0 => Sys2Proof.Machine.execQueueRecordWrite a0 s
  | .cqHeadWrite a0 a1 a2 => Sys2Proof.Machine.execCqHeadWrite a0 a1 a2 s
  | .cqRtc a0 a1 => Sys2Proof.Machine.execCqRtc a0 a1 s
  | .hostBarAccess a0 a1 a2 a3 => Sys2Proof.Machine.execHostBarAccess a0 a1 a2 a3 s
  | .barReadTimeout a0 => Sys2Proof.Machine.execBarReadTimeout a0 s
  | .flrVf a0 => Sys2Proof.Machine.execFlrVf a0 s
  | .flrPf a0 => Sys2Proof.Machine.execFlrPf a0 s
  | .dlDown => Sys2Proof.Machine.execDlDown s
  | .ethFrame a0 a1 => Sys2Proof.Machine.execEthFrame a0 a1 s
  | .ethRtoExpiry a0 => Sys2Proof.Machine.execEthRtoExpiry a0 s
  | .railRead a0 a1 a2 => Sys2Proof.Machine.execRailRead a0 a1 a2 s
  | .railLost a0 => Sys2Proof.Machine.execRailLost a0 s
  | .regulatorWarnStep a0 => Sys2Proof.Machine.execRegulatorWarnStep a0 s
  | .regulatorFault a0 => Sys2Proof.Machine.execRegulatorFault a0 s
  | .activityEstimate a0 => Sys2Proof.Machine.execActivityEstimate a0 s
  | .freqStep a0 => Sys2Proof.Machine.execFreqStep a0 s
  | .freqRequestRelease a0 => Sys2Proof.Machine.execFreqRequestRelease a0 s
  | .droopTrip a0 a1 => Sys2Proof.Machine.execDroopTrip a0 a1 s
  | .droopRecover a0 a1 => Sys2Proof.Machine.execDroopRecover a0 a1 s
  | .powerCapWrite a0 a1 => Sys2Proof.Machine.execPowerCapWrite a0 a1 s
  | .capLeaseExpiry => Sys2Proof.Machine.execCapLeaseExpiry s
  | .slackPublish => Sys2Proof.Machine.execSlackPublish s
  | .powerShift => Sys2Proof.Machine.execPowerShift s
  | .ballastUpdate a0 => Sys2Proof.Machine.execBallastUpdate a0 s
  | .governorRelease a0 => Sys2Proof.Machine.execGovernorRelease a0 s
  | .sensorRead a0 => Sys2Proof.Machine.execSensorRead a0 s
  | .throttleAdjust a0 => Sys2Proof.Machine.execThrottleAdjust a0 s
  | .throttleRelease a0 => Sys2Proof.Machine.execThrottleRelease a0 s
  | .kilnForecast => Sys2Proof.Machine.execKilnForecast s
  | .coolantWrite a0 a1 => Sys2Proof.Machine.execCoolantWrite a0 a1 s
  | .coolantStale => Sys2Proof.Machine.execCoolantStale s
  | .throttleInAssert a0 => Sys2Proof.Machine.execThrottleInAssert a0 s
  | .throttleInDeassert => Sys2Proof.Machine.execThrottleInDeassert s
  | .extLatched => Sys2Proof.Machine.execExtLatched s
  | .domainOn a0 a1 => Sys2Proof.Machine.execDomainOn a0 a1 s
  | .domainOff a0 a1 => Sys2Proof.Machine.execDomainOff a0 a1 s
  | .domainTurnOn a0 => Sys2Proof.Machine.execDomainTurnOn a0 s
  | .faultReaction => Sys2Proof.Machine.execFaultReaction s
  | .faultStatusClear a0 a1 => Sys2Proof.Machine.execFaultStatusClear a0 a1 s
  | .faultForce a0 a1 => Sys2Proof.Machine.execFaultForce a0 a1 s
  | .abortGo a0 a1 => Sys2Proof.Machine.execAbortGo a0 a1 s
  | .jobAbort a0 a1 => Sys2Proof.Machine.execJobAbort a0 a1 s
  | .fencePartition a0 a1 => Sys2Proof.Machine.execFencePartition a0 a1 s
  | .fenceDrainDone a0 => Sys2Proof.Machine.execFenceDrainDone a0 s
  | .drainExpired a0 => Sys2Proof.Machine.execDrainExpired a0 s
  | .partReset a0 a1 => Sys2Proof.Machine.execPartReset a0 a1 s
  | .deviceReset a0 => Sys2Proof.Machine.execDeviceReset a0 s
  | .resetN a0 => Sys2Proof.Machine.execResetN a0 s
  | .pwrgdIn => Sys2Proof.Machine.execPwrgdIn s
  | .inputStuck a0 a1 => Sys2Proof.Machine.execInputStuck a0 a1 s
  | .stuckMashScan a0 a1 a2 => Sys2Proof.Machine.execStuckMashScan a0 a1 a2 s
  | .heartbeatTick => Sys2Proof.Machine.execHeartbeatTick s
  | .mgmtDisagree => Sys2Proof.Machine.execMgmtDisagree s
  | .twinCtrlWrite a0 a1 => Sys2Proof.Machine.execTwinCtrlWrite a0 a1 s
  | .twinBeatSend => Sys2Proof.Machine.execTwinBeatSend s
  | .twinBeat a0 => Sys2Proof.Machine.execTwinBeat a0 s
  | .twinBeatMissed a0 => Sys2Proof.Machine.execTwinBeatMissed a0 s
  | .promote a0 => Sys2Proof.Machine.execPromote a0 s
  | .demote a0 => Sys2Proof.Machine.execDemote a0 s
  | .resync a0 => Sys2Proof.Machine.execResync a0 s
  | .twinPromote => Sys2Proof.Machine.execTwinPromote s
  | .twinDemote => Sys2Proof.Machine.execTwinDemote s
  | .twinRevert => Sys2Proof.Machine.execTwinRevert s
  | .twinRoleSwap => Sys2Proof.Machine.execTwinRoleSwap s
  | .twinHoldoffExpiry => Sys2Proof.Machine.execTwinHoldoffExpiry s
  | .twinResyncStart => Sys2Proof.Machine.execTwinResyncStart s
  | .resyncDone a0 a1 => Sys2Proof.Machine.execResyncDone a0 a1 s
  | .cellarBoot => Sys2Proof.Machine.execCellarBoot s
  | .cellarBootTimeout => Sys2Proof.Machine.execCellarBootTimeout s
  | .fuseLoad a0 => Sys2Proof.Machine.execFuseLoad a0 s
  | .domainUp a0 => Sys2Proof.Machine.execDomainUp a0 s
  | .selfTest a0 => Sys2Proof.Machine.execSelfTest a0 s
  | .sramClear a0 => Sys2Proof.Machine.execSramClear a0 s
  | .hbmTrain a0 => Sys2Proof.Machine.execHbmTrain a0 s
  | .linkTrain a0 => Sys2Proof.Machine.execLinkTrain a0 s
  | .linkQualify a0 => Sys2Proof.Machine.execLinkQualify a0 s
  | .timeSync a0 => Sys2Proof.Machine.execTimeSync a0 s
  | .ready a0 => Sys2Proof.Machine.execReady a0 s
  | .stepDone a0 a1 a2 a3 a4 => Sys2Proof.Machine.execStepDone a0 a1 a2 a3 a4 s
  | .stepTimeout => Sys2Proof.Machine.execStepTimeout s
  | .void a0 => Sys2Proof.Machine.execVoid a0 s
  | .install a0 => Sys2Proof.Machine.execInstall a0 s
  | .keyWrite a0 a1 a2 a3 => Sys2Proof.Machine.execKeyWrite a0 a1 a2 a3 s
  | .svnMinWrite a0 a1 => Sys2Proof.Machine.execSvnMinWrite a0 a1 s
  | .getChallenge a0 => Sys2Proof.Machine.execGetChallenge a0 s
  | .submit a0 a1 a2 => Sys2Proof.Machine.execSubmit a0 a1 a2 s
  | .close a0 => Sys2Proof.Machine.execClose a0 s
  | .sessionExpiry a0 => Sys2Proof.Machine.execSessionExpiry a0 s
  | .authLockoutExpiry a0 => Sys2Proof.Machine.execAuthLockoutExpiry a0 s
  | .start a0 => Sys2Proof.Machine.execStart a0 s
  | .activate a0 => Sys2Proof.Machine.execActivate a0 s
  | .fwupdAbort a0 => Sys2Proof.Machine.execFwupdAbort a0 s
  | .bootOther a0 => Sys2Proof.Machine.execBootOther a0 s
  | .fwupdShelfWrite a0 a1 => Sys2Proof.Machine.execFwupdShelfWrite a0 a1 s
  | .fwChunk a0 a1 => Sys2Proof.Machine.execFwChunk a0 a1 s
  | .fwAck a0 a1 => Sys2Proof.Machine.execFwAck a0 a1 s
  | .fwChildSilent a0 => Sys2Proof.Machine.execFwChildSilent a0 s
  | .fwParentSilent => Sys2Proof.Machine.execFwParentSilent s
  | .fwVerifyDone => Sys2Proof.Machine.execFwVerifyDone s
  | .registerWrite a0 a1 a2 => Sys2Proof.Machine.execRegisterWrite a0 a1 a2 s
  | .pcieLinkUp a0 a1 => Sys2Proof.Machine.execPcieLinkUp a0 a1 s
  | .hostMemoryReadCompletion a0 a1 => Sys2Proof.Machine.execHostMemoryReadCompletion a0 a1 s
  | .managementPortLinkLoss => Sys2Proof.Machine.execManagementPortLinkLoss s
  | .cellarRunning => Sys2Proof.Machine.execCellarRunning s
  | .partResetPhaseEnd a0 a1 a2 a3 => Sys2Proof.Machine.execPartResetPhaseEnd a0 a1 a2 a3 s
  | .boundaryScanInstruction a0 => Sys2Proof.Machine.execBoundaryScanInstruction a0 s

end Sys2Proof.Machine
end

