-- ==== Sys2Proof/Machine/Fetch.lean ====
section
/-! DEFINITION. What the package does when no command waits: a tick passes, held accesses are looked at again, a packet
that was delivered becomes its command, and running gangs fetch and issue (R36, R67, R72, R96, R156;
notes/assumptions/1.md). -/

namespace Sys2Proof.Machine

/-- The command that a delivered packet is (R196, R298). -/
def packetCommand (p : Packet) : Option Instr :=
  match p.opcode with
  | 0x01 => some (.rdReq p)
  | 0x02 => some (.wr p)
  | 0x10 => some (.atAdd32 p)
  | 0x11 => some (.atAdd64 p)
  | 0x12 => some (.atAddf32 p)
  | 0x13 => some (.atSwap p)
  | 0x14 => some (.atCas p)
  | 0x15 => some (.atBset p)
  | 0x16 => some (.atBclr p)
  | 0x20 => some (.putData p)
  | 0x21 => some (.getReq p)
  | 0x23 => some (.thirdReq p)
  | 0x30 => some (.pitchWr p)
  | 0x40 => some (.clReduce p)
  | 0x41 => some (.clData p)
  | 0x42 => some (.clBar p)
  | 0x43 => some (.clCap p)
  | 0x44 => some (.clAbort p)
  | 0x60 => some (.rdResp p)
  | 0x61 => some (.ack p)
  | 0x62 => some (.atResp p)
  | 0x63 => some (.copyDone p)
  | 0x64 => some (.getData p)
  | 0x65 => some (.lateNote p)
  | _ => none

/-- The packet delivered first becomes a command (R266); one whose opcode is not listed is discarded and counted
(R197). -/
def takeDelivered (s : State) : State :=
  match s.rma.deliverQ with
  | [] => s
  | p :: r =>
    let s := { s with rma := { s.rma with deliverQ := r } }
    match packetCommand p with
    | some c => { s with pending := s.pending ++ [c] }
    | none => addSat Reg.winRefuseCount 63 0 1 s

/-- Whether a word of instruction memory is BR or BRP (R75). -/
def isBranchWord (w : Word) : Bool := fld w 63 56 == 0x20 || fld w 63 56 == 0x21

/-- The leader of a running gang fetches one instruction and broadcasts it (R72, R96): not past a branch that it has not
executed, nor while a member's queue is full. An index past the image is IMEM_RANGE (R99). -/
def fetchGang (l : Nat) (s : State) : State :=
  let x := tl s l
  let i := tileIndex s l + x.iq.length
  let ms := membersOf s l
  if x.iq.any isBranchWord || ms.any (fun m => decide (64 ≤ (tl s m).iq.length)) then s
  else if x.wrapped ∨ x.imemLen ≤ i ∨ 8192 ≤ i then (if x.iq = [] ∧ x.wait = none then tileFault l 3 s else s)
  else ms.foldl (fun s m => onTl m (fun y => { y with iq := y.iq ++ [mget 0 x.imem i] }) s) s

/-- Whether a tile waits for its instruction queue to fill shows in WAIT_KIND, where nothing else does (R96, R101). -/
def showQueueWait (t : Nat) (empty : Bool) (s : State) : State :=
  let k := rdF s (Reg.tileStatus t) 15 12
  if empty && k == 0 then wrF (Reg.tileStatus t) 15 12 7 s
  else if !empty && k == 7 then wrF (Reg.tileStatus t) 15 12 0 s else s

/-- A tile whose CPLW waits only for a bank looks at it again (R85, R156). -/
def retryRecord (t : Nat) (s : State) : State :=
  match (tl s t).wait with
  | some (.cplw w _ _) => (match lookTag s w with | .done _ _ => settle t s | _ => s)
  | _ => s

/-- A tile that can issue takes the instruction at the front of its queue as a command; a word that spells none is
ILLEGAL_OP (R71, R75). It leaves the queue when it issues. -/
def issueFront (t : Nat) (s : State) : State :=
  if !canIssue s t then retryRecord t s
  else
    match (tl s t).iq with
    | [] => s |> showQueueWait t true |> stalled t
    | w :: _ =>
      let s := showQueueWait t false s
      match decodeTile t w with
      | some i => { s with pending := s.pending ++ [i] }
      | none => tileFault t 1 s

/-- The tiles that run. -/
def runningTiles (s : State) : List Nat := (List.range 512).filter (fun t => tileState s t = 3)

/-- TIME.NOW goes on by a tick, unless the increment is skipped or doubled (R36). -/
def countTick (s : State) : State :=
  if s.tim.skip ≠ 0 then { s with tim := { s.tim with skip := s.tim.skip - 1 } }
  else if s.tim.dbl ≠ 0 then passTicks 2 { s with tim := { s.tim with dbl := s.tim.dbl - 1 } }
  else passTicks 1 s

/-- One tick without a command: the clock, a cycle of every bank, what waits in front of banks and stacks, a delivered
packet, fetch and issue. -/
def tick (s : State) : State :=
  let s := s |> countTick |> bankCycles |> retryAt (fun _ => true) |> takeDelivered
  let s := ((runningTiles s).filter (fun t => leaderOf s t = t)).foldl (fun s l => fetchGang l s) s
  (runningTiles s).foldl (fun s t => issueFront t s) s

end Sys2Proof.Machine
end

