-- ==== Sys2Proof/Safety.lean ====
section
/-! DEFINITION. What counts as a safe run, and the words in which claims are stated: completion, and what a command
leaves unchanged. -/

namespace Sys2Proof.Machine

/-- Memory is in its one canonical form: addresses strictly rising, no cell equal to what an unlisted address reads as
(notes/assumptions/3.md). -/
def Memory.wf (m : List Host.Cell) : Bool := mwf (fun _ => (0 : Byte)) m

/-- Memory and its check bits are in canonical form. -/
def State.memWf (s : State) : Bool := Memory.wf s.mem && mwf (fun _ => Ecc.clean) s.ecc

/-- `k` steps run without a stop, from a state to another. -/
def Reaches : Nat → State → State → Prop
  | 0, s, u => u = s
  | k + 1, s, u => ∃ v, step s = .next v ∧ Reaches k v u

/-- A safe run: `k` steps neither fault nor are refused, and memory ends in canonical form. -/
def SafeRun (k : Nat) (s : State) : Prop := ∃ u, Reaches k s u ∧ u.memWf = true

/-- A command completes: it answers a next state, of which `post` holds. -/
def Completes (c : Instr) (s : State) (post : State → Prop) : Prop := ∃ u, exec c s = .next u ∧ post u

-- What stays

/-- Every register outside a list reads as before. -/
def RegsKept (l : List Nat) (s u : State) : Prop := ∀ a, a ∉ l → rd u a = rd s a

/-- Every tile's record but one's is as before. -/
def TilesKept (t : Nat) (s u : State) : Prop := ∀ k, k ≠ t → tl u k = tl s k

/-- Every byte of memory reads as before. -/
def MemKept (s u : State) : Prop := ∀ a, memByte u a = memByte s a

/-- Every byte of memory outside `n` bytes from `a` reads as before. -/
def MemKeptBut (a n : Nat) (s u : State) : Prop := ∀ b, b < a ∨ a + n ≤ b → memByte u b = memByte s b

/-- A state without its registers, its tiles, its memory and its check bits. -/
def State.rest (s : State) : State := { s with regs := [], tiles := [], mem := [], ecc := [] }

/-- A tile without its general registers, predicates, vector registers, without its fetched instructions and where it is in
them, and without what is still on its way to its SRAM. -/
def Tile.rest (x : Tile) : Tile :=
  { x with g := [], p := 0, v := [], iq := [], unsettled := [], asked := false, wrapped := false }

-- Tiles

/-- A tile can issue an instruction: it runs and waits for nothing, the guard is true, and no register the instruction
reads has an RLD pending (R67, R68). -/
abbrev Runs (s : State) (t : Nat) (pn : Bool) (pg : BitVec 3) (reads : List Nat) : Prop :=
  canIssue s t = true ∧ guardTrue (tl s t) pn pg = true ∧ ∀ r ∈ reads, r = 0 ∨ r ∉ (tl s t).pend

/-- A tile has issued one instruction and gone on to the next: INDEX and CYCLES advance by one, its run state stays;
every register outside a list, every other tile and everything but registers, tiles and memory is as before. -/
def MovedOn (t : Nat) (l : List Nat) (s u : State) : Prop :=
  tileIndex u t = (tileIndex s t + 1) % 8192 ∧ rd u (Reg.cycles t) = rd s (Reg.cycles t) + 1
    ∧ tileState u t = tileState s t ∧ RegsKept (Reg.tileStatus t :: Reg.cycles t :: l) s u ∧ TilesKept t s u
    ∧ u.rest = s.rest

/-- A tile has issued an instruction that accessed its own SRAM, and gone on to the next: as `MovedOn`, but the words of
the access take their cycles at the tile's banks (R146); the banks of the other tiles are as before. -/
def MovedOnSram (t : Nat) (l : List Nat) (s u : State) : Prop :=
  MovedOn t l { s with banks := u.banks } u ∧ ∀ g, g / 16 ≠ t → bank u g = bank s g

/-- A general register was written: it reads the value unless it is g0, which reads 0; the others read as before. -/
def WroteG (t : Nat) (d : BitVec 5) (v : Word) (s u : State) : Prop :=
  gv u t d = (if d = 0 then 0 else v) ∧ ∀ r, r ≠ d.toNat → greg (tl u t) r = greg (tl s t) r

/-- A predicate was written: it reads the value unless it is p0, which reads 1; the others read as before. -/
def WroteP (t d : Nat) (b : Bool) (s u : State) : Prop :=
  preg (tl u t) d = (d == 0 || b) ∧ ∀ i, i ≠ d → preg (tl u t) i = preg (tl s t) i

/-- The general registers, predicates and vector registers of a tile read as before. -/
def GKept (t : Nat) (s u : State) : Prop := ∀ r, greg (tl u t) r = greg (tl s t) r
/-- See `GKept`. -/
def PKept (t : Nat) (s u : State) : Prop := ∀ i, preg (tl u t) i = preg (tl s t) i
/-- See `GKept`. -/
def VKept (t : Nat) (s u : State) : Prop := ∀ r, vreg (tl u t) r = vreg (tl s t) r

end Sys2Proof.Machine
end

