-- ==== Sys2Proof/WellFormed.lean ====
section
/-! DEFINITION. The ranges a command's operands lie in: the counts the spec gives for tiles, ports, partitions, banks,
queues and the other numbered parts, and the widths of packet fields. -/

namespace Sys2Proof

/-- Tile number (R9). -/
def tileOk (t : Nat) : Bool := decide (t < 512)
/-- Port number (R18). -/
def portOk (n : Nat) : Bool := decide (n < 32)
/-- Partition and stack numbers (R3, R9). -/
def stackOk (p s : Nat) : Bool := decide (p < 4) && decide (s < 4)
/-- Completion tag (R198). -/
def tagOk (t : Nat) : Bool := decide (t < 32768)
/-- Queue pair number (R334). -/
def queueOk (q : Nat) : Bool := decide (q < 512)
/-- Cluster number within the device (R9). -/
def clusterOk (p c : Nat) : Bool := decide (p < 4) && decide (c < 8)

/-- Ranges of a writer's numbers. -/
def Writer.wf : Writer → Bool
  | .path _ => true
  | .vf v => decide (v < 256)
  | .fabric d t => decide (d < 16384) && decide (t < 256)
  | .tile t => tileOk t
  | .engine i => decide (i < 4)

/-- Field widths of a packet header and the payload limit (R195). -/
def Packet.wf (p : Packet) : Bool :=
  decide (p.dst < 16384) && decide (p.src < 16384) && decide (p.vc < 8) && decide (p.epoch < 2)
    && decide (p.opcode < 256) && decide (p.pos < 65536) && decide (p.digit < 256) && decide (p.gen < 16) && decide (p.tag < 32768)
    && decide (p.tenant < 256) && decide (p.len4 < 65) && decide (p.addr < 2 ^ 48) && decide (p.seg < 2 ^ 24)
    && decide (p.twinSeq < 4096) && decide (p.schedVer < 2) && decide (p.status < 4096)
    && decide (p.payload.length ≤ 256)

/-- Ranges of what a port finds when it trains (R238). -/
def TrainObs.wf (o : TrainObs) : Bool :=
  decide (o.rxLanes.length = 8) && decide (o.txLanes.length = 8) && decide (o.laneMap < 3)
    && decide (o.polarity < 256) && decide (o.nbDevice < 16384) && decide (o.nbPort < 32)
    && decide (o.nbFree.length = 8) && decide (o.nbAlloc.length = 8)

/-- Ranges of a table entry's place (R386). -/
def TableSpot.wf : TableSpot → Bool
  | .completion tag => decide (tag < 32768)
  | .window i => decide (i < 4096)
  | .group g => decide (g < 4096)
  | .member i => decide (i < 262144)

/-- Ranges of a barrier key. -/
def BarKey.wf : BarKey → Bool
  | .gang l => tileOk l
  | .device t i => decide (t < 256) && decide (i < 65536)
  | .group g => decide (g < 4096)

/-- Ranges of a twin beat's fields. -/
def TwinBeat.wf (b : TwinBeat) : Bool := decide (b.src < 16384) && decide (b.role < 4)

/-- Ranges of a hold place. -/
def HoldPlace.wf : HoldPlace → Bool
  | .router => true
  | .bond b => decide (b < 32)
  | .pitch n => portOk n
  | .staged n => portOk n
  | .port n => portOk n
  | .merge b => decide (b < 12)
  | .deliver => true

/-- Ranges of the function an access comes through. -/
def HostFn.wf : HostFn → Bool
  | .pf => true
  | .vf v => decide (v < 256)

/-- Ranges of a transport packet (R344). -/
def EthFrame.wf (f : EthFrame) : Bool :=
  decide (f.flow < 256) && decide (f.seq < 2 ^ 32) && decide (f.ack < 2 ^ 32)

/-- Ranges of what a resynchronisation brings (R418, R422). -/
def ResyncCopy.wf (c : ResyncCopy) : Bool :=
  c.mem.all (fun m => decide (m.1 + m.2.length ≤ 2 ^ 48)) && c.seqs.all (fun q => decide (q.1 < 16384 ∧ q.2 < 4096))
    && c.windows.all (fun w => decide (w.1 < 64))

/-- The operands of a command lie in their ranges. -/
def Instr.wf : Instr → Bool
  | .add t _ => tileOk t
  | .sub t _ => tileOk t
  | .mul t _ => tileOk t
  | .and t _ => tileOk t
  | .or t _ => tileOk t
  | .xor t _ => tileOk t
  | .shl t _ => tileOk t
  | .shr t _ => tileOk t
  | .cmp t _ => tileOk t
  | .sel t _ => tileOk t
  | .addImm t _ => tileOk t
  | .subImm t _ => tileOk t
  | .mulImm t _ => tileOk t
  | .andImm t _ => tileOk t
  | .orImm t _ => tileOk t
  | .xorImm t _ => tileOk t
  | .shlImm t _ => tileOk t
  | .shrImm t _ => tileOk t
  | .cmpImm t _ => tileOk t
  | .br t _ => tileOk t
  | .brp t _ => tileOk t
  | .ld t _ => tileOk t
  | .st t _ => tileOk t
  | .atmAdd t _ => tileOk t
  | .atmSwp t _ => tileOk t
  | .atmCas t _ => tileOk t
  | .vld t _ => tileOk t
  | .vst t _ => tileOk t
  | .sdesc t _ => tileOk t
  | .sgo t _ => tileOk t
  | .swait t _ => tileOk t
  | .mxw t _ => tileOk t
  | .mxm t _ => tileOk t
  | .mxd t _ => tileOk t
  | .mxx t _ => tileOk t
  | .vadd t x => tileOk t && x.fn == 0
  | .vsub t x => tileOk t && x.fn == 1
  | .vmul t x => tileOk t && x.fn == 2
  | .vfma t x => tileOk t && x.fn == 3
  | .vmax t x => tileOk t && x.fn == 4
  | .vmin t x => tileOk t && x.fn == 5
  | .vmaxsub t x => tileOk t && x.fn == 6
  | .vrsum t x => tileOk t && x.fn == 7
  | .vcvtS t x => tileOk t && decide (0x40 ≤ x.fn.toNat ∧ x.fn.toNat ≤ 0x5C)
  | .vcvtN t x => tileOk t && decide (0x80 ≤ x.fn.toNat ∧ x.fn.toNat ≤ 0x9C)
  | .vwadd t x => tileOk t && x.fn == 0xc0
  | .vwrnd t x => tileOk t && x.fn == 0xc1
  | .vwcvt t x => tileOk t && x.fn == 0xc2
  | .vexp2 t x => tileOk t && x.fn == 0
  | .vlog2 t x => tileOk t && x.fn == 1
  | .vrcp t x => tileOk t && x.fn == 2
  | .vrsqrt t x => tileOk t && x.fn == 3
  | .vredadd t x => tileOk t && x.fn == 0
  | .vredmax t x => tileOk t && x.fn == 1
  | .vredmin t x => tileOk t && x.fn == 2
  | .rld t _ => tileOk t
  | .rst t _ => tileOk t
  | .rat t _ => tileOk t
  | .rcpPut t x => tileOk t && x.sub == 0
  | .rcpGet t x => tileOk t && x.sub == 1
  | .rcpThird t x => tileOk t && x.sub == 2
  | .clvAllReduce t x => tileOk t && x.sub == 0
  | .clvReduceScatter t x => tileOk t && x.sub == 1
  | .clvAllGather t x => tileOk t && x.sub == 2
  | .clvBroadcast t x => tileOk t && x.sub == 3
  | .clvAllToAll t x => tileOk t && x.sub == 4
  | .clvCapacityAllToAll t x => tileOk t && x.sub == 5
  | .tread t _ => tileOk t
  | .waitt t _ => tileOk t
  | .waittRelease t => tileOk t
  | .atslot t _ => tileOk t
  | .bar t _ => tileOk t
  | .barRelease k => k.wf
  | .barDeadlineExpiry k => k.wf
  | .fence t _ => tileOk t
  | .cplw t _ => tileOk t
  | .cplp t _ => tileOk t
  | .steep t _ => tileOk t
  | .gangId t x => tileOk t && x.sub == 0
  | .gangForm t x => tileOk t && x.sub == 1
  | .gangDissolve t x => tileOk t && x.sub == 2
  | .gangEnd t x => tileOk t && x.sub == 3
  | .streamDescStart t => tileOk t
  | .streamDescDone t => tileOk t
  | .run q => queueOk q
  | .formGang q => queueOk q
  | .dissolveGang q => queueOk q
  | .jobEntry leader => tileOk leader
  | .tileStop who t => who.wf && tileOk t
  | .tileResume who t => who.wf && tileOk t
  | .tileAbort who t => who.wf && tileOk t
  | .srSeedWrite who t _ => who.wf && tileOk t
  | .roundStart => true
  | .timeFlit n _ d k _ _ v _ => portOk n && decide (d < 16384) && decide (k < 8) && decide (v < 2)
  | .lockedEntry => true
  | .holdoverEntry => true
  | .parentSwitch => true
  | .timePpsEdge _ => true
  | .ptpMessage _ => true
  | .extReferenceLost => true
  | .pitchFlitArrive n p _ _ => portOk n && p.wf
  | .pitchSlotSend n => portOk n
  | .pitchPortResume n => portOk n
  | .pitchPathBoundExpiry tag => tagOk tag
  | .schedSwitchRoundWrite who _ => who.wf
  | .schedSwitch => true
  | .bankScrub t b _ _ => tileOk t && decide (b < 16)
  | .bankEccWriteback t b => tileOk t && decide (b < 16)
  | .bankOwnerNextWrite who t b _ => who.wf && tileOk t && decide (b < 16)
  | .handoverDone t b => tileOk t && decide (b < 16)
  | .hbmAccess p s _ _ _ _ => stackOk p s
  | .hbmScrub p s _ => stackOk p s
  | .hbmRefresh p s => stackOk p s
  | .rfmRequest p s => stackOk p s
  | .hbmTempRead p s _ => stackOk p s
  | .hbmParityError p s => stackOk p s
  | .retrainNow who p s => who.wf && stackOk p s
  | .hbmPeriodicRetrainTrigger p s => stackOk p s
  | .hbmDeferredRetrainStart p s => stackOk p s
  | .hbmRetrainStart p s => stackOk p s
  | .hbmRetrainDone p s _ _ => stackOk p s
  | .rdReq p => p.wf
  | .wr p => p.wf
  | .atAdd32 p => p.wf
  | .atAdd64 p => p.wf
  | .atAddf32 p => p.wf
  | .atSwap p => p.wf
  | .atCas p => p.wf
  | .atBset p => p.wf
  | .atBclr p => p.wf
  | .putData p => p.wf
  | .ackFlushTimeout _ tag => tagOk tag
  | .getReq p => p.wf
  | .thirdReq p => p.wf
  | .pitchWr p => p.wf
  | .rdResp p => p.wf
  | .ack p => p.wf
  | .atResp p => p.wf
  | .copyDone p => p.wf
  | .getData p => p.wf
  | .lateNote p => p.wf
  | .deadlineExpiry tag => tagOk tag
  | .quarantineExpiry tag => tagOk tag
  | .holdLimitDiscard p => p.wf
  | .windowUpdateGo who _ => who.wf
  | .windowUpdateCommit => true
  | .fecFrame n a b e l => portOk n && decide (a ≤ 450 ∧ b ≤ 450 ∧ e.length = 8) && decide (e.foldl (fun x y => x + y) 0 = a + b)
      && decide (l.length = 16)
  | .ackTimerExpiry n => portOk n
  | .auditSend n => portOk n
  | .audit n t q => portOk n && decide (t.length = 8) && decide (q < 65536)
  | .laneLos n => portOk n
  | .txOffExpiry n => portOk n
  | .signalDetect n => portOk n
  | .fullTrain n o => portOk n && o.wf
  | .trainTimeout n => portOk n
  | .miswiredRetry n o => portOk n && o.wf
  | .neighbourExpWrite who n _ => who.wf && portOk n
  | .qualDone n h _ _ l => portOk n && decide (h.length ≤ 19 ∧ l.length ≤ 8)
  | .retrain n _ => portOk n
  | .retrainNowPort who n => who.wf && portOk n
  | .trainingPatternSeen n => portOk n
  | .retrainDone n o => portOk n && o.wf
  | .forceDownSet who n => who.wf && portOk n
  | .forceDownClear who n => who.wf && portOk n
  | .rest who n => who.wf && portOk n
  | .restReq n => portOk n
  | .restAck n => portOk n
  | .restNak n => portOk n
  | .restTimeout n => portOk n
  | .wake n why => portOk n && (match why with | .write w => w.wf | _ => true)
  | .wakeDone n o => portOk n && o.wf
  | .wakeTimeout n => portOk n
  | .routePacket x => (match x.table with | none => true | some t => t.wf)
  | .bondDeal b => decide (b < 32)
  | .bondMap b f m => decide (b < 32) && decide (f < 2 ^ 32) && decide (m < 2 ^ 32)
  | .bondRestart n _ _ => portOk n
  | .routeTableWrite who _ d _ => who.wf && decide (d < 16384)
  | .flip who => who.wf
  | .routeDrained => true
  | .routeMachineWrite who _ => who.wf
  | .presetWrite who _ => who.wf
  | .portBondWrite who n _ => who.wf && portOk n
  | .cmapSnapshot => true
  | .cmapRecord p => p.wf
  | .groupGo who _ => who.wf
  | .groupDelete who _ => who.wf
  | .abortOld who _ => who.wf
  | .groupUpdateCommit => true
  | .clReduce p => p.wf
  | .clData p => p.wf
  | .clBar p => p.wf
  | .clCap p => p.wf
  | .clAbort p => p.wf
  | .collPhaseSend g _ q => decide (g < 4096) && decide (q < 16384)
  | .collLateSend g _ q => decide (g < 4096) && decide (q < 16384)
  | .collComplete g _ q => decide (g < 4096) && decide (q < 16384)
  | .groupBarReleaseComputed g => decide (g < 4096)
  | .cvuCfgWrite who c _ => who.wf && decide (c < 64)
  | .cvuResultDelivery c => decide (c < 64)
  | .qCtrlWrite who q _ => who.wf && queueOk q
  | .sqTailWrite who q _ => who.wf && queueOk q
  | .sqFetch q => queueOk q
  | .toDevice q => queueOk q
  | .fromDevice q => queueOk q
  | .ethSend q => queueOk q
  | .queueRecordWrite q => queueOk q
  | .cqHeadWrite who q _ => who.wf && queueOk q
  | .cqRtc who q => who.wf && queueOk q
  | .hostBarAccess fn b _ _ => fn.wf && decide (b < 5)
  | .barReadTimeout _ => true
  | .flrVf v => decide (v < 256)
  | .flrPf _ => true
  | .dlDown => true
  | .ethFrame p f => decide (p < 2) && f.wf
  | .ethRtoExpiry f => decide (f < 256)
  | .railRead r _ _ => decide (r < 16)
  | .railLost r => decide (r < 16)
  | .regulatorWarnStep r => decide (r < 16)
  | .regulatorFault r => decide (r < 16)
  | .activityEstimate l => decide (l.length = 4)
  | .freqStep p => decide (p < 4)
  | .freqRequestRelease p => decide (p < 4)
  | .droopTrip p c => clusterOk p c
  | .droopRecover p x => clusterOk p x.cluster && decide (x.tick < 2 ^ 64)
  | .powerCapWrite who _ => who.wf
  | .capLeaseExpiry => true
  | .slackPublish => true
  | .powerShift => true
  | .ballastUpdate t => tileOk t
  | .governorRelease t => tileOk t
  | .sensorRead l => decide (l.length = 36)
  | .throttleAdjust c => decide (c < 32)
  | .throttleRelease c => decide (c < 32)
  | .kilnForecast => true
  | .coolantWrite who _ => who.wf
  | .coolantStale => true
  | .throttleInAssert _ => true
  | .throttleInDeassert => true
  | .extLatched => true
  | .domainOn who d => who.wf && decide (d < 64)
  | .domainOff who d => who.wf && decide (d < 64)
  | .domainTurnOn r => decide (r < 16)
  | .faultReaction => true
  | .faultStatusClear who _ => who.wf
  | .faultForce who _ => who.wf
  | .abortGo who _ => who.wf
  | .jobAbort n p => portOk n && p.wf
  | .fencePartition who _ => who.wf
  | .fenceDrainDone p => decide (p < 4)
  | .drainExpired p => decide (p < 4)
  | .partReset who _ => who.wf
  | .deviceReset who => who.wf
  | .resetN _ => true
  | .pwrgdIn => true
  | .inputStuck _ _ => true
  | .stuckMashScan _ _ _ => true
  | .heartbeatTick => true
  | .mgmtDisagree => true
  | .twinCtrlWrite who _ => who.wf
  | .twinBeatSend => true
  | .twinBeat b => b.wf
  | .twinBeatMissed d => decide (d < 16384)
  | .promote who => who.wf
  | .demote who => who.wf
  | .resync who => who.wf
  | .twinPromote => true
  | .twinDemote => true
  | .twinRevert => true
  | .twinRoleSwap => true
  | .twinHoldoffExpiry => true
  | .twinResyncStart => true
  | .resyncDone _ c => c.wf
  | .cellarBoot => true
  | .cellarBootTimeout => true
  | .fuseLoad who => who.wf
  | .domainUp who => who.wf
  | .selfTest who => who.wf
  | .sramClear who => who.wf
  | .hbmTrain who => who.wf
  | .linkTrain who => who.wf
  | .linkQualify who => who.wf
  | .timeSync who => who.wf
  | .ready who => who.wf
  | .stepDone d b _ _ _ => d.all (fun x => decide (x < 64)) && b.all (fun x => decide (x.1 < 4 ∧ x.2.1 < 132))
  | .stepTimeout => true
  | .void who => who.wf
  | .install who => who.wf
  | .keyWrite who k w _ => who.wf && decide (k < 8) && decide (w < 16)
  | .svnMinWrite who _ => who.wf
  | .getChallenge _ => true
  | .submit _ r k => decide (r < 4) && decide (k < 8)
  | .close _ => true
  | .sessionExpiry _ => true
  | .authLockoutExpiry _ => true
  | .start who => who.wf
  | .activate who => who.wf
  | .fwupdAbort who => who.wf
  | .bootOther who => who.wf
  | .fwupdShelfWrite who _ => who.wf
  | .fwChunk n p => portOk n && p.wf
  | .fwAck n p => portOk n && p.wf
  | .fwChildSilent n => portOk n
  | .fwParentSilent => true
  | .fwVerifyDone => true
  | .registerWrite who a _ => who.wf && decide (a < 0x2040000)
  | .pcieLinkUp _ _ => true
  | .hostMemoryReadCompletion _ _ => true
  | .managementPortLinkLoss => true
  | .cellarRunning => true
  | .partResetPhaseEnd p _ b _ => decide (p < 4) && b.all (fun x => decide (x.1 < 4 ∧ x.2.1 < 132))
  | .boundaryScanInstruction l => decide (l.length ≤ 8)
end Sys2Proof
end

