-- ==== Sys2Proof/Certificates/Slice0/Obligations.lean ====
section
/-! DEFINITION. The statements for the provers: one Prop for each group of commands. A clause is an implication from a
state and operands alone to what the command answers. -/

open Sys2Proof Sys2Proof.Machine

-- The machine

/-- Every step with a command waiting runs the command at the front of the queue on the state with the queue's rest;
with none waiting a tick passes (notes/assumptions/1.md). -/
def Obligations.StepRunsFrontCommand : Prop :=
  (∀ (c : Instr) (rest : List Instr) (s : State), step { s with pending := c :: rest } = exec c { s with pending := rest })
    ∧ ∀ s : State, s.pending = [] → step s = .next (tick s)

/-- No command faults and none is refused: every step answers a next state (notes/assumptions/6.md). -/
def Obligations.StepAlwaysGoesOn : Prop := ∀ s : State, ∃ u, step s = .next u

/-- What the registers read right after power-on reset, where the spec gives the value; nothing lies in memory or in a
table, no command waits, every access window is empty.
Model's choices, not the spec's: that unwritten memory and the general registers start at 0 (notes/assumptions/3.md, 2.md); the spec gives the registers named here their values. -/
def Obligations.ResetRegisters : Prop :=
  rd State.reset Reg.faultCtrl = 0x8000000000000000 ∧ rd State.reset Reg.smdCtrl = 0x800000000000000A
    ∧ rd State.reset Reg.fenceDrain = 0x186A00 ∧ rd State.reset Reg.powerCtrl = 0x400000
    ∧ rd State.reset Reg.powerCap = 0x0000096005140960 ∧ rd State.reset Reg.capLease = 0x00000708000003E8
    ∧ rd State.reset Reg.ballastLevel = 0xC00000000004003C ∧ rd State.reset Reg.extThrottle = 0x20
    ∧ rd State.reset Reg.shiftCtrl = 0x780008 ∧ rd State.reset Reg.thermalLimits = 0x6E5F
    ∧ rd State.reset Reg.forecastCtrl = 0x58 ∧ rd State.reset Reg.timeGuard = 0x10
    ∧ rd State.reset Reg.timeSyncWait = 0x2710 ∧ rd State.reset Reg.twinCtrl = 0x0000003C00000000
    ∧ rd State.reset Reg.beatCtrl = 0x0000000400000010 ∧ rd State.reset Reg.deadlineCube = 0x7D00
    ∧ rd State.reset Reg.deadlineFar = 0x4E200 ∧ rd State.reset Reg.copyAllow = 0x280
    ∧ rd State.reset Reg.cplQuarantine = 0x186A0000
    ∧ (∀ t, t < 512 → rd State.reset (Reg.barDeadline t) = 0x80000000 ∧ tileIndex State.reset t = 0
        ∧ rd State.reset (Reg.bankCtrl t) = 0xF01)
    ∧ (∀ t b, t < 512 → b < 16 → rd State.reset (Reg.bankOwner t b) = 0x03000000)
    ∧ State.reset.now = 0 ∧ (∀ a, memByte State.reset a = 0) ∧ State.reset.memWf = true ∧ State.reset.pending = []
    ∧ (∀ t r, greg (tl State.reset t) r = 0)

-- Words (R72–R75)

/-- Decoding the word of a tile's instruction gives it back, with every operand at every value. -/
def Obligations.TileWordsRoundTrip : Prop :=
  ∀ (i : Instr) (w : Word), encodeTile i = some w → i.wf = true → ∃ t, decodeTile t w = some i

-- Issue (R68, R71)

namespace Sys2Proof.Machine

/-- A tile fault: every member of the gang is FAULTED and waits for nothing, FAULT_STATUS shows TILE_FAULT, FAULT_INFO
holds the first fault; memory and the tiles' registers are as before (R71, R104). -/
def FaultedWith (t code : Nat) (s u : State) : Prop :=
  (∀ m ∈ membersOf s (leaderOf s t), tileState u m = 5 ∧ (tl u m).wait = none)
    ∧ (rdB s (Reg.faultInfo t) 0 = false →
        rd u (Reg.faultInfo t) = wd (tileIndex s t * 2 ^ 32 + code * 2 + 1))
    ∧ (rdB s (Reg.faultInfo t) 0 = true → rd u (Reg.faultInfo t) = rd s (Reg.faultInfo t))
    ∧ rdB u Reg.faultStatus 6 = true ∧ MemKept s u ∧ ∀ m, GKept m s u ∧ PKept m s u ∧ VKept m s u

end Sys2Proof.Machine

/-- An instruction whose guard is false takes one issue cycle and has no other effect: no register but INDEX and CYCLES,
no tag, no packet, no fault but ILLEGAL_OP. A branch of a gang of several tiles, where the leader's guard decides, is
`BranchesOfALeader`. -/
def Obligations.FalseGuards : Prop :=
  ∀ (c : Instr) (w : Word) (t : Nat) (s : State), t < 512 → encodeTile c = some w → decodeTile t w = some c →
    canIssue s t = true → guardTrue (tl s t) (w.getLsbD 55) (w.extractLsb' 52 3) = false →
    (fld w 63 56 = 0x20 ∨ fld w 63 56 = 0x21 → leaderOf s t = t ∧ ∀ m ∈ membersOf s t, m = t) →
    Completes c s (fun u => FaultedWith t 1 s u
      ∨ (GKept t s u ∧ PKept t s u ∧ VKept t s u ∧ (tl u t).rest = (tl s t).rest ∧ MovedOn t [] s u ∧ MemKept s u))

-- Scalar instructions (R77, R78)

/-- ADD, SUB, MUL, AND, OR, XOR, SHL and SHR of registers: D, and nothing else but INDEX and CYCLES. MUL with FN[0] set
gives bits [127:64] of the product, signed with FN[1] set; the shifts use the low six bits of B, and SHR with FN[0] set
copies the sign. -/
def Sys2Proof.Machine.ScalarRegisterResults : Prop :=
  ∀ (t : Nat) (x : SArgs) (s : State), Runs s t x.pn x.pg [x.a.toNat, x.b.toNat] → x.rsv = 0 →
    ∀ iv ∈ [(Instr.add t x, gv s t x.a + gv s t x.b), (.sub t x, gv s t x.a - gv s t x.b),
        (.mul t x,
          if x.fn.getLsbD 0 = false then gv s t x.a * gv s t x.b
          else if x.fn.getLsbD 1 = true then
            (((gv s t x.a).signExtend 128 * (gv s t x.b).signExtend 128).extractLsb' 64 64)
          else (((gv s t x.a).zeroExtend 128 * (gv s t x.b).zeroExtend 128).extractLsb' 64 64)),
        (.and t x, gv s t x.a &&& gv s t x.b), (.or t x, gv s t x.a ||| gv s t x.b),
        (.xor t x, gv s t x.a ^^^ gv s t x.b), (.shl t x, gv s t x.a <<< ((gv s t x.b).toNat % 64)),
        (.shr t x, if x.fn.getLsbD 0 = true then (gv s t x.a).sshiftRight ((gv s t x.b).toNat % 64)
          else gv s t x.a >>> ((gv s t x.b).toNat % 64))],
      Completes iv.1 s (fun u => WroteG t x.d iv.2 s u ∧ PKept t s u ∧ VKept t s u ∧ (tl u t).rest = (tl s t).rest
        ∧ MovedOn t [] s u ∧ MemKept s u)

/-- The immediate forms: the second operand is the 32-bit immediate, sign-extended. -/
def Sys2Proof.Machine.ScalarImmediateResults : Prop :=
  ∀ (t : Nat) (x : IArgs) (s : State), Runs s t x.pn x.pg [x.a.toNat] →
    ∀ iv ∈ [(Instr.addImm t x, gv s t x.a + x.imm.signExtend 64), (.subImm t x, gv s t x.a - x.imm.signExtend 64),
        (.mulImm t x,
          if x.fn.getLsbD 0 = false then gv s t x.a * x.imm.signExtend 64
          else if x.fn.getLsbD 1 = true then
            (((gv s t x.a).signExtend 128 * (x.imm.signExtend 64).signExtend 128).extractLsb' 64 64)
          else (((gv s t x.a).zeroExtend 128 * (x.imm.signExtend 64).zeroExtend 128).extractLsb' 64 64)),
        (.andImm t x, gv s t x.a &&& x.imm.signExtend 64), (.orImm t x, gv s t x.a ||| x.imm.signExtend 64),
        (.xorImm t x, gv s t x.a ^^^ x.imm.signExtend 64),
        (.shlImm t x, gv s t x.a <<< ((x.imm.signExtend 64).toNat % 64)),
        (.shrImm t x, if x.fn.getLsbD 0 = true then (gv s t x.a).sshiftRight ((x.imm.signExtend 64).toNat % 64)
          else gv s t x.a >>> ((x.imm.signExtend 64).toNat % 64))],
      Completes iv.1 s (fun u => WroteG t x.d iv.2 s u ∧ PKept t s u ∧ VKept t s u ∧ (tl u t).rest = (tl s t).rest
        ∧ MovedOn t [] s u ∧ MemKept s u)

namespace Sys2Proof.Machine

/-- The comparison that FN[2:0] names (R77). -/
def Compares (k : Nat) (a b : Word) (r : Bool) : Prop :=
  (k = 0 → r = decide (a = b)) ∧ (k = 1 → r = decide (a ≠ b)) ∧ (k = 2 → r = decide (a.toInt < b.toInt))
    ∧ (k = 3 → r = decide (a.toInt ≤ b.toInt)) ∧ (k = 4 → r = decide (a.toNat < b.toNat))
    ∧ (k = 5 → r = decide (a.toNat ≤ b.toNat))

end Sys2Proof.Machine

/-- CMP, its immediate form and SEL; CMP is illegal with D[4:3] set or a comparison 6 or 7. -/
def Sys2Proof.Machine.CompareAndSelect : Prop :=
  (∀ (t : Nat) (x : SArgs) (s : State), Runs s t x.pn x.pg [x.a.toNat, x.b.toNat] → x.rsv = 0 →
    (x.d.toNat < 8 → x.fn.toNat % 8 < 6 →
      ∃ r, Compares (x.fn.toNat % 8) (gv s t x.a) (gv s t x.b) r
        ∧ Completes (.cmp t x) s (fun u => WroteP t x.d.toNat r s u ∧ GKept t s u ∧ VKept t s u
            ∧ (tl u t).rest = (tl s t).rest ∧ MovedOn t [] s u ∧ MemKept s u))
    ∧ (t < 512 → 8 ≤ x.d.toNat ∨ 6 ≤ x.fn.toNat % 8 → Completes (.cmp t x) s (FaultedWith t 1 s))
    ∧ Completes (.sel t x) s (fun u =>
        WroteG t x.d (if preg (tl s t) (x.c.toNat % 8) = true then gv s t x.a else gv s t x.b) s u ∧ PKept t s u
          ∧ VKept t s u ∧ (tl u t).rest = (tl s t).rest ∧ MovedOn t [] s u ∧ MemKept s u))
  ∧ ∀ (t : Nat) (x : IArgs) (s : State), Runs s t x.pn x.pg [x.a.toNat] →
    (x.d.toNat < 8 → x.fn.toNat % 8 < 6 →
      ∃ r, Compares (x.fn.toNat % 8) (gv s t x.a) (x.imm.signExtend 64) r
        ∧ Completes (.cmpImm t x) s (fun u => WroteP t x.d.toNat r s u ∧ GKept t s u ∧ VKept t s u
            ∧ (tl u t).rest = (tl s t).rest ∧ MovedOn t [] s u ∧ MemKept s u))
    ∧ (t < 512 → 8 ≤ x.d.toNat ∨ 6 ≤ x.fn.toNat % 8 → Completes (.cmpImm t x) s (FaultedWith t 1 s))

/-- Scalar instructions: results of registers and of immediates, comparisons and SEL. -/
def Obligations.ScalarResults : Prop := ScalarRegisterResults ∧ ScalarImmediateResults ∧ CompareAndSelect

namespace Sys2Proof.Machine

/-- Where a branch takes a gang's leader: on to the next instruction, or, when taken, to its target in two cycles; with
its guard true the link register holds the index of the next instruction. -/
def Branched (t : Nat) (x : BArgs) (guard taken : Bool) (s u : State) : Prop :=
  (taken = false → tileIndex u t = (tileIndex s t + 1) % 8192 ∧ rd u (Reg.cycles t) = rd s (Reg.cycles t) + 1)
    ∧ (taken = true → tileIndex u t = branchTarget s t x % 8192 ∧ rd u (Reg.cycles t) = rd s (Reg.cycles t) + 2)
    ∧ (guard = false → GKept t s u) ∧ (guard = true → WroteG t x.d (wd (tileIndex s t + 1)) s u)
    ∧ tileState u t = tileState s t ∧ PKept t s u ∧ VKept t s u ∧ MemKept s u ∧ u.rest = s.rest
    ∧ RegsKept [Reg.tileStatus t, Reg.cycles t] s u

end Sys2Proof.Machine

/-- BR and BRP of a leader whose target lies inside the image: its own guard decides, for BRP with its own PS; with ANY
or ALL every member goes the same way once all of the gang have come to the branch (R78). -/
def Obligations.BranchesOfALeader : Prop :=
  ∀ (t : Nat) (x : BArgs) (s : State), canIssue s t = true → x.rsv = 0 → leaderOf s t = t →
    (x.ind = true → x.a = 0 ∨ x.a.toNat ∉ (tl s t).pend) → branchTarget s t x < (tl s t).imemLen →
    Completes (.br t x) s (Branched t x (guardTrue (tl s t) x.pn x.pg) (guardTrue (tl s t) x.pn x.pg) s)
    ∧ (x.mode = 0 →
        Completes (.brp t x) s (Branched t x (guardTrue (tl s t) x.pn x.pg)
          (guardTrue (tl s t) x.pn x.pg && preg (tl s t) x.ps.toNat) s))
    ∧ ((x.mode = 1 ∨ x.mode = 2) → (∀ m ∈ membersOf s t, m ≠ t → (tl s m).wait = some (.brp x)) →
        ∀ taken : Bool,
          (taken = true ↔ guardTrue (tl s t) x.pn x.pg = true
            ∧ ((x.mode = 1 ∧ ∃ m ∈ membersOf s t, preg (tl s m) x.ps.toNat = true)
              ∨ (x.mode = 2 ∧ ∀ m ∈ membersOf s t, preg (tl s m) x.ps.toNat = true))) →
          Completes (.brp t x) s (fun u => MemKept s u ∧ u.rest = s.rest ∧ ∀ m ∈ membersOf s t,
            (tl u m).wait = none ∧ PKept m s u ∧ VKept m s u
              ∧ tileIndex u m = (if taken then branchTarget s t x else tileIndex s m + 1) % 8192
              ∧ (guardTrue (tl s t) x.pn x.pg = false → GKept m s u)
              ∧ (guardTrue (tl s t) x.pn x.pg = true → WroteG m x.d (wd (tileIndex s m + 1)) s u)))

-- Local memory (R79, R148, R149)

namespace Sys2Proof.Machine

/-- A tile may use some bytes of its SRAM: they lie in it, and it owns their banks, of which none is being handed over
(R79, R152, R156). -/
abbrev MayUse (s : State) (t off n : Nat) : Prop :=
  off + n ≤ 0x200000 ∧ ∀ b ∈ banksOf off n, handoverPending s t b = false ∧ owns s t b t (tileTenant s t) = true

/-- A unit of a tile may use some bytes of its SRAM, nothing waits before it at their banks, and no access of this
instruction has been admitted yet (R146, R153). -/
abbrev MayAccess (s : State) (t port off n : Nat) : Prop :=
  MayUse s t off n ∧ banksClear s port (sramAddr t off) n = true ∧ (tl s t).asked = false

/-- The check bits of some bytes of a tile's SRAM show no error, and no result of its matrix unit is still on its way
to them (R70, R143). -/
abbrev Quiet (s : State) (t off n : Nat) : Prop :=
  (∀ u ∈ unitsOf (sramAddr t off) n, eccOf s u = .clean) ∧ ∀ u ∈ (tl s t).unsettled, ¬ (off ≤ u.off ∧ u.off < off + n)

end Sys2Proof.Machine

/-- LD and VLD: the bytes at A + OFF, zero- or sign-extended into D. -/
def Sys2Proof.Machine.LocalLoads : Prop :=
  ∀ (t : Nat) (x : MArgs) (s : State), Runs s t x.pn x.pg [x.a.toNat] → x.rsv = 0 →
    (x.sel ≠ 3 → memOff s t x % 2 ^ x.size.toNat = 0 → MayAccess s t 4 (memOff s t x) (2 ^ x.size.toNat) →
      Quiet s t (memOff s t x) (2 ^ x.size.toNat) →
      Completes (.ld t x) s (fun u =>
        WroteG t x.d (extend x.sx (2 ^ x.size.toNat)
          (leNat (memBytes s (sramAddr t (memOff s t x)) (2 ^ x.size.toNat)))) s u
          ∧ PKept t s u ∧ VKept t s u ∧ (tl u t).rest = (tl s t).rest ∧ MovedOnSram t [] s u ∧ MemKept s u))
    ∧ (memOff s t x % 64 = 0 → MayAccess s t 3 (memOff s t x) 512 → Quiet s t (memOff s t x) 512 →
        Completes (.vld t x) s (fun u =>
          vreg (tl u t) x.d.toNat = BitVec.ofNat 4096 (leNat (memBytes s (sramAddr t (memOff s t x)) 512))
            ∧ (∀ r, r ≠ x.d.toNat → vreg (tl u t) r = vreg (tl s t) r)
            ∧ GKept t s u ∧ PKept t s u ∧ (tl u t).rest = (tl s t).rest ∧ MovedOnSram t [] s u ∧ MemKept s u))

/-- ST and VST: the low bytes of D at A + OFF, through the view that SEL names, and no other byte of memory. -/
def Sys2Proof.Machine.LocalStores : Prop :=
  ∀ (t : Nat) (x : MArgs) (s : State), Runs s t x.pn x.pg [x.a.toNat] → x.rsv = 0 →
    (x.sel ≠ 3 → (x.d = 0 ∨ x.d.toNat ∉ (tl s t).pend) → memOff s t x % 2 ^ x.size.toNat = 0 →
      MayAccess s t 4 (memOff s t x) (2 ^ x.size.toNat) → Quiet s t (memOff s t x) (2 ^ x.size.toNat) →
      Completes (.st t x) s (fun u =>
        memBytes u (sramAddr t (memOff s t x)) (2 ^ x.size.toNat)
            = viewBytes x.sel.toNat (memBytes s (sramAddr t (memOff s t x)) (2 ^ x.size.toNat))
                (leBytes (2 ^ x.size.toNat) (gv s t x.d).toNat)
          ∧ MemKeptBut (sramAddr t (memOff s t x)) (2 ^ x.size.toNat) s u
          ∧ GKept t s u ∧ PKept t s u ∧ VKept t s u ∧ (tl u t).rest = (tl s t).rest ∧ MovedOnSram t [] s u))
    ∧ (memOff s t x % 64 = 0 → MayAccess s t 3 (memOff s t x) 512 → Quiet s t (memOff s t x) 512 →
        Completes (.vst t x) s (fun u =>
          memBytes u (sramAddr t (memOff s t x)) 512 = leBytes 512 (vreg (tl s t) x.d.toNat).toNat
            ∧ MemKeptBut (sramAddr t (memOff s t x)) 512 s u
            ∧ GKept t s u ∧ PKept t s u ∧ VKept t s u ∧ (tl u t).rest = (tl s t).rest ∧ MovedOnSram t [] s u))

namespace Sys2Proof.Machine

/-- An atomic of a tile on `n` bytes of its SRAM: D takes the old value, memory the new one through the view of SEL. -/
def AtomicDone (t : Nat) (x : MArgs) (n new : Nat) (s u : State) : Prop :=
  WroteG t x.d (extend x.sx n (leNat (memBytes s (sramAddr t (memOff s t x)) n))) s u
    ∧ memBytes u (sramAddr t (memOff s t x)) n
        = viewBytes x.sel.toNat (memBytes s (sramAddr t (memOff s t x)) n) (leBytes n new)
    ∧ MemKeptBut (sramAddr t (memOff s t x)) n s u
    ∧ PKept t s u ∧ VKept t s u ∧ (tl u t).rest = (tl s t).rest ∧ MovedOnSram t [] s u

end Sys2Proof.Machine

/-- ATM.ADD of int32, int64 and FP32, ATM.SWP and ATM.CAS. -/
def Sys2Proof.Machine.LocalAtomicResults : Prop :=
  ∀ (t : Nat) (x : MArgs) (s : State), Runs s t x.pn x.pg [x.a.toNat, x.d.toNat] → x.rsv = 0 → x.sel ≠ 3 →
    (∀ n, (x.atype = 1 ∧ n = 8) ∨ ((x.atype = 0 ∨ x.atype = 2) ∧ n = 4) → memOff s t x % n = 0 →
      MayAccess s t 4 (memOff s t x) n → Quiet s t (memOff s t x) n →
      Completes (.atmAdd t x) s (AtomicDone t x n
        (if x.atype = 2 then addF32 (leNat (memBytes s (sramAddr t (memOff s t x)) n)) ((gv s t x.d).toNat % 2 ^ 32)
         else (leNat (memBytes s (sramAddr t (memOff s t x)) n) + (gv s t x.d).toNat) % 2 ^ (8 * n)) s))
    ∧ ∀ n, n = 2 ^ x.size.toNat → 4 ≤ n → memOff s t x % n = 0 → MayAccess s t 4 (memOff s t x) n →
        Quiet s t (memOff s t x) n →
        Completes (.atmSwp t x) s (AtomicDone t x n ((gv s t x.d).toNat % 2 ^ (8 * n)) s)
        ∧ ((x.b = 0 ∨ x.b.toNat ∉ (tl s t).pend) →
            Completes (.atmCas t x) s (AtomicDone t x n
              (if leNat (memBytes s (sramAddr t (memOff s t x)) n) = (gv s t x.b).toNat % 2 ^ (8 * n)
                then (gv s t x.d).toNat % 2 ^ (8 * n)
                else leNat (memBytes s (sramAddr t (memOff s t x)) n)) s))

/-- Loads, stores and atomics of a tile's own SRAM. -/
def Obligations.LocalLoadsAndStores : Prop := LocalLoads ∧ LocalStores ∧ LocalAtomicResults

/-- Where a tile's own accesses and encodings fault: a reserved field that is not 0, a misaligned address, an address
outside the SRAM. -/
def Obligations.TileFaults : Prop :=
  ∀ (t : Nat) (s : State), t < 512 → canIssue s t = true →
    (∀ x : SArgs, x.rsv ≠ 0 → ∀ i ∈ [Instr.add t x, .sub t x, .mul t x, .and t x, .or t x, .xor t x, .shl t x, .shr t x,
        .cmp t x, .sel t x, .vadd t x, .vsub t x, .vmul t x, .vfma t x, .vmax t x, .vmin t x, .vmaxsub t x, .vrsum t x],
      Completes i s (FaultedWith t 1 s))
    ∧ (∀ x : MArgs, Runs s t x.pn x.pg [x.a.toNat, x.b.toNat, x.d.toNat] → x.rsv = 0 → x.sel ≠ 3 →
        (memOff s t x % 2 ^ x.size.toNat ≠ 0 → ∀ i ∈ [Instr.ld t x, .st t x], Completes i s (FaultedWith t 5 s))
        ∧ (memOff s t x % 64 ≠ 0 → ∀ i ∈ [Instr.vld t x, .vst t x], Completes i s (FaultedWith t 5 s))
        ∧ (memOff s t x % 64 = 0 → 0x200000 < memOff s t x + 512 →
            ∀ i ∈ [Instr.vld t x, .vst t x], Completes i s (FaultedWith t 4 s)))

-- The vector unit (R133–R137)

namespace Sys2Proof.Machine

/-- A vector instruction has written its lanes and flags: D holds `v`, ARITH_STATUS gains the mask's bits. -/
def VectorDone (t : Nat) (d : BitVec 5) (v : BitVec 4096) (mask : Nat) (s u : State) : Prop :=
  vreg (tl u t) d.toNat = v ∧ (∀ r, r ≠ d.toNat → vreg (tl u t) r = vreg (tl s t) r)
    ∧ rd u (Reg.arithStatus t) = rd s (Reg.arithStatus t) ||| wd mask
    ∧ GKept t s u ∧ PKept t s u ∧ (tl u t).rest = (tl s t).rest ∧ MovedOn t [Reg.arithStatus t] s u ∧ MemKept s u

end Sys2Proof.Machine

/-- The eight lanewise instructions, on the FP32 or BF16 lanes of A, B, C and D, with lane 0 of B where R134 asks for
it. -/
def Sys2Proof.Machine.VectorLanewise : Prop :=
  ∀ (t : Nat) (x : SArgs) (s : State), Runs s t x.pn x.pg [] → x.rsv = 0 → x.fmt.toNat < 2 →
    ∀ (k : Nat) (f : Fmt) (a b c d : Nat → Machine.Num), k = x.fmt.toNat → f = vfmt k →
      a = laneNum k (vreg (tl s t) x.a.toNat) → b = laneNum k (vreg (tl s t) x.b.toNat) →
      c = laneNum k (vreg (tl s t) x.c.toNat) → d = laneNum k (vreg (tl s t) x.d.toNat) →
      ∀ ig ∈ [(Instr.vadd t x, fun i => addBits f (a i) (b i)), (.vsub t x, fun i => addBits f (a i) (negNum (b i))),
          (.vmul t x, fun i => mulBits f (a i) (b i)), (.vfma t x, fun i => fmaBits f (a i) (b i) (c i)),
          (.vmax t x, fun i => encodeRne f false (maxNum (a i) (b i))),
          (.vmin t x, fun i => encodeRne f false (minNum (a i) (b i))),
          (.vmaxsub t x, fun i => addBits f (a i) (negNum (b 0))),
          (.vrsum t x, fun i => fmaBits f (d i) (b 0) (a i))],
        Completes ig.1 s (VectorDone t x.d (vpack (vwidth k) ((List.range (vlanes k)).map (fun i => (ig.2 i).1)))
          (allFlags ((List.range (vlanes k)).map ig.2)).mask s)

/-- Conversions and wide partials. -/
def Sys2Proof.Machine.VectorConversions : Prop :=
  ∀ (t : Nat) (x : SArgs) (s : State), Runs s t x.pn x.pg [] → x.rsv = 0 →
    (∀ base i, ((base = 0x40 ∧ i = Instr.vcvtS t x) ∨ (base = 0x80 ∧ i = .vcvtN t x)) →
      base ≤ x.fn.toNat → x.fn.toNat ≤ base + 0x1C → x.fmt.toNat < 2 → (x.fmt = 0 → x.fn.toNat / 16 % 4 = 0) →
      x.fn.toNat % 16 < 0xD →
      ∀ r, r = convert (x.fn.toNat % 16) (base == 0x40) (cvtSource x (vreg (tl s t) x.a.toNat)) →
        Completes i s (VectorDone t x.d r.1 r.2.mask s))
    ∧ (x.fmt = 0 → ∀ a b : Nat → Wide,
        (∀ i, a i = Wide.ofBits (lane (vreg (tl s t) x.a.toNat) 128 i)) →
        (∀ i, b i = Wide.ofBits (lane (vreg (tl s t) x.b.toNat) 128 i)) →
        Completes (.vwadd t x) s (fun u =>
          ∀ i, i < 32 → lane (vreg (tl u t) x.d.toNat) 128 i = ((a i).add (b i)).1.toBits % 2 ^ 128)
        ∧ Completes (.vwrnd t x) s (VectorDone t x.d
            (vpack 32 ((List.range 32).map (fun i => ((a i).round (fmtOf 0)).1)))
            (allFlags ((List.range 32).map (fun i => (a i).round (fmtOf 0)))).mask s)
        ∧ Completes (.vwcvt t x) s (fun u => ∀ i, i < 32 →
            lane (vreg (tl u t) x.d.toNat) 128 i
              = (Wide.ofNum (signedOf 14 (lane (vreg (tl s t) x.b.toNat) 32 0))
                  (laneNum 0 (vreg (tl s t) x.a.toNat) i)).1.toBits % 2 ^ 128))

/-- The transcendental functions lane by lane, and the reductions, whose one result goes to every lane. -/
def Sys2Proof.Machine.VectorFunctionsAndReductions : Prop :=
  ∀ (t : Nat) (x : SArgs) (s : State), Runs s t x.pn x.pg [] → x.rsv = 0 → x.fmt.toNat < 2 →
    ∀ (k n w : Nat) (a : BitVec 4096), k = x.fmt.toNat → n = vlanes k → w = vwidth k → a = vreg (tl s t) x.a.toNat →
      (∀ ig ∈ [(Instr.vexp2 t x, 0), (.vlog2 t x, 1), (.vrcp t x, 2), (.vrsqrt t x, 3)],
        Completes ig.1 s (VectorDone t x.d
          (vpack w ((List.range n).map (fun i => (transLane ig.2 k (lane a w i)).1)))
          (allFlags ((List.range n).map (fun i => transLane ig.2 k (lane a w i)))).mask s))
      ∧ (∀ ig ∈ [(Instr.vredmax t x, maxNum), (.vredmin t x, minNum)],
          ∀ r, r = encodeRne (vfmt k) false (((List.range n).map (laneNum k a)).foldl ig.2 (laneNum k a 0)) →
            Completes ig.1 s (VectorDone t x.d (vpack w (List.replicate n r.1))
              (allFlags (List.replicate n r)).mask s))
      ∧ ∀ r, r = treeRoot treeAdd (if k = 1 then 8 else 7)
            ((List.range n).map (fun i => ((if k = 1 then lane a 16 i * 2 ^ 16 else lane a 32 i), ({} : AFlags)))) →
          Completes (.vredadd t x) s (fun u =>
            vreg (tl u t) x.d.toNat = vpack w (List.replicate n
                (if k = 1 then (encodeRne (fmtOf 1) false (decodeFp (fmtOf 0) r.1)).1 else r.1))
              ∧ GKept t s u ∧ PKept t s u ∧ MovedOn t [Reg.arithStatus t] s u ∧ MemKept s u)

/-- The vector unit: operations lane by lane, conversions, functions and reductions. -/
def Obligations.VectorResults : Prop := VectorLanewise ∧ VectorConversions ∧ VectorFunctionsAndReductions

-- The matrix unit (R110–R127)

namespace Sys2Proof.Machine

/-- An operand of the matrix unit can be read: aligned to 64 bytes, in the tile's own SRAM, in order. -/
abbrev CanRead (s : State) (t off n : Nat) : Prop :=
  off % 64 = 0 ∧ off < 0x200000 ∧ MayAccess s t 3 off n ∧ Quiet s t off n

end Sys2Proof.Machine

/-- MXW loads a weight buffer; MXM leaves its accumulator as R116 to R122 give it, with weights from a buffer or
streamed from SRAM. -/
def Sys2Proof.Machine.MatrixLoadAndMultiply : Prop :=
  ∀ (t : Nat) (x : XArgs) (s : State), Runs s t x.pn x.pg [x.a.toNat] → x.rsv = 0 →
    (∀ c n o, c = x.fmtW.toNat → matFmt c = true →
      n = elemBytes c 64 (classK c) + scaleBytes c 64 (classK c) → CanRead s t (gv s t x.a).toNat n →
      o = operandOf c 64 (classK c) (memBytes s (sramAddr t (gv s t x.a).toNat) n) →
      Completes (.mxw t x) s (fun u =>
        wbuf (tl u t) x.wb.toNat = { fmt := some c, elems := o.elems, scales := o.scales, ew := o.exponent }
          ∧ (∀ w, w ≠ x.wb.toNat → wbuf (tl u t) w = wbuf (tl s t) w) ∧ (tl u t).acc = (tl s t).acc
          ∧ GKept t s u ∧ PKept t s u ∧ VKept t s u ∧ MovedOnSram t [] s u ∧ MemKept s u))
    ∧ ∀ old beats, old = accOf (tl s t) x.acc.toNat → beats = x.beats.toNat + 1 → (tl s t).firstMxm = none →
      (t < 512 → (x.sw = true → x.b = 0 ∨ x.b.toNat ∉ (tl s t).pend) → x.chain = true → old.rows ≠ 0 →
        old.rows ≠ (if x.sw then 1 else beats) → Completes (.mxm t x) s (FaultedWith t 1 s))
      ∧ ((x.chain = true → old.rows = 0 ∨ old.rows = (if x.sw then 1 else beats)) →
      (x.sw = false → ∀ c b k n input start, ∀ weights : Operand, b = wbuf (tl s t) x.wb.toNat → b.fmt = some c →
        pairOk x.fmtA.toNat c = true → k = min (classK x.fmtA.toNat) (classK c) →
        n = elemBytes x.fmtA.toNat beats k + scaleBytes x.fmtA.toNat beats k → CanRead s t (gv s t x.a).toNat n →
        input = operandOf x.fmtA.toNat beats k (memBytes s (sramAddr t (gv s t x.a).toNat) n) →
        weights = { fmt := c, elems := b.elems, scales := b.scales, vecs := 64, len := classK c } →
        start = startAcc old x.chain (b.ew + input.exponent) beats →
        Completes (.mxm t x) s (fun u =>
          accOf (tl u t) x.acc.toNat
              = (mxmBeats input (fun _ n j => weights.at_ n j) false k beats start.1).1
            ∧ (∀ a, a ≠ x.acc.toNat → accOf (tl u t) a = accOf (tl s t) a) ∧ (tl u t).wb = (tl s t).wb
            ∧ GKept t s u ∧ PKept t s u ∧ VKept t s u ∧ MovedOnSram t [Reg.arithStatus t] s u ∧ MemKept s u))
      ∧ (x.sw = true → (x.b = 0 ∨ x.b.toNat ∉ (tl s t).pend) → ∀ c k n m input weights start, c = x.fmtW.toNat →
        pairOk x.fmtA.toNat c = true → k = min (classK x.fmtA.toNat) (classK c) →
        n = elemBytes x.fmtA.toNat beats k + scaleBytes x.fmtA.toNat beats k → CanRead s t (gv s t x.a).toNat n →
        m = elemBytes c (64 * beats) k + scaleBytes c (64 * beats) k → CanRead s t (gv s t x.b).toNat m →
        input = operandOf x.fmtA.toNat beats k (memBytes s (sramAddr t (gv s t x.a).toNat) n) →
        weights = operandOf c (64 * beats) k (memBytes s (sramAddr t (gv s t x.b).toNat) m) →
        start = startAcc old x.chain (weights.exponent + input.exponent) 1 →
        Completes (.mxm t x) s (fun u =>
          accOf (tl u t) x.acc.toNat
              = (mxmBeats input (fun i n j => weights.at_ (64 * i + n) j) true k beats start.1).1
            ∧ (∀ a, a ≠ x.acc.toNat → accOf (tl u t) a = accOf (tl s t) a) ∧ (tl u t).wb = (tl s t).wb
            ∧ GKept t s u ∧ PKept t s u ∧ VKept t s u ∧ MovedOnSram t [Reg.arithStatus t] s u ∧ MemKept s u)))

/-- MXD stores the accumulator's rows rounded to nearest even, or stochastically with one draw of the generator for each
value; MXX stores them as wide partials; the accumulator stays. -/
def Sys2Proof.Machine.MatrixStores : Prop :=
  ∀ (t : Nat) (x : XArgs) (s : State), Runs s t x.pn x.pg [x.b.toNat] → x.rsv = 0 →
    ∀ (c : Acc) (off : Nat), c = accOf (tl s t) x.acc.toNat → off = (gv s t x.b).toNat → off % 64 = 0 → off < 0x200000 →
      (∀ f n, (x.out = true → f = fmtOf 1 ∧ n = 2) → (x.out = false → f = fmtOf 0 ∧ n = 4) →
        MayAccess s t 3 off (64 * n * c.rows) → Quiet s t off (64 * n * c.rows) →
        (x.rnd = 0 → Completes (.mxd t x) s (fun u =>
          memBytes u (sramAddr t off) (64 * n * c.rows)
              = c.rowWins.flatMap (fun w => leBytes n ((w.wide c.anchor).1.round f).1)
            ∧ MemKeptBut (sramAddr t off) (64 * n * c.rows) s u ∧ (tl u t).acc = (tl s t).acc
            ∧ (tl u t).gen = (tl s t).gen
            ∧ GKept t s u ∧ PKept t s u ∧ VKept t s u ∧ MovedOnSram t [Reg.arithStatus t] s u))
        ∧ (x.rnd = 1 → ∀ r, r = c.rowWins.foldl (mxdValue f true c.anchor) ([], {}, (tl s t).gen) →
          Completes (.mxd t x) s (fun u =>
            memBytes u (sramAddr t off) (64 * n * c.rows) = r.1.reverse.flatMap (fun v => leBytes n v)
              ∧ MemKeptBut (sramAddr t off) (64 * n * c.rows) s u ∧ (tl u t).acc = (tl s t).acc
              ∧ (tl u t).gen = r.2.2
              ∧ GKept t s u ∧ PKept t s u ∧ VKept t s u ∧ MovedOnSram t [Reg.arithStatus t] s u)))
      ∧ (MayAccess s t 3 off (1024 * c.rows) → Quiet s t off (1024 * c.rows) →
        Completes (.mxx t x) s (fun u =>
          memBytes u (sramAddr t off) (1024 * c.rows)
              = c.rowWins.flatMap (fun w => leBytes 16 (w.wide c.anchor).1.toBits)
            ∧ MemKeptBut (sramAddr t off) (1024 * c.rows) s u ∧ (tl u t).acc = (tl s t).acc
            ∧ GKept t s u ∧ PKept t s u ∧ VKept t s u ∧ MovedOnSram t [Reg.arithStatus t] s u))

/-- The matrix unit: weights, products, and what it stores. -/
def Obligations.MatrixResults : Prop := MatrixLoadAndMultiply ∧ MatrixStores

-- Streams, time, completions, gangs and barriers of a tile (R82–R103)

namespace Sys2Proof.Machine

/-- A tile has begun to wait at an instruction: its INDEX stays, TILE.STATUS shows the kind, memory and the general
registers stay. -/
def Waits (t kind : Nat) (w : Wait) (s u : State) : Prop :=
  (tl u t).wait = some w ∧ rdF u (Reg.tileStatus t) 15 12 = kind ∧ tileIndex u t = tileIndex s t
    ∧ tileState u t = tileState s t ∧ GKept t s u ∧ MemKept s u ∧ TilesKept t s u ∧ u.rest = s.rest

/-- A tile has gone on after a wait, however long it was: INDEX advanced, nothing waited for. -/
def WentOn (t : Nat) (s u : State) : Prop :=
  (tl u t).wait = none ∧ tileIndex u t = (tileIndex s t + 1) % 8192 ∧ tileState u t = tileState s t

/-- A Q-format word whose unnamed fields are 0 (R82). -/
abbrev Named (x named : QArgs) : Prop := x = { named with pn := x.pn, pg := x.pg }

end Sys2Proof.Machine

/-- SDESC loads a slot from SRAM, SGO queues one, SWAIT answers the status word of one that is not in use and waits for
one that is (R90). -/
def Sys2Proof.Machine.StreamInstructions : Prop :=
  ∀ (t : Nat) (x : QArgs) (s : State), Runs s t x.pn x.pg [x.a.toNat] →
    (∀ i off, Named x { d := x.d, a := x.a, sub := x.sub } → i = x.sub.toNat + 16 * (x.d.toNat % 4) →
      off = (gv s t x.a).toNat → i ∉ (tl s t).slotQ → (tl s t).running ≠ some i → MayAccess s t 4 off 32 → Quiet s t off 32 →
      Completes (.sdesc t x) s (fun u =>
        mget {} (tl u t).slots i = readDesc (memBytes s (sramAddr t off) 32)
          ∧ (∀ j, j ≠ i → mget {} (tl u t).slots j = mget {} (tl s t).slots j) ∧ (tl u t).slotQ = (tl s t).slotQ
          ∧ GKept t s u ∧ PKept t s u ∧ VKept t s u ∧ MovedOnSram t [] s u ∧ MemKept s u))
    ∧ (∀ i, Named x { a := x.a } → i = (gv s t x.a).toNat % 64 →
      i ∉ (tl s t).slotQ → (tl s t).running ≠ some i →
      Completes (.sgo t x) s (fun u =>
        (tl u t).slotQ = (tl s t).slotQ ++ [i] ∧ (tl u t).slots = (tl s t).slots
          ∧ GKept t s u ∧ PKept t s u ∧ VKept t s u ∧ MovedOn t [] s u ∧ MemKept s u))
    ∧ ∀ i, Named x { d := x.d, a := x.a } → i = (gv s t x.a).toNat % 64 →
      ((i ∉ (tl s t).slotQ ∧ (tl s t).running ≠ some i) →
        Completes (.swait t x) s (fun u => WroteG t x.d (mget 0 (tl s t).slotStatus i) s u ∧ WentOn t s u ∧ MemKept s u))
      ∧ ((i ∈ (tl s t).slotQ ∨ (tl s t).running = some i) →
        Completes (.swait t x) s (Waits t 4 (.swait i x.d.toNat) s))

/-- The stream engine starts the oldest queued slot when none runs: a descriptor that R90 refuses ends at once with its
status word, a copy within the tile's own SRAM runs; its one row is copied when it ends. -/
def Sys2Proof.Machine.StreamEngine : Prop :=
  ∀ (t i : Nat) (s : State) (d : Desc), d = mget {} (tl s t).slots i → (tl s t).wait = none →
    (∀ r, (tl s t).running = none → (tl s t).slotQ = i :: r → fenceState s (t / 128) = 0 →
      (streamCheck d ≠ 0 → Completes (.streamDescStart t) s (fun u =>
        mget 0 (tl u t).slotStatus i = statusWord (streamCheck d) 0 false false false ∧ (tl u t).slotQ = r
          ∧ (tl u t).running = none ∧ MemKept s u))
      ∧ (streamCheck d = 0 → isLocalCopy t d = true → Completes (.streamDescStart t) s (fun u =>
        (tl u t).running = some i ∧ (tl u t).slotQ = r ∧ MemKept s u ∧ RegsKept [] s u ∧ TilesKept t s u
          ∧ u.rest = s.rest)))
    ∧ ∀ src dst n, (tl s t).running = some i → isLocalCopy t d = true → d.rows = 1 → d.channel = none → n = d.rowLen →
        0 < n → n % 8 = 0 → d.w0 = wd (sramAddr t src) → d.w1 = wd (sramAddr t dst) → t < 512 →
        src % 8 = 0 → dst % 8 = 0 → MayUse s t src n → MayUse s t dst n → Quiet s t src n → Quiet s t dst n →
        fenceState s (t / 128) = 0 → bankOn s t = true → bankWaking s t = false →
        Completes (.streamDescDone t) s (fun u =>
          memBytes u (sramAddr t dst) n = memBytes s (sramAddr t src) n ∧ MemKeptBut (sramAddr t dst) n s u
            ∧ mget 0 (tl u t).slotStatus i = statusWord stOk 0 false false false ∧ (tl u t).running = none
            ∧ GKept t s u ∧ PKept t s u ∧ VKept t s u)

/-- Stream descriptors, as instructions and as their engine. -/
def Obligations.Streams : Prop := StreamInstructions ∧ StreamEngine

/-- TREAD, WAITT, its release, and STEEP. -/
def Obligations.TimedInstructions : Prop :=
  (∀ (t : Nat) (x : QArgs) (s : State), Runs s t x.pn x.pg [] → Named x { d := x.d } →
    Completes (.tread t x) s (fun u => WroteG t x.d s.now s u ∧ PKept t s u ∧ VKept t s u
      ∧ (tl u t).rest = (tl s t).rest ∧ MovedOn t [] s u ∧ MemKept s u))
  ∧ (∀ (t : Nat) (x : QArgs) (s : State), Runs s t x.pn x.pg [x.a.toNat] → Named x { a := x.a, pd := x.pd } →
    ((gv s t x.a).toNat < now s → Completes (.waitt t x) s (fun u =>
      WroteP t x.pd.toNat true s u ∧ rd u (Reg.lateCount t) = rd s (Reg.lateCount t) + 1 ∧ GKept t s u
        ∧ MovedOn t [Reg.lateCount t] s u ∧ MemKept s u))
    ∧ (now s ≤ (gv s t x.a).toNat → Completes (.waitt t x) s (fun u =>
      WroteP t x.pd.toNat false s u ∧ Waits t 1 (.waitt (gv s t x.a).toNat) s u)))
  ∧ (∀ (t till : Nat) (s : State), (tl s t).wait = some (.waitt till) → tileState s t = 3 → till < 2 ^ 64 →
    Completes (.waittRelease t) s (fun u => WentOn t s u ∧ till ≤ now u ∧ GKept t s u ∧ PKept t s u ∧ VKept t s u
      ∧ MemKept s u ∧ TilesKept t s u))
  ∧ ∀ (t : Nat) (x : QArgs) (s : State), Runs s t x.pn x.pg [x.a.toNat, x.b.toNat] →
    Named x { a := x.a, b := x.b, sub := x.sub } →
    ∀ h : Hint, h.level = x.sub.toNat → h.start = max (now s) (gv s t x.a).toNat → h.dur = (gv s t x.b).toNat →
      Completes (.steep t x) s (fun u =>
        h ∈ (tl u t).hints ∧ (tl u t).hints.length ≤ max 4 ((tl s t).hints.length) ∧ GKept t s u ∧ PKept t s u
          ∧ VKept t s u ∧ MovedOn t [] s u ∧ MemKept s u)

/-- FENCE, CPLW and CPLP: what they answer of operations that have ended, and that they wait, or say so, for open ones
(R82, R84, R85, R199).
How a wait is held is notes/assumptions/12.md. -/
def Obligations.FencesAndCompletions : Prop :=
  (∀ (t : Nat) (x : QArgs) (s : State), Runs s t x.pn x.pg [] → Named x { d := x.d, sub := x.sub } → x.sub.toNat < 8 →
    (openOf s t x.sub.toNat = false → Completes (.fence t x) s (fun u =>
      WroteG t x.d (wd (fenceCount (tl s t) x.sub.toNat)) s u ∧ WentOn t s u ∧ MemKept s u))
    ∧ (openOf s t x.sub.toNat = true → Completes (.fence t x) s (Waits t 5 (.fence x.sub.toNat x.d.toNat) s)))
  ∧ (∀ (t : Nat) (x : QArgs) (s : State), Runs s t x.pn x.pg [x.a.toNat, x.b.toNat] →
    Named x { d := x.d, a := x.a, b := x.b } →
    (∀ tag e, lookTag s (gv s t x.a) = .done tag e →
      (x.b = 0 → Completes (.cplw t x) s (fun u =>
        WroteG t x.d e.rec1 s u ∧ WentOn t s u ∧ MemKept s u
          ∧ (cplOf u tag).st = (if e.sent && !e.answered then .quarantine else .free)))
      ∧ (∀ off, x.b ≠ 0 → off = (gv s t x.b).toNat → MayAccess s t 4 off 32 → Quiet s t off 32 →
        Completes (.cplw t x) s (fun u =>
          WroteG t x.d e.rec1 s u ∧ WentOn t s u ∧ memBytes u (sramAddr t off) 32 = wordsBytes (recordWords e)
            ∧ MemKeptBut (sramAddr t off) 32 s u)))
    ∧ (lookTag s (gv s t x.a) = .stale → Completes (.cplw t x) s (fun u =>
        WroteG t x.d (wd 0x00F) s u ∧ WentOn t s u ∧ MemKept s u))
    ∧ (lookTag s (gv s t x.a) = .wait → Completes (.cplw t x) s
        (Waits t 3 (.cplw (gv s t x.a) x.d.toNat (if x.b = 0 then none else some (gv s t x.b).toNat)) s)))
  ∧ ∀ (t : Nat) (x : QArgs) (s : State), Runs s t x.pn x.pg [x.a.toNat] → Named x { d := x.d, a := x.a, pd := x.pd } →
    (∀ tag e, lookTag s (gv s t x.a) = .done tag e → Completes (.cplp t x) s (fun u =>
      WroteG t x.d e.rec1 s u ∧ WroteP t x.pd.toNat true s u ∧ MemKept s u
        ∧ (cplOf u tag).st = (if e.sent && !e.answered then .quarantine else .free)))
    ∧ (lookTag s (gv s t x.a) = .stale → Completes (.cplp t x) s (fun u =>
      WroteG t x.d (wd 0x00F) s u ∧ WroteP t x.pd.toNat true s u ∧ MovedOn t [] s u ∧ MemKept s u))
    ∧ (lookTag s (gv s t x.a) = .wait → Completes (.cplp t x) s (fun u =>
      GKept t s u ∧ WroteP t x.pd.toNat false s u ∧ MovedOn t [] s u ∧ MemKept s u))

/-- GANG.ID, GANG.FORM and GANG.DISSOLVE: formation needs idle tiles of the issuing tile's tenant; every member of a
formed gang names the lowest as its leader, every member of a dissolved one itself (R94, R95). -/
def Sys2Proof.Machine.GangsFromTiles : Prop :=
  (∀ (t : Nat) (x : QArgs) (s : State), Runs s t x.pn x.pg [] → Named x { d := x.d, sub := 0 } →
    Completes (.gangId t x) s (fun u => WroteG t x.d (rd s (Reg.tileGang t)) s u ∧ PKept t s u ∧ VKept t s u
      ∧ MovedOn t [] s u ∧ MemKept s u))
  ∧ (∀ (t : Nat) (x : QArgs) (s : State), Runs s t x.pn x.pg [x.a.toNat, x.b.toNat] →
    Named x { d := x.d, a := x.a, b := x.b, sub := 1 } →
    ∀ off n es l, off = (gv s t x.a).toNat → n = (gv s t x.b).toNat → MayAccess s t 4 off (2 * n) → Quiet s t off (2 * n) →
      es = (List.range n).map (fun i => leNat (((memBytes s (sramAddr t off) (2 * n)).drop (2 * i)).take 2)) →
      l = flatten s es →
      ((l ≠ [] ∧ l.length ≤ 512 ∧ (∀ e ∈ es, e < 512)
          ∧ ∀ m ∈ l, m < 512 ∧ tileState s m = 0 ∧ tileTenant s m = tileTenant s t) →
        Completes (.gangForm t x) s (fun u => WroteG t x.d (wd (lowest l)) s u
          ∧ (∀ m ∈ l, leaderOf u m = lowest l) ∧ (∀ m, m < 512 → m ∉ l → leaderOf u m = leaderOf s m) ∧ MemKept s u))
      ∧ ((l = [] ∨ (∃ e ∈ es, 512 ≤ e) ∨ ∃ m ∈ l, tileState s m ≠ 0 ∨ tileTenant s m ≠ tileTenant s t) →
        Completes (.gangForm t x) s (fun u => WroteG t x.d (wd (2 ^ 64 - 1)) s u ∧ MovedOnSram t [] s u ∧ MemKept s u)))
  ∧ ∀ (t : Nat) (x : QArgs) (s : State), Runs s t x.pn x.pg [x.a.toNat] → Named x { d := x.d, a := x.a, sub := 2 } →
    ∀ l, l = membersOf s (gv s t x.a).toNat →
      ((l ≠ [] ∧ ∀ m ∈ l, tileState s m = 0 ∧ tileTenant s m = tileTenant s t) →
        Completes (.gangDissolve t x) s (fun u => WroteG t x.d 0 s u ∧ (∀ m ∈ l, leaderOf u m = m) ∧ MemKept s u))
      ∧ ((l = [] ∨ ∃ m ∈ l, tileState s m ≠ 0 ∨ tileTenant s m ≠ tileTenant s t) →
        Completes (.gangDissolve t x) s (fun u => (x.d ≠ 0 → gv u t x.d ≠ 0)
          ∧ (∀ m, leaderOf u m = leaderOf s m) ∧ MemKept s u))

/-- GANG.END ends the job of a gang whose members have all executed it and whose operations have ended; else it waits
(R94, R99). -/
def Sys2Proof.Machine.GangEndEndsTheJob : Prop :=
  ∀ (t : Nat) (x : QArgs) (s : State), Runs s t x.pn x.pg [] → Named x { sub := 3 } → t < 512 →
    ((∀ m ∈ membersOf s (leaderOf s t), (m ≠ t → (tl s m).wait = some .gangEnd) ∧ openOf s m 7 = false) →
      Completes (.gangEnd t x) s (fun u =>
        (∀ m ∈ membersOf s (leaderOf s t), tileState u m = 0 ∧ (tl u m).wait = none)
          ∧ jobOf u (leaderOf s t) = none ∧ MemKept s u
          ∧ ∀ m, GKept m s u ∧ PKept m s u ∧ VKept m s u))
    ∧ ((∃ m ∈ membersOf s (leaderOf s t), (m ≠ t ∧ (tl s m).wait ≠ some .gangEnd) ∨ openOf s m 7 = true) →
      Completes (.gangEnd t x) s (Waits t 5 .gangEnd s))

/-- Gangs formed, named, dissolved and ended by their tiles. -/
def Obligations.Gangs : Prop := GangsFromTiles ∧ GangEndEndsTheJob

/-- BAR joins the instance of its key, or opens one, and waits; an announced release resumes every waiting member with
T_rel and PD = 1, an expired deadline with 0 and PD = 0, but for a halted member, which keeps the outcome until it is
resumed; the exchange of a group's arrivals announces its release (R87, R88, R311). -/
def Obligations.Barriers : Prop :=
  (∀ (t : Nat) (x : QArgs) (s : State) (k : BarKey) (e : Nat),
    Runs s t x.pn x.pg [x.a.toNat, x.b.toNat, x.c.toNat] →
    Named x { d := x.d, a := x.a, b := x.b, c := x.c, pd := x.pd, sub := x.sub } →
    ((x.sub = 0 ∧ k = .gang (leaderOf s t) ∧ e = 0)
      ∨ (x.sub = 1 ∧ k = .device (tileTenant s t) ((gv s t x.a).toNat % 64) ∧ e = 0)
      ∨ (x.sub = 2 ∧ k = .group (gv s t x.a).toNat ∧ isTwinned s (tileTenant s t) = false ∧ (gv s t x.a).toNat < 4096
          ∧ (groupOf s (gv s t x.a).toNat).valid = true ∧ (groupOf s (gv s t x.a).toNat).tenant = tileTenant s t
          ∧ e = (groupOf s (gv s t x.a).toNat).epoch
          ∧ (posOf s (groupOf s (gv s t x.a).toNat) (leaderOf s t)).isSome = true)) →
    (∀ b, openBar s k e = some b → now s ≤ b.deadline ∧ (x.sub = 1 → b.count = (gv s t x.b).toNat)) →
    Completes (.bar t x) s (fun u =>
      (tl u t).wait = some (.bar k x.d.toNat x.pd.toNat) ∧ rdF u (Reg.tileStatus t) 15 12 = 2
        ∧ (∃ b ∈ u.coll.bars, b.key = k ∧ b.epoch = e ∧ t ∈ b.arrived ∧ b.last = now s
            ∧ (gv s t x.c).toNat ≤ b.release)
        ∧ GKept t s u ∧ MemKept s u))
  ∧ (∀ (k : BarKey) (b : BarInst) (r : Nat) (s : State),
    s.coll.bars.find? (fun b => b.key == k && b.trel != none) = some b → b.trel = some r → r < 2 ^ 64 →
    Completes (.barRelease k) s (fun u => r ≤ now u ∧ MemKept s u
      ∧ ∀ m ∈ b.arrived, ∀ k' d pd, (tl s m).wait = some (.bar k' d pd) →
          (tileState s m = 3 →
              WentOn m s u ∧ (d ≠ 0 → greg (tl u m) d = wd r) ∧ (pd < 8 → preg (tl u m) pd = true))
            ∧ (tileState s m ≠ 3 → (tl u m).wait = some (.barOver (some r) d pd)
                ∧ tileIndex u m = tileIndex s m ∧ GKept m s u ∧ PKept m s u)))
  ∧ (∀ (k : BarKey) (b : BarInst) (s : State), (∀ g, k ≠ .group g) →
    s.coll.bars.find? (fun b => b.key == k && !(match b.trel with | some r => decide (r ≤ b.deadline) | none => false))
      = some b → b.deadline < 2 ^ 64 →
    Completes (.barDeadlineExpiry k) s (fun u => b.deadline ≤ now u ∧ MemKept s u
      ∧ ∀ m ∈ b.arrived, ∀ k' d pd, (tl s m).wait = some (.bar k' d pd) →
          (tileState s m = 3 →
              WentOn m s u ∧ greg (tl u m) d = 0 ∧ (0 < pd → pd < 8 → preg (tl u m) pd = false))
            ∧ (tileState s m ≠ 3 → (tl u m).wait = some (.barOver none d pd)
                ∧ tileIndex u m = tileIndex s m ∧ GKept m s u ∧ PKept m s u)))
  ∧ ∀ (g : Nat) (i : Inst) (x : Group) (b : BarInst) (last release : Nat) (s : State),
    s.coll.insts.find? (fun i => i.sub == 6 && i.gid == g) = some i → groupAt s g i.epoch = some x →
    (∀ j ∈ s.coll.insts, j.sub = 6 → j.gid = g → j.epoch = i.epoch → j.num = i.num → (arrivalsOf x j).isSome = true) →
    arrivalsOf x i = some (last, release) →
    s.coll.bars.find? (fun b => b.key == .group g && b.epoch == i.epoch && b.trel == none && barFull s b) = some b →
    now s ≤ max release (last + max 64 x.lead) →
    Completes (.groupBarReleaseComputed g) s (fun u => MemKept s u
      ∧ (∃ c ∈ u.coll.bars, c.key = .group g ∧ c.trel = some (max release (last + max 64 x.lead)))
      ∧ ∀ j ∈ u.coll.insts, ¬ (j.sub = 6 ∧ j.gid = g ∧ j.epoch = i.epoch ∧ j.num = i.num))

/-- TILE.CTRL acts on the whole gang: STOP halts its running tiles, RESUME lets halted ones that wait for nothing go on,
ABORT ends its job; a write of SR_SEED reloads the generator (R99, R102, R125). -/
def Obligations.TileControl : Prop :=
  ∀ (who : Writer) (t : Nat) (s : State), t < 512 → mayWrite s .any who = true → fenceState s (t / 128) = 0 →
    tileState s t ≠ 6 →
    Completes (.tileStop who t) s (fun u =>
      (∀ m ∈ membersOf s (leaderOf s t), tileState u m = (if tileState s m = 3 then 4 else tileState s m)
        ∧ tileIndex u m = tileIndex s m) ∧ (∀ m, tl u m = tl s m) ∧ MemKept s u)
    ∧ ((∀ m ∈ membersOf s (leaderOf s t), (tl s m).wait = none) →
        Completes (.tileResume who t) s (fun u =>
          (∀ m ∈ membersOf s (leaderOf s t), tileState u m = (if tileState s m = 4 then 3 else tileState s m)
            ∧ tileIndex u m = tileIndex s m) ∧ (∀ m, tl u m = tl s m) ∧ MemKept s u))
    ∧ Completes (.tileAbort who t) s (fun u =>
        (∀ m ∈ membersOf s (leaderOf s t), tileState u m = 0 ∧ (tl u m).wait = none) ∧ jobOf u (leaderOf s t) = none
          ∧ (∀ m, GKept m s u ∧ VKept m s u) ∧ MemKept s u)
    ∧ ∀ v, Completes (.srSeedWrite who t v) s (fun u =>
        rd u (Reg.srSeed t) = v ∧ (tl u t).gen = seedState v ∧ TilesKept t s u ∧ GKept t s u ∧ MemKept s u)

-- Remote memory instructions at issue (R82–R85, R186–R193)

namespace Sys2Proof.Machine

/-- A tile's operation is open under tag `k`: its entry, TD with the tag, and the tile at its next instruction (R84,
R96, R198, R204). -/
def Issued (t : Nat) (x : QArgs) (kind : CplKind) (k expect deadline : Nat) (s u : State) : Prop :=
  (cplOf u k).st = .opened ∧ (cplOf u k).kind = kind ∧ (cplOf u k).tile = some t
    ∧ (cplOf u k).tenant = tileTenant s t ∧ (cplOf u k).gen = (cplOf s k).gen ∧ (cplOf u k).ar = x.ar
    ∧ (cplOf u k).expect = expect ∧ (cplOf u k).got = 0 ∧ (cplOf u k).deadline = deadline
    ∧ (x.ar = false → gv u t x.td = if x.td = 0 then 0 else tagWord (cplOf s k).gen k)
    ∧ tileIndex u t = (tileIndex s t + 1) % 8192 ∧ tileState u t = tileState s t

/-- A tile stalls at an instruction: WAIT_KIND shows why, and the instruction is tried again. -/
def Stalls (t kind : Nat) (s u : State) : Prop :=
  rdF u (Reg.tileStatus t) 15 12 = kind ∧ tileIndex u t = tileIndex s t ∧ tileState u t = tileState s t
    ∧ RegsKept [Reg.tileStatus t] s u ∧ GKept t s u ∧ PKept t s u ∧ VKept t s u ∧ MemKept s u ∧ TilesKept t s u
    ∧ u.rest = s.rest

/-- Some packets were handed to the router, as this device stamps them, and nothing else. -/
def SentOut (l : List Packet) (s u : State) : Prop :=
  u.net.routerQ = s.net.routerQ ++ l.map (fun p => (none, stamped s p))

/-- A tile's SRAM can be read by its operations after issue: in service, on, not waking (R159, R396). -/
abbrev SramServes (s : State) (t : Nat) : Prop :=
  t < 512 ∧ fenceState s (t / 128) = 0 ∧ bankOn s t = true ∧ bankWaking s t = false

/-- Bytes of a tile's SRAM that an operation of the tile reads after its issue find nothing before them: no access at
their banks, none held in front of them (R145, R153). -/
abbrev ReadAtOnce (s : State) (t off n : Nat) : Prop :=
  MayUse s t off n ∧ banksClear s 2 (sramAddr t off) n = true
    ∧ heldBefore s 2 (banksAt (sramAddr t off) n) = false

/-- An operation of tag `k` completed at issue with a status, having sent nothing (R84, R188). -/
def RefusedAtIssue (t k status : Nat) (s u : State) : Prop :=
  (cplOf u k).st = .done ∧ (cplOf u k).rec1 = statusWord status 0 false false false
    ∧ u.net.routerQ = s.net.routerQ ∧ tileIndex u t = (tileIndex s t + 1) % 8192 ∧ MemKept s u

end Sys2Proof.Machine

/-- RLD, RST and RAT to another device: the entry and one packet.
Which free tag is taken is a free value (notes/assumptions/4.md). -/
def Obligations.RemoteWordsAreSent : Prop :=
  ∀ (t : Nat) (x : QArgs) (s : State) (k d lo : Nat), t < 512 →
    (pickTag (tileTenant s t) s).1 = some k → isTwinned s (tileTenant s t) = false → d ≠ ownDev s →
    (Named x { d := x.d, a := x.a, b := x.b, td := x.td, nw := x.nw, ar := x.ar, size := x.size } →
      Runs s t x.pn x.pg [x.a.toNat, x.b.toNat] → targetOf s (gv s t x.a) false = .device d lo →
      wordCheck lo (sizeOf_ x) = 0 → (x.d ≠ 0 → x.size = 0) →
      (x.d = 0 → (gv s t x.b).toNat + sizeOf_ x ≤ 0x200000) →
      Completes (.rld t x) s (fun u =>
        Issued t x .load k (sizeOf_ x) (now s + classDeadline s [d]) s u
          ∧ SentOut [{ dst := d, opcode := 1, gen := (cplOf s k).gen, tag := k, tenant := tileTenant s t,
                       len4 := sizeOf_ x / 4, addr := lo }] s u
          ∧ (x.d ≠ 0 → x.d.toNat ∈ (tl u t).pend) ∧ MemKept s u))
    ∧ (Named x { a := x.a, b := x.b, td := x.td, nw := x.nw, ar := x.ar, size := x.size } →
      Runs s t x.pn x.pg [x.a.toNat, x.b.toNat] → targetOf s (gv s t x.a) true = .device d lo →
      wordCheck lo (sizeOf_ x) = 0 → SramServes s t → ReadAtOnce s t (gv s t x.b).toNat (sizeOf_ x) →
      Quiet s t (gv s t x.b).toNat (sizeOf_ x) →
      Completes (.rst t x) s (fun u =>
        Issued t x .store k (sizeOf_ x) (now s + classDeadline s [d]) s u
          ∧ SentOut [{ dst := d, opcode := 2, gen := (cplOf s k).gen, tag := k, tenant := tileTenant s t,
                       len4 := sizeOf_ x / 4, addr := lo,
                       payload := memBytes s (sramAddr t (gv s t x.b).toNat) (sizeOf_ x) }] s u
          ∧ MemKept s u))
    ∧ ∀ w payload, Named x { d := x.d, a := x.a, b := x.b, c := x.c, td := x.td, nw := x.nw, ar := x.ar, sub := x.sub,
                             size := x.size } →
      Runs s t x.pn x.pg [x.a.toNat, x.b.toNat, x.c.toNat] → targetOf s (gv s t x.a) false = .device d lo →
      ratWidth x = some w → atomicCheck lo w = 0 →
      payload = leBytes 8 (atomicWord w (gv s t x.b)).toNat
        ++ (if x.sub = 4 then leBytes 8 (atomicWord w (gv s t x.c)).toNat else []) →
      Completes (.rat t x) s (fun u =>
        Issued t x .atomic k w (now s + classDeadline s [d]) s u
          ∧ SentOut [{ dst := d, opcode := 0x10 + x.sub.toNat, narrow := decide (3 ≤ x.sub.toNat) && w == 4,
                       gen := (cplOf s k).gen, tag := k, tenant := tileTenant s t, len4 := payload.length / 4,
                       addr := lo, payload := payload }] s u
          ∧ MemKept s u)

/-- The three RCP forms to or from another device: a put that is one segment sends it when its banks are free, a get and a
third-party copy send one request. The segments of a longer put are sent as the banks let them be read.
Which free tag is taken is a free value (notes/assumptions/4.md). -/
def Obligations.RemoteCopiesAreSent : Prop :=
  ∀ (t : Nat) (x : QArgs) (s : State) (k d lo off n : Nat), t < 512 →
    (pickTag (tileTenant s t) s).1 = some k → isTwinned s (tileTenant s t) = false → d ≠ ownDev s →
    Named x { a := x.a, b := x.b, c := x.c, td := x.td, nw := x.nw, ar := x.ar, sub := x.sub } →
    Runs s t x.pn x.pg [x.a.toNat, x.b.toNat, x.c.toNat] → off = (gv s t x.b).toNat → n = (gv s t x.c).toNat →
    (x.sub = 0 → targetOf s (gv s t x.a) true = .device d lo → copyCheck lo off n = 0 → SramServes s t →
      MayUse s t off n → Quiet s t off n →
      Completes (.rcpPut t x) s (fun u =>
        Issued t x .put k n (now s + (classDeadline s [d] + copyAllowance s n)) s u
          ∧ (segCount lo n = 1 → ReadAtOnce s t off n → SentOut
              [{ dst := d, opcode := 0x20, gen := (cplOf s k).gen, tag := k, tenant := tileTenant s t, len4 := n / 4,
                 addr := lo, last := true, payload := memBytes s (sramAddr t off) n }] s u)
          ∧ MemKept s u))
    ∧ (x.sub = 1 → targetOf s (gv s t x.a) false = .device d lo → copyCheck lo off n = 0 →
      off + n ≤ 0x200000 →
      Completes (.rcpGet t x) s (fun u =>
        Issued t x .get k n (now s + (classDeadline s [d] + copyAllowance s n)) s u
          ∧ SentOut [{ dst := d, opcode := 0x21, gen := (cplOf s k).gen, tag := k, tenant := tileTenant s t, len4 := 4,
                       addr := lo, payload := leBytes 8 (sramAddr t off) ++ leBytes 8 n }] s u
          ∧ MemKept s u))
    ∧ (x.sub = 2 → targetOf s (gv s t x.a) false = .device d lo →
      (∀ st v, targetOf s (gv s t x.b) true ≠ .bad st v) → n ≤ 2 ^ 32 → copyCheck lo (fld (gv s t x.b) 47 0) n = 0 →
      rangeOk s (.device d lo) n = true → rangeOk s (targetOf s (gv s t x.b) true) n = true →
      Completes (.rcpThird t x) s (fun u =>
        Issued t x .third k n (now s + (classDeadline s ([d] ++ thirdDevices s d (gv s t x.b)) + copyAllowance s n)) s u
          ∧ SentOut [{ dst := d, opcode := 0x23, gen := (cplOf s k).gen, tag := k, tenant := tileTenant s t, len4 := 4,
                       addr := lo, payload := leBytes 8 (gv s t x.b).toNat ++ leBytes 8 n }] s u
          ∧ MemKept s u))

/-- ATSLOT admitted under its reservation: the occurrence is claimed, both deadlines are fixed, and one packet for each
branch toward its targets is staged for the issue slot, where the pitch buffers take it. -/
def Obligations.PitchStoresAreStaged : Prop :=
  ∀ (t : Nat) (x : QArgs) (s : State) (k res round off n t1 : Nat) (l : List (Nat × Nat)), SramServes s t →
    (pickTag (tileTenant s t) s).1 = some k → isTwinned s (tileTenant s t) = false →
    Named x { a := x.a, b := x.b, c := x.c, td := x.td, nw := x.nw, ar := x.ar, size := x.size } →
    Runs s t x.pn x.pg [x.a.toNat, x.b.toNat, x.c.toNat] →
    res = fld (gv s t x.a) 9 0 → round = fld (gv s t x.a) 63 10 → off = (gv s t x.b).toNat → n = sizeOf_ x →
    fld (gv s t x.c) 63 48 = 0 → admitPitch s (tileTenant s t) res round (ceilDiv (24 + n) 56) = 0 →
    resTargets s (schedActive s) res = some l → ReadAtOnce s t off n → Quiet s t off n →
    t1 = round * 1024 + fld (srcRes s (schedActive s) res 0) 39 30 →
    ∀ branches : List (Nat × Packet), branches = joinBy (l.map (fun p => (p.2,
        stamped s { dst := p.1, opcode := 0x30, gen := (cplOf s k).gen, tag := k, tenant := tileTenant s t, len4 := n / 4,
                    addr := fld (gv s t x.c) 47 0, resId := res, schedVer := (schedActive s).toNat,
                    payload := memBytes s (sramAddr t off) n }))) →
      (∀ b ∈ branches, pitchTakes s b.1 b.2 = true) →
      Completes (.atslot t x) s (fun u =>
        Issued t x .pitch k n (t1 + fld (srcRes s (schedActive s) res 1) 15 0) s u
          ∧ (cplOf u k).lateBy = t1 + classDeadline s (l.map (fun p => p.1))
          ∧ (res, round) ∈ u.net.claims
          ∧ u.net.staged = s.net.staged ++ branches.map (fun b =>
              { port := b.1, tick := t1, stagedAt := now s, tag := k, pkt := b.2 })
          ∧ u.net.routerQ = s.net.routerQ ∧ MemKept s u)

/-- An operation whose target is not valid completes at issue with its status and sends nothing; with no entry to be
had the tile stalls, or with NW = 1 goes on with bit 63 of TD set. -/
def Obligations.RefusedAndStalledIssue : Prop :=
  ∀ (t : Nat) (x : QArgs) (s : State), t < 512 → x.ar = false → isTwinned s (tileTenant s t) = false →
    (Named x { a := x.a, b := x.b, td := x.td, nw := x.nw, size := x.size } →
      Runs s t x.pn x.pg [x.a.toNat, x.b.toNat] →
      (∀ k st v, (pickTag (tileTenant s t) s).1 = some k → targetOf s (gv s t x.a) true = .bad st v →
        Completes (.rst t x) s (RefusedAtIssue t k st s))
      ∧ (∀ k st v, (pickTag (tileTenant s t) s).1 = some k → targetOf s (gv s t x.a) false = .bad st v →
        Completes (.rld t x) s (RefusedAtIssue t k st s))
      ∧ ((pickTag (tileTenant s t) s).1 = none →
        (x.nw = false → Completes (.rst t x) s (Stalls t 6 s) ∧ Completes (.rld t x) s (Stalls t 6 s))
        ∧ (x.nw = true →
            Completes (.rst t x) s (fun u => WroteG t x.td (wd (2 ^ 63)) s u ∧ MovedOn t [] s u ∧ MemKept s u)
            ∧ Completes (.rld t x) s (fun u => WroteG t x.td (wd (2 ^ 63)) s u ∧ MovedOn t [] s u ∧ MemKept s u))))
    ∧ (Named x { a := x.a, b := x.b, c := x.c, td := x.td, nw := x.nw, sub := x.sub } →
      Runs s t x.pn x.pg [x.a.toNat, x.b.toNat, x.c.toNat] →
      ∀ k st v, (pickTag (tileTenant s t) s).1 = some k →
        (x.sub = 0 → targetOf s (gv s t x.a) true = .bad st v → Completes (.rcpPut t x) s (RefusedAtIssue t k st s))
        ∧ (x.sub = 1 → targetOf s (gv s t x.a) false = .bad st v → Completes (.rcpGet t x) s (RefusedAtIssue t k st s))
        ∧ (x.sub = 2 → targetOf s (gv s t x.a) false = .bad st v →
            Completes (.rcpThird t x) s (RefusedAtIssue t k st s))
        ∧ (x.sub = 2 → (∀ st v, targetOf s (gv s t x.a) false ≠ .bad st v) → targetOf s (gv s t x.b) true = .bad st v →
            Completes (.rcpThird t x) s (RefusedAtIssue t k st s)))

-- Collectives at issue (R293–R297, R304)

namespace Sys2Proof.Machine

/-- A member that a collective of a group opens at its position (R293, R297). -/
def memberOf (s : State) (g : Group) (d : Desc) (sub pos t tag : Nat) : Inst :=
  { gid := d.gid, epoch := g.epoch, num := 0, pos := pos, tile := t, tenant := g.tenant, tag := tag, sub := sub, desc := d,
    res := 0, round := 0, pitch := false, ver := (schedActive s).toNat }

end Sys2Proof.Machine

/-- Each of the six CLV operations, off pitch: the leader opens its gang's member, which takes the next instance number
of its position, or is refused at issue by its descriptor; another tile of the gang only goes on.
Readings of the descriptor: notes/assumptions/26.md. -/
def Obligations.CollectivesAreOpened : Prop :=
  ∀ (t : Nat) (x : QArgs) (s : State) (c : Instr) (sub : Nat), t < 512 →
    (c, sub) ∈ [(Instr.clvAllReduce t x, 0), (Instr.clvReduceScatter t x, 1), (Instr.clvAllGather t x, 2),
                (Instr.clvBroadcast t x, 3), (Instr.clvAllToAll t x, 4), (Instr.clvCapacityAllToAll t x, 5)] →
    Named x { a := x.a, b := x.b, td := x.td, nw := x.nw, ar := x.ar, sub := BitVec.ofNat 4 sub } →
    Runs s t x.pn x.pg [x.a.toNat, x.b.toNat] →
    (leaderOf s t ≠ t → Completes c s (fun u =>
      GKept t s u ∧ PKept t s u ∧ VKept t s u ∧ MovedOn t [] s u ∧ MemKept s u))
    ∧ ∀ (k off : Nat) (d : Desc) (g : Group), leaderOf s t = t → (pickTag (tileTenant s t) s).1 = some k →
        isTwinned s (tileTenant s t) = false → off = (gv s t x.a).toNat → off % 32 = 0 → gv s t x.b = 0 →
        MayAccess s t 4 off 32 → Quiet s t off 32 → d = readDesc (memBytes s (sramAddr t off) 32) → g = groupOf s d.gid →
        g.valid = true →
        (x.ar = false → descStatus s sub d (some g.count) ≠ 0 →
          Completes c s (RefusedAtIssue t k (descStatus s sub d (some g.count)) s))
        ∧ ∀ (pos : Nat) (i : Inst), descStatus s sub d (some g.count) = 0 → g.tenant = tileTenant s t →
          posOf s g t = some pos → i = memberOf s g d sub pos t k → sideFine s d.src (inputBytes g i) = true →
          sideFine s d.dst (resultBytes g i) = true → s.coll.early = [] →
          Completes c s (fun u =>
            Issued t x .coll k (resultBytes g i)
              (now s + (classDeadline s (groupDevices s g) + copyAllowance s (trafficOf g i))) s u
              ∧ (∃ j, u.coll.insts = s.coll.insts ++ [j] ∧ j.gid = d.gid ∧ j.epoch = g.epoch ∧ j.pos = pos ∧ j.tag = k
                  ∧ j.sub = sub ∧ j.desc = d ∧ j.tile = t ∧ j.num = mget 0 s.coll.nextInst (numKey d.gid pos false))
              ∧ mget 0 u.coll.nextInst (numKey d.gid pos false) = mget 0 s.coll.nextInst (numKey d.gid pos false) + 1
              ∧ MemKept s u)

/-- RUN, FORM_GANG and DISSOLVE_GANG, the front packet of a job queue: a job begins to load or to wait for its start, a
member list is fetched, a gang is dissolved, or the packet is refused with its status. -/
def Sys2Proof.Machine.JobPackets : Prop :=
  ∀ (q : Nat) (s : State) (e : Entry), q < 512 → frontJob s q = some e →
    (e.type = 1 → gangOk s e.gang (qTenant s q) = true → gangBusy s e.gang = false → runOk s e = true →
      (bit (e.word 0) 49 = false → Completes (.run q) s (fun u =>
        jobOf u e.gang = some (jobFor s q e 2) ∧ (∀ m ∈ membersOf s e.gang, tileState u m = 2)
          ∧ (hq u q).fetched = (hq s q).fetched.tail ∧ MemKept s u))
      ∧ ∀ k d lo, bit (e.word 0) 49 = true → (pickTag (qTenant s q) s).1 = some k →
          targetOf s (e.word 1) false = .device d lo → d ≠ ownDev s → (e.word 1).toNat % 8 = 0 →
          Completes (.run q) s (fun u =>
            jobOf u e.gang = some (jobFor s q e 1) ∧ (∀ m ∈ membersOf s e.gang, tileState u m = 1)
              ∧ (cplOf u k).st = .opened ∧ (cplOf u k).kind = .image ∧ (cplOf u k).expect = 8 * e.count
              ∧ (hq u q).fetched = (hq s q).fetched.tail ∧ MemKept s u))
    ∧ (e.type = 1 → gangOk s e.gang (qTenant s q) = false → Completes (.run q) s (fun u =>
        (hq u q).records = (hq s q).records ++ [{ idx := e.idx, status := statusWord 0x021 0 false false false }]
          ∧ (hq u q).fetched = (hq s q).fetched.tail ∧ MemKept s u))
    ∧ (e.type = 1 → gangOk s e.gang (qTenant s q) = true → gangBusy s e.gang = true → Completes (.run q) s (fun u => u = s))
    ∧ (e.type ≠ 1 → e.type ≠ 2 → e.type ≠ 3 → Completes (.run q) s (fun u =>
        (hq u q).records = (hq s q).records ++ [{ idx := e.idx, status := statusWord 0x020 0 false false false }]
          ∧ MemKept s u))
    ∧ (∀ k d lo, e.type = 2 → 1 ≤ e.count → e.count ≤ 512 → (pickTag (qTenant s q) s).1 = some k →
        targetOf s (e.word 1) false = .device d lo → d ≠ ownDev s → (e.word 1).toNat % 8 = 0 →
        Completes (.formGang q) s (fun u =>
          (cplOf u k).st = .opened ∧ (cplOf u k).kind = .members ∧ (cplOf u k).items = e.count
            ∧ (cplOf u k).expect = ceilDiv (2 * e.count) 8 * 8 ∧ (cplOf u k).sink = .queue q e.idx
            ∧ (hq u q).fetched = (hq s q).fetched.tail ∧ MemKept s u))
    ∧ (e.type = 3 → gangOk s e.gang (qTenant s q) = true → gangBusy s e.gang = false →
        Completes (.dissolveGang q) s (fun u =>
          (∀ m ∈ membersOf s e.gang, leaderOf u m = m)
            ∧ (hq u q).records = (hq s q).records ++ [{ idx := e.idx, status := statusWord 0 0 false false false }]
            ∧ (hq u q).fetched = (hq s q).fetched.tail ∧ MemKept s u))

/-- A loaded job enters: every member of its gang runs from the entry point with its arguments in g1–g4 and the time of
entry in g5, everything else of it cleared; never before START_TIME. -/
def Sys2Proof.Machine.JobEntryStartsTheGang : Prop :=
  ∀ (leader : Nat) (s : State) (j : Job) (a b c d : Word), jobOf s leader = some j → j.st = 2 → j.args = [a, b, c, d] →
    (s.twin.holdJobs && isTwinned s j.tenant) = false → entryTick j < 2 ^ 64 →
    Completes (.jobEntry leader) s (fun u =>
      entryTick j ≤ now u ∧ now s ≤ now u ∧ MemKept s u
        ∧ (∃ j', jobOf u leader = some j' ∧ j'.st = 3 ∧ j'.isLate = (j.startValid && decide (j.startTime < now u)))
        ∧ ∀ m ∈ membersOf s leader,
            tileState u m = 3 ∧ tileIndex u m = j.entry % 8192 ∧ rd u (Reg.cycles m) = 0 ∧ (tl u m).wait = none
              ∧ greg (tl u m) 1 = a ∧ greg (tl u m) 2 = b ∧ greg (tl u m) 3 = c ∧ greg (tl u m) 4 = d
              ∧ greg (tl u m) 5 = u.now ∧ (∀ r, 5 < r → greg (tl u m) r = 0) ∧ (∀ i, preg (tl u m) i = (i == 0))
              ∧ (∀ r, vreg (tl u m) r = 0) ∧ (tl u m).imem = (tl s m).imem)

/-- Jobs: their packets, and the entry that starts a gang. -/
def Obligations.Jobs : Prop := JobPackets ∧ JobEntryStartsTheGang

-- Fabric time and pitch (R35–R64)

namespace Sys2Proof.Machine

/-- An entry of the completion table that was open has completed with a status word, whoever then took it (R198,
R203). -/
def Finished (tag : Nat) (word : Word) (s u : State) : Prop :=
  (cplOf u tag).st ≠ .opened ∧ (cplOf u tag).rec1 = word ∧ (cplOf u tag).gen = ((cplOf s tag).gen + 1) % 16

/-- Everything queued on a port for its neighbour, sent and unacknowledged or held, as flit data in order. -/
def queued (s : State) (n : Nat) : List (BitVec 448) := ((prt s n).replay ++ (prt s n).held).map (fun x => x.flit.data)

end Sys2Proof.Machine

/-- Rounds, time flits, and the time states of a device that is not the beat master. -/
def Sys2Proof.Machine.FabricTime : Prop :=
  (∀ (s : State) (r : Nat),
    r = (if now s % 1024 = 0 ∧ now s / 1024 ≠ s.tim.lastRound then now s / 1024 else now s / 1024 + 1) →
    r * 1024 < 2 ^ 64 → Completes .roundStart s (fun u =>
      now u = r * 1024 ∧ u.tim.lastRound = r ∧ u.tim.guard = max 4 (rdF s Reg.timeGuard 5 0)
        ∧ u.coll.waitAcc = 0 ∧ MemKept s u
        ∧ (isMaster s = false → (∀ n, parentPort s = some n → pitchState s n ≠ 2) →
            u.tim.budget = stateBudget (timeState s))
        ∧ (∀ n, isMaster s = false → parentPort s = some n → n < 32 → timeState s = 2 → pitchState s n = 2 →
            portState s n = 4 → 2 ≤ (prt s n).resyncRound → u.tim.budget = 8)
        ∧ (isMaster s = true → timeState s = 2 →
            u.tim.extLeft = s.tim.extLeft - max (-16) (min 16 s.tim.extLeft))
        ∧ ∀ n, n < 32 → portState s n = 4 →
            Out.time n (ackSeq (prt s n)) r (ownDev s) (timeState s)
                (if isMaster s then 0 else rdF s Reg.timeStatus 55 48) (beatMaster s) (schedActive s).toNat ∈ u.out
              ∧ (pitchState s n = 2 → (prt u n).resyncRound = (prt s n).resyncRound + 1
                  ∧ ((prt s n).resyncRound = 0 → Out.probe n 64 ∈ u.out)
                  ∧ rd u (Reg.portDelay n) = (if (prt s n).resyncRound = 2 then wd (Config.measuredDelay n r)
                      else rd s (Reg.portDelay n)))))
  ∧ (∀ (n round dev st hops master ver frac : Nat) (s : State), n < 32 → portState s n = 4 → dev < 16384 →
    master < 16384 → ver < 2 →
    Completes (.timeFlit n round dev st hops master ver frac) s (fun u =>
      rd u (Reg.portOffset n) = wd (unsignedOf 64 (flitOffset s n round frac)) ∧ (prt u n).nbState = st
        ∧ (prt u n).nbHops = hops ∧ MemKept s u
        ∧ (isMaster s = false → parentPort s = some n → u.tim.master = master)
        ∧ (isMaster s = false → parentPort s = some n → s.tim.syncing = true → st = 2 →
            timeState u = 1 ∧ u.now = wd (round * 1024 + rdF s (Reg.portDelay n) 63 0 / 16) ∧ u.tim.syncing = false
              ∧ rdF u Reg.timeStatus 55 48 = (hops + 1) % 256)
        ∧ (isMaster s = false → parentPort s = some n → s.tim.syncing = false → st = 2 → timeState s ∈ [1, 2, 3, 4] →
            1024 * 16 < (flitOffset s n round frac).natAbs → timeState u = 5 ∧ rdB u Reg.timeEvent 7 = true)))
  ∧ (∀ s : State, now s / 1024 ≤ s.tim.goodRound + 1 →
    (timeState s = 1 ∧ 16 ≤ s.tim.good) ∨ (timeState s = 4 ∧ 2 ≤ s.tim.good) →
    Completes .lockedEntry s (fun u => timeState u = 2 ∧ u.now = s.now ∧ RegsKept [Reg.timeStatus] s u ∧ MemKept s u))
  ∧ (∀ s : State, timeState s = 2 → isMaster s = false → (s.tim.lastFlitRound + 2) * 1024 < 2 ^ 64 →
    Completes .holdoverEntry s (fun u => timeState u = 3 ∧ rdB u Reg.timeEvent 6 = true
      ∧ (s.tim.lastFlitRound + 2) * 1024 ≤ now u ∧ RegsKept [Reg.timeStatus, Reg.timeEvent] s u ∧ MemKept s u))
  ∧ ∀ (s : State) (a b : Nat), twinParent s = none → parentPort s = some a → otherParent s = some b → parentLost s a = true →
    portState s b = 4 → now s + 1023 < 2 ^ 64 →
    Completes .parentSwitch s (fun u => parentPort u = some b ∧ otherParent u = some a ∧ now u % 1024 = 0
      ∧ rdF u Reg.timeStatus 55 48 = ((prt s b).nbHops + 1) % 256 ∧ RegsKept [Reg.timeStatus] s u ∧ MemKept s u)

/-- The beat master takes its offset from an outside reference, which it slews off in the rounds that follow, and says when
the reference is lost. When EXT_LOCK is set is the model's choice (notes/assumptions/49.md). -/
def Sys2Proof.Machine.ExternalTime : Prop :=
  ∀ s : State, isMaster s = true →
    (∀ frac, rdF s Reg.timeCtrl 7 6 = 1 → Completes (.timePpsEdge frac) s (fun u =>
      rd u Reg.extOffset = wd (unsignedOf 64 (ppsOffset s frac))
        ∧ rdB u Reg.timeStatus 3 = decide ((ppsOffset s frac).natAbs ≤ 64) ∧ u.tim.extLeft = ppsOffset s frac
        ∧ u.now = s.now ∧ RegsKept [Reg.extOffset, Reg.timeStatus] s u ∧ MemKept s u))
    ∧ (∀ off, rdF s Reg.timeCtrl 7 6 = 2 → Completes (.ptpMessage off) s (fun u =>
      rd u Reg.extOffset = wd (unsignedOf 64 off) ∧ rdB u Reg.timeStatus 3 = decide (off.natAbs ≤ 1280)
        ∧ u.tim.extLeft = off ∧ u.now = s.now ∧ RegsKept [Reg.extOffset, Reg.timeStatus] s u ∧ MemKept s u))
    ∧ (rdF s Reg.timeCtrl 7 6 ≠ 0 → Completes .extReferenceLost s (fun u =>
      rdB u Reg.timeStatus 3 = false ∧ rdB u Reg.timeEvent 5 = true ∧ u.now = s.now
        ∧ RegsKept [Reg.timeStatus, Reg.timeEvent] s u ∧ MemKept s u))

/-- The clock of the package, on the fabric and from outside. -/
def Obligations.TimeKeeping : Prop := FabricTime ∧ ExternalTime

/-- A pitch packet that arrives in its guard is delivered here where it is for this device, and held for its matched slot
at every branch that takes it; outside the guard, or on a port that is not ACTIVE, it goes on late. The earliest claim of a
port is sent in its slot, past what waits at the port. A port resumes after its
resynchronisation.
Readings of the pitch rules: notes/assumptions/18.md. -/
def Obligations.PitchPackets : Prop :=
  (∀ (n : Nat) (p : Packet) (sentAt due : Nat) (replayed : Bool) (s : State) (l : List Packet), n < 32 →
    portState s n = 4 → due = sentAt + ceilDiv (rdF s (Reg.portDelay n) 63 0) 16 →
    l = (copiesOf p).map (fun c => { c with heldFrom := now s }) →
    (replayed = false → pitchState s n = 1 → now s ≤ due + s.tim.guard → due ≤ now s + s.tim.guard →
      ∀ branches : List ((Nat × Option Word) × Packet),
        branches = joinBy ((l.filter (fun c => c.dst ≠ ownDev s)).map (fun c => (pitchBranch s n c, c))) →
        (branches.map (fun b => b.1.1)).Nodup → (∀ b ∈ branches, b.1.2 ≠ none ∧ pitchTakes s b.1.1 b.2 = true) →
        Completes (.pitchFlitArrive n p sentAt replayed) s (fun u =>
          u.rma.deliverQ = s.rma.deliverQ ++ l.filter (fun c => c.dst = ownDev s)
            ∧ u.net.pitchHeld = s.net.pitchHeld ++ branches.filterMap (fun b => b.1.2.map (fun w =>
                { port := b.1.1, pkt := b.2, tick := nextSlot (now s) (fld w 34 25) (fld w 24 21) (fld w 20 11),
                  ver := b.2.schedVer, heldAt := now s }))
            ∧ RegsKept [] s u ∧ MemKept s u))
    ∧ (replayed = true ∨ pitchState s n ≠ 1 →
        Completes (.pitchFlitArrive n p sentAt replayed) s (fun u => MemKept s u
          ∧ ∀ c ∈ l, c.dst ≠ ownDev s → (some n, { c with late := true, vc := 1 }) ∈ u.net.routerQ))
    ∧ (replayed = false → pitchState s n = 1 → due + s.tim.guard < now s →
        Completes (.pitchFlitArrive n p sentAt replayed) s (fun u => pitchState u n = 2 ∧ MemKept s u
          ∧ ∀ c ∈ l, c.dst ≠ ownDev s → (some n, { c with late := true, vc := 1 }) ∈ u.net.routerQ)))
  ∧ (∀ (n : Nat) (c : Claim) (s : State), n < 32 → claimsOf s n = [c] → c.tick < 2 ^ 64 → (prt s n).pitchTill ≤ c.tick →
    (∀ h, c.own = some h → h.stagedAt + 24 ≤ c.tick) →
    ∀ q, joinCopies ((copiesOf c.pkt).filter (fun x => x.dst ≠ ownDev s)) = some q → roomFor s n 0 (flitCount q) = true →
    Completes (.pitchSlotSend n) s (fun u =>
      claimsOf u n = [] ∧ c.tick ≤ now u ∧ (prt u n).held = (prt s n).held
        ∧ (prt u n).replay.map (fun f => f.flit.data)
            = (prt s n).replay.map (fun f => f.flit.data) ++ (packetFlits q).map (fun f => f.data)
        ∧ u.rma.deliverQ = s.rma.deliverQ ++ (copiesOf c.pkt).filter (fun x => x.dst = ownDev s) ∧ MemKept s u))
  ∧ (∀ (n : Nat) (s : State), n < 32 → pitchState s n = 2 → portState s n = 4 → rdF s (Reg.portStatus n) 13 12 = 3 →
    8 ≤ (prt s n).resyncRound → 2 ≤ (prt s n).resyncGood → timeState s = 2 ∨ timeState s = 3 → now s + 1023 < 2 ^ 64 →
    Completes (.pitchPortResume n) s (fun u => pitchState u n = 1 ∧ now u % 1024 = 0
      ∧ RegsKept [Reg.portPitch n] s u ∧ MemKept s u))
  ∧ ∀ (tag : Nat) (s : State), (cplOf s tag).st = .opened → (cplOf s tag).kind = .pitch → (cplOf s tag).late = false →
    (cplOf s tag).damaged = false →
    ((cplOf s tag).sent = true → (cplOf s tag).deadline < 2 ^ 64 → Completes (.pitchPathBoundExpiry tag) s (fun u =>
      Finished tag (statusWord 0 0 false false false) s u ∧ (cplOf s tag).deadline ≤ now u))
    ∧ ((cplOf s tag).sent = false → (cplOf s tag).slotTick < 2 ^ 64 → Completes (.pitchPathBoundExpiry tag) s (fun u =>
      Finished tag (statusWord 0x014 0 false false false) s u ∧ (cplOf s tag).slotTick ≤ now u))

/-- A switch round is accepted at least four rounds ahead, with no switch waiting and no old pitch flit held; at that
round the other version becomes active if it is well formed as a whole. -/
def Obligations.ScheduleSwitch : Prop :=
  (∀ (who : Writer) (v : Word) (s : State), mayWrite s .installer who = true →
    (now s / 1024 + 4 ≤ fld v 53 0 → rdB s Reg.schedCtrl 1 = false → oldPitch s = 0 →
      Completes (.schedSwitchRoundWrite who v) s (fun u =>
        rdF u Reg.schedSwitchRound 53 0 = fld v 53 0 ∧ rdB u Reg.schedCtrl 1 = true ∧ schedActive u = schedActive s
          ∧ RegsKept [Reg.schedSwitchRound, Reg.schedCtrl] s u ∧ MemKept s u))
    ∧ (fld v 53 0 < now s / 1024 + 4 ∨ rdB s Reg.schedCtrl 1 = true ∨ oldPitch s ≠ 0 →
      Completes (.schedSwitchRoundWrite who v) s (fun u =>
        rdB u Reg.timeEvent 2 = true ∧ RegsKept [Reg.timeEvent] s u ∧ MemKept s u)))
  ∧ ∀ s : State, rdB s Reg.schedCtrl 1 = true → rdF s Reg.schedSwitchRound 53 0 * 1024 < 2 ^ 64 →
    Completes .schedSwitch s (fun u =>
      schedActive u = (if versionFine s (!schedActive s) then !schedActive s else schedActive s)
        ∧ rdB u Reg.schedCtrl 1 = false
        ∧ rdB u Reg.timeEvent (if versionFine s (!schedActive s) then 3 else 2) = true
        ∧ rdF s Reg.schedSwitchRound 53 0 * 1024 ≤ now u ∧ RegsKept [Reg.schedCtrl, Reg.timeEvent] s u ∧ MemKept s u)

-- Banks (R143–R158)

/-- A cycle of a bank: each port that asks and does not proceed stalls for the cycle and is counted as a lost
arbitration; in the write cycle of a fall-back atomic every port stalls, and none has lost one. -/
def Sys2Proof.Machine.BankArbitration : Prop :=
  ∀ (g : Nat) (s : State), g < 8192 →
    ((bank s g).wcycle = true →
      rd (bankCycle g s) (Reg.stallBank (g / 16)) = rd s (Reg.stallBank (g / 16)) + wd (bank s g).fronts.length
        ∧ (bank (bankCycle g s) g).wcycle = false ∧ (bank (bankCycle g s) g).entries = (bank s g).entries
        ∧ RegsKept [Reg.stallBank (g / 16)] s (bankCycle g s) ∧ MemKept s (bankCycle g s))
    ∧ ∀ e f : BankEntry, (bank s g).wcycle = false → (bank s g).entries = [e, f] → e.work = .spent → f.work = .spent →
        1 ≤ e.port → e.port < f.port → f.port ≤ 4 → e.word ≠ f.word →
        nth (bank s g).lost (e.port - 1) < rdF s (Reg.bankCtrl (g / 16)) 11 8 →
        (∀ w x : BankEntry, (w, x) = (if rdF s (Reg.bankCtrl (g / 16)) 11 8 ≤ nth (bank s g).lost (f.port - 1) then (f, e)
                                      else (e, f)) → w.left = 1 →
          (bank (bankCycle g s) g).entries = [x]
            ∧ nth (bank (bankCycle g s) g).lost (x.port - 1) = nth (bank s g).lost (x.port - 1) + 1
            ∧ rd (bankCycle g s) (Reg.stallBank (g / 16)) = rd s (Reg.stallBank (g / 16)) + 1
            ∧ rdF (bankCycle g s) (Reg.bankConflict (g / 16) (g % 16)) 63 0
                = min (rdF s (Reg.bankConflict (g / 16) (g % 16)) 63 0 + 1) (2 ^ 64 - 1)
            ∧ RegsKept [Reg.stallBank (g / 16), Reg.bankConflict (g / 16) (g % 16)] s (bankCycle g s)
            ∧ MemKept s (bankCycle g s))

/-- The scrub of a bank reads its next word and shows what its halves show; a half with one bit in error is written
back; a handover is asked for, refused while one is pending, and done once nothing admitted waits: words of the tile's
own units that come later are then checked against the new owner. -/
def Sys2Proof.Machine.BankUpkeep : Prop :=
  ∀ (t b : Nat) (s : State), t < 512 → b < 16 →
    (∀ lo hi k, rdB s (Reg.bankCtrl t) 0 = true → bankOn s t = true → k = mget 0 (tl s t).scrub b →
      Completes (.bankScrub t b lo hi) s (fun u =>
        mget 0 (tl u t).scrub b = (k + 1) % 2048 ∧ MemKept s u ∧ TilesKept t s u ∧ GKept t s u
          ∧ (lo = .clean → hi = .clean → eccOf s (sramAddr t (b * 0x20000 + k * 64) / 32) = .clean →
              eccOf s (sramAddr t (b * 0x20000 + k * 64) / 32 + 1) = .clean → RegsKept [] s u ∧ u.ecc = s.ecc)
          ∧ (lo = .double → eccOf u (sramAddr t (b * 0x20000 + k * 64) / 32) = .poison
              ∧ rdB u Reg.faultStatus srcSram = true)))
    ∧ (∀ kv, s.ecc.find? (fun kv => kv.2 == .single && tileBankOf (32 * kv.1) == (t, b)
          && decide (sramAddr 0 0 ≤ 32 * kv.1)) = some kv →
      Completes (.bankEccWriteback t b) s (fun u =>
        eccOf u kv.1 = .clean ∧ (∀ v, v ≠ kv.1 → eccOf u v = eccOf s v) ∧ RegsKept [] s u ∧ MemKept s u))
    ∧ (∀ who v, fenceState s (t / 128) = 0 → mayWrite s .any who = true → mayHand s who t b = true →
      (handoverPending s t b = false → agentOk (fld v 27 16) = true → tenantOk s (fld v 7 0) = true →
        Completes (.bankOwnerNextWrite who t b v) s (fun u =>
          handoverPending u t b = true ∧ rd u (Reg.bankOwnerNext t b) = wd (fld v 27 16 * 2 ^ 16 + fld v 7 0)
            ∧ rd u (Reg.bankOwner t b) = rd s (Reg.bankOwner t b)
            ∧ RegsKept [Reg.bankOwnerNext t b, Reg.bankStatus t b] s u ∧ MemKept s u))
      ∧ (handoverPending s t b = true → Completes (.bankOwnerNextWrite who t b v) s (fun u =>
          handoverPending u t b = true ∧ rdF u (Reg.bankStatus t b) 7 4 = 1 ∧ rdB u (Reg.bankStatus t b) 1 = true
            ∧ RegsKept [Reg.bankStatus t b] s u ∧ MemKept s u)))
    ∧ (handoverPending s t b = true → (bank s (16 * t + b)).entries ≠ [] →
      Completes (.handoverDone t b) s (fun u => u = s))
    ∧ (handoverPending s t b = true → (bank s (16 * t + b)).entries = [] → (∀ h ∈ s.rma.held, h.1 ≠ 16 * t + b) →
      ∀ owner : Word, owner = rd s (Reg.bankOwnerNext t b) →
      ((bank s (16 * t + b)).later = [] → Completes (.handoverDone t b) s (fun u =>
        handoverPending u t b = false ∧ rd u (Reg.bankOwner t b) = owner
          ∧ rdB u (Reg.bankStatus t b) 0 = true
          ∧ rdF u (Reg.bankStatus t b) 63 48 = (rdF s (Reg.bankStatus t b) 63 48 + 1) % 65536
          ∧ RegsKept [Reg.bankOwner t b, Reg.bankStatus t b, Reg.bankInflight t b] s u ∧ MemKept s u))
      ∧ (fld owner 7 0 = tileTenant s t → fld owner 27 16 = t ∨ fld owner 27 16 = 0xFFF →
        Completes (.handoverDone t b) s (fun u => rd u (Reg.bankOwner t b) = owner
          ∧ (bank u (16 * t + b)).entries = (bank s (16 * t + b)).later ∧ (bank u (16 * t + b)).later = [] ∧ MemKept s u))
      ∧ ((bank s (16 * t + b)).later ≠ [] →
        fld owner 7 0 ≠ tileTenant s t ∨ (fld owner 27 16 ≠ t ∧ fld owner 27 16 ≠ 0xFFF) →
        Completes (.handoverDone t b) s (fun u => rd u (Reg.bankOwner t b) = owner
          ∧ (∀ m ∈ membersOf s (leaderOf s t), tileState u m = 5 ∧ (tl u m).wait = none)
          ∧ rdB u Reg.faultStatus srcTile = true ∧ rdB u Reg.faultStatus srcAccess = true ∧ MemKept s u)))

/-- Banks: arbitration, upkeep and handovers. -/
def Obligations.BanksAndHandovers : Prop := BankArbitration ∧ BankUpkeep

-- HBM (R171–R184)

/-- A stack that may perform an access whose sectors show no error reads or writes exactly its bytes and answers it;
its scrub, its refresh and its refresh management requests. -/
def Sys2Proof.Machine.HbmAccesses : Prop :=
  ∀ (p i : Nat) (s : State), p < 4 → i < 4 → stackPresent s p i = true → stackState s p i = 3 →
    (∀ (k c d : Nat) (syn : List Syndrome) (x : Access), (stk s p i).queue[k]? = some x → mayPerform s p i k x = true →
      (stk s p i).offAfter = false → (∀ y ∈ syn, y = .clean) → (∀ v ∈ sectorsOf x, eccOf s v = .clean) →
      (x.op = .write → x.poison = false → x.len = x.data.length → x.reply = .none →
        Completes (.hbmAccess p i k syn c d) s (fun u =>
          memBytes u x.addr x.len = x.data ∧ MemKeptBut x.addr x.len s u
            ∧ (stk u p i).queue = (stk s p i).queue.eraseIdx k ∧ RegsKept [Reg.hbmEcc p i] s u))
      ∧ (∀ req, x.op = .read → x.reply = .packet req → req.opcode = 1 → req.src ≠ ownDev s →
          now s ≤ x.since + answerLimit →
          Completes (.hbmAccess p i k syn c d) s (fun u =>
            SentOut [{ dst := req.src, opcode := 0x60, gen := req.gen, tag := req.tag, tenant := req.tenant,
                       len4 := x.len / 4, addr := req.addr, seg := req.seg, payload := memBytes s x.addr x.len }] s u
              ∧ (stk u p i).queue = (stk s p i).queue.eraseIdx k ∧ RegsKept [Reg.hbmEcc p i] s u ∧ MemKept s u))
      ∧ (∀ req op narrow a b w, x.op = .atomic op narrow a b → w = atomicWidth op narrow → x.reply = .packet req →
          0x10 ≤ req.opcode → req.opcode ≤ 0x16 → req.src ≠ ownDev s → now s ≤ x.since + answerLimit →
          Completes (.hbmAccess p i k syn c d) s (fun u =>
            memBytes u x.addr w = leBytes w (atomicResult op w (leNat (memBytes s x.addr w)) a.toNat b.toNat)
              ∧ MemKeptBut x.addr w s u ∧ (stk u p i).queue = (stk s p i).queue.eraseIdx k
              ∧ SentOut [{ dst := req.src, opcode := 0x62, gen := req.gen, tag := req.tag, tenant := req.tenant,
                           len4 := 2, addr := req.addr, seg := req.seg,
                           payload := leBytes 8 (leNat (memBytes s x.addr w)) }] s u)))
    ∧ (∀ seen, rdB s (Reg.hbmCtrl p i) 4 = true → (stk s p i).queue = [] →
      Completes (.hbmScrub p i seen) s (fun u =>
        (stk u p i).scrubRow = ((stk s p i).scrubRow + 1) % 100663296 ∧ MemKept s u
          ∧ rdF u (Reg.hbmEcc p i) 31 16 = min (rdF s (Reg.hbmEcc p i) 31 16 + seen.corrected) 65535
          ∧ rdF u (Reg.hbmEcc p i) 15 0 = min (rdF s (Reg.hbmEcc p i) 15 0 + seen.uncorrected) 65535))
    ∧ Completes (.hbmRefresh p i) s (fun u =>
        u = { s with out := s.out ++ [.refresh p i (rdB s (Reg.hbmRefresh p i) 0)] })
    ∧ Completes (.rfmRequest p i) s (fun u => u = { s with out := s.out ++ [.rfm p i] })

/-- Temperature, errors and the retraining of a stack. -/
def Sys2Proof.Machine.HbmRetraining : Prop :=
  ∀ (p i : Nat) (s : State), p < 4 → i < 4 → stackPresent s p i = true →
    (∀ temp, Completes (.hbmTempRead p i temp) s (fun u =>
      rdF u (Reg.hbmStatus p i) 47 40 = min 255 temp ∧ MemKept s u
        ∧ rdB u (Reg.hbmStatus p i) 18 = inBand (rdB s (Reg.hbmStatus p i) 18) temp 95
        ∧ (105 ≤ temp → stackState s p i ∈ [2, 3, 4] →
            stackState u p i = 5 ∧ (stk u p i).run = none ∧ (stk u p i).selfRefresh = true
              ∧ rdB u Reg.faultStatus 17 = true)
        ∧ (temp < 102 → stackState s p i = 5 → (stk u p i).wait.isSome ∨ (stk u p i).run.isSome)))
    ∧ (canRetrain s p i = true → Completes (.hbmParityError p i) s (fun u =>
        rdB u (Reg.hbmEvent p i) 6 = true ∧ ((stk u p i).wait.isSome ∨ (stk u p i).run.isSome) ∧ MemKept s u))
    ∧ (∀ who, mayWrite s .any who = true → fenceState s p = 0 → stackState s p i = 3 → (stk s p i).run = none →
        Completes (.retrainNow who p i) s (fun u => ((stk u p i).wait.isSome ∨ (stk u p i).run.isSome) ∧ MemKept s u))
    ∧ (stackState s p i = 3 → (stk s p i).run = none → (stk s p i).wait = none →
        Completes (.hbmPeriodicRetrainTrigger p i) s (fun u =>
          ((stk u p i).wait.isSome ∨ (stk u p i).run.isSome) ∧ MemKept s u
            ∧ (rdF s (Reg.hbmCtrl p i) 1 0 = 1 → (stk u p i).wait =
                some { kind := .periodic, deferred := true, trigger := now s })))
    ∧ (∀ w, (stk s p i).wait = some w → w.deferred = true → deferredStart s p i w.trigger < 2 ^ 64 →
        Completes (.hbmDeferredRetrainStart p i) s (fun u =>
          deferredStart s p i w.trigger ≤ now u ∧ MemKept s u
            ∧ ((stk u p i).wait = some { w with deferred := false } ∨ (stk u p i).run = some w.kind)))
    ∧ (∀ w, (stk s p i).wait = some w → nextRetrain s p = some i → partRetrains s p = false →
        Completes (.hbmRetrainStart p i) s (fun u =>
          stackState u p i = 4 ∧ (stk u p i).run = some w.kind ∧ (stk u p i).attempt = 1 ∧ (stk u p i).wait = none
            ∧ RegsKept [Reg.hbmStatus p i] s u ∧ MemKept s u))
    ∧ ∀ us kind, (stk s p i).run = some kind → (stk s p i).admitted = 0 → (stk s p i).offAfter = false →
        Completes (.hbmRetrainDone p i true us) s (fun u =>
          stackState u p i = 3 ∧ (stk u p i).run = none ∧ rdB u (Reg.hbmEvent p i) 1 = true
            ∧ rdF u (Reg.hbmStatus p i) 29 28 = (if kind = .recovery then (4 - (stk s p i).attempt) % 4
                                                 else rdF s (Reg.hbmStatus p i) 29 28)
            ∧ rdF u (Reg.hbmRetrains p i) 31 0 = us % 2 ^ 32 ∧ MemKept s u)
        ∧ (kind ≠ .recovery → Completes (.hbmRetrainDone p i false us) s (fun u =>
            (stk u p i).run = some .recovery ∧ (stk u p i).attempt = 1 ∧ RegsKept [] s u ∧ MemKept s u))
        ∧ (kind = .recovery → (stk s p i).attempt < 3 → Completes (.hbmRetrainDone p i false us) s (fun u =>
            (stk u p i).run = some .recovery ∧ (stk u p i).attempt = (stk s p i).attempt + 1 ∧ RegsKept [] s u
              ∧ MemKept s u))
        ∧ (kind = .recovery → 3 ≤ (stk s p i).attempt → (stk s p i).queue = [] →
            Completes (.hbmRetrainDone p i false us) s (fun u =>
              stackState u p i = 6 ∧ (stk u p i).run = none ∧ rdB u (Reg.hbmEvent p i) 2 = true
                ∧ rdB u Reg.faultStatus 16 = true ∧ MemKept s u))

/-- HBM stacks: accesses and upkeep, retraining. -/
def Obligations.HbmStacks : Prop := HbmAccesses ∧ HbmRetraining

-- Remote memory access at the target and back (R191–R216)

namespace Sys2Proof.Machine

/-- The access that a request packet of an opcode asks for (R196). -/
def askedBy (s : State) (q : Packet) : Access :=
  if q.opcode = 1 then reqAccess s q .read (4 * q.len4) []
  else if 0x10 ≤ q.opcode ∧ q.opcode ≤ 0x16 then
    (let op := AccOp.atomic q.opcode q.narrow (leWord (q.payload.take 8)) (leWord ((q.payload.drop 8).take 8))
     reqAccess s q op (opWidth op) [])
  else reqAccess s q .write q.payload.length q.payload

/-- A stack takes accesses into its queue: it is on, has not failed, and has room (R171, R181, R182). -/
abbrev StackTakes (s : State) (p off : Nat) : Prop :=
  2 ≤ stackState s p (stackOf s off) ∧ stackState s p (stackOf s off) ≠ 6
    ∧ (stk s p (stackOf s off)).queue.length < 512 ∧ ∀ h ∈ s.rma.held, h.1 ≠ 8192 + 4 * p + stackOf s off

/-- The bytes that an access touches lie in one line of 256 bytes (R170). -/
abbrev OneLine (x : Access) : Prop := segCount x.addr (accLen x) = 1

/-- One access was put behind those of a stack. -/
def Queued (p i : Nat) (x : Access) (s u : State) : Prop := (stk u p i).queue = (stk s p i).queue ++ [x]

end Sys2Proof.Machine

namespace Sys2Proof.Machine

/-- A write of `n` bytes was performed; a WR, and a put whose last segment it is, are acknowledged (R191, R196). -/
def WritePerformed (q : Packet) (n : Nat) (s u : State) : Prop :=
  memBytes u q.addr n = q.payload ∧ MemKeptBut q.addr n s u
    ∧ (q.opcode = 2 ∨ (q.opcode = 0x20 ∧ q.last = true ∧ q.seg = 0 ∧ ∀ a ∈ s.rma.ackDue, a.isFor q = false) →
        SentOut [{ dst := q.src, opcode := 0x61, gen := q.gen, tag := q.tag, tenant := q.tenant, len4 := 2,
                   addr := if q.opcode = 2 then q.addr else 0, seg := q.seg, payload := leBytes 8 (n % 2 ^ 33) }] s u)
    ∧ (q.opcode = 0x30 → u.net.routerQ = s.net.routerQ)

/-- An atomic of `n` bytes left `v` and was answered with the old value (R149, R196). -/
def AtomicPerformed (q : Packet) (n old v : Nat) (s u : State) : Prop :=
  memBytes u q.addr n = leBytes n v ∧ MemKeptBut q.addr n s u ∧ RegsKept [] s u
    ∧ SentOut [{ dst := q.src, opcode := 0x62, gen := q.gen, tag := q.tag, tenant := q.tenant, len4 := 2,
                 addr := q.addr, seg := q.seg, payload := leBytes 8 old }] s u

/-- A write of agent 0x800 that is neither twinned, poisoned nor late, which its window admits. -/
abbrev PlainWrite (s : State) (q : Packet) (op n : Nat) (perm : Perm) : Prop :=
  q.opcode = op ∧ q.twin = false ∧ q.poison = false ∧ q.late = false ∧ n = q.payload.length
    ∧ (windowCheck s q.tenant q.addr n perm false).isSome = true

/-- An atomic of `n` aligned bytes that its window admits. -/
abbrev AlignedAtomic (s : State) (q : Packet) (op n w : Nat) : Prop :=
  q.opcode = op ∧ n = w ∧ q.addr % n = 0 ∧ (windowCheck s q.tenant q.addr n .atomic false).isSome = true

end Sys2Proof.Machine

/-- Every request of R196 that may be performed at SRAM at once, its banks on, owned by the fabric and free, and its
window granting it: a read is answered with the bytes, a write stores its payload and is acknowledged (a pitch write that
came in time is not), an atomic leaves the value that its operation gives and is answered with the old one. -/
def Sys2Proof.Machine.RequestsPerformedAtSram : Prop :=
  ∀ (q : Packet) (s : State) (t off n old a b w : Nat), SramServes s t → q.addr = sramAddr t off → 1 ≤ n →
    off + n ≤ 0x200000 → q.src ≠ ownDev s → packetOk q = true →
    (∀ b ∈ banksOf off n, handoverPending s t b = false ∧ owns s t b 0x800 q.tenant = true) →
    banksClear s 1 q.addr n = true → heldBefore s 1 (banksAt q.addr n) = false →
    (∀ u ∈ unitsOf q.addr n, eccOf s u = .clean) → old = leNat (memBytes s q.addr n) → a = leNat (q.payload.take 8) →
    b = leNat ((q.payload.drop 8).take 8) → w = (if q.narrow = true then 4 else 8) →
    (q.opcode = 1 → n = 4 * q.len4 → (windowCheck s q.tenant q.addr n .read false).isSome = true →
      Completes (.rdReq q) s (fun u =>
        SentOut [{ dst := q.src, opcode := 0x60, gen := q.gen, tag := q.tag, tenant := q.tenant, len4 := q.len4,
                   addr := q.addr, seg := q.seg, payload := memBytes s q.addr n }] s u ∧ RegsKept [] s u ∧ MemKept s u))
    ∧ (PlainWrite s q 2 n .write → Completes (.wr q) s (WritePerformed q n s))
    ∧ (PlainWrite s q 0x20 n .write → Completes (.putData q) s (WritePerformed q n s))
    ∧ (PlainWrite s q 0x30 n .pitch → Completes (.pitchWr q) s (WritePerformed q n s))
    ∧ (AlignedAtomic s q 0x10 n 4 → Completes (.atAdd32 q) s (AtomicPerformed q n old ((old + a) % 2 ^ 32) s))
    ∧ (AlignedAtomic s q 0x11 n 8 → Completes (.atAdd64 q) s (AtomicPerformed q n old ((old + a) % 2 ^ 64) s))
    ∧ (AlignedAtomic s q 0x12 n 4 → Completes (.atAddf32 q) s (AtomicPerformed q n old (addF32 old (a % 2 ^ 32)) s))
    ∧ (AlignedAtomic s q 0x13 n w → Completes (.atSwap q) s (AtomicPerformed q n old (a % 2 ^ (8 * n)) s))
    ∧ (AlignedAtomic s q 0x14 n w → Completes (.atCas q) s
        (AtomicPerformed q n old (if old = b % 2 ^ (8 * n) then a % 2 ^ (8 * n) else old) s))
    ∧ (AlignedAtomic s q 0x15 n w → Completes (.atBset q) s (AtomicPerformed q n old (old ||| a % 2 ^ (8 * n)) s))
    ∧ (AlignedAtomic s q 0x16 n w → Completes (.atBclr q) s
        (AtomicPerformed q n old (old &&& (2 ^ (8 * n) - 1 - a % 2 ^ (8 * n))) s))

/-- Every request of R196 at its target: admitted, it joins the queue of its HBM stack; refused, it is counted and
recorded; a twinned write that came before is answered and not performed.
Readings of the target's order of checks: notes/assumptions/16.md. -/
def Sys2Proof.Machine.RequestsAdmitted : Prop :=
  ∀ (p q : Packet) (c : Instr) (op : Nat) (s : State),
    (c, op) ∈ [(Instr.rdReq p, 1), (.wr p, 2), (.atAdd32 p, 0x10), (.atAdd64 p, 0x11), (.atAddf32 p, 0x12),
               (.atSwap p, 0x13), (.atCas p, 0x14), (.atBset p, 0x15), (.atBclr p, 0x16), (.putData p, 0x20),
               (.pitchWr p, 0x30)] →
    q = { p with opcode := op } → packetOk q = true →
    (∀ pt off y, (q.twin = true → op ≠ 2 ∧ op ≠ 0x20 ∧ op ≠ 0x30) → admission s (askedBy s q) = .ok (.hbm pt off, y) →
      StackTakes s pt off → OneLine y → misaligned 0 y = false →
      Completes c s (fun u => Queued pt (stackOf s off) y s u ∧ RegsKept [] s u ∧ MemKept s u))
    ∧ (∀ e, admission s (askedBy s q) = .error e → Completes c s (fun u =>
        rdB u Reg.faultStatus srcAccess = true
          ∧ rdF u Reg.winRefuseCount 63 0 = min (rdF s Reg.winRefuseCount 63 0 + 1) (2 ^ 64 - 1)
          ∧ (op = 1 → p.src ≠ ownDev s → SentOut [{ dst := p.src, opcode := 0x60, gen := p.gen, tag := p.tag,
                                                     tenant := p.tenant, addr := p.addr, seg := p.seg, status := e }] s u)
          ∧ MemKept s u))
    ∧ (∀ r y k, (op = 2 ∨ op = 0x20 ∨ op = 0x30) → q.twin = true → admission s (askedBy s q) = .ok (r, y) →
        rxPairOf s q.src = some k → (rxWindow s k).getLsbD (q.twinSeq % 4096) = true →
        Completes c s (fun u => MemKept s u ∧ u.twin = s.twin
          ∧ rdF u Reg.dupCount 63 32 = min (rdF s Reg.dupCount 63 32 + 1) (2 ^ 32 - 1)))

/-- Requests at their target: at SRAM, and their admission. -/
def Obligations.RequestsAtTheTarget : Prop := RequestsPerformedAtSram ∧ RequestsAdmitted

/-- A get reads its source segment by segment, a third-party copy opens an entry of this device and reads its source,
and a put's acknowledgement does not wait longer than a round. -/
def Obligations.CopiesAtTheTarget : Prop :=
  (∀ (p q : Packet) (s : State) (dst n pt off : Nat) (y : Access), q = { p with opcode := 0x21 } → packetOk q = true →
    dst = leNat (p.payload.take 8) % 2 ^ 48 → n = leNat ((p.payload.drop 8).take 8) → segCount dst n = 1 →
    admission s { op := .read, addr := p.addr, len := n, agent := 0x800, tenant := p.tenant, since := now s,
                  reply := .getSeg q dst 0 true } = .ok (.hbm pt off, y) → StackTakes s pt off → OneLine y →
    Completes (.getReq p) s (fun u => Queued pt (stackOf s off) y s u ∧ RegsKept [] s u ∧ MemKept s u))
  ∧ (∀ (p q : Packet) (s : State) (b : Word) (k d lo n pt off : Nat) (y : Access), q = { p with opcode := 0x23 } →
    packetOk q = true → b = leWord (p.payload.take 8) → n = leNat ((p.payload.drop 8).take 8) →
    ((pickTag p.tenant s).1 = some k → targetOf s b true = .device d lo → segCount lo n = 1 →
      admission s { op := .read, addr := p.addr, len := n, agent := 0x800, tenant := p.tenant, since := now s,
                    reply := .putSeg k (cplOf s k).gen lo 0 true } = .ok (.hbm pt off, y) → StackTakes s pt off →
      OneLine y →
      Completes (.thirdReq p) s (fun u =>
        (cplOf u k).st = .opened ∧ (cplOf u k).kind = .third ∧ (cplOf u k).sink = .copyFor q
          ∧ (cplOf u k).expect = n ∧ (cplOf u k).deadline = now s + (classDeadline s [d] + copyAllowance s n)
          ∧ Queued pt (stackOf s off) y s u ∧ MemKept s u))
    ∧ ((pickTag p.tenant s).1 = none → Completes (.thirdReq p) s (fun u =>
        u.rma.deliverQ = s.rma.deliverQ ++ [q] ∧ RegsKept [] s u ∧ MemKept s u)))
  ∧ ∀ (dev tag : Nat) (a : AckDue) (s : State),
    s.rma.ackDue.find? (fun a => a.dev == dev && a.tag == tag && a.unackedSegs != 0) = some a → dev ≠ ownDev s →
    a.since + 1024 < 2 ^ 64 →
    Completes (.ackFlushTimeout dev tag) s (fun u =>
      SentOut [{ dst := dev, opcode := 0x61, gen := a.gen, tag := tag, tenant := a.tenant, len4 := 2, status := a.err,
                 payload := leBytes 8 (a.unackedBytes % 2 ^ 33) }] { s with now := u.now } u
        ∧ u.rma.ackDue = s.rma.ackDue.map (fun b =>
            if b = a then { b with unackedSegs := 0, unackedBytes := 0, err := 0 } else b)
        ∧ a.since + 1024 ≤ now u ∧ RegsKept [] s u ∧ MemKept s u)

/-- The answer of a load or an atomic is in its register, and the operation has completed (R192, R196, R198). -/
def Sys2Proof.Machine.RegisterAnswered (p : Packet) (t d : Nat) (s u : State) : Prop :=
  greg (tl u t) d = leWord p.payload ∧ (∀ r, r ≠ d → greg (tl u t) r = greg (tl s t) r)
    ∧ Finished p.tag (statusWord 0 0 false false p.late) s u ∧ MemKept s u

/-- Responses at their requester: data reaches its register or its SRAM, byte counts add up, and an operation whose
last part has come completes with its status; a response that matches no open entry is stale. -/
def Obligations.ResponsesAtTheRequester : Prop :=
  ∀ (p : Packet) (s : State) (e : Cpl), e = cplOf s p.tag →
    ((e.st ≠ .opened ∨ e.gen ≠ p.gen) → ∀ c op, (c, op) ∈ [(Instr.rdResp p, 0x60), (.atResp p, 0x62),
        (.copyDone p, 0x63), (.getData p, 0x64)] → packetOk { p with opcode := op } = true →
      Completes c s (fun u => rdF u Reg.staleCount 63 0 = min (rdF s Reg.staleCount 63 0 + 1) (2 ^ 64 - 1)
        ∧ u.cpl = s.cpl ∧ RegsKept [Reg.staleCount] s u ∧ MemKept s u))
    ∧ (e.st = .opened → e.gen = p.gen → e.damaged = false → e.firstErr = 0 → e.cvu = none → e.drops = 0 →
      e.inexact = false →
      (∀ t d, e.kind ≠ .dmaOut → e.kind ≠ .eth → e.sink = .reg t d → d ≠ 0 → e.tile = some t → (tl s t).wait = none →
        e.orphan = false → e.ar = false →
        (packetOk { p with opcode := 0x60 } = true → p.status = 0 → Completes (.rdResp p) s (RegisterAnswered p t d s))
        ∧ (packetOk { p with opcode := 0x62 } = true → p.status = 0 → Completes (.atResp p) s (RegisterAnswered p t d s))
        ∧ (isError p.status = true → ∀ c op, (c, op) ∈ [(Instr.rdResp p, 0x60), (.atResp p, 0x62)] →
          packetOk { p with opcode := op } = true → Completes c s (fun u =>
            greg (tl u t) d = 0 ∧ Finished p.tag (statusWord p.status 0 false false p.late) s u ∧ MemKept s u)))
      ∧ (packetOk { p with opcode := 0x61 } = true → ∀ n, n = leNat p.payload % 2 ^ 33 → p.status = 0 →
        (e.got + n < e.expect → Completes (.ack p) s (fun u =>
          cplOf u p.tag = { e with got := e.got + n } ∧ RegsKept [] s u ∧ MemKept s u))
        ∧ (e.expect ≤ e.got + n → Completes (.ack p) s (Finished p.tag (statusWord 0 0 false false p.late) s)))
      ∧ (packetOk { p with opcode := 0x61 } = true → p.status = 0x00E →
        Completes (.ack p) s (Finished p.tag (statusWord 0x00E 0 false false e.late) s))
      ∧ (packetOk { p with opcode := 0x63 } = true → p.status = 0 ∨ isError p.status = true →
        Completes (.copyDone p) s (Finished p.tag (statusWord p.status 0 false false p.late) s))
      ∧ (∀ t o off n, packetOk { p with opcode := 0x64 } = true → e.sink = .sram t o → e.tenant = tileTenant s t →
        p.status = 0 → p.poison = false → n = p.payload.length → off = o + (p.addr - e.base) → SramServes s t →
        MayUse s t off n → banksClear s (if e.kind = .desc then 2 else 1) (sramAddr t off) n = true →
        heldBefore s (if e.kind = .desc then 2 else 1) (banksAt (sramAddr t off) n) = false → Quiet s t off n → 0 < n →
        e.got + n < e.expect →
        Completes (.getData p) s (fun u =>
          memBytes u (sramAddr t off) n = p.payload ∧ MemKeptBut (sramAddr t off) n s u
            ∧ cplOf u p.tag = { e with got := e.got + n })))
    ∧ (packetOk { p with opcode := 0x65 } = true →
      (e.st = .opened → e.gen = p.gen → e.kind = .pitch → Completes (.lateNote p) s (fun u =>
        (cplOf u p.tag).late = true ∧ (cplOf u p.tag).st = .opened
          ∧ (cplOf u p.tag).deadline = e.lateBy
          ∧ rdB u Reg.faultStatus srcDeadline = true ∧ MemKept s u))
      ∧ (e.st ≠ .opened → Completes (.lateNote p) s (fun u =>
        u.cpl = s.cpl ∧ rdF u Reg.staleCount 63 0 = min (rdF s Reg.staleCount 63 0 + 1) (2 ^ 64 - 1)
          ∧ rdB u Reg.faultStatus srcDeadline = true ∧ MemKept s u)))

/-- A deadline, a quarantine and the hold limit end what they bound. -/
def Obligations.RemoteTimers : Prop :=
  (∀ (tag : Nat) (s : State) (e : Cpl), e = cplOf s tag → e.st = .opened → e.deadline < 2 ^ 64 →
    (e.damaged = false → (e.kind = .pitch → e.late = true) → e.deadline ≠ 0 →
      Completes (.deadlineExpiry tag) s (fun u =>
        Finished tag (statusWord (if e.firstErr = 0 then 0x001 else e.firstErr) 0 false false e.late) s u
          ∧ e.deadline ≤ now u))
    ∧ (e.damaged = true → Completes (.deadlineExpiry tag) s (fun u =>
        Finished tag (statusWord 0x001 0 false false e.late) s u ∧ e.deadline ≤ now u)))
  ∧ (∀ (tag : Nat) (s : State), (cplOf s tag).st = .quarantine →
    (cplOf s tag).doneAt + rdF s Reg.cplQuarantine 47 0 < 2 ^ 64 →
    Completes (.quarantineExpiry tag) s (fun u =>
      (cplOf u tag).st = .free ∧ (cplOf u tag).gen = (cplOf s tag).gen
        ∧ (cplOf s tag).doneAt + rdF s Reg.cplQuarantine 47 0 ≤ now u ∧ RegsKept [] s u ∧ MemKept s u))
  ∧ ∀ (s : State) (place : HoldPlace) (p : Packet), p ∈ packetsIn s place → limited p = true →
    (∀ x ∈ packetsIn s place, x ≠ p → limited x = true → p.heldFrom < x.heldFrom) → p.heldFrom + 1600000 < 2 ^ 64 →
    Completes (.holdLimitDiscard place) s (fun u =>
      p.heldFrom + 1600000 ≤ now u
        ∧ rdF u Reg.routeDiscard 63 32 = min (rdF s Reg.routeDiscard 63 32 + 1) (2 ^ 32 - 1)
        ∧ u.net.routerQ = (if place = .router then s.net.routerQ.eraseP (fun x => x.2 = p) else s.net.routerQ)
        ∧ u.rma.deliverQ = (if place = .deliver then s.rma.deliverQ.eraseP (fun x => x = p) else s.rma.deliverQ)
        ∧ (∀ b, place = .bond b → (bnd u b).queue = (bnd s b).queue.eraseP (fun x => x.2 = p))
        ∧ (∀ n, place = .pitch n → u.net.pitchHeld = s.net.pitchHeld.eraseP (fun x => x.port = n && x.pkt = p))
        ∧ (∀ n, place = .staged n → u.net.staged = s.net.staged.eraseP (fun x => x.port = n && x.pkt = p))
        ∧ u.cpl = s.cpl ∧ RegsKept [Reg.routeDiscard] s u ∧ MemKept s u)

/-- A window update that passes its checks replaces the staged entries and changes the epoch at once, and commits when
no access of the old epoch waits; a second one is refused meanwhile. -/
def Obligations.WindowUpdates : Prop :=
  (∀ (who : Writer) (v : Word) (s : State) (first count : Nat), mayWrite s .installer who = true →
    first = fld v 27 16 → count = fld v 6 0 →
    (rdF s Reg.winUpdateStatus 1 0 ≠ 1 → 0 < count → count ≤ 64 → first + count ≤ 4096 →
      (∀ i, i < count → winFine (stagedWin s i) = true
        ∧ (bit (stagedWin s i).1 63 = true → tenantOk s (fld (stagedWin s i).1 55 48) = true)) →
      Completes (.windowUpdateGo who v) s (fun u =>
        (∀ i, i < count → winEntry u (first + i) = stagedWin s i)
          ∧ (∀ j, j < first ∨ first + count ≤ j → winEntry u j = winEntry s j)
          ∧ winEpochNow u = 1 - winEpochNow s ∧ rdF u Reg.winUpdateStatus 1 0 = 1 ∧ MemKept s u))
    ∧ (rdF s Reg.winUpdateStatus 1 0 = 1 → Completes (.windowUpdateGo who v) s (fun u =>
        u.rma.windows = s.rma.windows ∧ winEpochNow u = winEpochNow s ∧ rdF u Reg.winUpdateStatus 11 8 = 1
          ∧ rdB u Reg.winUpdateStatus 2 = true ∧ MemKept s u)))
  ∧ ∀ s : State, rdF s Reg.winUpdateStatus 1 0 = 1 → oldAccesses s = 0 →
    Completes .windowUpdateCommit s (fun u =>
      rdF u Reg.winUpdateStatus 1 0 = 2
        ∧ rdF u Reg.winUpdateStatus 63 48 = (rdF s Reg.winUpdateStatus 63 48 + 1) % 65536
        ∧ u.rma = s.rma ∧ RegsKept [Reg.winUpdateStatus] s u ∧ MemKept s u)

-- Links (R222–R248)

namespace Sys2Proof.Machine

/-- A port is down, with a reason, its transmitters off for 1 ms and its pitch stopped (R243, R250). -/
def WentDown (n why : Nat) (u : State) : Prop :=
  portState u n = 1 ∧ rdF u (Reg.portStatus n) 11 8 = why ∧ (prt u n).txOffUntil.isSome ∧ pitchState u n = 0
    ∧ (prt u n).replay = [] ∧ (prt u n).held = []

/-- A write of PORT.LINKCTL reaches a port: its writer is the installer, the port exists, no WO bit stands (R250). -/
abbrev LinkWriter (s : State) (who : Writer) (n : Nat) : Prop :=
  mayWrite s .installer who = true ∧ n < 32 ∧ n < portCount s ∧ fld (rd s (Reg.linkctl n)) 7 5 = 0

end Sys2Proof.Machine

/-- Frames, flits, acknowledgements and credit audits.
Readings of the link layer: notes/assumptions/23.md. -/
def Obligations.FramesAndAudits : Prop :=
  ∀ (n : Nat) (s : State), n < 32 →
    (∀ a b lanes fl, 18 < a ∨ 18 < b →
      (portState s n = 4 → Completes (.fecFrame n a b lanes fl) s (fun u =>
        prt u n = prt s n ∧ portState u n = 4
          ∧ rdF u (Reg.portErrCount n) 63 32 = min (rdF s (Reg.portErrCount n) 63 32 + 16) (2 ^ 32 - 1)
          ∧ RegsKept [Reg.portErrCount n] s u ∧ MemKept s u))
      ∧ (portState s n = 3 → Completes (.fecFrame n a b lanes fl) s (fun u =>
        prt u n = { prt s n with testFlits := (prt s n).testFlits + 16, testFails := (prt s n).testFails + 16 }
          ∧ RegsKept [Reg.portErrCount n] s u ∧ MemKept s u)))
    ∧ (∀ a b lanes (f : Flit), a ≤ 18 → b ≤ 18 →
      (portState s n = 4 → sequenced (flitType f) = true →
        fld f.trailer 63 32 = flitCrc (flitBytes f) (fld f.trailer 31 0) (prt s n).rxSeq →
        Completes (.fecFrame n a b lanes [f]) s (fun u => (prt u n).rxSeq = ((prt s n).rxSeq + 1) % 4096))
      ∧ (portState s n = 4 → (prt s n).held = [] → fld f.trailer 63 32 ≠ flitCrc (flitBytes f) (fld f.trailer 31 0)
            (if sequenced (flitType f) then (prt s n).rxSeq else 0xFFFF) →
        Completes (.fecFrame n a b lanes [f]) s (fun u => (prt u n).rxSeq = (prt s n).rxSeq
          ∧ rdF u (Reg.portErrCount n) 63 32 = min (rdF s (Reg.portErrCount n) 63 32 + 1) (2 ^ 32 - 1) ∧ MemKept s u))
      ∧ (portState s n = 3 → flitType f = 7 → fld f.trailer 63 32 = flitCrc (flitBytes f) (fld f.trailer 31 0) 0xFFFF →
        Completes (.fecFrame n a b lanes [f]) s (fun u => (prt u n).testFlits = (prt s n).testFlits + 1
          ∧ (prt u n).testFails = (prt s n).testFails
          ∧ (prt u n).hist = countSymbols (countSymbols (prt s n).hist a) b ∧ (prt u n).laneErr = addLists (prt s n).laneErr lanes
          ∧ RegsKept [] s u ∧ MemKept s u)))
    ∧ (portState s n = 4 → (prt s n).replay ≠ [] → (prt s n).ackStart + ackTimeout s n < 2 ^ 64 →
      (∀ t, t = max (now s) ((prt s n).ackStart + ackTimeout s n) → t % 1024 ≠ 0 ∨ t / 1024 = s.tim.lastRound) →
      ((prt s n).replays < rdF s (Reg.replayCtrl n) 3 0 → Completes (.ackTimerExpiry n) s (fun u =>
        u.out = s.out ++ (prt s n).replay.map (fun x => .flit n (mkFlit x.flit.data (replayType (flitType x.flit))
            (ackSeq (prt s n)) (fld x.flit.trailer 19 17) (fld x.flit.trailer 16 12) x.seq))
          ∧ (prt u n).replays = (prt s n).replays + 1 ∧ (prt u n).replay = (prt s n).replay
          ∧ (prt s n).ackStart + ackTimeout s n ≤ now u ∧ RegsKept [Reg.portErrCount n] s u ∧ MemKept s u))
      ∧ (rdF s (Reg.replayCtrl n) 3 0 ≤ (prt s n).replays → (prt s n).limitDone = none →
        Completes (.ackTimerExpiry n) s (fun u =>
          portState u n = 5 ∧ rdB u (Reg.portEvent n) 2 = true ∧ (prt u n).limitRetrain = true ∧ MemKept s u))
      ∧ (∀ t, rdF s (Reg.replayCtrl n) 3 0 ≤ (prt s n).replays → (prt s n).limitDone = some t →
        max (now s) ((prt s n).ackStart + ackTimeout s n) ≤ t + 1600000000 →
        Completes (.ackTimerExpiry n) s (WentDown n 2)))
    ∧ (∀ r, portState s n = 4 → ((prt s n).auditFrom + rdF s (Reg.creditCtrl n) 15 8) * 1024 < 2 ^ 64 →
        r = takeReturn (prt s n) → Completes (.auditSend n) s (fun u =>
          u.out = s.out ++ [.audit n (ackSeq (prt s n)) r.1 r.2.1 r.2.2.returned (prt s n).txSeq]
            ∧ ((prt s n).auditFrom + rdF s (Reg.creditCtrl n) 15 8) * 1024 ≤ now u
            ∧ prt u n = { r.2.2 with auditFrom := now u / 1024 } ∧ RegsKept [] s u ∧ MemKept s u))
    ∧ ∀ totals, portState s n = 4 → Completes (.audit n totals (prt s n).rxSeq) s (fun u =>
        (∀ v, v < 8 → rdF u (Reg.creditState n v) 47 32 = unsignedOf 16 (leaked (prt s n) totals v)
            ∧ rdF u (Reg.creditState n v) 15 0 = unsignedOf 16 (auditWindow (prt s n) totals v))
          ∧ ((∃ v, v < 8 ∧ 16 * auditWindow (prt s n) totals v
                ≤ (nth (prt s n).adv v * rdF s (Reg.creditCtrl n) 3 0 : Nat)) →
              portState u n = 5 ∧ rdB u (Reg.portEvent n) 3 = true)
          ∧ ((∃ v, v < 8 ∧ leaked (prt s n) totals v < 0) → portState u n = 5 ∧ rdB u (Reg.portEvent n) 4 = true)
          ∧ MemKept s u)

/-- Training: loss of signal, the silent time, signal, the train and its ends, the expected neighbour,
qualification.
Readings of the link layer: notes/assumptions/23.md. -/
def Obligations.LinkTraining : Prop :=
  ∀ (n : Nat) (s : State), n < 32 →
    (portState s n ∈ [2, 3, 4, 5, 6, 8] → Completes (.laneLos n) s (WentDown n 1))
    ∧ (∀ t, (prt s n).txOffUntil = some t → t < 2 ^ 64 → Completes (.txOffExpiry n) s (fun u =>
        (prt u n).txOffUntil = none ∧ t ≤ now u ∧ u.out = s.out ++ [.train n] ∧ RegsKept [] s u ∧ MemKept s u))
    ∧ (n < portCount s → portState s n = 1 → domainIsOn s (52 + 2 * (n / 8)) = true → n < licensedPorts s →
      (bondOf s n).isSome = true → rdB s (Reg.linkctl n) 4 = false → Completes (.signalDetect n) s (fun u =>
        portState u n = 2 ∧ u.out = s.out ++ [.train n] ∧ RegsKept [Reg.portStatus n] s u ∧ MemKept s u))
    ∧ (∀ obs w, portState s n = 2 → trainWidth s n obs = .inl w → w < 4 →
      (expected s n obs = true → Completes (.fullTrain n obs) s (fun u =>
        portState u n = 3 ∧ rdF u (Reg.portStatus n) 13 12 = w ∧ rd u (Reg.neighbour n) = neighbourWord obs
          ∧ rd u (Reg.portDelay n) = wd obs.delay16 ∧ (prt u n).txSeq = 0 ∧ (prt u n).rxSeq = 0 ∧ MemKept s u
          ∧ (rdB s (Reg.neighbour n) 63 = true → neighbourDiffers s n obs = true → rdB u (Reg.portEvent n) 9 = true)
          ∧ .lanes n obs.rxLanes (rdB s (Reg.linkctl n) 3) ∈ u.out ∧ .identity n (ownDev s) n (maxDevices s) ∈ u.out))
      ∧ (expected s n obs = false → Completes (.fullTrain n obs) s (fun u =>
        portState u n = 6 ∧ rdB u (Reg.portEvent n) 6 = true ∧ rd u (Reg.neighbour n) = neighbourWord obs ∧ MemKept s u)))
    ∧ (∀ obs why, portState s n = 2 → trainWidth s n obs = .inr why → Completes (.fullTrain n obs) s (WentDown n why))
    ∧ (portState s n = 2 → Completes (.trainTimeout n) s (WentDown n 8))
    ∧ (∀ obs w, portState s n = 6 → trainWidth s n obs = .inl w →
      (expected s n obs = true → Completes (.miswiredRetry n obs) s (fun u => portState u n = 3
        ∧ rd u (Reg.neighbour n) = neighbourWord obs ∧ MemKept s u))
      ∧ (expected s n obs = false → Completes (.miswiredRetry n obs) s (fun u => portState u n = 6
        ∧ rd u (Reg.neighbour n) = neighbourWord obs ∧ RegsKept [Reg.neighbour n, Reg.portStatus n] s u ∧ MemKept s u)))
    ∧ (∀ who v, mayWrite s .installer who = true → n < portCount s → Completes (.neighbourExpWrite who n v) s (fun u =>
        rd u (Reg.neighbourExp n) = plainValue (Reg.kind (Reg.neighbourExp n)) (rd s (Reg.neighbourExp n)) v
          ∧ MemKept s u
          ∧ (portState s n = 6 → n < licensedPorts s → (bondOf s n).isSome = true → rdB s (Reg.linkctl n) 4 = false →
              portState u n = 2)
          ∧ (portState s n ≠ 6 → portState u n = portState s n)))
    ∧ ∀ (hist : List Nat) (lost failed : Nat) (lanes : List Nat) (p : Port), portState s n = 3 →
        p = addSeen hist lost failed lanes (prt s n) →
      (p.testFails = 0 → Completes (.qualDone n hist lost failed lanes) s (fun u =>
        12 ≤ projExp p → portState u n = 4 ∧ pitchState u n = 2 ∧ rdB u (Reg.portEvent n) 7 = true
          ∧ (prt u n).qualified = true ∧ rdF u (Reg.qual n) 63 32 = min (2 ^ 32 - 1) p.testFlits
          ∧ rdF u (Reg.qual n) 31 24 = 0 ∧ MemKept s u))
      ∧ (0 < p.testFails → rdF s (Reg.portStatus n) 13 12 ≠ 3 → Completes (.qualDone n hist lost failed lanes) s (fun u =>
        portState u n = 0 ∧ rdF u (Reg.portStatus n) 11 8 = 6))
      ∧ (0 < p.testFails → rdF s (Reg.portStatus n) 13 12 = 3 → rdB s (Reg.linkctl n) 3 = true → (prt s n).nbAllowHalf = true →
        Completes (.qualDone n hist lost failed lanes) s (fun u => portState u n = 3 ∧ (prt u n).testFlits = 0 ∧ MemKept s u
          ∧ rdF u (Reg.portStatus n) 13 12 = (if (p.laneErr.drop 4).sum < (p.laneErr.take 4).sum then 2 else 1)))

/-- Retraining and FORCE_DOWN. -/
def Sys2Proof.Machine.LinkRetraining : Prop :=
  ∀ (n : Nat) (s : State), n < 32 →
    (∀ why, portState s n = 4 → (why = .replayLimit → (prt s n).limitDone = none) → Completes (.retrain n why) s (fun u =>
      portState u n = 5 ∧ (prt u n).since = now s ∧ pitchState u n = 0 ∧ MemKept s u
        ∧ (∀ b, (retrainEvents why).testBit b = true → b < 64 → rdB u (Reg.portEvent n) b = true)))
    ∧ (portState s n = 4 → Completes (.trainingPatternSeen n) s (fun u => portState u n = 5 ∧ MemKept s u))
    ∧ (∀ obs w, portState s n = 5 → trainWidth s n obs = .inl w → w < 4 →
        (expected s n obs = true → neighbourDiffers s n obs = false → Completes (.retrainDone n obs) s (fun u =>
          portState u n = 4 ∧ rdF u (Reg.portStatus n) 13 12 = w ∧ rdB u (Reg.portEvent n) 0 = true
            ∧ rdF u (Reg.portErrCount n) 15 0 = min (rdF s (Reg.portErrCount n) 15 0 + 1) 65535 ∧ MemKept s u))
        ∧ (expected s n obs = false → Completes (.retrainDone n obs) s (fun u =>
          portState u n = 6 ∧ rdB u (Reg.portEvent n) 6 = true ∧ rd u (Reg.neighbour n) = neighbourWord obs)))
    ∧ (∀ obs why, portState s n = 5 → trainWidth s n obs = .inr why →
        Completes (.retrainDone n obs) s (WentDown n why))
    ∧ ∀ who, LinkWriter s who n →
        (portState s n = 4 → rdB s (Reg.linkctl n) 4 = false → Completes (.retrainNowPort who n) s (fun u =>
          portState u n = 5 ∧ MemKept s u))
        ∧ (rdB s (Reg.linkctl n) 4 = false → Completes (.forceDownSet who n) s (fun u =>
          portState u n = 0 ∧ rdF u (Reg.portStatus n) 11 8 = 3 ∧ rdB u (Reg.linkctl n) 4 = true))
        ∧ (rdB s (Reg.linkctl n) 4 = true → n < licensedPorts s → (bondOf s n).isSome = true →
          Completes (.forceDownClear who n) s (fun u =>
            portState u n = 2 ∧ rdB u (Reg.linkctl n) 4 = false ∧ MemKept s u))

/-- Rest and wake. -/
def Sys2Proof.Machine.LinkRestAndWake : Prop :=
  ∀ (n : Nat) (s : State), n < 32 →
    (∀ who, LinkWriter s who n → rdB s (Reg.linkctl n) 4 = false → portState s n = 4 →
      (mayNotRest s n = false → (prt s n).restPhase = 0 → Completes (.rest who n) s (fun u =>
        portState u n = 4 ∧ (prt u n).since = now s ∧ MemKept s u
          ∧ ((prt u n).restPhase = 1 ∨ ((prt u n).restPhase = 2 ∧ ∃ a v k, .ctrl n a v k 1 ∈ u.out))))
      ∧ (mayNotRest s n = true → Completes (.rest who n) s (fun u =>
        portState u n = 4 ∧ prt u n = prt s n ∧ rdB u (Reg.portEvent n) 8 = true ∧ MemKept s u)))
    ∧ (portState s n = 4 → (prt s n).restPhase = 0 →
      (∀ r, mayNotRest s n = true → r = takeReturn (prt s n) → Completes (.restReq n) s (fun u =>
        u.out = s.out ++ [.ctrl n (ackSeq (prt s n)) r.1 r.2.1 3] ∧ prt u n = r.2.2 ∧ RegsKept [] s u ∧ MemKept s u))
      ∧ (mayNotRest s n = false → Completes (.restReq n) s (fun u => MemKept s u
          ∧ ((portState u n = 4 ∧ (prt u n).restPhase = 3) ∨ (portState u n = 7 ∧ ∃ a v k, .ctrl n a v k 2 ∈ u.out)))))
    ∧ (portState s n = 4 → (prt s n).restPhase = 2 → Completes (.restAck n) s (fun u =>
        portState u n = 7 ∧ (prt u n).restPhase = 0 ∧ RegsKept [Reg.portStatus n] s u ∧ MemKept s u))
    ∧ (portState s n = 4 → (prt s n).restPhase ≠ 0 →
      Completes (.restNak n) s (fun u => portState u n = 4 ∧ (prt u n).restPhase = 0
        ∧ rdB u (Reg.portEvent n) 8 = true ∧ MemKept s u)
      ∧ ((prt s n).since + 32000 < 2 ^ 64 → Completes (.restTimeout n) s (fun u =>
          portState u n = 4 ∧ (prt u n).restPhase = 0 ∧ rdB u (Reg.portEvent n) 8 = true
            ∧ (prt s n).since + 32000 ≤ now u ∧ MemKept s u)))
    ∧ (portState s n = 7 → ∀ why, (why = .signal ∨ why = .packet ∨ ∃ who, why = .write who ∧ LinkWriter s who n
          ∧ rdB s (Reg.linkctl n) 4 = false) →
        Completes (.wake n why) s (fun u => portState u n = 8 ∧ (prt u n).since = now s ∧ .train n ∈ u.out ∧ MemKept s u))
    ∧ (portState s n = 8 →
      (∀ obs, obs.locked = true → expected s n obs = true → neighbourDiffers s n obs = false → Completes (.wakeDone n obs) s (fun u =>
        portState u n = 4 ∧ (prt u n).restPhase = 0 ∧ rd u (Reg.portDelay n) = wd obs.delay16 ∧ MemKept s u))
      ∧ (∀ obs, obs.locked = false → Completes (.wakeDone n obs) s (WentDown n 9))
      ∧ Completes (.wakeTimeout n) s (WentDown n 9))

/-- Links: retraining and forced down, rest and wake. -/
def Obligations.LinkRetrainingRestAndWake : Prop := LinkRetraining ∧ LinkRestAndWake

-- Routing (R255–R283)

/-- A packet at the front of the routers is delivered here, goes to its egress bond, has no route, or is lost to an
error of the buffer. -/
def Obligations.PacketsAreRouted : Prop :=
  ∀ (s : State) (came : Option Nat) (p : Packet) (r : List (Option Nat × Packet)), s.net.routerQ = (came, p) :: r →
    Completes (.routePacket ⟨.double, none⟩) s (fun u => u.net.routerQ = r ∧ rdB u Reg.routeEvent 4 = true
        ∧ rdF u Reg.routeDiscard 63 32 = min (rdF s Reg.routeDiscard 63 32 + 1) (2 ^ 32 - 1)
        ∧ rdB u Reg.faultStatus 22 = true ∧ MemKept s u)
    ∧ (∀ ecc, ecc = .clean ∨ ecc = .single → isMgmt p.opcode = false →
      (p.dst = ownDev s → Completes (.routePacket ⟨ecc, none⟩) s (fun u =>
        u.net.routerQ = r ∧ u.rma.deliverQ = s.rma.deliverQ ++ [p] ∧ RegsKept [] s u ∧ MemKept s u))
      ∧ (∀ b, p.dst ≠ ownDev s → egressBond s p.epoch p.dst = some b → bondAlive s b = true →
          ((∃ n ∈ bondPorts s b, portState s n = 4) ∨ ∀ n ∈ bondPorts s b, portState s n ≠ 7) →
          Completes (.routePacket ⟨ecc, none⟩) s (fun u => u.net.routerQ = r ∧ RegsKept [] s u ∧ MemKept s u
            ∧ (bnd u b).queue = (bnd s b).queue ++
                [(came.getD 32, { p with vc := chooseVc s came p b (bit (routeEntry s p.epoch p.dst) 5) })]))
      ∧ (∀ b n l, p.dst ≠ ownDev s → egressBond s p.epoch p.dst = some b → (∀ m ∈ bondPorts s b, portState s m ≠ 4) →
          (bondPorts s b).filter (fun m => portState s m = 7) = n :: l →
          Completes (.routePacket ⟨ecc, none⟩) s (fun u => portState u n = 8 ∧ .train n ∈ u.out ∧ MemKept s u
            ∧ (bnd u b).queue.length = (bnd s b).queue.length + 1))
      ∧ (∀ n, p.dst ≠ ownDev s → egressBond s p.epoch p.dst = none → came = some n → isRequest p.opcode = false →
          Completes (.routePacket ⟨ecc, none⟩) s (fun u => u.net.routerQ = r ∧ rdB u Reg.routeEvent 5 = true
            ∧ rdF u Reg.routeDiscard 31 0 = min (rdF s Reg.routeDiscard 31 0 + 1) (2 ^ 32 - 1) ∧ MemKept s u)))

/-- A bond deals its stream one flit a position to the members of its rotation in turn, a packet begins where the members
have credit for all of it, and the receiver follows a new rotation from the position after the packet that announces it,
or from the start.
Readings of the bond rules: notes/assumptions/24.md. -/
def Obligations.BondsDealAndFollow : Prop :=
  (∀ (b n v : Nat) (f : Flit) (rest : List (Nat × Flit)) (s : State), b < 12 →
    (rotList (rotMask s b) (bnd s b).full)[((bnd s b).pos - (bnd s b).base)
      % (rotList (rotMask s b) (bnd s b).full).length]? = some n →
    (bnd s b).dealing = (v, f) :: rest →
    Completes (.bondDeal b) s (fun u =>
      (bnd u b).pos = (bnd s b).pos + 1 ∧ (bnd u b).dealing = rest ∧ queued u n = queued s n ++ [f.data]
        ∧ (∀ m, m ≠ n → (prt u m).replay = (prt s m).replay ∧ (prt u m).held = (prt s m).held) ∧ MemKept s u))
  ∧ (∀ (b n i : Nat) (p : Packet) (s : State), b < 12 →
    (rotList (rotMask s b) (bnd s b).full)[((bnd s b).pos - (bnd s b).base)
      % (rotList (rotMask s b) (bnd s b).full).length]? = some n →
    0 < p.vc → p.vc < 8 → i ≤ 32 → p.opcode ≠ 0x70 → (bnd s b).dealing = [] → (bnd s b).queue = [(i, p)] →
    (shortOf s b p = [] → Completes (.bondDeal b) s (fun u =>
      (bnd u b).queue = [] ∧ (bnd u b).pos = (bnd s b).pos + 1
        ∧ (bnd u b).dealing = ((packetFlits p).map (fun f => (p.vc, f))).tail
        ∧ queued u n = queued s n ++ ((packetFlits p).map (fun f => f.data)).take 1 ∧ MemKept s u))
    ∧ (shortOf s b p ≠ [] → Completes (.bondDeal b) s (fun u =>
        (bnd u b).queue = [(i, p)] ∧ (bnd u b).pos = (bnd s b).pos ∧ u.out = s.out ∧ RegsKept [] s u ∧ MemKept s u)))
  ∧ (∀ (b full members : Nat) (s : State), b < 12 → mergeLoad s b = 0 →
    Completes (.bondMap b full members) s (fun u =>
      bnd u b = { bnd s b with rxMembers := members, rxFull := full, rxPos := (bnd s b).rxPos + 1 } ∧ RegsKept [] s u
        ∧ MemKept s u))
  ∧ ∀ (n b full members : Nat) (s : State), portState s n = 4 → bondOf s n = some b →
    (∀ m ∈ bondPorts s b, m ≠ n → (prt s m).rxq = []) →
    ((if (bnd s b).restartMask = members then (bnd s b).restartSeen else 0) ||| 2 ^ rdF s (Reg.neighbour n) 20 16)
      &&& members = members →
    Completes (.bondRestart n full members) s (fun u =>
      (bnd u b).rxMembers = members ∧ (bnd u b).rxFull = full ∧ (bnd u b).rxPos = 0 ∧ (bnd u b).restartMask = 0
        ∧ rdB u Reg.routeEvent 7 = true ∧ (prt u n).rxq = [] ∧ MemKept s u)

/-- The installer's writes of the route tables, the epoch, the machine, the preset and the spare ports, each where it is
accepted and where it is refused. -/
def Sys2Proof.Machine.RouteRegisters : Prop :=
  ∀ (who : Writer) (s : State), mayWrite s .installer who = true →
    (∀ tb d v, d < 16384 →
      (tb ≠ decide (injectEpoch s = 1) → oldTotal s = 0 → Completes (.routeTableWrite who tb d v) s (fun u =>
        rd u (Reg.routeTable tb d)
            = plainValue (Reg.kind (Reg.routeTable tb d)) (rd s (Reg.routeTable tb d)) v
          ∧ RegsKept [Reg.routeTable tb d] s u ∧ MemKept s u))
      ∧ (tb = decide (injectEpoch s = 1) ∨ oldTotal s ≠ 0 → Completes (.routeTableWrite who tb d v) s (fun u =>
        rdB u Reg.routeEvent 2 = true ∧ RegsKept [Reg.routeEvent] s u ∧ MemKept s u)))
    ∧ (oldTotal s = 0 → Completes (.flip who) s (fun u =>
        injectEpoch u = 1 - injectEpoch s ∧ rdB u Reg.routeEvent 0 = true
          ∧ RegsKept [Reg.routeEpoch, Reg.routeEvent] s u ∧ MemKept s u))
    ∧ (oldTotal s ≠ 0 → Completes (.flip who) s (fun u =>
        injectEpoch u = injectEpoch s ∧ rdB u Reg.routeEvent 1 = true ∧ RegsKept [Reg.routeEvent] s u ∧ MemKept s u))
    ∧ (oldTotal s = 0 → Completes .routeDrained s (fun u =>
        rdB u Reg.routeEvent 3 = true ∧ RegsKept [Reg.routeEvent] s u ∧ MemKept s u))
    ∧ (∀ v, reached s < 6 → 64 * machineCubes v ≤ maxDevices s → Completes (.routeMachineWrite who v) s (fun u =>
        rd u Reg.routeMachine = wd (fld v 18 16 * 2 ^ 16 + fld v 10 8 * 2 ^ 8 + fld v 1 0)
          ∧ RegsKept [Reg.routeMachine] s u ∧ MemKept s u))
    ∧ (∀ v, 6 ≤ reached s ∨ maxDevices s < 64 * machineCubes v → Completes (.routeMachineWrite who v) s (fun u =>
        rd u Reg.routeMachine = rd s Reg.routeMachine ∧ rdB u Reg.routeEvent 6 = true ∧ MemKept s u
          ∧ (maxDevices s < 64 * machineCubes v →
              .writeStatus who (Reg.spaceBase + Reg.routeMachine) 0x010 ∈ u.out)))
    ∧ (∀ v, presetFrozen s = false → presetFits s (fld v 1 0) = true → Completes (.presetWrite who v) s (fun u =>
        presetOf u = fld v 1 0 ∧ presetFrozen u = false ∧ RegsKept [Reg.preset] s u ∧ MemKept s u))
    ∧ (∀ v, presetFrozen s = true ∨ presetFits s (fld v 1 0) = false → Completes (.presetWrite who v) s (fun u =>
        presetOf u = presetOf s ∧ rdB u Reg.routeEvent 6 = true ∧ MemKept s u
          ∧ (fld v 1 0 < 2 → licensedPorts s ≠ 32 → .writeStatus who (Reg.spaceBase + Reg.preset) 0x010 ∈ u.out)))
    ∧ ∀ n v, n < 32 → n < portCount s → presetFrozen s = false → isSpare s n = true → fld v 3 0 < 12 →
        Completes (.portBondWrite who n v) s (fun u =>
          bondOf u n = some (fld v 3 0) ∧ RegsKept [Reg.portBond n] s u ∧ MemKept s u)

/-- A snapshot of the congestion map copies and clears the counters of every port; a record's piece is stored at the
collector or goes on toward it. -/
def Sys2Proof.Machine.CongestionMap : Prop :=
  (∀ (s : State) (n v : Nat), n < 32 → v < 8 → rdB s Reg.cmapCtrl 63 = false → mget 0 (prt s n).stall v = 0 →
    Completes .cmapSnapshot s (fun u =>
      rd u (Reg.congSnap n v 0) = rd s (Reg.congLive n v 0) ∧ rd u (Reg.congSnap n v 1) = rd s (Reg.congLive n v 1)
        ∧ rd u (Reg.congLive n v 0) = 0 ∧ rd u (Reg.congLive n v 1) = 0 ∧ MemKept s u))
  ∧ ∀ (s : State) (p : Packet), p.payload.length = 256 → p.addr + 256 ≤ 16384 * 4096 →
    (p.addr % 4096 = 0 ∨ p.addr / 4096 ∉ s.net.cmapGone) →
    (∀ pt off, rdF s Reg.cmapCtrl 61 48 = ownDev s →
      accessRange s ((rd s Reg.cmapBase).toNat + p.addr) 256 = some (.hbm pt off) → StackTakes s pt off →
      Completes (.cmapRecord p) s (fun u =>
        Queued pt (stackOf s off) { op := .write, addr := (rd s Reg.cmapBase).toNat + p.addr, len := 256,
                                    data := p.payload, agent := 0x300, since := now s } s u
          ∧ RegsKept [] s u ∧ MemKept s u))
    ∧ (rdF s Reg.cmapCtrl 61 48 ≠ ownDev s → egressBond s (injectEpoch s) (rdF s Reg.cmapCtrl 61 48) = none →
      Completes (.cmapRecord p) s (fun u =>
        rdF u Reg.cmapStatus 63 32 = min (rdF s Reg.cmapStatus 63 32 + 1) (2 ^ 32 - 1) ∧ MemKept s u))
    ∧ ∀ b, rdF s Reg.cmapCtrl 61 48 ≠ ownDev s → egressBond s (injectEpoch s) (rdF s Reg.cmapCtrl 61 48) = some b →
      (cmapWaiting s < 64 → Completes (.cmapRecord p) s (fun u =>
        (bnd u b).queue.length = (bnd s b).queue.length + 1 ∧ RegsKept [] s u ∧ MemKept s u))
      ∧ (64 ≤ cmapWaiting s → Completes (.cmapRecord p) s (fun u =>
        (∀ q ∈ (bnd u b).queue, isPieceOf (p.addr / 4096) q.2 = false) ∧ p.addr / 4096 ∈ u.net.cmapGone
          ∧ rdF u Reg.cmapStatus 63 32 = min (rdF s Reg.cmapStatus 63 32 + 1) (2 ^ 32 - 1) ∧ MemKept s u))

/-- Route registers, and the congestion map. -/
def Obligations.RoutesAndCongestionMap : Prop := RouteRegisters ∧ CongestionMap

-- Groups, collectives, check values (R284–R328)

/-- Group updates: GO installs the flattened list as the group's next epoch and begins to drain the old one, DELETE
invalidates it under the same drain, ABORT_OLD ends what holds the drain, and the update commits when it is done.
Readings of the drain: notes/assumptions/29.md. -/
def Obligations.GroupUpdates : Prop :=
  ∀ (who : Writer) (s : State) (v : Word) (g : Nat), mayWrite s .operator who = true → g = fld v 59 48 →
    (∀ m l list first w0 w1 n, m = fld v 13 0 → w0 = rd s (Reg.stageGroup 0) → w1 = rd s (Reg.stageGroup 1) →
      l = (List.range m).map (stagedMember s) → n = list.length → s.coll.drain = none → 1 ≤ m → m ≤ 8192 →
      bit w0 63 = true → 1 ≤ fld w0 33 26 → fld w0 33 26 ≤ 64 → (∀ x ∈ l, memberFine x = true) →
      tenantOk s (fld w0 59 52) = true → flattenGroup s (fld w0 59 52) l = some list → n ≤ 65536 →
      (fld w1 31 0 = 0 → n ≤ 256) → (shapeOf (stagedShape w1 n)).foldl (fun a b => a * b) 1 = n →
      freeRun s n = some first → (groupOf s g).valid = false → fld w0 33 26 ≤ engineFree s (pickEngine s) →
      Completes (.groupGo who v) s (fun u =>
        (groupOf u g).valid = true ∧ (groupOf u g).epoch = 1 - (groupOf s g).epoch ∧ (groupOf u g).count = n
          ∧ (groupOf u g).tenant = fld w0 59 52 ∧ (∀ k (h : k < list.length), mget 0 u.coll.store (first + k)
              = BitVec.ofNat 32 list[k])
          ∧ u.coll.drain = some (g, groupOf s g) ∧ rdF u Reg.collUpdateStatus 1 0 = 1 ∧ MemKept s u))
    ∧ (s.coll.drain ≠ none → Completes (.groupGo who v) s (fun u =>
        u.coll = s.coll ∧ rdF u Reg.collUpdateStatus 11 8 = 1 ∧ rdB u Reg.collUpdateStatus 2 = true ∧ MemKept s u))
    ∧ (s.coll.drain = none → (groupOf s g).valid = true → Completes (.groupDelete who v) s (fun u =>
        (groupOf u g).valid = false ∧ (groupOf u g).epoch = 1 - (groupOf s g).epoch
          ∧ u.coll.drain = some (g, groupOf s g) ∧ rdF u Reg.collUpdateStatus 1 0 = 1 ∧ MemKept s u))
    ∧ (∀ old, s.coll.drain = some (g, old) → Completes (.abortOld who v) s (fun u =>
        (∀ i ∈ u.coll.insts, ¬ (i.gid = g ∧ i.epoch = old.epoch)) ∧ u.coll.drain = s.coll.drain))
    ∧ (s.coll.drain ≠ none → oldInsts s = 0 → Completes .groupUpdateCommit s (fun u =>
        u.coll.drain = none ∧ u.coll.groups = s.coll.groups ∧ rdF u Reg.collUpdateStatus 1 0 = 2
          ∧ rdF u Reg.collUpdateStatus 63 48 = (rdF s Reg.collUpdateStatus 63 48 + 1) % 65536
          ∧ rdB u Reg.collEvent 0 = true ∧ MemKept s u))

/-- A chunk has joined its open instance, and nothing else has changed (R299). -/
def Sys2Proof.Machine.ChunkJoined (x : Group) (i : Inst) (p : Packet) (k : Chunk) (s u : State) : Prop :=
  u.coll.insts = s.coll.insts.map (fun j =>
      if sameInst (joinChunk x ((freshInst s i).getD i) p k (now s)) j then
        joinChunk x ((freshInst s i).getD i) p k (now s) else j)
    ∧ RegsKept [] s u ∧ u.cpl = s.cpl ∧ MemKept s u

/-- A packet of each of the five collective opcodes: its chunk joins the open instance it names, an abort ends it, an
early one is held in the group's buffer, one that belongs to nothing is discarded.
The wire layout of a chunk is the model's reading (notes/assumptions/28.md). -/
def Obligations.CollectivePackets : Prop :=
  ∀ (p : Packet) (c : Instr) (op : Nat) (s : State),
    (c, op) ∈ [(Instr.clReduce p, 0x40), (.clData p, 0x41), (.clBar p, 0x42), (.clCap p, 0x43), (.clAbort p, 0x44)] →
    p.opcode = op →
    (∀ i x k, s.coll.insts.find? (isOf p) = some i → groupAt s i.gid i.epoch = some x →
      (chunkOf x i p = some k → p.poison = false → p.late = false →
        (op = 0x40 → Completes (.clReduce p) s (ChunkJoined x i p k s))
        ∧ (op = 0x41 → Completes (.clData p) s (ChunkJoined x i p k s))
        ∧ (op = 0x42 → Completes (.clBar p) s (ChunkJoined x i p k s))
        ∧ (op = 0x43 → Completes (.clCap p) s (ChunkJoined x i p k s)))
      ∧ (op = 0x44 → i.sub ≠ 6 → (cplOf s i.tag).st = .opened → (cplOf s i.tag).damaged = false →
        Completes (.clAbort p) s (fun u =>
          (∀ j ∈ u.coll.insts, sameInst i j = false)
            ∧ Finished i.tag (statusWord p.status 0 false false i.late) s u)))
    ∧ (s.coll.insts.find? (isOf p) = none → isEarly s p = true →
        (bufferBytes s (packetGid p) + p.payload.length ≤ (groupOf s (packetGid p)).buf * 65536 →
          Completes c s (fun u => u.coll.early = s.coll.early ++ [{ p with heldFrom := now s }]
            ∧ u.coll.insts = s.coll.insts ∧ RegsKept [] s u ∧ MemKept s u))
        ∧ ((groupOf s (packetGid p)).buf * 65536 < bufferBytes s (packetGid p) + p.payload.length →
          Completes c s (fun u => u.coll = s.coll ∧ u.rma.deliverQ = s.rma.deliverQ ++ [p] ∧ RegsKept [] s u
            ∧ MemKept s u)))
    ∧ (s.coll.insts.find? (isOf p) = none → isEarly s p = false → Completes c s (fun u =>
        u.coll = s.coll ∧ rdB u Reg.collEvent 1 = true
          ∧ rdF u Reg.collErrCount 63 32 = min (rdF s Reg.collErrCount 63 32 + 1) (2 ^ 32 - 1)
          ∧ RegsKept [Reg.collEvent, Reg.collErrCount] s u ∧ MemKept s u))

/-- An open instance sends every chunk of its present window whose inputs are present, what was staged too late goes on
late, and a complete result is written to DST, where its banks are free, and completes the member's tag.
How an instance meets HBM and its wire, and how the windows are cut, are the model's readings (notes/assumptions/28.md,
55.md). -/
def Obligations.CollectivesSendAndComplete : Prop :=
  ∀ (gid num pos : Nat) (s : State) (i : Inst) (x : Group), instsAt s gid num pos = [i] →
    groupAt s i.gid i.epoch = some x → i.loaded = true →
    (s.coll.early = [] → i.pitch = false → Completes (.collPhaseSend gid num pos) s (fun u =>
      (∀ c ∈ sendable x i, ∀ q,
          q = stamped s (chunkPacket s x i c (mget (0, []) i.hold c.share).2) →
          (none, q) ∈ u.net.routerQ ∨ q ∈ u.rma.deliverQ)
        ∧ (∃ j ∈ u.coll.insts, sameInst i j = true ∧ j.todo = i.todo.filter (fun t => !(sendable x i).contains t))
        ∧ RegsKept [] s u ∧ MemKept s u))
    ∧ Completes (.collLateSend gid num pos) s (fun u =>
        (∀ h ∈ s.net.staged, h.coll = some (gid, num, pos) → h.tick < h.stagedAt + 24 → h.pkt.dst ≠ ownDev s → h.pkt.also = [] →
          (none, { h.pkt with late := true, vc := 1 }) ∈ u.net.routerQ ∧ h ∉ u.net.staged) ∧ MemKept s u)
    ∧ ∀ bs out t off e, finalBytes x i = some bs → i.sub ≠ 6 → i.todo = [] →
        (∀ h ∈ s.net.staged, h.coll ≠ some (i.gid, i.num, i.pos)) → out = resultOf x i bs →
        i.output = {} → engineReach s (engineAccess s x i .write i.desc.dst out out.length) = .found (.sram 0 t off) →
        banksClear s 1 (sramAddr t off) (max 1 out.length) = true →
        heldBefore s 1 (banksAt (sramAddr t off) (max 1 out.length)) = false →
        (∀ v ∈ unitsOf (sramAddr t off) out.length, eccOf s v = .clean) → e = cplOf s i.tag → e.st = .opened →
        e.damaged = false → e.firstErr = 0 → e.cvu = none → (∀ w, e.tile = some w → (tl s w).wait = none) → e.sink = .none →
        Completes (.collComplete gid num pos) s (fun u =>
          memBytes u (sramAddr t off) out.length = out ∧ MemKeptBut (sramAddr t off) out.length s u
            ∧ (∀ j ∈ u.coll.insts, sameInst i j = false)
            ∧ Finished i.tag (statusWord 0 i.drops false (decide (i.sub ≤ 1) && i.desc.exact_ && anySticky bs) i.late) s u)

/-- A check-value channel is configured, armed for what it receives, or refused while it runs; a stream whose bytes have
all come in delivers its CRC.
Readings of the channels: notes/assumptions/44.md. -/
def Obligations.CheckValues : Prop :=
  ∀ (c : Nat) (s : State), c < 64 →
    (∀ (p : Path) (v w : Word), mayWrite s .operator (.path p) = true → w = v &&& wd (Reg.kind (Reg.cvuCfg c)).rw →
      (cvuState s c ≠ 1 → fld w 9 8 ≠ 0 → tenantOk s (fld w 55 48) = true →
        (fld w 61 60 = 0 → Completes (.cvuCfgWrite (.path p) c v) s (fun u =>
          rd u (Reg.cvuCfg c) = w ∧ cvuState u c = 0 ∧ RegsKept [Reg.cvuCfg c, Reg.cvuStatus c] s u ∧ MemKept s u))
        ∧ (fld w 61 60 = 1 → bit w 63 = true → Completes (.cvuCfgWrite (.path p) c v) s (fun u =>
          rd u (Reg.cvuCfg c) = w ∧ cvuState u c = 1 ∧ (cvuOf u c).base = rdF s (Reg.cvuRxMatch c) 47 0
            ∧ (cvuOf u c).total = rdF s (Reg.cvuRxLen c) 32 0 ∧ (cvuOf u c).counted = [] ∧ MemKept s u)))
      ∧ (cvuState s c = 1 → rdF s (Reg.cvuCfg c) 61 60 = 0 → Completes (.cvuCfgWrite (.path p) c v) s (fun u =>
          rd u (Reg.cvuCfg c) = rd s (Reg.cvuCfg c) ∧ cvuState u c = 1 ∧ rdB u (Reg.cvuStatus c) 7 = true
            ∧ RegsKept [Reg.cvuStatus c] s u ∧ MemKept s u)))
    ∧ ∀ (x : Cvu) (g : Word), cvuState s c = 1 → x = cvuOf s c → g = rd s (Reg.cvuCfg c) →
        x.total ≤ x.counted.length → bit g 15 = false →
        Completes (.cvuResultDelivery c) s (fun u =>
          rd u (Reg.cvuResult c)
              = wd (crcOut (crcOf s c) (crcRun (crcOf s c) (crcOf s c).init
                  (cvuMessage (fld g 57 56) false (cvuAddr s c) x)))
            ∧ cvuState u c = 2 ∧ rdB u Reg.cvuDone c = true
            ∧ ∀ tag, x.tag = some tag → (cplOf s tag).st = .opened → (cplOf s tag).answered = true →
                (cplOf s tag).cvu = some c → (cplOf s tag).damaged = false →
                Finished tag (statusWord 0 (cplOf s tag).drops true (cplOf s tag).inexact (cplOf s tag).late) s u)

-- The host and the ordinary network (R329–R349)

namespace Sys2Proof.Machine

/-- A refused access was counted, once, in HOST.REFUSED (R334, R345). -/
def CountedRefused (s u : State) : Prop :=
  rdF u Reg.refusedCount 63 0 = min (rdF s Reg.refusedCount 63 0 + 1) (2 ^ 64 - 1)

/-- The entry at the front of a queue may start as a descriptor of a type (R336, R338). -/
abbrev FrontIs (s : State) (q type : Nat) (e : Entry) (rest : List Entry) : Prop :=
  (hq s q).fetched = e :: rest ∧ qEnabled s q = true ∧ qKind s q = 1 ∧ inFlight s q < 64 ∧ e.type = type
    ∧ e.word 4 = 0 ∧ e.word 5 = 0 ∧ e.word 6 = 0 ∧ e.word 7 = 0 ∧ dmaCheck e = 0

/-- A descriptor runs under tag `k` (R198, R338). -/
def DmaOpen (q k : Nat) (e : Entry) (kind : CplKind) (rest : List Entry) (u : State) : Prop :=
  (cplOf u k).st = .opened ∧ (cplOf u k).kind = kind ∧ (cplOf u k).sink = .queue q e.idx
    ∧ (cplOf u k).base = fld (e.word 2) 47 0 ∧ (hq u q).fetched = rest

end Sys2Proof.Machine

/-- A queue's registers: Q_CTRL enables, keeps, refuses and stops; the doorbell and the completion head move within
their rings or are counted; CQ_RTC hands out the head slot and returns it.
W1 to W3 of a returned slot, and what CQ_RTC reads of a ring in host memory, are free values (notes/assumptions/4.md); readings: 45.md. -/
def Obligations.QueueRegisters : Prop :=
  ∀ (p : Path) (q : Nat) (v w : Word) (s : State), q < 512 → mayWrite s .operator (.path p) = true →
    w = v &&& wd qCtrlMask →
    (fld w 60 59 < 2 → tenantOk s (fld w 55 48) = true →
      (qEnabled s q = false → bit w 63 = false → Completes (.qCtrlWrite (.path p) q v) s (fun u =>
        rd u (Reg.qCtrl q) = w ∧ RegsKept [Reg.qCtrl q] s u ∧ MemKept s u))
      ∧ (qEnabled s q = false → bit w 63 = true → bit w 62 = false → bit w 61 = false →
        (rd s (Reg.sqBase q)).toNat % 4096 = 0 → (rd s (Reg.cqBase q)).toNat % 4096 = 0 →
        Completes (.qCtrlWrite (.path p) q v) s (fun u =>
          rd u (Reg.qCtrl q) = w ∧ sqHead u q = 0 ∧ cqTail u q = 0 ∧ rd u (Reg.sqTail q) = 0
            ∧ rd u (Reg.cqHead q) = 0 ∧ rdB u (Reg.qStatus q) 0 = true ∧ hq u q = {}
            ∧ RegsKept [Reg.qCtrl q, Reg.sqTail q, Reg.cqHead q, Reg.qStatus q] s u ∧ MemKept s u))
      ∧ (qEnabled s q = true → qCtrlDiffers (rd s (Reg.qCtrl q)) w = true → Completes (.qCtrlWrite (.path p) q v) s (fun u =>
          rd u (Reg.qCtrl q) = rd s (Reg.qCtrl q) ∧ CountedRefused s u ∧ RegsKept [Reg.refusedCount] s u ∧ MemKept s u))
      ∧ (qEnabled s q = true → qCtrlDiffers (rd s (Reg.qCtrl q)) w = false → bit w 63 = false →
        Completes (.qCtrlWrite (.path p) q v) s (fun u =>
          qEnabled u q = false ∧ rdB u (Reg.qStatus q) 0 = false ∧ (hq u q).fetched = [] ∧ (hq u q).records = []
            ∧ (∀ j ∈ u.host.jobs, j.q ≠ q) ∧ RegsKept [Reg.qCtrl q, Reg.qStatus q] s u ∧ MemKept s u)))
    ∧ (fld v 18 0 < sqSize s q → qEnabled s q = false → Completes (.sqTailWrite (.path p) q v) s (fun u =>
        rd u (Reg.sqTail q) = wd (fld v 18 0) ∧ RegsKept [Reg.sqTail q] s u ∧ MemKept s u))
    ∧ (fld v 18 0 < sqSize s q → (rdF s (Reg.sqTail q) 18 0 + sqSize s q - sqHead s q) % sqSize s q
          ≤ (fld v 18 0 + sqSize s q - sqHead s q) % sqSize s q → Completes (.sqTailWrite (.path p) q v) s (fun u =>
        rd u (Reg.sqTail q) = wd (fld v 18 0) ∧ RegsKept [Reg.sqTail q] s u ∧ MemKept s u))
    ∧ (sqSize s q ≤ fld v 18 0 → Completes (.sqTailWrite (.path p) q v) s (fun u =>
        rdB u Reg.hostEvent 2 = true ∧ CountedRefused s u ∧ RegsKept [Reg.hostEvent, Reg.refusedCount] s u ∧ MemKept s u))
    ∧ (qCqDevice s q = false → cqHeadOf s q < cqSize s q →
        (∀ k, fld v 18 0 = (cqHeadOf s q + k) % cqSize s q → k < cqSize s q → k ≤ (hq s q).ready → bit v 63 = false →
          Completes (.cqHeadWrite (.path p) q v) s (fun u =>
            rd u (Reg.cqHead q) = wd (fld v 18 0) ∧ (hq u q).ready = (hq s q).ready - k
              ∧ (∀ j, j < k → bit (mget 0 (hq u q).slots ((cqHeadOf s q + j) % cqSize s q)) 31 = false)
              ∧ u.out.length = s.out.length + k ∧ RegsKept [Reg.cqHead q] s u ∧ MemKept s u))
        ∧ (fld v 18 0 = cqHeadOf s q → bit v 63 = true → (hq s q).ready = 0 →
          Completes (.cqHeadWrite (.path p) q v) s (fun u =>
            (hq u q).armed = true ∧ u.out = s.out ∧ RegsKept [Reg.cqHead q] s u ∧ MemKept s u))
        ∧ (fld v 18 0 = cqHeadOf s q → bit v 63 = true → 0 < (hq s q).ready →
          rdF s (Reg.qCtrl q) 26 16 < msixCount (qFunction s q) →
          bit (msixWord s (qFunction s q) (2 * rdF s (Reg.qCtrl q) 26 16 + 1)) 32 = false →
          Completes (.cqHeadWrite (.path p) q v) s (fun u =>
            (hq u q).armed = false ∧ u.out = s.out ++ [.msix (qFunction s q) (rdF s (Reg.qCtrl q) 26 16)] ∧ MemKept s u)))
    ∧ (cqSize s q ≤ fld v 18 0 → Completes (.cqHeadWrite (.path p) q v) s (fun u =>
        rdB u Reg.hostEvent 2 = true ∧ CountedRefused s u ∧ RegsKept [Reg.hostEvent, Reg.refusedCount] s u ∧ MemKept s u))
    ∧ (qCqDevice s q = true → ∀ x w0, w0 = mget 0 (hq s q).slots (cqHeadOf s q) →
        (bit w0 31 = true →
          ringAccess s q ((rd s (Reg.cqBase q)).toNat + 32 * cqHeadOf s q) .write
            (wordsBytes [setBit w0 31 false, Config.freeWord s.free, Config.freeWord (s.free + 1),
              Config.freeWord (s.free + 2)]) 32 .none = some x →
          StackTakes s (x.addr / 0x1800000000) (x.addr % 0x1800000000) →
          Completes (.cqRtc (.path p) q) s (fun u =>
            u.out = s.out ++ [.hostAnswer 0 stOk (leBytes 8 w0.toNat) false]
              ∧ cqHeadOf u q = (cqHeadOf s q + 1) % cqSize s q ∧ (hq u q).ready = (hq s q).ready - 1
              ∧ Queued (x.addr / 0x1800000000) (stackOf s (x.addr % 0x1800000000)) x s u
              ∧ RegsKept [Reg.cqHead q] s u ∧ MemKept s u))
        ∧ (bit w0 31 = false → Completes (.cqRtc (.path p) q) s (fun u =>
            u = { s with out := s.out ++ [.hostAnswer 0 stOk (leBytes 8 w0.toNat) false] })))

/-- The queue engine: an entry is fetched from its ring; descriptors of the three types start; a record goes into the
next slot with VALID last; a read of host memory brings an entry or a descriptor's data.
One entry is fetched and one host read made at a time (notes/assumptions/42.md). -/
def Obligations.QueueEngine : Prop :=
  ∀ (q : Nat) (s : State), q < 512 →
    (mayFetch s q = true →
      (qSqDevice s q = false → hostUp s = true → Completes (.sqFetch q) s (fun u =>
        u.out = s.out ++ [.hostRead s.host.nextId ((rd s (Reg.sqBase q)).toNat + 64 * sqHead s q) 64]
          ∧ u.host.reads = s.host.reads ++ [(s.host.nextId, .entry q (sqHead s q))]
          ∧ sqHead u q = (sqHead s q + 1) % sqSize s q ∧ (hq u q).reading = true
          ∧ RegsKept [Reg.qStatus q] s u ∧ MemKept s u))
      ∧ (qSqDevice s q = false → hostUp s = false → Completes (.sqFetch q) s (fun u =>
        qEnabled u q = false ∧ rdF u (Reg.qStatus q) 7 4 = 2 ∧ rdB u (Reg.qStatus q) 1 = true ∧ MemKept s u))
      ∧ (∀ x, qSqDevice s q = true →
        ringAccess s q ((rd s (Reg.sqBase q)).toNat + 64 * sqHead s q) .read [] 64 (.entry q (sqHead s q)) = some x →
        StackTakes s (x.addr / 0x1800000000) (x.addr % 0x1800000000) →
        Completes (.sqFetch q) s (fun u =>
          Queued (x.addr / 0x1800000000) (stackOf s (x.addr % 0x1800000000)) x s u
            ∧ sqHead u q = (sqHead s q + 1) % sqSize s q ∧ (hq u q).reading = true
            ∧ RegsKept [Reg.qStatus q] s u ∧ MemKept s u)))
    ∧ (∀ r rest w0, (hq s q).records = r :: rest → qCqDevice s q = false → (hq s q).armed = false →
        w0 = wd (((hq s q).seq + 1) % 2 ^ 32 * 2 ^ 32 + 2 ^ 31 + r.idx % 2 ^ 19) →
        Completes (.queueRecordWrite q) s (fun u =>
          u.out = s.out
              ++ [.hostWrite ((rd s (Reg.cqBase q)).toNat + (32 * cqTail s q + 8)) (wordsBytes [r.status, s.now, r.check]),
                  .hostWrite ((rd s (Reg.cqBase q)).toNat + 32 * cqTail s q) (leBytes 8 w0.toNat)]
            ∧ cqTail u q = (cqTail s q + 1) % cqSize s q ∧ (hq u q).records = rest
            ∧ (hq u q).ready = (hq s q).ready + 1 ∧ mget 0 (hq u q).slots (cqTail s q) = w0
            ∧ RegsKept [Reg.qStatus q] s u ∧ MemKept s u))
    ∧ (∀ e rest k, (pickTag (qTenant s q) s).1 = some k → hostUp s = true → bit (e.word 0) 15 = false →
        (∀ t, targetOf s (e.word 2) false = .own t →
          (FrontIs s q 0x10 e rest → Completes (.toDevice q) s (fun u =>
            DmaOpen q k e .dmaIn rest u ∧ u.out = s.out ++ [.hostRead s.host.nextId (e.word 1).toNat (fld (e.word 3) 32 0)]
              ∧ RegsKept [] s u ∧ MemKept s u)))
        ∧ (∀ d t, targetOf s (e.word 2) false = .device d t → d ≠ ownDev s →
          (FrontIs s q 0x11 e rest → Completes (.fromDevice q) s (fun u =>
            DmaOpen q k e .dmaOut rest u ∧ SentOut ((segments (fld (e.word 2) 47 0) (fld (e.word 3) 32 0)).map (fun g =>
                { dst := d, opcode := 1, gen := (cplOf s k).gen, tag := k, tenant := qTenant s q, len4 := g.2.2 / 4,
                  addr := fld (e.word 2) 47 0 + g.2.1, seg := g.1 })) s u
              ∧ RegsKept [] s u ∧ MemKept s u))
          ∧ ∀ f, f = fld (e.word 0) 7 0 → bit (flowWord s f 2) 63 = true → bit (flowWord s f 2) 61 = false →
            (flowOf s f).tag = none → FrontIs s q 0x12 e rest → Completes (.ethSend q) s (fun u =>
              DmaOpen q k e .eth rest u ∧ (flowOf u f).tag = some k
                ∧ SentOut ((segments (fld (e.word 2) 47 0) (fld (e.word 3) 32 0)).map (fun g =>
                    { dst := d, opcode := 1, gen := (cplOf s k).gen, tag := k, tenant := qTenant s q,
                      len4 := g.2.2 / 4, addr := fld (e.word 2) 47 0 + g.2.1, seg := g.1 })) s u
                ∧ RegsKept [] s u ∧ MemKept s u)))
    ∧ (∀ id idx bs, s.host.reads.find? (fun r => r.1 == id) = some (id, .entry q idx) → bs.length = 64 →
        qEnabled s q = true → Completes (.hostMemoryReadCompletion id (some bs)) s (fun u =>
          (hq u q).fetched = (hq s q).fetched ++ [{ idx := idx, words := bytesWords 8 bs }] ∧ (hq u q).reading = false
            ∧ u.host.reads = s.host.reads.filter (fun r => r.1 != id) ∧ RegsKept [] s u ∧ MemKept s u))
    ∧ ∀ id idx, s.host.reads.find? (fun r => r.1 == id) = some (id, .entry q idx) → qEnabled s q = true →
        Completes (.hostMemoryReadCompletion id none) s (fun u =>
          qEnabled u q = false ∧ rdF u (Reg.qStatus q) 7 4 = 2 ∧ rdB u (Reg.qStatus q) 1 = true ∧ MemKept s u)

/-- Accesses of the host: BAR0 reaches the device's memory, a queue page of another tenant reads 0 and ignores writes,
the MSI-X table is read and written, what has no place is refused; a read that nothing answered times out. A register
without a command of its own takes what its writer may write. -/
def Sys2Proof.Machine.HostAccesses : Prop :=
  ∀ (s : State) (id : Nat), id = s.host.nextId →
    (∀ c fn bar off op, hostPowered s = false → c = Instr.hostBarAccess fn bar off op → Completes c s (fun u => u = s))
    ∧ (hostPowered s = true →
    (∀ a n p o x, 1 ≤ n → a < 2 ^ 48 → accessRange s a n = some (.hbm p o) → fenceState s p = 0 → StackTakes s p o →
      x = ({ op := .read, addr := a, len := n, agent := 0x300, tenant := 0, since := now s, reply := .bar id } : Access) →
      OneLine x → Completes (.hostBarAccess .pf 0 a (.read n)) s (fun u =>
        Queued p (stackOf s o) x s u ∧ u.host.barReads = s.host.barReads ++ [{ id := id, fn := .pf, at_ := now s }]
          ∧ u.host.nextId = id + 1 ∧ RegsKept [] s u ∧ MemKept s u))
    ∧ (∀ v off, tenantOk s v = true → off < 0x8000 → off % 8 = 0 → v ≠ qTenant s (off / 0x40) →
      Completes (.hostBarAccess (.vf v) 2 off (.read 8)) s (fun u =>
          u.out = s.out ++ [.hostAnswer id stOk (leBytes 8 0) false] ∧ RegsKept [] s u ∧ MemKept s u)
        ∧ ∀ bs, bs.length = 8 → Completes (.hostBarAccess (.vf v) 2 off (.write bs)) s (fun u =>
            u.out = s.out ∧ CountedRefused s u ∧ RegsKept [Reg.refusedCount] s u ∧ MemKept s u))
    ∧ (∀ w, w < 512 →
      Completes (.hostBarAccess .pf 2 (0x8000 + 8 * w) (.read 8)) s (fun u =>
          u.out = s.out ++ [.hostAnswer id stOk (leBytes 8 (msixWord s 0 w).toNat) false] ∧ RegsKept [] s u ∧ MemKept s u)
        ∧ ∀ bs, bs.length = 8 → (0, w / 2) ∉ s.host.pba → Completes (.hostBarAccess .pf 2 (0x8000 + 8 * w) (.write bs)) s
            (fun u => msixWord u 0 w = leWord bs ∧ (∀ k, k ≠ w → msixWord u 0 k = msixWord s 0 k) ∧ u.out = s.out
              ∧ RegsKept [] s u ∧ MemKept s u))
    ∧ (∀ bar off n, bar ≠ 0 → bar ≠ 2 → Completes (.hostBarAccess .pf bar off (.read n)) s (fun u =>
        u.out = s.out ++ [.hostAnswer id stAddr [] false] ∧ CountedRefused s u ∧ rdB u Reg.faultStatus 2 = true ∧ MemKept s u)))
    ∧ (∀ r, s.host.barReads.find? (fun r => r.id == id) = some r → r.at_ + 12800000 < 2 ^ 64 →
        Completes (.barReadTimeout id) s (fun u =>
          u.out = s.out ++ [.hostAnswer id stTimeout [] false] ∧ r.at_ + 12800000 ≤ now u
            ∧ u.host.barReads = s.host.barReads.filter (fun x => x.id != id) ∧ RegsKept [] s u ∧ MemKept s u))
    ∧ ∀ a p v, a ∈ [Reg.faultCtrl, Reg.smdCtrl, Reg.fenceDrain, Reg.capLease, Reg.extThrottle, Reg.shiftCtrl,
                    Reg.forecastCtrl, Reg.timeSyncWait, Reg.copyAllow] →
      (mayWrite s (Reg.kind a).cls (.path p) = true → Completes (.registerWrite (.path p) (Reg.spaceBase + a) v) s (fun u =>
        rd u a = plainValue (Reg.kind a) (rd s a) v ∧ RegsKept [a] s u ∧ MemKept s u))
      ∧ (mayWrite s (Reg.kind a).cls (.path p) = false → Completes (.registerWrite (.path p) (Reg.spaceBase + a) v) s (fun u =>
        rdF u Reg.roleRefused 31 0 = min (rdF s Reg.roleRefused 31 0 + 1) (2 ^ 32 - 1)
          ∧ u.boot.auditNext = s.boot.auditNext + 1 ∧ RegsKept [Reg.roleRefused] s u ∧ MemKept s u))

/-- Resets and losses of the host link: a function's reset ends its tenant's jobs and queues, the physical function's
reset returns every HOST register, a link that goes down stops the queues with a ring in host memory. -/
def Sys2Proof.Machine.HostResets : Prop :=
  ∀ (s : State),
    (∀ v, v < 256 → Completes (.flrVf v) s (fun u =>
      (∀ q, q < 512 → qEnabled s q = true → qTenant s q = v →
          qEnabled u q = false ∧ rdF u (Reg.qStatus q) 7 4 = 3 ∧ rdB u (Reg.qStatus q) 1 = true)
        ∧ (∀ l ∈ tenantJobs s v, ∀ m ∈ membersOf s l, tileState u m = 0)
        ∧ (∀ i, i < 8 → rd u (Reg.vfAperture v i) = 0) ∧ rdB u Reg.hostEvent 3 = true ∧ MemKept s u))
    ∧ (∀ k, Completes (.flrPf k) s (fun u =>
      (∀ a, 0xA0000 ≤ a → a < 0xB0000 → a ≠ Reg.hostEvent → rd u a = Reg.resetValue a)
        ∧ rd u Reg.hostEvent = (if k = .flr then Reg.resetValue Reg.hostEvent ||| 8 else Reg.resetValue Reg.hostEvent)
        ∧ u.host.queues = [] ∧ u.host.barReads = [] ∧ roleOf u .pcie = 0 ∧ MemKept s u))
    ∧ Completes .dlDown s (fun u =>
        (∀ q, q < 512 → qEnabled s q = true → qSqDevice s q = false ∨ qCqDevice s q = false →
          qEnabled u q = false ∧ rdF u (Reg.qStatus q) 7 4 = 1 ∧ rdB u (Reg.qStatus q) 1 = true)
          ∧ hostUp u = false ∧ u.host.barReads = [] ∧ rdB u Reg.hostEvent 0 = true ∧ rdB u Reg.faultStatus 28 = true
          ∧ roleOf u .pcie = 0)
    ∧ (∀ width speed, width ∈ [1, 2, 4, 8, 16] → 1 ≤ speed → speed ≤ 6 → hostPowered s = true →
      Completes (.pcieLinkUp width speed) s (fun u =>
        hostUp u = true ∧ rdF u Reg.hostStatus 12 8 = width ∧ rdF u Reg.hostStatus 7 4 = speed
          ∧ (width < 16 ∨ speed < 6 → rdB u Reg.hostEvent 1 = true) ∧ RegsKept [Reg.hostStatus, Reg.hostEvent] s u
          ∧ MemKept s u))
    ∧ Completes .managementPortLinkLoss s (fun u =>
        roleOf u .eth = 0 ∧ roleOf u .pcie = roleOf s .pcie ∧ roleOf u .i3c = roleOf s .i3c
          ∧ RegsKept [Reg.authStatus] s u ∧ MemKept s u)

/-- The host: its accesses, its resets and losses. -/
def Obligations.HostInterface : Prop := HostAccesses ∧ HostResets

/-- The transport of the ordinary network: a DATA packet in sequence is written and acknowledged, any other is dropped
with the same acknowledgement; an ACK frees what lies before it; a timeout sends everything again in order.
Readings of the transport: notes/assumptions/43.md. -/
def Obligations.OrdinaryNetwork : Prop :=
  ∀ (s : State) (port f : Nat) (x : EthFrame) (ack : Nat → Out),
    ack = (fun k => .eth (flowPort s f) (fld (flowWord s f 3) 55 40) 2 0 k 0 []) →
    (hostPowered s = false → Completes (.ethFrame port x) s (fun u => u = s))
    ∧ (hostPowered s = true → x.malformed = true → Completes (.ethFrame port x) s (fun u =>
      rdF u Reg.ethDropCount 63 32 = min (rdF s Reg.ethDropCount 63 32 + 1) (2 ^ 32 - 1) ∧ u.out = s.out
        ∧ RegsKept [Reg.ethDropCount] s u ∧ MemKept s u))
    ∧ (hostPowered s = true → x.malformed = false → rdB s Reg.ethCtrl 63 = false ∨ 256 ≤ x.flow → Completes (.ethFrame port x) s (fun u =>
      rdF u Reg.ethDropCount 31 0 = min (rdF s Reg.ethDropCount 31 0 + 1) (2 ^ 32 - 1) ∧ u.out = s.out
        ∧ RegsKept [Reg.ethDropCount] s u ∧ MemKept s u))
    ∧ (hostPowered s = true → x.malformed = false → x.flow = f → f < 256 → rdB s Reg.ethCtrl 63 = true → bit (flowWord s f 2) 63 = true →
        flowPort s f = port →
      (x.kind = 1 → x.seq ≠ (flowOf s f).rxSeq → Completes (.ethFrame port x) s (fun u =>
        (flowOf u f).rxSeq = (flowOf s f).rxSeq ∧ u.out = s.out ++ [ack (flowOf s f).rxSeq]
          ∧ rdF u Reg.ethDropCount 31 0 = min (rdF s Reg.ethDropCount 31 0 + 1) (2 ^ 32 - 1)
          ∧ RegsKept [Reg.ethDropCount] s u ∧ MemKept s u))
      ∧ (x.kind = 1 → x.seq = (flowOf s f).rxSeq → x.payload.length ≤ 8192 →
          x.offset + x.payload.length ≤ fld (flowWord s f 3) 15 0 * 65536 →
          (x.payload = [] → Completes (.ethFrame port x) s (fun u =>
            (flowOf u f).rxSeq = ((flowOf s f).rxSeq + 1) % 2 ^ 32
              ∧ u.out = s.out ++ [ack (((flowOf s f).rxSeq + 1) % 2 ^ 32)] ∧ RegsKept [] s u ∧ MemKept s u))
          ∧ ∀ p o y, x.payload ≠ [] → admission s (ethWrite s f x) = .ok (.hbm p o, y) →
              engineReach s (ethWrite s f x) = .found (.hbm p o) → StackTakes s p o → OneLine y →
              Completes (.ethFrame port x) s (fun u =>
                Queued p (stackOf s o) y s u ∧ (flowOf u f).rxSeq = ((flowOf s f).rxSeq + 1) % 2 ^ 32
                  ∧ u.out = s.out ++ [ack (((flowOf s f).rxSeq + 1) % 2 ^ 32)] ∧ RegsKept [] s u ∧ MemKept s u))
      ∧ (x.kind = 2 → (flowOf s f).tag = none → Completes (.ethFrame port x) s (fun u =>
          (flowOf u f).unacked = (flowOf s f).unacked.filter (fun p => !seqBefore p.1 x.ack)
            ∧ RegsKept [] s u ∧ MemKept s u))
      ∧ ∀ k, x.kind = 2 → (flowOf s f).tag = some k → (cplOf s k).st = .opened → (cplOf s k).kind = .eth →
          (cplOf s k).items = f → (cplOf s k).damaged = false → (cplOf s k).expect ≤ (cplOf s k).got + (((flowOf s f).unacked.filter
            (fun p => seqBefore p.1 x.ack)).map (fun p => p.2.2.length)).sum → (cplOf s k).cvu = none →
          (cplOf s k).firstErr = 0 → (flowOf s f).unacked.filter (fun p => seqBefore p.1 x.ack) ≠ [] →
          Completes (.ethFrame port x) s (fun u =>
            Finished k (statusWord 0 (cplOf s k).drops false (cplOf s k).inexact false) s u))
    ∧ ∀ p rest k, (flowOf s f).unacked = p :: rest →
      (flowOf s f).sentAt + fld (flowWord s f 3) 39 32 * 1600 < 2 ^ 64 →
      ((flowOf s f).tag = some k → (cplOf s k).st = .opened → (cplOf s k).kind = .eth → (cplOf s k).items = f →
        rdB s Reg.ethCtrl 63 = true → hostPowered s = true → Completes (.ethRtoExpiry f) s (fun u =>
          u.out = s.out ++ (p :: rest).map (fun y =>
              .eth (flowPort s f) (fld (flowWord s f 3) 55 40) 1 y.1 (flowOf s f).rxSeq y.2.1 y.2.2)
            ∧ (flowOf u f).unacked = p :: rest ∧ (flowOf u f).sentAt = now u
            ∧ (flowOf s f).sentAt + fld (flowWord s f 3) 39 32 * 1600 ≤ now u ∧ RegsKept [] s u ∧ MemKept s u))
      ∧ ((flowOf s f).tag = none → Completes (.ethRtoExpiry f) s (fun u =>
          (flowOf u f).unacked = [] ∧ (flowOf u f).txSeq = p.1 ∧ u.out = s.out ∧ RegsKept [] s u ∧ MemKept s u))

-- Power, droop, heat, domains (R350–R384)

namespace Sys2Proof.Machine

/-- A frequency step of a die was made (R355, R382). -/
def Stepped (p : Nat) (d : Nat × Nat) (u : State) : Prop :=
  freqOf u p = d.2 ∧ rdF u Reg.powerStatus (16 * p + 15) (16 * p + 12) = d.1 ∧ p ∉ u.pwr.request

end Sys2Proof.Machine

/-- The frequency of a compute die: the lowest limit decides, at once for protection and the cap, else when the droop
detectors are quiet; a droop halves the clock of its cluster for at least 32 cycles; a regulator's warning lowers the
die's limit by one. -/
def Sys2Proof.Machine.DieFrequency : Prop :=
  ∀ (p : Nat) (s : State), p < 4 →
    (decideFreq s p ≠ (rdF s Reg.powerStatus (16 * p + 15) (16 * p + 12), freqOf s p) →
      (stepsAtOnce s p = true ∨ quiet s p = true → Completes (.freqStep p) s (fun u => Stepped p (decideFreq s p) u
        ∧ RegsKept [Reg.powerStatus, Reg.ffBreach, Reg.powerEvent] s u ∧ MemKept s u))
      ∧ (stepsAtOnce s p = false → quiet s p = false → Completes (.freqStep p) s (fun u =>
        p ∈ u.pwr.request ∧ RegsKept [] s u ∧ MemKept s u)))
    ∧ (s.pwr.tripped = true → 16 < freqOf s p → Completes (.freqStep p) s (fun u =>
        freqOf u p = 16 ∧ rdF u Reg.powerStatus (16 * p + 15) (16 * p + 12) = 7 ∧ MemKept s u))
    ∧ (p ∈ s.pwr.request → (∀ h ∈ s.pwr.halved, h.1 ≠ p) → mget 0 s.pwr.quietSince p + 1600 < 2 ^ 64 →
        Completes (.freqRequestRelease p) s (fun u =>
          Stepped p (decideFreq s p) u ∧ mget 0 s.pwr.quietSince p + 1600 ≤ now u
            ∧ RegsKept [Reg.powerStatus, Reg.ffBreach, Reg.powerEvent] s u ∧ MemKept s u))
    ∧ (∀ c, c < 8 → (∀ h ∈ s.pwr.halved, h.1 ≠ p) → Completes (.droopTrip p c) s (fun u =>
        u.pwr.halved = s.pwr.halved ++ [(p, c, now s)]
          ∧ rdF u Reg.stretchCount (16 * p + 15) (16 * p)
              = min (rdF s Reg.stretchCount (16 * p + 15) (16 * p) + 1) (2 ^ 16 - 1)
          ∧ RegsKept [Reg.stretchCount] s u ∧ MemKept s u))
    ∧ (∀ c t back f, c < 8 → s.pwr.halved = [(p, c, t)] → f = max 1 (freqOf s p) → t + ceilDiv 2048 f < 2 ^ 64 →
        back + ceilDiv 1024 f < 2 ^ 64 → Completes (.droopRecover p ⟨c, back⟩) s (fun u =>
          u.pwr.halved = [] ∧ t + ceilDiv 2048 f ≤ now u ∧ back + ceilDiv 1024 f ≤ now u ∧ mget 0 u.pwr.quietSince p = now u
            ∧ RegsKept [] s u ∧ MemKept s u))
    ∧ (s.pwr.warned.contains p = true → Completes (.regulatorWarnStep p) s (fun u =>
        mget 72 u.pwr.warnLim p = max 16 (freqOf s p - 1)
          ∧ (freqOf u p = (decideFreq u p).2 ∨ p ∈ u.pwr.request)
          ∧ RegsKept [Reg.powerStatus, Reg.ffBreach, Reg.powerEvent] s u ∧ MemKept s u))

/-- Telemetry and the cap: a rail's reading, its loss and its fault; the estimates and what the loop does about the
projected mean; the cap's bounds and its lease; slack, shares, ballast and the start governor. -/
def Sys2Proof.Machine.PowerControl : Prop :=
  ∀ (s : State),
    (∀ r x alike, r < 18 → Completes (.railRead r x alike) s (fun u =>
      rdF u (Reg.rail r) 63 48 = x.mv % 2 ^ 16 ∧ rdF u (Reg.rail r) 47 32 = x.current % 2 ^ 16
        ∧ railPower u r = x.power % 2 ^ 16 ∧ rdF u (Reg.rail r) 15 8 = x.temp % 256 ∧ rdB u (Reg.rail r) 1 = x.warn
        ∧ mget 0 u.pwr.lastRead r = now s ∧ r ∉ u.pwr.lostRails
        ∧ (r < 4 → u.pwr.warned.contains r = x.warn ∧ (x.warn = true → rdB u Reg.powerEvent 5 = true)
            ∧ rdB u Reg.calStatus r = decide (65536 < alike))
        ∧ (r = 17 → rdF u Reg.measured 47 32 = min (sumReadings u) 65535)
        ∧ RegsKept [Reg.rail r, Reg.calStatus, Reg.powerEvent, Reg.measured] s u ∧ MemKept s u))
    ∧ (∀ r, r < 18 → mget 0 s.pwr.lastRead r + 1600000 < 2 ^ 64 → Completes (.railLost r) s (fun u =>
        r ∈ u.pwr.lostRails ∧ mget 0 s.pwr.lastRead r + 1600000 ≤ now u ∧ rdB u Reg.faultStatus 19 = true
          ∧ RegsKept [Reg.faultStatus, Reg.firstSource] s u ∧ MemKept s u))
    ∧ (∀ r, r < 18 → Completes (.regulatorFault r) s (fun u =>
        r ∈ u.pwr.faultRails ∧ rdB u Reg.faultStatus 20 = true ∧ RegsKept [Reg.faultStatus, Reg.firstSource] s u
          ∧ MemKept s u))
    ∧ (∀ x e mean, (∀ p, p < 4 → mget 0 e p = estimateOf s p (x.getD p {})) →
        mean = projected { s with pwr := { s.pwr with estimate := e } } → Completes (.activityEstimate x) s (fun u =>
        (∀ p, p < 4 → mget 0 u.pwr.estimate p = estimateOf s p (x.getD p {}))
          ∧ rdF u Reg.measured 31 16 = min 65535 (sumEstimate u)
          ∧ ((capOf s : Int) < mean → u.pwr.capCut = true)
          ∧ ((capOf s : Int) < mean → s.pwr.capCut = true → (∀ p, p < 4 → mget 72 s.pwr.capLim p ≤ 16) →
              u.pwr.capFloor = true ∧ (∀ c, c < 32 → gated u c = 8) ∧ rdB u Reg.powerEvent 8 = true)
          ∧ (mean ≤ (capOf s : Int) → u.pwr.capCut = false ∧ u.pwr.capFloor = false) ∧ MemKept s u))
    ∧ (∀ who v lo hi, mayWrite s .installer who = true → lo = rdF s Reg.powerCap 31 16 → hi = rdF s Reg.powerCap 47 32 →
        Completes (.powerCapWrite who v) s (fun u =>
          capOf u = max lo (min hi (fld v 15 0)) ∧ u.pwr.leaseFrom = some (now s)
            ∧ (fld v 15 0 < lo ∨ hi < fld v 15 0 → rdB u Reg.powerEvent 7 = true)
            ∧ rdF u Reg.powerCap 31 16 = lo ∧ rdF u Reg.powerCap 47 32 = hi
            ∧ RegsKept [Reg.powerCap, Reg.powerEvent, Reg.auditHead] s u ∧ MemKept s u))
    ∧ (∀ t, s.pwr.leaseFrom = some t → rdF s Reg.capLease 15 0 ≠ 0 → t + rdF s Reg.capLease 15 0 * 1600000 < 2 ^ 64 →
        Completes .capLeaseExpiry s (fun u =>
          capOf u = rdF s Reg.capLease 47 32 ∧ u.pwr.leaseFrom = none ∧ t + rdF s Reg.capLease 15 0 * 1600000 ≤ now u
            ∧ rdB u Reg.powerEvent 1 = true ∧ rdB u Reg.faultStatus 24 = true ∧ MemKept s u))
    ∧ (s.pwr.leaseFrom = none ∨ rdF s Reg.capLease 15 0 = 0 → Completes .capLeaseExpiry s (fun u => u = s))
    ∧ (∀ who, mayWrite s .operator who = true → Completes (.deviceReset who) s (fun u => u.pwr.leaseFrom = none))
    ∧ Completes .slackPublish s (fun u =>
        rdF u Reg.slackAvg 58 48 = min 1024 (s.pwr.slackSum / max 1 s.pwr.slackRounds)
          ∧ (∀ p, p < 4 → slackOf u p
              = min 1024 (mget 0 s.pwr.partWait p / (max 1 s.pwr.slackRounds * max 1 (runningIn s p))))
          ∧ u.out = s.out ++ [.pldm 64 (rd u Reg.slackAvg)] ∧ u.pwr.slackSum = 0 ∧ u.pwr.slackRounds = 0
          ∧ u.pwr.partWait = [] ∧ RegsKept [Reg.slackAvg] s u ∧ MemKept s u)
    ∧ (∀ budget, budget = capOf s - (sumReadings s - (railPower s 0 + railPower s 1 + railPower s 2 + railPower s 3) / 10)
          - capOf s / 50 → Completes .powerShift s (fun u =>
        rdF u Reg.measured 15 0 = min 65535 budget
          ∧ mget 0 u.pwr.share 0 + mget 0 u.pwr.share 1 + mget 0 u.pwr.share 2 + mget 0 u.pwr.share 3 ≤ budget
          ∧ (fixedMode s = true → ∀ p, p < 4 → mget 0 u.pwr.share p = budget / 4) ∧ MemKept s u))
    ∧ (∀ t cur slope, t < 512 → slope = 3 * rdF s Reg.ballastLevel 23 16 →
        cur = (if now s ≤ (tl s t).waitFrom + 1600 then meanActivity s t 1600 else (tl s t).ballast) →
        (rdB s Reg.ballastLevel 63 = false ∨ ballastStopped s t = true ∨ ballastWaits s t = false →
          Completes (.ballastUpdate t) s (fun u => (tl u t).ballast = 0 ∧ TilesKept t s u ∧ RegsKept [] s u ∧ MemKept s u))
        ∧ (rdB s Reg.ballastLevel 63 = true → ballastStopped s t = false → ballastWaits s t = true →
          Completes (.ballastUpdate t) s (fun u =>
            min 300 (cur - slope) ≤ (tl u t).ballast ∧ (tl u t).ballast ≤ 300
              ∧ (tl u t).ballast ≤ max (cur + slope) (hintFloor s t slope)
              ∧ TilesKept t s u ∧ RegsKept [] s u ∧ MemKept s u)))
    ∧ ∀ t till since, (tl s t).firstMxm = some (till, since) → till < 2 ^ 64 → Completes (.governorRelease t) s (fun u =>
        (tl u t).firstMxm = none ∧ till ≤ now u ∧ RegsKept [Reg.stallWait t, Reg.cycles t] s u ∧ TilesKept t s u
          ∧ MemKept s u)

/-- Frequency of a die, telemetry and the power cap. -/
def Obligations.FrequencyAndPower : Prop := DieFrequency ∧ PowerControl

/-- Heat and THROTTLE_IN_N: readings, throttling of a cluster and the trip, the forecast and its flow request, coolant
data and its age, the throttle input and the floor that it latches.
The forecast and its flow request are opaque (notes/assumptions/10.md, 34.md). -/
def Obligations.ThermalControl : Prop :=
  ∀ (s : State),
    (∀ temps, s.boot.ioDies ≤ 4 → s.boot.stackCount ≤ 4 → Completes (.sensorRead temps) s (fun u =>
      (∀ c, c < 32 → clusterTemp u c = min 4095 (nth temps c))
        ∧ (∀ c, c < 32 → gated s c = 0 → 8 * rdF s Reg.thermalLimits 7 0 ≤ nth temps c →
            gated u c = 1 ∧ rdB u Reg.thermalEvent 0 = true)
        ∧ (∀ j, j < 2 * s.boot.ioDies → rdF u (Reg.ioTemp j) 11 0 = min 4095 (nth temps (32 + j)))
        ∧ ((∃ c, c < 32 ∧ 880 ≤ nth temps c) → u.pwr.tripped = true)
        ∧ ((∃ c, c < 32 ∧ 880 ≤ nth temps c) → s.pwr.tripped = false → rdB u Reg.faultStatus 18 = true
            ∧ rdB u Reg.thermalEvent 1 = true)))
    ∧ (∀ c aim, c < 32 → gated s c ≠ 0 → aim = 8 * rdF s Reg.thermalLimits 7 0 - 8 →
        Completes (.throttleAdjust c) s (fun u =>
          gated u c = (if aim < clusterTemp s c then min 15 (gated s c + 1)
            else if clusterTemp s c < aim then max (if s.pwr.floor || s.pwr.capFloor then 8 else 1) (gated s c - 1)
            else gated s c)
          ∧ RegsKept [Reg.cluster c, Reg.thermalStatus] s u ∧ MemKept s u))
    ∧ (∀ c, c < 32 → gated s c ≠ 0 → mget 0 s.pwr.coolSince c ≠ 0 → s.pwr.floor = false → s.pwr.capFloor = false →
        mget 0 s.pwr.coolSince c + 1600000 < 2 ^ 64 → Completes (.throttleRelease c) s (fun u =>
          gated u c = 0 ∧ mget 0 s.pwr.coolSince c + 1600000 ≤ now u ∧ u.out.take (s.out.length + 1) = s.out ++ [.gate c 0]
            ∧ RegsKept [Reg.cluster c, Reg.thermalStatus, Reg.powerStatus, Reg.ffBreach, Reg.powerEvent] s u ∧ MemKept s u))
    ∧ (∀ f : Nat → Nat, (∀ c, f c = Config.forecast c (clusterTemp s c) (mget 0 s.pwr.estimate (c / 8))
          ((hintsAhead s 16000000).foldl (fun a b => a + b) 0) (startsAhead s) (coolantUsed s)) → ∀ m, (∀ c, c < 32 → f c ≤ m) →
          (∃ c, c < 32 ∧ f c = m) →
        Completes .kilnForecast s (fun u =>
          rdF u Reg.thermalForecast 63 52 = min 4095 m
            ∧ (8 * rdF s Reg.forecastCtrl 7 0 ≤ m → rdB u Reg.thermalEvent 3 = true
                ∧ u.out = s.out ++ [.pldm 65 (wd (Config.flowRequest m % 128))])
            ∧ (m < 8 * rdF s Reg.forecastCtrl 7 0 → u.out = s.out)
            ∧ RegsKept [Reg.thermalForecast, Reg.thermalEvent] s u ∧ MemKept s u))
    ∧ (∀ who v, mayWrite s .installer who = true → Completes (.coolantWrite who v) s (fun u =>
        rdF u Reg.coolant 63 56 = fld v 63 56 ∧ rdF u Reg.coolant 55 40 = fld v 55 40 ∧ coolantAge u = 0
          ∧ (fld v 63 56 < 17 ∨ 45 < fld v 63 56 ∨ fld v 55 40 < 150 → rdB u Reg.thermalEvent 5 = true)
          ∧ RegsKept [Reg.coolant, Reg.thermalEvent, Reg.auditHead] s u ∧ MemKept s u))
    ∧ (∀ t, s.pwr.coolantAt = some t → t + 16001600000 < 2 ^ 64 → Completes .coolantStale s (fun u =>
        rdB u Reg.thermalEvent 4 = true ∧ 10000 < coolantAge u ∧ coolantUsed u = 45 * 2 ^ 16 + 150
          ∧ RegsKept [Reg.thermalEvent] s u ∧ MemKept s u))
    ∧ (∀ chatter, s.pwr.extIn = false → Completes (.throttleInAssert chatter) s (fun u =>
        u.pwr.extIn = true ∧ rdB u Reg.powerEvent 3 = true ∧ (∀ t, (tl u t).ballast = 0)
          ∧ (∀ p, p < 4 → freqOf u p = (decideFreq u p).2 ∨ p ∈ u.pwr.request)
          ∧ RegsKept [Reg.powerStatus, Reg.ffBreach, Reg.powerEvent] s u ∧ MemKept s u))
    ∧ Completes .throttleInDeassert s (fun u => u.pwr.extIn = false
        ∧ (∀ p, p < 4 → freqOf u p = (decideFreq u p).2 ∨ p ∈ u.pwr.request)
        ∧ RegsKept [Reg.powerStatus, Reg.ffBreach, Reg.powerEvent] s u ∧ MemKept s u)
    ∧ (s.pwr.extIn = true → s.pwr.floor = false → s.pwr.extSince + 160000001 < 2 ^ 64 → Completes .extLatched s (fun u =>
        u.pwr.floor = true ∧ (∀ c, c < 32 → gated u c = 8) ∧ rdB u Reg.powerEvent 2 = true
          ∧ rdB u Reg.faultStatus 25 = true ∧ s.pwr.extSince + 160000001 ≤ now u ∧ MemKept s u))

/-- Power domains: a request to turn one on waits for its rail, one that does not exist, lacks the role or is busy is
refused with its reason, a domain goes off and comes on.
The rails of domains 52 to 60 are the model's choice (notes/assumptions/21.md). -/
def Obligations.PowerDomains : Prop :=
  ∀ (d : Nat) (who : Writer) (s : State), d < 64 →
    (mayWrite s .operator who = true →
      (domainExists s d = true → domainIsOn s d = false → s.pwr.waitOn.contains d = false →
        Completes (.domainOn who d) s (fun u =>
          u.pwr.waitOn = s.pwr.waitOn ++ [d] ∧ rdF u Reg.domainCtrl 5 0 = d ∧ RegsKept [Reg.domainCtrl] s u ∧ MemKept s u))
      ∧ (domainExists s d = false → ∀ c ∈ [Instr.domainOn who d, .domainOff who d], Completes c s (fun u =>
          rdF u Reg.domainCtrl 11 8 = 4 ∧ rdB u Reg.powerEvent 6 = true ∧ u.pwr = s.pwr
            ∧ RegsKept [Reg.domainCtrl, Reg.powerEvent] s u ∧ MemKept s u))
      ∧ (domainExists s d = true → domainIsOn s d = true → offRefused s d ≠ 0 → Completes (.domainOff who d) s (fun u =>
          rdF u Reg.domainCtrl 11 8 = offRefused s d ∧ rdB u Reg.powerEvent 6 = true ∧ domainIsOn u d = true
            ∧ RegsKept [Reg.domainCtrl, Reg.powerEvent] s u ∧ MemKept s u))
      ∧ (domainExists s d = true → domainIsOn s d = true → offRefused s d = 0 →
          (d < 36 ∨ 52 ≤ d ∨ stackBusy s ((d - 36) / 4) ((d - 36) % 4) = false) → Completes (.domainOff who d) s (fun u =>
            domainIsOn u d = false ∧ (∀ e, e < 64 → e ≠ d → domainIsOn u e = domainIsOn s e) ∧ MemKept s u))
      ∧ (domainExists s d = true → domainIsOn s d = true → 36 ≤ d → d < 52 →
          stackBusy s ((d - 36) / 4) ((d - 36) % 4) = true → Completes (.domainOff who d) s (fun u =>
            (stk u ((d - 36) / 4) ((d - 36) % 4)).offAfter = true ∧ domainIsOn u d = true
              ∧ RegsKept [Reg.domainCtrl] s u ∧ MemKept s u)))
    ∧ (∀ p, who = .path p → mayWrite s .operator who = false → ∀ c ∈ [Instr.domainOn who d, .domainOff who d],
        Completes c s (fun u => rdF u Reg.domainCtrl 11 8 = 5 ∧ rdB u Reg.powerEvent 6 = true ∧ u.pwr = s.pwr
          ∧ RegsKept [Reg.domainCtrl, Reg.powerEvent, Reg.roleRefused] s u ∧ MemKept s u))
    ∧ ∀ rail, s.pwr.waitOn.find? (fun d => domainRail d == rail) = some d → s.rma.held = [] →
        Completes (.domainTurnOn rail) s (fun u =>
          domainIsOn u d = true ∧ u.pwr.waitOn = s.pwr.waitOn.erase d ∧ mget 0 u.pwr.lastOn rail = now u
            ∧ (∀ t, s.pwr.lastOn.find? (fun kv => kv.1 == rail) = some (rail, t) → t + 16000 < 2 ^ 64 → t + 16000 ≤ now u)
            ∧ (d < 36 → d % 9 < 8 → ∀ t ∈ clusterTiles d, ∀ k, k < 0x200000 → memByte u (sramAddr t k) = 0))

-- Faults, fences, resets (R385–R410)

namespace Sys2Proof.Machine

/-- No operation is open, no collective instance and no barrier waits. -/
def NothingOpen (s : State) : Prop :=
  (∀ k, (cplOf s k).st ≠ .opened) ∧ s.coll.insts = [] ∧ s.coll.bars = []

/-- A control source's occurrence shows in FAULT.STATUS and FIRST_SOURCE (R387, R388). -/
def Shows (src : Nat) (u : State) : Prop := rdB u Reg.faultStatus src = true

/-- What every device reset leaves (R400): memory and every table empty, bring-up right after FUSE_LOAD, every partition
FENCED; the time block and the clock keep their values. -/
def DeviceWasReset (s u : State) : Prop :=
  u.mem = [] ∧ u.tiles = [] ∧ u.banks = [] ∧ u.cpl = [] ∧ u.hbm = [] ∧ u.host = {} ∧ u.coll = {} ∧ u.net = {} ∧ u.twin = {}
    ∧ reached u = 1 ∧ roleOf u .pcie = 0 ∧ (∀ p, p < 4 → fenceState u p = 2)
    ∧ (∀ a, 0x60000 ≤ a → a < 0x60300 → rd u a = rd s a) ∧ u.now = s.now ∧ u.boot.draff = s.boot.draff
    ∧ s.boot.auditNext ≤ u.boot.auditNext

/-- What power-on leaves (R403, R427): everything at reset but what lies in fuses and flash. -/
def PoweredOn (s u : State) : Prop :=
  u.mem = [] ∧ u.tiles = [] ∧ u.banks = [] ∧ u.cpl = [] ∧ u.now = 0
    ∧ (∀ a, a ≠ Reg.fwStatus → inFlash a = false → rd u a = Reg.resetValue a)
    ∧ (∀ a, inFlash a = true → rd u a = rd s a) ∧ u.boot.serial = s.boot.serial ∧ u.boot.licence = s.boot.licence
    ∧ u.boot.draff = s.boot.draff ∧ u.boot.slotA = s.boot.slotA ∧ u.boot.slotB = s.boot.slotB
    ∧ u.boot.audit = s.boot.audit ∧ u.boot.auditNext = s.boot.auditNext

end Sys2Proof.Machine

/-- Faults: clearing keeps what is present, a forced source is recorded and captured, the oldest occurrence's reactions
run; an error in a protected table raises TABLE_ECC and spoils its entry; an abort ends a tenant's jobs and floods, a
flood acts once and goes on with one hop less. How the error is found is the model's choice (notes/assumptions/56.md). -/
def Obligations.FaultsAndAborts : Prop :=
  ∀ (s : State),
    (∀ who v, mayWrite s .operator who = true → Completes (.faultStatusClear who v) s (fun u =>
      (∀ i, i < 64 → rdB u Reg.faultStatus i = (rdB s Reg.faultStatus i && !(bit v i && !faultPresent s i)))
        ∧ RegsKept [Reg.faultStatus] s u ∧ MemKept s u))
    ∧ (∀ who i, mayWrite s .operator who = true → i < 64 → sourceExists i = true →
      Completes (.faultForce who (wd (2 ^ i))) s (fun u =>
        Shows i u ∧ (∃ r, u.flt.reactions = s.flt.reactions ++ [r] ∧ r.src = i ∧ r.limited = rdB s Reg.faultCtrl 63)
          ∧ (i ≤ 6 → rdB s (Reg.dcap i 1) 63 = false → rdB u (Reg.dcap i 1) 63 = true ∧ rdF u (Reg.dcap i 1) 27 24 = 15
              ∧ rd u (Reg.dcap i 2) = s.now)
          ∧ (16 ≤ i → rdB s Reg.firstSource 63 = false → rdF u Reg.firstSource 5 0 = i ∧ rdB u Reg.firstSource 63 = true)
          ∧ RegsKept [Reg.faultStatus, Reg.firstSource, Reg.dcap i 0, Reg.dcap i 1, Reg.dcap i 2, Reg.dcap i 3] s u
          ∧ MemKept s u))
    ∧ (s.flt.reactions = [] → Completes .faultReaction s (fun u => u = s))
    ∧ (∀ ecc x, exec (.routePacket ⟨ecc, some x⟩) s = exec (.routePacket ⟨ecc, none⟩) (damage x s))
    ∧ (∀ ecc x, s.net.routerQ = [] → Completes (.routePacket ⟨ecc, some x⟩) s (fun u =>
        Shows 23 u ∧ (∃ r, u.flt.reactions = s.flt.reactions ++ [r] ∧ r.src = 23)
          ∧ (∀ i, x = .window i → winEntry u i = (setBit (winEntry s i).1 63 false, (winEntry s i).2))
          ∧ (∀ g, x = .group g → (groupOf u g).valid = false)
          ∧ (∀ i, x = .member i → ∀ g, (groupOf u g).valid = ((groupOf s g).valid && !(groupOf s g).holds i))
          ∧ (∀ k, x = .completion k → (cplOf s k).st = .opened → (cplOf u k).damaged = true ∧ (cplOf u k).st = .opened)
          ∧ RegsKept [Reg.faultStatus, Reg.firstSource] s u ∧ MemKept s u))
    ∧ (∀ r rest, s.flt.reactions = r :: rest →
      (reactionBits s r = 0 ∨ reactionBits s r = 1 → Completes .faultReaction s (fun u =>
        u = { s with flt := { s.flt with reactions := rest } }))
      ∧ (reactionBits s r = 2 → rdF s Reg.faultCtrl 7 0 < 256 →
          bit (msixWord s 0 (2 * rdF s Reg.faultCtrl 7 0 + 1)) 32 = false → Completes .faultReaction s (fun u =>
            u.out = s.out ++ [.msix 0 (rdF s Reg.faultCtrl 7 0), .pldm r.src s.now] ∧ u.flt.reactions = rest
              ∧ RegsKept [] s u ∧ MemKept s u))
      ∧ (∀ p, reactionBits s r = 16 → r.src ≠ 18 → r.part = some p → p < 4 → fenceState s p = 0 →
          Completes .faultReaction s (fun u =>
            fenceState u p = 1 ∧ rdF u Reg.fenceStatus (16 * p + 7) (16 * p + 4) = 2 ∧ mget 0 u.flt.fenceAt p = now s
              ∧ (∀ q, q < 4 → q ≠ p → fenceState u q = fenceState s q))))
    ∧ (∀ who v g, mayWrite s .operator who = true → g = rd s (Reg.abortGroup (fld v 7 0)) → NothingOpen s →
      Completes (.abortGo who v) s (fun u =>
        (∀ j ∈ u.host.jobs, j.tenant ≠ fld v 7 0)
          ∧ (∀ l ∈ tenantJobs s (fld v 7 0), ∀ m ∈ membersOf s l, tileState u m = 0)
          ∧ (bit g 63 = true → u.flt.floodSeq = (s.flt.floodSeq + 1) % 65536 ∧ rdB u Reg.abortStatus 1 = true
              ∧ rdF u Reg.abortStatus 21 14 = fld v 7 0
              ∧ ∀ n ∈ floodPorts s none, ∀ b, bondOf s n = some b → ∃ p, (bnd u b).queue = (bnd s b).queue ++ [(32, p)]
                  ∧ p.opcode = 0x72 ∧ p.vc = 7 ∧ p.dst = rdF s (Reg.neighbour n) 13 0
                  ∧ p.payload = floodBytes (ownDev s) ((s.flt.floodSeq + 1) % 65536) 63 (fld g 11 0) (fld v 7 0) (now s))
          ∧ (bit g 63 = false → u.flt = s.flt ∧ u.net.bonds = s.net.bonds) ∧ MemKept s u))
    ∧ ∀ n p w time, p.opcode = 0x72 → p.payload.length = 16 → portState s n = 4 → w = leWord (p.payload.take 8) →
      time = leNat ((p.payload.drop 8).take 8) →
      (s.flt.seen.contains (fld w 63 50, fld w 49 34) = true ∨ time + 1600000 < now s →
        Completes (.jobAbort n p) s (fun u => u = s))
      ∧ (s.flt.seen.contains (fld w 63 50, fld w 49 34) = false → now s ≤ time + 1600000 →
          ((groupOf s (fld w 27 16)).valid = false ∨ (groupOf s (fld w 27 16)).tenant ≠ fld w 7 0) →
          Completes (.jobAbort n p) s (fun u =>
            (fld w 63 50, fld w 49 34) ∈ u.flt.seen ∧ u.flt.seen.length ≤ 64 ∧ RegsKept [] s u ∧ MemKept s u
              ∧ (fld w 33 28 = 0 → u.net = s.net)
              ∧ (fld w 33 28 ≠ 0 → ∀ m ∈ floodPorts s (bondOf s n), ∀ b, bondOf s m = some b →
                  ∃ q, (bnd u b).queue = (bnd s b).queue ++ [(32, q)] ∧ q.opcode = 0x72
                    ∧ q.payload = floodBytes (fld w 63 50) (fld w 49 34) (fld w 33 28 - 1) (fld w 27 16) (fld w 7 0) time)))
      ∧ (s.flt.seen.contains (fld w 63 50, fld w 49 34) = false → now s ≤ time + 1600000 → NothingOpen s →
          (groupOf s (fld w 27 16)).valid = true → (groupOf s (fld w 27 16)).tenant = fld w 7 0 →
          Completes (.jobAbort n p) s (fun u =>
            (∀ j ∈ u.host.jobs, j.tenant ≠ fld w 7 0) ∧ rdB u Reg.abortStatus 0 = true
              ∧ rdF u Reg.abortStatus 21 14 = fld w 7 0 ∧ MemKept s u))

/-- Fences and partition resets: a fence begins to drain, an empty partition is FENCED, an expired drain answers what is
held; a reset drains first, holds its domains off, and goes through its phases to IN_SERVICE or fails FENCED.
That partitions are FENCED before HBM_TRAIN is the model's choice (notes/assumptions/5.md). -/
def Obligations.FencesAndPartitionResets : Prop :=
  ∀ (p : Nat) (s : State), p < 4 → s.boot.stackCount ≤ 4 →
    (∀ who, mayWrite s .operator who = true →
      (fenceState s p = 0 → Completes (.fencePartition who (wd (2 ^ p))) s (fun u =>
        fenceState u p = 1 ∧ rdF u Reg.fenceStatus (16 * p + 7) (16 * p + 4) = 1 ∧ mget 0 u.flt.fenceAt p = now s
          ∧ (∀ i b, i < 128 → b < 16 → handoverPending u (128 * p + i) b = false)
          ∧ (∀ q, q < 4 → q ≠ p → fenceState u q = fenceState s q)))
      ∧ (fenceState s p ≠ 0 → Completes (.fencePartition who (wd (2 ^ p))) s (fun u => u = s)))
    ∧ (fenceState s p = 1 →
      (busyPart s p = false → resetPhase s p ≠ 2 → Completes (.fenceDrainDone p) s (fun u =>
        fenceState u p = 2 ∧ RegsKept [Reg.fenceStatus] s u ∧ MemKept s u))
      ∧ (busyPart s p = true → Completes (.fenceDrainDone p) s (fun u => u = s))
      ∧ (resetPhase s p ≠ 2 → mget 0 s.flt.fenceAt p + rdF s Reg.fenceDrain 31 0 < 2 ^ 64 →
          Completes (.drainExpired p) s (fun u =>
            fenceState u p = 2 ∧ Shows 29 u ∧ mget 0 s.flt.fenceAt p + rdF s Reg.fenceDrain 31 0 ≤ now u
              ∧ rdF u Reg.fenceStatus (16 * p + 15) (16 * p + 8) = min 255 ((waitingAccesses s).filter (heldIn p)).length)))
    ∧ (∀ who, mayWrite s .operator who = true → s.flt.halted = false → 9 ≤ reached s → resetPhase s p ≠ 2 →
      (fenceState s p = 0 → Completes (.partReset who (wd (2 ^ p))) s (fun u =>
        fenceState u p = 1 ∧ resetPhase u p = 2 ∧ mget 0 u.flt.resetAt p = now s))
      ∧ (fenceState s p = 2 → Completes (.partReset who (wd (2 ^ p))) s (fun u =>
        fenceState u p = 3 ∧ resetPhase u p = 3 ∧ mget 0 u.flt.resetAt p = now s
          ∧ (∀ d ∈ partDomains p, domainIsOn u d = false) ∧ (∀ i, i < s.boot.stackCount → (stk u p i).queue = [])
          ∧ MemKept s u)))
    ∧ ∀ bad rates,
      (resetPhase s p = 3 → Completes (.partResetPhaseEnd p true bad rates) s (fun u =>
        resetPhase u p = 4 ∧ RegsKept [Reg.resetStatus] s u ∧ MemKept s u))
      ∧ (resetPhase s p = 4 → Completes (.partResetPhaseEnd p true bad rates) s (fun u =>
        resetPhase u p = 5 ∧ ∀ d ∈ partDomains p, domainExists s d = true → domainIsOn u d = true))
      ∧ (resetPhase s p = 5 → Completes (.partResetPhaseEnd p true bad rates) s (fun u =>
        resetPhase u p = 6 ∧ (∀ t, t < 128 → tileState u (128 * p + t) = 0 ∨ tileState u (128 * p + t) = 6) ∧ MemKept s u))
      ∧ (resetPhase s p = 6 → Completes (.partResetPhaseEnd p true bad rates) s (fun u =>
        resetPhase u p = 7 ∧ (∀ t k, t < 128 → k < 0x200000 → memByte u (sramAddr (128 * p + t) k) = 0)
          ∧ RegsKept [Reg.resetStatus] s u))
      ∧ (resetPhase s p = 7 → (∀ i, i < s.boot.stackCount → nth rates i ≠ 0) →
          Completes (.partResetPhaseEnd p true bad rates) s (fun u =>
            resetPhase u p = 8 ∧ (∀ i, i < s.boot.stackCount → stackState u p i = 3) ∧ MemKept s u))
      ∧ (∀ good, resetPhase s p = 7 → (∃ i, i < s.boot.stackCount ∧ nth rates i = 0) →
          Completes (.partResetPhaseEnd p good bad rates) s (fun u =>
            resetPhase u p = 9 ∧ fenceState u p = 2 ∧ Shows 16 u
              ∧ (∀ i, i < s.boot.stackCount → stackState u p i = (if nth rates i = 0 then 6 else 3)) ∧ MemKept s u))
      ∧ (resetPhase s p = 8 → Completes (.partResetPhaseEnd p true bad rates) s (fun u =>
        resetPhase u p = 0 ∧ fenceState u p = 0 ∧ (∀ t, t < 128 → tl u (128 * p + t) = {})
          ∧ ∀ a, a < 0x1800000000 → memByte u (p * 0x1800000000 + a) = 0))
      ∧ (3 ≤ resetPhase s p → resetPhase s p ≤ 8 → Completes (.partResetPhaseEnd p false bad rates) s (fun u =>
        resetPhase u p = 9 ∧ fenceState u p = 2 ∧ MemKept s u))

/-- Resets of the device and its inputs, hangs, the heartbeat and the management view. -/
def Obligations.ResetsAndSupervision : Prop :=
  ∀ (s : State), s.boot.stackCount ≤ 4 →
    (∀ who, mayWrite s .operator who = true → Completes (.deviceReset who) s (DeviceWasReset s))
    ∧ Completes (.resetN false) s (DeviceWasReset s) ∧ Completes (.resetN true) s (PoweredOn s)
    ∧ Completes .pwrgdIn s (PoweredOn s)
    ∧ Completes (.inputStuck .resetN (some true)) s (fun u =>
        DeviceWasReset s u ∧ rdB u Reg.inputStatus 1 = true ∧ Shows 27 u)
    ∧ Completes (.inputStuck .resetN (some false)) s (fun u => u = s)
    ∧ (∀ i, Completes (.inputStuck i none) s (fun u =>
        rdB u Reg.inputStatus (8 * inputNo i + 1) = false ∧ rdB u Reg.inputStatus (8 * inputNo i + 2) = false
          ∧ (27 ∈ u.flt.present ↔ ∃ k, k < 4 ∧ k ≠ inputNo i ∧ rdF s Reg.inputStatus (8 * k + 2) (8 * k + 1) ≠ 0)
          ∧ RegsKept [Reg.inputStatus] s u ∧ MemKept s u))
    ∧ (∀ i chatter, i = SideInput.timePps ∨ i = SideInput.timeClk → isMaster s = false →
        Completes (.inputStuck i (some chatter)) s (fun u =>
          rdB u Reg.inputStatus (8 * inputNo i + (if chatter then 1 else 2)) = true ∧ Shows 27 u ∧ 27 ∈ u.flt.present
            ∧ RegsKept [Reg.inputStatus, Reg.faultStatus, Reg.firstSource] s u ∧ MemKept s u))
    ∧ (∀ set a b, s.flt.smdOn = true → rdB s Reg.smdCtrl 63 = true →
        (set ≠ [] → (∀ n ∈ set, ∀ p, nodePart n = some p → fenceState s p = 0) → Completes (.stuckMashScan set a b) s (fun u =>
          rdF u Reg.smdStatus 63 56 = min 255 set.length ∧ rdF u Reg.smdStatus 47 24 = b % 2 ^ 24
            ∧ rdF u Reg.smdStatus 23 0 = a % 2 ^ 24 ∧ Shows 26 u
            ∧ RegsKept [Reg.smdStatus, Reg.faultStatus, Reg.firstSource] s u ∧ MemKept s u))
        ∧ (set = [] → Completes (.stuckMashScan set a b) s (fun u =>
          26 ∉ u.flt.present ∧ RegsKept [] s u ∧ MemKept s u)))
    ∧ Completes .heartbeatTick s (fun u =>
        rdF u Reg.heartbeat 31 0 = (rdF s Reg.heartbeat 31 0 + 1) % 2 ^ 32 ∧ cellarState u = cellarState s
          ∧ RegsKept [Reg.heartbeat] s u ∧ MemKept s u)
    ∧ Completes .mgmtDisagree s (fun u =>
        rd u Reg.disagree = wd (viewDiffers s) ∧ (viewDiffers s ≠ 0 → Shows 30 u)
          ∧ RegsKept [Reg.disagree, Reg.faultStatus, Reg.firstSource] s u ∧ MemKept s u)

-- Twin mode (R411–R426)

/-- A pair as it forms: TWIN.CTRL turns a unit on, keeps and refuses; beats go out and come in, settle the pair and its
conflict; misses are counted to the loss of the peer.
The payloads of the twin's own packets and the settling of a preferred unit are the model's reading (notes/assumptions/31.md, 32.md). -/
def Obligations.TwinPairing : Prop :=
  ∀ (s : State),
    (∀ who v w, mayWrite s .installer who = true →
      w = v &&& wd (Reg.bits 63 60 + Reg.bits 55 32 + Reg.bits 29 16 + Reg.bits 13 0) →
      (twinOn s = false → bit w 63 = true → (bit w 60 = true → twinLicensed s = true ∧ tenantOk s (fld w 55 48) = true) →
        portsTo s (fld w 13 0) ≠ [] → Completes (.twinCtrlWrite who v) s (fun u =>
          rd u Reg.twinCtrl = w ∧ twinRole u = 1 ∧ u.twin = freshPair s.twin
            ∧ RegsKept [Reg.twinCtrl, Reg.twinStatus] s u ∧ MemKept s u))
      ∧ (twinOn s = false → bit w 63 = true → portsTo s (fld w 13 0) = [] → Completes (.twinCtrlWrite who v) s (fun u =>
          rdB u Reg.twinEvent 7 = true ∧ u.twin = s.twin ∧ RegsKept [Reg.twinEvent] s u ∧ MemKept s u))
      ∧ (twinOn s = true → setBit w 63 true ≠ rd s Reg.twinCtrl → Completes (.twinCtrlWrite who v) s (fun u =>
          rdB u Reg.twinEvent 7 = true ∧ u.twin = s.twin ∧ RegsKept [Reg.twinEvent] s u ∧ MemKept s u))
      ∧ (twinOn s = true → setBit w 63 true = rd s Reg.twinCtrl → bit w 63 = false → Completes (.twinCtrlWrite who v) s (fun u =>
          rd u Reg.twinCtrl = w ∧ twinRole u = 0 ∧ rdB u Reg.twinStatus 3 = false ∧ u.twin = freshPair s.twin
            ∧ RegsKept [Reg.twinCtrl, Reg.twinStatus] s u ∧ MemKept s u)))
    ∧ (∀ n l b, twinOn s = true → rdB s Reg.twinCtrl 61 = false → s.twin.heard = none → portsTo s (twinPeer s) = n :: l →
        bondOf s n = some b → beatRound s * 1024 < 2 ^ 64 → Completes .twinBeatSend s (fun u =>
          beatRound s * 1024 ≤ now u ∧ u.twin.digest = 0 ∧ (beatRound s, s.twin.digest) ∈ u.twin.sentDigest
            ∧ (∃ p, (bnd u b).queue = (bnd s b).queue ++ [(32, p)] ∧ p.opcode = 0x73 ∧ p.vc = 7
                ∧ p.payload = beatBytes (twinPeer s) { src := ownDev s, role := twinRole s, preferred := twinPreferred s,
                                                       round := beatRound s, digest := s.twin.digest })
            ∧ RegsKept [] s u ∧ MemKept s u))
    ∧ (∀ b, twinOn s = true → b.src = twinPeer s → refKey s b.src = none →
        (b.preferred = twinPreferred s → s.twin.conflict = false → Completes (.twinBeat b) s (fun u =>
          twinRole u = 1 ∧ u.twin.conflict = true ∧ u.twin.paired = false ∧ u.twin.misses = 0
            ∧ rdB u Reg.twinStatus 3 = true ∧ rdB u Reg.twinEvent 8 = true ∧ MemKept s u))
        ∧ (b.preferred ≠ twinPreferred s → s.twin.paired = false → s.twin.sentDigest = [(b.round, b.digest)] →
          Completes (.twinBeat b) s (fun u =>
            twinRole u = (if twinPreferred s = true ∧ b.role ≠ 3 then 3 else 1) ∧ u.twin.paired = true
              ∧ u.twin.conflict = false ∧ u.twin.resyncAsked = true ∧ rd u Reg.syncRound = wd (now s / 1024 + 4)
              ∧ u.twin.heard = none ∧ RegsKept [Reg.twinStatus, Reg.syncRound] s u ∧ MemKept s u))
        ∧ (∀ d, b.preferred ≠ twinPreferred s → s.twin.paired = true → s.twin.sentDigest = [(b.round, d)] → d ≠ b.digest →
          twinRole s = 2 → b.role = 3 → Completes (.twinBeat b) s (fun u =>
            twinRole u = 1 ∧ rdB u Reg.twinEvent 6 = true ∧ RegsKept [Reg.twinStatus, Reg.twinEvent] s u ∧ MemKept s u)))
    ∧ ∀ d, twinOn s = true → d = twinPeer s → refKey s d = none →
      (s.twin.misses + 1 < rdF s Reg.beatCtrl 35 32 → Completes (.twinBeatMissed d) s (fun u =>
        u.twin = { s.twin with misses := s.twin.misses + 1 } ∧ RegsKept [] s u ∧ MemKept s u))
      ∧ (s.twin.misses + 1 = rdF s Reg.beatCtrl 35 32 → Completes (.twinBeatMissed d) s (fun u =>
        rdB u Reg.twinEvent 5 = true ∧ rdB u Reg.twinStatus 3 = false ∧ twinRole u = twinRole s
          ∧ u.twin.misses = s.twin.misses + 1 ∧ u.twin.copying = (if twinRole s = 1 then false else s.twin.copying)
          ∧ RegsKept [Reg.twinEvent, Reg.twinStatus] s u ∧ MemKept s u))

namespace Sys2Proof.Machine

/-- A STANDBY unit became ACTIVE at the next round boundary (R421). -/
def TwinPromoted (s u : State) : Prop :=
  twinRole u = 3 ∧ rdB u Reg.twinEvent 0 = true ∧ now u = (now s / 1024 + 1) * 1024 ∧ u.twin.swapAt = none
    ∧ (twinTenant s = none → rdB u Reg.timeCtrl 5 = true ∧ rdB u Reg.timeStatus 2 = true)
    ∧ RegsKept [Reg.twinStatus, Reg.twinEvent, Reg.timeCtrl, Reg.timeStatus] s u ∧ MemKept s u

/-- A unit is DEMOTED (R421). -/
def TwinDemoted (u : State) : Prop :=
  twinRole u = 4 ∧ rdB u Reg.twinEvent 1 = true ∧ u.twin.swapAt = none ∧ u.twin.copying = false
    ∧ rdB u Reg.timeCtrl 5 = false

/-- A command of the pair was refused (R425). -/
def TwinRefused (s u : State) : Prop :=
  rdB u Reg.twinEvent 7 = true ∧ u.twin = s.twin ∧ RegsKept [Reg.twinEvent] s u ∧ MemKept s u

end Sys2Proof.Machine

/-- Roles: promotion at a round boundary, demotion, resynchronisation and reversion, by command and by packet.
The payloads of the twin's own packets and the settling of a preferred unit are the model's reading (notes/assumptions/31.md, 32.md). -/
def Obligations.TwinRoles : Prop :=
  ∀ (s : State) (who : Writer), mayWrite s .installer who = true →
    (twinRole s = 2 → (now s / 1024 + 1) * 1024 < 2 ^ 64 →
      Completes (.promote who) s (TwinPromoted s) ∧ Completes .twinPromote s (TwinPromoted s))
    ∧ (twinRole s ≠ 2 → Completes (.promote who) s (TwinRefused s) ∧ Completes .twinPromote s (TwinRefused s))
    ∧ (twinOn s = true → Completes (.demote who) s TwinDemoted ∧ Completes .twinDemote s TwinDemoted)
    ∧ (twinOn s = false → Completes (.demote who) s (TwinRefused s) ∧ Completes .twinDemote s (TwinRefused s))
    ∧ (twinRole s = 1 → s.twin.paired = true → s.twin.resyncAsked = false → s.twin.copying = false →
        Completes (.resync who) s (fun u =>
          u.twin = { s.twin with resyncAsked := true } ∧ rd u Reg.syncRound = wd (now s / 1024 + 4)
            ∧ RegsKept [Reg.syncRound] s u ∧ MemKept s u))
    ∧ (twinRole s ≠ 1 → Completes (.resync who) s (fun u =>
        rdB u Reg.twinEvent 7 = true ∧ u.twin = s.twin ∧ RegsKept [Reg.twinEvent] s u ∧ MemKept s u))
    ∧ (twinRole s = 3 → Completes .twinRevert s (fun u =>
        u = { s with twin := { s.twin with swapAt := some ((now s / 1024 + 4) * 1024) } }))
    ∧ (twinRole s ≠ 3 → Completes .twinRevert s (fun u => u = s))
    ∧ (∀ n l b, twinRole s = 2 → twinPreferred s = true → holdoff s ≠ 0 → s.twin.misses < rdF s Reg.beatCtrl 35 32 →
        s.twin.swapAt = none → portsTo s (twinPeer s) = n :: l → bondOf s n = some b →
        s.twin.standbySince + holdoff s * 1600000000 < 2 ^ 64 → Completes .twinHoldoffExpiry s (fun u =>
          s.twin.standbySince + holdoff s * 1600000000 ≤ now u
            ∧ u.twin.swapAt = some ((now u / 1024 + 4) * 1024)
            ∧ (∃ p, (bnd u b).queue = (bnd s b).queue ++ [(32, p)] ∧ p.opcode = 0x76) ∧ RegsKept [] s u ∧ MemKept s u))
    ∧ (∀ t, s.twin.swapAt = some t → t < 2 ^ 64 → Completes .twinRoleSwap s (fun u =>
        u.twin.swapAt = none ∧ t ≤ now u
          ∧ (twinRole s = 2 → twinRole u = 3 ∧ rdB u Reg.twinEvent 2 = true)
          ∧ (twinRole s = 3 → twinRole u = 2 ∧ rdB u Reg.twinEvent 2 = true ∧ u.twin.standbySince = now u)
          ∧ MemKept s u))
    ∧ (∀ r, s.twin.copying = false → s.twin.paired = true → r = max (rdF s Reg.syncRound 53 0 * 1024) ((now s + 1023) / 1024 * 1024) →
        r < 2 ^ 64 →
        (twinRole s = 3 → twinJobRuns s = false → Completes .twinResyncStart s (fun u =>
          u.twin.copying = true ∧ u.twin.holdJobs = true ∧ now u = r
            ∧ (∃ l, u.out = s.out ++ l ++ [.twinState (twinPeer s) s.twin.txSeq s.twin.windows]
                ∧ l.length = ((List.range 16).filter (fun i => rdB s (Reg.syncRegion i 0) 63)).length)
            ∧ RegsKept [] s u ∧ MemKept s u))
        ∧ (twinRole s = 1 → s.twin.resyncAsked = true → Completes .twinResyncStart s (fun u =>
          u.twin = { s.twin with copying := true, resyncAsked := false } ∧ now u = r ∧ u.out = s.out ∧ RegsKept [] s u
            ∧ MemKept s u)))
    ∧ (s.twin.copying = true →
      (∀ c, Completes (.resyncDone false c) s (fun u =>
        rdB u Reg.twinEvent 4 = true ∧ u.twin.copying = false ∧ u.twin.holdJobs = false ∧ twinRole u = twinRole s
          ∧ RegsKept [Reg.twinEvent] s u ∧ MemKept s u))
      ∧ (∀ a bs q w, twinRole s = 1 → (∀ v ∈ unitsOf a bs.length, eccOf s v = .clean) →
          Completes (.resyncDone true { mem := [(a, bs)], seqs := q, windows := w }) s (fun u =>
            twinRole u = 2 ∧ rdB u Reg.twinEvent 3 = true ∧ u.twin.copying = false ∧ u.twin.standbySince = now s
              ∧ memBytes u a bs.length = bs ∧ MemKeptBut a bs.length s u
              ∧ RegsKept [Reg.twinEvent, Reg.twinStatus] s u)))

-- Bring-up, security, firmware (R427–R457, R468)

namespace Sys2Proof.Machine

/-- A bring-up step ended with a state and a result (R429, R453). -/
def StepEnded (c st result : Nat) (s u : State) : Prop :=
  rdF u Reg.bringupStatus 3 0 = c ∧ rdF u Reg.bringupStatus 7 4 = st ∧ rdF u Reg.bringupStatus 15 8 = result
    ∧ reached u = (if st = 2 then max c (reached s) else reached s) ∧ u.boot.running = 0 ∧ rdB u Reg.bringupEvent 0 = true

/-- A bring-up step runs (R429). -/
def StepRuns (c : Nat) (s u : State) : Prop :=
  u.boot.running = c ∧ u.boot.stepFrom = now s ∧ rdF u Reg.bringupStatus 3 0 = c ∧ rdF u Reg.bringupStatus 7 4 = 1
    ∧ reached u = reached s

/-- A bring-up step runs, and nothing else has changed yet (R429). -/
def StepBegun (c : Nat) (s u : State) : Prop := StepRuns c s u ∧ RegsKept [Reg.bringupStatus] s u ∧ MemKept s u

/-- A write of STEP was refused with a reason (R429). -/
def StepRefused (why : Nat) (s u : State) : Prop :=
  rdF u Reg.bringupStatus 7 4 = 4 ∧ rdF u Reg.bringupStatus 15 8 = why ∧ u.boot.running = s.boot.running
    ∧ MemKept s u

/-- A running step's end has come in time (R429, R430, R433). -/
abbrev EndsInTime (us : Nat) (s : State) : Prop :=
  s.pwr.tripped = false ∧ s.boot.running ≠ 0 ∧ s.boot.stepFrom + us * 1600 < 2 ^ 64 ∧ now s ≤ stepLimit s
    ∧ s.boot.stepFrom + us * 1600 ≤ stepLimit s

end Sys2Proof.Machine

/-- The cellar boots its slot, and each bring-up step starts in its order or is refused with its reason.
What the shipped image and fuses hold is the model's choice (notes/assumptions/22.md, 37.md). -/
def Obligations.CellarAndStepStarts : Prop :=
  ∀ (s : State) (who : Writer),
    (cellarState s = 0 → s.boot.cellarStarted = false →
      (imageFine s (slotOf s (bootB s)) = true → Completes .cellarBoot s (fun u =>
        u.boot.cellarStarted = true ∧ u.boot.fwFrom = now s ∧ domainIsOn u 60 = true ∧ cellarState u = 0 ∧ MemKept s u))
      ∧ (imageFine s (slotOf s (bootB s)) = false → Completes .cellarBoot s (fun u =>
        cellarState u = 2 ∧ slotState u (bootB s) = 3 ∧ u.boot.cellarStarted = false ∧ MemKept s u)))
    ∧ (cellarState s = 0 → s.boot.cellarStarted = true →
      (s.boot.fwFrom + 1600000000 < 2 ^ 64 → Completes .cellarBootTimeout s (fun u =>
        cellarState u = 2 ∧ slotState u (bootB s) = 3 ∧ s.boot.fwFrom + 1600000000 ≤ now u ∧ MemKept s u))
      ∧ Completes .cellarRunning s (fun u => cellarState u = 1 ∧ slotState u (bootB s) = 2 ∧ u.boot.cellarStarted = false
          ∧ RegsKept [Reg.heartbeat, Reg.fwStatus] s u ∧ MemKept s u))
    ∧ (mayWrite s .operator who = true → s.boot.running = 0 → cellarState s ≠ 2 →
      (reached s = 0 → Completes (.fuseLoad who) s (StepBegun 1 s))
      ∧ (reached s = 1 → Completes (.domainUp who) s (StepBegun 2 s))
      ∧ (reached s = 2 → Completes (.selfTest who) s (StepBegun 3 s))
      ∧ (reached s = 3 → Completes (.sramClear who) s (StepBegun 4 s))
      ∧ (reached s = 4 → Completes (.hbmTrain who) s (StepBegun 5 s))
      ∧ (reached s = 5 ∨ 9 ≤ reached s → s.boot.routeWritten = true →
          Completes (.linkTrain who) s (fun u => StepRuns 6 s u ∧ MemKept s u))
      ∧ (reached s = 5 ∨ 9 ≤ reached s → s.boot.routeWritten = false →
          Completes (.linkTrain who) s (fun u => StepEnded 6 3 0x12 s u ∧ MemKept s u))
      ∧ (reached s = 6 ∨ 9 ≤ reached s → Completes (.linkQualify who) s (StepBegun 7 s))
      ∧ (reached s = 7 ∨ 9 ≤ reached s → isMaster s = true →
          Completes (.timeSync who) s (fun u => StepRuns 8 s u ∧ timeState u = 2 ∧ MemKept s u))
      ∧ (reached s = 7 ∨ 9 ≤ reached s → isMaster s = false → parentPort s = none →
          Completes (.timeSync who) s (fun u => StepEnded 8 3 0x13 s u ∧ MemKept s u))
      ∧ (reached s = 7 ∨ 9 ≤ reached s → isMaster s = false → parentPort s ≠ none →
          Completes (.timeSync who) s (fun u => StepRuns 8 s u ∧ u.tim.syncing = true ∧ MemKept s u))
      ∧ (reached s = 8 → Completes (.ready who) s (StepBegun 9 s)))
    ∧ (∀ c k, (c, k) ∈ [(Instr.fuseLoad who, 1), (.domainUp who, 2), (.selfTest who, 3), (.sramClear who, 4),
                        (.hbmTrain who, 5), (.linkTrain who, 6), (.linkQualify who, 7), (.timeSync who, 8), (.ready who, 9)] →
      (mayWrite s .operator who = true → s.boot.running ≠ 0 → Completes c s (StepRefused 0x14 s))
      ∧ (mayWrite s .operator who = true → s.boot.running = 0 →
          (reached s < 9 ∧ k ≠ reached s + 1) ∨ (9 ≤ reached s ∧ k ≠ 6 ∧ k ≠ 7 ∧ k ≠ 8) →
          Completes c s (StepRefused 0x10 s))
      ∧ (mayWrite s .operator who = true → s.boot.running = 0 → cellarState s = 2 →
          (reached s < 9 ∧ k = reached s + 1) ∨ (9 ≤ reached s ∧ (k = 6 ∨ k = 7 ∨ k = 8)) →
          Completes c s (StepRefused 0x15 s))
      ∧ ∀ p, who = .path p → mayWrite s .operator who = false → Completes c s (StepRefused 0x11 s))
    ∧ ∀ codes, codes.length = 4 + s.boot.ioDies → Completes (.boundaryScanInstruction codes) s (fun u =>
        u.boot.tap = codes ∧ tapNow u = codes.map (tapEffect s) ∧ RegsKept [] s u ∧ MemKept s u
          ∧ ∀ c, c ∈ [(0 : BitVec 8), 4, 5, 8, 9] → 1 < reached s → tapEffect s c = 0xFF)

/-- How each bring-up step ends, in time with what it found, or at its bound.
The state a partition is in before its step is the model's choice (notes/assumptions/5.md, 37.md). -/
def Obligations.BringUpStepsEnd : Prop :=
  ∀ (s : State), s.boot.ioDies ≤ 4 → s.boot.stackCount ≤ 4 →
    (∀ bd bt mesh rates us, EndsInTime us s →
      (s.boot.running = 1 → s.boot.fuseBad = false → Completes (.stepDone bd bt mesh rates us) s (fun u =>
        StepEnded 1 2 (if (validLicence s).isSome then 0 else 2) s u ∧ rd u Reg.serial = s.boot.serial
          ∧ rd u Reg.capability = capabilityOf s ∧ rdF u Reg.powerCap 47 32 = tdpOf s ∧ MemKept s u))
      ∧ (s.boot.running = 1 → s.boot.fuseBad = true → Completes (.stepDone bd bt mesh rates us) s (fun u =>
        StepEnded 1 3 0x20 s u ∧ MemKept s u))
      ∧ (s.boot.running = 2 → presentParts s ≠ [] → bd = [] → Completes (.stepDone bd bt mesh rates us) s (fun u =>
        StepEnded 2 2 0 s u ∧ ∀ p ∈ presentParts s, ∀ d ∈ partDomains p, domainExists s d = true → domainIsOn u d = true))
      ∧ (s.boot.running = 3 → presentParts s ≠ [] → bt = [] → mesh = [] → (∀ p, p < 4 → draffTiles s p = []) →
          Completes (.stepDone bd bt mesh rates us) s (fun u =>
            StepEnded 3 2 0 s u ∧ (∀ p ∈ presentParts s, ∀ t, t < 128 → tileState u (128 * p + t) = 0) ∧ MemKept s u))
      ∧ (s.boot.running = 4 → Completes (.stepDone bd bt mesh rates us) s (fun u =>
        StepEnded 4 2 0 s u
          ∧ ∀ p ∈ presentParts s, ∀ t k, t < 128 → k < 0x200000 → memByte u (sramAddr (128 * p + t) k) = 0))
      ∧ (s.boot.running = 5 → presentParts s ≠ [] → (∀ i, i < 16 → nth rates i = 3) →
          Completes (.stepDone bd bt mesh rates us) s (fun u =>
            StepEnded 5 2 0 s u ∧ u.boot.dmaRun = true ∧ MemKept s u
              ∧ ∀ p ∈ presentParts s, fenceState u p = 0 ∧ ∀ i, i < s.boot.stackCount → stackState u p i = 3))
      ∧ (s.boot.running = 6 → (∀ n ∈ stepPorts s, portState s n = 3 ∨ portState s n = 4) →
          Completes (.stepDone bd bt mesh rates us) s (fun u =>
            StepEnded 6 2 0 s u ∧ u.boot.ports = stepPorts s ∧ MemKept s u))
      ∧ (s.boot.running = 7 → (∀ n ∈ s.boot.ports, portClass s n = 0 ∧ portState s n ≠ 3) →
          Completes (.stepDone bd bt mesh rates us) s (fun u =>
            StepEnded 7 2 0 s u
              ∧ rdF u Reg.portResult 31 0 = maskOf ((stepPorts s).filter (fun n => portClass s n == 0)) ∧ MemKept s u))
      ∧ (s.boot.running = 8 → timeState s = 2 → s.tim.syncing = false → Completes (.stepDone bd bt mesh rates us) s (fun u =>
        StepEnded 8 2 0 s u ∧ MemKept s u))
      ∧ (s.boot.running = 9 → timeState s = 2 → (∃ p, p < 4 ∧ fenceState s p = 0) →
          Completes (.stepDone bd bt mesh rates us) s (fun u =>
            StepEnded 9 2 0 s u ∧ u.boot.jobFetch = true ∧ u.flt.smdOn = true ∧ presetFrozen u = true ∧ MemKept s u)))
    ∧ (∀ bd bt mesh rates us, s.pwr.tripped = false → s.boot.running ≠ 0 → s.boot.running < 10 →
        stepLimit s < s.boot.stepFrom + us * 1600 → s.boot.stepFrom + us * 1600 < 2 ^ 64 →
        Completes (.stepDone bd bt mesh rates us) s (fun u => StepEnded s.boot.running 3 0x23 s u ∧ MemKept s u))
    ∧ (s.boot.running ≠ 0 → s.boot.running < 10 → stepLimit s < 2 ^ 64 → Completes .stepTimeout s (fun u =>
        StepEnded s.boot.running 3 0x23 s u ∧ stepLimit s ≤ now u ∧ MemKept s u))

/-- Sessions: a challenge, a submission and its five outcomes, the close, the expiry and the lock of a path; what the
maker and the installer write: licences, keys, SVN_MIN, draff entries.
Signatures and digests are opaque, a challenge is a free value (notes/assumptions/9.md, 4.md). -/
def Obligations.SessionsAndKeys : Prop :=
  ∀ (s : State) (p : Path),
    Completes (.getChallenge p) s (fun u =>
        (sess u p).challenge = (List.range 6).map (fun i => Config.freeWord (s.free + i))
          ∧ (sess u p).challengeAt = some (now s) ∧ (∀ i, i < 6 → rd u (Reg.authChallenge i) = Config.freeWord (s.free + i))
          ∧ u.free = s.free + 6 ∧ (∀ q, q ≠ p → sess u q = sess s q) ∧ MemKept s u)
    ∧ (∀ role slot r, role < 4 → slot < 16 → r = authResult s p role slot →
      (r = 0 → Completes (.submit p role slot) s (fun u =>
        roleOf u p = role ∧ rdF u Reg.authStatus 7 4 = 0 ∧ (sess u p).openedAt = now s
          ∧ (sess u p).keyId = fld (keyWord s slot 0) 7 0 ∧ (sess u p).challengeAt = none
          ∧ (∀ q, q ≠ p → roleOf u q = roleOf s q) ∧ RegsKept [Reg.authStatus] s u ∧ MemKept s u))
      ∧ (1 ≤ r → r ≤ 4 → Completes (.submit p role slot) s (fun u =>
        roleOf u p = roleOf s p ∧ rdF u Reg.authStatus 7 4 = r ∧ (sess u p).challengeAt = none
          ∧ u.boot.auditNext = s.boot.auditNext + 1 ∧ now s ∈ (sess u p).failures
          ∧ (8 ≤ (sess u p).failures.length → (sess u p).lockedUntil = some (now s + 96000000000))
          ∧ RegsKept [Reg.authStatus] s u ∧ MemKept s u))
      ∧ (r = 5 → Completes (.submit p role slot) s (fun u =>
        roleOf u p = roleOf s p ∧ rdF u Reg.authStatus 7 4 = 5 ∧ sess u p = sess s p
          ∧ RegsKept [Reg.authStatus] s u ∧ MemKept s u)))
    ∧ Completes (.close p) s (fun u => roleOf u p = 0 ∧ (∀ q, q ≠ p → roleOf u q = roleOf s q)
        ∧ RegsKept [Reg.authStatus] s u ∧ MemKept s u)
    ∧ (roleOf s p ≠ 0 → (sess s p).openedAt + 5760000000000 < 2 ^ 64 → Completes (.sessionExpiry p) s (fun u =>
        roleOf u p = 0 ∧ (sess s p).openedAt + 5760000000000 ≤ now u ∧ u.boot.auditNext = s.boot.auditNext + 1
          ∧ RegsKept [Reg.authStatus] s u ∧ MemKept s u))
    ∧ (∀ t, (sess s p).lockedUntil = some t → t < 2 ^ 64 → Completes (.authLockoutExpiry p) s (fun u =>
        (sess u p).lockedUntil = none ∧ (sess u p).failures = [] ∧ t ≤ now u ∧ rdF u Reg.authStatus 3 0 = 0
          ∧ RegsKept [Reg.authStatus] s u ∧ MemKept s u))
    ∧ (mayWrite s .installer (.path p) = true → ∀ l, l = (List.range 16).map (fun i => rd s (Reg.licStage i)) →
      (licenceResult s l = 0 → (∀ o, s.boot.licence = some o → fld (o.getD 0 0) 31 0 < fld (l.getD 0 0) 31 0) →
        Completes (.install (.path p)) s (fun u =>
          u.boot.licence = some l ∧ rdF u Reg.licStatus 63 32 = fld (l.getD 0 0) 31 0 ∧ rdB u Reg.licStatus 0 = true
            ∧ rdF u Reg.licStatus 15 8 = 0 ∧ RegsKept [Reg.licStatus] s u ∧ MemKept s u))
      ∧ (licenceResult s l ≠ 0 → Completes (.install (.path p)) s (fun u =>
          u.boot.licence = s.boot.licence ∧ rdF u Reg.licStatus 15 8 = licenceResult s l ∧ rdB u Reg.licStatus 1 = true
            ∧ RegsKept [Reg.licStatus] s u ∧ MemKept s u)))
    ∧ (∀ k w v, 2 ≤ k → k < 16 → w < 13 → mayWrite s (if k < 6 then .maker else .installer) (.path p) = true →
      (1 ≤ w → bit (rd s (Reg.key k 0)) 63 = false → Completes (.keyWrite (.path p) k w v) s (fun u =>
        rd u (Reg.key k w) = v ∧ RegsKept [Reg.key k w] s u ∧ MemKept s u))
      ∧ (1 ≤ w → bit (rd s (Reg.key k 0)) 63 = true → Completes (.keyWrite (.path p) k w v) s (fun u =>
        RegsKept [] s u ∧ u.boot.auditNext = s.boot.auditNext + 1 ∧ MemKept s u))
      ∧ (w = 0 → bit (rd s (Reg.key k 0)) 63 = true → bit v 63 = false → Completes (.keyWrite (.path p) k w v) s (fun u =>
        bit (rd u (Reg.key k 0)) 63 = false ∧ RegsKept [Reg.key k 0] s u ∧ MemKept s u)))
    ∧ (mayWrite s .maker (.path p) = true →
      (∀ v, Completes (.svnMinWrite (.path p) v) s (fun u =>
        rdF u Reg.svnMin 15 0 = max (rdF s Reg.svnMin 15 0) (fld v 15 0) ∧ RegsKept [Reg.svnMin] s u ∧ MemKept s u))
      ∧ (∀ i, i = rdF s Reg.draffIndex 7 0 → fld (mget erased s.boot.draff i).1 63 60 ≠ 15 →
          Completes (.void (.path p)) s (fun u =>
            mget erased u.boot.draff i = (setFld (mget erased s.boot.draff i).1 63 60 0, (mget erased s.boot.draff i).2)
              ∧ (∀ j, j ≠ i → mget erased u.boot.draff j = mget erased s.boot.draff j) ∧ RegsKept [] s u ∧ MemKept s u)))

/-- Firmware update: START, the guards, the image as chunks from the parent and to the children, its verification,
activation, and the recovery through the other slot.
Digests and signatures are opaque (notes/assumptions/9.md); readings: 37.md. -/
def Obligations.FirmwareUpdate : Prop :=
  ∀ (s : State),
    (∀ who, mayWrite s .installer who = true →
      (fwBusy s = false → fwRefusal s = 0 → cellarState s ≠ 2 → Completes (.start who) s (fun u =>
        fwState u = 1 ∧ slotState u (fwSlot s) = 0 ∧ u.boot.fwNext = 0 ∧ rdF u Reg.fwStatus 63 32 = 0
          ∧ u.out = s.out ++ [.hostRead s.host.nextId (rd s Reg.fwSource).toNat 256]
          ∧ RegsKept [Reg.fwStatus, Reg.childFail] s u ∧ MemKept s u))
      ∧ (fwBusy s = false → fwRefusal s ≠ 0 → Completes (.start who) s (fun u =>
        rdF u Reg.fwStatus 11 8 = fwRefusal s ∧ rdB u Reg.fwEvent 2 = true ∧ fwState u = fwState s
          ∧ RegsKept [Reg.fwStatus, Reg.fwEvent] s u ∧ MemKept s u))
      ∧ (fwRefusal s = 0 → fwBusy s = false → cellarState s ≠ 2 → slotState s (!bootB s) = 1 → Completes (.activate who) s
          (fun u => bootB u = !bootB s ∧ RegsKept [Reg.fwStatus] s u ∧ MemKept s u))
      ∧ (fwRefusal s = 0 → fwBusy s = false → cellarState s ≠ 2 → slotState s (!bootB s) ≠ 1 → Completes (.activate who) s
          (fun u => bootB u = bootB s ∧ rdF u Reg.fwStatus 11 8 = 6 ∧ rdB u Reg.fwEvent 2 = true ∧ MemKept s u))
      ∧ (fwBusy s = true → Completes (.fwupdAbort who) s (fun u =>
        fwState u = 0 ∧ slotState u (fwSlot s) = 0 ∧ slotOf u (fwSlot s) = {} ∧ RegsKept [Reg.fwStatus] s u ∧ MemKept s u))
      ∧ (fwBusy s = false → Completes (.fwupdAbort who) s (fun u =>
        rdB u Reg.fwEvent 2 = true ∧ RegsKept [Reg.fwEvent] s u ∧ MemKept s u))
      ∧ (cellarState s = 2 → slotState s (!bootB s) = 2 → imageFine s (slotOf s (!bootB s)) = true →
          Completes (.bootOther who) s (fun u =>
            bootB u = !bootB s ∧ cellarState u = 0 ∧ u.boot.cellarStarted = true ∧ MemKept s u))
      ∧ (cellarState s ≠ 2 → Completes (.bootOther who) s (fun u =>
        rdF u Reg.fwStatus 11 8 = 5 ∧ rdB u Reg.fwEvent 2 = true ∧ RegsKept [Reg.fwStatus, Reg.fwEvent] s u ∧ MemKept s u))
      ∧ (∀ v, fwBusy s = false → Completes (.fwupdShelfWrite who v) s (fun u =>
        rdF u Reg.fwShelf 1 0 = fld v 1 0 ∧ RegsKept [Reg.fwShelf, Reg.auditHead] s u ∧ MemKept s u))
      ∧ (∀ v, fwBusy s = true → fld v 1 0 ≠ 0 → (∀ t, t < 512 → tileState s t = 0) → Completes (.fwupdShelfWrite who v) s (fun u =>
        fwState u = 4 ∧ rdF u Reg.fwStatus 11 8 = 2 ∧ rdB u Reg.fwEvent 1 = true ∧ MemKept s u)))
    ∧ (∀ n (p : Packet), p.opcode = 0x77 → p.payload.length = 256 → rdB s Reg.fwTree 63 = true → rdF s Reg.fwTree 36 32 = n →
      fwRefusal s = 0 → fwChildren s = [] →
      (fwBusy s = false → p.addr = 0 → headerFine s (bytesWords 32 p.payload) = true → Completes (.fwChunk n p) s (fun u =>
          u.boot.fwNext = 1 ∧ mget [] (slotOf u (fwSlot s)).chunks 0 = p.payload ∧ rdF u Reg.fwStatus 63 32 = 256
            ∧ slotState u (fwSlot s) = 0 ∧ MemKept s u))
      ∧ (∀ k, fwState s = 1 → k = s.boot.fwNext → 0 < k → k < 2 ^ 23 → p.addr = 256 * k → Completes (.fwChunk n p) s (fun u =>
          u.boot.fwNext = k + 1 ∧ mget [] (slotOf u (fwSlot s)).chunks k = p.payload
            ∧ rdF u Reg.fwStatus 63 32 = 256 * (k + 1)
            ∧ fwState u = (if lastChunk (slotOf s (fwSlot s)) k = true then 2 else 1) ∧ MemKept s u)))
    ∧ (∀ n (p : Packet) w, p.opcode = 0x78 → (fwChildren s).contains n = true → n < 32 → w = leWord (p.payload.take 8) →
      (fld w 47 32 ≠ 0 → Completes (.fwAck n p) s (fun u =>
        rdB u Reg.childFail n = true ∧ rdB u Reg.fwEvent 3 = true ∧ RegsKept [Reg.childFail, Reg.fwEvent] s u ∧ MemKept s u))
      ∧ (fld w 47 32 = 0 → Completes (.fwAck n p) s (fun u =>
        mget 0 u.boot.fwAcked n = fld w 31 0 ∧ mget 0 s.boot.fwSent n ≤ mget 0 u.boot.fwSent n ∧ RegsKept [] s u
          ∧ MemKept s u)))
    ∧ (∀ n, n < 32 → (fwChildren s).contains n = true → Completes (.fwChildSilent n) s (fun u =>
        rdB u Reg.childFail n = true ∧ rdB u Reg.fwEvent 3 = true
          ∧ (mget 0 s.boot.fwHeard n + 1600000000 < 2 ^ 64 → mget 0 s.boot.fwHeard n + 1600000000 ≤ now u)
          ∧ RegsKept [Reg.childFail, Reg.fwEvent] s u ∧ MemKept s u))
    ∧ (fwState s = 1 → Completes .fwParentSilent s (fun u =>
        fwState u = 4 ∧ rdF u Reg.fwStatus 11 8 = 7 ∧ rdB u Reg.fwEvent 1 = true ∧ slotState u (fwSlot s) = 0
          ∧ (s.boot.fwChunkAt + 16000000000 < 2 ^ 64 → s.boot.fwChunkAt + 16000000000 ≤ now u)
          ∧ RegsKept [Reg.fwStatus, Reg.fwEvent] s u ∧ MemKept s u))
    ∧ (fwState s = 2 → fwRefusal s = 0 →
      (imageFine s (slotOf s (fwSlot s)) = true → Completes .fwVerifyDone s (fun u =>
        fwState u = 3 ∧ slotState u (fwSlot s) = 1 ∧ rdB u Reg.fwEvent 0 = true
          ∧ RegsKept [Reg.fwStatus, Reg.fwEvent] s u ∧ MemKept s u))
      ∧ (imageFine s (slotOf s (fwSlot s)) = false → Completes .fwVerifyDone s (fun u =>
        fwState u = 4 ∧ slotState u (fwSlot s) = 0 ∧ rdB u Reg.fwEvent 1 = true
          ∧ RegsKept [Reg.fwStatus, Reg.fwEvent] s u ∧ MemKept s u)))

-- Memory

/-- A step that runs an instruction of a tile's own units (scalar, branch, local memory, matrix, vector) keeps memory and
its check bits in their canonical form, from every state that has it. -/
def Obligations.OwnInstructionsKeepMemoryCanonical : Prop :=
  ∀ (c : Instr) (rest : List Instr) (w : Word) (s u : State), encodeTile c = some w →
    fld w 63 56 < 0x40 ∨ (0x50 ≤ fld w 63 56 ∧ fld w 63 56 < 0x70) → s.memWf = true →
    step { s with pending := c :: rest } = .next u → u.memWf = true
end

