-- ==== Sys2Proof/Laws/State.lean ====
section
/-! SUPPORT. The fields of the state, and what reads them, after each update of the shared operations. -/

namespace Sys2Proof.Machine

variable (s : State)

-- wrReg
@[simp] theorem wrReg_now (a : Nat) (v : Word) : (wrReg a v s).now = s.now := rfl
@[simp] theorem wrReg_mem (a : Nat) (v : Word) : (wrReg a v s).mem = s.mem := rfl
@[simp] theorem wrReg_ecc (a : Nat) (v : Word) : (wrReg a v s).ecc = s.ecc := rfl
@[simp] theorem wrReg_tiles (a : Nat) (v : Word) : (wrReg a v s).tiles = s.tiles := rfl
@[simp] theorem wrReg_banks (a : Nat) (v : Word) : (wrReg a v s).banks = s.banks := rfl
@[simp] theorem wrReg_cpl (a : Nat) (v : Word) : (wrReg a v s).cpl = s.cpl := rfl
@[simp] theorem wrReg_rma (a : Nat) (v : Word) : (wrReg a v s).rma = s.rma := rfl
@[simp] theorem wrReg_hbm (a : Nat) (v : Word) : (wrReg a v s).hbm = s.hbm := rfl
@[simp] theorem wrReg_ports (a : Nat) (v : Word) : (wrReg a v s).ports = s.ports := rfl
@[simp] theorem wrReg_net (a : Nat) (v : Word) : (wrReg a v s).net = s.net := rfl
@[simp] theorem wrReg_tim (a : Nat) (v : Word) : (wrReg a v s).tim = s.tim := rfl
@[simp] theorem wrReg_coll (a : Nat) (v : Word) : (wrReg a v s).coll = s.coll := rfl
@[simp] theorem wrReg_cvu (a : Nat) (v : Word) : (wrReg a v s).cvu = s.cvu := rfl
@[simp] theorem wrReg_host (a : Nat) (v : Word) : (wrReg a v s).host = s.host := rfl
@[simp] theorem wrReg_pwr (a : Nat) (v : Word) : (wrReg a v s).pwr = s.pwr := rfl
@[simp] theorem wrReg_flt (a : Nat) (v : Word) : (wrReg a v s).flt = s.flt := rfl
@[simp] theorem wrReg_twin (a : Nat) (v : Word) : (wrReg a v s).twin = s.twin := rfl
@[simp] theorem wrReg_boot (a : Nat) (v : Word) : (wrReg a v s).boot = s.boot := rfl
@[simp] theorem wrReg_out (a : Nat) (v : Word) : (wrReg a v s).out = s.out := rfl
@[simp] theorem wrReg_free (a : Nat) (v : Word) : (wrReg a v s).free = s.free := rfl
@[simp] theorem wrReg_pending (a : Nat) (v : Word) : (wrReg a v s).pending = s.pending := rfl
@[simp] theorem tl_wrReg (a : Nat) (v : Word) (t' : Nat) : tl (wrReg a v s) t' = tl s t' := rfl
@[simp] theorem cplOf_wrReg (a : Nat) (v : Word) (k' : Nat) : cplOf (wrReg a v s) k' = cplOf s k' := rfl
@[simp] theorem prt_wrReg (a : Nat) (v : Word) (n' : Nat) : prt (wrReg a v s) n' = prt s n' := rfl
@[simp] theorem stk_wrReg (a : Nat) (v : Word) (p' i' : Nat) : stk (wrReg a v s) p' i' = stk s p' i' := rfl
@[simp] theorem hq_wrReg (a : Nat) (v : Word) (q' : Nat) : hq (wrReg a v s) q' = hq s q' := rfl
@[simp] theorem bnd_wrReg (a : Nat) (v : Word) (b' : Nat) : bnd (wrReg a v s) b' = bnd s b' := rfl
@[simp] theorem memByte_wrReg (a : Nat) (v : Word) (a' : Nat) : memByte (wrReg a v s) a' = memByte s a' := rfl
@[simp] theorem eccOf_wrReg (a : Nat) (v : Word) (u' : Nat) : eccOf (wrReg a v s) u' = eccOf s u' := rfl

-- wrF
@[simp] theorem wrF_now (a hi lo v : Nat) : (wrF a hi lo v s).now = s.now := rfl
@[simp] theorem wrF_mem (a hi lo v : Nat) : (wrF a hi lo v s).mem = s.mem := rfl
@[simp] theorem wrF_ecc (a hi lo v : Nat) : (wrF a hi lo v s).ecc = s.ecc := rfl
@[simp] theorem wrF_tiles (a hi lo v : Nat) : (wrF a hi lo v s).tiles = s.tiles := rfl
@[simp] theorem wrF_banks (a hi lo v : Nat) : (wrF a hi lo v s).banks = s.banks := rfl
@[simp] theorem wrF_cpl (a hi lo v : Nat) : (wrF a hi lo v s).cpl = s.cpl := rfl
@[simp] theorem wrF_rma (a hi lo v : Nat) : (wrF a hi lo v s).rma = s.rma := rfl
@[simp] theorem wrF_hbm (a hi lo v : Nat) : (wrF a hi lo v s).hbm = s.hbm := rfl
@[simp] theorem wrF_ports (a hi lo v : Nat) : (wrF a hi lo v s).ports = s.ports := rfl
@[simp] theorem wrF_net (a hi lo v : Nat) : (wrF a hi lo v s).net = s.net := rfl
@[simp] theorem wrF_tim (a hi lo v : Nat) : (wrF a hi lo v s).tim = s.tim := rfl
@[simp] theorem wrF_coll (a hi lo v : Nat) : (wrF a hi lo v s).coll = s.coll := rfl
@[simp] theorem wrF_cvu (a hi lo v : Nat) : (wrF a hi lo v s).cvu = s.cvu := rfl
@[simp] theorem wrF_host (a hi lo v : Nat) : (wrF a hi lo v s).host = s.host := rfl
@[simp] theorem wrF_pwr (a hi lo v : Nat) : (wrF a hi lo v s).pwr = s.pwr := rfl
@[simp] theorem wrF_flt (a hi lo v : Nat) : (wrF a hi lo v s).flt = s.flt := rfl
@[simp] theorem wrF_twin (a hi lo v : Nat) : (wrF a hi lo v s).twin = s.twin := rfl
@[simp] theorem wrF_boot (a hi lo v : Nat) : (wrF a hi lo v s).boot = s.boot := rfl
@[simp] theorem wrF_out (a hi lo v : Nat) : (wrF a hi lo v s).out = s.out := rfl
@[simp] theorem wrF_free (a hi lo v : Nat) : (wrF a hi lo v s).free = s.free := rfl
@[simp] theorem wrF_pending (a hi lo v : Nat) : (wrF a hi lo v s).pending = s.pending := rfl
@[simp] theorem tl_wrF (a hi lo v : Nat) (t' : Nat) : tl (wrF a hi lo v s) t' = tl s t' := rfl
@[simp] theorem cplOf_wrF (a hi lo v : Nat) (k' : Nat) : cplOf (wrF a hi lo v s) k' = cplOf s k' := rfl
@[simp] theorem prt_wrF (a hi lo v : Nat) (n' : Nat) : prt (wrF a hi lo v s) n' = prt s n' := rfl
@[simp] theorem stk_wrF (a hi lo v : Nat) (p' i' : Nat) : stk (wrF a hi lo v s) p' i' = stk s p' i' := rfl
@[simp] theorem hq_wrF (a hi lo v : Nat) (q' : Nat) : hq (wrF a hi lo v s) q' = hq s q' := rfl
@[simp] theorem bnd_wrF (a hi lo v : Nat) (b' : Nat) : bnd (wrF a hi lo v s) b' = bnd s b' := rfl
@[simp] theorem memByte_wrF (a hi lo v : Nat) (a' : Nat) : memByte (wrF a hi lo v s) a' = memByte s a' := rfl
@[simp] theorem eccOf_wrF (a hi lo v : Nat) (u' : Nat) : eccOf (wrF a hi lo v s) u' = eccOf s u' := rfl

-- wrB
@[simp] theorem wrB_now (a i : Nat) (b : Bool) : (wrB a i b s).now = s.now := rfl
@[simp] theorem wrB_mem (a i : Nat) (b : Bool) : (wrB a i b s).mem = s.mem := rfl
@[simp] theorem wrB_ecc (a i : Nat) (b : Bool) : (wrB a i b s).ecc = s.ecc := rfl
@[simp] theorem wrB_tiles (a i : Nat) (b : Bool) : (wrB a i b s).tiles = s.tiles := rfl
@[simp] theorem wrB_banks (a i : Nat) (b : Bool) : (wrB a i b s).banks = s.banks := rfl
@[simp] theorem wrB_cpl (a i : Nat) (b : Bool) : (wrB a i b s).cpl = s.cpl := rfl
@[simp] theorem wrB_rma (a i : Nat) (b : Bool) : (wrB a i b s).rma = s.rma := rfl
@[simp] theorem wrB_hbm (a i : Nat) (b : Bool) : (wrB a i b s).hbm = s.hbm := rfl
@[simp] theorem wrB_ports (a i : Nat) (b : Bool) : (wrB a i b s).ports = s.ports := rfl
@[simp] theorem wrB_net (a i : Nat) (b : Bool) : (wrB a i b s).net = s.net := rfl
@[simp] theorem wrB_tim (a i : Nat) (b : Bool) : (wrB a i b s).tim = s.tim := rfl
@[simp] theorem wrB_coll (a i : Nat) (b : Bool) : (wrB a i b s).coll = s.coll := rfl
@[simp] theorem wrB_cvu (a i : Nat) (b : Bool) : (wrB a i b s).cvu = s.cvu := rfl
@[simp] theorem wrB_host (a i : Nat) (b : Bool) : (wrB a i b s).host = s.host := rfl
@[simp] theorem wrB_pwr (a i : Nat) (b : Bool) : (wrB a i b s).pwr = s.pwr := rfl
@[simp] theorem wrB_flt (a i : Nat) (b : Bool) : (wrB a i b s).flt = s.flt := rfl
@[simp] theorem wrB_twin (a i : Nat) (b : Bool) : (wrB a i b s).twin = s.twin := rfl
@[simp] theorem wrB_boot (a i : Nat) (b : Bool) : (wrB a i b s).boot = s.boot := rfl
@[simp] theorem wrB_out (a i : Nat) (b : Bool) : (wrB a i b s).out = s.out := rfl
@[simp] theorem wrB_free (a i : Nat) (b : Bool) : (wrB a i b s).free = s.free := rfl
@[simp] theorem wrB_pending (a i : Nat) (b : Bool) : (wrB a i b s).pending = s.pending := rfl
@[simp] theorem tl_wrB (a i : Nat) (b : Bool) (t' : Nat) : tl (wrB a i b s) t' = tl s t' := rfl
@[simp] theorem cplOf_wrB (a i : Nat) (b : Bool) (k' : Nat) : cplOf (wrB a i b s) k' = cplOf s k' := rfl
@[simp] theorem prt_wrB (a i : Nat) (b : Bool) (n' : Nat) : prt (wrB a i b s) n' = prt s n' := rfl
@[simp] theorem stk_wrB (a i : Nat) (b : Bool) (p' i' : Nat) : stk (wrB a i b s) p' i' = stk s p' i' := rfl
@[simp] theorem hq_wrB (a i : Nat) (b : Bool) (q' : Nat) : hq (wrB a i b s) q' = hq s q' := rfl
@[simp] theorem bnd_wrB (a i : Nat) (b : Bool) (b' : Nat) : bnd (wrB a i b s) b' = bnd s b' := rfl
@[simp] theorem memByte_wrB (a i : Nat) (b : Bool) (a' : Nat) : memByte (wrB a i b s) a' = memByte s a' := rfl
@[simp] theorem eccOf_wrB (a i : Nat) (b : Bool) (u' : Nat) : eccOf (wrB a i b s) u' = eccOf s u' := rfl

-- orReg
@[simp] theorem orReg_now (a m : Nat) : (orReg a m s).now = s.now := rfl
@[simp] theorem orReg_mem (a m : Nat) : (orReg a m s).mem = s.mem := rfl
@[simp] theorem orReg_ecc (a m : Nat) : (orReg a m s).ecc = s.ecc := rfl
@[simp] theorem orReg_tiles (a m : Nat) : (orReg a m s).tiles = s.tiles := rfl
@[simp] theorem orReg_banks (a m : Nat) : (orReg a m s).banks = s.banks := rfl
@[simp] theorem orReg_cpl (a m : Nat) : (orReg a m s).cpl = s.cpl := rfl
@[simp] theorem orReg_rma (a m : Nat) : (orReg a m s).rma = s.rma := rfl
@[simp] theorem orReg_hbm (a m : Nat) : (orReg a m s).hbm = s.hbm := rfl
@[simp] theorem orReg_ports (a m : Nat) : (orReg a m s).ports = s.ports := rfl
@[simp] theorem orReg_net (a m : Nat) : (orReg a m s).net = s.net := rfl
@[simp] theorem orReg_tim (a m : Nat) : (orReg a m s).tim = s.tim := rfl
@[simp] theorem orReg_coll (a m : Nat) : (orReg a m s).coll = s.coll := rfl
@[simp] theorem orReg_cvu (a m : Nat) : (orReg a m s).cvu = s.cvu := rfl
@[simp] theorem orReg_host (a m : Nat) : (orReg a m s).host = s.host := rfl
@[simp] theorem orReg_pwr (a m : Nat) : (orReg a m s).pwr = s.pwr := rfl
@[simp] theorem orReg_flt (a m : Nat) : (orReg a m s).flt = s.flt := rfl
@[simp] theorem orReg_twin (a m : Nat) : (orReg a m s).twin = s.twin := rfl
@[simp] theorem orReg_boot (a m : Nat) : (orReg a m s).boot = s.boot := rfl
@[simp] theorem orReg_out (a m : Nat) : (orReg a m s).out = s.out := rfl
@[simp] theorem orReg_free (a m : Nat) : (orReg a m s).free = s.free := rfl
@[simp] theorem orReg_pending (a m : Nat) : (orReg a m s).pending = s.pending := rfl
@[simp] theorem tl_orReg (a m : Nat) (t' : Nat) : tl (orReg a m s) t' = tl s t' := rfl
@[simp] theorem cplOf_orReg (a m : Nat) (k' : Nat) : cplOf (orReg a m s) k' = cplOf s k' := rfl
@[simp] theorem prt_orReg (a m : Nat) (n' : Nat) : prt (orReg a m s) n' = prt s n' := rfl
@[simp] theorem stk_orReg (a m : Nat) (p' i' : Nat) : stk (orReg a m s) p' i' = stk s p' i' := rfl
@[simp] theorem hq_orReg (a m : Nat) (q' : Nat) : hq (orReg a m s) q' = hq s q' := rfl
@[simp] theorem bnd_orReg (a m : Nat) (b' : Nat) : bnd (orReg a m s) b' = bnd s b' := rfl
@[simp] theorem memByte_orReg (a m : Nat) (a' : Nat) : memByte (orReg a m s) a' = memByte s a' := rfl
@[simp] theorem eccOf_orReg (a m : Nat) (u' : Nat) : eccOf (orReg a m s) u' = eccOf s u' := rfl

-- clrReg
@[simp] theorem clrReg_now (a m : Nat) : (clrReg a m s).now = s.now := rfl
@[simp] theorem clrReg_mem (a m : Nat) : (clrReg a m s).mem = s.mem := rfl
@[simp] theorem clrReg_ecc (a m : Nat) : (clrReg a m s).ecc = s.ecc := rfl
@[simp] theorem clrReg_tiles (a m : Nat) : (clrReg a m s).tiles = s.tiles := rfl
@[simp] theorem clrReg_banks (a m : Nat) : (clrReg a m s).banks = s.banks := rfl
@[simp] theorem clrReg_cpl (a m : Nat) : (clrReg a m s).cpl = s.cpl := rfl
@[simp] theorem clrReg_rma (a m : Nat) : (clrReg a m s).rma = s.rma := rfl
@[simp] theorem clrReg_hbm (a m : Nat) : (clrReg a m s).hbm = s.hbm := rfl
@[simp] theorem clrReg_ports (a m : Nat) : (clrReg a m s).ports = s.ports := rfl
@[simp] theorem clrReg_net (a m : Nat) : (clrReg a m s).net = s.net := rfl
@[simp] theorem clrReg_tim (a m : Nat) : (clrReg a m s).tim = s.tim := rfl
@[simp] theorem clrReg_coll (a m : Nat) : (clrReg a m s).coll = s.coll := rfl
@[simp] theorem clrReg_cvu (a m : Nat) : (clrReg a m s).cvu = s.cvu := rfl
@[simp] theorem clrReg_host (a m : Nat) : (clrReg a m s).host = s.host := rfl
@[simp] theorem clrReg_pwr (a m : Nat) : (clrReg a m s).pwr = s.pwr := rfl
@[simp] theorem clrReg_flt (a m : Nat) : (clrReg a m s).flt = s.flt := rfl
@[simp] theorem clrReg_twin (a m : Nat) : (clrReg a m s).twin = s.twin := rfl
@[simp] theorem clrReg_boot (a m : Nat) : (clrReg a m s).boot = s.boot := rfl
@[simp] theorem clrReg_out (a m : Nat) : (clrReg a m s).out = s.out := rfl
@[simp] theorem clrReg_free (a m : Nat) : (clrReg a m s).free = s.free := rfl
@[simp] theorem clrReg_pending (a m : Nat) : (clrReg a m s).pending = s.pending := rfl
@[simp] theorem tl_clrReg (a m : Nat) (t' : Nat) : tl (clrReg a m s) t' = tl s t' := rfl
@[simp] theorem cplOf_clrReg (a m : Nat) (k' : Nat) : cplOf (clrReg a m s) k' = cplOf s k' := rfl
@[simp] theorem prt_clrReg (a m : Nat) (n' : Nat) : prt (clrReg a m s) n' = prt s n' := rfl
@[simp] theorem stk_clrReg (a m : Nat) (p' i' : Nat) : stk (clrReg a m s) p' i' = stk s p' i' := rfl
@[simp] theorem hq_clrReg (a m : Nat) (q' : Nat) : hq (clrReg a m s) q' = hq s q' := rfl
@[simp] theorem bnd_clrReg (a m : Nat) (b' : Nat) : bnd (clrReg a m s) b' = bnd s b' := rfl
@[simp] theorem memByte_clrReg (a m : Nat) (a' : Nat) : memByte (clrReg a m s) a' = memByte s a' := rfl
@[simp] theorem eccOf_clrReg (a m : Nat) (u' : Nat) : eccOf (clrReg a m s) u' = eccOf s u' := rfl

-- addSat
@[simp] theorem addSat_now (a hi lo n : Nat) : (addSat a hi lo n s).now = s.now := rfl
@[simp] theorem addSat_mem (a hi lo n : Nat) : (addSat a hi lo n s).mem = s.mem := rfl
@[simp] theorem addSat_ecc (a hi lo n : Nat) : (addSat a hi lo n s).ecc = s.ecc := rfl
@[simp] theorem addSat_tiles (a hi lo n : Nat) : (addSat a hi lo n s).tiles = s.tiles := rfl
@[simp] theorem addSat_banks (a hi lo n : Nat) : (addSat a hi lo n s).banks = s.banks := rfl
@[simp] theorem addSat_cpl (a hi lo n : Nat) : (addSat a hi lo n s).cpl = s.cpl := rfl
@[simp] theorem addSat_rma (a hi lo n : Nat) : (addSat a hi lo n s).rma = s.rma := rfl
@[simp] theorem addSat_hbm (a hi lo n : Nat) : (addSat a hi lo n s).hbm = s.hbm := rfl
@[simp] theorem addSat_ports (a hi lo n : Nat) : (addSat a hi lo n s).ports = s.ports := rfl
@[simp] theorem addSat_net (a hi lo n : Nat) : (addSat a hi lo n s).net = s.net := rfl
@[simp] theorem addSat_tim (a hi lo n : Nat) : (addSat a hi lo n s).tim = s.tim := rfl
@[simp] theorem addSat_coll (a hi lo n : Nat) : (addSat a hi lo n s).coll = s.coll := rfl
@[simp] theorem addSat_cvu (a hi lo n : Nat) : (addSat a hi lo n s).cvu = s.cvu := rfl
@[simp] theorem addSat_host (a hi lo n : Nat) : (addSat a hi lo n s).host = s.host := rfl
@[simp] theorem addSat_pwr (a hi lo n : Nat) : (addSat a hi lo n s).pwr = s.pwr := rfl
@[simp] theorem addSat_flt (a hi lo n : Nat) : (addSat a hi lo n s).flt = s.flt := rfl
@[simp] theorem addSat_twin (a hi lo n : Nat) : (addSat a hi lo n s).twin = s.twin := rfl
@[simp] theorem addSat_boot (a hi lo n : Nat) : (addSat a hi lo n s).boot = s.boot := rfl
@[simp] theorem addSat_out (a hi lo n : Nat) : (addSat a hi lo n s).out = s.out := rfl
@[simp] theorem addSat_free (a hi lo n : Nat) : (addSat a hi lo n s).free = s.free := rfl
@[simp] theorem addSat_pending (a hi lo n : Nat) : (addSat a hi lo n s).pending = s.pending := rfl
@[simp] theorem tl_addSat (a hi lo n : Nat) (t' : Nat) : tl (addSat a hi lo n s) t' = tl s t' := rfl
@[simp] theorem cplOf_addSat (a hi lo n : Nat) (k' : Nat) : cplOf (addSat a hi lo n s) k' = cplOf s k' := rfl
@[simp] theorem prt_addSat (a hi lo n : Nat) (n' : Nat) : prt (addSat a hi lo n s) n' = prt s n' := rfl
@[simp] theorem stk_addSat (a hi lo n : Nat) (p' i' : Nat) : stk (addSat a hi lo n s) p' i' = stk s p' i' := rfl
@[simp] theorem hq_addSat (a hi lo n : Nat) (q' : Nat) : hq (addSat a hi lo n s) q' = hq s q' := rfl
@[simp] theorem bnd_addSat (a hi lo n : Nat) (b' : Nat) : bnd (addSat a hi lo n s) b' = bnd s b' := rfl
@[simp] theorem memByte_addSat (a hi lo n : Nat) (a' : Nat) : memByte (addSat a hi lo n s) a' = memByte s a' := rfl
@[simp] theorem eccOf_addSat (a hi lo n : Nat) (u' : Nat) : eccOf (addSat a hi lo n s) u' = eccOf s u' := rfl

-- addWrap
@[simp] theorem addWrap_now (a hi lo n : Nat) : (addWrap a hi lo n s).now = s.now := rfl
@[simp] theorem addWrap_mem (a hi lo n : Nat) : (addWrap a hi lo n s).mem = s.mem := rfl
@[simp] theorem addWrap_ecc (a hi lo n : Nat) : (addWrap a hi lo n s).ecc = s.ecc := rfl
@[simp] theorem addWrap_tiles (a hi lo n : Nat) : (addWrap a hi lo n s).tiles = s.tiles := rfl
@[simp] theorem addWrap_banks (a hi lo n : Nat) : (addWrap a hi lo n s).banks = s.banks := rfl
@[simp] theorem addWrap_cpl (a hi lo n : Nat) : (addWrap a hi lo n s).cpl = s.cpl := rfl
@[simp] theorem addWrap_rma (a hi lo n : Nat) : (addWrap a hi lo n s).rma = s.rma := rfl
@[simp] theorem addWrap_hbm (a hi lo n : Nat) : (addWrap a hi lo n s).hbm = s.hbm := rfl
@[simp] theorem addWrap_ports (a hi lo n : Nat) : (addWrap a hi lo n s).ports = s.ports := rfl
@[simp] theorem addWrap_net (a hi lo n : Nat) : (addWrap a hi lo n s).net = s.net := rfl
@[simp] theorem addWrap_tim (a hi lo n : Nat) : (addWrap a hi lo n s).tim = s.tim := rfl
@[simp] theorem addWrap_coll (a hi lo n : Nat) : (addWrap a hi lo n s).coll = s.coll := rfl
@[simp] theorem addWrap_cvu (a hi lo n : Nat) : (addWrap a hi lo n s).cvu = s.cvu := rfl
@[simp] theorem addWrap_host (a hi lo n : Nat) : (addWrap a hi lo n s).host = s.host := rfl
@[simp] theorem addWrap_pwr (a hi lo n : Nat) : (addWrap a hi lo n s).pwr = s.pwr := rfl
@[simp] theorem addWrap_flt (a hi lo n : Nat) : (addWrap a hi lo n s).flt = s.flt := rfl
@[simp] theorem addWrap_twin (a hi lo n : Nat) : (addWrap a hi lo n s).twin = s.twin := rfl
@[simp] theorem addWrap_boot (a hi lo n : Nat) : (addWrap a hi lo n s).boot = s.boot := rfl
@[simp] theorem addWrap_out (a hi lo n : Nat) : (addWrap a hi lo n s).out = s.out := rfl
@[simp] theorem addWrap_free (a hi lo n : Nat) : (addWrap a hi lo n s).free = s.free := rfl
@[simp] theorem addWrap_pending (a hi lo n : Nat) : (addWrap a hi lo n s).pending = s.pending := rfl
@[simp] theorem tl_addWrap (a hi lo n : Nat) (t' : Nat) : tl (addWrap a hi lo n s) t' = tl s t' := rfl
@[simp] theorem cplOf_addWrap (a hi lo n : Nat) (k' : Nat) : cplOf (addWrap a hi lo n s) k' = cplOf s k' := rfl
@[simp] theorem prt_addWrap (a hi lo n : Nat) (n' : Nat) : prt (addWrap a hi lo n s) n' = prt s n' := rfl
@[simp] theorem stk_addWrap (a hi lo n : Nat) (p' i' : Nat) : stk (addWrap a hi lo n s) p' i' = stk s p' i' := rfl
@[simp] theorem hq_addWrap (a hi lo n : Nat) (q' : Nat) : hq (addWrap a hi lo n s) q' = hq s q' := rfl
@[simp] theorem bnd_addWrap (a hi lo n : Nat) (b' : Nat) : bnd (addWrap a hi lo n s) b' = bnd s b' := rfl
@[simp] theorem memByte_addWrap (a hi lo n : Nat) (a' : Nat) : memByte (addWrap a hi lo n s) a' = memByte s a' := rfl
@[simp] theorem eccOf_addWrap (a hi lo n : Nat) (u' : Nat) : eccOf (addWrap a hi lo n s) u' = eccOf s u' := rfl

-- setTl
@[simp] theorem setTl_now (t : Nat) (x : Tile) : (setTl t x s).now = s.now := rfl
@[simp] theorem setTl_regs (t : Nat) (x : Tile) : (setTl t x s).regs = s.regs := rfl
@[simp] theorem setTl_mem (t : Nat) (x : Tile) : (setTl t x s).mem = s.mem := rfl
@[simp] theorem setTl_ecc (t : Nat) (x : Tile) : (setTl t x s).ecc = s.ecc := rfl
@[simp] theorem setTl_banks (t : Nat) (x : Tile) : (setTl t x s).banks = s.banks := rfl
@[simp] theorem setTl_cpl (t : Nat) (x : Tile) : (setTl t x s).cpl = s.cpl := rfl
@[simp] theorem setTl_rma (t : Nat) (x : Tile) : (setTl t x s).rma = s.rma := rfl
@[simp] theorem setTl_hbm (t : Nat) (x : Tile) : (setTl t x s).hbm = s.hbm := rfl
@[simp] theorem setTl_ports (t : Nat) (x : Tile) : (setTl t x s).ports = s.ports := rfl
@[simp] theorem setTl_net (t : Nat) (x : Tile) : (setTl t x s).net = s.net := rfl
@[simp] theorem setTl_tim (t : Nat) (x : Tile) : (setTl t x s).tim = s.tim := rfl
@[simp] theorem setTl_coll (t : Nat) (x : Tile) : (setTl t x s).coll = s.coll := rfl
@[simp] theorem setTl_cvu (t : Nat) (x : Tile) : (setTl t x s).cvu = s.cvu := rfl
@[simp] theorem setTl_host (t : Nat) (x : Tile) : (setTl t x s).host = s.host := rfl
@[simp] theorem setTl_pwr (t : Nat) (x : Tile) : (setTl t x s).pwr = s.pwr := rfl
@[simp] theorem setTl_flt (t : Nat) (x : Tile) : (setTl t x s).flt = s.flt := rfl
@[simp] theorem setTl_twin (t : Nat) (x : Tile) : (setTl t x s).twin = s.twin := rfl
@[simp] theorem setTl_boot (t : Nat) (x : Tile) : (setTl t x s).boot = s.boot := rfl
@[simp] theorem setTl_out (t : Nat) (x : Tile) : (setTl t x s).out = s.out := rfl
@[simp] theorem setTl_free (t : Nat) (x : Tile) : (setTl t x s).free = s.free := rfl
@[simp] theorem setTl_pending (t : Nat) (x : Tile) : (setTl t x s).pending = s.pending := rfl
@[simp] theorem rd_setTl (t : Nat) (x : Tile) (a' : Nat) : rd (setTl t x s) a' = rd s a' := rfl
@[simp] theorem rdF_setTl (t : Nat) (x : Tile) (a' hi' lo' : Nat) : rdF (setTl t x s) a' hi' lo' = rdF s a' hi' lo' := rfl
@[simp] theorem rdB_setTl (t : Nat) (x : Tile) (a' i' : Nat) : rdB (setTl t x s) a' i' = rdB s a' i' := rfl
@[simp] theorem cplOf_setTl (t : Nat) (x : Tile) (k' : Nat) : cplOf (setTl t x s) k' = cplOf s k' := rfl
@[simp] theorem prt_setTl (t : Nat) (x : Tile) (n' : Nat) : prt (setTl t x s) n' = prt s n' := rfl
@[simp] theorem stk_setTl (t : Nat) (x : Tile) (p' i' : Nat) : stk (setTl t x s) p' i' = stk s p' i' := rfl
@[simp] theorem hq_setTl (t : Nat) (x : Tile) (q' : Nat) : hq (setTl t x s) q' = hq s q' := rfl
@[simp] theorem bnd_setTl (t : Nat) (x : Tile) (b' : Nat) : bnd (setTl t x s) b' = bnd s b' := rfl
@[simp] theorem memByte_setTl (t : Nat) (x : Tile) (a' : Nat) : memByte (setTl t x s) a' = memByte s a' := rfl
@[simp] theorem eccOf_setTl (t : Nat) (x : Tile) (u' : Nat) : eccOf (setTl t x s) u' = eccOf s u' := rfl
@[simp] theorem tileState_setTl (t : Nat) (x : Tile) (t' : Nat) : tileState (setTl t x s) t' = tileState s t' := rfl
@[simp] theorem tileIndex_setTl (t : Nat) (x : Tile) (t' : Nat) : tileIndex (setTl t x s) t' = tileIndex s t' := rfl

-- onTl
@[simp] theorem onTl_now (t : Nat) (f : Tile → Tile) : (onTl t f s).now = s.now := rfl
@[simp] theorem onTl_regs (t : Nat) (f : Tile → Tile) : (onTl t f s).regs = s.regs := rfl
@[simp] theorem onTl_mem (t : Nat) (f : Tile → Tile) : (onTl t f s).mem = s.mem := rfl
@[simp] theorem onTl_ecc (t : Nat) (f : Tile → Tile) : (onTl t f s).ecc = s.ecc := rfl
@[simp] theorem onTl_banks (t : Nat) (f : Tile → Tile) : (onTl t f s).banks = s.banks := rfl
@[simp] theorem onTl_cpl (t : Nat) (f : Tile → Tile) : (onTl t f s).cpl = s.cpl := rfl
@[simp] theorem onTl_rma (t : Nat) (f : Tile → Tile) : (onTl t f s).rma = s.rma := rfl
@[simp] theorem onTl_hbm (t : Nat) (f : Tile → Tile) : (onTl t f s).hbm = s.hbm := rfl
@[simp] theorem onTl_ports (t : Nat) (f : Tile → Tile) : (onTl t f s).ports = s.ports := rfl
@[simp] theorem onTl_net (t : Nat) (f : Tile → Tile) : (onTl t f s).net = s.net := rfl
@[simp] theorem onTl_tim (t : Nat) (f : Tile → Tile) : (onTl t f s).tim = s.tim := rfl
@[simp] theorem onTl_coll (t : Nat) (f : Tile → Tile) : (onTl t f s).coll = s.coll := rfl
@[simp] theorem onTl_cvu (t : Nat) (f : Tile → Tile) : (onTl t f s).cvu = s.cvu := rfl
@[simp] theorem onTl_host (t : Nat) (f : Tile → Tile) : (onTl t f s).host = s.host := rfl
@[simp] theorem onTl_pwr (t : Nat) (f : Tile → Tile) : (onTl t f s).pwr = s.pwr := rfl
@[simp] theorem onTl_flt (t : Nat) (f : Tile → Tile) : (onTl t f s).flt = s.flt := rfl
@[simp] theorem onTl_twin (t : Nat) (f : Tile → Tile) : (onTl t f s).twin = s.twin := rfl
@[simp] theorem onTl_boot (t : Nat) (f : Tile → Tile) : (onTl t f s).boot = s.boot := rfl
@[simp] theorem onTl_out (t : Nat) (f : Tile → Tile) : (onTl t f s).out = s.out := rfl
@[simp] theorem onTl_free (t : Nat) (f : Tile → Tile) : (onTl t f s).free = s.free := rfl
@[simp] theorem onTl_pending (t : Nat) (f : Tile → Tile) : (onTl t f s).pending = s.pending := rfl
@[simp] theorem rd_onTl (t : Nat) (f : Tile → Tile) (a' : Nat) : rd (onTl t f s) a' = rd s a' := rfl
@[simp] theorem rdF_onTl (t : Nat) (f : Tile → Tile) (a' hi' lo' : Nat) : rdF (onTl t f s) a' hi' lo' = rdF s a' hi' lo' := rfl
@[simp] theorem rdB_onTl (t : Nat) (f : Tile → Tile) (a' i' : Nat) : rdB (onTl t f s) a' i' = rdB s a' i' := rfl
@[simp] theorem cplOf_onTl (t : Nat) (f : Tile → Tile) (k' : Nat) : cplOf (onTl t f s) k' = cplOf s k' := rfl
@[simp] theorem prt_onTl (t : Nat) (f : Tile → Tile) (n' : Nat) : prt (onTl t f s) n' = prt s n' := rfl
@[simp] theorem stk_onTl (t : Nat) (f : Tile → Tile) (p' i' : Nat) : stk (onTl t f s) p' i' = stk s p' i' := rfl
@[simp] theorem hq_onTl (t : Nat) (f : Tile → Tile) (q' : Nat) : hq (onTl t f s) q' = hq s q' := rfl
@[simp] theorem bnd_onTl (t : Nat) (f : Tile → Tile) (b' : Nat) : bnd (onTl t f s) b' = bnd s b' := rfl
@[simp] theorem memByte_onTl (t : Nat) (f : Tile → Tile) (a' : Nat) : memByte (onTl t f s) a' = memByte s a' := rfl
@[simp] theorem eccOf_onTl (t : Nat) (f : Tile → Tile) (u' : Nat) : eccOf (onTl t f s) u' = eccOf s u' := rfl
@[simp] theorem tileState_onTl (t : Nat) (f : Tile → Tile) (t' : Nat) : tileState (onTl t f s) t' = tileState s t' := rfl
@[simp] theorem tileIndex_onTl (t : Nat) (f : Tile → Tile) (t' : Nat) : tileIndex (onTl t f s) t' = tileIndex s t' := rfl

-- setTileState
@[simp] theorem setTileState_now (t v : Nat) : (setTileState t v s).now = s.now := rfl
@[simp] theorem setTileState_mem (t v : Nat) : (setTileState t v s).mem = s.mem := rfl
@[simp] theorem setTileState_ecc (t v : Nat) : (setTileState t v s).ecc = s.ecc := rfl
@[simp] theorem setTileState_tiles (t v : Nat) : (setTileState t v s).tiles = s.tiles := rfl
@[simp] theorem setTileState_banks (t v : Nat) : (setTileState t v s).banks = s.banks := rfl
@[simp] theorem setTileState_cpl (t v : Nat) : (setTileState t v s).cpl = s.cpl := rfl
@[simp] theorem setTileState_rma (t v : Nat) : (setTileState t v s).rma = s.rma := rfl
@[simp] theorem setTileState_hbm (t v : Nat) : (setTileState t v s).hbm = s.hbm := rfl
@[simp] theorem setTileState_ports (t v : Nat) : (setTileState t v s).ports = s.ports := rfl
@[simp] theorem setTileState_net (t v : Nat) : (setTileState t v s).net = s.net := rfl
@[simp] theorem setTileState_tim (t v : Nat) : (setTileState t v s).tim = s.tim := rfl
@[simp] theorem setTileState_coll (t v : Nat) : (setTileState t v s).coll = s.coll := rfl
@[simp] theorem setTileState_cvu (t v : Nat) : (setTileState t v s).cvu = s.cvu := rfl
@[simp] theorem setTileState_host (t v : Nat) : (setTileState t v s).host = s.host := rfl
@[simp] theorem setTileState_pwr (t v : Nat) : (setTileState t v s).pwr = s.pwr := rfl
@[simp] theorem setTileState_flt (t v : Nat) : (setTileState t v s).flt = s.flt := rfl
@[simp] theorem setTileState_twin (t v : Nat) : (setTileState t v s).twin = s.twin := rfl
@[simp] theorem setTileState_boot (t v : Nat) : (setTileState t v s).boot = s.boot := rfl
@[simp] theorem setTileState_out (t v : Nat) : (setTileState t v s).out = s.out := rfl
@[simp] theorem setTileState_free (t v : Nat) : (setTileState t v s).free = s.free := rfl
@[simp] theorem setTileState_pending (t v : Nat) : (setTileState t v s).pending = s.pending := rfl
@[simp] theorem tl_setTileState (t v : Nat) (t' : Nat) : tl (setTileState t v s) t' = tl s t' := rfl
@[simp] theorem cplOf_setTileState (t v : Nat) (k' : Nat) : cplOf (setTileState t v s) k' = cplOf s k' := rfl
@[simp] theorem prt_setTileState (t v : Nat) (n' : Nat) : prt (setTileState t v s) n' = prt s n' := rfl
@[simp] theorem stk_setTileState (t v : Nat) (p' i' : Nat) : stk (setTileState t v s) p' i' = stk s p' i' := rfl
@[simp] theorem hq_setTileState (t v : Nat) (q' : Nat) : hq (setTileState t v s) q' = hq s q' := rfl
@[simp] theorem bnd_setTileState (t v : Nat) (b' : Nat) : bnd (setTileState t v s) b' = bnd s b' := rfl
@[simp] theorem memByte_setTileState (t v : Nat) (a' : Nat) : memByte (setTileState t v s) a' = memByte s a' := rfl
@[simp] theorem eccOf_setTileState (t v : Nat) (u' : Nat) : eccOf (setTileState t v s) u' = eccOf s u' := rfl

-- setCpl
@[simp] theorem setCpl_now (k : Nat) (e : Cpl) : (setCpl k e s).now = s.now := rfl
@[simp] theorem setCpl_regs (k : Nat) (e : Cpl) : (setCpl k e s).regs = s.regs := rfl
@[simp] theorem setCpl_mem (k : Nat) (e : Cpl) : (setCpl k e s).mem = s.mem := rfl
@[simp] theorem setCpl_ecc (k : Nat) (e : Cpl) : (setCpl k e s).ecc = s.ecc := rfl
@[simp] theorem setCpl_tiles (k : Nat) (e : Cpl) : (setCpl k e s).tiles = s.tiles := rfl
@[simp] theorem setCpl_banks (k : Nat) (e : Cpl) : (setCpl k e s).banks = s.banks := rfl
@[simp] theorem setCpl_rma (k : Nat) (e : Cpl) : (setCpl k e s).rma = s.rma := rfl
@[simp] theorem setCpl_hbm (k : Nat) (e : Cpl) : (setCpl k e s).hbm = s.hbm := rfl
@[simp] theorem setCpl_ports (k : Nat) (e : Cpl) : (setCpl k e s).ports = s.ports := rfl
@[simp] theorem setCpl_net (k : Nat) (e : Cpl) : (setCpl k e s).net = s.net := rfl
@[simp] theorem setCpl_tim (k : Nat) (e : Cpl) : (setCpl k e s).tim = s.tim := rfl
@[simp] theorem setCpl_coll (k : Nat) (e : Cpl) : (setCpl k e s).coll = s.coll := rfl
@[simp] theorem setCpl_cvu (k : Nat) (e : Cpl) : (setCpl k e s).cvu = s.cvu := rfl
@[simp] theorem setCpl_host (k : Nat) (e : Cpl) : (setCpl k e s).host = s.host := rfl
@[simp] theorem setCpl_pwr (k : Nat) (e : Cpl) : (setCpl k e s).pwr = s.pwr := rfl
@[simp] theorem setCpl_flt (k : Nat) (e : Cpl) : (setCpl k e s).flt = s.flt := rfl
@[simp] theorem setCpl_twin (k : Nat) (e : Cpl) : (setCpl k e s).twin = s.twin := rfl
@[simp] theorem setCpl_boot (k : Nat) (e : Cpl) : (setCpl k e s).boot = s.boot := rfl
@[simp] theorem setCpl_out (k : Nat) (e : Cpl) : (setCpl k e s).out = s.out := rfl
@[simp] theorem setCpl_free (k : Nat) (e : Cpl) : (setCpl k e s).free = s.free := rfl
@[simp] theorem setCpl_pending (k : Nat) (e : Cpl) : (setCpl k e s).pending = s.pending := rfl
@[simp] theorem rd_setCpl (k : Nat) (e : Cpl) (a' : Nat) : rd (setCpl k e s) a' = rd s a' := rfl
@[simp] theorem rdF_setCpl (k : Nat) (e : Cpl) (a' hi' lo' : Nat) : rdF (setCpl k e s) a' hi' lo' = rdF s a' hi' lo' := rfl
@[simp] theorem rdB_setCpl (k : Nat) (e : Cpl) (a' i' : Nat) : rdB (setCpl k e s) a' i' = rdB s a' i' := rfl
@[simp] theorem tl_setCpl (k : Nat) (e : Cpl) (t' : Nat) : tl (setCpl k e s) t' = tl s t' := rfl
@[simp] theorem prt_setCpl (k : Nat) (e : Cpl) (n' : Nat) : prt (setCpl k e s) n' = prt s n' := rfl
@[simp] theorem stk_setCpl (k : Nat) (e : Cpl) (p' i' : Nat) : stk (setCpl k e s) p' i' = stk s p' i' := rfl
@[simp] theorem hq_setCpl (k : Nat) (e : Cpl) (q' : Nat) : hq (setCpl k e s) q' = hq s q' := rfl
@[simp] theorem bnd_setCpl (k : Nat) (e : Cpl) (b' : Nat) : bnd (setCpl k e s) b' = bnd s b' := rfl
@[simp] theorem memByte_setCpl (k : Nat) (e : Cpl) (a' : Nat) : memByte (setCpl k e s) a' = memByte s a' := rfl
@[simp] theorem eccOf_setCpl (k : Nat) (e : Cpl) (u' : Nat) : eccOf (setCpl k e s) u' = eccOf s u' := rfl
@[simp] theorem tileState_setCpl (k : Nat) (e : Cpl) (t' : Nat) : tileState (setCpl k e s) t' = tileState s t' := rfl
@[simp] theorem tileIndex_setCpl (k : Nat) (e : Cpl) (t' : Nat) : tileIndex (setCpl k e s) t' = tileIndex s t' := rfl

-- onPrt
@[simp] theorem onPrt_now (n : Nat) (f : Port → Port) : (onPrt n f s).now = s.now := rfl
@[simp] theorem onPrt_regs (n : Nat) (f : Port → Port) : (onPrt n f s).regs = s.regs := rfl
@[simp] theorem onPrt_mem (n : Nat) (f : Port → Port) : (onPrt n f s).mem = s.mem := rfl
@[simp] theorem onPrt_ecc (n : Nat) (f : Port → Port) : (onPrt n f s).ecc = s.ecc := rfl
@[simp] theorem onPrt_tiles (n : Nat) (f : Port → Port) : (onPrt n f s).tiles = s.tiles := rfl
@[simp] theorem onPrt_banks (n : Nat) (f : Port → Port) : (onPrt n f s).banks = s.banks := rfl
@[simp] theorem onPrt_cpl (n : Nat) (f : Port → Port) : (onPrt n f s).cpl = s.cpl := rfl
@[simp] theorem onPrt_rma (n : Nat) (f : Port → Port) : (onPrt n f s).rma = s.rma := rfl
@[simp] theorem onPrt_hbm (n : Nat) (f : Port → Port) : (onPrt n f s).hbm = s.hbm := rfl
@[simp] theorem onPrt_net (n : Nat) (f : Port → Port) : (onPrt n f s).net = s.net := rfl
@[simp] theorem onPrt_tim (n : Nat) (f : Port → Port) : (onPrt n f s).tim = s.tim := rfl
@[simp] theorem onPrt_coll (n : Nat) (f : Port → Port) : (onPrt n f s).coll = s.coll := rfl
@[simp] theorem onPrt_cvu (n : Nat) (f : Port → Port) : (onPrt n f s).cvu = s.cvu := rfl
@[simp] theorem onPrt_host (n : Nat) (f : Port → Port) : (onPrt n f s).host = s.host := rfl
@[simp] theorem onPrt_pwr (n : Nat) (f : Port → Port) : (onPrt n f s).pwr = s.pwr := rfl
@[simp] theorem onPrt_flt (n : Nat) (f : Port → Port) : (onPrt n f s).flt = s.flt := rfl
@[simp] theorem onPrt_twin (n : Nat) (f : Port → Port) : (onPrt n f s).twin = s.twin := rfl
@[simp] theorem onPrt_boot (n : Nat) (f : Port → Port) : (onPrt n f s).boot = s.boot := rfl
@[simp] theorem onPrt_out (n : Nat) (f : Port → Port) : (onPrt n f s).out = s.out := rfl
@[simp] theorem onPrt_free (n : Nat) (f : Port → Port) : (onPrt n f s).free = s.free := rfl
@[simp] theorem onPrt_pending (n : Nat) (f : Port → Port) : (onPrt n f s).pending = s.pending := rfl
@[simp] theorem rd_onPrt (n : Nat) (f : Port → Port) (a' : Nat) : rd (onPrt n f s) a' = rd s a' := rfl
@[simp] theorem rdF_onPrt (n : Nat) (f : Port → Port) (a' hi' lo' : Nat) : rdF (onPrt n f s) a' hi' lo' = rdF s a' hi' lo' := rfl
@[simp] theorem rdB_onPrt (n : Nat) (f : Port → Port) (a' i' : Nat) : rdB (onPrt n f s) a' i' = rdB s a' i' := rfl
@[simp] theorem tl_onPrt (n : Nat) (f : Port → Port) (t' : Nat) : tl (onPrt n f s) t' = tl s t' := rfl
@[simp] theorem cplOf_onPrt (n : Nat) (f : Port → Port) (k' : Nat) : cplOf (onPrt n f s) k' = cplOf s k' := rfl
@[simp] theorem stk_onPrt (n : Nat) (f : Port → Port) (p' i' : Nat) : stk (onPrt n f s) p' i' = stk s p' i' := rfl
@[simp] theorem hq_onPrt (n : Nat) (f : Port → Port) (q' : Nat) : hq (onPrt n f s) q' = hq s q' := rfl
@[simp] theorem bnd_onPrt (n : Nat) (f : Port → Port) (b' : Nat) : bnd (onPrt n f s) b' = bnd s b' := rfl
@[simp] theorem memByte_onPrt (n : Nat) (f : Port → Port) (a' : Nat) : memByte (onPrt n f s) a' = memByte s a' := rfl
@[simp] theorem eccOf_onPrt (n : Nat) (f : Port → Port) (u' : Nat) : eccOf (onPrt n f s) u' = eccOf s u' := rfl
@[simp] theorem tileState_onPrt (n : Nat) (f : Port → Port) (t' : Nat) : tileState (onPrt n f s) t' = tileState s t' := rfl
@[simp] theorem tileIndex_onPrt (n : Nat) (f : Port → Port) (t' : Nat) : tileIndex (onPrt n f s) t' = tileIndex s t' := rfl

-- onStk
@[simp] theorem onStk_now (p i : Nat) (f : Stack → Stack) : (onStk p i f s).now = s.now := rfl
@[simp] theorem onStk_regs (p i : Nat) (f : Stack → Stack) : (onStk p i f s).regs = s.regs := rfl
@[simp] theorem onStk_mem (p i : Nat) (f : Stack → Stack) : (onStk p i f s).mem = s.mem := rfl
@[simp] theorem onStk_ecc (p i : Nat) (f : Stack → Stack) : (onStk p i f s).ecc = s.ecc := rfl
@[simp] theorem onStk_tiles (p i : Nat) (f : Stack → Stack) : (onStk p i f s).tiles = s.tiles := rfl
@[simp] theorem onStk_banks (p i : Nat) (f : Stack → Stack) : (onStk p i f s).banks = s.banks := rfl
@[simp] theorem onStk_cpl (p i : Nat) (f : Stack → Stack) : (onStk p i f s).cpl = s.cpl := rfl
@[simp] theorem onStk_rma (p i : Nat) (f : Stack → Stack) : (onStk p i f s).rma = s.rma := rfl
@[simp] theorem onStk_ports (p i : Nat) (f : Stack → Stack) : (onStk p i f s).ports = s.ports := rfl
@[simp] theorem onStk_net (p i : Nat) (f : Stack → Stack) : (onStk p i f s).net = s.net := rfl
@[simp] theorem onStk_tim (p i : Nat) (f : Stack → Stack) : (onStk p i f s).tim = s.tim := rfl
@[simp] theorem onStk_coll (p i : Nat) (f : Stack → Stack) : (onStk p i f s).coll = s.coll := rfl
@[simp] theorem onStk_cvu (p i : Nat) (f : Stack → Stack) : (onStk p i f s).cvu = s.cvu := rfl
@[simp] theorem onStk_host (p i : Nat) (f : Stack → Stack) : (onStk p i f s).host = s.host := rfl
@[simp] theorem onStk_pwr (p i : Nat) (f : Stack → Stack) : (onStk p i f s).pwr = s.pwr := rfl
@[simp] theorem onStk_flt (p i : Nat) (f : Stack → Stack) : (onStk p i f s).flt = s.flt := rfl
@[simp] theorem onStk_twin (p i : Nat) (f : Stack → Stack) : (onStk p i f s).twin = s.twin := rfl
@[simp] theorem onStk_boot (p i : Nat) (f : Stack → Stack) : (onStk p i f s).boot = s.boot := rfl
@[simp] theorem onStk_out (p i : Nat) (f : Stack → Stack) : (onStk p i f s).out = s.out := rfl
@[simp] theorem onStk_free (p i : Nat) (f : Stack → Stack) : (onStk p i f s).free = s.free := rfl
@[simp] theorem onStk_pending (p i : Nat) (f : Stack → Stack) : (onStk p i f s).pending = s.pending := rfl
@[simp] theorem rd_onStk (p i : Nat) (f : Stack → Stack) (a' : Nat) : rd (onStk p i f s) a' = rd s a' := rfl
@[simp] theorem rdF_onStk (p i : Nat) (f : Stack → Stack) (a' hi' lo' : Nat) : rdF (onStk p i f s) a' hi' lo' = rdF s a' hi' lo' := rfl
@[simp] theorem rdB_onStk (p i : Nat) (f : Stack → Stack) (a' i' : Nat) : rdB (onStk p i f s) a' i' = rdB s a' i' := rfl
@[simp] theorem tl_onStk (p i : Nat) (f : Stack → Stack) (t' : Nat) : tl (onStk p i f s) t' = tl s t' := rfl
@[simp] theorem cplOf_onStk (p i : Nat) (f : Stack → Stack) (k' : Nat) : cplOf (onStk p i f s) k' = cplOf s k' := rfl
@[simp] theorem prt_onStk (p i : Nat) (f : Stack → Stack) (n' : Nat) : prt (onStk p i f s) n' = prt s n' := rfl
@[simp] theorem hq_onStk (p i : Nat) (f : Stack → Stack) (q' : Nat) : hq (onStk p i f s) q' = hq s q' := rfl
@[simp] theorem bnd_onStk (p i : Nat) (f : Stack → Stack) (b' : Nat) : bnd (onStk p i f s) b' = bnd s b' := rfl
@[simp] theorem memByte_onStk (p i : Nat) (f : Stack → Stack) (a' : Nat) : memByte (onStk p i f s) a' = memByte s a' := rfl
@[simp] theorem eccOf_onStk (p i : Nat) (f : Stack → Stack) (u' : Nat) : eccOf (onStk p i f s) u' = eccOf s u' := rfl
@[simp] theorem tileState_onStk (p i : Nat) (f : Stack → Stack) (t' : Nat) : tileState (onStk p i f s) t' = tileState s t' := rfl
@[simp] theorem tileIndex_onStk (p i : Nat) (f : Stack → Stack) (t' : Nat) : tileIndex (onStk p i f s) t' = tileIndex s t' := rfl

-- onHq
@[simp] theorem onHq_now (q : Nat) (f : HQueue → HQueue) : (onHq q f s).now = s.now := rfl
@[simp] theorem onHq_regs (q : Nat) (f : HQueue → HQueue) : (onHq q f s).regs = s.regs := rfl
@[simp] theorem onHq_mem (q : Nat) (f : HQueue → HQueue) : (onHq q f s).mem = s.mem := rfl
@[simp] theorem onHq_ecc (q : Nat) (f : HQueue → HQueue) : (onHq q f s).ecc = s.ecc := rfl
@[simp] theorem onHq_tiles (q : Nat) (f : HQueue → HQueue) : (onHq q f s).tiles = s.tiles := rfl
@[simp] theorem onHq_banks (q : Nat) (f : HQueue → HQueue) : (onHq q f s).banks = s.banks := rfl
@[simp] theorem onHq_cpl (q : Nat) (f : HQueue → HQueue) : (onHq q f s).cpl = s.cpl := rfl
@[simp] theorem onHq_rma (q : Nat) (f : HQueue → HQueue) : (onHq q f s).rma = s.rma := rfl
@[simp] theorem onHq_hbm (q : Nat) (f : HQueue → HQueue) : (onHq q f s).hbm = s.hbm := rfl
@[simp] theorem onHq_ports (q : Nat) (f : HQueue → HQueue) : (onHq q f s).ports = s.ports := rfl
@[simp] theorem onHq_net (q : Nat) (f : HQueue → HQueue) : (onHq q f s).net = s.net := rfl
@[simp] theorem onHq_tim (q : Nat) (f : HQueue → HQueue) : (onHq q f s).tim = s.tim := rfl
@[simp] theorem onHq_coll (q : Nat) (f : HQueue → HQueue) : (onHq q f s).coll = s.coll := rfl
@[simp] theorem onHq_cvu (q : Nat) (f : HQueue → HQueue) : (onHq q f s).cvu = s.cvu := rfl
@[simp] theorem onHq_pwr (q : Nat) (f : HQueue → HQueue) : (onHq q f s).pwr = s.pwr := rfl
@[simp] theorem onHq_flt (q : Nat) (f : HQueue → HQueue) : (onHq q f s).flt = s.flt := rfl
@[simp] theorem onHq_twin (q : Nat) (f : HQueue → HQueue) : (onHq q f s).twin = s.twin := rfl
@[simp] theorem onHq_boot (q : Nat) (f : HQueue → HQueue) : (onHq q f s).boot = s.boot := rfl
@[simp] theorem onHq_out (q : Nat) (f : HQueue → HQueue) : (onHq q f s).out = s.out := rfl
@[simp] theorem onHq_free (q : Nat) (f : HQueue → HQueue) : (onHq q f s).free = s.free := rfl
@[simp] theorem onHq_pending (q : Nat) (f : HQueue → HQueue) : (onHq q f s).pending = s.pending := rfl
@[simp] theorem rd_onHq (q : Nat) (f : HQueue → HQueue) (a' : Nat) : rd (onHq q f s) a' = rd s a' := rfl
@[simp] theorem rdF_onHq (q : Nat) (f : HQueue → HQueue) (a' hi' lo' : Nat) : rdF (onHq q f s) a' hi' lo' = rdF s a' hi' lo' := rfl
@[simp] theorem rdB_onHq (q : Nat) (f : HQueue → HQueue) (a' i' : Nat) : rdB (onHq q f s) a' i' = rdB s a' i' := rfl
@[simp] theorem tl_onHq (q : Nat) (f : HQueue → HQueue) (t' : Nat) : tl (onHq q f s) t' = tl s t' := rfl
@[simp] theorem cplOf_onHq (q : Nat) (f : HQueue → HQueue) (k' : Nat) : cplOf (onHq q f s) k' = cplOf s k' := rfl
@[simp] theorem prt_onHq (q : Nat) (f : HQueue → HQueue) (n' : Nat) : prt (onHq q f s) n' = prt s n' := rfl
@[simp] theorem stk_onHq (q : Nat) (f : HQueue → HQueue) (p' i' : Nat) : stk (onHq q f s) p' i' = stk s p' i' := rfl
@[simp] theorem bnd_onHq (q : Nat) (f : HQueue → HQueue) (b' : Nat) : bnd (onHq q f s) b' = bnd s b' := rfl
@[simp] theorem memByte_onHq (q : Nat) (f : HQueue → HQueue) (a' : Nat) : memByte (onHq q f s) a' = memByte s a' := rfl
@[simp] theorem eccOf_onHq (q : Nat) (f : HQueue → HQueue) (u' : Nat) : eccOf (onHq q f s) u' = eccOf s u' := rfl
@[simp] theorem tileState_onHq (q : Nat) (f : HQueue → HQueue) (t' : Nat) : tileState (onHq q f s) t' = tileState s t' := rfl
@[simp] theorem tileIndex_onHq (q : Nat) (f : HQueue → HQueue) (t' : Nat) : tileIndex (onHq q f s) t' = tileIndex s t' := rfl

-- onBnd
@[simp] theorem onBnd_now (b : Nat) (f : Bond → Bond) : (onBnd b f s).now = s.now := rfl
@[simp] theorem onBnd_regs (b : Nat) (f : Bond → Bond) : (onBnd b f s).regs = s.regs := rfl
@[simp] theorem onBnd_mem (b : Nat) (f : Bond → Bond) : (onBnd b f s).mem = s.mem := rfl
@[simp] theorem onBnd_ecc (b : Nat) (f : Bond → Bond) : (onBnd b f s).ecc = s.ecc := rfl
@[simp] theorem onBnd_tiles (b : Nat) (f : Bond → Bond) : (onBnd b f s).tiles = s.tiles := rfl
@[simp] theorem onBnd_banks (b : Nat) (f : Bond → Bond) : (onBnd b f s).banks = s.banks := rfl
@[simp] theorem onBnd_cpl (b : Nat) (f : Bond → Bond) : (onBnd b f s).cpl = s.cpl := rfl
@[simp] theorem onBnd_rma (b : Nat) (f : Bond → Bond) : (onBnd b f s).rma = s.rma := rfl
@[simp] theorem onBnd_hbm (b : Nat) (f : Bond → Bond) : (onBnd b f s).hbm = s.hbm := rfl
@[simp] theorem onBnd_ports (b : Nat) (f : Bond → Bond) : (onBnd b f s).ports = s.ports := rfl
@[simp] theorem onBnd_tim (b : Nat) (f : Bond → Bond) : (onBnd b f s).tim = s.tim := rfl
@[simp] theorem onBnd_coll (b : Nat) (f : Bond → Bond) : (onBnd b f s).coll = s.coll := rfl
@[simp] theorem onBnd_cvu (b : Nat) (f : Bond → Bond) : (onBnd b f s).cvu = s.cvu := rfl
@[simp] theorem onBnd_host (b : Nat) (f : Bond → Bond) : (onBnd b f s).host = s.host := rfl
@[simp] theorem onBnd_pwr (b : Nat) (f : Bond → Bond) : (onBnd b f s).pwr = s.pwr := rfl
@[simp] theorem onBnd_flt (b : Nat) (f : Bond → Bond) : (onBnd b f s).flt = s.flt := rfl
@[simp] theorem onBnd_twin (b : Nat) (f : Bond → Bond) : (onBnd b f s).twin = s.twin := rfl
@[simp] theorem onBnd_boot (b : Nat) (f : Bond → Bond) : (onBnd b f s).boot = s.boot := rfl
@[simp] theorem onBnd_out (b : Nat) (f : Bond → Bond) : (onBnd b f s).out = s.out := rfl
@[simp] theorem onBnd_free (b : Nat) (f : Bond → Bond) : (onBnd b f s).free = s.free := rfl
@[simp] theorem onBnd_pending (b : Nat) (f : Bond → Bond) : (onBnd b f s).pending = s.pending := rfl
@[simp] theorem rd_onBnd (b : Nat) (f : Bond → Bond) (a' : Nat) : rd (onBnd b f s) a' = rd s a' := rfl
@[simp] theorem rdF_onBnd (b : Nat) (f : Bond → Bond) (a' hi' lo' : Nat) : rdF (onBnd b f s) a' hi' lo' = rdF s a' hi' lo' := rfl
@[simp] theorem rdB_onBnd (b : Nat) (f : Bond → Bond) (a' i' : Nat) : rdB (onBnd b f s) a' i' = rdB s a' i' := rfl
@[simp] theorem tl_onBnd (b : Nat) (f : Bond → Bond) (t' : Nat) : tl (onBnd b f s) t' = tl s t' := rfl
@[simp] theorem cplOf_onBnd (b : Nat) (f : Bond → Bond) (k' : Nat) : cplOf (onBnd b f s) k' = cplOf s k' := rfl
@[simp] theorem prt_onBnd (b : Nat) (f : Bond → Bond) (n' : Nat) : prt (onBnd b f s) n' = prt s n' := rfl
@[simp] theorem stk_onBnd (b : Nat) (f : Bond → Bond) (p' i' : Nat) : stk (onBnd b f s) p' i' = stk s p' i' := rfl
@[simp] theorem hq_onBnd (b : Nat) (f : Bond → Bond) (q' : Nat) : hq (onBnd b f s) q' = hq s q' := rfl
@[simp] theorem memByte_onBnd (b : Nat) (f : Bond → Bond) (a' : Nat) : memByte (onBnd b f s) a' = memByte s a' := rfl
@[simp] theorem eccOf_onBnd (b : Nat) (f : Bond → Bond) (u' : Nat) : eccOf (onBnd b f s) u' = eccOf s u' := rfl
@[simp] theorem tileState_onBnd (b : Nat) (f : Bond → Bond) (t' : Nat) : tileState (onBnd b f s) t' = tileState s t' := rfl
@[simp] theorem tileIndex_onBnd (b : Nat) (f : Bond → Bond) (t' : Nat) : tileIndex (onBnd b f s) t' = tileIndex s t' := rfl

-- emit
@[simp] theorem emit_now (o : Out) : (emit o s).now = s.now := rfl
@[simp] theorem emit_regs (o : Out) : (emit o s).regs = s.regs := rfl
@[simp] theorem emit_mem (o : Out) : (emit o s).mem = s.mem := rfl
@[simp] theorem emit_ecc (o : Out) : (emit o s).ecc = s.ecc := rfl
@[simp] theorem emit_tiles (o : Out) : (emit o s).tiles = s.tiles := rfl
@[simp] theorem emit_banks (o : Out) : (emit o s).banks = s.banks := rfl
@[simp] theorem emit_cpl (o : Out) : (emit o s).cpl = s.cpl := rfl
@[simp] theorem emit_rma (o : Out) : (emit o s).rma = s.rma := rfl
@[simp] theorem emit_hbm (o : Out) : (emit o s).hbm = s.hbm := rfl
@[simp] theorem emit_ports (o : Out) : (emit o s).ports = s.ports := rfl
@[simp] theorem emit_net (o : Out) : (emit o s).net = s.net := rfl
@[simp] theorem emit_tim (o : Out) : (emit o s).tim = s.tim := rfl
@[simp] theorem emit_coll (o : Out) : (emit o s).coll = s.coll := rfl
@[simp] theorem emit_cvu (o : Out) : (emit o s).cvu = s.cvu := rfl
@[simp] theorem emit_host (o : Out) : (emit o s).host = s.host := rfl
@[simp] theorem emit_pwr (o : Out) : (emit o s).pwr = s.pwr := rfl
@[simp] theorem emit_flt (o : Out) : (emit o s).flt = s.flt := rfl
@[simp] theorem emit_twin (o : Out) : (emit o s).twin = s.twin := rfl
@[simp] theorem emit_boot (o : Out) : (emit o s).boot = s.boot := rfl
@[simp] theorem emit_free (o : Out) : (emit o s).free = s.free := rfl
@[simp] theorem emit_pending (o : Out) : (emit o s).pending = s.pending := rfl
@[simp] theorem rd_emit (o : Out) (a' : Nat) : rd (emit o s) a' = rd s a' := rfl
@[simp] theorem rdF_emit (o : Out) (a' hi' lo' : Nat) : rdF (emit o s) a' hi' lo' = rdF s a' hi' lo' := rfl
@[simp] theorem rdB_emit (o : Out) (a' i' : Nat) : rdB (emit o s) a' i' = rdB s a' i' := rfl
@[simp] theorem tl_emit (o : Out) (t' : Nat) : tl (emit o s) t' = tl s t' := rfl
@[simp] theorem cplOf_emit (o : Out) (k' : Nat) : cplOf (emit o s) k' = cplOf s k' := rfl
@[simp] theorem prt_emit (o : Out) (n' : Nat) : prt (emit o s) n' = prt s n' := rfl
@[simp] theorem stk_emit (o : Out) (p' i' : Nat) : stk (emit o s) p' i' = stk s p' i' := rfl
@[simp] theorem hq_emit (o : Out) (q' : Nat) : hq (emit o s) q' = hq s q' := rfl
@[simp] theorem bnd_emit (o : Out) (b' : Nat) : bnd (emit o s) b' = bnd s b' := rfl
@[simp] theorem memByte_emit (o : Out) (a' : Nat) : memByte (emit o s) a' = memByte s a' := rfl
@[simp] theorem eccOf_emit (o : Out) (u' : Nat) : eccOf (emit o s) u' = eccOf s u' := rfl
@[simp] theorem tileState_emit (o : Out) (t' : Nat) : tileState (emit o s) t' = tileState s t' := rfl
@[simp] theorem tileIndex_emit (o : Out) (t' : Nat) : tileIndex (emit o s) t' = tileIndex s t' := rfl

-- putByte
@[simp] theorem putByte_now (a : Nat) (b : Byte) : (putByte a b s).now = s.now := rfl
@[simp] theorem putByte_regs (a : Nat) (b : Byte) : (putByte a b s).regs = s.regs := rfl
@[simp] theorem putByte_ecc (a : Nat) (b : Byte) : (putByte a b s).ecc = s.ecc := rfl
@[simp] theorem putByte_tiles (a : Nat) (b : Byte) : (putByte a b s).tiles = s.tiles := rfl
@[simp] theorem putByte_banks (a : Nat) (b : Byte) : (putByte a b s).banks = s.banks := rfl
@[simp] theorem putByte_cpl (a : Nat) (b : Byte) : (putByte a b s).cpl = s.cpl := rfl
@[simp] theorem putByte_rma (a : Nat) (b : Byte) : (putByte a b s).rma = s.rma := rfl
@[simp] theorem putByte_hbm (a : Nat) (b : Byte) : (putByte a b s).hbm = s.hbm := rfl
@[simp] theorem putByte_ports (a : Nat) (b : Byte) : (putByte a b s).ports = s.ports := rfl
@[simp] theorem putByte_net (a : Nat) (b : Byte) : (putByte a b s).net = s.net := rfl
@[simp] theorem putByte_tim (a : Nat) (b : Byte) : (putByte a b s).tim = s.tim := rfl
@[simp] theorem putByte_coll (a : Nat) (b : Byte) : (putByte a b s).coll = s.coll := rfl
@[simp] theorem putByte_cvu (a : Nat) (b : Byte) : (putByte a b s).cvu = s.cvu := rfl
@[simp] theorem putByte_host (a : Nat) (b : Byte) : (putByte a b s).host = s.host := rfl
@[simp] theorem putByte_pwr (a : Nat) (b : Byte) : (putByte a b s).pwr = s.pwr := rfl
@[simp] theorem putByte_flt (a : Nat) (b : Byte) : (putByte a b s).flt = s.flt := rfl
@[simp] theorem putByte_twin (a : Nat) (b : Byte) : (putByte a b s).twin = s.twin := rfl
@[simp] theorem putByte_boot (a : Nat) (b : Byte) : (putByte a b s).boot = s.boot := rfl
@[simp] theorem putByte_out (a : Nat) (b : Byte) : (putByte a b s).out = s.out := rfl
@[simp] theorem putByte_free (a : Nat) (b : Byte) : (putByte a b s).free = s.free := rfl
@[simp] theorem putByte_pending (a : Nat) (b : Byte) : (putByte a b s).pending = s.pending := rfl
@[simp] theorem rd_putByte (a : Nat) (b : Byte) (a' : Nat) : rd (putByte a b s) a' = rd s a' := rfl
@[simp] theorem rdF_putByte (a : Nat) (b : Byte) (a' hi' lo' : Nat) : rdF (putByte a b s) a' hi' lo' = rdF s a' hi' lo' := rfl
@[simp] theorem rdB_putByte (a : Nat) (b : Byte) (a' i' : Nat) : rdB (putByte a b s) a' i' = rdB s a' i' := rfl
@[simp] theorem tl_putByte (a : Nat) (b : Byte) (t' : Nat) : tl (putByte a b s) t' = tl s t' := rfl
@[simp] theorem cplOf_putByte (a : Nat) (b : Byte) (k' : Nat) : cplOf (putByte a b s) k' = cplOf s k' := rfl
@[simp] theorem prt_putByte (a : Nat) (b : Byte) (n' : Nat) : prt (putByte a b s) n' = prt s n' := rfl
@[simp] theorem stk_putByte (a : Nat) (b : Byte) (p' i' : Nat) : stk (putByte a b s) p' i' = stk s p' i' := rfl
@[simp] theorem hq_putByte (a : Nat) (b : Byte) (q' : Nat) : hq (putByte a b s) q' = hq s q' := rfl
@[simp] theorem bnd_putByte (a : Nat) (b : Byte) (b' : Nat) : bnd (putByte a b s) b' = bnd s b' := rfl
@[simp] theorem eccOf_putByte (a : Nat) (b : Byte) (u' : Nat) : eccOf (putByte a b s) u' = eccOf s u' := rfl
@[simp] theorem tileState_putByte (a : Nat) (b : Byte) (t' : Nat) : tileState (putByte a b s) t' = tileState s t' := rfl
@[simp] theorem tileIndex_putByte (a : Nat) (b : Byte) (t' : Nat) : tileIndex (putByte a b s) t' = tileIndex s t' := rfl

-- setEcc
@[simp] theorem setEcc_now (u : Nat) (e : Ecc) : (setEcc u e s).now = s.now := rfl
@[simp] theorem setEcc_regs (u : Nat) (e : Ecc) : (setEcc u e s).regs = s.regs := rfl
@[simp] theorem setEcc_mem (u : Nat) (e : Ecc) : (setEcc u e s).mem = s.mem := rfl
@[simp] theorem setEcc_tiles (u : Nat) (e : Ecc) : (setEcc u e s).tiles = s.tiles := rfl
@[simp] theorem setEcc_banks (u : Nat) (e : Ecc) : (setEcc u e s).banks = s.banks := rfl
@[simp] theorem setEcc_cpl (u : Nat) (e : Ecc) : (setEcc u e s).cpl = s.cpl := rfl
@[simp] theorem setEcc_rma (u : Nat) (e : Ecc) : (setEcc u e s).rma = s.rma := rfl
@[simp] theorem setEcc_hbm (u : Nat) (e : Ecc) : (setEcc u e s).hbm = s.hbm := rfl
@[simp] theorem setEcc_ports (u : Nat) (e : Ecc) : (setEcc u e s).ports = s.ports := rfl
@[simp] theorem setEcc_net (u : Nat) (e : Ecc) : (setEcc u e s).net = s.net := rfl
@[simp] theorem setEcc_tim (u : Nat) (e : Ecc) : (setEcc u e s).tim = s.tim := rfl
@[simp] theorem setEcc_coll (u : Nat) (e : Ecc) : (setEcc u e s).coll = s.coll := rfl
@[simp] theorem setEcc_cvu (u : Nat) (e : Ecc) : (setEcc u e s).cvu = s.cvu := rfl
@[simp] theorem setEcc_host (u : Nat) (e : Ecc) : (setEcc u e s).host = s.host := rfl
@[simp] theorem setEcc_pwr (u : Nat) (e : Ecc) : (setEcc u e s).pwr = s.pwr := rfl
@[simp] theorem setEcc_flt (u : Nat) (e : Ecc) : (setEcc u e s).flt = s.flt := rfl
@[simp] theorem setEcc_twin (u : Nat) (e : Ecc) : (setEcc u e s).twin = s.twin := rfl
@[simp] theorem setEcc_boot (u : Nat) (e : Ecc) : (setEcc u e s).boot = s.boot := rfl
@[simp] theorem setEcc_out (u : Nat) (e : Ecc) : (setEcc u e s).out = s.out := rfl
@[simp] theorem setEcc_free (u : Nat) (e : Ecc) : (setEcc u e s).free = s.free := rfl
@[simp] theorem setEcc_pending (u : Nat) (e : Ecc) : (setEcc u e s).pending = s.pending := rfl
@[simp] theorem rd_setEcc (u : Nat) (e : Ecc) (a' : Nat) : rd (setEcc u e s) a' = rd s a' := rfl
@[simp] theorem rdF_setEcc (u : Nat) (e : Ecc) (a' hi' lo' : Nat) : rdF (setEcc u e s) a' hi' lo' = rdF s a' hi' lo' := rfl
@[simp] theorem rdB_setEcc (u : Nat) (e : Ecc) (a' i' : Nat) : rdB (setEcc u e s) a' i' = rdB s a' i' := rfl
@[simp] theorem tl_setEcc (u : Nat) (e : Ecc) (t' : Nat) : tl (setEcc u e s) t' = tl s t' := rfl
@[simp] theorem cplOf_setEcc (u : Nat) (e : Ecc) (k' : Nat) : cplOf (setEcc u e s) k' = cplOf s k' := rfl
@[simp] theorem prt_setEcc (u : Nat) (e : Ecc) (n' : Nat) : prt (setEcc u e s) n' = prt s n' := rfl
@[simp] theorem stk_setEcc (u : Nat) (e : Ecc) (p' i' : Nat) : stk (setEcc u e s) p' i' = stk s p' i' := rfl
@[simp] theorem hq_setEcc (u : Nat) (e : Ecc) (q' : Nat) : hq (setEcc u e s) q' = hq s q' := rfl
@[simp] theorem bnd_setEcc (u : Nat) (e : Ecc) (b' : Nat) : bnd (setEcc u e s) b' = bnd s b' := rfl
@[simp] theorem memByte_setEcc (u : Nat) (e : Ecc) (a' : Nat) : memByte (setEcc u e s) a' = memByte s a' := rfl
@[simp] theorem tileState_setEcc (u : Nat) (e : Ecc) (t' : Nat) : tileState (setEcc u e s) t' = tileState s t' := rfl
@[simp] theorem tileIndex_setEcc (u : Nat) (e : Ecc) (t' : Nat) : tileIndex (setEcc u e s) t' = tileIndex s t' := rfl

-- queueReaction
@[simp] theorem queueReaction_now (r : Reaction) : (queueReaction r s).now = s.now := rfl
@[simp] theorem queueReaction_regs (r : Reaction) : (queueReaction r s).regs = s.regs := rfl
@[simp] theorem queueReaction_mem (r : Reaction) : (queueReaction r s).mem = s.mem := rfl
@[simp] theorem queueReaction_ecc (r : Reaction) : (queueReaction r s).ecc = s.ecc := rfl
@[simp] theorem queueReaction_tiles (r : Reaction) : (queueReaction r s).tiles = s.tiles := rfl
@[simp] theorem queueReaction_banks (r : Reaction) : (queueReaction r s).banks = s.banks := rfl
@[simp] theorem queueReaction_cpl (r : Reaction) : (queueReaction r s).cpl = s.cpl := rfl
@[simp] theorem queueReaction_rma (r : Reaction) : (queueReaction r s).rma = s.rma := rfl
@[simp] theorem queueReaction_hbm (r : Reaction) : (queueReaction r s).hbm = s.hbm := rfl
@[simp] theorem queueReaction_ports (r : Reaction) : (queueReaction r s).ports = s.ports := rfl
@[simp] theorem queueReaction_net (r : Reaction) : (queueReaction r s).net = s.net := rfl
@[simp] theorem queueReaction_tim (r : Reaction) : (queueReaction r s).tim = s.tim := rfl
@[simp] theorem queueReaction_coll (r : Reaction) : (queueReaction r s).coll = s.coll := rfl
@[simp] theorem queueReaction_cvu (r : Reaction) : (queueReaction r s).cvu = s.cvu := rfl
@[simp] theorem queueReaction_host (r : Reaction) : (queueReaction r s).host = s.host := rfl
@[simp] theorem queueReaction_pwr (r : Reaction) : (queueReaction r s).pwr = s.pwr := rfl
@[simp] theorem queueReaction_twin (r : Reaction) : (queueReaction r s).twin = s.twin := rfl
@[simp] theorem queueReaction_boot (r : Reaction) : (queueReaction r s).boot = s.boot := rfl
@[simp] theorem queueReaction_out (r : Reaction) : (queueReaction r s).out = s.out := rfl
@[simp] theorem queueReaction_free (r : Reaction) : (queueReaction r s).free = s.free := rfl
@[simp] theorem queueReaction_pending (r : Reaction) : (queueReaction r s).pending = s.pending := rfl
@[simp] theorem rd_queueReaction (r : Reaction) (a' : Nat) : rd (queueReaction r s) a' = rd s a' := rfl
@[simp] theorem rdF_queueReaction (r : Reaction) (a' hi' lo' : Nat) : rdF (queueReaction r s) a' hi' lo' = rdF s a' hi' lo' := rfl
@[simp] theorem rdB_queueReaction (r : Reaction) (a' i' : Nat) : rdB (queueReaction r s) a' i' = rdB s a' i' := rfl
@[simp] theorem tl_queueReaction (r : Reaction) (t' : Nat) : tl (queueReaction r s) t' = tl s t' := rfl
@[simp] theorem cplOf_queueReaction (r : Reaction) (k' : Nat) : cplOf (queueReaction r s) k' = cplOf s k' := rfl
@[simp] theorem prt_queueReaction (r : Reaction) (n' : Nat) : prt (queueReaction r s) n' = prt s n' := rfl
@[simp] theorem stk_queueReaction (r : Reaction) (p' i' : Nat) : stk (queueReaction r s) p' i' = stk s p' i' := rfl
@[simp] theorem hq_queueReaction (r : Reaction) (q' : Nat) : hq (queueReaction r s) q' = hq s q' := rfl
@[simp] theorem bnd_queueReaction (r : Reaction) (b' : Nat) : bnd (queueReaction r s) b' = bnd s b' := rfl
@[simp] theorem memByte_queueReaction (r : Reaction) (a' : Nat) : memByte (queueReaction r s) a' = memByte s a' := rfl
@[simp] theorem eccOf_queueReaction (r : Reaction) (u' : Nat) : eccOf (queueReaction r s) u' = eccOf s u' := rfl
@[simp] theorem tileState_queueReaction (r : Reaction) (t' : Nat) : tileState (queueReaction r s) t' = tileState s t' := rfl
@[simp] theorem tileIndex_queueReaction (r : Reaction) (t' : Nat) : tileIndex (queueReaction r s) t' = tileIndex s t' := rfl

end Sys2Proof.Machine
end

