-- ==== Sys2Proof/Laws/Table.lean ====
section
/-! SUPPORT. Sparse tables and bit fields: what a read gives after a write, and that a table keeps its canonical
form. -/

namespace Sys2Proof.Machine

variable {α : Type} [DecidableEq α]

-- Reading a table after a write

@[simp] theorem mget_nil {β : Type} (d : β) (k : Nat) : mget d ([] : Map β) k = d := rfl

theorem mget_mset_self (d : α) (m : Map α) (k : Nat) (v : α) : mget d (mset d m k v) k = v := by
  induction m with
  | nil => by_cases h : v = d <;> simp [mset, mget, h]
  | cons e r ih =>
    obtain ⟨k', v'⟩ := e
    by_cases hk : k = k'
    · subst hk
      by_cases hv : v = d
      · simpa [mset, hv] using hv ▸ ih
      · simp [mset, hv, mget]
    · by_cases hc : k < k' ∧ v ≠ d
      · simp [mset, hk, hc, mget]
      · simp [mset, hk, hc, mget, Ne.symm hk, ih]

/-- The default of the key read need not be that of the key written. -/
theorem mget_mset_ne' (d d' : α) (m : Map α) {k j : Nat} (v : α) (h : j ≠ k) :
    mget d' (mset d m k v) j = mget d' m j := by
  induction m with
  | nil => by_cases hv : v = d <;> simp [mset, mget, hv, Ne.symm h]
  | cons e r ih =>
    obtain ⟨k', v'⟩ := e
    by_cases hk : k = k'
    · subst hk
      by_cases hv : v = d
      · subst hv; simp [mset, mget, Ne.symm h, ih]
      · simp [mset, mget, hv, Ne.symm h]
    · by_cases hc : k < k' ∧ v ≠ d
      · simp [mset, mget, hk, hc, Ne.symm h]
      · simp [mset, mget, hk, hc, ih]

theorem mget_mset_ne (d : α) (m : Map α) {k j : Nat} (v : α) (h : j ≠ k) : mget d (mset d m k v) j = mget d m j :=
  mget_mset_ne' d d m v h

theorem mget_mset (d : α) (m : Map α) (k j : Nat) (v : α) :
    mget d (mset d m k v) j = if j = k then v else mget d m j := by
  by_cases h : j = k
  · subst h; simp [mget_mset_self]
  · simp [mget_mset_ne, h]

omit [DecidableEq α] in
theorem mget_mdrop (d : α) (f : Nat → Bool) (m : Map α) (k : Nat) :
    mget d (mdrop f m) k = if f k then d else mget d m k := by
  induction m with
  | nil => simp [mdrop]
  | cons e r ih =>
    obtain ⟨k', v'⟩ := e
    simp only [mdrop] at ih ⊢
    by_cases hf : f k' = true
    · by_cases hk : k' = k
      · subst hk; simp [hf, ih]
      · simp [hf, ih, mget, hk]
    · by_cases hk : k' = k
      · subst hk; simp [hf, mget]
      · simp [hf, mget, hk, ih]

-- Canonical form

/-- Every key of a table lies above a bound. -/
def Above (b : Nat) {β : Type} (m : Map β) : Prop := ∀ e ∈ m, b < e.1

theorem mwf_cons (d : Nat → α) (k : Nat) (v : α) (r : Map α) :
    mwf d ((k, v) :: r) = true ↔ v ≠ d k ∧ Above k r ∧ mwf d r = true := by
  induction r generalizing k v with
  | nil => simp [mwf, Above]
  | cons e r ih =>
    obtain ⟨k', v'⟩ := e
    simp only [mwf, Bool.and_eq_true, decide_eq_true_eq, Above, List.mem_cons, forall_eq_or_imp]
    constructor
    · rintro ⟨⟨h1, h2⟩, h3⟩
      exact ⟨h1, ⟨h2, fun e he => lt_trans h2 (((ih k' v').1 h3).2.1 e he)⟩, h3⟩
    · rintro ⟨h1, ⟨h2, _⟩, h3⟩
      exact ⟨⟨h1, h2⟩, h3⟩

theorem above_mset (d : α) (m : Map α) {b k : Nat} (v : α) (hb : b < k) (h : Above b m) : Above b (mset d m k v) := by
  induction m with
  | nil => by_cases hv : v = d <;> simp [mset, Above, hv, hb]
  | cons e r ih =>
    obtain ⟨k', v'⟩ := e
    have hr : Above b r := fun e he => h e (List.mem_cons_of_mem _ he)
    have hk' : b < k' := h (k', v') (List.mem_cons_self ..)
    have := ih hr
    simp only [mset]
    split
    · split
      · exact this
      · simp only [Above, List.mem_cons, forall_eq_or_imp]; exact ⟨hb, hr⟩
    · split
      · simp only [Above, List.mem_cons, forall_eq_or_imp]; exact ⟨hb, hk', hr⟩
      · simp only [Above, List.mem_cons, forall_eq_or_imp]; exact ⟨hk', this⟩

theorem mset_absent (d : α) (m : Map α) (k : Nat) (h : Above k m) : mset d m k d = m := by
  induction m with
  | nil => simp [mset]
  | cons e r ih =>
    obtain ⟨k', v'⟩ := e
    have hk : k < k' := h (k', v') (List.mem_cons_self ..)
    simp [mset, Nat.ne_of_lt hk, ih (fun e he => h e (List.mem_cons_of_mem _ he))]

/-- A write keeps the canonical form. -/
theorem mwf_mset (d : Nat → α) (m : Map α) (k : Nat) (v : α) (h : mwf d m = true) :
    mwf d (mset (d k) m k v) = true := by
  induction m with
  | nil => by_cases hv : v = d k <;> simp [mset, mwf, hv]
  | cons e r ih =>
    obtain ⟨k', v'⟩ := e
    obtain ⟨h1, h2, h3⟩ := (mwf_cons _ _ _ _).1 h
    simp only [mset]
    split
    · rename_i hk; subst hk
      split
      · exact ih h3
      · rename_i hv; exact (mwf_cons _ _ _ _).2 ⟨hv, h2, h3⟩
    · rename_i hk
      split
      · rename_i hc
        refine (mwf_cons _ _ _ _).2 ⟨hc.2, ?_, h⟩
        simp only [Above, List.mem_cons, forall_eq_or_imp]
        exact ⟨hc.1, fun e he => lt_trans hc.1 (h2 e he)⟩
      · rename_i hc
        by_cases hl : k < k'
        · have hv : v = d k := by by_contra hv; exact hc ⟨hl, hv⟩
          subst hv
          rw [mset_absent (d k) r k (fun e he => lt_trans hl (h2 e he))]
          exact h
        · exact (mwf_cons _ _ _ _).2 ⟨h1, above_mset (d k) r v (by omega) h2, ih h3⟩

theorem above_filter {β : Type} (p : Nat × β → Bool) (m : Map β) {b : Nat} (h : Above b m) : Above b (m.filter p) :=
  fun e he => h e (List.mem_of_mem_filter he)

/-- Dropping entries keeps the canonical form. -/
theorem mwf_mdrop (d : Nat → α) (f : Nat → Bool) (m : Map α) (h : mwf d m = true) : mwf d (mdrop f m) = true := by
  induction m with
  | nil => simp [mdrop, mwf]
  | cons e r ih =>
    obtain ⟨k, v⟩ := e
    obtain ⟨h1, h2, h3⟩ := (mwf_cons _ _ _ _).1 h
    simp only [mdrop] at ih ⊢
    by_cases hf : f k = true
    · simpa [hf] using ih h3
    · simp only [hf, List.filter_cons, Bool.not_false, if_true]
      exact (mwf_cons _ _ _ _).2 ⟨h1, above_filter _ r h2, ih h3⟩

omit [DecidableEq α] in
/-- Below its keys a table reads its default. -/
theorem mget_above (d : α) (m : Map α) {b k : Nat} (h : Above b m) (hk : k ≤ b) : mget d m k = d := by
  induction m with
  | nil => rfl
  | cons e r ih =>
    obtain ⟨k', v'⟩ := e
    have : b < k' := h (k', v') (List.mem_cons_self ..)
    simp [mget, show k' ≠ k by omega, ih (fun e he => h e (List.mem_cons_of_mem _ he))]

-- Ordered lists

omit [DecidableEq α] in
theorem insertBy_perm (le : α → α → Bool) (x : α) (l : List α) : (insertBy le x l).Perm (x :: l) := by
  induction l with
  | nil => exact List.Perm.refl _
  | cons y r ih =>
    simp only [insertBy]
    split
    · exact List.Perm.refl _
    · exact (List.Perm.cons y ih).trans (List.Perm.swap x y r)

omit [DecidableEq α] in
/-- Ordering a list only moves its elements. -/
theorem sortBy_perm (le : α → α → Bool) (l : List α) : (sortBy le l).Perm l := by
  induction l with
  | nil => exact List.Perm.refl _
  | cons x r ih => exact (insertBy_perm le x _).trans (List.Perm.cons x ih)

-- Bit fields

theorem fld_lt (w : Word) (hi lo : Nat) : fld w hi lo < 2 ^ (hi + 1 - lo) := Nat.mod_lt _ (by positivity)

@[simp] theorem wd_toNat (n : Nat) : (wd n).toNat = n % 2 ^ 64 := by simp [wd]

theorem wd_toNat_of_lt {n : Nat} (h : n < 2 ^ 64) : (wd n).toNat = n := by
  rw [wd_toNat]; exact Nat.mod_eq_of_lt h

/-- Bit `i` of a field. -/
theorem fld_testBit (w : Word) (hi lo i : Nat) :
    (fld w hi lo).testBit i = (decide (i < hi + 1 - lo) && bit w (lo + i)) := by
  simp [fld, bit, Nat.testBit_mod_two_pow, Nat.testBit_div_two_pow, BitVec.getLsbD, Nat.add_comm]

/-- Bit `i` of a word whose field was replaced. -/
theorem bit_setFld (w : Word) (hi lo v i : Nat) (h : lo ≤ hi) (h64 : hi < 64) :
    bit (setFld w hi lo v) i = if lo ≤ i ∧ i ≤ hi then v.testBit (i - lo) else bit w i := by
  have hw : w.toNat < 2 ^ 64 := w.isLt
  have e : w.toNat / 2 ^ (hi + 1) * 2 ^ (hi + 1) + v % 2 ^ (hi + 1 - lo) * 2 ^ lo + w.toNat % 2 ^ lo
      = 2 ^ (hi + 1) * (w.toNat / 2 ^ (hi + 1)) + (2 ^ lo * (v % 2 ^ (hi + 1 - lo)) + w.toNat % 2 ^ lo) := by ring
  have hm : v % 2 ^ (hi + 1 - lo) < 2 ^ (hi + 1 - lo) := Nat.mod_lt _ (by positivity)
  have hr : w.toNat % 2 ^ lo < 2 ^ lo := Nat.mod_lt _ (by positivity)
  have hs : 2 ^ (hi + 1) = 2 ^ lo * 2 ^ (hi + 1 - lo) := by rw [← pow_add]; congr 1; omega
  have hin : 2 ^ lo * (v % 2 ^ (hi + 1 - lo)) + w.toNat % 2 ^ lo < 2 ^ (hi + 1) := by
    rw [hs]
    calc 2 ^ lo * (v % 2 ^ (hi + 1 - lo)) + w.toNat % 2 ^ lo
        < 2 ^ lo * (v % 2 ^ (hi + 1 - lo)) + 2 ^ lo := by omega
      _ = 2 ^ lo * (v % 2 ^ (hi + 1 - lo) + 1) := by ring
      _ ≤ 2 ^ lo * 2 ^ (hi + 1 - lo) := Nat.mul_le_mul_left _ hm
  simp only [bit, setFld, BitVec.getLsbD_ofNat, e]
  rw [Nat.testBit_two_pow_mul_add _ hin, Nat.testBit_two_pow_mul_add _ hr]
  simp only [Nat.testBit_mod_two_pow, Nat.testBit_div_two_pow, BitVec.getLsbD]
  by_cases h1 : i < hi + 1
  · by_cases h2 : i < lo
    · have : ¬ (lo ≤ i ∧ i ≤ hi) := by omega
      simp [h1, h2, this, show i < 64 by omega]
    · have h3 : lo ≤ i ∧ i ≤ hi := by omega
      have h4 : i - lo < hi + 1 - lo := by omega
      simp [h1, h2, h3, h4, show i < 64 by omega]
  · have h3 : ¬ (lo ≤ i ∧ i ≤ hi) := by omega
    simp only [h1, h3, if_false]
    rw [show i - (hi + 1) + (hi + 1) = i by omega]
    by_cases h5 : i < 64
    · simp [h5]
    · have hx : w.toNat.testBit i = false :=
        Nat.testBit_lt_two_pow (lt_of_lt_of_le hw (Nat.pow_le_pow_right (by norm_num) (by omega)))
      simp [h5, hx]

/-- A field reads what was written into it. -/
theorem fld_setFld (w : Word) (hi lo v : Nat) (h : lo ≤ hi) (h64 : hi < 64) :
    fld (setFld w hi lo v) hi lo = v % 2 ^ (hi + 1 - lo) := by
  apply Nat.eq_of_testBit_eq
  intro i
  rw [fld_testBit, bit_setFld _ _ _ _ _ h h64, Nat.testBit_mod_two_pow]
  by_cases hi' : i < hi + 1 - lo
  · have : lo ≤ lo + i ∧ lo + i ≤ hi := by omega
    simp [hi', this]
  · simp [hi']

/-- A field reads as before after a write of another one. -/
theorem fld_setFld_other (w : Word) (hi lo v hi' lo' : Nat) (h : lo ≤ hi) (h64 : hi < 64) (hd : hi' < lo ∨ hi < lo') :
    fld (setFld w hi lo v) hi' lo' = fld w hi' lo' := by
  apply Nat.eq_of_testBit_eq
  intro i
  rw [fld_testBit, fld_testBit, bit_setFld _ _ _ _ _ h h64]
  by_cases hi' : i < hi' + 1 - lo'
  · have : ¬ (lo ≤ lo' + i ∧ lo' + i ≤ hi) := by omega
    simp [this]
  · simp [hi']

/-- A bit reads what was written into it. -/
theorem bit_setBit_self (w : Word) (i : Nat) (b : Bool) (h : i < 64) : bit (setBit w i b) i = b := by
  simp only [setBit]
  rw [bit_setFld _ _ _ _ _ (le_refl i) h]
  cases b <;> simp

/-- A bit reads as before after a write of another one. -/
theorem bit_setBit_other (w : Word) (i j : Nat) (b : Bool) (h : i < 64) (hd : j ≠ i) :
    bit (setBit w i b) j = bit w j := by
  simp only [setBit]
  rw [bit_setFld _ _ _ _ _ (le_refl i) h]
  have : ¬ (i ≤ j ∧ j ≤ i) := by omega
  simp [this]

/-- A field reads as before after a write of a bit outside it. -/
theorem fld_setBit_other (w : Word) (i hi lo : Nat) (b : Bool) (h : i < 64) (hd : hi < i ∨ i < lo) :
    fld (setBit w i b) hi lo = fld w hi lo := fld_setFld_other _ _ _ _ _ _ (le_refl i) h hd

end Sys2Proof.Machine
end

