-- ==== Sys2Proof/Laws/Ops.lean ====
section
/-! SUPPORT. What the shared operations leave to be read: registers and their fields, tiles, memory. -/

namespace Sys2Proof.Machine

variable (s : State)

-- Registers

@[simp] theorem rd_wrReg_self (a : Nat) (v : Word) : rd (wrReg a v s) a = v := mget_mset_self ..

@[simp] theorem rd_wrReg_ne {a b : Nat} (v : Word) (h : b ≠ a) : rd (wrReg a v s) b = rd s b :=
  mget_mset_ne' _ _ _ _ h

theorem rd_wrReg' (a b : Nat) (v : Word) : rd (wrReg a v s) b = if b = a then v else rd s b := by
  by_cases h : b = a
  · subst h; simp
  · simp [h]

@[simp] theorem rd_wrF_self (a hi lo v : Nat) : rd (wrF a hi lo v s) a = setFld (rd s a) hi lo v := by simp [wrF]

@[simp] theorem rd_wrF_ne {a b : Nat} (hi lo v : Nat) (h : b ≠ a) : rd (wrF a hi lo v s) b = rd s b := by
  simp [wrF, h]

@[simp] theorem rd_wrB_ne {a b : Nat} (i : Nat) (v : Bool) (h : b ≠ a) : rd (wrB a i v s) b = rd s b := by
  simp [wrB, h]

@[simp] theorem rd_orReg_self (a m : Nat) : rd (orReg a m s) a = rd s a ||| wd m := by simp [orReg]

@[simp] theorem rd_orReg_ne {a b : Nat} (m : Nat) (h : b ≠ a) : rd (orReg a m s) b = rd s b := by simp [orReg, h]

@[simp] theorem rd_clrReg_self (a m : Nat) : rd (clrReg a m s) a = rd s a &&& ~~~ wd m := by simp [clrReg]

@[simp] theorem rd_clrReg_ne {a b : Nat} (m : Nat) (h : b ≠ a) : rd (clrReg a m s) b = rd s b := by simp [clrReg, h]

@[simp] theorem rd_addSat_ne {a b : Nat} (hi lo n : Nat) (h : b ≠ a) : rd (addSat a hi lo n s) b = rd s b := by
  simp [addSat, h]

@[simp] theorem rd_addWrap_ne {a b : Nat} (hi lo n : Nat) (h : b ≠ a) : rd (addWrap a hi lo n s) b = rd s b := by
  simp [addWrap, h]

/-- A field reads what was written into it. -/
theorem rdF_wrF_self (a hi lo v : Nat) (h : lo ≤ hi) (h64 : hi < 64) :
    rdF (wrF a hi lo v s) a hi lo = v % 2 ^ (hi + 1 - lo) := by simp [rdF, fld_setFld, h, h64]

/-- A field reads as before after a write of another one. -/
theorem rdF_wrF_other (a hi lo v hi' lo' : Nat) (h : lo ≤ hi) (h64 : hi < 64) (hd : hi' < lo ∨ hi < lo') :
    rdF (wrF a hi lo v s) a hi' lo' = rdF s a hi' lo' := by
  simp only [rdF, rd_wrF_self]; exact fld_setFld_other _ _ _ _ _ _ h h64 hd

@[simp] theorem rdF_wrF_ne {a b : Nat} (hi lo v hi' lo' : Nat) (h : b ≠ a) :
    rdF (wrF a hi lo v s) b hi' lo' = rdF s b hi' lo' := by simp [rdF, h]

@[simp] theorem rdF_wrReg_self (a hi lo : Nat) (v : Word) : rdF (wrReg a v s) a hi lo = fld v hi lo := by simp [rdF]

@[simp] theorem rdF_wrReg_ne {a b : Nat} (v : Word) (hi lo : Nat) (h : b ≠ a) :
    rdF (wrReg a v s) b hi lo = rdF s b hi lo := by simp [rdF, h]

@[simp] theorem rdF_wrB_ne {a b : Nat} (i : Nat) (v : Bool) (hi lo : Nat) (h : b ≠ a) :
    rdF (wrB a i v s) b hi lo = rdF s b hi lo := by simp [rdF, h]

@[simp] theorem rdF_orReg_ne {a b : Nat} (m hi lo : Nat) (h : b ≠ a) :
    rdF (orReg a m s) b hi lo = rdF s b hi lo := by simp [rdF, h]

/-- A bit reads what was written into it. -/
theorem rdB_wrB_self (a i : Nat) (b : Bool) (h : i < 64) : rdB (wrB a i b s) a i = b := by
  have := bit_setBit_self (rd s a) i b h
  simpa [rdB, wrB, setBit] using this

/-- A bit reads as before after a write of another one. -/
theorem rdB_wrB_other (a i j : Nat) (b : Bool) (h : i < 64) (hd : j ≠ i) : rdB (wrB a i b s) a j = rdB s a j := by
  have := bit_setBit_other (rd s a) i j b h hd
  simpa [rdB, wrB, setBit] using this

@[simp] theorem rdB_wrB_ne {a b : Nat} (i j : Nat) (v : Bool) (h : b ≠ a) : rdB (wrB a i v s) b j = rdB s b j := by
  simp [rdB, h]

@[simp] theorem rdB_wrF_ne {a b : Nat} (hi lo v j : Nat) (h : b ≠ a) : rdB (wrF a hi lo v s) b j = rdB s b j := by
  simp [rdB, h]

@[simp] theorem rdB_wrReg_self (a i : Nat) (v : Word) : rdB (wrReg a v s) a i = bit v i := by simp [rdB]

@[simp] theorem rdB_wrReg_ne {a b : Nat} (v : Word) (j : Nat) (h : b ≠ a) : rdB (wrReg a v s) b j = rdB s b j := by
  simp [rdB, h]

/-- A bit reads as before after a write of a field that does not hold it. -/
theorem rdB_wrF_other (a hi lo v j : Nat) (h : lo ≤ hi) (h64 : hi < 64) (hd : j < lo ∨ hi < j) :
    rdB (wrF a hi lo v s) a j = rdB s a j := by
  have : ¬ (lo ≤ j ∧ j ≤ hi) := by omega
  simp [rdB, bit_setFld _ _ _ _ _ h h64, this]

/-- A field reads as before after a write of a bit outside it. -/
theorem rdF_wrB_other (a i hi lo : Nat) (b : Bool) (h : i < 64) (hd : hi < i ∨ i < lo) :
    rdF (wrB a i b s) a hi lo = rdF s a hi lo := rdF_wrF_other s a i i _ hi lo (le_refl i) h hd

-- Tiles

@[simp] theorem tl_setTl_self (t : Nat) (x : Tile) : tl (setTl t x s) t = x := mget_mset_self ..

@[simp] theorem tl_setTl_ne {t u : Nat} (x : Tile) (h : u ≠ t) : tl (setTl t x s) u = tl s u := mget_mset_ne _ _ _ h

@[simp] theorem tl_onTl_self (t : Nat) (f : Tile → Tile) : tl (onTl t f s) t = f (tl s t) := by simp [onTl]

@[simp] theorem tl_onTl_ne {t u : Nat} (f : Tile → Tile) (h : u ≠ t) : tl (onTl t f s) u = tl s u := by
  simp [onTl, h]

@[simp] theorem greg_zero (x : Tile) : greg x 0 = 0 := rfl

theorem greg_setG_self (x : Tile) {r : Nat} (v : Word) (h : r ≠ 0) : greg (setG r v x) r = v := by
  simp [greg, setG, h, mget_mset_self]

theorem greg_setG_ne (x : Tile) {r q : Nat} (v : Word) (h : q ≠ r) : greg (setG r v x) q = greg x q := by
  by_cases hr : r = 0
  · simp [setG, hr]
  · by_cases hq : q = 0
    · simp [greg, hq]
    · simp [greg, setG, hr, hq, mget_mset_ne _ _ _ h]

@[simp] theorem setG_zero (v : Word) (x : Tile) : setG 0 v x = x := rfl

@[simp] theorem preg_zero (x : Tile) : preg x 0 = true := rfl

@[simp] theorem setP_zero (b : Bool) (x : Tile) : setP 0 b x = x := rfl

/-- Every field of a tile but its general registers stays in a write of one of them. -/
theorem setG_frame (r : Nat) (v : Word) (x : Tile) : { setG r v x with g := x.g } = x := by
  by_cases h : r = 0 <;> simp [setG, h]

-- Ports, stacks, queues, bonds, completion entries

@[simp] theorem cplOf_setCpl_self (k : Nat) (e : Cpl) : cplOf (setCpl k e s) k = e := mget_mset_self ..

@[simp] theorem cplOf_setCpl_ne {k j : Nat} (e : Cpl) (h : j ≠ k) : cplOf (setCpl k e s) j = cplOf s j :=
  mget_mset_ne _ _ _ h

@[simp] theorem prt_onPrt_self (n : Nat) (f : Port → Port) : prt (onPrt n f s) n = f (prt s n) := mget_mset_self ..

@[simp] theorem prt_onPrt_ne {n m : Nat} (f : Port → Port) (h : m ≠ n) : prt (onPrt n f s) m = prt s m :=
  mget_mset_ne _ _ _ h

@[simp] theorem stk_onStk_self (p i : Nat) (f : Stack → Stack) : stk (onStk p i f s) p i = f (stk s p i) :=
  mget_mset_self ..

@[simp] theorem hq_onHq_self (q : Nat) (f : HQueue → HQueue) : hq (onHq q f s) q = f (hq s q) := mget_mset_self ..

@[simp] theorem hq_onHq_ne {q r : Nat} (f : HQueue → HQueue) (h : r ≠ q) : hq (onHq q f s) r = hq s r :=
  mget_mset_ne _ _ _ h

@[simp] theorem bnd_onBnd_self (b : Nat) (f : Bond → Bond) : bnd (onBnd b f s) b = f (bnd s b) := mget_mset_self ..

-- The clock

theorem passTicks_cases (n : Nat) : ∃ c, passTicks n s = { s with coll := c, now := s.now + wd n } := by
  unfold passTicks; split
  · exact ⟨_, rfl⟩
  · exact ⟨s.coll, rfl⟩

/-- The clock's move changes the clock and the slack count alone. -/
theorem clockTo_cases (t : Nat) : ∃ c n, clockTo t s = { s with coll := c, now := n } := by
  unfold clockTo; split
  · obtain ⟨c, h⟩ := passTicks_cases s (t - now s); exact ⟨c, _, h⟩
  · exact ⟨s.coll, s.now, rfl⟩

@[simp] theorem rd_clockTo (t a : Nat) : rd (clockTo t s) a = rd s a := by
  obtain ⟨c, n, h⟩ := clockTo_cases s t; rw [h]; rfl

@[simp] theorem tl_clockTo (t u : Nat) : tl (clockTo t s) u = tl s u := by
  obtain ⟨c, n, h⟩ := clockTo_cases s t; rw [h]; rfl

@[simp] theorem cplOf_clockTo (t k : Nat) : cplOf (clockTo t s) k = cplOf s k := by
  obtain ⟨c, n, h⟩ := clockTo_cases s t; rw [h]; rfl

/-- The clock never stands before the time that a command happens at. -/
theorem now_clockTo (t : Nat) (h : t < 2 ^ 64) : t ≤ now (clockTo t s) := by
  unfold clockTo
  split
  · rename_i hc
    obtain ⟨c, e⟩ := passTicks_cases s (t - now s)
    rw [e]
    have hn : s.now.toNat < 2 ^ 64 := s.now.isLt
    simp only [now, BitVec.toNat_add, wd_toNat] at hc ⊢
    omega
  · rename_i hc; omega

end Sys2Proof.Machine
end

