-- ==== Sys2Proof/Laws/Tile.lean ====
section
/-! SUPPORT. How a tile issues an instruction and goes on: one lemma for each shared operation. -/

namespace Sys2Proof.Machine

variable (s : State) (t : Nat)

-- Register numbers

theorem tileStatus_ne_cycles (a b : Nat) : Reg.tileStatus a ≠ Reg.cycles b := by
  simp only [Reg.tileStatus, Reg.cycles, Reg.tileBase]; omega

theorem tileStatus_inj {a b : Nat} (h : a ≠ b) : Reg.tileStatus a ≠ Reg.tileStatus b := by
  simp only [Reg.tileStatus, Reg.tileBase]; omega

theorem cycles_ne_tileStatus (a b : Nat) : Reg.cycles a ≠ Reg.tileStatus b := (tileStatus_ne_cycles b a).symm

-- Issue

/-- What issuing an instruction can do (R67, R68, R71, R74). -/
theorem issue_cases (pn : Bool) (pg : BitVec 3) (illegal : Bool) (reads : List Nat) (body : State → State) :
    (canIssue s t = false ∧ issue t pn pg illegal reads body s = s)
    ∨ (canIssue s t = true ∧ illegal = true ∧ issue t pn pg illegal reads body s = tileFault t 1 s)
    ∨ (canIssue s t = true ∧ illegal = false ∧ guardTrue (tl s t) pn pg = false
        ∧ issue t pn pg illegal reads body s = advance t s)
    ∨ (canIssue s t = true ∧ illegal = false ∧ guardTrue (tl s t) pn pg = true
        ∧ (∃ r ∈ reads, r ≠ 0 ∧ r ∈ (tl s t).pend) ∧ issue t pn pg illegal reads body s = stalled t s)
    ∨ (illegal = false ∧ Runs s t pn pg reads ∧ issue t pn pg illegal reads body s = body s) := by
  unfold issue Runs
  cases hc : canIssue s t
  · simp
  · cases illegal
    · cases hg : guardTrue (tl s t) pn pg
      · simp
      · by_cases hr : reads.any (fun r => r != 0 && (tl s t).pend.contains r) = true
        · simp only [List.any_eq_true, Bool.and_eq_true, bne_iff_ne, List.contains_iff_mem] at hr
          simp [hr]
        · have hr' := hr
          simp only [List.any_eq_true, Bool.and_eq_true, bne_iff_ne, List.contains_iff_mem, not_exists, not_and] at hr'
          simp only [Bool.not_true, Bool.false_eq_true, if_false, hr, true_and, and_true, Bool.true_eq_false, false_and,
            false_or]
          right
          intro r hm
          by_cases h0 : r = 0
          · exact .inl h0
          · exact .inr (hr' r hm h0)
    · simp

/-- An instruction that a tile can issue runs. -/
theorem issue_runs {pn : Bool} {pg : BitVec 3} {illegal : Bool} {reads : List Nat} (body : State → State)
    (h : Runs s t pn pg reads) (hi : illegal = false) : issue t pn pg illegal reads body s = body s := by
  obtain ⟨h1, h2, h3⟩ := h
  rcases issue_cases s t pn pg illegal reads body with c | c | c | c | c
  · simp [h1] at c
  · simp [hi] at c
  · simp [h2] at c
  · obtain ⟨_, _, _, ⟨r, hr, h0, hp⟩, _⟩ := c
    rcases h3 r hr with e | e
    · exact absurd e h0
    · exact absurd hp e
  · exact c.2.2

-- Going on to the next instruction

/-- A tile that goes on to its next instruction: what is left of the state before (R96, R100, R101). -/
theorem advance_movedOn {l : List Nat} {v : State} (hr : v.rest = s.rest)
    (hs : rd v (Reg.tileStatus t) = rd s (Reg.tileStatus t)) (hc : rd v (Reg.cycles t) = rd s (Reg.cycles t))
    (hl : RegsKept l s v) (ht : TilesKept t s v) : MovedOn t l s (advance t v) := by
  have hi : tileIndex v t = tileIndex s t := by simp [tileIndex, rdF, hs]
  have e : (rd (advance t v) (Reg.tileStatus t))
      = setFld (setFld (rd s (Reg.tileStatus t)) 44 32 (tileIndex s t + 1)) 15 12 0 := by
    simp [advance, tileStatus_ne_cycles, hs, hi]
  refine ⟨?_, ?_, ?_, ?_, ?_, ?_⟩
  · simp only [tileIndex, rdF, e]
    rw [fld_setFld_other _ 15 12 0 44 32 (by omega) (by omega) (by omega), fld_setFld _ 44 32 _ (by omega) (by omega)]
    rfl
  · simp [advance, hc]
  · simp only [tileState, rdF, e]
    rw [fld_setFld_other _ 15 12 0 3 0 (by omega) (by omega) (by omega),
      fld_setFld_other _ 44 32 _ 3 0 (by omega) (by omega) (by omega)]
  · intro a ha
    simp only [List.mem_cons, not_or] at ha
    simp only [advance, rd_wrReg_ne _ _ ha.2.1, rd_wrF_ne _ _ _ _ ha.1, rd_onTl]
    exact hl a ha.2.2
  · intro k hk
    simp only [advance, tl_wrReg, tl_wrF, tl_onTl_ne _ _ hk]
    exact ht k hk
  · rw [← hr]; rfl

@[simp] theorem memByte_advance (a : Nat) : memByte (advance t s) a = memByte s a := rfl

theorem tl_advance : tl (advance t s) t
    = { tl s t with iq := (tl s t).iq.tail, asked := false, wrapped := decide (tileIndex s t = 8191) } := by
  simp [advance]

@[simp] theorem greg_advance (r : Nat) : greg (tl (advance t s) t) r = greg (tl s t) r := by
  rw [tl_advance]; rfl

@[simp] theorem preg_advance (r : Nat) : preg (tl (advance t s) t) r = preg (tl s t) r := by
  rw [tl_advance]; rfl

@[simp] theorem vreg_advance (r : Nat) : vreg (tl (advance t s) t) r = vreg (tl s t) r := by
  rw [tl_advance]; rfl

/-- An instruction that writes a general register and goes on. -/
theorem putG_done (d : BitVec 5) (v : Word) :
    WroteG t d v s (putG t d v s) ∧ PKept t s (putG t d v s) ∧ VKept t s (putG t d v s)
      ∧ (tl (putG t d v s) t).rest = (tl s t).rest ∧ MovedOn t [] s (putG t d v s) ∧ MemKept s (putG t d v s) := by
  refine ⟨⟨?_, ?_⟩, ?_, ?_, ?_, ?_, fun _ => rfl⟩
  · by_cases h : d = 0
    · subst h; simp [gv]
    · have : d.toNat ≠ 0 := fun e => h (BitVec.eq_of_toNat_eq (by simpa using e))
      rw [if_neg h]; simp [gv, putG, greg_setG_self _ _ this]
  · intro r hr; simp [putG, greg_setG_ne _ _ hr]
  · intro i; simp only [putG, preg_advance, tl_onTl_self]; unfold setG preg; split <;> rfl
  · intro r; simp only [putG, vreg_advance, tl_onTl_self]; unfold setG vreg; split <;> rfl
  · simp only [putG, tl_advance, tl_onTl_self]; unfold setG Tile.rest; split <;> rfl
  · exact advance_movedOn s t rfl rfl rfl (fun _ _ => rfl) (fun k hk => tl_onTl_ne _ _ hk)

theorem preg_setP (x : Tile) {d : Nat} (b : Bool) (hd : d < 8) (i : Nat) :
    preg (setP d b x) i = if i = d then (d == 0 || b) else preg x i := by
  by_cases h0 : d = 0
  · subst h0; by_cases hi : i = 0 <;> simp [preg, hi]
  · have hm : (BitVec.ofNat 8 (2 ^ d)).getLsbD i = (decide (i < 8) && decide (d = i)) := by
      rw [BitVec.getLsbD_ofNat, Nat.testBit_two_pow]
    have hp : (setP d b x).p.getLsbD i = if i = d then b else x.p.getLsbD i := by
      by_cases h8 : i < 8
      · by_cases hi : i = d
        · subst hi
          cases b <;> simp only [setP, h0, if_false, Bool.false_eq_true, if_true, BitVec.getLsbD_or, BitVec.getLsbD_and,
            BitVec.getLsbD_not, hm] <;> simp [h8]
        · have hi' : ¬ d = i := fun e => hi e.symm
          cases b <;> simp only [setP, h0, if_false, Bool.false_eq_true, if_true, BitVec.getLsbD_or, BitVec.getLsbD_and,
            BitVec.getLsbD_not, hm, hi, hi'] <;> simp [h8]
      · have hi : ¬ i = d := by omega
        rw [BitVec.getLsbD_of_ge _ i (by omega), BitVec.getLsbD_of_ge _ i (by omega)]
        simp [hi]
    unfold preg
    rw [hp]
    by_cases hi : i = d
    · subst hi; simp
    · simp [hi]

/-- An instruction that writes a predicate and goes on. -/
theorem putP_done {d : Nat} (hd : d < 8) (b : Bool) :
    WroteP t d b s (putP t d b s) ∧ GKept t s (putP t d b s) ∧ VKept t s (putP t d b s)
      ∧ (tl (putP t d b s) t).rest = (tl s t).rest ∧ MovedOn t [] s (putP t d b s) ∧ MemKept s (putP t d b s) := by
  refine ⟨⟨?_, ?_⟩, ?_, ?_, ?_, ?_, fun _ => rfl⟩
  · simp [putP, preg_setP _ _ hd]
  · intro i hi; simp [putP, preg_setP _ _ hd, hi]
  · intro r; simp only [putP, greg_advance, tl_onTl_self]; unfold setP; split <;> rfl
  · intro r; simp only [putP, vreg_advance, tl_onTl_self]; unfold setP; split <;> rfl
  · simp only [putP, tl_advance, tl_onTl_self]; unfold setP Tile.rest; split <;> rfl
  · exact advance_movedOn s t rfl rfl rfl (fun _ _ => rfl) (fun k hk => tl_onTl_ne _ _ hk)

end Sys2Proof.Machine
end

