-- ==== Sys2Proof/Laws/Banks.lean ====
section
/-! SUPPORT. What a bank's queues leave of the state, and when a unit of a tile has its own SRAM at once. -/

namespace Sys2Proof.Machine

variable (s : State)

@[simp] theorem bank_onBank_self (g : Nat) (f : Bank → Bank) : bank (onBank g f s) g = f (bank s g) := mget_mset_self ..

@[simp] theorem bank_onBank_ne {g h : Nat} (f : Bank → Bank) (n : h ≠ g) : bank (onBank g f s) h = bank s h :=
  mget_mset_ne _ _ _ n

/-- Changing some banks changes nothing else, and no other bank. -/
theorem foldl_onBank (f : Nat → Bank → Bank) (l : List Nat) (s : State) :
    ∃ b, l.foldl (fun s g => onBank g (f g) s) s = { s with banks := b }
      ∧ ∀ h, h ∉ l → mget {} b h = mget {} s.banks h := by
  induction l generalizing s with
  | nil => exact ⟨s.banks, rfl, fun _ _ => rfl⟩
  | cons g l ih =>
    obtain ⟨b, e, k⟩ := ih (onBank g (f g) s)
    refine ⟨b, e, fun h m => ?_⟩
    simp only [List.mem_cons, not_or] at m
    rw [k h m.2]
    exact mget_mset_ne _ _ _ m.1

/-- An access that its banks admit changes their queues alone. -/
theorem admitWords_frame (a n : Nat) (e : BankEntry) :
    ∃ b, admitWords a n e s = { s with banks := b } ∧ ∀ h, h ∉ banksAt a n → mget {} b h = mget {} s.banks h :=
  foldl_onBank (fun g b => { b with entries := b.entries ++ [entryFor g a n e] }) (banksAt a n) s

/-- The banks of bytes of a tile's SRAM are banks of that tile. -/
theorem banksAt_sram {t off n g : Nat} (h : off + n ≤ 0x200000) (hn : n ≠ 0)
    (m : g ∈ banksAt (sramAddr t off) n) : g / 16 = t := by
  simp only [banksAt, sramAddr, List.mem_map, List.mem_range] at m
  obtain ⟨i, hi, rfl⟩ := m
  omega

/-- A unit of a tile that may access some bytes of the tile's SRAM, before which nothing waits, has them at once; of the
rest of the state only the queues of the tile's banks change (R146, R153). -/
theorem askBanks_granted {t port off n : Nat} (isRead two : Bool) (hn : n ≠ 0)
    (h : off + n ≤ 0x200000) (ha : (tl s t).asked = false) (hl : localCheck s t off n = none)
    (hc : banksClear s port (sramAddr t off) n = true) :
    ∃ b, askBanks t port isRead two [(off, n)] s
        = .granted (onTl t (fun x => { x with asked := true }) { s with banks := b })
      ∧ ∀ g, g / 16 ≠ t → mget {} b g = mget {} s.banks g := by
  obtain ⟨b, e, k⟩ := admitWords_frame s (sramAddr t off) n
    { port := port, word := 0, left := 0, isRead := isRead, two := two, index := tileIndex s t }
  refine ⟨b, ?_, fun g hg => k g (fun m => hg (banksAt_sram h hn m))⟩
  simp [askBanks, ha, hn, firstRefused, hl, hc, e]

end Sys2Proof.Machine
end

