-- ==== Sys2Proof/Laws/Memory.lean ====
section
/-! SUPPORT. Memory: every operation keeps the canonical form, a read after a write gives what was written, and a write
leaves every other byte alone. -/

namespace Sys2Proof.Machine

variable (s : State)

theorem memWf_iff : s.memWf = true ↔ mwf (fun _ => (0 : Byte)) s.mem = true ∧ mwf (fun _ => Ecc.clean) s.ecc = true := by
  simp [State.memWf, Memory.wf]

/-- The state at reset has memory in canonical form. -/
theorem reset_memWf : State.reset.memWf = true := rfl

-- Canonical form

theorem putByte_memWf (a : Nat) (b : Byte) (h : s.memWf = true) : (putByte a b s).memWf = true := by
  obtain ⟨hm, he⟩ := (memWf_iff s).1 h
  exact (memWf_iff _).2 ⟨mwf_mset (fun _ => 0) s.mem a b hm, he⟩

theorem putBytes_memWf (a : Nat) (bs : List Byte) (h : s.memWf = true) : (putBytes a bs s).memWf = true := by
  induction bs generalizing a s with
  | nil => exact h
  | cons b r ih => exact ih _ _ (putByte_memWf s a b h)

theorem setEcc_memWf (u : Nat) (e : Ecc) (h : s.memWf = true) : (setEcc u e s).memWf = true := by
  obtain ⟨hm, he⟩ := (memWf_iff s).1 h
  exact (memWf_iff _).2 ⟨hm, mwf_mset (fun _ => .clean) s.ecc u e he⟩

theorem putUnblocked_memWf (l : List Nat) (a : Nat) (bs : List Byte) (h : s.memWf = true) :
    (putUnblocked l a bs s).memWf = true := by
  induction bs generalizing a s with
  | nil => exact h
  | cons b r ih =>
    refine ih _ _ ?_
    split
    · exact h
    · exact putByte_memWf s a b h

theorem setEccs_memWf (l : List Nat) (e : Ecc) (h : s.memWf = true) :
    (l.foldl (fun s u => setEcc u e s) s).memWf = true := by
  induction l generalizing s with
  | nil => exact h
  | cons u r ih => exact ih _ (setEcc_memWf s u e h)

/-- A write to memory with its check bits keeps the canonical form. -/
theorem writeMem_memWf (whole poison : Bool) (a : Nat) (bs : List Byte) (h : s.memWf = true) :
    (writeMem whole poison a bs s).2.memWf = true :=
  setEccs_memWf _ _ _ (putUnblocked_memWf s _ a bs h)

theorem zeroRange_memWf (lo hi : Nat) (h : s.memWf = true) : (zeroRange lo hi s).memWf = true := by
  obtain ⟨hm, he⟩ := (memWf_iff s).1 h
  refine (memWf_iff _).2 ⟨?_, ?_⟩
  · exact mwf_mdrop (fun _ => 0) (fun a => decide (lo ≤ a ∧ a < hi)) s.mem hm
  · exact mwf_mdrop (fun _ => Ecc.clean) (fun u => decide (lo ≤ 32 * u ∧ 32 * u < hi)) s.ecc he

-- What is read after a write

@[simp] theorem memByte_putByte (a c : Nat) (b : Byte) : memByte (putByte a b s) c = if c = a then b else memByte s c :=
  mget_mset 0 s.mem a c b

/-- Bytes written from an address upward: each reads what was written there, every other byte as before. -/
theorem memByte_putBytes (a c : Nat) (bs : List Byte) :
    memByte (putBytes a bs s) c = if h : a ≤ c ∧ c < a + bs.length then bs[c - a]'(by omega) else memByte s c := by
  induction bs generalizing a s with
  | nil => simp [putBytes]
  | cons b r ih =>
    simp only [putBytes, ih, memByte_putByte, List.length_cons]
    by_cases h : a + 1 ≤ c ∧ c < a + 1 + r.length
    · have h' : a ≤ c ∧ c < a + (r.length + 1) := by omega
      have e : c - a = c - (a + 1) + 1 := by omega
      simp [h, h', e]
    · by_cases hc : c = a
      · subst hc; simp
      · have h' : ¬ (a ≤ c ∧ c < a + (r.length + 1)) := by omega
        rw [dif_neg h, dif_neg h', if_neg hc]

/-- A byte outside the range written reads as before. -/
theorem memByte_putBytes_out (a c : Nat) (bs : List Byte) (h : c < a ∨ a + bs.length ≤ c) :
    memByte (putBytes a bs s) c = memByte s c := by
  rw [memByte_putBytes, dif_neg (by omega)]

theorem memByte_setEccs (l : List Nat) (e : Ecc) (c : Nat) :
    memByte (l.foldl (fun s u => setEcc u e s) s) c = memByte s c := by
  induction l generalizing s with
  | nil => rfl
  | cons u r ih => simpa using ih (setEcc u e s)

/-- A byte outside the range of a write reads as before. -/
theorem memByte_putUnblocked_out (l : List Nat) (a c : Nat) (bs : List Byte) (h : c < a ∨ a + bs.length ≤ c) :
    memByte (putUnblocked l a bs s) c = memByte s c := by
  induction bs generalizing a s with
  | nil => rfl
  | cons b r ih =>
    have h' : c < a + 1 ∨ a + 1 + r.length ≤ c := by simp only [List.length_cons] at h; omega
    have hc : c ≠ a := by simp only [List.length_cons] at h; omega
    simp only [putUnblocked]
    rw [ih _ _ h']
    split <;> simp [hc]

/-- Where no unit refuses it, a write is a plain write. -/
theorem putUnblocked_nil (a : Nat) (bs : List Byte) : putUnblocked [] a bs s = putBytes a bs s := by
  induction bs generalizing a s with
  | nil => rfl
  | cons b r ih => simp [putUnblocked, putBytes, ih]

/-- A write to memory leaves every byte outside its range alone. -/
theorem memByte_writeMem_out (whole poison : Bool) (a c : Nat) (bs : List Byte) (h : c < a ∨ a + bs.length ≤ c) :
    memByte (writeMem whole poison a bs s).2 c = memByte s c := by
  simp only [writeMem, memByte_setEccs]
  exact memByte_putUnblocked_out s _ a c bs h

/-- A write that no unit refuses leaves its bytes in memory. -/
theorem memByte_writeMem (whole poison : Bool) (a c : Nat) (bs : List Byte) (h : blockedIn s whole a bs.length = []) :
    memByte (writeMem whole poison a bs s).2 c = memByte (putBytes a bs s) c := by
  simp only [writeMem, memByte_setEccs, h, putUnblocked_nil]

/-- Where no unit is poisoned, none refuses a write. -/
theorem blockedIn_of_clean (whole : Bool) (a n : Nat) (h : ∀ u ∈ unitsOf a n, eccOf s u = .clean) :
    blockedIn s whole a n = [] := by
  have : poisonedIn s a n = [] := by
    simp only [poisonedIn, List.filter_eq_nil_iff, decide_eq_true_eq]
    intro u hu
    simp [h u hu]
  simp [blockedIn, this]

@[simp] theorem memByte_zeroRange (lo hi c : Nat) :
    memByte (zeroRange lo hi s) c = if lo ≤ c ∧ c < hi then 0 else memByte s c := by
  have := mget_mdrop (0 : Byte) (fun a => decide (lo ≤ a ∧ a < hi)) s.mem c
  simpa [memByte, zeroRange] using this

theorem memBytes_length (a n : Nat) : (memBytes s a n).length = n := by simp [memBytes]

end Sys2Proof.Machine
end

