-- ==== Sys2Proof/Laws/PerInstr.lean ====
section
/-! SUPPORT. The family NonzeroOpcode: the word of a tile's instruction has an opcode that is not zero, so that cleared
instruction memory spells no instruction (R73–R75). -/

namespace Sys2Proof.Laws

-- The opcode of each format

@[simp] theorem encS_top (op : BitVec 8) (x : SArgs) : (encS op x).extractLsb' 56 8 = op := by
  apply BitVec.eq_of_getLsbD_eq
  intro i hi
  simp only [encS, BitVec.getLsbD_extractLsb', BitVec.getLsbD_append]
  simp [hi]
  grind

@[simp] theorem encI_top (op : BitVec 8) (x : IArgs) : (encI op x).extractLsb' 56 8 = op := by
  apply BitVec.eq_of_getLsbD_eq
  intro i hi
  simp only [encI, BitVec.getLsbD_extractLsb', BitVec.getLsbD_append]
  simp [hi]
  grind

@[simp] theorem encM_top (op : BitVec 8) (x : MArgs) : (encM op x).extractLsb' 56 8 = op := by
  apply BitVec.eq_of_getLsbD_eq
  intro i hi
  simp only [encM, BitVec.getLsbD_extractLsb', BitVec.getLsbD_append]
  simp [hi]
  grind

@[simp] theorem encB_top (op : BitVec 8) (x : BArgs) : (encB op x).extractLsb' 56 8 = op := by
  apply BitVec.eq_of_getLsbD_eq
  intro i hi
  simp only [encB, BitVec.getLsbD_extractLsb', BitVec.getLsbD_append]
  simp [hi]
  grind

@[simp] theorem encX_top (op : BitVec 8) (x : XArgs) : (encX op x).extractLsb' 56 8 = op := by
  apply BitVec.eq_of_getLsbD_eq
  intro i hi
  simp only [encX, BitVec.getLsbD_extractLsb', BitVec.getLsbD_append]
  simp [hi]
  grind

@[simp] theorem encQ_top (op : BitVec 8) (x : QArgs) : (encQ op x).extractLsb' 56 8 = op := by
  apply BitVec.eq_of_getLsbD_eq
  intro i hi
  simp only [encQ, BitVec.getLsbD_extractLsb', BitVec.getLsbD_append]
  simp [hi]
  grind

namespace NonzeroOpcode

/-- The word of an instruction has a nonzero opcode. -/
def Statement (i : Instr) : Prop := ∀ w, encodeTile i = some w → w.extractLsb' 56 8 ≠ 0

theorem add : ∀ (t : Nat) (x : SArgs), Statement (.add t x) := by rintro _ _ _ ⟨⟩; rw [encS_top]; decide
theorem sub : ∀ (t : Nat) (x : SArgs), Statement (.sub t x) := by rintro _ _ _ ⟨⟩; rw [encS_top]; decide
theorem mul : ∀ (t : Nat) (x : SArgs), Statement (.mul t x) := by rintro _ _ _ ⟨⟩; rw [encS_top]; decide
theorem and : ∀ (t : Nat) (x : SArgs), Statement (.and t x) := by rintro _ _ _ ⟨⟩; rw [encS_top]; decide
theorem or : ∀ (t : Nat) (x : SArgs), Statement (.or t x) := by rintro _ _ _ ⟨⟩; rw [encS_top]; decide
theorem xor : ∀ (t : Nat) (x : SArgs), Statement (.xor t x) := by rintro _ _ _ ⟨⟩; rw [encS_top]; decide
theorem shl : ∀ (t : Nat) (x : SArgs), Statement (.shl t x) := by rintro _ _ _ ⟨⟩; rw [encS_top]; decide
theorem shr : ∀ (t : Nat) (x : SArgs), Statement (.shr t x) := by rintro _ _ _ ⟨⟩; rw [encS_top]; decide
theorem cmp : ∀ (t : Nat) (x : SArgs), Statement (.cmp t x) := by rintro _ _ _ ⟨⟩; rw [encS_top]; decide
theorem sel : ∀ (t : Nat) (x : SArgs), Statement (.sel t x) := by rintro _ _ _ ⟨⟩; rw [encS_top]; decide
theorem addImm : ∀ (t : Nat) (x : IArgs), Statement (.addImm t x) := by rintro _ _ _ ⟨⟩; rw [encI_top]; decide
theorem subImm : ∀ (t : Nat) (x : IArgs), Statement (.subImm t x) := by rintro _ _ _ ⟨⟩; rw [encI_top]; decide
theorem mulImm : ∀ (t : Nat) (x : IArgs), Statement (.mulImm t x) := by rintro _ _ _ ⟨⟩; rw [encI_top]; decide
theorem andImm : ∀ (t : Nat) (x : IArgs), Statement (.andImm t x) := by rintro _ _ _ ⟨⟩; rw [encI_top]; decide
theorem orImm : ∀ (t : Nat) (x : IArgs), Statement (.orImm t x) := by rintro _ _ _ ⟨⟩; rw [encI_top]; decide
theorem xorImm : ∀ (t : Nat) (x : IArgs), Statement (.xorImm t x) := by rintro _ _ _ ⟨⟩; rw [encI_top]; decide
theorem shlImm : ∀ (t : Nat) (x : IArgs), Statement (.shlImm t x) := by rintro _ _ _ ⟨⟩; rw [encI_top]; decide
theorem shrImm : ∀ (t : Nat) (x : IArgs), Statement (.shrImm t x) := by rintro _ _ _ ⟨⟩; rw [encI_top]; decide
theorem cmpImm : ∀ (t : Nat) (x : IArgs), Statement (.cmpImm t x) := by rintro _ _ _ ⟨⟩; rw [encI_top]; decide
theorem br : ∀ (t : Nat) (x : BArgs), Statement (.br t x) := by rintro _ _ _ ⟨⟩; rw [encB_top]; decide
theorem brp : ∀ (t : Nat) (x : BArgs), Statement (.brp t x) := by rintro _ _ _ ⟨⟩; rw [encB_top]; decide
theorem ld : ∀ (t : Nat) (x : MArgs), Statement (.ld t x) := by rintro _ _ _ ⟨⟩; rw [encM_top]; decide
theorem st : ∀ (t : Nat) (x : MArgs), Statement (.st t x) := by rintro _ _ _ ⟨⟩; rw [encM_top]; decide
theorem atmAdd : ∀ (t : Nat) (x : MArgs), Statement (.atmAdd t x) := by rintro _ _ _ ⟨⟩; rw [encM_top]; decide
theorem atmSwp : ∀ (t : Nat) (x : MArgs), Statement (.atmSwp t x) := by rintro _ _ _ ⟨⟩; rw [encM_top]; decide
theorem atmCas : ∀ (t : Nat) (x : MArgs), Statement (.atmCas t x) := by rintro _ _ _ ⟨⟩; rw [encM_top]; decide
theorem vld : ∀ (t : Nat) (x : MArgs), Statement (.vld t x) := by rintro _ _ _ ⟨⟩; rw [encM_top]; decide
theorem vst : ∀ (t : Nat) (x : MArgs), Statement (.vst t x) := by rintro _ _ _ ⟨⟩; rw [encM_top]; decide
theorem sdesc : ∀ (t : Nat) (x : QArgs), Statement (.sdesc t x) := by rintro _ _ _ ⟨⟩; rw [encQ_top]; decide
theorem sgo : ∀ (t : Nat) (x : QArgs), Statement (.sgo t x) := by rintro _ _ _ ⟨⟩; rw [encQ_top]; decide
theorem swait : ∀ (t : Nat) (x : QArgs), Statement (.swait t x) := by rintro _ _ _ ⟨⟩; rw [encQ_top]; decide
theorem mxw : ∀ (t : Nat) (x : XArgs), Statement (.mxw t x) := by rintro _ _ _ ⟨⟩; rw [encX_top]; decide
theorem mxm : ∀ (t : Nat) (x : XArgs), Statement (.mxm t x) := by rintro _ _ _ ⟨⟩; rw [encX_top]; decide
theorem mxd : ∀ (t : Nat) (x : XArgs), Statement (.mxd t x) := by rintro _ _ _ ⟨⟩; rw [encX_top]; decide
theorem mxx : ∀ (t : Nat) (x : XArgs), Statement (.mxx t x) := by rintro _ _ _ ⟨⟩; rw [encX_top]; decide
theorem vadd : ∀ (t : Nat) (x : SArgs), Statement (.vadd t x) := by rintro _ _ _ ⟨⟩; rw [encS_top]; decide
theorem vsub : ∀ (t : Nat) (x : SArgs), Statement (.vsub t x) := by rintro _ _ _ ⟨⟩; rw [encS_top]; decide
theorem vmul : ∀ (t : Nat) (x : SArgs), Statement (.vmul t x) := by rintro _ _ _ ⟨⟩; rw [encS_top]; decide
theorem vfma : ∀ (t : Nat) (x : SArgs), Statement (.vfma t x) := by rintro _ _ _ ⟨⟩; rw [encS_top]; decide
theorem vmax : ∀ (t : Nat) (x : SArgs), Statement (.vmax t x) := by rintro _ _ _ ⟨⟩; rw [encS_top]; decide
theorem vmin : ∀ (t : Nat) (x : SArgs), Statement (.vmin t x) := by rintro _ _ _ ⟨⟩; rw [encS_top]; decide
theorem vmaxsub : ∀ (t : Nat) (x : SArgs), Statement (.vmaxsub t x) := by rintro _ _ _ ⟨⟩; rw [encS_top]; decide
theorem vrsum : ∀ (t : Nat) (x : SArgs), Statement (.vrsum t x) := by rintro _ _ _ ⟨⟩; rw [encS_top]; decide
theorem vcvtS : ∀ (t : Nat) (x : SArgs), Statement (.vcvtS t x) := by rintro _ _ _ ⟨⟩; rw [encS_top]; decide
theorem vcvtN : ∀ (t : Nat) (x : SArgs), Statement (.vcvtN t x) := by rintro _ _ _ ⟨⟩; rw [encS_top]; decide
theorem vwadd : ∀ (t : Nat) (x : SArgs), Statement (.vwadd t x) := by rintro _ _ _ ⟨⟩; rw [encS_top]; decide
theorem vwrnd : ∀ (t : Nat) (x : SArgs), Statement (.vwrnd t x) := by rintro _ _ _ ⟨⟩; rw [encS_top]; decide
theorem vwcvt : ∀ (t : Nat) (x : SArgs), Statement (.vwcvt t x) := by rintro _ _ _ ⟨⟩; rw [encS_top]; decide
theorem vexp2 : ∀ (t : Nat) (x : SArgs), Statement (.vexp2 t x) := by rintro _ _ _ ⟨⟩; rw [encS_top]; decide
theorem vlog2 : ∀ (t : Nat) (x : SArgs), Statement (.vlog2 t x) := by rintro _ _ _ ⟨⟩; rw [encS_top]; decide
theorem vrcp : ∀ (t : Nat) (x : SArgs), Statement (.vrcp t x) := by rintro _ _ _ ⟨⟩; rw [encS_top]; decide
theorem vrsqrt : ∀ (t : Nat) (x : SArgs), Statement (.vrsqrt t x) := by rintro _ _ _ ⟨⟩; rw [encS_top]; decide
theorem vredadd : ∀ (t : Nat) (x : SArgs), Statement (.vredadd t x) := by rintro _ _ _ ⟨⟩; rw [encS_top]; decide
theorem vredmax : ∀ (t : Nat) (x : SArgs), Statement (.vredmax t x) := by rintro _ _ _ ⟨⟩; rw [encS_top]; decide
theorem vredmin : ∀ (t : Nat) (x : SArgs), Statement (.vredmin t x) := by rintro _ _ _ ⟨⟩; rw [encS_top]; decide
theorem rld : ∀ (t : Nat) (x : QArgs), Statement (.rld t x) := by rintro _ _ _ ⟨⟩; rw [encQ_top]; decide
theorem rst : ∀ (t : Nat) (x : QArgs), Statement (.rst t x) := by rintro _ _ _ ⟨⟩; rw [encQ_top]; decide
theorem rat : ∀ (t : Nat) (x : QArgs), Statement (.rat t x) := by rintro _ _ _ ⟨⟩; rw [encQ_top]; decide
theorem rcpPut : ∀ (t : Nat) (x : QArgs), Statement (.rcpPut t x) := by rintro _ _ _ ⟨⟩; rw [encQ_top]; decide
theorem rcpGet : ∀ (t : Nat) (x : QArgs), Statement (.rcpGet t x) := by rintro _ _ _ ⟨⟩; rw [encQ_top]; decide
theorem rcpThird : ∀ (t : Nat) (x : QArgs), Statement (.rcpThird t x) := by rintro _ _ _ ⟨⟩; rw [encQ_top]; decide
theorem clvAllReduce : ∀ (t : Nat) (x : QArgs), Statement (.clvAllReduce t x) := by rintro _ _ _ ⟨⟩; rw [encQ_top]; decide
theorem clvReduceScatter : ∀ (t : Nat) (x : QArgs), Statement (.clvReduceScatter t x) := by rintro _ _ _ ⟨⟩; rw [encQ_top]; decide
theorem clvAllGather : ∀ (t : Nat) (x : QArgs), Statement (.clvAllGather t x) := by rintro _ _ _ ⟨⟩; rw [encQ_top]; decide
theorem clvBroadcast : ∀ (t : Nat) (x : QArgs), Statement (.clvBroadcast t x) := by rintro _ _ _ ⟨⟩; rw [encQ_top]; decide
theorem clvAllToAll : ∀ (t : Nat) (x : QArgs), Statement (.clvAllToAll t x) := by rintro _ _ _ ⟨⟩; rw [encQ_top]; decide
theorem clvCapacityAllToAll : ∀ (t : Nat) (x : QArgs), Statement (.clvCapacityAllToAll t x) := by rintro _ _ _ ⟨⟩; rw [encQ_top]; decide
theorem tread : ∀ (t : Nat) (x : QArgs), Statement (.tread t x) := by rintro _ _ _ ⟨⟩; rw [encQ_top]; decide
theorem waitt : ∀ (t : Nat) (x : QArgs), Statement (.waitt t x) := by rintro _ _ _ ⟨⟩; rw [encQ_top]; decide
theorem waittRelease : ∀ (t : Nat), Statement (.waittRelease t) := by rintro _ _ ⟨⟩
theorem atslot : ∀ (t : Nat) (x : QArgs), Statement (.atslot t x) := by rintro _ _ _ ⟨⟩; rw [encQ_top]; decide
theorem bar : ∀ (t : Nat) (x : QArgs), Statement (.bar t x) := by rintro _ _ _ ⟨⟩; rw [encQ_top]; decide
theorem barRelease : ∀ (k : BarKey), Statement (.barRelease k) := by rintro _ _ ⟨⟩
theorem barDeadlineExpiry : ∀ (k : BarKey), Statement (.barDeadlineExpiry k) := by rintro _ _ ⟨⟩
theorem fence : ∀ (t : Nat) (x : QArgs), Statement (.fence t x) := by rintro _ _ _ ⟨⟩; rw [encQ_top]; decide
theorem cplw : ∀ (t : Nat) (x : QArgs), Statement (.cplw t x) := by rintro _ _ _ ⟨⟩; rw [encQ_top]; decide
theorem cplp : ∀ (t : Nat) (x : QArgs), Statement (.cplp t x) := by rintro _ _ _ ⟨⟩; rw [encQ_top]; decide
theorem steep : ∀ (t : Nat) (x : QArgs), Statement (.steep t x) := by rintro _ _ _ ⟨⟩; rw [encQ_top]; decide
theorem gangId : ∀ (t : Nat) (x : QArgs), Statement (.gangId t x) := by rintro _ _ _ ⟨⟩; rw [encQ_top]; decide
theorem gangForm : ∀ (t : Nat) (x : QArgs), Statement (.gangForm t x) := by rintro _ _ _ ⟨⟩; rw [encQ_top]; decide
theorem gangDissolve : ∀ (t : Nat) (x : QArgs), Statement (.gangDissolve t x) := by rintro _ _ _ ⟨⟩; rw [encQ_top]; decide
theorem gangEnd : ∀ (t : Nat) (x : QArgs), Statement (.gangEnd t x) := by rintro _ _ _ ⟨⟩; rw [encQ_top]; decide
theorem streamDescStart : ∀ (t : Nat), Statement (.streamDescStart t) := by rintro _ _ ⟨⟩
theorem streamDescDone : ∀ (t : Nat), Statement (.streamDescDone t) := by rintro _ _ ⟨⟩
theorem run : ∀ (q : Nat), Statement (.run q) := by rintro _ _ ⟨⟩
theorem formGang : ∀ (q : Nat), Statement (.formGang q) := by rintro _ _ ⟨⟩
theorem dissolveGang : ∀ (q : Nat), Statement (.dissolveGang q) := by rintro _ _ ⟨⟩
theorem jobEntry : ∀ (leader : Nat), Statement (.jobEntry leader) := by rintro _ _ ⟨⟩
theorem tileStop : ∀ (who : Writer) (t : Nat), Statement (.tileStop who t) := by rintro _ _ _ ⟨⟩
theorem tileResume : ∀ (who : Writer) (t : Nat), Statement (.tileResume who t) := by rintro _ _ _ ⟨⟩
theorem tileAbort : ∀ (who : Writer) (t : Nat), Statement (.tileAbort who t) := by rintro _ _ _ ⟨⟩
theorem srSeedWrite : ∀ (who : Writer) (t : Nat) (v : Word), Statement (.srSeedWrite who t v) := by rintro _ _ _ _ ⟨⟩
theorem roundStart : Statement .roundStart := by rintro _ ⟨⟩
theorem timeFlit : ∀ (n : Nat) (round : Nat) (dev : Nat) (st : Nat) (hops : Nat) (master : Nat) (ver : Nat) (frac : Nat), Statement (.timeFlit n round dev st hops master ver frac) := by rintro _ _ _ _ _ _ _ _ _ ⟨⟩
theorem lockedEntry : Statement (.lockedEntry) := by rintro _ ⟨⟩
theorem holdoverEntry : Statement (.holdoverEntry) := by rintro _ ⟨⟩
theorem parentSwitch : Statement (.parentSwitch) := by rintro _ ⟨⟩
theorem timePpsEdge : ∀ (frac : Nat), Statement (.timePpsEdge frac) := by rintro _ _ ⟨⟩
theorem ptpMessage : ∀ (offset16 : Int), Statement (.ptpMessage offset16) := by rintro _ _ ⟨⟩
theorem extReferenceLost : Statement (.extReferenceLost) := by rintro _ ⟨⟩
theorem pitchFlitArrive : ∀ (n : Nat) (p : Packet) (sentAt : Nat) (replayed : Bool), Statement (.pitchFlitArrive n p sentAt replayed) := by rintro _ _ _ _ _ ⟨⟩
theorem pitchSlotSend : ∀ (n : Nat), Statement (.pitchSlotSend n) := by rintro _ _ ⟨⟩
theorem pitchPortResume : ∀ (n : Nat), Statement (.pitchPortResume n) := by rintro _ _ ⟨⟩
theorem pitchPathBoundExpiry : ∀ (tag : Nat), Statement (.pitchPathBoundExpiry tag) := by rintro _ _ ⟨⟩
theorem schedSwitchRoundWrite : ∀ (who : Writer) (v : Word), Statement (.schedSwitchRoundWrite who v) := by rintro _ _ _ ⟨⟩
theorem schedSwitch : Statement (.schedSwitch) := by rintro _ ⟨⟩
theorem bankScrub : ∀ (t : Nat) (b : Nat) (lo : Syndrome) (hi : Syndrome), Statement (.bankScrub t b lo hi) := by rintro _ _ _ _ _ ⟨⟩
theorem bankEccWriteback : ∀ (t : Nat) (b : Nat), Statement (.bankEccWriteback t b) := by rintro _ _ _ ⟨⟩
theorem bankOwnerNextWrite : ∀ (who : Writer) (t : Nat) (b : Nat) (v : Word), Statement (.bankOwnerNextWrite who t b v) := by rintro _ _ _ _ _ ⟨⟩
theorem handoverDone : ∀ (t : Nat) (b : Nat), Statement (.handoverDone t b) := by rintro _ _ _ ⟨⟩
theorem hbmAccess : ∀ (p : Nat) (s : Nat) (i : Nat) (syn : List Syndrome) (onDieCorrected : Nat) (onDieUncorrected : Nat), Statement (.hbmAccess p s i syn onDieCorrected onDieUncorrected) := by rintro _ _ _ _ _ _ _ ⟨⟩
theorem hbmScrub : ∀ (p : Nat) (s : Nat) (seen : ScrubRead), Statement (.hbmScrub p s seen) := by rintro _ _ _ _ ⟨⟩
theorem hbmRefresh : ∀ (p : Nat) (s : Nat), Statement (.hbmRefresh p s) := by rintro _ _ _ ⟨⟩
theorem rfmRequest : ∀ (p : Nat) (s : Nat), Statement (.rfmRequest p s) := by rintro _ _ _ ⟨⟩
theorem hbmTempRead : ∀ (p : Nat) (s : Nat) (temp : Nat), Statement (.hbmTempRead p s temp) := by rintro _ _ _ _ ⟨⟩
theorem hbmParityError : ∀ (p : Nat) (s : Nat), Statement (.hbmParityError p s) := by rintro _ _ _ ⟨⟩
theorem retrainNow : ∀ (who : Writer) (p : Nat) (s : Nat), Statement (.retrainNow who p s) := by rintro _ _ _ _ ⟨⟩
theorem hbmPeriodicRetrainTrigger : ∀ (p : Nat) (s : Nat), Statement (.hbmPeriodicRetrainTrigger p s) := by rintro _ _ _ ⟨⟩
theorem hbmDeferredRetrainStart : ∀ (p : Nat) (s : Nat), Statement (.hbmDeferredRetrainStart p s) := by rintro _ _ _ ⟨⟩
theorem hbmRetrainStart : ∀ (p : Nat) (s : Nat), Statement (.hbmRetrainStart p s) := by rintro _ _ _ ⟨⟩
theorem hbmRetrainDone : ∀ (p : Nat) (s : Nat) (pass : Bool) (us : Nat), Statement (.hbmRetrainDone p s pass us) := by rintro _ _ _ _ _ ⟨⟩
theorem rdReq : ∀ (p : Packet), Statement (.rdReq p) := by rintro _ _ ⟨⟩
theorem wr : ∀ (p : Packet), Statement (.wr p) := by rintro _ _ ⟨⟩
theorem atAdd32 : ∀ (p : Packet), Statement (.atAdd32 p) := by rintro _ _ ⟨⟩
theorem atAdd64 : ∀ (p : Packet), Statement (.atAdd64 p) := by rintro _ _ ⟨⟩
theorem atAddf32 : ∀ (p : Packet), Statement (.atAddf32 p) := by rintro _ _ ⟨⟩
theorem atSwap : ∀ (p : Packet), Statement (.atSwap p) := by rintro _ _ ⟨⟩
theorem atCas : ∀ (p : Packet), Statement (.atCas p) := by rintro _ _ ⟨⟩
theorem atBset : ∀ (p : Packet), Statement (.atBset p) := by rintro _ _ ⟨⟩
theorem atBclr : ∀ (p : Packet), Statement (.atBclr p) := by rintro _ _ ⟨⟩
theorem putData : ∀ (p : Packet), Statement (.putData p) := by rintro _ _ ⟨⟩
theorem ackFlushTimeout : ∀ (dev : Nat) (tag : Nat), Statement (.ackFlushTimeout dev tag) := by rintro _ _ _ ⟨⟩
theorem getReq : ∀ (p : Packet), Statement (.getReq p) := by rintro _ _ ⟨⟩
theorem thirdReq : ∀ (p : Packet), Statement (.thirdReq p) := by rintro _ _ ⟨⟩
theorem pitchWr : ∀ (p : Packet), Statement (.pitchWr p) := by rintro _ _ ⟨⟩
theorem rdResp : ∀ (p : Packet), Statement (.rdResp p) := by rintro _ _ ⟨⟩
theorem ack : ∀ (p : Packet), Statement (.ack p) := by rintro _ _ ⟨⟩
theorem atResp : ∀ (p : Packet), Statement (.atResp p) := by rintro _ _ ⟨⟩
theorem copyDone : ∀ (p : Packet), Statement (.copyDone p) := by rintro _ _ ⟨⟩
theorem getData : ∀ (p : Packet), Statement (.getData p) := by rintro _ _ ⟨⟩
theorem lateNote : ∀ (p : Packet), Statement (.lateNote p) := by rintro _ _ ⟨⟩
theorem deadlineExpiry : ∀ (tag : Nat), Statement (.deadlineExpiry tag) := by rintro _ _ ⟨⟩
theorem quarantineExpiry : ∀ (tag : Nat), Statement (.quarantineExpiry tag) := by rintro _ _ ⟨⟩
theorem holdLimitDiscard : ∀ (place : HoldPlace), Statement (.holdLimitDiscard place) := by rintro _ _ ⟨⟩
theorem windowUpdateGo : ∀ (who : Writer) (v : Word), Statement (.windowUpdateGo who v) := by rintro _ _ _ ⟨⟩
theorem windowUpdateCommit : Statement (.windowUpdateCommit) := by rintro _ ⟨⟩
theorem fecFrame : ∀ (n a b : Nat) (lanes : List Nat) (flits : List Flit), Statement (.fecFrame n a b lanes flits) := by rintro _ _ _ _ _ _ ⟨⟩
theorem ackTimerExpiry : ∀ (n : Nat), Statement (.ackTimerExpiry n) := by rintro _ _ ⟨⟩
theorem auditSend : ∀ (n : Nat), Statement (.auditSend n) := by rintro _ _ ⟨⟩
theorem audit : ∀ (n : Nat) (totals : List Nat) (nextSeq : Nat), Statement (.audit n totals nextSeq) := by rintro _ _ _ _ ⟨⟩
theorem laneLos : ∀ (n : Nat), Statement (.laneLos n) := by rintro _ _ ⟨⟩
theorem txOffExpiry : ∀ (n : Nat), Statement (.txOffExpiry n) := by rintro _ _ ⟨⟩
theorem signalDetect : ∀ (n : Nat), Statement (.signalDetect n) := by rintro _ _ ⟨⟩
theorem fullTrain : ∀ (n : Nat) (obs : TrainObs), Statement (.fullTrain n obs) := by rintro _ _ _ ⟨⟩
theorem trainTimeout : ∀ (n : Nat), Statement (.trainTimeout n) := by rintro _ _ ⟨⟩
theorem miswiredRetry : ∀ (n : Nat) (obs : TrainObs), Statement (.miswiredRetry n obs) := by rintro _ _ _ ⟨⟩
theorem neighbourExpWrite : ∀ (who : Writer) (n : Nat) (v : Word), Statement (.neighbourExpWrite who n v) := by rintro _ _ _ _ ⟨⟩
theorem qualDone : ∀ (n : Nat) (h : List Nat) (a b : Nat) (l : List Nat), Statement (.qualDone n h a b l) := by rintro _ _ _ _ _ _ ⟨⟩
theorem retrain : ∀ (n : Nat) (why : RetrainWhy), Statement (.retrain n why) := by rintro _ _ _ ⟨⟩
theorem retrainNowPort : ∀ (who : Writer) (n : Nat), Statement (.retrainNowPort who n) := by rintro _ _ _ ⟨⟩
theorem trainingPatternSeen : ∀ (n : Nat), Statement (.trainingPatternSeen n) := by rintro _ _ ⟨⟩
theorem retrainDone : ∀ (n : Nat) (obs : TrainObs), Statement (.retrainDone n obs) := by rintro _ _ _ ⟨⟩
theorem forceDownSet : ∀ (who : Writer) (n : Nat), Statement (.forceDownSet who n) := by rintro _ _ _ ⟨⟩
theorem forceDownClear : ∀ (who : Writer) (n : Nat), Statement (.forceDownClear who n) := by rintro _ _ _ ⟨⟩
theorem rest : ∀ (who : Writer) (n : Nat), Statement (.rest who n) := by rintro _ _ _ ⟨⟩
theorem restReq : ∀ (n : Nat), Statement (.restReq n) := by rintro _ _ ⟨⟩
theorem restAck : ∀ (n : Nat), Statement (.restAck n) := by rintro _ _ ⟨⟩
theorem restNak : ∀ (n : Nat), Statement (.restNak n) := by rintro _ _ ⟨⟩
theorem restTimeout : ∀ (n : Nat), Statement (.restTimeout n) := by rintro _ _ ⟨⟩
theorem wake : ∀ (n : Nat) (why : WakeWhy), Statement (.wake n why) := by rintro _ _ _ ⟨⟩
theorem wakeDone : ∀ (n : Nat) (obs : TrainObs), Statement (.wakeDone n obs) := by rintro _ _ _ ⟨⟩
theorem wakeTimeout : ∀ (n : Nat), Statement (.wakeTimeout n) := by rintro _ _ ⟨⟩
theorem routePacket : ∀ (seen : PacketChecks), Statement (.routePacket seen) := by rintro _ _ ⟨⟩
theorem bondDeal : ∀ (b : Nat), Statement (.bondDeal b) := by rintro _ _ ⟨⟩
theorem bondMap : ∀ (b : Nat) (full : Nat) (members : Nat), Statement (.bondMap b full members) := by rintro _ _ _ _ ⟨⟩
theorem bondRestart : ∀ (n : Nat) (full : Nat) (members : Nat), Statement (.bondRestart n full members) := by rintro _ _ _ _ ⟨⟩
theorem routeTableWrite : ∀ (who : Writer) (tableB : Bool) (d : Nat) (v : Word), Statement (.routeTableWrite who tableB d v) := by rintro _ _ _ _ _ ⟨⟩
theorem flip : ∀ (who : Writer), Statement (.flip who) := by rintro _ _ ⟨⟩
theorem routeDrained : Statement (.routeDrained) := by rintro _ ⟨⟩
theorem routeMachineWrite : ∀ (who : Writer) (v : Word), Statement (.routeMachineWrite who v) := by rintro _ _ _ ⟨⟩
theorem presetWrite : ∀ (who : Writer) (v : Word), Statement (.presetWrite who v) := by rintro _ _ _ ⟨⟩
theorem portBondWrite : ∀ (who : Writer) (n : Nat) (v : Word), Statement (.portBondWrite who n v) := by rintro _ _ _ _ ⟨⟩
theorem cmapSnapshot : Statement (.cmapSnapshot) := by rintro _ ⟨⟩
theorem cmapRecord : ∀ (p : Packet), Statement (.cmapRecord p) := by rintro _ _ ⟨⟩
theorem groupGo : ∀ (who : Writer) (v : Word), Statement (.groupGo who v) := by rintro _ _ _ ⟨⟩
theorem groupDelete : ∀ (who : Writer) (v : Word), Statement (.groupDelete who v) := by rintro _ _ _ ⟨⟩
theorem abortOld : ∀ (who : Writer) (v : Word), Statement (.abortOld who v) := by rintro _ _ _ ⟨⟩
theorem groupUpdateCommit : Statement (.groupUpdateCommit) := by rintro _ ⟨⟩
theorem clReduce : ∀ (p : Packet), Statement (.clReduce p) := by rintro _ _ ⟨⟩
theorem clData : ∀ (p : Packet), Statement (.clData p) := by rintro _ _ ⟨⟩
theorem clBar : ∀ (p : Packet), Statement (.clBar p) := by rintro _ _ ⟨⟩
theorem clCap : ∀ (p : Packet), Statement (.clCap p) := by rintro _ _ ⟨⟩
theorem clAbort : ∀ (p : Packet), Statement (.clAbort p) := by rintro _ _ ⟨⟩
theorem collPhaseSend : ∀ (gid : Nat) (inst : Nat) (pos : Nat), Statement (.collPhaseSend gid inst pos) := by rintro _ _ _ _ ⟨⟩
theorem collLateSend : ∀ (gid : Nat) (inst : Nat) (pos : Nat), Statement (.collLateSend gid inst pos) := by rintro _ _ _ _ ⟨⟩
theorem collComplete : ∀ (gid : Nat) (inst : Nat) (pos : Nat), Statement (.collComplete gid inst pos) := by rintro _ _ _ _ ⟨⟩
theorem groupBarReleaseComputed : ∀ (gid : Nat), Statement (.groupBarReleaseComputed gid) := by rintro _ _ ⟨⟩
theorem cvuCfgWrite : ∀ (who : Writer) (c : Nat) (v : Word), Statement (.cvuCfgWrite who c v) := by rintro _ _ _ _ ⟨⟩
theorem cvuResultDelivery : ∀ (c : Nat), Statement (.cvuResultDelivery c) := by rintro _ _ ⟨⟩
theorem qCtrlWrite : ∀ (who : Writer) (q : Nat) (v : Word), Statement (.qCtrlWrite who q v) := by rintro _ _ _ _ ⟨⟩
theorem sqTailWrite : ∀ (who : Writer) (q : Nat) (v : Word), Statement (.sqTailWrite who q v) := by rintro _ _ _ _ ⟨⟩
theorem sqFetch : ∀ (q : Nat), Statement (.sqFetch q) := by rintro _ _ ⟨⟩
theorem toDevice : ∀ (q : Nat), Statement (.toDevice q) := by rintro _ _ ⟨⟩
theorem fromDevice : ∀ (q : Nat), Statement (.fromDevice q) := by rintro _ _ ⟨⟩
theorem ethSend : ∀ (q : Nat), Statement (.ethSend q) := by rintro _ _ ⟨⟩
theorem queueRecordWrite : ∀ (q : Nat), Statement (.queueRecordWrite q) := by rintro _ _ ⟨⟩
theorem cqHeadWrite : ∀ (who : Writer) (q : Nat) (v : Word), Statement (.cqHeadWrite who q v) := by rintro _ _ _ _ ⟨⟩
theorem cqRtc : ∀ (who : Writer) (q : Nat), Statement (.cqRtc who q) := by rintro _ _ _ ⟨⟩
theorem hostBarAccess : ∀ (fn : HostFn) (bar : Nat) (off : Nat) (op : HostOp), Statement (.hostBarAccess fn bar off op) := by rintro _ _ _ _ _ ⟨⟩
theorem barReadTimeout : ∀ (id : Nat), Statement (.barReadTimeout id) := by rintro _ _ ⟨⟩
theorem flrVf : ∀ (v : Nat), Statement (.flrVf v) := by rintro _ _ ⟨⟩
theorem flrPf : ∀ (kind : PcieReset), Statement (.flrPf kind) := by rintro _ _ ⟨⟩
theorem dlDown : Statement (.dlDown) := by rintro _ ⟨⟩
theorem ethFrame : ∀ (port : Nat) (f : EthFrame), Statement (.ethFrame port f) := by rintro _ _ _ ⟨⟩
theorem ethRtoExpiry : ∀ (f : Nat), Statement (.ethRtoExpiry f) := by rintro _ _ ⟨⟩
theorem railRead : ∀ (r : Nat) (x : RailReading) (alike : Nat), Statement (.railRead r x alike) := by rintro _ _ _ _ ⟨⟩
theorem railLost : ∀ (r : Nat), Statement (.railLost r) := by rintro _ _ ⟨⟩
theorem regulatorWarnStep : ∀ (r : Nat), Statement (.regulatorWarnStep r) := by rintro _ _ ⟨⟩
theorem regulatorFault : ∀ (r : Nat), Statement (.regulatorFault r) := by rintro _ _ ⟨⟩
theorem activityEstimate : ∀ (x : List Activity), Statement (.activityEstimate x) := by rintro _ _ ⟨⟩
theorem freqStep : ∀ (p : Nat), Statement (.freqStep p) := by rintro _ _ ⟨⟩
theorem freqRequestRelease : ∀ (p : Nat), Statement (.freqRequestRelease p) := by rintro _ _ ⟨⟩
theorem droopTrip : ∀ (p : Nat) (c : Nat), Statement (.droopTrip p c) := by rintro _ _ _ ⟨⟩
theorem droopRecover : ∀ (p : Nat) (x : Recovery), Statement (.droopRecover p x) := by rintro _ _ _ ⟨⟩
theorem powerCapWrite : ∀ (who : Writer) (v : Word), Statement (.powerCapWrite who v) := by rintro _ _ _ ⟨⟩
theorem capLeaseExpiry : Statement (.capLeaseExpiry) := by rintro _ ⟨⟩
theorem slackPublish : Statement (.slackPublish) := by rintro _ ⟨⟩
theorem powerShift : Statement (.powerShift) := by rintro _ ⟨⟩
theorem ballastUpdate : ∀ (t : Nat), Statement (.ballastUpdate t) := by rintro _ _ ⟨⟩
theorem governorRelease : ∀ (t : Nat), Statement (.governorRelease t) := by rintro _ _ ⟨⟩
theorem sensorRead : ∀ (temps : List Nat), Statement (.sensorRead temps) := by rintro _ _ ⟨⟩
theorem throttleAdjust : ∀ (c : Nat), Statement (.throttleAdjust c) := by rintro _ _ ⟨⟩
theorem throttleRelease : ∀ (c : Nat), Statement (.throttleRelease c) := by rintro _ _ ⟨⟩
theorem kilnForecast : Statement (.kilnForecast) := by rintro _ ⟨⟩
theorem coolantWrite : ∀ (who : Writer) (v : Word), Statement (.coolantWrite who v) := by rintro _ _ _ ⟨⟩
theorem coolantStale : Statement (.coolantStale) := by rintro _ ⟨⟩
theorem throttleInAssert : ∀ (chatter : Bool), Statement (.throttleInAssert chatter) := by rintro _ _ ⟨⟩
theorem throttleInDeassert : Statement (.throttleInDeassert) := by rintro _ ⟨⟩
theorem extLatched : Statement (.extLatched) := by rintro _ ⟨⟩
theorem domainOn : ∀ (who : Writer) (d : Nat), Statement (.domainOn who d) := by rintro _ _ _ ⟨⟩
theorem domainOff : ∀ (who : Writer) (d : Nat), Statement (.domainOff who d) := by rintro _ _ _ ⟨⟩
theorem domainTurnOn : ∀ (rail : Nat), Statement (.domainTurnOn rail) := by rintro _ _ ⟨⟩
theorem faultReaction : Statement .faultReaction := by rintro _ ⟨⟩
theorem faultStatusClear : ∀ (who : Writer) (v : Word), Statement (.faultStatusClear who v) := by rintro _ _ _ ⟨⟩
theorem faultForce : ∀ (who : Writer) (v : Word), Statement (.faultForce who v) := by rintro _ _ _ ⟨⟩
theorem abortGo : ∀ (who : Writer) (v : Word), Statement (.abortGo who v) := by rintro _ _ _ ⟨⟩
theorem jobAbort : ∀ (n : Nat) (p : Packet), Statement (.jobAbort n p) := by rintro _ _ _ ⟨⟩
theorem fencePartition : ∀ (who : Writer) (v : Word), Statement (.fencePartition who v) := by rintro _ _ _ ⟨⟩
theorem fenceDrainDone : ∀ (p : Nat), Statement (.fenceDrainDone p) := by rintro _ _ ⟨⟩
theorem drainExpired : ∀ (p : Nat), Statement (.drainExpired p) := by rintro _ _ ⟨⟩
theorem partReset : ∀ (who : Writer) (v : Word), Statement (.partReset who v) := by rintro _ _ _ ⟨⟩
theorem deviceReset : ∀ (who : Writer), Statement (.deviceReset who) := by rintro _ _ ⟨⟩
theorem resetN : ∀ (longerThan10ms : Bool), Statement (.resetN longerThan10ms) := by rintro _ _ ⟨⟩
theorem pwrgdIn : Statement (.pwrgdIn) := by rintro _ ⟨⟩
theorem inputStuck : ∀ (i : SideInput) (chatter : Option Bool), Statement (.inputStuck i chatter) := by rintro _ _ _ ⟨⟩
theorem stuckMashScan : ∀ (set : List Nat) (nodeA : Nat) (nodeB : Nat), Statement (.stuckMashScan set nodeA nodeB) := by rintro _ _ _ _ ⟨⟩
theorem heartbeatTick : Statement (.heartbeatTick) := by rintro _ ⟨⟩
theorem mgmtDisagree : Statement (.mgmtDisagree) := by rintro _ ⟨⟩
theorem twinCtrlWrite : ∀ (who : Writer) (v : Word), Statement (.twinCtrlWrite who v) := by rintro _ _ _ ⟨⟩
theorem twinBeatSend : Statement (.twinBeatSend) := by rintro _ ⟨⟩
theorem twinBeat : ∀ (b : TwinBeat), Statement (.twinBeat b) := by rintro _ _ ⟨⟩
theorem twinBeatMissed : ∀ (fromDevice : Nat), Statement (.twinBeatMissed fromDevice) := by rintro _ _ ⟨⟩
theorem promote : ∀ (who : Writer), Statement (.promote who) := by rintro _ _ ⟨⟩
theorem demote : ∀ (who : Writer), Statement (.demote who) := by rintro _ _ ⟨⟩
theorem resync : ∀ (who : Writer), Statement (.resync who) := by rintro _ _ ⟨⟩
theorem twinPromote : Statement (.twinPromote) := by rintro _ ⟨⟩
theorem twinDemote : Statement (.twinDemote) := by rintro _ ⟨⟩
theorem twinRevert : Statement (.twinRevert) := by rintro _ ⟨⟩
theorem twinRoleSwap : Statement (.twinRoleSwap) := by rintro _ ⟨⟩
theorem twinHoldoffExpiry : Statement (.twinHoldoffExpiry) := by rintro _ ⟨⟩
theorem twinResyncStart : Statement (.twinResyncStart) := by rintro _ ⟨⟩
theorem resyncDone : ∀ (ok : Bool) (copy : ResyncCopy), Statement (.resyncDone ok copy) := by rintro _ _ _ ⟨⟩
theorem cellarBoot : Statement (.cellarBoot) := by rintro _ ⟨⟩
theorem cellarBootTimeout : Statement (.cellarBootTimeout) := by rintro _ ⟨⟩
theorem fuseLoad : ∀ (who : Writer), Statement (.fuseLoad who) := by rintro _ _ ⟨⟩
theorem domainUp : ∀ (who : Writer), Statement (.domainUp who) := by rintro _ _ ⟨⟩
theorem selfTest : ∀ (who : Writer), Statement (.selfTest who) := by rintro _ _ ⟨⟩
theorem sramClear : ∀ (who : Writer), Statement (.sramClear who) := by rintro _ _ ⟨⟩
theorem hbmTrain : ∀ (who : Writer), Statement (.hbmTrain who) := by rintro _ _ ⟨⟩
theorem linkTrain : ∀ (who : Writer), Statement (.linkTrain who) := by rintro _ _ ⟨⟩
theorem linkQualify : ∀ (who : Writer), Statement (.linkQualify who) := by rintro _ _ ⟨⟩
theorem timeSync : ∀ (who : Writer), Statement (.timeSync who) := by rintro _ _ ⟨⟩
theorem ready : ∀ (who : Writer), Statement (.ready who) := by rintro _ _ ⟨⟩
theorem stepDone : ∀ (badDomains : List Nat) (badTiles : List (Nat × Nat × Nat × Nat)) (meshBad : List Nat) (rates : List Nat) (us : Nat), Statement (.stepDone badDomains badTiles meshBad rates us) := by rintro _ _ _ _ _ _ ⟨⟩
theorem stepTimeout : Statement (.stepTimeout) := by rintro _ ⟨⟩
theorem void : ∀ (who : Writer), Statement (.void who) := by rintro _ _ ⟨⟩
theorem install : ∀ (who : Writer), Statement (.install who) := by rintro _ _ ⟨⟩
theorem keyWrite : ∀ (who : Writer) (k : Nat) (w : Nat) (v : Word), Statement (.keyWrite who k w v) := by rintro _ _ _ _ _ ⟨⟩
theorem svnMinWrite : ∀ (who : Writer) (v : Word), Statement (.svnMinWrite who v) := by rintro _ _ _ ⟨⟩
theorem getChallenge : ∀ (p : Path), Statement (.getChallenge p) := by rintro _ _ ⟨⟩
theorem submit : ∀ (p : Path) (role : Nat) (slot : Nat), Statement (.submit p role slot) := by rintro _ _ _ _ ⟨⟩
theorem close : ∀ (p : Path), Statement (.close p) := by rintro _ _ ⟨⟩
theorem sessionExpiry : ∀ (p : Path), Statement (.sessionExpiry p) := by rintro _ _ ⟨⟩
theorem authLockoutExpiry : ∀ (p : Path), Statement (.authLockoutExpiry p) := by rintro _ _ ⟨⟩
theorem start : ∀ (who : Writer), Statement (.start who) := by rintro _ _ ⟨⟩
theorem activate : ∀ (who : Writer), Statement (.activate who) := by rintro _ _ ⟨⟩
theorem fwupdAbort : ∀ (who : Writer), Statement (.fwupdAbort who) := by rintro _ _ ⟨⟩
theorem bootOther : ∀ (who : Writer), Statement (.bootOther who) := by rintro _ _ ⟨⟩
theorem fwupdShelfWrite : ∀ (who : Writer) (v : Word), Statement (.fwupdShelfWrite who v) := by rintro _ _ _ ⟨⟩
theorem fwChunk : ∀ (n : Nat) (p : Packet), Statement (.fwChunk n p) := by rintro _ _ _ ⟨⟩
theorem fwAck : ∀ (n : Nat) (p : Packet), Statement (.fwAck n p) := by rintro _ _ _ ⟨⟩
theorem fwChildSilent : ∀ (n : Nat), Statement (.fwChildSilent n) := by rintro _ _ ⟨⟩
theorem fwParentSilent : Statement (.fwParentSilent) := by rintro _ ⟨⟩
theorem fwVerifyDone : Statement (.fwVerifyDone) := by rintro _ ⟨⟩
theorem registerWrite : ∀ (who : Writer) (addr : Nat) (v : Word), Statement (.registerWrite who addr v) := by rintro _ _ _ _ ⟨⟩
theorem pcieLinkUp : ∀ (width : Nat) (speed : Nat), Statement (.pcieLinkUp width speed) := by rintro _ _ _ ⟨⟩
theorem hostMemoryReadCompletion : ∀ (id : Nat) (data : Option (List Byte)), Statement (.hostMemoryReadCompletion id data) := by rintro _ _ _ ⟨⟩
theorem managementPortLinkLoss : Statement (.managementPortLinkLoss) := by rintro _ ⟨⟩
theorem cellarRunning : Statement (.cellarRunning) := by rintro _ ⟨⟩
theorem partResetPhaseEnd : ∀ (p : Nat) (ok : Bool) (badTiles : List (Nat × Nat × Nat × Nat)) (rates : List Nat), Statement (.partResetPhaseEnd p ok badTiles rates) := by rintro _ _ _ _ _ ⟨⟩
theorem boundaryScanInstruction : ∀ (codes : List (BitVec 8)), Statement (.boundaryScanInstruction codes) := by rintro _ _ ⟨⟩

end NonzeroOpcode

end Sys2Proof.Laws
end

