-- ==== Sys2Proof/Tests/Slice0.lean ====
section
/-! SUPPORT. Tests: an ill-formed operand for each check, words written out from the spec's encodings, single steps with
results worked out from the spec, and for each statement states and operands that meet its hypotheses. -/

namespace Sys2Proof.Machine.Tests

set_option Elab.async false

-- Small states

/-- Registers written one after another. -/
def regsOf (l : List (Nat × Nat)) (s : State) : State := l.foldl (fun s p => wrReg p.1 (wd p.2) s) s

/-- Every partition in service, every domain on, every path with the maker's role, bring-up ended. -/
def up : State := State.reset |> regsOf [(Reg.fenceStatus, 0), (Reg.domainStatus, 2 ^ 64 - 1), (Reg.authStatus, 0x3F00)]

/-- Tile `t` owns its banks and runs with values in g1 and g2. -/
def tile (t : Nat) (g1 g2 : Word) (s : State) : State :=
  (List.range 16).foldl (fun s b => wrReg (Reg.bankOwner t b) (wd (t * 2 ^ 16)) s) s
    |> setTileState t 3 |> onTl t (fun x => { setG 1 g1 (setG 2 g2 x) with imemLen := 8000 })

/-- Tile 3 of a gang of its own runs. -/
def run3 : State := tile 3 5 7 up

/-- Tile 3 runs with an address in g1; some bytes lie there. -/
def mem3 (a : Nat) (g2 : Word) : State :=
  tile 3 (wd a) g2 up |> putBytes (sramAddr 3 a) [0x80, 0x81, 0x82, 0x83, 0x84, 0x85, 0x86, 0x87, 0xFF]


/-- Time is locked, device 1 lies behind port 1 (bond 0), which is UP and keeps pitch; group 5 has gang 3 of this device
and gang 0 of device 1. -/
def net : State :=
  { (up |> regsOf [(Reg.timeStatus, 0x20), (Reg.routeTable false 1, 2 ^ 63), (Reg.portStatus 1, 0x3004), (Reg.portPitch 1, 4)])
    with coll := { groups := [(5, { w0 := wd (2 ^ 63 + 2 ^ 36 + 2 ^ 26), w1 := 1 })], store := [(0, 3), (1, 0x10000)] } }

/-- A word of the fabric address space: device 1, local address `a`. -/
def far (a : Nat) : Word := wd (2 ^ 62 + 2 ^ 48 + a)


/-- Every stack of partition 0 READY, and one window over all local addresses with every right but sharing for tenant 0. -/
def target : State :=
  { (net |> regsOf ((List.range 4).map (fun i => (Reg.hbmStatus 0 i, 0x30000003))))
    with rma := { windows := [(0, (wd (0xBE * 2 ^ 56), wd (2 ^ 48 - 1)))] } }

-- What the witnesses need beside evaluation

/-- With an empty table and no collective nothing is open. -/
theorem nothingOpen (s : State) (h : s.cpl = []) (hi : s.coll.insts = []) (hb : s.coll.bars = []) : NothingOpen s :=
  ⟨fun k => by simp [cplOf, h], hi, hb⟩

theorem limitsOf_le (s : State) (p : Nat) : ∀ x ∈ limitsOf s p, x.1 ≤ 7 := by
  have one : ∀ (c : Prop) [Decidable c] (y x : Nat × Nat), y.1 ≤ 7 → x ∈ (if c then [y] else []) → x.1 ≤ 7 := by
    intro c _ y x hy hx
    by_cases hc : c
    · rw [if_pos hc, List.mem_singleton] at hx; rw [hx]; exact hy
    · rw [if_neg hc] at hx; cases hx
  intro x hx
  simp only [limitsOf, List.mem_append] at hx
  rcases hx with (((((hx | hx) | hx) | hx) | hx) | hx) | hx
  · exact one _ _ _ (Nat.le_of_ble_eq_true rfl) hx
  · exact one _ _ _ (Nat.le_of_ble_eq_true rfl) hx
  · exact one _ _ _ (Nat.le_of_ble_eq_true rfl) hx
  · exact one _ _ _ (Nat.le_of_ble_eq_true rfl) hx
  · exact one _ _ _ (Nat.le_of_ble_eq_true rfl) hx
  · rw [List.mem_singleton] at hx; rw [hx]; exact Nat.le_of_ble_eq_true rfl
  · by_cases hc : fixedMode s = true
    · rw [if_pos hc, List.mem_singleton] at hx; rw [hx]; exact Nat.le_of_ble_eq_true rfl
    · rw [if_neg hc, List.mem_cons, List.mem_singleton] at hx
      rcases hx with hx | hx <;> rw [hx] <;> exact Nat.le_of_ble_eq_true rfl

theorem lowestLimit_le (s : State) (p : Nat) : (lowestLimit s p).1 ≤ 7 := by
  unfold lowestLimit
  dsimp only
  generalize hf : List.find? _ _ = o
  cases o with
  | none => exact Nat.zero_le _
  | some x =>
    obtain ⟨y, hy, rfl⟩ := List.mem_map.1 (List.mem_of_find?_eq_some hf)
    exact limitsOf_le s p y hy

/-- The limiter's code is at most 7. -/
theorem limiter_le (s : State) (p : Nat) : (decideFreq s p).1 ≤ 7 := by
  unfold decideFreq
  dsimp only
  split
  · decide
  · exact lowestLimit_le s p

theorem limiter_ne (s : State) (p : Nat) (v : Nat × Nat) (h : v.1 = 15) : decideFreq s p ≠ v := by
  intro e
  have := limiter_le s p
  rw [e, h] at this
  omega

theorem no_step_from_zero (s : State) (p : Nat) (h : freqOf s p = 0) : stepsAtOnce s p = false := by
  simp [stepsAtOnce, h]

/-- A tenant below its quota gets an entry while one is FREE, whichever the free value names. -/
theorem pickTag_some (s : State) (tenant : Nat) (h : heldBy s tenant < rdF s (Reg.cplQuota tenant) 15 0)
    (h0 : (cplOf s 0).st = .free) : ∃ k, (pickTag tenant s).1 = some k := by
  unfold pickTag
  rw [if_neg (by omega)]
  dsimp only
  split
  · exact ⟨_, rfl⟩
  · refine ⟨0, ?_⟩
    show lowestFree s 0 32768 = some 0
    unfold lowestFree
    rw [if_pos h0]

-- An operand out of its range is refused, for each check

theorem wf_tile : (Instr.add 512 {}).wf = false ∧ (Instr.add 511 {}).wf = true := by decide +kernel
theorem wf_port : (Instr.laneLos 32).wf = false := by decide +kernel
theorem wf_partition_and_stack : (Instr.hbmRefresh 4 0).wf = false ∧ (Instr.hbmRefresh 0 4).wf = false := by decide +kernel
theorem wf_tag : (Instr.deadlineExpiry 32768).wf = false := by decide +kernel
theorem wf_queue : (Instr.run 512).wf = false := by decide +kernel
theorem wf_cluster : (Instr.droopTrip 4 0).wf = false ∧ (Instr.droopTrip 0 8).wf = false := by decide +kernel
theorem wf_bank : (Instr.handoverDone 0 16).wf = false := by decide +kernel
theorem wf_bond : (Instr.bondDeal 32).wf = false := by decide +kernel
theorem wf_channel : (Instr.cvuResultDelivery 64).wf = false := by decide +kernel
theorem wf_rail : (Instr.railLost 16).wf = false := by decide +kernel
theorem wf_domain : (Instr.domainOn (.path .pcie) 64).wf = false := by decide +kernel
theorem wf_group : (Instr.groupBarReleaseComputed 4096).wf = false := by decide +kernel
theorem wf_writer : (Instr.deviceReset (.vf 256)).wf = false ∧ (Instr.deviceReset (.fabric 16384 0)).wf = false
    ∧ (Instr.deviceReset (.tile 512)).wf = false ∧ (Instr.deviceReset (.engine 4)).wf = false := by decide +kernel
theorem wf_packet : (Instr.rdReq { dst := 16384 }).wf = false ∧ (Instr.rdReq { vc := 8 }).wf = false
    ∧ (Instr.rdReq { tag := 32768 }).wf = false ∧ (Instr.rdReq { twinSeq := 4096 }).wf = false
    ∧ (Instr.rdReq { payload := List.replicate 257 0 }).wf = false := by decide +kernel
theorem wf_training : (Instr.fullTrain 0 { rxLanes := [] }).wf = false
    ∧ (Instr.fullTrain 0 { nbPort := 32 }).wf = false := by decide +kernel
theorem wf_barrier_key : (Instr.barRelease (.group 4096)).wf = false ∧ (Instr.barRelease (.gang 512)).wf = false
    ∧ (Instr.barRelease (.device 256 0)).wf = false := by decide +kernel
theorem wf_vector_fn : (Instr.vadd 0 { fn := 1 }).wf = false ∧ (Instr.vcvtS 0 { fn := 0x5D }).wf = false
    ∧ (Instr.vcvtN 0 { fn := 0x7F }).wf = false := by decide +kernel
theorem wf_sub : (Instr.rcpGet 0 { sub := 2 }).wf = false ∧ (Instr.clvBroadcast 0 { sub := 5 }).wf = false
    ∧ (Instr.gangEnd 0 { sub := 4 }).wf = false := by decide +kernel
theorem wf_sensors : (Instr.sensorRead []).wf = false ∧ (Instr.activityEstimate []).wf = false := by decide +kernel
theorem wf_bar : (Instr.hostBarAccess .pf 5 0 (.read 4)).wf = false
    ∧ (Instr.hostBarAccess (.vf 256) 0 0 (.read 4)).wf = false := by decide +kernel
theorem wf_ethernet : (Instr.ethFrame 2 {}).wf = false ∧ (Instr.ethFrame 0 { flow := 256 }).wf = false := by decide +kernel

-- Words, field by field from R73 and R74: OP [63:56], PN [55], PG [54:52], D [51:47], A [46:42], B [41:37]

/-- ADD g1 := g2 + g2: OP 0x01, D 1, A 2, B 2. -/
theorem word_add : decodeTile 3 0x0100884000000000 = some (.add 3 { d := 1, a := 2, b := 2 }) := by decide +kernel
/-- ADDI g1 := g1 + 5: OP 0x11, D 1, A 1, IMM 5. -/
theorem word_addImm : decodeTile 3 0x1100840000000005 = some (.addImm 3 { d := 1, a := 1, imm := 5 }) := by decide +kernel
/-- BR with PN 1, PG 2 to index + 0xFFFF: OP 0x20, OFF [15:0]. -/
theorem word_br : decodeTile 3 0x20A000000000FFFF = some (.br 3 { pn := true, pg := 2, off := 0xFFFF }) := by
  decide +kernel
/-- LD of 8 bytes into g1 from g1 + 8: OP 0x30, SIZE [34:33] 3, OFF 8. -/
theorem word_ld : decodeTile 3 0x3000840600000008 = some (.ld 3 { d := 1, a := 1, size := 3, off := 8 }) := by
  decide +kernel
/-- MXM into accumulator 1 from buffer 2: OP 0x51, ACC [51:49], WB [48:47], FMT_A [36:33] 3, BEATS [28:23] 1. -/
theorem word_mxm : decodeTile 3 0x5103000600800000 = some (.mxm 3 { acc := 1, wb := 2, fmtA := 3, beats := 1 }) := by
  decide +kernel
/-- VFMA v1 := v2 × v3 + v4: OP 0x60, C [36:32] 4, FN [31:24] 3. -/
theorem word_vfma : decodeTile 3 0x6000886403000000 = some (.vfma 3 { d := 1, a := 2, b := 3, c := 4, fn := 3 }) := by
  decide +kernel
/-- VREDMIN: OP 0x62, FN 2. -/
theorem word_vredmin : decodeTile 3 0x6200000002000000 = some (.vredmin 3 { fn := 2 }) := by decide +kernel
/-- RCP with SUB [21:18] 2: the third-party copy. -/
theorem word_rcp : decodeTile 3 0x8300000000080000 = some (.rcpThird 3 { sub := 2 }) := by decide +kernel
/-- GANG with SUB 3. -/
theorem word_gang : decodeTile 3 0xE0000000000C0000 = some (.gangEnd 3 { sub := 3 }) := by decide +kernel
/-- Unlisted opcodes, and unlisted functions of listed ones, spell nothing. -/
theorem word_unlisted : [0x00, 0x0B00000000000000, 0x7000000000000000, 0x6100000004000000, 0x83000000000C0000].all
    (fun w => decodeTile 3 w == none) = true := by decide +kernel

-- Values of chapter "Matrix and Vector Arithmetic"

/-- The largest finite elements of R105: 448, 57,344, 28, 7.5, 6 and 1.984375. -/
theorem format_largest : decodeElem 3 0x7E = .fin false 14 5 ∧ decodeElem 4 0x7B = .fin false 7 13
    ∧ decodeElem 7 0x1F = .fin false 7 2 ∧ decodeElem 8 0x1F = .fin false 15 (-1) ∧ decodeElem 9 0x7 = .fin false 3 1
    ∧ decodeElem 0xA 0x7F = .fin false 127 (-6) := by decide +kernel
/-- The smallest magnitudes of R105: 2^−9, 2^−16, 2^−4, 2^−3 and 2^−1; the NaN of E4M3; a negative INT4. -/
theorem format_smallest : decodeElem 3 1 = .fin false 1 (-9) ∧ decodeElem 4 1 = .fin false 1 (-16)
    ∧ decodeElem 7 1 = .fin false 1 (-4) ∧ decodeElem 8 1 = .fin false 1 (-3) ∧ decodeElem 9 1 = .fin false 1 (-1)
    ∧ decodeElem 3 0xFF = .nan ∧ decodeElem 0xC 0xF = .fin true 1 0 := by decide +kernel
/-- The sum of the chapter's worked example, 65 × 2^−28, is 0x3482_0000 in FP32. -/
theorem round_example : (encodeRne (fmtOf 0) false (.fin false 65 (-28))).1 = 0x34820000 := by decide +kernel
/-- The pre-pass of the same example: scales 2^2 and 2^−20 with T = 8 give 10, 2^6 and 2^−4 give 14 (R116). -/
theorem prepass_example : prepass 5 [0x81, 0x6B] [.fin false 1 0] = 10 ∧ prepass 5 [0x85, 0x7B] [.fin false 1 0] = 14 := by decide +kernel
/-- The CRC-32C of 32 zero bytes is 0x8A91_36AA (worked example of chapter "Check-Value Units"). -/
theorem crc_example : crcOut (crcPreset 1) (crcRun (crcPreset 1) (crcPreset 1).init (List.replicate 32 0)) = 0x8A9136AA := by
  decide +kernel

-- Addresses of worked examples

/-- Bank 5 of tile 37, and its BANK_OWNER_NEXT (chapter "Scratchpad Banks"). -/
theorem bank_example : sramAddr 37 (5 * 0x20000) = 0x7F0004AA0000
    ∧ Reg.spaceBase + Reg.bankOwnerNext 37 5 = 0x7FF001025948 := by decide +kernel
/-- Local address 0x18_0123_4500 is in partition 1; its line is on stack 1 with four stacks, 0 with three (R170). -/
theorem hbm_example : stackOf State.reset 0x1234500 = 1
    ∧ stackOf { State.reset with boot := { State.reset.boot with stackCount := 3 } } 0x1234500 = 0 := by decide +kernel

-- Single steps

/-- What a command leaves. -/
def after (c : Instr) (s : State) : State := match exec c s with | .next u => u | _ => s

/-- The largest word plus 2 is 1; the destination is a source. -/
theorem test_add : gv (after (.add 3 { d := 2, a := 1, b := 2 }) (tile 3 (-1) 2 up)) 3 2 = 1 := by decide +kernel
/-- g0 is not written. -/
theorem test_add_g0 : gv (after (.add 3 { d := 0, a := 1, b := 2 }) run3) 3 0 = 0 := by decide +kernel
/-- −1 × −1: the high half is 0 signed and 2^64 − 2 unsigned. -/
theorem test_mul_high : gv (after (.mul 3 { d := 4, a := 1, b := 2, fn := 3 }) (tile 3 (-1) (-1) up)) 3 4 = 0
    ∧ gv (after (.mul 3 { d := 4, a := 1, b := 2, fn := 1 }) (tile 3 (-1) (-1) up)) 3 4 = 0xFFFFFFFFFFFFFFFE := by
  decide +kernel
/-- A shift by 65 shifts by 1, and copies the sign with FN[0]. -/
theorem test_shr : gv (after (.shr 3 { d := 4, a := 1, b := 2, fn := 1 }) (tile 3 (-2) 65 up)) 3 4 = -1
    ∧ gv (after (.shr 3 { d := 4, a := 1, b := 2 }) (tile 3 (-2) 65 up)) 3 4 = 0x7FFFFFFFFFFFFFFF := by decide +kernel
/-- −1 < 1 signed, not unsigned. -/
theorem test_cmp : preg (tl (after (.cmp 3 { d := 2, a := 1, b := 2, fn := 2 }) (tile 3 (-1) 1 up)) 3) 2 = true
    ∧ preg (tl (after (.cmp 3 { d := 2, a := 1, b := 2, fn := 4 }) (tile 3 (-1) 1 up)) 3) 2 = false := by decide +kernel
/-- The immediate 0xFFFF_FFFF is −1. -/
theorem test_addImm : gv (after (.addImm 3 { d := 4, a := 1, imm := 0xFFFFFFFF }) run3) 3 4 = 4 := by decide +kernel
/-- A branch from index 0 by 0x20 with a link register goes to 32 and writes 1. -/
theorem test_br : tileIndex (after (.br 3 { d := 4, off := 0x20 }) run3) 3 = 32
    ∧ gv (after (.br 3 { d := 4, off := 0x20 }) run3) 3 4 = 1 := by decide +kernel
/-- Bytes 0x80, 0x81 lie low first, and SX extends their sign. -/
theorem test_ld : gv (after (.ld 3 { d := 4, a := 1, size := 1 }) (mem3 0x40 0)) 3 4 = 0x8180
    ∧ gv (after (.ld 3 { d := 4, a := 1, size := 1, sx := true }) (mem3 0x40 0)) 3 4 = 0xFFFFFFFFFFFF8180 := by
  decide +kernel
/-- Two bytes at an odd offset: MISALIGNED stops the gang's tile (R99): FAULTED. -/
theorem test_ld_misaligned : tileState (after (.ld 3 { d := 4, a := 1, size := 1, off := 1 }) (mem3 0x40 0)) 3 = 5 := by
  decide +kernel
/-- A two-byte store writes two bytes, low first, and no third. -/
theorem test_st : memBytes (after (.st 3 { d := 2, a := 1, size := 1 }) (mem3 0x40 0x1234)) (sramAddr 3 0x40) 3
    = [0x34, 0x12, 0x82] := by decide +kernel
/-- An addition of 1 to 0x83828180 in place gives the old value. -/
theorem test_atmAdd : memBytes (after (.atmAdd 3 { d := 2, a := 1, size := 2 }) (mem3 0x40 1)) (sramAddr 3 0x40) 5
    = [0x81, 0x81, 0x82, 0x83, 0x84] ∧ gv (after (.atmAdd 3 { d := 2, a := 1, size := 2 }) (mem3 0x40 1)) 3 2 = 0x83828180 := by
  decide +kernel
/-- The order of the queue: the command in front runs, the other waits. -/
theorem test_queue : (match step { State.reset with pending := [.extReferenceLost, .dlDown] } with
    | .next u => u.pending | _ => []) = [.dlDown] := by decide +kernel

-- Conditions that no evaluation settles

/-- Among the forecasts of 32 clusters one is the largest. -/
theorem witness_ThermalControl_forecast (f : Nat → Nat) : ∃ m, (∀ c, c < 32 → f c ≤ m) ∧ ∃ c, c < 32 ∧ f c = m := by
  obtain ⟨c, hc, h⟩ := Finset.exists_max_image (Finset.range 32) f ⟨0, by simp⟩
  exact ⟨f c, fun d hd => h d (by simpa using hd), c, by simpa using hc, rfl⟩

/-- A well-formed instruction that has a word. -/
theorem witness_TileWordsRoundTrip : encodeTile (.sub 511 { d := 31, rsv := 1 }) = some 0x020F800000000001
    ∧ (Instr.sub 511 { d := 31, rsv := 1 }).wf = true := by decide +kernel

/-- A store whose state and next state have memory in canonical form. -/
theorem witness_OwnInstructionsKeepMemoryCanonical :
    (encodeTile (.st 3 { d := 2, a := 1, size := 1 })).isSome = true ∧ (mem3 0x40 0x1234).memWf = true
      ∧ fld (encM 0x31 { d := 2, a := 1, size := 1 }) 63 56 = 0x31
      ∧ (after (.st 3 { d := 2, a := 1, size := 1 }) (mem3 0x40 0x1234)).memWf = true := by decide +kernel

/-- A false guard: an instruction, and a branch of a gang of one tile. -/
theorem witness_FalseGuards :
    canIssue run3 3 = true ∧ guardTrue (tl run3 3) true 0 = false ∧ leaderOf run3 3 = 3 ∧ membersOf run3 3 = [3]
      ∧ encodeTile (.add 3 { pn := true, d := 4 }) = some 0x0182000000000000
      ∧ decodeTile 3 0x0182000000000000 = some (.add 3 { pn := true, d := 4 })
      ∧ encodeTile (.brp 3 { pn := true, mode := 1 }) = some 0x2180002000000000
      ∧ decodeTile 3 0x2180002000000000 = some (.brp 3 { pn := true, mode := 1 }) := by decide +kernel

/-- Comparisons that are illegal, and an accumulator with two rows for an MXM of one. -/
theorem witness_illegal :
    Runs run3 3 false 0 [1, 2] ∧ (6 : Nat) ≤ (6 : BitVec 8).toNat % 8 ∧ (8 : Nat) ≤ (8 : BitVec 5).toNat
      ∧ (∀ s, s = onTl 3 (fun y => { y with acc := [(0, { rows := 2 })] }) run3 →
          Runs s 3 false 0 [1] ∧ (accOf (tl s 3) 0).rows = 2 ∧ (tl s 3).firstMxm = none) := by
  refine ⟨by decide +kernel, by decide, by decide, ?_⟩
  rintro s rfl
  decide +kernel

/-- No lease runs, and one who may reset the device. -/
theorem witness_FrequencyAndPower_lease : up.pwr.leaseFrom = none ∧ mayWrite up .operator (.path .pcie) = true := by
  decide +kernel

namespace Part1


/-- States and operands that meet the hypotheses of clauses of `Obligations.StepRunsFrontCommand`. -/
theorem witness_StepRunsFrontCommand :
    State.reset.pending = [] :=
  by decide +kernel

def xScalReg : SArgs := { d := 4, a := 1, b := 2 }
def xScalImm : IArgs := { d := 1, a := 1, fn := 1, imm := 4294967295 }

/-- States and operands that meet the hypotheses of clauses of `Obligations.ScalarResults`. -/
theorem witness_ScalarResults :
    (Runs run3 3 xScalReg.pn xScalReg.pg [xScalReg.a.toNat, xScalReg.b.toNat] ∧ xScalReg.rsv = 0)
    ∧ (Runs run3 3 xScalImm.pn xScalImm.pg [xScalImm.a.toNat]) := by
  refine ⟨?_, ?_⟩ <;> decide +kernel

def xBrl : BArgs := { d := 4, off := 5 }
def xBr2 : BArgs := { d := 4, a := 1, ps := 1, mode := 1, ind := true, off := 5 }

/-- States and operands that meet the hypotheses of clauses of `Obligations.BranchesOfALeader`. -/
theorem witness_BranchesOfALeader :
    (canIssue run3 3 = true ∧ xBrl.rsv = 0 ∧ leaderOf run3 3 = 3
      ∧ (xBrl.ind = true → xBrl.a = 0 ∨ xBrl.a.toNat ∉ (tl run3 3).pend)
      ∧ branchTarget run3 3 xBrl < (tl run3 3).imemLen)
    ∧ (canIssue run3 3 = true ∧ xBrl.rsv = 0 ∧ leaderOf run3 3 = 3
      ∧ (xBrl.ind = true → xBrl.a = 0 ∨ xBrl.a.toNat ∉ (tl run3 3).pend)
      ∧ branchTarget run3 3 xBrl < (tl run3 3).imemLen ∧ xBrl.mode = 0)
    ∧ (canIssue run3 3 = true ∧ xBr2.rsv = 0 ∧ leaderOf run3 3 = 3
      ∧ (xBr2.ind = true → xBr2.a = 0 ∨ xBr2.a.toNat ∉ (tl run3 3).pend)
      ∧ branchTarget run3 3 xBr2 < (tl run3 3).imemLen ∧ (xBr2.mode = 1 ∨ xBr2.mode = 2)
      ∧ (∀ m ∈ membersOf run3 3, m ≠ 3 → (tl run3 m).wait = some (Wait.brp xBr2))) := by
  refine ⟨?_, ?_, ?_⟩ <;> decide +kernel

end Part1


namespace Part2

def xBrp_any : BArgs := { d := 4, a := 1, ps := 1, mode := 1, ind := true }
def xBrp_any_gang : State := onTl 5 (fun x => { setP 1 true x with wait := some (Wait.brp { d := 4, ps := 1, mode := 1, off := 9 }) }) (wrReg (Reg.tileGang 5) 3 (tile 5 1 1 run3))
def xBrp_any_gang1 : BArgs := { d := 4, ps := 1, mode := 1, off := 9 }
def xBrp_all_gang : State := onTl 5 (fun x => { setP 1 true x with wait := some (Wait.brp { d := 4, ps := 1, mode := 2, off := 9 }) }) (wrReg (Reg.tileGang 5) 3 (tile 5 1 1 run3))
def xBrp_all_gang1 : BArgs := { d := 4, ps := 1, mode := 2, off := 9 }

/-- States and operands that meet the hypotheses of clauses of `Obligations.BranchesOfALeader`. -/
theorem witness_BranchesOfALeader2 :
    (canIssue run3 3 = true ∧ xBrp_any.rsv = 0 ∧ leaderOf run3 3 = 3
      ∧ (xBrp_any.ind = true → xBrp_any.a = 0 ∨ xBrp_any.a.toNat ∉ (tl run3 3).pend)
      ∧ branchTarget run3 3 xBrp_any < (tl run3 3).imemLen ∧ (xBrp_any.mode = 1 ∨ xBrp_any.mode = 2)
      ∧ (∀ m ∈ membersOf run3 3, m ≠ 3 → (tl run3 m).wait = some (Wait.brp xBrp_any))
      ∧ (false = true ↔ guardTrue (tl run3 3) xBrp_any.pn xBrp_any.pg = true ∧ ((xBrp_any.mode = 1
      ∧ ∃ m ∈ membersOf run3 3, preg (tl run3 m) xBrp_any.ps.toNat = true) ∨ xBrp_any.mode = 2
      ∧ ∀ m ∈ membersOf run3 3, preg (tl run3 m) xBrp_any.ps.toNat = true)))
    ∧ (canIssue xBrp_any_gang 3 = true ∧ xBrp_any_gang1.rsv = 0 ∧ leaderOf xBrp_any_gang 3 = 3
      ∧ (xBrp_any_gang1.ind = true → xBrp_any_gang1.a = 0 ∨ xBrp_any_gang1.a.toNat ∉ (tl xBrp_any_gang 3).pend)
      ∧ branchTarget xBrp_any_gang 3 xBrp_any_gang1 < (tl xBrp_any_gang 3).imemLen
      ∧ (xBrp_any_gang1.mode = 1 ∨ xBrp_any_gang1.mode = 2)
      ∧ (∀ m ∈ membersOf xBrp_any_gang 3, m ≠ 3 → (tl xBrp_any_gang m).wait = some (Wait.brp xBrp_any_gang1))
      ∧ (true = true ↔ guardTrue (tl xBrp_any_gang 3) xBrp_any_gang1.pn xBrp_any_gang1.pg = true
      ∧ ((xBrp_any_gang1.mode = 1
      ∧ ∃ m ∈ membersOf xBrp_any_gang 3, preg (tl xBrp_any_gang m) xBrp_any_gang1.ps.toNat = true) ∨ xBrp_any_gang1.mode = 2
      ∧ ∀ m ∈ membersOf xBrp_any_gang 3, preg (tl xBrp_any_gang m) xBrp_any_gang1.ps.toNat = true)))
    ∧ (canIssue xBrp_all_gang 3 = true ∧ xBrp_all_gang1.rsv = 0 ∧ leaderOf xBrp_all_gang 3 = 3
      ∧ (xBrp_all_gang1.ind = true → xBrp_all_gang1.a = 0 ∨ xBrp_all_gang1.a.toNat ∉ (tl xBrp_all_gang 3).pend)
      ∧ branchTarget xBrp_all_gang 3 xBrp_all_gang1 < (tl xBrp_all_gang 3).imemLen
      ∧ (xBrp_all_gang1.mode = 1 ∨ xBrp_all_gang1.mode = 2)
      ∧ (∀ m ∈ membersOf xBrp_all_gang 3, m ≠ 3 → (tl xBrp_all_gang m).wait = some (Wait.brp xBrp_all_gang1))
      ∧ (false = true ↔ guardTrue (tl xBrp_all_gang 3) xBrp_all_gang1.pn xBrp_all_gang1.pg = true
      ∧ ((xBrp_all_gang1.mode = 1
      ∧ ∃ m ∈ membersOf xBrp_all_gang 3, preg (tl xBrp_all_gang m) xBrp_all_gang1.ps.toNat = true) ∨ xBrp_all_gang1.mode = 2
      ∧ ∀ m ∈ membersOf xBrp_all_gang 3, preg (tl xBrp_all_gang m) xBrp_all_gang1.ps.toNat = true))) := by
  refine ⟨?_, ?_, ?_⟩ <;> decide +kernel

def xLd : MArgs := { d := 4, a := 1, size := 2, sx := true }
def xVld : MArgs := { d := 31, a := 1 }
def xSt : State := mem3 2097144 1234605616436508552
def xSt1 : MArgs := { d := 2, a := 1, sel := 1, size := 3 }
def xVst : State := onTl 3 (fun x => { x with v := [(2, 4886718345#4096)] }) (mem3 2096640 1234605616436508552)
def xAtmAdd1 : MArgs := { d := 2, a := 1, b := 3, sel := 1, atype := 1 }
def xAtmSwpl : State := mem3 2097140 1234605619290308608
def xAtmSwpl1 : MArgs := { d := 2, a := 1, b := 3, size := 2 }

/-- States and operands that meet the hypotheses of clauses of `Obligations.LocalLoadsAndStores`. -/
theorem witness_LocalLoadsAndStores :
    (Runs (mem3 2097144 7) 3 xLd.pn xLd.pg [xLd.a.toNat] ∧ xLd.rsv = 0 ∧ xLd.sel ≠ 3
      ∧ memOff (mem3 2097144 7) 3 xLd % 2 ^ xLd.size.toNat = 0
      ∧ MayAccess (mem3 2097144 7) 3 4 (memOff (mem3 2097144 7) 3 xLd) (2 ^ xLd.size.toNat)
      ∧ Quiet (mem3 2097144 7) 3 (memOff (mem3 2097144 7) 3 xLd) (2 ^ xLd.size.toNat))
    ∧ (Runs (mem3 2096640 7) 3 xVld.pn xVld.pg [xVld.a.toNat] ∧ xVld.rsv = 0 ∧ memOff (mem3 2096640 7) 3 xVld % 64 = 0
      ∧ MayAccess (mem3 2096640 7) 3 3 (memOff (mem3 2096640 7) 3 xVld) 512
      ∧ Quiet (mem3 2096640 7) 3 (memOff (mem3 2096640 7) 3 xVld) 512)
    ∧ (Runs xSt 3 xSt1.pn xSt1.pg [xSt1.a.toNat] ∧ xSt1.rsv = 0 ∧ xSt1.sel ≠ 3
      ∧ (xSt1.d = 0 ∨ xSt1.d.toNat ∉ (tl xSt 3).pend) ∧ memOff xSt 3 xSt1 % 2 ^ xSt1.size.toNat = 0
      ∧ MayAccess xSt 3 4 (memOff xSt 3 xSt1) (2 ^ xSt1.size.toNat)
      ∧ Quiet xSt 3 (memOff xSt 3 xSt1) (2 ^ xSt1.size.toNat))
    ∧ (Runs xVst 3 xSt1.pn xSt1.pg [xSt1.a.toNat] ∧ xSt1.rsv = 0 ∧ memOff xVst 3 xSt1 % 64 = 0
      ∧ MayAccess xVst 3 3 (memOff xVst 3 xSt1) 512 ∧ Quiet xVst 3 (memOff xVst 3 xSt1) 512)
    ∧ (Runs xSt 3 xAtmAdd1.pn xAtmAdd1.pg [xAtmAdd1.a.toNat, xAtmAdd1.d.toNat] ∧ xAtmAdd1.rsv = 0 ∧ xAtmAdd1.sel ≠ 3
      ∧ (xAtmAdd1.atype = 1 ∧ 8 = 8 ∨ (xAtmAdd1.atype = 0 ∨ xAtmAdd1.atype = 2) ∧ 8 = 4)
      ∧ memOff xSt 3 xAtmAdd1 % 8 = 0 ∧ MayAccess xSt 3 4 (memOff xSt 3 xAtmAdd1) 8
      ∧ Quiet xSt 3 (memOff xSt 3 xAtmAdd1) 8)
    ∧ (Runs xAtmSwpl 3 xAtmSwpl1.pn xAtmSwpl1.pg [xAtmSwpl1.a.toNat, xAtmSwpl1.d.toNat] ∧ xAtmSwpl1.rsv = 0
      ∧ xAtmSwpl1.sel ≠ 3 ∧ 4 = 2 ^ xAtmSwpl1.size.toNat ∧ memOff xAtmSwpl 3 xAtmSwpl1 % 4 = 0
      ∧ MayAccess xAtmSwpl 3 4 (memOff xAtmSwpl 3 xAtmSwpl1) 4 ∧ Quiet xAtmSwpl 3 (memOff xAtmSwpl 3 xAtmSwpl1) 4)
    ∧ (Runs xAtmSwpl 3 xAtmSwpl1.pn xAtmSwpl1.pg [xAtmSwpl1.a.toNat, xAtmSwpl1.d.toNat] ∧ xAtmSwpl1.rsv = 0
      ∧ xAtmSwpl1.sel ≠ 3 ∧ 4 = 2 ^ xAtmSwpl1.size.toNat ∧ memOff xAtmSwpl 3 xAtmSwpl1 % 4 = 0
      ∧ MayAccess xAtmSwpl 3 4 (memOff xAtmSwpl 3 xAtmSwpl1) 4 ∧ Quiet xAtmSwpl 3 (memOff xAtmSwpl 3 xAtmSwpl1) 4
      ∧ (xAtmSwpl1.b = 0 ∨ xAtmSwpl1.b.toNat ∉ (tl xAtmSwpl 3).pend)) := by
  and_intros <;> decide +kernel

def xTF1 : SArgs := { d := 2, rsv := 1 }
def xTF2l : MArgs := { d := 2, a := 1, size := 1 }

/-- States and operands that meet the hypotheses of clauses of `Obligations.TileFaults`. -/
theorem witness_TileFaults :
    (canIssue (tile 511 5 7 up) 511 = true ∧ xTF1.rsv ≠ 0)
    ∧ (canIssue (mem3 2097137 7) 3 = true
      ∧ Runs (mem3 2097137 7) 3 xTF2l.pn xTF2l.pg [xTF2l.a.toNat, xTF2l.b.toNat, xTF2l.d.toNat] ∧ xTF2l.rsv = 0
      ∧ xTF2l.sel ≠ 3 ∧ memOff (mem3 2097137 7) 3 xTF2l % 2 ^ xTF2l.size.toNat ≠ 0)
    ∧ (canIssue (mem3 2097137 7) 3 = true
      ∧ Runs (mem3 2097137 7) 3 xTF2l.pn xTF2l.pg [xTF2l.a.toNat, xTF2l.b.toNat, xTF2l.d.toNat] ∧ xTF2l.rsv = 0
      ∧ xTF2l.sel ≠ 3 ∧ memOff (mem3 2097137 7) 3 xTF2l % 64 ≠ 0)
    ∧ (canIssue (mem3 2096704 7) 3 = true
      ∧ Runs (mem3 2096704 7) 3 xTF2l.pn xTF2l.pg [xTF2l.a.toNat, xTF2l.b.toNat, xTF2l.d.toNat] ∧ xTF2l.rsv = 0
      ∧ xTF2l.sel ≠ 3 ∧ memOff (mem3 2096704 7) 3 xTF2l % 64 = 0 ∧ 2097152 < memOff (mem3 2096704 7) 3 xTF2l + 512) := by
  refine ⟨?_, ?_, ?_, ?_⟩ <;> decide +kernel

def xVec : State := onTl 3 (fun x => { x with v := [(1, 362520914032384401558498590876647628040407351296#4096), (2, 169808876481407414658281801876783497216#4096), (3, 305419896#4096)] }) run3
def xVec1 : SArgs := { d := 3, a := 1, b := 2, c := 3 }
def xVecB1 : SArgs := { d := 3, a := 1, b := 2, c := 3, fmt := 1 }
def xCvt : State := onTl 3 (fun x => { x with v := [(1, 362520914032384401558498590876647628040407351296#4096)] }) run3
def xCvt1 : SArgs := { d := 3, a := 1, b := 2, c := 3, fn := 64 }
def xCvtN1 : SArgs := { d := 3, a := 1, b := 2, c := 3, fn := 156, fmt := 1 }

/-- States and operands that meet the hypotheses of clauses of `Obligations.VectorResults`. -/
theorem witness_VectorResults :
    (Runs xVec 3 xVec1.pn xVec1.pg [] ∧ xVec1.rsv = 0 ∧ xVec1.fmt.toNat < 2 ∧ 0 = xVec1.fmt.toNat ∧ fmtOf 0 = vfmt 0)
    ∧ (Runs xVec 3 xVecB1.pn xVecB1.pg [] ∧ xVecB1.rsv = 0 ∧ xVecB1.fmt.toNat < 2 ∧ 1 = xVecB1.fmt.toNat)
    ∧ (Runs xCvt 3 xCvt1.pn xCvt1.pg [] ∧ xCvt1.rsv = 0 ∧ (64 = 64 ∧ Instr.vcvtS 3 xCvt1 = Instr.vcvtS 3 xCvt1 ∨ 64 = 128
      ∧ Instr.vcvtS 3 xCvt1 = Instr.vcvtN 3 xCvt1) ∧ 64 ≤ xCvt1.fn.toNat ∧ xCvt1.fn.toNat ≤ 64 + 28
      ∧ xCvt1.fmt.toNat < 2 ∧ (xCvt1.fmt = 0 → xCvt1.fn.toNat / 16 % 4 = 0) ∧ xCvt1.fn.toNat % 16 < 13)
    ∧ (Runs xCvt 3 xCvtN1.pn xCvtN1.pg [] ∧ xCvtN1.rsv = 0 ∧ (128 = 64
      ∧ Instr.vcvtN 3 xCvtN1 = Instr.vcvtS 3 xCvtN1 ∨ 128 = 128 ∧ Instr.vcvtN 3 xCvtN1 = Instr.vcvtN 3 xCvtN1)
      ∧ 128 ≤ xCvtN1.fn.toNat ∧ xCvtN1.fn.toNat ≤ 128 + 28 ∧ xCvtN1.fmt.toNat < 2
      ∧ (xCvtN1.fmt = 0 → xCvtN1.fn.toNat / 16 % 4 = 0) ∧ xCvtN1.fn.toNat % 16 < 13)
    ∧ (Runs xCvt 3 xVec1.pn xVec1.pg [] ∧ xVec1.rsv = 0 ∧ xVec1.fmt.toNat < 2 ∧ 0 = xVec1.fmt.toNat ∧ 128 = vlanes 0
      ∧ 32 = vwidth 0) := by
  refine ⟨?_, ?_, ?_, ?_, ?_⟩ <;> decide +kernel

end Part2


namespace Part3

def mx : State := mem3 0x40 0x1000 |> putBytes (sramAddr 3 0x1000) [0x3F,0x80,0x12,0x34,0x56,0x78,0xC1,0x02]
def mxb : State := onTl 3 (fun x => {x with wb := [(1, {fmt := some 1, elems := (List.range 2048).map (fun i => BitVec.ofNat 8 (i*37)), scales := [], ew := -2})]}) mx
def mxa : State := onTl 3 (fun x => {x with gen := 0x123456789ABCDEF, acc := [(5, {anchor := -10, rows := 1, wins := (List.range 64).map (fun i => (i, {w := BitVec.ofNat 120 (i*0x123456789AB), sticky := i % 3 == 0}))})]}) mx
def sd : State := mem3 0x1FFFE0 63
def st1 (n : Nat) : State := mem3 0x40 63
  |> onTl 3 (fun x => {x with slotQ := [7], slots := [(7, {w0 := wd (sramAddr 3 0x40), w1 := wd (sramAddr 3 0x8040), w2 := wd (1 + n * 2^32)})]})
def xMxw : XArgs := { wb := 3, a := 1, b := 2, fmtW := 2 }
def xMxm : XArgs := { acc := 5, wb := 1, a := 1, b := 2, fmtA := 1 }
def xMxmSW : XArgs := { acc := 5, wb := 1, a := 1, b := 2, fmtA := 1, fmtW := 1, beats := 1, sw := true }
def xMxd0l : XArgs := { acc := 5, b := 1, out := true }

/-- States and operands that meet the hypotheses of clauses of `Obligations.MatrixResults`. -/
theorem witness_MatrixResults :
    (Runs mx 3 xMxw.pn xMxw.pg [xMxw.a.toNat] ∧ xMxw.rsv = 0 ∧ matFmt xMxw.fmtW.toNat = true
      ∧ CanRead mx 3 (BitVec.toNat (gv mx 3 xMxw.a)) (elemBytes xMxw.fmtW.toNat 64 (classK xMxw.fmtW.toNat) + scaleBytes xMxw.fmtW.toNat 64 (classK xMxw.fmtW.toNat)))
    ∧ (Runs mxb 3 xMxm.pn xMxm.pg [xMxm.a.toNat] ∧ xMxm.rsv = 0 ∧ 1 = xMxm.beats.toNat + 1 ∧ (tl mxb 3).firstMxm = none
      ∧ (xMxm.chain = true → (accOf (tl mxb 3) xMxm.acc.toNat).rows = 0 ∨ (accOf (tl mxb 3) xMxm.acc.toNat).rows = if xMxm.sw = true then 1 else 1)
      ∧ xMxm.sw = false ∧ (wbuf (tl mxb 3) xMxm.wb.toNat).fmt = some 1 ∧ pairOk xMxm.fmtA.toNat 1 = true
      ∧ CanRead mxb 3 (BitVec.toNat (gv mxb 3 xMxm.a)) (elemBytes xMxm.fmtA.toNat 1 (min (classK xMxm.fmtA.toNat) (classK 1)) + scaleBytes xMxm.fmtA.toNat 1 (min (classK xMxm.fmtA.toNat) (classK 1))))
    ∧ (Runs mx 3 xMxmSW.pn xMxmSW.pg [xMxmSW.a.toNat] ∧ xMxmSW.rsv = 0 ∧ 2 = xMxmSW.beats.toNat + 1
      ∧ (tl mx 3).firstMxm = none
      ∧ (xMxmSW.chain = true → (accOf (tl mx 3) xMxmSW.acc.toNat).rows = 0 ∨ (accOf (tl mx 3) xMxmSW.acc.toNat).rows = if xMxmSW.sw = true then 1 else 2)
      ∧ xMxmSW.sw = true ∧ (xMxmSW.b = 0 ∨ xMxmSW.b.toNat ∉ (tl mx 3).pend)
      ∧ pairOk xMxmSW.fmtA.toNat xMxmSW.fmtW.toNat = true
      ∧ CanRead mx 3 (BitVec.toNat (gv mx 3 xMxmSW.a)) (elemBytes xMxmSW.fmtA.toNat 2 (min (classK xMxmSW.fmtA.toNat) (classK xMxmSW.fmtW.toNat)) + scaleBytes xMxmSW.fmtA.toNat 2 (min (classK xMxmSW.fmtA.toNat) (classK xMxmSW.fmtW.toNat)))
      ∧ CanRead mx 3 (BitVec.toNat (gv mx 3 xMxmSW.b)) (elemBytes xMxmSW.fmtW.toNat (64 * 2) (min (classK xMxmSW.fmtA.toNat) (classK xMxmSW.fmtW.toNat)) + scaleBytes xMxmSW.fmtW.toNat (64 * 2) (min (classK xMxmSW.fmtA.toNat) (classK xMxmSW.fmtW.toNat))))
    ∧ (Runs mxa 3 xMxd0l.pn xMxd0l.pg [xMxd0l.b.toNat] ∧ xMxd0l.rsv = 0 ∧ 64 = BitVec.toNat (gv mxa 3 xMxd0l.b)
      ∧ 64 % 64 = 0 ∧ (xMxd0l.out = true → fmtOf 1 = fmtOf 1 ∧ 2 = 2) ∧ (xMxd0l.out = false → fmtOf 1 = fmtOf 0
      ∧ 2 = 4) ∧ MayAccess mxa 3 3 64 (64 * 2 * (accOf (tl mxa 3) xMxd0l.acc.toNat).rows)
      ∧ Quiet mxa 3 64 (64 * 2 * (accOf (tl mxa 3) xMxd0l.acc.toNat).rows) ∧ xMxd0l.rnd = 0)
    ∧ (MayAccess mxa 3 3 64 (1024 * (accOf (tl mxa 3) xMxd0l.acc.toNat).rows)
      ∧ Quiet mxa 3 64 (1024 * (accOf (tl mxa 3) xMxd0l.acc.toNat).rows)) := by
  refine ⟨?_, ?_, ?_, ?_, ?_⟩ <;> decide +kernel

def xSdesc : QArgs := { d := 3, a := 1, sub := 15 }
def xSgo : QArgs := { a := 2 }
def xSwait : QArgs := { d := 5, a := 2 }
def xSwait2 : State := onTl 3 (fun x => { x with slotQ := [63] }) sd
def xSStart_badl : Desc := { }
def xSDone : State := onTl 3 (fun x => { x with slotQ := [], running := some 7 }) (st1 16)

/-- States and operands that meet the hypotheses of clauses of `Obligations.Streams`. -/
theorem witness_Streams :
    (Runs sd 3 xSdesc.pn xSdesc.pg [xSdesc.a.toNat] ∧ Named xSdesc xSdesc
      ∧ 63 = xSdesc.sub.toNat + 16 * (xSdesc.d.toNat % 4) ∧ 63 ∉ (tl sd 3).slotQ ∧ (tl sd 3).running ≠ some 63
      ∧ MayAccess sd 3 4 (BitVec.toNat (gv sd 3 xSdesc.a)) 32 ∧ Quiet sd 3 (BitVec.toNat (gv sd 3 xSdesc.a)) 32)
    ∧ (Runs sd 3 xSgo.pn xSgo.pg [xSgo.a.toNat] ∧ Named xSgo xSgo ∧ 63 = BitVec.toNat (gv sd 3 xSgo.a) % 64
      ∧ 63 ∉ (tl sd 3).slotQ ∧ (tl sd 3).running ≠ some 63)
    ∧ (Runs sd 3 xSwait.pn xSwait.pg [xSwait.a.toNat] ∧ Named xSwait xSwait ∧ 63 = BitVec.toNat (gv sd 3 xSwait.a) % 64
      ∧ (63 ∉ (tl sd 3).slotQ ∧ (tl sd 3).running ≠ some 63))
    ∧ (Runs xSwait2 3 xSwait.pn xSwait.pg [xSwait.a.toNat] ∧ Named xSwait xSwait
      ∧ 63 = BitVec.toNat (gv xSwait2 3 xSwait.a) % 64
      ∧ (63 ∈ (tl xSwait2 3).slotQ ∨ (tl xSwait2 3).running = some 63))
    ∧ ((tl (st1 0) 3).wait = none ∧ (tl (st1 0) 3).running = none ∧ (tl (st1 0) 3).slotQ = [7]
      ∧ fenceState (st1 0) (3 / 128) = 0 ∧ streamCheck (mget xSStart_badl (tl (st1 0) 3).slots 7) ≠ 0)
    ∧ ((tl (st1 16) 3).wait = none ∧ (tl (st1 16) 3).running = none ∧ (tl (st1 16) 3).slotQ = [7]
      ∧ fenceState (st1 16) (3 / 128) = 0 ∧ streamCheck (mget xSStart_badl (tl (st1 16) 3).slots 7) = 0
      ∧ isLocalCopy 3 (mget xSStart_badl (tl (st1 16) 3).slots 7) = true)
    ∧ ((tl xSDone 3).wait = none ∧ (tl xSDone 3).running = some 7
      ∧ isLocalCopy 3 (mget xSStart_badl (tl xSDone 3).slots 7) = true
      ∧ (mget xSStart_badl (tl xSDone 3).slots 7).rows = 1
      ∧ (mget xSStart_badl (tl xSDone 3).slots 7).channel = none
      ∧ 16 = (mget xSStart_badl (tl xSDone 3).slots 7).rowLen ∧ 16 % 8 = 0
      ∧ (mget xSStart_badl (tl xSDone 3).slots 7).w0 = wd (sramAddr 3 64)
      ∧ (mget xSStart_badl (tl xSDone 3).slots 7).w1 = wd (sramAddr 3 32832) ∧ 64 % 8 = 0 ∧ 32832 % 8 = 0
      ∧ MayUse xSDone 3 64 16 ∧ MayUse xSDone 3 32832 16 ∧ Quiet xSDone 3 64 16 ∧ Quiet xSDone 3 32832 16
      ∧ fenceState xSDone (3 / 128) = 0 ∧ bankOn xSDone 3 = true ∧ bankWaking xSDone 3 = false) := by
  and_intros <;> decide +kernel

def xTread : QArgs := { d := 31 }
def xWaitt_latel : State := { run3 with now := 6 }
def xWaitt_latel1 : QArgs := { a := 1, pd := 2 }
def xWaittr : State := { run3 with now := 5 }
def xWaittRel : State := onTl 3 (fun x => { x with wait := some (Wait.waitt 1000) }) run3
def xSteep : QArgs := { a := 1, b := 2, sub := 15 }
def xSteep2 : Hint := { level := 15, start := 5, dur := 7 }
def xSteep5 : State := onTl 3 (fun x => { x with hints := [{ level := 1, start := 2, dur := 300 }, { level := 1, start := 2, dur := 300 }, { level := 1, start := 2, dur := 300 }, { level := 1, start := 2, dur := 300 }] }) run3

/-- States and operands that meet the hypotheses of clauses of `Obligations.TimedInstructions`. -/
theorem witness_TimedInstructions :
    (Runs run3 3 xTread.pn xTread.pg [] ∧ Named xTread xTread)
    ∧ (Runs xWaitt_latel 3 xWaitt_latel1.pn xWaitt_latel1.pg [xWaitt_latel1.a.toNat] ∧ Named xWaitt_latel1 xWaitt_latel1
      ∧ BitVec.toNat (gv xWaitt_latel 3 xWaitt_latel1.a) < now xWaitt_latel)
    ∧ (Runs xWaittr 3 xWaitt_latel1.pn xWaitt_latel1.pg [xWaitt_latel1.a.toNat] ∧ Named xWaitt_latel1 xWaitt_latel1
      ∧ now xWaittr ≤ BitVec.toNat (gv xWaittr 3 xWaitt_latel1.a))
    ∧ ((tl xWaittRel 3).wait = some (Wait.waitt 1000) ∧ tileState xWaittRel 3 = 3 ∧ 1000 < 2 ^ 64)
    ∧ (Runs run3 3 xSteep.pn xSteep.pg [xSteep.a.toNat, xSteep.b.toNat] ∧ Named xSteep xSteep
      ∧ xSteep2.level = xSteep.sub.toNat ∧ xSteep2.start = max (now run3) (BitVec.toNat (gv run3 3 xSteep.a))
      ∧ xSteep2.dur = BitVec.toNat (gv run3 3 xSteep.b))
    ∧ (Runs xSteep5 3 xSteep.pn xSteep.pg [xSteep.a.toNat, xSteep.b.toNat] ∧ Named xSteep xSteep
      ∧ xSteep2.level = xSteep.sub.toNat ∧ xSteep2.start = max (now xSteep5) (BitVec.toNat (gv xSteep5 3 xSteep.a))
      ∧ xSteep2.dur = BitVec.toNat (gv xSteep5 3 xSteep.b)) := by
  and_intros <;> decide +kernel

end Part3


namespace Part4

def cp (e : Cpl) (g2 : Word) : State := mem3 131081 g2 |> setCpl 9 e
def eD : Cpl := {st:=.done,gen:=5,tile:=some 3,sent:=true,rec0:=1,rec1:=0x42,rec2:=3,rec3:=4}
def eO : Cpl := {st:=.opened,gen:=4,tile:=some 3,sent:=true,rec0:=1,rec1:=0x42,rec2:=3,rec3:=4}
def gf : State := mem3 0x1FFFFC 2 |> putBytes (sramAddr 3 0x1FFFFC) [5,0,0xFF,1]
def gd : State := writeGang [5,6,300] run3 |> onTl 3 (setG 1 5)
def ge : State := tile 5 1 1 run3 |> wrReg (Reg.tileGang 5) 3 |> onTl 5 (fun x => {x with wait := some .gangEnd})
def bs : State := {tile 3 1000 2 up with now := 500}
def xFencel : QArgs := { d := 4, sub := 7 }
def xFenceWr : QArgs := { d := 4, sub := 1 }
def xFenceW2r : State := cp { eO with kind := CplKind.coll } 7
def xFenceW2r1 : QArgs := { d := 4, sub := 4 }
def xFence0l : State := onTl 3 (fun x => { x with fenceErr := [3, 4, 5] }) (cp eO 7)
def xFence0l1 : QArgs := { d := 4 }
def xCplwl : QArgs := { d := 4, a := 1 }
def xCplwQl : State := cp { eD with answered := true } 7
def xCplwQl3 : Cpl := { eD with answered := true }
def xCplwst : State := cp { eD with gen := 6 } 2097120
def xCplwst1 : QArgs := { d := 4, a := 1, b := 2 }
def xCplp : QArgs := { d := 4, a := 1, pd := 3 }
def xCplp1 : State := cp { eO with gen := 6 } 2097120

/-- States and operands that meet the hypotheses of clauses of `Obligations.FencesAndCompletions`. -/
theorem witness_FencesAndCompletions :
    (Runs (cp eD 7) 3 xFencel.pn xFencel.pg [] ∧ Named xFencel xFencel ∧ xFencel.sub.toNat < 8
      ∧ openOf (cp eD 7) 3 xFencel.sub.toNat = false)
    ∧ (Runs (cp eO 7) 3 xFenceWr.pn xFenceWr.pg [] ∧ Named xFenceWr xFenceWr ∧ xFenceWr.sub.toNat < 8
      ∧ openOf (cp eO 7) 3 xFenceWr.sub.toNat = true)
    ∧ (Runs xFenceW2r 3 xFenceW2r1.pn xFenceW2r1.pg [] ∧ Named xFenceW2r1 xFenceW2r1 ∧ xFenceW2r1.sub.toNat < 8
      ∧ openOf xFenceW2r 3 xFenceW2r1.sub.toNat = true)
    ∧ (Runs xFence0l 3 xFence0l1.pn xFence0l1.pg [] ∧ Named xFence0l1 xFence0l1 ∧ xFence0l1.sub.toNat < 8
      ∧ openOf xFence0l 3 xFence0l1.sub.toNat = false)
    ∧ (Runs (cp eD 7) 3 xCplwl.pn xCplwl.pg [xCplwl.a.toNat, xCplwl.b.toNat] ∧ Named xCplwl xCplwl
      ∧ lookTag (cp eD 7) (gv (cp eD 7) 3 xCplwl.a) = TagLook.done 9 eD ∧ xCplwl.b = 0)
    ∧ (Runs (cp eD 7) 3 xCplwl.pn xCplwl.pg [xCplwl.a.toNat, xCplwl.b.toNat] ∧ Named xCplwl xCplwl
      ∧ lookTag (cp eD 7) (gv (cp eD 7) 3 xCplwl.a) = TagLook.done 9 eD)
    ∧ (Runs (cp eD 2097120) 3 false 0 [xCplwst1.a.toNat, xCplwst1.b.toNat] ∧ Named xCplwst1 xCplwst1
      ∧ lookTag (cp eD 2097120) (gv (cp eD 2097120) 3 xCplwst1.a) = TagLook.done 9 eD ∧ xCplwst1.b ≠ 0
      ∧ MayAccess (cp eD 2097120) 3 4 2097120 32 ∧ Quiet (cp eD 2097120) 3 2097120 32)
    ∧ (Runs xCplwQl 3 xCplwl.pn xCplwl.pg [xCplwl.a.toNat, xCplwl.b.toNat] ∧ Named xCplwl xCplwl
      ∧ lookTag xCplwQl (gv xCplwQl 3 xCplwl.a) = TagLook.done 9 xCplwQl3 ∧ xCplwl.b = 0)
    ∧ (Runs xCplwQl 3 xCplwl.pn xCplwl.pg [xCplwl.a.toNat, xCplwl.b.toNat] ∧ Named xCplwl xCplwl
      ∧ lookTag xCplwQl (gv xCplwQl 3 xCplwl.a) = TagLook.done 9 xCplwQl3)
    ∧ (Runs xCplwst 3 xCplwst1.pn xCplwst1.pg [xCplwst1.a.toNat, xCplwst1.b.toNat] ∧ Named xCplwst1 xCplwst1
      ∧ lookTag xCplwst (gv xCplwst 3 xCplwst1.a) = TagLook.stale)
    ∧ (Runs (cp eO 2097120) 3 xCplwst1.pn xCplwst1.pg [xCplwst1.a.toNat, xCplwst1.b.toNat] ∧ Named xCplwst1 xCplwst1
      ∧ lookTag (cp eO 2097120) (gv (cp eO 2097120) 3 xCplwst1.a) = TagLook.wait)
    ∧ (Runs (cp eD 2097120) 3 xCplp.pn xCplp.pg [xCplp.a.toNat] ∧ Named xCplp xCplp
      ∧ lookTag (cp eD 2097120) (gv (cp eD 2097120) 3 xCplp.a) = TagLook.done 9 eD)
    ∧ (Runs (cp eO 2097120) 3 xCplwl.pn xCplwl.pg [xCplwl.a.toNat] ∧ Named xCplwl xCplwl
      ∧ lookTag (cp eO 2097120) (gv (cp eO 2097120) 3 xCplwl.a) = TagLook.wait)
    ∧ (Runs xCplp1 3 xCplwl.pn xCplwl.pg [xCplwl.a.toNat] ∧ Named xCplwl xCplwl
      ∧ lookTag xCplp1 (gv xCplp1 3 xCplwl.a) = TagLook.stale) := by
  and_intros <;> decide +kernel

def xGangForml : QArgs := { d := 4, a := 1, b := 2, sub := 1 }
def xGangForm512r : State := putBytes (sramAddr 3 2097148) [5, 0, 0, 2] gf
def xDissolvel : QArgs := { d := 4, a := 1, sub := 2 }
def xGangEndl : QArgs := { sub := 3 }
def xGangEndJobl : State := { ge with host := { ge.host with jobs := [{ q := 2, idx := 3, tenant := 0, leader := 3, st := 3, entry := 0, startTime := 0, startValid := false, args := [] }] } }
def xGangEnd2r : State := setCpl 9 { st := CplState.opened, tile := some 5 } ge

/-- States and operands that meet the hypotheses of clauses of `Obligations.Gangs`. -/
theorem witness_Gangs :
    (Runs run3 3 xFence0l1.pn xFence0l1.pg [] ∧ Named xFence0l1 xFence0l1)
    ∧ (Runs gf 3 xGangForml.pn xGangForml.pg [xGangForml.a.toNat, xGangForml.b.toNat] ∧ Named xGangForml xGangForml
      ∧ [5, 511] = flatten gf [5, 511] ∧ ([5, 511] ≠ [] ∧ [5, 511].length ≤ 512 ∧ (∀ e ∈ [5, 511], e < 512)
      ∧ ∀ m ∈ [5, 511], m < 512 ∧ tileState gf m = 0 ∧ tileTenant gf m = tileTenant gf 3))
    ∧ (MayAccess gf 3 4 (BitVec.toNat (gv gf 3 xGangForml.a)) (2 * BitVec.toNat (gv gf 3 xGangForml.b))
      ∧ Quiet gf 3 (BitVec.toNat (gv gf 3 xGangForml.a)) (2 * BitVec.toNat (gv gf 3 xGangForml.b)))
    ∧ (MayAccess xGangForm512r 3 4 (BitVec.toNat (gv xGangForm512r 3 xGangForml.a)) 4
      ∧ Quiet xGangForm512r 3 (BitVec.toNat (gv xGangForm512r 3 xGangForml.a)) 4)
    ∧ (Runs (setTileState 5 3 gf) 3 xGangForml.pn xGangForml.pg [xGangForml.a.toNat, xGangForml.b.toNat]
      ∧ Named xGangForml xGangForml ∧ [5, 511] = flatten (setTileState 5 3 gf) [5, 511]
      ∧ ([5, 511] = [] ∨ (∃ e ∈ [5, 511], 512 ≤ e) ∨ ∃ m ∈ [5, 511], tileState (setTileState 5 3 gf) m ≠ 0 ∨ tileTenant (setTileState 5 3 gf) m ≠ tileTenant (setTileState 5 3 gf) 3))
    ∧ (Runs xGangForm512r 3 xGangForml.pn xGangForml.pg [xGangForml.a.toNat, xGangForml.b.toNat]
      ∧ Named xGangForml xGangForml ∧ flatten gf [5, 512] = flatten xGangForm512r [5, 512]
      ∧ (flatten gf [5, 512] = [] ∨ (∃ e ∈ [5, 512], 512 ≤ e) ∨ ∃ m ∈ flatten gf [5, 512], tileState xGangForm512r m ≠ 0 ∨ tileTenant xGangForm512r m ≠ tileTenant xGangForm512r 3))
    ∧ (Runs gd 3 xDissolvel.pn xDissolvel.pg [xDissolvel.a.toNat] ∧ Named xDissolvel xDissolvel
      ∧ (membersOf gd (BitVec.toNat (gv gd 3 xDissolvel.a)) ≠ []
      ∧ ∀ m ∈ membersOf gd (BitVec.toNat (gv gd 3 xDissolvel.a)), tileState gd m = 0
      ∧ tileTenant gd m = tileTenant gd 3))
    ∧ (Runs (setTileState 6 4 gd) 3 xDissolvel.pn xDissolvel.pg [xDissolvel.a.toNat] ∧ Named xDissolvel xDissolvel
      ∧ (membersOf (setTileState 6 4 gd) (BitVec.toNat (gv (setTileState 6 4 gd) 3 xDissolvel.a)) = [] ∨ ∃ m ∈ membersOf (setTileState 6 4 gd) (BitVec.toNat (gv (setTileState 6 4 gd) 3 xDissolvel.a)), tileState (setTileState 6 4 gd) m ≠ 0 ∨ tileTenant (setTileState 6 4 gd) m ≠ tileTenant (setTileState 6 4 gd) 3))
    ∧ (Runs (onTl 3 (setG 1 6) gd) 3 xDissolvel.pn xDissolvel.pg [xDissolvel.a.toNat] ∧ Named xDissolvel xDissolvel
      ∧ (membersOf (onTl 3 (setG 1 6) gd) (BitVec.toNat (gv (onTl 3 (setG 1 6) gd) 3 xDissolvel.a)) = [] ∨ ∃ m ∈ membersOf (onTl 3 (setG 1 6) gd) (BitVec.toNat (gv (onTl 3 (setG 1 6) gd) 3 xDissolvel.a)), tileState (onTl 3 (setG 1 6) gd) m ≠ 0 ∨ tileTenant (onTl 3 (setG 1 6) gd) m ≠ tileTenant (onTl 3 (setG 1 6) gd) 3))
    ∧ (Runs ge 3 xGangEndl.pn xGangEndl.pg [] ∧ Named xGangEndl xGangEndl
      ∧ (∀ m ∈ membersOf ge (leaderOf ge 3), (m ≠ 3 → (tl ge m).wait = some Wait.gangEnd) ∧ openOf ge m 7 = false))
    ∧ (Runs xGangEndJobl 3 xGangEndl.pn xGangEndl.pg [] ∧ Named xGangEndl xGangEndl
      ∧ (∀ m ∈ membersOf xGangEndJobl (leaderOf xGangEndJobl 3), (m ≠ 3 → (tl xGangEndJobl m).wait = some Wait.gangEnd)
      ∧ openOf xGangEndJobl m 7 = false))
    ∧ (Runs xGangEnd2r 3 xGangEndl.pn xGangEndl.pg [] ∧ Named xGangEndl xGangEndl
      ∧ (∃ m ∈ membersOf xGangEnd2r (leaderOf xGangEnd2r 3), m ≠ 3
      ∧ (tl xGangEnd2r m).wait ≠ some Wait.gangEnd ∨ openOf xGangEnd2r m 7 = true)) := by
  and_intros <;> decide +kernel

def xBarG : QArgs := { d := 4, a := 1, b := 2, c := 1, pd := 2 }
def xBarG2 : State := { wrReg (Reg.tileGang 5) 3 (tile 5 0 0 bs) with coll := { (wrReg (Reg.tileGang 5) 3 (tile 5 0 0 bs)).coll with bars := [{ key := BarKey.gang 3, first := 400, deadline := 500, last := 450, release := 2000, count := 2, arrived := [5] }] } }
def xBarD : QArgs := { d := 4, a := 1, b := 2, c := 1, pd := 2, sub := 1 }
def xBarD2 : State := { bs with coll := { bs.coll with bars := [{ key := BarKey.device 0 40, first := 400, deadline := 500, last := 450, release := 2000, count := 2, arrived := [7] }] } }
def xBarRel : State := { onTl 3 (fun x => { x with wait := some (Wait.bar (BarKey.device 0 40) 4 2) }) bs with coll := { (onTl 3 (fun x => { x with wait := some (Wait.bar (BarKey.device 0 40) 4 2) }) bs).coll with bars := [{ key := BarKey.device 0 40, first := 400, deadline := 500, last := 450, release := 2000, count := 2, arrived := [3], trel := some 2000 }] } }
def xBarRel1 : BarInst := { key := BarKey.device 0 40, first := 400, deadline := 500, last := 450, release := 2000, count := 2, arrived := [3], trel := some 2000 }
def xBarExp : State := { onTl 3 (fun x => { x with wait := some (Wait.bar (BarKey.device 0 40) 4 2) }) bs with coll := { (onTl 3 (fun x => { x with wait := some (Wait.bar (BarKey.device 0 40) 4 2) }) bs).coll with bars := [{ key := BarKey.device 0 40, first := 400, deadline := 1500, last := 450, release := 2000, count := 2, arrived := [3] }] } }
def xBarExp1 : BarInst := { key := BarKey.device 0 40, first := 400, deadline := 1500, last := 450, release := 2000, count := 2, arrived := [3] }

/-- States and operands that meet the hypotheses of clauses of `Obligations.Barriers`. -/
theorem witness_Barriers :
    (Runs bs 3 xBarG.pn xBarG.pg [xBarG.a.toNat, xBarG.b.toNat, xBarG.c.toNat] ∧ Named xBarG xBarG ∧ (xBarG.sub = 0
      ∧ BarKey.gang 3 = BarKey.gang (leaderOf bs 3) ∧ 0 = 0 ∨ xBarG.sub = 1
      ∧ BarKey.gang 3 = BarKey.device (tileTenant bs 3) (BitVec.toNat (gv bs 3 xBarG.a) % 64)
      ∧ 0 = 0 ∨ xBarG.sub = 2 ∧ BarKey.gang 3 = BarKey.group (BitVec.toNat (gv bs 3 xBarG.a))
      ∧ isTwinned bs (tileTenant bs 3) = false ∧ BitVec.toNat (gv bs 3 xBarG.a) < 4096
      ∧ (groupOf bs (BitVec.toNat (gv bs 3 xBarG.a))).valid = true
      ∧ (groupOf bs (BitVec.toNat (gv bs 3 xBarG.a))).tenant = tileTenant bs 3
      ∧ 0 = (groupOf bs (BitVec.toNat (gv bs 3 xBarG.a))).epoch
      ∧ (posOf bs (groupOf bs (BitVec.toNat (gv bs 3 xBarG.a))) (leaderOf bs 3)).isSome = true)
      ∧ (∀ (b : BarInst), openBar bs (BarKey.gang 3) 0 = some b → now bs ≤ b.deadline
      ∧ (xBarG.sub = 1 → b.count = BitVec.toNat (gv bs 3 xBarG.b))))
    ∧ (Runs xBarG2 3 xBarG.pn xBarG.pg [xBarG.a.toNat, xBarG.b.toNat, xBarG.c.toNat] ∧ Named xBarG xBarG ∧ (xBarG.sub = 0
      ∧ BarKey.gang 3 = BarKey.gang (leaderOf xBarG2 3) ∧ 0 = 0 ∨ xBarG.sub = 1
      ∧ BarKey.gang 3 = BarKey.device (tileTenant xBarG2 3) (BitVec.toNat (gv xBarG2 3 xBarG.a) % 64)
      ∧ 0 = 0 ∨ xBarG.sub = 2 ∧ BarKey.gang 3 = BarKey.group (BitVec.toNat (gv xBarG2 3 xBarG.a))
      ∧ isTwinned xBarG2 (tileTenant xBarG2 3) = false ∧ BitVec.toNat (gv xBarG2 3 xBarG.a) < 4096
      ∧ (groupOf xBarG2 (BitVec.toNat (gv xBarG2 3 xBarG.a))).valid = true
      ∧ (groupOf xBarG2 (BitVec.toNat (gv xBarG2 3 xBarG.a))).tenant = tileTenant xBarG2 3
      ∧ 0 = (groupOf xBarG2 (BitVec.toNat (gv xBarG2 3 xBarG.a))).epoch
      ∧ (posOf xBarG2 (groupOf xBarG2 (BitVec.toNat (gv xBarG2 3 xBarG.a))) (leaderOf xBarG2 3)).isSome = true)
      ∧ (∀ (b : BarInst), openBar xBarG2 (BarKey.gang 3) 0 = some b → now xBarG2 ≤ b.deadline
      ∧ (xBarG.sub = 1 → b.count = BitVec.toNat (gv xBarG2 3 xBarG.b))))
    ∧ (Runs bs 3 xBarD.pn xBarD.pg [xBarD.a.toNat, xBarD.b.toNat, xBarD.c.toNat] ∧ Named xBarD xBarD ∧ (xBarD.sub = 0
      ∧ BarKey.device 0 40 = BarKey.gang (leaderOf bs 3) ∧ 0 = 0 ∨ xBarD.sub = 1
      ∧ BarKey.device 0 40 = BarKey.device (tileTenant bs 3) (BitVec.toNat (gv bs 3 xBarD.a) % 64)
      ∧ 0 = 0 ∨ xBarD.sub = 2 ∧ BarKey.device 0 40 = BarKey.group (BitVec.toNat (gv bs 3 xBarD.a))
      ∧ isTwinned bs (tileTenant bs 3) = false ∧ BitVec.toNat (gv bs 3 xBarD.a) < 4096
      ∧ (groupOf bs (BitVec.toNat (gv bs 3 xBarD.a))).valid = true
      ∧ (groupOf bs (BitVec.toNat (gv bs 3 xBarD.a))).tenant = tileTenant bs 3
      ∧ 0 = (groupOf bs (BitVec.toNat (gv bs 3 xBarD.a))).epoch
      ∧ (posOf bs (groupOf bs (BitVec.toNat (gv bs 3 xBarD.a))) (leaderOf bs 3)).isSome = true)
      ∧ (∀ (b : BarInst), openBar bs (BarKey.device 0 40) 0 = some b → now bs ≤ b.deadline
      ∧ (xBarD.sub = 1 → b.count = BitVec.toNat (gv bs 3 xBarD.b))))
    ∧ (Runs xBarD2 3 xBarD.pn xBarD.pg [xBarD.a.toNat, xBarD.b.toNat, xBarD.c.toNat] ∧ Named xBarD xBarD ∧ (xBarD.sub = 0
      ∧ BarKey.device 0 40 = BarKey.gang (leaderOf xBarD2 3) ∧ 0 = 0 ∨ xBarD.sub = 1
      ∧ BarKey.device 0 40 = BarKey.device (tileTenant xBarD2 3) (BitVec.toNat (gv xBarD2 3 xBarD.a) % 64)
      ∧ 0 = 0 ∨ xBarD.sub = 2 ∧ BarKey.device 0 40 = BarKey.group (BitVec.toNat (gv xBarD2 3 xBarD.a))
      ∧ isTwinned xBarD2 (tileTenant xBarD2 3) = false ∧ BitVec.toNat (gv xBarD2 3 xBarD.a) < 4096
      ∧ (groupOf xBarD2 (BitVec.toNat (gv xBarD2 3 xBarD.a))).valid = true
      ∧ (groupOf xBarD2 (BitVec.toNat (gv xBarD2 3 xBarD.a))).tenant = tileTenant xBarD2 3
      ∧ 0 = (groupOf xBarD2 (BitVec.toNat (gv xBarD2 3 xBarD.a))).epoch
      ∧ (posOf xBarD2 (groupOf xBarD2 (BitVec.toNat (gv xBarD2 3 xBarD.a))) (leaderOf xBarD2 3)).isSome = true)
      ∧ (∀ (b : BarInst), openBar xBarD2 (BarKey.device 0 40) 0 = some b → now xBarD2 ≤ b.deadline
      ∧ (xBarD.sub = 1 → b.count = BitVec.toNat (gv xBarD2 3 xBarD.b))))
    ∧ (List.find? (fun b => b.key == BarKey.device 0 40 && b.trel != none) xBarRel.coll.bars = some xBarRel1
      ∧ xBarRel1.trel = some 2000 ∧ 2000 < 2 ^ 64)
    ∧ (
      (List.find?     (fun b =>       b.key == BarKey.device 0 40 &&         !match b.trel with           | some r => decide (r ≤ b.deadline)           | none => false)     xBarExp.coll.bars =   some xBarExp1
      ∧ xBarExp1.deadline < 2 ^ 64) ∧ (∀ (g : ℕ), BarKey.device 0 40 ≠ BarKey.group g)) := by
  and_intros
  all_goals first | decide +kernel | exact fun _ h => by cases h

/-- A barrier's release and its expiry find a halted member. -/
theorem witness_Barriers_halted :
    (∀ s ∈ [setTileState 3 4 xBarRel, setTileState 3 4 xBarExp], tileState s 3 ≠ 3
      ∧ (tl s 3).wait = some (Wait.bar (BarKey.device 0 40) 4 2))
    ∧ (setTileState 3 4 xBarRel).coll.bars = [xBarRel1] ∧ (setTileState 3 4 xBarExp).coll.bars = [xBarExp1] := by
  refine ⟨?_, ?_, ?_⟩ <;> decide +kernel

def xTileCtll : State := onTl 5 (fun x => { x with wait := none }) ge

/-- States and operands that meet the hypotheses of clauses of `Obligations.TileControl`. -/
theorem witness_TileControl :
    (mayWrite xTileCtll Reg.Class.any (Writer.path Path.pcie) = true ∧ fenceState xTileCtll (3 / 128) = 0
      ∧ tileState xTileCtll 3 ≠ 6)
    ∧ (mayWrite xTileCtll Reg.Class.any (Writer.path Path.pcie) = true ∧ fenceState xTileCtll (3 / 128) = 0
      ∧ tileState xTileCtll 3 ≠ 6 ∧ (∀ m ∈ membersOf xTileCtll (leaderOf xTileCtll 3), (tl xTileCtll m).wait = none))
    ∧ (mayWrite xGangEndJobl Reg.Class.any (Writer.tile 3) = true ∧ fenceState xGangEndJobl (3 / 128) = 0
      ∧ tileState xGangEndJobl 3 ≠ 6)
    ∧ (mayWrite ge Reg.Class.any (Writer.tile 3) = true ∧ fenceState ge (3 / 128) = 0 ∧ tileState ge 3 ≠ 6) := by
  refine ⟨?_, ?_, ?_, ?_⟩ <;> decide +kernel

end Part4


namespace Part5

def n3 : State := tile 3 (far 0x100) 0x40 net |> putBytes (sramAddr 3 0x40) [1,2,3,4,5,6,7,8,9,10,11,12,13,14,15,16]
def n3c : State := n3 |> setCpl 3 {gen:=7}
def n3a : State := n3c |> onTl 3 (setG 4 0x1122334455667788)
def n3p : State := n3a |> onTl 3 (setG 4 0x200)
def n3q : State := n3a |> onTl 3 (setG 4 0x80)
def n3t : State := n3p |> onTl 3 (setG 2 (far 0x80))
def res7 : List (Nat × Nat) := [(Reg.resA 7 0, 2^63 + 1*2^48 + 1*2^43 + 1*2^40 + 100*2^30), (Reg.resA 7 1, 500)]
def n3s : State := n3c |> regsOf res7 |> onTl 3 (setG 1 (wd (10*1024 + 7))) |> onTl 3 (setG 4 0x300)
def n3bad : State := n3c |> onTl 3 (setG 1 (far 0x100 + wd (2^49)))
def n3full : State := n3c |> wrReg (Reg.cplQuota 0) 0
def cl (w0 w1 w2 w3 : Nat) : State := tile 3 0x1FFFE0 0 net
  |> putBytes (sramAddr 3 0x1FFFE0) (leBytes 8 w0 ++ leBytes 8 w1 ++ leBytes 8 w2 ++ leBytes 8 w3)
def cl0 : State := cl (5*2^48 + sramAddr 3 0x400) (sramAddr 3 0x800) (64*2^32) 0
def clb : State := cl (5*2^48 + sramAddr 3 0x400) (sramAddr 3 0x800) (63*2^32) 0
def cap : State := cl (5*2^48 + sramAddr 3 0x400) (sramAddr 3 0x800) (4*2^32) 16
def clf : State := cl0 |> tile 5 1 1 |> wrReg (Reg.tileGang 5) 3
def q1 (ws : List Word) : State := (net |> wrReg (Reg.qCtrl 2) (wd (2^63))
  |> onTl 7 (fun x => {x with imemLen := 10}))
  |> onHq 2 (fun x => {x with fetched := [{idx:=9,words:=ws},{idx:=10,words:=[]}]})
def eRun : List Word := [wd (1*2^56 + 7*2^32 + 2), 0, 0, 0, 1,2,3,4]
def eRunL : List Word := [wd (1*2^56 + 7*2^32 + 2^49 + 2), far 0x100, 10, 0, 1,2,3,4]
def eForm : List Word := [wd (2*2^56), far 0x100, 512]
def eDis : List Word := [wd (3*2^56 + 7*2^32), far 0x100, 512]
def j1 (st : Nat) : Job := {q:=2,idx:=9,tenant:=0,leader:=3,st:=st,entry:=5,startTime:=1000,startValid:=true,args:=[1,2,3,4]}
def jst : State := {(tile 3 77 88 net |> setTileState 3 2 |> onTl 3 (fun x => {setP 2 true x with v := [(3,4)]})) with host.jobs := [j1 2]}
def xRld1 : QArgs := { d := 4, a := 1, b := 2, td := 5 }
def xRst1 : QArgs := { a := 1, b := 2, td := 5, size := 1 }
def xRat : QArgs := { d := 3, a := 1, b := 2, c := 4, td := 5, sub := 4, size := 1 }

/-- States and operands that meet the hypotheses of clauses of `Obligations.RemoteWordsAreSent`. -/
theorem witness_RemoteWordsAreSent :
    ((isTwinned n3 (tileTenant n3 3) = false ∧ 1 ≠ ownDev n3 ∧ Named xRld1 xRld1
      ∧ Runs n3 3 xRld1.pn xRld1.pg [xRld1.a.toNat, xRld1.b.toNat]
      ∧ targetOf n3 (gv n3 3 xRld1.a) false = Target.device 1 256 ∧ wordCheck 256 (sizeOf_ xRld1) = 0
      ∧ (xRld1.d ≠ 0 → xRld1.size = 0) ∧ (xRld1.d = 0 → BitVec.toNat (gv n3 3 xRld1.b) + sizeOf_ xRld1 ≤ 2097152))
      ∧ (∃ k, (pickTag (tileTenant n3 3) n3).1 = some k))
    ∧ ((isTwinned n3c (tileTenant n3c 3) = false ∧ 1 ≠ ownDev n3c ∧ Named xRst1 xRst1
      ∧ Runs n3c 3 xRst1.pn xRst1.pg [xRst1.a.toNat, xRst1.b.toNat]
      ∧ targetOf n3c (gv n3c 3 xRst1.a) true = Target.device 1 256 ∧ wordCheck 256 (sizeOf_ xRst1) = 0
      ∧ SramServes n3c 3 ∧ ReadAtOnce n3c 3 (BitVec.toNat (gv n3c 3 xRst1.b)) (sizeOf_ xRst1)
      ∧ Quiet n3c 3 (BitVec.toNat (gv n3c 3 xRst1.b)) (sizeOf_ xRst1))
      ∧ (∃ k, (pickTag (tileTenant n3c 3) n3c).1 = some k))
    ∧ ((isTwinned n3a (tileTenant n3a 3) = false ∧ 1 ≠ ownDev n3a ∧ Named xRat xRat
      ∧ Runs n3a 3 xRat.pn xRat.pg [xRat.a.toNat, xRat.b.toNat, xRat.c.toNat]
      ∧ targetOf n3a (gv n3a 3 xRat.a) false = Target.device 1 256 ∧ ratWidth xRat = some 4 ∧ atomicCheck 256 4 = 0)
      ∧ (∃ k, (pickTag (tileTenant n3a 3) n3a).1 = some k)) :=
  ⟨ ⟨by decide +kernel, (pickTag_some _ _ (by decide +kernel) (by decide +kernel))⟩
  , ⟨by decide +kernel, (pickTag_some _ _ (by decide +kernel) (by decide +kernel))⟩
  , ⟨by decide +kernel, (pickTag_some _ _ (by decide +kernel) (by decide +kernel))⟩⟩

def xPutl : QArgs := { a := 1, b := 2, c := 4, td := 5 }
def xGetrl : QArgs := { a := 1, b := 2, c := 4, td := 5, sub := 1 }
def xThirdrr : QArgs := { a := 1, b := 2, c := 4, td := 5, sub := 2 }

/-- States and operands that meet the hypotheses of clauses of `Obligations.RemoteCopiesAreSent`. -/
theorem witness_RemoteCopiesAreSent :
    ((isTwinned n3p (tileTenant n3p 3) = false ∧ 1 ≠ ownDev n3p ∧ Named xPutl xPutl
      ∧ Runs n3p 3 xPutl.pn xPutl.pg [xPutl.a.toNat, xPutl.b.toNat, xPutl.c.toNat]
      ∧ 64 = BitVec.toNat (gv n3p 3 xPutl.b) ∧ 512 = BitVec.toNat (gv n3p 3 xPutl.c) ∧ xPutl.sub = 0
      ∧ targetOf n3p (gv n3p 3 xPutl.a) true = Target.device 1 256 ∧ copyCheck 256 64 512 = 0
      ∧ SramServes n3p 3 ∧ MayUse n3p 3 64 512 ∧ Quiet n3p 3 64 512)
      ∧ (∃ k, (pickTag (tileTenant n3p 3) n3p).1 = some k))
    ∧ ((isTwinned n3q (tileTenant n3q 3) = false ∧ Runs n3q 3 xPutl.pn xPutl.pg [xPutl.a.toNat, xPutl.b.toNat, xPutl.c.toNat]
      ∧ 128 = BitVec.toNat (gv n3q 3 xPutl.c) ∧ targetOf n3q (gv n3q 3 xPutl.a) true = Target.device 1 256
      ∧ copyCheck 256 64 128 = 0 ∧ segCount 256 128 = 1 ∧ SramServes n3q 3 ∧ ReadAtOnce n3q 3 64 128 ∧ Quiet n3q 3 64 128)
      ∧ (∃ k, (pickTag (tileTenant n3q 3) n3q).1 = some k))
    ∧ ((isTwinned n3p (tileTenant n3p 3) = false ∧ 1 ≠ ownDev n3p ∧ Named xGetrl xGetrl
      ∧ Runs n3p 3 xGetrl.pn xGetrl.pg [xGetrl.a.toNat, xGetrl.b.toNat, xGetrl.c.toNat]
      ∧ 64 = BitVec.toNat (gv n3p 3 xGetrl.b) ∧ 512 = BitVec.toNat (gv n3p 3 xGetrl.c) ∧ xGetrl.sub = 1
      ∧ targetOf n3p (gv n3p 3 xGetrl.a) false = Target.device 1 256 ∧ copyCheck 256 64 512 = 0
      ∧ 64 + 512 ≤ 2097152) ∧ (∃ k, (pickTag (tileTenant n3p 3) n3p).1 = some k))
    ∧ ((isTwinned n3t (tileTenant n3t 3) = false ∧ 1 ≠ ownDev n3t ∧ Named xThirdrr xThirdrr
      ∧ Runs n3t 3 xThirdrr.pn xThirdrr.pg [xThirdrr.a.toNat, xThirdrr.b.toNat, xThirdrr.c.toNat]
      ∧ BitVec.toNat (far 128) = BitVec.toNat (gv n3t 3 xThirdrr.b) ∧ 512 = BitVec.toNat (gv n3t 3 xThirdrr.c)
      ∧ xThirdrr.sub = 2 ∧ targetOf n3t (gv n3t 3 xThirdrr.a) false = Target.device 1 256
      ∧ copyCheck 256 (fld (gv n3t 3 xThirdrr.b) 47 0) 512 = 0
      ∧ targetOf n3t (gv n3t 3 xThirdrr.b) true = Target.device 1 128 ∧ rangeOk n3t (.device 1 256) 512 = true
      ∧ rangeOk n3t (.device 1 128) 512 = true)
      ∧ (∃ k, (pickTag (tileTenant n3t 3) n3t).1 = some k)) :=
  ⟨ ⟨by decide +kernel, (pickTag_some _ _ (by decide +kernel) (by decide +kernel))⟩
  , ⟨by decide +kernel, (pickTag_some _ _ (by decide +kernel) (by decide +kernel))⟩
  , ⟨by decide +kernel, (pickTag_some _ _ (by decide +kernel) (by decide +kernel))⟩
  , ⟨by decide +kernel, (pickTag_some _ _ (by decide +kernel) (by decide +kernel))⟩⟩

def xAtslot : QArgs := { a := 1, b := 2, c := 4, td := 5, size := 1 }
def xAtslotMany : State := regsOf [(Reg.resA 7 0,
  2 ^ 63 + 2 ^ 62 + 5 * 2 ^ 48 + 1 * 2 ^ 43 + 1 * 2 ^ 40 + 100 * 2 ^ 30)] { n3s with net := { n3s.net with claims := [(8, 10)] } }

/-- States and operands that meet the hypotheses of clauses of `Obligations.PitchStoresAreStaged`. -/
theorem witness_PitchStoresAreStaged :
    ((SramServes n3s 3 ∧ isTwinned n3s (tileTenant n3s 3) = false ∧ Named xAtslot xAtslot
      ∧ Runs n3s 3 xAtslot.pn xAtslot.pg [xAtslot.a.toNat, xAtslot.b.toNat, xAtslot.c.toNat]
      ∧ 7 = fld (gv n3s 3 xAtslot.a) 9 0 ∧ 10 = fld (gv n3s 3 xAtslot.a) 63 10
      ∧ 64 = BitVec.toNat (gv n3s 3 xAtslot.b) ∧ 16 = sizeOf_ xAtslot ∧ fld (gv n3s 3 xAtslot.c) 63 48 = 0
      ∧ admitPitch n3s (tileTenant n3s 3) 7 10 (ceilDiv (24 + 16) 56) = 0
      ∧ resTargets n3s (schedActive n3s) 7 = some [(1, 1)] ∧ ReadAtOnce n3s 3 64 16 ∧ Quiet n3s 3 64 16
      ∧ pitchTakes n3s 1 (stamped n3s { dst := 1, opcode := 0x30, gen := (cplOf n3s 0).gen, tag := 0, tenant := tileTenant n3s 3, len4 := 4, addr := fld (gv n3s 3 xAtslot.c) 47 0, resId := 7, payload := memBytes n3s (sramAddr 3 64) 16 }) = true)
      ∧ (∃ k, (pickTag (tileTenant n3s 3) n3s).1 = some k))
    ∧ ((SramServes xAtslotMany 3 ∧ isTwinned xAtslotMany (tileTenant xAtslotMany 3) = false ∧ Named xAtslot xAtslot
      ∧ Runs xAtslotMany 3 xAtslot.pn xAtslot.pg [xAtslot.a.toNat, xAtslot.b.toNat, xAtslot.c.toNat]
      ∧ 7 = fld (gv xAtslotMany 3 xAtslot.a) 9 0 ∧ 10 = fld (gv xAtslotMany 3 xAtslot.a) 63 10
      ∧ 64 = BitVec.toNat (gv xAtslotMany 3 xAtslot.b) ∧ 16 = sizeOf_ xAtslot
      ∧ fld (gv xAtslotMany 3 xAtslot.c) 63 48 = 0
      ∧ admitPitch xAtslotMany (tileTenant xAtslotMany 3) 7 10 (ceilDiv (24 + 16) 56) = 0
      ∧ resTargets xAtslotMany (schedActive xAtslotMany) 7 = some [(0, 1), (1, 1)] ∧ ReadAtOnce xAtslotMany 3 64 16
      ∧ Quiet xAtslotMany 3 64 16) ∧ (∃ k, (pickTag (tileTenant xAtslotMany 3) xAtslotMany).1 = some k)) :=
  ⟨ ⟨by decide +kernel, (pickTag_some _ _ (by decide +kernel) (by decide +kernel))⟩
  , ⟨by decide +kernel, (pickTag_some _ _ (by decide +kernel) (by decide +kernel))⟩⟩

def xRef1l : QArgs := { a := 1, b := 2, td := 4 }
def xRef1c1 : State := onTl 3 (setG 1 (wd (2 ^ 48))) n3bad
def xFullNwrl : QArgs := { a := 1, b := 2, td := 4, nw := true }
def xRefTrl : QArgs := { a := 1, b := 2, c := 4, td := 5, sub := 2 }
def xRefT : State := onTl 3 (setG 2 (far 0x100 + wd (2 ^ 49))) n3p
def xRefGrl : QArgs := { a := 1, b := 2, td := 4, sub := 1 }

/-- States and operands that meet the hypotheses of clauses of `Obligations.RefusedAndStalledIssue`. -/
theorem witness_RefusedAndStalledIssue :
    (xRef1l.ar = false ∧ isTwinned n3bad (tileTenant n3bad 3) = false ∧ Named xRef1l xRef1l
      ∧ Runs n3bad 3 xRef1l.pn xRef1l.pg [xRef1l.a.toNat, xRef1l.b.toNat])
    ∧ ((xRef1l.ar = false ∧ isTwinned n3bad (tileTenant n3bad 3) = false ∧ Named xRef1l xRef1l
      ∧ Runs n3bad 3 xRef1l.pn xRef1l.pg [xRef1l.a.toNat, xRef1l.b.toNat]
      ∧ targetOf n3bad (gv n3bad 3 xRef1l.a) true = Target.bad 3 false)
      ∧ (∃ k, (pickTag (tileTenant n3bad 3) n3bad).1 = some k))
    ∧ ((xRef1l.ar = false ∧ isTwinned n3bad (tileTenant n3bad 3) = false ∧ Named xRef1l xRef1l
      ∧ Runs n3bad 3 xRef1l.pn xRef1l.pg [xRef1l.a.toNat, xRef1l.b.toNat]
      ∧ targetOf n3bad (gv n3bad 3 xRef1l.a) false = Target.bad 3 false)
      ∧ (∃ k, (pickTag (tileTenant n3bad 3) n3bad).1 = some k))
    ∧ ((xRef1l.ar = false ∧ isTwinned xRef1c1 (tileTenant xRef1c1 3) = false ∧ Named xRef1l xRef1l
      ∧ Runs xRef1c1 3 xRef1l.pn xRef1l.pg [xRef1l.a.toNat, xRef1l.b.toNat]
      ∧ targetOf xRef1c1 (gv xRef1c1 3 xRef1l.a) false = Target.bad 2 true)
      ∧ (∃ k, (pickTag (tileTenant xRef1c1 3) xRef1c1).1 = some k))
    ∧ (xRef1l.ar = false ∧ isTwinned n3full (tileTenant n3full 3) = false ∧ Named xRef1l xRef1l
      ∧ Runs n3full 3 xRef1l.pn xRef1l.pg [xRef1l.a.toNat, xRef1l.b.toNat]
      ∧ (pickTag (tileTenant n3full 3) n3full).1 = none ∧ xRef1l.nw = false)
    ∧ (xFullNwrl.ar = false ∧ isTwinned n3full (tileTenant n3full 3) = false ∧ Named xFullNwrl xFullNwrl
      ∧ Runs n3full 3 xFullNwrl.pn xFullNwrl.pg [xFullNwrl.a.toNat, xFullNwrl.b.toNat]
      ∧ (pickTag (tileTenant n3full 3) n3full).1 = none ∧ xFullNwrl.nw = true)
    ∧ ((xRef1l.ar = false ∧ isTwinned n3bad (tileTenant n3bad 3) = false ∧ Named xRef1l xRef1l
      ∧ Runs n3bad 3 xRef1l.pn xRef1l.pg [xRef1l.a.toNat, xRef1l.b.toNat, xRef1l.c.toNat] ∧ xRef1l.sub = 0
      ∧ targetOf n3bad (gv n3bad 3 xRef1l.a) true = Target.bad 3 false)
      ∧ (∃ k, (pickTag (tileTenant n3bad 3) n3bad).1 = some k))
    ∧ ((xRefTrl.ar = false ∧ isTwinned xRefT (tileTenant xRefT 3) = false ∧ Named xRefTrl xRefTrl
      ∧ Runs xRefT 3 xRefTrl.pn xRefTrl.pg [xRefTrl.a.toNat, xRefTrl.b.toNat, xRefTrl.c.toNat] ∧ xRefTrl.sub = 2
      ∧ targetOf xRefT (gv xRefT 3 xRefTrl.a) false = Target.device 1 256
      ∧ targetOf xRefT (gv xRefT 3 xRefTrl.b) true = Target.bad 3 false)
      ∧ (∃ k, (pickTag (tileTenant xRefT 3) xRefT).1 = some k))
    ∧ ((xRefGrl.ar = false ∧ isTwinned n3bad (tileTenant n3bad 3) = false ∧ Named xRefGrl xRefGrl
      ∧ Runs n3bad 3 xRefGrl.pn xRefGrl.pg [xRefGrl.a.toNat, xRefGrl.b.toNat, xRefGrl.c.toNat] ∧ xRefGrl.sub = 1
      ∧ targetOf n3bad (gv n3bad 3 xRefGrl.a) false = Target.bad 3 false)
      ∧ (∃ k, (pickTag (tileTenant n3bad 3) n3bad).1 = some k)) :=
  ⟨ by decide +kernel, ⟨by decide +kernel, (pickTag_some _ _ (by decide +kernel) (by decide +kernel))⟩
  , ⟨by decide +kernel, (pickTag_some _ _ (by decide +kernel) (by decide +kernel))⟩
  , ⟨by decide +kernel, (pickTag_some _ _ (by decide +kernel) (by decide +kernel))⟩, by decide +kernel
  , by decide +kernel, ⟨by decide +kernel, (pickTag_some _ _ (by decide +kernel) (by decide +kernel))⟩
  , ⟨by decide +kernel, (pickTag_some _ _ (by decide +kernel) (by decide +kernel))⟩
  , ⟨by decide +kernel, (pickTag_some _ _ (by decide +kernel) (by decide +kernel))⟩⟩

def xClvbl : QArgs := { a := 1, td := 5 }

/-- States and operands that meet the hypotheses of clauses of `Obligations.CollectivesAreOpened`. -/
theorem witness_CollectivesAreOpened :
    (
      ((Instr.clvAllReduce 3 xClvbl, 0) ∈ [(Instr.clvAllReduce 3 xClvbl, 0), (Instr.clvReduceScatter 3 xClvbl, 1), (Instr.clvAllGather 3 xClvbl, 2), (Instr.clvBroadcast 3 xClvbl, 3), (Instr.clvAllToAll 3 xClvbl, 4), (Instr.clvCapacityAllToAll 3 xClvbl, 5)]
      ∧ Named xClvbl xClvbl ∧ Runs clb 3 xClvbl.pn xClvbl.pg [xClvbl.a.toNat, xClvbl.b.toNat] ∧ leaderOf clb 3 = 3
      ∧ isTwinned clb (tileTenant clb 3) = false ∧ BitVec.toNat (gv clb 3 xClvbl.a) % 32 = 0 ∧ gv clb 3 xClvbl.b = 0
      ∧ MayAccess clb 3 4 (BitVec.toNat (gv clb 3 xClvbl.a)) 32 ∧ Quiet clb 3 (BitVec.toNat (gv clb 3 xClvbl.a)) 32
      ∧ (groupOf clb (readDesc (memBytes clb (sramAddr 3 (BitVec.toNat (gv clb 3 xClvbl.a))) 32)).gid).valid = true
      ∧ xClvbl.ar = false
      ∧ descStatus clb 0 (readDesc (memBytes clb (sramAddr 3 (BitVec.toNat (gv clb 3 xClvbl.a))) 32)) (some (groupOf clb (readDesc (memBytes clb (sramAddr 3 (BitVec.toNat (gv clb 3 xClvbl.a))) 32)).gid).count) ≠ 0)
      ∧ (∃ k, (pickTag (tileTenant clb 3) clb).1 = some k))
    ∧ (
      (Instr.clvAllReduce 5 xClvbl, 0) ∈ [(Instr.clvAllReduce 5 xClvbl, 0), (Instr.clvReduceScatter 5 xClvbl, 1), (Instr.clvAllGather 5 xClvbl, 2), (Instr.clvBroadcast 5 xClvbl, 3), (Instr.clvAllToAll 5 xClvbl, 4), (Instr.clvCapacityAllToAll 5 xClvbl, 5)]
      ∧ Named xClvbl xClvbl ∧ Runs clf 5 xClvbl.pn xClvbl.pg [xClvbl.a.toNat, xClvbl.b.toNat] ∧ leaderOf clf 5 ≠ 5) :=
  ⟨ ⟨by decide +kernel, (pickTag_some _ _ (by decide +kernel) (by decide +kernel))⟩, by decide +kernel⟩

/-- A member that opens an all-reduce. -/
def clDesc : Desc := readDesc (memBytes cl0 (sramAddr 3 0x1FFFE0) 32)

/-- The descriptor of `cl0` opens an all-reduce. -/
theorem witness_CollectivesAreOpened_open :
    (Named xClvbl xClvbl ∧ Runs cl0 3 xClvbl.pn xClvbl.pg [xClvbl.a.toNat, xClvbl.b.toNat] ∧ leaderOf cl0 3 = 3
      ∧ isTwinned cl0 (tileTenant cl0 3) = false ∧ BitVec.toNat (gv cl0 3 xClvbl.a) = 0x1FFFE0 ∧ gv cl0 3 xClvbl.b = 0
      ∧ MayAccess cl0 3 4 0x1FFFE0 32 ∧ Quiet cl0 3 0x1FFFE0 32
      ∧ (groupOf cl0 clDesc.gid).valid = true ∧ descStatus cl0 0 clDesc (some (groupOf cl0 clDesc.gid).count) = 0
      ∧ (groupOf cl0 clDesc.gid).tenant = tileTenant cl0 3 ∧ posOf cl0 (groupOf cl0 clDesc.gid) 3 = some 0
      ∧ cl0.coll.early = [])
    ∧ (∀ i, i = memberOf cl0 (groupOf cl0 clDesc.gid) clDesc 0 0 3 0 →
        sideFine cl0 clDesc.src (inputBytes (groupOf cl0 clDesc.gid) i) = true
          ∧ sideFine cl0 clDesc.dst (resultBytes (groupOf cl0 clDesc.gid) i) = true)
    ∧ ∃ k, (pickTag (tileTenant cl0 3) cl0).1 = some k :=
  ⟨by decide +kernel, by rintro i rfl; decide +kernel, pickTag_some _ _ (by decide +kernel) (by decide +kernel)⟩

def xRunll : Entry := { idx := 9, words := eRun }
def xRunL : Entry := { idx := 9, words := eRunL }
def xRunNGrl : State := wrReg (Reg.tileGang 7) 6 (q1 eRun)
def xRunBusyrrl : State := setTileState 7 4 (q1 eRun)
def xRunBadrrrl : Entry := { idx := 9, words := [wd (4 * 2 ^ 56)] }
def xFormG : Entry := { idx := 9, words := eForm }
def xDis : Entry := { idx := 9, words := eDis }
def xDis2 : State := writeGang [7, 9] (q1 eDis)
def xEntryLate : State := { jst with now := 2000 }

/-- States and operands that meet the hypotheses of clauses of `Obligations.Jobs`. -/
theorem witness_Jobs :
    (frontJob (q1 eRun) 2 = some xRunll ∧ xRunll.type = 1 ∧ gangOk (q1 eRun) xRunll.gang (qTenant (q1 eRun) 2) = true
      ∧ gangBusy (q1 eRun) xRunll.gang = false ∧ runOk (q1 eRun) xRunll = true ∧ bit (xRunll.word 0) 49 = false)
    ∧ (frontJob (q1 eRun) 2 = some xRunll)
    ∧ ((frontJob (q1 eRunL) 2 = some xRunL ∧ xRunL.type = 1 ∧ gangOk (q1 eRunL) xRunL.gang (qTenant (q1 eRunL) 2) = true
      ∧ gangBusy (q1 eRunL) xRunL.gang = false ∧ runOk (q1 eRunL) xRunL = true ∧ bit (xRunL.word 0) 49 = true
      ∧ targetOf (q1 eRunL) (xRunL.word 1) false = Target.device 1 256 ∧ 1 ≠ ownDev (q1 eRunL)
      ∧ BitVec.toNat (xRunL.word 1) % 8 = 0) ∧ (∃ k, (pickTag (qTenant (q1 eRunL) 2) (q1 eRunL)).1 = some k))
    ∧ (frontJob xRunNGrl 2 = some xRunll ∧ xRunll.type = 1 ∧ gangOk xRunNGrl xRunll.gang (qTenant xRunNGrl 2) = false)
    ∧ (frontJob xRunNGrl 2 = some xRunll)
    ∧ (frontJob xRunBusyrrl 2 = some xRunll ∧ xRunll.type = 1
      ∧ gangOk xRunBusyrrl xRunll.gang (qTenant xRunBusyrrl 2) = true ∧ gangBusy xRunBusyrrl xRunll.gang = true)
    ∧ (frontJob (q1 [wd (4 * 2 ^ 56)]) 2 = some xRunBadrrrl ∧ xRunBadrrrl.type ≠ 1 ∧ xRunBadrrrl.type ≠ 2
      ∧ xRunBadrrrl.type ≠ 3)
    ∧ (frontJob (q1 [wd (4 * 2 ^ 56)]) 2 = some xRunBadrrrl)
    ∧ ((frontJob (q1 eForm) 2 = some xFormG ∧ xFormG.type = 2 ∧ 1 ≤ xFormG.count ∧ xFormG.count ≤ 512
      ∧ targetOf (q1 eForm) (xFormG.word 1) false = Target.device 1 256 ∧ 1 ≠ ownDev (q1 eForm)
      ∧ BitVec.toNat (xFormG.word 1) % 8 = 0) ∧ (∃ k, (pickTag (qTenant (q1 eForm) 2) (q1 eForm)).1 = some k))
    ∧ (frontJob (q1 eDis) 2 = some xDis ∧ xDis.type = 3 ∧ gangOk (q1 eDis) xDis.gang (qTenant (q1 eDis) 2) = true
      ∧ gangBusy (q1 eDis) xDis.gang = false)
    ∧ (frontJob xDis2 2 = some xDis ∧ xDis.type = 3 ∧ gangOk xDis2 xDis.gang (qTenant xDis2 2) = true
      ∧ gangBusy xDis2 xDis.gang = false)
    ∧ (jobOf jst 3 = some (j1 2) ∧ (j1 2).st = 2 ∧ (j1 2).args = [1, 2, 3, 4]
      ∧ (jst.twin.holdJobs && isTwinned jst (j1 2).tenant) = false ∧ entryTick (j1 2) < 2 ^ 64)
    ∧ (jobOf xEntryLate 3 = some (j1 2) ∧ (j1 2).st = 2 ∧ (j1 2).args = [1, 2, 3, 4]
      ∧ (xEntryLate.twin.holdJobs && isTwinned xEntryLate (j1 2).tenant) = false ∧ entryTick (j1 2) < 2 ^ 64) :=
  ⟨ by decide +kernel, by decide +kernel
  , ⟨by decide +kernel, (pickTag_some _ _ (by decide +kernel) (by decide +kernel))⟩, by decide +kernel
  , by decide +kernel, by decide +kernel, by decide +kernel, by decide +kernel
  , ⟨by decide +kernel, (pickTag_some _ _ (by decide +kernel) (by decide +kernel))⟩, by decide +kernel
  , by decide +kernel, by decide +kernel, by decide +kernel⟩

end Part5


namespace Part6

def tf : State := net |> regsOf [(Reg.timeParent, 0x21), (Reg.portDelay 1, 0x85)]
def mst (m : Nat) : State := net |> wrReg Reg.timeCtrl (wd (32 + m*64))
def pp : Packet := {dst:=0,src:=1,opcode:=0x30,payload:=[1,2,3,4,5,6,7,8],len4:=2,resId:=7}
def pt : State := {(net |> wrReg (Reg.portDelay 1) 0x85) with now := 1000}
def ptx : State := pt |> regsOf [(Reg.routeTable false 2, 2^63 + 1), (Reg.portStatus 2, 0x3004), (Reg.portPitch 2,
  4), (Reg.creditState 2 0, 10 * 2 ^ 16), (Reg.schedA 2 0, 2^63 + 1*2^48 + 7*2^38 + 1*2^35+50*2^25)]
def psl : State := {ptx with net.pitchHeld := [{port:=2,pkt:={pp with dst:=2},tick:=1500,ver:=0,heldAt:=990}]}
def psl2 : State := {ptx with net.staged := [{port:=2,pkt:={pp with dst:=2,tag:=4},tick:=1500,stagedAt:=1476,tag:=4}]}
def wb : State := net |> setEcc ((sramAddr 3 0x40000)/32) .single
def who : Writer := .path .pcie
def xTFlit_acq : State := { tf with tim := { tf.tim with syncing := true } }
def xLocked : State := { net with regs := (wrReg Reg.timeStatus 16 net).regs, tim := { net.tim with good := 16 } }
def xPSwitch : State := regsOf [(Reg.timeParent, 8482), (Reg.portStatus 1, 12292)] net
def xMeasure : State := wrReg (Reg.portPitch 1) 8 tf
def xBudget : State := onPrt 1 (fun x => { x with resyncRound := 2 }) xMeasure
def xPps : State := { mst 1 with now := 1600000003 }

/-- States and operands that meet the hypotheses of clauses of `Obligations.TimeKeeping`. -/
theorem witness_TimeKeeping :
    (portState xTFlit_acq 1 = 4 ∧ isMaster xTFlit_acq = false ∧ parentPort xTFlit_acq = some 1
      ∧ xTFlit_acq.tim.syncing = true)
    ∧ (isMaster tf = false ∧ parentPort tf = some 1 ∧ tf.tim.syncing = false ∧ timeState tf ∈ [1, 2, 3, 4]
      ∧ 1024 * 16 < (flitOffset tf 1 9 5).natAbs)
    ∧ (isMaster net = false ∧ parentPort net = none ∧ timeState net = 2 ∧ isMaster (mst 1) = true ∧ timeState (mst 1) = 2)
    ∧ (isMaster xBudget = false ∧ parentPort xBudget = some 1 ∧ timeState xBudget = 2 ∧ pitchState xBudget 1 = 2
      ∧ portState xBudget 1 = 4 ∧ 2 ≤ (prt xBudget 1).resyncRound)
    ∧ (pitchState xMeasure 1 = 2 ∧ portState xMeasure 1 = 4 ∧ (prt xMeasure 1).resyncRound = 0)
    ∧ (pitchState xBudget 1 = 2 ∧ portState xBudget 1 = 4 ∧ (prt xBudget 1).resyncRound = 2)
    ∧ (now xLocked / 1024 ≤ xLocked.tim.goodRound + 1)
    ∧ ((timeState xLocked = 1 ∧ 16 ≤ xLocked.tim.good ∨ timeState xLocked = 4 ∧ 2 ≤ xLocked.tim.good))
    ∧ (timeState net = 2 ∧ isMaster net = false ∧ (net.tim.lastFlitRound + 2) * 1024 < 2 ^ 64)
    ∧ (twinParent xPSwitch = none ∧ parentPort xPSwitch = some 2 ∧ otherParent xPSwitch = some 1 ∧ parentLost xPSwitch 2 = true
      ∧ portState xPSwitch 1 = 4 ∧ now xPSwitch + 1023 < 2 ^ 64)
    ∧ (isMaster xPps = true ∧ rdF xPps Reg.timeCtrl 7 6 = 1)
    ∧ (isMaster (mst 2) = true ∧ rdF (mst 2) Reg.timeCtrl 7 6 = 2)
    ∧ (isMaster (mst 2) = true ∧ rdF (mst 2) Reg.timeCtrl 7 6 ≠ 0) := by
  and_intros <;> decide +kernel

def xPitch_fwd : Packet := { pp with dst := 2 }
def xPitch_both : Packet := { pp with also := [(2, 0)] }
def xSlotSend : Claim := { tick := 1500, pkt := { pp with dst := 2 }, heldAt := 990 }
def xSlotSend_own : Claim := { tick := 1500, pkt := { pp with dst := 2, tag := 4 }, heldAt := 1476, own := some { port := 2, pkt := { pp with dst := 2, tag := 4 }, tick := 1500, stagedAt := 1476, tag := 4 } }
def xResume : State := onPrt 1 (fun x => { x with resyncRound := 8, resyncGood := 2 }) (wrReg (Reg.portPitch 1) 8 ptx)
def xBoundl : State := setCpl 4 { st := CplState.opened, kind := CplKind.pitch, tile := some 3, deadline := 5000, sent := true } ptx
def xBound_nsr : State := setCpl 4 { st := CplState.opened, kind := CplKind.pitch, tile := some 3, deadline := 5000, slotTick := 4000 } ptx

/-- States and operands that meet the hypotheses of clauses of `Obligations.PitchPackets`. -/
theorem witness_PitchPackets :
    (portState pt 1 = 4 ∧ 1016 = 1007 + ceilDiv (rdF pt (Reg.portDelay 1) 63 0) 16 ∧ pitchState pt 1 = 1
      ∧ now pt ≤ 1016 + pt.tim.guard ∧ 1016 ≤ now pt + pt.tim.guard ∧ pp.dst = ownDev pt
      ∧ (copiesOf pp).filter (fun c => c.dst ≠ ownDev pt) = [])
    ∧ (pitchState ptx 1 = 1 ∧ (copiesOf xPitch_both).filter (fun c => c.dst ≠ ownDev ptx) = [xPitch_fwd]
      ∧ (copiesOf xPitch_both).filter (fun c => c.dst = ownDev ptx) = [{ pp with dst := 0 }]
      ∧ pitchBranch ptx 1 xPitch_fwd = (2, some (portSched ptx false 2 0)) ∧ pitchTakes ptx 2 xPitch_fwd = true
      ∧ (joinBy [(pitchBranch ptx 1 xPitch_fwd, xPitch_fwd)]).map (fun b => b.1.1) = [2])
    ∧ (portState ptx 1 = 4 ∧ 999 = 990 + ceilDiv (rdF ptx (Reg.portDelay 1) 63 0) 16 ∧ pitchState ptx 1 = 1
      ∧ now ptx ≤ 999 + ptx.tim.guard ∧ 999 ≤ now ptx + ptx.tim.guard ∧ xPitch_fwd.dst ≠ ownDev ptx
      ∧ pitchEgress ptx xPitch_fwd = some (2, portSched ptx false 2 0) ∧ pitchState ptx 2 = 1)
    ∧ (portState ptx 1 = 4 ∧ 999 = 990 + ceilDiv (rdF ptx (Reg.portDelay 1) 63 0) 16 ∧ xPitch_fwd.dst ≠ ownDev ptx
      ∧ (true = true ∨ pitchState ptx 1 ≠ 1))
    ∧ (portState ptx 1 = 4 ∧ 909 = 900 + ceilDiv (rdF ptx (Reg.portDelay 1) 63 0) 16 ∧ xPitch_fwd.dst ≠ ownDev ptx
      ∧ pitchState ptx 1 = 1 ∧ 909 + ptx.tim.guard < now ptx)
    ∧ (claimsOf psl 2 = [xSlotSend] ∧ xSlotSend.tick < 2 ^ 64 ∧ (prt psl 2).pitchTill ≤ xSlotSend.tick
      ∧ joinCopies ((copiesOf xSlotSend.pkt).filter (fun x => x.dst ≠ ownDev psl)) = some xPitch_fwd
      ∧ roomFor psl 2 0 (flitCount xPitch_fwd) = true
      ∧ (∀ (h : Staged), xSlotSend.own = some h → h.stagedAt + 24 ≤ xSlotSend.tick))
    ∧ (claimsOf psl2 2 = [xSlotSend_own] ∧ xSlotSend_own.tick < 2 ^ 64 ∧ (prt psl2 2).pitchTill ≤ xSlotSend_own.tick
      ∧ joinCopies ((copiesOf xSlotSend_own.pkt).filter (fun x => x.dst ≠ ownDev psl2)) = some xSlotSend_own.pkt
      ∧ roomFor psl2 2 0 (flitCount xSlotSend_own.pkt) = true
      ∧ (∀ (h : Staged), xSlotSend_own.own = some h → h.stagedAt + 24 ≤ xSlotSend_own.tick))
    ∧ (pitchState xResume 1 = 2 ∧ portState xResume 1 = 4 ∧ rdF xResume (Reg.portStatus 1) 13 12 = 3
      ∧ 8 ≤ (prt xResume 1).resyncRound ∧ 2 ≤ (prt xResume 1).resyncGood
      ∧ (timeState xResume = 2 ∨ timeState xResume = 3) ∧ now xResume + 1023 < 2 ^ 64)
    ∧ ((cplOf xBoundl 4).st = CplState.opened ∧ (cplOf xBoundl 4).kind = CplKind.pitch ∧ (cplOf xBoundl 4).late = false
      ∧ (cplOf xBoundl 4).sent = true ∧ (cplOf xBoundl 4).deadline < 2 ^ 64 ∧ (cplOf xBoundl 4).damaged = false)
    ∧ ((cplOf xBound_nsr 4).st = CplState.opened ∧ (cplOf xBound_nsr 4).kind = CplKind.pitch
      ∧ (cplOf xBound_nsr 4).late = false ∧ (cplOf xBound_nsr 4).sent = false
      ∧ (cplOf xBound_nsr 4).slotTick < 2 ^ 64 ∧ (cplOf xBound_nsr 4).damaged = false) := by
  and_intros <;> decide +kernel

def xSched_B : State := regsOf [(Reg.schedCtrl, 2), (Reg.schedSwitchRound, 4)] net

/-- States and operands that meet the hypotheses of clauses of `Obligations.ScheduleSwitch`. -/
theorem witness_ScheduleSwitch :
    (mayWrite net Reg.Class.installer (Writer.path Path.eth) = true ∧ now net / 1024 + 4 ≤ fld 4 53 0
      ∧ rdB net Reg.schedCtrl 1 = false ∧ oldPitch net = 0)
    ∧ (mayWrite net Reg.Class.installer (Writer.path Path.eth) = true
      ∧ (fld 3 53 0 < now net / 1024 + 4 ∨ rdB net Reg.schedCtrl 1 = true ∨ oldPitch net ≠ 0))
    ∧ (rdB xSched_B Reg.schedCtrl 1 = true ∧ rdF xSched_B Reg.schedSwitchRound 53 0 * 1024 < 2 ^ 64) := by
  refine ⟨?_, ?_, ?_⟩ <;> decide +kernel

def xScrub1 : State := onTl 3 (fun x => { x with scrub := [(15, 2047)] }) net
def xOwnerNext2r : State := wrReg (Reg.bankStatus 3 2) 4 net
def xE1 : BankEntry := { port := 1, word := 7, left := 1, isRead := true }
def xE2 : BankEntry := { port := 3, word := 9, left := 1, isRead := false }
def xBank2 : State := onBank 50 (fun x => { x with entries := [xE1, xE2] }) net
def xBankS : State := onBank 50 (fun x => { x with lost := [0, 0, 15, 0] }) xBank2
def xBankW : State := onBank 50 (fun x => { x with wcycle := true }) xBank2
def xHandBusy : State := onBank 50 (fun x => { x with entries := [xE1] }) (wrReg (Reg.bankStatus 3 2) 4 net)
def xHandLater : State := onBank 50 (fun x => { x with later := [xE1] }) (wrReg (Reg.bankOwnerNext 3 2) 196608 (wrReg (Reg.bankStatus 3 2) 4 net))
def xHandLost : State := wrReg (Reg.bankOwnerNext 3 2) (wd (0x800 * 2 ^ 16)) xHandLater
def xHandDone : State := wrReg (Reg.bankOwnerNext 3 2) 196608 (wrReg (Reg.bankStatus 3 2) 4 net)

/-- States and operands that meet the hypotheses of clauses of `Obligations.BanksAndHandovers`. -/
theorem witness_BanksAndHandovers :
    (rdB net (Reg.bankCtrl 511) 0 = true ∧ bankOn net 511 = true)
    ∧ (rdB xScrub1 (Reg.bankCtrl 3) 0 = true ∧ bankOn xScrub1 3 = true)
    ∧ (
      List.find? (fun kv => kv.2 == Ecc.single && tileBankOf (32 * kv.1) == (3, 2) && decide (sramAddr 0 0 ≤ 32 * kv.1)) wb.ecc = some (sramAddr 3 262144 / 32, Ecc.single))
    ∧ (fenceState net (3 / 128) = 0 ∧ mayWrite net Reg.Class.any (Writer.path Path.pcie) = true
      ∧ mayHand net (Writer.path Path.pcie) 3 2 = true ∧ handoverPending net 3 2 = false
      ∧ agentOk (fld (3 * 2 ^ 16 + 15) 27 16) = true ∧ tenantOk net (fld (3 * 2 ^ 16 + 15) 7 0) = true)
    ∧ (fenceState run3 (3 / 128) = 0 ∧ mayWrite run3 Reg.Class.any (Writer.tile 3) = true
      ∧ mayHand run3 (Writer.tile 3) 3 2 = true ∧ handoverPending run3 3 2 = false
      ∧ agentOk (fld (4 * 2 ^ 16) 27 16) = true ∧ tenantOk run3 (fld (4 * 2 ^ 16) 7 0) = true)
    ∧ (fenceState xOwnerNext2r (3 / 128) = 0 ∧ mayWrite xOwnerNext2r Reg.Class.any (Writer.path Path.pcie) = true
      ∧ mayHand xOwnerNext2r (Writer.path Path.pcie) 3 2 = true ∧ handoverPending xOwnerNext2r 3 2 = true)
    ∧ (handoverPending xHandDone 3 2 = true ∧ (bank xHandDone 50).entries = [] ∧ (bank xHandDone 50).later = []
      ∧ (∀ h ∈ xHandDone.rma.held, h.1 ≠ 16 * 3 + 2))
    ∧ (handoverPending xHandBusy 3 2 = true ∧ (bank xHandBusy 50).entries ≠ [])
    ∧ (handoverPending xHandLater 3 2 = true ∧ (bank xHandLater 50).entries = []
      ∧ fld (rd xHandLater (Reg.bankOwnerNext 3 2)) 7 0 = tileTenant xHandLater 3
      ∧ fld (rd xHandLater (Reg.bankOwnerNext 3 2)) 27 16 = 3 ∧ (∀ h ∈ xHandLater.rma.held, h.1 ≠ 16 * 3 + 2))
    ∧ (handoverPending xHandLost 3 2 = true ∧ (bank xHandLost 50).entries = [] ∧ (bank xHandLost 50).later ≠ []
      ∧ fld (rd xHandLost (Reg.bankOwnerNext 3 2)) 27 16 ≠ 3 ∧ fld (rd xHandLost (Reg.bankOwnerNext 3 2)) 27 16 ≠ 0xFFF
      ∧ (∀ h ∈ xHandLost.rma.held, h.1 ≠ 16 * 3 + 2)) := by
  and_intros <;> decide +kernel

/-- Two ports that ask for different words of a bank, neither starved and one of them starved; a write cycle. -/
theorem witness_BankArbitration :
    ((bank xBankW 50).wcycle = true)
    ∧ ((bank xBank2 50).wcycle = false ∧ (bank xBank2 50).entries = [xE1, xE2]
      ∧ nth (bank xBank2 50).lost (xE1.port - 1) < rdF xBank2 (Reg.bankCtrl 3) 11 8
      ∧ nth (bank xBank2 50).lost (xE2.port - 1) < rdF xBank2 (Reg.bankCtrl 3) 11 8)
    ∧ ((bank xBankS 50).wcycle = false ∧ (bank xBankS 50).entries = [xE1, xE2]
      ∧ nth (bank xBankS 50).lost (xE1.port - 1) < rdF xBankS (Reg.bankCtrl 3) 11 8
      ∧ rdF xBankS (Reg.bankCtrl 3) 11 8 ≤ nth (bank xBankS 50).lost (xE2.port - 1)) := by
  refine ⟨?_, ?_, ?_⟩ <;> decide +kernel

end Part6


namespace Part7

def rq : Packet := {src:=1,opcode:=1,gen:=3,tag:=77,len4:=2,addr:=0x308}
def axw : Access := {op:=.write,addr:=0x308,len:=8,data:=[1,2,3,4,5,6,7,8],since:=0}
def axr : Access := {op:=.read,addr:=0x308,len:=8,reply:=.packet rq}
def axa : Access := {op:=.atomic 0x11 false 5 0,addr:=0x308,len:=8,reply:=.packet {rq with opcode:=0x11}}
def hb (x : Access) : State := target |> putBytes 0x308 [9,8,7,6,5,4,3,2]
  |> onStk 0 3 (fun k => {k with queue := [{addr:=0x700,len:=8},x]})
def wq (d : Bool) : RetrainReq := {kind:=.periodic,deferred:=d,trigger:=5}
def rr (k : RetrainKind) (a : Nat) : State := target |> setStackState 0 3 4
  |> onStk 0 3 (fun x => {x with run := some k, attempt := a})
def tq (op : Nat) : Packet := {src:=1,opcode:=op,gen:=3,tag:=77,len4:=2,addr:=0x308,payload:=[1,2,3,4,5,6,7,8]}
def okOf (s : State) (q : Packet) : Region × Access := match admission s (askedBy s q) with | .ok r => r | .error _ => (.reg 0,
  {})
def at2 : Packet := {tq 0x14 with len4:=4,payload:=[1,2,3,4,5,6,7,8,1,2,3,4,5,6,7,8]}
def rs : Packet := {src:=1,opcode:=1,gen:=3,tag:=77,len4:=64,addr:=sramAddr 3 0x1FFF00}
def tsr : State := target |> regsOf ((List.range 16).map (fun b => (Reg.bankOwner 3 b, 0x800 * 2^16)))
  |> putBytes (sramAddr 3 0x1FFF00) [1,2,3]
def dup : State := {(target |> wrReg (Reg.rxPair 63) (wd (2^63 + 1*2^14 + 2))) with twin.windows := [(63, BitVec.ofNat 4096 (2^100))]}
def gq : Packet := {src:=1,opcode:=0x21,gen:=3,tag:=77,len4:=4,addr:=0x308,payload:=leBytes 8 0x7F0000000040 ++ leBytes 8 16}
def okA (s : State) (x : Access) : Access := match admission s x with | .ok r => r.2 | .error _ => {}
def tq3 : Packet := {src:=2,opcode:=0x23,gen:=3,tag:=77,len4:=4,addr:=0x308,payload:=leBytes 8 (far 0x40).toNat ++ leBytes 8 16}
def ad : AckDue := {dev:=1,tag:=7,gen:=3,tenant:=0,segs:=2,unackedSegs:=1,unackedBytes:=256,err:=2,since:=9}
def xHbmScrub : State := onStk 0 3 (fun k => { k with scrubRow := 100663295 }) target
def xHbmT101 : State := setStackState 0 3 5 target
def xRetrNow2 : State := setStackState 0 2 4 (onStk 0 2 (fun k => { k with run := some RetrainKind.periodic }) target)
def xPeriD : State := wrReg (Reg.hbmCtrl 0 3) 17 target
def xDeferred : State := onStk 0 3 (fun k => { k with wait := some (wq true) }) target
def xRStart : State := setWait 0 3 (some (wq false)) target
def xRDonePl : State := rr RetrainKind.periodic 1
def xRDoneRl : State := rr RetrainKind.recovery 2
def xRDoneR3rrr : State := rr RetrainKind.recovery 3

/-- States and operands that meet the hypotheses of clauses of `Obligations.HbmStacks`. -/
theorem witness_HbmStacks :
    (stackPresent (hb axw) 0 3 = true ∧ stackState (hb axw) 0 3 = 3 ∧ (stk (hb axw) 0 3).queue[1]? = some axw
      ∧ mayPerform (hb axw) 0 3 1 axw = true ∧ (stk (hb axw) 0 3).offAfter = false
      ∧ (∀ y ∈ [Syndrome.clean], y = Syndrome.clean) ∧ (∀ v ∈ sectorsOf axw, eccOf (hb axw) v = Ecc.clean)
      ∧ axw.op = AccOp.write ∧ axw.poison = false ∧ axw.len = axw.data.length ∧ axw.reply = Reply.none)
    ∧ (stackPresent (hb axr) 0 3 = true ∧ stackState (hb axr) 0 3 = 3 ∧ (stk (hb axr) 0 3).queue[1]? = some axr
      ∧ mayPerform (hb axr) 0 3 1 axr = true ∧ (stk (hb axr) 0 3).offAfter = false
      ∧ (∀ y ∈ [Syndrome.clean], y = Syndrome.clean) ∧ (∀ v ∈ sectorsOf axr, eccOf (hb axr) v = Ecc.clean)
      ∧ axr.op = AccOp.read ∧ axr.reply = Reply.packet rq ∧ rq.opcode = 1 ∧ rq.src ≠ ownDev (hb axr)
      ∧ now (hb axr) ≤ axr.since + answerLimit)
    ∧ (stackPresent (hb axa) 0 3 = true ∧ stackState (hb axa) 0 3 = 3 ∧ (stk (hb axa) 0 3).queue[1]? = some axa
      ∧ mayPerform (hb axa) 0 3 1 axa = true ∧ (stk (hb axa) 0 3).offAfter = false
      ∧ (∀ y ∈ [Syndrome.clean], y = Syndrome.clean) ∧ (∀ v ∈ sectorsOf axa, eccOf (hb axa) v = Ecc.clean))
    ∧ (stackPresent xHbmScrub 0 3 = true ∧ stackState xHbmScrub 0 3 = 3 ∧ rdB xHbmScrub (Reg.hbmCtrl 0 3) 4 = true
      ∧ (stk xHbmScrub 0 3).queue = [])
    ∧ (stackPresent target 0 3 = true ∧ stackState target 0 3 = 3)
    ∧ (stackPresent target 0 3 = true)
    ∧ (stackPresent xHbmT101 0 3 = true)
    ∧ (stackPresent target 0 3 = true ∧ canRetrain target 0 3 = true)
    ∧ (stackPresent xHbmT101 0 3 = true ∧ canRetrain xHbmT101 0 3 = true)
    ∧ (stackPresent target 0 3 = true ∧ mayWrite target Reg.Class.any (Writer.path Path.pcie) = true
      ∧ fenceState target 0 = 0 ∧ stackState target 0 3 = 3 ∧ (stk target 0 3).run = none)
    ∧ (stackPresent xRetrNow2 0 3 = true ∧ mayWrite xRetrNow2 Reg.Class.any (Writer.tile 5) = true
      ∧ fenceState xRetrNow2 0 = 0 ∧ stackState xRetrNow2 0 3 = 3 ∧ (stk xRetrNow2 0 3).run = none)
    ∧ (stackPresent target 0 3 = true ∧ stackState target 0 3 = 3 ∧ (stk target 0 3).run = none
      ∧ (stk target 0 3).wait = none)
    ∧ (stackPresent xPeriD 0 3 = true ∧ stackState xPeriD 0 3 = 3 ∧ (stk xPeriD 0 3).run = none
      ∧ (stk xPeriD 0 3).wait = none)
    ∧ (stackPresent xDeferred 0 3 = true ∧ (stk xDeferred 0 3).wait = some (wq true) ∧ (wq true).deferred = true
      ∧ deferredStart xDeferred 0 3 (wq true).trigger < 2 ^ 64)
    ∧ (stackPresent xRStart 0 3 = true ∧ (stk xRStart 0 3).wait = some (wq false) ∧ nextRetrain xRStart 0 = some 3
      ∧ partRetrains xRStart 0 = false)
    ∧ (stackPresent xRDonePl 0 3 = true ∧ (stk xRDonePl 0 3).run = some RetrainKind.periodic
      ∧ (stk xRDonePl 0 3).admitted = 0 ∧ (stk xRDonePl 0 3).offAfter = false)
    ∧ (stackPresent xRDonePl 0 3 = true ∧ (stk xRDonePl 0 3).run = some RetrainKind.periodic
      ∧ (stk xRDonePl 0 3).admitted = 0 ∧ (stk xRDonePl 0 3).offAfter = false
      ∧ RetrainKind.periodic ≠ RetrainKind.recovery)
    ∧ (stackPresent xRDoneRl 0 3 = true ∧ (stk xRDoneRl 0 3).run = some RetrainKind.recovery
      ∧ (stk xRDoneRl 0 3).admitted = 0 ∧ (stk xRDoneRl 0 3).offAfter = false)
    ∧ (stackPresent xRDoneRl 0 3 = true ∧ (stk xRDoneRl 0 3).run = some RetrainKind.recovery
      ∧ (stk xRDoneRl 0 3).admitted = 0 ∧ (stk xRDoneRl 0 3).offAfter = false ∧ (stk xRDoneRl 0 3).attempt < 3)
    ∧ (stackPresent xRDoneR3rrr 0 3 = true ∧ (stk xRDoneR3rrr 0 3).run = some RetrainKind.recovery
      ∧ (stk xRDoneR3rrr 0 3).admitted = 0 ∧ (stk xRDoneR3rrr 0 3).offAfter = false
      ∧ 3 ≤ (stk xRDoneR3rrr 0 3).attempt ∧ (stk xRDoneR3rrr 0 3).queue = []) := by
  and_intros <;> decide +kernel

def xRd_trl : Packet := { tq 1 with payload := [] }
def xRd_trl1 : Packet := { tq 1 with opcode := 1, payload := [] }
def xWr_t : Packet := { tq 2 with opcode := 2 }
def xCas_t : Packet := { at2 with opcode := 20 }
def xPut_t : Packet := { tq 32 with opcode := 32 }
def xPitch_t : Packet := { tq 48 with opcode := 48 }
def xRd_sram : Packet := { rs with opcode := 1 }
def xDup : Packet := { tq 2 with twinSeq := 100, twin := true }
def xDup1 : Packet := { tq 2 with opcode := 2, twinSeq := 100, twin := true }
def xDup30 : Packet := { tq 48 with twinSeq := 100, twin := true }
def xDup301 : Packet := { tq 48 with opcode := 48, twinSeq := 100, twin := true }
def xDup20 : Packet := { tq 32 with twinSeq := 100, twin := true }
def xDup201 : Packet := { tq 32 with opcode := 32, twinSeq := 100, twin := true }

/-- States and operands that meet the hypotheses of clauses of `Obligations.RequestsAtTheTarget`. -/
theorem witness_RequestsAtTheTarget :
    (
      (Instr.rdReq xRd_trl, 1) ∈ [(Instr.rdReq xRd_trl, 1), (Instr.wr xRd_trl, 2), (Instr.atAdd32 xRd_trl, 16), (Instr.atAdd64 xRd_trl, 17), (Instr.atAddf32 xRd_trl, 18), (Instr.atSwap xRd_trl, 19), (Instr.atCas xRd_trl, 20), (Instr.atBset xRd_trl, 21), (Instr.atBclr xRd_trl, 22), (Instr.putData xRd_trl, 32), (Instr.pitchWr xRd_trl, 48)]
      ∧ xRd_trl = xRd_trl1 ∧ packetOk xRd_trl = true)
    ∧ (
      (Instr.rdReq xRd_trl, 1) ∈ [(Instr.rdReq xRd_trl, 1), (Instr.wr xRd_trl, 2), (Instr.atAdd32 xRd_trl, 16), (Instr.atAdd64 xRd_trl, 17), (Instr.atAddf32 xRd_trl, 18), (Instr.atSwap xRd_trl, 19), (Instr.atCas xRd_trl, 20), (Instr.atBset xRd_trl, 21), (Instr.atBclr xRd_trl, 22), (Instr.putData xRd_trl, 32), (Instr.pitchWr xRd_trl, 48)]
      ∧ xRd_trl = xRd_trl1 ∧ packetOk xRd_trl = true ∧ (xRd_trl.twin = true → 1 ≠ 2 ∧ 1 ≠ 32 ∧ 1 ≠ 48)
      ∧ admission target (askedBy target xRd_trl) = Except.ok (Region.hbm 0 776, (okOf target xRd_trl).2)
      ∧ StackTakes target 0 776 ∧ OneLine (okOf target xRd_trl).2 ∧ misaligned 0 (okOf target xRd_trl).2 = false)
    ∧ (
      (Instr.wr (tq 2), 2) ∈ [(Instr.rdReq (tq 2), 1), (Instr.wr (tq 2), 2), (Instr.atAdd32 (tq 2), 16), (Instr.atAdd64 (tq 2), 17), (Instr.atAddf32 (tq 2), 18), (Instr.atSwap (tq 2), 19), (Instr.atCas (tq 2), 20), (Instr.atBset (tq 2), 21), (Instr.atBclr (tq 2), 22), (Instr.putData (tq 2), 32), (Instr.pitchWr (tq 2), 48)]
      ∧ tq 2 = xWr_t ∧ packetOk (tq 2) = true ∧ ((tq 2).twin = true → 2 ≠ 2 ∧ 2 ≠ 32 ∧ 2 ≠ 48)
      ∧ admission target (askedBy target (tq 2)) = Except.ok (Region.hbm 0 776, (okOf target (tq 2)).2)
      ∧ StackTakes target 0 776 ∧ OneLine (okOf target (tq 2)).2 ∧ misaligned 0 (okOf target (tq 2)).2 = false)
    ∧ (
      (Instr.atCas at2, 20) ∈ [(Instr.rdReq at2, 1), (Instr.wr at2, 2), (Instr.atAdd32 at2, 16), (Instr.atAdd64 at2, 17), (Instr.atAddf32 at2, 18), (Instr.atSwap at2, 19), (Instr.atCas at2, 20), (Instr.atBset at2, 21), (Instr.atBclr at2, 22), (Instr.putData at2, 32), (Instr.pitchWr at2, 48)]
      ∧ at2 = xCas_t ∧ packetOk at2 = true ∧ (at2.twin = true → 20 ≠ 2 ∧ 20 ≠ 32 ∧ 20 ≠ 48)
      ∧ admission target (askedBy target at2) = Except.ok (Region.hbm 0 776, (okOf target at2).2)
      ∧ StackTakes target 0 776 ∧ OneLine (okOf target at2).2 ∧ misaligned 0 (okOf target at2).2 = false)
    ∧ (
      (Instr.putData (tq 32), 32) ∈ [(Instr.rdReq (tq 32), 1), (Instr.wr (tq 32), 2), (Instr.atAdd32 (tq 32), 16), (Instr.atAdd64 (tq 32), 17), (Instr.atAddf32 (tq 32), 18), (Instr.atSwap (tq 32), 19), (Instr.atCas (tq 32), 20), (Instr.atBset (tq 32), 21), (Instr.atBclr (tq 32), 22), (Instr.putData (tq 32), 32), (Instr.pitchWr (tq 32), 48)]
      ∧ tq 32 = xPut_t ∧ packetOk (tq 32) = true ∧ ((tq 32).twin = true → 32 ≠ 2 ∧ 32 ≠ 32 ∧ 32 ≠ 48)
      ∧ admission target (askedBy target (tq 32)) = Except.ok (Region.hbm 0 776, (okOf target (tq 32)).2)
      ∧ StackTakes target 0 776 ∧ OneLine (okOf target (tq 32)).2 ∧ misaligned 0 (okOf target (tq 32)).2 = false)
    ∧ (
      (Instr.pitchWr (tq 48), 48) ∈ [(Instr.rdReq (tq 48), 1), (Instr.wr (tq 48), 2), (Instr.atAdd32 (tq 48), 16), (Instr.atAdd64 (tq 48), 17), (Instr.atAddf32 (tq 48), 18), (Instr.atSwap (tq 48), 19), (Instr.atCas (tq 48), 20), (Instr.atBset (tq 48), 21), (Instr.atBclr (tq 48), 22), (Instr.putData (tq 48), 32), (Instr.pitchWr (tq 48), 48)]
      ∧ tq 48 = xPitch_t ∧ packetOk (tq 48) = true ∧ ((tq 48).twin = true → 48 ≠ 2 ∧ 48 ≠ 32 ∧ 48 ≠ 48)
      ∧ admission target (askedBy target (tq 48)) = Except.ok (Region.hbm 0 776, (okOf target (tq 48)).2)
      ∧ StackTakes target 0 776 ∧ OneLine (okOf target (tq 48)).2 ∧ misaligned 0 (okOf target (tq 48)).2 = false)
    ∧ (
      (Instr.rdReq xRd_trl, 1) ∈ [(Instr.rdReq xRd_trl, 1), (Instr.wr xRd_trl, 2), (Instr.atAdd32 xRd_trl, 16), (Instr.atAdd64 xRd_trl, 17), (Instr.atAddf32 xRd_trl, 18), (Instr.atSwap xRd_trl, 19), (Instr.atCas xRd_trl, 20), (Instr.atBset xRd_trl, 21), (Instr.atBclr xRd_trl, 22), (Instr.putData xRd_trl, 32), (Instr.pitchWr xRd_trl, 48)]
      ∧ xRd_trl = xRd_trl1 ∧ packetOk xRd_trl = true ∧ admission net (askedBy net xRd_trl) = Except.error 7)
    ∧ (
      (Instr.putData (tq 32), 32) ∈ [(Instr.rdReq (tq 32), 1), (Instr.wr (tq 32), 2), (Instr.atAdd32 (tq 32), 16), (Instr.atAdd64 (tq 32), 17), (Instr.atAddf32 (tq 32), 18), (Instr.atSwap (tq 32), 19), (Instr.atCas (tq 32), 20), (Instr.atBset (tq 32), 21), (Instr.atBclr (tq 32), 22), (Instr.putData (tq 32), 32), (Instr.pitchWr (tq 32), 48)]
      ∧ tq 32 = xPut_t ∧ packetOk (tq 32) = true ∧ admission net (askedBy net (tq 32)) = Except.error 7)
    ∧ (
      (Instr.wr (tq 2), 2) ∈ [(Instr.rdReq (tq 2), 1), (Instr.wr (tq 2), 2), (Instr.atAdd32 (tq 2), 16), (Instr.atAdd64 (tq 2), 17), (Instr.atAddf32 (tq 2), 18), (Instr.atSwap (tq 2), 19), (Instr.atCas (tq 2), 20), (Instr.atBset (tq 2), 21), (Instr.atBclr (tq 2), 22), (Instr.putData (tq 2), 32), (Instr.pitchWr (tq 2), 48)]
      ∧ tq 2 = xWr_t ∧ packetOk (tq 2) = true ∧ admission net (askedBy net (tq 2)) = Except.error 7)
    ∧ (
      (Instr.pitchWr (tq 48), 48) ∈ [(Instr.rdReq (tq 48), 1), (Instr.wr (tq 48), 2), (Instr.atAdd32 (tq 48), 16), (Instr.atAdd64 (tq 48), 17), (Instr.atAddf32 (tq 48), 18), (Instr.atSwap (tq 48), 19), (Instr.atCas (tq 48), 20), (Instr.atBset (tq 48), 21), (Instr.atBclr (tq 48), 22), (Instr.putData (tq 48), 32), (Instr.pitchWr (tq 48), 48)]
      ∧ tq 48 = xPitch_t ∧ packetOk (tq 48) = true ∧ admission net (askedBy net (tq 48)) = Except.error 7)
    ∧ (
      (Instr.atCas at2, 20) ∈ [(Instr.rdReq at2, 1), (Instr.wr at2, 2), (Instr.atAdd32 at2, 16), (Instr.atAdd64 at2, 17), (Instr.atAddf32 at2, 18), (Instr.atSwap at2, 19), (Instr.atCas at2, 20), (Instr.atBset at2, 21), (Instr.atBclr at2, 22), (Instr.putData at2, 32), (Instr.pitchWr at2, 48)]
      ∧ at2 = xCas_t ∧ packetOk at2 = true ∧ admission net (askedBy net at2) = Except.error 7)
    ∧ (
      (Instr.wr xDup, 2) ∈ [(Instr.rdReq xDup, 1), (Instr.wr xDup, 2), (Instr.atAdd32 xDup, 16), (Instr.atAdd64 xDup, 17), (Instr.atAddf32 xDup, 18), (Instr.atSwap xDup, 19), (Instr.atCas xDup, 20), (Instr.atBset xDup, 21), (Instr.atBclr xDup, 22), (Instr.putData xDup, 32), (Instr.pitchWr xDup, 48)]
      ∧ xDup = xDup1 ∧ packetOk xDup = true ∧ (2 = 2 ∨ 2 = 32 ∨ 2 = 48) ∧ xDup.twin = true
      ∧ admission dup (askedBy dup xDup) = Except.ok ((okOf dup xDup).1, (okOf dup xDup).2)
      ∧ rxPairOf dup xDup.src = some 63 ∧ (rxWindow dup 63).getLsbD (xDup.twinSeq % 4096) = true)
    ∧ (
      (Instr.pitchWr xDup30, 48) ∈ [(Instr.rdReq xDup30, 1), (Instr.wr xDup30, 2), (Instr.atAdd32 xDup30, 16), (Instr.atAdd64 xDup30, 17), (Instr.atAddf32 xDup30, 18), (Instr.atSwap xDup30, 19), (Instr.atCas xDup30, 20), (Instr.atBset xDup30, 21), (Instr.atBclr xDup30, 22), (Instr.putData xDup30, 32), (Instr.pitchWr xDup30, 48)]
      ∧ xDup30 = xDup301 ∧ packetOk xDup30 = true ∧ (48 = 2 ∨ 48 = 32 ∨ 48 = 48) ∧ xDup30.twin = true
      ∧ admission dup (askedBy dup xDup30) = Except.ok ((okOf dup xDup30).1, (okOf dup xDup30).2)
      ∧ rxPairOf dup xDup30.src = some 63 ∧ (rxWindow dup 63).getLsbD (xDup30.twinSeq % 4096) = true)
    ∧ (
      (Instr.putData xDup20, 32) ∈ [(Instr.rdReq xDup20, 1), (Instr.wr xDup20, 2), (Instr.atAdd32 xDup20, 16), (Instr.atAdd64 xDup20, 17), (Instr.atAddf32 xDup20, 18), (Instr.atSwap xDup20, 19), (Instr.atCas xDup20, 20), (Instr.atBset xDup20, 21), (Instr.atBclr xDup20, 22), (Instr.putData xDup20, 32), (Instr.pitchWr xDup20, 48)]
      ∧ xDup20 = xDup201 ∧ packetOk xDup20 = true ∧ (32 = 2 ∨ 32 = 32 ∨ 32 = 48) ∧ xDup20.twin = true
      ∧ admission dup (askedBy dup xDup20) = Except.ok ((okOf dup xDup20).1, (okOf dup xDup20).2)
      ∧ rxPairOf dup xDup20.src = some 63 ∧ (rxWindow dup 63).getLsbD (xDup20.twinSeq % 4096) = true) := by
  and_intros <;> decide +kernel

/-- A request of 8 or 4 bytes for tile 3's SRAM, and the same as an atomic. -/
def sq (op : Nat) : Packet := { tq op with addr := sramAddr 3 0x1FFF00, last := true }
def sqN (op : Nat) : Packet := { sq op with len4 := 2 }
def sq2 (op : Nat) : Packet := { sqN op with narrow := true }
def sqCas (narrow : Bool) : Packet := { at2 with addr := sramAddr 3 0x1FFF00, narrow := narrow }

/-- A request `q` of `n` bytes meets what every clause of `RequestsPerformedAtSram` asks of it. -/
abbrev AtSram (q : Packet) (n : Nat) : Prop :=
  SramServes tsr 3 ∧ q.addr = sramAddr 3 0x1FFF00 ∧ 0x1FFF00 + n ≤ 0x200000 ∧ q.src ≠ ownDev tsr ∧ packetOk q = true
    ∧ (∀ b ∈ banksOf 0x1FFF00 n, handoverPending tsr 3 b = false ∧ owns tsr 3 b 0x800 q.tenant = true)
    ∧ banksClear tsr 1 q.addr n = true ∧ heldBefore tsr 1 (banksAt q.addr n) = false
    ∧ ∀ u ∈ unitsOf q.addr n, eccOf tsr u = .clean

/-- Each of the eleven requests finds its bytes in SRAM free and granted. -/
theorem witness_RequestsPerformedAtSram :
    (AtSram { rs with payload := [] } 256 ∧ (windowCheck tsr 0 rs.addr 256 .read false).isSome = true)
    ∧ (∀ q ∈ [(2, Perm.write), (0x20, .write), (0x30, .pitch)], AtSram (sq q.1) 8 ∧ PlainWrite tsr (sq q.1) q.1 8 q.2)
    ∧ (∀ op ∈ [0x11, 0x13, 0x15, 0x16], AtSram (sqN op) 8 ∧ AlignedAtomic tsr (sqN op) op 8 8)
    ∧ (∀ op ∈ [0x10, 0x12], AtSram (sqN op) 4 ∧ AlignedAtomic tsr (sqN op) op 4 4)
    ∧ (∀ op ∈ [0x13, 0x15, 0x16], AtSram (sq2 op) 4 ∧ AlignedAtomic tsr (sq2 op) op 4 4)
    ∧ (AtSram (sqCas false) 8 ∧ AlignedAtomic tsr (sqCas false) 0x14 8 8)
    ∧ (AtSram (sqCas true) 4 ∧ AlignedAtomic tsr (sqCas true) 0x14 4 4) := by
  and_intros <;> decide +kernel

def xGetReq : Packet := { gq with opcode := 33 }
def xGetReq1 : Access := { addr := gq.addr, len := 16, agent := 2048, tenant := gq.tenant, since := now target, reply := Reply.getSeg gq 139637976727616 0 true }
def xGetReq2 : Access := { addr := 776, len := 16, agent := 2048, reply := Reply.getSeg gq 139637976727616 0 true }
def xThirdl : Packet := { tq3 with opcode := 35 }
def xThirdl1 : Access := { addr := tq3.addr, len := 16, agent := 2048, tenant := tq3.tenant, since := now target, reply := Reply.putSeg 3 0 64 0 true }
def xThirdl2 : Access := { addr := 776, len := 16, agent := 2048, reply := Reply.putSeg 3 0 64 0 true }
def xThirdFullr1 : State := wrReg (Reg.cplQuota 0) 0 target
def xAckFlush : State := { target with rma := { target.rma with ackDue := [{ ad with tag := 6 }, ad] } }

/-- States and operands that meet the hypotheses of clauses of `Obligations.CopiesAtTheTarget`. -/
theorem witness_CopiesAtTheTarget :
    (gq = xGetReq ∧ packetOk gq = true ∧ 139637976727616 = leNat (List.take 8 gq.payload) % 2 ^ 48
      ∧ 16 = leNat (List.take 8 (List.drop 8 gq.payload)) ∧ segCount 139637976727616 16 = 1
      ∧ admission target xGetReq1 = Except.ok (Region.hbm 0 776, okA target xGetReq2) ∧ StackTakes target 0 776
      ∧ OneLine (okA target xGetReq2))
    ∧ ((tq3 = xThirdl ∧ packetOk tq3 = true ∧ far 64 = leWord (List.take 8 tq3.payload)
      ∧ 16 = leNat (List.take 8 (List.drop 8 tq3.payload)) ∧ targetOf target (far 64) true = Target.device 1 64
      ∧ segCount 64 16 = 1 ∧ admission target xThirdl1 = Except.ok (Region.hbm 0 776, okA target xThirdl2)
      ∧ StackTakes target 0 776 ∧ OneLine (okA target xThirdl2)) ∧ (∃ k, (pickTag tq3.tenant target).1 = some k))
    ∧ (tq3 = xThirdl ∧ packetOk tq3 = true ∧ far 64 = leWord (List.take 8 tq3.payload)
      ∧ 16 = leNat (List.take 8 (List.drop 8 tq3.payload)) ∧ (pickTag tq3.tenant xThirdFullr1).1 = none)
    ∧ (List.find? (fun a => a.dev == 1 && a.tag == 7 && a.unackedSegs != 0) xAckFlush.rma.ackDue = some ad
      ∧ 1 ≠ ownDev xAckFlush ∧ ad.since + 1024 < 2 ^ 64) :=
  ⟨ by decide +kernel, ⟨by decide +kernel, (pickTag_some _ _ (by decide +kernel) (by decide +kernel))⟩
  , by decide +kernel, by decide +kernel⟩

end Part7


namespace Part8

def rp : Packet := {src:=1,dst:=0,opcode:=0x60,gen:=3,tag:=77,len4:=2,addr:=0x308,payload:=[1,2,3,4,5,6,7,8]}
def e0 : Cpl := {st:=.opened,gen:=3,kind:=.load,tile:=some 3,sink:=.reg 3 4,expect:=8,target:=5,sent:=true}
def rs (e : Cpl) : State := run3 |> setCpl 77 e |> onTl 3 (fun x => {x with pend := [4]})
def stale : State := rs {e0 with gen:=4}
def wi : State := target |> regsOf [(Reg.winStage 0 0, 2^63+2^60+0x100), (Reg.winStage 0 1, 0x1FF),
  (Reg.winStage 63 0, 0), (Reg.winStage 63 1, 5)]
def f1 (seq : Nat) : Flit := mkFlit 0x123 4 5 2 3 seq
def up1 : State := net |> onPrt 1 (fun x => {x with rxSeq := 4095})
def rep : State := up1
  |> onPrt 1 (fun x => {x with replay := [{seq:=7,vc:=3,flit:=f1 7},{seq:=8,vc:=5,flit:=f1 8}], ackStart := 40})
def xStale60 : Packet := { rp with opcode := 96 }
def xStale64 : Cpl := { }
def xStale641 : Packet := { rp with opcode := 100 }
def xStale631 : Packet := { rp with opcode := 99 }
def xStale621 : Packet := { rp with opcode := 98 }
def xRdRespEr : Packet := { rp with status := 7 }
def xRdRespEr1 : Packet := { rp with opcode := 96, status := 7 }
def xAtRespl : State := rs { e0 with kind := CplKind.atomic }
def xAtRespl1 : Packet := { rp with late := true }
def xAtRespl2 : Packet := { rp with opcode := 98, late := true }
def xAck : State := rs { e0 with kind := CplKind.put, sink := Sink.none, expect := 2 ^ 40 }
def xAck1 : Packet := { rp with opcode := 97 }
def xAckE : State := rs { e0 with kind := CplKind.put, sink := Sink.none, expect := 2 ^ 40, late := true }
def xAckE1 : Packet := { rp with status := 14 }
def xAckE2 : Packet := { rp with opcode := 97, status := 14 }
def xCopyD : State := rs { e0 with kind := CplKind.third, sink := Sink.none, expect := 2 ^ 40, late := true }
def xCopyD2 : Packet := { rp with opcode := 99, status := 14 }
def xGetData : State := rs { e0 with kind := CplKind.get, sink := Sink.sram 3 2097144, base := 776, expect := 64 }
def xLatel : Packet := { rp with opcode := 101 }
def xLatel1 : State := rs { e0 with kind := CplKind.pitch, sink := Sink.none, targets := [(1, 0), (300, 0)], slotTick := 1000 }

/-- States and operands that meet the hypotheses of clauses of `Obligations.ResponsesAtTheRequester`. -/
theorem witness_ResponsesAtTheRequester :
    (((cplOf stale rp.tag).st ≠ CplState.opened ∨ (cplOf stale rp.tag).gen ≠ rp.gen)
      ∧ (Instr.rdResp rp, 96) ∈ [(Instr.rdResp rp, 96), (Instr.atResp rp, 98), (Instr.copyDone rp, 99), (Instr.getData rp, 100)]
      ∧ packetOk xStale60 = true)
    ∧ (((cplOf (rs xStale64) rp.tag).st ≠ CplState.opened ∨ (cplOf (rs xStale64) rp.tag).gen ≠ rp.gen)
      ∧ (Instr.getData rp, 100) ∈ [(Instr.rdResp rp, 96), (Instr.atResp rp, 98), (Instr.copyDone rp, 99), (Instr.getData rp, 100)]
      ∧ packetOk xStale641 = true)
    ∧ (((cplOf (rs xStale64) rp.tag).st ≠ CplState.opened ∨ (cplOf (rs xStale64) rp.tag).gen ≠ rp.gen)
      ∧ (Instr.copyDone rp, 99) ∈ [(Instr.rdResp rp, 96), (Instr.atResp rp, 98), (Instr.copyDone rp, 99), (Instr.getData rp, 100)]
      ∧ packetOk xStale631 = true)
    ∧ (((cplOf (rs xStale64) rp.tag).st ≠ CplState.opened ∨ (cplOf (rs xStale64) rp.tag).gen ≠ rp.gen)
      ∧ (Instr.atResp rp, 98) ∈ [(Instr.rdResp rp, 96), (Instr.atResp rp, 98), (Instr.copyDone rp, 99), (Instr.getData rp, 100)]
      ∧ packetOk xStale621 = true)
    ∧ ((cplOf (rs e0) rp.tag).st = CplState.opened ∧ (cplOf (rs e0) rp.tag).gen = rp.gen
      ∧ (cplOf (rs e0) rp.tag).firstErr = 0 ∧ (cplOf (rs e0) rp.tag).cvu = none ∧ (cplOf (rs e0) rp.tag).drops = 0
      ∧ (cplOf (rs e0) rp.tag).inexact = false
      ∧ (Instr.rdResp rp, 96) ∈ [(Instr.rdResp rp, 96), (Instr.atResp rp, 98)] ∧ packetOk xStale60 = true
      ∧ (cplOf (rs e0) rp.tag).kind ≠ CplKind.dmaOut ∧ (cplOf (rs e0) rp.tag).kind ≠ CplKind.eth
      ∧ (cplOf (rs e0) rp.tag).sink = Sink.reg 3 4 ∧ (cplOf (rs e0) rp.tag).tile = some 3
      ∧ (tl (rs e0) 3).wait = none ∧ (cplOf (rs e0) rp.tag).orphan = false ∧ (cplOf (rs e0) rp.tag).ar = false
      ∧ rp.status = 0)
    ∧ ((cplOf (rs e0) xRdRespEr.tag).st = CplState.opened ∧ (cplOf (rs e0) xRdRespEr.tag).gen = xRdRespEr.gen
      ∧ (cplOf (rs e0) xRdRespEr.tag).firstErr = 0 ∧ (cplOf (rs e0) xRdRespEr.tag).cvu = none
      ∧ (cplOf (rs e0) xRdRespEr.tag).drops = 0 ∧ (cplOf (rs e0) xRdRespEr.tag).inexact = false
      ∧ (Instr.rdResp xRdRespEr, 96) ∈ [(Instr.rdResp xRdRespEr, 96), (Instr.atResp xRdRespEr, 98)]
      ∧ packetOk xRdRespEr1 = true ∧ (cplOf (rs e0) xRdRespEr.tag).kind ≠ CplKind.dmaOut
      ∧ (cplOf (rs e0) xRdRespEr.tag).kind ≠ CplKind.eth ∧ (cplOf (rs e0) xRdRespEr.tag).sink = Sink.reg 3 4
      ∧ (cplOf (rs e0) xRdRespEr.tag).tile = some 3 ∧ (tl (rs e0) 3).wait = none
      ∧ (cplOf (rs e0) xRdRespEr.tag).orphan = false ∧ (cplOf (rs e0) xRdRespEr.tag).ar = false
      ∧ isError xRdRespEr.status = true)
    ∧ ((cplOf xAtRespl xAtRespl1.tag).st = CplState.opened ∧ (cplOf xAtRespl xAtRespl1.tag).gen = xAtRespl1.gen
      ∧ (cplOf xAtRespl xAtRespl1.tag).firstErr = 0 ∧ (cplOf xAtRespl xAtRespl1.tag).cvu = none
      ∧ (cplOf xAtRespl xAtRespl1.tag).drops = 0 ∧ (cplOf xAtRespl xAtRespl1.tag).inexact = false
      ∧ (Instr.atResp xAtRespl1, 98) ∈ [(Instr.rdResp xAtRespl1, 96), (Instr.atResp xAtRespl1, 98)]
      ∧ packetOk xAtRespl2 = true ∧ (cplOf xAtRespl xAtRespl1.tag).kind ≠ CplKind.dmaOut
      ∧ (cplOf xAtRespl xAtRespl1.tag).kind ≠ CplKind.eth ∧ (cplOf xAtRespl xAtRespl1.tag).sink = Sink.reg 3 4
      ∧ (cplOf xAtRespl xAtRespl1.tag).tile = some 3 ∧ (tl xAtRespl 3).wait = none
      ∧ (cplOf xAtRespl xAtRespl1.tag).orphan = false ∧ (cplOf xAtRespl xAtRespl1.tag).ar = false
      ∧ xAtRespl1.status = 0)
    ∧ ((cplOf xAck rp.tag).st = CplState.opened ∧ (cplOf xAck rp.tag).gen = rp.gen ∧ (cplOf xAck rp.tag).firstErr = 0
      ∧ (cplOf xAck rp.tag).cvu = none ∧ (cplOf xAck rp.tag).drops = 0 ∧ (cplOf xAck rp.tag).inexact = false
      ∧ packetOk xAck1 = true)
    ∧ ((cplOf xAckE xAckE1.tag).st = CplState.opened ∧ (cplOf xAckE xAckE1.tag).gen = xAckE1.gen
      ∧ (cplOf xAckE xAckE1.tag).firstErr = 0 ∧ (cplOf xAckE xAckE1.tag).cvu = none
      ∧ (cplOf xAckE xAckE1.tag).drops = 0 ∧ (cplOf xAckE xAckE1.tag).inexact = false ∧ packetOk xAckE2 = true
      ∧ xAckE1.status = 14)
    ∧ ((cplOf xCopyD xAckE1.tag).st = CplState.opened ∧ (cplOf xCopyD xAckE1.tag).gen = xAckE1.gen
      ∧ (cplOf xCopyD xAckE1.tag).firstErr = 0 ∧ (cplOf xCopyD xAckE1.tag).cvu = none
      ∧ (cplOf xCopyD xAckE1.tag).drops = 0 ∧ (cplOf xCopyD xAckE1.tag).inexact = false ∧ packetOk xCopyD2 = true
      ∧ (xAckE1.status = 0 ∨ isError xAckE1.status = true))
    ∧ ((cplOf xCopyD rp.tag).st = CplState.opened ∧ (cplOf xCopyD rp.tag).gen = rp.gen
      ∧ (cplOf xCopyD rp.tag).firstErr = 0 ∧ (cplOf xCopyD rp.tag).cvu = none ∧ (cplOf xCopyD rp.tag).drops = 0
      ∧ (cplOf xCopyD rp.tag).inexact = false ∧ packetOk xStale631 = true
      ∧ (rp.status = 0 ∨ isError rp.status = true))
    ∧ ((cplOf xGetData rp.tag).st = CplState.opened ∧ (cplOf xGetData rp.tag).gen = rp.gen
      ∧ (cplOf xGetData rp.tag).firstErr = 0 ∧ (cplOf xGetData rp.tag).cvu = none
      ∧ (cplOf xGetData rp.tag).drops = 0 ∧ (cplOf xGetData rp.tag).inexact = false ∧ packetOk xStale641 = true
      ∧ (cplOf xGetData rp.tag).sink = Sink.sram 3 2097144 ∧ (cplOf xGetData rp.tag).tenant = tileTenant xGetData 3
      ∧ rp.status = 0 ∧ rp.poison = false ∧ 8 = rp.payload.length
      ∧ 2097144 = 2097144 + (rp.addr - (cplOf xGetData rp.tag).base) ∧ SramServes xGetData 3
      ∧ MayUse xGetData 3 2097144 8 ∧ Quiet xGetData 3 2097144 8
      ∧ (cplOf xGetData rp.tag).got + 8 < (cplOf xGetData rp.tag).expect)
    ∧ (packetOk xLatel = true ∧ (cplOf xLatel1 rp.tag).st = CplState.opened ∧ (cplOf xLatel1 rp.tag).gen = rp.gen
      ∧ (cplOf xLatel1 rp.tag).kind = CplKind.pitch)
    ∧ (packetOk xLatel = true ∧ (cplOf (rs xStale64) rp.tag).st ≠ CplState.opened) := by
  and_intros <;> decide +kernel

/-- The further hypotheses of a register answer, of GET_DATA, of CPY_DONE and of a late note. -/
theorem witness_ResponsesAtTheRequester_more :
    (∀ s ∈ [rs e0, xAtRespl, xAck, xAckE, xCopyD, xGetData], (cplOf s rp.tag).damaged = false)
    ∧ (packetOk { rp with opcode := 0x60 } = true ∧ packetOk { rp with opcode := 0x62 } = true ∧ rp.status = 0
      ∧ (tl (rs e0) 3).wait = none ∧ (cplOf (rs e0) rp.tag).orphan = false ∧ (cplOf (rs e0) rp.tag).ar = false)
    ∧ (banksClear xGetData 1 (sramAddr 3 2097144) 8 = true ∧ (cplOf xGetData rp.tag).kind ≠ .desc
      ∧ heldBefore xGetData 1 (banksAt (sramAddr 3 2097144) 8) = false) := by
  refine ⟨?_, ?_, ?_⟩ <;> decide +kernel

def xDeadline : State := rs { e0 with deadline := 700, firstErr := 7 }
def xQuar : State := rs { e0 with st := CplState.quarantine, doneAt := 5 }
def xHoldR : State := { net with net := { net.net with routerQ := [(none, { rp with opcode := 119 }), (some 2, rp)] } }
def xHoldR1 : Packet := { rp with opcode := 119 }
def xHoldD : State := { net with rma := { net.rma with deliverQ := [{ rp with opcode := 119 }, rp] } }
def xHoldP : State := { net with net := { net.net with pitchHeld := [{ port := 3, pkt := rp, tick := 5, ver := 0, heldAt := 1 }, { port := 2, pkt := rp, tick := 5, ver := 0, heldAt := 1 }] } }
def xHoldP1 : PitchHeld := { port := 3, pkt := rp, tick := 5, ver := 0, heldAt := 1 }
def xHoldB : State := onBnd 4 (fun x => { x with queue := [(1, { rp with heldFrom := 9 }), (2, rp)] }) net
def xHoldS : State := { net with net := { net.net with staged := [{ port := 2, pkt := { rp with opcode := 48 }, tick := 5, stagedAt := 1, tag := 77 }] } }
def xDamaged : State := rs { e0 with damaged := true, late := true }

/-- States and operands that meet the hypotheses of clauses of `Obligations.RemoteTimers`. -/
theorem witness_RemoteTimers :
    ((cplOf xDeadline 77).st = CplState.opened
      ∧ ((cplOf xDeadline 77).kind = CplKind.pitch → (cplOf xDeadline 77).late = true)
      ∧ (cplOf xDeadline 77).deadline ≠ 0 ∧ (cplOf xDeadline 77).deadline < 2 ^ 64 ∧ (cplOf xDeadline 77).damaged = false)
    ∧ ((cplOf xDamaged 77).st = CplState.opened ∧ (cplOf xDamaged 77).deadline < 2 ^ 64
      ∧ (cplOf xDamaged 77).damaged = true)
    ∧ ((cplOf xQuar 77).st = CplState.quarantine ∧ (cplOf xQuar 77).doneAt + rdF xQuar Reg.cplQuarantine 47 0 < 2 ^ 64)
    ∧ (∀ q ∈ [(xHoldR, HoldPlace.router), (xHoldD, .deliver), (xHoldP, .pitch 2), (xHoldB, .bond 4)],
        rp ∈ packetsIn q.1 q.2 ∧ limited rp = true
          ∧ (∀ x ∈ packetsIn q.1 q.2, x ≠ rp → limited x = true → rp.heldFrom < x.heldFrom))
    ∧ (xHoldR1 ∈ packetsIn xHoldR .router ∧ limited xHoldR1 = false)
    ∧ (packetsIn xHoldS (.staged 2) = [{ rp with opcode := 48 }] ∧ limited { rp with opcode := 48 } = true) := by
  and_intros <;> decide +kernel

def xWinBr : State := wrReg Reg.winUpdateStatus 1 wi
def xWinC : State := wrReg Reg.winUpdateStatus (wd (1 + 65535 * 2 ^ 48)) wi

/-- States and operands that meet the hypotheses of clauses of `Obligations.WindowUpdates`. -/
theorem witness_WindowUpdates :
    (mayWrite wi Reg.Class.installer (Writer.path Path.i3c) = true ∧ 4032 = fld (wd (4032 * 2 ^ 16 + 64)) 27 16
      ∧ 64 = fld (wd (4032 * 2 ^ 16 + 64)) 6 0 ∧ rdF wi Reg.winUpdateStatus 1 0 ≠ 1 ∧ 4032 + 64 ≤ 4096
      ∧ (∀ i < 64, winFine (stagedWin wi i) = true
      ∧ (bit (stagedWin wi i).1 63 = true → tenantOk wi (fld (stagedWin wi i).1 55 48) = true)))
    ∧ (mayWrite xWinBr Reg.Class.installer (Writer.path Path.i3c) = true ∧ 0 = fld (wd (0 * 2 ^ 16 + 1)) 27 16
      ∧ 1 = fld (wd (0 * 2 ^ 16 + 1)) 6 0 ∧ rdF xWinBr Reg.winUpdateStatus 1 0 = 1)
    ∧ (rdF xWinC Reg.winUpdateStatus 1 0 = 1 ∧ oldAccesses xWinC = 0) := by
  refine ⟨?_, ?_, ?_⟩ <;> decide +kernel

def xFecQl : State := wrReg (Reg.portStatus 1) 3 net
def xFecT (seq : Nat) : Flit := mkFlit 0x123 7 5 2 3 seq
def xAckT : State := onPrt 1 (fun x => { x with replays := 8, limitDone := some 40 }) rep
def xAckTimerLr : State := onPrt 1 (fun x => { x with replays := 8 }) rep
def xAuditN : State := onPrt 1 (fun x => { x with adv := [4, 4, 4, 4, 4, 4, 4, 4], received := [0, 0, 0, 0, 3, 0, 0, 5] }) rep

/-- States and operands that meet the hypotheses of clauses of `Obligations.FramesAndAudits`. -/
theorem witness_FramesAndAudits :
    (portState net 1 = 4 ∧ portState xFecQl 1 = 3 ∧ 18 < 19)
    ∧ (18 ≤ 18 ∧ 0 ≤ 18 ∧ portState xFecQl 1 = 3 ∧ flitType (xFecT 0xFFFF) = 7
      ∧ fld (xFecT 0xFFFF).trailer 63 32 = flitCrc (flitBytes (xFecT 0xFFFF)) (fld (xFecT 0xFFFF).trailer 31 0) 0xFFFF)
    ∧ (portState xAckT 1 = 4 ∧ (prt xAckT 1).replay ≠ [] ∧ (prt xAckT 1).ackStart + ackTimeout xAckT 1 < 2 ^ 64
      ∧ rdF xAckT (Reg.replayCtrl 1) 3 0 ≤ (prt xAckT 1).replays ∧ (prt xAckT 1).limitDone = some 40
      ∧ max (now xAckT) ((prt xAckT 1).ackStart + ackTimeout xAckT 1) ≤ 40 + 1600000000
      ∧ max (now xAckT) ((prt xAckT 1).ackStart + ackTimeout xAckT 1) % 1024 ≠ 0)
    ∧ (portState up1 1 = 4 ∧ sequenced (flitType (f1 4095)) = true
      ∧ fld (f1 4095).trailer 63 32 = flitCrc (flitBytes (f1 4095)) (fld (f1 4095).trailer 31 0) (prt up1 1).rxSeq)
    ∧ (portState up1 1 = 4 ∧ (prt up1 1).held = []
      ∧ fld (f1 4094).trailer 63 32 ≠ flitCrc (flitBytes (f1 4094)) (fld (f1 4094).trailer 31 0) (if sequenced (flitType (f1 4094)) = true then (prt up1 1).rxSeq else 65535))
    ∧ (portState rep 1 = 4 ∧ (prt rep 1).replay ≠ [] ∧ (prt rep 1).ackStart + ackTimeout rep 1 < 2 ^ 64
      ∧ max (now rep) ((prt rep 1).ackStart + ackTimeout rep 1) % 1024 ≠ 0
      ∧ (prt rep 1).replays < rdF rep (Reg.replayCtrl 1) 3 0)
    ∧ (portState xAckTimerLr 1 = 4 ∧ (prt xAckTimerLr 1).replay ≠ []
      ∧ (prt xAckTimerLr 1).ackStart + ackTimeout xAckTimerLr 1 < 2 ^ 64
      ∧ rdF xAckTimerLr (Reg.replayCtrl 1) 3 0 ≤ (prt xAckTimerLr 1).replays ∧ (prt xAckTimerLr 1).limitDone = none)
    ∧ (portState rep 1 = 4 ∧ ((prt rep 1).auditFrom + rdF rep (Reg.creditCtrl 1) 15 8) * 1024 < 2 ^ 64)
    ∧ (portState xAuditN 1 = 4 ∧ (∃ v, v < 8 ∧ 16 * auditWindow (prt xAuditN 1) [0, 0, 0, 0, 7, 0, 0, 5] v
          ≤ (nth (prt xAuditN 1).adv v * rdF xAuditN (Reg.creditCtrl 1) 3 0 : Nat))
      ∧ ∃ v, v < 8 ∧ leaked (prt xAuditN 1) [0, 0, 0, 0, 7, 0, 0, 0] v < 0) := by
  and_intros <;> decide +kernel

end Part8


namespace Part9

def cr (n : Nat) (s : State) : State := s |> regsOf ((List.range 8).map (fun v => (Reg.creditState n v, 10*2^16)))
def lpp : State := net |> cr 1
  |> onPrt 1 (fun x => {x with replay := [{seq:=7,vc:=3},{seq:=8,vc:=5}], held := [{vc:=2}]})
def st1 (v : Nat) : State := lpp |> wrReg (Reg.portStatus 1) (wd (0x3000 + v))
def ob : TrainObs := {nbDevice:=1,nbPort:=2,delay16:=77,nbFree:=[1,2,3,4,5,6,7,8]}
def lnb (v : Nat) : State := st1 v |> wrReg (Reg.neighbour 1) (neighbourWord ob)
def l2 : State := lnb 4 |> regsOf [(Reg.portBond 12, 2^63), (Reg.portStatus 12, 0x3004)]
def pk : Packet := {src:=5,dst:=0,opcode:=1,gen:=3,tag:=77,len4:=2,addr:=0x308,vc:=6}
def rtr (c : Option Nat) (p : Packet) : State := {net with net.routerQ := [(c,p),(none,pk)]}
def bd (s : State) : State := s |> wrReg (Reg.bond 0) 2
def bdd : State := bd (net |> cr 1)
  |> onBnd 0 (fun x => {x with dealing := [(3,mkFlit 5 1 0 0 0 0),(3,mkFlit 6 3 0 0 0 0)], pos := 4})
def bdq : State := bd (net |> cr 1)
  |> onBnd 0 (fun x => {x with queue := [(32,{pk with vc:=5,payload:=List.replicate 64 7})], pos := 4})
def xTxOff : State := onPrt 1 (fun x => { x with txOffUntil := some 1600000 }) (st1 1)
def xTrainMr : State := wrReg (Reg.neighbourExp 1) (wd (2 ^ 63 + 5)) (st1 2)
def xTrainF : TrainObs := { ob with laneMap := 2 }
def xMisMr : State := wrReg (Reg.neighbourExp 1) (wd (2 ^ 63 + 5)) (st1 6)
def xQualFr : State := wrReg (Reg.portStatus 1) 4099 (st1 3)
def xQualH : State := st1 3 |> wrReg (Reg.linkctl 1) 8 |> onPrt 1 (fun x => { x with nbAllowHalf := true })

/-- States and operands that meet the hypotheses of clauses of `Obligations.LinkTraining`. -/
theorem witness_LinkTraining :
    (portState lpp 1 ∈ [2, 3, 4, 5, 6, 8])
    ∧ (portState (st1 8) 1 ∈ [2, 3, 4, 5, 6, 8])
    ∧ ((prt xTxOff 1).txOffUntil = some 1600000 ∧ 1600000 < 2 ^ 64)
    ∧ (1 < portCount (st1 1) ∧ portState (st1 1) 1 = 1 ∧ domainIsOn (st1 1) (52 + 2 * (1 / 8)) = true
      ∧ 1 < licensedPorts (st1 1) ∧ (bondOf (st1 1) 1).isSome = true ∧ rdB (st1 1) (Reg.linkctl 1) 4 = false)
    ∧ (portState (st1 2) 1 = 2 ∧ trainWidth (st1 2) 1 ob = Sum.inl 3 ∧ expected (st1 2) 1 ob = true)
    ∧ (portState xTrainMr 1 = 2 ∧ trainWidth xTrainMr 1 ob = Sum.inl 3 ∧ expected xTrainMr 1 ob = false)
    ∧ (portState (st1 2) 1 = 2 ∧ trainWidth (st1 2) 1 xTrainF = Sum.inr 5)
    ∧ (portState (st1 2) 1 = 2)
    ∧ (portState (st1 6) 1 = 6 ∧ trainWidth (st1 6) 1 ob = Sum.inl 3 ∧ expected (st1 6) 1 ob = true)
    ∧ (portState xMisMr 1 = 6 ∧ trainWidth xMisMr 1 ob = Sum.inl 3 ∧ expected xMisMr 1 ob = false)
    ∧ (mayWrite (st1 6) Reg.Class.installer (Writer.path Path.pcie) = true ∧ 1 < portCount (st1 6))
    ∧ (portState (st1 3) 1 = 3 ∧ (addSeen [90, 4] 0 0 [] (prt (st1 3) 1)).testFails = 0)
    ∧ (portState xQualFr 1 = 3 ∧ rdF xQualFr (Reg.portStatus 1) 13 12 ≠ 3
      ∧ 0 < (addSeen [] 0 1 [] (prt xQualFr 1)).testFails)
    ∧ (portState xQualH 1 = 3 ∧ rdF xQualH (Reg.portStatus 1) 13 12 = 3 ∧ rdB xQualH (Reg.linkctl 1) 3 = true
      ∧ (prt xQualH 1).nbAllowHalf = true ∧ 0 < (addSeen [] 2 0 [] (prt xQualH 1)).testFails) := by
  and_intros <;> decide +kernel

def xRetrX : TrainObs := { ob with locked := false }
def xRetrMis : State := wrReg (Reg.neighbourExp 1) (wd (2 ^ 63 + 5)) (lnb 5)
def xRNowFrr : State := wrReg (Reg.linkctl 1) 16 (lnb 0)
def xRest2l : State := onPrt 1 (fun x => { x with replay := [], held := [] }) l2
def xRAck : State := onPrt 1 (fun x => { x with restPhase := 2 }) l2
def xRNakl : State := onPrt 1 (fun x => { x with restPhase := 2, since := 60 }) l2

/-- States and operands that meet the hypotheses of clauses of `Obligations.LinkRetrainingRestAndWake`. -/
theorem witness_LinkRetrainingRestAndWake :
    (portState lpp 1 = 4 ∧ (prt lpp 1).limitDone = none)
    ∧ (portState (lnb 5) 1 = 5 ∧ trainWidth (lnb 5) 1 ob = Sum.inl 3 ∧ neighbourDiffers (lnb 5) 1 ob = false
      ∧ expected (lnb 5) 1 ob = true)
    ∧ (portState xRetrMis 1 = 5 ∧ trainWidth xRetrMis 1 ob = Sum.inl 3 ∧ expected xRetrMis 1 ob = false)
    ∧ (portState (lnb 7) 1 = 7 ∧ LinkWriter (lnb 7) (Writer.path Path.i3c) 1 ∧ rdB (lnb 7) (Reg.linkctl 1) 4 = false)
    ∧ (portState (lnb 5) 1 = 5 ∧ trainWidth (lnb 5) 1 xRetrX = Sum.inr 8)
    ∧ (LinkWriter (lnb 4) (Writer.path Path.i3c) 1 ∧ portState (lnb 4) 1 = 4 ∧ rdB (lnb 4) (Reg.linkctl 1) 4 = false)
    ∧ (LinkWriter (lnb 4) (Writer.path Path.i3c) 1 ∧ rdB (lnb 4) (Reg.linkctl 1) 4 = false)
    ∧ (LinkWriter xRNowFrr (Writer.path Path.i3c) 1 ∧ rdB xRNowFrr (Reg.linkctl 1) 4 = true ∧ 1 < licensedPorts xRNowFrr
      ∧ (bondOf xRNowFrr 1).isSome = true)
    ∧ (LinkWriter l2 (Writer.path Path.i3c) 1 ∧ rdB l2 (Reg.linkctl 1) 4 = false ∧ portState l2 1 = 4
      ∧ mayNotRest l2 1 = false ∧ (prt l2 1).restPhase = 0)
    ∧ (LinkWriter xRest2l (Writer.path Path.i3c) 1 ∧ rdB xRest2l (Reg.linkctl 1) 4 = false ∧ portState xRest2l 1 = 4
      ∧ mayNotRest xRest2l 1 = false ∧ (prt xRest2l 1).restPhase = 0)
    ∧ (LinkWriter (lnb 4) (Writer.path Path.i3c) 1 ∧ rdB (lnb 4) (Reg.linkctl 1) 4 = false ∧ portState (lnb 4) 1 = 4
      ∧ mayNotRest (lnb 4) 1 = true)
    ∧ (portState l2 1 = 4 ∧ (prt l2 1).restPhase = 0 ∧ mayNotRest l2 1 = false)
    ∧ (portState xRest2l 1 = 4 ∧ (prt xRest2l 1).restPhase = 0 ∧ mayNotRest xRest2l 1 = false)
    ∧ (portState (lnb 4) 1 = 4 ∧ (prt (lnb 4) 1).restPhase = 0 ∧ mayNotRest (lnb 4) 1 = true)
    ∧ (portState xRAck 1 = 4 ∧ (prt xRAck 1).restPhase = 2)
    ∧ (portState xRNakl 1 = 4 ∧ (prt xRNakl 1).restPhase ≠ 0)
    ∧ (portState xRNakl 1 = 4 ∧ (prt xRNakl 1).restPhase ≠ 0 ∧ (prt xRNakl 1).since + 32000 < 2 ^ 64)
    ∧ (portState (lnb 8) 1 = 8 ∧ ob.locked = true ∧ expected (lnb 8) 1 ob = true ∧ neighbourDiffers (lnb 8) 1 ob = false)
    ∧ (portState (lnb 8) 1 = 8 ∧ xRetrX.locked = false)
    ∧ (portState (lnb 8) 1 = 8) := by
  and_intros <;> decide +kernel

def xRouteO : State := rtr (some 3) { pk with dst := 1 }
def xRouteO1 : Packet := { pk with dst := 1 }
def xRouteR : State := xRouteO |> regsOf [(Reg.portStatus 1, 0x3007)]
def xRouteN : State := rtr (some 3) { pk with dst := 9, opcode := 96 }
def xRouteN1 : Packet := { pk with dst := 9, opcode := 96 }

/-- States and operands that meet the hypotheses of clauses of `Obligations.PacketsAreRouted`. -/
theorem witness_PacketsAreRouted :
    ((rtr (some 3) pk).net.routerQ = [(some 3, pk), (none, pk)])
    ∧ ((rtr (some 3) pk).net.routerQ = [(some 3, pk), (none, pk)] ∧ isMgmt pk.opcode = false
      ∧ pk.dst = ownDev (rtr (some 3) pk))
    ∧ ((rtr (some 3) pk).net.routerQ = [(some 3, pk), (none, pk)] ∧ isMgmt pk.opcode = false)
    ∧ (xRouteO.net.routerQ = [(some 3, xRouteO1), (none, pk)] ∧ isMgmt xRouteO1.opcode = false
      ∧ xRouteO1.dst ≠ ownDev xRouteO ∧ egressBond xRouteO xRouteO1.epoch xRouteO1.dst = some 0
      ∧ bondAlive xRouteO 0 = true ∧ ∃ n ∈ bondPorts xRouteO 0, portState xRouteO n = 4)
    ∧ (xRouteR.net.routerQ = [(some 3, xRouteO1), (none, pk)] ∧ isMgmt xRouteO1.opcode = false
      ∧ xRouteO1.dst ≠ ownDev xRouteR ∧ egressBond xRouteR xRouteO1.epoch xRouteO1.dst = some 0
      ∧ (∀ m ∈ bondPorts xRouteR 0, portState xRouteR m ≠ 4)
      ∧ (bondPorts xRouteR 0).filter (fun m => portState xRouteR m = 7) = 1 :: [])
    ∧ (xRouteN.net.routerQ = [(some 3, xRouteN1), (none, pk)] ∧ isMgmt xRouteN1.opcode = false
      ∧ xRouteN1.dst ≠ ownDev xRouteN ∧ egressBond xRouteN xRouteN1.epoch xRouteN1.dst = none
      ∧ isRequest xRouteN1.opcode = false) := by
  and_intros <;> decide +kernel

def xDeal2 : Packet := { pk with vc := 5, payload := List.replicate 64 7 }
def xDealW : State := bdq |> regsOf [(Reg.creditState 1 5, 2 ^ 16)]
def xBRes : State := wrReg (Reg.neighbour 1) (wd (2 * 2 ^ 16)) net

/-- States and operands that meet the hypotheses of clauses of `Obligations.BondsDealAndFollow`. -/
theorem witness_BondsDealAndFollow :
    (
      (rotList (rotMask bdd 0) (bnd bdd 0).full)[((bnd bdd 0).pos - (bnd bdd 0).base)
        % (rotList (rotMask bdd 0) (bnd bdd 0).full).length]? = some 1 ∧ (bnd bdd 0).dealing = [(3, mkFlit 5 1 0 0 0 0), (3, mkFlit 6 3 0 0 0 0)])
    ∧ (
      (rotList (rotMask bdq 0) (bnd bdq 0).full)[((bnd bdq 0).pos - (bnd bdq 0).base)
        % (rotList (rotMask bdq 0) (bnd bdq 0).full).length]? = some 1
      ∧ shortOf bdq 0 xDeal2 = [] ∧ 0 < xDeal2.vc ∧ xDeal2.vc < 8 ∧ xDeal2.opcode ≠ 112
      ∧ (bnd bdq 0).dealing = [] ∧ (bnd bdq 0).queue = [(32, xDeal2)])
    ∧ (
      (rotList (rotMask xDealW 0) (bnd xDealW 0).full)[((bnd xDealW 0).pos - (bnd xDealW 0).base)
        % (rotList (rotMask xDealW 0) (bnd xDealW 0).full).length]? = some 1
      ∧ shortOf xDealW 0 xDeal2 ≠ [] ∧ (bnd xDealW 0).dealing = [] ∧ (bnd xDealW 0).queue = [(32, xDeal2)])
    ∧ (mergeLoad bdq 0 = 0)
    ∧ (portState xBRes 1 = 4 ∧ bondOf xBRes 1 = some 0 ∧ (∀ m ∈ bondPorts xBRes 0, m ≠ 1 → (prt xBRes m).rxq = [])
      ∧ ((if (bnd xBRes 0).restartMask = 4 then (bnd xBRes 0).restartSeen else 0) ||| 2 ^ rdF xBRes (Reg.neighbour 1) 20 16) &&& 4 = 4) := by
  refine ⟨?_, ?_, ?_, ?_, ?_⟩ <;> decide +kernel

end Part9


namespace Part10

def cr (n : Nat) (s : State) : State := s |> regsOf ((List.range 8).map (fun v => (Reg.creditState n v, 10*2^16)))
def lpp : State := net |> cr 1
  |> onPrt 1 (fun x => {x with replay := [{seq:=7,vc:=3},{seq:=8,vc:=5}], held := [{vc:=2}]})
def st1 (v : Nat) : State := lpp |> wrReg (Reg.portStatus 1) (wd (0x3000 + v))
def ob : TrainObs := {nbDevice:=1,nbPort:=2,delay16:=77,nbFree:=[1,2,3,4,5,6,7,8]}
def lnb (v : Nat) : State := st1 v |> wrReg (Reg.neighbour 1) (neighbourWord ob)
def l2 : State := lnb 4 |> regsOf [(Reg.portBond 12, 2^63), (Reg.portStatus 12, 0x3004)]
def pk : Packet := {src:=5,dst:=0,opcode:=1,gen:=3,tag:=77,len4:=2,addr:=0x308,vc:=6}
def rtr (c : Option Nat) (p : Packet) : State := {net with net.routerQ := [(c,p),(none,pk)]}
def bd (s : State) : State := s |> wrReg (Reg.bond 0) 2
def bdd : State := bd (net |> cr 1)
  |> onBnd 0 (fun x => {x with dealing := [(3,mkFlit 5 1 0 0 0 0),(3,mkFlit 6 3 0 0 0 0)], pos := 4})
def bdq : State := bd (net |> cr 1)
  |> onBnd 0 (fun x => {x with queue := [(32,{pk with vc:=5,payload:=List.replicate 64 7})], pos := 4})
def P : Writer := .path .pcie
def oldp : State := net |> onBnd 0 (fun x => {x with queue := [(3,{pk with epoch:=1})]})
def cmpk : Packet := {payload:=List.replicate 256 7, addr := 4096}
def stg : State := net |> regsOf [(Reg.stageGroup 0, 2^63 + 2*2^26), (Reg.stageGroup 1, 0), (Reg.stageMember 0,
  0x10001*2^32 + 0x00000007), (Reg.stageMember 1, 2^31+5)]
def iA : Inst := {gid:=5,epoch:=0,num:=0,pos:=0,tile:=3,tenant:=0,tag:=77,sub:=2,desc:={w0:=wd (5*2^48 + sramAddr 3 0x400),w1:=wd (sramAddr 3 0x800),w2:=wd (64*2^32)},todo:=[{phase:=0,peer:=1,share:=0,off:=0,len:=64,num:=0,place:=0}]}
def dr : State := {stg with coll.drain := some (5, {w0 := wd (2 ^ 63 + 2 ^ 36 + 2 ^ 26), w1 := 1}), coll.insts := [iA], coll.groups := []}
def cins : State := {(tile 3 1 2 net |> setCpl 77 {st:=.opened,kind:=.coll,tile:=some 3,gen:=4} |> putBytes (sramAddr 3 0x400) (List.replicate 64 9)) with coll.insts := [iA]}
def cpk (op : Nat) : Packet := {dst:=0,src:=1,opcode:=op,pos:=0,digit:=1,seg:=0,addr:=5*2^36 + 64,len4:=16,payload:=List.replicate 64 5}

/-- States and operands that meet the hypotheses of clauses of `Obligations.LinkRetrainingRestAndWake`. -/
theorem witness_LinkRetrainingRestAndWake2 :
    (portState (lnb 7) 1 = 7
      ∧ (WakeWhy.signal = WakeWhy.signal ∨ WakeWhy.signal = WakeWhy.packet ∨ ∃ who, WakeWhy.signal = WakeWhy.write who
      ∧ LinkWriter (lnb 7) who 1 ∧ rdB (lnb 7) (Reg.linkctl 1) 4 = false))
    ∧ (portState (lnb 7) 1 = 7
      ∧ (WakeWhy.write (Writer.path Path.pcie) = WakeWhy.signal ∨ WakeWhy.write (Writer.path Path.pcie) = WakeWhy.packet ∨ ∃ who, WakeWhy.write (Writer.path Path.pcie) = WakeWhy.write who
      ∧ LinkWriter (lnb 7) who 1 ∧ rdB (lnb 7) (Reg.linkctl 1) 4 = false)) :=
  ⟨ ⟨by decide +kernel, (Or.inl rfl)⟩, ⟨by decide +kernel, (Or.inr (Or.inr ⟨_, rfl, by decide +kernel⟩))⟩⟩

def xFlip2 : State := wrReg Reg.routeEpoch (2 ^ 32) net
def xMachNo : State := wrReg Reg.bringupStatus (wd (6 * 2 ^ 16 + 6 * 2 ^ 24 + 6 * 2 ^ 32 + 6 * 2 ^ 8 + 6 * 2 ^ 4 + 6 * 2 ^ 20 + 6 * 2 ^ 12)) net
def xPreset1 : State := wrReg Reg.capability (wd (32 * 2 ^ 8)) net
def xSnap : State := regsOf [(Reg.congLive 31 7 0, 5), (Reg.congLive 31 7 1, 2 ^ 63 + 6)] net
def xCmapHere : State := wrReg Reg.cmapBase 65536 target
def xCmapNo : State := wrReg Reg.cmapCtrl (wd (9 * 2 ^ 48)) target
def xCmapOn : State := wrReg Reg.cmapCtrl (wd (1 * 2 ^ 48)) target
def xCmapFull : State := onBnd 0 (fun x => { x with queue := List.replicate 64 (3, { cmpk with src := 2, opcode := cmapOpcode }) }) xCmapOn

/-- States and operands that meet the hypotheses of clauses of `Obligations.RoutesAndCongestionMap`. -/
theorem witness_RoutesAndCongestionMap :
    (mayWrite net Reg.Class.installer P = true ∧ true ≠ decide (injectEpoch net = 1) ∧ oldTotal net = 0)
    ∧ (mayWrite net Reg.Class.installer P = true ∧ (false = decide (injectEpoch net = 1) ∨ oldTotal net ≠ 0))
    ∧ (mayWrite oldp Reg.Class.installer P = true ∧ (true = decide (injectEpoch oldp = 1) ∨ oldTotal oldp ≠ 0))
    ∧ (mayWrite net Reg.Class.installer P = true ∧ oldTotal net = 0)
    ∧ (mayWrite xFlip2 Reg.Class.installer P = true ∧ oldTotal xFlip2 = 0)
    ∧ (mayWrite oldp Reg.Class.installer P = true ∧ oldTotal oldp ≠ 0)
    ∧ (mayWrite net Reg.Class.installer P = true ∧ reached net < 6
      ∧ 64 * machineCubes (wd (2 ^ 64 - 1 - 7 * 2 ^ 16 - 7 * 2 ^ 8 - 3 + 3 * 2 ^ 16 + 3 * 2 ^ 8 + 3)) ≤ maxDevices net)
    ∧ (mayWrite xMachNo Reg.Class.installer P = true ∧ 6 ≤ reached xMachNo)
    ∧ (reached net < 6 ∧ maxDevices net < 64 * machineCubes (wd (7 * 2 ^ 16 + 7 * 2 ^ 8 + 3)))
    ∧ (mayWrite net Reg.Class.installer P = true ∧ presetFits net (fld 1 1 0) = false ∧ fld (1 : Word) 1 0 < 2
      ∧ licensedPorts net ≠ 32)
    ∧ (mayWrite net Reg.Class.installer P = true ∧ presetFrozen net = false ∧ presetFits net (fld 2 1 0) = true)
    ∧ (mayWrite xPreset1 Reg.Class.installer P = true ∧ presetFrozen xPreset1 = false
      ∧ presetFits xPreset1 (fld 1 1 0) = true)
    ∧ (mayWrite (wrReg Reg.preset 257 net) Reg.Class.installer P = true ∧ presetFrozen (wrReg Reg.preset 257 net) = true)
    ∧ (mayWrite net Reg.Class.installer P = true ∧ 15 < portCount net ∧ presetFrozen net = false
      ∧ isSpare net 15 = true ∧ fld (wd (2 ^ 63 + 11)) 3 0 < 12)
    ∧ (mayWrite net Reg.Class.installer P = true ∧ 15 < portCount net ∧ presetFrozen net = false
      ∧ isSpare net 15 = true ∧ fld 11 3 0 < 12)
    ∧ (rdB xSnap Reg.cmapCtrl 63 = false ∧ mget 0 (prt xSnap 31).stall 7 = 0)
    ∧ ((cmpk.addr % 4096 = 0 ∨ cmpk.addr / 4096 ∉ xCmapHere.net.cmapGone) ∧ StackTakes xCmapHere 0 69632)
    ∧ (egressBond xCmapFull (injectEpoch xCmapFull) (rdF xCmapFull Reg.cmapCtrl 61 48) = some 0
      ∧ rdF xCmapFull Reg.cmapCtrl 61 48 ≠ ownDev xCmapFull ∧ 64 ≤ cmapWaiting xCmapFull)
    ∧ (cmpk.payload.length = 256 ∧ cmpk.addr + 256 ≤ 16384 * 4096 ∧ rdF xCmapHere Reg.cmapCtrl 61 48 = ownDev xCmapHere
      ∧ accessRange xCmapHere (BitVec.toNat (rd xCmapHere Reg.cmapBase) + cmpk.addr) 256 = some (Region.hbm 0 69632))
    ∧ (cmpk.payload.length = 256 ∧ cmpk.addr + 256 ≤ 16384 * 4096 ∧ rdF xCmapNo Reg.cmapCtrl 61 48 ≠ ownDev xCmapNo
      ∧ egressBond xCmapNo (injectEpoch xCmapNo) (rdF xCmapNo Reg.cmapCtrl 61 48) = none)
    ∧ (cmpk.payload.length = 256 ∧ cmpk.addr + 256 ≤ 16384 * 4096 ∧ rdF xCmapOn Reg.cmapCtrl 61 48 ≠ ownDev xCmapOn
      ∧ egressBond xCmapOn (injectEpoch xCmapOn) (rdF xCmapOn Reg.cmapCtrl 61 48) = some 0
      ∧ cmapWaiting xCmapOn < 64) := by
  and_intros <;> decide +kernel

def xGoBusy : State := { stg with coll := { stg.coll with drain := some (3, { }) } }
def xAbortOld : State := setCpl 77 { st := CplState.opened, kind := CplKind.coll, tile := some 3 } dr
def xAbortOld1 : Machine.Group := { w0 := wd (2 ^ 63 + 2 ^ 36 + 2 ^ 26), w1 := 1 }
def xCommit : State := { dr with coll := { dr.coll with insts := [] } }

/-- States and operands that meet the hypotheses of clauses of `Obligations.GroupUpdates`. -/
theorem witness_GroupUpdates :
    (mayWrite stg Reg.Class.operator P = true ∧ 9 = fld (wd (9 * 2 ^ 48 + 3)) 59 48 ∧ 3 = fld (wd (9 * 2 ^ 48 + 3)) 13 0
      ∧ stg.coll.drain = none ∧ bit (rd stg (Reg.stageGroup 0)) 63 = true
      ∧ 1 ≤ fld (rd stg (Reg.stageGroup 0)) 33 26 ∧ fld (rd stg (Reg.stageGroup 0)) 33 26 ≤ 64
      ∧ (∀ x ∈ List.map (stagedMember stg) (List.range 3), memberFine x = true)
      ∧ tenantOk stg (fld (rd stg (Reg.stageGroup 0)) 59 52) = true
      ∧ flattenGroup stg (fld (rd stg (Reg.stageGroup 0)) 59 52) (List.map (stagedMember stg) (List.range 3)) = some [7, 65537, 3, 65536]
      ∧ [7, 65537, 3, 65536].length ≤ 65536
      ∧ (fld (rd stg (Reg.stageGroup 1)) 31 0 = 0 → [7, 65537, 3, 65536].length ≤ 256)
      ∧ List.foldl (fun a b => a * b) 1 (shapeOf (stagedShape (rd stg (Reg.stageGroup 1)) [7, 65537, 3, 65536].length)) = [7, 65537, 3, 65536].length
      ∧ freeRun stg [7, 65537, 3, 65536].length = some 2 ∧ (groupOf stg 9).valid = false
      ∧ fld (rd stg (Reg.stageGroup 0)) 33 26 ≤ engineFree stg (pickEngine stg))
    ∧ (mayWrite xGoBusy Reg.Class.operator P = true ∧ 9 = fld (wd (9 * 2 ^ 48 + 3)) 59 48 ∧ xGoBusy.coll.drain ≠ none)
    ∧ (mayWrite stg Reg.Class.operator P = true ∧ 5 = fld (wd (5 * 2 ^ 48)) 59 48 ∧ stg.coll.drain = none
      ∧ (groupOf stg 5).valid = true)
    ∧ (mayWrite xAbortOld Reg.Class.operator P = true ∧ 5 = fld (wd (5 * 2 ^ 48)) 59 48
      ∧ xAbortOld.coll.drain = some (5, xAbortOld1))
    ∧ (mayWrite xCommit Reg.Class.operator P = true ∧ 5 = fld (wd (5 * 2 ^ 48)) 59 48 ∧ xCommit.coll.drain ≠ none
      ∧ oldInsts xCommit = 0) := by
  refine ⟨?_, ?_, ?_, ?_, ?_⟩ <;> decide +kernel

/-- The instance as another operation; a state with it. -/
def iSub (k : Nat) : Inst := { iA with sub := k, desc := { iA.desc with w2 := if k = 5 then wd (4 * 2 ^ 32) else iA.desc.w2, w3 := 8 } }
def subS (k : Nat) : State := { cins with coll := { cins.coll with insts := [iSub k] } }
def cpkOf (op n a : Nat) : Packet := { cpk op with addr := 5 * 2 ^ 36 + a, digit := if op = 0x43 then 0 else 1, payload := List.replicate n 5 }
/-- The group's buffer holds one early packet; it has room for 64 KiB. -/
def xFullB : State := { net with coll := { net.coll with early := List.replicate 1024 { cpk 64 with seg := 3 } } }
def xChunkl : Chunk := { src := 1, share := 1, off := 0, data := List.replicate 64 5, rows := 0 }
def xChunkA : Packet := { cpk 68 with status := 9 }
def xEarly : Packet := { cpk 64 with seg := 3 }
def xEarlyB : Packet := { cpk 66 with seg := 3, payload := [] }
def xDisc : Packet := { cpk 67 with pos := 1 }
def xDisc2 : Packet := { cpk 68 with addr := 0 }

/-- States and operands that meet the hypotheses of clauses of `Obligations.CollectivePackets`. -/
theorem witness_CollectivePackets :
    (
      (Instr.clData (cpk 65), 65) ∈ [(Instr.clReduce (cpk 65), 64), (Instr.clData (cpk 65), 65), (Instr.clBar (cpk 65), 66), (Instr.clCap (cpk 65), 67), (Instr.clAbort (cpk 65), 68)]
      ∧ (cpk 65).opcode = 65 ∧ List.find? (isOf (cpk 65)) cins.coll.insts = some iA
      ∧ groupAt cins iA.gid iA.epoch = some (groupOf cins 5) ∧ chunkOf (groupOf cins 5) iA (cpk 65) = some xChunkl
      ∧ (cpk 65).poison = false ∧ (cpk 65).late = false)
    ∧ (
      (Instr.clAbort xChunkA, 68) ∈ [(Instr.clReduce xChunkA, 64), (Instr.clData xChunkA, 65), (Instr.clBar xChunkA, 66), (Instr.clCap xChunkA, 67), (Instr.clAbort xChunkA, 68)]
      ∧ xChunkA.opcode = 68 ∧ List.find? (isOf xChunkA) cins.coll.insts = some iA
      ∧ groupAt cins iA.gid iA.epoch = some (groupOf cins 5) ∧ iA.sub ≠ 6 ∧ (cplOf cins iA.tag).st = CplState.opened)
    ∧ (
      (Instr.clReduce xEarly, 64) ∈ [(Instr.clReduce xEarly, 64), (Instr.clData xEarly, 65), (Instr.clBar xEarly, 66), (Instr.clCap xEarly, 67), (Instr.clAbort xEarly, 68)]
      ∧ xEarly.opcode = 64 ∧ List.find? (isOf xEarly) net.coll.insts = none ∧ isEarly net xEarly = true
      ∧ bufferBytes net (packetGid xEarly) + xEarly.payload.length ≤ (groupOf net (packetGid xEarly)).buf * 65536)
    ∧ (
      (Instr.clBar xEarlyB, 66) ∈ [(Instr.clReduce xEarlyB, 64), (Instr.clData xEarlyB, 65), (Instr.clBar xEarlyB, 66), (Instr.clCap xEarlyB, 67), (Instr.clAbort xEarlyB, 68)]
      ∧ xEarlyB.opcode = 66 ∧ List.find? (isOf xEarlyB) net.coll.insts = none ∧ isEarly net xEarlyB = true
      ∧ bufferBytes net (packetGid xEarlyB) + xEarlyB.payload.length ≤ (groupOf net (packetGid xEarlyB)).buf * 65536)
    ∧ (
      (Instr.clCap xDisc, 67) ∈ [(Instr.clReduce xDisc, 64), (Instr.clData xDisc, 65), (Instr.clBar xDisc, 66), (Instr.clCap xDisc, 67), (Instr.clAbort xDisc, 68)]
      ∧ xDisc.opcode = 67 ∧ List.find? (isOf xDisc) net.coll.insts = none ∧ isEarly net xDisc = false)
    ∧ (
      (Instr.clAbort xDisc2, 68) ∈ [(Instr.clReduce xDisc2, 64), (Instr.clData xDisc2, 65), (Instr.clBar xDisc2, 66), (Instr.clCap xDisc2, 67), (Instr.clAbort xDisc2, 68)]
      ∧ xDisc2.opcode = 68 ∧ List.find? (isOf xDisc2) net.coll.insts = none ∧ isEarly net xDisc2 = false) := by
  and_intros <;> decide +kernel

/-- Chunks of a reduction, a barrier and a capacity share that join, and an early packet of a full buffer. -/
theorem witness_CollectivePackets_chunks :
    (∀ q ∈ [(0, cpkOf 0x40 64 0), (6, cpkOf 0x42 16 0), (5, cpkOf 0x43 36 32)],
        List.find? (isOf q.2) (subS q.1).coll.insts = some (iSub q.1)
          ∧ groupAt (subS q.1) (iSub q.1).gid (iSub q.1).epoch = some (groupOf cins 5)
          ∧ (chunkOf (groupOf cins 5) (iSub q.1) q.2).isSome = true ∧ q.2.poison = false ∧ q.2.late = false)
    ∧ (cplOf cins iA.tag).damaged = false
    ∧ (List.find? (isOf xEarly) xFullB.coll.insts = none ∧ isEarly xFullB xEarly = true
      ∧ (groupOf xFullB (packetGid xEarly)).buf * 65536 < bufferBytes xFullB (packetGid xEarly) + xEarly.payload.length) := by
  refine ⟨?_, ?_, ?_⟩ <;> decide +kernel

end Part10


namespace Part11

def P : Writer := .path .pcie
def iA : Inst := {gid:=5,epoch:=0,num:=0,pos:=0,tile:=3,tenant:=0,tag:=77,sub:=0,loaded:=true,desc:={w0:=wd (5*2^48 + sramAddr 3 0x400),w1:=wd (sramAddr 3 0x800),w2:=wd (64*2^32)},hold:=[(0,0,List.replicate 64 1)],todo:=[{phase:=0,peer:=1,share:=0,off:=0,len:=32,num:=0,place:=0}]}
def cins : State := {(tile 3 1 2 net |> setCpl 77 {st:=.opened,kind:=.coll,tile:=some 3,gen:=4} |> putBytes (sramAddr 3 0x400) (List.replicate 64 9)) with coll := {net.coll with insts := [iA]}}
def hs : Staged := {port:=1,tag:=77,pkt:={dst:=1,opcode:=0x40}, stagedAt:=90, tick:=100, coll:=some (5,0,0)}
def clate : State := {cins with net := {cins.net with staged := [hs, {hs with coll := none}]}}
def iB : Inst := {iA with todo := [], hold:=[(0,1,List.replicate 64 1)]}
def cfin : State := {cins with coll := {cins.coll with insts := [iB]}}
  |> regsOf ((List.range 16).map (fun b => (Reg.bankOwner 3 b, (0x200 + (groupOf net 5).engine)*2^16)))
def cvu1 : State := up |> regsOf [(Reg.cvuRxMatch 9, 4096), (Reg.cvuRxLen 9, 512)]
def cvu2 : State := cvu1 |> regsOf [(Reg.cvuStatus 9, 1), (Reg.cvuCfg 9, 2^63+2^8)]
  |> setCvu 9 {base:=4096,total:=8,bytes:=(List.range 8).map (fun i => (i, 7)),counted:=List.range 8,tag:=some 77}
  |> setCpl 77 {st:=.opened,kind:=.store,tile:=some 3,answered:=true,cvu:=some 9}
def q0 : State := up |> regsOf [(Reg.sqBase 5, 0x1000), (Reg.cqBase 5, 0x2000), (Reg.qCtrl 5, 2^59)]
def q1 : State := {(q0 |> regsOf [(Reg.qCtrl 5, 2^63+2^59+3*2^16), (Reg.qStatus 5, 1), (Reg.sqTail 5, 9)]) with host := {queues := [(5, {ready:=3, slots:=[(0,wd (2^31)),(1,wd (2^31+1))], fetched:=[⟨0,[1]⟩]})]}}
def q2 : State := {q1 with host := {queues := [(5, {})]}}
def q3 : State := {(target |> regsOf [(Reg.sqBase 5, 0x10000), (Reg.cqBase 5, 0x20000),(Reg.qCtrl 5, 2^63+2^62+2^61+2^59+3*2^16), (Reg.sqTail 5, 9)]) with host := {queues := [(5, {ready:=3, slots:=[(0,wd (2^31)),(1,wd (2^31+1))], fetched:=[⟨0,[1]⟩]})]}}

/-- States and operands that meet the hypotheses of clauses of `Obligations.CollectivesSendAndComplete`. -/
theorem witness_CollectivesSendAndComplete :
    (instsAt cins 5 0 0 = [iA] ∧ groupAt cins iA.gid iA.epoch = some (groupOf cins 5) ∧ iA.loaded = true
      ∧ cins.coll.early = [] ∧ iA.pitch = false ∧ sendable (groupOf cins 5) iA ≠ [])
    ∧ (instsAt clate 5 0 0 = [iA] ∧ groupAt clate iA.gid iA.epoch = some (groupOf cins 5) ∧ iA.loaded = true)
    ∧ (instsAt cfin 5 0 0 = [iB] ∧ groupAt cfin iB.gid iB.epoch = some (groupOf cins 5) ∧ iB.loaded = true
      ∧ finalBytes (groupOf cins 5) iB = some (List.replicate 64 1) ∧ iB.sub ≠ 6 ∧ iB.todo = []
      ∧ (∀ h ∈ cfin.net.staged, h.coll ≠ some (iB.gid, iB.num, iB.pos))
      ∧ iB.output = {} ∧ (cplOf cfin iB.tag).damaged = false
      ∧ banksClear cfin 1 (sramAddr 3 2048) (max 1 (resultOf (groupOf cins 5) iB (List.replicate 64 1)).length) = true
      ∧ heldBefore cfin 1 (banksAt (sramAddr 3 2048) (max 1 (resultOf (groupOf cins 5) iB (List.replicate 64 1)).length)) = false
      ∧ engineReach cfin (engineAccess cfin (groupOf cins 5) iB AccOp.write iB.desc.dst (resultOf (groupOf cins 5) iB (List.replicate 64 1)) (resultOf (groupOf cins 5) iB (List.replicate 64 1)).length) = Reach.found (Region.sram 0 3 2048)
      ∧ (∀ v ∈ unitsOf (sramAddr 3 2048) (resultOf (groupOf cins 5) iB (List.replicate 64 1)).length, eccOf cfin v = Ecc.clean)
      ∧ (cplOf cfin iB.tag).st = CplState.opened ∧ (cplOf cfin iB.tag).firstErr = 0 ∧ (cplOf cfin iB.tag).cvu = none
      ∧ (∀ (w : ℕ), (cplOf cfin iB.tag).tile = some w → (tl cfin w).wait = none)
      ∧ (cplOf cfin iB.tag).sink = Sink.none) := by
  refine ⟨?_, ?_, ?_⟩ <;> decide +kernel

def xCvuCfgRef : State := wrReg (Reg.cvuStatus 9) 1 cvu1

/-- States and operands that meet the hypotheses of clauses of `Obligations.CheckValues`. -/
theorem witness_CheckValues :
    (mayWrite cvu1 Reg.Class.operator (Writer.path Path.pcie) = true ∧ cvuState cvu1 9 ≠ 1
      ∧ fld (wd (2 ^ 63 + 2 ^ 8) &&& wd (Reg.kind (Reg.cvuCfg 9)).rw) 9 8 ≠ 0
      ∧ tenantOk cvu1 (fld (wd (2 ^ 63 + 2 ^ 8) &&& wd (Reg.kind (Reg.cvuCfg 9)).rw) 55 48) = true
      ∧ fld (wd (2 ^ 63 + 2 ^ 8) &&& wd (Reg.kind (Reg.cvuCfg 9)).rw) 61 60 = 0)
    ∧ (mayWrite cvu1 Reg.Class.operator (Writer.path Path.pcie) = true ∧ cvuState cvu1 9 ≠ 1
      ∧ fld (wd (2 ^ 63 + 2 ^ 60 + 2 ^ 8) &&& wd (Reg.kind (Reg.cvuCfg 9)).rw) 9 8 ≠ 0
      ∧ tenantOk cvu1 (fld (wd (2 ^ 63 + 2 ^ 60 + 2 ^ 8) &&& wd (Reg.kind (Reg.cvuCfg 9)).rw) 55 48) = true
      ∧ fld (wd (2 ^ 63 + 2 ^ 60 + 2 ^ 8) &&& wd (Reg.kind (Reg.cvuCfg 9)).rw) 61 60 = 1
      ∧ bit (wd (2 ^ 63 + 2 ^ 60 + 2 ^ 8) &&& wd (Reg.kind (Reg.cvuCfg 9)).rw) 63 = true)
    ∧ (mayWrite xCvuCfgRef Reg.Class.operator (Writer.path Path.pcie) = true ∧ cvuState xCvuCfgRef 9 = 1
      ∧ rdF xCvuCfgRef (Reg.cvuCfg 9) 61 60 = 0)
    ∧ (cvuState cvu2 9 = 1 ∧ (cplOf cvu2 77).damaged = false ∧ (cplOf cvu2 77).cvu = some 9 ∧ (cvuOf cvu2 9).total ≤ (cvuOf cvu2 9).counted.length
      ∧ bit (rd cvu2 (Reg.cvuCfg 9)) 15 = false) := by
  refine ⟨?_, ?_, ?_, ?_⟩ <;> decide +kernel

def xRtc0 : State := wrReg (Reg.cqHead 5) 7 q3

/-- States and operands that meet the hypotheses of clauses of `Obligations.QueueRegisters`. -/
theorem witness_QueueRegisters :
    (mayWrite q0 Reg.Class.operator (Writer.path Path.pcie) = true
      ∧ fld (wd (2 ^ 59 + 2 ^ 16) &&& wd qCtrlMask) 60 59 < 2
      ∧ tenantOk q0 (fld (wd (2 ^ 59 + 2 ^ 16) &&& wd qCtrlMask) 55 48) = true ∧ qEnabled q0 5 = false
      ∧ bit (wd (2 ^ 59 + 2 ^ 16) &&& wd qCtrlMask) 63 = false)
    ∧ (mayWrite q0 Reg.Class.operator (Writer.path Path.pcie) = true
      ∧ fld (wd (2 ^ 63 + 2 ^ 59 + 2 ^ 16) &&& wd qCtrlMask) 60 59 < 2
      ∧ tenantOk q0 (fld (wd (2 ^ 63 + 2 ^ 59 + 2 ^ 16) &&& wd qCtrlMask) 55 48) = true ∧ qEnabled q0 5 = false
      ∧ bit (wd (2 ^ 63 + 2 ^ 59 + 2 ^ 16) &&& wd qCtrlMask) 63 = true
      ∧ bit (wd (2 ^ 63 + 2 ^ 59 + 2 ^ 16) &&& wd qCtrlMask) 62 = false
      ∧ bit (wd (2 ^ 63 + 2 ^ 59 + 2 ^ 16) &&& wd qCtrlMask) 61 = false
      ∧ BitVec.toNat (rd q0 (Reg.sqBase 5)) % 4096 = 0 ∧ BitVec.toNat (rd q0 (Reg.cqBase 5)) % 4096 = 0)
    ∧ (mayWrite q1 Reg.Class.operator (Writer.path Path.pcie) = true
      ∧ fld (wd (2 ^ 59 + 3 * 2 ^ 16) &&& wd qCtrlMask) 60 59 < 2
      ∧ tenantOk q1 (fld (wd (2 ^ 59 + 3 * 2 ^ 16) &&& wd qCtrlMask) 55 48) = true ∧ qEnabled q1 5 = true
      ∧ qCtrlDiffers (rd q1 (Reg.qCtrl 5)) (wd (2 ^ 59 + 3 * 2 ^ 16) &&& wd qCtrlMask) = false
      ∧ bit (wd (2 ^ 59 + 3 * 2 ^ 16) &&& wd qCtrlMask) 63 = false)
    ∧ (mayWrite q1 Reg.Class.operator (Writer.path Path.pcie) = true
      ∧ fld (wd (2 ^ 63 + 2 ^ 59 + 4 * 2 ^ 16) &&& wd qCtrlMask) 60 59 < 2
      ∧ tenantOk q1 (fld (wd (2 ^ 63 + 2 ^ 59 + 4 * 2 ^ 16) &&& wd qCtrlMask) 55 48) = true ∧ qEnabled q1 5 = true
      ∧ qCtrlDiffers (rd q1 (Reg.qCtrl 5)) (wd (2 ^ 63 + 2 ^ 59 + 4 * 2 ^ 16) &&& wd qCtrlMask) = true)
    ∧ (mayWrite q0 Reg.Class.operator (Writer.path Path.pcie) = true ∧ fld 7 18 0 < sqSize q0 5 ∧ qEnabled q0 5 = false)
    ∧ (mayWrite q1 Reg.Class.operator (Writer.path Path.pcie) = true ∧ fld 12 18 0 < sqSize q1 5
      ∧ (rdF q1 (Reg.sqTail 5) 18 0 + sqSize q1 5 - sqHead q1 5) % sqSize q1 5 ≤ (fld 12 18 0 + sqSize q1 5 - sqHead q1 5) % sqSize q1 5)
    ∧ (mayWrite q1 Reg.Class.operator (Writer.path Path.pcie) = true ∧ sqSize q1 5 ≤ fld 16 18 0)
    ∧ (mayWrite q1 Reg.Class.operator (Writer.path Path.pcie) = true ∧ qCqDevice q1 5 = false
      ∧ cqHeadOf q1 5 < cqSize q1 5 ∧ fld 2 18 0 = (cqHeadOf q1 5 + 2) % cqSize q1 5 ∧ 2 < cqSize q1 5
      ∧ 2 ≤ (hq q1 5).ready ∧ bit 2 63 = false)
    ∧ (mayWrite q2 Reg.Class.operator (Writer.path Path.pcie) = true ∧ qCqDevice q2 5 = false
      ∧ cqHeadOf q2 5 < cqSize q2 5 ∧ fld (wd (2 ^ 63)) 18 0 = cqHeadOf q2 5 ∧ bit (wd (2 ^ 63)) 63 = true
      ∧ (hq q2 5).ready = 0)
    ∧ (mayWrite (msixPut 0 7 0 q1) Reg.Class.operator (Writer.path Path.pcie) = true
      ∧ qCqDevice (msixPut 0 7 0 q1) 5 = false ∧ cqHeadOf (msixPut 0 7 0 q1) 5 < cqSize (msixPut 0 7 0 q1) 5
      ∧ fld (wd (2 ^ 63)) 18 0 = cqHeadOf (msixPut 0 7 0 q1) 5 ∧ bit (wd (2 ^ 63)) 63 = true
      ∧ 0 < (hq (msixPut 0 7 0 q1) 5).ready
      ∧ rdF (msixPut 0 7 0 q1) (Reg.qCtrl 5) 26 16 < msixCount (qFunction (msixPut 0 7 0 q1) 5)
      ∧ bit (msixWord (msixPut 0 7 0 q1) (qFunction (msixPut 0 7 0 q1) 5) (2 * rdF (msixPut 0 7 0 q1) (Reg.qCtrl 5) 26 16 + 1)) 32 = false)
    ∧ (mayWrite q1 Reg.Class.operator (Writer.path Path.pcie) = true ∧ cqSize q1 5 ≤ fld (wd (2 ^ 63 + 16)) 18 0)
    ∧ (mayWrite q3 Reg.Class.operator (Writer.path Path.pcie) = true ∧ qCqDevice q3 5 = true
      ∧ bit (mget 0 (hq q3 5).slots (cqHeadOf q3 5)) 31 = true
      ∧ (ringAccess q3 5 (BitVec.toNat (rd q3 (Reg.cqBase 5)) + 32 * cqHeadOf q3 5) AccOp.write (wordsBytes [setBit (mget 0 (hq q3 5).slots (cqHeadOf q3 5)) 31 false, Config.freeWord q3.free, Config.freeWord (q3.free + 1), Config.freeWord (q3.free + 2)]) 32 Reply.none).isSome = true
      ∧ StackTakes q3 (131072 / 0x1800000000) (131072 % 0x1800000000) ∧ BitVec.toNat (rd q3 (Reg.cqBase 5)) + 32 * cqHeadOf q3 5 = 131072)
    ∧ (mayWrite xRtc0 Reg.Class.operator (Writer.path Path.pcie) = true ∧ qCqDevice xRtc0 5 = true
      ∧ bit (mget 0 (hq xRtc0 5).slots (cqHeadOf xRtc0 5)) 31 = false) := by
  and_intros <;> decide +kernel

end Part11


namespace Part12

def P : Writer := .path .pcie
def qh : State := {(up |> regsOf [(Reg.sqBase 5, 0x1000), (Reg.cqBase 5, 0x2000), (Reg.qCtrl 5, 2^63+2^59+3*2^16), (Reg.qStatus 5, 1), (Reg.sqTail 5, 9), (Reg.hostStatus, 1)]) with boot := {up.boot with dmaRun := true, jobFetch := true}}
def q3 : State := {(target |> regsOf [(Reg.sqBase 5, 0x10000), (Reg.cqBase 5, 0x20000),(Reg.qCtrl 5, 2^63+2^62+2^61+2^59+3*2^16), (Reg.sqTail 5, 9)]) with boot := {up.boot with dmaRun := true, jobFetch := true}}
def qr : State := {qh with host := {queues := [(5, {reserved:=2,records := [⟨9,7,5⟩,⟨1,1,0⟩]})]}}
def en (t : Nat) (a2 : Word) : Entry := ⟨7, [wd (t*2^56+3), 0x8000, a2, 4096, 0,0,0,0]⟩
def qe (e : Entry) : State := {qh with host := {queues := [(5, {reserved:=2,fetched:=[e, ⟨8,[]⟩]})]}}
def qn (e : Entry) : State := {net with regs := (qh.regs ++ net.regs).foldl (fun m p => mset 0 m p.1 p.2) [], boot := qh.boot, host := {queues := [(5, {reserved:=2,fetched:=[e, ⟨8,[]⟩]})]}}
def qf (e : Entry) : State := regsOf [(Reg.ethFlow 3 2, 2^63), (Reg.ethFlow 3 3, 16)] (qn e)
def qrd : State := {qh with host := {queues := [(5, {reserved:=2,reading:=true,fetched:=[⟨8,[]⟩]})], reads := [(4,.dma 7 0),(11,.entry 5 9)]}}
def qv : State := up |> regsOf [(Reg.qCtrl 5, 4*2^48),(Reg.hostStatus, 1)]
def qb : State := {qv with host := {qv.host with nextId := 5, barReads := [⟨4,.pf,3⟩,⟨5,.pf,7⟩]}}
def qz : State := {qb with regs := (wrReg Reg.authStatus 0 qb).regs}
def fl : State := {(tile 7 1 2 (tile 3 1 2 (up |> regsOf [(Reg.qCtrl 5, 2^63+4*2^48),(Reg.qCtrl 6, 2^63+2*2^48), (Reg.qStatus 5,1),(Reg.qStatus 6,1), (Reg.hostStatus, 1), (Reg.vfAperture 4 1, 77)]))) with host := {jobs := [⟨5,0,4,3,3,0,0,false,[],0,0,false,false,0⟩], queues := [(5,{})]}}
def ef : EthFlow := {txSeq:=9,rxSeq:=4,unacked:=[(5,0,[1,2,3]),(6,3,[4]),(7,4,[5,6])],sentAt:=100}
def et : State := {(target |> regsOf [(Reg.ethCtrl, 2^63),(Reg.ethFlow 3 2, 2^63+0x4000), (Reg.ethFlow 3 3, 5*2^40+10*2^32+16)]) with host := {flows := [(3, ef)]}}
def eo : State := {et with host := {flows := [(3, {ef with tag:=some 9})]}}
  |> setCpl 9 {st:=.opened,kind:=.eth,items:=3,expect:=12,got:=6}
def xFetchDn : State := wrReg Reg.hostStatus 0 qh
def xRecW : QRec := { idx := 9, status := 7, check := 5 }
def xRecW1 : QRec := { idx := 1, status := 1 }
def xToDev : Entry := { idx := 8, words := [] }

/-- States and operands that meet the hypotheses of clauses of `Obligations.QueueEngine`. -/
theorem witness_QueueEngine :
    (mayFetch qh 5 = true ∧ qSqDevice qh 5 = false ∧ hostUp qh = true)
    ∧ (mayFetch xFetchDn 5 = true ∧ qSqDevice xFetchDn 5 = false ∧ hostUp xFetchDn = false)
    ∧ (mayFetch q3 5 = true ∧ qSqDevice q3 5 = true
      ∧ ringAccess q3 5 (BitVec.toNat (rd q3 (Reg.sqBase 5)) + 64 * sqHead q3 5) AccOp.read [] 64 (Reply.entry 5 (sqHead q3 5)) = some ((ringAccess q3 5 65536 AccOp.read [] 64 (Reply.entry 5 0)).getD default)
      ∧ StackTakes q3 (65536 / 0x1800000000) (65536 % 0x1800000000) ∧ ((ringAccess q3 5 65536 AccOp.read [] 64 (Reply.entry 5 0)).getD default).addr = 65536)
    ∧ ((hq qr 5).records = [xRecW, xRecW1] ∧ qCqDevice qr 5 = false ∧ (hq qr 5).armed = false)
    ∧ ((hostUp (qe (en 16 16384)) = true ∧ bit ((en 16 16384).word 0) 15 = false
      ∧ targetOf (qe (en 16 16384)) ((en 16 16384).word 2) false = Target.own 16384
      ∧ FrontIs (qe (en 16 16384)) 5 16 (en 16 16384) [xToDev])
      ∧ (∃ k, (pickTag (qTenant (qe (en 16 16384)) 5) (qe (en 16 16384))).1 = some k))
    ∧ ((hostUp (qn (en 17 (far 16384))) = true ∧ bit ((en 17 (far 16384)).word 0) 15 = false
      ∧ targetOf (qn (en 17 (far 16384))) ((en 17 (far 16384)).word 2) false = Target.device 1 16384
      ∧ 1 ≠ ownDev (qn (en 17 (far 16384))) ∧ FrontIs (qn (en 17 (far 16384))) 5 17 (en 17 (far 16384)) [xToDev])
      ∧ (∃ k, (pickTag (qTenant (qn (en 17 (far 16384))) 5) (qn (en 17 (far 16384)))).1 = some k))
    ∧ ((hostUp (qf (en 18 (far 16384))) = true ∧ bit ((en 18 (far 16384)).word 0) 15 = false
      ∧ targetOf (qf (en 18 (far 16384))) ((en 18 (far 16384)).word 2) false = Target.device 1 16384
      ∧ 1 ≠ ownDev (qf (en 18 (far 16384))) ∧ bit (flowWord (qf (en 18 (far 16384))) 3 2) 63 = true
      ∧ bit (flowWord (qf (en 18 (far 16384))) 3 2) 61 = false ∧ (flowOf (qf (en 18 (far 16384))) 3).tag = none
      ∧ FrontIs (qf (en 18 (far 16384))) 5 18 (en 18 (far 16384)) [xToDev])
      ∧ (∃ k, (pickTag (qTenant (qf (en 18 (far 16384))) 5) (qf (en 18 (far 16384)))).1 = some k))
    ∧ (List.find? (fun r => r.1 == 11) qrd.host.reads = some (11, HostRead.entry 5 9)
      ∧ (List.map (fun k => BitVec.ofNat 8 k) (List.range 64)).length = 64 ∧ qEnabled qrd 5 = true)
    ∧ (List.find? (fun r => r.1 == 11) qrd.host.reads = some (11, HostRead.entry 5 9) ∧ qEnabled qrd 5 = true) :=
  ⟨ by decide +kernel, by decide +kernel, by decide +kernel, by decide +kernel
  , ⟨by decide +kernel, (pickTag_some _ _ (by decide +kernel) (by decide +kernel))⟩
  , ⟨by decide +kernel, (pickTag_some _ _ (by decide +kernel) (by decide +kernel))⟩
  , ⟨by decide +kernel, (pickTag_some _ _ (by decide +kernel) (by decide +kernel))⟩, by decide +kernel
  , by decide +kernel⟩

def xBarT : BarRead := { id := 5, fn := HostFn.pf, at_ := 7 }

/-- States and operands that meet the hypotheses of clauses of `Obligations.HostInterface`. -/
theorem witness_HostInterface :
    (16384 < 2 ^ 48 ∧ accessRange target 16384 64 = some (Region.hbm 0 16384) ∧ fenceState target 0 = 0
      ∧ StackTakes target 0 16384 ∧ hostPowered target = true
      ∧ OneLine { op := .read, addr := 16384, len := 64, agent := 0x300, tenant := 0, reply := .bar 0 })
    ∧ (hostPowered (wrReg Reg.domainStatus (wd (2 ^ 64 - 1 - 2 ^ 60)) target) = false ∧ hostPowered qv = true)
    ∧ (tenantOk qv 2 = true ∧ 328 % 8 = 0 ∧ 2 ≠ qTenant qv (328 / 64))
    ∧ (tenantOk qv 2 = true ∧ 328 % 8 = 0 ∧ 2 ≠ qTenant qv (328 / 64) ∧ [1, 2, 3, 4, 5, 6, 7, 8].length = 8)
    ∧ ([1, 2, 3, 4, 5, 6, 7, 8].length = 8 ∧ (0, 9 / 2) ∉ qv.host.pba)
    ∧ (List.find? (fun r => r.id == qb.host.nextId) qb.host.barReads = some xBarT ∧ xBarT.at_ + 12800000 < 2 ^ 64)
    ∧ (
      Reg.faultCtrl ∈ [Reg.faultCtrl, Reg.smdCtrl, Reg.fenceDrain, Reg.capLease, Reg.extThrottle, Reg.shiftCtrl, Reg.forecastCtrl, Reg.timeSyncWait, Reg.copyAllow]
      ∧ mayWrite qb (Reg.kind Reg.faultCtrl).cls (Writer.path Path.pcie) = true)
    ∧ (
      Reg.smdCtrl ∈ [Reg.faultCtrl, Reg.smdCtrl, Reg.fenceDrain, Reg.capLease, Reg.extThrottle, Reg.shiftCtrl, Reg.forecastCtrl, Reg.timeSyncWait, Reg.copyAllow]
      ∧ mayWrite qb (Reg.kind Reg.smdCtrl).cls (Writer.path Path.pcie) = true)
    ∧ (
      Reg.fenceDrain ∈ [Reg.faultCtrl, Reg.smdCtrl, Reg.fenceDrain, Reg.capLease, Reg.extThrottle, Reg.shiftCtrl, Reg.forecastCtrl, Reg.timeSyncWait, Reg.copyAllow]
      ∧ mayWrite qb (Reg.kind Reg.fenceDrain).cls (Writer.path Path.pcie) = true)
    ∧ (
      Reg.capLease ∈ [Reg.faultCtrl, Reg.smdCtrl, Reg.fenceDrain, Reg.capLease, Reg.extThrottle, Reg.shiftCtrl, Reg.forecastCtrl, Reg.timeSyncWait, Reg.copyAllow]
      ∧ mayWrite qb (Reg.kind Reg.capLease).cls (Writer.path Path.pcie) = true)
    ∧ (
      Reg.extThrottle ∈ [Reg.faultCtrl, Reg.smdCtrl, Reg.fenceDrain, Reg.capLease, Reg.extThrottle, Reg.shiftCtrl, Reg.forecastCtrl, Reg.timeSyncWait, Reg.copyAllow]
      ∧ mayWrite qb (Reg.kind Reg.extThrottle).cls (Writer.path Path.pcie) = true)
    ∧ (
      Reg.shiftCtrl ∈ [Reg.faultCtrl, Reg.smdCtrl, Reg.fenceDrain, Reg.capLease, Reg.extThrottle, Reg.shiftCtrl, Reg.forecastCtrl, Reg.timeSyncWait, Reg.copyAllow]
      ∧ mayWrite qb (Reg.kind Reg.shiftCtrl).cls (Writer.path Path.pcie) = true)
    ∧ (
      Reg.forecastCtrl ∈ [Reg.faultCtrl, Reg.smdCtrl, Reg.fenceDrain, Reg.capLease, Reg.extThrottle, Reg.shiftCtrl, Reg.forecastCtrl, Reg.timeSyncWait, Reg.copyAllow]
      ∧ mayWrite qb (Reg.kind Reg.forecastCtrl).cls (Writer.path Path.pcie) = true)
    ∧ (
      Reg.timeSyncWait ∈ [Reg.faultCtrl, Reg.smdCtrl, Reg.fenceDrain, Reg.capLease, Reg.extThrottle, Reg.shiftCtrl, Reg.forecastCtrl, Reg.timeSyncWait, Reg.copyAllow]
      ∧ mayWrite qb (Reg.kind Reg.timeSyncWait).cls (Writer.path Path.pcie) = true)
    ∧ (
      Reg.copyAllow ∈ [Reg.faultCtrl, Reg.smdCtrl, Reg.fenceDrain, Reg.capLease, Reg.extThrottle, Reg.shiftCtrl, Reg.forecastCtrl, Reg.timeSyncWait, Reg.copyAllow]
      ∧ mayWrite qb (Reg.kind Reg.copyAllow).cls (Writer.path Path.pcie) = true)
    ∧ (
      Reg.capLease ∈ [Reg.faultCtrl, Reg.smdCtrl, Reg.fenceDrain, Reg.capLease, Reg.extThrottle, Reg.shiftCtrl, Reg.forecastCtrl, Reg.timeSyncWait, Reg.copyAllow]
      ∧ mayWrite qz (Reg.kind Reg.capLease).cls (Writer.path Path.pcie) = false)
    ∧ (8 ∈ [1, 2, 4, 8, 16]) := by
  and_intros <;> decide +kernel

def xEMal : EthFrame := { malformed := true }
def xEBig : EthFrame := { flow := 256 }
def xEOoo : EthFrame := { flow := 3, seq := 5 }
def xEEmp : EthFrame := { flow := 3, seq := 4 }
def xEIn : EthFrame := { flow := 3, seq := 4, offset := 64, payload := [9, 8, 7, 6, 5, 4, 3, 2] }
def xEAck : EthFrame := { kind := 2, flow := 3, ack := 7 }
def xEAckF : EthFrame := { kind := 2, flow := 3, ack := 8 }

/-- States and operands that meet the hypotheses of clauses of `Obligations.OrdinaryNetwork`. -/
theorem witness_OrdinaryNetwork :
    (xEMal.malformed = true ∧ hostPowered et = true ∧ hostPowered eo = true
      ∧ hostPowered (wrReg Reg.domainStatus (wd (2 ^ 64 - 1 - 2 ^ 60)) et) = false)
    ∧ (xEBig.malformed = false ∧ (rdB et Reg.ethCtrl 63 = false ∨ 256 ≤ xEBig.flow))
    ∧ (xEOoo.malformed = false ∧ xEOoo.flow = 3 ∧ rdB et Reg.ethCtrl 63 = true ∧ bit (flowWord et 3 2) 63 = true
      ∧ flowPort et 3 = 0 ∧ xEOoo.kind = 1 ∧ xEOoo.seq ≠ (flowOf et 3).rxSeq)
    ∧ (xEEmp.malformed = false ∧ xEEmp.flow = 3 ∧ rdB et Reg.ethCtrl 63 = true ∧ bit (flowWord et 3 2) 63 = true
      ∧ flowPort et 3 = 0 ∧ xEEmp.kind = 1 ∧ xEEmp.seq = (flowOf et 3).rxSeq ∧ xEEmp.payload.length ≤ 8192
      ∧ xEEmp.offset + xEEmp.payload.length ≤ fld (flowWord et 3 3) 15 0 * 65536 ∧ xEEmp.payload = [])
    ∧ (xEIn.malformed = false ∧ xEIn.flow = 3 ∧ rdB et Reg.ethCtrl 63 = true ∧ bit (flowWord et 3 2) 63 = true
      ∧ flowPort et 3 = 0 ∧ xEIn.kind = 1 ∧ xEIn.seq = (flowOf et 3).rxSeq ∧ xEIn.payload.length ≤ 8192
      ∧ xEIn.offset + xEIn.payload.length ≤ fld (flowWord et 3 3) 15 0 * 65536 ∧ xEIn.payload ≠ []
      ∧ admission et (ethWrite et 3 xEIn) = Except.ok (Region.hbm 0 16448, ((admission et (ethWrite et 3 xEIn)).toOption.getD (Region.hbm 0 0, default)).2)
      ∧ engineReach et (ethWrite et 3 xEIn) = Reach.found (Region.hbm 0 16448) ∧ StackTakes et 0 16448
      ∧ OneLine ((admission et (ethWrite et 3 xEIn)).toOption.getD (Region.hbm 0 0, default)).2)
    ∧ (xEAck.malformed = false ∧ xEAck.flow = 3 ∧ rdB et Reg.ethCtrl 63 = true ∧ bit (flowWord et 3 2) 63 = true
      ∧ flowPort et 3 = 0 ∧ xEAck.kind = 2 ∧ (flowOf et 3).tag = none)
    ∧ (xEAckF.malformed = false ∧ xEAckF.flow = 3 ∧ rdB eo Reg.ethCtrl 63 = true ∧ bit (flowWord eo 3 2) 63 = true
      ∧ flowPort eo 3 = 0 ∧ xEAckF.kind = 2 ∧ (flowOf eo 3).tag = some 9 ∧ (cplOf eo 9).st = CplState.opened
      ∧ (cplOf eo 9).kind = CplKind.eth ∧ (cplOf eo 9).items = 3 ∧ (cplOf eo 9).damaged = false
      ∧ (cplOf eo 9).expect ≤ (cplOf eo 9).got + (List.map (fun p => p.2.2.length) (List.filter (fun p => seqBefore p.1 xEAckF.ack) (flowOf eo 3).unacked)).sum
      ∧ (cplOf eo 9).cvu = none ∧ (cplOf eo 9).firstErr = 0
      ∧ List.filter (fun p => seqBefore p.1 xEAckF.ack) (flowOf eo 3).unacked ≠ [])
    ∧ ((flowOf eo 3).unacked = [(5, 0, [1, 2, 3]), (6, 3, [4]), (7, 4, [5, 6])]
      ∧ (flowOf eo 3).sentAt + fld (flowWord eo 3 3) 39 32 * 1600 < 2 ^ 64 ∧ (flowOf eo 3).tag = some 9
      ∧ (cplOf eo 9).st = CplState.opened ∧ (cplOf eo 9).kind = CplKind.eth ∧ (cplOf eo 9).items = 3
      ∧ rdB eo Reg.ethCtrl 63 = true)
    ∧ ((flowOf et 3).unacked = [(5, 0, [1, 2, 3]), (6, 3, [4]), (7, 4, [5, 6])]
      ∧ (flowOf et 3).sentAt + fld (flowWord et 3 3) 39 32 * 1600 < 2 ^ 64 ∧ (flowOf et 3).tag = none) := by
  and_intros <;> decide +kernel

end Part12


namespace Part13

def P : Writer := .path .pcie
def nq : State := {target with now := 1000, pwr := {halved := [(2,3,100)], quietSince := [(2,50)], request := []}}
  |> regsOf [(Reg.powerStatus, 0x1048104810481048)]
def capp : State := nq |> regsOf [(Reg.powerCap, 3000*2^32 + 900*2^16+2400)]
def bl : State := run3 |> regsOf [(Reg.ballastLevel, 2^63+2^61+5*2^16)]
  |> onTl 3 (fun x => {x with wait := some (.waitt 5), ballast:=100})
def th : State := target |> regsOf [(Reg.thermalLimits, 95*2^8+85), (Reg.cluster 3, 0x2D00003), (Reg.thermalStatus,
  3)]
def thg (t g : Nat) : State := th |> wrReg (Reg.cluster 3) (wd (t*2^16+g))
def dm (d : Nat) : State := target |> wrReg Reg.domainStatus (wd (2^64-1 - 2^d))
def sb : State := target |> onStk 3 3 (fun k => {k with queue := [{op:=.read,addr:=0,len:=8,agent:=1,tenant:=0}]})
def xFStep : State := wrReg Reg.powerStatus (wd (2 ^ 64 - 1)) target
def xFStepQ : State := wrReg Reg.powerStatus (wd (2 ^ 64 - 1 - 255 * 2 ^ 32)) nq
def xFTrip : State := { nq with pwr := { nq.pwr with tripped := true } }
def xFRel : State := { nq with pwr := { request := [1, 2], halved := [(1, 1, 1)], quietSince := [(2, 900)] } }
def xDroopSat : State := wrReg Reg.stretchCount (wd (65535 * 2 ^ 48)) nq
def xWarn : State := { nq with pwr := { nq.pwr with warned := [2] } }
def xLease : State := { capp with regs := (wrReg Reg.capLease (wd (1500 * 2 ^ 32 + 10)) capp).regs, pwr := { leaseFrom := some 50 } }
def xBallL : State := { bl with now := 9999 }
def xGov : State := onTl 3 (fun x => { x with firstMxm := some (5000, some 70) }) run3

/-- States and operands that meet the hypotheses of clauses of `Obligations.FrequencyAndPower`. -/
theorem witness_FrequencyAndPower :
    (decideFreq xFStep 1 ≠ (rdF xFStep Reg.powerStatus (16 * 1 + 15) (16 * 1 + 12), freqOf xFStep 1)
      ∧ (stepsAtOnce xFStep 1 = true ∨ quiet xFStep 1 = true))
    ∧ (quiet xFStepQ 2 = false
      ∧ decideFreq xFStepQ 2 ≠ (rdF xFStepQ Reg.powerStatus (16 * 2 + 15) (16 * 2 + 12), freqOf xFStepQ 2)
      ∧ stepsAtOnce xFStepQ 2 = false)
    ∧ (xFTrip.pwr.tripped = true ∧ 16 < freqOf xFTrip 2)
    ∧ (2 ∈ xFRel.pwr.request ∧ (∀ h ∈ xFRel.pwr.halved, h.1 ≠ 2) ∧ mget 0 xFRel.pwr.quietSince 2 + 1600 < 2 ^ 64)
    ∧ ((∀ h ∈ nq.pwr.halved, h.1 ≠ 1))
    ∧ ((∀ h ∈ xDroopSat.pwr.halved, h.1 ≠ 3))
    ∧ (nq.pwr.halved = [(2, 3, 100)] ∧ 100 + ceilDiv 2048 (max 1 (freqOf nq 2)) < 2 ^ 64
      ∧ 700 + ceilDiv 1024 (max 1 (freqOf nq 2)) < 2 ^ 64)
    ∧ (xWarn.pwr.warned.contains 2 = true)
    ∧ (mget 0 nq.pwr.lastRead 16 + 1600000 < 2 ^ 64)
    ∧ (mayWrite capp Reg.Class.installer P = true)
    ∧ (mayWrite capp Reg.Class.installer (Writer.path Path.i3c) = true)
    ∧ (xLease.pwr.leaseFrom = some 50 ∧ rdF xLease Reg.capLease 15 0 ≠ 0
      ∧ 50 + rdF xLease Reg.capLease 15 0 * 1600000 < 2 ^ 64)
    ∧ ((rdB bl Reg.ballastLevel 63 = false ∨ ballastStopped bl 7 = true ∨ ballastWaits bl 7 = false))
    ∧ (rdB bl Reg.ballastLevel 63 = true ∧ ballastStopped bl 3 = false ∧ ballastWaits bl 3 = true)
    ∧ (rdB xBallL Reg.ballastLevel 63 = true ∧ ballastStopped xBallL 3 = false ∧ ballastWaits xBallL 3 = true)
    ∧ ((tl xGov 3).firstMxm = some (5000, some 70) ∧ 5000 < 2 ^ 64) := by
  and_intros
  all_goals first
    | exact limiter_ne _ _ _ (by decide +kernel)
    | exact no_step_from_zero _ _ (by decide +kernel)
    | exact Or.inr (by decide +kernel)
    | decide +kernel

def xSens2 : State := { th with pwr := { tripped := true } }
def xThR : State := { thg 600 1 with now := 9, pwr := { coolSince := [(3, 5)] } }
def xStale : State := { th with pwr := { coolantAt := some 70 } }
def xExt : State := { bl with now := 500 }
def xExtL : State := { bl with pwr := { extIn := true, extSince := 40 } }

/-- States and operands that meet the hypotheses of clauses of `Obligations.ThermalControl`. -/
theorem witness_ThermalControl :
    (th.boot.ioDies ≤ 4 ∧ th.boot.stackCount ≤ 4)
    ∧ (xSens2.boot.ioDies ≤ 4 ∧ xSens2.boot.stackCount ≤ 4)
    ∧ (gated (thg 700 15) 3 ≠ 0)
    ∧ (gated xThR 3 ≠ 0 ∧ mget 0 xThR.pwr.coolSince 3 ≠ 0 ∧ xThR.pwr.floor = false
      ∧ mget 0 xThR.pwr.coolSince 3 + 1600000 < 2 ^ 64 ∧ xThR.pwr.capFloor = false)
    ∧ (mayWrite th Reg.Class.installer P = true)
    ∧ (xStale.pwr.coolantAt = some 70 ∧ 70 + 16001600000 < 2 ^ 64)
    ∧ (xExt.pwr.extIn = false)
    ∧ (xExtL.pwr.extIn = true ∧ xExtL.pwr.floor = false ∧ xExtL.pwr.extSince + 160000001 < 2 ^ 64) := by
  and_intros <;> decide +kernel

def xDRole : State := wrReg Reg.authStatus 0 sb
def xDTurn : State := { dm 8 with pwr := { waitOn := [7 + 9, 8], lastOn := [(0, 60)] } }

/-- States and operands that meet the hypotheses of clauses of `Obligations.PowerDomains`. -/
theorem witness_PowerDomains :
    (mayWrite (dm 8) Reg.Class.operator P = true ∧ domainExists (dm 8) 8 = true ∧ domainIsOn (dm 8) 8 = false
      ∧ (dm 8).pwr.waitOn.contains 8 = false)
    ∧ (mayWrite (dm 8) Reg.Class.operator P = true ∧ domainExists (dm 8) 63 = false
      ∧ Instr.domainOn P 63 ∈ [Instr.domainOn P 63, Instr.domainOff P 63])
    ∧ (mayWrite (dm 8) Reg.Class.operator P = true ∧ domainExists (dm 8) 62 = false
      ∧ Instr.domainOff P 62 ∈ [Instr.domainOn P 62, Instr.domainOff P 62])
    ∧ (mayWrite (dm 8) Reg.Class.operator P = true ∧ domainExists (dm 8) 61 = true ∧ domainIsOn (dm 8) 61 = true
      ∧ offRefused (dm 8) 61 ≠ 0)
    ∧ (mayWrite target Reg.Class.operator P = true ∧ domainExists target 8 = true ∧ domainIsOn target 8 = true
      ∧ offRefused target 8 ≠ 0)
    ∧ (mayWrite target Reg.Class.operator P = true ∧ domainExists target 0 = true ∧ domainIsOn target 0 = true
      ∧ offRefused target 0 = 0 ∧ (0 < 36 ∨ 52 ≤ 0 ∨ stackBusy target ((0 - 36) / 4) ((0 - 36) % 4) = false))
    ∧ (mayWrite sb Reg.Class.operator P = true ∧ domainExists sb 51 = true ∧ domainIsOn sb 51 = true
      ∧ stackBusy sb ((51 - 36) / 4) ((51 - 36) % 4) = true)
    ∧ (P = Writer.path Path.pcie ∧ mayWrite xDRole Reg.Class.operator P = false
      ∧ Instr.domainOff P 51 ∈ [Instr.domainOn P 51, Instr.domainOff P 51])
    ∧ (P = Writer.path Path.pcie ∧ mayWrite xDRole Reg.Class.operator P = false
      ∧ Instr.domainOn P 51 ∈ [Instr.domainOn P 51, Instr.domainOff P 51])
    ∧ (List.find? (fun d => domainRail d == 0) xDTurn.pwr.waitOn = some 8 ∧ xDTurn.rma.held = []) := by
  and_intros <;> decide +kernel

end Part13


namespace Part14

def P : Writer := .path .pcie
def fs : State := {target with now := 777} |> regsOf [(Reg.faultStatus, 0xFF0F), (Reg.inputStatus, 0)]
def re (i : Nat) (part : Option Nat) (lim : Bool) : State := {fs with flt := {reactions := [⟨i,0x5,[4],part,lim⟩,⟨1,0,[],none,false⟩]}}
def rea (i bits : Nat) : State := re i (some 1) false |> wrReg (Reg.reaction i) (wd bits)
def ab : State := {(tile 7 1 2 (tile 3 1 2 (fs |> regsOf [(Reg.qCtrl 5, 2^63+4*2^48),(Reg.qCtrl 6, 2^63+2*2^48), (Reg.qStatus 5,1),(Reg.qStatus 6,1), (Reg.abortGroup 4, 2^63+9), (Reg.neighbour 1, 3)]))) with host := {jobs := [⟨5,0,4,3,3,0,0,false,[],0,0,false,false,0⟩,⟨6,0,2,7,3,0,0,false,[],0,0,false,false,0⟩], queues := [(5,{})]}}
def fb (src seq hops g t tm : Nat) : Packet := {opcode:=0x72,vc:=7,payload:=floodBytes src seq hops g t tm}
def nb : State := {(ab |> regsOf [(Reg.routeTable false 2, 2^63+2^56), (Reg.portStatus 2, 0x3004), (Reg.portBond 2, 2^63+1)]) with flt := {seen := List.replicate 64 (9,9)}}
def abg : State := {ab with coll := {groups := [(9, { w0 := wd (2 ^ 63 + 2 ^ 36 + 2 ^ 26 + 4*2^48), w1 := 1 })], store := [(0, 3), (1, 0x10000)]}}
def fp (f r : Nat) : State := {(target |> regsOf [(Reg.fenceStatus, f*2^16), (Reg.resetStatus, r*2^28)]) with now := 50, flt := {fenceAt := [(1,20)]}}
def fpb : State := fp 1 0
  |> onStk 1 2 (fun k => {k with queue := [{op:=.read,addr:=0x1800000000,len:=8,agent:=1,tenant:=0}]})
def r9 (f r : Nat) : State := fp f r |> wrReg Reg.bringupStatus (wd (9*2^16+9*2^24+9*2^8+9*2^4+9*2^20+9))
def sm : State := {wrReg Reg.smdCtrl (wd (2^63)) ab with flt := {smdOn := true, present := [26]}}
def xFClrP : State := { fs with flt := { present := [3, 9] } }
def xForce6 : State := { fs with flt := { reactions := [{ src := 1, agent := 0, tenants := [], part := none, limited := false }] } }
def xReact0 : Reaction := { src := 9, agent := 5, tenants := [4], part := some 1, limited := false }
def xReact01 : Reaction := { src := 1, agent := 0, tenants := [], part := none, limited := false }
def xFldOld : State := { ab with flt := { seen := [(1, 5)] } }

/-- States and operands that meet the hypotheses of clauses of `Obligations.FaultsAndAborts`. -/
theorem witness_FaultsAndAborts :
    (mayWrite fs Reg.Class.operator P = true)
    ∧ (mayWrite xFClrP Reg.Class.operator P = true)
    ∧ (mayWrite fs Reg.Class.operator P = true ∧ sourceExists 0 = true)
    ∧ (mayWrite xForce6 Reg.Class.operator P = true ∧ sourceExists 6 = true)
    ∧ ((rea 9 0).flt.reactions = [xReact0, xReact01]
      ∧ (reactionBits (rea 9 0) xReact0 = 0 ∨ reactionBits (rea 9 0) xReact0 = 1))
    ∧ ((msixPut 0 1 0 (rea 9 2)).flt.reactions = [xReact0, xReact01] ∧ reactionBits (msixPut 0 1 0 (rea 9 2)) xReact0 = 2
      ∧ rdF (msixPut 0 1 0 (rea 9 2)) Reg.faultCtrl 7 0 < 256
      ∧ bit (msixWord (msixPut 0 1 0 (rea 9 2)) 0 (2 * rdF (msixPut 0 1 0 (rea 9 2)) Reg.faultCtrl 7 0 + 1)) 32 = false)
    ∧ ((rea 9 16).flt.reactions = [xReact0, xReact01] ∧ reactionBits (rea 9 16) xReact0 = 16 ∧ xReact0.src ≠ 18
      ∧ xReact0.part = some 1 ∧ fenceState (rea 9 16) 1 = 0)
    ∧ (mayWrite ab Reg.Class.operator P = true ∧ NothingOpen ab)
    ∧ ((fb 1 5 8 9 4 700).opcode = 114 ∧ (fb 1 5 8 9 4 700).payload.length = 16 ∧ portState xFldOld 1 = 4
      ∧ (xFldOld.flt.seen.contains (fld (leWord (List.take 8 (fb 1 5 8 9 4 700).payload)) 63 50, fld (leWord (List.take 8 (fb 1 5 8 9 4 700).payload)) 49 34) = true ∨ leNat (List.take 8 (List.drop 8 (fb 1 5 8 9 4 700).payload)) + 1600000 < now xFldOld))
    ∧ ((fb 1 5 8 9 4 700).opcode = 114 ∧ (fb 1 5 8 9 4 700).payload.length = 16 ∧ portState ab 1 = 4
      ∧ ab.flt.seen.contains (fld (leWord (List.take 8 (fb 1 5 8 9 4 700).payload)) 63 50, fld (leWord (List.take 8 (fb 1 5 8 9 4 700).payload)) 49 34) = false
      ∧ now ab ≤ leNat (List.take 8 (List.drop 8 (fb 1 5 8 9 4 700).payload)) + 1600000
      ∧ ((groupOf ab (fld (leWord (List.take 8 (fb 1 5 8 9 4 700).payload)) 27 16)).valid = false ∨ (groupOf ab (fld (leWord (List.take 8 (fb 1 5 8 9 4 700).payload)) 27 16)).tenant ≠ fld (leWord (List.take 8 (fb 1 5 8 9 4 700).payload)) 7 0))
    ∧ ((fb 1 5 8 9 4 700).opcode = 114 ∧ (fb 1 5 8 9 4 700).payload.length = 16 ∧ portState nb 2 = 4
      ∧ nb.flt.seen.contains (fld (leWord (List.take 8 (fb 1 5 8 9 4 700).payload)) 63 50, fld (leWord (List.take 8 (fb 1 5 8 9 4 700).payload)) 49 34) = false
      ∧ now nb ≤ leNat (List.take 8 (List.drop 8 (fb 1 5 8 9 4 700).payload)) + 1600000
      ∧ ((groupOf nb (fld (leWord (List.take 8 (fb 1 5 8 9 4 700).payload)) 27 16)).valid = false ∨ (groupOf nb (fld (leWord (List.take 8 (fb 1 5 8 9 4 700).payload)) 27 16)).tenant ≠ fld (leWord (List.take 8 (fb 1 5 8 9 4 700).payload)) 7 0))
    ∧ (((fb 1 5 8 9 (groupOf abg 9).tenant 700).opcode = 114 ∧ (fb 1 5 8 9 (groupOf abg 9).tenant 700).payload.length = 16
      ∧ portState abg 1 = 4
      ∧ abg.flt.seen.contains (fld (leWord (List.take 8 (fb 1 5 8 9 (groupOf abg 9).tenant 700).payload)) 63 50, fld (leWord (List.take 8 (fb 1 5 8 9 (groupOf abg 9).tenant 700).payload)) 49 34) = false
      ∧ now abg ≤ leNat (List.take 8 (List.drop 8 (fb 1 5 8 9 (groupOf abg 9).tenant 700).payload)) + 1600000
      ∧ (groupOf abg (fld (leWord (List.take 8 (fb 1 5 8 9 (groupOf abg 9).tenant 700).payload)) 27 16)).valid = true
      ∧ (groupOf abg (fld (leWord (List.take 8 (fb 1 5 8 9 (groupOf abg 9).tenant 700).payload)) 27 16)).tenant = fld (leWord (List.take 8 (fb 1 5 8 9 (groupOf abg 9).tenant 700).payload)) 7 0)
      ∧ NothingOpen abg) := by
  repeat' first
    | exact nothingOpen ab (by decide +kernel) (by decide +kernel) (by decide +kernel)
    | exact nothingOpen abg (by decide +kernel) (by decide +kernel) (by decide +kernel)
    | refine And.intro ?_ ?_
  all_goals decide +kernel

/-- Nothing waits at the routers, no reaction waits, an entry is open, and a group holds a member entry. -/
theorem witness_FaultsAndAborts_tables :
    fs.flt.reactions = [] ∧ fs.net.routerQ = []
      ∧ (cplOf (setCpl 77 { st := .opened } fs) 77).st = .opened ∧ (groupOf (abg) 9).holds 1 = true := by decide +kernel

def xFenceHO : State := wrReg (Reg.bankOwner 130 5) (wd (2 ^ 63 + 1)) target

/-- States and operands that meet the hypotheses of clauses of `Obligations.FencesAndPartitionResets`. -/
theorem witness_FencesAndPartitionResets :
    (target.boot.stackCount ≤ 4 ∧ mayWrite target Reg.Class.operator P = true ∧ fenceState target 1 = 0)
    ∧ (xFenceHO.boot.stackCount ≤ 4 ∧ mayWrite xFenceHO Reg.Class.operator P = true ∧ fenceState xFenceHO 1 = 0)
    ∧ ((fp 2 0).boot.stackCount ≤ 4 ∧ mayWrite (fp 2 0) Reg.Class.operator P = true ∧ fenceState (fp 2 0) 1 ≠ 0)
    ∧ ((fp 1 0).boot.stackCount ≤ 4 ∧ fenceState (fp 1 0) 1 = 1 ∧ busyPart (fp 1 0) 1 = false ∧ resetPhase (fp 1 0) 1 ≠ 2)
    ∧ (fpb.boot.stackCount ≤ 4 ∧ fenceState fpb 1 = 1 ∧ busyPart fpb 1 = true)
    ∧ (fpb.boot.stackCount ≤ 4 ∧ fenceState fpb 1 = 1 ∧ resetPhase fpb 1 ≠ 2
      ∧ mget 0 fpb.flt.fenceAt 1 + rdF fpb Reg.fenceDrain 31 0 < 2 ^ 64)
    ∧ ((r9 0 0).boot.stackCount ≤ 4 ∧ mayWrite (r9 0 0) Reg.Class.operator P = true ∧ (r9 0 0).flt.halted = false
      ∧ 9 ≤ reached (r9 0 0) ∧ resetPhase (r9 0 0) 1 ≠ 2 ∧ fenceState (r9 0 0) 1 = 0)
    ∧ ((fp 3 3).boot.stackCount ≤ 4 ∧ resetPhase (fp 3 3) 1 = 3)
    ∧ ((fp 3 7).boot.stackCount = 4 ∧ resetPhase (fp 3 7) 1 = 7 ∧ (∀ i, i < 4 → nth [3, 2, 1, 3] i ≠ 0)
      ∧ ∃ i, i < 4 ∧ nth [3, 0, 1, 3] i = 0)
    ∧ ((fp 3 8).boot.stackCount ≤ 4 ∧ 3 ≤ resetPhase (fp 3 8) 1 ∧ resetPhase (fp 3 8) 1 ≤ 8) := by
  and_intros <;> decide +kernel

def xHeart : State := wrReg Reg.heartbeat (wd (2 ^ 32 - 1)) sm

/-- States and operands that meet the hypotheses of clauses of `Obligations.ResetsAndSupervision`. -/
theorem witness_ResetsAndSupervision :
    (ab.boot.stackCount ≤ 4 ∧ mayWrite ab Reg.Class.operator P = true)
    ∧ (ab.boot.stackCount ≤ 4)
    ∧ (ab.boot.stackCount ≤ 4 ∧ (SideInput.timePps = SideInput.timePps ∨ SideInput.timePps = SideInput.timeClk)
      ∧ isMaster ab = false)
    ∧ (ab.boot.stackCount ≤ 4 ∧ (SideInput.timeClk = SideInput.timePps ∨ SideInput.timeClk = SideInput.timeClk)
      ∧ isMaster ab = false)
    ∧ (sm.boot.stackCount ≤ 4 ∧ sm.flt.smdOn = true ∧ rdB sm Reg.smdCtrl 63 = true ∧ [3, 9] ≠ []
      ∧ (∀ n ∈ [3, 9], ∀ (p : ℕ), nodePart n = some p → fenceState sm p = 0))
    ∧ (sm.boot.stackCount ≤ 4 ∧ sm.flt.smdOn = true ∧ rdB sm Reg.smdCtrl 63 = true)
    ∧ (xHeart.boot.stackCount ≤ 4)
    ∧ (sm.boot.stackCount ≤ 4) := by
  and_intros <;> decide +kernel

end Part14


namespace Part15

def P : Writer := .path .pcie
def t0 : State := net |> regsOf [(Reg.neighbour 1, 2^63+1), (Reg.capability, 2^3 + 32*2^8 + 4*2^16), (Reg.beatCtrl,
  3*2^32+4)]
def ctl : Nat := 2^63 + 2^62 + 3*2^32 + 1
def ton (role : Nat) : State := t0 |> regsOf [(Reg.twinCtrl, ctl), (Reg.twinStatus, role)]
def bt : TwinBeat := {src:=1,role:=3,preferred:=false,round:=8,digest:=5}
def tpr (role : Nat) (tw : Twin) : State := {ton role with twin := tw}
def b0 : State := State.reset
def b1 : State := State.reset |> regsOf [(Reg.authStatus, 0x3F00)]
def bs (k : Nat) : State := b1 |> wrReg Reg.bringupStatus (wd (k*2^16+k*2^24+k*2^4+k))
def b0b : State := {b0 with boot := {b0.boot with slotA := {}, slotB := {}}}
def b0s : State := {b0 with boot := {b0.boot with cellarStarted := true}}
def rch (k : Nat) : State := {b1 with regs := (wrF Reg.bringupStatus 19 16 k (wrF Reg.bringupStatus 27 24 k b1)).regs, boot := {b1.boot with routeWritten := true}}
def xBeat : State := { ton 2 with now := 5000 }
def xBConf : TwinBeat := { bt with preferred := true }
def xBForm : State := tpr 1 { sentDigest := [(8, 5)] }
def xBForm21 : TwinBeat := { bt with role := 1 }
def xBDiv : State := tpr 2 { sentDigest := [(8, 6)], paired := true }
def xBMiss : Twin := { misses := 1 }
def xBMiss2 : Twin := { misses := 2 }
def xBMiss3 : State := tpr 1 { misses := 2, copying := true }

/-- States and operands that meet the hypotheses of clauses of `Obligations.TwinPairing`. -/
theorem witness_TwinPairing :
    (mayWrite t0 Reg.Class.installer P = true ∧ twinOn t0 = false
      ∧ bit (wd ctl &&& wd (Reg.bits 63 60 + Reg.bits 55 32 + Reg.bits 29 16 + Reg.bits 13 0)) 63 = true
      ∧ (bit (wd ctl &&& wd (Reg.bits 63 60 + Reg.bits 55 32 + Reg.bits 29 16 + Reg.bits 13 0)) 60 = true → twinLicensed t0 = true
      ∧ tenantOk t0 (fld (wd ctl &&& wd (Reg.bits 63 60 + Reg.bits 55 32 + Reg.bits 29 16 + Reg.bits 13 0)) 55 48) = true)
      ∧ portsTo t0 (fld (wd ctl &&& wd (Reg.bits 63 60 + Reg.bits 55 32 + Reg.bits 29 16 + Reg.bits 13 0)) 13 0) ≠ [])
    ∧ (mayWrite t0 Reg.Class.installer P = true ∧ twinOn t0 = false
      ∧ bit (wd (ctl + 2 ^ 60 + 5 * 2 ^ 48) &&& wd (Reg.bits 63 60 + Reg.bits 55 32 + Reg.bits 29 16 + Reg.bits 13 0)) 63 = true
      ∧ (bit (wd (ctl + 2 ^ 60 + 5 * 2 ^ 48) &&& wd (Reg.bits 63 60 + Reg.bits 55 32 + Reg.bits 29 16 + Reg.bits 13 0)) 60 = true → twinLicensed t0 = true
      ∧ tenantOk t0 (fld (wd (ctl + 2 ^ 60 + 5 * 2 ^ 48) &&& wd (Reg.bits 63 60 + Reg.bits 55 32 + Reg.bits 29 16 + Reg.bits 13 0)) 55 48) = true)
      ∧ portsTo t0 (fld (wd (ctl + 2 ^ 60 + 5 * 2 ^ 48) &&& wd (Reg.bits 63 60 + Reg.bits 55 32 + Reg.bits 29 16 + Reg.bits 13 0)) 13 0) ≠ [])
    ∧ (mayWrite t0 Reg.Class.installer P = true ∧ twinOn t0 = false
      ∧ bit (wd (ctl + 1) &&& wd (Reg.bits 63 60 + Reg.bits 55 32 + Reg.bits 29 16 + Reg.bits 13 0)) 63 = true
      ∧ portsTo t0 (fld (wd (ctl + 1) &&& wd (Reg.bits 63 60 + Reg.bits 55 32 + Reg.bits 29 16 + Reg.bits 13 0)) 13 0) = [])
    ∧ (mayWrite (ton 1) Reg.Class.installer P = true ∧ twinOn (ton 1) = true
      ∧ setBit (wd (ctl + 1) &&& wd (Reg.bits 63 60 + Reg.bits 55 32 + Reg.bits 29 16 + Reg.bits 13 0)) 63 true ≠ rd (ton 1) Reg.twinCtrl)
    ∧ (mayWrite (ton 3) Reg.Class.installer P = true ∧ twinOn (ton 3) = true
      ∧ setBit (wd (ctl - 2 ^ 63) &&& wd (Reg.bits 63 60 + Reg.bits 55 32 + Reg.bits 29 16 + Reg.bits 13 0)) 63 true = rd (ton 3) Reg.twinCtrl
      ∧ bit (wd (ctl - 2 ^ 63) &&& wd (Reg.bits 63 60 + Reg.bits 55 32 + Reg.bits 29 16 + Reg.bits 13 0)) 63 = false)
    ∧ (twinOn xBeat = true ∧ rdB xBeat Reg.twinCtrl 61 = false ∧ xBeat.twin.heard = none
      ∧ portsTo xBeat (twinPeer xBeat) = [1] ∧ bondOf xBeat 1 = some 0 ∧ beatRound xBeat * 1024 < 2 ^ 64)
    ∧ (twinOn (ton 2) = true ∧ xBConf.src = twinPeer (ton 2) ∧ refKey (ton 2) xBConf.src = none
      ∧ xBConf.preferred = twinPreferred (ton 2) ∧ (ton 2).twin.conflict = false)
    ∧ (twinOn xBForm = true ∧ bt.src = twinPeer xBForm ∧ refKey xBForm bt.src = none ∧ bt.preferred ≠ twinPreferred xBForm
      ∧ xBForm.twin.paired = false ∧ xBForm.twin.sentDigest = [(bt.round, bt.digest)])
    ∧ (twinOn xBForm = true ∧ xBForm21.src = twinPeer xBForm ∧ refKey xBForm xBForm21.src = none
      ∧ xBForm21.preferred ≠ twinPreferred xBForm ∧ xBForm.twin.paired = false
      ∧ xBForm.twin.sentDigest = [(xBForm21.round, xBForm21.digest)])
    ∧ (twinOn xBDiv = true ∧ bt.src = twinPeer xBDiv ∧ refKey xBDiv bt.src = none ∧ bt.preferred ≠ twinPreferred xBDiv
      ∧ xBDiv.twin.paired = true ∧ xBDiv.twin.sentDigest = [(bt.round, 6)] ∧ 6 ≠ bt.digest ∧ twinRole xBDiv = 2
      ∧ bt.role = 3)
    ∧ (twinOn (tpr 2 xBMiss) = true ∧ 1 = twinPeer (tpr 2 xBMiss) ∧ refKey (tpr 2 xBMiss) 1 = none
      ∧ (tpr 2 xBMiss).twin.misses + 1 < rdF (tpr 2 xBMiss) Reg.beatCtrl 35 32)
    ∧ (twinOn (tpr 2 xBMiss2) = true ∧ 1 = twinPeer (tpr 2 xBMiss2) ∧ refKey (tpr 2 xBMiss2) 1 = none
      ∧ (tpr 2 xBMiss2).twin.misses + 1 = rdF (tpr 2 xBMiss2) Reg.beatCtrl 35 32)
    ∧ (twinOn xBMiss3 = true ∧ 1 = twinPeer xBMiss3 ∧ refKey xBMiss3 1 = none
      ∧ xBMiss3.twin.misses + 1 = rdF xBMiss3 Reg.beatCtrl 35 32) := by
  and_intros <;> decide +kernel

def xProm : State := { tpr 2 { swapAt := some 9 } with now := 1500 }
def xPromP : State := { tpr 2 { swapAt := some 9 } with now := 1024 }
def xPromN : State := tpr 1 { swapAt := some 9 }
def xPromN2 : State := tpr 3 { swapAt := some 9 }
def xDem2 : State := tpr 2 { swapAt := some 9 }
def xResy : State := { tpr 1 { paired := true } with now := 5000 }
def xResyN : Twin := { paired := true }
def xRev : State := { tpr 3 { paired := true } with now := 5000 }
def xRevN : State := { tpr 2 { paired := true } with now := 5000 }
def xSwap2 : State := tpr 2 { swapAt := some 9000 }
def xRSt : State := regsOf [(Reg.syncRegion 2 0, 2 ^ 63 + 4096), (Reg.syncRegion 2 1, 64), (Reg.syncRound,
  3)] (tpr 3 { paired := true })
def xRSt1 : State := regsOf [(Reg.syncRound, 3)] (tpr 1 { paired := true, resyncAsked := true })
def xRDn : State := tpr 1 { copying := true, holdJobs := true }

/-- States and operands that meet the hypotheses of clauses of `Obligations.TwinRoles`. -/
theorem witness_TwinRoles :
    (mayWrite xProm Reg.Class.installer P = true ∧ Instr.promote P ∈ [Instr.promote P, Instr.twinPromote]
      ∧ twinRole xProm = 2 ∧ (now xProm / 1024 + 1) * 1024 < 2 ^ 64)
    ∧ (mayWrite xPromP Reg.Class.installer P = true ∧ Instr.twinPromote ∈ [Instr.promote P, Instr.twinPromote]
      ∧ twinRole xPromP = 2 ∧ (now xPromP / 1024 + 1) * 1024 < 2 ^ 64)
    ∧ (mayWrite xPromN Reg.Class.installer P = true ∧ Instr.twinPromote ∈ [Instr.promote P, Instr.twinPromote]
      ∧ twinRole xPromN ≠ 2)
    ∧ (mayWrite xPromN2 Reg.Class.installer P = true ∧ Instr.promote P ∈ [Instr.promote P, Instr.twinPromote]
      ∧ twinRole xPromN2 ≠ 2)
    ∧ (mayWrite xPromN2 Reg.Class.installer P = true ∧ Instr.demote P ∈ [Instr.demote P, Instr.twinDemote]
      ∧ twinOn xPromN2 = true)
    ∧ (mayWrite xDem2 Reg.Class.installer P = true ∧ Instr.twinDemote ∈ [Instr.demote P, Instr.twinDemote]
      ∧ twinOn xDem2 = true)
    ∧ (mayWrite t0 Reg.Class.installer P = true ∧ Instr.twinDemote ∈ [Instr.demote P, Instr.twinDemote]
      ∧ twinOn t0 = false)
    ∧ (mayWrite xResy Reg.Class.installer P = true ∧ twinRole xResy = 1 ∧ xResy.twin.paired = true
      ∧ xResy.twin.resyncAsked = false ∧ xResy.twin.copying = false)
    ∧ (mayWrite (tpr 2 xResyN) Reg.Class.installer P = true ∧ twinRole (tpr 2 xResyN) ≠ 1)
    ∧ (mayWrite xRev Reg.Class.installer P = true ∧ twinRole xRev = 3)
    ∧ (mayWrite xRevN Reg.Class.installer P = true ∧ twinRole xRevN ≠ 3)
    ∧ (mayWrite xRevN Reg.Class.installer P = true ∧ twinRole xRevN = 2 ∧ twinPreferred xRevN = true ∧ holdoff xRevN ≠ 0
      ∧ xRevN.twin.misses < rdF xRevN Reg.beatCtrl 35 32 ∧ xRevN.twin.swapAt = none
      ∧ portsTo xRevN (twinPeer xRevN) = [1] ∧ bondOf xRevN 1 = some 0
      ∧ xRevN.twin.standbySince + holdoff xRevN * 1600000000 < 2 ^ 64)
    ∧ (mayWrite xSwap2 Reg.Class.installer P = true ∧ xSwap2.twin.swapAt = some 9000 ∧ 9000 < 2 ^ 64)
    ∧ (mayWrite xRSt Reg.Class.installer P = true ∧ xRSt.twin.copying = false ∧ xRSt.twin.paired = true
      ∧ 3072 = max (rdF xRSt Reg.syncRound 53 0 * 1024) ((now xRSt + 1023) / 1024 * 1024) ∧ 3072 < 2 ^ 64
      ∧ twinRole xRSt = 3 ∧ twinJobRuns xRSt = false)
    ∧ (mayWrite xRSt1 Reg.Class.installer P = true ∧ xRSt1.twin.copying = false ∧ xRSt1.twin.paired = true
      ∧ 3072 = max (rdF xRSt1 Reg.syncRound 53 0 * 1024) ((now xRSt1 + 1023) / 1024 * 1024) ∧ 3072 < 2 ^ 64
      ∧ twinRole xRSt1 = 1 ∧ xRSt1.twin.resyncAsked = true)
    ∧ (mayWrite xRDn Reg.Class.installer P = true ∧ xRDn.twin.copying = true)
    ∧ (mayWrite xRDn Reg.Class.installer P = true ∧ xRDn.twin.copying = true ∧ twinRole xRDn = 1
      ∧ (∀ v ∈ unitsOf 4099 [1, 2, 3, 4, 5, 6, 7, 8, 9].length, eccOf xRDn v = Ecc.clean)) := by
  and_intros <;> decide +kernel

def xS6n : State := { rch 5 with boot := b1.boot }
def xS8m : State := wrReg Reg.timeCtrl 32 (rch 9)
def xS8p : State := regsOf [(Reg.timeParent, 33), (Reg.portStatus 1, 12292)] (rch 7)
def xSBusy : State := { rch 7 with boot := { b1.boot with running := 8 } }
def xSCel : State := wrF Reg.heartbeat 63 56 2 (rch 8)
def xSRole : State := wrReg Reg.authStatus 0 (rch 8)

/-- States and operands that meet the hypotheses of clauses of `Obligations.CellarAndStepStarts`. -/
theorem witness_CellarAndStepStarts :
    (cellarState b0 = 0 ∧ b0.boot.cellarStarted = false ∧ imageFine b0 (slotOf b0 (bootB b0)) = true)
    ∧ (cellarState b0b = 0 ∧ b0b.boot.cellarStarted = false ∧ imageFine b0b (slotOf b0b (bootB b0b)) = false)
    ∧ (cellarState b0s = 0 ∧ b0s.boot.cellarStarted = true ∧ b0s.boot.fwFrom + 1600000000 < 2 ^ 64)
    ∧ (cellarState b0s = 0 ∧ b0s.boot.cellarStarted = true)
    ∧ (
      (Instr.fuseLoad P, 1) ∈ [(Instr.fuseLoad P, 1), (Instr.domainUp P, 2), (Instr.selfTest P, 3), (Instr.sramClear P, 4), (Instr.hbmTrain P, 5), (Instr.linkTrain P, 6), (Instr.linkQualify P, 7), (Instr.timeSync P, 8), (Instr.ready P, 9)]
      ∧ mayWrite b1 Reg.Class.operator P = true ∧ b1.boot.running = 0 ∧ cellarState b1 ≠ 2 ∧ (reached b1 < 9
      ∧ 1 = reached b1 + 1 ∨ 9 ≤ reached b1 ∧ (1 = 6 ∨ 1 = 7 ∨ 1 = 8)))
    ∧ (
      (Instr.linkTrain P, 6) ∈ [(Instr.fuseLoad P, 1), (Instr.domainUp P, 2), (Instr.selfTest P, 3), (Instr.sramClear P, 4), (Instr.hbmTrain P, 5), (Instr.linkTrain P, 6), (Instr.linkQualify P, 7), (Instr.timeSync P, 8), (Instr.ready P, 9)]
      ∧ mayWrite (rch 5) Reg.Class.operator P = true ∧ (rch 5).boot.running = 0 ∧ cellarState (rch 5) ≠ 2
      ∧ (reached (rch 5) < 9 ∧ 6 = reached (rch 5) + 1 ∨ 9 ≤ reached (rch 5) ∧ (6 = 6 ∨ 6 = 7 ∨ 6 = 8))
      ∧ (rch 5).boot.routeWritten = true)
    ∧ (
      (Instr.linkTrain P, 6) ∈ [(Instr.fuseLoad P, 1), (Instr.domainUp P, 2), (Instr.selfTest P, 3), (Instr.sramClear P, 4), (Instr.hbmTrain P, 5), (Instr.linkTrain P, 6), (Instr.linkQualify P, 7), (Instr.timeSync P, 8), (Instr.ready P, 9)]
      ∧ mayWrite xS6n Reg.Class.operator P = true ∧ xS6n.boot.running = 0 ∧ cellarState xS6n ≠ 2 ∧ (reached xS6n < 9
      ∧ 6 = reached xS6n + 1 ∨ 9 ≤ reached xS6n ∧ (6 = 6 ∨ 6 = 7 ∨ 6 = 8)) ∧ xS6n.boot.routeWritten = false)
    ∧ (
      (Instr.linkQualify P, 7) ∈ [(Instr.fuseLoad P, 1), (Instr.domainUp P, 2), (Instr.selfTest P, 3), (Instr.sramClear P, 4), (Instr.hbmTrain P, 5), (Instr.linkTrain P, 6), (Instr.linkQualify P, 7), (Instr.timeSync P, 8), (Instr.ready P, 9)]
      ∧ mayWrite (rch 9) Reg.Class.operator P = true ∧ (rch 9).boot.running = 0 ∧ cellarState (rch 9) ≠ 2
      ∧ (reached (rch 9) < 9 ∧ 7 = reached (rch 9) + 1 ∨ 9 ≤ reached (rch 9) ∧ (7 = 6 ∨ 7 = 7 ∨ 7 = 8)))
    ∧ (
      (Instr.timeSync P, 8) ∈ [(Instr.fuseLoad P, 1), (Instr.domainUp P, 2), (Instr.selfTest P, 3), (Instr.sramClear P, 4), (Instr.hbmTrain P, 5), (Instr.linkTrain P, 6), (Instr.linkQualify P, 7), (Instr.timeSync P, 8), (Instr.ready P, 9)]
      ∧ mayWrite xS8m Reg.Class.operator P = true ∧ xS8m.boot.running = 0 ∧ cellarState xS8m ≠ 2 ∧ (reached xS8m < 9
      ∧ 8 = reached xS8m + 1 ∨ 9 ≤ reached xS8m ∧ (8 = 6 ∨ 8 = 7 ∨ 8 = 8)) ∧ isMaster xS8m = true)
    ∧ (
      (Instr.timeSync P, 8) ∈ [(Instr.fuseLoad P, 1), (Instr.domainUp P, 2), (Instr.selfTest P, 3), (Instr.sramClear P, 4), (Instr.hbmTrain P, 5), (Instr.linkTrain P, 6), (Instr.linkQualify P, 7), (Instr.timeSync P, 8), (Instr.ready P, 9)]
      ∧ mayWrite (rch 7) Reg.Class.operator P = true ∧ (rch 7).boot.running = 0 ∧ cellarState (rch 7) ≠ 2
      ∧ (reached (rch 7) < 9 ∧ 8 = reached (rch 7) + 1 ∨ 9 ≤ reached (rch 7) ∧ (8 = 6 ∨ 8 = 7 ∨ 8 = 8))
      ∧ isMaster (rch 7) = false ∧ parentPort (rch 7) = none)
    ∧ (
      (Instr.timeSync P, 8) ∈ [(Instr.fuseLoad P, 1), (Instr.domainUp P, 2), (Instr.selfTest P, 3), (Instr.sramClear P, 4), (Instr.hbmTrain P, 5), (Instr.linkTrain P, 6), (Instr.linkQualify P, 7), (Instr.timeSync P, 8), (Instr.ready P, 9)]
      ∧ mayWrite xS8p Reg.Class.operator P = true ∧ xS8p.boot.running = 0 ∧ cellarState xS8p ≠ 2 ∧ (reached xS8p < 9
      ∧ 8 = reached xS8p + 1 ∨ 9 ≤ reached xS8p ∧ (8 = 6 ∨ 8 = 7 ∨ 8 = 8)) ∧ isMaster xS8p = false
      ∧ parentPort xS8p ≠ none)
    ∧ (
      (Instr.ready P, 9) ∈ [(Instr.fuseLoad P, 1), (Instr.domainUp P, 2), (Instr.selfTest P, 3), (Instr.sramClear P, 4), (Instr.hbmTrain P, 5), (Instr.linkTrain P, 6), (Instr.linkQualify P, 7), (Instr.timeSync P, 8), (Instr.ready P, 9)]
      ∧ mayWrite xSBusy Reg.Class.operator P = true ∧ xSBusy.boot.running ≠ 0)
    ∧ (
      (Instr.ready P, 9) ∈ [(Instr.fuseLoad P, 1), (Instr.domainUp P, 2), (Instr.selfTest P, 3), (Instr.sramClear P, 4), (Instr.hbmTrain P, 5), (Instr.linkTrain P, 6), (Instr.linkQualify P, 7), (Instr.timeSync P, 8), (Instr.ready P, 9)]
      ∧ mayWrite (rch 7) Reg.Class.operator P = true ∧ (rch 7).boot.running = 0 ∧ (reached (rch 7) < 9
      ∧ 9 ≠ reached (rch 7) + 1 ∨ 9 ≤ reached (rch 7) ∧ 9 ≠ 6 ∧ 9 ≠ 7 ∧ 9 ≠ 8))
    ∧ (
      (Instr.hbmTrain P, 5) ∈ [(Instr.fuseLoad P, 1), (Instr.domainUp P, 2), (Instr.selfTest P, 3), (Instr.sramClear P, 4), (Instr.hbmTrain P, 5), (Instr.linkTrain P, 6), (Instr.linkQualify P, 7), (Instr.timeSync P, 8), (Instr.ready P, 9)]
      ∧ mayWrite (rch 9) Reg.Class.operator P = true ∧ (rch 9).boot.running = 0 ∧ (reached (rch 9) < 9
      ∧ 5 ≠ reached (rch 9) + 1 ∨ 9 ≤ reached (rch 9) ∧ 5 ≠ 6 ∧ 5 ≠ 7 ∧ 5 ≠ 8))
    ∧ (
      (Instr.ready P, 9) ∈ [(Instr.fuseLoad P, 1), (Instr.domainUp P, 2), (Instr.selfTest P, 3), (Instr.sramClear P, 4), (Instr.hbmTrain P, 5), (Instr.linkTrain P, 6), (Instr.linkQualify P, 7), (Instr.timeSync P, 8), (Instr.ready P, 9)]
      ∧ mayWrite xSCel Reg.Class.operator P = true ∧ xSCel.boot.running = 0 ∧ cellarState xSCel = 2
      ∧ (reached xSCel < 9 ∧ 9 = reached xSCel + 1 ∨ 9 ≤ reached xSCel ∧ (9 = 6 ∨ 9 = 7 ∨ 9 = 8)))
    ∧ (
      (Instr.ready P, 9) ∈ [(Instr.fuseLoad P, 1), (Instr.domainUp P, 2), (Instr.selfTest P, 3), (Instr.sramClear P, 4), (Instr.hbmTrain P, 5), (Instr.linkTrain P, 6), (Instr.linkQualify P, 7), (Instr.timeSync P, 8), (Instr.ready P, 9)]
      ∧ P = Writer.path Path.pcie ∧ mayWrite xSRole Reg.Class.operator P = false)
    ∧ ([0, 1, 2, 4, 5, 8, 9, 85].length = 4 + (rch 8).boot.ioDies)
    ∧ ([0, 1, 2, 4, 5, 8, 9, 85].length = 4 + b0.boot.ioDies) := by
  and_intros <;> decide +kernel

/-- Every step may begin after the one before it, and the link and time steps again after READY. -/
theorem witness_BringUpSteps_begin :
    (∀ k ∈ List.range 10, reached (rch k) = k ∧ mayWrite (rch k) .operator P = true ∧ (rch k).boot.running = 0
      ∧ cellarState (rch k) ≠ 2 ∧ (rch k).boot.routeWritten = true)
    ∧ (reached (bs 5) = 5 ∧ (bs 5).boot.routeWritten = false ∧ (bs 5).boot.running = 0 ∧ cellarState (bs 5) ≠ 2)
    ∧ (isMaster xS8m = true ∧ (reached xS8m = 7 ∨ 9 ≤ reached xS8m))
    ∧ (isMaster xS8p = false ∧ parentPort xS8p ≠ none ∧ (reached xS8p = 7 ∨ 9 ≤ reached xS8p)) := by
  refine ⟨?_, ?_, ?_, ?_⟩ <;> decide +kernel

end Part15


namespace Part16

def P : Writer := .path .pcie
def b1 : State := up |> regsOf [(Reg.bringupStatus, 0)]
def rn (k : Nat) (s : State) : State := {s with regs := (wrF Reg.bringupStatus 19 16 (k-1) s).regs, boot := {s.boot with running := k, stepFrom := 7, trainEnd := 7}}
def fen (s : State) : State := s |> regsOf [(Reg.fenceStatus, 0x0002000200020002),(Reg.domainStatus, 2^61)]
def q7 : State := {rn 7 net with boot := {(rn 7 net).boot with ports := [1]}} |> wrReg (Reg.qual 1) 4
def se : State := {up with now := 1000, boot := {up.boot with sessions := [(0, {challenge := List.replicate 6 5, challengeAt := some 9, openedAt := 1}), (1, {openedAt := 5, failures := [1,2,3,4,5,6,7]}),(2,{lockedUntil := some 9000000000000,failures := [1]})]}}
  |> regsOf ([(Reg.key 7 0, 2^63+ 3*2^56+ 77),(Reg.key 8 0, 2^63+77),(Reg.key 3 0,
  0)] ++ (List.range 12).map (fun i => (Reg.authResponse i, 5)))
def li (ser : Nat) : State := {se with boot := {se.boot with serial := 0x55}} |> regsOf [(Reg.licStage 0,
  1*2^56+100), (Reg.licStage 1, ser), (Reg.key 0 0, 2^63), (Reg.licStatus, 2*2^8)]
def fu (st : Nat) : State := {up with boot := {up.boot with fwNext := 4, slotB := {chunks := [(0, List.replicate 256 1),(3, [1])]}}}
  |> wrF Reg.fwStatus 2 0 st |> wrF Reg.fwStatus 19 16 2 |> wrReg (Reg.key 0 0) (wd (2^63)) |> setCellar 1
def tr (st : Nat) : State := fu st |> wrReg Reg.fwTree (wd (2^63 + 6*2^32))
def w8 (n : Nat) : List Byte := (List.range 8).map (fun i => BitVec.ofNat 8 (n / 256^i))
def hdr : List Byte := w8 (2^56 + 5*2^32) ++ w8 1000 ++ List.replicate 240 9
def tc (st : Nat) : State := fu st |> wrReg Reg.fwTree (wd (2^63 + 6*2^32 + 2^31+2^4))
def xE1L : State := { rn 1 b1 with boot := { (rn 1 b1).boot with stackCount := 3, ioDies := 2, licence := some (List.map wd (List.range 16)) } }
def xE1F : State := { rn 1 b1 with boot := { (rn 1 b1).boot with fuseBad := true } }
def xE2p : State := rn 2 (wrReg Reg.fenceStatus 1125908496908292 (fen b1))
def xE6 : State := rn 6 (regsOf (List.map (fun n => (Reg.portStatus n, 12292)) (List.range 32)) net)
def xE8 : State := rn 8 (regsOf [(Reg.timeStatus, 32)] net)

/-- States and operands that meet the hypotheses of clauses of `Obligations.BringUpStepsEnd`. -/
theorem witness_BringUpStepsEnd :
    ((rn 1 b1).boot.ioDies ≤ 4 ∧ (rn 1 b1).boot.stackCount ≤ 4 ∧ EndsInTime 3 (rn 1 b1) ∧ (rn 1 b1).boot.running = 1
      ∧ (rn 1 b1).boot.fuseBad = false)
    ∧ (xE1L.boot.ioDies ≤ 4 ∧ xE1L.boot.stackCount ≤ 4 ∧ EndsInTime 3 xE1L ∧ xE1L.boot.running = 1
      ∧ xE1L.boot.fuseBad = false)
    ∧ (xE1F.boot.ioDies ≤ 4 ∧ xE1F.boot.stackCount ≤ 4 ∧ EndsInTime 3 xE1F ∧ xE1F.boot.running = 1
      ∧ xE1F.boot.fuseBad = true)
    ∧ ((rn 2 (fen b1)).boot.ioDies ≤ 4 ∧ (rn 2 (fen b1)).boot.stackCount ≤ 4 ∧ EndsInTime 3 (rn 2 (fen b1))
      ∧ (rn 2 (fen b1)).boot.running = 2 ∧ presentParts (rn 2 (fen b1)) ≠ [])
    ∧ (xE2p.boot.ioDies ≤ 4 ∧ xE2p.boot.stackCount ≤ 4 ∧ EndsInTime 3 xE2p ∧ xE2p.boot.running = 2
      ∧ presentParts xE2p ≠ [])
    ∧ ((rn 3 (fen b1)).boot.ioDies ≤ 4 ∧ (rn 3 (fen b1)).boot.stackCount ≤ 4 ∧ EndsInTime 3 (rn 3 (fen b1))
      ∧ (rn 3 (fen b1)).boot.running = 3 ∧ presentParts (rn 3 (fen b1)) ≠ []
      ∧ (∀ p < 4, draffTiles (rn 3 (fen b1)) p = []))
    ∧ ((rn 4 (fen (mem3 1280 6))).boot.ioDies ≤ 4 ∧ (rn 4 (fen (mem3 1280 6))).boot.stackCount ≤ 4
      ∧ EndsInTime 3 (rn 4 (fen (mem3 1280 6))) ∧ (rn 4 (fen (mem3 1280 6))).boot.running = 4)
    ∧ ((rn 5 (fen b1)).boot.ioDies ≤ 4 ∧ (rn 5 (fen b1)).boot.stackCount ≤ 4 ∧ EndsInTime 3 (rn 5 (fen b1))
      ∧ (rn 5 (fen b1)).boot.running = 5 ∧ presentParts (rn 5 (fen b1)) ≠ []
      ∧ (∀ i < 16, nth (List.replicate 16 3) i = 3))
    ∧ (xE6.boot.ioDies ≤ 4 ∧ xE6.boot.stackCount ≤ 4 ∧ EndsInTime 3 xE6 ∧ xE6.boot.running = 6
      ∧ (∀ n ∈ stepPorts xE6, portState xE6 n = 3 ∨ portState xE6 n = 4))
    ∧ (q7.boot.ioDies ≤ 4 ∧ q7.boot.stackCount ≤ 4 ∧ EndsInTime 3 q7 ∧ q7.boot.running = 7
      ∧ (∀ n ∈ q7.boot.ports, portClass q7 n = 0 ∧ portState q7 n ≠ 3))
    ∧ (xE8.boot.ioDies ≤ 4 ∧ xE8.boot.stackCount ≤ 4 ∧ EndsInTime 3 xE8 ∧ xE8.boot.running = 8 ∧ timeState xE8 = 2
      ∧ xE8.tim.syncing = false)
    ∧ ((rn 9 net).boot.ioDies ≤ 4 ∧ (rn 9 net).boot.stackCount ≤ 4 ∧ EndsInTime 3 (rn 9 net) ∧ (rn 9 net).boot.running = 9
      ∧ timeState (rn 9 net) = 2 ∧ (∃ p < 4, fenceState (rn 9 net) p = 0))
    ∧ ((rn 6 net).boot.ioDies ≤ 4 ∧ (rn 6 net).boot.stackCount ≤ 4 ∧ (rn 6 net).pwr.tripped = false
      ∧ (rn 6 net).boot.running ≠ 0 ∧ (rn 6 net).boot.running < 10
      ∧ stepLimit (rn 6 net) < (rn 6 net).boot.stepFrom + 50001 * 1600
      ∧ (rn 6 net).boot.stepFrom + 50001 * 1600 < 2 ^ 64)
    ∧ ((rn 4 net).boot.ioDies ≤ 4 ∧ (rn 4 net).boot.stackCount ≤ 4 ∧ (rn 4 net).boot.running ≠ 0
      ∧ (rn 4 net).boot.running < 10 ∧ stepLimit (rn 4 net) < 2 ^ 64) := by
  and_intros <;> decide +kernel

def xSub4 : State := wrReg (Reg.authResponse 0) 2989 se
def xSvn2 : State := wrReg Reg.svnMin 65535 se
def xVoid : State := { wrReg Reg.draffIndex 70 se with boot := { se.boot with draff := [(70, wd (2 ^ 60 * 3 + 5), 9), (71, 1, 2)] } }

/-- States and operands that meet the hypotheses of clauses of `Obligations.SessionsAndKeys`. -/
theorem witness_SessionsAndKeys :
    (((∀ k m g, Config.ecdsaVerify k m g = true) → authResult se Path.pcie 2 7 = 0))
    ∧ (1 ≤ authResult se Path.eth 2 7 ∧ authResult se Path.eth 2 7 ≤ 4)
    ∧ (1 ≤ authResult se Path.pcie 2 9 ∧ authResult se Path.pcie 2 9 ≤ 4)
    ∧ (((∀ k m g, Config.ecdsaVerify k m g = false) → 1 ≤ authResult xSub4 Path.pcie 2 7)
      ∧ ((∀ k m g, Config.ecdsaVerify k m g = false) → authResult xSub4 Path.pcie 2 7 ≤ 4))
    ∧ (authResult se Path.i3c 2 7 = 5)
    ∧ (roleOf se Path.eth ≠ 0 ∧ (sess se Path.eth).openedAt + 5760000000000 < 2 ^ 64)
    ∧ ((sess se Path.i3c).lockedUntil = some 9000000000000 ∧ 9000000000000 < 2 ^ 64)
    ∧ ((mayWrite (li 85) Reg.Class.installer (Writer.path Path.pcie) = true
      ∧ (∀ (o : List Word), (li 85).boot.licence = some o → fld (o.getD 0 0) 31 0 < fld ((List.map (fun i => rd (li 85) (Reg.licStage i)) (List.range 16)).getD 0 0) 31 0))
      ∧ ((∀ k m g, Config.ecdsaVerify k m g = true) → licenceResult (li 85) (List.map (fun i => rd (li 85) (Reg.licStage i)) (List.range 16)) = 0))
    ∧ (mayWrite (li 86) Reg.Class.installer (Writer.path Path.pcie) = true
      ∧ licenceResult (li 86) (List.map (fun i => rd (li 86) (Reg.licStage i)) (List.range 16)) ≠ 0)
    ∧ (mayWrite se (if 3 < 6 then Reg.Class.maker else Reg.Class.installer) (Writer.path Path.eth) = true
      ∧ bit (rd se (Reg.key 3 0)) 63 = false)
    ∧ (mayWrite se (if 7 < 6 then Reg.Class.maker else Reg.Class.installer) (Writer.path Path.eth) = true
      ∧ bit (rd se (Reg.key 7 0)) 63 = true)
    ∧ (mayWrite se (if 7 < 6 then Reg.Class.maker else Reg.Class.installer) (Writer.path Path.eth) = true
      ∧ bit (rd se (Reg.key 7 0)) 63 = true ∧ bit (wd (2 ^ 63 - 1)) 63 = false)
    ∧ (mayWrite se Reg.Class.maker (Writer.path Path.eth) = true)
    ∧ (mayWrite xSvn2 Reg.Class.maker (Writer.path Path.eth) = true)
    ∧ (mayWrite xVoid Reg.Class.maker (Writer.path Path.eth) = true ∧ 70 = rdF xVoid Reg.draffIndex 7 0
      ∧ fld (mget erased xVoid.boot.draff 70).1 63 60 ≠ 15) := by
  and_intros
  all_goals first
    | decide +kernel
    | exact fun h => by simp only [authResult, h]; decide +kernel
    | exact fun h => by simp only [licenceResult, h]; decide +kernel

def xFAct : State := wrF Reg.fwStatus 23 20 1 (fu 3)
def xFBoot : State := { wrF Reg.fwStatus 23 20 2 (setCellar 2 (fu 3)) with boot := { up.boot with slotB := { shipped := true } } }
def xFC0 : Packet := { opcode := 119, payload := hdr }
def xFCk : Packet := { opcode := 119, addr := 1024, payload := hdr }
def xFAckX : Packet := { opcode := 120, payload := w8 (7 * 2 ^ 32 + 4) }
def xFAck : Packet := { opcode := 120, payload := w8 512 }
def xFVer : State := { tr 2 with boot := { up.boot with slotB := { shipped := true } } }

/-- States and operands that meet the hypotheses of clauses of `Obligations.FirmwareUpdate`. -/
theorem witness_FirmwareUpdate :
    (mayWrite (fu 3) Reg.Class.installer P = true ∧ fwBusy (fu 3) = false ∧ fwRefusal (fu 3) = 0
      ∧ cellarState (fu 3) ≠ 2)
    ∧ (mayWrite (setTileState 5 3 (fu 3)) Reg.Class.installer P = true ∧ fwBusy (setTileState 5 3 (fu 3)) = false
      ∧ fwRefusal (setTileState 5 3 (fu 3)) ≠ 0)
    ∧ (mayWrite xFAct Reg.Class.installer P = true ∧ fwRefusal xFAct = 0 ∧ fwBusy xFAct = false ∧ cellarState xFAct ≠ 2
      ∧ (slotState xFAct !bootB xFAct) = 1)
    ∧ (mayWrite (fu 3) Reg.Class.installer P = true ∧ fwRefusal (fu 3) = 0 ∧ fwBusy (fu 3) = false
      ∧ cellarState (fu 3) ≠ 2 ∧ (slotState (fu 3) !bootB (fu 3)) ≠ 1)
    ∧ (mayWrite (fu 1) Reg.Class.installer P = true ∧ fwBusy (fu 1) = true)
    ∧ (mayWrite (fu 3) Reg.Class.installer P = true ∧ fwBusy (fu 3) = false)
    ∧ (mayWrite xFBoot Reg.Class.installer P = true ∧ cellarState xFBoot = 2 ∧ (slotState xFBoot !bootB xFBoot) = 2
      ∧ imageFine xFBoot (slotOf xFBoot !bootB xFBoot) = true)
    ∧ (mayWrite (fu 3) Reg.Class.installer P = true ∧ cellarState (fu 3) ≠ 2)
    ∧ (mayWrite (fu 2) Reg.Class.installer P = true ∧ fwBusy (fu 2) = true ∧ fld 1 1 0 ≠ 0
      ∧ (∀ t < 512, tileState (fu 2) t = 0))
    ∧ ((xFC0.opcode = 119 ∧ xFC0.payload.length = 256 ∧ rdB (tr 0) Reg.fwTree 63 = true ∧ rdF (tr 0) Reg.fwTree 36 32 = 6
      ∧ fwRefusal (tr 0) = 0 ∧ fwChildren (tr 0) = [] ∧ fwBusy (tr 0) = false ∧ xFC0.addr = 0)
      ∧ ((∀ k m g, Config.ecdsaVerify k m g = true) → headerFine (tr 0) (bytesWords 32 xFC0.payload) = true))
    ∧ (xFCk.opcode = 119 ∧ xFCk.payload.length = 256 ∧ rdB (tr 1) Reg.fwTree 63 = true ∧ rdF (tr 1) Reg.fwTree 36 32 = 6
      ∧ fwRefusal (tr 1) = 0 ∧ fwChildren (tr 1) = [] ∧ fwState (tr 1) = 1 ∧ 4 = (tr 1).boot.fwNext ∧ 4 < 2 ^ 23
      ∧ xFCk.addr = 256 * 4)
    ∧ (xFAckX.opcode = 120 ∧ (fwChildren (tc 1)).contains 31 = true ∧ fld (leWord (List.take 8 xFAckX.payload)) 47 32 ≠ 0)
    ∧ (xFAck.opcode = 120 ∧ (fwChildren (tc 1)).contains 4 = true ∧ fld (leWord (List.take 8 xFAck.payload)) 47 32 = 0)
    ∧ ((fwChildren (tc 1)).contains 31 = true)
    ∧ (fwState (tr 1) = 1)
    ∧ (fwState xFVer = 2 ∧ fwRefusal xFVer = 0 ∧ imageFine xFVer (slotOf xFVer (fwSlot xFVer)) = true)
    ∧ (fwState (tr 2) = 2 ∧ fwRefusal (tr 2) = 0 ∧ imageFine (tr 2) (slotOf (tr 2) (fwSlot (tr 2))) = false) := by
  and_intros
  all_goals first
    | decide +kernel
    | exact fun h => by simp only [headerFine, h]; decide +kernel

end Part16

end Sys2Proof.Machine.Tests
end

section
/-! PROOFS. What a tile fault leaves: the gang FAULTED, the first fault captured, registers and memory as before
(R71, R104). -/

namespace Sys2Proof.Machine

variable (s : State) (t : Nat)

-- The capture of a fault

/-- FAULT_INFO keeps the first fault until its VALID is cleared (R104). -/
theorem rd_captureAt_self (index code : Nat) : rd (captureAt t index code s) (Reg.faultInfo t)
    = if rdB s (Reg.faultInfo t) 0 = true then rd s (Reg.faultInfo t) else wd (index * 2 ^ 32 + code * 2 + 1) := by
  unfold captureAt; split <;> simp

theorem rd_captureAt_ne {a : Nat} (index code : Nat) (h : a ≠ Reg.faultInfo t) :
    rd (captureAt t index code s) a = rd s a := by
  unfold captureAt; split <;> simp [h]

@[simp] theorem tl_captureAt (index code k : Nat) : tl (captureAt t index code s) k = tl s k := by
  unfold captureAt; split <;> rfl

@[simp] theorem memByte_captureAt (index code a : Nat) : memByte (captureAt t index code s) a = memByte s a := by
  unfold captureAt; split <;> rfl

-- One occurrence of a data source

theorem rd_captureWords_ne {src a : Nat} (o : Occ) (now : Word) (h : ∀ w < 4, a ≠ Reg.dcap src w) :
    rd (captureWords o now s src) a = rd s a := by
  unfold captureWords
  rw [rd_wrReg_ne _ _ (h 3 (by decide)), rd_wrReg_ne _ _ (h 2 (by decide)),
    rd_wrReg_ne _ _ (h 1 (by decide)), rd_wrReg_ne _ _ (h 0 (by decide))]

/-- Outside the captures of its source, an occurrence sets the status bit of its source alone (R387). -/
theorem rd_recordData {src a : Nat} (o : Occ) (part : Option Nat) (h : ∀ w < 4, a ≠ Reg.dcap src w) :
    rd (recordData src o part s) a = rd (orReg Reg.faultStatus (2 ^ src) s) a := by
  simp only [recordData, rd_queueReaction]
  split
  · rw [rd_addSat_ne _ _ _ _ (h 3 (by decide)), rd_wrB_ne _ _ _ (h 1 (by decide))]
  · exact rd_captureWords_ne _ o _ h

/-- The record of a tile fault lies below the tiles' registers (R100, R409). -/
theorem rd_recordData_tileReg {a : Nat} (o : Occ) (part : Option Nat) (ha : Reg.tileBase 0 ≤ a) :
    rd (recordData srcTile o part s) a = rd s a := by
  have hd : ∀ w < 4, a ≠ Reg.dcap srcTile w := by
    intro w hw; simp only [Reg.tileBase, Reg.dcap, srcTile] at *; omega
  have hf : a ≠ Reg.faultStatus := by simp only [Reg.tileBase, Reg.faultStatus] at *; omega
  rw [rd_recordData s o part hd, rd_orReg_ne _ _ hf]

/-- An occurrence sets its source's status bit (R387). -/
theorem rdB_recordData_status {src : Nat} (o : Occ) (part : Option Nat) (hs : src < 64) :
    rdB (recordData src o part s) Reg.faultStatus src = true := by
  have hd : ∀ w < 4, Reg.faultStatus ≠ Reg.dcap src w := by
    intro w _; simp only [Reg.faultStatus, Reg.dcap]; omega
  have hb : (wd (2 ^ src)).getLsbD src = true := by
    simp only [wd, BitVec.getLsbD_ofNat, Nat.testBit_two_pow_self, hs, decide_true, Bool.and_true]
  rw [rdB, rd_recordData s o part hd, rd_orReg_self, bit, BitVec.getLsbD_or, hb, Bool.or_true]

@[simp] theorem tl_recordData (src : Nat) (o : Occ) (part : Option Nat) (k : Nat) :
    tl (recordData src o part s) k = tl s k := by
  simp only [recordData]; split <;> rfl

@[simp] theorem memByte_recordData (src : Nat) (o : Occ) (part : Option Nat) (a : Nat) :
    memByte (recordData src o part s) a = memByte s a := by
  simp only [recordData]; split <;> rfl

-- A member of the gang

/-- A member of a gang that faults: FAULTED, with nothing to wait for and nothing fetched. -/
def faultMember (m : Nat) (s : State) : State :=
  s |> setTileState m 5 |> wrF (Reg.tileStatus m) 15 12 0
    |> onTl m (fun x => { x with wait := none, iq := [], br := [], asked := false })

/-- A tile is FAULTED and waits for nothing. -/
def Faulted (m : Nat) (s : State) : Prop := tileState s m = 5 ∧ (tl s m).wait = none

/-- The register files of a tile. -/
def Tile.files (x : Tile) : Map Word × BitVec 8 × Map (BitVec 4096) := (x.g, x.p, x.v)

theorem kept_of_files {m : Nat} {s u : State} (h : (tl u m).files = (tl s m).files) :
    GKept m s u ∧ PKept m s u ∧ VKept m s u := by
  simp only [Tile.files, Prod.mk.injEq] at h
  obtain ⟨hg, hp, hv⟩ := h
  exact ⟨fun r => by simp only [greg, hg], fun i => by simp only [preg, hp], fun r => by simp only [vreg, hv]⟩

theorem rd_faultMember_ne {a m : Nat} (h : a ≠ Reg.tileStatus m) : rd (faultMember m s) a = rd s a := by
  simp [faultMember, setTileState, h]

@[simp] theorem memByte_faultMember (m a : Nat) : memByte (faultMember m s) a = memByte s a := rfl

theorem tl_faultMember_self (m : Nat) : tl (faultMember m s) m
    = { tl s m with wait := none, iq := [], br := [], asked := false } := by
  simp [faultMember, setTileState]

theorem tl_faultMember_ne {m k : Nat} (h : k ≠ m) : tl (faultMember m s) k = tl s k := by
  simp [faultMember, setTileState, h]

@[simp] theorem files_faultMember (m k : Nat) : (tl (faultMember m s) k).files = (tl s k).files := by
  by_cases h : k = m
  · subst h; rw [tl_faultMember_self]; rfl
  · rw [tl_faultMember_ne s h]

theorem faulted_faultMember (m : Nat) : Faulted m (faultMember m s) := by
  refine ⟨?_, by rw [tl_faultMember_self]⟩
  have hne : rdF (wrF (Reg.tileStatus m) 15 12 0 (setTileState m 5 s)) (Reg.tileStatus m) 3 0
      = rdF (setTileState m 5 s) (Reg.tileStatus m) 3 0 := rdF_wrF_other _ _ _ _ _ _ _ (by omega) (by omega) (by omega)
  calc tileState (faultMember m s) m
      = rdF (setTileState m 5 s) (Reg.tileStatus m) 3 0 := hne
    _ = 5 := rdF_wrF_self _ _ _ _ _ (by omega) (by omega)

/-- A tile whose TILE.STATUS and record stay as they are stays faulted. -/
theorem Faulted.of_kept {s u : State} {m : Nat} (h : Faulted m s)
    (hr : rd u (Reg.tileStatus m) = rd s (Reg.tileStatus m)) (ht : tl u m = tl s m) : Faulted m u := by
  obtain ⟨hst, hw⟩ := h
  exact ⟨by rw [← hst, tileState, tileState, rdF, rdF, hr], by rw [ht, hw]⟩

/-- The fault of one member leaves a faulted one faulted. -/
theorem Faulted.faultMember {s : State} {m : Nat} (h : Faulted m s) (k : Nat) : Faulted m (faultMember k s) := by
  by_cases hk : m = k
  · subst hk; exact faulted_faultMember s m
  · exact h.of_kept (rd_faultMember_ne s (tileStatus_inj hk)) (tl_faultMember_ne s hk)

/-- Every member of a list is faulted after the faults of all of them. -/
theorem faulted_foldl {l : List Nat} {m : Nat} (hm : m ∈ l) (s : State) :
    Faulted m (l.foldl (fun s k => faultMember k s) s) := by
  induction l generalizing s with
  | nil => simp at hm
  | cons k l ih =>
    rcases List.mem_cons.1 hm with rfl | hl
    · exact List.foldlRecOn l _ (faulted_faultMember s m) fun u hu k _ => hu.faultMember k
    · exact ih hl _

-- The fault of a whole gang

/-- The captures of a gang's fault: the fault itself on its tile, GANG_MEMBER on the other members (R104). -/
def gangCaptures (t index code : Nat) (ms : List Nat) (s : State) : State :=
  (ms.filter (fun m => m ≠ t)).foldl (fun s m => captureTile m 8 s) (captureAt t index code s)

/-- A tile fault as captures, the faults of the members and a record. -/
theorem tileFaultAt_eq (index code : Nat) : ∃ o, tileFaultAt t index code s
    = recordData srcTile o (some (t / 128)) ((membersOf s (leaderOf s t)).foldl (fun s m => faultMember m s)
        (gangCaptures t index code (membersOf s (leaderOf s t)) s)) := ⟨_, rfl⟩

/-- What reads alike before and after a function run for each member of a list reads alike at the end. -/
theorem foldl_keeps {α : Type} (q : State → α) (f : State → Nat → State) (l : List Nat)
    (h : ∀ u, ∀ m ∈ l, q (f u m) = q u) : q (l.foldl f s) = q s :=
  List.foldlRecOn l f (motive := fun u => q u = q s) rfl fun u hu m hm => (h u m hm).trans hu

theorem rd_gangCaptures_self (index code : Nat) (ms : List Nat) :
    rd (gangCaptures t index code ms s) (Reg.faultInfo t) = rd (captureAt t index code s) (Reg.faultInfo t) := by
  refine foldl_keeps _ (fun u => rd u (Reg.faultInfo t)) _ _ fun u m hm => rd_captureAt_ne u m _ _ ?_
  have hne : m ≠ t := by simpa using (List.mem_filter.1 hm).2
  simp only [Reg.faultInfo, Reg.tileBase]; omega

theorem tl_gangCaptures (index code : Nat) (ms : List Nat) (k : Nat) :
    tl (gangCaptures t index code ms s) k = tl s k :=
  (foldl_keeps _ (fun u => tl u k) _ _ fun u m _ => tl_captureAt u m _ _ k).trans (tl_captureAt s t _ _ k)

theorem memByte_gangCaptures (index code : Nat) (ms : List Nat) (a : Nat) :
    memByte (gangCaptures t index code ms s) a = memByte s a :=
  (foldl_keeps _ (fun u => memByte u a) _ _ fun u m _ => memByte_captureAt u m _ _ a).trans
    (memByte_captureAt s t _ _ a)

/-- FAULT_INFO of the tile that faults reads what its own capture left. -/
theorem rd_tileFaultAt_faultInfo (index code : Nat) : rd (tileFaultAt t index code s) (Reg.faultInfo t)
    = rd (captureAt t index code s) (Reg.faultInfo t) := by
  obtain ⟨o, ho⟩ := tileFaultAt_eq s t index code
  have hmem : ∀ (u : State) (m : Nat), rd (faultMember m u) (Reg.faultInfo t) = rd u (Reg.faultInfo t) := fun u m =>
    rd_faultMember_ne u (by simp only [Reg.faultInfo, Reg.tileStatus, Reg.tileBase]; omega)
  rw [ho, rd_recordData_tileReg _ _ _ (by simp only [Reg.faultInfo, Reg.tileBase]; omega),
    foldl_keeps _ (fun u => rd u (Reg.faultInfo t)) _ _ (fun u m _ => hmem u m), rd_gangCaptures_self]

theorem faulted_tileFaultAt (index code : Nat) {m : Nat} (hm : m ∈ membersOf s (leaderOf s t)) :
    Faulted m (tileFaultAt t index code s) := by
  obtain ⟨o, ho⟩ := tileFaultAt_eq s t index code
  rw [ho]
  exact (faulted_foldl hm _).of_kept (rd_recordData_tileReg _ _ _ (by simp only [Reg.tileStatus, Reg.tileBase]; omega))
    (tl_recordData _ _ _ _ _)

theorem files_tileFaultAt (index code m : Nat) : (tl (tileFaultAt t index code s) m).files = (tl s m).files := by
  obtain ⟨o, ho⟩ := tileFaultAt_eq s t index code
  rw [ho, tl_recordData, foldl_keeps _ (fun u => (tl u m).files) _ _ (fun u k _ => files_faultMember u k m),
    tl_gangCaptures]

theorem memByte_tileFaultAt (index code a : Nat) : memByte (tileFaultAt t index code s) a = memByte s a := by
  obtain ⟨o, ho⟩ := tileFaultAt_eq s t index code
  rw [ho, memByte_recordData, foldl_keeps _ (fun u => memByte u a) _ _ (fun u k _ => memByte_faultMember u k a),
    memByte_gangCaptures]

theorem rdB_tileFaultAt_status (index code : Nat) :
    rdB (tileFaultAt t index code s) Reg.faultStatus srcTile = true := by
  obtain ⟨o, ho⟩ := tileFaultAt_eq s t index code
  rw [ho]; exact rdB_recordData_status _ _ _ (by decide)

/-- A tile fault at the instruction reached leaves what `FaultedWith` says. -/
theorem faultedWith_tileFault (code : Nat) : FaultedWith t code s (tileFault t code s) := by
  have hinfo := (rd_tileFaultAt_faultInfo s t (tileIndex s t) code).trans (rd_captureAt_self s t _ _)
  refine ⟨fun m hm => faulted_tileFaultAt s t _ _ hm, fun h => ?_, fun h => ?_, rdB_tileFaultAt_status s t _ _,
    memByte_tileFaultAt s t _ _, fun m => kept_of_files (files_tileFaultAt s t _ _ m)⟩
  · rwa [h, if_neg (by decide)] at hinfo
  · rwa [h, if_pos rfl] at hinfo

/-- An illegal instruction that a tile can issue faults, whatever its guard (R68, R71, R74). -/
theorem issue_illegal (pn : Bool) (pg : BitVec 3) (reads : List Nat) (body : State → State)
    (hc : canIssue s t = true) : issue t pn pg true reads body s = tileFault t 1 s := by
  rcases issue_cases s t pn pg true reads body with c | ⟨_, _, he⟩ | c | c | c
  · simp [hc] at c
  · exact he
  all_goals simp at c

end Sys2Proof.Machine
end

section
/-! PROOFS. The values of the scalar instructions (R77). -/

namespace Sys2Proof.Machine

-- The high half of a product

/-- Bits [127:64] of a signed product, as a quotient. -/
theorem signedHigh_eq (a b : Word) : BitVec.ofInt 64 (a.toInt * b.toInt / 2 ^ 64)
    = (a.signExtend 128 * b.signExtend 128).extractLsb' 64 64 := by
  have hp : a.signExtend 128 * b.signExtend 128 = BitVec.ofInt 128 (a.toInt * b.toInt) := by
    rw [BitVec.ofInt_mul]; rfl
  rw [hp]
  generalize a.toInt * b.toInt = p
  apply BitVec.eq_of_toNat_eq
  simp only [BitVec.toNat_ofInt, BitVec.extractLsb'_toNat, Nat.shiftRight_eq_div_pow]
  omega

/-- Bits [127:64] of an unsigned product, as a quotient. -/
theorem unsignedHigh_eq (a b : Word) : BitVec.ofNat 64 (a.toNat * b.toNat / 2 ^ 64)
    = (a.zeroExtend 128 * b.zeroExtend 128).extractLsb' 64 64 := by
  have ha : a.toNat % 2 ^ 128 = a.toNat := Nat.mod_eq_of_lt (by have := a.isLt; omega)
  have hb : b.toNat % 2 ^ 128 = b.toNat := Nat.mod_eq_of_lt (by have := b.isLt; omega)
  apply BitVec.eq_of_toNat_eq
  simp only [BitVec.toNat_ofNat, BitVec.extractLsb'_toNat, BitVec.toNat_mul, BitVec.truncate_eq_setWidth,
    BitVec.toNat_setWidth, ha, hb, Nat.shiftRight_eq_div_pow]
  omega

/-- MUL by its bits FN[0] and FN[1]. -/
theorem mulWord_eq {n : Nat} (fn : BitVec n) (a b : Word) : mulWord fn.toNat a b
    = if fn.getLsbD 0 = false then a * b
      else if fn.getLsbD 1 = true then (a.signExtend 128 * b.signExtend 128).extractLsb' 64 64
      else (a.zeroExtend 128 * b.zeroExtend 128).extractLsb' 64 64 := by
  simp only [mulWord, BitVec.testBit_toNat, Bool.not_eq_true', signedHigh_eq, unsignedHigh_eq]

/-- CMP answers the comparison that its number names. -/
theorem compares_cmpWord (k : Nat) (a b : Word) : Compares k a b (cmpWord k a b) := by
  refine ⟨?_, ?_, ?_, ?_, ?_, ?_⟩ <;> rintro rfl
  · rfl
  · simp [cmpWord, bne, beq_eq_decide]
  · rfl
  · rfl
  · rfl
  · rfl

-- The instructions

/-- An instruction changed a general register of its tile, its INDEX and its CYCLES, and nothing else. -/
def OnlyWroteG (t : Nat) (d : BitVec 5) (v : Word) (s u : State) : Prop :=
  WroteG t d v s u ∧ PKept t s u ∧ VKept t s u ∧ (tl u t).rest = (tl s t).rest ∧ MovedOn t [] s u ∧ MemKept s u

/-- An instruction changed a predicate of its tile, its INDEX and its CYCLES, and nothing else. -/
def OnlyWroteP (t d : Nat) (b : Bool) (s u : State) : Prop :=
  WroteP t d b s u ∧ GKept t s u ∧ VKept t s u ∧ (tl u t).rest = (tl s t).rest ∧ MovedOn t [] s u ∧ MemKept s u

section
variable {t : Nat} {s : State} {c : Instr} {f : Word → Word → Word} {v : Word}

/-- A command that issues a write of a general register completes with it. -/
theorem issue_putG_completes {pn : Bool} {pg : BitVec 3} {illegal : Bool} {reads : List Nat} {d : BitVec 5}
    {val : State → Word} (hr : Runs s t pn pg reads) (hi : illegal = false)
    (hc : exec c s = ok (issue t pn pg illegal reads (fun s => putG t d (val s) s) s)) (hv : val s = v) :
    Completes c s (OnlyWroteG t d v s) := by
  rw [issue_runs s t _ hr hi, hv] at hc
  exact ⟨_, hc, putG_done s t d v⟩

/-- A command that issues a write of a predicate completes with it. -/
theorem issue_putP_completes {pn : Bool} {pg : BitVec 3} {illegal : Bool} {reads : List Nat} {d : Nat}
    {val : State → Bool} {b : Bool} (hd : d < 8) (hr : Runs s t pn pg reads) (hi : illegal = false)
    (hc : exec c s = ok (issue t pn pg illegal reads (fun s => putP t d (val s) s) s)) (hv : val s = b) :
    Completes c s (OnlyWroteP t d b s) := by
  rw [issue_runs s t _ hr hi, hv] at hc
  exact ⟨_, hc, putP_done s t hd b⟩

/-- A command that issues an illegal word faults. -/
theorem issue_illegal_completes {pn : Bool} {pg : BitVec 3} {illegal : Bool} {reads reads' : List Nat}
    {body : State → State} (hr : Runs s t pn pg reads) (hi : illegal = true)
    (hc : exec c s = ok (issue t pn pg illegal reads' body s)) : Completes c s (FaultedWith t 1 s) := by
  obtain ⟨hcan, _, _⟩ := hr
  rw [hi, issue_illegal s t _ _ _ _ hcan] at hc
  exact ⟨_, hc, faultedWith_tileFault s t 1⟩

/-- A scalar instruction of two registers writes its function's value. -/
theorem scalarS_completes {x : SArgs} (hr : Runs s t x.pn x.pg [x.a.toNat, x.b.toNat]) (h0 : x.rsv = 0)
    (hc : exec c s = ok (scalarS t x f s)) (hv : f (gv s t x.a) (gv s t x.b) = v) :
    Completes c s (OnlyWroteG t x.d v s) :=
  issue_putG_completes hr (by simp [h0]) hc hv

/-- A scalar instruction with an immediate writes its function's value. -/
theorem scalarI_completes {x : IArgs} (hr : Runs s t x.pn x.pg [x.a.toNat])
    (hc : exec c s = ok (scalarI t x f s)) (hv : f (gv s t x.a) (x.imm.signExtend 64) = v) :
    Completes c s (OnlyWroteG t x.d v s) :=
  issue_putG_completes hr rfl hc hv

end

theorem cmpIllegal_eq_false {n : Nat} {d : BitVec 5} {fn : BitVec n} (hd : d.toNat < 8) (hk : fn.toNat % 8 < 6) :
    cmpIllegal d fn.toNat = false := by
  simp only [cmpIllegal, decide_eq_false_iff_not]; omega

theorem cmpIllegal_eq_true {n : Nat} {d : BitVec 5} {fn : BitVec n} (h : 8 ≤ d.toNat ∨ 6 ≤ fn.toNat % 8) :
    cmpIllegal d fn.toNat = true := decide_eq_true h

/-- The register forms; MUL's high half is `mulWord_eq`, every other value is the model's own. -/
theorem scalarRegisterResults : ScalarRegisterResults := by
  intro t x s hr h0 iv hiv
  simp only [List.mem_cons, List.not_mem_nil, or_false] at hiv
  rcases hiv with rfl | rfl | rfl | rfl | rfl | rfl | rfl | rfl
  case inr.inr.inl => exact scalarS_completes hr h0 rfl (mulWord_eq x.fn _ _)
  all_goals exact scalarS_completes hr h0 rfl rfl

/-- The immediate forms, as `scalarRegisterResults`. -/
theorem scalarImmediateResults : ScalarImmediateResults := by
  intro t x s hr iv hiv
  simp only [List.mem_cons, List.not_mem_nil, or_false] at hiv
  rcases hiv with rfl | rfl | rfl | rfl | rfl | rfl | rfl | rfl
  case inr.inr.inl => exact scalarI_completes hr rfl (mulWord_eq x.fn _ _)
  all_goals exact scalarI_completes hr rfl rfl

/-- Comparisons and SEL; a comparison is illegal exactly where `cmpIllegal` says so. -/
theorem compareAndSelect : CompareAndSelect := by
  refine ⟨fun t x s hr h0 => ⟨fun hd hk => ?_, fun _ hbad => ?_, ?_⟩,
    fun t x s hr => ⟨fun hd hk => ?_, fun _ hbad => ?_⟩⟩
  · exact ⟨_, compares_cmpWord _ _ _, issue_putP_completes hd hr (by simp [h0, cmpIllegal_eq_false hd hk]) rfl rfl⟩
  · exact issue_illegal_completes hr (by rw [cmpIllegal_eq_true hbad, Bool.or_true]) rfl
  · exact issue_putG_completes hr (by simp [h0]) rfl rfl
  · exact ⟨_, compares_cmpWord _ _ _, issue_putP_completes hd hr (cmpIllegal_eq_false hd hk) rfl rfl⟩
  · exact issue_illegal_completes hr (cmpIllegal_eq_true hbad) rfl

/-- Settles O6: every scalar form runs its body, which writes the value of R77 and goes on; an illegal CMP faults. -/
theorem scalarResults : Obligations.ScalarResults :=
  ⟨scalarRegisterResults, scalarImmediateResults, compareAndSelect⟩

end Sys2Proof.Machine
end

section
/-! PROOFS. A unit of a tile on the tile's own SRAM: what it has changed before the tile goes on, how it is granted its
ranges, what it reads there (R66, R70, R79, R146). -/

namespace Sys2Proof.Machine

variable {s v : State} {t : Nat} {l : List Nat}

-- What an instruction has changed before its tile goes on

/-- Since `s`, an instruction of a tile has changed at most some registers, memory, the tile's own record but for its
register files, and the queues of the tile's banks. -/
structure OnlyTouched (t : Nat) (l : List Nat) (s v : State) : Prop where
  rest : v.rest = { s with banks := v.banks }.rest
  banks : ∀ g, g / 16 ≠ t → bank v g = bank s g
  regs : RegsKept l s v
  tiles : TilesKept t s v
  files : (tl v t).files = (tl s t).files

theorem OnlyTouched.onTl (h : OnlyTouched t l s v) {f : Tile → Tile} (hf : ∀ x, (f x).files = x.files) :
    OnlyTouched t l s (onTl t f v) where
  rest := h.rest
  banks := h.banks
  regs := h.regs
  tiles k hk := (tl_onTl_ne v f hk).trans (h.tiles k hk)
  files := by rw [tl_onTl_self, hf, h.files]

theorem OnlyTouched.wrReg (h : OnlyTouched t l s v) {a : Nat} (ha : a ∈ l) (w : Word) :
    OnlyTouched t l s (wrReg a w v) where
  rest := h.rest
  banks := h.banks
  regs b hb := (rd_wrReg_ne v w (ne_of_mem_of_not_mem ha hb).symm).trans (h.regs b hb)
  tiles := h.tiles
  files := h.files

theorem OnlyTouched.raiseFlags (h : OnlyTouched t l s v) (ha : Reg.arithStatus t ∈ l) (f : AFlags) :
    OnlyTouched t l s (raiseFlags t f v) := by
  unfold Machine.raiseFlags
  split
  · exact h
  · exact h.wrReg ha _

/-- The tile goes on from what it has changed (R96, R100). -/
theorem OnlyTouched.goesOn (h : OnlyTouched t l s v) (hs : Reg.tileStatus t ∉ l) (hc : Reg.cycles t ∉ l) :
    GKept t s (advance t v) ∧ PKept t s (advance t v) ∧ VKept t s (advance t v)
      ∧ MovedOnSram t l s (advance t v) := by
  have hfiles : (tl (advance t v) t).files = (tl s t).files := by rw [tl_advance]; exact h.files
  obtain ⟨hg, hp, hv⟩ := kept_of_files hfiles
  exact ⟨hg, hp, hv, advance_movedOn { s with banks := v.banks } t h.rest (h.regs _ hs) (h.regs _ hc) h.regs h.tiles,
    h.banks⟩

@[simp] theorem tl_raiseFlags (f : AFlags) (k : Nat) : tl (raiseFlags t f s) k = tl s k := by
  unfold raiseFlags; split <;> rfl

@[simp] theorem memByte_raiseFlags (f : AFlags) (a : Nat) : memByte (raiseFlags t f s) a = memByte s a := by
  unfold raiseFlags; split <;> rfl

-- The grant of some ranges

/-- The state once the banks have admitted a unit's access. -/
def admitted (t : Nat) (b : Map Bank) (s : State) : State :=
  onTl t (fun x => { x with asked := true }) { s with banks := b }

@[simp] theorem tl_admitted (b : Map Bank) : tl (admitted t b s) t = { tl s t with asked := true } := by
  rw [admitted, tl_onTl_self]; rfl

@[simp] theorem memByte_admitted (b : Map Bank) (a : Nat) : memByte (admitted t b s) a = memByte s a := rfl

@[simp] theorem memBytes_admitted (b : Map Bank) (a n : Nat) : memBytes (admitted t b s) a n = memBytes s a n := rfl

theorem Quiet.admitted {off n : Nat} (h : Quiet s t off n) (b : Map Bank) : Quiet (admitted t b s) t off n := by
  obtain ⟨hclean, hsettled⟩ := h
  exact ⟨hclean, by rwa [tl_admitted]⟩

theorem onlyTouched_admitted {b : Map Bank} (hb : ∀ g, g / 16 ≠ t → mget {} b g = mget {} s.banks g) :
    OnlyTouched t l s (admitted t b s) where
  rest := rfl
  banks := hb
  regs _ _ := rfl
  tiles _ hk := tl_onTl_ne { s with banks := b } _ hk
  files := by rw [tl_admitted]; rfl

theorem localCheck_of_mayUse {off n : Nat} (h : MayUse s t off n) : localCheck s t off n = none := by
  obtain ⟨hin, hbanks⟩ := h
  have hp : (banksOf off n).any (fun b => handoverPending s t b) = false := by
    simpa using fun b hb => (hbanks b hb).1
  have ho : (banksOf off n).all (fun b => owns s t b t (tileTenant s t)) = true := by
    simpa using fun b hb => (hbanks b hb).2
  simp [localCheck, Nat.not_lt.2 hin, hp, ho]

theorem firstRefused_eq_none {r : List (Nat × Nat)} (h : ∀ p ∈ r, localCheck s t p.1 p.2 = none) :
    firstRefused s t r = none := by
  induction r with
  | nil => rfl
  | cons p r ih =>
    obtain ⟨hp, hr⟩ := List.forall_mem_cons.1 h
    simp [firstRefused, hp, ih hr]

/-- Ranges of a tile's SRAM that its banks admit change the queues of the tile's banks alone. -/
theorem admitRanges_frame (e : BankEntry) {r : List (Nat × Nat)} (h : ∀ p ∈ r, p.1 + p.2 ≤ 0x200000 ∧ p.2 ≠ 0)
    (s : State) :
    ∃ b, r.foldl (fun s p => admitWords (sramAddr t p.1) p.2 e s) s = { s with banks := b }
      ∧ ∀ g, g / 16 ≠ t → mget {} b g = mget {} s.banks g := by
  induction r generalizing s with
  | nil => exact ⟨s.banks, rfl, fun _ _ => rfl⟩
  | cons p r ih =>
    obtain ⟨⟨hin, hn⟩, hr⟩ := List.forall_mem_cons.1 h
    obtain ⟨b, hb, hkept⟩ := admitWords_frame s (sramAddr t p.1) p.2 e
    obtain ⟨b', hb', hkept'⟩ := ih hr { s with banks := b }
    refine ⟨b', ?_, fun g hg => (hkept' g hg).trans (hkept g (fun m => hg (banksAt_sram hin hn m)))⟩
    rw [List.foldl_cons, hb]; exact hb'

/-- A unit that may access each of some ranges has them all at once (R146, R153): `askBanks_granted` for any number of
ranges, empty ones among them. -/
theorem withLocal_granted {port : Nat} {r : List (Nat × Nat)} (isWrite two : Bool) (body : State → State)
    (ha : (tl s t).asked = false) (h : ∀ p ∈ r, MayAccess s t port p.1 p.2) :
    ∃ b, withLocal t port r isWrite two body s = body (admitted t b s)
      ∧ ∀ g, g / 16 ≠ t → mget {} b g = mget {} s.banks g := by
  have hfilter : ∀ p ∈ r.filter (fun p => p.2 != 0), MayAccess s t port p.1 p.2 ∧ p.2 ≠ 0 := by
    intro p hp
    obtain ⟨hp, hn⟩ := List.mem_filter.1 hp
    exact ⟨h p hp, by simpa using hn⟩
  have hrefused := firstRefused_eq_none fun p hp => localCheck_of_mayUse (hfilter p hp).1.1
  have hclear : (r.filter (fun p => p.2 != 0)).all (fun p => banksClear s port (sramAddr t p.1) p.2) = true :=
    List.all_eq_true.2 fun p hp => (hfilter p hp).1.2.1
  obtain ⟨b, hb, hkept⟩ := admitRanges_frame (t := t)
    { port := port, word := 0, left := 0, isRead := !isWrite, two := two, index := tileIndex s t, work := .spent }
    (fun p hp => ⟨(hfilter p hp).1.1.1, (hfilter p hp).2⟩) s
  refine ⟨b, ?_, hkept⟩
  simp only [withLocal, askBanks, ha, hrefused, hclear, Bool.false_eq_true, if_false, if_true, hb, admitted]

-- Reading

/-- Bytes whose check bits show no error are read without a count (R143). -/
theorem noteErrors_of_clean {a n : Nat} (o : Occ) (h : ∀ u ∈ unitsOf a n, eccOf s u = .clean) :
    noteErrors a n o s = s := by
  unfold noteErrors
  refine List.foldlRecOn (motive := fun w => w = s) _ _ rfl fun w hw u hu => ?_
  subst hw
  simp only [h u hu]

/-- Bytes with nothing on its way to them read as memory holds them (R70). -/
theorem ownBytes_of_settled {off n : Nat} (h : ∀ u ∈ (tl s t).unsettled, ¬ (off ≤ u.off ∧ u.off < off + n)) :
    ownBytes t off n s = (memBytes s (sramAddr t off) n, s) := by
  have hlive : (tl s t).unsettled.filter (fun u => stillOld s t (rd s (Reg.cycles t)).toNat u.till
      && decide (off ≤ u.off ∧ u.off < off + n)) = [] :=
    List.filter_eq_nil_iff.2 fun u hu => by rw [decide_eq_false (h u hu), Bool.and_false]; decide
  simp only [ownBytes, hlive, if_true]

theorem loadGranted_of_quiet {off n : Nat} (body : List Byte → State → State) (h : Quiet s t off n) :
    loadGranted t off n body s = body (memBytes s (sramAddr t off) n) s := by
  obtain ⟨hclean, hsettled⟩ := h
  have hpoison : poisonedIn s (sramAddr t off) n = [] :=
    List.filter_eq_nil_iff.2 fun u hu => by simp [hclean u hu]
  simp [loadGranted, noteBankErrors, noteErrors_of_clean _ hclean, hpoison, ownBytes_of_settled hsettled]

-- Writing

@[simp] theorem leBytes_length (n v : Nat) : (leBytes n v).length = n := by
  induction n generalizing v with
  | zero => rfl
  | succ n ih => simp [leBytes, ih]

theorem putUnblocked_frame (blocked : List Nat) (a : Nat) (bs : List Byte) (s : State) :
    ∃ m, putUnblocked blocked a bs s = { s with mem := m } := by
  induction bs generalizing a s with
  | nil => exact ⟨s.mem, rfl⟩
  | cons b r ih =>
    rw [putUnblocked]
    split
    · exact ih _ _
    · exact ih _ (putByte a b s)

/-- A write to memory changes memory and its check bits alone. -/
theorem writeMem_frame (whole poison : Bool) (a : Nat) (bs : List Byte) (s : State) :
    ∃ m e, (writeMem whole poison a bs s).2 = { s with mem := m, ecc := e } := by
  obtain ⟨m, hm⟩ := putUnblocked_frame (blockedIn s whole a bs.length) a bs s
  simp only [writeMem, hm]
  refine ⟨m, List.foldlRecOn _ _ (motive := fun w : State => ∃ e, w = { s with mem := m, ecc := e })
    ⟨s.ecc, rfl⟩ ?_⟩
  rintro _ ⟨e, rfl⟩ u _
  exact ⟨_, rfl⟩

/-- Where no unit is poisoned, memory holds what was written. -/
theorem memBytes_writeMem (whole poison : Bool) {a : Nat} {bs : List Byte}
    (h : ∀ u ∈ unitsOf a bs.length, eccOf s u = .clean) :
    memBytes (writeMem whole poison a bs s).2 a bs.length = bs := by
  refine List.ext_getElem (memBytes_length ..) fun i _ hi => ?_
  simp [memBytes, memByte_writeMem s _ _ _ _ _ (blockedIn_of_clean s whole a _ h), memByte_putBytes, hi]

theorem OnlyTouched.slowStore (h : OnlyTouched t l s v) (off lat : Nat) (bs : List Byte) :
    OnlyTouched t l s (slowStore t off lat bs v) := by
  obtain ⟨m, e, hw⟩ := writeMem_frame true false (sramAddr t off) bs v
  have hmem : OnlyTouched t l s { v with mem := m, ecc := e } := ⟨h.rest, h.banks, h.regs, h.tiles, h.files⟩
  simp only [Machine.slowStore, hw]
  exact hmem.onTl fun _ => rfl

theorem tl_slowStore (off lat : Nat) (bs : List Byte) :
    ∃ w, tl (slowStore t off lat bs s) t = { tl s t with unsettled := w } := by
  obtain ⟨m, e, hw⟩ := writeMem_frame true false (sramAddr t off) bs s
  simp only [slowStore, hw, tl_onTl_self]
  exact ⟨_, rfl⟩

theorem memBytes_slowStore {off lat : Nat} {bs : List Byte} (h : Quiet s t off bs.length) :
    memBytes (slowStore t off lat bs s) (sramAddr t off) bs.length = bs :=
  memBytes_writeMem true false h.1

theorem memKeptBut_slowStore (off lat : Nat) (bs : List Byte) :
    MemKeptBut (sramAddr t off) bs.length s (slowStore t off lat bs s) :=
  fun c hc => memByte_writeMem_out s true false _ c bs hc

end Sys2Proof.Machine
end

section
/-! PROOFS. The matrix unit (R110–R127): what MXW loads, what MXM leaves in its accumulator, what MXD and MXX store. -/

namespace Sys2Proof.Machine

variable {s v : State} {t : Nat} {x : XArgs}

theorem tileStatus_ne_arithStatus (a b : Nat) : Reg.tileStatus a ≠ Reg.arithStatus b := by
  simp only [Reg.tileStatus, Reg.arithStatus, Reg.tileBase]; omega

theorem cycles_ne_arithStatus (a b : Nat) : Reg.cycles a ≠ Reg.arithStatus b := by
  simp only [Reg.cycles, Reg.arithStatus, Reg.tileBase]; omega

/-- A matrix instruction that has changed no register but ARITH_STATUS goes on. -/
theorem OnlyTouched.matrixGoesOn (h : OnlyTouched t [Reg.arithStatus t] s v) :
    GKept t s (advance t v) ∧ PKept t s (advance t v) ∧ VKept t s (advance t v)
      ∧ MovedOnSram t [Reg.arithStatus t] s (advance t v) :=
  h.goesOn (by simp [tileStatus_ne_arithStatus]) (by simp [cycles_ne_arithStatus])

theorem matCheck_of_fits {off n : Nat} (body : State → State) (h64 : off % 64 = 0) (hoff : off < 0x200000)
    (hin : off + n ≤ 0x200000) : matCheck t off n body s = body s := by
  rw [matCheck, if_neg (not_not.2 h64), if_neg (by omega)]

/-- An operand that can be read is read as memory holds it. -/
theorem matLoad_of_canRead {off n : Nat} (body : List Byte → State → State) (h : CanRead s t off n) :
    ∃ b, matLoad t off n body s = body (memBytes s (sramAddr t off) n) (admitted t b s)
      ∧ ∀ g, g / 16 ≠ t → mget {} b g = mget {} s.banks g := by
  obtain ⟨h64, hoff, hmay, hquiet⟩ := h
  obtain ⟨b, hb, hkept⟩ := withLocal_granted (r := [(off, n)]) false false (loadGranted t off n body) hmay.2.2
    (List.forall_mem_singleton.2 hmay)
  refine ⟨b, ?_, hkept⟩
  rw [matLoad, matCheck_of_fits _ h64 hoff hmay.1.1, withLoad, hb, loadGranted_of_quiet _ (hquiet.admitted b),
    memBytes_admitted]

-- MXW

/-- A tile has loaded a weight buffer and gone on. -/
def LoadedWeights (t : Nat) (i : Nat) (b : WBuf) (s u : State) : Prop :=
  wbuf (tl u t) i = b ∧ (∀ w, w ≠ i → wbuf (tl u t) w = wbuf (tl s t) w) ∧ (tl u t).acc = (tl s t).acc
    ∧ GKept t s u ∧ PKept t s u ∧ VKept t s u ∧ MovedOnSram t [] s u ∧ MemKept s u

theorem mxw_completes {n : Nat} {o : Operand} {buf : WBuf} (hr : Runs s t x.pn x.pg [x.a.toNat]) (h0 : x.rsv = 0)
    (hf : matFmt x.fmtW.toNat = true)
    (hn : n = elemBytes x.fmtW.toNat 64 (classK x.fmtW.toNat) + scaleBytes x.fmtW.toNat 64 (classK x.fmtW.toNat))
    (hread : CanRead s t (gv s t x.a).toNat n)
    (ho : o = operandOf x.fmtW.toNat 64 (classK x.fmtW.toNat) (memBytes s (sramAddr t (gv s t x.a).toNat) n))
    (hbuf : buf = { fmt := some x.fmtW.toNat, elems := o.elems, scales := o.scales, ew := o.exponent }) :
    Completes (.mxw t x) s (LoadedWeights t x.wb.toNat buf s) := by
  have hc : exec (.mxw t x) s = ok (issue t x.pn x.pg (decide (x.rsv ≠ 0)) [x.a.toNat] _ s) := rfl
  rw [issue_runs s t _ hr (by simp [h0])] at hc
  simp only [hf, Bool.not_true, Bool.false_eq_true, if_false, ← hn] at hc
  obtain ⟨b, hb, hbanks⟩ := matLoad_of_canRead _ hread
  rw [hb, ← ho, ← hbuf] at hc
  refine ⟨_, hc, ?_⟩
  obtain ⟨hg, hp, hv, hm⟩ := ((onlyTouched_admitted (l := []) hbanks).onTl
    (f := fun y => { y with wb := mset {} y.wb x.wb.toNat buf }) fun _ => rfl).goesOn List.not_mem_nil List.not_mem_nil
  refine ⟨?_, fun w hw => ?_, ?_, hg, hp, hv, hm, fun _ => rfl⟩
  · simp [tl_advance, wbuf, mget_mset_self]
  · simp [tl_advance, wbuf, mget_mset_ne _ _ _ hw]
  · simp [tl_advance]

-- MXM

/-- The start governor lets an MXM go that is not the first after a release (R369). -/
theorem governed_none (body : State → State) (h : (tl s t).firstMxm = none) : governed t body s = body s := by
  simp only [governed, h]

/-- The rows that an MXM produces (R113). -/
def mxmRows (x : XArgs) : Nat := if x.sw then 1 else x.beats.toNat + 1

/-- MXM once it is issued: it faults where a chained one would produce other rows than its accumulator holds. -/
theorem exec_mxm (hr : Runs s t x.pn x.pg [x.a.toNat]) (hb : x.sw = true → x.b = 0 ∨ x.b.toNat ∉ (tl s t).pend)
    (h0 : x.rsv = 0) (hg : (tl s t).firstMxm = none) : exec (.mxm t x) s = ok
      (if x.chain && (accOf (tl s t) x.acc.toNat).rows != 0 && (accOf (tl s t) x.acc.toNat).rows != mxmRows x
        then tileFault t 1 s else if x.sw then mxmStream t x s else mxmBuffer t x s) := by
  have hreads : Runs s t x.pn x.pg (if x.sw then [x.a.toNat, x.b.toNat] else [x.a.toNat]) := by
    obtain ⟨hcan, hguard, ha⟩ := hr
    refine ⟨hcan, hguard, ?_⟩
    cases hsw : x.sw
    · simpa using ha
    · refine List.forall_mem_cons.2 ⟨ha _ (List.mem_singleton_self _), List.forall_mem_singleton.2 ?_⟩
      exact (hb hsw).imp_left fun e => by simp [e]
  have hc : exec (.mxm t x) s = ok (issue t x.pn x.pg (decide (x.rsv ≠ 0)) _ (governed t _) s) := rfl
  rw [hc, issue_runs s t _ hreads (by simp [h0]), governed_none _ hg]
  rfl

/-- A tile has put an accumulator in place and gone on, weights and memory as before. -/
def Multiplied (t : Nat) (i : Nat) (c : Acc) (s u : State) : Prop :=
  accOf (tl u t) i = c ∧ (∀ a, a ≠ i → accOf (tl u t) a = accOf (tl s t) a) ∧ (tl u t).wb = (tl s t).wb
    ∧ GKept t s u ∧ PKept t s u ∧ VKept t s u ∧ MovedOnSram t [Reg.arithStatus t] s u ∧ MemKept s u

theorem OnlyTouched.putAcc (h : OnlyTouched t [Reg.arithStatus t] s v) (a : Nat) (start old : Acc) (r : Acc × Bool)
    (re : Bool) : OnlyTouched t [Reg.arithStatus t] s (putAcc t a start old r re v) :=
  have ha : Reg.arithStatus t ∈ [Reg.arithStatus t] := List.mem_singleton_self _
  ((h.onTl (f := fun y => { y with acc := mset {} y.acc a r.1 }) fun _ => rfl).wrReg ha _).raiseFlags ha _

theorem tl_putAcc (a : Nat) (start old : Acc) (r : Acc × Bool) (re : Bool) :
    tl (putAcc t a start old r re s) t = { tl s t with acc := mset {} (tl s t).acc a r.1 } := by
  simp [putAcc]

@[simp] theorem memByte_putAcc (a : Nat) (start old : Acc) (r : Acc × Bool) (re : Bool) (c : Nat) :
    memByte (putAcc t a start old r re s) c = memByte s c := by
  simp [putAcc]

/-- The accumulator that the products of an MXM leave (R116–R122). -/
def mxmResult (s : State) (t : Nat) (x : XArgs) (input : Operand) (ew : Int) (f : Nat → Nat → Nat → Num) (k : Nat) :
    Acc :=
  (mxmBeats input f x.sw k (x.beats.toNat + 1)
    (startAcc (accOf (tl s t) x.acc.toNat) x.chain (ew + input.exponent) (mxmRows x)).1).1

/-- An MXM puts its result in its accumulator, keeps count of its beats and goes on. -/
theorem mxmRun_eq (input : Operand) (ew : Int) (f : Nat → Nat → Nat → Num) (k : Nat) :
    ∃ start r re beats, r.1 = mxmResult s t x input ew f k
      ∧ mxmRun t x input ew (some f) k s = advance t (onTl t (fun y => { y with beats := beats, ballast := 0 })
          (putAcc t x.acc.toNat start (accOf (tl s t) x.acc.toNat) r re s)) :=
  ⟨_, _, _, _, rfl, rfl⟩

/-- The products of an MXM whose operands the banks have let it read. -/
theorem multiplied_mxmRun {b : Map Bank} (hb : ∀ g, g / 16 ≠ t → mget {} b g = mget {} s.banks g) (input : Operand)
    (ew : Int) (f : Nat → Nat → Nat → Num) (k : Nat) :
    Multiplied t x.acc.toNat (mxmResult s t x input ew f k) s (mxmRun t x input ew (some f) k (admitted t b s)) := by
  obtain ⟨start, r, re, beats, hresult, hrun⟩ := mxmRun_eq (s := admitted t b s) (t := t) (x := x) input ew f k
  have hsame : r.1 = mxmResult s t x input ew f k := by rw [hresult, mxmResult, tl_admitted]; rfl
  obtain ⟨hg, hp, hv, hm⟩ := (((onlyTouched_admitted hb).putAcc x.acc.toNat start
    (accOf (tl (admitted t b s) t) x.acc.toNat) r re).onTl (f := fun y => { y with beats := beats, ballast := 0 })
    fun _ => rfl).matrixGoesOn
  rw [hrun]
  refine ⟨?_, fun a ha => ?_, ?_, hg, hp, hv, hm, fun a => ?_⟩
  · simp [tl_advance, tl_putAcc, accOf, mget_mset_self, hsame]
  · simp [tl_advance, tl_putAcc, accOf, mget_mset_ne _ _ _ ha]
  · simp [tl_advance, tl_putAcc]
  · simp

/-- MXM with its weights in a buffer that holds format `c` (R111). -/
theorem mxmBuffer_multiplied {c k n : Nat} {input weights : Operand}
    (hc : (wbuf (tl s t) x.wb.toNat).fmt = some c) (hpair : pairOk x.fmtA.toNat c = true)
    (hk : k = min (classK x.fmtA.toNat) (classK c)) (hn : n = mxmInputSize x k)
    (hread : CanRead s t (gv s t x.a).toNat n)
    (hinput : input = mxmInput x k (memBytes s (sramAddr t (gv s t x.a).toNat) n))
    (hweights : weights = { fmt := c, elems := (wbuf (tl s t) x.wb.toNat).elems,
                            scales := (wbuf (tl s t) x.wb.toNat).scales, vecs := 64, len := classK c }) :
    Multiplied t x.acc.toNat
      (mxmResult s t x input (wbuf (tl s t) x.wb.toNat).ew (fun _ n j => weights.at_ n j) k) s (mxmBuffer t x s) := by
  simp only [mxmBuffer, hc, hpair, ← hk, ← hn, Bool.not_true, Bool.false_eq_true, if_false, bufWeights,
    Option.map_some, ← hweights]
  obtain ⟨b, hb, hbanks⟩ := matLoad_of_canRead _ hread
  rw [hb, ← hinput]
  exact multiplied_mxmRun hbanks _ _ _ _

/-- MXM with streamed weights, both operands granted together (R112). -/
theorem mxmStream_multiplied {k n m : Nat} {input weights : Operand}
    (hpair : pairOk x.fmtA.toNat x.fmtW.toNat = true)
    (hk : k = min (classK x.fmtA.toNat) (classK x.fmtW.toNat)) (hn : n = mxmInputSize x k)
    (hread : CanRead s t (gv s t x.a).toNat n)
    (hm : m = elemBytes x.fmtW.toNat (64 * (x.beats.toNat + 1)) k + scaleBytes x.fmtW.toNat (64 * (x.beats.toNat + 1)) k)
    (hreadW : CanRead s t (gv s t x.b).toNat m)
    (hinput : input = mxmInput x k (memBytes s (sramAddr t (gv s t x.a).toNat) n))
    (hweights : weights = operandOf x.fmtW.toNat (64 * (x.beats.toNat + 1)) k
      (memBytes s (sramAddr t (gv s t x.b).toNat) m)) :
    Multiplied t x.acc.toNat
      (mxmResult s t x input weights.exponent (fun i n j => weights.at_ (64 * i + n) j) k) s (mxmStream t x s) := by
  obtain ⟨ha64, haoff, hamay, haquiet⟩ := hread
  obtain ⟨hb64, hboff, hbmay, hbquiet⟩ := hreadW
  simp only [mxmStream, hpair, ← hk, ← hn, ← hm, Bool.not_true, Bool.false_eq_true, if_false]
  rw [matCheck_of_fits _ ha64 haoff hamay.1.1, matCheck_of_fits _ hb64 hboff hbmay.1.1]
  obtain ⟨b, hb, hbanks⟩ := withLocal_granted (r := [((gv s t x.a).toNat, n), ((gv s t x.b).toNat, m)])
    false false _ hamay.2.2 (List.forall_mem_cons.2 ⟨hamay, List.forall_mem_singleton.2 hbmay⟩)
  rw [hb, loadGranted_of_quiet _ (haquiet.admitted b), loadGranted_of_quiet _ (hbquiet.admitted b), memBytes_admitted,
    memBytes_admitted, ← hinput, ← hweights]
  exact multiplied_mxmRun hbanks _ _ _ _

theorem mxmRows_mismatch_false {c : Acc} (h : x.chain = true → c.rows = 0 ∨ c.rows = mxmRows x) :
    ¬ (x.chain && c.rows != 0 && c.rows != mxmRows x) = true := by
  simp only [Bool.and_eq_true, bne_iff_ne]
  rintro ⟨⟨hchain, hrows⟩, hne⟩
  exact (h hchain).elim hrows hne

/-- Loads and products; an MXM's three outcomes are `exec_mxm`'s. -/
theorem matrixLoadAndMultiply : MatrixLoadAndMultiply := by
  intro t x s hr h0
  refine ⟨?_, ?_⟩
  · rintro c n o rfl hf hn hread ho
    exact mxw_completes hr h0 hf hn hread ho rfl
  rintro old beats rfl rfl hg
  refine ⟨fun _ hb hchain hrows hne => ?_, fun hok => ⟨?_, ?_⟩⟩
  · have hc := exec_mxm hr hb h0 hg
    rw [if_pos (by simp [hchain, hrows, mxmRows, hne])] at hc
    exact ⟨_, hc, faultedWith_tileFault s t 1⟩
  · rintro hsw c _ k n input _ weights rfl hfmt hpair hk hn hread hinput hweights rfl
    have hc := exec_mxm hr (by simp [hsw]) h0 hg
    have hm := mxmBuffer_multiplied hfmt hpair hk hn hread hinput hweights
    rw [if_neg (mxmRows_mismatch_false hok), if_neg (by simp [hsw])] at hc
    simp only [mxmResult, mxmRows, hsw, Bool.false_eq_true, if_false] at hm
    exact ⟨_, hc, hm⟩
  · rintro hsw hb _ k n m input weights _ rfl hpair hk hn hread hm hreadW hinput hweights rfl
    have hc := exec_mxm hr (fun _ => hb) h0 hg
    have hm := mxmStream_multiplied hpair hk hn hread hm hreadW hinput hweights
    rw [if_neg (mxmRows_mismatch_false hok), if_pos hsw] at hc
    simp only [mxmResult, mxmRows, hsw, if_true] at hm
    exact ⟨_, hc, hm⟩

-- MXD and MXX

/-- The values of MXD, one for each window (R123). -/
theorem mxdValues_length (f : Fmt) (stoch : Bool) (a : Int) (ws : List Window) (r : List Nat × AFlags × Word) :
    (ws.foldl (mxdValue f stoch a) r).1.length = ws.length + r.1.length := by
  induction ws generalizing r with
  | nil => simp
  | cons w ws ih => rw [List.foldl_cons, ih]; simp only [mxdValue, List.length_cons]; omega

/-- Rounding to nearest treats each window by itself and draws nothing (R123). -/
theorem mxdValues_nearest (f : Fmt) (a : Int) (ws : List Window) (r : List Nat × AFlags × Word) :
    (ws.foldl (mxdValue f false a) r).1 = (ws.map (fun w => ((w.wide a).1.round f).1)).reverse ++ r.1
      ∧ (ws.foldl (mxdValue f false a) r).2.2 = r.2.2 := by
  induction ws generalizing r with
  | nil => exact ⟨rfl, rfl⟩
  | cons w ws ih =>
    obtain ⟨hvals, hgen⟩ := ih (mxdValue f false a r w)
    exact ⟨by rw [List.foldl_cons, hvals]; simp [mxdValue], hgen⟩

theorem Acc.rowWins_length (c : Acc) : c.rowWins.length = 64 * c.rows := by simp [Acc.rowWins]

/-- Numbers written out in as many bytes each. -/
theorem flatMap_leBytes_length {α : Type} (n : Nat) (f : α → Nat) (vs : List α) :
    (vs.flatMap (fun v => leBytes n (f v))).length = n * vs.length := by
  simp [List.length_flatMap, Nat.mul_comm]

/-- Since `s`, a matrix instruction has stored bytes at an offset, its accumulators as before. -/
structure Stored (t off n : Nat) (bs : List Byte) (s v : State) : Prop where
  touched : OnlyTouched t [Reg.arithStatus t] s v
  bytes : memBytes v (sramAddr t off) n = bs
  kept : MemKeptBut (sramAddr t off) n s v
  acc : (tl v t).acc = (tl s t).acc

section
variable {off n : Nat} {bs : List Byte}

theorem Stored.raiseFlags (h : Stored t off n bs s v) (f : AFlags) : Stored t off n bs s (raiseFlags t f v) where
  touched := h.touched.raiseFlags (List.mem_singleton_self _) f
  bytes := by simpa [memBytes] using h.bytes
  kept c hc := (memByte_raiseFlags f c).trans (h.kept c hc)
  acc := by rw [tl_raiseFlags]; exact h.acc

theorem Stored.setGen (h : Stored t off n bs s v) (g : Word) :
    Stored t off n bs s (onTl t (fun y => { y with gen := g }) v) where
  touched := h.touched.onTl fun _ => rfl
  bytes := h.bytes
  kept := h.kept
  acc := by rw [tl_onTl_self]; exact h.acc

/-- The tile of a matrix store goes on. -/
theorem Stored.goesOn (h : Stored t off n bs s v) :
    memBytes (advance t v) (sramAddr t off) n = bs ∧ MemKeptBut (sramAddr t off) n s (advance t v)
      ∧ (tl (advance t v) t).acc = (tl s t).acc ∧ GKept t s (advance t v) ∧ PKept t s (advance t v)
      ∧ VKept t s (advance t v) ∧ MovedOnSram t [Reg.arithStatus t] s (advance t v) :=
  ⟨h.bytes, h.kept, by rw [tl_advance]; exact h.acc, h.touched.matrixGoesOn⟩

/-- A matrix store that the banks grant (R114). -/
theorem matStore_granted (lat : Nat) (after : State → State) (hoff : off = (gv s t x.b).toNat) (h64 : off % 64 = 0)
    (hlt : off < 0x200000) (hmay : MayAccess s t 3 off n) (hquiet : Quiet s t off n) (hlen : bs.length = n) :
    ∃ v, matStore t x n lat (fun _ => bs) after s = advance t (after v) ∧ Stored t off n bs s v := by
  subst hlen hoff
  obtain ⟨b, hb, hbanks⟩ := withLocal_granted (r := [((gv s t x.b).toNat, bs.length)]) true false _ hmay.2.2
    (List.forall_mem_singleton.2 hmay)
  refine ⟨slowStore t (gv s t x.b).toNat lat bs (admitted t b s), ?_,
    (onlyTouched_admitted hbanks).slowStore .., memBytes_slowStore (hquiet.admitted b), memKeptBut_slowStore _ _ _, ?_⟩
  · rw [matStore, matCheck_of_fits _ h64 hlt hmay.1.1, hb]
  · obtain ⟨w, hw⟩ := tl_slowStore (s := admitted t b s) (t := t) (gv s t x.b).toNat lat bs
    rw [hw, tl_admitted]

end

section
variable {c : Acc} {off : Nat} (hr : Runs s t x.pn x.pg [x.b.toNat]) (h0 : x.rsv = 0)
  (hc : c = accOf (tl s t) x.acc.toNat) (hoff : off = (gv s t x.b).toNat) (h64 : off % 64 = 0) (hlt : off < 0x200000)
include hr h0 hc hoff h64 hlt

/-- MXD in either rounding: its values, and the generator that it leaves. -/
theorem mxd_completes {f : Fmt} {n : Nat} {r : List Nat × AFlags × Word} (hrnd : x.rnd.toNat < 2)
    (hf : f = if x.out then fmtOf 1 else fmtOf 0) (hn : n = if x.out then 2 else 4)
    (hmay : MayAccess s t 3 off (64 * n * c.rows)) (hquiet : Quiet s t off (64 * n * c.rows))
    (hv : r = c.rowWins.foldl (mxdValue f (decide (x.rnd = 1)) c.anchor) ([], {}, (tl s t).gen)) :
    Completes (.mxd t x) s (fun u =>
      memBytes u (sramAddr t off) (64 * n * c.rows) = r.1.reverse.flatMap (fun v => leBytes n v)
        ∧ MemKeptBut (sramAddr t off) (64 * n * c.rows) s u ∧ (tl u t).acc = (tl s t).acc ∧ (tl u t).gen = r.2.2
        ∧ GKept t s u ∧ PKept t s u ∧ VKept t s u ∧ MovedOnSram t [Reg.arithStatus t] s u) := by
  have he : exec (.mxd t x) s
      = ok (issue t x.pn x.pg (decide (x.rsv ≠ 0 ∨ 2 ≤ x.rnd.toNat)) [x.b.toNat] _ s) := rfl
  rw [issue_runs s t _ hr (by simp [h0, hrnd])] at he
  simp only [← hc, ← hf, ← hn, ← hv] at he
  have hlen : (r.1.reverse.flatMap (fun v => leBytes n v)).length = 64 * n * c.rows := by
    rw [flatMap_leBytes_length, List.length_reverse, hv, mxdValues_length, Acc.rowWins_length]
    simp only [List.length_nil]; ring
  obtain ⟨v, hstore, hstored⟩ := matStore_granted 24 _ hoff h64 hlt hmay hquiet hlen
  rw [hstore] at he
  obtain ⟨hbytes, hkept, hacc, hframe⟩ := ((hstored.setGen r.2.2).raiseFlags r.2.1).goesOn
  exact ⟨_, he, hbytes, hkept, hacc, by simp [tl_advance], hframe⟩

/-- MXX: the windows as wide partials (R127). -/
theorem mxx_completes (hmay : MayAccess s t 3 off (1024 * c.rows)) (hquiet : Quiet s t off (1024 * c.rows)) :
    Completes (.mxx t x) s (fun u =>
      memBytes u (sramAddr t off) (1024 * c.rows) = c.rowWins.flatMap (fun w => leBytes 16 (w.wide c.anchor).1.toBits)
        ∧ MemKeptBut (sramAddr t off) (1024 * c.rows) s u ∧ (tl u t).acc = (tl s t).acc
        ∧ GKept t s u ∧ PKept t s u ∧ VKept t s u ∧ MovedOnSram t [Reg.arithStatus t] s u) := by
  have he : exec (.mxx t x) s = ok (issue t x.pn x.pg (decide (x.rsv ≠ 0)) [x.b.toNat] _ s) := rfl
  rw [issue_runs s t _ hr (by simp [h0])] at he
  simp only [← hc, List.flatMap_map] at he
  have hlen : (c.rowWins.flatMap (fun w => leBytes 16 (w.wide c.anchor).1.toBits)).length = 1024 * c.rows := by
    rw [flatMap_leBytes_length, Acc.rowWins_length]; omega
  obtain ⟨v, hstore, hstored⟩ := matStore_granted 72 _ hoff h64 hlt hmay hquiet hlen
  rw [hstore] at he
  exact ⟨_, he, (hstored.raiseFlags _).goesOn⟩

end

/-- Stores; `mxdValues_nearest` says what the values of MXD are when it draws nothing. -/
theorem matrixStores : MatrixStores := by
  intro t x s hr h0 c off hc hoff h64 hlt
  refine ⟨fun f n hbf hfp hmay hquiet => ?_, mxx_completes hr h0 hc hoff h64 hlt⟩
  obtain ⟨hf, hn⟩ : f = (if x.out then fmtOf 1 else fmtOf 0) ∧ n = (if x.out then 2 else 4) := by
    cases hout : x.out
    · exact hfp hout
    · exact hbf hout
  refine ⟨fun hrnd => ?_, fun hrnd r hv => ?_⟩
  · have hd := mxd_completes hr h0 hc hoff h64 hlt (by simp [hrnd]) hf hn hmay hquiet rfl
    obtain ⟨hvals, hgen⟩ := mxdValues_nearest f c.anchor c.rowWins ([], {}, (tl s t).gen)
    have hstoch : decide (x.rnd = 1) = false := by simp [hrnd]
    rw [hstoch, hvals, hgen, List.append_nil, List.reverse_reverse, List.flatMap_map] at hd
    exact hd
  · exact mxd_completes hr h0 hc hoff h64 hlt (by simp [hrnd]) hf hn hmay hquiet (by rw [hv, hrnd]; rfl)

/-- Settles O11: each matrix instruction runs its body on operands that the banks grant, which reads memory as it
stands, puts the buffer, the accumulator or the rows in place, and goes on; an MXM chained to other rows faults. -/
theorem matrixResults : Obligations.MatrixResults := ⟨matrixLoadAndMultiply, matrixStores⟩

end Sys2Proof.Machine
end

section
/-! PROOFS. What a command of the power control leaves of registers and memory, and what the shared writes of bits and
packed words leave to be read. -/

namespace Sys2Proof.Machine

variable {l l' : List Nat} {s u v : State}

-- What is kept

/-- From one state to another, at most the registers of a list have changed, and no byte of memory. -/
structure Kept (l : List Nat) (s u : State) : Prop where
  regs : RegsKept l s u
  mem : MemKept s u

theorem Kept.refl (l : List Nat) (s : State) : Kept l s s := ⟨fun _ _ => rfl, fun _ => rfl⟩

theorem Kept.trans (h : Kept l s u) (h' : Kept l u v) : Kept l s v :=
  ⟨fun a ha => (h'.regs a ha).trans (h.regs a ha), fun a => (h'.mem a).trans (h.mem a)⟩

theorem Kept.mono (h : Kept l s u) (hl : l ⊆ l') : Kept l' s u :=
  ⟨fun a ha => h.regs a fun hm => ha (hl hm), h.mem⟩

/-- What changes neither registers nor memory keeps them. -/
theorem Kept.of_same (h : Kept l s u) (hr : v.regs = u.regs) (hm : v.mem = u.mem) : Kept l s v :=
  h.trans ⟨fun a _ => by simp only [rd, hr], fun a => by simp only [memByte, hm]⟩

theorem Kept.withPwr (h : Kept l s u) (x : Pwr) : Kept l s { u with pwr := x } := h.of_same rfl rfl

theorem Kept.wrReg (h : Kept l s u) {a : Nat} (ha : a ∈ l) (w : Word) : Kept l s (wrReg a w u) :=
  h.trans ⟨fun _ hb => rd_wrReg_ne u w (ne_of_mem_of_not_mem ha hb).symm, fun _ => rfl⟩

theorem Kept.wrF (h : Kept l s u) {a : Nat} (ha : a ∈ l) (hi lo n : Nat) : Kept l s (wrF a hi lo n u) := h.wrReg ha _

theorem Kept.wrB (h : Kept l s u) {a : Nat} (ha : a ∈ l) (i : Nat) (b : Bool) : Kept l s (wrB a i b u) := h.wrReg ha _

theorem Kept.orReg (h : Kept l s u) {a : Nat} (ha : a ∈ l) (m : Nat) : Kept l s (orReg a m u) := h.wrReg ha _

theorem Kept.addSat (h : Kept l s u) {a : Nat} (ha : a ∈ l) (hi lo n : Nat) : Kept l s (addSat a hi lo n u) :=
  h.wrReg ha _

theorem Kept.clockTo (h : Kept l s u) (t : Nat) : Kept l s (clockTo t u) := by
  obtain ⟨c, n, he⟩ := clockTo_cases u t
  rw [he]; exact h.of_same rfl rfl

-- Bits and packed words

/-- A bit of a register after a mask was set in it. -/
theorem rdB_orReg_self (s : State) (a m i : Nat) : rdB (orReg a m s) a i = (rdB s a i || bit (wd m) i) := by
  simp [rdB, bit]

/-- A mask set in a register clears no bit of any. -/
theorem rdB_orReg_of_set {a b m i : Nat} (h : rdB s b i = true) : rdB (orReg a m s) b i = true := by
  by_cases hb : b = a
  · subst hb; rw [rdB_orReg_self, h, Bool.true_or]
  · rwa [rdB, rd_orReg_ne s m hb]

/-- A field reads the value written into it where it holds it. -/
theorem rdF_wrF_fits (s : State) (a : Nat) {hi lo n : Nat} (h : lo ≤ hi) (h64 : hi < 64)
    (hn : n < 2 ^ (hi + 1 - lo)) : rdF (wrF a hi lo n s) a hi lo = n := by
  rw [rdF_wrF_self _ _ _ _ _ h h64, Nat.mod_eq_of_lt hn]

/-- A count that stops at its largest value. -/
theorem rdF_addSat_self (s : State) (a hi lo n : Nat) (h : lo ≤ hi) (h64 : hi < 64) :
    rdF (addSat a hi lo n s) a hi lo = min (rdF s a hi lo + n) (2 ^ (hi + 1 - lo) - 1) := by
  have hpos : 0 < 2 ^ (hi + 1 - lo) := by positivity
  exact rdF_wrF_fits s a h h64 (by rw [satAdd]; omega)

/-- A bit of a number written as a word. -/
theorem bit_wd (n : Nat) {i : Nat} (h : i < 64) : bit (wd n) i = n.testBit i := by
  rw [bit, wd, BitVec.getLsbD_ofNat, decide_eq_true h, Bool.true_and]

/-- A field of a number written as a word. -/
theorem fld_wd (n : Nat) {hi lo : Nat} (h64 : hi < 64) : fld (wd n) hi lo = n / 2 ^ lo % 2 ^ (hi + 1 - lo) := by
  apply Nat.eq_of_testBit_eq
  intro i
  rw [fld_testBit, Nat.testBit_mod_two_pow, Nat.testBit_div_two_pow]
  by_cases hw : i < hi + 1 - lo
  · rw [bit_wd _ (by omega), Nat.add_comm lo i]
  · simp [hw]

-- The record of a control source

theorem kept_recordControl (src : Nat) (cond : Bool) (part : Option Nat) (tenants : List Nat) (s : State) :
    Kept [Reg.faultStatus, Reg.firstSource] s (recordControl src cond part tenants s) := by
  have hlatch : Kept [Reg.faultStatus, Reg.firstSource] s (latchFirst src s) := by
    unfold latchFirst
    split
    · exact (Kept.refl _ s).wrB (by simp) _ _
    · exact (Kept.refl _ s).wrReg (by simp) _
  unfold recordControl
  split
  · exact Kept.refl _ s
  · exact (hlatch.orReg (by simp) _).of_same rfl rfl

@[simp] theorem recordControl_pwr (src : Nat) (cond : Bool) (part : Option Nat) (tenants : List Nat) (s : State) :
    (recordControl src cond part tenants s).pwr = s.pwr := by
  unfold recordControl latchFirst
  split
  · rfl
  · split <;> rfl

@[simp] theorem recordControl_now (src : Nat) (cond : Bool) (part : Option Nat) (tenants : List Nat) (s : State) :
    (recordControl src cond part tenants s).now = s.now := by
  unfold recordControl latchFirst
  split
  · rfl
  · split <;> rfl

/-- The status bit of a control source is set once it is recorded (R388). -/
theorem rdB_recordControl {src : Nat} (cond : Bool) (part : Option Nat) (tenants : List Nat) (s : State)
    (h : src < 64) : rdB (recordControl src cond part tenants s) Reg.faultStatus src = true := by
  unfold recordControl
  split
  case isTrue hset => simpa using (Bool.and_eq_true_iff.1 hset).2
  case isFalse =>
    rw [rdB_queueReaction, rdB_orReg_self, bit_wd _ h, Nat.testBit_two_pow_self, Bool.or_true]

/-- A control source is recorded: its status bit is set, and beside FAULT.STATUS and FIRST_SOURCE no register, no byte of
memory, nothing of the power control's own record and not the clock has changed (R385, R388). -/
structure Recorded (src : Nat) (s u : State) : Prop where
  pwr : u.pwr = s.pwr
  now : u.now = s.now
  bit : rdB u Reg.faultStatus src = true
  kept : Kept [Reg.faultStatus, Reg.firstSource] s u

theorem recorded_present {src : Nat} (h : src < 64) (part : Option Nat) (s : State) :
    Recorded src s (setPresent src true (recordControl src true part [] s)) :=
  ⟨recordControl_pwr _ _ _ _ _, recordControl_now _ _ _ _ _, rdB_recordControl _ _ _ _ h,
    (kept_recordControl _ _ _ _ _).of_same rfl rfl⟩

-- Writes under a role check

/-- What an admitted write of a register that is a command of its own does. -/
theorem answered_withRoleDo {c : Reg.Class} {who : Writer} (a : Nat) (f : State → State)
    (h : mayWrite s c who = true) : answered who a (withRoleDo c who a f s) = logOutcome c who a true (f s) := by
  simp [answered, withRoleDo, withRole, h]

end Sys2Proof.Machine
end

section
/-! PROOFS. The frequency of a compute die: what decides it, what a step of it leaves, droops and warnings (R351,
R354–R358, R370, R371). -/

namespace Sys2Proof.Machine

variable {s u v : State} {p : Nat}

-- The limit that decides

theorem limiter_of_mem_limitsOf {x : Nat × Nat} (h : x ∈ limitsOf s p) : x.1 < 16 := by
  simp only [limitsOf, List.mem_append, List.mem_ite_nil_right, List.mem_singleton] at h
  rcases h with (((((⟨-, rfl⟩ | ⟨-, rfl⟩) | ⟨-, rfl⟩) | ⟨-, rfl⟩) | ⟨-, rfl⟩) | rfl) | h
  case inr =>
    split at h
    · rw [List.mem_singleton] at h; subst h; simp
    · simp only [List.mem_cons, List.not_mem_nil, or_false] at h
      rcases h with rfl | rfl <;> simp
  all_goals simp

theorem lowestLimit_limiter_lt (s : State) (p : Nat) : (lowestLimit s p).1 < 16 := by
  cases hf : ((limitsOf s p).map (fun x => (x.1, max 16 x.2))).find?
      (fun x => x.2 = ((limitsOf s p).map (fun x => (x.1, max 16 x.2))).foldl (fun a x => min a x.2) 72) with
  | none => simp [lowestLimit, hf]
  | some y =>
    obtain ⟨x, hx, rfl⟩ := List.mem_map.1 (List.mem_of_find?_eq_some hf)
    simp only [lowestLimit, hf, Option.getD_some]
    exact limiter_of_mem_limitsOf hx

/-- LIMITER fits its field (R382). -/
theorem decideFreq_limiter_lt (s : State) (p : Nat) : (decideFreq s p).1 < 16 := by
  unfold decideFreq
  dsimp only
  split
  · decide
  · exact lowestLimit_limiter_lt s p

/-- No die runs above 1.8 GHz, so FREQ fits its field (R354, R382). -/
theorem decideFreq_freq_le (s : State) (p : Nat) : (decideFreq s p).2 ≤ 72 :=
  List.foldlRecOn (motive := fun a => a ≤ 72) _ _ (le_refl _) fun _ ha _ _ => (min_le_left _ _).trans ha

/-- A value that no other lies below stays the least. -/
theorem foldl_min_eq {l : List (Nat × Nat)} {a : Nat} (h : ∀ x ∈ l, a ≤ x.2) :
    l.foldl (fun a x => min a x.2) a = a :=
  List.foldlRecOn (motive := fun b => b = a) l _ rfl fun _ hb x hx => by rw [hb]; exact min_eq_left (h x hx)

/-- A trip decides before every other loop, and holds 0.4 GHz (R356, R373). -/
theorem lowestLimit_of_tripped (h : s.pwr.tripped = true) : lowestLimit s p = (7, 16) := by
  have hlist : ∃ r, (limitsOf s p).map (fun x => (x.1, max 16 x.2)) = (7, 16) :: r ∧ ∀ x ∈ r, 16 ≤ x.2 := by
    rw [limitsOf, h, if_pos rfl]
    simp only [List.append_assoc, List.singleton_append]
    refine ⟨_, rfl, fun x hx => ?_⟩
    obtain ⟨y, -, rfl⟩ := List.mem_map.1 hx
    exact le_max_left _ _
  obtain ⟨r, hl, hr⟩ := hlist
  have hmin : ((7, 16) :: r).foldl (fun a x => min a x.2) 72 = 16 := foldl_min_eq hr
  simp only [lowestLimit, hl, hmin]
  simp

theorem decideFreq_of_tripped (h : s.pwr.tripped = true) : decideFreq s p = (7, 16) := by
  simp [decideFreq, lowestLimit_of_tripped h]

-- What frequency steps leave

/-- The registers that a frequency step writes. -/
def freqRegs : List Nat := [Reg.powerStatus, Reg.ffBreach, Reg.powerEvent]

/-- What frequency steps of any dies can have changed: their registers, where no event bit is cleared, the breaches and
the requests. -/
structure FreqMoved (s u : State) : Prop where
  kept : Kept freqRegs s u
  now : u.now = s.now
  pwr : u.pwr = { s.pwr with breach := u.pwr.breach, request := u.pwr.request }
  event : ∀ i, rdB s Reg.powerEvent i = true → rdB u Reg.powerEvent i = true

theorem FreqMoved.refl (s : State) : FreqMoved s s := ⟨Kept.refl _ s, rfl, rfl, fun _ h => h⟩

theorem FreqMoved.trans (h : FreqMoved s u) (h' : FreqMoved u v) : FreqMoved s v where
  kept := h.kept.trans h'.kept
  now := h'.now.trans h.now
  pwr := by rw [h'.pwr, h.pwr]
  event i hi := h'.event i (h.event i hi)

theorem cluster_notMem_freqRegs (c : Nat) : Reg.cluster c ∉ freqRegs := by
  simp only [freqRegs, List.mem_cons, List.not_mem_nil, or_false, Reg.cluster, Reg.powerStatus, Reg.ffBreach,
    Reg.powerEvent]
  omega

theorem FreqMoved.throttled (h : FreqMoved s u) (p : Nat) : throttled u p = throttled s p := by
  simp only [Machine.throttled, gated, rdF, h.kept.regs _ (cluster_notMem_freqRegs _)]

/-- The limits of a die do not depend on what frequency steps change. -/
theorem FreqMoved.limitsOf (h : FreqMoved s u) (p : Nat) : limitsOf u p = limitsOf s p := by
  have hctrl := h.kept.regs Reg.powerCtrl (by decide)
  have hfixed : fixedMode u = fixedMode s := by rw [fixedMode, rdB, hctrl]; rfl
  have hpinned : pinned u = pinned s := by rw [pinned, rdF, hctrl]; rfl
  have hmax : rdF u Reg.powerCtrl 23 16 = rdF s Reg.powerCtrl 23 16 := by rw [rdF, hctrl]; rfl
  have hext : rdF u Reg.extThrottle 7 0 = rdF s Reg.extThrottle 7 0 := by rw [rdF, h.kept.regs _ (by decide)]; rfl
  have hslack : slackOf u p = slackOf s p := by rw [slackOf, rdF, h.kept.regs _ (by decide)]; rfl
  rw [Machine.limitsOf, Machine.limitsOf, h.throttled, h.pwr, hfixed, hpinned, hmax, hext, hslack]

theorem FreqMoved.decideFreq (h : FreqMoved s u) (p : Nat) : decideFreq u p = decideFreq s p := by
  have hlow : lowestLimit u p = lowestLimit s p := by rw [lowestLimit, lowestLimit, h.limitsOf]
  rw [Machine.decideFreq, Machine.decideFreq, hlow, h.throttled]

-- A step

theorem noteBreach_freqMoved (p f : Nat) (s : State) : FreqMoved s (noteBreach p f s) := by
  unfold noteBreach
  split
  · split
    · exact FreqMoved.refl s
    · exact ⟨(((Kept.refl freqRegs s).withPwr _).addSat (a := Reg.ffBreach) (by decide) _ _ _).orReg
          (a := Reg.powerEvent) (by decide) _, rfl, rfl,
        fun i hi => rdB_orReg_of_set (by rwa [rdB, rd_addSat_ne _ _ _ _ (by decide)])⟩
  · exact ⟨(Kept.refl _ s).of_same rfl rfl, rfl, rfl, fun _ hi => hi⟩

theorem rd_noteBreach_status (p f : Nat) (s : State) :
    rd (noteBreach p f s) Reg.powerStatus = rd s Reg.powerStatus := by
  unfold noteBreach
  split
  · split
    · rfl
    · rw [rd_orReg_ne _ _ (by decide), rd_addSat_ne _ _ _ _ (by decide)]; rfl
  · rfl

/-- FREQ and LIMITER of a die as a step writes them (R382). -/
def writeStatus (p : Nat) (d : Nat × Nat) (s : State) : State :=
  s |> wrF Reg.powerStatus (16 * p + 7) (16 * p) d.2 |> wrF Reg.powerStatus (16 * p + 15) (16 * p + 12) d.1

theorem freqOf_writeStatus {d : Nat × Nat} (hp : p < 4) (hd : d.2 < 256) : freqOf (writeStatus p d s) p = d.2 := by
  have hw : 16 * p + 7 + 1 - 16 * p = 8 := by omega
  rw [freqOf, writeStatus, rdF_wrF_other _ _ _ _ _ _ _ (by omega) (by omega) (by omega)]
  exact rdF_wrF_fits _ _ (by omega) (by omega) (by rwa [hw])

theorem limiter_writeStatus {d : Nat × Nat} (hp : p < 4) (hd : d.1 < 16) :
    rdF (writeStatus p d s) Reg.powerStatus (16 * p + 15) (16 * p + 12) = d.1 := by
  have hw : 16 * p + 15 + 1 - (16 * p + 12) = 4 := by omega
  exact rdF_wrF_fits _ _ (by omega) (by omega) (by rwa [hw])

theorem writeStatus_freqMoved (p : Nat) (d : Nat × Nat) (s : State) : FreqMoved s (writeStatus p d s) :=
  ⟨((Kept.refl _ s).wrF (a := Reg.powerStatus) (by decide) _ _ _).wrF (by decide) _ _ _, rfl, rfl, fun i hi => by
    rwa [writeStatus, rdB_wrF_ne _ _ _ _ _ (by decide), rdB_wrF_ne _ _ _ _ _ (by decide)]⟩

/-- A step, as what it sends, what it writes, the breach that it notes and the request that it ends. -/
theorem doStep_eq (p : Nat) (s : State) : ∃ o, doStep p s
    = (fun u : State => { u with pwr := { u.pwr with request := u.pwr.request.filter (fun x => x != p) } })
        (noteBreach p (decideFreq s p).2 (writeStatus p (decideFreq s p) { s with out := o })) := by
  unfold doStep
  dsimp only
  split <;> exact ⟨_, rfl⟩

theorem doStep_freqMoved (p : Nat) (s : State) : FreqMoved s (doStep p s) := by
  obtain ⟨o, he⟩ := doStep_eq p s
  have hout : FreqMoved s { s with out := o } := ⟨(Kept.refl _ s).of_same rfl rfl, rfl, rfl, fun _ h => h⟩
  have hnote := (hout.trans (writeStatus_freqMoved p (decideFreq s p) _)).trans
    (noteBreach_freqMoved p (decideFreq s p).2 _)
  rw [he]
  exact hnote.trans ⟨(Kept.refl _ _).of_same rfl rfl, rfl, rfl, fun _ h => h⟩

/-- A step leaves the die at the frequency and the limiter decided, with no request (R355, R382). -/
theorem stepped_doStep (hp : p < 4) (s : State) : Stepped p (decideFreq s p) (doStep p s) := by
  obtain ⟨o, he⟩ := doStep_eq p s
  have hfreq := decideFreq_freq_le s p
  rw [he]
  refine ⟨?_, ?_, by simp⟩
  · refine Eq.trans ?_ (freqOf_writeStatus (s := { s with out := o }) hp (by omega))
    exact congrArg (fld · _ _) (rd_noteBreach_status _ _ _)
  · refine Eq.trans ?_ (limiter_writeStatus (s := { s with out := o }) hp (decideFreq_limiter_lt s p))
    exact congrArg (fld · _ _) (rd_noteBreach_status _ _ _)

/-- What a change of a die's limits can lead to (R371). -/
theorem stepOrWait_cases (p : Nat) (s : State) :
    (decideFreq s p = (rdF s Reg.powerStatus (16 * p + 15) (16 * p + 12), freqOf s p) ∧ stepOrWait p s = s)
    ∨ stepOrWait p s = doStep p s
    ∨ stepOrWait p s
        = { s with pwr := { s.pwr with request := s.pwr.request.filter (fun x => x != p) ++ [p] } } := by
  unfold stepOrWait
  split
  case isTrue h => exact .inl ⟨h, rfl⟩
  case isFalse =>
    split
    · exact .inr (.inl rfl)
    · exact .inr (.inr rfl)

theorem stepOrWait_freqMoved (p : Nat) (s : State) : FreqMoved s (stepOrWait p s) := by
  rcases stepOrWait_cases p s with ⟨-, he⟩ | he | he <;> rw [he]
  · exact FreqMoved.refl s
  · exact doStep_freqMoved p s
  · exact ⟨(Kept.refl _ s).of_same rfl rfl, rfl, rfl, fun _ h => h⟩

theorem stepAll_freqMoved (s : State) : FreqMoved s (stepAll s) :=
  List.foldlRecOn (motive := FreqMoved s) _ _ (FreqMoved.refl s) fun u hu p _ => hu.trans (stepOrWait_freqMoved p u)

/-- A change of a die's limits leaves it at the frequency decided, or a request waiting (R371). -/
theorem freqOf_stepOrWait (hp : p < 4) (s : State) :
    freqOf (stepOrWait p s) p = (decideFreq (stepOrWait p s) p).2 ∨ p ∈ (stepOrWait p s).pwr.request := by
  rw [(stepOrWait_freqMoved p s).decideFreq]
  rcases stepOrWait_cases p s with ⟨hd, he⟩ | he | he <;> rw [he]
  · left; rw [hd]
  · left; exact (stepped_doStep hp s).1
  · right; simp

-- Ballast that protection stops

/-- Ballast ends on tiles alone. -/
theorem stopBallast_cases (s : State) : ∃ ts, stopBallast s = { s with tiles := ts } := by
  refine List.foldlRecOn (motive := fun u : State => ∃ ts, u = { s with tiles := ts }) _ _ ⟨s.tiles, rfl⟩ ?_
  rintro u ⟨ts, rfl⟩ t -
  split <;> exact ⟨_, rfl⟩

theorem Kept.stopBallast {l : List Nat} (h : Kept l s u) : Kept l s (stopBallast u) := by
  obtain ⟨ts, he⟩ := stopBallast_cases u
  rw [he]; exact h.of_same rfl rfl

@[simp] theorem stopBallast_pwr (s : State) : (stopBallast s).pwr = s.pwr := by
  obtain ⟨ts, he⟩ := stopBallast_cases s
  rw [he]

@[simp] theorem rd_stopBallast (s : State) (a : Nat) : rd (stopBallast s) a = rd s a := by
  obtain ⟨ts, he⟩ := stopBallast_cases s
  rw [he]; rfl

-- The commands

/-- FREQ_STEP at once. -/
theorem freqStep_now (hp : p < 4)
    (hd : decideFreq s p ≠ (rdF s Reg.powerStatus (16 * p + 15) (16 * p + 12), freqOf s p))
    (hq : stepsAtOnce s p = true ∨ quiet s p = true) :
    Completes (.freqStep p) s (fun u => Stepped p (decideFreq s p) u ∧ RegsKept freqRegs s u ∧ MemKept s u) := by
  have he : stepOrWait p s = doStep p s := by simp [stepOrWait, hd, hq]
  have hkept := (doStep_freqMoved p s).kept
  refine ⟨stepOrWait p s, congrArg ok (if_pos hp), ?_⟩
  rw [he]
  exact ⟨stepped_doStep hp s, hkept.regs, hkept.mem⟩

/-- FREQ_STEP while a droop detector is not quiet. -/
theorem freqStep_waits (hp : p < 4)
    (hd : decideFreq s p ≠ (rdF s Reg.powerStatus (16 * p + 15) (16 * p + 12), freqOf s p))
    (hnow : stepsAtOnce s p = false) (hq : quiet s p = false) :
    Completes (.freqStep p) s (fun u => p ∈ u.pwr.request ∧ RegsKept [] s u ∧ MemKept s u) := by
  refine ⟨stepOrWait p s, congrArg ok (if_pos hp), ?_⟩
  rw [stepOrWait, if_neg hd, hnow, hq, Bool.or_self, if_neg Bool.false_ne_true]
  exact ⟨by simp, fun _ _ => rfl, fun _ => rfl⟩

/-- FREQ_STEP of a die that a trip finds above 0.4 GHz (R373). -/
theorem freqStep_tripped (hp : p < 4) (ht : s.pwr.tripped = true) (hf : 16 < freqOf s p) :
    Completes (.freqStep p) s (fun u =>
      freqOf u p = 16 ∧ rdF u Reg.powerStatus (16 * p + 15) (16 * p + 12) = 7 ∧ MemKept s u) := by
  have hdec : decideFreq s p = (7, 16) := decideFreq_of_tripped ht
  have hne : decideFreq s p ≠ (rdF s Reg.powerStatus (16 * p + 15) (16 * p + 12), freqOf s p) := by
    rw [hdec]; intro h; have := congrArg Prod.snd h; simp only at this; omega
  have hnow : stepsAtOnce s p = true := by simp [stepsAtOnce, lowestLimit_of_tripped ht, hf]
  obtain ⟨u, he, ⟨hfreq, hlim, -⟩, -, hmem⟩ := freqStep_now hp hne (.inl hnow)
  rw [hdec] at hfreq hlim
  exact ⟨u, he, hfreq, hlim, hmem⟩

/-- The clock's move changes no limit. -/
theorem decideFreq_clockTo (t : Nat) : decideFreq (clockTo t s) p = decideFreq s p := by
  obtain ⟨c, n, he⟩ := clockTo_cases s t
  rw [he]; rfl

theorem any_halved_eq_false (h : ∀ x ∈ s.pwr.halved, x.1 ≠ p) : s.pwr.halved.any (fun x => x.1 == p) = false := by
  simpa using h

/-- FREQ_REQUEST_RELEASE: the step is made 1 µs after the detectors fell quiet (R371). -/
theorem freqRequest_released (hp : p < 4) (hr : p ∈ s.pwr.request) (hh : ∀ h ∈ s.pwr.halved, h.1 ≠ p)
    (ht : mget 0 s.pwr.quietSince p + 1600 < 2 ^ 64) :
    Completes (.freqRequestRelease p) s (fun u =>
      Stepped p (decideFreq s p) u ∧ mget 0 s.pwr.quietSince p + 1600 ≤ now u ∧ RegsKept freqRegs s u
        ∧ MemKept s u) := by
  have hcond : s.pwr.request.contains p = true ∧ (!s.pwr.halved.any (fun h => h.1 == p)) = true :=
    ⟨by simpa using hr, by rw [any_halved_eq_false hh]; rfl⟩
  have hmoved := doStep_freqMoved p (clockTo (mget 0 s.pwr.quietSince p + 1600) s)
  have hkept := ((Kept.refl freqRegs s).clockTo (mget 0 s.pwr.quietSince p + 1600)).trans hmoved.kept
  have hnow := now_clockTo s _ ht
  refine ⟨_, congrArg ok (if_pos hcond), ?_, ?_, hkept.regs, hkept.mem⟩
  · rw [← decideFreq_clockTo (mget 0 s.pwr.quietSince p + 1600)]
    exact stepped_doStep hp _
  · rwa [now, hmoved.now]

/-- DROOP_TRIP on a die whose clock is not halved (R370). -/
theorem droopTrip_completes {c : Nat} (hp : p < 4) (hc : c < 8) (hh : ∀ h ∈ s.pwr.halved, h.1 ≠ p) :
    Completes (.droopTrip p c) s (fun u =>
      u.pwr.halved = s.pwr.halved ++ [(p, c, now s)]
        ∧ rdF u Reg.stretchCount (16 * p + 15) (16 * p)
            = min (rdF s Reg.stretchCount (16 * p + 15) (16 * p) + 1) (2 ^ 16 - 1)
        ∧ RegsKept [Reg.stretchCount] s u ∧ MemKept s u) := by
  have hfirst := any_halved_eq_false hh
  have hcond : p < 4 ∧ c < 8 ∧ (!s.pwr.halved.any (fun h => h.1 == p && h.2.1 == c)) = true := by
    refine ⟨hp, hc, ?_⟩
    simp only [Bool.not_eq_true', List.any_eq_false, Bool.and_eq_true, beq_iff_eq, not_and]
    exact fun x hx he => absurd he (hh x hx)
  have he : exec (.droopTrip p c) s = ok (stopBallast (addSat Reg.stretchCount (16 * p + 15) (16 * p) 1
      { s with pwr := { s.pwr with halved := s.pwr.halved ++ [(p, c, now s)] } })) := by
    refine (congrArg ok (if_pos hcond)).trans ?_
    simp only [hfirst, Bool.not_false, if_true]
  have hkept := (((Kept.refl [Reg.stretchCount] s).withPwr
    { s.pwr with halved := s.pwr.halved ++ [(p, c, now s)] }).addSat (a := Reg.stretchCount) (by simp)
      (16 * p + 15) (16 * p) 1).stopBallast
  refine ⟨_, he, by rw [stopBallast_pwr]; rfl, ?_, hkept.regs, hkept.mem⟩
  have hw : 16 * p + 15 + 1 - 16 * p = 16 := by omega
  rw [rdF, rd_stopBallast]
  refine (rdF_addSat_self _ _ _ _ _ (by omega) (by omega)).trans ?_
  rw [hw]; rfl

/-- DROOP_RECOVER of the one cluster that halves its die's clock (R370). -/
theorem droopRecover_completes {c t back f : Nat} (hh : s.pwr.halved = [(p, c, t)]) (hf : f = max 1 (freqOf s p))
    (ht : t + ceilDiv 2048 f < 2 ^ 64) (hb : back + ceilDiv 1024 f < 2 ^ 64) :
    Completes (.droopRecover p ⟨c, back⟩) s (fun u =>
      u.pwr.halved = [] ∧ t + ceilDiv 2048 f ≤ now u ∧ back + ceilDiv 1024 f ≤ now u
        ∧ mget 0 u.pwr.quietSince p = now u ∧ RegsKept [] s u ∧ MemKept s u) := by
  have hkept := (Kept.refl [] s).clockTo (max (t + ceilDiv 2048 f) (back + ceilDiv 1024 f))
  have hnow := now_clockTo s (max (t + ceilDiv 2048 f) (back + ceilDiv 1024 f)) (max_lt ht hb)
  obtain ⟨z, n, hclock⟩ := clockTo_cases s (max (t + ceilDiv 2048 f) (back + ceilDiv 1024 f))
  have he : exec (.droopRecover p ⟨c, back⟩) s = ok { s with coll := z, now := n, pwr := { s.pwr with
      halved := [], quietSince := mset 0 s.pwr.quietSince p n.toNat } } := by
    change execDroopRecover p ⟨c, back⟩ s = _
    simp [execDroopRecover, hh, dieTicks, ← hf, hclock, now]
  rw [hclock] at hkept hnow
  obtain ⟨h32, h16⟩ := max_le_iff.1 hnow
  exact ⟨_, he, rfl, h32, h16, mget_mset_self _ _ _ _, hkept.regs, hkept.mem⟩

/-- REGULATOR_WARN_STEP of a warned rail (R351). -/
theorem regulatorWarnStep_completes (hp : p < 4) (hw : s.pwr.warned.contains p = true) :
    Completes (.regulatorWarnStep p) s (fun u =>
      mget 72 u.pwr.warnLim p = max 16 (freqOf s p - 1)
        ∧ (freqOf u p = (decideFreq u p).2 ∨ p ∈ u.pwr.request) ∧ RegsKept freqRegs s u ∧ MemKept s u) := by
  have hmoved := stepOrWait_freqMoved p
    { s with pwr := { s.pwr with warnLim := mset 72 s.pwr.warnLim p (max 16 (freqOf s p - 1)) } }
  have hkept := ((Kept.refl freqRegs s).withPwr _).trans hmoved.kept
  refine ⟨_, congrArg ok (if_pos hw), ?_, freqOf_stepOrWait hp _, hkept.regs, hkept.mem⟩
  rw [hmoved.pwr]
  exact mget_mset_self _ _ _ _

/-- The frequency of a die, clause by clause. -/
theorem dieFrequency : DieFrequency := fun _ _ hp =>
  ⟨fun hd => ⟨freqStep_now hp hd, freqStep_waits hp hd⟩, freqStep_tripped hp, freqRequest_released hp,
    fun _ => droopTrip_completes hp, fun _ _ _ _ _ => droopRecover_completes, regulatorWarnStep_completes hp⟩

end Sys2Proof.Machine
end

section
/-! PROOFS. Telemetry: what a reading of a rail leaves, a lost rail, a regulator's fault (R350, R351, R353, R360). -/

namespace Sys2Proof.Machine

variable {s u v : State} {r : Nat}

-- Register numbers

theorem rail_ne_measured (r : Nat) : Reg.rail r ≠ Reg.measured := by simp only [Reg.rail, Reg.measured]; omega

theorem rail_ne_calStatus (r : Nat) : Reg.rail r ≠ Reg.calStatus := by simp only [Reg.rail, Reg.calStatus]; omega

theorem rail_ne_powerEvent (r : Nat) : Reg.rail r ≠ Reg.powerEvent := by simp only [Reg.rail, Reg.powerEvent]; omega

-- The reading itself

/-- POWER.RAIL of a reading (R381). -/
def railWord (x : RailReading) : Word :=
  wd (x.mv % 2 ^ 16 * 2 ^ 48 + x.current % 2 ^ 16 * 2 ^ 32 + x.power % 2 ^ 16 * 2 ^ 16 + x.temp % 256 * 2 ^ 8
    + (if x.warn then 2 else 0))

theorem warnBit_lt (b : Bool) : (if b then 2 else 0) < 4 := by cases b <;> decide

theorem railWord_mv (x : RailReading) : fld (railWord x) 63 48 = x.mv % 2 ^ 16 := by
  have := warnBit_lt x.warn
  rw [railWord, fld_wd _ (by decide)]; omega

theorem railWord_current (x : RailReading) : fld (railWord x) 47 32 = x.current % 2 ^ 16 := by
  have := warnBit_lt x.warn
  rw [railWord, fld_wd _ (by decide)]; omega

theorem railWord_power (x : RailReading) : fld (railWord x) 31 16 = x.power % 2 ^ 16 := by
  have := warnBit_lt x.warn
  rw [railWord, fld_wd _ (by decide)]; omega

theorem railWord_temp (x : RailReading) : fld (railWord x) 15 8 = x.temp % 256 := by
  have := warnBit_lt x.warn
  rw [railWord, fld_wd _ (by decide)]; omega

theorem railWord_warn (x : RailReading) : bit (railWord x) 1 = x.warn := by
  rw [railWord, bit_wd _ (by decide), Nat.testBit_eq_decide_div_mod_eq]
  cases x.warn <;> simp <;> omega

/-- A reading put into its register, its tick noted; the rail is not lost. -/
def noteReading (r : Nat) (x : RailReading) (s : State) : State :=
  let s := s |> wrReg (Reg.rail r) (railWord x)
    |> (fun s => { s with pwr := { s.pwr with lastRead := mset 0 s.pwr.lastRead r (now s),
                                              lostRails := s.pwr.lostRails.filter (fun y => y != r) } })
  if s.pwr.lostRails = [] then setPresent 19 false s else s

/-- What a reading of a compute rail says of its regulator's warning (R351). -/
def noteWarning (r : Nat) (warn : Bool) (s : State) : State :=
  if warn then
    { s with pwr := { s.pwr with warned := s.pwr.warned.filter (fun y => y != r) ++ [r] } }
      |> orReg Reg.powerEvent (2 ^ 5) |> stopBallast
  else { s with pwr := { s.pwr with warned := s.pwr.warned.filter (fun y => y != r),
                                    warnLim := mset 72 s.pwr.warnLim r 72 } }

theorem readRail_of_compute (x : RailReading) (alike : Nat) (h : r < 4) :
    readRail r x alike s = noteWarning r x.warn (calibrateRail r alike (x.power / 10) (noteReading r x s)) := by
  have hne : ¬ r = 17 := by omega
  unfold readRail
  simp only [if_pos h, if_neg hne]
  rfl

theorem readRail_of_last (x : RailReading) (alike : Nat) :
    readRail 17 x alike s = closeReading (noteReading 17 x s) := rfl

theorem readRail_of_other (x : RailReading) (alike : Nat) (h : 4 ≤ r) (h17 : r ≠ 17) :
    readRail r x alike s = noteReading r x s := by
  have hlt : ¬ r < 4 := by omega
  unfold readRail
  simp only [if_neg hlt, if_neg h17]
  rfl

/-- What a reading leaves of any rail: its register, its tick, no loss, and no other register than those of readings
changed (R351, R381). -/
structure ReadingNoted (r : Nat) (x : RailReading) (s u : State) : Prop where
  rail : rd u (Reg.rail r) = railWord x
  lastRead : mget 0 u.pwr.lastRead r = now s
  lost : r ∉ u.pwr.lostRails
  kept : Kept [Reg.rail r, Reg.calStatus, Reg.powerEvent, Reg.measured] s u

theorem readingNoted_noteReading (r : Nat) (x : RailReading) (s : State) : ReadingNoted r x s (noteReading r x s) := by
  have hkept : Kept [Reg.rail r, Reg.calStatus, Reg.powerEvent, Reg.measured] s (wrReg (Reg.rail r) (railWord x) s) :=
    (Kept.refl _ s).wrReg (by simp) _
  unfold noteReading
  dsimp only
  split
  all_goals exact ⟨rd_wrReg_self _ _ _, mget_mset_self _ _ _ _, by simp [setPresent], hkept.of_same rfl rfl⟩

/-- What follows a reading keeps the rail, its tick and the lost rails. -/
structure Judged (s u : State) : Prop where
  lastRead : u.pwr.lastRead = s.pwr.lastRead
  lostRails : u.pwr.lostRails = s.pwr.lostRails
  kept : Kept [Reg.calStatus, Reg.powerEvent, Reg.measured] s u

theorem Judged.refl (s : State) : Judged s s := ⟨rfl, rfl, Kept.refl _ s⟩

theorem Judged.trans (h : Judged s u) (h' : Judged u v) : Judged s v :=
  ⟨h'.lastRead.trans h.lastRead, h'.lostRails.trans h.lostRails, h.kept.trans h'.kept⟩

theorem Judged.rail (h : Judged s u) (r : Nat) : rd u (Reg.rail r) = rd s (Reg.rail r) :=
  h.kept.regs _ (by simp [rail_ne_calStatus, rail_ne_powerEvent, rail_ne_measured])

theorem ReadingNoted.judged {x : RailReading} (h : ReadingNoted r x s u) (h' : Judged u v) : ReadingNoted r x s v where
  rail := (h'.rail r).trans h.rail
  lastRead := by rw [h'.lastRead, h.lastRead]
  lost := by rw [h'.lostRails]; exact h.lost
  kept := h.kept.trans (h'.kept.mono (by simp))

-- Calibration

/-- The error of a rail's calibration noted, then the coefficients held or put in place (R353). -/
theorem calibrateRail_cases (p alike watts : Nat) (s : State) : ∃ (x : Pwr) (rms : Nat),
    calibrateRail p alike watts s = (if 65536 < alike then
        orReg Reg.powerEvent (2 ^ 4) (wrB Reg.calStatus p true { wrF Reg.calStatus 47 32 rms s with pwr := x })
      else wrB Reg.calStatus p false { wrF Reg.calStatus 47 32 rms s with pwr := x })
    ∧ x.lastRead = s.pwr.lastRead ∧ x.lostRails = s.pwr.lostRails := by
  unfold calibrateRail
  split
  all_goals exact ⟨_, _, rfl, rfl, rfl⟩

theorem judged_calibrateRail (p alike watts : Nat) (s : State) : Judged s (calibrateRail p alike watts s) := by
  obtain ⟨x, rms, he, hlast, hlost⟩ := calibrateRail_cases p alike watts s
  have hkept : Kept [Reg.calStatus, Reg.powerEvent, Reg.measured] s { wrF Reg.calStatus 47 32 rms s with pwr := x } :=
    ((Kept.refl _ s).wrF (by simp) _ _ _).withPwr x
  rw [he]
  split
  · exact ⟨hlast, hlost, (hkept.wrB (by simp) _ _).orReg (by simp) _⟩
  · exact ⟨hlast, hlost, hkept.wrB (by simp) _ _⟩

/-- HELD of a partition says whether its regressors were too alike (R353). -/
theorem held_calibrateRail {p : Nat} (hp : p < 64) (alike watts : Nat) (s : State) :
    rdB (calibrateRail p alike watts s) Reg.calStatus p = decide (65536 < alike) := by
  obtain ⟨x, rms, he, -, -⟩ := calibrateRail_cases p alike watts s
  rw [he]
  split
  case isTrue h => rw [rdB, rd_orReg_ne _ _ (by decide), ← rdB, rdB_wrB_self _ _ _ _ hp, decide_eq_true h]
  case isFalse h => rw [rdB_wrB_self _ _ _ _ hp, decide_eq_false h]

-- Warnings

theorem judged_noteWarning (r : Nat) (warn : Bool) (s : State) : Judged s (noteWarning r warn s) := by
  unfold noteWarning
  split
  · refine ⟨?_, ?_, (((Kept.refl _ s).withPwr _).orReg (a := Reg.powerEvent) (by simp) _).stopBallast⟩
    all_goals simp only [stopBallast_pwr, orReg_pwr]
  · exact ⟨rfl, rfl, (Kept.refl _ s).withPwr _⟩

theorem warned_noteWarning (r : Nat) (warn : Bool) (s : State) :
    (noteWarning r warn s).pwr.warned.contains r = warn := by
  unfold noteWarning
  cases warn <;> simp

theorem event_noteWarning (r : Nat) (s : State) : rdB (noteWarning r true s) Reg.powerEvent 5 = true := by
  rw [noteWarning, if_pos rfl, rdB, rd_stopBallast, ← rdB, rdB_orReg_self, bit_wd _ (by decide),
    Nat.testBit_two_pow_self, Bool.or_true]

theorem calStatus_noteWarning (r : Nat) (warn : Bool) (s : State) :
    rd (noteWarning r warn s) Reg.calStatus = rd s Reg.calStatus := by
  unfold noteWarning
  split
  · rw [rd_stopBallast, rd_orReg_ne _ _ (by decide)]; rfl
  · rfl

-- The last rail

/-- The sum of the readings, and its mean over ten where a window ends, put into POWER.MEASURED (R360, R381). -/
theorem closeReading_cases (s : State) : ∃ x : Pwr,
    (closeReading s = { wrF Reg.measured 47 32 (min (sumReadings s) 65535) s with pwr := x }
      ∨ ∃ mean, closeReading s
          = wrF Reg.measured 63 48 mean { wrF Reg.measured 47 32 (min (sumReadings s) 65535) s with pwr := x })
    ∧ x.lastRead = s.pwr.lastRead ∧ x.lostRails = s.pwr.lostRails := by
  unfold closeReading
  dsimp only
  split
  · exact ⟨_, .inl rfl, rfl, rfl⟩
  · exact ⟨_, .inr ⟨_, rfl⟩, rfl, rfl⟩

theorem judged_closeReading (s : State) : Judged s (closeReading s) := by
  obtain ⟨x, he, hlast, hlost⟩ := closeReading_cases s
  have hkept : Kept [Reg.calStatus, Reg.powerEvent, Reg.measured] s
      { wrF Reg.measured 47 32 (min (sumReadings s) 65535) s with pwr := x } :=
    ((Kept.refl _ s).wrF (by simp) _ _ _).withPwr x
  obtain he | ⟨mean, he⟩ := he <;> rw [he]
  · exact ⟨hlast, hlost, hkept⟩
  · exact ⟨hlast, hlost, hkept.wrF (by simp) _ _ _⟩

/-- The sum of the readings is that of the rails' registers. -/
theorem sumReadings_congr (h : ∀ r, rd u (Reg.rail r) = rd s (Reg.rail r)) : sumReadings u = sumReadings s := by
  have hrail : railPower u = railPower s := funext fun r => by rw [railPower, rdF, h]; rfl
  rw [sumReadings, hrail]; rfl

theorem measured_closeReading (s : State) :
    rdF (closeReading s) Reg.measured 47 32 = min (sumReadings (closeReading s)) 65535 := by
  have hread : rdF (wrF Reg.measured 47 32 (min (sumReadings s) 65535) s) Reg.measured 47 32
      = min (sumReadings s) 65535 := rdF_wrF_fits _ _ (by decide) (by decide) (by omega)
  rw [sumReadings_congr (judged_closeReading s).rail, ← hread]
  obtain ⟨x, he | ⟨mean, he⟩, -, -⟩ := closeReading_cases s <;> rw [he]
  · rfl
  · rw [rdF_wrF_other _ _ _ _ _ _ _ (by decide) (by decide) (by decide)]; rfl

-- The commands

theorem readingNoted_readRail (r : Nat) (x : RailReading) (alike : Nat) (s : State) :
    ReadingNoted r x s (readRail r x alike s) := by
  have hnoted := readingNoted_noteReading r x s
  by_cases hr : r < 4
  · rw [readRail_of_compute x alike hr]
    exact (hnoted.judged (judged_calibrateRail _ _ _ _)).judged (judged_noteWarning _ _ _)
  · by_cases h17 : r = 17
    · subst h17
      rw [readRail_of_last]
      exact hnoted.judged (judged_closeReading _)
    · rwa [readRail_of_other x alike (by omega) h17]

/-- RAIL_READ (R351, R353, R360). -/
theorem railRead_completes (hr : r < 18) (x : RailReading) (alike : Nat) :
    Completes (.railRead r x alike) s (fun u =>
      rdF u (Reg.rail r) 63 48 = x.mv % 2 ^ 16 ∧ rdF u (Reg.rail r) 47 32 = x.current % 2 ^ 16
        ∧ railPower u r = x.power % 2 ^ 16 ∧ rdF u (Reg.rail r) 15 8 = x.temp % 256 ∧ rdB u (Reg.rail r) 1 = x.warn
        ∧ mget 0 u.pwr.lastRead r = now s ∧ r ∉ u.pwr.lostRails
        ∧ (r < 4 → u.pwr.warned.contains r = x.warn ∧ (x.warn = true → rdB u Reg.powerEvent 5 = true)
            ∧ rdB u Reg.calStatus r = decide (65536 < alike))
        ∧ (r = 17 → rdF u Reg.measured 47 32 = min (sumReadings u) 65535)
        ∧ RegsKept [Reg.rail r, Reg.calStatus, Reg.powerEvent, Reg.measured] s u ∧ MemKept s u) := by
  obtain ⟨hrail, hlast, hlost, hregs, hmem⟩ := readingNoted_readRail r x alike s
  refine ⟨_, congrArg ok (if_pos hr), ?_, ?_, ?_, ?_, ?_, hlast, hlost, fun h4 => ?_, ?_, hregs, hmem⟩
  · rw [rdF, hrail, railWord_mv]
  · rw [rdF, hrail, railWord_current]
  · rw [railPower, rdF, hrail, railWord_power]
  · rw [rdF, hrail, railWord_temp]
  · rw [rdB, hrail, railWord_warn]
  · rw [readRail_of_compute x alike h4]
    refine ⟨warned_noteWarning _ _ _, fun hw => ?_, ?_⟩
    · rw [hw]; exact event_noteWarning _ _
    · rw [rdB, calStatus_noteWarning]
      exact held_calibrateRail (by omega) _ _ _
  · rintro rfl
    rw [readRail_of_last]
    exact measured_closeReading _

/-- A rail counts as lost. -/
def loseRail (r : Nat) (s : State) : State :=
  { s with pwr := { s.pwr with lostRails := s.pwr.lostRails.filter (fun y => y != r) ++ [r] } }

theorem mem_loseRail (r : Nat) (s : State) : r ∈ (loseRail r s).pwr.lostRails := by simp [loseRail]

@[simp] theorem loseRail_now (r : Nat) (s : State) : (loseRail r s).now = s.now := rfl

theorem Kept.loseRail {l : List Nat} (h : Kept l s u) (r : Nat) : Kept l s (loseRail r u) := h.withPwr _

/-- A rail's regulator counts as faulty. -/
def failRail (r : Nat) (s : State) : State :=
  { s with pwr := { s.pwr with faultRails := s.pwr.faultRails.filter (fun y => y != r) ++ [r] } }

theorem mem_failRail (r : Nat) (s : State) : r ∈ (failRail r s).pwr.faultRails := by simp [failRail]

/-- RAIL_LOST (R351). -/
theorem railLost_completes (hr : r < 18) (ht : mget 0 s.pwr.lastRead r + 1600000 < 2 ^ 64) :
    Completes (.railLost r) s (fun u =>
      r ∈ u.pwr.lostRails ∧ mget 0 s.pwr.lastRead r + 1600000 ≤ now u ∧ rdB u Reg.faultStatus 19 = true
        ∧ RegsKept [Reg.faultStatus, Reg.firstSource] s u ∧ MemKept s u) := by
  have hclock := now_clockTo s _ ht
  have hrec := recorded_present (src := 19) (by decide) (railPart r)
    (loseRail r (clockTo (mget 0 s.pwr.lastRead r + 1600000) s))
  have hkept := (((Kept.refl _ s).clockTo (mget 0 s.pwr.lastRead r + 1600000)).loseRail r).trans hrec.kept
  have hlost : r ∈ (loseRail r (clockTo (mget 0 s.pwr.lastRead r + 1600000) s)).pwr.lostRails := mem_loseRail r _
  rw [← hrec.pwr] at hlost
  rw [now, ← loseRail_now r, ← hrec.now] at hclock
  exact ⟨_, congrArg ok (if_pos hr), hlost, hclock, hrec.bit, hkept.regs, hkept.mem⟩

/-- REGULATOR_FAULT (R351, R385). -/
theorem regulatorFault_completes (hr : r < 18) :
    Completes (.regulatorFault r) s (fun u =>
      r ∈ u.pwr.faultRails ∧ rdB u Reg.faultStatus 20 = true ∧ RegsKept [Reg.faultStatus, Reg.firstSource] s u
        ∧ MemKept s u) := by
  have hrec := recorded_present (src := 20) (by decide) (railPart r) (failRail r s)
  have hkept := ((Kept.refl _ s).withPwr _).trans hrec.kept
  have hfault : r ∈ (failRail r s).pwr.faultRails := mem_failRail r s
  rw [← hrec.pwr] at hfault
  exact ⟨_, congrArg ok (if_pos hr), hfault, hrec.bit, hkept.regs, hkept.mem⟩

end Sys2Proof.Machine
end

section
/-! PROOFS. The activity estimate and what the loop of the cap does about the projected mean (R352, R356, R360,
R377). -/

namespace Sys2Proof.Machine

variable {s u v : State}

-- Gates and the floor

theorem cluster_inj {c d : Nat} (h : c ≠ d) : Reg.cluster c ≠ Reg.cluster d := by simp only [Reg.cluster]; omega

/-- What gating clusters can have changed: registers of clusters, tiles, what is sent. -/
structure GatesMoved (s u : State) : Prop where
  regs : ∀ a, (∀ c, a ≠ Reg.cluster c) → rd u a = rd s a
  mem : MemKept s u
  now : u.now = s.now
  pwr : u.pwr = s.pwr

theorem GatesMoved.refl (s : State) : GatesMoved s s := ⟨fun _ _ => rfl, fun _ => rfl, rfl, rfl⟩

theorem GatesMoved.trans (h : GatesMoved s u) (h' : GatesMoved u v) : GatesMoved s v :=
  ⟨fun a ha => (h'.regs a ha).trans (h.regs a ha), fun a => (h'.mem a).trans (h.mem a), h'.now.trans h.now,
    h'.pwr.trans h.pwr⟩

theorem setGate_gatesMoved (c k : Nat) (s : State) : GatesMoved s (setGate c k s) := by
  unfold setGate
  split
  · exact GatesMoved.refl s
  · exact ⟨fun a ha => rd_wrF_ne s _ _ _ (ha c), fun _ => rfl, rfl, rfl⟩

theorem setGates_gatesMoved (k : Nat) (l : List Nat) (s : State) : GatesMoved s (l.foldl (fun s c => setGate c k s) s) :=
  List.foldlRecOn (motive := GatesMoved s) _ _ (GatesMoved.refl s) fun u hu c _ => hu.trans (setGate_gatesMoved c k u)

theorem stopBallast_gatesMoved (s : State) : GatesMoved s (stopBallast s) := by
  obtain ⟨ts, he⟩ := stopBallast_cases s
  rw [he]; exact ⟨fun _ _ => rfl, fun _ => rfl, rfl, rfl⟩

theorem holdFloor_gatesMoved (s : State) : GatesMoved s (holdFloor s) :=
  (setGates_gatesMoved 8 _ s).trans (stopBallast_gatesMoved _)

theorem leaveFloor_gatesMoved (s : State) : GatesMoved s (leaveFloor s) := by
  unfold leaveFloor
  split
  · exact GatesMoved.refl s
  · exact setGates_gatesMoved 0 _ s

theorem gate_setGate_self (c : Nat) {k : Nat} (hk : k < 16) (s : State) : gated (setGate c k s) c = k := by
  unfold setGate
  split
  case isTrue h => exact h
  case isFalse => exact rdF_wrF_fits _ _ (by decide) (by decide) hk

theorem gate_setGate_ne {c d : Nat} (k : Nat) (h : c ≠ d) (s : State) : gated (setGate d k s) c = gated s c := by
  unfold setGate
  split
  · rfl
  · exact rdF_wrF_ne s _ _ _ _ _ (cluster_inj h)

/-- Every cluster of a list that is gated in turn has the gate. -/
theorem gate_setGates {k : Nat} (hk : k < 16) {l : List Nat} {c : Nat} (hc : c ∈ l) (s : State) :
    gated (l.foldl (fun s c => setGate c k s) s) c = k := by
  induction l generalizing s with
  | nil => cases hc
  | cons d l ih =>
    by_cases hl : c ∈ l
    · exact ih hl _
    · obtain rfl : c = d := by simpa [hl] using hc
      have hkeep := foldl_keeps (setGate c k s) (fun u => gated u c) (fun u d => setGate d k u) l fun u d hd =>
        gate_setGate_ne k (ne_of_mem_of_not_mem hd hl).symm u
      exact hkeep.trans (gate_setGate_self c hk s)

/-- The power floor gates every cluster in 8 of 16 cycles (R377). -/
theorem gate_holdFloor {c : Nat} (hc : c < 32) (s : State) : gated (holdFloor s) c = 8 := by
  rw [holdFloor, gated, rdF, rd_stopBallast]
  exact gate_setGates (by decide) (List.mem_range.2 hc) s

-- What the loop of the cap leaves

/-- Cutting and easing power can have changed registers of frequency steps and of clusters; memory, the clock, the
estimates and the readings' ticks stay. -/
structure Regulated (s u : State) : Prop where
  regs : ∀ a ∉ freqRegs, (∀ c, a ≠ Reg.cluster c) → rd u a = rd s a
  mem : MemKept s u
  now : u.now = s.now
  estimate : u.pwr.estimate = s.pwr.estimate
  lastRead : u.pwr.lastRead = s.pwr.lastRead

theorem Regulated.trans (h : Regulated s u) (h' : Regulated u v) : Regulated s v :=
  ⟨fun a ha hc => (h'.regs a ha hc).trans (h.regs a ha hc), fun a => (h'.mem a).trans (h.mem a), h'.now.trans h.now,
    h'.estimate.trans h.estimate, h'.lastRead.trans h.lastRead⟩

theorem FreqMoved.regulated (h : FreqMoved s u) : Regulated s u :=
  ⟨fun a ha _ => h.kept.regs a ha, h.kept.mem, h.now, by rw [h.pwr], by rw [h.pwr]⟩

theorem GatesMoved.regulated (h : GatesMoved s u) : Regulated s u :=
  ⟨fun a _ hc => h.regs a hc, h.mem, h.now, by rw [h.pwr], by rw [h.pwr]⟩

/-- A change of the power control's own record that touches neither the estimates nor the readings' ticks. -/
theorem regulated_withPwr {x : Pwr} (he : x.estimate = s.pwr.estimate) (hl : x.lastRead = s.pwr.lastRead) :
    Regulated s { s with pwr := x } := ⟨fun _ _ _ => rfl, fun _ => rfl, rfl, he, hl⟩

theorem regulated_orEvent (m : Nat) (s : State) : Regulated s (orReg Reg.powerEvent m s) :=
  ⟨fun _ ha _ => rd_orReg_ne s m fun h => ha (by rw [h]; decide), fun _ => rfl, rfl, rfl, rfl⟩

/-- The floor that the cap holds when it can lower no die any more (R360, R377). -/
def capHoldsFloor (s : State) : State :=
  { s with pwr := { s.pwr with capFloor := true } } |> holdFloor |> orReg Reg.powerEvent (2 ^ 8) |> stepAll

/-- A cut of power: ballast first, then one die, then the floor (R356, R360). -/
theorem cutPower_cases (s : State) :
    (s.pwr.capCut = false ∧ cutPower s = { s with pwr := { s.pwr with capCut := true } })
    ∨ (s.pwr.capCut = true ∧ ∃ p f, capVictim s = some p
        ∧ cutPower s = stepOrWait p { s with pwr := { s.pwr with capLim := mset 72 s.pwr.capLim p f } })
    ∨ (s.pwr.capCut = true ∧ capVictim s = none ∧ cutPower s = capHoldsFloor s) := by
  unfold cutPower
  cases hcut : s.pwr.capCut
  · exact .inl ⟨rfl, rfl⟩
  · cases hv : capVictim s with
    | some p => exact .inr (.inl ⟨rfl, p, _, rfl, rfl⟩)
    | none => exact .inr (.inr ⟨rfl, rfl, rfl⟩)

theorem regulated_capHoldsFloor (s : State) : Regulated s (capHoldsFloor s) :=
  (((regulated_withPwr (s := s) (x := { s.pwr with capFloor := true }) rfl rfl).trans
    (holdFloor_gatesMoved _).regulated).trans (regulated_orEvent _ _)).trans (stepAll_freqMoved _).regulated

theorem regulated_cutPower (s : State) : Regulated s (cutPower s) := by
  rcases cutPower_cases s with ⟨-, he⟩ | ⟨-, p, f, -, he⟩ | ⟨-, -, he⟩ <;> rw [he]
  · exact regulated_withPwr rfl rfl
  · exact (regulated_withPwr (x := { s.pwr with capLim := mset 72 s.pwr.capLim p f }) rfl rfl).trans
      (stepOrWait_freqMoved p _).regulated
  · exact regulated_capHoldsFloor s

theorem pwr_capHoldsFloor (s : State) :
    (capHoldsFloor s).pwr.capCut = s.pwr.capCut ∧ (capHoldsFloor s).pwr.capFloor = true := by
  rw [capHoldsFloor, (stepAll_freqMoved _).pwr, orReg_pwr, (holdFloor_gatesMoved _).pwr]
  exact ⟨rfl, rfl⟩

theorem capCut_cutPower (s : State) : (cutPower s).pwr.capCut = true := by
  rcases cutPower_cases s with ⟨-, he⟩ | ⟨hcut, p, f, -, he⟩ | ⟨hcut, -, he⟩ <;> rw [he]
  · rw [(stepOrWait_freqMoved p _).pwr]; exact hcut
  · rw [(pwr_capHoldsFloor s).1, hcut]

/-- With every die's limit at 0.4 GHz there is none that the cap can lower. -/
theorem capVictim_eq_none (h : ∀ p, p < 4 → mget 72 s.pwr.capLim p ≤ 16) : capVictim s = none := by
  have hnil : (List.range 4).filter (fun p => decide (16 < mget 72 s.pwr.capLim p)) = [] := by
    rw [List.filter_eq_nil_iff]
    intro p hp
    have := h p (List.mem_range.1 hp)
    simp only [decide_eq_true_eq]; omega
  rw [capVictim, hnil]; rfl

/-- At the floor the cap gates every cluster and says that it is not met (R360, R377). -/
theorem cutPower_at_floor (hcut : s.pwr.capCut = true) (h : ∀ p, p < 4 → mget 72 s.pwr.capLim p ≤ 16) :
    (cutPower s).pwr.capFloor = true ∧ (∀ c, c < 32 → gated (cutPower s) c = 8)
      ∧ rdB (cutPower s) Reg.powerEvent 8 = true := by
  have he : cutPower s = capHoldsFloor s := by
    rcases cutPower_cases s with ⟨hno, -⟩ | ⟨-, p, f, hv, -⟩ | ⟨-, -, he⟩
    · rw [hcut] at hno; cases hno
    · rw [capVictim_eq_none h] at hv; cases hv
    · exact he
  have hstep := stepAll_freqMoved
    (orReg Reg.powerEvent (2 ^ 8) (holdFloor { s with pwr := { s.pwr with capFloor := true } }))
  rw [he]
  refine ⟨(pwr_capHoldsFloor s).2, fun c hc => ?_, hstep.event 8 ?_⟩
  · rw [capHoldsFloor, gated, rdF, hstep.kept.regs _ (cluster_notMem_freqRegs c),
      rd_orReg_ne _ _ (by simp only [Reg.cluster, Reg.powerEvent]; omega)]
    exact gate_holdFloor hc _
  · rw [rdB_orReg_self, bit_wd _ (by decide), Nat.testBit_two_pow_self, Bool.or_true]

/-- The cap's own record when power may rise again: no cut, no floor, and the limits one step higher (R360). -/
def eased (x : Pwr) : Pwr := { x with
  capCut := false, capFloor := false,
  capLim := (x.capLim.map (fun kv => (kv.1, kv.2 + 1))).filter (fun kv => kv.2 < 72) }

theorem easePower_cases (s : State) : ∃ v, easePower s = stepAll v ∧ GatesMoved { s with pwr := eased s.pwr } v := by
  have he : easePower s = stepAll (if s.pwr.capFloor then leaveFloor { s with pwr := eased s.pwr }
      else { s with pwr := eased s.pwr }) := rfl
  refine ⟨_, he, ?_⟩
  split
  · exact leaveFloor_gatesMoved _
  · exact GatesMoved.refl _

theorem regulated_easePower (s : State) : Regulated s (easePower s) := by
  obtain ⟨v, he, hv⟩ := easePower_cases s
  rw [he]
  exact ((regulated_withPwr (x := eased s.pwr) rfl rfl).trans hv.regulated).trans (stepAll_freqMoved v).regulated

theorem pwr_easePower (s : State) : (easePower s).pwr.capCut = false ∧ (easePower s).pwr.capFloor = false := by
  obtain ⟨v, he, hv⟩ := easePower_cases s
  rw [he, (stepAll_freqMoved v).pwr, hv.pwr]
  exact ⟨rfl, rfl⟩

-- The estimates

/-- The estimates of the compute rails, with the sums that calibration takes, put in place (R352, R353). -/
def noteEstimates (x : List Activity) (l : List Nat) (s : State) : State :=
  l.foldl (fun s p =>
    let e := estimateOf s p (x.getD p {})
    { s with pwr := { s.pwr with estimate := mset 0 s.pwr.estimate p e,
                                 estSum := mset 0 s.pwr.estSum p (mget 0 s.pwr.estSum p + e),
                                 estCount := mset 0 s.pwr.estCount p (mget 0 s.pwr.estCount p + 1) } }) s

/-- Estimates noted touch only themselves and their sums; each rail of the list reads its own. -/
theorem noteEstimates_cases (x : List Activity) (l : List Nat) (s : State) : ∃ e es ec,
    noteEstimates x l s = { s with pwr := { s.pwr with estimate := e, estSum := es, estCount := ec } }
      ∧ ∀ p, mget 0 e p = if p ∈ l then estimateOf s p (x.getD p {}) else mget 0 s.pwr.estimate p := by
  induction l generalizing s with
  | nil => exact ⟨_, _, _, rfl, fun p => by simp⟩
  | cons q l ih =>
    obtain ⟨e, es, ec, he, hread⟩ := ih { s with pwr := { s.pwr with
      estimate := mset 0 s.pwr.estimate q (estimateOf s q (x.getD q {})),
      estSum := mset 0 s.pwr.estSum q (mget 0 s.pwr.estSum q + estimateOf s q (x.getD q {})),
      estCount := mset 0 s.pwr.estCount q (mget 0 s.pwr.estCount q + 1) } }
    refine ⟨e, es, ec, he, fun p => (hread p).trans ?_⟩
    by_cases hl : p ∈ l
    · rw [if_pos hl, if_pos (List.mem_cons_of_mem q hl)]; rfl
    · by_cases hq : p = q
      · subst hq; simp [hl, mget_mset_self]
      · simp [hl, hq, mget_mset_ne _ _ _ hq]

/-- What the sum of the loop reads: the rails, the estimates of the compute rails, the readings' ticks and the clock. -/
theorem sumEstimate_congr (hr : ∀ r, r < 18 → rd u (Reg.rail r) = rd s (Reg.rail r))
    (he : ∀ p, p < 4 → mget 0 u.pwr.estimate p = mget 0 s.pwr.estimate p) (hl : u.pwr.lastRead = s.pwr.lastRead)
    (hn : u.now = s.now) : sumEstimate u = sumEstimate s := by
  have hterm : (List.range 18).map (railTerm u) = (List.range 18).map (railTerm s) := by
    refine List.map_congr_left fun r hmem => ?_
    have hv : (if r < 4 then 10 * mget 0 u.pwr.estimate r else railPower u r)
        = if r < 4 then 10 * mget 0 s.pwr.estimate r else railPower s r := by
      split
      case isTrue h => rw [he r h]
      case isFalse => rw [railPower, rdF, hr r (List.mem_range.1 hmem)]; rfl
    have hstale : railStale u r = railStale s r := by rw [railStale, railStale, hl, now, now, hn]
    simp only [railTerm, hv, hstale]
  rw [sumEstimate, sumEstimate, hterm]

theorem Regulated.sumEstimate (h : Regulated s u) : sumEstimate u = sumEstimate s := by
  refine sumEstimate_congr (fun r hr => h.regs _ ?_ fun c => ?_) (fun p _ => by rw [h.estimate]) h.lastRead h.now
  · simp only [freqRegs, List.mem_cons, List.not_mem_nil, or_false, Reg.rail, Reg.powerStatus, Reg.ffBreach,
      Reg.powerEvent]
    omega
  · simp only [Reg.rail, Reg.cluster]; omega

/-- The state that the loop of the cap judges: estimates noted, their sum in POWER.MEASURED (R381). -/
def estimated (x : List Activity) (s : State) : State :=
  let s := noteEstimates x (List.range 4) s
  wrF Reg.measured 31 16 (min 65535 (sumEstimate s)) s

/-- What the loop of the cap does (R360). -/
def regulate (s : State) : State := if (capOf s : Int) < projected s then cutPower s else easePower s

theorem exec_activityEstimate (x : List Activity) (s : State) :
    exec (.activityEstimate x) s = ok (regulate (estimated x s)) := rfl

theorem regulated_regulate (s : State) : Regulated s (regulate s) := by
  unfold regulate
  split
  · exact regulated_cutPower s
  · exact regulated_easePower s

theorem estimated_cases (x : List Activity) (s : State) : ∃ e es ec,
    (estimated x s).pwr = { s.pwr with estimate := e, estSum := es, estCount := ec }
      ∧ Kept [Reg.measured] s (estimated x s) ∧ (estimated x s).now = s.now ∧ (estimated x s).tiles = s.tiles
      ∧ (∀ p, p < 4 → mget 0 e p = estimateOf s p (x.getD p {}))
      ∧ rdF (estimated x s) Reg.measured 31 16 = min 65535 (sumEstimate (estimated x s)) := by
  obtain ⟨e, es, ec, he, hread⟩ := noteEstimates_cases x (List.range 4) s
  have hsum : sumEstimate (estimated x s) = sumEstimate (noteEstimates x (List.range 4) s) :=
    sumEstimate_congr (fun r _ => rd_wrF_ne _ _ _ _ (rail_ne_measured r)) (fun _ _ => rfl) rfl rfl
  refine ⟨e, es, ec, ?_, ?_, ?_, ?_, fun p hp => ?_, ?_⟩
  · simp only [estimated, wrF_pwr, he]
  · rw [estimated, he]
    exact ((Kept.refl _ s).withPwr _).wrF (by simp) _ _ _
  · simp only [estimated, wrF_now, he]
  · simp only [estimated, wrF_tiles, he]
  · rw [hread p, if_pos (List.mem_range.2 hp)]
  · rw [hsum]
    exact rdF_wrF_fits _ _ (by decide) (by decide) (by omega)

/-- The projected mean and the cap are what the estimates make them; the sums of calibration do not matter (R360). -/
theorem projected_estimated (x : List Activity) {e : Map Nat}
    (h : ∀ p, p < 4 → mget 0 e p = estimateOf s p (x.getD p {})) :
    projected (estimated x s) = projected { s with pwr := { s.pwr with estimate := e } } := by
  obtain ⟨e', es, ec, hpwr, hkept, hnow, htiles, hread, -⟩ := estimated_cases x s
  have hsum : sumEstimate (estimated x s) = sumEstimate { s with pwr := { s.pwr with estimate := e } } := by
    refine sumEstimate_congr (fun r _ => hkept.regs _ ?_) (fun p hp => ?_) (by rw [hpwr]) hnow
    · simp [rail_ne_measured]
    · rw [hpwr]; exact (hread p hp).trans (h p hp).symm
  have hhints : hintsAhead (estimated x s) 1600000 = hintsAhead s 1600000 := by
    rw [hintsAhead, htiles, now, hnow]; rfl
  rw [projected, hsum, hhints, hpwr]
  rfl

/-- ACTIVITY_ESTIMATE (R352, R360). -/
theorem activityEstimate_completes (x : List Activity) {e : Map Nat} {mean : Int}
    (he : ∀ p, p < 4 → mget 0 e p = estimateOf s p (x.getD p {}))
    (hm : mean = projected { s with pwr := { s.pwr with estimate := e } }) :
    Completes (.activityEstimate x) s (fun u =>
      (∀ p, p < 4 → mget 0 u.pwr.estimate p = estimateOf s p (x.getD p {}))
        ∧ rdF u Reg.measured 31 16 = min 65535 (sumEstimate u)
        ∧ ((capOf s : Int) < mean → u.pwr.capCut = true)
        ∧ ((capOf s : Int) < mean → s.pwr.capCut = true → (∀ p, p < 4 → mget 72 s.pwr.capLim p ≤ 16) →
            u.pwr.capFloor = true ∧ (∀ c, c < 32 → gated u c = 8) ∧ rdB u Reg.powerEvent 8 = true)
        ∧ (mean ≤ (capOf s : Int) → u.pwr.capCut = false ∧ u.pwr.capFloor = false) ∧ MemKept s u) := by
  obtain ⟨e', es, ec, hpwr, hkept, -, -, hread, hmeasured⟩ := estimated_cases x s
  have hcap : capOf (estimated x s) = capOf s := by rw [capOf, rdF, hkept.regs _ (by decide)]; rfl
  have hcond : (capOf (estimated x s) : Int) < projected (estimated x s) ↔ (capOf s : Int) < mean := by
    rw [hcap, projected_estimated x he, hm]
  have hreg := regulated_regulate (estimated x s)
  have hcut (h : (capOf s : Int) < mean) : regulate (estimated x s) = cutPower (estimated x s) :=
    if_pos (hcond.2 h)
  refine ⟨_, exec_activityEstimate x s, fun p hp => ?_, ?_, fun h => ?_, fun h hc hl => ?_, fun h => ?_,
    fun a => (hreg.mem a).trans (hkept.mem a)⟩
  · rw [hreg.estimate, hpwr]; exact hread p hp
  · rw [hreg.sumEstimate, ← hmeasured, rdF, hreg.regs _ (by decide)]
    · rfl
    · intro c; simp only [Reg.measured, Reg.cluster]; omega
  · rw [hcut h]; exact capCut_cutPower _
  · rw [hcut h]
    exact cutPower_at_floor (by rw [hpwr]; exact hc) (by rw [hpwr]; exact hl)
  · have hease : regulate (estimated x s) = easePower (estimated x s) := if_neg (by rw [hcond]; omega)
    rw [hease]; exact pwr_easePower _

end Sys2Proof.Machine
end

section
/-! PROOFS. The cap and its lease, the device reset that ends it, slack and shares, ballast, the start governor (R359,
R361–R363, R366, R367, R369). -/

namespace Sys2Proof.Machine

variable {s u v : State}

-- The cap and its lease

/-- Writes of POWER.CAP are counted, not logged (R446). -/
theorem logOutcome_powerCap (c : Reg.Class) (who : Writer) (b : Bool) (s : State) :
    logOutcome c who Reg.powerCap b s = addSat Reg.auditHead 63 32 1 s := rfl

/-- A cap clamped to its bounds (R359). -/
def clampCap (s : State) (v : Word) : Nat := max (rdF s Reg.powerCap 31 16) (min (rdF s Reg.powerCap 47 32) (fld v 15 0))

/-- The registers' part of an admitted write of POWER.CAP: the clamped cap, the event of a clamp (R359). -/
def writeCap (v : Word) (s : State) : State :=
  let u := s |> wrF Reg.powerCap 15 0 (clampCap s v) |> setPresent 24 false
  if fld v 15 0 < rdF s Reg.powerCap 31 16 ∨ rdF s Reg.powerCap 47 32 < fld v 15 0 then
    orReg Reg.powerEvent (2 ^ 7) u else u

/-- The lease runs from now on (R361). -/
def startLease (s : State) : State := { s with pwr := { s.pwr with leaseFrom := some (now s), integral := 0 } }

theorem clampCap_lt (s : State) (v : Word) : clampCap s v < 2 ^ 16 := by
  have hlo : rdF s Reg.powerCap 31 16 < 2 ^ 16 := fld_lt _ _ _
  have hv : fld v 15 0 < 2 ^ 16 := fld_lt _ _ _
  rw [clampCap]; omega

theorem rd_writeCap (v : Word) (s : State) :
    rd (writeCap v s) Reg.powerCap = rd (wrF Reg.powerCap 15 0 (clampCap s v) s) Reg.powerCap := by
  unfold writeCap
  dsimp only
  split
  · exact rd_orReg_ne _ _ (by decide)
  · rfl

theorem kept_writeCap (v : Word) (s : State) : Kept [Reg.powerCap, Reg.powerEvent, Reg.auditHead] s (writeCap v s) := by
  have hkept : Kept [Reg.powerCap, Reg.powerEvent, Reg.auditHead] s
      (setPresent 24 false (wrF Reg.powerCap 15 0 (clampCap s v) s)) :=
    ((Kept.refl _ s).wrF (by simp) _ _ _).of_same rfl rfl
  unfold writeCap
  dsimp only
  split
  · exact hkept.orReg (by simp) _
  · exact hkept

theorem clamped_writeCap {v : Word}
    (h : fld v 15 0 < rdF s Reg.powerCap 31 16 ∨ rdF s Reg.powerCap 47 32 < fld v 15 0) :
    rdB (writeCap v s) Reg.powerEvent 7 = true := by
  rw [writeCap, if_pos h, rdB_orReg_self, bit_wd _ (by decide), Nat.testBit_two_pow_self, Bool.or_true]

theorem now_writeCap (v : Word) (s : State) : now (writeCap v s) = now s := by
  unfold writeCap
  dsimp only
  split <;> rfl

/-- An admitted write: POWER.CAP and its event, the lease, the count of the audit log. -/
theorem exec_powerCapWrite {who : Writer} (v : Word) (h : mayWrite s .installer who = true) :
    exec (.powerCapWrite who v) s = ok (addSat Reg.auditHead 63 32 1 (startLease (writeCap v s))) := by
  change ok (answered who Reg.powerCap (powerCapWrite who v s)) = _
  rw [powerCapWrite, answered_withRoleDo _ _ h, logOutcome_powerCap]
  rfl

/-- POWER_CAP_WRITE by a writer that may (R359, R361). -/
theorem powerCapWrite_completes {who : Writer} {v : Word} {lo hi : Nat} (hmay : mayWrite s .installer who = true)
    (hlo : lo = rdF s Reg.powerCap 31 16) (hhi : hi = rdF s Reg.powerCap 47 32) :
    Completes (.powerCapWrite who v) s (fun u =>
      capOf u = max lo (min hi (fld v 15 0)) ∧ u.pwr.leaseFrom = some (now s)
        ∧ (fld v 15 0 < lo ∨ hi < fld v 15 0 → rdB u Reg.powerEvent 7 = true)
        ∧ rdF u Reg.powerCap 31 16 = lo ∧ rdF u Reg.powerCap 47 32 = hi
        ∧ RegsKept [Reg.powerCap, Reg.powerEvent, Reg.auditHead] s u ∧ MemKept s u) := by
  have hrd (a : Nat) (ha : a ≠ Reg.auditHead) :
      rd (addSat Reg.auditHead 63 32 1 (startLease (writeCap v s))) a = rd (writeCap v s) a := rd_addSat_ne _ _ _ _ ha
  have hcap := (hrd Reg.powerCap (by decide)).trans (rd_writeCap v s)
  have hkept := ((kept_writeCap v s).of_same (v := startLease (writeCap v s)) rfl rfl).addSat (a := Reg.auditHead)
    (by simp) 63 32 1
  subst hlo hhi
  refine ⟨_, exec_powerCapWrite v hmay, ?_, ?_, fun h => ?_, ?_, ?_, hkept.regs, hkept.mem⟩
  · rw [capOf, rdF, hcap]
    exact rdF_wrF_fits _ _ (by decide) (by decide) (clampCap_lt s v)
  · exact congrArg some (now_writeCap v s)
  · rw [rdB, hrd _ (by decide)]
    exact clamped_writeCap h
  · rw [rdF, hcap]
    exact rdF_wrF_other _ _ _ _ _ _ _ (by decide) (by decide) (by decide)
  · rw [rdF, hcap]
    exact rdF_wrF_other _ _ _ _ _ _ _ (by decide) (by decide) (by decide)

/-- The end of a lease in the power control: SAFE in force, its event, no lease (R361). -/
def endLease (safe : Nat) (s : State) : State :=
  s |> wrF Reg.powerCap 15 0 safe |> orReg Reg.powerEvent 2
    |> (fun s => { s with pwr := { s.pwr with leaseFrom := none, integral := 0 } })

theorem endLease_leaseFrom (safe : Nat) (s : State) : (endLease safe s).pwr.leaseFrom = none := rfl

@[simp] theorem endLease_now (safe : Nat) (s : State) : (endLease safe s).now = s.now := rfl

theorem memByte_endLease (safe a : Nat) (s : State) : memByte (endLease safe s) a = memByte s a := rfl

theorem capOf_endLease {safe : Nat} (h : safe < 2 ^ 16) (s : State) : capOf (endLease safe s) = safe :=
  (rdF_orReg_ne _ _ _ _ (by decide)).trans (rdF_wrF_fits _ _ (by decide) (by decide) h)

theorem event_endLease (safe : Nat) (s : State) : rdB (endLease safe s) Reg.powerEvent 1 = true := by
  have hbit : bit (wd 2) 1 = true := by decide
  refine (rdB_orReg_self _ _ _ _).trans ?_
  rw [hbit, Bool.or_true]

theorem exec_capLeaseExpiry {t : Nat} (hf : s.pwr.leaseFrom = some t) (hl : rdF s Reg.capLease 15 0 ≠ 0) :
    exec .capLeaseExpiry s = ok (setPresent 24 true (recordControl 24 true none []
      (endLease (rdF s Reg.capLease 47 32) (clockTo (t + rdF s Reg.capLease 15 0 * 1600000) s)))) := by
  change execCapLeaseExpiry s = _
  simp only [execCapLeaseExpiry, hf, if_neg hl, endLease]

/-- CAP_LEASE_EXPIRY of a lease that runs (R361). -/
theorem capLeaseExpiry_completes {t : Nat} (hf : s.pwr.leaseFrom = some t) (hl : rdF s Reg.capLease 15 0 ≠ 0)
    (ht : t + rdF s Reg.capLease 15 0 * 1600000 < 2 ^ 64) :
    Completes .capLeaseExpiry s (fun u =>
      capOf u = rdF s Reg.capLease 47 32 ∧ u.pwr.leaseFrom = none ∧ t + rdF s Reg.capLease 15 0 * 1600000 ≤ now u
        ∧ rdB u Reg.powerEvent 1 = true ∧ rdB u Reg.faultStatus 24 = true ∧ MemKept s u) := by
  have hclock := now_clockTo s _ ht
  have hkept := (Kept.refl [] s).clockTo (t + rdF s Reg.capLease 15 0 * 1600000)
  have hrec := recorded_present (src := 24) (by decide) none
    (endLease (rdF s Reg.capLease 47 32) (clockTo (t + rdF s Reg.capLease 15 0 * 1600000) s))
  rw [now, ← endLease_now (rdF s Reg.capLease 47 32), ← hrec.now] at hclock
  refine ⟨_, exec_capLeaseExpiry hf hl, ?_, ?_, hclock, ?_, hrec.bit, fun a => ?_⟩
  · rw [capOf, rdF, hrec.kept.regs _ (by decide)]
    exact capOf_endLease (fld_lt _ _ _) _
  · rw [hrec.pwr, endLease_leaseFrom]
  · rw [rdB, hrec.kept.regs _ (by decide)]
    exact event_endLease _ _
  · rw [hrec.kept.mem, memByte_endLease, hkept.mem]

/-- CAP_LEASE_EXPIRY without a lease that runs (R361). -/
theorem capLeaseExpiry_idle (h : s.pwr.leaseFrom = none ∨ rdF s Reg.capLease 15 0 = 0) :
    Completes .capLeaseExpiry s (fun u => u = s) := by
  refine ⟨s, ?_, rfl⟩
  change execCapLeaseExpiry s = _
  unfold execCapLeaseExpiry
  split
  next => rfl
  next t hf =>
    have hl : rdF s Reg.capLease 15 0 = 0 := by simpa [hf] using h
    rw [if_pos hl]; rfl

theorem pwr_wrReg_if (c : Prop) [Decidable c] (a : Nat) (v : Word) (s : State) :
    ((if c then wrReg a v else id) s).pwr = s.pwr := by
  split <;> rfl

@[simp] theorem loadFuses_pwr (s : State) : (loadFuses s).pwr = s.pwr := by
  unfold loadFuses
  dsimp only
  refine (foldl_keeps _ State.pwr _ _ fun u p _ => foldl_keeps _ State.pwr _ _ fun w i _ => ?_).trans ?_
  · split <;> rfl
  · exact pwr_wrReg_if _ _ _ _

/-- Writes of FAULT.RESET_CTRL by an operator are not logged (R446). -/
theorem logOutcome_resetCtrl (who : Writer) (b : Bool) (s : State) :
    logOutcome .operator who Reg.resetCtrl b s = s := rfl

/-- A device reset ends the lease: it does not run until the next write (R361, R400). -/
theorem deviceReset_leaseFrom {who : Writer} (h : mayWrite s .operator who = true) :
    Completes (.deviceReset who) s (fun u => u.pwr.leaseFrom = none) := by
  have he : exec (.deviceReset who) s = ok (resetDevice s) := by
    change ok (answered who Reg.resetCtrl (resetCtrlWrite who (wd (2 ^ 63)) s)) = _
    rw [resetCtrlWrite, answered_withRoleDo _ _ h, logOutcome_resetCtrl, if_pos (by decide)]
  refine ⟨_, he, ?_⟩
  rw [resetDevice, afterFuseLoad]
  simp only [wrReg_pwr, loadFuses_pwr]

-- Slack

theorem sum_range_four (g : Nat → Nat) :
    ((List.range 4).map g).foldl (fun a b => a + b) 0 = g 0 + g 1 + g 2 + g 3 := by
  simp [List.range_succ]

/-- The word of POWER.SLACK_AVG from the device's slack and the partitions' (R362, R381). -/
def slackWord (d : Nat) (part : Nat → Nat) : Word :=
  wd (d * 2 ^ 48 + ((List.range 4).map (fun p => part p * 2 ^ (12 * p))).foldl (fun a b => a + b) 0)

theorem slackWord_eq (d : Nat) (part : Nat → Nat) :
    slackWord d part = wd (d * 2 ^ 48 + (part 0 + part 1 * 2 ^ 12 + part 2 * 2 ^ 24 + part 3 * 2 ^ 36)) := by
  have h0 : 2 ^ (12 * 0) = 1 := rfl
  have h1 : 2 ^ (12 * 1) = 2 ^ 12 := rfl
  have h2 : 2 ^ (12 * 2) = 2 ^ 24 := rfl
  have h3 : 2 ^ (12 * 3) = 2 ^ 36 := rfl
  rw [slackWord, sum_range_four, h0, h1, h2, h3, Nat.mul_one]

theorem slackWord_device {d : Nat} {part : Nat → Nat} (hd : d ≤ 1024) (hp : ∀ p, part p ≤ 1024) :
    fld (slackWord d part) 58 48 = d := by
  have h0 := hp 0; have h1 := hp 1; have h2 := hp 2; have h3 := hp 3
  rw [slackWord_eq, fld_wd _ (by decide)]; omega

theorem slackWord_part {d p : Nat} {part : Nat → Nat} (hp : ∀ p, part p ≤ 1024) (h4 : p < 4) :
    fld (slackWord d part) (12 * p + 11) (12 * p) = part p := by
  have h0 := hp 0; have h1 := hp 1; have h2 := hp 2; have h3 := hp 3
  rw [slackWord_eq, fld_wd _ (by omega)]
  interval_cases p <;> omega

/-- Published slack of a partition, as it is measured (R362). -/
def partSlack (s : State) (p : Nat) : Nat :=
  min 1024 (mget 0 s.pwr.partWait p / (max 1 s.pwr.slackRounds * max 1 (runningIn s p)))

/-- SLACK_PUBLISH (R362). -/
theorem slackPublish_completes (s : State) : Completes .slackPublish s (fun u =>
    rdF u Reg.slackAvg 58 48 = min 1024 (s.pwr.slackSum / max 1 s.pwr.slackRounds)
      ∧ (∀ p, p < 4 → slackOf u p
          = min 1024 (mget 0 s.pwr.partWait p / (max 1 s.pwr.slackRounds * max 1 (runningIn s p))))
      ∧ u.out = s.out ++ [.pldm 64 (rd u Reg.slackAvg)] ∧ u.pwr.slackSum = 0 ∧ u.pwr.slackRounds = 0
      ∧ u.pwr.partWait = [] ∧ RegsKept [Reg.slackAvg] s u ∧ MemKept s u) := by
  have hpart : ∀ p, partSlack s p ≤ 1024 := fun p => min_le_left _ _
  have hword : rd (wrReg Reg.slackAvg (slackWord (min 1024 (s.pwr.slackSum / max 1 s.pwr.slackRounds)) (partSlack s)) s)
      Reg.slackAvg = _ := rd_wrReg_self _ _ _
  have hkept := (Kept.refl [Reg.slackAvg] s).wrReg (List.mem_singleton.2 rfl)
    (slackWord (min 1024 (s.pwr.slackSum / max 1 s.pwr.slackRounds)) (partSlack s))
  refine ⟨_, rfl, ?_, fun p hp => ?_, ?_, rfl, rfl, rfl, hkept.regs, hkept.mem⟩
  · exact (congrArg (fld · 58 48) hword).trans (slackWord_device (min_le_left _ _) hpart)
  · exact (congrArg (fld · (12 * p + 11) (12 * p)) hword).trans (slackWord_part hpart hp)
  · exact congrArg (fun w => s.out ++ [Out.pldm 64 w]) hword.symm

-- Shares

/-- Four shares scaled to a budget stay within it together (R363). -/
theorem scaleShares_sum_le (budget a b c d : Nat) (n : Nat → Nat) (hn : n = nth (scaleShares budget [a, b, c, d])) :
    n 0 + n 1 + n 2 + n 3 ≤ budget := by
  subst hn
  have hsum : [a, b, c, d].foldl (fun x y => x + y) 0 = a + b + c + d := by simp
  rw [scaleShares, hsum]
  split
  · simp only [nth, List.map_cons, List.getD_cons_zero, List.getD_cons_succ]; omega
  case isFalse h =>
    simp only [nth, List.map_cons, List.getD_cons_zero, List.getD_cons_succ]
    calc a * budget / (a + b + c + d) + b * budget / (a + b + c + d) + c * budget / (a + b + c + d)
          + d * budget / (a + b + c + d)
        ≤ (a * budget + b * budget) / (a + b + c + d) + c * budget / (a + b + c + d)
          + d * budget / (a + b + c + d) := by gcongr; exact Nat.div_add_div_le_add_div
      _ ≤ (a * budget + b * budget + c * budget) / (a + b + c + d) + d * budget / (a + b + c + d) := by
          gcongr; exact Nat.div_add_div_le_add_div
      _ ≤ (a * budget + b * budget + c * budget + d * budget) / (a + b + c + d) := Nat.div_add_div_le_add_div
      _ = budget := by
          rw [← Nat.add_mul, ← Nat.add_mul, ← Nat.add_mul, Nat.mul_div_cancel_left _ (Nat.pos_of_ne_zero h)]

/-- Shares that are equal stay equal (R363). -/
theorem scaleShares_zero (budget : Nat) {p : Nat} (hp : p < 4) :
    nth (scaleShares budget [0, 0, 0, 0]) p = budget / 4 := by
  interval_cases p <;> rfl

/-- A value for each key of a list, written one after the other. -/
theorem mget_foldl_mset (f : Nat → Nat) (l : List Nat) (m : Map Nat) (k : Nat) :
    mget 0 (l.foldl (fun m p => mset 0 m p (f p)) m) k = if k ∈ l then f k else mget 0 m k := by
  induction l generalizing m with
  | nil => simp
  | cons q l ih =>
    rw [List.foldl_cons, ih, mget_mset]
    by_cases hl : k ∈ l <;> by_cases hq : k = q <;> simp [hl, hq]

/-- The shares before they are scaled: equal in fixed-frequency mode, else with one step moved to the partition with the
least slack (R363). -/
def movedShares (s : State) : List Nat :=
  let sh := (List.range 4).map (fun p => mget 0 s.pwr.share p)
  let lo := (List.range 4).foldl (fun b p => if slackOf s p < slackOf s b then p else b) 0
  let hi := (List.range 4).foldl (fun b p => if slackOf s b < slackOf s p then p else b) 0
  let step := rdF s Reg.shiftCtrl 15 0
  if fixedMode s then [0, 0, 0, 0]
  else if slackOf s lo + 64 < slackOf s hi ∧ rdF s Reg.shiftCtrl 31 16 + step ≤ nth sh hi then
    let sh := setNth sh hi (nth sh hi - step)
    setNth sh lo (nth sh lo + step)
  else sh

theorem movedShares_length (s : State) : (movedShares s).length = 4 := by
  unfold movedShares
  dsimp only
  split
  · rfl
  · split <;> simp [setNth]

theorem movedShares_of_fixed (h : fixedMode s = true) : movedShares s = [0, 0, 0, 0] := if_pos h

/-- The compute budget of a partition shift (R363). -/
def shiftBudget (s : State) : Nat :=
  capOf s - (sumReadings s - ((List.range 4).map (railPower s)).foldl (fun a b => a + b) 0 / 10) - capOf s / 50

/-- The moved shares scaled to the budget (R363). -/
def newShares (s : State) : Map Nat :=
  (List.range 4).foldl (fun m p => mset 0 m p (nth (scaleShares (shiftBudget s) (movedShares s)) p)) s.pwr.share

/-- The new shares and POWER.MEASURED, before the dies' limits are looked at again. -/
def shared (s : State) : State :=
  { s with pwr := { s.pwr with share := newShares s } } |> wrF Reg.measured 15 0 (min 65535 (shiftBudget s))

theorem share_shared {p : Nat} (hp : p < 4) (s : State) :
    mget 0 (shared s).pwr.share p = nth (scaleShares (shiftBudget s) (movedShares s)) p :=
  (mget_foldl_mset _ _ _ _).trans (if_pos (List.mem_range.2 hp))

theorem exec_powerShift (s : State) : exec .powerShift s = ok (stepAll (shared s)) := rfl

/-- POWER_SHIFT (R363). -/
theorem powerShift_completes {budget : Nat}
    (hb : budget = capOf s - (sumReadings s - (railPower s 0 + railPower s 1 + railPower s 2 + railPower s 3) / 10)
      - capOf s / 50) :
    Completes .powerShift s (fun u =>
      rdF u Reg.measured 15 0 = min 65535 budget
        ∧ mget 0 u.pwr.share 0 + mget 0 u.pwr.share 1 + mget 0 u.pwr.share 2 + mget 0 u.pwr.share 3 ≤ budget
        ∧ (fixedMode s = true → ∀ p, p < 4 → mget 0 u.pwr.share p = budget / 4) ∧ MemKept s u) := by
  have hbudget : budget = shiftBudget s := by rw [hb, shiftBudget, sum_range_four]
  have hstep := stepAll_freqMoved (shared s)
  have hshare (p : Nat) (hp : p < 4) : mget 0 (stepAll (shared s)).pwr.share p
      = nth (scaleShares budget (movedShares s)) p := by
    rw [hstep.pwr, hbudget]; exact share_shared hp s
  refine ⟨_, exec_powerShift s, ?_, ?_, fun hf p hp => ?_, hstep.kept.mem⟩
  · rw [rdF, hstep.kept.regs _ (by decide), hbudget]
    exact rdF_wrF_fits _ _ (by decide) (by decide) (by omega)
  · rw [hshare 0 (by decide), hshare 1 (by decide), hshare 2 (by decide), hshare 3 (by decide)]
    obtain ⟨a, b, c, d, hl⟩ := List.length_eq_four.1 (movedShares_length s)
    rw [hl]
    exact scaleShares_sum_le budget a b c d _ rfl
  · rw [hshare p hp, movedShares_of_fixed hf, scaleShares_zero budget hp]

-- Ballast

/-- A change of one tile's own record keeps the other tiles, registers and memory. -/
theorem kept_onTl (t : Nat) (f : Tile → Tile) (s : State) :
    TilesKept t s (onTl t f s) ∧ RegsKept [] s (onTl t f s) ∧ MemKept s (onTl t f s) :=
  ⟨fun _ hk => tl_onTl_ne s f hk, fun _ _ => rfl, fun _ => rfl⟩

/-- BALLAST_UPDATE of a tile that runs none (R366). -/
theorem ballastUpdate_off {t : Nat} (ht : t < 512)
    (h : rdB s Reg.ballastLevel 63 = false ∨ ballastStopped s t = true ∨ ballastWaits s t = false) :
    Completes (.ballastUpdate t) s (fun u =>
      (tl u t).ballast = 0 ∧ TilesKept t s u ∧ RegsKept [] s u ∧ MemKept s u) := by
  have hoff : (!rdB s Reg.ballastLevel 63 || ballastStopped s t || !ballastWaits s t) = true := by
    rcases h with h | h | h <;> simp [h]
  exact ⟨_, congrArg ok ((if_pos ht).trans (if_pos hoff)), by rw [tl_onTl_self], kept_onTl t _ s⟩

/-- The level that a waiting tile's ballast moves toward (R366, R367). -/
def ballastTarget (s : State) (t : Nat) : Nat :=
  if s.pwr.capCut then 0
  else max (rdF s Reg.ballastLevel 7 0 * meanActivity s t 16000 / 100) ((hintAt (tl s t) (now s)).getD 0)

/-- A level moved toward a target by at most a slope. -/
def toward (cur target slope : Nat) : Nat :=
  if cur < target then min target (cur + slope) else max target (cur - slope)

/-- A moved level stays within the slope of where it was. -/
theorem toward_bounds (cur target slope : Nat) :
    cur - slope ≤ toward cur target slope ∧ toward cur target slope ≤ cur + slope := by
  unfold toward
  split <;> omega

/-- BALLAST_UPDATE of a waiting tile (R366, R367). -/
theorem ballastUpdate_moves {t cur slope : Nat} (ht : t < 512) (hs : slope = 3 * rdF s Reg.ballastLevel 23 16)
    (hc : cur = (if now s ≤ (tl s t).waitFrom + 1600 then meanActivity s t 1600 else (tl s t).ballast))
    (hen : rdB s Reg.ballastLevel 63 = true) (hstop : ballastStopped s t = false) (hw : ballastWaits s t = true) :
    Completes (.ballastUpdate t) s (fun u =>
      min 300 (cur - slope) ≤ (tl u t).ballast ∧ (tl u t).ballast ≤ 300
        ∧ (tl u t).ballast ≤ max (cur + slope) (hintFloor s t slope)
        ∧ TilesKept t s u ∧ RegsKept [] s u ∧ MemKept s u) := by
  have hon : ¬ (!rdB s Reg.ballastLevel 63 || ballastStopped s t || !ballastWaits s t) = true := by
    simp [hen, hstop, hw]
  have he : exec (.ballastUpdate t) s = ok (onTl t (fun x => { x with
      ballast := min 300 (max (toward cur (ballastTarget s t) slope) (hintFloor s t slope)) }) s) := by
    subst hs hc
    exact congrArg ok ((if_pos ht).trans (if_neg hon))
  obtain ⟨hlow, hhigh⟩ := toward_bounds cur (ballastTarget s t) slope
  have hb : (tl (onTl t (fun x => { x with
      ballast := min 300 (max (toward cur (ballastTarget s t) slope) (hintFloor s t slope)) }) s) t).ballast
        = min 300 (max (toward cur (ballastTarget s t) slope) (hintFloor s t slope)) := by rw [tl_onTl_self]
  exact ⟨_, he, by omega, by omega, by omega, kept_onTl t _ s⟩

-- The start governor

/-- GOVERNOR_RELEASE of a held MXM (R369). -/
theorem governorRelease_completes {t till : Nat} {since : Option Nat} (hf : (tl s t).firstMxm = some (till, since))
    (ht : till < 2 ^ 64) :
    Completes (.governorRelease t) s (fun u =>
      (tl u t).firstMxm = none ∧ till ≤ now u ∧ RegsKept [Reg.stallWait t, Reg.cycles t] s u ∧ TilesKept t s u
        ∧ MemKept s u) := by
  have hclock := now_clockTo s till ht
  have htl : (tl (clockTo till s) t).firstMxm = some (till, since) := by rw [tl_clockTo, hf]
  have he : exec (.governorRelease t) s = ok (governorLetGo t (clockTo till s)) := by
    change execGovernorRelease t s = _
    rw [execGovernorRelease, hf]; rfl
  obtain ⟨x, y, hgo⟩ : ∃ x y, governorLetGo t (clockTo till s) = wrReg (Reg.cycles t) y (wrReg (Reg.stallWait t) x
      (onTl t (fun x => { x with firstMxm := none }) (clockTo till s))) := by
    rw [governorLetGo, htl]; exact ⟨_, _, rfl⟩
  have hkept := ((((Kept.refl [Reg.stallWait t, Reg.cycles t] s).clockTo till).of_same
    (v := onTl t (fun x => { x with firstMxm := none }) (clockTo till s)) rfl rfl).wrReg (a := Reg.stallWait t)
      (by simp) x).wrReg (a := Reg.cycles t) (by simp) y
  rw [hgo] at he
  refine ⟨_, he, ?_, hclock, hkept.regs, fun k hk => ?_, hkept.mem⟩
  · rw [tl_wrReg, tl_wrReg, tl_onTl_self]
  · rw [tl_wrReg, tl_wrReg, tl_onTl_ne _ _ hk, tl_clockTo]

/-- Telemetry, the cap, slack, shares, ballast and the governor, command by command. -/
theorem powerControl : PowerControl := fun s =>
  ⟨fun _ x alike hr => railRead_completes hr x alike, fun _ => railLost_completes, fun _ => regulatorFault_completes,
    fun x _ _ => activityEstimate_completes x, fun _ _ _ _ => powerCapWrite_completes,
    fun _ => capLeaseExpiry_completes, capLeaseExpiry_idle, fun _ => deviceReset_leaseFrom, slackPublish_completes s,
    fun _ => powerShift_completes,
    fun _ _ _ ht hs hc => ⟨ballastUpdate_off ht, ballastUpdate_moves ht hs hc⟩,
    fun _ _ _ => governorRelease_completes⟩

/-- Settles O48: the frequency of a die from the footprint of a frequency step, and telemetry, the cap and its lease from
what each command's stages write. -/
theorem frequencyAndPower : Obligations.FrequencyAndPower := ⟨dieFrequency, powerControl⟩

end Sys2Proof.Machine
end

section
/-! PROOFS. Every step answers a next state: the command at the front of the queue, or a tick. -/

namespace Sys2Proof.Machine

/-- Settles O1: both clauses are `step` on a queue that is not empty and on one that is. -/
theorem stepRunsFrontCommand : Obligations.StepRunsFrontCommand := by
  refine ⟨fun c rest s => rfl, fun s h => ?_⟩
  simp only [step, h]

/-- Every command answers a next state. -/
theorem exec_next (c : Instr) (s : State) : ∃ u, exec c s = .next u := by
  cases c <;> exact ⟨_, rfl⟩

/-- Settles O2: a tick answers a next state by definition, a command by `exec_next`. -/
theorem stepAlwaysGoesOn : Obligations.StepAlwaysGoesOn := by
  intro s
  cases h : s.pending with
  | nil => exact ⟨tick s, stepRunsFrontCommand.2 s h⟩
  | cons c rest =>
    obtain ⟨u, hu⟩ := exec_next c { s with pending := rest }
    refine ⟨u, ?_⟩
    simp only [step, h, hu]

end Sys2Proof.Machine
end

section
/-! PROOFS. The words of a tile's instructions (R72–R75): decoding a word gives back the fields that encoding put into
it, and its opcode names the instruction. -/

namespace Sys2Proof

variable (op : BitVec 8)

-- The fields of each format (R73, R74)

@[simp] theorem decS_encS (x : SArgs) : decS (encS op x) = x := by
  cases x
  simp only [decS, encS, SArgs.mk.injEq]
  refine ⟨by simp only [BitVec.getLsbD_append]; simp, ?_, ?_, ?_, ?_, ?_, ?_, ?_, ?_⟩
  all_goals
    refine BitVec.eq_of_getLsbD_eq fun i hi => ?_
    simp only [BitVec.getLsbD_extractLsb', BitVec.getLsbD_append]
    simp [hi] <;> grind

@[simp] theorem decI_encI (x : IArgs) : decI (encI op x) = x := by
  cases x
  simp only [decI, encI, IArgs.mk.injEq]
  refine ⟨by simp only [BitVec.getLsbD_append]; simp, ?_, ?_, ?_, ?_, ?_⟩
  all_goals
    refine BitVec.eq_of_getLsbD_eq fun i hi => ?_
    simp only [BitVec.getLsbD_extractLsb', BitVec.getLsbD_append]
    simp [hi] <;> grind

@[simp] theorem decM_encM (x : MArgs) : decM (encM op x) = x := by
  cases x
  simp only [decM, encM, MArgs.mk.injEq]
  refine ⟨by simp only [BitVec.getLsbD_append]; simp, ?_, ?_, ?_, ?_, ?_, ?_,
    by simp only [BitVec.getLsbD_append]; simp, ?_, ?_, ?_⟩
  all_goals
    refine BitVec.eq_of_getLsbD_eq fun i hi => ?_
    simp only [BitVec.getLsbD_extractLsb', BitVec.getLsbD_append]
    simp [hi] <;> grind

@[simp] theorem decB_encB (x : BArgs) : decB (encB op x) = x := by
  cases x
  simp only [decB, encB, BArgs.mk.injEq]
  refine ⟨by simp only [BitVec.getLsbD_append]; simp, ?_, ?_, ?_, ?_, ?_, by simp only [BitVec.getLsbD_append]; simp,
    ?_, ?_⟩
  all_goals
    refine BitVec.eq_of_getLsbD_eq fun i hi => ?_
    simp only [BitVec.getLsbD_extractLsb', BitVec.getLsbD_append]
    simp [hi] <;> grind

@[simp] theorem decX_encX (x : XArgs) : decX (encX op x) = x := by
  cases x
  simp only [decX, encX, XArgs.mk.injEq]
  refine ⟨by simp only [BitVec.getLsbD_append]; simp, ?_, ?_, ?_, ?_, ?_, ?_, ?_, ?_,
    by simp only [BitVec.getLsbD_append]; simp, by simp only [BitVec.getLsbD_append]; simp, ?_,
    by simp only [BitVec.getLsbD_append]; simp, ?_⟩
  all_goals
    refine BitVec.eq_of_getLsbD_eq fun i hi => ?_
    simp only [BitVec.getLsbD_extractLsb', BitVec.getLsbD_append]
    simp [hi] <;> grind

@[simp] theorem decQ_encQ (x : QArgs) : decQ (encQ op x) = x := by
  cases x
  simp only [decQ, encQ, QArgs.mk.injEq]
  refine ⟨by simp only [BitVec.getLsbD_append]; simp, ?_, ?_, ?_, ?_, ?_, ?_, ?_,
    by simp only [BitVec.getLsbD_append]; simp, by simp only [BitVec.getLsbD_append]; simp, ?_, ?_, ?_,
    by simp only [BitVec.getLsbD_append]; simp, ?_⟩
  all_goals
    refine BitVec.eq_of_getLsbD_eq fun i hi => ?_
    simp only [BitVec.getLsbD_extractLsb', BitVec.getLsbD_append]
    simp [hi] <;> grind

-- The instruction that an opcode names (R75)

/-- A word is decoded by its opcode. -/
theorem decodeTile_of_top {w : Word} {op : BitVec 8} (t : Nat) (h : w.extractLsb' 56 8 = op) :
    decodeTile t w = if op.toNat < 0x40 then decLow t op.toNat w else decHigh t op.toNat w := by
  simp only [decodeTile, h]

open Laws in
/-- Decoding gives an instruction of a tile back: its opcode, with FN or SUB where several share one, names it. -/
theorem decodeTile_encodeTile {i : Instr} {w : Word} (h : encodeTile i = some w) (hi : i.wf = true) :
    ∃ t, decodeTile t w = some i := by
  cases i with
  | add t x | sub t x | mul t x | and t x | or t x | xor t x | shl t x | shr t x | cmp t x | sel t x =>
    cases h
    exact ⟨t, by simp [decodeTile_of_top t (encS_top _ x), decLow]⟩
  | addImm t x | subImm t x | mulImm t x | andImm t x | orImm t x | xorImm t x | shlImm t x | shrImm t x
  | cmpImm t x =>
    cases h
    exact ⟨t, by simp [decodeTile_of_top t (encI_top _ x), decLow]⟩
  | br t x | brp t x =>
    cases h
    exact ⟨t, by simp [decodeTile_of_top t (encB_top _ x), decLow]⟩
  | ld t x | st t x | atmAdd t x | atmSwp t x | atmCas t x | vld t x | vst t x =>
    cases h
    exact ⟨t, by simp [decodeTile_of_top t (encM_top _ x), decLow]⟩
  | mxw t x | mxm t x | mxd t x | mxx t x =>
    cases h
    exact ⟨t, by simp [decodeTile_of_top t (encX_top _ x), decHigh]⟩
  | vadd t x | vsub t x | vmul t x | vfma t x | vmax t x | vmin t x | vmaxsub t x | vrsum t x | vwadd t x | vwrnd t x
  | vwcvt t x =>
    cases h
    simp only [Instr.wf, Bool.and_eq_true, beq_iff_eq] at hi
    exact ⟨t, by simp [decodeTile_of_top t (encS_top _ x), decHigh, decVector, hi]⟩
  | vcvtS t x | vcvtN t x =>
    cases h
    simp only [Instr.wf, Bool.and_eq_true, decide_eq_true_eq] at hi
    obtain ⟨-, hlo, hhi⟩ := hi
    have hne : ∀ n : BitVec 8, n.toNat < 8 → x.fn ≠ n := by rintro n hn rfl; omega
    exact ⟨t, by simp [decodeTile_of_top t (encS_top _ x), decHigh, decVector, hne, hlo, hhi] <;> omega⟩
  | vexp2 t x | vlog2 t x | vrcp t x | vrsqrt t x =>
    cases h
    simp only [Instr.wf, Bool.and_eq_true, beq_iff_eq] at hi
    exact ⟨t, by simp [decodeTile_of_top t (encS_top _ x), decHigh, decTrans, hi]⟩
  | vredadd t x | vredmax t x | vredmin t x =>
    cases h
    simp only [Instr.wf, Bool.and_eq_true, beq_iff_eq] at hi
    exact ⟨t, by simp [decodeTile_of_top t (encS_top _ x), decHigh, decReduce, hi]⟩
  | sdesc t x | sgo t x | swait t x | rld t x | rst t x | rat t x | tread t x | waitt t x | atslot t x | bar t x
  | fence t x | steep t x | cplw t x | cplp t x =>
    cases h
    exact ⟨t, by simp [decodeTile_of_top t (encQ_top _ x), decHigh]⟩
  | rcpPut t x | rcpGet t x | rcpThird t x =>
    cases h
    simp only [Instr.wf, Bool.and_eq_true, beq_iff_eq] at hi
    exact ⟨t, by simp [decodeTile_of_top t (encQ_top _ x), decHigh, decRcp, hi]⟩
  | clvAllReduce t x | clvReduceScatter t x | clvAllGather t x | clvBroadcast t x | clvAllToAll t x
  | clvCapacityAllToAll t x =>
    cases h
    simp only [Instr.wf, Bool.and_eq_true, beq_iff_eq] at hi
    exact ⟨t, by simp [decodeTile_of_top t (encQ_top _ x), decHigh, decClv, hi]⟩
  | gangId t x | gangForm t x | gangDissolve t x | gangEnd t x =>
    cases h
    simp only [Instr.wf, Bool.and_eq_true, beq_iff_eq] at hi
    exact ⟨t, by simp [decodeTile_of_top t (encQ_top _ x), decHigh, decGang, hi]⟩
  | _ => cases h

/-- Settles O4: the fields of each format come back, and the opcode names the instruction. -/
theorem tileWordsRoundTrip : Obligations.TileWordsRoundTrip := fun _ _ h hi => decodeTile_encodeTile h hi

end Sys2Proof
end

section
/-! PROOFS. Memory and its check bits stay in canonical form under every instruction of a tile's own units (R142, R143):
only stores write memory, and a store keeps the form (`writeMem_memWf`). -/

namespace Sys2Proof.Machine

variable {s : State} {t : Nat}

-- What does not write memory

@[simp] theorem memWf_wrReg (a : Nat) (v : Word) (s : State) : (wrReg a v s).memWf = s.memWf := rfl

@[simp] theorem memWf_onTl (t : Nat) (f : Tile → Tile) (s : State) : (onTl t f s).memWf = s.memWf := rfl

@[simp] theorem memWf_advance (t : Nat) (s : State) : (advance t s).memWf = s.memWf := rfl

@[simp] theorem memWf_stalled (t : Nat) (s : State) : (stalled t s).memWf = s.memWf := rfl

@[simp] theorem memWf_putG (t : Nat) (d : BitVec 5) (v : Word) (s : State) : (putG t d v s).memWf = s.memWf := rfl

@[simp] theorem memWf_recordData (src : Nat) (o : Occ) (part : Option Nat) (s : State) :
    (recordData src o part s).memWf = s.memWf := by
  simp only [recordData]; split <;> rfl

@[simp] theorem memWf_captureAt (index code : Nat) (s : State) : (captureAt t index code s).memWf = s.memWf := by
  unfold captureAt; split <;> rfl

@[simp] theorem memWf_tileFaultAt (index code : Nat) (s : State) :
    (tileFaultAt t index code s).memWf = s.memWf := by
  obtain ⟨o, ho⟩ := tileFaultAt_eq s t index code
  have hmembers : ∀ (l : List Nat) (u : State),
      (l.foldl (fun s m => faultMember m s) u).memWf = u.memWf := fun l u =>
    foldl_keeps u State.memWf _ l fun _ _ _ => rfl
  have hothers : ∀ (l : List Nat) (u : State),
      (l.foldl (fun s m => captureTile m 8 s) u).memWf = u.memWf := fun l u =>
    foldl_keeps u State.memWf _ l fun v m _ => memWf_captureAt _ _ v
  rw [ho, memWf_recordData, hmembers, gangCaptures, hothers, memWf_captureAt]

@[simp] theorem memWf_tileFault (code : Nat) (s : State) : (tileFault t code s).memWf = s.memWf :=
  memWf_tileFaultAt _ code s

@[simp] theorem memWf_localFault (code off : Nat) (w : Bool) (s : State) :
    (localFault t code off w s).memWf = s.memWf := by
  unfold localFault
  split
  · simp [violation]
  · exact memWf_tileFault code s

@[simp] theorem memWf_noteErrors (a n : Nat) (o : Occ) (s : State) : (noteErrors a n o s).memWf = s.memWf := by
  refine foldl_keeps s State.memWf _ _ fun u m _ => ?_
  dsimp only
  split
  · rfl
  · rfl
  · exact memWf_recordData ..

@[simp] theorem memWf_noteBankErrors (off n : Nat) (o : Occ) (s : State) :
    (noteBankErrors t off n o s).memWf = s.memWf := memWf_noteErrors ..

@[simp] theorem memWf_raiseFlags (f : AFlags) (s : State) : (raiseFlags t f s).memWf = s.memWf := by
  unfold raiseFlags; split <;> rfl

@[simp] theorem memWf_ownBytes (off n : Nat) (s : State) : (ownBytes t off n s).2.memWf = s.memWf := by
  simp only [ownBytes]; split <;> rfl

@[simp] theorem memWf_admitWords (a n : Nat) (e : BankEntry) (s : State) :
    (admitWords a n e s).memWf = s.memWf := by
  obtain ⟨b, hb, -⟩ := admitWords_frame s a n e
  rw [hb]; rfl

@[simp] theorem memWf_governorLetGo (s : State) : (governorLetGo t s).memWf = s.memWf := by
  unfold governorLetGo; split <;> rfl

@[simp] theorem memWf_followBranch (x : BArgs) (guard taken : Bool) (next : Nat) (s : State) :
    (followBranch t x guard taken next s).memWf = s.memWf := by
  cases guard <;> cases taken <;> rfl

-- What keeps the form

/-- An operation keeps memory and its check bits in canonical form. -/
def KeepsForm (f : State → State) : Prop := ∀ s, s.memWf = true → (f s).memWf = true

theorem keepsForm_of_eq {f : State → State} (h : ∀ s, (f s).memWf = s.memWf) : KeepsForm f :=
  fun s hs => (h s).trans hs

theorem keepsForm_ite {c : State → Prop} [∀ s, Decidable (c s)] {f g : State → State} (hf : KeepsForm f)
    (hg : KeepsForm g) : KeepsForm (fun s => if c s then f s else g s) := by
  intro s hs
  dsimp only
  split
  · exact hf s hs
  · exact hg s hs

theorem keepsForm_issue {pn : Bool} {pg : BitVec 3} {illegal : Bool} {reads : List Nat} {body : State → State}
    (hb : KeepsForm body) : KeepsForm (issue t pn pg illegal reads body) := by
  intro s hs
  rcases issue_cases s t pn pg illegal reads body with c | c | c | c | c
  · rw [c.2]; exact hs
  · rw [c.2.2]; simpa using hs
  · rw [c.2.2.2]; simpa using hs
  · rw [c.2.2.2.2]; simpa using hs
  · rw [c.2.2]; exact hb s hs

/-- A grant, or a wait, changes the queues of the banks and the tile's record alone. -/
theorem memWf_askBanks {port : Nat} {isRead two : Bool} {l : List (Nat × Nat)} {s u : State}
    (h : askBanks t port isRead two l s = .granted u ∨ askBanks t port isRead two l s = .waits u) :
    u.memWf = s.memWf := by
  have henter : ∀ (e : BankEntry) (l : List (Nat × Nat)) (s : State),
      (l.foldl (fun s r => admitWords (sramAddr t r.1) r.2 e s) s).memWf = s.memWf := fun e l s =>
    List.foldlRecOn l _ (motive := fun v : State => v.memWf = s.memWf) rfl
      fun v hv r _ => (memWf_admitWords _ _ _ v).trans hv
  unfold askBanks at h
  revert h
  dsimp only
  split
  · split <;> rintro (h | h) <;> cases h <;> rfl
  · split
    · rintro (h | h) <;> cases h; rfl
    · rintro (h | h) <;> cases h
    · split
      · rintro (h | h) <;> cases h; exact henter _ _ s
      · split <;> rintro (h | h) <;> cases h
        · exact henter _ _ s
        · rfl

theorem keepsForm_withLocal {port : Nat} {l : List (Nat × Nat)} {isWrite two : Bool} {body : State → State}
    (hb : KeepsForm body) : KeepsForm (withLocal t port l isWrite two body) := by
  intro s hs
  unfold withLocal
  split
  case h_1 u hu => exact hb u ((memWf_askBanks (.inl hu)).trans hs)
  case h_2 u hu => exact (memWf_askBanks (.inr hu)).trans hs
  case h_3 => simpa using hs

theorem keepsForm_loadGranted {off n : Nat} {body : List Byte → State → State} (hb : ∀ bs, KeepsForm (body bs)) :
    KeepsForm (loadGranted t off n body) := by
  intro s hs
  simp only [loadGranted]
  split
  · simpa using hs
  · exact hb _ _ (by simpa using hs)

theorem keepsForm_localStore (view off : Nat) (bs : List Byte) : KeepsForm (localStore t view off bs) := by
  intro s hs
  simp only [localStore, memWf_onTl]
  refine writeMem_memWf _ _ _ _ _ ?_
  exact (foldl_keeps s State.memWf _ _ fun u m _ => memWf_noteBankErrors _ _ _ u).trans hs

theorem keepsForm_slowStore (off lat : Nat) (bs : List Byte) : KeepsForm (slowStore t off lat bs) := by
  intro s hs
  simp only [slowStore, memWf_onTl]
  exact writeMem_memWf _ _ _ _ _ hs

-- The instructions of each unit (R77–R81, R109–R137)

theorem keepsForm_scalarS (x : SArgs) (f : Word → Word → Word) : KeepsForm (scalarS t x f) :=
  keepsForm_issue (keepsForm_of_eq fun _ => memWf_putG ..)

theorem keepsForm_scalarI (x : IArgs) (f : Word → Word → Word) : KeepsForm (scalarI t x f) :=
  keepsForm_issue (keepsForm_of_eq fun _ => memWf_putG ..)

theorem memWf_decideBranch (x : BArgs) (guard taken : Bool) (s : State) :
    (decideBranch t x guard taken s).memWf = s.memWf := by
  simp only [decideBranch]
  split
  · simp
  · rw [memWf_followBranch]
    exact foldl_keeps s State.memWf _ _ fun _ _ _ => rfl

theorem memWf_leaderBranch (x : BArgs) (cond : Tile → Bool) (s : State) :
    (leaderBranch t x cond s).memWf = s.memWf := by
  simp only [leaderBranch]
  split
  · exact memWf_decideBranch ..
  · split
    · rfl
    · simp

theorem memWf_meetBranch (x : BArgs) (s : State) : (meetBranch t x s).memWf = s.memWf := by
  have hfree : ∀ (l : List Nat) (u : State),
      (l.foldl (fun s m => onTl m (fun y => { y with wait := none }) s) u).memWf = u.memWf := fun l u =>
    foldl_keeps u State.memWf _ l fun _ _ _ => rfl
  have hfollow : ∀ (guard taken : Bool) (next : Nat) (l : List Nat) (u : State),
      (l.foldl (fun s m => followBranch m x guard taken next s) u).memWf = u.memWf := fun _ _ _ l u =>
    foldl_keeps u State.memWf _ l fun v _ _ => memWf_followBranch ..
  simp only [meetBranch]
  split
  · rw [apply_ite State.memWf, memWf_tileFault, hfollow, hfree, ite_self, memWf_onTl]
  · rfl

theorem keepsForm_issueBranch {x : BArgs} {illegal : Bool} {body : State → State} (hb : KeepsForm body) :
    KeepsForm (issueBranch t x illegal body) := by
  intro s hs
  simp only [issueBranch]
  split
  · exact hs
  · split
    · simpa using hs
    · split
      · exact hs
      · exact hb s hs

theorem keepsForm_memAccess {port off n align : Nat} {body : State → State} (hb : KeepsForm body) :
    KeepsForm (memAccess t port off n align body) := by
  intro s hs
  unfold memAccess
  split
  · simpa using hs
  · exact keepsForm_withLocal hb s hs

/-- A store at an address that the state gives, of bytes that it gives. -/
theorem keepsForm_storeThrough (port n align view : Nat) (off : State → Nat) (bs : State → List Byte) :
    KeepsForm (fun s => memAccess t port (off s) n align
      (fun u => u |> localStore t view (off u) (bs u) |> advance t) s) := fun s hs =>
  keepsForm_memAccess (fun u hu => (memWf_advance t _).trans (keepsForm_localStore view (off u) (bs u) u hu)) s hs

theorem keepsForm_localAtomic (x : MArgs) (op n : Nat) (compare : Word) :
    KeepsForm (localAtomic t x op n compare) := by
  intro s hs
  unfold localAtomic
  dsimp only
  split
  · exact (memWf_tileFault 5 s).trans hs
  · refine keepsForm_withLocal ?_ s hs
    intro u hu
    dsimp only
    split
    · exact ((memWf_tileFault 9 _).trans (memWf_noteBankErrors ..)).trans hu
    · exact (memWf_putG ..).trans (keepsForm_localStore _ _ _ _ ((memWf_ownBytes ..).trans hu))

theorem keepsForm_vissue {x : SArgs} {illegal badFmt : Bool} {body : State → State}
    (hb : ∀ s, (body s).memWf = s.memWf) : KeepsForm (vissue t x illegal badFmt body) := by
  refine keepsForm_issue (keepsForm_of_eq fun s => ?_)
  split
  · simp
  · exact hb s

@[simp] theorem memWf_vput (d : BitVec 5) (w : Nat) (l : List (Nat × AFlags)) (s : State) :
    (vput t d w l s).memWf = s.memWf := by simp [vput]

theorem keepsForm_matCheck {off n : Nat} {body : State → State} (hb : KeepsForm body) :
    KeepsForm (matCheck t off n body) := by
  intro s hs
  unfold matCheck
  split
  · simpa using hs
  · split
    · simpa using hs
    · exact hb s hs

theorem keepsForm_matLoad {off n : Nat} {body : List Byte → State → State} (hb : ∀ bs, KeepsForm (body bs)) :
    KeepsForm (matLoad t off n body) :=
  keepsForm_matCheck (keepsForm_withLocal (keepsForm_loadGranted hb))

theorem keepsForm_mxmRun (x : XArgs) (input : Operand) (ew : Int) (w : Option (Nat → Nat → Nat → Num)) (k : Nat) :
    KeepsForm (mxmRun t x input ew w k) :=
  keepsForm_of_eq fun s => by simp [mxmRun, putAcc, wrB, wrF]

theorem keepsForm_mxmBuffer (x : XArgs) : KeepsForm (mxmBuffer t x) := by
  intro s hs
  unfold mxmBuffer
  dsimp only
  rw [apply_ite State.memWf]
  split_ifs
  · exact (memWf_tileFault 2 s).trans hs
  · exact keepsForm_matLoad (fun _ u hu => keepsForm_mxmRun x _ _ _ _ u hu) s hs

theorem keepsForm_mxmStream (x : XArgs) : KeepsForm (mxmStream t x) := by
  intro s hs
  unfold mxmStream
  dsimp only
  split_ifs
  · exact (memWf_tileFault 2 s).trans hs
  · exact keepsForm_matCheck (keepsForm_matCheck (keepsForm_withLocal
      (keepsForm_loadGranted fun _ => keepsForm_loadGranted fun _ u hu => keepsForm_mxmRun x _ _ _ _ u hu))) s hs

theorem keepsForm_governed {body : State → State} (hb : KeepsForm body) : KeepsForm (governed t body) := by
  intro s hs
  unfold governed
  split
  · exact hb s hs
  · split
    · exact hs
    · exact hb _ (by simpa using hs)

theorem keepsForm_matStore {x : XArgs} {n lat : Nat} {bs : Unit → List Byte} {after : State → State}
    (ha : ∀ s, (after s).memWf = s.memWf) : KeepsForm (matStore t x n lat bs after) := fun s hs =>
  keepsForm_matCheck (keepsForm_withLocal fun u hu => by
    simpa [ha] using keepsForm_slowStore _ _ _ u hu) s hs

-- A step

/-- The opcode of a word (R73). -/
theorem fld_top (w : Word) : fld w 63 56 = (w.extractLsb' 56 8).toNat := by
  simp [fld, BitVec.extractLsb'_toNat, Nat.shiftRight_eq_div_pow]

/-- The words of a tile's own units have their opcodes (R75). -/
def ownOpcode (w : Word) : Prop := fld w 63 56 < 0x40 ∨ (0x50 ≤ fld w 63 56 ∧ fld w 63 56 < 0x70)

open Laws in
theorem not_ownOpcode_encQ {op : BitVec 8} (x : QArgs) (h : op.toNat = 0x40 ∨ op.toNat = 0x41 ∨ op.toNat = 0x42
    ∨ 0x70 ≤ op.toNat) : ¬ ownOpcode (encQ op x) := by
  rw [ownOpcode, fld_top, encQ_top]
  omega

/-- Every instruction of a tile's own units is an operation that keeps the canonical form. -/
theorem exec_own_keepsForm {c : Instr} {w : Word} (hc : encodeTile c = some w) (hop : ownOpcode w) :
    ∃ f, (∀ s, exec c s = ok (f s)) ∧ KeepsForm f := by
  cases c with
  | add t x | sub t x | mul t x | and t x | or t x | xor t x | shl t x | shr t x =>
    exact ⟨_, fun _ => rfl, keepsForm_scalarS x _⟩
  | addImm t x | subImm t x | mulImm t x | andImm t x | orImm t x | xorImm t x | shlImm t x | shrImm t x =>
    exact ⟨_, fun _ => rfl, keepsForm_scalarI x _⟩
  | cmp t x | sel t x | cmpImm t x => exact ⟨_, fun _ => rfl, keepsForm_issue (keepsForm_of_eq fun _ => by simp [putP])⟩
  | br t x => exact ⟨_, fun _ => rfl, keepsForm_issueBranch (keepsForm_of_eq (memWf_leaderBranch x _))⟩
  | brp t x =>
    refine ⟨_, fun _ => rfl, keepsForm_issueBranch ?_⟩
    split
    · exact keepsForm_of_eq (memWf_leaderBranch x _)
    · exact keepsForm_of_eq (memWf_meetBranch x)
  | ld t x =>
    refine ⟨_, fun _ => rfl, keepsForm_issue fun v hv => ?_⟩
    dsimp only
    split
    · exact (memWf_tileFault 5 v).trans hv
    · exact keepsForm_withLocal (keepsForm_loadGranted fun _ u hu => (memWf_putG ..).trans hu) v hv
  | vld t x =>
    refine ⟨_, fun _ => rfl, keepsForm_issue fun v hv => ?_⟩
    dsimp only
    split
    · exact (memWf_tileFault 5 v).trans hv
    · exact keepsForm_withLocal (keepsForm_loadGranted fun _ u hu =>
        ((memWf_advance t _).trans (memWf_onTl ..)).trans hu) v hv
  | st t x | vst t x => exact ⟨_, fun _ => rfl, keepsForm_issue (keepsForm_storeThrough _ _ _ _ _ _)⟩
  | atmAdd t x | atmSwp t x => exact ⟨_, fun _ => rfl, keepsForm_issue (keepsForm_localAtomic x _ _ _)⟩
  | atmCas t x => exact ⟨_, fun _ => rfl, keepsForm_issue fun v hv => keepsForm_localAtomic x _ _ _ v hv⟩
  | mxw t x =>
    refine ⟨_, fun _ => rfl, keepsForm_issue fun v hv => ?_⟩
    dsimp only
    split
    · exact (memWf_tileFault 2 v).trans hv
    · exact keepsForm_matLoad (fun _ u hu => ((memWf_advance t _).trans (memWf_onTl ..)).trans hu) v hv
  | mxm t x =>
    exact ⟨_, fun _ => rfl, keepsForm_issue (keepsForm_governed (keepsForm_ite (keepsForm_of_eq (memWf_tileFault 1))
      (keepsForm_ite (keepsForm_mxmStream x) (keepsForm_mxmBuffer x))))⟩
  | mxd t x =>
    refine ⟨_, fun _ => rfl, keepsForm_issue fun v hv => keepsForm_matStore (fun u => ?_) v hv⟩
    rw [memWf_raiseFlags, memWf_onTl]
  | mxx t x =>
    exact ⟨_, fun _ => rfl, keepsForm_issue fun v hv => keepsForm_matStore (memWf_raiseFlags _) v hv⟩
  | vcvtS t x | vcvtN t x =>
    refine ⟨_, fun _ => rfl, keepsForm_vissue fun u => ?_⟩
    rw [memWf_advance, memWf_raiseFlags, memWf_onTl]
  | vadd t x | vsub t x | vmul t x | vfma t x | vmax t x | vmin t x | vmaxsub t x | vrsum t x | vwadd t x | vwrnd t x
  | vwcvt t x | vexp2 t x | vlog2 t x | vrcp t x | vrsqrt t x | vredadd t x | vredmax t x | vredmin t x =>
    exact ⟨_, fun _ => rfl, keepsForm_vissue fun _ => memWf_vput ..⟩
  | sdesc t x | sgo t x | swait t x | rld t x | rst t x | rat t x | rcpPut t x | rcpGet t x | rcpThird t x
  | clvAllReduce t x | clvReduceScatter t x | clvAllGather t x | clvBroadcast t x | clvAllToAll t x
  | clvCapacityAllToAll t x | tread t x | waitt t x | atslot t x | bar t x | fence t x | steep t x | cplw t x
  | cplp t x | gangId t x | gangForm t x | gangDissolve t x | gangEnd t x =>
    cases hc
    exact absurd hop (not_ownOpcode_encQ x (by decide))
  | _ => cases hc

/-- Settles O60: a step runs the front command, and memory is that of the state without it in the queue. -/
theorem ownInstructionsKeepMemoryCanonical : Obligations.OwnInstructionsKeepMemoryCanonical := by
  intro c rest w s u hc hop hs hu
  rw [stepRunsFrontCommand.1] at hu
  obtain ⟨f, hf, hkeeps⟩ := exec_own_keepsForm hc hop
  rw [hf] at hu
  obtain rfl : f _ = u := Host.Outcome.next.inj hu
  exact hkeeps { s with pending := rest } hs

end Sys2Proof.Machine
end

section
/-! PROOFS. Branches (R78): where the decision of a leader takes its own tile, and where a gang goes together. -/

namespace Sys2Proof.Machine

variable {s v : State} {t k : Nat} {x : BArgs}

-- The next instruction of a tile

theorem tl_advance_ne (h : k ≠ t) : tl (advance t s) k = tl s k := by
  simp only [advance, tl_wrReg, tl_wrF, tl_onTl_ne _ _ h]

theorem rd_advance_ne {a : Nat} (hs : a ≠ Reg.tileStatus t) (hc : a ≠ Reg.cycles t) :
    rd (advance t s) a = rd s a := by
  simp only [advance, rd_wrReg_ne _ _ hc, rd_wrF_ne _ _ _ _ hs, rd_onTl]

theorem rd_advance_tileStatus : rd (advance t s) (Reg.tileStatus t)
    = setFld (setFld (rd s (Reg.tileStatus t)) 44 32 (tileIndex s t + 1)) 15 12 0 := by
  simp only [advance, rd_wrReg_ne _ _ (tileStatus_ne_cycles t t), rd_wrF_self, rd_onTl]

theorem rd_advance_cycles : rd (advance t s) (Reg.cycles t) = rd s (Reg.cycles t) + 1 := by
  simp only [advance, rd_wrReg_self]

theorem tileIndex_advance : tileIndex (advance t s) t = (tileIndex s t + 1) % 8192 := by
  simp only [tileIndex, rdF, rd_advance_tileStatus]
  rw [fld_setFld_other _ 15 12 0 44 32 (by omega) (by omega) (by omega), fld_setFld _ 44 32 _ (by omega) (by omega)]
  rfl

theorem tileState_advance : tileState (advance t s) t = tileState s t := by
  simp only [tileState, rdF, rd_advance_tileStatus]
  rw [fld_setFld_other _ 15 12 0 3 0 (by omega) (by omega) (by omega),
    fld_setFld_other _ 44 32 _ 3 0 (by omega) (by omega) (by omega)]

/-- A tile goes on at an index, its CYCLES two past a count. -/
def jumpTo (t next : Nat) (c : Word) (s : State) : State :=
  s |> onTl t (fun y => { y with wrapped := false }) |> wrF (Reg.tileStatus t) 44 32 next
    |> wrReg (Reg.cycles t) (c + 2)

theorem tl_jumpTo_ne (next : Nat) (c : Word) (h : k ≠ t) : tl (jumpTo t next c s) k = tl s k := by
  simp only [jumpTo, tl_wrReg, tl_wrF, tl_onTl_ne _ _ h]

theorem tl_jumpTo_self (next : Nat) (c : Word) : tl (jumpTo t next c s) t = { tl s t with wrapped := false } := by
  simp only [jumpTo, tl_wrReg, tl_wrF, tl_onTl_self]

theorem rd_jumpTo_ne (next : Nat) (c : Word) {a : Nat} (hs : a ≠ Reg.tileStatus t) (hc : a ≠ Reg.cycles t) :
    rd (jumpTo t next c s) a = rd s a := by
  simp only [jumpTo, rd_wrReg_ne _ _ hc, rd_wrF_ne _ _ _ _ hs, rd_onTl]

theorem rd_jumpTo_tileStatus (next : Nat) (c : Word) : rd (jumpTo t next c s) (Reg.tileStatus t)
    = setFld (rd s (Reg.tileStatus t)) 44 32 next := by
  simp only [jumpTo, rd_wrReg_ne _ _ (tileStatus_ne_cycles t t), rd_wrF_self, rd_onTl]

theorem rd_jumpTo_cycles (next : Nat) (c : Word) : rd (jumpTo t next c s) (Reg.cycles t) = c + 2 := by
  simp only [jumpTo, rd_wrReg_self]

theorem tileIndex_jumpTo (next : Nat) (c : Word) : tileIndex (jumpTo t next c s) t = next % 8192 := by
  simp only [tileIndex, rdF, rd_jumpTo_tileStatus]
  rw [fld_setFld _ 44 32 _ (by omega) (by omega)]
  rfl

theorem tileState_jumpTo (next : Nat) (c : Word) : tileState (jumpTo t next c s) t = tileState s t := by
  simp only [tileState, rdF, rd_jumpTo_tileStatus]
  rw [fld_setFld_other _ 44 32 _ 3 0 (by omega) (by omega) (by omega)]

-- A tile that follows a branch

/-- The link of a branch whose guard is true: the index of the next instruction. -/
def linked (t : Nat) (x : BArgs) (guard : Bool) (s : State) : State :=
  if guard then onTl t (setG x.d.toNat (wd (tileIndex s t + 1))) s else s

/-- A branch that is not taken goes on to the next instruction. -/
theorem followBranch_false (guard : Bool) (next : Nat) :
    followBranch t x guard false next s = advance t (linked t x guard s) := rfl

/-- A branch that is taken goes on at its target. -/
theorem followBranch_true (guard : Bool) (next : Nat) : followBranch t x guard true next s
    = jumpTo t next (rd s (Reg.cycles t)) (advance t (linked t x guard s)) := rfl

theorem tl_linked_ne (guard : Bool) (h : k ≠ t) : tl (linked t x guard s) k = tl s k := by
  unfold linked
  split
  · exact tl_onTl_ne _ _ h
  · rfl

@[simp] theorem rd_linked (guard : Bool) (a : Nat) : rd (linked t x guard s) a = rd s a := by
  cases guard <;> rfl

@[simp] theorem tileIndex_linked (guard : Bool) : tileIndex (linked t x guard s) k = tileIndex s k := by
  cases guard <;> rfl

@[simp] theorem tileState_linked (guard : Bool) : tileState (linked t x guard s) k = tileState s k := by
  cases guard <;> rfl

theorem tl_followBranch_ne (guard taken : Bool) (next : Nat) (h : k ≠ t) :
    tl (followBranch t x guard taken next s) k = tl s k := by
  cases taken
  · rw [followBranch_false, tl_advance_ne h, tl_linked_ne _ h]
  · rw [followBranch_true, tl_jumpTo_ne _ _ h, tl_advance_ne h, tl_linked_ne _ h]

/-- A branch changes of its tile's record the link register alone, beside the queue of fetched instructions. -/
theorem tl_followBranch_self (guard taken : Bool) (next : Nat) : ∃ iq a w,
    tl (followBranch t x guard taken next s) t
      = { tl (linked t x guard s) t with iq := iq, asked := a, wrapped := w } := by
  cases taken
  · exact ⟨_, _, _, by rw [followBranch_false, tl_advance]⟩
  · exact ⟨_, _, _, by rw [followBranch_true, tl_jumpTo_self, tl_advance]⟩

theorem rd_followBranch_ne (guard taken : Bool) (next : Nat) {a : Nat} (hs : a ≠ Reg.tileStatus t)
    (hc : a ≠ Reg.cycles t) : rd (followBranch t x guard taken next s) a = rd s a := by
  cases taken
  · rw [followBranch_false, rd_advance_ne hs hc, rd_linked]
  · rw [followBranch_true, rd_jumpTo_ne _ _ hs hc, rd_advance_ne hs hc, rd_linked]

theorem tileIndex_followBranch (guard taken : Bool) (next : Nat) :
    tileIndex (followBranch t x guard taken next s) t = (if taken then next else tileIndex s t + 1) % 8192 := by
  cases taken
  · rw [followBranch_false, tileIndex_advance, tileIndex_linked]; rfl
  · rw [followBranch_true, tileIndex_jumpTo]; rfl

theorem tileState_followBranch (guard taken : Bool) (next : Nat) :
    tileState (followBranch t x guard taken next s) t = tileState s t := by
  cases taken
  · rw [followBranch_false, tileState_advance, tileState_linked]
  · rw [followBranch_true, tileState_jumpTo, tileState_advance, tileState_linked]

theorem rd_followBranch_cycles (guard taken : Bool) (next : Nat) :
    rd (followBranch t x guard taken next s) (Reg.cycles t) = rd s (Reg.cycles t) + (if taken then 2 else 1) := by
  cases taken
  · rw [followBranch_false, rd_advance_cycles, rd_linked]; rfl
  · rw [followBranch_true, rd_jumpTo_cycles]; rfl

theorem rest_followBranch (guard taken : Bool) (next : Nat) :
    (followBranch t x guard taken next s).rest = s.rest := by
  cases guard <;> cases taken <;> rfl

@[simp] theorem memByte_followBranch (guard taken : Bool) (next a : Nat) :
    memByte (followBranch t x guard taken next s) a = memByte s a := by
  cases guard <;> cases taken <;> rfl

-- Its registers

theorem preg_setG (r : Nat) (w : Word) (y : Tile) (i : Nat) : preg (setG r w y) i = preg y i := by
  unfold setG; split <;> rfl

theorem vreg_setG (r : Nat) (w : Word) (y : Tile) (i : Nat) : vreg (setG r w y) i = vreg y i := by
  unfold setG; split <;> rfl

/-- A general register written, and nothing else of the general registers. -/
theorem wroteG_of_greg {u : State} {d : BitVec 5} {w : Word}
    (h : ∀ r, greg (tl u t) r = greg (setG d.toNat w (tl s t)) r) : WroteG t d w s u := by
  refine ⟨?_, fun r hr => by rw [h, greg_setG_ne _ _ hr]⟩
  rw [gv, h]
  by_cases h0 : d = 0
  · subst h0; rfl
  · have hn : d.toNat ≠ 0 := fun e => h0 (BitVec.eq_of_toNat_eq (by simpa using e))
    rw [if_neg h0, greg_setG_self _ _ hn]

theorem gKept_followBranch (taken : Bool) (next : Nat) : GKept t s (followBranch t x false taken next s) := by
  obtain ⟨iq, a, w, h⟩ := tl_followBranch_self (s := s) (t := t) (x := x) false taken next
  intro r; rw [h]; rfl

theorem wroteG_followBranch (taken : Bool) (next : Nat) :
    WroteG t x.d (wd (tileIndex s t + 1)) s (followBranch t x true taken next s) := by
  obtain ⟨iq, a, w, h⟩ := tl_followBranch_self (s := s) (t := t) (x := x) true taken next
  refine wroteG_of_greg fun r => ?_
  rw [h, linked, if_pos rfl, tl_onTl_self]; rfl

theorem pKept_followBranch (guard taken : Bool) (next : Nat) :
    PKept t s (followBranch t x guard taken next s) := by
  obtain ⟨iq, a, w, h⟩ := tl_followBranch_self (s := s) (t := t) (x := x) guard taken next
  intro i
  rw [h, linked]
  split
  · rw [tl_onTl_self]; exact preg_setG ..
  · rfl

theorem vKept_followBranch (guard taken : Bool) (next : Nat) :
    VKept t s (followBranch t x guard taken next s) := by
  obtain ⟨iq, a, w, h⟩ := tl_followBranch_self (s := s) (t := t) (x := x) guard taken next
  intro i
  rw [h, linked]
  split
  · rw [tl_onTl_self]; exact vreg_setG ..
  · rfl

theorem wait_followBranch (guard taken : Bool) (next : Nat) :
    (tl (followBranch t x guard taken next s) t).wait = (tl s t).wait := by
  obtain ⟨iq, a, w, h⟩ := tl_followBranch_self (s := s) (t := t) (x := x) guard taken next
  rw [h, linked]
  split
  · rw [tl_onTl_self]; unfold setG; split <;> rfl
  · rfl

-- Running a function for each member of a gang

/-- What one member shows after a function run for each of some tiles is what its own turn leaves, from a state in which
it showed what it shows at the start. -/
theorem foldl_view {α : Type} (q : State → α) {f : State → Nat → State} {l : List Nat} {m : Nat} (hn : l.Nodup)
    (hm : m ∈ l) (h : ∀ u, ∀ k ∈ l, k ≠ m → q (f u k) = q u) (s : State) :
    ∃ u, q u = q s ∧ q (l.foldl f s) = q (f u m) := by
  induction l generalizing s with
  | nil => simp at hm
  | cons k l ih =>
    obtain ⟨hk, hl⟩ := List.nodup_cons.1 hn
    rw [List.foldl_cons]
    rcases List.mem_cons.1 hm with rfl | hml
    · refine ⟨s, rfl, foldl_keeps _ q f l fun u j hj => h u j (List.mem_cons_of_mem _ hj) ?_⟩
      exact ne_of_mem_of_not_mem hj hk
    · have hkm : k ≠ m := fun e => hk (e ▸ hml)
      obtain ⟨u, hu, hf⟩ := ih hl hml (fun u j hj => h u j (List.mem_cons_of_mem _ hj)) (f s k)
      exact ⟨u, hu.trans (h s k List.mem_cons_self hkm), hf⟩

theorem nodup_membersOf (s : State) (l : Nat) : (membersOf s l).Nodup := List.nodup_range.filter _

theorem mem_membersOf {l m : Nat} : m ∈ membersOf s l ↔ m < 512 ∧ leaderOf s m = l := by
  simp [membersOf]

/-- A tile that leads itself is a tile of the device (R103). -/
theorem lt_of_leaderOf (h : leaderOf s t = t) : t < 512 := by
  rw [← h]; exact fld_lt _ 8 0

/-- What a branch reads and writes of a tile: its record, TILE.STATUS and CYCLES. -/
def tileView (m : Nat) (u : State) : Tile × Word × Word := (tl u m, rd u (Reg.tileStatus m), rd u (Reg.cycles m))

theorem tileView_eq {u v : State} {m : Nat} : tileView m u = tileView m v ↔ tl u m = tl v m
    ∧ rd u (Reg.tileStatus m) = rd v (Reg.tileStatus m) ∧ rd u (Reg.cycles m) = rd v (Reg.cycles m) := by
  simp only [tileView, Prod.mk.injEq]

theorem cycles_inj {a b : Nat} (h : a ≠ b) : Reg.cycles a ≠ Reg.cycles b := by
  simp only [Reg.cycles, Reg.tileBase]; omega

theorem tileView_onTl_ne (f : Tile → Tile) (h : k ≠ t) : tileView k (onTl t f s) = tileView k s := by
  simp only [tileView, tl_onTl_ne _ _ h, rd_onTl]

theorem tileView_followBranch_ne (guard taken : Bool) (next : Nat) (h : k ≠ t) :
    tileView k (followBranch t x guard taken next s) = tileView k s := by
  rw [tileView_eq]
  exact ⟨tl_followBranch_ne _ _ _ h, rd_followBranch_ne _ _ _ (tileStatus_inj h) (tileStatus_ne_cycles k t),
    rd_followBranch_ne _ _ _ (cycles_ne_tileStatus k t) (cycles_inj h)⟩

/-- Where a branch takes a tile, and what it leaves of the tile's registers. -/
def Followed (m : Nat) (x : BArgs) (guard taken : Bool) (next : Nat) (s u : State) : Prop :=
  tileIndex u m = (if taken then next else tileIndex s m + 1) % 8192 ∧ tileState u m = tileState s m
    ∧ rd u (Reg.cycles m) = rd s (Reg.cycles m) + (if taken then 2 else 1) ∧ (tl u m).wait = (tl s m).wait
    ∧ PKept m s u ∧ VKept m s u ∧ (guard = false → GKept m s u)
    ∧ (guard = true → WroteG m x.d (wd (tileIndex s m + 1)) s u)

theorem followed_followBranch (guard taken : Bool) (next : Nat) (s : State) :
    Followed t x guard taken next s (followBranch t x guard taken next s) := by
  refine ⟨tileIndex_followBranch .., tileState_followBranch .., rd_followBranch_cycles .., wait_followBranch ..,
    pKept_followBranch _ _ _, vKept_followBranch _ _ _, fun h => ?_, fun h => ?_⟩
  · subst h; exact gKept_followBranch _ _
  · subst h; exact wroteG_followBranch _ _

/-- `Followed` looks at the tile's own record and counters alone. -/
theorem Followed.congr {m : Nat} {guard taken : Bool} {next : Nat} {s s' u u' : State}
    (h : Followed m x guard taken next s u) (hs : tileView m s' = tileView m s) (hu : tileView m u' = tileView m u) :
    Followed m x guard taken next s' u' := by
  obtain ⟨hst, hss, hsc⟩ := tileView_eq.1 hs
  obtain ⟨hut, hus, huc⟩ := tileView_eq.1 hu
  simpa only [Followed, GKept, PKept, VKept, WroteG, tileIndex, tileState, rdF, gv, hst, hss, hsc, hut, hus, huc] using h

-- A leader decides

/-- A leader's decision, handed to the other members (R78). -/
def tellGang (t : Nat) (d : Bool × Bool × Nat) (s : State) : State :=
  ((membersOf s t).filter (fun m => m ≠ t)).foldl (fun s m => onTl m (fun y => { y with br := y.br ++ [d] }) s) s

theorem tileView_tellGang (d : Bool × Bool × Nat) : tileView t (tellGang t d s) = tileView t s := by
  refine foldl_keeps s (tileView t) _ _ fun u m hm => tileView_onTl_ne _ ?_
  have hne : m ≠ t := by simpa using (List.mem_filter.1 hm).2
  exact hne.symm

theorem rd_tellGang (d : Bool × Bool × Nat) (a : Nat) : rd (tellGang t d s) a = rd s a :=
  foldl_keeps s (fun u => rd u a) _ _ fun _ _ _ => rfl

theorem rest_tellGang (d : Bool × Bool × Nat) : (tellGang t d s).rest = s.rest :=
  foldl_keeps s State.rest _ _ fun _ _ _ => rfl

theorem memByte_tellGang (d : Bool × Bool × Nat) (a : Nat) : memByte (tellGang t d s) a = memByte s a :=
  foldl_keeps s (fun u => memByte u a) _ _ fun _ _ _ => rfl

theorem decideBranch_of_inImage (guard taken : Bool) (h : branchTarget s t x < (tl s t).imemLen) :
    decideBranch t x guard taken s
      = followBranch t x guard taken (branchTarget s t x) (tellGang t (guard, taken, branchTarget s t x) s) := by
  rw [decideBranch, if_neg (by simp only [Bool.and_eq_true, decide_eq_true_eq]; omega)]; rfl

theorem branched_decideBranch (guard taken : Bool) (h : branchTarget s t x < (tl s t).imemLen) :
    Branched t x guard taken s (decideBranch t x guard taken s) := by
  rw [decideBranch_of_inImage guard taken h]
  obtain ⟨hi, hst, hc, -, hp, hv, hg0, hg1⟩ := (followed_followBranch (t := t) (x := x) guard taken (branchTarget s t x)
    (tellGang t (guard, taken, branchTarget s t x) s)).congr (tileView_tellGang _).symm rfl
  refine ⟨fun e => ?_, fun e => ?_, hg0, hg1, hst, hp, hv, fun a => ?_, ?_, fun a ha => ?_⟩
  · subst e; exact ⟨hi, hc⟩
  · subst e; exact ⟨hi, hc⟩
  · rw [memByte_followBranch, memByte_tellGang]
  · rw [rest_followBranch, rest_tellGang]
  · simp only [List.mem_cons, List.not_mem_nil, or_false, not_or] at ha
    rw [rd_followBranch_ne _ _ _ ha.1 ha.2, rd_tellGang]

/-- A branch that a tile can issue runs its body (R67, R74). -/
theorem issueBranch_runs {illegal : Bool} (body : State → State) (hc : canIssue s t = true) (h0 : x.rsv = 0)
    (hi : illegal = false) (ha : x.ind = true → x.a = 0 ∨ x.a.toNat ∉ (tl s t).pend) :
    issueBranch t x illegal body s = body s := by
  have hpend : (x.ind && x.a != 0 && (tl s t).pend.contains x.a.toNat) = false := by
    by_contra hne
    simp only [Bool.not_eq_false, Bool.and_eq_true, bne_iff_ne, List.contains_iff_mem] at hne
    obtain ⟨⟨hind, hz⟩, hp⟩ := hne
    exact (ha hind).elim hz fun hn => hn hp
  simp only [issueBranch, hc, h0, hi, hpend, Bool.not_true, Bool.false_eq_true, if_false, ne_eq, not_true_eq_false,
    decide_false, Bool.or_self]

-- A gang meets at a branch

/-- A tile has come to a branch at which its gang meets. -/
def comeTo (t : Nat) (x : BArgs) (s : State) : State := onTl t (fun y => { y with wait := some (.brp x) }) s

/-- Some tiles wait for nothing any more. -/
def freeAll (l : List Nat) (s : State) : State := l.foldl (fun s m => onTl m (fun y => { y with wait := none }) s) s

theorem preg_comeTo (i m : Nat) : preg (tl (comeTo t x s) m) i = preg (tl s m) i := by
  by_cases h : m = t
  · subst h; rw [comeTo, tl_onTl_self]; rfl
  · rw [comeTo, tl_onTl_ne _ _ h]

theorem imemLen_comeTo (m : Nat) : (tl (comeTo t x s) m).imemLen = (tl s m).imemLen := by
  by_cases h : m = t
  · subst h; rw [comeTo, tl_onTl_self]
  · rw [comeTo, tl_onTl_ne _ _ h]

theorem branchTarget_comeTo : branchTarget (comeTo t x s) t x = branchTarget s t x := by
  simp only [branchTarget, gv, comeTo, tl_onTl_self]; rfl

/-- The state in which a gang has met at a branch and waits no longer. -/
theorem view_freeAll {m : Nat} {l : List Nat} (hn : l.Nodup) (hm : m ∈ l) :
    ∃ w, tl (freeAll l (comeTo t x s)) m = { tl s m with wait := w } ∧ w = none := by
  obtain ⟨u, hu, hf⟩ := foldl_view (fun u => tl u m) (f := fun s m => onTl m (fun y => { y with wait := none }) s) hn hm
    (fun u k _ hk => tl_onTl_ne _ _ hk.symm) (comeTo t x s)
  refine ⟨none, ?_, rfl⟩
  rw [freeAll, hf]
  simp only [tl_onTl_self]
  by_cases h : m = t
  · subst h; rw [hu, comeTo, tl_onTl_self]
  · rw [hu, comeTo, tl_onTl_ne _ _ h]

theorem rd_freeAll (l : List Nat) (a : Nat) : rd (freeAll l s) a = rd s a :=
  foldl_keeps s (fun u => rd u a) _ _ fun _ _ _ => rfl

theorem rest_freeAll (l : List Nat) : (freeAll l s).rest = s.rest :=
  foldl_keeps s State.rest _ _ fun _ _ _ => rfl

theorem memByte_freeAll (l : List Nat) (a : Nat) : memByte (freeAll l s) a = memByte s a :=
  foldl_keeps s (fun u => memByte u a) _ _ fun _ _ _ => rfl

/-- Whether a gang that has met takes its branch: its leader's guard, with any or all of its members' PS (R78). -/
def gangTakes (s : State) (l : Nat) (x : BArgs) : Bool :=
  guardTrue (tl s l) x.pn x.pg && (if x.mode = 1 then (membersOf s l).any (fun m => preg (tl s m) x.ps.toNat)
    else (membersOf s l).all (fun m => preg (tl s m) x.ps.toNat))

theorem gangTakes_comeTo (l : Nat) : gangTakes (comeTo t x s) l x = gangTakes s l x := by
  simp only [gangTakes, guardTrue, preg_comeTo]; rfl

/-- The leader comes last to the branch: every member goes where the gang goes. -/
theorem meetBranch_of_met (hl : leaderOf s t = t) (hmet : ∀ m ∈ membersOf s t, m ≠ t → (tl s m).wait = some (.brp x))
    (hin : branchTarget s t x < (tl s t).imemLen) : meetBranch t x s
      = (membersOf s t).foldl (fun s' m => followBranch m x (guardTrue (tl s t) x.pn x.pg) (gangTakes s t x)
          (branchTarget s t x) s') (freeAll (membersOf s t) (comeTo t x s)) := by
  have hall : (membersOf s t).all (fun m => decide ((tl (comeTo t x s) m).wait = some (.brp x))) = true := by
    refine List.all_eq_true.2 fun m hm => decide_eq_true ?_
    by_cases h : m = t
    · subst h; rw [comeTo, tl_onTl_self]
    · rw [comeTo, tl_onTl_ne _ _ h, hmet m hm h]
  have hguard : guardTrue (tl (comeTo t x s) t) x.pn x.pg = guardTrue (tl s t) x.pn x.pg := by
    rw [guardTrue, preg_comeTo, guardTrue]
  obtain ⟨w, hfree, -⟩ := view_freeAll (s := s) (t := t) (x := x) (nodup_membersOf s t)
    (mem_membersOf.2 ⟨lt_of_leaderOf hl, hl⟩)
  have hlen : (tl (freeAll (membersOf s t) (comeTo t x s)) t).imemLen = (tl s t).imemLen := by rw [hfree]
  have hmain : meetBranch t x s
      = if (membersOf s t).all (fun m => decide ((tl (comeTo t x s) m).wait = some (.brp x))) then
          (if gangTakes (comeTo t x s) t x
              && decide ((tl (freeAll (membersOf s t) (comeTo t x s)) t).imemLen ≤ branchTarget (comeTo t x s) t x) then
            tileFault t 3 (freeAll (membersOf s t) (comeTo t x s))
          else (membersOf s t).foldl (fun s' m => followBranch m x (guardTrue (tl (comeTo t x s) t) x.pn x.pg)
            (gangTakes (comeTo t x s) t x) (branchTarget (comeTo t x s) t x) s')
              (freeAll (membersOf s t) (comeTo t x s)))
        else comeTo t x s := by
    unfold meetBranch
    rw [hl]; rfl
  have hnot : ¬ (gangTakes (comeTo t x s) t x && decide ((tl (freeAll (membersOf s t) (comeTo t x s)) t).imemLen
      ≤ branchTarget (comeTo t x s) t x)) = true := by
    rw [hlen, branchTarget_comeTo, Bool.and_eq_true, decide_eq_true_eq]
    omega
  rw [hmain, if_pos hall, if_neg hnot, hguard, gangTakes_comeTo, branchTarget_comeTo]

theorem gangTakes_eq_true {l : Nat} (hm : x.mode = 1 ∨ x.mode = 2) : gangTakes s l x = true ↔
    guardTrue (tl s l) x.pn x.pg = true
      ∧ ((x.mode = 1 ∧ ∃ m ∈ membersOf s l, preg (tl s m) x.ps.toNat = true)
        ∨ (x.mode = 2 ∧ ∀ m ∈ membersOf s l, preg (tl s m) x.ps.toNat = true)) := by
  rcases hm with h | h <;> simp [gangTakes, h]

/-- Every member of a gang that has met follows the branch. -/
theorem followed_meetBranch (hl : leaderOf s t = t)
    (hmet : ∀ m ∈ membersOf s t, m ≠ t → (tl s m).wait = some (.brp x))
    (hin : branchTarget s t x < (tl s t).imemLen) {m : Nat} (hm : m ∈ membersOf s t) :
    (tl (meetBranch t x s) m).wait = none ∧ PKept m s (meetBranch t x s) ∧ VKept m s (meetBranch t x s)
      ∧ tileIndex (meetBranch t x s) m
          = (if gangTakes s t x then branchTarget s t x else tileIndex s m + 1) % 8192
      ∧ (guardTrue (tl s t) x.pn x.pg = false → GKept m s (meetBranch t x s))
      ∧ (guardTrue (tl s t) x.pn x.pg = true → WroteG m x.d (wd (tileIndex s m + 1)) s (meetBranch t x s)) := by
  rw [meetBranch_of_met hl hmet hin]
  obtain ⟨w, hfree, hw⟩ := view_freeAll (s := s) (t := t) (x := x) (nodup_membersOf s t) hm
  obtain ⟨u, hu, hf⟩ := foldl_view (tileView m) (f := fun s' m => followBranch m x (guardTrue (tl s t) x.pn x.pg)
    (gangTakes s t x) (branchTarget s t x) s') (nodup_membersOf s t) hm
    (fun u k _ hk => tileView_followBranch_ne _ _ _ hk.symm) (freeAll (membersOf s t) (comeTo t x s))
  obtain ⟨hi, -, -, hwait, hp, hv, hg0, hg1⟩ := (followed_followBranch (t := m) (x := x) (guardTrue (tl s t) x.pn x.pg)
    (gangTakes s t x) (branchTarget s t x) u).congr hu.symm hf
  have hidx : tileIndex (freeAll (membersOf s t) (comeTo t x s)) m = tileIndex s m := by
    rw [tileIndex, rdF, rd_freeAll]; rfl
  rw [hidx] at hi hg1
  rw [hfree] at hwait
  refine ⟨hwait.trans hw, fun i => (hp i).trans ?_, fun i => (hv i).trans ?_, hi, fun h i => (hg0 h i).trans ?_,
    fun h => ⟨(hg1 h).1, fun r hr => ((hg1 h).2 r hr).trans ?_⟩⟩
  all_goals rw [hfree]; rfl

theorem memKept_meetBranch (hl : leaderOf s t = t)
    (hmet : ∀ m ∈ membersOf s t, m ≠ t → (tl s m).wait = some (.brp x))
    (hin : branchTarget s t x < (tl s t).imemLen) :
    MemKept s (meetBranch t x s) ∧ (meetBranch t x s).rest = s.rest := by
  rw [meetBranch_of_met hl hmet hin]
  refine ⟨fun a => ?_, ?_⟩
  · exact (foldl_keeps _ (fun u => memByte u a) _ _ fun _ _ _ => memByte_followBranch ..).trans (memByte_freeAll _ a)
  · exact (foldl_keeps _ State.rest _ _ fun _ _ _ => rest_followBranch ..).trans (rest_freeAll _)

/-- Settles O7: the leader's decision takes its own tile (`branched_decideBranch`), the meeting of a gang each member
(`followed_meetBranch`). -/
theorem branchesOfALeader : Obligations.BranchesOfALeader := by
  intro t x s hc h0 hl ha hin
  have hlead : ∀ cond : Tile → Bool, leaderBranch t x cond s
      = decideBranch t x (guardTrue (tl s t) x.pn x.pg) (guardTrue (tl s t) x.pn x.pg && cond (tl s t)) s :=
    fun cond => if_pos hl
  refine ⟨⟨_, congrArg ok ((issueBranch_runs _ hc h0 rfl ha).trans (hlead _)), ?_⟩, fun hm => ?_,
    fun hm hmet taken htaken => ?_⟩
  · rw [Bool.and_true]; exact branched_decideBranch _ _ hin
  · have hb : exec (.brp t x) s = ok (issueBranch t x (decide (x.mode = 3))
        (if x.mode = 0 then leaderBranch t x (fun y => preg y x.ps.toNat) else meetBranch t x) s) := rfl
    rw [hm, if_pos rfl, issueBranch_runs _ hc h0 (by decide) ha, hlead] at hb
    exact ⟨_, hb, branched_decideBranch _ _ hin⟩
  · have hb : exec (.brp t x) s = ok (issueBranch t x (decide (x.mode = 3))
        (if x.mode = 0 then leaderBranch t x (fun y => preg y x.ps.toNat) else meetBranch t x) s) := rfl
    rw [issueBranch_runs _ hc h0 (by rcases hm with h | h <;> simp [h]) ha,
      if_neg (by rcases hm with h | h <;> simp [h])] at hb
    obtain rfl : taken = gangTakes s t x := Bool.eq_iff_iff.2 (htaken.trans (gangTakes_eq_true hm).symm)
    obtain ⟨hmem, hrest⟩ := memKept_meetBranch hl hmet hin
    exact ⟨_, hb, hmem, hrest, fun m hm => followed_meetBranch hl hmet hin hm⟩

end Sys2Proof.Machine
end

section
/-! PROOFS. Where the claim about a tile's own accesses fails: an access that the banks have already admitted is not
checked again, so one past the SRAM faults only where none has been admitted. -/

namespace Sys2Proof.Machine

/-- A running tile whose access has been admitted, with an address past its SRAM in g1. -/
def admittedPast : State :=
  { regs := [(Reg.tileStatus 0, 3)], tiles := [(0, { asked := true, g := [(1, 0x200000)] })] }

/-- VLD of the address in g1. -/
def loadPast : MArgs := { a := 1 }

/-- The tile runs on after the load. -/
theorem admittedPast_runsOn : ∃ u, exec (.vld 0 loadPast) admittedPast = .next u ∧ tileState u 0 = 3 := 
  ⟨_, rfl, by rfl⟩

/-- Refutes O9: VLD of offset 0x200000 completes without a fault on a tile whose access has been admitted. -/
theorem not_tileFaults : ¬ Obligations.TileFaults := by
  intro h
  obtain ⟨-, hmem⟩ := h 0 admittedPast (by decide) (by decide)
  obtain ⟨-, -, hrange⟩ := hmem loadPast (by decide) (by decide) (by decide)
  obtain ⟨u, hu, hfault⟩ := hrange (by decide) (by decide) (.vld 0 loadPast) (List.mem_cons_self)
  obtain ⟨v, hv, hruns⟩ := admittedPast_runsOn
  obtain rfl : u = v := Host.Outcome.next.inj (hu.symm.trans hv)
  have hfaulted := (hfault.1 0 (mem_membersOf.2 ⟨by decide, rfl⟩)).1
  rw [hruns] at hfaulted
  exact absurd hfaulted (by decide)

end Sys2Proof.Machine
end

section
/-! PROOFS. The vector unit (R133–R137): every instruction writes its lanes and flags and goes on. -/

namespace Sys2Proof.Machine

variable {s : State} {t : Nat} {x : SArgs} {c : Instr}

-- What an instruction writes

@[simp] theorem vreg_setV_self (r : Nat) (v : BitVec 4096) (y : Tile) : vreg (setV r v y) r = v := mget_mset_self ..

theorem vreg_setV_ne {r q : Nat} (v : BitVec 4096) (y : Tile) (h : q ≠ r) : vreg (setV r v y) q = vreg y q :=
  mget_mset_ne _ _ _ h

theorem rd_raiseFlags_self (f : AFlags) : rd (raiseFlags t f s) (Reg.arithStatus t)
    = rd s (Reg.arithStatus t) ||| wd f.mask := by
  unfold raiseFlags
  split
  case isTrue h => rw [h]; exact (BitVec.or_zero).symm
  case isFalse => rw [rd_orReg_self]

theorem rd_raiseFlags_ne (f : AFlags) {a : Nat} (h : a ≠ Reg.arithStatus t) :
    rd (raiseFlags t f s) a = rd s a := by
  unfold raiseFlags
  split
  · rfl
  · rw [rd_orReg_ne _ _ h]

theorem rest_raiseFlags (f : AFlags) : (raiseFlags t f s).rest = s.rest := by
  unfold raiseFlags; split <;> rfl

/-- A vector register and its flags, written by an instruction that goes on. -/
theorem vectorDone_write (d : BitVec 5) (v : BitVec 4096) (f : AFlags) (s : State) :
    VectorDone t d v f.mask s (s |> onTl t (setV d.toNat v) |> raiseFlags t f |> advance t) := by
  have htl : tl (raiseFlags t f (onTl t (setV d.toNat v) s)) t = setV d.toNat v (tl s t) := by
    rw [tl_raiseFlags, tl_onTl_self]
  have hmoved : MovedOn t [Reg.arithStatus t] s (advance t (raiseFlags t f (onTl t (setV d.toNat v) s))) := by
    refine advance_movedOn s t ?_ ?_ ?_ (fun a ha => ?_) fun k hk => ?_
    · rw [rest_raiseFlags]; rfl
    · rw [rd_raiseFlags_ne _ (tileStatus_ne_arithStatus t t), rd_onTl]
    · rw [rd_raiseFlags_ne _ (cycles_ne_arithStatus t t), rd_onTl]
    · rw [rd_raiseFlags_ne _ (by simpa using ha), rd_onTl]
    · rw [tl_raiseFlags, tl_onTl_ne _ _ hk]
  refine ⟨?_, fun r hr => ?_, ?_, fun r => ?_, fun i => ?_, ?_, hmoved, fun a => ?_⟩
  · rw [vreg_advance, htl, vreg_setV_self]
  · rw [vreg_advance, htl, vreg_setV_ne _ _ hr]
  · rw [rd_advance_ne (tileStatus_ne_arithStatus t t).symm (cycles_ne_arithStatus t t).symm, rd_raiseFlags_self,
      rd_onTl]
  · rw [greg_advance, htl]; rfl
  · rw [preg_advance, htl]; rfl
  · rw [tl_advance, htl]; rfl
  · rw [memByte_advance, memByte_raiseFlags, memByte_onTl]

/-- A vector instruction that a tile can issue, of a format that it takes, runs its body (R74, R76). -/
theorem vissue_runs {illegal badFmt : Bool} (body : State → State) (hr : Runs s t x.pn x.pg []) (h0 : x.rsv = 0)
    (hi : illegal = false) (hb : badFmt = false) : vissue t x illegal badFmt body s = body s := by
  rw [vissue, issue_runs s t _ hr (by simp [h0, hi]), hb]; rfl

/-- An instruction that writes a list of lanes. -/
theorem vput_completes {illegal badFmt : Bool} {body : State → State} {w mask : Nat} {v : BitVec 4096}
    {l : List (Nat × AFlags)} (hr : Runs s t x.pn x.pg []) (h0 : x.rsv = 0)
    (hc : exec c s = ok (vissue t x illegal badFmt body s)) (hi : illegal = false) (hb : badFmt = false)
    (hbody : body s = vput t x.d w l s) (hv : vpack w (l.map (·.1)) = v) (hm : (allFlags l).mask = mask) :
    Completes c s (VectorDone t x.d v mask s) := by
  rw [vissue_runs _ hr h0 hi hb, hbody] at hc
  subst hv hm
  exact ⟨_, hc, vectorDone_write ..⟩

theorem badVFmt_eq_false (h : x.fmt.toNat < 2) : badVFmt x = false := by
  rw [badVFmt, decide_eq_false_iff_not]; omega

/-- The lanewise instructions (R134). -/
theorem vectorLanewise : VectorLanewise := by
  intro t x s hr h0 hf k f a b c d hk hfk ha hb hc hd ig hig
  subst hk hfk ha hb hc hd
  simp only [List.mem_cons, List.not_mem_nil, or_false] at hig
  rcases hig with rfl | rfl | rfl | rfl | rfl | rfl | rfl | rfl
  all_goals exact vput_completes hr h0 rfl rfl (badVFmt_eq_false hf) rfl (by rw [List.map_map]; rfl) rfl

-- Packed lanes

theorem packElems_cons (w e : Nat) (l : List Nat) : packElems w (e :: l) = packElems w l * 2 ^ w + e % 2 ^ w := rfl

theorem packElems_lt (w : Nat) (l : List Nat) : packElems w l < 2 ^ (w * l.length) := by
  induction l with
  | nil => exact Nat.one_pos
  | cons e l ih =>
    have he : e % 2 ^ w < 2 ^ w := Nat.mod_lt _ (by positivity)
    calc packElems w l * 2 ^ w + e % 2 ^ w < (packElems w l + 1) * 2 ^ w := by rw [Nat.add_mul]; omega
      _ ≤ 2 ^ (w * l.length) * 2 ^ w := Nat.mul_le_mul_right _ ih
      _ = 2 ^ (w * (e :: l).length) := by rw [← pow_add, List.length_cons, Nat.mul_succ]

theorem packElems_lane {w i : Nat} {l : List Nat} (hi : i < l.length) :
    packElems w l / 2 ^ (w * i) % 2 ^ w = l[i] % 2 ^ w := by
  have hw : 0 < 2 ^ w := by positivity
  induction l generalizing i with
  | nil => simp at hi
  | cons e l ih =>
    rw [packElems_cons]
    cases i with
    | zero => simp
    | succ i =>
      have hdrop : (packElems w l * 2 ^ w + e % 2 ^ w) / 2 ^ w = packElems w l := by
        rw [Nat.mul_comm, Nat.mul_add_div hw, Nat.div_eq_of_lt (Nat.mod_lt _ hw), Nat.add_zero]
      rw [Nat.mul_succ, pow_add, Nat.mul_comm (2 ^ (w * i)), ← Nat.div_div_eq_div_mul, hdrop,
        ih (by simpa using hi)]
      rfl

/-- Lane `i` of packed lanes is the value of lane `i`, cut to its width. -/
theorem lane_vpack {w i : Nat} {l : List Nat} (hi : i < l.length) (hw : w * l.length ≤ 4096) :
    lane (vpack w l) w i = l[i] % 2 ^ w := by
  have hfit : ∀ n, w * l.length ≤ n → packElems w l % 2 ^ n = packElems w l := fun n hn =>
    Nat.mod_eq_of_lt (lt_of_lt_of_le (packElems_lt w l) (Nat.pow_le_pow_right (by decide) hn))
  rw [lane, vpack, BitVec.toNat_ofNat, hfit _ hw, packElems_lane hi]

/-- An instruction that writes the 32 wide partials of a register (R126). -/
theorem vput_wide_completes {body : State → State} {f : Nat → Nat × AFlags} {g : Nat → Nat} (hr : Runs s t x.pn x.pg [])
    (h0 : x.rsv = 0) (hf : x.fmt = 0) (hc : exec c s = ok (vissue t x false (decide (x.fmt ≠ 0)) body s))
    (hbody : body s = vput t x.d 128 ((List.range 32).map f) s) (hg : ∀ i, (f i).1 = g i) :
    Completes c s (fun u => ∀ i, i < 32 → lane (vreg (tl u t) x.d.toNat) 128 i = g i % 2 ^ 128) := by
  obtain ⟨u, hu, hdone⟩ := vput_completes hr h0 hc rfl (by simp [hf]) hbody rfl rfl
  refine ⟨u, hu, fun i hi => ?_⟩
  rw [hdone.1, lane_vpack (by simpa using hi) (by simp)]
  simp [hg]

/-- Conversions (R135) and wide partials (R126–R130). -/
theorem vectorConversions : VectorConversions := by
  intro t x s hr h0
  refine ⟨fun base i hi hlo hhi hf hhalf htarget r hrr => ?_, fun hf a b ha hb => ⟨?_, ?_, ?_⟩⟩
  · have hill : (decide (x.fn.toNat < base ∨ base + 0x1C < x.fn.toNat) || decide (x.fmt = 0 ∧ cvtHalf x ≠ 0)) = false := by
      rw [Bool.or_eq_false_iff, decide_eq_false_iff_not, decide_eq_false_iff_not]
      exact ⟨by omega, fun ⟨h, h'⟩ => h' (hhalf h)⟩
    have hfmt : (badVFmt x || decide (0xD ≤ cvtTarget x)) = false := by
      rw [badVFmt_eq_false hf, Bool.false_or, decide_eq_false_iff_not, cvtTarget]; omega
    have hc : exec i s = ok (vcvt t x base (base == 0x40) s) := by
      rcases hi with ⟨rfl, rfl⟩ | ⟨rfl, rfl⟩ <;> rfl
    rw [vcvt, vissue_runs _ hr h0 hill hfmt] at hc
    subst hrr
    exact ⟨_, hc, vectorDone_write ..⟩
  · exact vput_wide_completes hr h0 hf rfl rfl fun i => by rw [ha, hb]
  · refine vput_completes hr h0 rfl rfl (by simp [hf]) rfl ?_ ?_
    · simp [ha, Function.comp_def]
    · simp [ha]
  · exact vput_wide_completes hr h0 hf rfl rfl fun _ => rfl

/-- The transcendental functions (R136) and the reductions (R137). -/
theorem vectorFunctionsAndReductions : VectorFunctionsAndReductions := by
  intro t x s hr h0 hf k n w a hk hn hw ha
  subst hk hn hw ha
  have hsplat : ∀ r : Nat × AFlags, (List.range (vlanes x.fmt.toNat)).map (fun _ => r)
      = List.replicate (vlanes x.fmt.toNat) r := fun r => by simp
  refine ⟨fun ig hig => ?_, fun ig hig r hrr => ?_, fun r hrr => ?_⟩
  · simp only [List.mem_cons, List.not_mem_nil, or_false] at hig
    rcases hig with rfl | rfl | rfl | rfl
    all_goals exact vput_completes hr h0 rfl rfl (badVFmt_eq_false hf) rfl (by rw [List.map_map]; rfl) rfl
  · subst hrr
    simp only [List.mem_cons, List.not_mem_nil, or_false] at hig
    rcases hig with rfl | rfl
    all_goals
      exact vput_completes hr h0 rfl rfl (badVFmt_eq_false hf) rfl (by rw [hsplat, List.map_replicate])
        (by rw [hsplat])
  · obtain ⟨u, hu, hv, -, -, hg, hp, -, hm, hmem⟩ := vput_completes (c := .vredadd t x) hr h0 rfl rfl
      (badVFmt_eq_false hf) rfl rfl rfl
    refine ⟨u, hu, hv.trans ?_, hg, hp, hm, hmem⟩
    subst hrr
    rw [hsplat, List.map_replicate]
    split <;> rfl

/-- Settles O10: `vectorDone_write` says what each instruction leaves, `lane_vpack` reads a lane of it back. -/
theorem vectorResults : Obligations.VectorResults :=
  ⟨vectorLanewise, vectorConversions, vectorFunctionsAndReductions⟩

end Sys2Proof.Machine
end

section
/-! PROOFS. A tile's waits (R82, R86, R100, R101): how one begins, how a tile goes on after one, timed issue and hints. -/

namespace Sys2Proof.Machine

variable {s u v : State} {t k : Nat}

-- Registers

theorem stallWait_ne_tileStatus (a b : Nat) : Reg.stallWait a ≠ Reg.tileStatus b := by
  simp only [Reg.stallWait, Reg.tileStatus, Reg.tileBase]; omega

theorem stallWait_ne_cycles (a b : Nat) : Reg.stallWait a ≠ Reg.cycles b := by
  simp only [Reg.stallWait, Reg.cycles, Reg.tileBase]; omega

theorem tileStatus_ne_lateCount (a b : Nat) : Reg.tileStatus a ≠ Reg.lateCount b := by
  simp only [Reg.lateCount, Reg.tileStatus, Reg.tileBase]; omega

theorem cycles_ne_lateCount (a b : Nat) : Reg.cycles a ≠ Reg.lateCount b := by
  simp only [Reg.lateCount, Reg.cycles, Reg.tileBase]; omega

-- Register files

theorem greg_setP (r : Nat) (b : Bool) (y : Tile) (i : Nat) : greg (setP r b y) i = greg y i := by
  unfold setP; split <;> rfl

theorem vreg_setP (r : Nat) (b : Bool) (y : Tile) (i : Nat) : vreg (setP r b y) i = vreg y i := by
  unfold setP; split <;> rfl

/-- A predicate written, and nothing else of the predicates. -/
theorem wroteP_of_preg {d : Nat} {b : Bool} (hd : d < 8) (h : ∀ i, preg (tl u t) i = preg (setP d b (tl s t)) i) :
    WroteP t d b s u :=
  ⟨by rw [h, preg_setP _ _ hd, if_pos rfl], fun i hi => by rw [h, preg_setP _ _ hd, if_neg hi]⟩

-- A wait begins

theorem tl_beginWait_self (kind : Nat) (w : Wait) : tl (beginWait t kind w s) t
    = { tl s t with wait := some w, waitFrom := now s } := by
  rw [beginWait, tl_onTl_self]; rfl

theorem tl_beginWait_ne (kind : Nat) (w : Wait) (h : k ≠ t) : tl (beginWait t kind w s) k = tl s k := by
  rw [beginWait, tl_onTl_ne _ _ h]; rfl

theorem rd_beginWait_ne (kind : Nat) (w : Wait) {a : Nat} (h : a ≠ Reg.tileStatus t) :
    rd (beginWait t kind w s) a = rd s a := by
  rw [beginWait, rd_onTl, rd_wrF_ne _ _ _ _ h]

theorem tileIndex_beginWait (kind : Nat) (w : Wait) (m : Nat) : tileIndex (beginWait t kind w s) m = tileIndex s m := by
  by_cases h : m = t
  · subst h; exact rdF_wrF_other _ _ _ _ _ _ _ (by omega) (by omega) (by omega)
  · rw [tileIndex, rdF, rd_beginWait_ne _ _ (tileStatus_inj h)]; rfl

theorem tileState_beginWait (kind : Nat) (w : Wait) (m : Nat) : tileState (beginWait t kind w s) m = tileState s m := by
  by_cases h : m = t
  · subst h; exact rdF_wrF_other _ _ _ _ _ _ _ (by omega) (by omega) (by omega)
  · rw [tileState, rdF, rd_beginWait_ne _ _ (tileStatus_inj h)]; rfl

/-- A tile that begins to wait, with nothing else changed but its predicates or its record (R101). -/
theorem waits_beginWait {kind : Nat} (hk : kind < 16) (w : Wait) (hs : v.regs = s.regs) (hm : MemKept s v)
    (hg : GKept t s v) (ht : TilesKept t s v) (hr : v.rest = s.rest) : Waits t kind w s (beginWait t kind w v) := by
  have hrd (a : Nat) : rd v a = rd s a := by simp only [rd, hs]
  refine ⟨by rw [tl_beginWait_self], ?_, ?_, ?_, fun r => ?_, hm, fun k hk => ?_, hr⟩
  · rw [beginWait, rdF_onTl]; exact rdF_wrF_fits v _ (by omega) (by omega) hk
  · rw [tileIndex_beginWait, tileIndex, tileIndex, rdF, rdF, hrd]
  · rw [tileState_beginWait, tileState, tileState, rdF, rdF, hrd]
  · rw [tl_beginWait_self]; exact hg r
  · rw [tl_beginWait_ne _ _ hk, ht k hk]

-- A tile goes on after a wait

/-- What a tile that ends its wait leaves of its record (R100). -/
theorem tl_resume_self : tl (resume t s) t
    = { tl s t with wait := none, iq := (tl s t).iq.tail, asked := false, wrapped := decide (tileIndex s t = 8191) } := by
  rw [resume, tl_advance, tl_wrReg, tl_wrReg, tl_onTl_self]
  have hi : tileIndex (wrReg (Reg.cycles t) (rd s (Reg.cycles t) + wd (coreCycles s t (now s - (tl s t).waitFrom)))
      (wrReg (Reg.stallWait t) (rd s (Reg.stallWait t) + wd (coreCycles s t (now s - (tl s t).waitFrom)))
        s)) t = tileIndex s t := by
    simp only [tileIndex, rdF, rd_wrReg_ne _ _ (tileStatus_ne_cycles t t), rd_wrReg_ne _ _ (stallWait_ne_tileStatus t t).symm]
  exact congrArg (fun i => ({ tl s t with wait := none, iq := (tl s t).iq.tail, asked := false, wrapped := decide (i = 8191) } : Tile)) hi

theorem tl_resume_ne (h : k ≠ t) : tl (resume t s) k = tl s k := by
  rw [resume, tl_advance_ne h, tl_wrReg, tl_wrReg, tl_onTl_ne _ _ h]; rfl

theorem rd_resume_ne {a : Nat} (hs : a ≠ Reg.tileStatus t) (hc : a ≠ Reg.cycles t) (hw : a ≠ Reg.stallWait t) :
    rd (resume t s) a = rd s a := by
  rw [resume, rd_advance_ne hs hc, rd_wrReg_ne _ _ hc, rd_wrReg_ne _ _ hw, rd_onTl]; rfl

theorem rd_resume_tileStatus : rd (resume t s) (Reg.tileStatus t)
    = setFld (setFld (rd s (Reg.tileStatus t)) 44 32 (tileIndex s t + 1)) 15 12 0 := by
  rw [resume, rd_advance_tileStatus, tileIndex, rdF, rd_wrReg_ne _ _ (tileStatus_ne_cycles t t),
    rd_wrReg_ne _ _ (stallWait_ne_tileStatus t t).symm, rd_onTl]
  rfl

@[simp] theorem now_resume : now (resume t s) = now s := rfl

@[simp] theorem memByte_resume (a : Nat) : memByte (resume t s) a = memByte s a := rfl

@[simp] theorem cplOf_resume (a : Nat) : cplOf (resume t s) a = cplOf s a := rfl

theorem tileIndex_resume : tileIndex (resume t s) t = (tileIndex s t + 1) % 8192 := by
  rw [tileIndex, rdF, rd_resume_tileStatus, fld_setFld_other _ 15 12 0 44 32 (by omega) (by omega) (by omega),
    fld_setFld _ 44 32 _ (by omega) (by omega)]
  rfl

theorem tileState_resume : tileState (resume t s) t = tileState s t := by
  rw [tileState, rdF, rd_resume_tileStatus, fld_setFld_other _ 15 12 0 3 0 (by omega) (by omega) (by omega),
    fld_setFld_other _ 44 32 _ 3 0 (by omega) (by omega) (by omega)]
  rfl

/-- The next instruction after a wait (R100). -/
theorem wentOn_resume (hi : tileIndex v t = tileIndex s t) (hs : tileState v t = tileState s t) :
    WentOn t s (resume t v) :=
  ⟨by rw [tl_resume_self], by rw [tileIndex_resume, hi], by rw [tileState_resume, hs]⟩

@[simp] theorem greg_resume (r : Nat) : greg (tl (resume t s) t) r = greg (tl s t) r := by
  rw [tl_resume_self]; rfl

@[simp] theorem preg_resume (r : Nat) : preg (tl (resume t s) t) r = preg (tl s t) r := by
  rw [tl_resume_self]; rfl

@[simp] theorem vreg_resume (r : Nat) : vreg (tl (resume t s) t) r = vreg (tl s t) r := by
  rw [tl_resume_self]; rfl

/-- The governor looks at a release: only what it holds changes (R369). -/
theorem tl_governRelease_self (n : Nat) :
    ∃ f, tl (governRelease t n s) t = { tl s t with firstMxm := f } := by
  rw [governRelease, tl_onTl_self]; exact ⟨_, rfl⟩

theorem wentOn_governRelease {n : Nat} (h : WentOn t s v) : WentOn t s (governRelease t n v) := by
  obtain ⟨hw, hi, hs⟩ := h
  obtain ⟨f, hf⟩ := tl_governRelease_self (s := v) (t := t) n
  refine ⟨by rw [hf]; exact hw, ?_, ?_⟩
  · rw [governRelease, tileIndex_onTl, hi]
  · rw [governRelease, tileState_onTl, hs]

@[simp] theorem memByte_clockTo (n a : Nat) : memByte (clockTo n s) a = memByte s a := by
  obtain ⟨c, m, h⟩ := clockTo_cases s n; rw [h]; rfl

-- Issue of a word of the Q format

/-- A word with no other field set than those it names runs (R82). -/
theorem qissue_runs {x named : QArgs} {illegal : Bool} {reads : List Nat} (body : State → State)
    (hr : Runs s t x.pn x.pg reads) (hn : Named x named) (hi : illegal = false) :
    qissue t x named illegal reads body s = body s := by
  have hd : decide (x ≠ { named with pn := x.pn, pg := x.pg }) = false := decide_eq_false fun hne => hne hn
  exact issue_runs s t body hr (by rw [hd, hi]; rfl)

-- Timed issue

theorem waitt_late {x : QArgs} (hr : Runs s t x.pn x.pg [x.a.toNat]) (hn : Named x { a := x.a, pd := x.pd })
    (hlate : (gv s t x.a).toNat < now s) :
    Completes (.waitt t x) s (fun u =>
      WroteP t x.pd.toNat true s u ∧ rd u (Reg.lateCount t) = rd s (Reg.lateCount t) + 1 ∧ GKept t s u
        ∧ MovedOn t [Reg.lateCount t] s u ∧ MemKept s u) := by
  have hc : exec (.waitt t x) s = ok (qissue t x { a := x.a, pd := x.pd } false [x.a.toNat] _ s) := rfl
  rw [qissue_runs _ hr hn rfl] at hc
  simp only [if_pos hlate] at hc
  refine ⟨_, hc, ?_, ?_, fun r => ?_, ?_, fun _ => rfl⟩
  · refine wroteP_of_preg x.pd.isLt fun i => ?_
    rw [preg_advance, governRelease, tl_onTl_self, tl_wrReg, tl_onTl_self]; rfl
  · rw [rd_advance_ne (tileStatus_ne_lateCount t t).symm (cycles_ne_lateCount t t).symm, governRelease, rd_onTl,
      rd_wrReg_self]
  · rw [greg_advance, governRelease, tl_onTl_self, tl_wrReg, tl_onTl_self]; exact greg_setP ..
  · refine advance_movedOn s t rfl ?_ ?_ ?_ ?_
    · rw [governRelease, rd_onTl, rd_wrReg_ne _ _ (tileStatus_ne_lateCount t t), rd_onTl]
    · rw [governRelease, rd_onTl, rd_wrReg_ne _ _ (cycles_ne_lateCount t t), rd_onTl]
    · intro a ha
      rw [governRelease, rd_onTl, rd_wrReg_ne _ _ (by simpa using ha), rd_onTl]
    · intro k hk
      rw [governRelease, tl_onTl_ne _ _ hk, tl_wrReg, tl_onTl_ne _ _ hk]

theorem waitt_waits {x : QArgs} (hr : Runs s t x.pn x.pg [x.a.toNat]) (hn : Named x { a := x.a, pd := x.pd })
    (hin : now s ≤ (gv s t x.a).toNat) :
    Completes (.waitt t x) s (fun u =>
      WroteP t x.pd.toNat false s u ∧ Waits t 1 (.waitt (gv s t x.a).toNat) s u) := by
  have hc : exec (.waitt t x) s = ok (qissue t x { a := x.a, pd := x.pd } false [x.a.toNat] _ s) := rfl
  rw [qissue_runs _ hr hn rfl] at hc
  simp only [if_neg (Nat.not_lt.2 hin)] at hc
  refine ⟨_, hc, ?_, waits_beginWait (by decide) _ rfl (fun _ => rfl) (fun r => ?_) (fun k hk => tl_onTl_ne _ _ hk) rfl⟩
  · refine wroteP_of_preg x.pd.isLt fun i => ?_
    rw [tl_beginWait_self, tl_onTl_self]; rfl
  · rw [tl_onTl_self]; exact greg_setP ..

/-- WAITT_RELEASE (R86). -/
theorem waittRelease_completes {till : Nat} (hw : (tl s t).wait = some (.waitt till)) (hs : tileState s t = 3)
    (ht : till < 2 ^ 64) :
    Completes (.waittRelease t) s (fun u => WentOn t s u ∧ till ≤ now u ∧ GKept t s u ∧ PKept t s u ∧ VKept t s u
      ∧ MemKept s u ∧ TilesKept t s u) := by
  have hc : exec (.waittRelease t) s = ok (governRelease t till (resume t (clockTo till s))) := by
    change execWaittRelease t s = _
    rw [execWaittRelease, hw]; simp only [if_pos hs]
  obtain ⟨c, n, hcl⟩ := clockTo_cases s till
  have hgo : WentOn t s (resume t (clockTo till s)) := wentOn_resume (by rw [hcl]; rfl) (by rw [hcl]; rfl)
  obtain ⟨f, hone⟩ := tl_governRelease_self (s := resume t (clockTo till s)) (t := t) till
  refine ⟨_, hc, ?_, ?_, fun r => ?_, fun r => ?_, fun r => ?_, fun a => ?_, fun k hk => ?_⟩
  · exact wentOn_governRelease hgo
  · exact now_clockTo s till ht
  · rw [hone, ← tl_clockTo s till t, ← greg_resume]; rfl
  · rw [hone, ← tl_clockTo s till t, ← preg_resume]; rfl
  · rw [hone, ← tl_clockTo s till t, ← vreg_resume]; rfl
  · exact memByte_clockTo till a
  · rw [governRelease, tl_onTl_ne _ _ hk, tl_resume_ne hk, tl_clockTo]

-- Hints

theorem exists_start_eq_foldl_min (l : List Hint) (a : Nat) :
    l.foldl (fun a y => min a y.start) a = a ∨ ∃ y ∈ l, y.start = l.foldl (fun a y => min a y.start) a := by
  induction l generalizing a with
  | nil => exact .inl rfl
  | cons y l ih =>
    rw [List.foldl_cons]
    rcases ih (min a y.start) with h | ⟨z, hz, h⟩
    · rcases Nat.le_total a y.start with hle | hle
      · exact .inl (by rw [h, Nat.min_eq_left hle])
      · exact .inr ⟨y, List.mem_cons_self, by rw [h, Nat.min_eq_right hle]⟩
    · exact .inr ⟨z, List.mem_cons_of_mem _ hz, h⟩

/-- Some hint starts earliest. -/
theorem exists_earliest {l : List Hint} (hl : l ≠ []) (h : Hint) :
    ∃ y, l.find? (fun y => y.start = l.foldl (fun a y => min a y.start) (l.headD h).start) = some y ∧ y ∈ l := by
  obtain ⟨z, hz, he⟩ : ∃ z ∈ l, z.start = l.foldl (fun a y => min a y.start) (l.headD h).start := by
    rcases exists_start_eq_foldl_min l (l.headD h).start with he | he
    · obtain ⟨z, r, rfl⟩ := List.exists_cons_of_ne_nil hl
      exact ⟨z, List.mem_cons_self, he.symm⟩
    · exact he
  obtain ⟨y, hy⟩ := Option.isSome_iff_exists.1 ((List.find?_isSome (p := fun y : Hint =>
    decide (y.start = l.foldl (fun a y => min a y.start) (l.headD h).start))).2 ⟨z, hz, by simpa using he⟩)
  exact ⟨y, hy, List.mem_of_find?_eq_some hy⟩

/-- A hint is added, a fifth in place of another (R89). -/
theorem addHint_spec (n : Nat) (h : Hint) (l : List Hint) :
    h ∈ addHint n h l ∧ (addHint n h l).length ≤ max 4 l.length := by
  have hle : (l.filter (fun y => decide (n < y.start + y.dur))).length ≤ l.length := List.length_filter_le ..
  unfold addHint
  generalize l.filter (fun y => decide (n < y.start + y.dur)) = live at hle
  by_cases h4 : live.length < 4
  · simp only [if_pos h4]
    exact ⟨by simp, by simp only [List.length_append, List.length_singleton]; omega⟩
  · obtain ⟨y, hy, hm⟩ := exists_earliest (l := live) (by rintro rfl; simp at h4) h
    simp only [if_neg h4, hy]
    refine ⟨by simp, ?_⟩
    rw [List.length_append, List.length_erase_of_mem hm, List.length_singleton]
    omega

/-- STEEP (R82, R89). -/
theorem steep_completes {x : QArgs} (hr : Runs s t x.pn x.pg [x.a.toNat, x.b.toNat])
    (hn : Named x { a := x.a, b := x.b, sub := x.sub }) {h : Hint} (hl : h.level = x.sub.toNat)
    (hs : h.start = max (now s) (gv s t x.a).toNat) (hd : h.dur = (gv s t x.b).toNat) :
    Completes (.steep t x) s (fun u =>
      h ∈ (tl u t).hints ∧ (tl u t).hints.length ≤ max 4 ((tl s t).hints.length) ∧ GKept t s u ∧ PKept t s u
        ∧ VKept t s u ∧ MovedOn t [] s u ∧ MemKept s u) := by
  have hh : h = { level := x.sub.toNat, start := max (now s) (gv s t x.a).toNat, dur := (gv s t x.b).toNat } := by
    obtain ⟨a, b, c⟩ := h
    simp only at hl hs hd
    rw [hl, hs, hd]
  have hc : exec (.steep t x) s
      = ok (qissue t x { a := x.a, b := x.b, sub := x.sub } false [x.a.toNat, x.b.toNat] _ s) := rfl
  rw [qissue_runs _ hr hn rfl, ← hh] at hc
  have ht : tl (advance t (onTl t (fun y => { y with hints := addHint (now s) h y.hints }) s)) t
      = { tl s t with hints := addHint (now s) h (tl s t).hints, iq := (tl s t).iq.tail, asked := false,
                      wrapped := decide (tileIndex s t = 8191) } := by
    rw [tl_advance, tl_onTl_self, tileIndex_onTl]
  obtain ⟨hmem, hlen⟩ := addHint_spec (now s) h (tl s t).hints
  refine ⟨_, hc, by rw [ht]; exact hmem, by rw [ht]; exact hlen, fun r => by rw [ht]; rfl, fun r => by rw [ht]; rfl,
    fun r => by rw [ht]; rfl, ?_, fun _ => rfl⟩
  exact advance_movedOn s t rfl rfl rfl (fun _ _ => rfl) (fun k hk => tl_onTl_ne _ _ hk)

/-- Settles O13: each of the four commands from what it does once it is issued or released. -/
theorem timedInstructions : Obligations.TimedInstructions := by
  refine ⟨fun t x s hr hn => ?_, fun t x s hr hn => ⟨waitt_late hr hn, waitt_waits hr hn⟩,
    fun t till s => waittRelease_completes, fun t x s hr hn h => steep_completes hr hn⟩
  have hc : exec (.tread t x) s = ok (qissue t x { d := x.d } false [] _ s) := rfl
  rw [qissue_runs _ hr hn rfl] at hc
  exact ⟨_, hc, putG_done s t x.d s.now⟩

end Sys2Proof.Machine
end

section
/-! PROOFS. FENCE, CPLW and CPLP (R82, R84, R85, R199): a tile begins to wait, and what it waits for is looked at at once. -/

namespace Sys2Proof.Machine

variable {s u v w : State} {t k : Nat}

-- A general register written into a record with the same general registers

theorem greg_setG_congr {x y : Tile} (h : ∀ r, greg x r = greg y r) (d : Nat) (c : Word) (r : Nat) :
    greg (setG d c x) r = greg (setG d c y) r := by
  by_cases hd : d = 0
  · subst hd; exact h r
  · by_cases hr : r = d
    · subst hr; rw [greg_setG_self _ _ hd, greg_setG_self _ _ hd]
    · rw [greg_setG_ne _ _ hr, greg_setG_ne _ _ hr, h]

theorem greg_beginWait (kind : Nat) (wt : Wait) (r : Nat) :
    greg (tl (beginWait t kind wt s) t) r = greg (tl s t) r := by
  rw [tl_beginWait_self]; rfl

-- What a wait that begins leaves as it was

theorem openOf_beginWait (kind : Nat) (wt : Wait) (mask : Nat) :
    openOf (beginWait t kind wt s) t mask = openOf s t mask := by
  simp only [openOf, tl_beginWait_self]; rfl

theorem lookTag_beginWait (kind : Nat) (wt : Wait) (c : Word) : lookTag (beginWait t kind wt s) c = lookTag s c := rfl

theorem bankStatus_ne_tileStatus (a b : Nat) : Reg.bankStatus a b ≠ Reg.tileStatus a := by
  simp only [Reg.bankStatus, Reg.tileStatus, Reg.tileBase]; omega

theorem bankOwner_ne_tileStatus (a b : Nat) : Reg.bankOwner a b ≠ Reg.tileStatus a := by
  simp only [Reg.bankOwner, Reg.tileStatus, Reg.tileBase]; omega

theorem tileTenant_ne_tileStatus (a : Nat) : Reg.tileTenant a ≠ Reg.tileStatus a := by
  simp only [Reg.tileTenant, Reg.tileStatus, Reg.tileBase]; omega

theorem MayUse.beginWait {off n : Nat} (h : MayUse s t off n) (kind : Nat) (wt : Wait) :
    MayUse (beginWait t kind wt s) t off n := by
  obtain ⟨hin, hb⟩ := h
  refine ⟨hin, fun b hm => ?_⟩
  obtain ⟨hp, ho⟩ := hb b hm
  constructor
  · rw [← hp, handoverPending, handoverPending, rdB, rdB, rd_beginWait_ne _ _ (bankStatus_ne_tileStatus t b)]
  · simp only [owns, tileTenant, rdF] at ho ⊢
    rwa [rd_beginWait_ne _ _ (bankOwner_ne_tileStatus t b), rd_beginWait_ne _ _ (tileTenant_ne_tileStatus t)]

theorem Quiet.beginWait {off n : Nat} (h : Quiet s t off n) (kind : Nat) (wt : Wait) :
    Quiet (beginWait t kind wt s) t off n := by
  obtain ⟨hclean, hsettled⟩ := h
  exact ⟨hclean, by rwa [tl_beginWait_self]⟩

/-- A tile that has just begun to wait has the banks of some bytes that it may access. -/
theorem askBanks_beginWait {port off n : Nat} (isRead two : Bool) (hn : n ≠ 0) (kind : Nat) (wt : Wait)
    (h : MayAccess s t port off n) :
    ∃ b, askBanks t port isRead two [(off, n)] (beginWait t kind wt s) = .granted (admitted t b (beginWait t kind wt s)) := by
  obtain ⟨huse, hclear, hasked⟩ := h
  have huse' := MayUse.beginWait huse kind wt
  obtain ⟨b, hb, _⟩ := askBanks_granted (beginWait t kind wt s) isRead two hn huse'.1
    (by rw [tl_beginWait_self]; exact hasked) (localCheck_of_mayUse huse') hclear
  exact ⟨b, hb⟩

-- A store to bytes that nothing disturbs

theorem memBytes_congr (h : ∀ a, memByte u a = memByte s a) (a n : Nat) : memBytes u a n = memBytes s a n :=
  List.map_congr_left fun i _ => h (a + i)

theorem mem_rmwUnits {whole : Bool} {a n i : Nat} (h : i ∈ rmwUnits whole a n) : i ∈ unitsOf a n :=
  List.mem_of_mem_filter h

/-- The unit of check bits at its own address is the only one that its 32 bytes touch. -/
theorem unitsOf_unit (i : Nat) : unitsOf (32 * i) 32 = [i] := by
  have h0 : 32 * i / 32 = i := by omega
  have h : (32 * i + 32 - 1) / 32 - 32 * i / 32 + 1 = 1 := by omega
  rw [unitsOf, if_neg (by decide), h, h0]; rfl

theorem unit_le_of_mem {t off n i : Nat} (h : i ∈ unitsOf (sramAddr t off) n) : sramAddr t 0 ≤ 32 * i := by
  unfold unitsOf at h
  split at h
  · cases h
  · simp only [List.mem_map, List.mem_range, sramAddr] at h ⊢
    obtain ⟨j, _, rfl⟩ := h
    omega

/-- A tile's record once nothing is on its way to some bytes of its SRAM any more (R70). -/
def settled (off n : Nat) (x : Tile) : Tile :=
  { x with unsettled := x.unsettled.filter (fun u => !decide (off ≤ u.off ∧ u.off < off + n)) }

/-- A store to halves that show no error is a plain write (R142, R143). -/
theorem localStore_of_quiet {off : Nat} {bs : List Byte} (h : Quiet s t off bs.length) :
    localStore t 0 off bs s
      = onTl t (settled off bs.length) (writeMem true false (sramAddr t off) bs s).2 := by
  have hnote : (rmwUnits true (sramAddr t off) bs.length).foldl
      (fun s' u => noteBankErrors t (u * 32 - sramAddr t 0) 32 (tileOcc s t off true stPoisoned) s') s = s := by
    refine List.foldlRecOn (motive := fun w => w = s) _ _ rfl fun w hw i hi => ?_
    subst hw
    have hm := mem_rmwUnits hi
    have ha : sramAddr t (i * 32 - sramAddr t 0) = 32 * i := by
      have := unit_le_of_mem hm
      simp only [sramAddr] at this ⊢; omega
    rw [noteBankErrors, ha]
    exact noteErrors_of_clean _ fun j hj => by
      rw [unitsOf_unit, List.mem_singleton] at hj; subst hj; exact h.1 j hm
  simp only [localStore, beq_self_eq_true, hnote, viewBytes, if_true]
  rfl

theorem memBytes_localStore {off : Nat} {bs : List Byte} (h : Quiet s t off bs.length) :
    memBytes (localStore t 0 off bs s) (sramAddr t off) bs.length = bs := by
  rw [localStore_of_quiet h]; exact memBytes_writeMem true false h.1

theorem memKeptBut_localStore {off : Nat} {bs : List Byte} (h : Quiet s t off bs.length) :
    MemKeptBut (sramAddr t off) bs.length s (localStore t 0 off bs s) := by
  rw [localStore_of_quiet h]; exact fun c hc => memByte_writeMem_out s true false _ c bs hc

theorem localStore_frame {off : Nat} {bs : List Byte} (h : Quiet s t off bs.length) :
    (localStore t 0 off bs s).regs = s.regs ∧ (∀ r, greg (tl (localStore t 0 off bs s) t) r = greg (tl s t) r) := by
  obtain ⟨m, e, hw⟩ := writeMem_frame true false (sramAddr t off) bs s
  rw [localStore_of_quiet h, hw]
  exact ⟨rfl, fun r => by rw [tl_onTl_self]; rfl⟩

theorem tl_localStore_ne {off : Nat} {bs : List Byte} (h : Quiet s t off bs.length) (hk : k ≠ t) :
    tl (localStore t 0 off bs s) k = tl s k := by
  obtain ⟨m, e, hw⟩ := writeMem_frame true false (sramAddr t off) bs s
  rw [localStore_of_quiet h, hw, tl_onTl_ne _ _ hk]; rfl

theorem wordsBytes_recordWords_length (e : Cpl) : (wordsBytes (recordWords e)).length = 32 := by
  simp [wordsBytes, recordWords]

-- Release of an entry

/-- A released entry is free, or in quarantine when a packet of it may still be answered (R198). -/
theorem release_eq (tag : Nat) (s : State) : ∃ e, release tag s = setCpl tag e s
    ∧ e.st = (if (cplOf s tag).sent && !(cplOf s tag).answered then .quarantine else .free) := by
  unfold release
  by_cases h : ((cplOf s tag).sent && !(cplOf s tag).answered) = true
  · exact ⟨_, if_pos h, (if_pos h).symm⟩
  · exact ⟨_, if_neg h, (if_neg h).symm⟩

/-- The state a released entry is in. -/
theorem st_release (tag : Nat) (s : State) : (cplOf (release tag s) tag).st
    = (if (cplOf s tag).sent && !(cplOf s tag).answered then .quarantine else .free) := by
  obtain ⟨e, he, hst⟩ := release_eq tag s
  rw [he, cplOf_setCpl_self, hst]

theorem release_frame (tag : Nat) (s : State) : ∃ c, release tag s = { s with cpl := c } := by
  obtain ⟨e, he, _⟩ := release_eq tag s
  exact ⟨_, he⟩

@[simp] theorem tl_release (tag : Nat) (s : State) (m : Nat) : tl (release tag s) m = tl s m := by
  obtain ⟨c, h⟩ := release_frame tag s; rw [h]; rfl

@[simp] theorem rd_release (tag : Nat) (s : State) (a : Nat) : rd (release tag s) a = rd s a := by
  obtain ⟨c, h⟩ := release_frame tag s; rw [h]; rfl

@[simp] theorem memByte_release (tag : Nat) (s : State) (a : Nat) : memByte (release tag s) a = memByte s a := by
  obtain ⟨c, h⟩ := release_frame tag s; rw [h]; rfl

-- The answer to a wait

theorem greg_observe (f : Until → Bool) (r : Nat) : greg (tl (observe t f s) t) r = greg (tl s t) r := by
  rw [observe, tl_onTl_self]; rfl

@[simp] theorem rd_observe (f : Until → Bool) (a : Nat) : rd (observe t f s) a = rd s a := rfl

@[simp] theorem memByte_observe (f : Until → Bool) (a : Nat) : memByte (observe t f s) a = memByte s a := rfl

theorem lookTag_done {c : Word} {tag : Nat} {e : Cpl} (h : lookTag s c = .done tag e) : e = cplOf s tag := by
  unfold lookTag at h
  split at h
  · cases h
  · simp only at h
    split at h
    · cases h; rfl
    · split at h <;> cases h

/-- A tile whose wait has just begun and that is answered at once. -/
theorem answered_resume {d : BitVec 5} {c : Word} {kind : Nat} {wt : Wait}
    (hr : rd w (Reg.tileStatus t) = rd (beginWait t kind wt s) (Reg.tileStatus t))
    (hg : ∀ r, greg (tl w t) r = greg (setG d.toNat c (tl (beginWait t kind wt s) t)) r) :
    WroteG t d c s (resume t w) ∧ WentOn t s (resume t w) := by
  have hi : tileIndex w t = tileIndex s t := by
    rw [← tileIndex_beginWait (s := s) (t := t) kind wt t, tileIndex, tileIndex, rdF, rdF, hr]
  have hs : tileState w t = tileState s t := by
    rw [← tileState_beginWait (s := s) (t := t) kind wt t, tileState, tileState, rdF, rdF, hr]
  refine ⟨wroteG_of_greg fun r => ?_, wentOn_resume hi hs⟩
  rw [greg_resume, hg]
  exact greg_setG_congr (greg_beginWait kind wt) d.toNat c r

theorem tileState_of_canIssue (h : canIssue s t = true) : tileState s t = 3 := (of_decide_eq_true h).1

theorem wait_of_canIssue (h : canIssue s t = true) : (tl s t).wait = none := (of_decide_eq_true h).2

/-- What a tile has just begun to wait for is looked at as its kind says. -/
theorem settle_beginWait (h : canIssue s t = true) (kind : Nat) (wt : Wait) :
    settle t (beginWait t kind wt s) = (match wt with
      | .cplw c d off => settleCplw t c d off (beginWait t kind wt s)
      | .swait slot d => settleSwait t slot d (beginWait t kind wt s)
      | .fence mask d => settleFence t mask d (beginWait t kind wt s)
      | .gangEnd => settleEnd t (beginWait t kind wt s)
      | _ => beginWait t kind wt s) := by
  have hs : tileState (beginWait t kind wt s) t = 3 := by rw [tileState_beginWait, tileState_of_canIssue h]
  have hw : (tl (beginWait t kind wt s) t).wait = some wt := by rw [tl_beginWait_self]
  rw [settle, if_pos hs, hw]
  cases wt <;> rfl

theorem waits_at_once {kind : Nat} (hk : kind < 16) (wt : Wait) : Waits t kind wt s (beginWait t kind wt s) :=
  waits_beginWait hk wt rfl (fun _ => rfl) (fun _ => rfl) (fun _ _ => rfl) rfl

-- FENCE

theorem fence_completes {x : QArgs} (hr : Runs s t x.pn x.pg []) (hn : Named x { d := x.d, sub := x.sub })
    (hm : x.sub.toNat < 8) :
    (openOf s t x.sub.toNat = false → Completes (.fence t x) s (fun u =>
      WroteG t x.d (wd (fenceCount (tl s t) x.sub.toNat)) s u ∧ WentOn t s u ∧ MemKept s u))
    ∧ (openOf s t x.sub.toNat = true →
      Completes (.fence t x) s (Waits t 5 (.fence x.sub.toNat x.d.toNat) s)) := by
  have hc : exec (.fence t x) s
      = ok (qissue t x { d := x.d, sub := x.sub } (decide (7 < x.sub.toNat)) [] _ s) := rfl
  rw [qissue_runs _ hr hn (decide_eq_false (by omega)), settle_beginWait hr.1] at hc
  simp only [settleFence, openOf_beginWait] at hc
  constructor
  · intro ho
    rw [if_neg (by simp [ho])] at hc
    have hcount : fenceCount (tl (beginWait t 5 (.fence x.sub.toNat x.d.toNat) s) t) x.sub.toNat
        = fenceCount (tl s t) x.sub.toNat := by rw [tl_beginWait_self]; rfl
    obtain ⟨h1, h2⟩ := answered_resume (s := s) (t := t) (d := x.d) (c := wd (fenceCount (tl s t) x.sub.toNat))
      (kind := 5) (wt := .fence x.sub.toNat x.d.toNat)
      (w := observe t (untilFence x.sub.toNat)
        (onTl t (fun y => setG x.d.toNat (wd (fenceCount y x.sub.toNat)) y)
          (beginWait t 5 (.fence x.sub.toNat x.d.toNat) s)))
      rfl (fun r => by rw [greg_observe, tl_onTl_self, hcount])
    exact ⟨_, hc, h1, h2, fun _ => rfl⟩
  · intro ho
    rw [if_pos ho] at hc
    exact ⟨_, hc, waits_at_once (by decide) _⟩

-- CPLW

/-- What a CPLW that waits does, from what its tag register names (R84, R85, R199). -/
def cplwAnswer (t d : Nat) (off : Option Nat) (l : TagLook) (s : State) : State :=
  match l with
  | .wait => s
  | .stale => s |> onTl t (setG d (wd stStale)) |> resume t
  | .done tag e =>
    match off with
    | none => s |> onTl t (setG d e.rec1) |> observe t (untilTag tag e) |> release tag |> resume t
    | some o =>
      match askBanks t 4 false false [(o, 32)] s with
      | .granted s =>
        s |> localStore t 0 o (wordsBytes (recordWords e)) |> onTl t (setG d e.rec1) |> observe t (untilTag tag e)
          |> release tag |> resume t
      | .waits s => s
      | .refused c off => localFault t c off true s

theorem settleCplw_eq (c : Word) (d : Nat) (off : Option Nat) :
    settleCplw t c d off s = cplwAnswer t d off (lookTag s c) s := by
  unfold settleCplw cplwAnswer
  cases lookTag s c with
  | wait => rfl
  | stale => rfl
  | done tag e => cases off <;> rfl

section
variable {x : QArgs} (hr : Runs s t x.pn x.pg [x.a.toNat, x.b.toNat]) (hn : Named x { d := x.d, a := x.a, b := x.b })
include hr hn

/-- CPLW as far as the look at its tag register. -/
theorem exec_cplw {off : Option Nat} {l : TagLook} (hoff : (if x.b = 0 then none else some (gv s t x.b).toNat) = off)
    (hl : lookTag s (gv s t x.a) = l) :
    exec (.cplw t x) s
      = ok (cplwAnswer t x.d.toNat off l (beginWait t 3 (.cplw (gv s t x.a) x.d.toNat off) s)) := by
  have hc : exec (.cplw t x) s
      = ok (qissue t x { d := x.d, a := x.a, b := x.b } false [x.a.toNat, x.b.toNat] _ s) := rfl
  rw [qissue_runs _ hr hn rfl] at hc
  subst hoff hl
  rw [hc, settle_beginWait hr.1]
  simp only [settleCplw_eq, lookTag_beginWait]

theorem cplw_done {tag : Nat} {e : Cpl} (hl : lookTag s (gv s t x.a) = .done tag e) (hb : x.b = 0) :
    Completes (.cplw t x) s (fun u =>
      WroteG t x.d e.rec1 s u ∧ WentOn t s u ∧ MemKept s u
        ∧ (cplOf u tag).st = (if e.sent && !e.answered then .quarantine else .free)) := by
  have hc := exec_cplw hr hn (if_pos hb) hl
  simp only [cplwAnswer] at hc
  obtain ⟨h1, h2⟩ := answered_resume (s := s) (t := t) (d := x.d) (c := e.rec1)
    (kind := 3) (wt := .cplw (gv s t x.a) x.d.toNat none)
    (w := release tag (observe t (untilTag tag e) (onTl t (setG x.d.toNat e.rec1)
      (beginWait t 3 (.cplw (gv s t x.a) x.d.toNat none) s))))
    (by rw [rd_release, rd_observe, rd_onTl]) (fun r => by rw [tl_release, greg_observe, tl_onTl_self])
  refine ⟨_, hc, h1, h2, fun a => ?_, ?_⟩
  · rw [memByte_resume, memByte_release]; rfl
  · rw [cplOf_resume, st_release, lookTag_done hl]; rfl

theorem cplw_done_record {tag off : Nat} {e : Cpl} (hl : lookTag s (gv s t x.a) = .done tag e) (hb : x.b ≠ 0)
    (hoff : off = (gv s t x.b).toNat) (hmay : MayAccess s t 4 off 32) (hq : Quiet s t off 32) :
    Completes (.cplw t x) s (fun u =>
      WroteG t x.d e.rec1 s u ∧ WentOn t s u ∧ memBytes u (sramAddr t off) 32 = wordsBytes (recordWords e)
        ∧ MemKeptBut (sramAddr t off) 32 s u) := by
  have hc := exec_cplw hr hn (if_neg hb) hl
  obtain ⟨b, hask⟩ := askBanks_beginWait false false (by decide) 3
    (.cplw (gv s t x.a) x.d.toNat (some off)) hmay
  rw [← hoff] at hc
  simp only [cplwAnswer, hask] at hc
  have hlen := wordsBytes_recordWords_length e
  generalize wordsBytes (recordWords e) = bs at hc hlen ⊢
  have hq' : Quiet (admitted t b (beginWait t 3 (.cplw (gv s t x.a) x.d.toNat (some off)) s)) t off
      bs.length := by
    rw [hlen]; exact (hq.beginWait _ _).admitted b
  obtain ⟨hregs, hgreg⟩ := localStore_frame hq'
  obtain ⟨h1, h2⟩ := answered_resume (s := s) (t := t) (d := x.d) (c := e.rec1)
    (kind := 3) (wt := .cplw (gv s t x.a) x.d.toNat (some off))
    (w := release tag (observe t (untilTag tag e) (onTl t (setG x.d.toNat e.rec1)
      (localStore t 0 off bs
        (admitted t b (beginWait t 3 (.cplw (gv s t x.a) x.d.toNat (some off)) s))))))
    (by rw [rd_release, rd_observe, rd_onTl]; simp only [rd, hregs]; rfl)
    (fun r => by
      rw [tl_release, greg_observe, tl_onTl_self]
      exact greg_setG_congr (fun r => by rw [hgreg, tl_admitted]; rfl) _ _ _)
  refine ⟨_, hc, h1, h2, ?_, fun a ha => ?_⟩
  · have hbytes := memBytes_localStore hq'
    rw [hlen] at hbytes
    refine (memBytes_congr (fun a => ?_) _ _).trans hbytes
    rw [memByte_resume, memByte_release, memByte_observe, memByte_onTl]
  · rw [memByte_resume, memByte_release, memByte_observe, memByte_onTl,
      memKeptBut_localStore hq' a (by rw [hlen]; exact ha)]
    rfl

theorem cplw_stale (hl : lookTag s (gv s t x.a) = .stale) :
    Completes (.cplw t x) s (fun u => WroteG t x.d (wd 0x00F) s u ∧ WentOn t s u ∧ MemKept s u) := by
  have hc := exec_cplw hr hn rfl hl
  obtain ⟨h1, h2⟩ := answered_resume (s := s) (t := t) (d := x.d) (c := wd stStale)
    (kind := 3) (wt := .cplw (gv s t x.a) x.d.toNat _)
    (w := onTl t (setG x.d.toNat (wd stStale)) (beginWait t 3 (.cplw (gv s t x.a) x.d.toNat _) s))
    rfl (fun r => by rw [tl_onTl_self])
  exact ⟨_, hc, h1, h2, fun _ => rfl⟩

theorem cplw_waits (hl : lookTag s (gv s t x.a) = .wait) : Completes (.cplw t x) s
    (Waits t 3 (.cplw (gv s t x.a) x.d.toNat (if x.b = 0 then none else some (gv s t x.b).toNat)) s) :=
  ⟨_, exec_cplw hr hn rfl hl, waits_at_once (by decide) _⟩

end

-- CPLP

/-- What CPLP does, from what its tag register names (R84, R199). -/
def cplpAnswer (t : Nat) (x : QArgs) (l : TagLook) (s : State) : State :=
  match l with
  | .wait => putP t x.pd.toNat false s
  | .done tag e =>
    s |> onTl t (setG x.d.toNat e.rec1) |> observe t (untilTag tag e) |> release tag |> putP t x.pd.toNat true
  | .stale => s |> onTl t (setG x.d.toNat (wd stStale)) |> putP t x.pd.toNat true

section
variable {x : QArgs} (hr : Runs s t x.pn x.pg [x.a.toNat]) (hn : Named x { d := x.d, a := x.a, pd := x.pd })
include hr hn

theorem exec_cplp {l : TagLook} (hl : lookTag s (gv s t x.a) = l) :
    exec (.cplp t x) s = ok (cplpAnswer t x l s) := by
  have hc : exec (.cplp t x) s = ok (qissue t x { d := x.d, a := x.a, pd := x.pd } false [x.a.toNat] _ s) := rfl
  rw [qissue_runs _ hr hn rfl] at hc
  subst hl
  rw [hc]
  cases lookTag s (gv s t x.a) <;> rfl

omit hr hn in
/-- A predicate written after the general registers were, with nothing else changed before. -/
theorem answered_putP {c : Word} (hg : ∀ r, greg (tl w t) r = greg (setG x.d.toNat c (tl s t)) r)
    (hp : ∀ i, preg (tl w t) i = preg (tl s t) i) :
    WroteG t x.d c s (putP t x.pd.toNat true w) ∧ WroteP t x.pd.toNat true s (putP t x.pd.toNat true w) := by
  obtain ⟨⟨hset, hother⟩, hgk, _⟩ := putP_done w t x.pd.isLt true
  exact ⟨wroteG_of_greg fun r => (hgk r).trans (hg r), hset, fun i hi => (hother i hi).trans (hp i)⟩

theorem cplp_done {tag : Nat} {e : Cpl} (hl : lookTag s (gv s t x.a) = .done tag e) :
    Completes (.cplp t x) s (fun u =>
      WroteG t x.d e.rec1 s u ∧ WroteP t x.pd.toNat true s u ∧ MemKept s u
        ∧ (cplOf u tag).st = (if e.sent && !e.answered then .quarantine else .free)) := by
  obtain ⟨h1, h2⟩ := answered_putP (s := s) (t := t) (x := x) (c := e.rec1)
    (w := release tag (observe t (untilTag tag e) (onTl t (setG x.d.toNat e.rec1) s)))
    (fun r => by rw [tl_release, greg_observe, tl_onTl_self])
    (fun i => by rw [tl_release, observe, tl_onTl_self, tl_onTl_self]; exact preg_setG ..)
  refine ⟨_, exec_cplp hr hn hl, h1, h2, fun a => ?_, ?_⟩
  · exact (memByte_release ..).trans rfl
  · exact (st_release ..).trans (by rw [lookTag_done hl]; rfl)

theorem cplp_stale (hl : lookTag s (gv s t x.a) = .stale) :
    Completes (.cplp t x) s (fun u =>
      WroteG t x.d (wd 0x00F) s u ∧ WroteP t x.pd.toNat true s u ∧ MovedOn t [] s u ∧ MemKept s u) := by
  obtain ⟨h1, h2⟩ := answered_putP (s := s) (t := t) (x := x) (c := wd stStale) (w := onTl t (setG x.d.toNat (wd stStale)) s)
    (fun r => by rw [tl_onTl_self]) (fun i => by rw [tl_onTl_self]; exact preg_setG ..)
  refine ⟨_, exec_cplp hr hn hl, h1, h2, ?_, fun _ => rfl⟩
  refine advance_movedOn s t rfl rfl rfl (fun _ _ => rfl) fun k hk => ?_
  rw [tl_onTl_ne _ _ hk, tl_onTl_ne _ _ hk]

theorem cplp_waits (hl : lookTag s (gv s t x.a) = .wait) :
    Completes (.cplp t x) s (fun u =>
      GKept t s u ∧ WroteP t x.pd.toNat false s u ∧ MovedOn t [] s u ∧ MemKept s u) := by
  obtain ⟨hp, hg, _, _, hmoved, hmem⟩ := putP_done s t x.pd.isLt false
  exact ⟨_, exec_cplp hr hn hl, hg, hp, hmoved, hmem⟩

end

/-- Settles O14: each instruction from what the operations it names have come to. -/
theorem fencesAndCompletions : Obligations.FencesAndCompletions :=
  ⟨fun _ _ _ => fence_completes,
    fun _ _ _ hr hn => ⟨fun _ _ hl => ⟨cplw_done hr hn hl, fun _ => cplw_done_record hr hn hl⟩,
      cplw_stale hr hn, cplw_waits hr hn⟩,
    fun _ _ _ hr hn => ⟨fun _ _ => cplp_done hr hn, cplp_stale hr hn, cplp_waits hr hn⟩⟩

end Sys2Proof.Machine
end

section
/-! PROOFS. Streams (R90, R91): slots as instructions load, queue and wait for them, and the engine that copies within a
tile's own SRAM. -/

namespace Sys2Proof.Machine

variable {s u v w : State} {t i : Nat} {x : QArgs} {d : Desc}

-- SDESC, SGO and SWAIT

theorem slotBusy_eq_false (hq : i ∉ (tl s t).slotQ) (hr : (tl s t).running ≠ some i) : slotBusy (tl s t) i = false := by
  simp [slotBusy, hq, hr]

theorem sdesc_completes (hr : Runs s t x.pn x.pg [x.a.toNat]) {off : Nat}
    (hn : Named x { d := x.d, a := x.a, sub := x.sub }) (hi : i = x.sub.toNat + 16 * (x.d.toNat % 4))
    (hoff : off = (gv s t x.a).toNat) (hq : i ∉ (tl s t).slotQ) (hrun : (tl s t).running ≠ some i)
    (hmay : MayAccess s t 4 off 32) (hquiet : Quiet s t off 32) :
    Completes (.sdesc t x) s (fun u =>
      mget {} (tl u t).slots i = readDesc (memBytes s (sramAddr t off) 32)
        ∧ (∀ j, j ≠ i → mget {} (tl u t).slots j = mget {} (tl s t).slots j) ∧ (tl u t).slotQ = (tl s t).slotQ
        ∧ GKept t s u ∧ PKept t s u ∧ VKept t s u ∧ MovedOnSram t [] s u ∧ MemKept s u) := by
  have hc : exec (.sdesc t x) s
      = ok (qissue t x { d := x.d, a := x.a, sub := x.sub } false [x.a.toNat] _ s) := rfl
  rw [qissue_runs _ hr hn rfl] at hc
  simp only [← hi, ← hoff, slotBusy_eq_false hq hrun, Bool.false_eq_true, if_false, withLoad] at hc
  obtain ⟨b, hb, hbanks⟩ := withLocal_granted (r := [(off, 32)]) false false
    (loadGranted t off 32 fun bs s =>
      s |> onTl t (fun y => { y with slots := mset {} y.slots i (readDesc bs) }) |> advance t)
    hmay.2.2 (by simpa using hmay)
  rw [hb, loadGranted_of_quiet _ (hquiet.admitted b), memBytes_admitted] at hc
  generalize readDesc (memBytes s (sramAddr t off) 32) = desc at hc ⊢
  have hone : OnlyTouched t [] s
      (onTl t (fun y => { y with slots := mset {} y.slots i desc }) (admitted t b s)) :=
    (onlyTouched_admitted hbanks).onTl fun _ => rfl
  obtain ⟨hg, hp, hv, hm⟩ := hone.goesOn (by simp) (by simp)
  have htl : tl (advance t (onTl t (fun y => { y with slots := mset {} y.slots i desc }) (admitted t b s))) t
      = { tl s t with slots := mset {} (tl s t).slots i desc, iq := (tl s t).iq.tail, asked := false,
                      wrapped := decide (tileIndex s t = 8191) } := by
    rw [tl_advance, tl_onTl_self, tl_admitted]; rfl
  refine ⟨_, hc, ?_, fun j hj => ?_, ?_, hg, hp, hv, hm, fun _ => rfl⟩
  · rw [htl]; exact mget_mset_self ..
  · rw [htl]; exact mget_mset_ne _ _ _ hj
  · rw [htl]

theorem sgo_completes (hr : Runs s t x.pn x.pg [x.a.toNat]) (hn : Named x { a := x.a })
    (hi : i = (gv s t x.a).toNat % 64) (hq : i ∉ (tl s t).slotQ) (hrun : (tl s t).running ≠ some i) :
    Completes (.sgo t x) s (fun u =>
      (tl u t).slotQ = (tl s t).slotQ ++ [i] ∧ (tl u t).slots = (tl s t).slots
        ∧ GKept t s u ∧ PKept t s u ∧ VKept t s u ∧ MovedOn t [] s u ∧ MemKept s u) := by
  have hc : exec (.sgo t x) s = ok (qissue t x { a := x.a } false [x.a.toNat] _ s) := rfl
  rw [qissue_runs _ hr hn rfl] at hc
  simp only [← hi, slotBusy_eq_false hq hrun, Bool.false_eq_true, if_false] at hc
  have htl : tl (advance t (onTl t (fun y => { y with slotQ := y.slotQ ++ [i] }) s)) t
      = { tl s t with slotQ := (tl s t).slotQ ++ [i], iq := (tl s t).iq.tail, asked := false,
                      wrapped := decide (tileIndex s t = 8191) } := by
    rw [tl_advance, tl_onTl_self, tileIndex_onTl]
  refine ⟨_, hc, by rw [htl], by rw [htl], fun r => by rw [htl]; rfl, fun r => by rw [htl]; rfl,
    fun r => by rw [htl]; rfl, ?_, fun _ => rfl⟩
  exact advance_movedOn s t rfl rfl rfl (fun _ _ => rfl) (fun k hk => tl_onTl_ne _ _ hk)

/-- SWAIT as far as the look at its slot. -/
theorem exec_swait (hr : Runs s t x.pn x.pg [x.a.toNat]) (hn : Named x { d := x.d, a := x.a })
    (hi : i = (gv s t x.a).toNat % 64) :
    exec (.swait t x) s = ok (settleSwait t i x.d.toNat (beginWait t 4 (.swait i x.d.toNat) s)) := by
  have hc : exec (.swait t x) s = ok (qissue t x { d := x.d, a := x.a } false [x.a.toNat] _ s) := rfl
  rw [qissue_runs _ hr hn rfl, settle_beginWait hr.1] at hc
  rw [hc, hi]

theorem swait_ended (hr : Runs s t x.pn x.pg [x.a.toNat]) (hn : Named x { d := x.d, a := x.a })
    (hi : i = (gv s t x.a).toNat % 64) (hfree : i ∉ (tl s t).slotQ ∧ (tl s t).running ≠ some i) :
    Completes (.swait t x) s (fun u => WroteG t x.d (mget 0 (tl s t).slotStatus i) s u ∧ WentOn t s u ∧ MemKept s u) := by
  have hc := exec_swait hr hn hi
  have htl : tl (beginWait t 4 (.swait i x.d.toNat) s) t
      = { tl s t with wait := some (.swait i x.d.toNat), waitFrom := now s } := tl_beginWait_self ..
  simp only [settleSwait, htl, List.contains_iff_mem, hfree.1, hfree.2, or_self, if_false] at hc
  obtain ⟨h1, h2⟩ := answered_resume (s := s) (t := t) (d := x.d) (c := mget 0 (tl s t).slotStatus i)
    (kind := 4) (wt := .swait i x.d.toNat)
    (w := observe t (fun u => u == .slot i) (onTl t (setG x.d.toNat (mget 0 (tl s t).slotStatus i))
      (beginWait t 4 (.swait i x.d.toNat) s)))
    rfl (fun r => by rw [greg_observe, tl_onTl_self])
  exact ⟨_, hc, h1, h2, fun _ => rfl⟩

theorem swait_waits (hr : Runs s t x.pn x.pg [x.a.toNat]) (hn : Named x { d := x.d, a := x.a })
    (hi : i = (gv s t x.a).toNat % 64) (hbusy : i ∈ (tl s t).slotQ ∨ (tl s t).running = some i) :
    Completes (.swait t x) s (Waits t 4 (.swait i x.d.toNat) s) := by
  have hc := exec_swait hr hn hi
  have htl : tl (beginWait t 4 (.swait i x.d.toNat) s) t
      = { tl s t with wait := some (.swait i x.d.toNat), waitFrom := now s } := tl_beginWait_self ..
  simp only [settleSwait, htl, List.contains_iff_mem, hbusy, if_true] at hc
  exact ⟨_, hc, waits_at_once (by decide) _⟩

theorem streamInstructions : StreamInstructions := fun _ _ _ hr =>
  ⟨fun _ _ hn hi hoff hq hrun => sdesc_completes hr hn hi hoff hq hrun,
    fun _ hn hi hq hrun => sgo_completes hr hn hi hq hrun,
    fun _ hn hi => ⟨swait_ended hr hn hi, swait_waits hr hn hi⟩⟩

-- The end of a slot

/-- Nothing is looked at again for a tile that waits for nothing. -/
theorem settle_of_no_wait (h : (tl s t).wait = none) : settle t s = s := by
  unfold settle
  split
  · rw [h]
  · rfl

/-- A tile's record with a slot ended with a status word. -/
def slotEnded (i : Nat) (c : Word) (x : Tile) : Tile :=
  { x with running := none, slotStatus := mset 0 x.slotStatus i c }

theorem endSlot_of_no_wait (status : Nat) (check : Bool) (h : (tl s t).wait = none) :
    endSlot t i status check s = onTl t (slotEnded i (statusWord status 0 check false false)) s := by
  refine settle_of_no_wait ?_
  rw [tl_onTl_self]; exact h

-- The start of a slot

theorem streamDescStart_refused {r : List Nat} (hd : d = mget {} (tl s t).slots i) (hw : (tl s t).wait = none)
    (hrun : (tl s t).running = none) (hq : (tl s t).slotQ = i :: r) (hf : fenceState s (t / 128) = 0)
    (hbad : streamCheck d ≠ 0) :
    Completes (.streamDescStart t) s (fun u =>
      mget 0 (tl u t).slotStatus i = statusWord (streamCheck d) 0 false false false ∧ (tl u t).slotQ = r
        ∧ (tl u t).running = none ∧ MemKept s u) := by
  have hc : exec (.streamDescStart t) s = ok (refuseSlot t i d (onTl t (fun y => { y with slotQ := r }) s)) := by
    change execStreamDescStart t s = _
    simp only [execStreamDescStart, hrun, hq, ← hd, hf, hbad, ne_eq, not_true_eq_false, not_false_eq_true, if_true,
      if_false]
  obtain ⟨v, hv, htl, hmem⟩ : ∃ v, refuseSlot t i d (onTl t (fun y => { y with slotQ := r }) s)
      = endSlot t i (streamCheck d) false v ∧ tl v t = { tl s t with slotQ := r } ∧ MemKept s v := by
    refine ⟨_, rfl, ?_, fun a => ?_⟩
    · split
      · rw [tl_recordData, tl_onTl_self]
      · split
        · rw [tl_recordData, tl_onTl_self]
        · rw [tl_onTl_self]
    · split
      · rw [memByte_recordData]; rfl
      · split
        · rw [memByte_recordData]; rfl
        · rfl
  rw [hv, endSlot_of_no_wait _ _ (by rw [htl]; exact hw)] at hc
  refine ⟨_, hc, ?_, ?_, ?_, hmem⟩
  · rw [tl_onTl_self]; exact mget_mset_self ..
  · rw [tl_onTl_self, slotEnded, htl]
  · rw [tl_onTl_self]; rfl

theorem streamDescStart_local {r : List Nat} (hd : d = mget {} (tl s t).slots i)
    (hrun : (tl s t).running = none) (hq : (tl s t).slotQ = i :: r) (hf : fenceState s (t / 128) = 0)
    (hok : streamCheck d = 0) (hloc : isLocalCopy t d = true) :
    Completes (.streamDescStart t) s (fun u =>
      (tl u t).running = some i ∧ (tl u t).slotQ = r ∧ MemKept s u ∧ RegsKept [] s u ∧ TilesKept t s u
        ∧ u.rest = s.rest) := by
  have hc : exec (.streamDescStart t) s = ok (onTl t (fun y => { y with slotQ := r, running := some i }) s) := by
    change execStreamDescStart t s = _
    simp only [execStreamDescStart, hrun, hq, ← hd, hf, hok, hloc, ne_eq, not_true_eq_false, if_true, if_false]
  refine ⟨_, hc, ?_, ?_, fun _ => rfl, fun _ _ => rfl, fun k hk => tl_onTl_ne _ _ hk, rfl⟩
  · rw [tl_onTl_self]
  · rw [tl_onTl_self]

-- A range of a tile's SRAM

section
variable {off n : Nat} (ht : t < 512) (hn : 0 < n) (hin : off + n ≤ 0x200000)
include ht hn hin

omit hn hin in
theorem partOf_sramAddr (h : off < 0x200000) : partOf (sramAddr t off) = some (t / 128) := by
  have h1 : ¬ sramAddr t off < 4 * 0x1800000000 := by simp only [sramAddr]; omega
  have h2 : 0x7F0000000000 ≤ sramAddr t off ∧ sramAddr t off < 0x7F1300000000
      ∧ sramAddr t off % 0x100000000 < 0x40000000 := by simp only [sramAddr]; omega
  have h3 : sramAddr t off % 0x100000000 / 0x10000000 = t / 128 := by simp only [sramAddr]; omega
  rw [partOf, if_neg h1, if_pos h2, h3]

omit hn hin in
theorem regionOf_sramAddr (h : off < 0x200000) : regionOf s (sramAddr t off) = some (.sram 0 t off) := by
  have h1 : ¬ sramAddr t off < 4 * 0x1800000000 := by simp only [sramAddr]; omega
  have h2 : 0x7F0000000000 ≤ sramAddr t off ∧ sramAddr t off < 0x7F0040000000 := by simp only [sramAddr]; omega
  have h3 : (sramAddr t off - 0x7F0000000000) / 0x200000 = t := by simp only [sramAddr]; omega
  have h4 : sramAddr t off % 0x200000 = off := by simp only [sramAddr]; omega
  rw [regionOf, if_neg h1, if_pos h2, h3, h4]

/-- A range of a tile's SRAM is one range of the normal view (R28). -/
theorem accessRange_sramAddr : accessRange s (sramAddr t off) n = some (.sram 0 t off) := by
  have h : sramAddr t off + (n - 1) = sramAddr t (off + (n - 1)) := by simp only [sramAddr]; omega
  rw [accessRange, h, regionOf_sramAddr ht (by omega), regionOf_sramAddr ht (by omega)]
  rfl

omit ht in
/-- The banks of such a range, as the device and as its tile number them. -/
theorem mem_banksAt_sramAddr {g : Nat} (h : g ∈ banksAt (sramAddr t off) n) :
    g / 16 = t ∧ g % 16 ∈ banksOf off n := by
  refine ⟨banksAt_sram hin (by omega) h, ?_⟩
  simp only [banksAt, banksOf, bankOf, sramAddr, List.mem_map, List.mem_range] at h ⊢
  obtain ⟨j, hj, rfl⟩ := h
  exact ⟨j, by omega, by omega⟩

/-- What the stream engine of a tile finds at bytes of the tile's SRAM that the tile may use (R152, R156, R159). -/
theorem engineReach_own (huse : MayUse s t off n) (hf : fenceState s (t / 128) = 0) (hon : bankOn s t = true)
    (hwake : bankWaking s t = false) {y : Access} (haddr : y.addr = sramAddr t off) (hlen : y.len = n)
    (hagent : y.agent = t) (htenant : y.tenant = tileTenant s t) (hop : y.op = .read ∨ y.op = .write) :
    engineReach s y = .found (.sram 0 t off) := by
  obtain ⟨_, hbanks⟩ := huse
  have hfence : isFenced s y = false := by
    rw [isFenced, haddr, partOf_sramAddr ht (by omega)]; simp [hf]
  have hmax : max 1 y.len = n := by omega
  have hrange : rangeCheck s y = .ok (.sram 0 t off) := by
    rw [rangeCheck, haddr, hmax, accessRange_sramAddr ht hn hin]
    rcases hop with h | h <;> simp [badAtomic, badSize, h]
  have hwait : (banksAt (sramAddr t off) n).any
      (fun g => bankWaking s (g / 16) || handoverPending s (g / 16) (g % 16)) = false := by
    rw [List.any_eq_false]
    intro g hg
    obtain ⟨hgt, hgb⟩ := mem_banksAt_sramAddr hn hin hg
    simp [hgt, hwake, (hbanks _ hgb).1]
  have hoff : (banksAt (sramAddr t off) n).any (fun g => !bankOn s (g / 16)) = false := by
    rw [List.any_eq_false]
    intro g hg
    simp [(mem_banksAt_sramAddr hn hin hg).1, hon]
  have hown : (banksAt (sramAddr t off) n).all (fun g => owns s (g / 16) (g % 16) y.agent y.tenant) = true := by
    rw [List.all_eq_true]
    intro g hg
    obtain ⟨hgt, hgb⟩ := mem_banksAt_sramAddr hn hin hg
    rw [hgt, hagent, htenant, (hbanks _ hgb).2]
  have hmis : misaligned 0 y = false := by
    rcases hop with h | h <;> simp [misaligned, h]
  simp only [engineReach, hfence, hrange, hmax, hwait, hoff, hown, hmis, Bool.false_eq_true, if_false, Bool.not_true]

end

-- The engine's own reads and writes

/-- Bytes that show no error are read as memory holds them (R143). -/
theorem engineRead_of_clean {y : Access} {off : Nat}
    (h : ∀ u ∈ unitsOf (sramAddr t off) y.len, eccOf s u = .clean) :
    engineRead y (.sram 0 t off) s = (memBytes s (sramAddr t off) y.len, false, s) := by
  have hbad : poisonedIn s (sramAddr t off) y.len = [] :=
    List.filter_eq_nil_iff.2 fun u hu => by simp [h u hu]
  simp only [engineRead, Region.home, hbad, noteErrors_of_clean _ h, bne_self_eq_false, Bool.false_eq_true, if_false]

/-- A write over bytes that show no error is a plain write, after which they read new (R142, R143). -/
theorem engineWrite_of_clean {y : Access} {off : Nat} (hlen : y.data.length = y.len)
    (h : ∀ u ∈ unitsOf (sramAddr t off) y.len, eccOf s u = .clean) (hp : y.poison = false) :
    engineWrite y (.sram 0 t off) s
      = (false, settleBytes (sramAddr t off) y.len (writeMem true false (sramAddr t off) y.data s).2) := by
  have hnote : (rmwUnits true (sramAddr t off) y.len).foldl
      (fun s u => noteErrors (32 * u) 32 (accOcc s y stPoisoned) s) s = s := by
    refine List.foldlRecOn (motive := fun w => w = s) _ _ rfl fun w hw j hj => ?_
    subst hw
    refine noteErrors_of_clean _ fun k hk => ?_
    rw [unitsOf_unit, List.mem_singleton] at hk
    rw [hk]; exact h j (mem_rmwUnits hj)
  have hblocked : (writeMem true false (sramAddr t off) y.data s).1 = [] :=
    blockedIn_of_clean s true _ _ (by rwa [hlen])
  simp only [engineWrite, Region.home, beq_self_eq_true, hnote, viewBytes, if_true, hp, hblocked, bne_self_eq_false]

/-- A tile's record without what is still on its way to its SRAM. -/
def cleared (x : Tile) : Tile := { x with unsettled := [] }

theorem cleared_withUnsettled (y : Tile) (l : List Unsettled) : cleared { y with unsettled := l } = cleared y := rfl

/-- Bytes settled change only what is still on its way to tiles' SRAM. -/
theorem settleBytes_frame (a n : Nat) (s : State) :
    (∃ ts, settleBytes a n s = { s with tiles := ts }) ∧ ∀ m, cleared (tl (settleBytes a n s) m) = cleared (tl s m) := by
  refine List.foldlRecOn (motive := fun u => (∃ ts, u = { s with tiles := ts })
    ∧ ∀ m, cleared (tl u m) = cleared (tl s m)) _ _ ⟨⟨s.tiles, rfl⟩, fun _ => rfl⟩ ?_
  rintro _ ⟨⟨ts, rfl⟩, hts⟩ k _
  refine ⟨⟨_, rfl⟩, fun m => ?_⟩
  rw [← hts m]
  by_cases hm : m = k
  · subst hm
    rw [tl_onTl_self]; rfl
  · rw [tl_onTl_ne _ _ hm]

@[simp] theorem memByte_settleBytes (a n c : Nat) : memByte (settleBytes a n s) c = memByte s c := by
  obtain ⟨⟨ts, h⟩, _⟩ := settleBytes_frame a n s
  rw [h]; rfl

@[simp] theorem memByte_unsettle (off : Nat) (old : List Byte) (f : Until) (c : Nat) :
    memByte (unsettle t off old f s) c = memByte s c := rfl

-- One row

/-- What a copied row leaves: the bytes at their new place, the tile's record but for what is on its way to its SRAM. -/
structure RowCopied (t src dst n : Nat) (s v : State) : Prop where
  bytes : memBytes v (sramAddr t dst) n = memBytes s (sramAddr t src) n
  others : MemKeptBut (sramAddr t dst) n s v
  tile : cleared (tl v t) = cleared (tl s t)

theorem copyRow_found {a b : Nat} {ra rb : Region} {bs : List Byte}
    (hread : engineReach s (streamAccess s t .read a [] d.rowLen) = .found ra)
    (hgot : engineRead (streamAccess s t .read a [] d.rowLen) ra s = (bs, false, s))
    (hreach : engineReach s { streamAccess s t .write b bs d.rowLen with poison := false } = .found rb)
    (hwrite : engineWrite { streamAccess s t .write b bs d.rowLen with poison := false } rb s = (false, w)) :
    copyRow t i d none (a, b) (0, s)
      = (0, unsettle t (b - sramAddr t 0) (memBytes s (sramAddr t (b - sramAddr t 0)) d.rowLen) (.slot i) w) := by
  simp only [copyRow, hread, hgot, hreach, hwrite, Bool.false_eq_true, or_self, and_false, if_false]

/-- Bytes written where nothing shows an error, and what is on its way noted (R70, R142). -/
theorem rowCopied_write {src dst n : Nat} {bs old : List Byte} {f : Until} {k : Nat}
    (hlen : bs.length = n) (hbs : memBytes s (sramAddr t src) n = bs) (hqd : Quiet s t dst n) :
    RowCopied t src dst n s
      (unsettle t k old f (settleBytes (sramAddr t dst) n (writeMem true false (sramAddr t dst) bs s).2)) := by
  subst hlen
  refine ⟨?_, fun c hc => ?_, ?_⟩
  · refine (memBytes_congr (fun c => ?_) _ _).trans ((memBytes_writeMem true false hqd.1).trans hbs.symm)
    rw [memByte_unsettle, memByte_settleBytes]
  · rw [memByte_unsettle, memByte_settleBytes]
    exact memByte_writeMem_out s true false _ c bs hc
  · obtain ⟨m, e, hw⟩ := writeMem_frame true false (sramAddr t dst) bs s
    rw [unsettle, tl_onTl_self, hw]
    exact (cleared_withUnsettled _ _).trans ((settleBytes_frame _ _ _).2 t)

theorem copyRow_own {src dst n : Nat} (ht : t < 512) (hn : 0 < n) (hlen : d.rowLen = n) (hs : MayUse s t src n)
    (hd : MayUse s t dst n) (hqs : Quiet s t src n) (hqd : Quiet s t dst n) (hf : fenceState s (t / 128) = 0)
    (hon : bankOn s t = true) (hwake : bankWaking s t = false) :
    ∃ v, copyRow t i d none (sramAddr t src, sramAddr t dst) (0, s) = (0, v) ∧ RowCopied t src dst n s v := by
  have hread := engineReach_own ht hn hs.1 hs hf hon hwake
    (y := streamAccess s t .read (sramAddr t src) [] d.rowLen) rfl hlen rfl rfl (.inl rfl)
  have hgot := engineRead_of_clean (s := s) (t := t) (off := src)
    (y := streamAccess s t .read (sramAddr t src) [] d.rowLen) (by rw [streamAccess, hlen]; exact hqs.1)
  have hreach := engineReach_own ht hn hd.1 hd hf hon hwake
    (y := { streamAccess s t .write (sramAddr t dst) (memBytes s (sramAddr t src) d.rowLen) d.rowLen with
      poison := false }) rfl hlen rfl rfl (.inr rfl)
  have hwrite := engineWrite_of_clean (s := s) (t := t) (off := dst)
    (y := { streamAccess s t .write (sramAddr t dst) (memBytes s (sramAddr t src) d.rowLen) d.rowLen with
      poison := false }) (memBytes_length ..) (by rw [streamAccess, hlen]; exact hqd.1) rfl
  refine ⟨_, copyRow_found hread hgot hreach hwrite, ?_⟩
  rw [streamAccess, hlen]
  exact rowCopied_write (memBytes_length ..) rfl hqd

-- The end of a copy

theorem streamDescDone_copies {src dst n : Nat} (hdesc : d = mget {} (tl s t).slots i) (hw : (tl s t).wait = none)
    (hrun : (tl s t).running = some i) (hloc : isLocalCopy t d = true) (hrows : d.rows = 1) (hch : d.channel = none)
    (hlen : n = d.rowLen) (hn : 0 < n) (h0 : d.w0 = wd (sramAddr t src)) (h1 : d.w1 = wd (sramAddr t dst))
    (ht : t < 512) (hs : MayUse s t src n) (hd : MayUse s t dst n) (hqs : Quiet s t src n) (hqd : Quiet s t dst n)
    (hf : fenceState s (t / 128) = 0) (hon : bankOn s t = true) (hwake : bankWaking s t = false) :
    Completes (.streamDescDone t) s (fun u =>
      memBytes u (sramAddr t dst) n = memBytes s (sramAddr t src) n ∧ MemKeptBut (sramAddr t dst) n s u
        ∧ mget 0 (tl u t).slotStatus i = statusWord stOk 0 false false false ∧ (tl u t).running = none
        ∧ GKept t s u ∧ PKept t s u ∧ VKept t s u) := by
  have hlist : d.rowList = [(sramAddr t src, sramAddr t dst)] := by
    have ha : ∀ {off : Nat}, off + n ≤ 0x200000 → (wd (sramAddr t off)).toNat = sramAddr t off := fun h =>
      wd_toNat_of_lt (by simp only [sramAddr]; omega)
    simp only [Desc.rowList, hrows, h0, h1, ha hs.1, ha hd.1, List.range_one, List.map_cons, List.map_nil, Nat.zero_mul,
      Nat.add_zero]
  have hwaits : streamWaits s t d = false := by
    have hr := engineReach_own ht hn hs.1 hs hf hon hwake
      (y := streamAccess s t .read (sramAddr t src) [] d.rowLen) rfl hlen.symm rfl rfl (.inl rfl)
    have hwr := engineReach_own ht hn hd.1 hd hf hon hwake
      (y := streamAccess s t .write (sramAddr t dst) [] d.rowLen) rfl hlen.symm rfl rfl (.inr rfl)
    simp only [streamWaits, hlist, List.any_cons, List.any_nil, hr, hwr]
    rfl
  obtain ⟨v, hv, hbytes, hothers, htile⟩ :=
    copyRow_own (i := i) ht hn hlen.symm hs hd hqs hqd hf hon hwake
  have hc : exec (.streamDescDone t) s = ok (endSlot t i 0 false v) := by
    change execStreamDescDone t s = _
    simp only [execStreamDescDone, hrun, ← hdesc, hloc, hwaits, Bool.not_true, Bool.false_eq_true, or_self, if_false,
      copyLocal, hch, hlist, List.foldl_cons, List.foldl_nil, hv]
  have hfiles : (tl v t).files = (tl s t).files := by
    change (cleared (tl v t)).files = (cleared (tl s t)).files
    rw [htile]
  rw [endSlot_of_no_wait _ _ (by rw [← hw]; change (cleared (tl v t)).wait = (cleared (tl s t)).wait; rw [htile])] at hc
  obtain ⟨hg, hp, hvk⟩ := kept_of_files (m := t) (s := s)
    (u := onTl t (slotEnded i (statusWord 0 0 false false false)) v)
    (by rw [tl_onTl_self]; exact hfiles)
  refine ⟨_, hc, hbytes, hothers, ?_, ?_, hg, hp, hvk⟩
  · rw [tl_onTl_self]; exact mget_mset_self ..
  · rw [tl_onTl_self]; rfl

theorem streamEngine : StreamEngine := fun _ _ _ _ hd hw =>
  ⟨fun _ hrun hq hf => ⟨streamDescStart_refused hd hw hrun hq hf, streamDescStart_local hd hrun hq hf⟩,
    fun _ _ _ hrun hloc hrows hch hlen hn _ h0 h1 ht _ _ hs hdst hqs hqd hf hon hwake =>
      streamDescDone_copies hd hw hrun hloc hrows hch hlen hn h0 h1 ht hs hdst hqs hqd hf hon hwake⟩

/-- Settles O12: the instructions by what they leave of the slots, the engine by what it finds and writes. -/
theorem streams : Obligations.Streams := ⟨streamInstructions, streamEngine⟩

end Sys2Proof.Machine
end

section
/-! PROOFS. Gangs (R94, R95, R99): what TILE.GANG reads after formation and dissolution, and the end of a gang's job. -/

namespace Sys2Proof.Machine

variable {s u v : State} {t m : Nat} {x : QArgs} {l : List Nat}

-- TILE.GANG

theorem tileGang_inj {a b : Nat} (h : a ≠ b) : Reg.tileGang a ≠ Reg.tileGang b := by
  simp only [Reg.tileGang, Reg.tileBase]; omega

theorem tileGang_ne_tileStatus (a b : Nat) : Reg.tileGang a ≠ Reg.tileStatus b := by
  simp only [Reg.tileGang, Reg.tileStatus, Reg.tileBase]; omega

theorem tileGang_ne_cycles (a b : Nat) : Reg.tileGang a ≠ Reg.cycles b := by
  simp only [Reg.tileGang, Reg.cycles, Reg.tileBase]; omega

theorem leaderOf_wrReg_ne {a : Nat} (w : Word) (h : Reg.tileGang m ≠ a) : leaderOf (wrReg a w s) m = leaderOf s m := by
  rw [leaderOf, leaderOf, rdF_wrReg_ne _ _ _ _ h]

theorem leaderOf_putG (d : BitVec 5) (w : Word) : leaderOf (putG t d w s) m = leaderOf s m := by
  rw [leaderOf, rdF, putG, rd_advance_ne (tileGang_ne_tileStatus m t) (tileGang_ne_cycles m t)]; rfl

theorem foldl_min_le (l : List Nat) (a : Nat) : l.foldl min a ≤ a := by
  induction l generalizing a with
  | nil => exact le_refl a
  | cons b l ih => exact (ih _).trans (Nat.min_le_left a b)

theorem lowest_lt (l : List Nat) : lowest l < 512 := by
  have := foldl_min_le l 511
  unfold lowest; omega

/-- The word that names a gang's leader, by its lowest field (R103). -/
theorem fld_gangWord (a b c : Nat) {g : Nat} (h : g < 512) : fld (wd (a * 2 ^ 40 + b * 2 ^ 30 + c * 2 ^ 21 + g)) 8 0 = g := by
  rw [fld_wd _ (by omega)]; omega

/-- After TILE.GANG of some tiles is written, each names the lowest of them; every other tile's leader stays. -/
theorem leaderOf_writeGang (l : List Nat) (s : State) (m : Nat) :
    leaderOf (writeGang l s) m = if m ∈ l then lowest l else leaderOf s m := by
  have key (g : List (Nat × Nat)) (s : State) :
      leaderOf (g.foldl (fun s ti => wrReg (Reg.tileGang ti.1)
        (wd (gangDelay l * 2 ^ 40 + l.length * 2 ^ 30 + ti.2 * 2 ^ 21 + lowest l)) s) s) m
        = if m ∈ g.map (·.1) then lowest l else leaderOf s m := by
    induction g generalizing s with
    | nil => rfl
    | cons p g ih =>
      rw [List.foldl_cons, ih, List.map_cons]
      by_cases hm : m ∈ g.map (·.1)
      · rw [if_pos hm, if_pos (List.mem_cons_of_mem _ hm)]
      · rw [if_neg hm]
        by_cases hp : m = p.1
        · subst hp
          rw [if_pos (by simp), leaderOf, rdF_wrReg_self, fld_gangWord _ _ _ (lowest_lt l)]
        · rw [if_neg (by simpa using ⟨hp, by simpa using hm⟩), leaderOf_wrReg_ne _ (tileGang_inj hp)]
  have h := key l.zipIdx s
  rwa [show l.zipIdx.map (·.1) = l from List.zipIdx_map_fst 0 l] at h

/-- Writes of TILE.GANG change registers alone. -/
theorem writeGang_frame (l : List Nat) (s : State) : ∃ r, writeGang l s = { s with regs := r } := by
  refine List.foldlRecOn (motive := fun w : State => ∃ r, w = { s with regs := r }) _ _ ⟨s.regs, rfl⟩ ?_
  rintro _ ⟨r, rfl⟩ p _
  exact ⟨_, rfl⟩

theorem soloGangs_frame (l : List Nat) (s : State) : ∃ r, soloGangs l s = { s with regs := r } := by
  refine List.foldlRecOn (motive := fun w : State => ∃ r, w = { s with regs := r }) _ _ ⟨s.regs, rfl⟩ ?_
  rintro w ⟨r, rfl⟩ m _
  exact writeGang_frame [m] { s with regs := r }

/-- Each of some tiles, made a gang of one, leads itself. -/
theorem leaderOf_soloGangs (hl : ∀ k ∈ l, k < 512) (hm : m ∈ l) : leaderOf (soloGangs l s) m = m := by
  have one (k : Nat) (hk : k < 512) (s : State) :
      leaderOf (writeGang [k] s) m = if m = k then m else leaderOf s m := by
    rw [leaderOf_writeGang]
    by_cases h : m = k
    · subst h; rw [if_pos List.mem_cons_self, if_pos rfl]; simp only [lowest, List.foldl_cons, List.foldl_nil]; omega
    · rw [if_neg (by simpa using h), if_neg h]
  have keep (l : List Nat) (hl : ∀ k ∈ l, k < 512) (s : State) (h : leaderOf s m = m) :
      leaderOf (soloGangs l s) m = m :=
    List.foldlRecOn (motive := fun w => leaderOf w m = m) _ _ h fun w hw k hk => by
      rw [one k (hl k hk)]; split
      · rfl
      · exact hw
  induction l generalizing s with
  | nil => cases hm
  | cons k l ih =>
    obtain ⟨hk, hl'⟩ := List.forall_mem_cons.1 hl
    by_cases h : m = k
    · exact keep l hl' (writeGang [k] s) (by rw [one k hk, if_pos h])
    · exact ih hl' ((List.mem_cons.1 hm).resolve_left h)

-- GANG.FORM and GANG.DISSOLVE

/-- A general register written by an instruction that has changed nothing of the tile's register files before. -/
theorem wroteG_putG {d : BitVec 5} {w : Word} (h : (tl v t).files = (tl s t).files) : WroteG t d w s (putG t d w v) := by
  obtain ⟨hg, _, _⟩ := kept_of_files h
  obtain ⟨⟨hset, hother⟩, _⟩ := putG_done v t d w
  exact ⟨hset, fun r hr => (hother r hr).trans (hg r)⟩

/-- What the answer of GANG.FORM is (R94). -/
def formed (r : Option Nat) : Word := match r with | some g => wd g | none => wd (2 ^ 64 - 1)

/-- The entries of a list of tiles that lies in SRAM (R94). -/
def entriesOf (n : Nat) (bs : List Byte) : List Nat := (List.range n).map (fun i => leNat ((bs.drop (2 * i)).take 2))

theorem exec_gangForm {off n : Nat} (hr : Runs s t x.pn x.pg [x.a.toNat, x.b.toNat])
    (hn : Named x { d := x.d, a := x.a, b := x.b, sub := 1 }) (hoff : off = (gv s t x.a).toNat)
    (hlen : n = (gv s t x.b).toNat) (hmay : MayAccess s t 4 off (2 * n)) (hq : Quiet s t off (2 * n)) :
    ∃ b, (∀ g, g / 16 ≠ t → mget {} b g = mget {} s.banks g) ∧ exec (.gangForm t x) s
      = ok (putG t x.d
          (formed (formGang (tileTenant s t) (entriesOf n (memBytes s (sramAddr t off) (2 * n))) (admitted t b s)).1)
          (formGang (tileTenant s t) (entriesOf n (memBytes s (sramAddr t off) (2 * n))) (admitted t b s)).2) := by
  have hc : exec (.gangForm t x) s
      = ok (qissue t x { d := x.d, a := x.a, b := x.b, sub := 1 } false [x.a.toNat, x.b.toNat] _ s) := rfl
  rw [qissue_runs _ hr hn rfl] at hc
  simp only [← hoff, ← hlen, withLoad] at hc
  obtain ⟨b, hb, hbanks⟩ := withLocal_granted (r := [(off, 2 * n)]) false false _ hmay.2.2 (by simpa using hmay)
  rw [hb, loadGranted_of_quiet _ (hq.admitted b), memBytes_admitted] at hc
  refine ⟨b, hbanks, hc.trans ?_⟩
  rfl

theorem formGang_of_idle {e : List Nat} {k : Nat} (hne : flatten s e ≠ []) (hlen : (flatten s e).length ≤ 512)
    (he : ∀ a ∈ e, a < 512) (hm : ∀ a ∈ flatten s e, tileState s a = 0 ∧ tileTenant s a = k) :
    formGang k e s = (some (lowest (flatten s e)), writeGang (flatten s e) s) := by
  refine if_neg ?_
  simp only [hne, false_or, not_or, Nat.not_lt, hlen, true_and, List.any_eq_true, decide_eq_true_eq, not_exists, not_and,
    Nat.not_le, Bool.or_eq_true, bne_iff_ne, ne_eq, not_not]
  exact ⟨he, hm⟩

theorem formGang_refused {e : List Nat} {k : Nat} (h : flatten s e = [] ∨ (∃ a ∈ e, 512 ≤ a)
    ∨ ∃ a ∈ flatten s e, tileState s a ≠ 0 ∨ tileTenant s a ≠ k) : formGang k e s = (none, s) := by
  refine if_pos ?_
  simp only [List.any_eq_true, decide_eq_true_eq, Bool.or_eq_true, bne_iff_ne]
  rcases h with h | h | h
  · exact .inl h
  · exact .inr (.inr (.inl h))
  · exact .inr (.inr (.inr h))

theorem dissolve_of_idle {g k : Nat} (hl : l = membersOf s g) (hne : l ≠ [])
    (hm : ∀ a ∈ l, tileState s a = 0 ∧ tileTenant s a = k) : dissolve k g s = (true, soloGangs l s) := by
  have h : ¬ (l = [] ∨ l.any (fun t => tileState s t != 0 || tileTenant s t != k) = true) := by
    simp only [hne, false_or, List.any_eq_true, Bool.or_eq_true, bne_iff_ne, ne_eq, not_exists, not_and, not_or, not_not]
    exact hm
  simp only [dissolve, ← hl, if_neg h]

theorem dissolve_refused {g k : Nat} (hl : l = membersOf s g)
    (h : l = [] ∨ ∃ a ∈ l, tileState s a ≠ 0 ∨ tileTenant s a ≠ k) : dissolve k g s = (false, s) := by
  have h' : l = [] ∨ l.any (fun t => tileState s t != 0 || tileTenant s t != k) = true := by
    simpa only [List.any_eq_true, Bool.or_eq_true, bne_iff_ne] using h
  simp only [dissolve, ← hl, if_pos h']

theorem gangsFromTiles : GangsFromTiles := by
  refine ⟨fun t x s hr hn => ?_, fun t x s hr hn off n es l hoff hlen hmay hq hes hl => ?_, fun t x s hr hn l hl => ?_⟩
  · have hc : exec (.gangId t x) s = ok (qissue t x { d := x.d, sub := 0 } false [] _ s) := rfl
    rw [qissue_runs _ hr hn rfl] at hc
    obtain ⟨hg, hp, hv, _, hmoved, hmem⟩ := putG_done s t x.d (rd s (Reg.tileGang t))
    exact ⟨_, hc, hg, hp, hv, hmoved, hmem⟩
  · obtain ⟨b, hbanks, hc⟩ := exec_gangForm hr hn hoff hlen hmay hq
    have hes' : entriesOf n (memBytes s (sramAddr t off) (2 * n)) = es := hes.symm
    have hl' : flatten (admitted t b s) es = l := hl.symm
    rw [hes'] at hc
    have hfiles : (tl (admitted t b s) t).files = (tl s t).files := by rw [tl_admitted]; rfl
    constructor
    · rintro ⟨hne, hle, he, hm⟩
      rw [formGang_of_idle (by rwa [hl']) (by rwa [hl']) he (by rw [hl']; exact fun a ha => (hm a ha).2), hl'] at hc
      obtain ⟨r, hw⟩ := writeGang_frame l (admitted t b s)
      refine ⟨_, hc, wroteG_putG (by rw [hw]; exact hfiles), fun m hml => ?_, fun m _ hml => ?_, fun a => ?_⟩
      · rw [leaderOf_putG, leaderOf_writeGang, if_pos hml]
      · rw [leaderOf_putG, leaderOf_writeGang, if_neg hml]; rfl
      · rw [hw]; rfl
    · intro hbad
      rw [formGang_refused (by rw [hl']; exact hbad)] at hc
      refine ⟨_, hc, wroteG_putG hfiles, ⟨?_, hbanks⟩, fun _ => rfl⟩
      refine advance_movedOn { s with banks := b } t rfl rfl rfl (fun _ _ => rfl) fun k hk => ?_
      rw [tl_onTl_ne _ _ hk]; exact tl_onTl_ne { s with banks := b } _ hk
  · have hc : exec (.gangDissolve t x) s
        = ok (qissue t x { d := x.d, a := x.a, sub := 2 } false [x.a.toNat] _ s) := rfl
    rw [qissue_runs _ hr hn rfl] at hc
    constructor
    · rintro ⟨hne, hm⟩
      simp only [dissolve_of_idle hl hne hm, if_true] at hc
      obtain ⟨r, hw⟩ := soloGangs_frame l s
      refine ⟨_, hc, wroteG_putG (by rw [hw]; rfl), fun m hml => ?_, fun a => by rw [hw]; rfl⟩
      rw [leaderOf_putG]
      exact leaderOf_soloGangs (fun k hk => (mem_membersOf.1 (hl ▸ hk)).1) hml
    · intro hbad
      simp only [dissolve_refused hl hbad, Bool.false_eq_true, if_false] at hc
      refine ⟨_, hc, fun hd => ?_, fun m => ?_, fun _ => rfl⟩
      · obtain ⟨⟨hset, _⟩, _⟩ := putG_done (freeNext s).2 t x.d (if (freeNext s).1 = 0 then 1 else (freeNext s).1)
        rw [hset, if_neg hd]
        split
        · decide
        · assumption
      · rw [leaderOf_putG]; rfl

-- GANG.END

theorem membersOf_congr (h : ∀ m, leaderOf u m = leaderOf s m) (l : Nat) : membersOf u l = membersOf s l := by
  simp only [membersOf, h]

/-- One tile made IDLE, waiting for nothing, with no descriptor queued. -/
def idleMember (m : Nat) (s : State) : State :=
  s |> setTileState m 0 |> wrF (Reg.tileStatus m) 15 12 0
    |> onTl m (fun x => { x with
        wait := none, iq := [], br := [], asked := false, pend := [], slotQ := [], running := none })

theorem idleGang_eq (l : Nat) (s : State) : idleGang l s = (membersOf s l).foldl (fun s m => idleMember m s) s := rfl

theorem tileState_idleMember_self (s : State) : tileState (idleMember m s) m = 0 :=
  (rdF_wrF_other _ _ _ _ _ _ _ (by omega) (by omega) (by omega)).trans (rdF_wrF_self _ _ _ _ _ (by omega) (by omega))

theorem tileState_idleMember_ne {k : Nat} (h : m ≠ k) (s : State) : tileState (idleMember k s) m = tileState s m := by
  rw [idleMember, tileState_onTl, tileState, setTileState, rdF_wrF_ne _ _ _ _ _ _ (tileStatus_inj h),
    rdF_wrF_ne _ _ _ _ _ _ (tileStatus_inj h)]
  rfl

theorem tl_idleMember_ne {k : Nat} (h : m ≠ k) (s : State) : tl (idleMember k s) m = tl s m := by
  rw [idleMember, tl_onTl_ne _ _ h]; rfl

theorem files_idleMember (k : Nat) (s : State) : (tl (idleMember k s) m).files = (tl s m).files := by
  by_cases h : m = k
  · subst h; rw [idleMember, tl_onTl_self]; rfl
  · rw [tl_idleMember_ne h]

/-- Every member of a gang made idle is IDLE and waits for nothing. -/
theorem idle_idleGang {l : Nat} (hm : m ∈ membersOf s l) :
    tileState (idleGang l s) m = 0 ∧ (tl (idleGang l s) m).wait = none := by
  obtain ⟨w, _, hw⟩ := foldl_view (fun u => (tileState u m, (tl u m).wait)) (f := fun s m => idleMember m s)
    (nodup_membersOf s l) hm
    (fun u k _ hk => by simp only [tileState_idleMember_ne hk.symm, tl_idleMember_ne hk.symm]) s
  simp only [Prod.mk.injEq] at hw
  rw [idleGang_eq, hw.1, hw.2]
  exact ⟨tileState_idleMember_self w, by rw [idleMember, tl_onTl_self]⟩

theorem files_idleGang (l : Nat) (s : State) : (tl (idleGang l s) m).files = (tl s m).files :=
  foldl_keeps s (fun u => (tl u m).files) (fun s k => idleMember k s) (membersOf s l) fun u k _ => files_idleMember k u

theorem memByte_idleGang (l : Nat) (s : State) (a : Nat) : memByte (idleGang l s) a = memByte s a :=
  foldl_keeps s (fun u => memByte u a) (fun s k => idleMember k s) (membersOf s l) fun _ _ _ => rfl

theorem host_idleGang (l : Nat) (s : State) : (idleGang l s).host = s.host :=
  foldl_keeps s (fun u => u.host) (fun s k => idleMember k s) (membersOf s l) fun _ _ _ => rfl

/-- A record of a queue changes that queue alone (R339). -/
theorem pushRecord_frame (q i : Nat) (c e : Word) (s : State) :
    ∃ h, pushRecord q i c e s = { s with host := h } ∧ h.jobs = s.host.jobs := by
  unfold pushRecord
  split
  · exact ⟨_, rfl, rfl⟩
  · exact ⟨s.host, rfl, rfl⟩

/-- What a gang's job leaves when it has ended (R99). -/
structure JobEnded (l : Nat) (s u : State) : Prop where
  idle : ∀ m ∈ membersOf s l, tileState u m = 0 ∧ (tl u m).wait = none
  job : jobOf u l = none
  files : ∀ m, (tl u m).files = (tl s m).files
  mem : MemKept s u

theorem jobEnded_idleGang {l : Nat} (h : jobOf s l = none) : JobEnded l s (idleGang l s) where
  idle _ hm := idle_idleGang hm
  job := by rw [jobOf, host_idleGang]; exact h
  files _ := files_idleGang l s
  mem a := memByte_idleGang l s a

theorem JobEnded.withHost {l : Nat} (h : JobEnded l s u) {x : HostIf} (hj : x.jobs = u.host.jobs) :
    JobEnded l s { u with host := x } where
  idle := h.idle
  job := by rw [← h.job, jobOf, jobOf, hj]
  files := h.files
  mem := h.mem

theorem JobEnded.dropped {l : Nat} (h : JobEnded l (dropJob l s) u) : JobEnded l s u where
  idle := h.idle
  job := h.job
  files := h.files
  mem := h.mem

/-- A job dropped, its gang idle, its record queued. -/
theorem jobEnded_drop (l q i : Nat) (c e : Word) (s : State) :
    JobEnded l s (pushRecord q i c e (idleGang l (dropJob l s))) := by
  obtain ⟨h, hp, hjobs⟩ := pushRecord_frame q i c e (idleGang l (dropJob l s))
  have hnone : jobOf (dropJob l s) l = none := by
    rw [jobOf, List.find?_eq_none]
    intro j hj
    have := (List.mem_filter.1 hj).2
    simpa using this
  rw [hp]
  exact (jobEnded_idleGang hnone).dropped.withHost hjobs

theorem jobEnded_endJob {l : Nat} {j : Job} (h : jobOf s l = some j) (status : Nat) :
    JobEnded l s (endJob l status s) := by
  rw [endJob, h]; exact jobEnded_drop ..

/-- A job, if there is one, ends with its gang. -/
theorem jobEnded_settleEnd (h : (membersOf s (leaderOf s t)).all
    (fun m => decide ((tl s m).wait = some .gangEnd) && !openOf s m 7) = true) :
    JobEnded (leaderOf s t) s (settleEnd t s) := by
  simp only [settleEnd, h, if_true]
  cases hj : jobOf s (leaderOf s t) with
  | none => exact jobEnded_idleGang hj
  | some j => exact jobEnded_endJob hj _

theorem leaderOf_beginWait (kind : Nat) (w : Wait) : leaderOf (beginWait t kind w s) m = leaderOf s m := by
  rw [leaderOf, rdF, rd_beginWait_ne _ _ (tileGang_ne_tileStatus m t)]; rfl

theorem membersOf_beginWait (kind : Nat) (w : Wait) (l : Nat) : membersOf (beginWait t kind w s) l = membersOf s l := by
  exact membersOf_congr (fun _ => leaderOf_beginWait ..) l

theorem openOf_beginWait_any (kind : Nat) (w : Wait) (m mask : Nat) :
    openOf (beginWait t kind w s) m mask = openOf s m mask := by
  by_cases h : m = t
  · subst h; exact openOf_beginWait ..
  · simp only [openOf, tl_beginWait_ne _ _ h]; rfl

theorem gangEndEndsTheJob : GangEndEndsTheJob := by
  intro t x s hr hn ht
  have hc : exec (.gangEnd t x) s = ok (qissue t x { sub := 3 } false [] _ s) := rfl
  rw [qissue_runs _ hr hn rfl, settle_beginWait hr.1] at hc
  have hself : ∀ m, (tl (beginWait t 5 .gangEnd s) m).wait = some .gangEnd
      ↔ (m ≠ t → (tl s m).wait = some .gangEnd) := by
    intro m
    by_cases h : m = t
    · subst h; simp [tl_beginWait_self]
    · simp [tl_beginWait_ne _ _ h, h]
  have hall : (membersOf (beginWait t 5 .gangEnd s) (leaderOf (beginWait t 5 .gangEnd s) t)).all
      (fun m => decide ((tl (beginWait t 5 .gangEnd s) m).wait = some .gangEnd)
        && !openOf (beginWait t 5 .gangEnd s) m 7) = true
      ↔ ∀ m ∈ membersOf s (leaderOf s t), (m ≠ t → (tl s m).wait = some .gangEnd) ∧ openOf s m 7 = false := by
    simp only [leaderOf_beginWait, membersOf_beginWait, openOf_beginWait_any, List.all_eq_true, Bool.and_eq_true,
      decide_eq_true_eq, Bool.not_eq_true', hself]
  constructor
  · intro h
    have hend := jobEnded_settleEnd (hall.2 h)
    rw [leaderOf_beginWait] at hend
    refine ⟨_, hc, fun m hm => hend.idle m (by rwa [membersOf_beginWait]), hend.job, hend.mem, fun m => ?_⟩
    refine kept_of_files ((hend.files m).trans ?_)
    by_cases h : m = t
    · subst h; rw [tl_beginWait_self]; rfl
    · rw [tl_beginWait_ne _ _ h]
  · rintro ⟨m, hm, hbad⟩
    have hno : ¬ (membersOf (beginWait t 5 .gangEnd s) (leaderOf (beginWait t 5 .gangEnd s) t)).all
        (fun m => decide ((tl (beginWait t 5 .gangEnd s) m).wait = some .gangEnd)
          && !openOf (beginWait t 5 .gangEnd s) m 7) = true := by
      intro h
      obtain ⟨h1, h2⟩ := hall.1 h m hm
      rcases hbad with ⟨hne, hw⟩ | ho
      · exact hw (h1 hne)
      · simp [h2] at ho
    simp only [settleEnd, if_neg hno] at hc
    exact ⟨_, hc, waits_at_once (by decide) _⟩

/-- Settles O15: the instructions by what they write of TILE.GANG, the end of a job by what GANG.END finds. -/
theorem gangs : Obligations.Gangs := ⟨gangsFromTiles, gangEndEndsTheJob⟩

end Sys2Proof.Machine
end

section
/-! PROOFS. Tile control (R99, R102, R125): what a write of TILE.CTRL does to a gang, and a write of SR_SEED to a tile. -/

namespace Sys2Proof.Machine

variable {s u v : State} {t m : Nat} {who : Writer} {l : List Nat}

-- Writes of a tile's registers

theorem srSeed_ne_tileStatus (a b : Nat) : Reg.srSeed a ≠ Reg.tileStatus b := by
  simp only [Reg.srSeed, Reg.tileStatus, Reg.tileBase]; omega

/-- A register of a tile whose partition is in service is not refused (R396). -/
theorem regFenced_tile {k : Nat} (ht : t < 512) (hk : k < 0x1000) (hf : fenceState s (t / 128) = 0) :
    regFenced s (Reg.tileBase t + k) = false := by
  have hp : partOf (Reg.spaceBase + (Reg.tileBase t + k)) = some (t / 128) := by
    have h1 : ¬ Reg.spaceBase + (Reg.tileBase t + k) < 4 * 0x1800000000 := by
      simp only [Reg.spaceBase, Reg.tileBase]; omega
    have h2 : ¬ (0x7F0000000000 ≤ Reg.spaceBase + (Reg.tileBase t + k)
        ∧ Reg.spaceBase + (Reg.tileBase t + k) < 0x7F1300000000
        ∧ (Reg.spaceBase + (Reg.tileBase t + k)) % 0x100000000 < 0x40000000) := by
      simp only [Reg.spaceBase, Reg.tileBase]; omega
    have h3 : ¬ (Reg.spaceBase + 0x300000 ≤ Reg.spaceBase + (Reg.tileBase t + k)
        ∧ Reg.spaceBase + (Reg.tileBase t + k) < Reg.spaceBase + 0x700000) := by
      simp only [Reg.spaceBase, Reg.tileBase]; omega
    have h4 : Reg.spaceBase + 0x1000000 ≤ Reg.spaceBase + (Reg.tileBase t + k)
        ∧ Reg.spaceBase + (Reg.tileBase t + k) < Reg.spaceBase + 0x1200000 := by
      simp only [Reg.spaceBase, Reg.tileBase]; omega
    have h5 : (Reg.spaceBase + (Reg.tileBase t + k) - Reg.spaceBase - 0x1000000) / 0x80000 = t / 128 := by
      simp only [Reg.spaceBase, Reg.tileBase]; omega
    rw [partOf, if_neg h1, if_neg h2, if_neg h3, if_pos h4, h5]
  rw [regFenced, hp]; simp [hf]

theorem inService_of_not_fenced {a : Nat} (h : regFenced s a = false) (f : State → Nat × State) :
    inService a f s = f s := by simp [inService, h]

/-- What an admitted write of a register that is not logged does (R444, R446). -/
theorem answered_withRole_any {a : Nat} (h : mayWrite s .any who = true) (ha : skipsLog a = false)
    (f : State → Bool × State) : answered who a (withRole .any who a f s) = (f s).2 := by
  simp [answered, withRole, h, logOutcome, ha, needRole]

theorem skipsLog_tileReg (t k : Nat) : skipsLog (Reg.tileBase t + k) = false :=
  decide_eq_false (by simp only [Reg.tileBase, Reg.powerCap, Reg.coolant, Reg.fwShelf]; omega)

-- TILE.CTRL

section
variable (ht : t < 512) (hmay : mayWrite s .any who = true) (hf : fenceState s (t / 128) = 0) (h6 : tileState s t ≠ 6)
include ht hmay hf h6

/-- A write of TILE.CTRL with one command (R102). -/
theorem answered_tileCtrlWrite {w : Word} (hw : popCount (fld w 2 0) 3 ≤ 1) :
    answered who (Reg.tileCtrl t) (tileCtrlWrite who t w s)
      = (if bit w 0 then stopGang (leaderOf s t) s
         else if bit w 1 then resumeGang (leaderOf s t) s
         else if bit w 2 then abortGang (leaderOf s t) s else s) := by
  have h : ¬ (tileState s t = 6 ∨ 1 < popCount (fld w 2 0) 3) := by omega
  rw [tileCtrlWrite, inService_of_not_fenced (a := Reg.tileCtrl t) (regFenced_tile (k := 8) ht (by omega) hf),
    answered_withRole_any (a := Reg.tileCtrl t) hmay (skipsLog_tileReg t 8)]
  simp only [if_neg h, apply_ite Prod.snd]

/-- STOP (R99, R102). -/
theorem exec_tileStop : exec (.tileStop who t) s = ok (stopGang (leaderOf s t) s) :=
  congrArg ok (answered_tileCtrlWrite ht hmay hf h6 (w := 1) (by decide))

/-- RESUME (R99, R102). -/
theorem exec_tileResume : exec (.tileResume who t) s = ok (resumeGang (leaderOf s t) s) :=
  congrArg ok (answered_tileCtrlWrite ht hmay hf h6 (w := 2) (by decide))

/-- ABORT (R99, R102). -/
theorem exec_tileAbort : exec (.tileAbort who t) s = ok (abortGang (leaderOf s t) s) :=
  congrArg ok (answered_tileCtrlWrite ht hmay hf h6 (w := 4) (by decide))

end

-- STOP and RESUME

/-- A tile's run state set, and nothing else of TILE.STATUS. -/
theorem status_setTileState {n : Nat} (hn : n < 16) (m : Nat) (s : State) :
    tileState (setTileState m n s) m = n ∧ tileIndex (setTileState m n s) m = tileIndex s m :=
  ⟨rdF_wrF_fits s _ (by omega) (by omega) hn, rdF_wrF_other _ _ _ _ _ _ _ (by omega) (by omega) (by omega)⟩

theorem rd_setTileState_ne {k n : Nat} (h : m ≠ k) : rd (setTileState k n s) (Reg.tileStatus m) = rd s (Reg.tileStatus m) :=
  rd_wrF_ne _ _ _ _ (tileStatus_inj h)

theorem status_of_rd (h : rd u (Reg.tileStatus m) = rd s (Reg.tileStatus m)) :
    tileState u m = tileState s m ∧ tileIndex u m = tileIndex s m := by
  simp only [tileState, tileIndex, rdF, h, and_self]

/-- Run states changed for some tiles: their records and memory stay. -/
theorem runStates_frame (f : State → Nat → State) (l : List Nat)
    (hf : ∀ u, ∀ k ∈ l, ∃ r, f u k = { u with regs := r }) (s : State) : ∃ r, l.foldl f s = { s with regs := r } := by
  refine List.foldlRecOn (motive := fun w : State => ∃ r, w = { s with regs := r }) _ _ ⟨s.regs, rfl⟩ ?_
  rintro _ ⟨r, rfl⟩ k hk
  exact hf { s with regs := r } k hk

theorem stopGang_frame (l : Nat) (s : State) : ∃ r, stopGang l s = { s with regs := r } :=
  runStates_frame _ _ (fun u k _ => by split; exacts [⟨_, rfl⟩, ⟨u.regs, rfl⟩]) s

theorem status_stopGang {l : Nat} (hm : m ∈ membersOf s l) :
    tileState (stopGang l s) m = (if tileState s m = 3 then 4 else tileState s m)
      ∧ tileIndex (stopGang l s) m = tileIndex s m := by
  obtain ⟨w, hw, he⟩ := foldl_view (fun u => rd u (Reg.tileStatus m))
    (f := fun s m => if tileState s m = 3 then setTileState m 4 s else s) (nodup_membersOf s l) hm
    (fun u k _ hk => by
      split
      · exact rd_setTileState_ne hk.symm
      · rfl) s
  obtain ⟨h1, h2⟩ := status_of_rd he
  obtain ⟨h3, h4⟩ := status_of_rd hw
  refine ⟨h1.trans ?_, h2.trans ?_⟩
  · rw [← h3]
    by_cases h : tileState w m = 3
    · rw [if_pos h, if_pos h]; exact (status_setTileState (by omega) m w).1
    · rw [if_neg h, if_neg h]
  · rw [← h4]
    by_cases h : tileState w m = 3
    · rw [if_pos h]; exact (status_setTileState (by omega) m w).2
    · rw [if_neg h]

/-- A tile that waits for nothing goes on as it is when it is resumed. -/
theorem rewait_of_no_wait (h : (tl s m).wait = none) : rewait m s = s := by
  rw [rewait, h]; exact settle_of_no_wait h

/-- A gang of which none waits only changes its run states when it is resumed (R99). -/
theorem resumeGang_of_no_wait {l : Nat} (h : ∀ m ∈ membersOf s l, (tl s m).wait = none) :
    resumeGang l s = ((membersOf s l).filter (fun m => tileState s m = 4)).foldl (fun s m => setTileState m 3 s) s := by
  obtain ⟨r, hr⟩ := runStates_frame (fun s m => setTileState m 3 s)
    ((membersOf s l).filter (fun m => tileState s m = 4)) (fun _ _ _ => ⟨_, rfl⟩) s
  have hid (w : State) (hw : ∀ m ∈ membersOf s l, (tl w m).wait = none) :
      ((membersOf s l).filter (fun m => tileState s m = 4)).foldl (fun s m => rewait m s) w = w := by
    refine List.foldlRecOn (motive := fun w' => w' = w) _ _ rfl fun w' hw' k hk => ?_
    rw [hw', rewait_of_no_wait (hw k (List.mem_of_mem_filter hk))]
  unfold resumeGang
  exact hid _ (by rw [hr]; exact h)

theorem status_resumeGang {l : Nat} (h : ∀ m ∈ membersOf s l, (tl s m).wait = none) (hm : m ∈ membersOf s l) :
    tileState (resumeGang l s) m = (if tileState s m = 4 then 3 else tileState s m)
      ∧ tileIndex (resumeGang l s) m = tileIndex s m := by
  rw [resumeGang_of_no_wait h]
  by_cases h4 : tileState s m = 4
  · obtain ⟨w, hw, he⟩ := foldl_view (fun u => rd u (Reg.tileStatus m)) (f := fun s m => setTileState m 3 s)
      ((nodup_membersOf s l).filter _) (List.mem_filter (p := fun m => decide (tileState s m = 4)) |>.2 ⟨hm, decide_eq_true h4⟩)
      (fun u k _ hk => rd_setTileState_ne hk.symm) s
    obtain ⟨h1, h2⟩ := status_of_rd he
    obtain ⟨_, h6⟩ := status_of_rd hw
    obtain ⟨h7, h8⟩ := status_setTileState (n := 3) (by omega) m w
    exact ⟨by rw [if_pos h4, h1, h7], by rw [h2, h8, h6]⟩
  · have he := foldl_keeps s (fun u => rd u (Reg.tileStatus m)) (fun s m => setTileState m 3 s)
      ((membersOf s l).filter (fun m => tileState s m = 4)) fun u k hk =>
        rd_setTileState_ne (by rintro rfl; exact h4 (by simpa using (List.mem_filter.1 hk).2))
    obtain ⟨h1, h2⟩ := status_of_rd he
    exact ⟨by rw [if_neg h4, h1], h2⟩

-- ABORT

theorem JobEnded.withTables {l : Nat} {c : Map Cpl} {d : Coll} (h : JobEnded l { s with cpl := c, coll := d } u) :
    JobEnded l s u where
  idle := h.idle
  job := h.job
  files := h.files
  mem := h.mem

/-- The job of a gang, if there is one, ends aborted with its gang (R99). -/
theorem jobEnded_abortGang (l : Nat) (s : State) : JobEnded l s (abortGang l s) := by
  have hrel (g : List (Nat × Cpl)) (s : State) : ∃ c, g.foldl (fun s kv => release kv.1 s) s = { s with cpl := c } := by
    refine List.foldlRecOn (motive := fun w : State => ∃ c, w = { s with cpl := c }) _ _ ⟨s.cpl, rfl⟩ ?_
    rintro _ ⟨c, rfl⟩ kv _
    exact release_frame kv.1 { s with cpl := c }
  choose c hc using hrel
  simp only [abortGang, hc]
  split
  · next h => exact (jobEnded_idleGang h).withTables
  · exact (jobEnded_drop ..).withTables

/-- Settles O17: each command from what it writes of the gang's tiles. -/
theorem tileControl : Obligations.TileControl := by
  intro who t s ht hmay hf h6
  refine ⟨⟨_, exec_tileStop ht hmay hf h6, fun m hm => status_stopGang hm, fun m => ?_, fun a => ?_⟩,
    fun hw => ⟨_, exec_tileResume ht hmay hf h6, fun m hm => status_resumeGang hw hm, fun m => ?_, fun a => ?_⟩,
    ⟨_, exec_tileAbort ht hmay hf h6, ?_⟩, fun w => ?_⟩
  · obtain ⟨r, h⟩ := stopGang_frame (leaderOf s t) s
    rw [h]; rfl
  · obtain ⟨r, h⟩ := stopGang_frame (leaderOf s t) s
    rw [h]; rfl
  · obtain ⟨r, h⟩ := runStates_frame (fun s m => setTileState m 3 s)
      ((membersOf s (leaderOf s t)).filter (fun m => tileState s m = 4)) (fun _ _ _ => ⟨_, rfl⟩) s
    rw [resumeGang_of_no_wait hw, h]; rfl
  · obtain ⟨r, h⟩ := runStates_frame (fun s m => setTileState m 3 s)
      ((membersOf s (leaderOf s t)).filter (fun m => tileState s m = 4)) (fun _ _ _ => ⟨_, rfl⟩) s
    rw [resumeGang_of_no_wait hw, h]; rfl
  · have hend := jobEnded_abortGang (leaderOf s t) s
    exact ⟨hend.idle, hend.job, fun m => ⟨(kept_of_files (hend.files m)).1, (kept_of_files (hend.files m)).2.2⟩, hend.mem⟩
  · have hc : exec (.srSeedWrite who t w) s
        = ok (onTl t (fun x => { x with gen := seedState w }) (wrReg (Reg.srSeed t) w s)) := by
      change ok (answered who (Reg.srSeed t) (seedWrite who t w s)) = _
      rw [seedWrite, inService_of_not_fenced (a := Reg.srSeed t) (regFenced_tile (k := 0x30) ht (by omega) hf),
        withRoleDo,
        answered_withRole_any (a := Reg.srSeed t) hmay (skipsLog_tileReg t 0x30), if_neg h6]
    refine ⟨_, hc, ?_, ?_, fun k hk => ?_, fun r => ?_, fun _ => rfl⟩
    · rw [rd_onTl, rd_wrReg_self]
    · rw [tl_onTl_self]
    · rw [tl_onTl_ne _ _ hk]; rfl
    · rw [tl_onTl_self]; rfl

end Sys2Proof.Machine
end

section
/-! PROOFS. Barriers (R87, R88, R311): a tile joins an instance, and an instance ends for each of its members. -/

namespace Sys2Proof.Machine

variable {s u v : State} {t m : Nat} {k : BarKey} {b : BarInst}

-- Joining

/-- The same arrivals at the same barrier, whether it has been announced or not. -/
structure SameArrivals (b c : BarInst) : Prop where
  key : c.key = b.key
  epoch : c.epoch = b.epoch
  arrived : c.arrived = b.arrived
  last : c.last = b.last
  release : c.release = b.release

theorem SameArrivals.refl (b : BarInst) : SameArrivals b b := ⟨rfl, rfl, rfl, rfl, rfl⟩

/-- The instances of which one is announced hold the same arrivals. -/
theorem exists_sameArrivals_announced {l : List BarInst} (h : b ∈ l) (d : BarInst) (r : Nat) :
    ∃ c ∈ l.map (fun c => if c = d then { c with trel := some r } else c), SameArrivals b c := by
  refine ⟨_, List.mem_map_of_mem h, ?_⟩
  split
  · exact ⟨rfl, rfl, rfl, rfl, rfl⟩
  · exact .refl b

theorem openInst_frame (x : Group) (i : Inst) (s : State) :
    ∃ c, openInst x i s = { s with coll := c } ∧ c.bars = s.coll.bars := ⟨_, rfl, rfl⟩

theorem startArrivals_frame (g : Nat) (b : BarInst) (s : State) :
    ∃ c, startArrivals g b s = { s with coll := c } ∧ c.bars = s.coll.bars := by
  unfold startArrivals
  split
  · exact ⟨s.coll, rfl, rfl⟩
  · refine List.foldlRecOn (motive := fun w : State => ∃ c, w = { s with coll := c } ∧ c.bars = s.coll.bars) _ _
      ⟨s.coll, rfl, rfl⟩ ?_
    rintro _ ⟨c, rfl, hc⟩ p _
    exact ⟨_, rfl, hc⟩

/-- The last arrival at a barrier changes the collective state alone, in which the arrivals stay. -/
theorem barComplete_frame (d : BarInst) (s : State) : ∃ c, barComplete d s = { s with coll := c }
    ∧ ∀ b ∈ s.coll.bars, ∃ e ∈ c.bars, SameArrivals b e := by
  unfold barComplete
  split
  · exact ⟨_, rfl, fun b hb => exists_sameArrivals_announced hb ..⟩
  · exact ⟨_, rfl, fun b hb => exists_sameArrivals_announced hb ..⟩
  · next g _ =>
    obtain ⟨c, hc, hbars⟩ := startArrivals_frame g d s
    exact ⟨c, hc, fun b hb => ⟨b, hbars ▸ hb, .refl b⟩⟩

/-- What an arrival leaves: the tile waits, and the instance of its key counts it. -/
def Arrived (t : Nat) (k : BarKey) (e release d pd : Nat) (s u : State) : Prop :=
  (tl u t).wait = some (.bar k d pd) ∧ rdF u (Reg.tileStatus t) 15 12 = 2
    ∧ (∃ b ∈ u.coll.bars, b.key = k ∧ b.epoch = e ∧ t ∈ b.arrived ∧ b.last = now s ∧ release ≤ b.release)
    ∧ GKept t s u ∧ MemKept s u

/-- A tile that begins to wait at a barrier whose instances have been brought up to date. -/
theorem arrived_of_counted {c : Coll} {e release d pd : Nat} (hb : b ∈ c.bars) (hk : b.key = k) (he : b.epoch = e)
    (ht : t ∈ b.arrived) (hl : b.last = now s) (hr : release ≤ b.release) :
    Arrived t k e release d pd s
      (if barFull (beginWait t 2 (.bar k d pd) { s with coll := c }) b
       then barComplete b (beginWait t 2 (.bar k d pd) { s with coll := c })
       else beginWait t 2 (.bar k d pd) { s with coll := c }) := by
  obtain ⟨hw, hkind, _, _, hg, hm, _⟩ := waits_at_once (s := { s with coll := c }) (t := t) (kind := 2) (by decide)
    (.bar k d pd)
  split
  · obtain ⟨c', hc', hsame⟩ := barComplete_frame b (beginWait t 2 (.bar k d pd) { s with coll := c })
    obtain ⟨e', he', hs⟩ := hsame b hb
    rw [hc']
    exact ⟨hw, hkind, ⟨e', he', hs.key.trans hk, hs.epoch.trans he, hs.arrived ▸ ht, hs.last.trans hl,
      hs.release ▸ hr⟩, hg, hm⟩
  · exact ⟨hw, hkind, ⟨b, hb, hk, he, ht, hl, hr⟩, hg, hm⟩

/-- An arrival at a barrier of which no open instance is over, or of another count (R87, R88). -/
theorem arrived_arriveBar {e count release d pd : Nat}
    (hopen : ∀ b, openBar s k e = some b → now s ≤ b.deadline
      ∧ (match k with | .device _ _ => b.count != count | _ => false) = false) :
    Arrived t k e release d pd s (arriveBar t k e count release d pd s) := by
  cases ho : openBar s k e with
  | none =>
    simp only [arriveBar, ho]
    exact arrived_of_counted (List.mem_append_right _ (List.mem_singleton.2 rfl)) rfl rfl (List.mem_singleton.2 rfl) rfl
      (le_refl _)
  | some b =>
    obtain ⟨hdl, hcount⟩ := hopen b ho
    simp only [arriveBar, ho, if_neg (Nat.not_lt.2 hdl)]
    have hp := List.find?_some ho
    simp only [Bool.and_eq_true, beq_iff_eq] at hp
    obtain ⟨⟨⟨hkey, hepoch⟩, _⟩, _⟩ := hp
    rw [if_neg (by rw [Bool.not_eq_true]; exact hcount)]
    have hmem : { b with arrived := b.arrived ++ [t], last := now s, release := max b.release release }
        ∈ s.coll.bars.map (fun c => if c = b
            then { b with arrived := b.arrived ++ [t], last := now s, release := max b.release release } else c) := by
      have := List.mem_map_of_mem (f := fun c => if c = b
        then { b with arrived := b.arrived ++ [t], last := now s, release := max b.release release } else c)
        (List.mem_of_find?_eq_some ho)
      rwa [if_pos rfl] at this
    exact arrived_of_counted hmem hkey hepoch (List.mem_append_right _ (List.mem_singleton.2 rfl)) rfl (le_max_right _ _)

/-- BAR at each of its scopes (R82, R87). -/
theorem bar_completes {x : QArgs} {e : Nat} (hr : Runs s t x.pn x.pg [x.a.toNat, x.b.toNat, x.c.toNat])
    (hn : Named x { d := x.d, a := x.a, b := x.b, c := x.c, pd := x.pd, sub := x.sub })
    (hscope : (x.sub = 0 ∧ k = .gang (leaderOf s t) ∧ e = 0)
      ∨ (x.sub = 1 ∧ k = .device (tileTenant s t) ((gv s t x.a).toNat % 64) ∧ e = 0)
      ∨ (x.sub = 2 ∧ k = .group (gv s t x.a).toNat ∧ isTwinned s (tileTenant s t) = false ∧ (gv s t x.a).toNat < 4096
          ∧ (groupOf s (gv s t x.a).toNat).valid = true ∧ (groupOf s (gv s t x.a).toNat).tenant = tileTenant s t
          ∧ e = (groupOf s (gv s t x.a).toNat).epoch
          ∧ (posOf s (groupOf s (gv s t x.a).toNat) (leaderOf s t)).isSome = true))
    (hopen : ∀ b, openBar s k e = some b → now s ≤ b.deadline ∧ (x.sub = 1 → b.count = (gv s t x.b).toNat)) :
    Completes (.bar t x) s (Arrived t k e (gv s t x.c).toNat x.d.toNat x.pd.toNat s) := by
  have hc : exec (.bar t x) s = ok (qissue t x { d := x.d, a := x.a, b := x.b, c := x.c, pd := x.pd, sub := x.sub }
    (decide (2 < x.sub.toNat)) [x.a.toNat, x.b.toNat, x.c.toNat] _ s) := rfl
  rcases hscope with ⟨h, rfl, rfl⟩ | ⟨h, rfl, rfl⟩ | ⟨h, rfl, htwin, hid, hv, htenant, rfl, hpos⟩
  · rw [qissue_runs _ hr hn (by rw [h]; rfl)] at hc
    simp only [if_pos h] at hc
    exact ⟨_, hc, arrived_arriveBar fun b hb => ⟨(hopen b hb).1, rfl⟩⟩
  · rw [qissue_runs _ hr hn (by rw [h]; rfl)] at hc
    simp only [h, show ¬ (1 : BitVec 4) = 0 by decide, if_false, if_true] at hc
    exact ⟨_, hc, arrived_arriveBar fun b hb => ⟨(hopen b hb).1, by simp [(hopen b hb).2 h]⟩⟩
  · rw [qissue_runs _ hr hn (by rw [h]; rfl)] at hc
    simp only [h, show ¬ (2 : BitVec 4) = 0 by decide, show ¬ (2 : BitVec 4) = 1 by decide, htwin, hid, hv, htenant, hpos,
      if_false, Bool.false_eq_true, decide_true, beq_self_eq_true, Bool.and_self, if_true] at hc
    exact ⟨_, hc, arrived_arriveBar fun b hb => ⟨(hopen b hb).1, rfl⟩⟩

-- One member of several

/-- A function run for each of some tiles, of which its runs for others leave a tile as it is, and its own run makes
something true that further runs keep. -/
theorem foldl_reaches {f : State → Nat → State} {l : List Nat} (before after : State → Prop) (hm : m ∈ l)
    (hother : ∀ u k, k ≠ m → before u → before (f u k)) (hown : ∀ u, before u → after (f u m))
    (hkeep : ∀ u k, after u → after (f u k)) (h : before s) : after (l.foldl f s) := by
  induction l generalizing s with
  | nil => cases hm
  | cons k l ih =>
    rw [List.foldl_cons]
    by_cases hk : k = m
    · subst hk
      exact List.foldlRecOn (motive := after) _ _ (hown s h) fun u hu j _ => hkeep u j hu
    · exact ih ((List.mem_cons.1 hm).resolve_left (Ne.symm hk)) (hother s k hk h)

/-- What the end of a barrier reads and writes of a tile: its record and TILE.STATUS. -/
def statusView (m : Nat) (u : State) : Tile × Word := (tl u m, rd u (Reg.tileStatus m))

theorem statusView_eq : statusView m u = statusView m v ↔ tl u m = tl v m
    ∧ rd u (Reg.tileStatus m) = rd v (Reg.tileStatus m) := by
  simp only [statusView, Prod.mk.injEq]

theorem statusView_onTl_ne (f : Tile → Tile) (h : m ≠ t) : statusView m (onTl t f s) = statusView m s := by
  simp only [statusView, tl_onTl_ne _ _ h, rd_onTl]

theorem statusView_resume_ne (h : m ≠ t) : statusView m (resume t s) = statusView m s := by
  simp only [statusView, tl_resume_ne h, rd_resume_ne (tileStatus_inj h) (tileStatus_ne_cycles m t)
    (stallWait_ne_tileStatus t m).symm]

theorem WentOn.congr {s' u' : State} (h : WentOn m s u) (hs : statusView m s' = statusView m s)
    (hu : statusView m u' = statusView m u) : WentOn m s' u' := by
  obtain ⟨hw, hi, hst⟩ := h
  obtain ⟨_, hrs⟩ := statusView_eq.1 hs
  obtain ⟨htu, hru⟩ := statusView_eq.1 hu
  obtain ⟨h1, h2⟩ := status_of_rd hrs
  obtain ⟨h3, h4⟩ := status_of_rd hru
  exact ⟨by rw [htu, hw], by rw [h4, hi, h2], by rw [h3, hst, h1]⟩

/-- The end of a barrier for one tile: the released time, or none, for a tile that runs or is halted. -/
def endBarFor (trel : Option Nat) (s : State) (t : Nat) : State :=
  match (tl s t).wait with
  | some (.bar _ d pd) =>
    if tileState s t = 3 then (match trel with | some r => releaseMember t r d pd s | none => failMember t d pd s)
    else keepBarEnd t trel d pd s
  | _ => s

theorem releaseWaiters_eq (l : List Nat) (r : Nat) (s : State) :
    releaseWaiters l r s = l.foldl (endBarFor (some r)) s := rfl

theorem failWaiters_eq (l : List Nat) (s : State) : failWaiters l s = l.foldl (endBarFor none) s := rfl

/-- The end of a barrier changes no byte and no time. -/
theorem endBarFor_frame (trel : Option Nat) (s : State) (t : Nat) :
    now (endBarFor trel s t) = now s ∧ ∀ a, memByte (endBarFor trel s t) a = memByte s a := by
  unfold endBarFor
  split
  · split
    · cases trel <;> exact ⟨rfl, fun _ => rfl⟩
    · exact ⟨rfl, fun _ => rfl⟩
  · exact ⟨rfl, fun _ => rfl⟩

theorem statusView_endBarFor_ne (trel : Option Nat) (h : m ≠ t) :
    statusView m (endBarFor trel s t) = statusView m s := by
  unfold endBarFor
  split
  · split
    · cases trel with
      | none => exact (statusView_resume_ne h).trans (statusView_onTl_ne _ h)
      | some r =>
        exact (statusView_onTl_ne _ h).trans ((statusView_resume_ne h).trans (statusView_onTl_ne _ h))
    · exact statusView_onTl_ne _ h
  · rfl

/-- A tile that waits at no barrier is left alone. -/
theorem endBarFor_of_other (trel : Option Nat) (h : ∀ k d pd, (tl s t).wait ≠ some (.bar k d pd)) :
    endBarFor trel s t = s := by
  unfold endBarFor
  split
  · next h' => exact absurd h' (h _ _ _)
  · rfl

/-- What the end of a barrier leaves of a member that waits at it: one that runs goes on with its answer, a halted one
keeps it (R87, R88, R99). -/
structure BarOver (trel : Option Nat) (m d pd : Nat) (s u : State) : Prop where
  done : ∀ k d pd, (tl u m).wait ≠ some (.bar k d pd)
  runs : tileState s m = 3 → WentOn m s u
    ∧ (d ≠ 0 → greg (tl u m) d = (match trel with | some r => wd r | none => 0))
    ∧ (0 < pd → pd < 8 → preg (tl u m) pd = trel.isSome)
  halted : tileState s m ≠ 3 → (tl u m).wait = some (.barOver trel d pd) ∧ tileIndex u m = tileIndex s m
    ∧ GKept m s u ∧ PKept m s u

theorem BarOver.congr {trel : Option Nat} {d pd : Nat} {s' u' : State} (h : BarOver trel m d pd s u)
    (hs : statusView m s' = statusView m s) (hu : statusView m u' = statusView m u) : BarOver trel m d pd s' u' := by
  obtain ⟨hts, hrs⟩ := statusView_eq.1 hs
  obtain ⟨htu, hru⟩ := statusView_eq.1 hu
  obtain ⟨h1, h2⟩ := status_of_rd hrs
  obtain ⟨_, h4⟩ := status_of_rd hru
  refine ⟨by rw [htu]; exact h.done, fun hst => ?_, fun hst => ?_⟩
  · obtain ⟨hgo, hg, hp⟩ := h.runs (h1 ▸ hst)
    exact ⟨hgo.congr hs hu, by rw [htu]; exact hg, by rw [htu]; exact hp⟩
  · obtain ⟨hw, hi, hg, hp⟩ := h.halted (h1 ▸ hst)
    exact ⟨by rw [htu, hw], by rw [h4, hi, h2], fun r => by rw [htu, hts, hg r], fun r => by rw [htu, hts, hp r]⟩

theorem preg_setP_setG {d pd : Nat} {c : Word} {e : Bool} (y : Tile) (h0 : 0 < pd) (h8 : pd < 8) :
    preg (setP pd e (setG d c y)) pd = e := by
  rw [preg_setP _ _ h8, if_pos rfl]
  have : (pd == 0) = false := by simp; omega
  rw [this, Bool.false_or]

theorem greg_setP_setG {d pd : Nat} {c : Word} {e : Bool} (y : Tile) (h : d ≠ 0) :
    greg (setP pd e (setG d c y)) d = c := by rw [greg_setP, greg_setG_self _ _ h]

/-- A tile goes on from its barrier with its answer. -/
theorem barOver_resume {trel : Option Nat} {d pd : Nat} {c : Word}
    (hst : tileState s m = 3) (hc : c = (match trel with | some r => wd r | none => 0)) :
    BarOver trel m d pd s (resume m (onTl m (fun x => setP pd trel.isSome (setG d c x)) s)) where
  done k d pd := by rw [tl_resume_self]; exact nofun
  runs _ := by
    refine ⟨wentOn_resume rfl rfl, fun h => ?_, fun h0 h8 => ?_⟩
    · rw [greg_resume, tl_onTl_self, greg_setP_setG _ h, hc]
    · rw [preg_resume, tl_onTl_self, preg_setP_setG _ h0 h8]
  halted h := absurd hst h

/-- The governor's look at a release leaves the end of a barrier as it is (R369). -/
theorem BarOver.governRelease {trel : Option Nat} {d pd : Nat} (h : BarOver trel m d pd s u) (n : Nat)
    (hst : tileState s m = 3) : BarOver trel m d pd s (governRelease m n u) where
  done := by
    obtain ⟨f, hf⟩ := tl_governRelease_self (s := u) (t := m) n
    rw [hf]; exact h.done
  runs _ := by
    obtain ⟨hgo, hg, hp⟩ := h.runs hst
    obtain ⟨f, hf⟩ := tl_governRelease_self (s := u) (t := m) n
    exact ⟨wentOn_governRelease hgo, by rw [hf]; exact hg, by rw [hf]; exact hp⟩
  halted h := absurd hst h

theorem barOver_endBarFor (trel : Option Nat) {d pd : Nat} (hw : (tl s m).wait = some (.bar k d pd)) :
    BarOver trel m d pd s (endBarFor trel s m) := by
  by_cases hst : tileState s m = 3
  · simp only [endBarFor, hw, if_pos hst]
    cases trel with
    | none => exact barOver_resume hst rfl
    | some r => exact (barOver_resume (trel := some r) hst rfl).governRelease r hst
  · simp only [endBarFor, hw, if_neg hst, keepBarEnd]
    refine ⟨fun _ _ _ => by rw [tl_onTl_self]; exact nofun, fun h => absurd h hst, fun _ => ⟨?_, rfl, fun r => ?_, fun r => ?_⟩⟩
    · rw [tl_onTl_self]
    · rw [tl_onTl_self]; rfl
    · rw [tl_onTl_self]; rfl

/-- A barrier that ends is over for each member that waits at it. -/
theorem barOver_foldl (trel : Option Nat) {d pd : Nat} {l : List Nat} (hm : m ∈ l)
    (hw : (tl s m).wait = some (.bar k d pd)) : BarOver trel m d pd s (l.foldl (endBarFor trel) s) := by
  refine foldl_reaches (fun u => statusView m u = statusView m s) (BarOver trel m d pd s) hm
    (fun u j hj hu => (statusView_endBarFor_ne trel hj.symm).trans hu) (fun u hu => ?_) (fun u j hu => ?_) rfl
  · have hwu : (tl u m).wait = some (.bar k d pd) := by rw [(statusView_eq.1 hu).1, hw]
    exact (barOver_endBarFor trel hwu).congr hu.symm rfl
  · by_cases hj : j = m
    · subst hj; rwa [endBarFor_of_other trel hu.done]
    · exact hu.congr rfl (statusView_endBarFor_ne trel (Ne.symm hj))

theorem foldl_endBarFor_frame (trel : Option Nat) (l : List Nat) (s : State) :
    now (l.foldl (endBarFor trel) s) = now s ∧ MemKept s (l.foldl (endBarFor trel) s) :=
  List.foldlRecOn (motive := fun w => now w = now s ∧ MemKept s w) _ _ ⟨rfl, fun _ => rfl⟩ fun u hu j _ => by
    obtain ⟨h1, h2⟩ := endBarFor_frame trel u j
    exact ⟨h1.trans hu.1, fun a => (h2 a).trans (hu.2 a)⟩

/-- Members of a barrier that ends, from a state in which the tiles and memory are as before. -/
theorem endBar_spec (trel : Option Nat) (l : List Nat) (hview : ∀ m, statusView m s = statusView m v)
    (hmem : MemKept s v) :
    now (l.foldl (endBarFor trel) v) = now v ∧ MemKept s (l.foldl (endBarFor trel) v)
      ∧ ∀ m ∈ l, ∀ k d pd, (tl s m).wait = some (.bar k d pd) →
          BarOver trel m d pd s (l.foldl (endBarFor trel) v) := by
  obtain ⟨h1, h2⟩ := foldl_endBarFor_frame trel l v
  refine ⟨h1, fun a => (h2 a).trans (hmem a), fun m hm k d pd hw => ?_⟩
  exact (barOver_foldl trel hm (by rw [← (statusView_eq.1 (hview m)).1]; exact hw)).congr (hview m) rfl

theorem statusView_clockTo (n : Nat) : statusView m (clockTo n s) = statusView m s := by
  simp only [statusView, tl_clockTo, rd_clockTo]

-- The end of a barrier

theorem barRelease_completes {r : Nat}
    (hf : s.coll.bars.find? (fun b => b.key == k && b.trel != none) = some b) (hb : b.trel = some r) (hr : r < 2 ^ 64) :
    Completes (.barRelease k) s (fun u => r ≤ now u ∧ MemKept s u
      ∧ ∀ m ∈ b.arrived, ∀ k' d pd, (tl s m).wait = some (.bar k' d pd) →
          (tileState s m = 3 →
              WentOn m s u ∧ (d ≠ 0 → greg (tl u m) d = wd r) ∧ (pd < 8 → preg (tl u m) pd = true))
            ∧ (tileState s m ≠ 3 → (tl u m).wait = some (.barOver (some r) d pd)
                ∧ tileIndex u m = tileIndex s m ∧ GKept m s u ∧ PKept m s u)) := by
  have hc : exec (.barRelease k) s = ok (b.arrived.foldl (endBarFor (some r))
      (clockTo r { s with coll := { s.coll with bars := s.coll.bars.erase b } })) := by
    change execBarRelease k s = _
    simp only [execBarRelease, hf, hb, Option.getD_some, releaseWaiters_eq]
  obtain ⟨h1, h2, h3⟩ := endBar_spec (s := s) (some r) b.arrived
    (v := clockTo r { s with coll := { s.coll with bars := s.coll.bars.erase b } })
    (fun m => by rw [statusView_clockTo]; rfl) (fun a => memByte_clockTo r a)
  refine ⟨_, hc, by rw [h1]; exact now_clockTo _ r hr, h2, fun m hm k' d pd hw => ?_⟩
  have h := h3 m hm k' d pd hw
  refine ⟨fun hst => ?_, h.halted⟩
  obtain ⟨hgo, hg, hp⟩ := h.runs hst
  refine ⟨hgo, hg, fun h8 => ?_⟩
  rcases Nat.eq_zero_or_pos pd with rfl | h0
  · rfl
  · exact hp h0 h8

/-- An instance of a key that is not released in time. -/
def expires (k : BarKey) (b : BarInst) : Bool :=
  b.key == k && !(match b.trel with | some r => decide (r ≤ b.deadline) | none => false)

theorem barDeadlineExpiry_completes (hk : ∀ g, k ≠ .group g) (hf : s.coll.bars.find? (expires k) = some b)
    (hd : b.deadline < 2 ^ 64) :
    Completes (.barDeadlineExpiry k) s (fun u => b.deadline ≤ now u ∧ MemKept s u
      ∧ ∀ m ∈ b.arrived, ∀ k' d pd, (tl s m).wait = some (.bar k' d pd) →
          (tileState s m = 3 →
              WentOn m s u ∧ greg (tl u m) d = 0 ∧ (0 < pd → pd < 8 → preg (tl u m) pd = false))
            ∧ (tileState s m ≠ 3 → (tl u m).wait = some (.barOver none d pd)
                ∧ tileIndex u m = tileIndex s m ∧ GKept m s u ∧ PKept m s u)) := by
  have hc : exec (.barDeadlineExpiry k) s = ok (failBar b (clockTo b.deadline s)) := by
    cases k with
    | gang l =>
      have he : exec (.barDeadlineExpiry (.gang l)) s = ok (match s.coll.bars.find? (expires (.gang l)) with
        | some b => failBar b (clockTo b.deadline s)
        | none => s) := rfl
      rw [he, hf]
    | device a c =>
      have he : exec (.barDeadlineExpiry (.device a c)) s = ok (match s.coll.bars.find? (expires (.device a c)) with
        | some b => failBar b (clockTo b.deadline s)
        | none => s) := rfl
      rw [he, hf]
    | group g => exact absurd rfl (hk g)
  obtain ⟨h1, h2, h3⟩ := endBar_spec (s := s) none b.arrived
    (v := { clockTo b.deadline s with coll :=
      { (clockTo b.deadline s).coll with bars := (clockTo b.deadline s).coll.bars.erase b } })
    (fun m => (statusView_clockTo b.deadline).symm) (fun a => memByte_clockTo b.deadline a)
  refine ⟨_, hc, ?_, h2, fun m hm k' d pd hw => ?_⟩
  · exact (now_clockTo s b.deadline hd).trans (le_of_eq h1.symm)
  · have h := h3 m hm k' d pd hw
    refine ⟨fun hst => ?_, h.halted⟩
    obtain ⟨hgo, hg, hp⟩ := h.runs hst
    refine ⟨hgo, ?_, hp⟩
    by_cases h0 : d = 0
    · subst h0; rfl
    · exact hg h0

-- The exchange of a group's arrivals

/-- Two records of one instance of a collective (R298). -/
def sameAs (i j : Inst) : Bool :=
  j.gid == i.gid && j.num == i.num && j.pos == i.pos && j.epoch == i.epoch && (j.sub == 6) == (i.sub == 6)

/-- Instances dropped: what is left is of none of them, and nothing else has changed. -/
theorem foldl_dropInst (l : List Inst) (s : State) :
    ∃ r, l.foldl (fun s j => dropInst j s) s = { s with coll := { s.coll with insts := r } }
      ∧ ∀ j ∈ r, j ∈ s.coll.insts ∧ ∀ i ∈ l, sameAs i j = false := by
  induction l generalizing s with
  | nil => exact ⟨s.coll.insts, rfl, fun j hj => ⟨hj, by simp⟩⟩
  | cons i l ih =>
    obtain ⟨r, hr, hkept⟩ := ih (dropInst i s)
    refine ⟨r, hr, fun j hj => ?_⟩
    obtain ⟨hin, hl⟩ := hkept j hj
    obtain ⟨hs, hi⟩ := List.mem_filter.1 hin
    exact ⟨hs, List.forall_mem_cons.2 ⟨by rw [Bool.not_eq_true'] at hi; exact hi, hl⟩⟩

/-- GROUP_BAR_RELEASE_COMPUTED (R311): the barrier is announced, its arrivals' instances are gone. -/
theorem announceGroupBar_spec {g last release : Nat} {x : Group} {i : Inst}
    (hb : s.coll.bars.find? (fun b => b.key == .group g && b.epoch == i.epoch && b.trel == none && barFull s b) = some b)
    (ht : now s ≤ max release (last + max 64 x.lead)) :
    MemKept s (announceGroupBar g x i last release s)
      ∧ (∃ c ∈ (announceGroupBar g x i last release s).coll.bars, c.key = .group g
          ∧ c.trel = some (max release (last + max 64 x.lead)))
      ∧ ∀ j ∈ (announceGroupBar g x i last release s).coll.insts,
          ¬ (j.sub = 6 ∧ j.gid = g ∧ j.epoch = i.epoch ∧ j.num = i.num) := by
  obtain ⟨r, hr, hkept⟩ := foldl_dropInst
    (s.coll.insts.filter (fun j => j.sub == 6 && j.gid == g && j.epoch == i.epoch && j.num == i.num)) s
  have hfind : { s with coll := { s.coll with insts := r } }.coll.bars.find? (fun b => b.key == BarKey.group g
      && b.epoch == i.epoch && b.trel == none && barFull { s with coll := { s.coll with insts := r } } b) = some b := hb
  have hnow : ¬ max release (last + max 64 x.lead) < now { s with coll := { s.coll with insts := r } } := Nat.not_lt.2 ht
  have he : announceGroupBar g x i last release s = { s with coll := { s.coll with
      insts := r
      bars := s.coll.bars.map (fun c =>
        if c = b then { c with trel := some (max release (last + max 64 x.lead)) } else c) } } := by
    simp only [announceGroupBar, hr, hfind, if_neg hnow]
  rw [he]
  refine ⟨fun _ => rfl, ⟨_, List.mem_map_of_mem (List.mem_of_find?_eq_some hb), ?_⟩, fun j hj hj' => ?_⟩
  · have hp := List.find?_some hb
    simp only [Bool.and_eq_true, beq_iff_eq] at hp
    rw [if_pos rfl]
    exact ⟨hp.1.1.1, rfl⟩
  · obtain ⟨hin, hno⟩ := hkept j hj
    obtain ⟨h6, hg, hep, hnum⟩ := hj'
    have := hno j (List.mem_filter.2 ⟨hin, by simp [h6, hg, hep, hnum]⟩)
    simp [sameAs] at this

/-- Settles O16: an arrival by the instance that counts it, each end of a barrier by what it leaves of one member. -/
theorem barriers : Obligations.Barriers := by
  refine ⟨fun t x s k e hr hn hscope hopen => bar_completes hr hn hscope hopen,
    fun k b r s hf hb hr => barRelease_completes hf hb hr,
    fun k b s hk hf hd => barDeadlineExpiry_completes hk hf hd,
    fun g i x b last release s hi hx hall harr hb ht => ?_⟩
  have hsame : (s.coll.insts.filter (fun j => j.sub == 6 && j.gid == g && j.epoch == i.epoch && j.num == i.num)).all
      (fun j => (arrivalsOf x j).isSome) = true := by
    rw [List.all_eq_true]
    intro j hj
    obtain ⟨hin, hp⟩ := List.mem_filter.1 hj
    simp only [Bool.and_eq_true, beq_iff_eq] at hp
    obtain ⟨⟨⟨h6, hg⟩, he⟩, hnum⟩ := hp
    exact hall j hin h6 hg he hnum
  have hc : exec (.groupBarReleaseComputed g) s = ok (announceGroupBar g x i last release s) := by
    change execGroupBarReleaseComputed g s = _
    simp only [execGroupBarReleaseComputed, hi, hx, hsame, harr, if_true]
  exact ⟨_, hc, announceGroupBar_spec hb ht⟩

end Sys2Proof.Machine
end

section
/-! PROOFS. What the audit log and a write under its role check leave of a register write (R444, R446), and bits and
fields of registers after one another's writes. -/

namespace Sys2Proof.Machine

variable {s u : State} {who : Writer} {c : Reg.Class} {a : Nat}

/-- A state whose audit log holds something else. -/
def withAudit (au : Map Audit) (n : Nat) (s : State) : State :=
  { s with boot := { s.boot with audit := au, auditNext := n } }

section
variable (au : Map Audit) (n : Nat) (s : State)

@[simp] theorem rd_withAudit (a : Nat) : rd (withAudit au n s) a = rd s a := rfl
@[simp] theorem rdF_withAudit (a hi lo : Nat) : rdF (withAudit au n s) a hi lo = rdF s a hi lo := rfl
@[simp] theorem rdB_withAudit (a i : Nat) : rdB (withAudit au n s) a i = rdB s a i := rfl
@[simp] theorem memByte_withAudit (a : Nat) : memByte (withAudit au n s) a = memByte s a := rfl

end

theorem Kept.withAudit {l : List Nat} (h : Kept l s u) (au : Map Audit) (n : Nat) : Kept l s (withAudit au n u) :=
  h.of_same rfl rfl

section
variable {l : List Nat} (h : Kept l s u)
include h

theorem Kept.withBoot (x : Boot) : Kept l s { u with boot := x } := h.of_same rfl rfl
theorem Kept.withTwin (x : Twin) : Kept l s { u with twin := x } := h.of_same rfl rfl
theorem Kept.withTim (x : Tim) : Kept l s { u with tim := x } := h.of_same rfl rfl
theorem Kept.withFlt (x : Flt) : Kept l s { u with flt := x } := h.of_same rfl rfl
theorem Kept.withNet (x : Net) : Kept l s { u with net := x } := h.of_same rfl rfl
theorem Kept.withHost (x : HostIf) : Kept l s { u with host := x } := h.of_same rfl rfl
theorem Kept.withColl (x : Coll) : Kept l s { u with coll := x } := h.of_same rfl rfl
theorem Kept.emit (o : Out) : Kept l s (emit o u) := h.of_same rfl rfl

end

/-- A write that is logged leaves one more entry in the audit log, and nothing else (R446). -/
theorem logWrite_frame (who : Writer) (a outcome : Nat) (old new : List Word) (s : State) :
    ∃ au, logWrite who a outcome old new s = withAudit au (s.boot.auditNext + 1) s := by
  cases who <;> exact ⟨_, rfl⟩

/-- Logging the outcome of a write touches the audit log alone, but for the three registers whose writes are counted. -/
theorem logOutcome_frame (c : Reg.Class) (who : Writer) (ha : skipsLog a = false) (b : Bool) (s : State) :
    ∃ au n, logOutcome c who a b s = withAudit au n s := by
  unfold logOutcome
  rw [if_neg (by simp [ha])]
  split
  · obtain ⟨au, h⟩ := logWrite_frame who a (if b then 0 else 2) [] [] s
    exact ⟨au, _, h⟩
  · exact ⟨s.boot.audit, s.boot.auditNext, rfl⟩

/-- What an admitted write does: its own effect, and the log of it (R444, R446). -/
theorem answered_withRole (h : mayWrite s c who = true) (ha : skipsLog a = false) (f : State → Bool × State) :
    ∃ au n, answered who a (withRole c who a f s) = withAudit au n (f s).2 := by
  obtain ⟨au, n, hl⟩ := logOutcome_frame c who ha (f s).1 (f s).2
  refine ⟨au, n, ?_⟩
  rw [← hl]
  simp [answered, withRole, h]

/-- A write that the log keeps adds one entry to it (R446). -/
theorem answered_withRole_logged (h : mayWrite s c who = true) (ha : skipsLog a = false) (hc : 2 ≤ needRole c)
    (hu : unlogged a = false) (f : State → Bool × State) :
    ∃ au, answered who a (withRole c who a f s) = withAudit au ((f s).2.boot.auditNext + 1) (f s).2 := by
  obtain ⟨au, hl⟩ := logWrite_frame who a (if (f s).1 then 0 else 2) [] [] (f s).2
  refine ⟨au, ?_⟩
  rw [← hl]
  simp [answered, withRole, h, logOutcome, ha, hc, hu]

/-- A bit that an event register's mask names is set. -/
theorem rdB_orReg_pow (s : State) (a : Nat) {i : Nat} (h : i < 64) : rdB (orReg a (2 ^ i) s) a i = true := by
  rw [rdB_orReg_self, bit_wd _ h, Nat.testBit_two_pow_self, Bool.or_true]

theorem rdB_orReg_ne {a b : Nat} (s : State) (m i : Nat) (h : b ≠ a) : rdB (orReg a m s) b i = rdB s b i := by
  rw [rdB, rd_orReg_ne s m h, rdB]

/-- A word cut to 64 bits from a field of a word. -/
theorem fld_wd_fld (v : Word) {hi : Nat} (h : hi < 64) : fld (wd (fld v hi 0)) hi 0 = fld v hi 0 := by
  rw [fld_wd _ h, Nat.pow_zero, Nat.div_one]
  exact Nat.mod_eq_of_lt (fld_lt v hi 0)

end Sys2Proof.Machine
end

section
/-! PROOFS. The switch of the pitch schedule (R57, R64, R212). -/

namespace Sys2Proof.Machine

variable {s u : State} {who : Writer} {v : Word}

/-- The entries of a schedule stand in other registers than its control and the events of time. -/
theorem portSched_congr (h : ∀ a, a ≠ Reg.schedCtrl → a ≠ Reg.timeEvent → rd u a = rd s a) (b : Bool) (n e : Nat) :
    portSched u b n e = portSched s b n e := by
  unfold portSched
  refine h _ ?_ ?_ <;> split <;>
    simp only [Reg.schedA, Reg.schedB, Reg.portBase, Reg.schedCtrl, Reg.timeEvent] <;> omega

theorem srcRes_congr (h : ∀ a, a ≠ Reg.schedCtrl → a ≠ Reg.timeEvent → rd u a = rd s a) (b : Bool) (r w : Nat) :
    srcRes u b r w = srcRes s b r w := by
  unfold srcRes
  refine h _ ?_ ?_ <;> split <;> simp only [Reg.resA, Reg.resB, Reg.schedCtrl, Reg.timeEvent] <;> omega

/-- Whether a version is well formed does not hang on the control of the schedule. -/
theorem versionFine_congr (h : ∀ a, a ≠ Reg.schedCtrl → a ≠ Reg.timeEvent → rd u a = rd s a) (b : Bool) :
    versionFine u b = versionFine s b := by
  have ho : ownDev u = ownDev s := by
    rw [ownDev, ownDev, rdF, rdF, h Reg.deviceId (by decide) (by decide)]
  have hv : ∀ n, validEntries u b n = validEntries s b n := fun n => by
    simp only [validEntries, portSched_congr h]
  simp only [versionFine, portFine, resFine, hv, srcRes_congr h, ho]

/-- A switch round at least four rounds ahead is taken (R57, R212). -/
theorem switchRound_accepted (hm : mayWrite s .installer who = true) (hr : now s / 1024 + 4 ≤ fld v 53 0)
    (hw : rdB s Reg.schedCtrl 1 = false) (ho : oldPitch s = 0) :
    Completes (.schedSwitchRoundWrite who v) s (fun u =>
      rdF u Reg.schedSwitchRound 53 0 = fld v 53 0 ∧ rdB u Reg.schedCtrl 1 = true ∧ schedActive u = schedActive s
        ∧ RegsKept [Reg.schedSwitchRound, Reg.schedCtrl] s u ∧ MemKept s u) := by
  have hn : ¬ (fld v 53 0 < now s / 1024 + 4 ∨ rdB s Reg.schedCtrl 1 = true ∨ oldPitch s ≠ 0) := by
    simp [hw, ho]; omega
  obtain ⟨au, hl⟩ := logWrite_frame who (if schedActive s then Reg.resA 0 0 else Reg.resB 0 0) 0
    (schedWords s (schedActive s)) (schedWords s (!schedActive s))
    (wrB Reg.schedCtrl 1 true (wrReg Reg.schedSwitchRound (wd (fld v 53 0)) s))
  have he : exec (.schedSwitchRoundWrite who v) s = ok (withAudit au (s.boot.auditNext + 1)
      (wrB Reg.schedCtrl 1 true (wrReg Reg.schedSwitchRound (wd (fld v 53 0)) s))) := by
    rw [show exec (.schedSwitchRoundWrite who v) s = ok (answered who Reg.schedSwitchRound (switchRoundWrite who v s)) from rfl]
    simp only [switchRoundWrite, hm, Bool.not_true, Bool.false_eq_true, if_false, if_neg hn, answered, if_true]
    rw [hl]; rfl
  have hk : Kept [Reg.schedSwitchRound, Reg.schedCtrl] s (withAudit au (s.boot.auditNext + 1)
      (wrB Reg.schedCtrl 1 true (wrReg Reg.schedSwitchRound (wd (fld v 53 0)) s))) :=
    (((Kept.refl _ s).wrReg (by simp) _).wrB (by simp) _ _).withAudit _ _
  refine ⟨_, he, ?_, ?_, ?_, hk.regs, hk.mem⟩
  · rw [rdF_withAudit, rdF_wrB_ne _ _ _ _ _ (by decide), rdF_wrReg_self, fld_wd_fld v (by decide)]
  · rw [rdB_withAudit, rdB_wrB_self _ _ _ _ (by decide)]
  · rw [schedActive, rdB_withAudit, rdB_wrB_other _ _ _ _ _ (by decide) (by decide), rdB_wrReg_ne _ _ _ (by decide),
      schedActive]

/-- Any other switch round is refused (R57, R212). -/
theorem switchRound_refused (hm : mayWrite s .installer who = true)
    (h : fld v 53 0 < now s / 1024 + 4 ∨ rdB s Reg.schedCtrl 1 = true ∨ oldPitch s ≠ 0) :
    Completes (.schedSwitchRoundWrite who v) s (fun u =>
      rdB u Reg.timeEvent 2 = true ∧ RegsKept [Reg.timeEvent] s u ∧ MemKept s u) := by
  obtain ⟨au, hl⟩ := logWrite_frame who Reg.schedSwitchRound 2 [] [] (orReg Reg.timeEvent (2 ^ 2) s)
  have he : exec (.schedSwitchRoundWrite who v) s
      = ok (withAudit au (s.boot.auditNext + 1) (orReg Reg.timeEvent (2 ^ 2) s)) := by
    rw [show exec (.schedSwitchRoundWrite who v) s = ok (answered who Reg.schedSwitchRound (switchRoundWrite who v s)) from rfl]
    simp only [switchRoundWrite, hm, Bool.not_true, Bool.false_eq_true, if_false, if_pos h, answered, if_true]
    rw [hl]; rfl
  have hk : Kept [Reg.timeEvent] s (withAudit au (s.boot.auditNext + 1) (orReg Reg.timeEvent (2 ^ 2) s)) :=
    ((Kept.refl _ s).orReg (by simp) _).withAudit _ _
  exact ⟨_, he, rdB_orReg_pow s _ (by decide), hk.regs, hk.mem⟩

/-- At its round the other version becomes active where it is well formed (R57, R64). -/
theorem schedSwitch_completes (hw : rdB s Reg.schedCtrl 1 = true) (hr : rdF s Reg.schedSwitchRound 53 0 * 1024 < 2 ^ 64) :
    Completes .schedSwitch s (fun u =>
      schedActive u = (if versionFine s (!schedActive s) then !schedActive s else schedActive s)
        ∧ rdB u Reg.schedCtrl 1 = false
        ∧ rdB u Reg.timeEvent (if versionFine s (!schedActive s) then 3 else 2) = true
        ∧ rdF s Reg.schedSwitchRound 53 0 * 1024 ≤ now u ∧ RegsKept [Reg.schedCtrl, Reg.timeEvent] s u ∧ MemKept s u) := by
  obtain ⟨x, hx⟩ : ∃ x, x = wrB Reg.schedCtrl 1 false (clockTo (rdF s Reg.schedSwitchRound 53 0 * 1024) s) := ⟨_, rfl⟩
  have hk : Kept [Reg.schedCtrl, Reg.timeEvent] s x := hx ▸ ((Kept.refl _ s).clockTo _).wrB (by simp) _ _
  have ha : schedActive x = schedActive s := by
    rw [hx, schedActive, rdB_wrB_other _ _ _ _ _ (by decide) (by decide), rdB, rd_clockTo]; rfl
  have h1 : rdB x Reg.schedCtrl 1 = false := by rw [hx, rdB_wrB_self _ _ _ _ (by decide)]
  have ht : rdF s Reg.schedSwitchRound 53 0 * 1024 ≤ now x := hx ▸ now_clockTo s _ hr
  have hv : versionFine x (!schedActive x) = versionFine s (!schedActive s) := by
    rw [ha]; exact versionFine_congr (fun a h h' => hk.regs a (by simp [h, h'])) _
  have he : exec .schedSwitch s = ok (if versionFine s (!schedActive s) then
      orReg Reg.timeEvent (2 ^ 3) (wrB Reg.schedCtrl 0 (!schedActive s) x) else orReg Reg.timeEvent (2 ^ 2) x) := by
    rw [show exec .schedSwitch s = execSchedSwitch s from rfl]
    simp only [execSchedSwitch, hw, if_true, ← hx]
    rw [hv, ha]
  refine ⟨_, he, ?_⟩
  split
  case isTrue hf =>
    have hk' : Kept [Reg.schedCtrl, Reg.timeEvent] s
        (orReg Reg.timeEvent (2 ^ 3) (wrB Reg.schedCtrl 0 (!schedActive s) x)) :=
      (hk.wrB (by simp) _ _).orReg (by simp) _
    refine ⟨?_, ?_, rdB_orReg_pow _ _ (by decide), ht, hk'.regs, hk'.mem⟩
    · rw [schedActive, rdB_orReg_ne _ _ _ (by decide), rdB_wrB_self _ _ _ _ (by decide)]
    · rw [rdB_orReg_ne _ _ _ (by decide), rdB_wrB_other _ _ _ _ _ (by decide) (by decide), h1]
  case isFalse hf =>
    have hk' := hk.orReg (a := Reg.timeEvent) (by simp) (2 ^ 2)
    refine ⟨?_, ?_, rdB_orReg_pow _ _ (by decide), ht, hk'.regs, hk'.mem⟩
    · rw [schedActive, rdB_orReg_ne _ _ _ (by decide)]; exact ha
    · rw [rdB_orReg_ne _ _ _ (by decide), h1]

/-- Settles O26: the three ends of a switch of the schedule. -/
theorem scheduleSwitch : Obligations.ScheduleSwitch :=
  ⟨fun _ _ _ hm => ⟨switchRound_accepted hm, switchRound_refused hm⟩, fun _ => schedSwitch_completes⟩

end Sys2Proof.Machine
end

section
/-! PROOFS. Window updates: the staged entries into the table, refusal while one drains, the commit (R211–R215). -/

namespace Sys2Proof.Machine

variable {s u : State} {who : Writer} {v : Word}

/-- A number fits 16 bits of a word again, counted on by one. -/
theorem rdF_addWrap_self (s : State) (a hi lo n : Nat) (h : lo ≤ hi) (h64 : hi < 64) :
    rdF (addWrap a hi lo n s) a hi lo = (rdF s a hi lo + n) % 2 ^ (hi + 1 - lo) := rdF_wrF_self s a hi lo _ h h64

theorem Kept.addWrap {l : List Nat} (h : Kept l s u) {a : Nat} (ha : a ∈ l) (hi lo n : Nat) :
    Kept l s (addWrap a hi lo n u) := h.wrReg ha _

/-- A field reads as before after a bit outside it was set. -/
theorem rdF_orReg_pow_other (s : State) (a : Nat) {i hi lo : Nat} (hd : hi < i ∨ i < lo) :
    rdF (orReg a (2 ^ i) s) a hi lo = rdF s a hi lo := by
  apply Nat.eq_of_testBit_eq
  intro j
  rw [rdF, rdF, fld_testBit, fld_testBit, rd_orReg_self]
  by_cases hj : j < hi + 1 - lo
  · have hne : i ≠ lo + j := by omega
    have hb : (wd (2 ^ i)).getLsbD (lo + j) = false := by
      rw [wd, BitVec.getLsbD_ofNat, Nat.testBit_two_pow_of_ne hne, Bool.and_false]
    rw [bit, BitVec.getLsbD_or, hb, Bool.or_false, bit]
  · simp [hj]

/-- A field of a word below a bit that is set in it. -/
theorem fld_setBit_lt (v : Word) {i hi : Nat} (lo : Nat) (b : Bool) (h : i < 64) (hd : hi < i) :
    fld (setBit v i b) hi lo = fld v hi lo := fld_setBit_other v i hi lo b h (Or.inl hd)

-- The table

/-- A step of the copy of staged entries changes the table alone. -/
theorem putWindows_frame (first : Nat) (l : List (Word × Word)) (s : State) :
    ∃ w, putWindows first l s = { s with rma := { s.rma with windows := w } } := by
  unfold putWindows
  induction l.zipIdx using List.reverseRecOn with
  | nil => exact ⟨s.rma.windows, rfl⟩
  | append_singleton l e ih =>
    obtain ⟨w, h⟩ := ih
    rw [List.foldl_append, h]
    exact ⟨_, rfl⟩

/-- What the copied entries leave of the table, entry by entry. -/
theorem winEntry_putWindows (first : Nat) (l : List (Word × Word)) (s : State) (j : Nat) :
    winEntry (putWindows first l s) j = if h : first ≤ j ∧ j < first + l.length then l[j - first] else winEntry s j := by
  unfold putWindows
  induction l using List.reverseRecOn generalizing j with
  | nil => simp
  | append_singleton l x ih =>
    rw [List.zipIdx_append, List.foldl_append]
    simp only [List.zipIdx_singleton, List.foldl_cons, List.foldl_nil]
    by_cases hj : j = first + l.length
    · subst hj
      simp [winEntry, mget_mset_self]
    · have := ih j
      simp only [winEntry] at this ⊢
      rw [mget_mset_ne _ _ _ (by simpa using hj), this]
      by_cases h : first ≤ j ∧ j < first + l.length
      · rw [dif_pos h, dif_pos ⟨h.1, by simp; omega⟩, List.getElem_append_left]
      · rw [dif_neg h, dif_neg (by simp; omega)]

-- GO

/-- The state that GO leaves: the control written, the table filled, the epoch changed, the update draining. -/
def updateWindows (first count : Nat) (s : State) : State :=
  wrF Reg.winUpdateStatus 1 0 1 (wrF Reg.winEpoch 32 32 (1 - winEpochNow s)
    (putWindows first ((List.range count).map (stagedWin s)) (wrReg Reg.winUpdateCtrl (wd (first * 2 ^ 16 + count)) s)))

theorem stagedWin_wrReg (a : Nat) (h : a < 0xE1000) (w : Word) (s : State) (i : Nat) :
    stagedWin (wrReg a w s) i = stagedWin s i := by
  have hi : ∀ k, Reg.winStage i k ≠ a := fun k => by simp only [Reg.winStage]; omega
  rw [stagedWin, rd_wrReg_ne _ _ (hi 0), rd_wrReg_ne _ _ (hi 1), stagedWin]

theorem tenantOk_wrReg {a : Nat} (h : Reg.capability ≠ a) (w : Word) (s : State) (t : Nat) :
    tenantOk (wrReg a w s) t = tenantOk s t := by rw [tenantOk, rdF_wrReg_ne _ _ _ _ h, tenantOk]

/-- An update whose staged entries pass every check is made (R212, R214). -/
theorem exec_windowUpdateGo (hm : mayWrite s .installer who = true) {first count : Nat} (hf : first = fld v 27 16)
    (hc : count = fld v 6 0) (h1 : rdF s Reg.winUpdateStatus 1 0 ≠ 1) (h0 : 0 < count) (h64 : count ≤ 64)
    (hl : first + count ≤ 4096)
    (hfine : ∀ i, i < count → winFine (stagedWin s i) = true
      ∧ (bit (stagedWin s i).1 63 = true → tenantOk s (fld (stagedWin s i).1 55 48) = true)) :
    ∃ au n, exec (.windowUpdateGo who v) s = ok (withAudit au n (updateWindows first count s)) := by
  have hs : (List.range count).map (stagedWin (wrReg Reg.winUpdateCtrl (wd (first * 2 ^ 16 + count)) s))
      = (List.range count).map (stagedWin s) :=
    List.map_congr_left fun i _ => stagedWin_wrReg _ (by decide) _ s i
  have hbad : ((List.range count).map (stagedWin s)).any (fun w => !winFine w) = false := by
    simp only [List.any_map, List.any_eq_false, List.mem_range, Function.comp, Bool.not_eq_true]
    intro i hi; rw [(hfine i hi).1]; rfl
  have hten : ((List.range count).map (stagedWin s)).any (fun w => bit w.1 63
      && !tenantOk (wrReg Reg.winUpdateCtrl (wd (first * 2 ^ 16 + count)) s) (fld w.1 55 48)) = false := by
    simp only [List.any_map, List.any_eq_false, List.mem_range, Function.comp, Bool.and_eq_true, Bool.not_eq_true',
      tenantOk_wrReg (show Reg.capability ≠ Reg.winUpdateCtrl by decide), not_and, Bool.not_eq_false]
    exact fun i hi => (hfine i hi).2
  have hu : windowUpdate first count (wrReg Reg.winUpdateCtrl (wd (first * 2 ^ 16 + count)) s)
      = (true, updateWindows first count s) := by
    have hr : ¬ (count = 0 ∨ 64 < count ∨ 4096 < first + count) := by omega
    simp only [windowUpdate, rdF_wrReg_ne s _ _ _ (show Reg.winUpdateStatus ≠ Reg.winUpdateCtrl by decide), if_neg h1,
      if_neg hr, hs, hbad, hten, Bool.false_eq_true, if_false]
    rw [updateWindows, winEpochNow, rdF_wrReg_ne s _ _ _ (show Reg.winEpoch ≠ Reg.winUpdateCtrl by decide), winEpochNow]
  have hb : bit (setBit v 63 true) 63 = true := bit_setBit_self v 63 true (by decide)
  obtain ⟨au, ha⟩ := logWrite_frame who (Reg.winStage 0 0) 0
    (winWords (wrReg Reg.winUpdateCtrl (wd (first * 2 ^ 16 + count)) s) first count)
    (winWords (updateWindows first count s) first count) (updateWindows first count s)
  refine ⟨au, (updateWindows first count s).boot.auditNext + 1, ?_⟩
  rw [show exec (.windowUpdateGo who v) s
    = ok (answered who Reg.winUpdateCtrl (windowCtrlWrite who (setBit v 63 true) s)) from rfl]
  simp only [windowCtrlWrite, hm, hb, fld_setBit_lt v _ true (show 63 < 64 by decide) (show 27 < 63 by decide),
    fld_setBit_lt v _ true (show 63 < 64 by decide) (show 6 < 63 by decide), ← hf, ← hc, hu, Bool.not_true,
    Bool.false_eq_true, if_false, if_true, answered]
  rw [ha]

/-- What an update leaves to be read (R212, R214). -/
theorem updateWindows_spec (first : Nat) {count : Nat} (s : State) :
    (∀ i, i < count → winEntry (updateWindows first count s) (first + i) = stagedWin s i)
      ∧ (∀ j, j < first ∨ first + count ≤ j → winEntry (updateWindows first count s) j = winEntry s j)
      ∧ winEpochNow (updateWindows first count s) = 1 - winEpochNow s
      ∧ rdF (updateWindows first count s) Reg.winUpdateStatus 1 0 = 1 ∧ MemKept s (updateWindows first count s) := by
  have hw : ∀ j, winEntry (updateWindows first count s) j
      = if h : first ≤ j ∧ j < first + count then stagedWin s (j - first) else winEntry s j := fun j => by
    have h := winEntry_putWindows first ((List.range count).map (stagedWin s))
      (wrReg Reg.winUpdateCtrl (wd (first * 2 ^ 16 + count)) s) j
    simp only [List.length_map, List.length_range, List.getElem_map, List.getElem_range] at h
    exact h
  obtain ⟨w, hp⟩ := putWindows_frame first ((List.range count).map (stagedWin s))
    (wrReg Reg.winUpdateCtrl (wd (first * 2 ^ 16 + count)) s)
  refine ⟨fun i hi => ?_, fun j hj => ?_, ?_, rdF_wrF_fits _ _ (by decide) (by decide) (by decide), fun a => ?_⟩
  · rw [hw, dif_pos ⟨by omega, by omega⟩, Nat.add_sub_cancel_left]
  · rw [hw, dif_neg (by omega)]
  · rw [updateWindows, winEpochNow, rdF_wrF_ne _ _ _ _ _ _ (by decide),
      rdF_wrF_fits _ _ (by decide) (by decide) (by omega)]
  · rw [updateWindows, hp]; rfl

/-- The state that a refused GO leaves. -/
def refusedWindows (v : Word) (s : State) : State :=
  orReg Reg.winUpdateStatus (2 ^ 2) (wrF Reg.winUpdateStatus 11 8 1
    (wrReg Reg.winUpdateCtrl (wd (fld v 27 16 * 2 ^ 16 + fld v 6 0)) s))

/-- A second update is refused while one drains (R213, R214). -/
theorem windowUpdateGo_refused (hm : mayWrite s .installer who = true) (h1 : rdF s Reg.winUpdateStatus 1 0 = 1) :
    Completes (.windowUpdateGo who v) s (fun u => u.rma.windows = s.rma.windows ∧ winEpochNow u = winEpochNow s
      ∧ rdF u Reg.winUpdateStatus 11 8 = 1 ∧ rdB u Reg.winUpdateStatus 2 = true ∧ MemKept s u) := by
  have hu : windowUpdate (fld v 27 16) (fld v 6 0) (wrReg Reg.winUpdateCtrl (wd (fld v 27 16 * 2 ^ 16 + fld v 6 0)) s)
      = (false, refusedWindows v s) := by
    simp only [windowUpdate, rdF_wrReg_ne s _ _ _ (show Reg.winUpdateStatus ≠ Reg.winUpdateCtrl by decide), if_pos h1]
    rfl
  have hw : rdF (refusedWindows v s) Reg.winUpdateStatus 11 8 = 1 := by
    rw [refusedWindows, rdF_orReg_pow_other _ _ (i := 2) (by decide),
      rdF_wrF_fits _ _ (by decide) (by decide) (by decide)]
  have hb : bit (setBit v 63 true) 63 = true := bit_setBit_self v 63 true (by decide)
  obtain ⟨au, ha⟩ := logWrite_frame who Reg.winUpdateCtrl 2 [] [] (refusedWindows v s)
  have he : exec (.windowUpdateGo who v) s = ok (withAudit au ((refusedWindows v s).boot.auditNext + 1) (refusedWindows v s)) := by
    rw [show exec (.windowUpdateGo who v) s
      = ok (answered who Reg.winUpdateCtrl (windowCtrlWrite who (setBit v 63 true) s)) from rfl]
    simp only [windowCtrlWrite, hm, hb, fld_setBit_lt v _ true (show 63 < 64 by decide) (show 27 < 63 by decide),
      fld_setBit_lt v _ true (show 63 < 64 by decide) (show 6 < 63 by decide), hu, hw, Bool.not_true,
      Bool.false_eq_true, if_false, if_true, answered, ha]
    rfl
  refine ⟨_, he, rfl, ?_, hw, rdB_orReg_pow _ _ (i := 2) (by decide), fun _ => rfl⟩
  rw [winEpochNow, rdF_withAudit, refusedWindows, rdF, rd_orReg_ne _ _ (by decide), rd_wrF_ne _ _ _ _ (by decide),
    rd_wrReg_ne _ _ (by decide)]
  rfl

-- The commit

/-- An update commits when no access of the old epoch waits (R212, R215). -/
theorem windowUpdateCommit_completes (h1 : rdF s Reg.winUpdateStatus 1 0 = 1) (h0 : oldAccesses s = 0) :
    Completes .windowUpdateCommit s (fun u => rdF u Reg.winUpdateStatus 1 0 = 2
      ∧ rdF u Reg.winUpdateStatus 63 48 = (rdF s Reg.winUpdateStatus 63 48 + 1) % 65536
      ∧ u.rma = s.rma ∧ RegsKept [Reg.winUpdateStatus] s u ∧ MemKept s u) := by
  have he : exec .windowUpdateCommit s
      = ok (addWrap Reg.winUpdateStatus 63 48 1 (wrF Reg.winUpdateStatus 1 0 2 s)) := by
    rw [show exec .windowUpdateCommit s = ok (windowCommit s) from rfl, windowCommit, if_pos ⟨h1, h0⟩]
  have hk : Kept [Reg.winUpdateStatus] s (addWrap Reg.winUpdateStatus 63 48 1 (wrF Reg.winUpdateStatus 1 0 2 s)) :=
    ((Kept.refl _ s).wrF (by simp) _ _ _).addWrap (by simp) _ _ _
  refine ⟨_, he, ?_, ?_, rfl, hk.regs, hk.mem⟩
  · rw [addWrap, rdF_wrF_other _ _ _ _ _ _ _ (by decide) (by decide) (by decide),
      rdF_wrF_fits _ _ (by decide) (by decide) (by decide)]
  · rw [rdF_addWrap_self _ _ _ _ _ (by decide) (by decide),
      rdF_wrF_other _ _ _ _ _ _ _ (by decide) (by decide) (by decide)]
    rfl

/-- Settles O33: an update is made, refused while one drains, committed. -/
theorem windowUpdates : Obligations.WindowUpdates := by
  refine ⟨fun who v s first count hm hf hc => ⟨fun h1 h0 h64 hl hfine => ?_, windowUpdateGo_refused hm⟩,
    fun _ => windowUpdateCommit_completes⟩
  obtain ⟨au, n, he⟩ := exec_windowUpdateGo hm hf hc h1 h0 h64 hl hfine
  exact ⟨_, he, updateWindows_spec first s⟩

end Sys2Proof.Machine
end

section
/-! PROOFS. Firmware update: the commands, the guards, the image as chunks, its verification (R447–R451, R456, R457). -/

namespace Sys2Proof.Machine

variable {s u : State} {who : Writer} {v : Word}

-- The commands of FWUPD.CTRL

/-- What an admitted write of FWUPD.CTRL asks for (R456). -/
def fwCommand (who : Writer) (v : Word) (s : State) : Bool × State :=
  if 1 < popCount (fld v 63 60) 4 then (false, orReg Reg.fwEvent 4 s)
  else if bit v 63 then startFw who s
  else if bit v 62 then activateFw s
  else if bit v 61 then (if fwBusy s then (true, abortFw 0 0 s) else (false, orReg Reg.fwEvent 4 s))
  else if bit v 60 then bootOther s else (true, s)

theorem answered_fwCtrl (hm : mayWrite s .installer who = true) (v : Word) :
    ∃ au n, answered who Reg.fwCtrl (fwCtrlWrite who v s) = withAudit au n (fwCommand who v s).2 := by
  simp only [fwCtrlWrite, if_pos hm]
  exact answered_withRole hm (by decide) (fwCommand who v)

theorem fwCommand_start : fwCommand who (wd (2 ^ 63)) s = startFw who s := by
  rw [fwCommand, if_neg (by decide), if_pos (by decide)]

theorem fwCommand_activate : fwCommand who (wd (2 ^ 62)) s = activateFw s := by
  rw [fwCommand, if_neg (by decide), if_neg (by decide), if_pos (by decide)]

theorem fwCommand_abort : fwCommand who (wd (2 ^ 61)) s
    = if fwBusy s then (true, abortFw 0 0 s) else (false, orReg Reg.fwEvent 4 s) := by
  rw [fwCommand, if_neg (by decide), if_neg (by decide), if_neg (by decide), if_pos (by decide)]

theorem fwCommand_bootOther : fwCommand who (wd (2 ^ 60)) s = bootOther s := by
  rw [fwCommand, if_neg (by decide), if_neg (by decide), if_neg (by decide), if_neg (by decide), if_pos (by decide)]

/-- A command that is admitted ends as its own meaning says. -/
theorem fwCommand_completes (hm : mayWrite s .installer who = true) {c : Instr} {v : Word} {post : State → Prop}
    (hc : exec c s = ok (answered who Reg.fwCtrl (fwCtrlWrite who v s)))
    (h : ∀ au n, post (withAudit au n (fwCommand who v s).2)) : Completes c s post := by
  obtain ⟨au, n, ha⟩ := answered_fwCtrl hm v
  exact ⟨_, hc.trans (congrArg ok ha), h au n⟩

-- Slots

@[simp] theorem rd_putSlot (b : Bool) (x : ImageSlot) (a : Nat) : rd (putSlot b x s) a = rd s a := rfl

theorem slotOf_putSlot (b : Bool) (x : ImageSlot) (s : State) : slotOf (putSlot b x s) b = x := by
  cases b <;> rfl

section
variable (b : Bool) (n : Nat) (s : State)

/-- A slot's state reads what was written into it. -/
theorem slotState_setSlotState_self (h : n < 16) : slotState (setSlotState b n s) b = n := by
  cases b <;> exact rdF_wrF_fits _ _ (by decide) (by decide) h

theorem slotState_setSlotState_ne (b' : Bool) (h : b' ≠ b) : slotState (setSlotState b n s) b' = slotState s b' := by
  cases b <;> cases b'
  case false.false => exact absurd rfl h
  case true.true => exact absurd rfl h
  case false.true => exact rdF_wrF_other _ _ _ _ _ _ _ (by decide) (by decide) (by decide)
  case true.false => exact rdF_wrF_other _ _ _ _ _ _ _ (by decide) (by decide) (by decide)

/-- The state of a slot lies in a field of its own. -/
theorem slotState_wrF_status {hi lo : Nat} (h : lo ≤ hi) (h64 : hi < 64) (hd : hi < 16 ∨ 23 < lo) (v : Nat) :
    slotState (wrF Reg.fwStatus hi lo v s) b = slotState s b := by
  cases b <;> exact rdF_wrF_other _ _ _ _ _ _ _ h h64 (by omega)

theorem slotState_wrReg_ne {a : Nat} (h : Reg.fwStatus ≠ a) (w : Word) : slotState (wrReg a w s) b = slotState s b := by
  cases b <;> exact rdF_wrReg_ne s w _ _ h

theorem rdF_setSlotState_status {hi lo : Nat} (hd : hi < 16 ∨ 23 < lo) :
    rdF (setSlotState b n s) Reg.fwStatus hi lo = rdF s Reg.fwStatus hi lo := by
  cases b <;> exact rdF_wrF_other _ _ _ _ _ _ _ (by decide) (by decide) (by omega)

@[simp] theorem bootB_setSlotState : bootB (setSlotState b n s) = bootB s := by
  cases b <;> exact rdB_wrF_other _ _ _ _ _ _ (by decide) (by decide) (by decide)

theorem rd_setSlotState_ne {a : Nat} (h : a ≠ Reg.fwStatus) : rd (setSlotState b n s) a = rd s a := by
  cases b <;> exact rd_wrF_ne _ _ _ _ h

/-- Setting the state of a slot writes FWUPD.STATUS alone. -/
theorem setSlotState_frame : ∃ w, setSlotState b n s = wrReg Reg.fwStatus w s := by
  cases b <;> exact ⟨_, rfl⟩

theorem bootB_wrF_status {hi lo : Nat} (h : lo ≤ hi) (h64 : hi < 64) (hd : hi < 15 ∨ 15 < lo) (v : Nat) :
    bootB (wrF Reg.fwStatus hi lo v s) = bootB s := rdB_wrF_other _ _ _ _ _ _ h h64 (by omega)

end

theorem Kept.setSlotState {l : List Nat} (h : Kept l s u) (hl : Reg.fwStatus ∈ l) (b : Bool) (n : Nat) :
    Kept l s (setSlotState b n u) := by
  obtain ⟨w, hw⟩ := setSlotState_frame b n u
  rw [hw]; exact h.wrReg hl w

theorem Kept.putSlot {l : List Nat} (h : Kept l s u) (b : Bool) (x : ImageSlot) : Kept l s (putSlot b x u) :=
  h.of_same rfl rfl

/-- The slot that an update writes goes by the cellar's state and the boot slot. -/
theorem fwSlot_congr (hc : rd u Reg.heartbeat = rd s Reg.heartbeat) (hb : bootB u = bootB s) : fwSlot u = fwSlot s := by
  rw [fwSlot, fwSlot, cellarState, cellarState, rdF, rdF, hc, hb]

/-- What a new image finds: its slot empty, nothing received, no child given up. -/
structure FwOpened (s u : State) : Prop where
  state : fwState u = 1
  slot : slotState u (fwSlot s) = 0
  same : fwSlot u = fwSlot s
  received : rdF u Reg.fwStatus 63 32 = 0
  next : u.boot.fwNext = 0
  out : u.out = s.out
  host : u.host = s.host
  kept : Kept [Reg.fwStatus, Reg.childFail] s u

theorem fwOpened_openFw (s : State) : FwOpened s (openFw s) := by
  obtain ⟨x, hx⟩ : ∃ x, x = putSlot (fwSlot s) {} { s with boot := { s.boot with
      fwNext := 0, fwAcked := [], fwSent := [], fwHeard := [], fwChunkAt := now s } } := ⟨_, rfl⟩
  have ho : openFw s = wrReg Reg.childFail 0 (wrF Reg.fwStatus 2 0 1 (wrF Reg.fwStatus 11 8 0
      (wrF Reg.fwStatus 63 32 0 (setSlotState (fwSlot s) 0 x)))) := by rw [hx]; rfl
  have hb : bootB x = bootB s := by rw [hx]; rfl
  have hk : Kept [Reg.fwStatus, Reg.childFail] s x := by rw [hx]; exact (Kept.refl _ s).of_same rfl rfl
  have hboot : x.boot.fwNext = 0 := by rw [hx, putSlot]; cases fwSlot s <;> rfl
  have hk' : Kept [Reg.fwStatus, Reg.childFail] s (openFw s) := ho ▸ ((((hk.setSlotState (by simp) _ _).wrF (by simp)
    _ _ _).wrF (by simp) _ _ _).wrF (by simp) _ _ _).wrReg (by simp) _
  obtain ⟨w, hw⟩ := setSlotState_frame (fwSlot s) 0 x
  refine ⟨?_, ?_, ?_, ?_, ?_, ?_, ?_, hk'⟩
  · rw [ho, fwState, rdF_wrReg_ne _ _ _ _ (by decide), rdF_wrF_fits _ _ (by decide) (by decide) (by decide)]
  · rw [ho, slotState_wrReg_ne _ _ (by decide)]
    simp (disch := decide) only [slotState_wrF_status, slotState_setSlotState_self]
  · refine fwSlot_congr (hk'.regs _ (by decide)) ?_
    rw [ho, bootB, rdB_wrReg_ne _ _ _ (by decide), ← hb]
    simp (disch := decide) only [rdB_wrF_other]
    exact bootB_setSlotState _ _ _
  · simp (disch := decide) only [ho, rdF_wrReg_ne, rdF_wrF_other, rdF_wrF_self]; rfl
  · rw [ho, hw]; exact hboot
  · rw [ho, hw, hx]; rfl
  · rw [ho, hw, hx]; rfl

/-- An update begins (R449, R450). -/
theorem start_completes (hm : mayWrite s .installer who = true) (hb : fwBusy s = false) (hr : fwRefusal s = 0)
    (hc : cellarState s ≠ 2) : Completes (.start who) s (fun u =>
        fwState u = 1 ∧ slotState u (fwSlot s) = 0 ∧ u.boot.fwNext = 0 ∧ rdF u Reg.fwStatus 63 32 = 0
          ∧ u.out = s.out ++ [.hostRead s.host.nextId (rd s Reg.fwSource).toNat 256]
          ∧ RegsKept [Reg.fwStatus, Reg.childFail] s u ∧ MemKept s u) := by
  have hf : (fwCommand who (wd (2 ^ 63)) s).2 = readChunk (openFw s) := by
    rw [fwCommand_start, startFw, if_neg (by simp [hb]), if_neg (by simp [hr]), if_neg (by simp [hc])]
  refine fwCommand_completes hm rfl fun au n => ?_
  rw [hf]
  have h := fwOpened_openFw s
  generalize openFw s = x at h ⊢
  have hk : Kept [Reg.fwStatus, Reg.childFail] s (withAudit au n (readChunk x)) := h.kept.of_same rfl rfl
  refine ⟨h.state, h.slot, h.next, h.received, ?_, hk.regs, hk.mem⟩
  show x.out ++ [.hostRead x.host.nextId ((rd x Reg.fwSource).toNat + 256 * x.boot.fwNext) 256] = _
  rw [h.kept.regs _ (by decide), h.next, h.out, h.host, Nat.mul_zero, Nat.add_zero]

/-- A refused command leaves the reason and its event (R449, R456). -/
theorem refuseFw_spec (why : Nat) (h : why < 16) (s : State) :
    rdF (refuseFw why s) Reg.fwStatus 11 8 = why ∧ rdB (refuseFw why s) Reg.fwEvent 2 = true
      ∧ fwState (refuseFw why s) = fwState s ∧ bootB (refuseFw why s) = bootB s
      ∧ Kept [Reg.fwStatus, Reg.fwEvent] s (refuseFw why s) := by
  refine ⟨?_, rdB_orReg_pow _ _ (i := 2) (by decide), ?_, ?_,
    ((Kept.refl _ s).wrF (by simp) _ _ _).orReg (by simp) _⟩
  · rw [refuseFw, rdF_orReg_ne _ _ _ _ (by decide), rdF_wrF_fits _ _ (by decide) (by decide) h]
  · simp (disch := decide) only [fwState, refuseFw, rdF_orReg_ne, rdF_wrF_other]
  · simp (disch := decide) only [bootB, refuseFw, rdB_orReg_ne, rdB_wrF_other]

theorem fwRefusal_lt (s : State) : fwRefusal s < 4 := by
  unfold fwRefusal
  split
  · decide
  · split
    · decide
    · split <;> decide

/-- A refused START (R449). -/
theorem start_refused (hm : mayWrite s .installer who = true) (hb : fwBusy s = false) (hr : fwRefusal s ≠ 0) :
    Completes (.start who) s (fun u =>
        rdF u Reg.fwStatus 11 8 = fwRefusal s ∧ rdB u Reg.fwEvent 2 = true ∧ fwState u = fwState s
          ∧ RegsKept [Reg.fwStatus, Reg.fwEvent] s u ∧ MemKept s u) := by
  have hf : (fwCommand who (wd (2 ^ 63)) s).2 = refuseFw (fwRefusal s) s := by
    rw [fwCommand_start, startFw, if_neg (by simp [hb]), if_pos hr]
  refine fwCommand_completes hm rfl fun au n => ?_
  rw [hf]
  obtain ⟨hw, he, hs, -, hk⟩ := refuseFw_spec (fwRefusal s) (Nat.lt_trans (fwRefusal_lt s) (by decide)) s
  exact ⟨hw, he, hs, hk.regs, hk.mem⟩

/-- The other slot becomes the boot slot where it is VERIFIED (R451). -/
theorem activate_completes (hm : mayWrite s .installer who = true) (hr : fwRefusal s = 0) (hb : fwBusy s = false)
    (hc : cellarState s ≠ 2) (hv : slotState s (!bootB s) = 1) : Completes (.activate who) s (fun u =>
      bootB u = !bootB s ∧ RegsKept [Reg.fwStatus] s u ∧ MemKept s u) := by
  have hf : (fwCommand who (wd (2 ^ 62)) s).2 = wrB Reg.fwStatus 15 (!bootB s) s := by
    rw [fwCommand_activate, activateFw, if_neg (by simp [hr]), if_neg (by simp [hb, hc]), if_neg (by simp [hv])]
  refine fwCommand_completes hm rfl fun au n => ?_
  rw [hf]
  have hk : Kept [Reg.fwStatus] s (wrB Reg.fwStatus 15 (!bootB s) s) := (Kept.refl _ s).wrB (by simp) _ _
  exact ⟨rdB_wrB_self _ _ _ _ (by decide), hk.regs, hk.mem⟩

/-- A slot that is not VERIFIED is not activated (R451). -/
theorem activate_refused (hm : mayWrite s .installer who = true) (hr : fwRefusal s = 0) (hb : fwBusy s = false)
    (hc : cellarState s ≠ 2) (hv : slotState s (!bootB s) ≠ 1) : Completes (.activate who) s (fun u =>
      bootB u = bootB s ∧ rdF u Reg.fwStatus 11 8 = 6 ∧ rdB u Reg.fwEvent 2 = true ∧ MemKept s u) := by
  have hf : (fwCommand who (wd (2 ^ 62)) s).2 = refuseFw 6 s := by
    rw [fwCommand_activate, activateFw, if_neg (by simp [hr]), if_neg (by simp [hb, hc]), if_pos hv]
  refine fwCommand_completes hm rfl fun au n => ?_
  rw [hf]
  obtain ⟨hw, he, -, hs, hk⟩ := refuseFw_spec 6 (by decide) s
  exact ⟨hs, hw, he, hk.mem⟩

/-- What an aborted update leaves (R449). -/
structure FwAborted (st : Nat) (s u : State) : Prop where
  state : fwState u = st
  slot : slotState u (fwSlot s) = 0
  empty : slotOf u (fwSlot s) = {}
  event : st = 4 → rdB u Reg.fwEvent 1 = true
  kept : Kept (if st = 4 then [Reg.fwStatus, Reg.fwEvent] else [Reg.fwStatus]) s u

/-- An update that ends without an image (R449). -/
theorem fwAborted_abortFw {st why : Nat} (hs : st < 8) (hw : why < 16) (s : State) :
    FwAborted st s (abortFw st why s) ∧ (why ≠ 0 → rdF (abortFw st why s) Reg.fwStatus 11 8 = why) := by
  obtain ⟨x, hx⟩ : ∃ x, x = wrF Reg.fwStatus 2 0 st (setSlotState (fwSlot s) 0 (putSlot (fwSlot s) {} s)) := ⟨_, rfl⟩
  obtain ⟨y, hy⟩ : ∃ y, y = if why = 0 then x else wrF Reg.fwStatus 11 8 why x := ⟨_, rfl⟩
  have ha : abortFw st why s = if st = 4 then orReg Reg.fwEvent (2 ^ 1) y else y := by
    rw [hy, hx, abortFw]
    split <;> split <;> rfl
  have hkx : Kept [Reg.fwStatus] s x :=
    hx ▸ ((((Kept.refl _ s).putSlot _ _).setSlotState (by simp) _ _).wrF (by simp) _ _ _)
  have hky : Kept [Reg.fwStatus] s y := by rw [hy]; split; exacts [hkx, hkx.wrF (by simp) _ _ _]
  have hst : fwState y = st := by
    have h : fwState x = st := by rw [hx]; exact rdF_wrF_fits _ _ (by decide) (by decide) hs
    rw [hy]; split
    · exact h
    · rw [← h]; exact rdF_wrF_other _ _ _ _ _ _ _ (by decide) (by decide) (by decide)
  have hsl : slotState y (fwSlot s) = 0 := by
    have h : slotState x (fwSlot s) = 0 := by
      rw [hx, slotState_wrF_status _ _ (by decide) (by decide) (by decide), slotState_setSlotState_self _ _ _ (by decide)]
    rw [hy]; split
    · exact h
    · rw [slotState_wrF_status _ _ (by decide) (by decide) (by decide), h]
  have hem : slotOf y (fwSlot s) = {} := by
    have h : slotOf x (fwSlot s) = {} := by
      obtain ⟨w, hw⟩ := setSlotState_frame (fwSlot s) 0 (putSlot (fwSlot s) {} s)
      rw [hx, hw]; exact slotOf_putSlot _ _ s
    rw [hy]; split <;> exact h
  have hwy : why ≠ 0 → rdF y Reg.fwStatus 11 8 = why := fun h => by
    rw [hy, if_neg h, rdF_wrF_fits _ _ (by decide) (by decide) hw]
  rw [ha]
  split
  case isTrue h4 =>
    refine ⟨⟨?_, ?_, hem, fun _ => rdB_orReg_pow _ _ (by decide), ?_⟩, fun h => ?_⟩
    · rw [fwState, rdF_orReg_ne _ _ _ _ (by decide)]; exact hst
    · rw [← hsl]; exact slotState_wrReg_ne _ _ (by decide) _
    · rw [if_pos h4]; exact (hky.mono (by simp)).orReg (by simp) _
    · rw [rdF_orReg_ne _ _ _ _ (by decide), hwy h]
  case isFalse h4 => exact ⟨⟨hst, hsl, hem, fun h => absurd h h4, by rw [if_neg h4]; exact hky⟩, hwy⟩

/-- ABORT in an update (R449, R456). -/
theorem fwupdAbort_completes (hm : mayWrite s .installer who = true) (hb : fwBusy s = true) :
    Completes (.fwupdAbort who) s (fun u => fwState u = 0 ∧ slotState u (fwSlot s) = 0 ∧ slotOf u (fwSlot s) = {}
      ∧ RegsKept [Reg.fwStatus] s u ∧ MemKept s u) := by
  have hf : (fwCommand who (wd (2 ^ 61)) s).2 = abortFw 0 0 s := by rw [fwCommand_abort, if_pos hb]
  refine fwCommand_completes hm rfl fun au n => ?_
  rw [hf]
  obtain ⟨h, -⟩ := fwAborted_abortFw (st := 0) (why := 0) (by decide) (by decide) s
  generalize abortFw 0 0 s = x at h ⊢
  exact ⟨h.state, h.slot, h.empty, h.kept.regs, h.kept.mem⟩

/-- ABORT with no update (R449, R456). -/
theorem fwupdAbort_refused (hm : mayWrite s .installer who = true) (hb : fwBusy s = false) :
    Completes (.fwupdAbort who) s (fun u => rdB u Reg.fwEvent 2 = true ∧ RegsKept [Reg.fwEvent] s u ∧ MemKept s u) := by
  have hf : (fwCommand who (wd (2 ^ 61)) s).2 = orReg Reg.fwEvent (2 ^ 2) s := by
    rw [fwCommand_abort, if_neg (by simp [hb])]; rfl
  refine fwCommand_completes hm rfl fun au n => ?_
  rw [hf]
  have hk : Kept [Reg.fwEvent] s (orReg Reg.fwEvent (2 ^ 2) s) := (Kept.refl _ s).orReg (by simp) _
  exact ⟨rdB_orReg_pow _ _ (by decide), hk.regs, hk.mem⟩

-- The ROM

/-- Maker keys are fixed: only whether a slot is valid, and its id, are read from registers (R443, R448). -/
theorem headerFine_congr (hv : rd u Reg.svnMin = rd s Reg.svnMin) (h0 : rd u (Reg.key 0 0) = rd s (Reg.key 0 0))
    (h1 : rd u (Reg.key 1 0) = rd s (Reg.key 1 0)) (h : List Word) : headerFine u h = headerFine s h := by
  have hm : ∀ id, makerSlot u id = makerSlot s id := fun id => by
    simp [makerSlot, keyWord, List.find?_cons, h0, h1]
  have hp : ∀ id k, makerSlot s id = some k → keyPoint u k = keyPoint s k := fun id k hk => by
    have hk2 : k < 2 := by
      have := List.mem_of_find?_eq_some hk
      simp at this; omega
    simp [keyPoint, keyWord, hk2]
  simp only [headerFine, rdF, hv, hm]
  cases hf : makerSlot s (fld (h.getD 0 0) 55 48) with
  | none => rfl
  | some k => simp only [hp _ _ hf]; rfl

theorem imageFine_congr (hv : rd u Reg.svnMin = rd s Reg.svnMin) (h0 : rd u (Reg.key 0 0) = rd s (Reg.key 0 0))
    (h1 : rd u (Reg.key 1 0) = rd s (Reg.key 1 0)) (x : ImageSlot) : imageFine u x = imageFine s x := by
  rw [imageFine, imageFine, headerFine_congr hv h0 h1]

/-- The state in which the ROM looks at the boot slot. -/
def romStarted (s : State) : State := orReg Reg.domainStatus (2 ^ 60) (setCellar 0 s)

theorem kept_romStarted (s : State) : Kept [Reg.heartbeat, Reg.domainStatus] s (romStarted s) :=
  ((Kept.refl _ s).wrF (by simp) _ _ _).orReg (by simp) _

theorem bootB_romStarted (s : State) : bootB (romStarted s) = bootB s := by
  rw [bootB, rdB, (kept_romStarted s).regs _ (by decide), bootB, rdB]

theorem imageFine_romStarted (s : State) (x : ImageSlot) : imageFine (romStarted s) x = imageFine s x :=
  imageFine_congr ((kept_romStarted s).regs _ (by decide)) ((kept_romStarted s).regs _ (by decide))
    ((kept_romStarted s).regs _ (by decide)) x

/-- The ROM finds an image that it accepts (R427, R451). -/
theorem bootRom_fine (h : imageFine s (slotOf s (bootB s)) = true) : bootRom s
    = { romStarted s with boot := { s.boot with cellarStarted := true, fwFrom := now s } } := by
  have h' : imageFine (romStarted s) (slotOf (romStarted s) (bootB (romStarted s))) = true := by
    rw [imageFine_romStarted, bootB_romStarted]; exact h
  unfold bootRom
  exact if_pos h'

/-- The ROM finds none (R451). -/
theorem bootRom_bad (h : imageFine s (slotOf s (bootB s)) = false) : bootRom s = bootFailed (romStarted s) := by
  have h' : ¬ imageFine (romStarted s) (slotOf (romStarted s) (bootB (romStarted s))) = true := by
    rw [imageFine_romStarted, bootB_romStarted]; exact ne_true_of_eq_false h
  unfold bootRom
  exact if_neg h'

theorem cellarState_romStarted (s : State) : cellarState (romStarted s) = 0 := by
  rw [cellarState, romStarted, rdF_orReg_ne _ _ _ _ (by decide), setCellar,
    rdF_wrF_fits _ _ (by decide) (by decide) (by decide)]

/-- BOOT_OTHER in RECOVERY (R451). -/
theorem bootOther_completes (hm : mayWrite s .installer who = true) (hc : cellarState s = 2)
    (hg : slotState s (!bootB s) = 2) (hi : imageFine s (slotOf s (!bootB s)) = true) :
    Completes (.bootOther who) s (fun u => bootB u = !bootB s ∧ cellarState u = 0 ∧ u.boot.cellarStarted = true
      ∧ MemKept s u) := by
  obtain ⟨x, hx⟩ : ∃ x, x = wrB Reg.fwStatus 15 (!bootB s) s := ⟨_, rfl⟩
  have hb : bootB x = !bootB s := by rw [hx]; exact rdB_wrB_self _ _ _ _ (by decide)
  have hk : Kept [Reg.fwStatus] s x := hx ▸ (Kept.refl _ s).wrB (by simp) _ _
  have hf : imageFine x (slotOf x (bootB x)) = true := by
    rw [imageFine_congr (hk.regs _ (by decide)) (hk.regs _ (by decide)) (hk.regs _ (by decide)), hb, hx]; exact hi
  have he : (fwCommand who (wd (2 ^ 60)) s).2 = bootRom x := by
    rw [fwCommand_bootOther, bootOther, if_pos ⟨hc, hg⟩, hx]
  refine fwCommand_completes hm rfl fun au n => ?_
  rw [he, bootRom_fine hf]
  refine ⟨?_, cellarState_romStarted x, rfl, ?_⟩
  · rw [← hb]; exact bootB_romStarted x
  · exact (((hk.mono (l' := [Reg.fwStatus, Reg.heartbeat, Reg.domainStatus]) (by simp)).trans
      ((kept_romStarted x).mono (by simp))).of_same rfl rfl).mem

/-- BOOT_OTHER out of RECOVERY (R451). -/
theorem bootOther_refused (hm : mayWrite s .installer who = true) (hc : cellarState s ≠ 2) :
    Completes (.bootOther who) s (fun u => rdF u Reg.fwStatus 11 8 = 5 ∧ rdB u Reg.fwEvent 2 = true
      ∧ RegsKept [Reg.fwStatus, Reg.fwEvent] s u ∧ MemKept s u) := by
  have hf : (fwCommand who (wd (2 ^ 60)) s).2 = refuseFw 5 s := by
    rw [fwCommand_bootOther, bootOther, if_neg (fun h => hc h.1)]
  refine fwCommand_completes hm rfl fun au n => ?_
  rw [hf]
  obtain ⟨hw, he, -, -, hk⟩ := refuseFw_spec 5 (by decide) s
  exact ⟨hw, he, hk.regs, hk.mem⟩

-- The guards

theorem logOutcome_fwShelf (b : Bool) (s : State) :
    logOutcome .installer who Reg.fwShelf b s = addSat Reg.auditHead 63 32 1 s := by
  rw [logOutcome, if_pos (by decide)]

theorem exec_fwupdShelfWrite (hm : mayWrite s .installer who = true) : exec (.fwupdShelfWrite who v) s
    = ok (addSat Reg.auditHead 63 32 1 (recheckFw (wrReg Reg.fwShelf (v &&& wd 3) s))) := by
  rw [show exec (.fwupdShelfWrite who v) s = ok (answered who Reg.fwShelf (fwGuardWrite Reg.fwShelf 3 who v s)) from rfl,
    fwGuardWrite, answered_withRoleDo _ _ hm, logOutcome_fwShelf]

theorem fld_and_three (v : Word) : fld (v &&& wd 3) 1 0 = fld v 1 0 := by
  apply Nat.eq_of_testBit_eq
  intro i
  rw [fld_testBit, fld_testBit]
  by_cases hi : i < 2
  · have : i = 0 ∨ i = 1 := by omega
    rcases this with rfl | rfl <;> simp [bit, wd]
  · simp [show ¬ i < 1 + 1 by omega]

theorem fwBusy_congr (h : rd u Reg.fwStatus = rd s Reg.fwStatus) : fwBusy u = fwBusy s := by
  simp only [fwBusy, fwState, rdF, h]

/-- SHELF with no update in progress (R449, R456). -/
theorem shelfWrite_completes (hm : mayWrite s .installer who = true) (hb : fwBusy s = false) :
    Completes (.fwupdShelfWrite who v) s (fun u =>
      rdF u Reg.fwShelf 1 0 = fld v 1 0 ∧ RegsKept [Reg.fwShelf, Reg.auditHead] s u ∧ MemKept s u) := by
  have hx : recheckFw (wrReg Reg.fwShelf (v &&& wd 3) s) = wrReg Reg.fwShelf (v &&& wd 3) s := by
    rw [recheckFw, fwBusy_congr (rd_wrReg_ne s _ (by decide)), hb]; rfl
  have he := exec_fwupdShelfWrite (v := v) hm
  rw [hx] at he
  have hk : Kept [Reg.fwShelf, Reg.auditHead] s (addSat Reg.auditHead 63 32 1 (wrReg Reg.fwShelf (v &&& wd 3) s)) :=
    ((Kept.refl _ s).wrReg (by simp) _).addSat (by simp) _ _ _
  refine ⟨_, he, ?_, hk.regs, hk.mem⟩
  rw [rdF, rd_addSat_ne _ _ _ _ (by decide), rd_wrReg_self, fld_and_three]

/-- SHELF set in an update ends it (R449). -/
theorem shelfWrite_aborts (hm : mayWrite s .installer who = true) (hb : fwBusy s = true) (hv : fld v 1 0 ≠ 0)
    (ht : ∀ t, t < 512 → tileState s t = 0) : Completes (.fwupdShelfWrite who v) s (fun u =>
      fwState u = 4 ∧ rdF u Reg.fwStatus 11 8 = 2 ∧ rdB u Reg.fwEvent 1 = true ∧ MemKept s u) := by
  obtain ⟨x, hx⟩ : ∃ x, x = wrReg Reg.fwShelf (v &&& wd 3) s := ⟨_, rfl⟩
  have htx : ∀ t, tileState x t = tileState s t := fun t => by
    rw [hx, tileState, rdF_wrReg_ne _ _ _ _ (by simp only [Reg.tileStatus, Reg.tileBase, Reg.fwShelf]; omega), tileState]
  have hany : ¬ (List.range 512).any (fun t => decide (1 ≤ tileState x t ∧ tileState x t ≤ 4)) = true := by
    rw [List.any_eq_true]
    rintro ⟨t, hr, hd⟩
    rw [htx, ht t (List.mem_range.1 hr)] at hd
    exact absurd hd (by decide)
  have hr : fwRefusal x = 2 := by
    have hne : rdF x Reg.fwShelf 1 0 ≠ 0 := by rw [hx, rdF_wrReg_self, fld_and_three]; exact hv
    unfold fwRefusal
    rw [if_neg hany, if_pos hne]
  have hbx : fwBusy x = true := by rw [hx, fwBusy_congr (rd_wrReg_ne s _ (by decide)), hb]
  have he := exec_fwupdShelfWrite (v := v) hm
  rw [← hx, recheckFw, hbx, hr, if_pos (by decide)] at he
  obtain ⟨h, hw⟩ := fwAborted_abortFw (st := 4) (why := 2) (by decide) (by decide) x
  generalize abortFw 4 2 x = y at h hw he
  have hk : Kept [Reg.fwShelf, Reg.auditHead, Reg.fwStatus, Reg.fwEvent] s (addSat Reg.auditHead 63 32 1 y) :=
    ((hx ▸ (Kept.refl _ s).wrReg (by simp) _ : Kept _ s x).trans (h.kept.mono (by simp))).addSat (by simp) _ _ _
  have hne : ∀ a, a ≠ Reg.auditHead → rd (addSat Reg.auditHead 63 32 1 y) a = rd y a :=
    fun a ha => rd_addSat_ne _ _ _ _ ha
  refine ⟨_, he, ?_, ?_, ?_, hk.mem⟩
  · rw [fwState, rdF, hne _ (by decide)]; exact h.state
  · rw [rdF, hne _ (by decide)]; exact hw (by decide)
  · rw [rdB, hne _ (by decide)]; exact h.event rfl

-- The image as chunks

/-- What goes to the parent or to children changes the network's queues and what is known of the children alone. -/
def FwFed (s u : State) : Prop :=
  ∃ net sent heard, u = { s with net := net, boot := { s.boot with fwSent := sent, fwHeard := heard } }

theorem FwFed.refl (s : State) : FwFed s s := ⟨s.net, s.boot.fwSent, s.boot.fwHeard, rfl⟩

theorem FwFed.trans {w : State} (h : FwFed s u) (h' : FwFed u w) : FwFed s w := by
  obtain ⟨n, a, b, rfl⟩ := h
  obtain ⟨n', a', b', rfl⟩ := h'
  exact ⟨n', a', b', rfl⟩

theorem FwFed.kept {l : List Nat} (h : FwFed s u) : Kept l s u := by
  obtain ⟨n, a, b, rfl⟩ := h
  exact (Kept.refl l s).of_same rfl rfl

theorem FwFed.slotOf (h : FwFed s u) (b : Bool) : slotOf u b = slotOf s b := by
  obtain ⟨n, a, c, rfl⟩ := h
  cases b <;> rfl

theorem FwFed.boot (h : FwFed s u) : u.boot.fwNext = s.boot.fwNext ∧ u.boot.fwAcked = s.boot.fwAcked := by
  obtain ⟨n, a, c, rfl⟩ := h
  exact ⟨rfl, rfl⟩

theorem fwFed_onBnd (b : Nat) (f : Bond → Bond) (s : State) : FwFed s (onBnd b f s) :=
  ⟨(onBnd b f s).net, s.boot.fwSent, s.boot.fwHeard, rfl⟩

theorem fwFed_sendVc7 (n op : Nat) (bs : List Byte) (s : State) : FwFed s (sendVc7 n op bs s) := by
  unfold sendVc7
  split
  · exact fwFed_onBnd _ _ s
  · exact FwFed.refl s

theorem fwFed_fwAckParent (st : Nat) (s : State) : FwFed s (fwAckParent st s) := by
  unfold fwAckParent
  split
  · exact fwFed_sendVc7 _ _ _ s
  · exact FwFed.refl s

theorem sendChunk_frame (n k : Nat) (s : State) : ∃ net, sendChunk n k s = { s with net := net } := by
  unfold sendChunk
  dsimp only
  split
  · exact ⟨_, rfl⟩
  · exact ⟨s.net, rfl⟩

/-- What feeding a child does: its next chunks go out, one after another (R450). -/
theorem fwFed_feedChild (n f : Nat) (s : State) :
    FwFed s (feedChild n f s) ∧ mget 0 s.boot.fwSent n ≤ mget 0 (feedChild n f s).boot.fwSent n := by
  induction f generalizing s with
  | zero => exact ⟨FwFed.refl s, le_refl _⟩
  | succ f ih =>
    rw [feedChild]
    split
    case isFalse => exact ⟨FwFed.refl s, le_refl _⟩
    case isTrue hlt =>
      obtain ⟨net, hnet⟩ := sendChunk_frame n (mget 0 s.boot.fwSent n) { s with boot := { s.boot with
        fwSent := mset 0 s.boot.fwSent n (mget 0 s.boot.fwSent n + 1),
        fwHeard := if mget 0 s.boot.fwSent n = 0 then mset 0 s.boot.fwHeard n (now s) else s.boot.fwHeard } }
      rw [hnet]
      obtain ⟨hf, hs⟩ := ih { s with
        net := net,
        boot := { s.boot with
          fwSent := mset 0 s.boot.fwSent n (mget 0 s.boot.fwSent n + 1),
          fwHeard := if mget 0 s.boot.fwSent n = 0 then mset 0 s.boot.fwHeard n (now s) else s.boot.fwHeard } }
      refine ⟨FwFed.trans ⟨_, _, _, rfl⟩ hf, le_trans ?_ hs⟩
      rw [mget_mset_self]
      exact Nat.le_succ _

theorem fwFed_feedAll (s : State) : FwFed s (feedAll s) := by
  unfold feedAll
  induction fwChildren s using List.reverseRecOn with
  | nil => exact FwFed.refl s
  | append_singleton l n ih =>
    rw [List.foldl_append]
    exact ih.trans (fwFed_feedChild n 65 _).1

/-- What a chunk leaves that is taken (R450). -/
structure ChunkTaken (k : Nat) (bs : List Byte) (s u : State) : Prop where
  next : u.boot.fwNext = k + 1
  chunk : mget [] (slotOf u (fwSlot s)).chunks k = bs
  received : k < 2 ^ 23 → rdF u Reg.fwStatus 63 32 = 256 * (k + 1)
  slot : slotState u (fwSlot s) = slotState s (fwSlot s)
  state : k ≠ 0 → fwState u = if lastChunk (slotOf s (fwSlot s)) k = true then 2 else 1
  kept : Kept [Reg.fwStatus] s u

/-- Whether a chunk is the last goes by the image's header. -/
theorem lastChunk_congr {x y : ImageSlot} (h : mget [] y.chunks 0 = mget [] x.chunks 0) (k : Nat) :
    lastChunk y k = lastChunk x k := by rw [lastChunk, lastChunk, headerWords, headerWords, h]

/-- A chunk in order is stored, counted, and goes on to the children (R450). -/
theorem chunkTaken_takeChunk {k : Nat} {bs : List Byte} (hk : k = s.boot.fwNext) (h1 : fwState s = 1)
    (hr : fwRefusal s = 0) (hh : k = 0 → headerFine s (bytesWords 32 bs) = true) :
    ChunkTaken k bs s (takeChunk k bs false s) := by
  obtain ⟨x, hx⟩ : ∃ x : ImageSlot, x = { slotOf s (fwSlot s) with
      shipped := false, chunks := mset [] (slotOf s (fwSlot s)).chunks k bs } := ⟨_, rfl⟩
  obtain ⟨y, hy⟩ : ∃ y, y = putSlot (fwSlot s) x { s with boot := { s.boot with
      fwNext := k + 1, fwChunkAt := now s } } := ⟨_, rfl⟩
  obtain ⟨z, hz⟩ : ∃ z, z = wrF Reg.fwStatus 63 32 (256 * (k + 1)) y := ⟨_, rfl⟩
  have hf := fwFed_feedAll z
  generalize hw : feedAll z = w at hf
  obtain ⟨v, hv⟩ : ∃ v, v = if lastChunk (slotOf w (fwSlot w)) k = true then wrF Reg.fwStatus 2 0 2 w else w := ⟨_, rfl⟩
  have hu : FwFed v (takeChunk k bs false s) := by
    have he : takeChunk k bs false s = if (k + 1) % 64 = 0 ∨ lastChunk (slotOf w (fwSlot w)) k = true
        then fwAckParent 0 v else v := by
      unfold takeChunk
      rw [if_neg (by omega), if_neg (by omega), if_neg (by rintro ⟨h0, hn⟩; rw [hh h0] at hn; exact absurd hn (by decide)),
        hv, ← hw, hz, hy, hx]
      rfl
    rw [he]
    split
    · exact fwFed_fwAckParent 0 v
    · exact FwFed.refl v
  have hky : Kept [Reg.fwStatus] s y := hy ▸ (Kept.refl _ s).of_same rfl rfl
  have hkz : Kept [Reg.fwStatus] s z := hz ▸ hky.wrF (by simp) _ _ _
  have hby : bootB y = bootB s := by rw [hy]; rfl
  have hbz : bootB z = bootB s := by rw [hz, ← hby]; exact bootB_wrF_status _ (by decide) (by decide) (by decide) _
  have hrw : ∀ a, rd w a = rd z a := fun a => (hf.kept (l := [])).regs a (by simp)
  have hru : ∀ a, rd (takeChunk k bs false s) a = rd v a := fun a => (hu.kept (l := [])).regs a (by simp)
  have hsw : fwSlot w = fwSlot s := by
    refine fwSlot_congr ?_ ?_
    · rw [hrw, hkz.regs _ (by decide)]
    · rw [bootB, rdB, hrw]; exact hbz
  have hxw : slotOf w (fwSlot s) = x := by
    rw [hf.slotOf, hz]
    show slotOf y (fwSlot s) = x
    rw [hy, slotOf_putSlot]
  have hkv : Kept [Reg.fwStatus] s v := by
    have h := hkz.trans hf.kept
    rw [hv]; split
    exacts [h.wrF (by simp) _ _ _, h]
  have hxv : slotOf v (fwSlot s) = x := by rw [hv]; split <;> exact hxw
  have hnv : v.boot.fwNext = k + 1 := by
    have h : w.boot.fwNext = k + 1 := by
      rw [hf.boot.1, hz]
      show y.boot.fwNext = k + 1
      rw [hy, putSlot]; cases fwSlot s <;> rfl
    rw [hv]; split <;> exact h
  have hvw : ∀ {hi lo : Nat}, 2 < lo → rdF v Reg.fwStatus hi lo = rdF z Reg.fwStatus hi lo := fun {hi lo} hlo => by
    rw [hv]; split
    · rw [rdF_wrF_other _ _ _ _ _ _ _ (by decide) (by decide) (by omega), rdF, hrw]; rfl
    · rw [rdF, hrw]; rfl
  refine ⟨?_, ?_, fun h23 => ?_, ?_, fun h0 => ?_, hkv.trans hu.kept⟩
  · rw [hu.boot.1, hnv]
  · rw [hu.slotOf, hxv, hx]; exact mget_mset_self ..
  · rw [rdF, hru]
    show rdF v Reg.fwStatus 63 32 = _
    rw [hvw (by decide), hz, rdF_wrF_fits _ _ (by decide) (by decide) (by omega)]
  · have h : ∀ b, slotState (takeChunk k bs false s) b = slotState z b := fun b => by
      cases b
      · show rdF _ _ _ _ = rdF _ _ _ _
        rw [rdF, hru]; exact hvw (by decide)
      · show rdF _ _ _ _ = rdF _ _ _ _
        rw [rdF, hru]; exact hvw (by decide)
    rw [h, hz, slotState_wrF_status _ _ (by decide) (by decide) (by decide), hy]; rfl
  · have hl : lastChunk (slotOf w (fwSlot w)) k = lastChunk (slotOf s (fwSlot s)) k := by
      rw [hsw, hxw, hx]
      exact lastChunk_congr (mget_mset_ne _ _ _ (Ne.symm h0)) k
    rw [fwState, rdF, hru]
    show rdF v Reg.fwStatus 2 0 = _
    rw [hv, hl]; split
    · exact rdF_wrF_fits _ _ (by decide) (by decide) (by decide)
    · rw [rdF, hrw]
      show rdF z Reg.fwStatus 2 0 = 1
      rw [hz, rdF_wrF_other _ _ _ _ _ _ _ (by decide) (by decide) (by decide), hy]
      exact h1

/-- Whether an update is refused goes by the tiles, SHELF and LOCK. -/
theorem fwRefusal_congr {l : List Nat} (h : Kept l s u) (hl : ∀ a ∈ l, 0xD0000 ≤ a ∧ a < 0xE0000)
    (h1 : Reg.fwShelf ∉ l) (h2 : Reg.fwLock ∉ l) : fwRefusal u = fwRefusal s := by
  have ht : ∀ t, tileState u t = tileState s t := fun t => by
    have hn : Reg.tileStatus t ∉ l := fun hm => by
      have := (hl _ hm).2
      simp only [Reg.tileStatus, Reg.tileBase] at this; omega
    rw [tileState, rdF, h.regs _ hn, tileState, rdF]
  simp only [fwRefusal, ht, rdF, rdB, h.regs _ h1, h.regs _ h2]
  rfl

section
variable {p : Packet} {n : Nat} (h77 : p.opcode = 0x77) (hlen : p.payload.length = 256) (h63 : rdB s Reg.fwTree 63 = true)
  (hn : rdF s Reg.fwTree 36 32 = n) (hr : fwRefusal s = 0)
include h77 hlen h63 hn hr

/-- The first chunk starts an update below the root (R450). -/
theorem fwChunk_first (hb : fwBusy s = false) (ha : p.addr = 0) (hh : headerFine s (bytesWords 32 p.payload) = true) :
    Completes (.fwChunk n p) s (fun u => u.boot.fwNext = 1 ∧ mget [] (slotOf u (fwSlot s)).chunks 0 = p.payload
      ∧ rdF u Reg.fwStatus 63 32 = 256 ∧ slotState u (fwSlot s) = 0 ∧ MemKept s u) := by
  have he : exec (.fwChunk n p) s = ok (takeChunk 0 p.payload false (openFw s)) := by
    show execFwChunk n p s = _
    rw [execFwChunk, if_neg (by simp [h77, hlen, h63, hn]), if_pos (by simp [ha, hb]), if_neg (by simp [hr])]
  have h := fwOpened_openFw s
  generalize openFw s = x at h he
  have hx : ∀ a, a ≠ Reg.fwStatus → a ≠ Reg.childFail → rd x a = rd s a := fun a h1 h2 => h.kept.regs a (by simp [h1, h2])
  have hc := chunkTaken_takeChunk (s := x) (k := 0) (bs := p.payload) h.next.symm h.state
    ((fwRefusal_congr h.kept (by decide) (by decide) (by decide)).trans hr)
    (fun _ => (headerFine_congr (hx _ (by decide) (by decide)) (hx _ (by decide) (by decide))
      (hx _ (by decide) (by decide)) _).trans hh)
  refine ⟨_, he, hc.next, h.same ▸ hc.chunk, hc.received (by decide), ?_, fun a => ?_⟩
  · rw [← h.same, hc.slot, h.same]; exact h.slot
  · exact (hc.kept.mem a).trans (h.kept.mem a)

/-- A later chunk in order (R450). -/
theorem fwChunk_next {k : Nat} (h1 : fwState s = 1) (hk : k = s.boot.fwNext) (h0 : 0 < k) (h23 : k < 2 ^ 23)
    (ha : p.addr = 256 * k) : Completes (.fwChunk n p) s (fun u =>
      u.boot.fwNext = k + 1 ∧ mget [] (slotOf u (fwSlot s)).chunks k = p.payload ∧ rdF u Reg.fwStatus 63 32 = 256 * (k + 1)
        ∧ fwState u = (if lastChunk (slotOf s (fwSlot s)) k = true then 2 else 1) ∧ MemKept s u) := by
  have he : exec (.fwChunk n p) s = ok (takeChunk k p.payload false s) := by
    show execFwChunk n p s = _
    rw [execFwChunk, if_neg (by simp [h77, hlen, h63, hn]), if_neg (by omega), ha, Nat.mul_div_cancel_left _ (by decide)]
  have hc := chunkTaken_takeChunk (bs := p.payload) hk h1 hr (fun h => absurd h (by omega))
  exact ⟨_, he, hc.next, hc.chunk, hc.received h23, hc.state (by omega), hc.kept.mem⟩

end

/-- A child that is given up (R450). -/
theorem failChild_spec {n : Nat} (h : n < 64) (s : State) : rdB (failChild n s) Reg.childFail n = true
    ∧ rdB (failChild n s) Reg.fwEvent 3 = true ∧ Kept [Reg.childFail, Reg.fwEvent] s (failChild n s) := by
  refine ⟨?_, rdB_orReg_pow _ _ (by decide), ((Kept.refl _ s).orReg (by simp) _).orReg (by simp) _⟩
  rw [failChild, rdB_orReg_ne _ _ _ (by decide), rdB_orReg_pow _ _ h]

section
variable {p : Packet} {n : Nat}

/-- A child refuses (R450). -/
theorem fwAck_failed (hn : n < 32) (h78 : p.opcode = 0x78) (hc : (fwChildren s).contains n = true)
    (hw : fld (leWord (p.payload.take 8)) 47 32 ≠ 0) : Completes (.fwAck n p) s (fun u =>
      rdB u Reg.childFail n = true ∧ rdB u Reg.fwEvent 3 = true ∧ RegsKept [Reg.childFail, Reg.fwEvent] s u
        ∧ MemKept s u) := by
  have he : exec (.fwAck n p) s = ok (failChild n s) := by
    show execFwAck n p s = _
    unfold execFwAck
    dsimp only
    rw [if_neg (by simpa [h78] using hc), if_pos hw]
  obtain ⟨h1, h2, hk⟩ := failChild_spec (Nat.lt_trans hn (by decide)) s
  exact ⟨_, he, h1, h2, hk.regs, hk.mem⟩

/-- A child has taken what it was sent (R450). -/
theorem fwAck_taken (h78 : p.opcode = 0x78) (hc : (fwChildren s).contains n = true)
    (hw : fld (leWord (p.payload.take 8)) 47 32 = 0) : Completes (.fwAck n p) s (fun u =>
      mget 0 u.boot.fwAcked n = fld (leWord (p.payload.take 8)) 31 0
        ∧ mget 0 s.boot.fwSent n ≤ mget 0 u.boot.fwSent n ∧ RegsKept [] s u ∧ MemKept s u) := by
  obtain ⟨x, hx⟩ : ∃ x, x = { s with boot := { s.boot with
      fwAcked := mset 0 s.boot.fwAcked n (fld (leWord (p.payload.take 8)) 31 0),
      fwHeard := mset 0 s.boot.fwHeard n (now s) } } := ⟨_, rfl⟩
  have he : exec (.fwAck n p) s = ok (feedChild n 65 x) := by
    show execFwAck n p s = _
    unfold execFwAck
    dsimp only
    rw [if_neg (by simpa [h78] using hc), if_neg (by simp [hw]), hx]
  obtain ⟨hf, hs⟩ := fwFed_feedChild n 65 x
  have hkx : Kept [] s x := hx ▸ (Kept.refl _ s).of_same rfl rfl
  have hk := hkx.trans hf.kept
  refine ⟨_, he, ?_, ?_, hk.regs, hk.mem⟩
  · rw [hf.boot.2, hx]; exact mget_mset_self ..
  · rw [hx] at hs ⊢; exact hs

end

/-- A child given up at a time. -/
theorem failChild_clockTo {n : Nat} (hn : n < 32) (t : Nat) (s : State) :
    rdB (failChild n (clockTo t s)) Reg.childFail n = true ∧ rdB (failChild n (clockTo t s)) Reg.fwEvent 3 = true
      ∧ (t < 2 ^ 64 → t ≤ now (failChild n (clockTo t s)))
      ∧ RegsKept [Reg.childFail, Reg.fwEvent] s (failChild n (clockTo t s)) ∧ MemKept s (failChild n (clockTo t s)) := by
  obtain ⟨h1, h2, hk⟩ := failChild_spec (Nat.lt_trans hn (by decide)) (clockTo t s)
  have hk' := ((Kept.refl [Reg.childFail, Reg.fwEvent] s).clockTo t).trans hk
  exact ⟨h1, h2, fun h => now_clockTo s t h, hk'.regs, hk'.mem⟩

theorem exec_fwChildSilent {n : Nat} (hc : (fwChildren s).contains n = true) : exec (.fwChildSilent n) s
    = ok (failChild n (clockTo (mget 0 s.boot.fwHeard n + 1600000000) s)) := by
  show execFwChildSilent n s = _
  rw [execFwChildSilent, if_pos hc]

/-- A child that is silent for 1 s (R450). -/
theorem fwChildSilent_completes {n : Nat} (hn : n < 32) (hc : (fwChildren s).contains n = true) :
    Completes (.fwChildSilent n) s (fun u => rdB u Reg.childFail n = true ∧ rdB u Reg.fwEvent 3 = true
      ∧ (mget 0 s.boot.fwHeard n + 1600000000 < 2 ^ 64 → mget 0 s.boot.fwHeard n + 1600000000 ≤ now u)
      ∧ RegsKept [Reg.childFail, Reg.fwEvent] s u ∧ MemKept s u) :=
  ⟨_, exec_fwChildSilent hc, failChild_clockTo hn _ s⟩

theorem fwSlot_clockTo (t : Nat) : fwSlot (clockTo t s) = fwSlot s :=
  fwSlot_congr (rd_clockTo s _ _) (by rw [bootB, rdB, rd_clockTo, bootB, rdB])

theorem slotState_congr (h : rd u Reg.fwStatus = rd s Reg.fwStatus) (b : Bool) : slotState u b = slotState s b := by
  cases b
  · show rdF _ _ _ _ = rdF _ _ _ _
    rw [rdF, rdF, h]
  · show rdF _ _ _ _ = rdF _ _ _ _
    rw [rdF, rdF, h]

theorem now_abortFw (st why : Nat) (s : State) : (abortFw st why s).now = s.now := by
  unfold abortFw
  obtain ⟨w, hw⟩ := setSlotState_frame (fwSlot s) 0 (putSlot (fwSlot s) {} s)
  rw [hw]
  split <;> split <;> rfl

/-- A parent that is silent for 10 s (R450). -/
theorem fwParentSilent_completes (h1 : fwState s = 1) : Completes .fwParentSilent s (fun u =>
    fwState u = 4 ∧ rdF u Reg.fwStatus 11 8 = 7 ∧ rdB u Reg.fwEvent 1 = true ∧ slotState u (fwSlot s) = 0
      ∧ (s.boot.fwChunkAt + 16000000000 < 2 ^ 64 → s.boot.fwChunkAt + 16000000000 ≤ now u)
      ∧ RegsKept [Reg.fwStatus, Reg.fwEvent] s u ∧ MemKept s u) := by
  obtain ⟨x, hx⟩ : ∃ x, x = clockTo (s.boot.fwChunkAt + 16000000000) s := ⟨_, rfl⟩
  have he : exec .fwParentSilent s = ok (abortFw 4 7 x) := by
    show execFwParentSilent s = _
    rw [execFwParentSilent, if_pos h1, hx]
  obtain ⟨h, hw⟩ := fwAborted_abortFw (st := 4) (why := 7) (by decide) (by decide) x
  have hn := now_abortFw 4 7 x
  generalize abortFw 4 7 x = y at h hw he hn
  have hk : Kept [Reg.fwStatus, Reg.fwEvent] s y := (hx ▸ (Kept.refl _ s).clockTo _ : Kept _ s x).trans h.kept
  have hs : fwSlot x = fwSlot s := by rw [hx, fwSlot_clockTo]
  refine ⟨_, he, h.state, hw (by decide), h.event rfl, hs ▸ h.slot, fun hlt => ?_, hk.regs, hk.mem⟩
  rw [now, hn, hx]; exact now_clockTo s _ hlt

/-- The body's digest is right (R450). -/
theorem fwVerifyDone_fine (h2 : fwState s = 2) (hr : fwRefusal s = 0) (hi : imageFine s (slotOf s (fwSlot s)) = true) :
    Completes .fwVerifyDone s (fun u => fwState u = 3 ∧ slotState u (fwSlot s) = 1 ∧ rdB u Reg.fwEvent 0 = true
      ∧ RegsKept [Reg.fwStatus, Reg.fwEvent] s u ∧ MemKept s u) := by
  obtain ⟨x, hx⟩ : ∃ x, x = wrF Reg.fwStatus 2 0 3 (setSlotState (fwSlot s) 1 s) := ⟨_, rfl⟩
  have he : exec .fwVerifyDone s = ok (fwAckParent 0 (orReg Reg.fwEvent (1) x)) := by
    show execFwVerifyDone s = _
    rw [execFwVerifyDone, if_neg (by simp [h2]), if_neg (by simp [hr]), if_pos hi, hx]
  have hf := fwFed_fwAckParent 0 (orReg Reg.fwEvent (1) x)
  have hk : Kept [Reg.fwStatus, Reg.fwEvent] s (orReg Reg.fwEvent (1) x) :=
    (hx ▸ ((Kept.refl _ s).setSlotState (by simp) _ _).wrF (by simp) _ _ _ : Kept _ s x).orReg (by simp) _
  have hk' := hk.trans hf.kept
  have hru : ∀ a, rd (fwAckParent 0 (orReg Reg.fwEvent (1) x)) a = rd (orReg Reg.fwEvent (1) x) a :=
    fun a => (hf.kept (l := [])).regs a (by simp)
  refine ⟨_, he, ?_, ?_, ?_, hk'.regs, hk'.mem⟩
  · rw [fwState, rdF, hru, rd_orReg_ne _ _ (by decide), hx]
    exact rdF_wrF_fits _ _ (by decide) (by decide) (by decide)
  · rw [slotState_congr (hru _), slotState_congr (rd_orReg_ne x _ (by decide)), hx,
      slotState_wrF_status _ _ (by decide) (by decide) (by decide), slotState_setSlotState_self _ _ _ (by decide)]
  · rw [rdB, hru]; exact rdB_orReg_pow _ _ (i := 0) (by decide)

/-- The body's digest is wrong (R450). -/
theorem fwVerifyDone_bad (h2 : fwState s = 2) (hr : fwRefusal s = 0) (hi : imageFine s (slotOf s (fwSlot s)) = false) :
    Completes .fwVerifyDone s (fun u => fwState u = 4 ∧ slotState u (fwSlot s) = 0 ∧ rdB u Reg.fwEvent 1 = true
      ∧ RegsKept [Reg.fwStatus, Reg.fwEvent] s u ∧ MemKept s u) := by
  have he : exec .fwVerifyDone s = ok (fwAckParent 6 (abortFw 4 0 s)) := by
    show execFwVerifyDone s = _
    rw [execFwVerifyDone, if_neg (by simp [h2]), if_neg (by simp [hr]), if_neg (by simp [hi])]
  obtain ⟨h, -⟩ := fwAborted_abortFw (st := 4) (why := 0) (by decide) (by decide) s
  generalize abortFw 4 0 s = y at h he
  have hf := fwFed_fwAckParent 6 y
  have hk : Kept [Reg.fwStatus, Reg.fwEvent] s (fwAckParent 6 y) := h.kept.trans hf.kept
  have hru : ∀ a, rd (fwAckParent 6 y) a = rd y a := fun a => (hf.kept (l := [])).regs a (by simp)
  refine ⟨_, he, ?_, ?_, ?_, hk.regs, hk.mem⟩
  · rw [fwState, rdF, hru]; exact h.state
  · rw [slotState_congr (hru _)]; exact h.slot
  · rw [rdB, hru]; exact h.event rfl

/-- Settles O59: the commands of the update, its chunks, its ends. -/
theorem firmwareUpdate : Obligations.FirmwareUpdate := fun _ =>
  ⟨fun _ hm => ⟨start_completes hm, start_refused hm, activate_completes hm, activate_refused hm, fwupdAbort_completes hm,
      fwupdAbort_refused hm, bootOther_completes hm, bootOther_refused hm, fun _ => shelfWrite_completes hm,
      fun _ => shelfWrite_aborts hm⟩,
    fun _ _ h77 hlen h63 hn hr _ => ⟨fwChunk_first h77 hlen h63 hn hr, fun _ => fwChunk_next h77 hlen h63 hn hr⟩,
    fun _ _ _ h78 hc hn hw => ⟨fun h => fwAck_failed hn h78 hc (hw ▸ h),
      fun h => hw ▸ fwAck_taken h78 hc (hw ▸ h)⟩,
    fun _ hn hc => fwChildSilent_completes hn hc, fwParentSilent_completes,
    fun h2 hr => ⟨fwVerifyDone_fine h2 hr, fwVerifyDone_bad h2 hr⟩⟩

end Sys2Proof.Machine
end

section
/-! PROOFS. Sessions: challenges, submissions and their outcomes, the end of a session, locks (R444, R445). -/

namespace Sys2Proof.Machine

variable {s u : State} {p q : Path}

-- Roles and session records

theorem pathNo_inj (h : q ≠ p) : pathNo q ≠ pathNo p := by cases p <;> cases q <;> first | exact absurd rfl h | decide

section
variable (s : State) (r : Nat)

theorem roleOf_setRole_self (p : Path) (h : r < 4) : roleOf (setRole p r s) p = r :=
  rdF_wrF_fits _ _ (by omega) (by cases p <;> decide) (by
    rw [show 9 + 2 * pathNo p + 1 - (8 + 2 * pathNo p) = 2 by omega]; exact h)

theorem roleOf_setRole_ne (h : q ≠ p) : roleOf (setRole p r s) q = roleOf s q :=
  rdF_wrF_other _ _ _ _ _ _ _ (by omega) (by cases p <;> decide) (by have := pathNo_inj h; omega)

/-- The fields of AUTH_STATUS below the roles do not show who holds one. -/
theorem rdF_setRole_low (p : Path) {hi lo : Nat} (h : hi < 8) :
    rdF (setRole p r s) Reg.authStatus hi lo = rdF s Reg.authStatus hi lo :=
  rdF_wrF_other _ _ _ _ _ _ _ (by omega) (by cases p <;> decide) (by omega)

theorem roleOf_wrF_low (q : Path) {hi lo : Nat} (h : lo ≤ hi) (h8 : hi < 8) (v : Nat) :
    roleOf (wrF Reg.authStatus hi lo v s) q = roleOf s q :=
  rdF_wrF_other _ _ _ _ _ _ _ h (by omega) (by omega)

end

theorem Kept.setRole {l : List Nat} (h : Kept l s u) (hl : Reg.authStatus ∈ l) (p : Path) (r : Nat) :
    Kept l s (setRole p r u) := h.wrF hl _ _ _

theorem sess_onSess_self (p : Path) (f : Session → Session) (s : State) : sess (onSess p f s) p = f (sess s p) :=
  mget_mset_self ..

theorem sess_onSess_ne (h : q ≠ p) (f : Session → Session) (s : State) : sess (onSess p f s) q = sess s q :=
  mget_mset_ne _ _ _ (pathNo_inj h)

/-- What the end of a session leaves: no role on its path, and a record of it where it was open (R445). -/
structure SessionEnded (p : Path) (s u : State) : Prop where
  role : roleOf u p = 0
  others : ∀ q, q ≠ p → roleOf u q = roleOf s q
  low : ∀ hi lo, hi < 8 → rdF u Reg.authStatus hi lo = rdF s Reg.authStatus hi lo
  sess : ∀ q, sess u q = sess s q
  now : u.now = s.now
  logged : roleOf s p ≠ 0 → u.boot.auditNext = s.boot.auditNext + 1
  kept : Kept [Reg.authStatus] s u

theorem sessionEnded_endSession (p : Path) (s : State) : SessionEnded p s (endSession p s) := by
  unfold endSession
  split
  case isTrue h => exact ⟨h, fun _ _ => rfl, fun _ _ _ => rfl, fun _ => rfl, rfl, fun h' => absurd h h', Kept.refl _ s⟩
  case isFalse h =>
    have hk : Kept [Reg.authStatus] s (auditLog (roleOf s p) (pathNo p) 5 (sess s p).keyId (Reg.spaceBase + Reg.authCtrl)
      [] [] s) := (Kept.refl _ s).of_same rfl rfl
    exact ⟨roleOf_setRole_self _ _ _ (by decide), fun q hq => roleOf_setRole_ne _ _ hq,
      fun _ _ h8 => rdF_setRole_low _ _ _ h8, fun _ => rfl, rfl, fun _ => rfl,
      hk.setRole (by simp) _ _⟩

-- A challenge

theorem freeWords_eq (n : Nat) (s : State) : freeWords n s
    = ((List.range n).map (fun i => Config.freeWord (s.free + i)), { s with free := s.free + n }) := by
  induction n generalizing s with
  | zero => rfl
  | succ n ih =>
    rw [freeWords, ih, List.range_succ_eq_map]
    simp [freeNext, Function.comp_def, Nat.add_assoc, Nat.add_comm 1]

/-- A challenge's words stand in their registers. -/
theorem putChallenge_frame (l : List Word) (s : State) :
    ∃ r, l.zipIdx.foldl (fun s w => wrReg (Reg.authChallenge w.2) w.1 s) s = { s with regs := r } := by
  induction l.zipIdx using List.reverseRecOn with
  | nil => exact ⟨s.regs, rfl⟩
  | append_singleton l e ih =>
    obtain ⟨r, h⟩ := ih
    rw [List.foldl_append, h]
    exact ⟨_, rfl⟩

theorem rd_putChallenge (l : List Word) (s : State) {i : Nat} (h : i < l.length) :
    rd (l.zipIdx.foldl (fun s w => wrReg (Reg.authChallenge w.2) w.1 s) s) (Reg.authChallenge i) = l[i] := by
  induction l using List.reverseRecOn with
  | nil => exact absurd h (by simp)
  | append_singleton l x ih =>
    rw [List.zipIdx_append, List.foldl_append]
    simp only [List.zipIdx_singleton, List.foldl_cons, List.foldl_nil]
    rw [List.length_append, List.length_singleton] at h
    by_cases hi : i = l.length
    · subst hi
      rw [Nat.zero_add, rd_wrReg_self, List.getElem_concat_length rfl]
    · have hne : Reg.authChallenge i ≠ Reg.authChallenge (0 + l.length) := by simp only [Reg.authChallenge]; omega
      rw [rd_wrReg_ne _ _ hne, ih (by omega), List.getElem_append_left (by omega)]

/-- A new challenge (R445). -/
theorem getChallenge_completes (p : Path) (s : State) : Completes (.getChallenge p) s (fun u =>
    (sess u p).challenge = (List.range 6).map (fun i => Config.freeWord (s.free + i))
      ∧ (sess u p).challengeAt = some (now s) ∧ (∀ i, i < 6 → rd u (Reg.authChallenge i) = Config.freeWord (s.free + i))
      ∧ u.free = s.free + 6 ∧ (∀ q, q ≠ p → sess u q = sess s q) ∧ MemKept s u) := by
  obtain ⟨l, hl⟩ : ∃ l, l = (List.range 6).map (fun i => Config.freeWord (s.free + i)) := ⟨_, rfl⟩
  have hlen : l.length = 6 := by rw [hl, List.length_map, List.length_range]
  obtain ⟨r, hr⟩ := putChallenge_frame l { s with free := s.free + 6 }
  have he : exec (.getChallenge p) s = ok (onSess p (fun x => { x with challenge := l, challengeAt := some (now s) })
      { s with free := s.free + 6, regs := r }) := by
    show ok (getChallenge p s) = _
    unfold getChallenge
    dsimp only
    rw [freeWords_eq, ← hl, hr]
    rfl
  have hreg : ∀ i, i < 6 → rd { s with free := s.free + 6, regs := r } (Reg.authChallenge i) = Config.freeWord (s.free + i) :=
    fun i hi => by
      have h := rd_putChallenge l { s with free := s.free + 6 } (i := i) (by omega)
      rw [hr] at h
      rw [h]; simp [hl]
  refine ⟨_, he, ?_, ?_, hreg, rfl, fun q hq => ?_, fun _ => rfl⟩
  · rw [sess_onSess_self, hl]
  · rw [sess_onSess_self]
  · rw [sess_onSess_ne hq]; rfl

-- A submission

theorem exec_submit {role slot : Nat} (hr : role < 4) (hs : slot < 16) :
    exec (.submit p role slot) s = ok (submit p role slot s) := by
  show ok (if role < 4 ∧ slot < 16 then submit p role slot s else s) = _
  rw [if_pos ⟨hr, hs⟩]

/-- A submission consumes its challenge. -/
def submitted (p : Path) (r : Nat) (s : State) : State :=
  onSess p (fun x => { x with challengeAt := none, challenge := [] }) (wrF Reg.authStatus 7 4 r s)

theorem submitted_spec (p : Path) {r : Nat} (hr : r < 16) (s : State) :
    (∀ q, roleOf (submitted p r s) q = roleOf s q) ∧ rdF (submitted p r s) Reg.authStatus 7 4 = r
      ∧ Kept [Reg.authStatus] s (submitted p r s) :=
  ⟨fun q => roleOf_wrF_low _ _ (by decide) (by decide) _, rdF_wrF_fits _ _ (by decide) (by decide) hr,
    ((Kept.refl _ s).wrF (by simp) _ _ _).of_same rfl rfl⟩

/-- A session opens (R445). -/
theorem submit_ok {role slot : Nat} (hr : role < 4) (hs : slot < 16) (h : authResult s p role slot = 0) :
    Completes (.submit p role slot) s (fun u => roleOf u p = role ∧ rdF u Reg.authStatus 7 4 = 0
      ∧ (sess u p).openedAt = now s ∧ (sess u p).keyId = fld (keyWord s slot 0) 7 0 ∧ (sess u p).challengeAt = none
      ∧ (∀ q, q ≠ p → roleOf u q = roleOf s q) ∧ RegsKept [Reg.authStatus] s u ∧ MemKept s u) := by
  obtain ⟨hro, hst, hk⟩ := submitted_spec p (r := 0) (by decide) s
  have hse := sessionEnded_endSession p (submitted p 0 s)
  have he : exec (.submit p role slot) s = ok (setRole p role (onSess p
      (fun x => { x with keyId := fld (keyWord s slot 0) 7 0, openedAt := now (endSession p (submitted p 0 s)) })
      (auditLog role (pathNo p) 3 (fld (keyWord s slot 0) 7 0) (Reg.spaceBase + Reg.authCtrl) [] []
        (endSession p (submitted p 0 s))))) := by
    rw [exec_submit hr hs]
    unfold submit
    rw [h, if_neg (by decide), if_pos rfl]
    rfl
  have hnow : now (endSession p (submitted p 0 s)) = now s := by rw [now, hse.now]; rfl
  have hsess : ∀ q, sess (endSession p (submitted p 0 s)) q = sess (submitted p 0 s) q := hse.sess
  generalize endSession p (submitted p 0 s) = x at hse he hnow hsess
  have hk' : Kept [Reg.authStatus] s (setRole p role (onSess p (fun y => { y with keyId := fld (keyWord s slot 0) 7 0, openedAt := now x })
      (auditLog role (pathNo p) 3 (fld (keyWord s slot 0) 7 0) (Reg.spaceBase + Reg.authCtrl) [] [] x))) :=
    ((hk.trans hse.kept).of_same (v := onSess p (fun y => { y with keyId := fld (keyWord s slot 0) 7 0, openedAt := now x })
      (auditLog role (pathNo p) 3 (fld (keyWord s slot 0) 7 0) (Reg.spaceBase + Reg.authCtrl) [] [] x)) rfl rfl).setRole
        (by simp) _ _
  have hset : ∀ y, sess (setRole p role y) p = sess y p := fun _ => rfl
  refine ⟨_, he, roleOf_setRole_self _ _ _ hr, ?_, ?_, ?_, ?_, fun q hq => ?_, hk'.regs, hk'.mem⟩
  · rw [rdF_setRole_low _ _ _ (by decide)]
    exact (hse.low 7 4 (by decide)).trans hst
  · rw [hset, sess_onSess_self]; exact hnow
  · rw [hset, sess_onSess_self]
  · rw [hset, sess_onSess_self]
    show (sess x p).challengeAt = none
    rw [hsess, submitted, sess_onSess_self]
  · rw [roleOf_setRole_ne _ _ hq]
    exact (hse.others q hq).trans (hro q)

/-- A submission fails, and is counted and logged (R445, R446). -/
theorem submit_failed {role slot : Nat} (hr : role < 4) (hs : slot < 16) (h1 : 1 ≤ authResult s p role slot)
    (h4 : authResult s p role slot ≤ 4) : Completes (.submit p role slot) s (fun u =>
      roleOf u p = roleOf s p ∧ rdF u Reg.authStatus 7 4 = authResult s p role slot ∧ (sess u p).challengeAt = none
        ∧ u.boot.auditNext = s.boot.auditNext + 1 ∧ now s ∈ (sess u p).failures
        ∧ (8 ≤ (sess u p).failures.length → (sess u p).lockedUntil = some (now s + 96000000000))
        ∧ RegsKept [Reg.authStatus] s u ∧ MemKept s u) := by
  generalize hR : authResult s p role slot = r at h1 h4
  obtain ⟨hro, hst, hk⟩ := submitted_spec p (r := r) (by omega) s
  obtain ⟨x, hx⟩ : ∃ x, x = auditLog role (pathNo p) 4 (fld (keyWord s slot 0) 7 0) (Reg.spaceBase + Reg.authCtrl) [] []
    (submitted p r s) := ⟨_, rfl⟩
  have he : exec (.submit p role slot) s = ok (countFailure p x) := by
    rw [exec_submit hr hs]
    unfold submit
    rw [hR, if_neg (by omega), if_neg (by omega), hx]
    rfl
  have hxs : sess x p = sess (submitted p r s) p := by rw [hx]; rfl
  have hxr : x.regs = (submitted p r s).regs := by rw [hx]; rfl
  have hkx : Kept [Reg.authStatus] s x := hk.of_same hxr (by rw [hx]; rfl)
  have hxn : now x = now s := by rw [hx]; rfl
  have hxa : x.boot.auditNext = s.boot.auditNext + 1 := by rw [hx]; rfl
  have hrdx : ∀ hi lo, rdF x Reg.authStatus hi lo = rdF (submitted p r s) Reg.authStatus hi lo := fun hi lo => by
    rw [rdF, rd, hxr]; rfl
  obtain ⟨l, hl⟩ : ∃ l, l = ((sess x p).failures.filter (fun t => decide (now x < t + 96000000000))) ++ [now x] := ⟨_, rfl⟩
  obtain ⟨y, hy⟩ : ∃ y, y = onSess p (fun z => { z with
      failures := l,
      lockedUntil := if 8 ≤ l.length then some (now x + 96000000000) else (sess x p).lockedUntil }) x := ⟨_, rfl⟩
  have hc : countFailure p x = wrF Reg.authStatus 3 0 (min 15 l.length) y := by rw [hy, hl]; rfl
  rw [hc] at he
  have hys : sess y p = { sess x p with
      failures := l, lockedUntil := if 8 ≤ l.length then some (now x + 96000000000) else (sess x p).lockedUntil } := by
    rw [hy, sess_onSess_self]
  have hky : Kept [Reg.authStatus] s y := hkx.of_same (by rw [hy]; rfl) (by rw [hy]; rfl)
  have hk' := hky.wrF (a := Reg.authStatus) (by simp) 3 0 (min 15 l.length)
  have hrdy : ∀ hi lo, rdF y Reg.authStatus hi lo = rdF x Reg.authStatus hi lo := fun hi lo => by rw [hy]; rfl
  have hsu : sess (wrF Reg.authStatus 3 0 (min 15 l.length) y) p = sess y p := rfl
  refine ⟨_, he, ?_, ?_, ?_, ?_, ?_, ?_, hk'.regs, hk'.mem⟩
  · rw [roleOf_wrF_low _ _ (by decide) (by decide), roleOf, hrdy, hrdx]; exact hro p
  · rw [rdF_wrF_other _ _ _ _ _ _ _ (by decide) (by decide) (by decide), hrdy, hrdx, hst]
  · rw [hsu, hys, hxs, submitted, sess_onSess_self]
  · rw [wrF_boot, hy]; exact hxa
  · rw [hsu, hys, hl, hxn]; simp
  · intro h8
    rw [hsu, hys] at h8 ⊢
    rw [← hxn]; exact if_pos h8

/-- A path that is locked takes no submission (R445). -/
theorem submit_locked {role slot : Nat} (hr : role < 4) (hs : slot < 16) (h : authResult s p role slot = 5) :
    Completes (.submit p role slot) s (fun u => roleOf u p = roleOf s p ∧ rdF u Reg.authStatus 7 4 = 5
      ∧ sess u p = sess s p ∧ RegsKept [Reg.authStatus] s u ∧ MemKept s u) := by
  have he : exec (.submit p role slot) s = ok (wrF Reg.authStatus 7 4 5 s) := by
    rw [exec_submit hr hs]
    unfold submit
    rw [h, if_pos rfl]
  have hk : Kept [Reg.authStatus] s (wrF Reg.authStatus 7 4 5 s) := (Kept.refl _ s).wrF (by simp) _ _ _
  exact ⟨_, he, roleOf_wrF_low _ _ (by decide) (by decide) _, rdF_wrF_fits _ _ (by decide) (by decide) (by decide), rfl,
    hk.regs, hk.mem⟩

-- The end of a session, and of a lock

/-- CLOSE (R445). -/
theorem close_completes (p : Path) (s : State) : Completes (.close p) s (fun u => roleOf u p = 0
    ∧ (∀ q, q ≠ p → roleOf u q = roleOf s q) ∧ RegsKept [Reg.authStatus] s u ∧ MemKept s u) := by
  have h := sessionEnded_endSession p s
  exact ⟨_, rfl, h.role, h.others, h.kept.regs, h.kept.mem⟩

/-- A session ends at a time. -/
theorem endSession_clockTo (p : Path) (hr : roleOf s p ≠ 0) {t : Nat} (ht : t < 2 ^ 64) :
    roleOf (endSession p (clockTo t s)) p = 0 ∧ t ≤ now (endSession p (clockTo t s))
      ∧ (endSession p (clockTo t s)).boot.auditNext = s.boot.auditNext + 1
      ∧ RegsKept [Reg.authStatus] s (endSession p (clockTo t s)) ∧ MemKept s (endSession p (clockTo t s)) := by
  have h := sessionEnded_endSession p (clockTo t s)
  have hk := ((Kept.refl [Reg.authStatus] s).clockTo t).trans h.kept
  have hb : (clockTo t s).boot = s.boot := by obtain ⟨c, n, he⟩ := clockTo_cases s t; rw [he]
  refine ⟨h.role, ?_, ?_, hk.regs, hk.mem⟩
  · rw [now, h.now]; exact now_clockTo s t ht
  · rw [h.logged (by rw [roleOf, rdF, rd_clockTo]; exact hr), hb]

theorem exec_sessionExpiry (hr : roleOf s p ≠ 0) : exec (.sessionExpiry p) s
    = ok (endSession p (clockTo ((sess s p).openedAt + 5760000000000) s)) := by
  show execSessionExpiry p s = _
  rw [execSessionExpiry, if_neg hr]

/-- A lock ends (R445). -/
theorem authLockoutExpiry_completes {t : Nat} (hl : (sess s p).lockedUntil = some t) (ht : t < 2 ^ 64) :
    Completes (.authLockoutExpiry p) s (fun u => (sess u p).lockedUntil = none ∧ (sess u p).failures = [] ∧ t ≤ now u
      ∧ rdF u Reg.authStatus 3 0 = 0 ∧ RegsKept [Reg.authStatus] s u ∧ MemKept s u) := by
  obtain ⟨x, hx⟩ : ∃ x, x = onSess p (fun y => { y with lockedUntil := none, failures := [] }) (clockTo t s) := ⟨_, rfl⟩
  have he : exec (.authLockoutExpiry p) s = ok (wrF Reg.authStatus 3 0 0 x) := by
    show execAuthLockoutExpiry p s = _
    rw [execAuthLockoutExpiry, hl, hx]
  have hs : sess (wrF Reg.authStatus 3 0 0 x) p = sess x p := rfl
  have hxs : sess x p = { sess (clockTo t s) p with lockedUntil := none, failures := [] } := by
    rw [hx, sess_onSess_self]
  have hk : Kept [Reg.authStatus] s (wrF Reg.authStatus 3 0 0 x) :=
    (((Kept.refl _ s).clockTo t).of_same (by rw [hx]; rfl) (by rw [hx]; rfl)).wrF (by simp) _ _ _
  refine ⟨_, he, ?_, ?_, ?_, rdF_wrF_fits _ _ (by decide) (by decide) (by decide), hk.regs, hk.mem⟩
  · rw [hs, hxs]
  · rw [hs, hxs]
  · show t ≤ now x
    rw [hx]; exact now_clockTo s t ht

end Sys2Proof.Machine
end

section
/-! PROOFS. What the maker and the installer write: licences, key slots, SVN_MIN, draff entries (R438, R441, R443, R454). -/

namespace Sys2Proof.Machine

variable {s : State} {p : Path}

-- Licences

/-- The staged licence (R441). -/
def stagedLicence (s : State) : List Word := (List.range 16).map (fun i => rd s (Reg.licStage i))

theorem exec_install (hm : mayWrite s .installer (.path p) = true) :
    ∃ au n, exec (.install (.path p)) s = ok (withAudit au n (install s).2) := by
  obtain ⟨au, n, h⟩ := answered_withRole (a := Reg.licCtrl) hm (by decide)
    (fun s => if bit (wd (2 ^ 63)) 63 then install s else (true, s))
  refine ⟨au, n, ?_⟩
  show ok (answered (.path p) Reg.licCtrl (licCtrlWrite (.path p) (wd (2 ^ 63)) s)) = _
  rw [licCtrlWrite, hm]
  exact congrArg ok h

/-- A staged licence that passes is stored (R441). -/
theorem install_completes (hm : mayWrite s .installer (.path p) = true) (hr : licenceResult s (stagedLicence s) = 0)
    (ho : ∀ o, s.boot.licence = some o → fld (o.getD 0 0) 31 0 < fld ((stagedLicence s).getD 0 0) 31 0) :
    Completes (.install (.path p)) s (fun u => u.boot.licence = some (stagedLicence s)
      ∧ rdF u Reg.licStatus 63 32 = fld ((stagedLicence s).getD 0 0) 31 0 ∧ rdB u Reg.licStatus 0 = true
      ∧ rdF u Reg.licStatus 15 8 = 0 ∧ RegsKept [Reg.licStatus] s u ∧ MemKept s u) := by
  obtain ⟨x, hx⟩ : ∃ x, x = { s with boot := { s.boot with licence := some (stagedLicence s) } } := ⟨_, rfl⟩
  obtain ⟨y, hy⟩ : ∃ y, y = wrB Reg.licStatus 0 true (wrF Reg.licStatus 63 32 (fld ((stagedLicence s).getD 0 0) 31 0)
    (wrF Reg.licStatus 15 8 0 x)) := ⟨_, rfl⟩
  have hi : (install s).2 = y := by
    unfold install
    rw [if_neg (by simpa [stagedLicence] using hr), hy, hx]
    cases hlic : s.boot.licence with
    | none => rfl
    | some o =>
      have := ho o hlic
      dsimp only
      rw [if_neg (by simpa [stagedLicence] using this)]
      rfl
  obtain ⟨au, n, he⟩ := exec_install hm
  rw [hi] at he
  have hk : Kept [Reg.licStatus] s (withAudit au n y) :=
    (hy ▸ ((((hx ▸ (Kept.refl _ s).of_same rfl rfl : Kept _ s x).wrF (by simp) _ _ _).wrF (by simp) _ _ _).wrB (by simp) _ _)
      : Kept _ s y).withAudit _ _
  refine ⟨_, he, ?_, ?_, ?_, ?_, hk.regs, hk.mem⟩
  · rw [hy, hx]; rfl
  · rw [rdF_withAudit, hy, rdF_wrB_other _ _ _ _ _ _ (by decide) (by decide),
      rdF_wrF_fits _ Reg.licStatus (hi := 63) (lo := 32) (by decide) (by decide) (fld_lt _ 31 0)]
  · rw [rdB_withAudit, hy, rdB_wrB_self _ _ _ _ (by decide)]
  · rw [rdF_withAudit, hy, rdF_wrB_other _ _ _ _ _ _ (by decide) (by decide),
      rdF_wrF_other _ _ _ _ _ _ _ (by decide) (by decide) (by decide), rdF_wrF_fits _ _ (by decide) (by decide) (by decide)]

theorem licenceResult_lt (s : State) (l : List Word) : licenceResult s l < 256 := by
  unfold licenceResult
  dsimp only
  split
  · decide
  · split
    · decide
    · split
      · decide
      · split <;> decide

/-- A staged licence that does not pass is refused with its reason (R441). -/
theorem install_refused (hm : mayWrite s .installer (.path p) = true) (hr : licenceResult s (stagedLicence s) ≠ 0) :
    Completes (.install (.path p)) s (fun u => u.boot.licence = s.boot.licence
      ∧ rdF u Reg.licStatus 15 8 = licenceResult s (stagedLicence s) ∧ rdB u Reg.licStatus 1 = true
      ∧ RegsKept [Reg.licStatus] s u ∧ MemKept s u) := by
  obtain ⟨y, hy⟩ : ∃ y, y = refuseInstall (licenceResult s (stagedLicence s)) s := ⟨_, rfl⟩
  have hi : (install s).2 = y := by
    unfold install
    dsimp only
    rw [if_pos (by simpa [stagedLicence] using hr), hy]
    rfl
  obtain ⟨au, n, he⟩ := exec_install hm
  rw [hi] at he
  have hk : Kept [Reg.licStatus] s (withAudit au n y) :=
    (hy ▸ ((Kept.refl _ s).wrF (by simp) _ _ _).wrB (by simp) _ _ : Kept _ s y).withAudit _ _
  refine ⟨_, he, ?_, ?_, ?_, hk.regs, hk.mem⟩
  · rw [hy]; rfl
  · rw [rdF_withAudit, hy, refuseInstall, rdF_wrB_other _ _ _ _ _ _ (by decide) (by decide),
      rdF_wrF_fits _ _ (by decide) (by decide) (licenceResult_lt _ _)]
  · rw [rdB_withAudit, hy, refuseInstall, rdB_wrB_self _ _ _ _ (by decide)]

-- Key slots

/-- What an admitted write of a key slot asks for (R443). -/
def keyCommand (k w : Nat) (v : Word) (s : State) : Bool × State :=
  let valid := bit (rd s (Reg.key k 0)) 63
  if k < 2 then (false, s)
  else if w = 0 then
    (if !valid then
      (true, wrReg (Reg.key k 0) (wd ((if bit v 63 then 2 ^ 63 else 0) + (if k < 6 then 2 else 1) * 2 ^ 56 + fld v 7 0)) s)
     else if bit v 63 then (false, s)
     else (true, wrB (Reg.key k 0) 63 false s))
  else if valid then (false, s) else (true, wrReg (Reg.key k w) v s)

section
variable {k w : Nat} {v : Word}

theorem skipsLog_key (h16 : k < 16) (h13 : w < 13) : skipsLog (Reg.key k w) = false :=
  decide_eq_false (by simp only [Reg.key, Reg.powerCap, Reg.coolant, Reg.fwShelf]; omega)

theorem unlogged_key (h16 : k < 16) (h13 : w < 13) : unlogged (Reg.key k w) = false :=
  decide_eq_false (by simp only [Reg.key]; omega)

/-- A write of a key slot is logged (R443, R446). -/
theorem exec_keyWrite (h16 : k < 16) (h13 : w < 13)
    (hm : mayWrite s (if k < 6 then .maker else .installer) (.path p) = true) :
    ∃ au, exec (.keyWrite (.path p) k w v) s
      = ok (withAudit au ((keyCommand k w v s).2.boot.auditNext + 1) (keyCommand k w v s).2) := by
  have hc : 2 ≤ needRole (if k < 6 then .maker else .installer) := by split <;> decide
  obtain ⟨au, h⟩ := answered_withRole_logged (a := Reg.key k w) hm (skipsLog_key h16 h13) hc (unlogged_key h16 h13)
    (keyCommand k w v)
  refine ⟨au, ?_⟩
  show execKeyWrite _ _ _ _ _ = _
  rw [execKeyWrite, if_pos ⟨h16, h13⟩]
  exact congrArg ok h

variable (h2 : 2 ≤ k) (h16 : k < 16) (h13 : w < 13)
  (hm : mayWrite s (if k < 6 then .maker else .installer) (.path p) = true)
include h2 h16 h13 hm

/-- A write of a key slot while the slot is not valid (R443). -/
theorem keyWrite_taken (h1 : 1 ≤ w) (hv : bit (rd s (Reg.key k 0)) 63 = false) : Completes (.keyWrite (.path p) k w v) s
    (fun u => rd u (Reg.key k w) = v ∧ RegsKept [Reg.key k w] s u ∧ MemKept s u) := by
  obtain ⟨au, he⟩ := exec_keyWrite (v := v) h16 h13 hm
  have hc : keyCommand k w v s = (true, wrReg (Reg.key k w) v s) := by
    simp only [keyCommand, if_neg (show ¬ k < 2 by omega), if_neg (show ¬ w = 0 by omega), hv, Bool.false_eq_true, if_false]
  rw [hc] at he
  have hk : Kept [Reg.key k w] s (withAudit au (s.boot.auditNext + 1) (wrReg (Reg.key k w) v s)) :=
    ((Kept.refl _ s).wrReg (by simp) _).withAudit _ _
  exact ⟨_, he, rd_wrReg_self .., hk.regs, hk.mem⟩

/-- A valid slot takes no write of its key (R443). -/
theorem keyWrite_barred (h1 : 1 ≤ w) (hv : bit (rd s (Reg.key k 0)) 63 = true) : Completes (.keyWrite (.path p) k w v) s
    (fun u => RegsKept [] s u ∧ u.boot.auditNext = s.boot.auditNext + 1 ∧ MemKept s u) := by
  obtain ⟨au, he⟩ := exec_keyWrite (v := v) h16 h13 hm
  have hc : keyCommand k w v s = (false, s) := by
    simp only [keyCommand, if_neg (show ¬ k < 2 by omega), if_neg (show ¬ w = 0 by omega), hv, if_true]
  rw [hc] at he
  exact ⟨_, he, fun _ _ => rfl, rfl, fun _ => rfl⟩

/-- A valid slot is cleared (R443). -/
theorem keyWrite_cleared (h0 : w = 0) (hv : bit (rd s (Reg.key k 0)) 63 = true) (hb : bit v 63 = false) :
    Completes (.keyWrite (.path p) k w v) s (fun u => bit (rd u (Reg.key k 0)) 63 = false
      ∧ RegsKept [Reg.key k 0] s u ∧ MemKept s u) := by
  obtain ⟨au, he⟩ := exec_keyWrite (v := v) h16 h13 hm
  have hc : keyCommand k w v s = (true, wrB (Reg.key k 0) 63 false s) := by
    simp only [keyCommand, if_neg (show ¬ k < 2 by omega), if_pos h0, hv, hb, Bool.not_true, Bool.false_eq_true, if_false]
  rw [hc] at he
  have hk : Kept [Reg.key k 0] s (withAudit au (s.boot.auditNext + 1) (wrB (Reg.key k 0) 63 false s)) :=
    ((Kept.refl _ s).wrB (by simp) _ _).withAudit _ _
  exact ⟨_, he, rdB_wrB_self _ _ _ _ (by decide), hk.regs, hk.mem⟩

end

-- SVN_MIN and draff entries

/-- SVN_MIN moves upward only (R454). -/
theorem svnMinWrite_completes (hm : mayWrite s .maker (.path p) = true) (v : Word) :
    Completes (.svnMinWrite (.path p) v) s (fun u => rdF u Reg.svnMin 15 0 = max (rdF s Reg.svnMin 15 0) (fld v 15 0)
      ∧ RegsKept [Reg.svnMin] s u ∧ MemKept s u) := by
  obtain ⟨au, n, h⟩ := answered_withRole (a := Reg.svnMin) hm (by decide) (fun s =>
    if fld v 15 0 < rdF s Reg.svnMin 15 0 then (false, s) else (true, wrReg Reg.svnMin (wd (fld v 15 0)) s))
  refine ⟨_, congrArg ok h, ?_⟩
  dsimp only
  split
  case isTrue hlt =>
    refine ⟨?_, fun _ _ => rfl, fun _ => rfl⟩
    rw [rdF_withAudit, max_eq_left (le_of_lt hlt)]
  case isFalse hlt =>
    have hk : Kept [Reg.svnMin] s (withAudit au n (wrReg Reg.svnMin (wd (fld v 15 0)) s)) :=
      ((Kept.refl _ s).wrReg (by simp) _).withAudit _ _
    refine ⟨?_, hk.regs, hk.mem⟩
    rw [rdF_withAudit, rdF_wrReg_self, fld_wd_fld v (by decide), max_eq_right (Nat.not_lt.1 hlt)]

/-- A state with an entry of the draff list voided. -/
def voided (i : Nat) (s : State) : State :=
  let e := mget erased s.boot.draff i
  { s with boot := { s.boot with draff := mset erased s.boot.draff i (setFld e.1 63 60 0, e.2) } }

/-- An entry of the draff list is voided (R438). -/
theorem void_completes (hm : mayWrite s .maker (.path p) = true) {i : Nat} (hi : i = rdF s Reg.draffIndex 7 0)
    (h15 : fld (mget erased s.boot.draff i).1 63 60 ≠ 15) : Completes (.void (.path p)) s (fun u =>
      mget erased u.boot.draff i = (setFld (mget erased s.boot.draff i).1 63 60 0, (mget erased s.boot.draff i).2)
        ∧ (∀ j, j ≠ i → mget erased u.boot.draff j = mget erased s.boot.draff j) ∧ RegsKept [] s u ∧ MemKept s u) := by
  obtain ⟨x, hx⟩ : ∃ x, x = voided i s := ⟨_, rfl⟩
  obtain ⟨au, n, h⟩ := answered_withRole (a := Reg.draffCtrl) (s := s) hm (by decide) (fun s =>
    let i := rdF s Reg.draffIndex 7 0
    let e := mget erased s.boot.draff i
    if !bit (wd (2 ^ 63)) 63 then (true, s)
    else if fld e.1 63 60 = 15 then (false, s)
    else (true, { s with boot := { s.boot with draff := mset erased s.boot.draff i (setFld e.1 63 60 0, e.2) } }))
  have he : exec (.void (.path p)) s = ok (withAudit au n x) := by
    refine congrArg ok (h.trans ?_)
    dsimp only
    rw [← hi, if_neg (by decide), if_neg h15, hx]
    rfl
  refine ⟨_, he, ?_, fun j hj => ?_, fun _ _ => ?_, fun _ => ?_⟩
  · rw [hx]; exact mget_mset_self ..
  · rw [hx]; exact mget_mset_ne _ _ _ hj
  · rw [hx]; rfl
  · rw [hx]; rfl

/-- Settles O58: challenges, submissions, the ends of sessions, and what maker and installer write. -/
theorem sessionsAndKeys : Obligations.SessionsAndKeys := fun s p =>
  ⟨getChallenge_completes p s,
    fun _ _ _ hr hs hR => ⟨fun h => submit_ok hr hs (hR ▸ h), fun h1 h4 => hR ▸ submit_failed hr hs (hR ▸ h1) (hR ▸ h4),
      fun h => submit_locked hr hs (hR ▸ h)⟩,
    close_completes p s,
    fun hr ht => ⟨_, exec_sessionExpiry hr, endSession_clockTo p hr ht⟩,
    fun _ => authLockoutExpiry_completes,
    fun hm _ hl => by subst hl; exact ⟨install_completes hm, install_refused hm⟩,
    fun _ _ _ h2 h16 h13 hm => ⟨keyWrite_taken h2 h16 h13 hm, keyWrite_barred h2 h16 h13 hm, keyWrite_cleared h2 h16 h13 hm⟩,
    fun hm => ⟨svnMinWrite_completes hm, fun _ => void_completes hm⟩⟩

end Sys2Proof.Machine
end

section
/-! PROOFS. The cellar's boot and the start of bring-up steps (R427, R429–R431, R451, R468). -/

namespace Sys2Proof.Machine

variable {s u v : State} {who : Writer} {c st result : Nat}

-- The cellar

/-- A boot that failed (R451). -/
theorem bootFailed_spec (s : State) : cellarState (bootFailed s) = 2 ∧ slotState (bootFailed s) (bootB s) = 3
    ∧ (bootFailed s).boot.cellarStarted = false ∧ (bootFailed s).now = s.now
    ∧ Kept [Reg.fwStatus, Reg.heartbeat] s (bootFailed s) := by
  obtain ⟨x, hx⟩ : ∃ x, x = { s with boot := { s.boot with cellarStarted := false } } := ⟨_, rfl⟩
  have hf : bootFailed s = wrF Reg.heartbeat 63 56 2 (setSlotState (bootB s) 3 x) := by rw [hx]; rfl
  have hkx : Kept [Reg.fwStatus, Reg.heartbeat] s x := hx ▸ (Kept.refl _ s).of_same rfl rfl
  obtain ⟨w, hw⟩ := setSlotState_frame (bootB s) 3 x
  rw [hf]
  refine ⟨rdF_wrF_fits _ _ (by decide) (by decide) (by decide), ?_, ?_, ?_,
    (hkx.setSlotState (by simp) _ _).wrF (by simp) _ _ _⟩
  · exact (slotState_wrReg_ne _ _ (by decide) _).trans (slotState_setSlotState_self _ _ _ (by decide))
  · rw [hw, hx]; rfl
  · rw [hw, hx]; rfl

theorem cellarBoot_starts (h0 : cellarState s = 0) (hs : s.boot.cellarStarted = false)
    (hi : imageFine s (slotOf s (bootB s)) = true) : Completes .cellarBoot s (fun u =>
      u.boot.cellarStarted = true ∧ u.boot.fwFrom = now s ∧ domainIsOn u 60 = true ∧ cellarState u = 0 ∧ MemKept s u) := by
  have he : exec .cellarBoot s = ok (bootRom s) := by
    show execCellarBoot s = _
    rw [execCellarBoot, if_pos ⟨h0, by simp [hs]⟩]
  rw [bootRom_fine hi] at he
  exact ⟨_, he, rfl, rfl, rdB_orReg_pow _ _ (by decide), cellarState_romStarted s, (kept_romStarted s).mem⟩

theorem cellarBoot_fails (h0 : cellarState s = 0) (hs : s.boot.cellarStarted = false)
    (hi : imageFine s (slotOf s (bootB s)) = false) : Completes .cellarBoot s (fun u =>
      cellarState u = 2 ∧ slotState u (bootB s) = 3 ∧ u.boot.cellarStarted = false ∧ MemKept s u) := by
  have he : exec .cellarBoot s = ok (bootRom s) := by
    show execCellarBoot s = _
    rw [execCellarBoot, if_pos ⟨h0, by simp [hs]⟩]
  rw [bootRom_bad hi] at he
  obtain ⟨hc, hsl, hst, -, hk⟩ := bootFailed_spec (romStarted s)
  exact ⟨_, he, hc, bootB_romStarted s ▸ hsl, hst, fun a => (hk.mem a).trans ((kept_romStarted s).mem a)⟩

/-- A boot that failed at a time. -/
theorem bootFailed_clockTo (t : Nat) (s : State) : cellarState (bootFailed (clockTo t s)) = 2
    ∧ slotState (bootFailed (clockTo t s)) (bootB s) = 3 ∧ (t < 2 ^ 64 → t ≤ now (bootFailed (clockTo t s)))
    ∧ MemKept s (bootFailed (clockTo t s)) := by
  obtain ⟨hc, hsl, -, hn, hk⟩ := bootFailed_spec (clockTo t s)
  have hb : bootB (clockTo t s) = bootB s := by rw [bootB, rdB, rd_clockTo, bootB, rdB]
  refine ⟨hc, hb ▸ hsl, fun ht => ?_, (((Kept.refl _ s).clockTo t).trans hk).mem⟩
  rw [now, hn]; exact now_clockTo s t ht

theorem exec_cellarBootTimeout (h0 : cellarState s = 0) (hs : s.boot.cellarStarted = true) :
    exec .cellarBootTimeout s = ok (bootFailed (clockTo (s.boot.fwFrom + 1600000000) s)) := by
  show execCellarBootTimeout s = _
  rw [execCellarBootTimeout, if_pos ⟨h0, hs⟩]

theorem cellarRunning_completes (h0 : cellarState s = 0) (hs : s.boot.cellarStarted = true) :
    Completes .cellarRunning s (fun u => cellarState u = 1 ∧ slotState u (bootB s) = 2 ∧ u.boot.cellarStarted = false
      ∧ RegsKept [Reg.heartbeat, Reg.fwStatus] s u ∧ MemKept s u) := by
  obtain ⟨x, hx⟩ : ∃ x, x = setCellar 1 { s with boot := { s.boot with cellarStarted := false } } := ⟨_, rfl⟩
  have he : exec .cellarRunning s = ok (setSlotState (bootB s) 2 x) := by
    show execCellarRunning s = _
    rw [execCellarRunning, if_pos ⟨h0, hs⟩, hx]
  have hkx : Kept [Reg.heartbeat, Reg.fwStatus] s x := by
    rw [hx]; exact ((Kept.refl _ s).withBoot _).wrF (a := Reg.heartbeat) (by simp) _ _ _
  have hk := hkx.setSlotState (by simp) (bootB s) 2
  obtain ⟨w, hw⟩ := setSlotState_frame (bootB s) 2 x
  refine ⟨_, he, ?_, slotState_setSlotState_self _ _ _ (by decide), ?_, hk.regs, hk.mem⟩
  · rw [cellarState, rdF, rd_setSlotState_ne _ _ _ (by decide), hx]
    exact rdF_wrF_fits _ _ (by decide) (by decide) (by decide)
  · rw [hw, hx]; rfl

-- Steps

theorem reached_lt (s : State) : reached s < 16 := fld_lt _ 19 16

/-- The word that STATUS shows while a step runs. -/
theorem fld_runningWord {r : Nat} (hr : r < 16) (hc : c < 16) : fld (wd (r * 2 ^ 16 + 1 * 2 ^ 4 + c)) 3 0 = c
    ∧ fld (wd (r * 2 ^ 16 + 1 * 2 ^ 4 + c)) 7 4 = 1 ∧ fld (wd (r * 2 ^ 16 + 1 * 2 ^ 4 + c)) 19 16 = r := by
  refine ⟨?_, ?_, ?_⟩ <;> rw [fld_wd _ (by decide)] <;> omega

/-- The word that STATUS shows when a step has ended. -/
theorem fld_endedWord {ms r : Nat} (hr : r < 16) (hres : result < 256) (hst : st < 16) (hc : c < 16) :
    let w := wd (ms % 2 ^ 32 * 2 ^ 32 + r * 2 ^ 16 + result * 2 ^ 8 + st * 2 ^ 4 + c)
    fld w 3 0 = c ∧ fld w 7 4 = st ∧ fld w 15 8 = result ∧ fld w 19 16 = r := by
  refine ⟨?_, ?_, ?_, ?_⟩ <;> rw [fld_wd _ (by decide)] <;> omega

/-- The state in which a step has begun and done nothing yet (R429). -/
def begun (c : Nat) (s : State) : State :=
  wrReg Reg.bringupStatus (wd (reached s * 2 ^ 16 + 1 * 2 ^ 4 + c))
    { s with boot := { s.boot with running := c, stepFrom := now s } }

theorem stepBegun_begun (hc : c < 16) (s : State) : StepBegun c s (begun c s) := by
  have hk : Kept [Reg.bringupStatus] s (begun c s) :=
    ((Kept.refl _ s).withBoot _).wrReg (a := Reg.bringupStatus) (by simp) _
  obtain ⟨h1, h2, h3⟩ := fld_runningWord (reached_lt s) hc
  refine ⟨⟨rfl, rfl, ?_, ?_, ?_⟩, hk.regs, hk.mem⟩
  · rw [begun, rdF_wrReg_self, h1]
  · rw [begun, rdF_wrReg_self, h2]
  · rw [reached, begun, rdF_wrReg_self, h3]

/-- What the end of a step leaves (R429, R453). -/
theorem stepEnded_endStep (hr : s.boot.running = c) (hc : c < 16) (hst : st < 16) (hres : result < 256) :
    StepEnded c st result s (endStep st result s) ∧ Kept [Reg.bringupStatus, Reg.bringupEvent] s (endStep st result s)
      ∧ (endStep st result s).now = s.now := by
  obtain ⟨x, hx⟩ : ∃ x, x = { s with
      boot := { s.boot with running := 0, trainEnd := if c = 6 then now s else s.boot.trainEnd },
      tim := { s.tim with syncing := s.tim.syncing && c != 8 } } := ⟨_, rfl⟩
  obtain ⟨m, hm⟩ : ∃ m, m = stepMs x := ⟨_, rfl⟩
  obtain ⟨r, hreach⟩ : ∃ r, r = if st = 2 then max c (reached s) else reached s := ⟨_, rfl⟩
  have hr16 : r < 16 := by have := reached_lt s; rw [hreach]; split <;> omega
  have he : endStep st result s = orReg Reg.bringupEvent (2 ^ 0) (wrReg Reg.bringupStatus
      (wd (m % 2 ^ 32 * 2 ^ 32 + r * 2 ^ 16 + result * 2 ^ 8 + st * 2 ^ 4 + c)) x) := by
    rw [hm, hreach, hx, ← hr]; rfl
  have hk : Kept [Reg.bringupStatus, Reg.bringupEvent] s x := hx ▸ (Kept.refl _ s).of_same rfl rfl
  obtain ⟨h1, h2, h3, h4⟩ := fld_endedWord (ms := m) hr16 hres hst hc
  rw [he]
  refine ⟨⟨?_, ?_, ?_, ?_, ?_, rdB_orReg_pow _ _ (by decide)⟩, (hk.wrReg (by simp) _).orReg (by simp) _, ?_⟩
  · rw [rdF_orReg_ne _ _ _ _ (by decide), rdF_wrReg_self, h1]
  · rw [rdF_orReg_ne _ _ _ _ (by decide), rdF_wrReg_self, h2]
  · rw [rdF_orReg_ne _ _ _ _ (by decide), rdF_wrReg_self, h3]
  · rw [reached, rdF_orReg_ne _ _ _ _ (by decide), rdF_wrReg_self, h4, hreach]
  · rw [hx]; rfl
  · rw [hx]; rfl

theorem StepEnded.of_reached (h : StepEnded c st result v u) (hr : reached v = reached s) : StepEnded c st result s u := by
  obtain ⟨h1, h2, h3, h4, h5, h6⟩ := h
  exact ⟨h1, h2, h3, hr ▸ h4, h5, h6⟩

-- What training the ports does

/-- From one state to another, no register of the bring-up and its neighbours, no byte of memory, nothing of the bring-up's
own record and of the time block's has changed. -/
structure LowKept (s u : State) : Prop where
  regs : ∀ a, a < 0x40000 → rd u a = rd s a
  mem : MemKept s u
  boot : u.boot = s.boot
  tim : u.tim = s.tim
  now : u.now = s.now

theorem LowKept.refl (s : State) : LowKept s s := ⟨fun _ _ => rfl, fun _ => rfl, rfl, rfl, rfl⟩

theorem LowKept.trans (h : LowKept s u) (h' : LowKept u v) : LowKept s v :=
  ⟨fun a ha => (h'.regs a ha).trans (h.regs a ha), fun a => (h'.mem a).trans (h.mem a), h'.boot.trans h.boot,
    h'.tim.trans h.tim, h'.now.trans h.now⟩

theorem LowKept.wrReg (h : LowKept s u) {a : Nat} (ha : 0x40000 ≤ a) (w : Word) : LowKept s (wrReg a w u) :=
  h.trans ⟨fun b hb => rd_wrReg_ne u w (by omega), fun _ => rfl, rfl, rfl, rfl⟩

theorem LowKept.wrF (h : LowKept s u) {a : Nat} (ha : 0x40000 ≤ a) (hi lo n : Nat) : LowKept s (wrF a hi lo n u) :=
  h.wrReg ha _

theorem portStatus_high (n : Nat) : 0x40000 ≤ Reg.portStatus n := by simp only [Reg.portStatus, Reg.portBase]; omega

/-- An I/O domain that comes on touches the port registers and the domains' status. -/
theorem lowKept_domainCameOn {d : Nat} (h : 52 ≤ d) (b : Bool) (s : State) : LowKept s (domainCameOn b d s) := by
  have h0 : LowKept s (orReg Reg.domainStatus (2 ^ d) s) := (LowKept.refl s).wrReg (by decide) _
  unfold domainCameOn
  dsimp only
  rw [if_neg (by omega), if_neg (by omega)]
  split
  · refine List.foldlRecOn _ _ h0 fun v hv k _ => ?_
    split
    · exact hv.wrF (portStatus_high _) _ _ _
    · exact hv
  · exact h0

theorem lowKept_startTrain (n : Nat) (s : State) : LowKept s (startTrain n s) := by
  have hset : ∀ k, LowKept s (setPortState n k s) := fun k => (LowKept.refl s).wrF (portStatus_high _) _ _ _
  unfold startTrain
  split
  · exact (hset 0).wrF (portStatus_high _) _ _ _
  · split
    · exact LowKept.refl s
    · exact (hset 2).trans ⟨fun _ _ => rfl, fun _ => rfl, rfl, rfl, rfl⟩

/-- What LINK_TRAIN does as it starts (R430). -/
def trainPorts (s : State) : State :=
  let s := (List.range s.boot.ioDies).foldl (fun s i => domainCameOn false (52 + 2 * i) s) s
  (List.range (portCount s)).foldl (fun s n => if portState s n ≤ 1 then startTrain n s else s) s

theorem lowKept_trainPorts (s : State) : LowKept s (trainPorts s) := by
  have h : LowKept s ((List.range s.boot.ioDies).foldl (fun s i => domainCameOn false (52 + 2 * i) s) s) :=
    List.foldlRecOn _ _ (LowKept.refl s) fun v hv i _ => hv.trans (lowKept_domainCameOn (by omega) _ v)
  unfold trainPorts
  refine List.foldlRecOn _ _ h fun v hv n _ => ?_
  split
  · exact hv.trans (lowKept_startTrain n v)
  · exact hv

theorem StepRuns.of_lowKept (h : StepRuns c s u) (hk : LowKept u v) : StepRuns c s v := by
  obtain ⟨h1, h2, h3, h4, h5⟩ := h
  have hb : ∀ hi lo, rdF v Reg.bringupStatus hi lo = rdF u Reg.bringupStatus hi lo := fun hi lo => by
    rw [rdF, hk.regs _ (by decide), rdF]
  exact ⟨hk.boot ▸ h1, hk.boot ▸ h2, hb .. ▸ h3, hb .. ▸ h4, (hb ..).trans h5⟩

-- The writes of STEP

/-- What an admitted write of STEP asks for (R429). -/
def stepCommand (c : Nat) (s : State) : State :=
  if s.boot.running ≠ 0 then refuseStep 0x14 s
  else if (reached s < 9 ∧ c ≠ reached s + 1) ∨ (9 ≤ reached s ∧ c ≠ 6 ∧ c ≠ 7 ∧ c ≠ 8) then refuseStep 0x10 s
  else if cellarState s = 2 then refuseStep 0x15 s
  else beginStep c s

/-- The nine steps and their numbers. -/
def IsStep (who : Writer) (i : Instr) (c : Nat) : Prop :=
  (i, c) ∈ [(.fuseLoad who, 1), (.domainUp who, 2), (.selfTest who, 3), (.sramClear who, 4), (.hbmTrain who, 5),
    (.linkTrain who, 6), (.linkQualify who, 7), (.timeSync who, 8), (.ready who, 9)]

theorem exec_stepCommands {i : Instr} (h : IsStep who i c) (s : State) :
    exec i s = ok (answered who Reg.step (stepWrite who c s)) := by
  simp only [IsStep, List.mem_cons, Prod.mk.injEq, List.not_mem_nil, or_false] at h
  rcases h with ⟨rfl, rfl⟩ | ⟨rfl, rfl⟩ | ⟨rfl, rfl⟩ | ⟨rfl, rfl⟩ | ⟨rfl, rfl⟩ | ⟨rfl, rfl⟩ | ⟨rfl, rfl⟩ | ⟨rfl, rfl⟩ | ⟨rfl, rfl⟩ <;> rfl

theorem exec_stepCommand {i : Instr} (h : IsStep who i c) (hm : mayWrite s .operator who = true) :
    exec i s = ok (stepCommand c s) := by
  rw [exec_stepCommands h]
  unfold stepWrite
  rw [if_pos hm, answered_withRoleDo _ _ hm]
  have hl : ∀ x, logOutcome .operator who Reg.step true x = x := fun x => by
    rw [logOutcome, if_neg (by decide), if_neg (by decide)]
  rw [hl]; rfl

/-- A refused write of STEP (R429). -/
theorem stepRefused_refuseStep {why : Nat} (h : why < 256) (s : State) : StepRefused why s (refuseStep why s) := by
  refine ⟨rdF_wrF_fits _ _ (by decide) (by decide) (by decide), ?_, rfl, fun _ => rfl⟩
  rw [refuseStep, rdF_wrF_other _ _ _ _ _ _ _ (by decide) (by decide) (by decide),
    rdF_wrF_fits _ _ (by decide) (by decide) h]

section
variable {i : Instr} {k : Nat} (hi : IsStep who i k)
include hi

theorem step_busy (hm : mayWrite s .operator who = true) (hr : s.boot.running ≠ 0) : Completes i s (StepRefused 0x14 s) := by
  refine ⟨_, exec_stepCommand hi hm, ?_⟩
  rw [stepCommand, if_pos hr]; exact stepRefused_refuseStep (by decide) s

theorem step_outOfOrder (hm : mayWrite s .operator who = true) (hr : s.boot.running = 0)
    (ho : (reached s < 9 ∧ k ≠ reached s + 1) ∨ (9 ≤ reached s ∧ k ≠ 6 ∧ k ≠ 7 ∧ k ≠ 8)) :
    Completes i s (StepRefused 0x10 s) := by
  refine ⟨_, exec_stepCommand hi hm, ?_⟩
  rw [stepCommand, if_neg (by simp [hr]), if_pos ho]; exact stepRefused_refuseStep (by decide) s

theorem step_inRecovery (hm : mayWrite s .operator who = true) (hr : s.boot.running = 0) (hc : cellarState s = 2)
    (ho : (reached s < 9 ∧ k = reached s + 1) ∨ (9 ≤ reached s ∧ (k = 6 ∨ k = 7 ∨ k = 8))) :
    Completes i s (StepRefused 0x15 s) := by
  refine ⟨_, exec_stepCommand hi hm, ?_⟩
  rw [stepCommand, if_neg (by simp [hr]), if_neg (by omega), if_pos hc]; exact stepRefused_refuseStep (by decide) s

theorem step_noRole {p : Path} (hw : who = .path p) (hm : mayWrite s .operator who = false) :
    Completes i s (StepRefused 0x11 s) := by
  subst hw
  obtain ⟨x, hx⟩ : ∃ x, x = refuseStep 0x11 s := ⟨_, rfl⟩
  have hmx : mayWrite x .operator (.path p) = false := by
    have : ∀ q, roleOf x q = roleOf s q := fun q => by
      rw [hx, roleOf, refuseStep, rdF_wrF_ne _ _ _ _ _ _ (by decide), rdF_wrF_ne _ _ _ _ _ _ (by decide), roleOf]
    rw [mayWrite, this]; exact hm
  obtain ⟨au, ha⟩ := logWrite_frame (.path p) Reg.step 1 [] [] (addSat Reg.roleRefused 31 0 1 x)
  have he : exec i s = ok (withAudit au (x.boot.auditNext + 1) (addSat Reg.roleRefused 31 0 1 x)) := by
    rw [exec_stepCommands hi]
    unfold stepWrite
    rw [hm, if_neg (by decide), ← hx]
    simp only [answered, withRoleDo, withRole, hmx, Bool.false_eq_true, if_false, if_true, refuseRole]
    rw [if_neg (by decide), ha]
    rfl
  obtain ⟨h1, h2, h3, h4⟩ := stepRefused_refuseStep (why := 0x11) (by decide) s
  rw [← hx] at h1 h2 h3 h4
  refine ⟨_, he, ?_, ?_, h3, h4⟩
  · rw [rdF_withAudit, rdF, rd_addSat_ne _ _ _ _ (by decide)]; exact h1
  · rw [rdF_withAudit, rdF, rd_addSat_ne _ _ _ _ (by decide)]; exact h2

variable (hm : mayWrite s .operator who = true) (hr : s.boot.running = 0) (hc : cellarState s ≠ 2)
include hm hr hc

/-- A step whose turn it is begins (R429). -/
theorem exec_step_begins (ho : (reached s < 9 ∧ k = reached s + 1) ∨ (9 ≤ reached s ∧ (k = 6 ∨ k = 7 ∨ k = 8))) :
    exec i s = ok (beginStep k s) := by
  rw [exec_stepCommand hi hm, stepCommand, if_neg (by simp [hr]), if_neg (by omega), if_neg hc]

theorem step_begun (ho : (reached s < 9 ∧ k = reached s + 1) ∨ (9 ≤ reached s ∧ (k = 6 ∨ k = 7 ∨ k = 8)))
    (h6 : k ≠ 6) (h8 : k ≠ 8) (h16 : k < 16) : Completes i s (StepBegun k s) := by
  refine ⟨_, exec_step_begins hi hm hr hc ho, ?_⟩
  have : beginStep k s = begun k s := by
    unfold beginStep
    rw [if_neg h6, if_neg h8]; rfl
  rw [this]; exact stepBegun_begun h16 s

end

section
variable (hm : mayWrite s .operator who = true) (hr : s.boot.running = 0) (hc : cellarState s ≠ 2)
include hm hr hc

theorem linkTrain_runs (ho : reached s = 5 ∨ 9 ≤ reached s) (hw : s.boot.routeWritten = true) :
    Completes (.linkTrain who) s (fun u => StepRuns 6 s u ∧ MemKept s u) := by
  have he := exec_step_begins (i := .linkTrain who) (k := 6) (by simp [IsStep]) hm hr hc (by omega)
  have hb : beginStep 6 s = trainPorts (begun 6 s) := by
    have hw' : ¬ (!s.boot.routeWritten) = true := by simp [hw]
    unfold beginStep
    rw [if_pos rfl]
    exact if_neg hw'
  rw [hb] at he
  obtain ⟨h, -, hk⟩ := stepBegun_begun (c := 6) (by decide) s
  have hl := lowKept_trainPorts (begun 6 s)
  exact ⟨_, he, h.of_lowKept hl, fun a => (hl.mem a).trans (hk a)⟩

theorem linkTrain_unrouted (ho : reached s = 5 ∨ 9 ≤ reached s) (hw : s.boot.routeWritten = false) :
    Completes (.linkTrain who) s (fun u => StepEnded 6 3 0x12 s u ∧ MemKept s u) := by
  have he := exec_step_begins (i := .linkTrain who) (k := 6) (by simp [IsStep]) hm hr hc (by omega)
  have hb : beginStep 6 s = endStep 3 0x12 (begun 6 s) := by
    have hw' : (!s.boot.routeWritten) = true := by simp [hw]
    unfold beginStep
    rw [if_pos rfl]
    exact if_pos hw'
  rw [hb] at he
  obtain ⟨⟨h1, -, -, -, h5⟩, -, hk⟩ := stepBegun_begun (c := 6) (by decide) s
  obtain ⟨h, hk', -⟩ := stepEnded_endStep (st := 3) (result := 0x12) h1 (by decide) (by decide) (by decide)
  exact ⟨_, he, h.of_reached h5, fun a => (hk'.mem a).trans (hk a)⟩

theorem timeSync_master (ho : reached s = 7 ∨ 9 ≤ reached s) (hi : isMaster s = true) :
    Completes (.timeSync who) s (fun u => StepRuns 8 s u ∧ timeState u = 2 ∧ MemKept s u) := by
  have he := exec_step_begins (i := .timeSync who) (k := 8) (by simp [IsStep]) hm hr hc (by omega)
  obtain ⟨h, hrk, hk⟩ := stepBegun_begun (c := 8) (by decide) s
  have hb : beginStep 8 s = setTimeState 2 (begun 8 s) := by
    have hi' : isMaster (begun 8 s) = true := by rw [isMaster, rdB, hrk _ (by decide)]; exact hi
    unfold beginStep
    rw [if_neg (by decide), if_pos rfl]
    exact if_pos hi'
  rw [hb] at he
  exact ⟨_, he, h.of_lowKept ((LowKept.refl _).wrF (by decide) _ _ _), rdF_wrF_fits _ _ (by decide) (by decide) (by decide), hk⟩

omit hm hr hc in
/-- The port that time comes from goes by registers of the time block, the twin and the ports. -/
theorem parentPort_congr (h : ∀ a, 0x60000 ≤ a → rd u a = rd s a) (ht : u.tim = s.tim) (hw : u.twin = s.twin) :
    parentPort u = parentPort s := by
  have hp : ∀ d, portsTo u d = portsTo s d := fun d => by
    have h1 : ∀ n, rd u (Reg.portStatus n) = rd s (Reg.portStatus n) := fun n =>
      h _ (by simp only [Reg.portStatus, Reg.portBase]; omega)
    have h2 : ∀ n, rd u (Reg.neighbour n) = rd s (Reg.neighbour n) := fun n =>
      h _ (by simp only [Reg.neighbour, Reg.portBase]; omega)
    simp only [portsTo, portState, rdF, rdB, h1, h2]
  have hc := h Reg.twinCtrl (by decide)
  have hs := h Reg.twinStatus (by decide)
  have hpar := h Reg.timeParent (by decide)
  simp only [parentPort, twinParent, twinOn, twinTenant, twinRole, twinPeer, rdF, rdB, hp, hc, hs, hpar, ht, hw]
  rfl

omit hm hr hc in
theorem parentPort_begun (k : Nat) (s : State) : parentPort (begun k s) = parentPort s :=
  parentPort_congr (fun _ ha => rd_wrReg_ne _ _ (by rw [Reg.bringupStatus]; omega)) rfl rfl

theorem timeSync_orphan (ho : reached s = 7 ∨ 9 ≤ reached s) (hi : isMaster s = false) (hp : parentPort s = none) :
    Completes (.timeSync who) s (fun u => StepEnded 8 3 0x13 s u ∧ MemKept s u) := by
  have he := exec_step_begins (i := .timeSync who) (k := 8) (by simp [IsStep]) hm hr hc (by omega)
  obtain ⟨⟨h1, -, -, -, h5⟩, hrk, hk⟩ := stepBegun_begun (c := 8) (by decide) s
  have hb : beginStep 8 s = endStep 3 0x13 (begun 8 s) := by
    have hi' : ¬ isMaster (begun 8 s) = true := by rw [isMaster, rdB, hrk _ (by decide)]; exact ne_true_of_eq_false hi
    unfold beginStep
    rw [if_neg (by decide), if_pos rfl]
    exact (if_neg hi').trans (if_pos ((parentPort_begun 8 s).trans hp))
  rw [hb] at he
  obtain ⟨h, hk', -⟩ := stepEnded_endStep (st := 3) (result := 0x13) h1 (by decide) (by decide) (by decide)
  exact ⟨_, he, h.of_reached h5, fun a => (hk'.mem a).trans (hk a)⟩

theorem timeSync_child (ho : reached s = 7 ∨ 9 ≤ reached s) (hi : isMaster s = false) (hp : parentPort s ≠ none) :
    Completes (.timeSync who) s (fun u => StepRuns 8 s u ∧ u.tim.syncing = true ∧ MemKept s u) := by
  have he := exec_step_begins (i := .timeSync who) (k := 8) (by simp [IsStep]) hm hr hc (by omega)
  obtain ⟨⟨h1, h2, h3, h4, h5⟩, hrk, hk⟩ := stepBegun_begun (c := 8) (by decide) s
  have hb : beginStep 8 s = { begun 8 s with tim := { s.tim with syncing := true } } := by
    have hi' : ¬ isMaster (begun 8 s) = true := by rw [isMaster, rdB, hrk _ (by decide)]; exact ne_true_of_eq_false hi
    have hp' : ¬ parentPort (begun 8 s) = none := by rw [parentPort_begun]; exact hp
    unfold beginStep
    rw [if_neg (by decide), if_pos rfl]
    exact (if_neg hi').trans (if_neg hp')
  rw [hb] at he
  exact ⟨_, he, ⟨h1, h2, h3, h4, h5⟩, rfl, hk⟩

end

/-- Instructions of the boundary scan (R468). -/
theorem boundaryScan_completes {codes : List (BitVec 8)} (h : codes.length = 4 + s.boot.ioDies) :
    Completes (.boundaryScanInstruction codes) s (fun u =>
      u.boot.tap = codes ∧ tapNow u = codes.map (tapEffect s) ∧ RegsKept [] s u ∧ MemKept s u
        ∧ ∀ c, c ∈ [(0 : BitVec 8), 4, 5, 8, 9] → 1 < reached s → tapEffect s c = 0xFF) := by
  refine ⟨{ s with boot := { s.boot with tap := codes } }, ?_, rfl, rfl, fun _ _ => rfl, fun _ => rfl, fun c hc hr => ?_⟩
  · show execBoundaryScanInstruction codes s = _
    rw [execBoundaryScanInstruction, if_pos h]; rfl
  · have hc' : c = 0 ∨ c = 4 ∨ c = 5 ∨ c = 8 ∨ c = 9 := by simpa using hc
    rw [tapEffect, if_pos hc', if_neg (by omega)]

/-- Settles O56: the cellar's boot, the start of each step, its refusals, the boundary scan. -/
theorem cellarAndStepStarts : Obligations.CellarAndStepStarts := fun s who =>
  ⟨fun h0 hs => ⟨cellarBoot_starts h0 hs, cellarBoot_fails h0 hs⟩,
    fun h0 hs => ⟨fun ht => by
        obtain ⟨h1, h2, h3, h4⟩ := bootFailed_clockTo (s.boot.fwFrom + 1600000000) s
        exact ⟨_, exec_cellarBootTimeout h0 hs, h1, h2, h3 ht, h4⟩,
      cellarRunning_completes h0 hs⟩,
    fun hm hr hc =>
      have hb : ∀ {i : Instr} {k : Nat}, IsStep who i k →
          (reached s < 9 ∧ k = reached s + 1) ∨ (9 ≤ reached s ∧ (k = 6 ∨ k = 7 ∨ k = 8)) → k ≠ 6 → k ≠ 8 → k < 16 →
          Completes i s (StepBegun k s) := fun hi => step_begun hi hm hr hc
      ⟨fun h => hb (by simp [IsStep]) (by omega) (by decide) (by decide) (by decide),
        fun h => hb (by simp [IsStep]) (by omega) (by decide) (by decide) (by decide),
        fun h => hb (by simp [IsStep]) (by omega) (by decide) (by decide) (by decide),
        fun h => hb (by simp [IsStep]) (by omega) (by decide) (by decide) (by decide),
        fun h => hb (by simp [IsStep]) (by omega) (by decide) (by decide) (by decide),
        linkTrain_runs hm hr hc, linkTrain_unrouted hm hr hc,
        fun h => hb (by simp [IsStep]) (by omega) (by decide) (by decide) (by decide),
        timeSync_master hm hr hc, timeSync_orphan hm hr hc, timeSync_child hm hr hc,
        fun h => hb (by simp [IsStep]) (by omega) (by decide) (by decide) (by decide)⟩,
    fun _ _ hi => ⟨step_busy hi, step_outOfOrder hi, step_inRecovery hi, fun _ => step_noRole hi⟩,
    fun _ => boundaryScan_completes⟩

end Sys2Proof.Machine
end

section
/-! PROOFS. The operations that bring-up and resets share: domains coming on, the self-test, the clearing of SRAM, training,
the fuses (R159, R160, R168, R179, R430, R434–R442). -/

namespace Sys2Proof.Machine

variable {s u v : State} {p q : Nat}

-- What bring-up reads of its own

/-- From one state to another, no register of the bring-up and its neighbours has changed, nothing of its own record, of the
time block's, and not the clock. -/
structure LowRegs (s u : State) : Prop where
  regs : ∀ a, a < 0x40000 → rd u a = rd s a
  boot : u.boot = s.boot
  tim : u.tim = s.tim
  now : u.now = s.now

theorem LowRegs.refl (s : State) : LowRegs s s := ⟨fun _ _ => rfl, rfl, rfl, rfl⟩

theorem LowRegs.trans (h : LowRegs s u) (h' : LowRegs u v) : LowRegs s v :=
  ⟨fun a ha => (h'.regs a ha).trans (h.regs a ha), h'.boot.trans h.boot, h'.tim.trans h.tim, h'.now.trans h.now⟩

theorem LowRegs.wrReg (h : LowRegs s u) {a : Nat} (ha : 0x40000 ≤ a) (w : Word) : LowRegs s (wrReg a w u) :=
  h.trans ⟨fun b hb => rd_wrReg_ne u w (by omega), rfl, rfl, rfl⟩

theorem LowRegs.fence (h : LowRegs s u) (p : Nat) : fenceState u p = fenceState s p := by
  rw [fenceState, rdF, h.regs _ (by decide), fenceState, rdF]

theorem LowRegs.presentParts (h : LowRegs s u) : presentParts u = presentParts s := by
  simp only [Machine.presentParts, h.fence]

theorem LowRegs.reached (h : LowRegs s u) : reached u = reached s := by
  rw [Machine.reached, rdF, h.regs _ (by decide), Machine.reached, rdF]

theorem LowRegs.domainExists (h : LowRegs s u) (d : Nat) : domainExists u d = domainExists s d := by
  simp only [Machine.domainExists, h.fence, h.boot]

theorem mem_presentParts : p ∈ presentParts s ↔ p < 4 ∧ fenceState s p ≠ 4 := by
  simp [presentParts]

/-- A part of a field reads that part of what was written into the field. -/
theorem rdF_wrF_within (s : State) (a : Nat) {hi lo n hi' lo' : Nat} (h : lo ≤ lo') (h' : lo' ≤ hi') (h'' : hi' ≤ hi)
    (h64 : hi < 64) : rdF (wrF a hi lo n s) a hi' lo' = n / 2 ^ (lo' - lo) % 2 ^ (hi' + 1 - lo') := by
  rw [rdF, rd_wrF_self]
  apply Nat.eq_of_testBit_eq
  intro i
  rw [fld_testBit, bit_setFld _ _ _ _ _ (by omega) h64, Nat.testBit_mod_two_pow, Nat.testBit_div_two_pow]
  by_cases hb : i < hi' + 1 - lo'
  · have h1 : lo ≤ lo' + i ∧ lo' + i ≤ hi := by omega
    rw [if_pos h1, show lo' + i - lo = i + (lo' - lo) by omega]
  · simp [hb]

/-- The state of every partition after one partition's fence field was written. -/
theorem fenceState_wrF (hp : p < 4) (n q : Nat) (s : State) :
    fenceState (wrF Reg.fenceStatus (16 * p + 15) (16 * p) n s) q = if q = p then n % 16 else fenceState s q := by
  unfold fenceState
  split
  · next h =>
    subst h
    rw [rdF_wrF_within _ _ (by omega) (by omega) (by omega) (by omega), Nat.sub_self, pow_zero, Nat.div_one,
      show 16 * q + 3 + 1 - 16 * q = 4 by omega]; rfl
  · exact rdF_wrF_other _ _ _ _ _ _ _ (by omega) (by omega) (by omega)

-- Domains

theorem hbmStatus_high (p i : Nat) : 0x300000 ≤ Reg.hbmStatus p i := by simp only [Reg.hbmStatus, Reg.stackBase]; omega

theorem lowRegs_setWait (p i : Nat) (w : Option RetrainReq) (s : State) : LowRegs s (setWait p i w s) := by
  have h : LowRegs s (onStk p i (fun k => { k with wait := w }) s) := ⟨fun _ _ => rfl, rfl, rfl, rfl⟩
  exact h.wrReg (by have := hbmStatus_high p i; omega) _

/-- What a domain that comes on leaves: its bit set, no other cleared (R379, R380). -/
structure CameOn (d : Nat) (s u : State) : Prop where
  low : LowRegs s u
  status : rd u Reg.domainStatus = rd s Reg.domainStatus ||| wd (2 ^ d)

/-- Everything that a domain coming on does after its bit is set. -/
theorem cameOn_of_rest {x : State} {d : Nat} (h : LowRegs (orReg Reg.domainStatus (2 ^ d) s) x)
    (hs : rd x Reg.domainStatus = rd (orReg Reg.domainStatus (2 ^ d) s) Reg.domainStatus) : CameOn d s x :=
  ⟨((LowRegs.refl s).wrReg (by decide) _).trans h, by rw [hs, rd_orReg_self]⟩

theorem cameOn_domainCameOn (b : Bool) (d : Nat) (s : State) : CameOn d s (domainCameOn b d s) := by
  unfold domainCameOn
  dsimp only
  generalize hx : orReg Reg.domainStatus (2 ^ d) s = x
  have hst : ∀ p i n, LowRegs x (setStackState p i n x)
      ∧ rd (setStackState p i n x) Reg.domainStatus = rd x Reg.domainStatus := fun p i n => by
    have := hbmStatus_high p i
    exact ⟨(LowRegs.refl x).wrReg (by omega) _, rd_wrF_ne _ _ _ _ (by rw [Reg.domainStatus]; omega)⟩
  subst hx
  split
  · exact cameOn_of_rest ⟨fun _ _ => rfl, rfl, rfl, rfl⟩ rfl
  · split
    · split
      · exact cameOn_of_rest (LowRegs.refl _) rfl
      · obtain ⟨h, hd⟩ := hst ((d - 36) / 4) ((d - 36) % 4) 2
        cases b
        · refine cameOn_of_rest (h.trans (lowRegs_setWait _ _ _ _)) ?_
          have := hbmStatus_high ((d - 36) / 4) ((d - 36) % 4)
          exact (rd_wrB_ne _ _ _ (by rw [Reg.domainStatus]; omega)).trans hd
        · exact cameOn_of_rest h hd
    · split
      · refine cameOn_of_rest ?_ ?_
        · refine List.foldlRecOn _ _ (LowRegs.refl _) fun v hv k _ => ?_
          split
          · have := portStatus_high (8 * ((d - 52) / 2) + k)
            exact hv.wrReg (by omega) _
          · exact hv
        · refine List.foldlRecOn (motive := fun v => rd v Reg.domainStatus = _) _ _ rfl fun v hv k _ => ?_
          split
          · rw [rd_wrF_ne _ _ _ _ (by simp only [Reg.domainStatus, Reg.portStatus, Reg.portBase]; omega)]; exact hv
          · exact hv
      · exact cameOn_of_rest (LowRegs.refl _) rfl

theorem CameOn.isOn {d : Nat} (h : CameOn d s u) (e : Nat) : domainIsOn u e = (domainIsOn s e || bit (wd (2 ^ d)) e) := by
  rw [domainIsOn, rdB, h.status, domainIsOn, rdB, bit, BitVec.getLsbD_or]; rfl

/-- The domains of a list come on that exist. -/
def domainsOn (l : List Nat) (s : State) : State :=
  l.foldl (fun s d => if domainExists s d then domainCameOn true d s else s) s

theorem lowRegs_domainsOn (l : List Nat) (s : State) : LowRegs s (domainsOn l s) := by
  refine List.foldlRecOn _ _ (LowRegs.refl s) fun v hv d _ => ?_
  split
  · exact hv.trans (cameOn_domainCameOn true d v).low
  · exact hv

theorem domainIsOn_domainsOn {l : List Nat} {d : Nat} (hd : d ∈ l) (h64 : d < 64) (he : domainExists s d = true) :
    domainIsOn (domainsOn l s) d = true := by
  induction l using List.reverseRecOn with
  | nil => simp at hd
  | append_singleton l e ih =>
    have hl := lowRegs_domainsOn l s
    unfold domainsOn at ih hl ⊢
    rw [List.foldl_append]
    simp only [List.foldl_cons, List.foldl_nil]
    generalize l.foldl (fun s d => if domainExists s d then domainCameOn true d s else s) s = x at ih hl ⊢
    split
    case isTrue =>
      rw [(cameOn_domainCameOn true e x).isOn]
      by_cases hde : d = e
      · subst hde
        rw [bit_wd _ h64, Nat.testBit_two_pow_self, Bool.or_true]
      · have : d ∈ l := by simpa [hde] using hd
        rw [ih this, Bool.true_or]
    case isFalse hne =>
      have hde : d ≠ e := fun h => hne (by rw [← h, hl.domainExists]; exact he)
      exact ih (by simpa [hde] using hd)

-- SRAM

theorem memByte_clearSram (p : Nat) (s : State) (a : Nat) : memByte (clearSram p s) a
    = if sramAddr (128 * p) 0 ≤ a ∧ a < sramAddr (128 * (p + 1)) 0 then 0 else memByte s a :=
  memByte_zeroRange s _ _ a

/-- The SRAM of a partition reads 0 once cleared (R159). -/
theorem memByte_clearSram_tile {t k : Nat} (ht : t < 128) (hk : k < 0x200000) (p : Nat) (s : State) :
    memByte (clearSram p s) (sramAddr (128 * p + t) k) = 0 := by
  rw [memByte_clearSram, if_pos]
  simp only [sramAddr]; omega

theorem memByte_clearSram_zero {a : Nat} (h : memByte s a = 0) (p : Nat) : memByte (clearSram p s) a = 0 := by
  rw [memByte_clearSram]; split
  · rfl
  · exact h

theorem lowRegs_clearSram (p : Nat) (s : State) : LowRegs s (clearSram p s) := ⟨fun _ _ => rfl, rfl, rfl, rfl⟩

-- The self-test

/-- The self-test of a partition whose list retires no tile, and that finds none bad. -/
theorem selfTestPart_clean (h : draffTiles s p = []) : ∃ w n, selfTestPart p [] s
    = (List.range 128).foldl (fun s t => setTileState (128 * p + t) 0 s)
        (wrF Reg.partResult (16 * p + 15) (16 * p) n (wrReg (Reg.spareMap p) w s)) := by
  have hm : remapOf (([] : List Nat).eraseDups) = ⟨[none, none, none, none], []⟩ := by
    have hf : (List.range 128).filter (fun t => ([] : List Nat).eraseDups.contains t) = [] := by simp
    unfold remapOf
    rw [hf]; rfl
  refine ⟨spareWord [] ⟨[none, none, none, none], []⟩, 128 * 256, ?_⟩
  unfold selfTestPart
  dsimp only
  rw [h]
  simp only [List.filter_nil, List.foldl_nil, List.map_nil, List.append_nil, hm]
  rfl

end Sys2Proof.Machine
end

section
/-! PROOFS. How the steps of bring-up end (R429–R436). -/

namespace Sys2Proof.Machine

variable {s u v x : State} {p : Nat}

-- The fuses

/-- What FUSE_LOAD writes of the device's identity. -/
def fuseIdentity (s : State) : State :=
  s |> wrReg Reg.serial s.boot.serial
    |> wrReg Reg.assembly (wd (s.boot.ioDies * 2 ^ 8 + s.boot.stackCount * 2 ^ 4 + 1))
    |> wrReg Reg.capability (capabilityOf s)
    |> wrB Reg.licStatus 0 (validLicence s).isSome
    |> wrF Reg.licStatus 63 32 (match validLicence s with | some l => fld (l.getD 0 0) 31 0 | none => 0)

/-- What FUSE_LOAD writes of the device's power and its preset. -/
def fusePower (s : State) : State :=
  s |> wrF Reg.powerCap 47 32 (tdpOf s) |> wrF Reg.powerCap 15 0 (tdpOf s)
    |> wrF Reg.capLease 47 32 (tdpOf s * 3 / 4)
    |> (if rdF s Reg.capability 13 8 = 32 ∧ rd s Reg.preset = Reg.resetValue Reg.preset then wrReg Reg.preset 0 else id)

/-- The stacks that were never assembled are ABSENT. -/
def absentStacks (s : State) : State :=
  (List.range 4).foldl (fun s p => (List.range 4).foldl (fun s i =>
    if i < s.boot.stackCount then s else setStackState p i 0 s) s) s

theorem loadFuses_eq (s : State) : loadFuses s = absentStacks (fusePower (fuseIdentity s)) := rfl

/-- The registers below the stacks' that the fuses set. -/
abbrev fuseRegs : List Nat :=
  [Reg.serial, Reg.assembly, Reg.capability, Reg.licStatus, Reg.powerCap, Reg.capLease, Reg.preset]

/-- From one state to another, nothing has changed of the registers below the stacks', of memory, of bring-up's own record,
the time block's, the clock. -/
structure OffStacks (s u : State) : Prop where
  regs : ∀ a, a < 0x300000 → rd u a = rd s a
  mem : MemKept s u
  boot : u.boot = s.boot
  tim : u.tim = s.tim
  now : u.now = s.now

theorem OffStacks.refl (s : State) : OffStacks s s := ⟨fun _ _ => rfl, fun _ => rfl, rfl, rfl, rfl⟩

theorem OffStacks.trans (h : OffStacks s u) (h' : OffStacks u v) : OffStacks s v :=
  ⟨fun a ha => (h'.regs a ha).trans (h.regs a ha), fun a => (h'.mem a).trans (h.mem a), h'.boot.trans h.boot,
    h'.tim.trans h.tim, h'.now.trans h.now⟩

theorem OffStacks.wrReg (h : OffStacks s u) {a : Nat} (ha : 0x300000 ≤ a) (w : Word) : OffStacks s (wrReg a w u) :=
  h.trans ⟨fun b hb => rd_wrReg_ne u w (by omega), fun _ => rfl, rfl, rfl, rfl⟩

theorem OffStacks.orReg (h : OffStacks s u) {a : Nat} (ha : 0x300000 ≤ a) (m : Nat) : OffStacks s (orReg a m u) :=
  h.wrReg ha _

theorem OffStacks.wrF (h : OffStacks s u) {a : Nat} (ha : 0x300000 ≤ a) (hi lo n : Nat) : OffStacks s (wrF a hi lo n u) :=
  h.wrReg ha _

theorem OffStacks.onStk (h : OffStacks s u) (p i : Nat) (f : Stack → Stack) : OffStacks s (onStk p i f u) :=
  h.trans ⟨fun _ _ => rfl, fun _ => rfl, rfl, rfl, rfl⟩

theorem OffStacks.freeNext (h : OffStacks s u) : OffStacks s (freeNext u).2 :=
  h.trans ⟨fun _ _ => rfl, fun _ => rfl, rfl, rfl, rfl⟩

theorem OffStacks.low (h : OffStacks s u) : LowRegs s u := ⟨fun a ha => h.regs a (by omega), h.boot, h.tim, h.now⟩

theorem OffStacks.setStackState (h : OffStacks s u) (p i n : Nat) : OffStacks s (setStackState p i n u) :=
  h.wrReg (hbmStatus_high p i) _

theorem offStacks_absentStacks (s : State) : OffStacks s (absentStacks s) :=
  List.foldlRecOn _ _ (OffStacks.refl s) fun v hv p _ => List.foldlRecOn _ _ hv fun w hw i _ => by
    split
    · exact hw
    · exact hw.setStackState p i 0

theorem kept_fuseIdentity (s : State) : Kept fuseRegs s (fuseIdentity s) :=
  ((((Kept.refl _ s).wrReg (by simp) _).wrReg (by simp) _).wrReg (by simp) _ |>.wrB (by simp) _ _).wrF (by simp) _ _ _

theorem kept_fusePower (s : State) : Kept fuseRegs s (fusePower s) := by
  have h := (((Kept.refl fuseRegs s).wrF (a := Reg.powerCap) (by simp) 47 32 (tdpOf s)).wrF (a := Reg.powerCap) (by simp) 15 0
    (tdpOf s)).wrF (a := Reg.capLease) (by simp) 47 32 (tdpOf s * 3 / 4)
  unfold fusePower
  split
  · exact h.wrReg (a := Reg.preset) (by simp) _
  · exact h

theorem tdpOf_lt (s : State) : tdpOf s < 2 ^ 16 := by unfold tdpOf; split <;> split <;> decide

/-- The preset aside, what the fuses set of power is what `tdpOf` says, and the identity stays. -/
theorem fusePower_spec (s : State) : rdF (fusePower s) Reg.powerCap 47 32 = tdpOf s
    ∧ rd (fusePower s) Reg.serial = rd s Reg.serial ∧ rd (fusePower s) Reg.capability = rd s Reg.capability
    ∧ (fusePower s).boot = s.boot ∧ (fusePower s).tim = s.tim ∧ (fusePower s).now = s.now := by
  obtain ⟨y, hy⟩ : ∃ y, y = (s |> wrF Reg.powerCap 47 32 (tdpOf s) |> wrF Reg.powerCap 15 0 (tdpOf s)
    |> wrF Reg.capLease 47 32 (tdpOf s * 3 / 4)) := ⟨_, rfl⟩
  have h : rdF y Reg.powerCap 47 32 = tdpOf s ∧ rd y Reg.serial = rd s Reg.serial
      ∧ rd y Reg.capability = rd s Reg.capability ∧ y.boot = s.boot ∧ y.tim = s.tim ∧ y.now = s.now := by
    refine ⟨?_, ?_, ?_, hy ▸ rfl, hy ▸ rfl, hy ▸ rfl⟩
    · rw [hy, rdF_wrF_ne _ _ _ _ _ _ (by decide), rdF_wrF_other _ _ _ _ _ _ _ (by decide) (by decide) (by decide),
        rdF_wrF_fits _ _ (by decide) (by decide) (tdpOf_lt s)]
    · simp (disch := decide) only [hy, rd_wrF_ne]
    · simp (disch := decide) only [hy, rd_wrF_ne]
  obtain ⟨h1, h2, h3, h4⟩ := h
  have he : fusePower s = (if rdF s Reg.capability 13 8 = 32 ∧ rd s Reg.preset = Reg.resetValue Reg.preset
    then wrReg Reg.preset 0 else id) y := by rw [hy]; rfl
  rw [he]
  split
  · exact ⟨by rw [rdF_wrReg_ne _ _ _ _ (by decide), h1], by rw [rd_wrReg_ne _ _ (by decide), h2],
      by rw [rd_wrReg_ne _ _ (by decide), h3], h4⟩
  · exact ⟨h1, h2, h3, h4⟩

/-- What the fuses set (R430, R450, R452). -/
structure Fused (s u : State) : Prop where
  serial : rd u Reg.serial = s.boot.serial
  capability : rd u Reg.capability = capabilityOf s
  power : rdF u Reg.powerCap 47 32 = tdpOf s
  regs : ∀ a, a < 0x300000 → a ∉ fuseRegs → rd u a = rd s a
  mem : MemKept s u
  boot : u.boot = s.boot
  tim : u.tim = s.tim
  now : u.now = s.now

theorem fused_loadFuses (s : State) : Fused s (loadFuses s) := by
  have hi := kept_fuseIdentity s
  have hp := kept_fusePower (fuseIdentity s)
  have ha := offStacks_absentStacks (fusePower (fuseIdentity s))
  obtain ⟨h1, h2, h3, h4, h5, h6⟩ := fusePower_spec (fuseIdentity s)
  have hs : rd (fuseIdentity s) Reg.serial = s.boot.serial := by
    unfold fuseIdentity
    simp (disch := decide) only [rd_wrF_ne, rd_wrB_ne, rd_wrReg_ne, rd_wrReg_self]
  have hc : rd (fuseIdentity s) Reg.capability = capabilityOf s := by
    unfold fuseIdentity
    simp (disch := decide) only [rd_wrF_ne, rd_wrB_ne, rd_wrReg_self]
  rw [loadFuses_eq]
  exact {
    serial := by rw [ha.regs _ (by decide), h2, hs]
    capability := by rw [ha.regs _ (by decide), h3, hc]
    power := by rw [rdF, ha.regs _ (by decide), ← rdF, h1]; rfl
    regs := fun a hl hn => by rw [ha.regs a hl, hp.regs a hn, hi.regs a hn]
    mem := fun a => by rw [ha.mem a, hp.mem a, hi.mem a]
    boot := by rw [ha.boot, h4]; rfl
    tim := by rw [ha.tim, h5]; rfl
    now := by rw [ha.now, h6]; rfl }

-- The ends of the steps, one by one

/-- A step ends on a state that differs from the first by what the step did. -/
theorem StepEnded.after (hr : v.boot.running = c) (hc : c < 16) (hst : st < 16) (hres : result < 256)
    (h : reached v = reached s) : StepEnded c st result s (endStep st result v)
      ∧ Kept [Reg.bringupStatus, Reg.bringupEvent] v (endStep st result v) := by
  obtain ⟨he, hk, -⟩ := stepEnded_endStep hr hc hst hres
  exact ⟨he.of_reached h, hk⟩

theorem fuseLoadDone_good (hr : s.boot.running = 1) (hb : s.boot.fuseBad = false) :
    StepEnded 1 2 (if (validLicence s).isSome then 0 else 2) s (fuseLoadDone s)
      ∧ rd (fuseLoadDone s) Reg.serial = s.boot.serial ∧ rd (fuseLoadDone s) Reg.capability = capabilityOf s
      ∧ rdF (fuseLoadDone s) Reg.powerCap 47 32 = tdpOf s ∧ MemKept s (fuseLoadDone s) := by
  have hf := fused_loadFuses s
  have he : fuseLoadDone s = endStep 2 (if (validLicence s).isSome then 0 else 2) (loadFuses s) := by
    unfold fuseLoadDone; rw [if_neg (by simp [hb])]
  obtain ⟨hd, hk⟩ := StepEnded.after (s := s) (v := loadFuses s) (c := 1) (st := 2)
    (result := if (validLicence s).isSome then 0 else 2) (by rw [hf.boot, hr]) (by decide) (by decide)
    (by split <;> decide) (by rw [reached, rdF, hf.regs _ (by decide) (by decide), reached, rdF])
  rw [he]
  exact ⟨hd, by rw [hk.regs _ (by decide), hf.serial], by rw [hk.regs _ (by decide), hf.capability],
    by rw [rdF, hk.regs _ (by decide), ← rdF, hf.power], fun a => by rw [hk.mem, hf.mem]⟩

theorem fuseLoadDone_bad (hr : s.boot.running = 1) (hb : s.boot.fuseBad = true) :
    StepEnded 1 3 0x20 s (fuseLoadDone s) ∧ MemKept s (fuseLoadDone s) := by
  have he : fuseLoadDone s = endStep 3 0x20 (wrReg Reg.assembly 2 s) := by unfold fuseLoadDone; rw [if_pos hb]
  obtain ⟨hd, hk⟩ := StepEnded.after (s := s) (v := wrReg Reg.assembly 2 s) (c := 1) (st := 3) (result := 0x20) hr (by decide)
    (by decide) (by decide) (by rw [reached, rdF_wrReg_ne _ _ _ _ (by decide), reached])
  rw [he]
  exact ⟨hd, fun a => hk.mem a⟩

theorem domainUpDone_good (hr : s.boot.running = 2) (hp : presentParts s ≠ []) : StepEnded 2 2 0 s (domainUpDone [] s)
    ∧ ∀ p ∈ presentParts s, ∀ d ∈ partDomains p, domainExists s d = true → domainIsOn (domainUpDone [] s) d = true := by
  obtain ⟨l, hl⟩ : ∃ l, l = (List.range s.boot.ioDies).map (fun i => 53 + 2 * i) ++ (presentParts s).flatMap partDomains :=
    ⟨_, rfl⟩
  have hlow := lowRegs_domainsOn l s
  have he : domainUpDone [] s = endStep 2 0 (domainsOn l s) := by
    have hp' : presentParts (domainsOn l s) ≠ [] := by rw [hlow.presentParts]; exact hp
    subst hl
    unfold domainUpDone
    have hany : ∀ l : List Nat, (l.any fun d => ([] : List Nat).contains d) = false := fun l => by simp
    simp only [hany, Bool.false_eq_true, if_false, List.filter_false, List.foldl_nil]
    exact if_neg hp'
  obtain ⟨hd, hk⟩ := StepEnded.after (s := s) (v := domainsOn l s) (c := 2) (st := 2) (result := 0) (by rw [hlow.boot, hr])
    (by decide) (by decide) (by decide) hlow.reached
  rw [he]
  refine ⟨hd, fun p hp d hd he => ?_⟩
  have hmem : d ∈ l := hl ▸ List.mem_append_right _ (List.mem_flatMap.2 ⟨p, hp, hd⟩)
  have h64 : d < 64 := by
    have := (mem_presentParts.1 hp).1
    simp only [partDomains, List.mem_append, List.mem_map, List.mem_range] at hd
    obtain ⟨c, hc, rfl⟩ | ⟨i, hi, rfl⟩ := hd <;> omega
  rw [domainIsOn, rdB, hk.regs _ (by decide), ← rdB, ← domainIsOn]
  exact domainIsOn_domainsOn hmem h64 he

-- The self-test

theorem tileStatus_high (t : Nat) : 0x1000000 ≤ Reg.tileStatus t := by simp only [Reg.tileStatus, Reg.tileBase]; omega

theorem tileState_setTileState (t n m : Nat) (hn : n < 16) (s : State) :
    tileState (setTileState t n s) m = if m = t then n else tileState s m := by
  unfold tileState setTileState
  split
  · next h => subst h; exact rdF_wrF_fits _ _ (by decide) (by decide) hn
  · next h => exact rdF_wrF_ne _ _ _ _ _ _ (by simp only [Reg.tileStatus, Reg.tileBase]; omega)

/-- The tiles from 128 p on become IDLE, as many as are tested. -/
def idleTiles (p n : Nat) (s : State) : State := (List.range n).foldl (fun s t => setTileState (128 * p + t) 0 s) s

theorem tileState_idleTiles (p n m : Nat) (s : State) :
    tileState (idleTiles p n s) m = if 128 * p ≤ m ∧ m < 128 * p + n then 0 else tileState s m := by
  induction n with
  | zero => rw [if_neg (by omega)]; rfl
  | succ n ih =>
    have he : idleTiles p (n + 1) s = setTileState (128 * p + n) 0 (idleTiles p n s) := by
      unfold idleTiles; rw [List.range_succ, List.foldl_append]; rfl
    rw [he, tileState_setTileState _ _ _ (by decide), ih]
    split_ifs <;> omega

/-- What a partition's test changes: registers of bring-up, its tiles. -/
structure Tested (s u : State) : Prop where
  mem : MemKept s u
  boot : u.boot = s.boot
  status : rd u Reg.bringupStatus = rd s Reg.bringupStatus
  fence : rd u Reg.fenceStatus = rd s Reg.fenceStatus

theorem Tested.trans (h : Tested s u) (h' : Tested u v) : Tested s v :=
  ⟨fun a => (h'.mem a).trans (h.mem a), h'.boot.trans h.boot, h'.status.trans h.status, h'.fence.trans h.fence⟩

theorem Tested.wrReg (h : Tested s u) {a : Nat} (h1 : Reg.bringupStatus ≠ a) (h2 : Reg.fenceStatus ≠ a) (w : Word) :
    Tested s (wrReg a w u) := h.trans ⟨fun _ => rfl, rfl, rd_wrReg_ne u w h1, rd_wrReg_ne u w h2⟩

theorem Tested.draffTiles (h : Tested s u) (p : Nat) : draffTiles u p = draffTiles s p := by
  simp only [Machine.draffTiles, draffEntry, h.boot]

theorem tested_idleTiles (p n : Nat) (s : State) : Tested s (idleTiles p n s) :=
  List.foldlRecOn _ _ ⟨fun _ => rfl, rfl, rfl, rfl⟩ fun _ hv t _ => by
    have := tileStatus_high (128 * p + t)
    exact hv.wrReg (by rw [Reg.bringupStatus]; omega) (by rw [Reg.fenceStatus]; omega) _

/-- The self-test of a partition without draff entries leaves its 128 tiles IDLE and the others as they are. -/
theorem selfTestPart_tested (hp : p < 4) (h : draffTiles s p = []) : Tested s (selfTestPart p [] s) ∧
    ∀ m, tileState (selfTestPart p [] s) m = if 128 * p ≤ m ∧ m < 128 * p + 128 then 0 else tileState s m := by
  obtain ⟨w, n, he⟩ : ∃ w n, selfTestPart p [] s
    = idleTiles p 128 (wrF Reg.partResult (16 * p + 15) (16 * p) n (wrReg (Reg.spareMap p) w s)) := selfTestPart_clean h
  have hs : ∀ a, a ≠ Reg.partResult → a < 0x10100 ∨ 0x10200 ≤ a →
      rd (wrF Reg.partResult (16 * p + 15) (16 * p) n (wrReg (Reg.spareMap p) w s)) a = rd s a := fun a h1 h2 => by
    rw [rd_wrF_ne _ _ _ _ h1, rd_wrReg_ne _ _ (by simp only [Reg.spareMap]; omega)]
  have hy : Tested s (wrF Reg.partResult (16 * p + 15) (16 * p) n (wrReg (Reg.spareMap p) w s)) :=
    ⟨fun _ => rfl, rfl, hs _ (by decide) (by decide), hs _ (by decide) (by decide)⟩
  refine ⟨he ▸ hy.trans (tested_idleTiles p 128 _), fun m => ?_⟩
  rw [he]
  have := tileStatus_high m
  rw [tileState_idleTiles]
  rw [tileState, rdF, hs _ (by rw [Reg.partResult]; omega) (by omega), ← rdF, ← tileState]

/-- The partitions of a list are tested. -/
def testedParts (l : List Nat) (s : State) : State := l.foldl (fun s p => selfTestPart p [] s) s

theorem testedParts_spec (l : List Nat) (hl : ∀ p ∈ l, p < 4) (h : ∀ p, p < 4 → draffTiles s p = []) :
    Tested s (testedParts l s) ∧ ∀ p ∈ l, ∀ t, t < 128 → tileState (testedParts l s) (128 * p + t) = 0 := by
  induction l using List.reverseRecOn with
  | nil => exact ⟨⟨fun _ => rfl, rfl, rfl, rfl⟩, by simp⟩
  | append_singleton l q ih =>
    obtain ⟨ht, hi⟩ := ih fun p hp => hl p (by simp [hp])
    have he : testedParts (l ++ [q]) s = selfTestPart q [] (testedParts l s) := by
      unfold testedParts; rw [List.foldl_append, List.foldl_cons, List.foldl_nil]
    have hq : q < 4 := hl q (by simp)
    obtain ⟨ht', hs⟩ := selfTestPart_tested hq (by rw [ht.draffTiles, h q hq])
    rw [he]
    refine ⟨ht.trans ht', fun p hp t h128 => ?_⟩
    rw [hs]
    split
    · rfl
    · next hne => exact hi p (by have : p ≠ q := by rintro rfl; omega
                                 simpa [this] using hp) t h128

theorem selfTestDone_good (hr : s.boot.running = 3) (hp : presentParts s ≠ []) (h : ∀ p, p < 4 → draffTiles s p = []) :
    StepEnded 3 2 0 s (selfTestDone [] [] s)
      ∧ (∀ p ∈ presentParts s, ∀ t, t < 128 → tileState (selfTestDone [] [] s) (128 * p + t) = 0)
      ∧ MemKept s (selfTestDone [] [] s) := by
  obtain ⟨ht, hi⟩ := testedParts_spec (presentParts s) (fun p hp => (mem_presentParts.1 hp).1) h
  have hpp : presentParts (testedParts (presentParts s) s) = presentParts s := by
    exact List.filter_congr fun p _ => by rw [fenceState, rdF, ht.fence, fenceState, rdF]
  have he : selfTestDone [] [] s = endStep 2 0 (testedParts (presentParts s) s) := by
    have hp' : ¬ presentParts (testedParts (presentParts s) s) = [] := by rw [hpp]; exact hp
    have hret : ((presentParts (testedParts (presentParts s) s)).any fun p =>
        draffTiles (testedParts (presentParts s) s) p != [] ||
          ([] : List (Nat × Nat × Nat × Nat)).any (fun b => b.1 == p && decide (b.2.1 < 132))) = false := by
      rw [hpp, List.any_eq_false]
      intro p hp
      simp [ht.draffTiles, h p (mem_presentParts.1 hp).1]
    have hany : ∀ l : List Nat, (l.filter fun d => ([] : List Nat).contains d) = [] := fun l => by simp
    unfold selfTestDone
    simp only [hany, List.foldl_nil, List.filter_nil, List.map_nil]
    rw [show (presentParts s).foldl (fun s p => selfTestPart p [] s) s = testedParts (presentParts s) s from rfl, if_neg hp', hret]
    rfl
  obtain ⟨hd, hk⟩ := StepEnded.after (s := s) (v := testedParts (presentParts s) s) (c := 3) (st := 2) (result := 0)
    (by rw [ht.boot, hr]) (by decide) (by decide) (by decide) (by rw [reached, rdF, ht.status, reached, rdF])
  rw [he]
  refine ⟨hd, fun p hp t h128 => ?_, fun a => by rw [hk.mem, ht.mem]⟩
  have := tileStatus_high (128 * p + t)
  rw [tileState, rdF, hk.regs _ (by
    simp only [List.mem_cons, Reg.bringupStatus, Reg.bringupEvent, List.not_mem_nil, or_false]; omega), ← rdF, ← tileState]
  exact hi p hp t h128

-- SRAM

theorem sramClear_good (hr : s.boot.running = 4) (hx : x = (presentParts s).foldl (fun s p => clearSram p s) s) :
    StepEnded 4 2 0 s (endStep 2 0 x) ∧ ∀ p ∈ presentParts s, ∀ t k, t < 128 → k < 0x200000 →
      memByte (endStep 2 0 x) (sramAddr (128 * p + t) k) = 0 := by
  have h : ∀ l : List Nat, LowRegs s (l.foldl (fun s p => clearSram p s) s) ∧ ∀ p ∈ l, ∀ t k, t < 128 → k < 0x200000 →
      memByte (l.foldl (fun s p => clearSram p s) s) (sramAddr (128 * p + t) k) = 0 := fun l => by
    induction l using List.reverseRecOn with
    | nil => exact ⟨LowRegs.refl s, by simp⟩
    | append_singleton l q ih =>
      rw [List.foldl_append, List.foldl_cons, List.foldl_nil]
      refine ⟨ih.1.trans (lowRegs_clearSram q _), fun p hp t k ht hk => ?_⟩
      rcases List.mem_append.1 hp with hl | hq
      · exact memByte_clearSram_zero (ih.2 p hl t k ht hk) q
      · obtain rfl := List.mem_singleton.1 hq
        exact memByte_clearSram_tile ht hk p _
  obtain ⟨hl, hz⟩ := h (presentParts s)
  rw [← hx] at hl hz
  obtain ⟨hd, hk⟩ := StepEnded.after (s := s) (v := x) (c := 4) (st := 2) (result := 0) (by rw [hl.boot, hr]) (by decide)
    (by decide) (by decide) hl.reached
  exact ⟨hd, fun p hp t k ht hkk => by rw [hk.mem, hz p hp t k ht hkk]⟩

-- HBM

theorem hbmStatus_ne {p q i j : Nat} (hi : i < 4) (hj : j < 4) (h : ¬ (p = q ∧ i = j)) :
    Reg.hbmStatus p i ≠ Reg.hbmStatus q j := by
  simp only [Reg.hbmStatus, Reg.stackBase]; omega

theorem stackState_setStackState {i j : Nat} (hi : i < 4) (hj : j < 4) {n : Nat} (hn : n < 16) (q : Nat) (s : State) :
    stackState (setStackState p i n s) q j = if q = p ∧ j = i then n else stackState s q j := by
  unfold stackState setStackState
  split
  · next h => obtain ⟨rfl, rfl⟩ := h; exact rdF_wrF_fits _ _ (by decide) (by decide) hn
  · next h => exact rdF_wrF_ne _ _ _ _ _ _ (hbmStatus_ne hj hi h)

/-- A stack comes out of training (R168). -/
def trainedStack (p i r : Nat) (s : State) : State :=
  let f := freeNext s
  f.2 |> setStackState p i (if r = 0 then 6 else 3) |> orReg (Reg.hbmEvent p i) (if r = 0 then 4 else 2)
    |> wrF (Reg.hbmStatus p i) 29 28 (min r 3) |> wrReg (Reg.hbmId p i) f.1
    |> onStk p i (fun k => { k with trainedAt := now s, wait := none, run := none, admitted := 0 })

theorem offStacks_trainedStack (p i r : Nat) (s : State) : OffStacks s (trainedStack p i r s) := by
  have h1 : 0x300000 ≤ Reg.hbmEvent p i := by simp only [Reg.hbmEvent, Reg.stackBase]; omega
  have h2 : 0x300000 ≤ Reg.hbmId p i := by simp only [Reg.hbmId, Reg.stackBase]; omega
  unfold trainedStack
  exact (((((OffStacks.refl s).freeNext.setStackState p i _).orReg h1 _).wrF (hbmStatus_high p i) _ _ _).wrReg h2 _).onStk p i _

theorem stackState_trainedStack {i j : Nat} (hi : i < 4) (hj : j < 4) (q r : Nat) (s : State) :
    stackState (trainedStack p i r s) q j = if q = p ∧ j = i then (if r = 0 then 6 else 3) else stackState s q j := by
  have h1 : Reg.hbmStatus q j ≠ Reg.hbmId p i := by simp only [Reg.hbmStatus, Reg.hbmId, Reg.stackBase]; omega
  have h2 : Reg.hbmStatus q j ≠ Reg.hbmEvent p i := by simp only [Reg.hbmStatus, Reg.hbmEvent, Reg.stackBase]; omega
  obtain ⟨y, hy⟩ : ∃ y, y = orReg (Reg.hbmEvent p i) (if r = 0 then 4 else 2)
    (setStackState p i (if r = 0 then 6 else 3) (freeNext s).2) := ⟨_, rfl⟩
  have hw : stackState (trainedStack p i r s) q j = stackState (wrF (Reg.hbmStatus p i) 29 28 (min r 3) y) q j := by
    unfold trainedStack
    rw [stackState, rdF_onStk, rdF_wrReg_ne _ _ _ _ h1, ← stackState, hy]
  have hsy : stackState y q j = if q = p ∧ j = i then (if r = 0 then 6 else 3) else stackState s q j := by
    rw [hy, stackState, rdF_orReg_ne _ _ _ _ h2, ← stackState, stackState_setStackState hi hj (by split <;> decide)]; rfl
  rw [hw, ← hsy]
  by_cases h : Reg.hbmStatus q j = Reg.hbmStatus p i
  · rw [stackState, h]; rw [rdF_wrF_other _ _ _ _ _ _ _ (by decide) (by decide) (by decide), ← h, ← stackState]
  · exact rdF_wrF_ne _ _ _ _ _ _ h

/-- The first n stacks of a partition come out of training. -/
def trainedStacks (p : Nat) (rates : List Nat) (n : Nat) (s : State) : State :=
  (List.range n).foldl (fun s i => trainedStack p i (nth rates i) s) s

theorem trainedStacks_spec (p : Nat) (rates : List Nat) {n : Nat} (hn : n ≤ 4) (s : State) :
    OffStacks s (trainedStacks p rates n s) ∧ ∀ q j, j < 4 → stackState (trainedStacks p rates n s) q j
      = if q = p ∧ j < n then (if nth rates j = 0 then 6 else 3) else stackState s q j := by
  induction n with
  | zero => exact ⟨OffStacks.refl s, fun q j _ => by rw [if_neg (by omega)]; rfl⟩
  | succ n ih =>
    obtain ⟨h1, h2⟩ := ih (by omega)
    have he : trainedStacks p rates (n + 1) s = trainedStack p n (nth rates n) (trainedStacks p rates n s) := by
      unfold trainedStacks; rw [List.range_succ, List.foldl_append, List.foldl_cons, List.foldl_nil]
    rw [he]
    refine ⟨h1.trans (offStacks_trainedStack ..), fun q j hj => ?_⟩
    rw [stackState_trainedStack (by omega) hj, h2 q j hj]
    by_cases hq : q = p ∧ j = n
    · obtain ⟨rfl, rfl⟩ := hq
      simp
    · have hj' : (q = p ∧ j < n + 1) ↔ (q = p ∧ j < n) := by omega
      simp only [hq, hj', if_false]

theorem trainedPart_eq (p : Nat) (rates : List Nat) (s : State) :
    trainedPart p rates s = trainedStacks p rates s.boot.stackCount s := rfl

/-- What HBM_TRAIN leaves of a partition whose stacks all trained. -/
def trainedClean (rates : List Nat) (p : Nat) (s : State) : State :=
  wrF Reg.fenceStatus (16 * p + 15) (16 * p) 0 (trainedPart p (rates.drop (4 * p)) s)

/-- What HBM_TRAIN leaves of partitions that all trained. -/
structure TrainedAll (l : List Nat) (s u : State) : Prop where
  mem : MemKept s u
  boot : u.boot = s.boot
  regs : ∀ a, a < 0x300000 → a ≠ Reg.fenceStatus → rd u a = rd s a
  fences : ∀ q, q < 4 → fenceState u q = if q ∈ l then 0 else fenceState s q
  rates : ∀ q ∈ l, ∀ j, j < s.boot.stackCount → stackState u q j = 3

theorem nth_drop {rates : List Nat} {p i : Nat} : nth (rates.drop (4 * p)) i = nth rates (4 * p + i) := by
  simp [nth, List.getD_eq_getElem?_getD, List.getElem?_drop]

theorem trainedAll_trainedClean {rates : List Nat} (hc : s.boot.stackCount ≤ 4) (l : List Nat) (hl : ∀ p ∈ l, p < 4)
    (h : ∀ i, i < 16 → nth rates i = 3) : TrainedAll l s (l.foldl (fun s p => trainedClean rates p s) s) := by
  induction l using List.reverseRecOn with
  | nil => exact ⟨fun _ => rfl, rfl, fun _ _ _ => rfl, fun q _ => by simp, by simp⟩
  | append_singleton l p ih =>
    obtain ⟨hm, hb, hr, hf, hs⟩ := ih fun q hq => hl q (by simp [hq])
    have hp : p < 4 := hl p (by simp)
    rw [List.foldl_append, List.foldl_cons, List.foldl_nil]
    generalize l.foldl (fun s p => trainedClean rates p s) s = v at *
    obtain ⟨ho, hst⟩ := trainedStacks_spec p (rates.drop (4 * p)) (n := v.boot.stackCount) (by rw [hb]; exact hc) v
    rw [← trainedPart_eq] at ho hst
    refine ⟨fun a => by rw [← hm a, ← ho.mem a]; rfl, by rw [← hb, ← ho.boot]; rfl, fun a ha hn => ?_, fun q hq => ?_,
      fun q hq j hj => ?_⟩
    · rw [trainedClean, rd_wrF_ne _ _ _ _ hn, ho.regs a ha, hr a ha hn]
    · have hk : fenceState (trainedPart p (rates.drop (4 * p)) v) q = fenceState v q := by
        rw [fenceState, rdF, ho.regs _ (by decide), fenceState, rdF]
      rw [trainedClean, fenceState_wrF hp, hk, hf q hq]
      by_cases h : q = p <;> simp [h]
    · have hne : Reg.hbmStatus q j ≠ Reg.fenceStatus := by have := hbmStatus_high q j; rw [Reg.fenceStatus]; omega
      rw [stackState, trainedClean, rdF_wrF_ne _ _ _ _ _ _ hne, ← stackState, hst q j (by omega), hb]
      split
      · rw [nth_drop, h _ (by omega)]; rfl
      · next h => exact hs q (by have : q ≠ p := fun e => h ⟨e, hj⟩
                                 simpa [this] using hq) j hj

/-- What HBM_TRAIN does with a partition. -/
def trainStep (rates : List Nat) (p : Nat) (s : State) : State :=
  let mine := rates.drop (4 * p)
  let s := trainedPart p mine s
  if (List.range s.boot.stackCount).any (fun i => nth mine i == 0) then
    s |> wrF Reg.fenceStatus (16 * p + 15) (16 * p) 0x22 |> recordControl 16 true (some p) []
  else wrF Reg.fenceStatus (16 * p + 15) (16 * p) 0 s

theorem trainStep_clean {rates : List Nat} (hc : s.boot.stackCount ≤ 4) (hp : p < 4) (h : ∀ i, i < 16 → nth rates i = 3) :
    trainStep rates p s = trainedClean rates p s := by
  have hb : (trainedPart p (rates.drop (4 * p)) s).boot = s.boot := by
    rw [trainedPart_eq]; exact (trainedStacks_spec p _ hc s).1.boot
  have hany : ((List.range s.boot.stackCount).any fun i => nth (rates.drop (4 * p)) i == 0) = false := by
    rw [List.any_eq_false]
    intro i hi
    rw [nth_drop, h _ (by have := List.mem_range.1 hi; omega)]; decide
  unfold trainStep
  dsimp only
  rw [hb, hany]; rfl

/-- What HBM_TRAIN makes of the partitions that it trained. -/
def trainVerdict (rates : List Nat) (s : State) : State :=
  if (presentParts s).all (fun p => fenceState s p != 0) then endStep 3 0x22 s
  else
    let low := (presentParts s).any (fun p => (List.range s.boot.stackCount).any (fun i => decide (nth rates (4 * p + i) < 3)))
    endStep 2 (if low then 1 else 0) s

theorem hbmTrainDone_eq (rates : List Nat) (h : (presentParts s).foldl (fun s p => trainStep rates p s) s = x) :
    hbmTrainDone rates s = trainVerdict rates { x with boot := { x.boot with dmaRun := true } } := by
  subst h; rfl

theorem hbmTrainDone_good {rates : List Nat} (hc : s.boot.stackCount ≤ 4) (hr : s.boot.running = 5) (hp : presentParts s ≠ [])
    (h : ∀ i, i < 16 → nth rates i = 3) : StepEnded 5 2 0 s (hbmTrainDone rates s)
      ∧ (hbmTrainDone rates s).boot.dmaRun = true ∧ MemKept s (hbmTrainDone rates s)
      ∧ ∀ p ∈ presentParts s, fenceState (hbmTrainDone rates s) p = 0
        ∧ ∀ i, i < s.boot.stackCount → stackState (hbmTrainDone rates s) p i = 3 := by
  have hl : ∀ p ∈ presentParts s, p < 4 := fun p hp => (mem_presentParts.1 hp).1
  obtain ⟨x, hx⟩ : ∃ x, x = (presentParts s).foldl (fun s p => trainedClean rates p s) s := ⟨_, rfl⟩
  obtain ⟨hm, hb, hg, hf, hs⟩ := trainedAll_trainedClean hc (presentParts s) hl h
  have hfold : ∀ l : List Nat, (∀ p ∈ l, p < 4) → l.foldl (fun s p => trainStep rates p s) s
      = l.foldl (fun s p => trainedClean rates p s) s := fun l hl => by
    induction l using List.reverseRecOn with
    | nil => rfl
    | append_singleton l p ih =>
      have hll : ∀ q ∈ l, q < 4 := fun q hq => hl q (by simp [hq])
      rw [List.foldl_append, List.foldl_append, ih hll]
      exact trainStep_clean (by rw [(trainedAll_trainedClean hc l hll h).boot]; exact hc) (hl p (by simp)) h
  rw [← hx] at hm hb hg hf hs
  obtain ⟨y, hy⟩ : ∃ y, y = { x with boot := { x.boot with dmaRun := true } } := ⟨_, rfl⟩
  have hpp : presentParts y = presentParts s := by
    refine List.filter_congr fun p hp => ?_
    have h1 : fenceState y p = fenceState x p := by rw [hy]; rfl
    rw [h1, hf p (by simpa using hp)]
    split
    · next hin => have := (mem_presentParts.1 hin).2; simpa using this
    · rfl
  have hall : ¬ ((presentParts y).all fun p => fenceState y p != 0) = true := by
    obtain ⟨p, hpm⟩ := List.exists_mem_of_ne_nil _ hp
    rw [hpp, List.all_eq_true]
    intro hc
    have h1 : fenceState y p = fenceState x p := by rw [hy]; rfl
    have := hc p hpm
    rw [h1, hf p (hl p hpm), if_pos hpm] at this
    exact absurd this (by decide)
  have hlow : ((presentParts y).any fun p => (List.range y.boot.stackCount).any fun i =>
      decide (nth rates (4 * p + i) < 3)) = false := by
    have hby : y.boot.stackCount = s.boot.stackCount := by rw [hy, ← hb]
    rw [hpp, hby, List.any_eq_false]
    intro p hpm
    rw [Bool.not_eq_true, List.any_eq_false]
    intro i hi
    have := hl p hpm
    have := List.mem_range.1 hi
    rw [h (4 * p + i) (by omega)]; decide
  have he : hbmTrainDone rates s = endStep 2 0 y := by
    have hfold' : (presentParts s).foldl (fun s p => trainStep rates p s) s = x := by rw [hfold _ hl, hx]
    rw [hbmTrainDone_eq rates hfold', ← hy, trainVerdict, if_neg hall]
    dsimp only
    rw [hlow]; rfl
  obtain ⟨hd, hk⟩ := StepEnded.after (s := s) (v := y) (c := 5) (st := 2) (result := 0) (by rw [hy, ← hr, ← hb]) (by decide)
    (by decide) (by decide) (by
      have : reached y = reached x := by rw [hy]; rfl
      rw [this, reached, rdF, hg _ (by decide) (by decide), reached, rdF])
  rw [he]
  refine ⟨hd, by rw [hy]; rfl, fun a => by rw [hk.mem, ← hm, hy]; rfl, fun p hpm => ⟨?_, fun i hi => ?_⟩⟩
  · rw [fenceState, rdF, hk.regs _ (by decide)]
    have := hf p (hl p hpm)
    rw [if_pos hpm] at this
    rw [← this, hy]; rfl
  · rw [stackState, rdF, hk.regs _ (by
      have := hbmStatus_high p i
      simp only [List.mem_cons, Reg.bringupStatus, Reg.bringupEvent, List.not_mem_nil, or_false]; omega)]
    exact (show fld (rd y _) 3 0 = stackState x p i by rw [hy]; rfl).trans (hs p hpm i hi)

-- Ports, time, READY

theorem linkTrainDone_good (hr : s.boot.running = 6) (h : ∀ n ∈ stepPorts s, portState s n = 3 ∨ portState s n = 4) :
    StepEnded 6 2 0 s (linkTrainDone s) ∧ (linkTrainDone s).boot.ports = stepPorts s ∧ MemKept s (linkTrainDone s) := by
  have hg : (stepPorts s).filter (fun n => portState s n == 3 || portState s n == 4) = stepPorts s :=
    List.filter_eq_self.2 fun n hn => by simpa using h n hn
  obtain ⟨y, hy⟩ : ∃ y, y = { s with boot := { s.boot with ports := stepPorts s } } := ⟨_, rfl⟩
  have he : linkTrainDone s = endStep 2 0 y := by
    unfold linkTrainDone
    dsimp only
    rw [hg, if_pos rfl, hy]
  obtain ⟨hd, hk⟩ := StepEnded.after (s := s) (v := y) (c := 6) (st := 2) (result := 0) (by rw [hy]; exact hr) (by decide)
    (by decide) (by decide) (by rw [hy]; rfl)
  rw [he]
  exact ⟨hd, by rw [hy]; rfl, fun a => by rw [hk.mem, hy]; rfl⟩

theorem maskOf_lt {l : List Nat} {n : Nat} (h : ∀ i ∈ l, i < n) : maskOf l < 2 ^ n :=
  List.foldlRecOn (motive := fun m => m < 2 ^ n) _ _ (by positivity) fun m hm i hi =>
    Nat.or_lt_two_pow hm (Nat.pow_lt_pow_right (by decide) (h i hi))

theorem linkQualifyDone_good (hd4 : s.boot.ioDies ≤ 4) (hr : s.boot.running = 7) (h : ∀ n ∈ s.boot.ports, portClass s n = 0) :
    StepEnded 7 2 0 s (linkQualifyDone s)
      ∧ rdF (linkQualifyDone s) Reg.portResult 31 0 = maskOf ((stepPorts s).filter (fun n => portClass s n == 0))
      ∧ MemKept s (linkQualifyDone s) := by
  obtain ⟨cls, hcls⟩ : ∃ cls : Nat → Nat, cls = fun k => maskOf ((stepPorts s).filter (fun n => portClass s n == k)) := ⟨_, rfl⟩
  obtain ⟨y, hy⟩ : ∃ y, y = wrReg Reg.portResult2 (wd (cls 3 * 2 ^ 32 + cls 2))
    (wrReg Reg.portResult (wd (cls 1 * 2 ^ 32 + cls 0)) s) := ⟨_, rfl⟩
  have hall : (s.boot.ports.all fun n => portClass s n == 0) = true := List.all_eq_true.2 fun n hn => by simp [h n hn]
  have he : linkQualifyDone s = endStep 2 0 y := by
    unfold linkQualifyDone
    dsimp only
    rw [hall, hy, hcls]; rfl
  have hlt : cls 0 < 2 ^ 32 := by
    rw [hcls]
    refine maskOf_lt fun n hn => ?_
    have := List.mem_range.1 (List.mem_of_mem_filter (List.mem_of_mem_filter hn))
    rw [portCount] at this; omega
  have hfld : rdF y Reg.portResult 31 0 = cls 0 := by
    rw [hy, rdF_wrReg_ne _ _ _ _ (by decide), rdF, rd_wrReg_self, fld_wd _ (by decide)]
    generalize cls 0 = m at *
    generalize cls 1 = k
    omega
  obtain ⟨hd, hk⟩ := StepEnded.after (s := s) (v := y) (c := 7) (st := 2) (result := 0) (by rw [hy]; exact hr) (by decide)
    (by decide) (by decide) (by
      rw [hy, reached, rdF_wrReg_ne _ _ _ _ (by decide), rdF_wrReg_ne _ _ _ _ (by decide), ← reached])
  rw [he]
  refine ⟨hd, ?_, fun a => by rw [hk.mem, hy]; rfl⟩
  rw [rdF, hk.regs _ (by decide), ← rdF, hfld, hcls]

theorem readyDone_good (hr : s.boot.running = 9) (ht : timeState s = 2) (h : ∃ p, p < 4 ∧ fenceState s p = 0) :
    StepEnded 9 2 0 s (readyDone s) ∧ (readyDone s).boot.jobFetch = true ∧ (readyDone s).flt.smdOn = true
      ∧ presetFrozen (readyDone s) = true ∧ MemKept s (readyDone s) := by
  obtain ⟨z, hz⟩ : ∃ z, z = { s with flt := { s.flt with smdOn := true }, boot := { s.boot with jobFetch := true } } := ⟨_, rfl⟩
  have he : readyDone s = endStep 2 0 (wrB Reg.preset 8 true z) := by
    obtain ⟨p, hp, hf⟩ := h
    unfold readyDone
    rw [if_pos ⟨Or.inl ht, List.any_eq_true.2 ⟨p, List.mem_range.2 hp, by simp [hf]⟩⟩, hz]
  obtain ⟨hd, hk⟩ := StepEnded.after (s := s) (v := wrB Reg.preset 8 true z) (c := 9) (st := 2) (result := 0)
    (by rw [hz]; exact hr) (by decide) (by decide) (by decide)
    (by rw [reached, rdF, rd_wrB_ne _ _ _ (by decide), hz]; rfl)
  rw [he]
  refine ⟨hd, by rw [hz]; rfl, by rw [hz]; rfl, ?_, fun a => by rw [hk.mem, hz]; rfl⟩
  rw [presetFrozen, rdB, hk.regs _ (by decide), ← rdB]; exact rdB_wrB_self _ _ _ _ (by decide)

-- The commands

/-- What a step that ends within its bound does. -/
def stepOutcome (bd : List Nat) (bt : List (Nat × Nat × Nat × Nat)) (mesh rates : List Nat) (s : State) : State :=
  match s.boot.running with
  | 1 => fuseLoadDone s
  | 2 => domainUpDone bd s
  | 3 => selfTestDone bt mesh s
  | 4 => (presentParts s).foldl (fun s p => clearSram p s) s |> endStep 2 0
  | 5 => hbmTrainDone rates s
  | 6 => if (stepPorts s).any (fun n => portState s n == 2) then s else linkTrainDone s
  | 7 => if s.boot.ports.any (fun n => portState s n == 3) then s else linkQualifyDone s
  | 8 =>
    if timeState s = 2 ∧ !s.tim.syncing then endStep 2 0 s
    else if s.tim.syncing ∧ s.boot.stepFrom + rdF s Reg.timeSyncWait 31 0 * 1600000 ≤ now s then endStep 3 0x13 s
    else s
  | 9 => readyDone s
  | _ => s

theorem now_clockTo_le (t : Nat) (s : State) : now (clockTo t s) ≤ max (now s) t := by
  unfold clockTo
  split
  · next h =>
    obtain ⟨c, e⟩ := passTicks_cases s (t - now s)
    have hn : s.now.toNat < t := h.1
    rw [e, now, BitVec.toNat_add, wd, BitVec.toNat_ofNat, now]
    omega
  · exact le_max_left _ _

variable {bd : List Nat} {bt : List (Nat × Nat × Nat × Nat)} {mesh rates : List Nat} {us : Nat}

theorem exec_stepDone (h : EndsInTime us s) : ∃ c n, exec (.stepDone bd bt mesh rates us) s
    = ok (stepOutcome bd bt mesh rates { s with coll := c, now := n }) := by
  obtain ⟨htrip, hrun, h64, hnow, hlim⟩ := h
  obtain ⟨c, n, hx⟩ := clockTo_cases s (s.boot.stepFrom + us * 1600)
  have hle := now_clockTo_le (s.boot.stepFrom + us * 1600) s
  rw [hx] at hle
  refine ⟨c, n, ?_⟩
  show execStepDone bd bt mesh rates us s = _
  have h1 : ¬ (s.boot.running = 0 ∨ s.pwr.tripped = true) := by simp [hrun, htrip]
  have h2 : ¬ stepLimit { s with coll := c, now := n } < now { s with coll := c, now := n } :=
    not_lt.2 (hle.trans (max_le hnow hlim))
  unfold execStepDone
  rw [if_neg h1, hx]
  exact congrArg ok ((if_neg h1).trans ((if_neg h2).trans rfl))

theorem exec_stepDone_late (hs : s.pwr.tripped = false) (hr : s.boot.running ≠ 0)
    (hl : stepLimit s < s.boot.stepFrom + us * 1600) (h64 : s.boot.stepFrom + us * 1600 < 2 ^ 64) :
    exec (.stepDone bd bt mesh rates us) s = ok (endStep 3 0x23 (clockTo (s.boot.stepFrom + us * 1600) s)) := by
  have hge := now_clockTo s _ h64
  have h1 : ¬ (s.boot.running = 0 ∨ s.pwr.tripped = true) := by simp [hr, hs]
  show execStepDone bd bt mesh rates us s = _
  unfold execStepDone
  rw [if_neg h1]
  obtain ⟨c, n, hx⟩ := clockTo_cases s (s.boot.stepFrom + us * 1600)
  rw [hx] at hge ⊢
  have h2 : stepLimit { s with coll := c, now := n } < now { s with coll := c, now := n } := lt_of_lt_of_le hl hge
  exact congrArg ok ((if_neg h1).trans (if_pos h2))

/-- A step that its bound ends. -/
theorem stepOverdue (t : Nat) (hr : s.boot.running < 10) :
    StepEnded s.boot.running 3 0x23 s (endStep 3 0x23 (clockTo t s)) ∧ MemKept s (endStep 3 0x23 (clockTo t s))
      ∧ (endStep 3 0x23 (clockTo t s)).now = (clockTo t s).now := by
  obtain ⟨c, n, hx⟩ := clockTo_cases s t
  rw [hx]
  obtain ⟨hd, hk, hn⟩ := stepEnded_endStep (s := { s with coll := c, now := n }) (c := s.boot.running) (st := 3)
    (result := 0x23) rfl (by omega) (by decide) (by decide)
  exact ⟨hd, fun a => hk.mem a, hn⟩

/-- Settles O57: each step ends as what it found says (`stepOutcome`), or FAILED with 0x23 at its bound. -/
theorem bringUpStepsEnd : Obligations.BringUpStepsEnd := by
  intro s hdies hstacks
  refine ⟨fun bd bt mesh rates us hin => ?_, fun bd bt mesh rates us htrip hr h10 hl h64 => ?_, fun hr h10 h64 => ?_⟩
  · obtain ⟨c, n, he⟩ := exec_stepDone (bd := bd) (bt := bt) (mesh := mesh) (rates := rates) hin
    obtain ⟨x, hx⟩ : ∃ x, x = { s with coll := c, now := n } := ⟨_, rfl⟩
    have hcase : ∀ u, stepOutcome bd bt mesh rates x = u → exec (.stepDone bd bt mesh rates us) s = .next u :=
      fun u hu => by rw [he, ← hx, hu]; rfl
    have hb : x.boot = s.boot := by rw [hx]
    have hq : ∀ n, s.boot.running = n → x.boot.running = n := fun n hn => by rw [hb, hn]
    refine ⟨fun hr hf => ⟨_, hcase (fuseLoadDone x) (by rw [stepOutcome, hq _ hr]; rfl), ?_⟩,
      fun hr hf => ⟨_, hcase (fuseLoadDone x) (by rw [stepOutcome, hq _ hr]; rfl), ?_⟩,
      fun hr hp hbd => ⟨_, hcase (domainUpDone [] x) (by rw [stepOutcome, hq _ hr, hbd]; rfl), ?_⟩,
      fun hr hp hbt hm hd => ⟨_, hcase (selfTestDone [] [] x) (by rw [stepOutcome, hq _ hr, hbt, hm]; rfl), ?_⟩,
      fun hr => ⟨_, hcase (endStep 2 0 ((presentParts x).foldl (fun s p => clearSram p s) x))
        (by rw [stepOutcome, hq _ hr]; rfl), ?_⟩,
      fun hr hp h3 => ⟨_, hcase (hbmTrainDone rates x) (by rw [stepOutcome, hq _ hr]; rfl), ?_⟩,
      fun hr hp => ⟨_, hcase (linkTrainDone x) ?_, ?_⟩, fun hr hp => ⟨_, hcase (linkQualifyDone x) ?_, ?_⟩,
      fun hr ht hs => ⟨_, hcase (endStep 2 0 x) ?_, ?_⟩,
      fun hr ht hp => ⟨_, hcase (readyDone x) (by rw [stepOutcome, hq _ hr]; rfl), ?_⟩⟩
    all_goals clear hcase; subst hx
    · exact fuseLoadDone_good (s := { s with coll := c, now := n }) hr hf
    · exact fuseLoadDone_bad (s := { s with coll := c, now := n }) hr hf
    · exact domainUpDone_good (s := { s with coll := c, now := n }) hr hp
    · exact selfTestDone_good (s := { s with coll := c, now := n }) hr hp hd
    · exact sramClear_good (s := { s with coll := c, now := n }) hr rfl
    · exact hbmTrainDone_good (s := { s with coll := c, now := n }) hstacks hr hp h3
    · have hany : ((stepPorts s).any fun n => portState s n == 2) = false := List.any_eq_false.2 fun n hn => by
        rcases hp n hn with h | h <;> simp [h]
      rw [stepOutcome, hq _ hr]
      exact if_neg (by rw [Bool.not_eq_true]; exact hany)
    · exact linkTrainDone_good (s := { s with coll := c, now := n }) hr hp
    · have hany : (s.boot.ports.any fun n => portState s n == 3) = false := List.any_eq_false.2 fun n hn => by
        simp [(hp n hn).2]
      rw [stepOutcome, hq _ hr]
      exact if_neg (by rw [Bool.not_eq_true]; exact hany)
    · exact linkQualifyDone_good (s := { s with coll := c, now := n }) hdies hr fun n hn => (hp n hn).1
    · rw [stepOutcome, hq _ hr]
      exact if_pos ⟨ht, by rw [Bool.not_eq_true']; exact hs⟩
    · obtain ⟨hd, hk, -⟩ := stepEnded_endStep (s := { s with coll := c, now := n }) (c := 8) (st := 2) (result := 0) hr
        (by decide) (by decide) (by decide)
      exact ⟨hd, hk.mem⟩
    · exact readyDone_good (s := { s with coll := c, now := n }) hr ht hp
  · obtain ⟨h1, h2, -⟩ := stepOverdue (s.boot.stepFrom + us * 1600) h10
    exact ⟨_, exec_stepDone_late htrip hr hl h64, h1, h2⟩
  · obtain ⟨h1, h2, h3⟩ := stepOverdue (stepLimit s) h10
    have he : exec .stepTimeout s = ok (endStep 3 0x23 (clockTo (stepLimit s) s)) := by
      show execStepTimeout s = _
      rw [execStepTimeout, if_neg hr]
    refine ⟨_, he, h1, ?_, h2⟩
    rw [now, h3]; exact now_clockTo s _ h64

end Sys2Proof.Machine
end

section
/-! PROOFS. Device resets, the inputs, hangs, the heartbeat and the management view (R400–R404). -/

namespace Sys2Proof.Machine

variable {s u v : State} {p : Nat}

-- What changes registers alone

/-- Nothing but registers has changed. -/
def OnlyRegs (s u : State) : Prop := ∃ r, u = { s with regs := r }

theorem OnlyRegs.refl (s : State) : OnlyRegs s s := ⟨s.regs, rfl⟩

theorem OnlyRegs.trans (h : OnlyRegs s u) (h' : OnlyRegs u v) : OnlyRegs s v := by
  obtain ⟨r, rfl⟩ := h
  obtain ⟨r', rfl⟩ := h'
  exact ⟨r', rfl⟩

theorem onlyRegs_wrReg (a : Nat) (w : Word) (s : State) : OnlyRegs s (wrReg a w s) := ⟨_, rfl⟩

theorem OnlyRegs.wrReg (h : OnlyRegs s u) (a : Nat) (w : Word) : OnlyRegs s (wrReg a w u) := h.trans (onlyRegs_wrReg a w u)

theorem OnlyRegs.wrF (h : OnlyRegs s u) (a hi lo n : Nat) : OnlyRegs s (wrF a hi lo n u) := h.wrReg a _

theorem OnlyRegs.wrB (h : OnlyRegs s u) (a i : Nat) (b : Bool) : OnlyRegs s (wrB a i b u) := h.wrReg a _

theorem OnlyRegs.foldl {α : Type} {f : State → α → State} (l : List α) (hf : ∀ v x, OnlyRegs v (f v x)) (s : State) :
    OnlyRegs s (l.foldl f s) :=
  List.foldlRecOn _ _ (OnlyRegs.refl s) fun v hv x _ => hv.trans (hf v x)

theorem onlyRegs_loadFuses (s : State) : OnlyRegs s (loadFuses s) := by
  have h1 : OnlyRegs s (fuseIdentity s) :=
    ((((OnlyRegs.refl s).wrReg _ _).wrReg _ _).wrReg _ _ |>.wrB _ _ _).wrF _ _ _ _
  have h2 : ∀ v, OnlyRegs v (fusePower v) := fun v => by
    have h := (((OnlyRegs.refl v).wrF Reg.powerCap 47 32 (tdpOf v)).wrF Reg.powerCap 15 0 (tdpOf v)).wrF
      Reg.capLease 47 32 (tdpOf v * 3 / 4)
    unfold fusePower
    split
    · exact h.wrReg _ _
    · exact h
  have h3 : ∀ v, OnlyRegs v (absentStacks v) := fun v =>
    OnlyRegs.foldl _ (fun v p => OnlyRegs.foldl _ (fun w i => by
      split
      · exact OnlyRegs.refl _
      · exact onlyRegs_wrReg _ _ _) v) v
  exact (h1.trans (h2 _)).trans (h3 _)

-- A device reset, stage by stage (R400)

/-- The registers outside the always-on domain take their reset values, and the session on PCIe ends. -/
def resetBlocks (s : State) : State := resetRegs (fun a => !alwaysOn a) (endSession .pcie s)

/-- The first n partitions are FENCED, and no reset of one runs. -/
def fencedFirst (n : Nat) (s : State) : State :=
  (List.range n).foldl (fun s p => s |> wrF Reg.fenceStatus (16 * p + 15) (16 * p) 0x42 |> setPhase p 0) s

/-- No port is pitched, every partition is FENCED and no reset of one runs. -/
def resetFences (s : State) : State :=
  fencedFirst 4 ((List.range 32).foldl (fun s n => wrF (Reg.portPitch n) 3 2 0 s) s)

/-- What a device reset drops of the state beside registers. -/
def dropAll (s : State) : State :=
  let kept : Flt := { s.flt with
    halted := false, smdOn := false, fenceAt := [], resetTenants := [],
    present := s.flt.present.filter (fun x => x == 19 || x == 20 || x == 27) }
  let boot : Boot := { s.boot with
    routeWritten := false, jobFetch := false, dmaRun := false, ports := [], running := 0, stepFrom := 0, trainEnd := 0 }
  let pwr : Pwr := { lastRead := s.pwr.lastRead, lostRails := s.pwr.lostRails, faultRails := s.pwr.faultRails }
  { s with mem := [], ecc := [], tiles := [], banks := [], cpl := [], rma := {}, hbm := [], ports := [], net := {}, coll := {},
           cvu := [], host := {}, twin := {}, pwr := pwr, flt := kept, boot := boot }

theorem resetDevice_eq (s : State) : resetDevice s = afterFuseLoad (loadFuses (dropAll (resetFences (resetBlocks s)))) := rfl

theorem rd_resetRegs (f : Nat → Bool) (s : State) (a : Nat) :
    rd (resetRegs f s) a = if f a then Reg.resetValue a else rd s a := mget_mdrop _ _ _ _

theorem rd_resetBlocks {a : Nat} (h : alwaysOn a = true) (s : State) : rd (resetBlocks s) a = rd (endSession .pcie s) a := by
  rw [resetBlocks, rd_resetRegs, h]; rfl

/-- The registers that the always-on domain keeps and `resetFences` leaves alone. -/
theorem rd_resetFences {a : Nat} (h1 : a ≠ Reg.fenceStatus) (h2 : a ≠ Reg.resetStatus) (h3 : a < 0x60300 ∨ 0x60400 ≤ a)
    (s : State) : rd (resetFences s) a = rd s a := by
  unfold resetFences
  have h : rd ((List.range 32).foldl (fun s n => wrF (Reg.portPitch n) 3 2 0 s) s) a = rd s a :=
    List.foldlRecOn (motive := fun v => rd v a = rd s a) _ _ rfl fun v hv n hn => by
      rw [rd_wrF_ne _ _ _ _ (by have := List.mem_range.1 hn; simp only [Reg.portPitch]; omega), hv]
  exact List.foldlRecOn (motive := fun v => rd v a = rd s a) _ _ h fun v hv p _ => by
    rw [setPhase, rd_wrF_ne _ _ _ _ h2, rd_wrF_ne _ _ _ _ h1, hv]

theorem fenceState_setPhase (p n q : Nat) (s : State) : fenceState (setPhase p n s) q = fenceState s q :=
  rdF_wrF_ne _ _ _ _ _ _ (by decide)

theorem fenceState_fencedFirst {n q : Nat} (hn : n ≤ 4) (hq : q < n) (s : State) : fenceState (fencedFirst n s) q = 2 := by
  induction n with
  | zero => omega
  | succ n ih =>
    have he : fencedFirst (n + 1) s = setPhase n 0 (wrF Reg.fenceStatus (16 * n + 15) (16 * n) 0x42 (fencedFirst n s)) := by
      unfold fencedFirst
      rw [List.range_succ, List.foldl_append, List.foldl_cons, List.foldl_nil]
    rw [he, fenceState_setPhase, fenceState_wrF (by omega)]
    split
    · rfl
    · exact ih (by omega) (by omega)

theorem fenceState_resetFences (hp : p < 4) (s : State) : fenceState (resetFences s) p = 2 :=
  fenceState_fencedFirst (le_refl 4) hp _

theorem onlyRegs_resetFences (s : State) : OnlyRegs s (resetFences s) :=
  (OnlyRegs.foldl _ (fun _ _ => onlyRegs_wrReg _ _ _) s).trans
    (OnlyRegs.foldl _ (fun v _ => ((onlyRegs_wrReg _ _ v).wrReg _ _)) _)

theorem rd_dropAll (s : State) (a : Nat) : rd (dropAll s) a = rd s a := rfl

theorem onlyRegs_dropAll (h : OnlyRegs (dropAll s) u) : u.mem = [] ∧ u.tiles = [] ∧ u.banks = [] ∧ u.cpl = [] ∧ u.hbm = []
    ∧ u.host = {} ∧ u.coll = {} ∧ u.net = {} ∧ u.twin = {} ∧ u.now = s.now ∧ u.boot.draff = s.boot.draff
    ∧ u.boot.auditNext = s.boot.auditNext := by
  obtain ⟨r, rfl⟩ := h
  exact ⟨rfl, rfl, rfl, rfl, rfl, rfl, rfl, rfl, rfl, rfl, rfl, rfl⟩

theorem endSession_boot (q : Path) (s : State) :
    (endSession q s).boot.draff = s.boot.draff ∧ s.boot.auditNext ≤ (endSession q s).boot.auditNext := by
  unfold endSession
  split
  · exact ⟨rfl, le_refl _⟩
  · exact ⟨rfl, Nat.le_succ _⟩

theorem deviceWasReset_resetDevice (s : State) : DeviceWasReset s (resetDevice s) := by
  obtain ⟨x, hx⟩ : ∃ x, x = dropAll (resetFences (resetBlocks s)) := ⟨_, rfl⟩
  have hu : resetDevice s = afterFuseLoad (loadFuses x) := by rw [hx, resetDevice_eq]
  have ho : OnlyRegs x (resetDevice s) := by rw [hu]; exact (onlyRegs_loadFuses x).wrReg _ _
  have hse := sessionEnded_endSession .pcie s
  have hf := fused_loadFuses x
  have hr : ∀ a, a < 0x300000 → a ∉ fuseRegs → a ≠ Reg.bringupStatus → rd (resetDevice s) a
      = rd (resetFences (resetBlocks s)) a := fun a h1 h2 h3 => by
    rw [hu, afterFuseLoad, rd_wrReg_ne _ _ h3, hf.regs a h1 h2, hx, rd_dropAll]
  rw [hx] at ho
  obtain ⟨h1, h2, h3, h4, h5, h6, h7, h8, h9, hn, hd, ha⟩ := onlyRegs_dropAll ho
  obtain ⟨r, hfr⟩ := onlyRegs_resetFences (resetBlocks s)
  have hbt : (resetFences (resetBlocks s)).boot = (endSession .pcie s).boot ∧ (resetFences (resetBlocks s)).now = s.now := by
    rw [hfr]; exact ⟨rfl, hse.now⟩
  refine ⟨h1, h2, h3, h4, h5, h6, h7, h8, h9, ?_, ?_, fun p hp => ?_, fun a hl hh => ?_, by rw [hn, hbt.2], ?_, ?_⟩
  · rw [hu, afterFuseLoad, reached, rdF, rd_wrReg_self, fld_wd _ (by decide)]
    split <;> rfl
  · have := hse.role
    rw [roleOf, rdF] at this ⊢
    rw [hr _ (by decide) (by decide) (by decide), rd_resetFences (by decide) (by decide) (by decide),
      rd_resetBlocks (by decide), this]
  · rw [fenceState, rdF, hr _ (by decide) (by decide) (by decide), ← rdF, ← fenceState, fenceState_resetFences hp]
  · rw [hr a (by omega) (by simp only [fuseRegs, List.mem_cons, List.not_mem_nil, or_false, Reg.serial, Reg.assembly,
        Reg.capability, Reg.licStatus, Reg.powerCap, Reg.capLease, Reg.preset]; omega) (by rw [Reg.bringupStatus]; omega),
      rd_resetFences (by rw [Reg.fenceStatus]; omega) (by rw [Reg.resetStatus]; omega) (Or.inl hh),
      rd_resetBlocks (by simp only [alwaysOn, decide_eq_true_eq]; omega)]
    exact hse.kept.regs a (by simp only [List.mem_singleton, Reg.authStatus]; omega)
  · rw [hd, hbt.1, (endSession_boot _ _).1]
  · rw [ha, hbt.1]; exact (endSession_boot _ _).2

-- Power-on (R403)

theorem mget_filter_regs (f : Nat → Bool) (m : Map Word) (d : Word) (a : Nat) :
    mget d (m.filter fun kv => f kv.1) a = if f a then mget d m a else d := by
  have h := mget_mdrop d (fun a => !f a) m a
  simp only [mdrop, Bool.not_not] at h
  rw [h]
  cases f a <;> rfl

theorem poweredOn_powerOn (s : State) : PoweredOn s (powerOn s) := by
  have hr : ∀ a, a ≠ Reg.fwStatus → rd (powerOn s) a = if inFlash a then rd s a else Reg.resetValue a := fun a ha => by
    rw [powerOn, rd_wrReg_ne _ _ ha]
    exact mget_filter_regs inFlash s.regs (Reg.resetValue a) a
  refine ⟨rfl, rfl, rfl, rfl, rfl, fun a ha hf => ?_, fun a hf => ?_, rfl, rfl, rfl, rfl, rfl, rfl, rfl⟩
  · rw [hr a ha, hf]; rfl
  · rw [hr a (by rintro rfl; exact absurd hf (by decide)), hf, if_pos rfl]

-- The inputs (R403)

theorem recordControl_frame (src : Nat) (cond : Bool) (part : Option Nat) (tenants : List Nat) (s : State) :
    ∃ r rs, recordControl src cond part tenants s = { s with regs := r, flt := { s.flt with reactions := rs } } := by
  unfold recordControl latchFirst
  split
  · exact ⟨s.regs, s.flt.reactions, rfl⟩
  · split <;> exact ⟨_, _, rfl⟩

theorem mem_setPresent (src : Nat) (b : Bool) (s : State) : src ∈ (setPresent src b s).flt.present ↔ b = true := by
  unfold setPresent
  cases b <;> simp

/-- What an input that is found chattering or stuck leaves. -/
theorem markInput_spec (i : SideInput) (c : Bool) (s : State) : Shows 27 (markInput i c s)
    ∧ rdB (markInput i c s) Reg.inputStatus (8 * inputNo i + (if c then 1 else 2)) = true ∧ 27 ∈ (markInput i c s).flt.present
    ∧ Kept [Reg.inputStatus, Reg.faultStatus, Reg.firstSource] s (markInput i c s)
    ∧ ∃ r fl, markInput i c s = { s with regs := r, flt := fl } := by
  obtain ⟨x, hx⟩ : ∃ x, x = wrB Reg.inputStatus (8 * inputNo i + (if c then 1 else 2)) true s := ⟨_, rfl⟩
  have he : markInput i c s = setPresent 27 true (recordControl 27 true none [] x) := by rw [hx]; rfl
  have hk := kept_recordControl 27 true none [] x
  obtain ⟨r, rs, hf⟩ := recordControl_frame 27 true none [] x
  have hlt : 8 * inputNo i + (if c then 1 else 2) < 64 := by cases i <;> cases c <;> decide
  refine ⟨?_, ?_, ?_, ?_, ?_⟩
  · rw [he]; exact rdB_recordControl true none [] x (by decide)
  · rw [he]
    refine (show rdB (setPresent 27 true _) Reg.inputStatus _ = rdB (recordControl 27 true none [] x) Reg.inputStatus _ from rfl).trans
      ?_
    rw [rdB, hk.regs _ (by decide), ← rdB, hx]
    exact rdB_wrB_self _ _ _ _ hlt
  · rw [he, mem_setPresent]
  · rw [he]
    have h0 : Kept [Reg.inputStatus, Reg.faultStatus, Reg.firstSource] s x := by rw [hx]; exact (Kept.refl _ s).wrB (by simp) _ _
    exact (h0.trans (hk.mono (by simp))).of_same rfl rfl
  · rw [he, hf, hx]; exact ⟨_, _, rfl⟩

theorem DeviceWasReset.markInput (h : DeviceWasReset s u) (i : SideInput) (c : Bool) : DeviceWasReset s (markInput i c u) := by
  obtain ⟨h1, h2, h3, h4, h5, h6, h7, h8, h9, h10, h11, h12, h13, h14, h15, h16⟩ := h
  obtain ⟨-, -, -, hk, r, fl, he⟩ := markInput_spec i c u
  have hr := hk.regs
  have hreg : ∀ a hi lo, a ∉ [Reg.inputStatus, Reg.faultStatus, Reg.firstSource] →
      rdF (Machine.markInput i c u) a hi lo = rdF u a hi lo := fun a hi lo ha => by rw [rdF, hr a ha, rdF]
  refine ⟨?_, ?_, ?_, ?_, ?_, ?_, ?_, ?_, ?_, (hreg _ _ _ (by decide)).trans h10, (hreg _ _ _ (by decide)).trans h11,
    fun p hp => (hreg _ _ _ (by decide)).trans (h12 p hp), fun a hl hh => ?_, ?_, ?_, ?_⟩
  case refine_10 =>
    rw [hr a (by simp only [List.mem_cons, Reg.inputStatus, Reg.faultStatus, Reg.firstSource, List.not_mem_nil, or_false]; omega)]
    exact h13 a hl hh
  all_goals (rw [he]; assumption)

theorem inputStuck_steady (i : SideInput) (s : State) : Completes (.inputStuck i none) s (fun u =>
    rdB u Reg.inputStatus (8 * inputNo i + 1) = false ∧ rdB u Reg.inputStatus (8 * inputNo i + 2) = false
      ∧ (27 ∈ u.flt.present ↔ ∃ k, k < 4 ∧ k ≠ inputNo i ∧ rdF s Reg.inputStatus (8 * k + 2) (8 * k + 1) ≠ 0)
      ∧ RegsKept [Reg.inputStatus] s u ∧ MemKept s u) := by
  obtain ⟨x, hx⟩ : ∃ x, x = wrF Reg.inputStatus (8 * inputNo i + 2) (8 * inputNo i + 1) 0 s := ⟨_, rfl⟩
  have h4 : inputNo i < 4 := by cases i <;> decide
  have hb : ∀ k, rdF x Reg.inputStatus (8 * k + 2) (8 * k + 1)
      = if k = inputNo i then 0 else rdF s Reg.inputStatus (8 * k + 2) (8 * k + 1) := fun k => by
    rw [hx]
    split
    · next h => subst h; exact rdF_wrF_fits _ _ (by omega) (by omega) (by positivity)
    · exact rdF_wrF_other _ _ _ _ _ _ _ (by omega) (by omega) (by omega)
  have hbit : ∀ j, j = 8 * inputNo i + 1 ∨ j = 8 * inputNo i + 2 → rdB x Reg.inputStatus j = false := fun j hj => by
    rw [hx, rdB, rd_wrF_self, bit_setFld _ _ _ _ _ (by omega) (by omega), if_pos (by omega), Nat.zero_testBit]
  have hk : Kept [Reg.inputStatus] s x := by rw [hx]; exact (Kept.refl _ s).wrF (by simp) _ _ _
  have he : exec (.inputStuck i none) s
      = ok (setPresent 27 ([0, 1, 2, 3].any (fun k => rdF x Reg.inputStatus (8 * k + 2) (8 * k + 1) != 0)) x) := by
    rw [hx]; rfl
  refine ⟨_, he, hbit _ (Or.inl rfl), hbit _ (Or.inr rfl), ?_, hk.regs, hk.mem⟩
  rw [mem_setPresent, List.any_eq_true]
  constructor
  · rintro ⟨k, hm, hne⟩
    have hk4 : k < 4 := by
      simp only [List.mem_cons, List.not_mem_nil, or_false] at hm
      omega
    rw [hb k] at hne
    by_cases h : k = inputNo i
    · rw [if_pos h] at hne; exact absurd hne (by decide)
    · rw [if_neg h] at hne; exact ⟨k, hk4, h, by simpa using hne⟩
  · rintro ⟨k, hk4, h, hne⟩
    refine ⟨k, ?_, by rw [hb k, if_neg h]; simpa using hne⟩
    simp only [List.mem_cons, List.not_mem_nil, or_false]
    omega

theorem inputStuck_time {i : SideInput} {c : Bool} (hi : i = SideInput.timePps ∨ i = SideInput.timeClk) (hm : isMaster s = false) :
    Completes (.inputStuck i (some c)) s (fun u =>
      rdB u Reg.inputStatus (8 * inputNo i + (if c then 1 else 2)) = true ∧ Shows 27 u ∧ 27 ∈ u.flt.present
        ∧ RegsKept [Reg.inputStatus, Reg.faultStatus, Reg.firstSource] s u ∧ MemKept s u) := by
  obtain ⟨h1, h2, h3, h4, -⟩ := markInput_spec i c s
  have hif : ¬ (isMaster s && rdF s Reg.timeCtrl 7 6 != 0) = true := by simp [hm]
  have he : exec (.inputStuck i (some c)) s = ok (markInput i c s) := by
    rcases hi with rfl | rfl <;> exact congrArg ok (if_neg hif)
  exact ⟨_, he, h2, h1, h3, h4.regs, h4.mem⟩

-- Hangs and the management view (R401, R402, R404)

theorem stuckMashScan_finds {set : List Nat} {a b : Nat} (h1 : s.flt.smdOn = true) (h2 : rdB s Reg.smdCtrl 63 = true)
    (hne : set ≠ []) (hf : ∀ n ∈ set, ∀ p, nodePart n = some p → fenceState s p = 0) :
    Completes (.stuckMashScan set a b) s (fun u =>
      rdF u Reg.smdStatus 63 56 = min 255 set.length ∧ rdF u Reg.smdStatus 47 24 = b % 2 ^ 24
        ∧ rdF u Reg.smdStatus 23 0 = a % 2 ^ 24 ∧ Shows 26 u
        ∧ RegsKept [Reg.smdStatus, Reg.faultStatus, Reg.firstSource] s u ∧ MemKept s u) := by
  obtain ⟨x, hx⟩ : ∃ x, x = wrReg Reg.smdStatus (wd (min 255 set.length * 2 ^ 56 + b % 2 ^ 24 * 2 ^ 24 + a % 2 ^ 24)) s :=
    ⟨_, rfl⟩
  have hany : ¬ (set.any fun n => match nodePart n with | some p => fenceState s p != 0 | none => false) = true := by
    rw [Bool.not_eq_true, List.any_eq_false]
    intro n hn
    cases hp : nodePart n with
    | none => simp
    | some p => simp [hf n hn p hp]
  have he : exec (.stuckMashScan set a b) s = ok (recordControl 26 true (nodePart a) [] (setPresent 26 true x)) := by
    show execStuckMashScan set a b s = _
    unfold execStuckMashScan
    have hon : ¬ (!(s.flt.smdOn && rdB s Reg.smdCtrl 63)) = true := by simp [h1, h2]
    rw [if_neg hon, if_neg hne, hx]
    exact congrArg ok (if_neg hany)
  have hk := kept_recordControl 26 true (nodePart a) [] (setPresent 26 true x)
  have hk0 : Kept [Reg.smdStatus, Reg.faultStatus, Reg.firstSource] s (setPresent 26 true x) := by
    rw [hx]; exact ((Kept.refl _ s).wrReg (a := Reg.smdStatus) (by simp) _).of_same rfl rfl
  have hk1 := hk0.trans (hk.mono (by simp))
  have hw : rd (recordControl 26 true (nodePart a) [] (setPresent 26 true x)) Reg.smdStatus
      = wd (min 255 set.length * 2 ^ 56 + b % 2 ^ 24 * 2 ^ 24 + a % 2 ^ 24) := by
    rw [hk.regs _ (by decide), hx]; exact rd_wrReg_self _ _ _
  refine ⟨_, he, ?_, ?_, ?_, rdB_recordControl _ _ _ _ (by decide), hk1.regs, hk1.mem⟩
  all_goals rw [rdF, hw, fld_wd _ (by decide)]; omega

theorem mgmtDisagree_completes (s : State) : Completes .mgmtDisagree s (fun u =>
    rd u Reg.disagree = wd (viewDiffers s) ∧ (viewDiffers s ≠ 0 → Shows 30 u)
      ∧ RegsKept [Reg.disagree, Reg.faultStatus, Reg.firstSource] s u ∧ MemKept s u) := by
  obtain ⟨x, hx⟩ : ∃ x, x = wrReg Reg.disagree (wd (viewDiffers s)) s := ⟨_, rfl⟩
  have hw : rd x Reg.disagree = wd (viewDiffers s) := by rw [hx]; exact rd_wrReg_self _ _ _
  have hk : Kept [Reg.disagree, Reg.faultStatus, Reg.firstSource] s x := by
    rw [hx]; exact (Kept.refl _ s).wrReg (a := Reg.disagree) (by simp) _
  have he : exec .mgmtDisagree s = ok (if viewDiffers s = 0 then x else recordControl 30 true none [] x) := by
    rw [hx]; rfl
  by_cases h : viewDiffers s = 0
  · rw [if_pos h] at he
    exact ⟨_, he, hw, fun h' => absurd h h', hk.regs, hk.mem⟩
  · rw [if_neg h] at he
    have hr := kept_recordControl 30 true none [] x
    have hk' := hk.trans (hr.mono (by simp))
    exact ⟨_, he, by rw [hr.regs _ (by decide), hw], fun _ => rdB_recordControl _ _ _ _ (by decide), hk'.regs, hk'.mem⟩

/-- An admitted write that the OPERATOR may make is not logged (R446). -/
theorem answered_operator {who : Writer} {a : Nat} (hm : mayWrite s .operator who = true) (ha : skipsLog a = false)
    (f : State → State) : answered who a (withRoleDo .operator who a f s) = f s := by
  have hl : ∀ x, logOutcome .operator who a true x = x := fun x => by
    have hn : (decide (2 ≤ needRole Reg.Class.operator) && !unlogged a) = false := rfl
    rw [logOutcome, ha, hn]; rfl
  rw [answered_withRoleDo a f hm, hl]

theorem deviceReset_completes {who : Writer} (hm : mayWrite s .operator who = true) :
    Completes (.deviceReset who) s (DeviceWasReset s) := by
  have hb : bit (wd (2 ^ 63)) 63 = true := by decide
  have he : exec (.deviceReset who) s = ok (resetDevice s) := by
    refine congrArg ok ((answered_operator hm (by decide) _).trans ?_)
    exact if_pos hb
  exact ⟨_, he, deviceWasReset_resetDevice s⟩

/-- Settles O53: a device reset keeps the always-on domain's registers (`deviceWasReset_resetDevice`), power-on the flash
(`poweredOn_powerOn`); the inputs, the detector of hangs, the heartbeat and the management view write their registers. -/
theorem resetsAndSupervision : Obligations.ResetsAndSupervision := by
  intro s _
  have hreset := deviceWasReset_resetDevice s
  obtain ⟨h1, h2, -⟩ := markInput_spec .resetN true (resetDevice s)
  refine ⟨fun who hm => deviceReset_completes hm, ⟨_, rfl, hreset⟩, ⟨_, rfl, poweredOn_powerOn s⟩, ⟨_, rfl, poweredOn_powerOn s⟩,
    ⟨_, rfl, hreset.markInput _ _, h2, h1⟩, ⟨_, rfl, rfl⟩, fun i => inputStuck_steady i s,
    fun i c hi hm => inputStuck_time hi hm, fun set a b hon hc => ⟨fun hne hf => stuckMashScan_finds hon hc hne hf, fun hnil => ?_⟩,
    ?_, mgmtDisagree_completes s⟩
  · have he : exec (.stuckMashScan set a b) s = ok (setPresent 26 false s) := by
      show execStuckMashScan set a b s = _
      have hon' : ¬ (!(s.flt.smdOn && rdB s Reg.smdCtrl 63)) = true := by simp [hon, hc]
      unfold execStuckMashScan
      rw [if_neg hon', if_pos hnil]
    exact ⟨_, he, by simp [mem_setPresent], fun _ _ => rfl, fun _ => rfl⟩
  · have hk : Kept [Reg.heartbeat] s (addWrap Reg.heartbeat 31 0 1 s) := (Kept.refl _ s).addWrap (by simp) _ _ _
    exact ⟨_, rfl, rdF_addWrap_self s _ _ _ _ (by decide) (by decide),
      rdF_wrF_other _ _ _ _ _ _ _ (by decide) (by decide) (by decide), hk.regs, hk.mem⟩

end Sys2Proof.Machine
end

section
/-! PROOFS. What the completion of an operation, and whatever it sets going, leaves alone: the clock, the instances of
collectives, the fences' own registers, every record that is written already (R82, R99, R198, R203). -/

namespace Sys2Proof.Machine

variable {s u v : State} {t : Nat}

-- The relation

/-- Registers that no completion writes: those of the fences, and the handover state of every bank. -/
def Still (a : Nat) : Prop :=
  a = Reg.fenceStatus ∨ a = Reg.resetStatus ∨ (0x1000000 ≤ a ∧ 0x800 ≤ a % 0x1000 ∧ a % 0x40 = 0x10)

/-- An entry that was completed keeps its status word and its generation. -/
def ClosedAs (e f : Cpl) : Prop := e.st ≠ .opened → f.st ≠ .opened ∧ f.rec1 = e.rec1 ∧ f.gen = e.gen

/-- The fault record but for the reactions that wait. -/
def quietFlt (f : Flt) : Flt := { f with reactions := [] }

/-- What a completion and everything it sets going leave alone. -/
structure Aside (s u : State) : Prop where
  now : u.now = s.now
  boot : u.boot = s.boot
  coll : u.coll = s.coll
  flt : quietFlt u.flt = quietFlt s.flt
  still : ∀ a, Still a → rd u a = rd s a
  closed : ∀ k, ClosedAs (cplOf s k) (cplOf u k)

theorem ClosedAs.refl (e : Cpl) : ClosedAs e e := fun h => ⟨h, rfl, rfl⟩

theorem Aside.refl (s : State) : Aside s s := ⟨rfl, rfl, rfl, rfl, fun _ _ => rfl, fun _ => ClosedAs.refl _⟩

theorem Aside.trans (h : Aside s u) (h' : Aside u v) : Aside s v :=
  ⟨h'.now.trans h.now, h'.boot.trans h.boot, h'.coll.trans h.coll, h'.flt.trans h.flt,
    fun a ha => (h'.still a ha).trans (h.still a ha), fun k ho => by
      obtain ⟨h1, h2, h3⟩ := h.closed k ho
      obtain ⟨h4, h5, h6⟩ := h'.closed k h1
      exact ⟨h4, h5.trans h2, h6.trans h3⟩⟩

/-- What none of the parts that the relation speaks of shows. -/
theorem Aside.of_same (h : Aside s u) (hr : v.regs = u.regs) (hc : v.cpl = u.cpl) (hn : v.now = u.now) (hb : v.boot = u.boot)
    (hk : v.coll = u.coll) (hf : v.flt = u.flt) : Aside s v :=
  h.trans ⟨hn, hb, hk, by rw [hf], fun a _ => by simp only [rd, hr], fun k => by
    rw [show cplOf v k = cplOf u k by simp only [cplOf, hc]]; exact ClosedAs.refl _⟩

theorem Aside.wrReg (h : Aside s u) {a : Nat} (ha : ¬ Still a) (w : Word) : Aside s (wrReg a w u) :=
  h.trans ⟨rfl, rfl, rfl, rfl, fun b hb => rd_wrReg_ne u w (by rintro rfl; exact ha hb), fun _ => ClosedAs.refl _⟩

theorem Aside.wrF (h : Aside s u) {a : Nat} (ha : ¬ Still a) (hi lo n : Nat) : Aside s (wrF a hi lo n u) := h.wrReg ha _
theorem Aside.wrB (h : Aside s u) {a : Nat} (ha : ¬ Still a) (i : Nat) (b : Bool) : Aside s (wrB a i b u) := h.wrReg ha _
theorem Aside.orReg (h : Aside s u) {a : Nat} (ha : ¬ Still a) (m : Nat) : Aside s (orReg a m u) := h.wrReg ha _
theorem Aside.addSat (h : Aside s u) {a : Nat} (ha : ¬ Still a) (hi lo n : Nat) : Aside s (addSat a hi lo n u) := h.wrReg ha _

theorem Aside.onTl (h : Aside s u) (t : Nat) (f : Tile → Tile) : Aside s (onTl t f u) := h.of_same rfl rfl rfl rfl rfl rfl
theorem Aside.emit (h : Aside s u) (o : Out) : Aside s (emit o u) := h.of_same rfl rfl rfl rfl rfl rfl
theorem Aside.withHost (h : Aside s u) (x : HostIf) : Aside s { u with host := x } := h.of_same rfl rfl rfl rfl rfl rfl
theorem Aside.withPwr (h : Aside s u) (x : Pwr) : Aside s { u with pwr := x } := h.of_same rfl rfl rfl rfl rfl rfl

theorem Aside.queueReaction (h : Aside s u) (r : Reaction) : Aside s (queueReaction r u) :=
  h.trans ⟨rfl, rfl, rfl, rfl, fun _ _ => rfl, fun _ => ClosedAs.refl _⟩

theorem Aside.setCpl (h : Aside s u) {k : Nat} {e : Cpl} (he : ClosedAs (cplOf u k) e) : Aside s (setCpl k e u) :=
  h.trans ⟨rfl, rfl, rfl, rfl, fun _ _ => rfl, fun j => by
    by_cases hj : j = k
    · subst hj; rw [cplOf_setCpl_self]; exact he
    · rw [cplOf_setCpl_ne _ _ hj]; exact ClosedAs.refl _⟩

theorem Aside.foldl {α : Type} {f : State → α → State} (l : List α) (hf : ∀ v x, Aside v (f v x)) (s : State) :
    Aside s (l.foldl f s) :=
  List.foldlRecOn _ _ (Aside.refl s) fun v hv x _ => hv.trans (hf v x)

-- Which registers they are

theorem not_still_low {a : Nat} (h : a < 0x1000000) (h1 : a ≠ 0x30038) (h2 : a ≠ 0x30048) : ¬ Still a := by
  unfold Still Reg.fenceStatus Reg.resetStatus; omega

theorem not_still_offset {a : Nat} (h : 0x1000000 ≤ a) (h' : a % 0x40 ≠ 0x10 ∨ a % 0x1000 < 0x800) : ¬ Still a := by
  unfold Still Reg.fenceStatus Reg.resetStatus; omega

/-- A register of a tile's block, below its banks'. -/
theorem not_still_tile {t k : Nat} (h : k < 0x800) : ¬ Still (Reg.tileBase t + k) :=
  not_still_offset (by simp only [Reg.tileBase]; omega) (by simp only [Reg.tileBase]; omega)

theorem not_still_tileStatus (t : Nat) : ¬ Still (Reg.tileStatus t) := not_still_tile (k := 0) (by decide)
theorem not_still_cycles (t : Nat) : ¬ Still (Reg.cycles t) := not_still_tile (k := 0x40) (by decide)
theorem not_still_stallWait (t : Nat) : ¬ Still (Reg.stallWait t) := not_still_tile (k := 0x50) (by decide)
theorem not_still_tileGang (t : Nat) : ¬ Still (Reg.tileGang t) := not_still_tile (k := 0x10) (by decide)
theorem not_still_faultInfo (t : Nat) : ¬ Still (Reg.faultInfo t) := not_still_tile (k := 0x20) (by decide)

theorem not_still_bankEcc (t b : Nat) : ¬ Still (Reg.bankEcc t b) :=
  not_still_offset (by simp only [Reg.bankEcc, Reg.tileBase]; omega) (by simp only [Reg.bankEcc, Reg.tileBase]; omega)

theorem not_still_dcap {src : Nat} (h : src < 64) (w : Nat) (hw : w < 4) : ¬ Still (Reg.dcap src w) :=
  not_still_low (by simp only [Reg.dcap]; omega) (by simp only [Reg.dcap]; omega) (by simp only [Reg.dcap]; omega)

theorem not_still_cvuStatus (c : Nat) : ¬ Still (Reg.cvuStatus c) :=
  not_still_low (by simp only [Reg.cvuStatus]; omega) (by simp only [Reg.cvuStatus]; omega)
    (by simp only [Reg.cvuStatus]; omega)

-- Faults

theorem aside_recordData {src : Nat} (h : src < 64) (o : Occ) (part : Option Nat) (s : State) :
    Aside s (recordData src o part s) := by
  have h0 : Aside s (orReg Reg.faultStatus (2 ^ src) s) := (Aside.refl s).orReg (not_still_low (by decide) (by decide) (by decide)) _
  have hd := fun w hw => not_still_dcap h w hw
  unfold recordData
  dsimp only
  split
  · exact ((h0.wrB (hd 1 (by decide)) _ _).addSat (hd 3 (by decide)) _ _ _).queueReaction _
  · exact ((((h0.wrReg (hd 0 (by decide)) _).wrReg (hd 1 (by decide)) _).wrReg (hd 2 (by decide)) _).wrReg
      (hd 3 (by decide)) _).queueReaction _

theorem aside_captureAt (t index code : Nat) (s : State) : Aside s (captureAt t index code s) := by
  unfold captureAt
  split
  · exact Aside.refl s
  · exact (Aside.refl s).wrReg (not_still_faultInfo t) _

theorem aside_tileFault (t code : Nat) (s : State) : Aside s (tileFault t code s) := by
  unfold tileFault tileFaultAt
  refine (((aside_captureAt _ _ _ s).trans (Aside.foldl _ (fun v m => aside_captureAt _ _ _ v) _)).trans
    (Aside.foldl _ (fun v m => ?_) _)).trans (aside_recordData (by decide) _ _ _)
  exact (((Aside.refl v).wrF (not_still_tileStatus m) _ _ _).wrF (not_still_tileStatus m) _ _ _).onTl _ _

theorem aside_localFault (t code off : Nat) (w : Bool) (s : State) : Aside s (localFault t code off w s) := by
  unfold localFault
  dsimp only
  split
  · exact (aside_tileFault _ _ s).trans (aside_recordData (by decide) _ _ _)
  · exact aside_tileFault _ _ s

theorem aside_noteErrors (a n : Nat) (o : Occ) (s : State) : Aside s (noteErrors a n o s) := by
  unfold noteErrors
  refine Aside.foldl _ (fun v k => ?_) s
  have h := not_still_bankEcc (tileBankOf (32 * k)).1 (tileBankOf (32 * k)).2
  dsimp only
  split
  · exact Aside.refl v
  · exact ((Aside.refl v).addSat h _ _ _).wrF h _ _ _
  · exact (((Aside.refl v).addSat h _ _ _).wrF h _ _ _).trans (aside_recordData (by decide) _ _ _)

-- A tile's own SRAM

theorem aside_putUnblocked (l : List Nat) (a : Nat) (bs : List Byte) (s : State) : Aside s (putUnblocked l a bs s) := by
  induction bs generalizing a s with
  | nil => exact Aside.refl s
  | cons b r ih =>
    unfold putUnblocked
    split
    · exact ih _ _
    · exact ((Aside.refl s).of_same (v := putByte a b s) rfl rfl rfl rfl rfl rfl).trans (ih _ _)

theorem aside_setEcc (k : Nat) (e : Ecc) (s : State) : Aside s (setEcc k e s) :=
  (Aside.refl s).of_same rfl rfl rfl rfl rfl rfl

theorem aside_onBank (g : Nat) (f : Bank → Bank) (s : State) : Aside s (onBank g f s) :=
  (Aside.refl s).of_same rfl rfl rfl rfl rfl rfl

theorem aside_writeMem (whole poison : Bool) (a : Nat) (bs : List Byte) (s : State) :
    Aside s (writeMem whole poison a bs s).2 :=
  (aside_putUnblocked _ _ _ s).trans (Aside.foldl _ (fun v _ => aside_setEcc _ _ v) _)

theorem aside_localStore (t view off : Nat) (bs : List Byte) (s : State) : Aside s (localStore t view off bs s) := by
  unfold localStore
  exact ((Aside.foldl _ (fun v _ => aside_noteErrors _ _ _ v) s).trans (aside_writeMem _ _ _ _ _)).onTl _ _

theorem aside_admitWords (a n : Nat) (e : BankEntry) (s : State) : Aside s (admitWords a n e s) :=
  Aside.foldl _ (fun v _ => aside_onBank _ _ v) s

/-- What asking for banks leaves, where it says anything. -/
theorem aside_askBanks {port : Nat} {r two : Bool} {l : List (Nat × Nat)} :
    (∀ v, askBanks t port r two l s = .granted v → Aside s v) ∧ (∀ v, askBanks t port r two l s = .waits v → Aside s v) := by
  have hl : ∀ (l : List (Nat × Nat)) (e : BankEntry), Aside s
      (onTl t (fun x => { x with asked := true }) (l.foldl (fun s r => admitWords (sramAddr t r.1) r.2 e s) s)) := fun l e =>
    (Aside.foldl _ (fun v _ => aside_admitWords _ _ _ v) s).onTl _ _
  unfold askBanks
  dsimp only
  constructor <;> intro v h <;> split at h
  · split at h
    · cases h
    · cases h; exact Aside.refl s
  · split at h
    · cases h
    · cases h
    · split at h
      · cases h; exact hl _ _
      · split at h <;> cases h
  · split at h
    · cases h; exact Aside.refl s
    · cases h
  · split at h
    · cases h; exact Aside.refl s
    · cases h
    · split at h
      · cases h
      · split at h
        · cases h; exact hl _ _
        · cases h; exact Aside.refl s

-- Waits that end

theorem Aside.release (h : Aside s u) (tag : Nat) : Aside s (release tag u) := by
  unfold Machine.release
  dsimp only
  split
  · exact h.setCpl fun ho => ⟨by simp, rfl, rfl⟩
  · exact h.setCpl fun ho => ⟨by simp [freedEntry], rfl, rfl⟩

theorem Aside.observe (h : Aside s u) (t : Nat) (f : Until → Bool) : Aside s (observe t f u) := h.onTl _ _

theorem Aside.advance (h : Aside s u) (t : Nat) : Aside s (advance t u) := by
  unfold Machine.advance
  exact (((h.onTl _ _).wrF (not_still_tileStatus t) _ _ _).wrF (not_still_tileStatus t) _ _ _).wrReg (not_still_cycles t) _

theorem Aside.resume (h : Aside s u) (t : Nat) : Aside s (resume t u) := by
  unfold Machine.resume
  exact ((((h.withPwr _).onTl _ _).wrReg (not_still_stallWait t) _).wrReg (not_still_cycles t) _).advance t

theorem aside_idleGang (l : Nat) (s : State) : Aside s (idleGang l s) :=
  Aside.foldl _ (fun v m => (((Aside.refl v).wrF (not_still_tileStatus m) _ _ _).wrF (not_still_tileStatus m) _ _ _).onTl _ _) s

theorem Aside.pushRecord (h : Aside s u) (q i : Nat) (c e : Word) : Aside s (pushRecord q i c e u) := by
  obtain ⟨x, he, -⟩ := pushRecord_frame q i c e u
  rw [he]; exact h.withHost _

theorem aside_endJob (l status : Nat) (s : State) : Aside s (endJob l status s) := by
  unfold endJob
  split
  · exact Aside.refl s
  · exact (((Aside.refl s).withHost _).trans (aside_idleGang l _)).pushRecord _ _ _ _

theorem aside_settleCplw (t : Nat) (w : Word) (d : Nat) (off : Option Nat) (s : State) :
    Aside s (settleCplw t w d off s) := by
  unfold settleCplw
  split
  · exact Aside.refl s
  · exact ((Aside.refl s).onTl _ _).resume t
  · split
    · exact ((((Aside.refl s).onTl _ _).observe _ _).release _).resume t
    · obtain ⟨hg, hw⟩ := aside_askBanks (t := t) (s := s) (port := 4) (r := false) (two := false) (l := [(_, 32)])
      split
      · next h => exact (((((hg _ h).trans (aside_localStore _ _ _ _ _)).onTl _ _).observe _ _).release _).resume t
      · next h => exact hw _ h
      · exact aside_localFault _ _ _ _ s

theorem aside_settle (t : Nat) (s : State) : Aside s (settle t s) := by
  unfold settle
  split
  · split
    · exact aside_settleCplw _ _ _ _ s
    · unfold settleSwait
      dsimp only
      split
      · exact Aside.refl s
      · exact (((Aside.refl s).onTl _ _).observe _ _).resume t
    · unfold settleFence
      split
      · exact Aside.refl s
      · exact (((Aside.refl s).onTl _ _).observe _ _).resume t
    · unfold settleEnd
      dsimp only
      split
      · split
        · exact aside_idleGang _ s
        · exact aside_endJob _ _ s
      · exact Aside.refl s
    · exact Aside.refl s
  · exact Aside.refl s

-- Sinks

theorem Aside.inject (h : Aside s u) (p : Packet) : Aside s (inject p u) := by
  unfold Machine.inject
  dsimp only
  split
  · exact h.of_same rfl rfl rfl rfl rfl rfl
  · exact h.of_same rfl rfl rfl rfl rfl rfl

theorem aside_writeGang (l : List Nat) (s : State) : Aside s (writeGang l s) :=
  Aside.foldl _ (fun v _ => (Aside.refl v).wrReg (not_still_tileGang _) _) s

theorem aside_formGang (tenant : Nat) (l : List Nat) (s : State) : Aside s (formGang tenant l s).2 := by
  unfold formGang
  dsimp only
  split
  · exact Aside.refl s
  · exact aside_writeGang _ s

theorem aside_jobLoaded (l status : Nat) (s : State) : Aside s (jobLoaded l status s) := by
  unfold jobLoaded
  split
  · exact aside_endJob _ _ s
  · split
    · exact Aside.refl s
    · exact (((Aside.refl s).withHost _).onTl _ _).trans (Aside.foldl _ (fun v m =>
        ((Aside.refl v).wrF (not_still_tileStatus m) _ _ _).wrF (not_still_tileStatus m) _ _ _) _)

theorem aside_membersLoaded (q i tenant status : Nat) (buf : Map Byte) (n : Nat) (s : State) :
    Aside s (membersLoaded q i tenant status buf n s) := by
  unfold membersLoaded
  split
  · exact (Aside.refl s).pushRecord _ _ _ _
  · exact (aside_formGang _ _ s).pushRecord _ _ _ _

theorem aside_toSink (tag : Nat) (e : Cpl) (status : Nat) (word check : Word) (s : State) :
    Aside s (toSink tag e status word check s) := by
  unfold toSink
  split
  · exact Aside.refl s
  · exact Aside.refl s
  · exact (Aside.refl s).onTl _ _
  · exact ((Aside.refl s).inject _).release _
  · split
    · exact Aside.refl s
    · exact ((Aside.refl s).onTl _ _).release _
  · split
    · exact ((Aside.refl s).release _).trans (aside_membersLoaded _ _ _ _ _ _ _)
    · exact ((Aside.refl s).release _).pushRecord _ _ _ _
  · exact ((Aside.refl s).release _).trans (aside_jobLoaded _ _ _)

theorem aside_noteJobError (e : Cpl) (status : Nat) (s : State) : Aside s (noteJobError e status s) := by
  unfold noteJobError
  split
  · exact Aside.refl s
  · split
    · exact (Aside.refl s).withHost _
    · exact Aside.refl s

theorem aside_afterAr (tag : Nat) (e : Cpl) (status : Nat) (s : State) : Aside s (afterAr tag e status s) := by
  unfold afterAr
  dsimp only
  split
  · exact (((Aside.refl s).onTl _ _).trans (aside_recordData (by decide) _ _ _)).release _
  · exact (Aside.refl s).release _

-- Completion

/-- What a completion sets going once its record is written. -/
def afterRecord (tag status : Nat) (e : Cpl) (word check : Word) (s : State) : State :=
  let s := toSink tag e status word check s
  let s := noteJobError e status s
  let s := if e.orphan then release tag s
    else if e.ar then afterAr tag e status s else s
  match e.tile with
  | none => s
  | some t => settle t s

theorem aside_afterRecord (tag status : Nat) (e : Cpl) (word check : Word) (s : State) :
    Aside s (afterRecord tag status e word check s) := by
  have h := (aside_toSink tag e status word check s).trans (aside_noteJobError e status _)
  have h' : Aside s (if e.orphan then release tag (noteJobError e status (toSink tag e status word check s))
      else if e.ar then afterAr tag e status (noteJobError e status (toSink tag e status word check s))
      else noteJobError e status (toSink tag e status word check s)) := by
    split
    · exact h.release tag
    · split
      · exact h.trans (aside_afterAr _ _ _ _)
      · exact h
  unfold afterRecord
  dsimp only
  split
  · exact h'
  · exact h'.trans (aside_settle _ _)

theorem finishTag_of_open {tag status drops : Nat} {inexact late : Bool} {check : Option Word}
    (h : (cplOf s tag).st = .opened) (hd : (cplOf s tag).damaged = false) :
    finishTag tag status drops inexact late check s
      = afterRecord tag status (cplOf s tag) (statusWord status drops check.isSome inexact late) (check.getD 0)
          (writeRecord tag (cplOf s tag) (statusWord status drops check.isSome inexact late) (check.getD 0) s) := by
  have hn : ¬ ((cplOf s tag).st ≠ .opened ∨ (cplOf s tag).damaged = true) := by simp [h, hd]
  unfold finishTag
  exact if_neg hn

/-- Completing an open entry writes its record; what it sets going leaves the record's word and generation (R198). -/
theorem finished_finishTag {tag status drops : Nat} {inexact late : Bool} {check : Option Word}
    (h : (cplOf s tag).st = .opened) (hd : (cplOf s tag).damaged = false) :
    Finished tag (statusWord status drops check.isSome inexact late) s (finishTag tag status drops inexact late check s) := by
  rw [finishTag_of_open h hd]
  obtain ⟨x, hx⟩ : ∃ x, x = writeRecord tag (cplOf s tag) (statusWord status drops check.isSome inexact late) (check.getD 0) s :=
    ⟨_, rfl⟩
  have hc : cplOf x tag = { cplOf s tag with
      st := .done, gen := ((cplOf s tag).gen + 1) % 16, seq := ((cplOf s tag).seq + 1) % 2 ^ 32, doneAt := now s, valid := true
      rec0 := wd (((cplOf s tag).seq + 1) % 2 ^ 32 * 2 ^ 32 + 2 ^ 31 + (cplOf s tag).gen % 16 * 2 ^ 15 + tag % 2 ^ 15)
      rec1 := statusWord status drops check.isSome inexact late, rec2 := s.now, rec3 := check.getD 0, cvu := none } := by
    rw [hx, writeRecord, cplOf_setCpl_self]
  obtain ⟨h1, h2, h3⟩ := (aside_afterRecord tag status (cplOf s tag) (statusWord status drops check.isSome inexact late)
    (check.getD 0) x).closed tag (by rw [hc]; simp)
  rw [← hx]
  exact ⟨h1, by rw [h2, hc], by rw [h3, hc]⟩

theorem aside_finishTag (tag status drops : Nat) (inexact late : Bool) (check : Option Word) (s : State) :
    Aside s (finishTag tag status drops inexact late check s) := by
  by_cases h : (cplOf s tag).st = .opened ∧ (cplOf s tag).damaged = false
  · obtain ⟨h, hd⟩ := h
    rw [finishTag_of_open h hd]
    exact ((Aside.refl s).setCpl fun ho => absurd h ho).trans (aside_afterRecord ..)
  · have hn : (cplOf s tag).st ≠ .opened ∨ (cplOf s tag).damaged = true := by
      by_cases ho : (cplOf s tag).st = .opened
      · exact Or.inr (by simpa [ho] using h)
      · exact Or.inl ho
    have he : finishTag tag status drops inexact late check s = s := by
      unfold finishTag
      exact if_pos hn
    rw [he]; exact Aside.refl s

theorem aside_cvuError (c : Nat) (s : State) : Aside s (cvuError c s) := by
  unfold cvuError
  exact (((Aside.refl s).of_same (v := { s with cvu := mset {} s.cvu c {} }) rfl rfl rfl rfl rfl rfl).wrF
    (not_still_cvuStatus c) _ _ _).orReg (not_still_low (by decide) (by decide) (by decide)) _

/-- What failing an entry does to the channel that is attached to it (R324, R325). -/
def dropChannel (e : Cpl) (s : State) : State :=
  match e.cvu with
  | none => s
  | some c => if e.answered then wrF (Reg.cvuStatus c) 1 0 0 s else cvuError c s

theorem aside_dropChannel (e : Cpl) (s : State) : Aside s (dropChannel e s) := by
  unfold dropChannel
  split
  · exact Aside.refl s
  · split
    · exact (Aside.refl s).wrF (not_still_cvuStatus _) _ _ _
    · exact aside_cvuError _ s

theorem cplOf_dropChannel (e : Cpl) (s : State) (k : Nat) : cplOf (dropChannel e s) k = cplOf s k := by
  unfold dropChannel
  split
  · rfl
  · split <;> rfl

theorem failTag_of_open {tag status : Nat} {late : Bool} (h : (cplOf s tag).st = .opened) :
    failTag tag status late s = finishTag tag status 0 false late none (dropChannel (cplOf s tag) s) := by
  have hn : ¬ (cplOf s tag).st ≠ .opened := by simp [h]
  unfold failTag
  rw [if_neg hn]
  rfl

theorem failTag_of_closed {tag status : Nat} {late : Bool} (h : (cplOf s tag).st ≠ .opened) : failTag tag status late s = s := by
  unfold failTag; exact if_pos h

theorem aside_failTag (tag status : Nat) (late : Bool) (s : State) : Aside s (failTag tag status late s) := by
  by_cases h : (cplOf s tag).st = .opened
  · rw [failTag_of_open h]
    exact (aside_dropChannel _ s).trans (aside_finishTag _ _ _ _ _ _ _)
  · rw [failTag_of_closed h]; exact Aside.refl s

theorem finished_failTag {tag status : Nat} {late : Bool} (h : (cplOf s tag).st = .opened) (hd : (cplOf s tag).damaged = false) :
    Finished tag (statusWord status 0 false false late) s (failTag tag status late s) := by
  rw [failTag_of_open h]
  have hc := cplOf_dropChannel (cplOf s tag) s tag
  obtain ⟨h1, h2, h3⟩ := finished_finishTag (s := dropChannel (cplOf s tag) s) (tag := tag) (status := status) (drops := 0)
    (inexact := false) (late := late) (check := none) (by rw [hc, h]) (by rw [hc, hd])
  exact ⟨h1, h2, by rw [h3, hc]⟩

end Sys2Proof.Machine
end

section
/-! PROOFS. What answers to accesses, the ends of instances and of jobs leave of the fences' own record (R396, R397). -/

namespace Sys2Proof.Machine

variable {s u v : State} {t tag : Nat}

-- Parts of a completion

theorem Aside.inTime (x : Access) {f : State → State} (hf : ∀ v, Aside v (f v)) (s : State) : Aside s (inTime x f s) := by
  unfold Machine.inTime
  split
  · exact (Aside.refl s).addSat (not_still_low (by decide) (by decide) (by decide)) _ _ _
  · exact hf s

theorem aside_noteError (tag status : Nat) (s : State) : Aside s (noteError tag status s) := by
  unfold noteError
  dsimp only
  split
  · exact (Aside.refl s).setCpl fun h => ⟨h, rfl, rfl⟩
  · exact Aside.refl s

theorem aside_concludeTag (tag : Nat) (late : Bool) (s : State) : Aside s (concludeTag tag late s) := by
  have h0 : Aside s (setCpl tag { cplOf s tag with answered := true, late := late } s) :=
    (Aside.refl s).setCpl fun h => ⟨h, rfl, rfl⟩
  have hf := fun st d i l c (v : State) => aside_finishTag tag st d i l c v
  unfold concludeTag
  dsimp only
  split
  · split
    · exact h0.trans (hf ..)
    · exact (h0.trans (aside_cvuError _ _)).trans (hf ..)
  · split
    · exact h0.trans (hf ..)
    · split
      · exact h0.trans (hf ..)
      · split
        · exact h0
        · exact h0.trans (hf ..)

theorem aside_progress (tag n status : Nat) (late : Bool) (s : State) : Aside s (progress tag n status late s) := by
  have h := aside_noteError tag status s
  unfold progress
  dsimp only
  split
  · exact h
  · have h' := h.setCpl (k := tag) (e := { cplOf (noteError tag status s) tag with
      got := (cplOf (noteError tag status s) tag).got + n }) fun h => ⟨h, rfl, rfl⟩
    split
    · exact h'.trans (aside_concludeTag _ _ _)
    · exact h'

theorem aside_cvuFeed (c off : Nat) (bs : List Byte) (s : State) : Aside s (cvuFeed c off bs s) := by
  induction bs generalizing off s with
  | nil => exact Aside.refl s
  | cons b r ih =>
    unfold cvuFeed
    dsimp only
    split
    · exact ((Aside.refl s).wrB (not_still_cvuStatus c) _ _).trans (ih _ _)
    · exact ((Aside.refl s).of_same (v := setCvu c _ s) rfl rfl rfl rfl rfl rfl).trans (ih _ _)

theorem aside_cvuCover (tag off : Nat) (bs : List Byte) (poison : Bool) (s : State) : Aside s (cvuCover tag off bs poison s) := by
  unfold cvuCover
  split
  · exact Aside.refl s
  · split
    · exact Aside.refl s
    · split
      · exact aside_cvuError _ s
      · exact (aside_cvuFeed _ _ _ s).trans ((Aside.refl _).wrF (not_still_cvuStatus _) _ _ _)

theorem aside_ethData (f : Nat) (x : Nat × Nat × List Byte) (s : State) : Aside s (ethData f x s) := by
  unfold ethData
  split
  · exact (Aside.refl s).emit _
  · exact Aside.refl s

theorem aside_ethReady (tag : Nat) (s : State) : Aside s (ethReady tag s) := by
  unfold ethReady
  dsimp only
  split
  · split
    · exact ((Aside.refl s).withHost _).trans (Aside.foldl _ (fun v _ => aside_ethData _ _ v) _)
    · exact aside_concludeTag _ _ s
  · exact Aside.refl s

theorem aside_putBuf (tag off : Nat) (bs : List Byte) (s : State) : Aside s (putBuf tag off bs s) :=
  (Aside.refl s).setCpl fun h => ⟨h, rfl, rfl⟩

theorem aside_deliver (tag off n status : Nat) (bs : List Byte) (poison late : Bool) (s : State) :
    Aside s (deliver tag off n status bs poison late s).2 := by
  unfold deliver
  dsimp only
  split
  · exact Aside.refl s
  · split
    · exact (aside_progress _ _ _ _ s).trans (aside_ethReady _ _)
    · split
      · dsimp only
        split
        · exact aside_noteError _ _ s
        · exact Aside.refl s
      · exact (((Aside.refl s).onTl _ _).trans (aside_cvuCover _ _ _ _ _)).trans (aside_progress _ _ _ _ _)
      · exact ((Aside.refl s).onTl _ _).trans (aside_progress _ _ _ _ _)
      · split
        · exact (((Aside.refl s).emit _).trans (aside_cvuCover _ _ _ _ _)).trans (aside_progress _ _ _ _ _)
        · exact (((aside_putBuf _ _ _ s).trans (aside_cvuCover _ _ _ _ _)).trans (aside_progress _ _ _ _ _)).trans
            (aside_ethReady _ _)
      · exact aside_progress _ _ _ _ s

theorem aside_answerOwn (tag : Nat) (x : Access) (status : Nat) (data : List Byte) (poison : Bool) (s : State) :
    Aside s (answerOwn tag x status data poison s).2 := by
  unfold answerOwn
  dsimp only
  split
  · dsimp only
    refine Aside.trans ?_ (aside_progress _ _ _ _ _)
    split
    · exact aside_cvuCover _ _ _ _ s
    · exact Aside.refl s
  · split
    · exact aside_progress _ _ _ _ s
    · exact aside_deliver _ _ _ _ _ _ _ s

theorem Aside.ite {c : Prop} [Decidable c] (hu : Aside s u) (hv : Aside s v) : Aside s (if c then u else v) := by
  split
  · exact hu
  · exact hv

theorem aside_putPerformed (p : Packet) (status : Nat) (s : State) : Aside s (putPerformed p status s) := by
  have h : ∀ l, Aside s { s with rma := { s.rma with ackDue := l } } := fun l => (Aside.refl s).of_same rfl rfl rfl rfl rfl rfl
  unfold putPerformed
  exact Aside.ite ((h _).inject _) (Aside.ite ((h _).inject _) (h _))

theorem aside_respondTo (req : Packet) (status : Nat) (data : List Byte) (s : State) : Aside s (respondTo req status data s) := by
  have h : ∀ op st bs l, Aside s (respond req op st bs l s) := fun _ _ _ _ => (Aside.refl s).inject _
  unfold respondTo
  split
  · exact aside_putPerformed _ _ s
  · split
    · exact h _ _ _ _
    · split
      · exact h _ _ _ _
      · split
        · split
          · exact h _ _ _ _
          · exact Aside.refl s
        · exact h _ _ _ _

-- The fences' own record

/-- What most commands leave of the fences' own record. -/
structure FenceKept (s u : State) : Prop where
  now : u.now = s.now
  fence : rd u Reg.fenceStatus = rd s Reg.fenceStatus
  reset : rd u Reg.resetStatus = rd s Reg.resetStatus
  fenceAt : u.flt.fenceAt = s.flt.fenceAt
  resetAt : u.flt.resetAt = s.flt.resetAt

theorem FenceKept.refl (s : State) : FenceKept s s := ⟨rfl, rfl, rfl, rfl, rfl⟩

theorem FenceKept.trans (h : FenceKept s u) (h' : FenceKept u v) : FenceKept s v :=
  ⟨h'.now.trans h.now, h'.fence.trans h.fence, h'.reset.trans h.reset, h'.fenceAt.trans h.fenceAt, h'.resetAt.trans h.resetAt⟩

theorem Aside.fences (h : Aside s u) : FenceKept s u :=
  ⟨h.now, h.still _ (Or.inl rfl), h.still _ (Or.inr (Or.inl rfl)), by
    have := congrArg Flt.fenceAt h.flt; exact this, by have := congrArg Flt.resetAt h.flt; exact this⟩

theorem FenceKept.aside (h : FenceKept s u) (h' : Aside u v) : FenceKept s v := h.trans h'.fences

theorem FenceKept.of_same (h : FenceKept s u) (hr : v.regs = u.regs) (hn : v.now = u.now) (hf : v.flt.fenceAt = u.flt.fenceAt)
    (hf' : v.flt.resetAt = u.flt.resetAt) : FenceKept s v :=
  h.trans ⟨hn, by simp only [rd, hr], by simp only [rd, hr], hf, hf'⟩

theorem FenceKept.wrReg (h : FenceKept s u) {a : Nat} (ha : 0x30050 ≤ a) (w : Word) : FenceKept s (wrReg a w u) :=
  h.trans ⟨rfl, rd_wrReg_ne u w (by rw [Reg.fenceStatus]; omega), rd_wrReg_ne u w (by rw [Reg.resetStatus]; omega), rfl, rfl⟩

theorem FenceKept.ite {c : Prop} [Decidable c] (hu : FenceKept s u) (hv : FenceKept s v) : FenceKept s (if c then u else v) := by
  split
  · exact hu
  · exact hv

theorem FenceKept.ite_snd {c : Prop} [Decidable c] {x y : List Access × State} (hx : FenceKept s x.2) (hy : FenceKept s y.2) :
    FenceKept s (if c then x else y).2 := by
  split
  · exact hx
  · exact hy

theorem FenceKept.orId {c : Prop} [Decidable c] {f : State → State} (h : FenceKept s u) (hf : FenceKept u (f u)) :
    FenceKept s ((if c then f else id) u) := by
  split
  · exact h.trans hf
  · exact h

theorem FenceKept.foldl {α : Type} {f : State → α → State} (l : List α) (hf : ∀ v x, FenceKept v (f v x)) (s : State) :
    FenceKept s (l.foldl f s) :=
  List.foldlRecOn _ _ (FenceKept.refl s) fun v hv x _ => hv.trans (hf v x)

theorem FenceKept.inject (h : FenceKept s u) (p : Packet) : FenceKept s (inject p u) := h.aside ((Aside.refl u).inject p)

theorem FenceKept.setCpl (h : FenceKept s u) (k : Nat) (e : Cpl) : FenceKept s (setCpl k e u) := h.of_same rfl rfl rfl rfl

-- Pitch and put packets

theorem fenceKept_numberTwin (tag : Nat) (p : Packet) (s : State) : FenceKept s (numberTwin tag p s).2 :=
  (FenceKept.refl s).of_same rfl rfl rfl rfl

theorem fenceKept_sendOwn (tag : Nat) (twins : Bool) (p : Packet) (s : State) : FenceKept s (sendOwn tag twins p s) := by
  unfold sendOwn
  dsimp only
  split
  · split
    · exact ((fenceKept_numberTwin _ _ s).setCpl _ _).inject _
    · exact FenceKept.refl s
  · exact ((FenceKept.refl s).setCpl _ _).inject _

theorem fenceKept_sendLate (n : Option Nat) (p : Packet) (s : State) : FenceKept s (sendLate n p s) := by
  have h : FenceKept s (lateNoteTo p s) := by
    unfold lateNoteTo
    split
    · exact (FenceKept.refl s).inject _
    · exact FenceKept.refl s
  have h' : FenceKept s (if p.late then s else lateNoteTo p s) := by
    split
    · exact FenceKept.refl s
    · exact h
  unfold sendLate
  exact FenceKept.ite (h'.of_same rfl rfl rfl rfl) (h'.of_same rfl rfl rfl rfl)

theorem fenceKept_lateForward (n : Nat) (o : Option Nat) (p : Packet) (s : State) : FenceKept s (lateForward n o p s) := by
  unfold lateForward
  have h : 0x30050 ≤ Reg.portPitch n := by rw [Reg.portPitch]; omega
  exact ((FenceKept.refl s).wrReg h _).trans (FenceKept.foldl _ (fun v _ => fenceKept_sendLate _ _ v) _)

theorem fenceKept_stagePitch (tag dst : Nat) (poison : Bool) (bs : List Byte) (s : State) :
    FenceKept s (stagePitch tag dst poison bs s) := by
  unfold stagePitch
  dsimp only
  split
  · exact FenceKept.refl s
  · refine FenceKept.trans ?_ (FenceKept.foldl _ (fun v b => ?_) _)
    · refine List.foldlRecOn (motive := fun a : List (Nat × Packet) × State => FenceKept s a.2) _ _
        ((FenceKept.refl s).setCpl _ _) fun a ha x _ => ?_
      dsimp only
      split
      · exact ha.trans (fenceKept_numberTwin _ _ _)
      · exact ha
    · unfold stageBranch
      split
      · exact (FenceKept.refl v).of_same rfl rfl rfl rfl
      · exact fenceKept_lateForward _ _ _ v

theorem fenceKept_answerPutSeg (tag dst seg : Nat) (last : Bool) (n status : Nat) (data : List Byte) (poison : Bool)
    (s : State) : FenceKept s (answerPutSeg tag dst seg last n status data poison s) := by
  have h : ∀ v, FenceKept v (sendPut tag dst seg last poison data v) := fun v => by
    unfold sendPut
    dsimp only
    split
    · exact fenceKept_stagePitch _ _ _ _ v
    · exact FenceKept.foldl _ (fun v _ => fenceKept_sendOwn _ _ _ v) v
  unfold answerPutSeg
  dsimp only
  split
  · exact (aside_progress _ _ _ _ s).fences
  · exact (((FenceKept.refl s).orId (aside_noteError _ _ s).fences).orId (aside_cvuCover _ _ _ _ _).fences).trans (h _)

-- Queues

theorem fenceKept_stopQueue (q why : Nat) (s : State) : FenceKept s (stopQueue q why s) := by
  have h1 : 0x30050 ≤ Reg.qCtrl q := by rw [Reg.qCtrl]; omega
  have h2 : 0x30050 ≤ Reg.qStatus q := by rw [Reg.qStatus]; omega
  unfold stopQueue
  split
  · exact FenceKept.refl s
  · have h := ((FenceKept.refl s).wrReg h1 (setFld (rd s (Reg.qCtrl q)) 63 63 0)).wrReg h2
      (setFld (rd (Machine.wrB (Reg.qCtrl q) 63 false s) (Reg.qStatus q)) 0 0 0)
    have h' : FenceKept s (onHq q (fun x => { x with reserved := 0, fetched := [], reading := false, records := [], armed := false })
        (orphanWork q (Machine.wrB (Reg.qStatus q) 0 false (Machine.wrB (Reg.qCtrl q) 63 false s)))) :=
      (((FenceKept.refl s).wrReg h1 _).wrReg h2 _).of_same rfl rfl rfl rfl
    dsimp only
    split
    · exact h'
    · exact (h'.wrReg h2 _).wrReg h2 _

theorem fenceKept_entryFetched (q i status : Nat) (data : List Byte) (s : State) :
    FenceKept s (entryFetched q i status data s) := by
  unfold entryFetched
  split
  · exact FenceKept.refl s
  · split
    · exact fenceKept_stopQueue _ _ s
    · exact (FenceKept.refl s).of_same rfl rfl rfl rfl

-- Answers

theorem fenceKept_ifCurrent (x : Access) (tag gen : Nat) {f : State → List Access × State} (hf : ∀ v, FenceKept v (f v).2)
    (s : State) : FenceKept s (ifCurrent x tag gen f s).2 := by
  unfold ifCurrent
  split
  · exact hf s
  · exact (FenceKept.refl s).wrReg (a := Reg.staleCount) (by decide) _

theorem fenceKept_answerWhole (x : Access) (status : Nat) (data : List Byte) (poison : Bool) (s : State) :
    FenceKept s (answerWhole x status data poison s).2 := by
  unfold answerWhole
  split
  · exact FenceKept.refl s
  · exact (Aside.inTime _ (fun v => aside_respondTo _ _ _ v) s).fences
  · exact fenceKept_ifCurrent _ _ _ (fun v => (aside_answerOwn _ _ _ _ _ v).fences) s
  · exact (Aside.inTime _ (fun v => (Aside.refl v).inject _) s).fences
  · exact fenceKept_ifCurrent _ _ _ (fun v => fenceKept_answerPutSeg _ _ _ _ _ _ _ _ v) s
  · have h : FenceKept s (if isError status && status != stPoisoned then countRefused s else s) := by
      split
      · exact (FenceKept.refl s).wrReg (a := Reg.refusedCount) (by decide) _
      · exact FenceKept.refl s
    exact FenceKept.ite_snd (h.of_same rfl rfl rfl rfl) h
  · refine fenceKept_ifCurrent _ _ _ (fun v => ?_) s
    split
    · exact (aside_progress _ _ _ _ v).fences
    · exact ((FenceKept.refl v).orId (aside_noteError _ _ v).fences).orId (aside_cvuCover _ _ _ _ _).fences
  · refine fenceKept_ifCurrent _ _ _ (fun v => ?_) s
    split
    · exact (aside_progress _ _ _ _ v).fences
    · exact ((((Aside.refl v).emit _).trans (aside_cvuCover _ _ _ _ _)).trans (aside_progress _ _ _ _ _)).fences
  · exact fenceKept_entryFetched _ _ _ _ s
  · exact FenceKept.refl s
  · exact fenceKept_ifCurrent _ _ _ (fun v => (FenceKept.refl v).of_same rfl rfl rfl rfl) s

theorem fenceKept_answerRefused (x : Access) (status : Nat) (s : State) : FenceKept s (answerRefused x status s) := by
  unfold answerRefused answer
  split
  · split
    · exact FenceKept.refl s
    · dsimp only
      split
      · exact ((FenceKept.refl s).of_same (v := dropPart _ s) rfl rfl rfl rfl).trans (fenceKept_answerWhole _ _ _ _ _)
      · exact (FenceKept.refl s).of_same rfl rfl rfl rfl
  · exact fenceKept_answerWhole _ _ _ _ s

end Sys2Proof.Machine
end

section
/-! PROOFS. Fences and partition resets (R396–R399). -/

namespace Sys2Proof.Machine

variable {s u v : State} {p cause : Nat}

-- What an end of collectives leaves

/-- What ends of instances leave alone: the clock, the fault record but for reactions, the registers of fences and of
handovers. -/
structure Onward (s u : State) : Prop where
  now : u.now = s.now
  flt : quietFlt u.flt = quietFlt s.flt
  still : ∀ a, Still a → rd u a = rd s a

theorem Onward.refl (s : State) : Onward s s := ⟨rfl, rfl, fun _ _ => rfl⟩

theorem Onward.trans (h : Onward s u) (h' : Onward u v) : Onward s v :=
  ⟨h'.now.trans h.now, h'.flt.trans h.flt, fun a ha => (h'.still a ha).trans (h.still a ha)⟩

theorem Aside.onward (h : Aside s u) : Onward s u := ⟨h.now, h.flt, h.still⟩

theorem Onward.aside (h : Onward s u) (h' : Aside u v) : Onward s v := h.trans h'.onward

theorem Onward.of_same (h : Onward s u) (hr : v.regs = u.regs) (hn : v.now = u.now) (hf : v.flt = u.flt) : Onward s v :=
  h.trans ⟨hn, by rw [hf], fun a _ => by simp only [rd, hr]⟩

theorem Onward.foldl {α : Type} {f : State → α → State} (l : List α) (hf : ∀ v x, x ∈ l → Onward v (f v x)) (s : State) :
    Onward s (l.foldl f s) :=
  List.foldlRecOn _ _ (Onward.refl s) fun v hv x hx => hv.trans (hf v x hx)

theorem Onward.fences (h : Onward s u) : FenceKept s u :=
  ⟨h.now, h.still _ (Or.inl rfl), h.still _ (Or.inr (Or.inl rfl)),
    by have := congrArg Flt.fenceAt h.flt; exact this, by have := congrArg Flt.resetAt h.flt; exact this⟩

/-- The members that still expect data from an instance, with its group. -/
def owedPairs (s : State) (i : Inst) : List (Group × Nat) :=
  match groupAt s i.gid i.epoch with | some x => (owedTo s i).map (fun q => (x, q)) | none => []

/-- The aborts that an instance which ends sends, and the events that it raises (R306). -/
def tellOwed (owed : List (Group × Nat)) (i : Inst) (status : Nat) (s : State) : State :=
  let s := owed.foldl (fun s xq => sendAbort xq.1 i status xq.2 s) s
  let s := if owed = [] then s else orReg Reg.collEvent (2 ^ 4) s
  if status = 0x042 then orReg Reg.collEvent (2 ^ 3) s else s

theorem endInst_eq {i : Inst} (h : i.sub ≠ 6) (status : Nat) (s : State) : endInst i status s
    = failTag i.tag status i.late (dropStaged i (addSat Reg.collErrCount 15 0 1 (dropInst i
        (tellOwed (owedPairs s i) i status s)))) := by
  unfold endInst
  rw [if_neg h]
  rfl

theorem aside_tellOwed (owed : List (Group × Nat)) (i : Inst) (status : Nat) (s : State) :
    Aside s (tellOwed owed i status s) := by
  have hev : ¬ Still Reg.collEvent := not_still_low (by decide) (by decide) (by decide)
  have h1 : Aside s (owed.foldl (fun s xq => sendAbort xq.1 i status xq.2 s) s) :=
    Aside.foldl owed (fun v _ => (Aside.refl v).inject _) s
  have h2 : ∀ (c : Prop) [Decidable c] (m : Nat) (v : State), Aside v (if c then v else orReg Reg.collEvent m v) :=
    fun c _ m v => Aside.ite (Aside.refl v) ((Aside.refl v).orReg hev m)
  have h3 : ∀ (c : Prop) [Decidable c] (m : Nat) (v : State), Aside v (if c then orReg Reg.collEvent m v else v) :=
    fun c _ m v => Aside.ite ((Aside.refl v).orReg hev m) (Aside.refl v)
  exact (h1.trans (h2 _ _ _)).trans (h3 _ _ _)

theorem Aside.dropStaged (h : Aside s u) (i : Inst) : Aside s (dropStaged i u) := h.of_same rfl rfl rfl rfl rfl rfl

theorem onward_endInst (i : Inst) (status : Nat) (s : State) : Onward s (endInst i status s) := by
  have hec : ¬ Still Reg.collErrCount := not_still_low (by decide) (by decide) (by decide)
  have hdrop : ∀ v, Onward v (dropInst i v) := fun v => (Onward.refl v).of_same rfl rfl rfl
  by_cases h : i.sub = 6
  · unfold endInst; rw [if_pos h]; exact hdrop s
  · rw [endInst_eq h]
    have h1 := (aside_tellOwed (owedPairs s i) i status s).onward.trans (hdrop _)
    exact h1.aside ((((Aside.refl _).addSat hec 15 0 1).dropStaged i).trans (aside_failTag i.tag status i.late _))

theorem onward_endInsts (f : Inst → Bool) (status : Nat) (s : State) : Onward s (endInsts f status s) :=
  Onward.foldl _ (fun v i _ => onward_endInst i status v) s

-- What a fence sets going

theorem fenceKept_abortGang (l : Nat) (s : State) : FenceKept s (abortGang l s) := by
  have hrel (g : List (Nat × Cpl)) (s : State) : ∃ c, g.foldl (fun s kv => release kv.1 s) s = { s with cpl := c } := by
    refine List.foldlRecOn (motive := fun w : State => ∃ c, w = { s with cpl := c }) _ _ ⟨s.cpl, rfl⟩ ?_
    rintro _ ⟨c, rfl⟩ kv _
    exact release_frame kv.1 { s with cpl := c }
  have hend : ∀ (c : Map Cpl) (d : Coll), FenceKept s (idleGang l { s with cpl := c, coll := d })
      ∧ ∀ q i w, FenceKept s (pushRecord q i w 0 (idleGang l (dropJob l { s with cpl := c, coll := d }))) := fun c d => by
    have h : FenceKept s { s with cpl := c, coll := d } := ⟨rfl, rfl, rfl, rfl, rfl⟩
    generalize ({ s with cpl := c, coll := d } : State) = x at h ⊢
    have h' : FenceKept s (dropJob l x) := h.of_same rfl rfl rfl rfl
    exact ⟨h.aside (aside_idleGang l x), fun q i w => (h'.aside (aside_idleGang l _)).aside ((Aside.refl _).pushRecord q i w 0)⟩
  choose c hc using hrel
  simp only [abortGang, hc]
  split
  · exact (hend _ _).1
  · exact (hend _ _).2 _ _ _

theorem fenceKept_stopSliceQueues (p : Nat) (s : State) : FenceKept s (stopSliceQueues p s) :=
  FenceKept.foldl _ (fun v _ => fenceKept_stopQueue _ _ v) s

theorem aside_stopChannels (p : Nat) (s : State) : Aside s (stopChannels p s) := by
  refine Aside.foldl _ (fun v c => ?_) s
  split
  · exact Aside.ite (aside_cvuError _ v) (Aside.refl v)
  · exact Aside.refl v

theorem Aside.onStk (h : Aside s u) (p i : Nat) (f : Stack → Stack) : Aside s (onStk p i f u) :=
  h.of_same rfl rfl rfl rfl rfl rfl

theorem onward_abandonRetrains (hp : p < 4) (hc : s.boot.stackCount ≤ 4) : Onward s (abandonRetrains p s) := by
  unfold abandonRetrains
  refine Onward.foldl _ (fun v i hi => ?_) s
  have hi4 := List.mem_range.1 hi
  have hns : ¬ Still (Reg.hbmStatus p i) := by
    refine not_still_low ?_ ?_ ?_ <;> simp only [Reg.hbmStatus, Reg.stackBase] <;> omega
  have h : Aside v (if stackState v p i = 4 then setStackState p i 2 v else v) :=
    Aside.ite ((Aside.refl v).wrF hns _ _ _) (Aside.refl v)
  exact ((h.wrB hns 19 false).onStk p i _).onward

-- Handovers

theorem bankStatus_ne {t b t' b' : Nat} (hb : b < 16) (hb' : b' < 16) (h : ¬ (t = t' ∧ b = b')) :
    Reg.bankStatus t b ≠ Reg.bankStatus t' b' := by
  simp only [Reg.bankStatus, Reg.tileBase]; omega

theorem bankStatus_ne_owner (t b t' b' : Nat) : Reg.bankStatus t b ≠ Reg.bankOwner t' b' := by
  simp only [Reg.bankStatus, Reg.bankOwner, Reg.tileBase]; omega

theorem still_bankStatus {t b : Nat} (hb : b < 16) : Still (Reg.bankStatus t b) := by
  refine Or.inr (Or.inr ?_)
  simp only [Reg.bankStatus, Reg.tileBase]; omega

/-- The pending handover of one bank is abandoned. -/
def abandonHandover (t b : Nat) (s : State) : State :=
  if handoverPending s t b then
    s |> wrB (Reg.bankStatus t b) 2 false |> wrB (Reg.bankStatus t b) 0 false |> wrReg (Reg.bankOwner t b) 0x03000000
      |> onBank (16 * t + b) (fun x => { x with later := [] })
  else s

/-- The pending handovers of the first n banks of a tile are abandoned. -/
def abandonBanks (t n : Nat) (s : State) : State := (List.range n).foldl (fun s b => abandonHandover t b s) s

theorem abandonHandovers_eq (p : Nat) (s : State) :
    abandonHandovers p s = (List.range 128).foldl (fun s i => abandonBanks (p * 128 + i) 16 s) s := rfl

theorem fenceKept_abandonHandover (t b : Nat) (s : State) : FenceKept s (abandonHandover t b s) := by
  have h1 : 0x30050 ≤ Reg.bankStatus t b := by simp only [Reg.bankStatus, Reg.tileBase]; omega
  have h2 : 0x30050 ≤ Reg.bankOwner t b := by simp only [Reg.bankOwner, Reg.tileBase]; omega
  unfold abandonHandover
  split
  · exact ((((FenceKept.refl s).wrReg h1 _).wrReg h1 _).wrReg h2 _).of_same rfl rfl rfl rfl
  · exact FenceKept.refl s

theorem handoverPending_abandonHandover {t b t' b' : Nat} (hb : b < 16) (hb' : b' < 16) (s : State) :
    handoverPending (abandonHandover t b s) t' b' = (handoverPending s t' b' && !(decide (t' = t ∧ b' = b))) := by
  unfold abandonHandover
  by_cases he : t' = t ∧ b' = b
  · obtain ⟨rfl, rfl⟩ := he
    split
    · have hne := bankStatus_ne_owner t' b' t' b'
      have : rdB (wrB (Reg.bankStatus t' b') 0 false (wrB (Reg.bankStatus t' b') 2 false s)) (Reg.bankStatus t' b') 2 = false := by
        rw [rdB_wrB_other _ _ _ _ _ (by decide) (by decide)]; exact rdB_wrB_self _ _ _ _ (by decide)
      rw [show (handoverPending s t' b' && !decide (t' = t' ∧ b' = b')) = false by simp]
      exact (rdB_wrReg_ne _ _ _ hne).trans this
    · next h => simpa using h
  · split
    · have h1 := bankStatus_ne hb' hb he
      have h2 := bankStatus_ne_owner t' b' t b
      rw [show decide (t' = t ∧ b' = b) = false by simpa using he, Bool.not_false, Bool.and_true]
      exact (rdB_wrReg_ne _ _ _ h2).trans ((rdB_wrB_ne _ _ _ _ h1).trans (rdB_wrB_ne _ _ _ _ h1))
    · simp [he]

theorem handoverPending_abandonBanks {t t' b' n : Nat} (hn : n ≤ 16) (hb' : b' < 16) (s : State) :
    handoverPending (abandonBanks t n s) t' b' = (handoverPending s t' b' && !(decide (t' = t ∧ b' < n))) := by
  induction n with
  | zero => simp [abandonBanks]
  | succ n ih =>
    have he : abandonBanks t (n + 1) s = abandonHandover t n (abandonBanks t n s) := by
      unfold abandonBanks; rw [List.range_succ, List.foldl_append, List.foldl_cons, List.foldl_nil]
    rw [he, handoverPending_abandonHandover (by omega) hb', ih (by omega)]
    rw [Bool.and_assoc]
    congr 1
    rw [Bool.eq_iff_iff]; simp only [Bool.and_eq_true, Bool.not_eq_true', decide_eq_false_iff_not]; omega

theorem handoverPending_abandonHandovers {i b : Nat} (hi : i < 128) (hb : b < 16) (p : Nat) (s : State) :
    handoverPending (abandonHandovers p s) (128 * p + i) b = false := by
  have h : ∀ n, handoverPending ((List.range n).foldl (fun s i => abandonBanks (p * 128 + i) 16 s) s) (128 * p + i) b
      = (handoverPending s (128 * p + i) b && !(decide (i < n))) := fun n => by
    induction n with
    | zero => simp
    | succ n ih =>
      rw [List.range_succ, List.foldl_append, List.foldl_cons, List.foldl_nil,
        handoverPending_abandonBanks (le_refl _) hb, ih, Bool.and_assoc]
      congr 1
      rw [Bool.eq_iff_iff]; simp only [Bool.and_eq_true, Bool.not_eq_true', decide_eq_false_iff_not]; omega
  rw [abandonHandovers_eq, h 128]
  simp [hi]

-- A fence begins

/-- The record of a fence that begins. -/
def fenceMarked (p cause : Nat) (tenants : List Nat) (s : State) : State :=
  let s := wrF Reg.fenceStatus (16 * p + 15) (16 * p) (cause * 16 + 1) s
  { s with flt := { s.flt with
      fenceAt := mset 0 s.flt.fenceAt p (now s), resetTenants := mset [] s.flt.resetTenants p tenants } }

/-- What a fence does once it is marked. -/
def fenceWork (p : Nat) (jobs : List Job) (s : State) : State :=
  let s := jobs.foldl (fun s j => abortGang j.leader s) s
  s |> stopSliceQueues p |> stopChannels p |> abandonHandovers p |> abandonRetrains p
    |> endInsts (fun i => i.sub != 6 && gangIn s p (leaderOf s i.tile)) stFenced

theorem startFence_eq (h : fenceState s p = 0) : ∃ jobs tenants,
    startFence p cause s = fenceWork p jobs (fenceMarked p cause tenants s) := by
  refine ⟨s.host.jobs.filter (fun j => gangIn s p j.leader),
    ((s.host.jobs.filter (fun j => gangIn s p j.leader)).map (·.tenant)).eraseDups, ?_⟩
  unfold startFence fenceWork fenceMarked
  rw [if_neg (by simp [h])]

theorem startFence_of_fenced (h : fenceState s p ≠ 0) : startFence p cause s = s := by
  unfold startFence; exact if_pos h

theorem fenceKept_abandonHandovers (p : Nat) (s : State) : FenceKept s (abandonHandovers p s) :=
  FenceKept.foldl _ (fun v _ => FenceKept.foldl _ (fun w _ => fenceKept_abandonHandover _ _ w) v) s

theorem boot_stopQueue (q why : Nat) (s : State) : (stopQueue q why s).boot = s.boot := by
  unfold stopQueue
  split
  · rfl
  · dsimp only
    split <;> rfl

theorem boot_foldl {α : Type} {f : State → α → State} (l : List α) (hf : ∀ v x, (f v x).boot = v.boot) (s : State) :
    (l.foldl f s).boot = s.boot :=
  List.foldlRecOn (motive := fun v => v.boot = s.boot) _ _ rfl fun v hv x _ => (hf v x).trans hv

theorem boot_abortGang (l : Nat) (s : State) : (abortGang l s).boot = s.boot := by
  have hrel (g : List (Nat × Cpl)) (s : State) : ∃ c, g.foldl (fun s kv => release kv.1 s) s = { s with cpl := c } := by
    refine List.foldlRecOn (motive := fun w : State => ∃ c, w = { s with cpl := c }) _ _ ⟨s.cpl, rfl⟩ ?_
    rintro _ ⟨c, rfl⟩ kv _
    exact release_frame kv.1 { s with cpl := c }
  choose c hc using hrel
  simp only [abortGang, hc]
  split
  · exact (aside_idleGang l _).boot
  · exact ((aside_idleGang l _).pushRecord _ _ _ _).boot

theorem boot_abandonHandover (t b : Nat) (s : State) : (abandonHandover t b s).boot = s.boot := by
  unfold abandonHandover; split <;> rfl

theorem fenceKept_abandonRetrains (p : Nat) (s : State) : FenceKept s (abandonRetrains p s) := by
  refine FenceKept.foldl _ (fun v i => ?_) s
  have h : 0x30050 ≤ Reg.hbmStatus p i := by have := hbmStatus_high p i; omega
  have h' : FenceKept v (if stackState v p i = 4 then setStackState p i 2 v else v) :=
    FenceKept.ite ((FenceKept.refl v).wrReg h _) (FenceKept.refl v)
  exact (h'.wrReg h _).of_same rfl rfl rfl rfl

/-- What a fence does leaves the fences' record as it was marked. -/
theorem fenceKept_fenceWork (p : Nat) (jobs : List Job) (s : State) : FenceKept s (fenceWork p jobs s) := by
  have h1 : FenceKept s (jobs.foldl (fun s j => abortGang j.leader s) s) :=
    FenceKept.foldl _ (fun v _ => fenceKept_abortGang _ v) s
  unfold fenceWork
  dsimp only
  generalize jobs.foldl (fun s j => abortGang j.leader s) s = x at h1 ⊢
  have h2 := (h1.trans (fenceKept_stopSliceQueues p x)).aside (aside_stopChannels p _)
  have h3 := (h2.trans (fenceKept_abandonHandovers p _)).trans (fenceKept_abandonRetrains p _)
  exact h3.trans (onward_endInsts _ _ _).fences

/-- What a fence does leaves no handover of the partition pending. -/
theorem handoverPending_fenceWork (hp : p < 4) (jobs : List Job) (hc : s.boot.stackCount ≤ 4) {i b : Nat} (hi : i < 128)
    (hb : b < 16) : handoverPending (fenceWork p jobs s) (128 * p + i) b = false := by
  have b1 : (jobs.foldl (fun s j => abortGang j.leader s) s).boot = s.boot := boot_foldl _ (fun v _ => boot_abortGang _ v) s
  unfold fenceWork
  dsimp only
  generalize jobs.foldl (fun s j => abortGang j.leader s) s = x at b1 ⊢
  have b2 : (stopSliceQueues p x).boot = s.boot := (boot_foldl _ (fun v _ => boot_stopQueue _ _ v) x).trans b1
  generalize stopSliceQueues p x = y at b2 ⊢
  have b3 := (aside_stopChannels p y).boot.trans b2
  generalize stopChannels p y = z at b3 ⊢
  have b4 : (abandonHandovers p z).boot = s.boot :=
    (boot_foldl _ (fun v _ => boot_foldl _ (fun w _ => boot_abandonHandover _ _ w) v) z).trans b3
  have h5 := (onward_abandonRetrains (s := abandonHandovers p z) hp (by rw [b4]; exact hc)).trans
    (onward_endInsts (fun i => i.sub != 6 && gangIn x p (leaderOf x i.tile)) stFenced _)
  rw [handoverPending, rdB, h5.still _ (still_bankStatus hb), ← rdB]
  exact handoverPending_abandonHandovers hi hb p z

end Sys2Proof.Machine
end

section
/-! PROOFS. The commands of fences and partition resets (R396–R399). -/

namespace Sys2Proof.Machine

variable {s u v : State} {p cause : Nat} {who : Writer}

-- FENCE_PARTITION (R396)

theorem startFence_spec (hp : p < 4) (h : fenceState s p = 0) :
    (∀ q, fenceState (startFence p cause s) q = if q = p then 1 else fenceState s q)
      ∧ rdF (startFence p cause s) Reg.fenceStatus (16 * p + 7) (16 * p + 4) = cause % 16
      ∧ mget 0 (startFence p cause s).flt.fenceAt p = now s ∧ (startFence p cause s).flt.resetAt = s.flt.resetAt
      ∧ rd (startFence p cause s) Reg.resetStatus = rd s Reg.resetStatus := by
  obtain ⟨jobs, tenants, he⟩ := startFence_eq (p := p) (cause := cause) h
  have hf : ∀ hi lo, rdF (fenceMarked p cause tenants s) Reg.fenceStatus hi lo
      = rdF (wrF Reg.fenceStatus (16 * p + 15) (16 * p) (cause * 16 + 1) s) Reg.fenceStatus hi lo := fun _ _ => rfl
  have hr : rd (fenceMarked p cause tenants s) Reg.resetStatus = rd s Reg.resetStatus := rd_wrF_ne _ _ _ _ (by decide)
  have ha : (fenceMarked p cause tenants s).flt.fenceAt = mset 0 s.flt.fenceAt p (now s) := rfl
  have ha' : (fenceMarked p cause tenants s).flt.resetAt = s.flt.resetAt := rfl
  have hk := fenceKept_fenceWork p jobs (fenceMarked p cause tenants s)
  rw [he]
  refine ⟨fun q => ?_, ?_, ?_, hk.resetAt.trans ha', hk.reset.trans hr⟩
  · rw [fenceState, rdF, hk.fence, ← rdF, hf, ← fenceState, fenceState_wrF hp]
    split
    · omega
    · rfl
  · rw [rdF, hk.fence, ← rdF, hf, rdF_wrF_within _ _ (by omega) (by omega) (by omega) (by omega),
      show 16 * p + 4 - 16 * p = 4 by omega, show 16 * p + 7 + 1 - (16 * p + 4) = 4 by omega]
    omega
  · rw [hk.fenceAt, ha, mget_mset_self]

theorem handoverPending_startFence (hp : p < 4) (hc : s.boot.stackCount ≤ 4) (h : fenceState s p = 0) {i b : Nat}
    (hi : i < 128) (hb : b < 16) : handoverPending (startFence p cause s) (128 * p + i) b = false := by
  obtain ⟨jobs, tenants, he⟩ := startFence_eq (p := p) (cause := cause) h
  have hc' : (fenceMarked p cause tenants s).boot.stackCount ≤ 4 := hc
  rw [he]
  exact handoverPending_fenceWork (s := fenceMarked p cause tenants s) hp jobs hc' hi hb

theorem maskBits_single (hp : p < 4) : maskBits (fld (wd (2 ^ p)) 3 0) 4 = [p] := by
  interval_cases p <;> decide

theorem exec_fencePartition (hp : p < 4) (hm : mayWrite s .operator who = true) :
    exec (.fencePartition who (wd (2 ^ p))) s = ok (startFence p 1 s) := by
  refine congrArg ok ((answered_operator hm (by decide) _).trans ?_)
  rw [maskBits_single hp]; rfl

-- A drain ends (R397)

theorem fenceState_setFence (hp : p < 4) {n : Nat} (hn : n < 16) (q : Nat) (s : State) :
    fenceState (setFence p n s) q = if q = p then n else fenceState s q := by
  unfold fenceState setFence
  split
  · next h => subst h; exact rdF_wrF_fits _ _ (by omega) (by omega) (by rw [show 16 * q + 3 + 1 - 16 * q = 4 by omega]; omega)
  · exact rdF_wrF_other _ _ _ _ _ _ _ (by omega) (by omega) (by omega)

theorem resetPhase_setFence (q n : Nat) (s : State) : resetPhase (setFence q n s) p = resetPhase s p :=
  rdF_wrF_ne _ _ _ _ _ _ (by decide)

theorem drained_of_no_reset (h : resetPhase s p ≠ 2) : drained p s = setFence p 2 s := by
  unfold drained
  exact if_neg (by rw [resetPhase_setFence]; exact h)

theorem fenceDrainDone_free (hp : p < 4) (hf : fenceState s p = 1) (hb : busyPart s p = false) (hr : resetPhase s p ≠ 2) :
    Completes (.fenceDrainDone p) s (fun u => fenceState u p = 2 ∧ RegsKept [Reg.fenceStatus] s u ∧ MemKept s u) := by
  have hk : Kept [Reg.fenceStatus] s (setFence p 2 s) := (Kept.refl _ s).wrF (by simp) _ _ _
  have he : exec (.fenceDrainDone p) s = ok (setFence p 2 s) := by
    show execFenceDrainDone p s = _
    unfold execFenceDrainDone
    rw [if_pos ⟨hp, hf, by simp [hb]⟩, drained_of_no_reset hr]
  exact ⟨_, he, by rw [fenceState_setFence hp (by decide), if_pos rfl], hk.regs, hk.mem⟩

/-- What is held in a partition goes from where it waits. -/
def dropHeld (p : Nat) (s : State) : State :=
  { s with
    rma := { s.rma with held := s.rma.held.filter (fun h => !heldIn p h.2) },
    banks := s.banks.map (fun kv => (kv.1, { kv.2 with entries := kv.2.entries.map (fun e =>
      match e.work with
      | .access _ _ x => if heldIn p x then { e with work := .spent } else e
      | _ => e) })),
    hbm := s.hbm.map (fun kv => (kv.1, { kv.2 with queue := kv.2.queue.filter (fun x => !heldIn p x) })) }

/-- What is held is answered FENCED, and the open entries of the partition's tiles end. -/
def answerHeld (p : Nat) (held : List Access) (s : State) : State :=
  let s := held.foldl (fun s x => answerRefused x stFenced s) s
  let tags := (s.cpl.filter (fun kv => kv.2.st == .opened && entryIn p kv.2)).map (·.1)
  tags.foldl (fun s t => fenceTag t s) s

theorem expireDrain_eq (p : Nat) (s : State) : expireDrain p s
    = drained p (recordControl 29 false (some p) []
        (wrF Reg.fenceStatus (16 * p + 15) (16 * p + 8) (min 255 ((waitingAccesses s).filter (heldIn p)).length)
          (answerHeld p ((waitingAccesses s).filter (heldIn p)) (dropHeld p s)))) := rfl

theorem fenceKept_fenceTag (tag : Nat) (s : State) : FenceKept s (fenceTag tag s) := by
  unfold fenceTag
  exact FenceKept.ite ((aside_failTag _ _ _ s).fences.setCpl _ _) (aside_failTag _ _ _ s).fences

theorem fenceKept_answerHeld (p : Nat) (held : List Access) (s : State) : FenceKept s (answerHeld p held (dropHeld p s)) := by
  have h : FenceKept s (dropHeld p s) := (FenceKept.refl s).of_same rfl rfl rfl rfl
  exact (h.trans (FenceKept.foldl _ (fun v _ => fenceKept_answerRefused _ _ v) _)).trans
    (FenceKept.foldl _ (fun v _ => fenceKept_fenceTag _ v) _)

theorem expireDrain_spec (hp : p < 4) (hr : resetPhase s p ≠ 2) : fenceState (expireDrain p s) p = 2
    ∧ Shows 29 (expireDrain p s) ∧ (expireDrain p s).now = s.now
    ∧ rdF (expireDrain p s) Reg.fenceStatus (16 * p + 15) (16 * p + 8)
        = min 255 ((waitingAccesses s).filter (heldIn p)).length := by
  rw [expireDrain_eq]
  generalize (waitingAccesses s).filter (heldIn p) = held
  have hk := fenceKept_answerHeld p held s
  generalize answerHeld p held (dropHeld p s) = x at hk ⊢
  obtain ⟨y, hy⟩ : ∃ y, y = wrF Reg.fenceStatus (16 * p + 15) (16 * p + 8) (min 255 held.length) x := ⟨_, rfl⟩
  have hrc := kept_recordControl 29 false (some p) [] y
  have hph : resetPhase (recordControl 29 false (some p) [] y) p ≠ 2 := by
    rw [resetPhase, rdF, hrc.regs _ (by decide), hy, rd_wrF_ne _ _ _ _ (by decide), hk.reset]; exact hr
  rw [← hy, drained_of_no_reset hph]
  refine ⟨by rw [fenceState_setFence hp (by decide), if_pos rfl], ?_, ?_, ?_⟩
  · exact (rdB_wrReg_ne _ _ _ (by decide)).trans (rdB_recordControl _ _ _ _ (by decide))
  · exact (recordControl_now _ _ _ _ _).trans (by rw [hy]; exact hk.now)
  · rw [setFence, rdF_wrF_other _ _ _ _ _ _ _ (by omega) (by omega) (by omega), rdF, hrc.regs _ (by decide), ← rdF, hy]
    exact rdF_wrF_fits _ _ (by omega) (by omega)
      (by rw [show 16 * p + 15 + 1 - (16 * p + 8) = 8 by omega]; omega)

theorem drainExpired_completes (hp : p < 4) (hf : fenceState s p = 1) (hr : resetPhase s p ≠ 2)
    (h64 : mget 0 s.flt.fenceAt p + rdF s Reg.fenceDrain 31 0 < 2 ^ 64) : Completes (.drainExpired p) s (fun u =>
      fenceState u p = 2 ∧ Shows 29 u ∧ mget 0 s.flt.fenceAt p + rdF s Reg.fenceDrain 31 0 ≤ now u
        ∧ rdF u Reg.fenceStatus (16 * p + 15) (16 * p + 8) = min 255 ((waitingAccesses s).filter (heldIn p)).length) := by
  obtain ⟨t, ht⟩ : ∃ t, t = mget 0 s.flt.fenceAt p + rdF s Reg.fenceDrain 31 0 := ⟨_, rfl⟩
  have he : exec (.drainExpired p) s = ok (expireDrain p (clockTo t s)) := by
    show execDrainExpired p s = _
    unfold execDrainExpired
    rw [if_pos ⟨hp, hf⟩, ht]
  have hn := now_clockTo s t (by rw [ht]; exact h64)
  rw [← ht]
  obtain ⟨c, n, hx⟩ := clockTo_cases s t
  rw [hx] at he hn
  obtain ⟨h1, h2, h3, h4⟩ := expireDrain_spec (s := { s with coll := c, now := n }) hp hr
  exact ⟨_, he, h1, h2, by rw [now, h3]; exact hn, h4⟩

-- PART_RESET (R398)

theorem resetPhase_setPhase (hp : p < 4) {n : Nat} (hn : n < 16) (s : State) : resetPhase (setPhase p n s) p = n :=
  rdF_wrF_fits _ _ (by omega) (by omega) (by rw [show 16 * p + 15 + 1 - (16 * p + 12) = 4 by omega]; omega)

/-- A reset is noted at its partition. -/
def resetNoted (p : Nat) (s : State) : State :=
  { s with flt := { s.flt with resetAt := mset 0 s.flt.resetAt p (now s) } }

theorem resetAt_resetNoted (p : Nat) (s : State) : mget 0 (resetNoted p s).flt.resetAt p = now s := mget_mset_self ..

theorem exec_partReset (hp : p < 4) (hm : mayWrite s .operator who = true) (hh : s.flt.halted = false) (h9 : 9 ≤ reached s)
    (hr : resetPhase s p ≠ 2) (hf : fenceState s p ≠ 3) (hf' : fenceState s p ≠ 4) :
    exec (.partReset who (wd (2 ^ p))) s = ok (if fenceState s p = 2 then enterHold p (resetNoted p s)
      else setPhase p 2 (startFence p 4 (resetNoted p s))) := by
  have hbit : ¬ bit (setBit (wd (2 ^ p)) 63 false) 63 = true := by interval_cases p <;> decide
  have hmask : maskBits (fld (setBit (wd (2 ^ p)) 63 false) 3 0) 4 = [p] := by interval_cases p <;> decide
  have hn : ¬ (fenceState s p = 3 ∨ fenceState s p = 4 ∨ s.flt.halted = true ∨ rdF s Reg.bringupStatus 19 16 < 9
      ∨ resetPhase s p = 2) := by
    rw [reached] at h9
    simp [hf, hf', hh, hr]; omega
  refine congrArg ok ((answered_operator hm (by decide) _).trans ?_)
  rw [if_neg hbit, hmask, List.foldl_cons, List.foldl_nil]
  unfold startReset
  exact if_neg hn

theorem partReset_inService (hp : p < 4) (hm : mayWrite s .operator who = true)
    (hh : s.flt.halted = false) (h9 : 9 ≤ reached s) (hr : resetPhase s p ≠ 2) (hf : fenceState s p = 0) :
    Completes (.partReset who (wd (2 ^ p))) s (fun u =>
      fenceState u p = 1 ∧ resetPhase u p = 2 ∧ mget 0 u.flt.resetAt p = now s) := by
  have he := exec_partReset hp hm hh h9 hr (by omega) (by omega)
  rw [if_neg (by omega)] at he
  obtain ⟨h1, -, -, h4, -⟩ := startFence_spec (s := resetNoted p s) (cause := 4) hp hf
  refine ⟨_, he, ?_, resetPhase_setPhase hp (by decide) _, ?_⟩
  · rw [fenceState_setPhase, h1, if_pos rfl]
  · exact (congrArg (fun m => mget 0 m p) h4).trans (resetAt_resetNoted p s)

/-- The stacks of a partition OFF, as far as some reset goes. -/
def stackOff (p i : Nat) (s : State) : State :=
  s |> (if stackState s p i = 0 then id else setStackState p i 1) |> wrB (Reg.hbmStatus p i) 19 false
    |> onStk p i (fun k => { k with queue := [], wait := none, run := none, selfRefresh := false, offAfter := false })

theorem offStacks_stackOff (p i : Nat) (s : State) : OffStacks s (stackOff p i s) := by
  have h : OffStacks s ((if stackState s p i = 0 then id else setStackState p i 1) s) := by
    split
    · exact OffStacks.refl s
    · exact (OffStacks.refl s).setStackState _ _ _
  exact (h.wrReg (hbmStatus_high p i) _).onStk _ _ _

theorem offStacks_stacksOff (p : Nat) (s : State) : OffStacks s (stacksOff p s) :=
  List.foldlRecOn _ _ (OffStacks.refl s) fun v hv i _ => hv.trans (offStacks_stackOff p i v)

theorem queue_stackOff (p i j : Nat) (s : State) :
    (stk (stackOff p i s) p j).queue = if j = i then [] else (stk s p j).queue := by
  have h : ∀ k, stk (wrB (Reg.hbmStatus p i) 19 false ((if stackState s p i = 0 then id else setStackState p i 1) s)) p k
      = stk s p k := fun k => by split <;> rfl
  unfold stackOff
  by_cases hj : j = i
  · subst hj; rw [if_pos rfl, stk_onStk_self]
  · rw [if_neg hj, ← h]
    exact congrArg Stack.queue (mget_mset_ne _ _ _ (by omega))

theorem queue_stacksOff (p j : Nat) (hj : j < s.boot.stackCount) : (stk (stacksOff p s) p j).queue = [] := by
  have h : ∀ n, (stk ((List.range n).foldl (fun s i => stackOff p i s) s) p j).queue
      = if j < n then [] else (stk s p j).queue := fun n => by
    induction n with
    | zero => simp
    | succ n ih =>
      rw [List.range_succ, List.foldl_append, List.foldl_cons, List.foldl_nil, queue_stackOff, ih]
      split_ifs <;> first | rfl | omega
  exact (h s.boot.stackCount).trans (if_pos hj)

/-- What floods leave: of the registers, all but ABORT_STATUS; memory. -/
structure Flooded (s u : State) : Prop where
  regs : ∀ a, a ≠ Reg.abortStatus → rd u a = rd s a
  mem : MemKept s u
  resetAt : u.flt.resetAt = s.flt.resetAt
  boot : u.boot = s.boot

theorem Flooded.refl (s : State) : Flooded s s := ⟨fun _ _ => rfl, fun _ => rfl, rfl, rfl⟩

theorem Flooded.trans (h : Flooded s u) (h' : Flooded u v) : Flooded s v :=
  ⟨fun a ha => (h'.regs a ha).trans (h.regs a ha), fun a => (h'.mem a).trans (h.mem a), h'.resetAt.trans h.resetAt,
    h'.boot.trans h.boot⟩

theorem flooded_sendVc7 (n op : Nat) (payload : List Byte) (s : State) : Flooded s (sendVc7 n op payload s) := by
  unfold sendVc7
  dsimp only
  split
  · exact ⟨fun _ _ => rfl, fun _ => rfl, rfl, rfl⟩
  · exact Flooded.refl s

theorem flooded_originate (tenant : Nat) (s : State) : Flooded s (originate tenant s) := by
  have h1 : ∀ (n a b c d e : Nat) (v : State), Flooded v (noteFlood a b c d e (seeFlood a b { v with
      flt := { v.flt with floodSeq := n } })) := fun n a b c d e v =>
    ⟨fun r hr => rd_wrReg_ne _ _ hr, fun _ => rfl, rfl, rfl⟩
  unfold originate
  dsimp only
  split
  · exact Flooded.refl s
  · exact (h1 _ _ _ _ _ _ s).trans
      (List.foldlRecOn _ _ (Flooded.refl _) fun v hv n _ => hv.trans (flooded_sendVc7 _ _ _ v))

theorem testBit_maskOf (l : List Nat) (i : Nat) : (maskOf l).testBit i = decide (i ∈ l) := by
  unfold maskOf
  induction l using List.reverseRecOn with
  | nil => simp
  | append_singleton l k ih =>
    rw [List.foldl_append, List.foldl_cons, List.foldl_nil, Nat.testBit_or, ih, Nat.testBit_two_pow]
    by_cases h : k = i
    · simp [h]
    · simp [h, Ne.symm h]

/-- A domain of a list is off once they were switched off. -/
theorem domainIsOn_domainsOff {l : List Nat} {d : Nat} (hd : d ∈ l) (h64 : d < 64) (s : State) :
    domainIsOn (domainsOff l s) d = false := by
  have h : rd (domainsOff l s) Reg.domainStatus = rd s Reg.domainStatus &&& ~~~ wd (maskOf l) := rd_clrReg_self ..
  have hb : bit (wd (maskOf l)) d = true := by rw [bit_wd _ h64, testBit_maskOf]; simpa using hd
  rw [bit] at hb
  rw [domainIsOn, rdB, h, bit, BitVec.getLsbD_and, BitVec.getLsbD_not, hb]
  simp

theorem partDomains_lt {d : Nat} (hp : p < 4) (hd : d ∈ partDomains p) : d < 64 := by
  simp only [partDomains, List.mem_append, List.mem_map, List.mem_range] at hd
  obtain ⟨c, hc, rfl⟩ | ⟨i, hi, rfl⟩ := hd <;> omega

theorem enterHold_spec (hp : p < 4) (s : State) : fenceState (enterHold p s) p = 3 ∧ resetPhase (enterHold p s) p = 3
    ∧ (enterHold p s).flt.resetAt = s.flt.resetAt ∧ (∀ d ∈ partDomains p, domainIsOn (enterHold p s) d = false)
    ∧ (∀ i, i < s.boot.stackCount → (stk (enterHold p s) p i).queue = []) ∧ MemKept s (enterHold p s) := by
  obtain ⟨x, hx⟩ : ∃ x, x = setPhase p 3 (setFence p 3 s) := ⟨_, rfl⟩
  have hf : Flooded x ((mget [] x.flt.resetTenants p).foldl (fun s t => originate t s) x) :=
    List.foldlRecOn _ _ (Flooded.refl x) fun v hv t _ => hv.trans (flooded_originate t v)
  have he : enterHold p s = (let s := (mget [] x.flt.resetTenants p).foldl (fun s t => originate t s) x
      let s := { s with flt := { s.flt with resetTenants := mset [] s.flt.resetTenants p [] } }
      s |> domainsOff (partDomains p) |> stacksOff p) := by rw [hx]; rfl
  rw [he]
  generalize (mget [] x.flt.resetTenants p).foldl (fun s t => originate t s) x = y at hf ⊢
  dsimp only
  obtain ⟨z, hz⟩ : ∃ z, z = { y with flt := { y.flt with resetTenants := mset [] y.flt.resetTenants p [] } } := ⟨_, rfl⟩
  rw [← hz]
  have ho := offStacks_stacksOff p (domainsOff (partDomains p) z)
  have hr : ∀ a, a < 0x300000 → a ≠ Reg.abortStatus → a ≠ Reg.domainStatus →
      rd (stacksOff p (domainsOff (partDomains p) z)) a = rd x a := fun a h1 h2 h3 => by
    rw [ho.regs a h1, ← hf.regs a h2]
    exact (rd_clrReg_ne _ _ h3).trans (by rw [hz]; rfl)
  have hm : MemKept s (stacksOff p (domainsOff (partDomains p) z)) := fun a => by
    rw [ho.mem a]
    have h1 : memByte (domainsOff (partDomains p) z) a = memByte y a := by rw [hz]; rfl
    rw [h1, hf.mem a, hx]; rfl
  have hb : (domainsOff (partDomains p) z).boot = s.boot := by
    have h1 : (domainsOff (partDomains p) z).boot = y.boot := by rw [hz]; rfl
    rw [h1, hf.boot, hx]; rfl
  refine ⟨?_, ?_, ?_, fun d hd => ?_, fun i hi => queue_stacksOff p i (by rw [hb]; exact hi), hm⟩
  · rw [fenceState, rdF, hr _ (by decide) (by decide) (by decide), ← rdF, ← fenceState, hx, fenceState_setPhase,
      fenceState_setFence hp (by decide), if_pos rfl]
  · rw [resetPhase, rdF, hr _ (by decide) (by decide) (by decide), ← rdF, ← resetPhase, hx,
      resetPhase_setPhase hp (by decide)]
  · have h1 : (stacksOff p (domainsOff (partDomains p) z)).flt = (domainsOff (partDomains p) z).flt := by
      exact List.foldlRecOn (motive := fun v : State => v.flt = (domainsOff (partDomains p) z).flt) _ _ rfl fun v hv i _ => by
        rw [← hv]; split <;> rfl
    have h2 : (domainsOff (partDomains p) z).flt.resetAt = y.flt.resetAt := by rw [hz]; rfl
    rw [h1, h2, hf.resetAt, hx]; rfl
  · rw [domainIsOn, rdB, ho.regs _ (by decide), ← rdB, ← domainIsOn]
    exact domainIsOn_domainsOff hd (partDomains_lt hp hd) z

theorem partReset_fenced (hp : p < 4) (hm : mayWrite s .operator who = true)
    (hh : s.flt.halted = false) (h9 : 9 ≤ reached s) (hr : resetPhase s p ≠ 2) (hf : fenceState s p = 2) :
    Completes (.partReset who (wd (2 ^ p))) s (fun u =>
      fenceState u p = 3 ∧ resetPhase u p = 3 ∧ mget 0 u.flt.resetAt p = now s
        ∧ (∀ d ∈ partDomains p, domainIsOn u d = false) ∧ (∀ i, i < s.boot.stackCount → (stk u p i).queue = [])
        ∧ MemKept s u) := by
  have he := exec_partReset hp hm hh h9 hr (by omega) (by omega)
  rw [if_pos hf] at he
  obtain ⟨h1, h2, h3, h4, h5, h6⟩ := enterHold_spec hp (resetNoted p s)
  exact ⟨_, he, h1, h2, by rw [h3, resetAt_resetNoted], h4, h5, h6⟩

-- The phases of a reset (R398)

/-- The next phase of a reset. -/
theorem exec_phaseEnd_good {bad : List (Nat × Nat × Nat × Nat)} {rates : List Nat} (hp : p < 4) (h3 : 3 ≤ resetPhase s p)
    (h8 : resetPhase s p ≤ 8) (ht : resetPhase s p = 7 → allTrained s rates = true) :
    exec (.partResetPhaseEnd p true bad rates) s = ok (phaseDone p bad rates s) := by
  have h1 : ¬ (4 ≤ p ∨ resetPhase s p < 3 ∨ 8 < resetPhase s p) := by omega
  have h2 : (true && (resetPhase s p != 7 || allTrained s rates)) = true := by
    by_cases h : resetPhase s p = 7
    · simp [ht h]
    · simp [h]
  show execPartResetPhaseEnd p true bad rates s = _
  unfold execPartResetPhaseEnd
  dsimp only
  rw [if_neg h1, if_pos h2]

theorem phaseEnd_held {bad : List (Nat × Nat × Nat × Nat)} {rates : List Nat} (hp : p < 4) (h : resetPhase s p = 3) :
    Completes (.partResetPhaseEnd p true bad rates) s (fun u =>
      resetPhase u p = 4 ∧ RegsKept [Reg.resetStatus] s u ∧ MemKept s u) := by
  have hk : Kept [Reg.resetStatus] s (setPhase p 4 s) := (Kept.refl _ s).wrF (by simp) _ _ _
  refine ⟨_, (exec_phaseEnd_good hp (by omega) (by omega) (by omega)).trans ?_, resetPhase_setPhase hp (by decide) _,
    hk.regs, hk.mem⟩
  unfold phaseDone
  simp only [h]
  rfl

theorem phaseEnd_domains {bad : List (Nat × Nat × Nat × Nat)} {rates : List Nat} (hp : p < 4) (h : resetPhase s p = 4) :
    Completes (.partResetPhaseEnd p true bad rates) s (fun u =>
      resetPhase u p = 5 ∧ ∀ d ∈ partDomains p, domainExists s d = true → domainIsOn u d = true) := by
  have he : exec (.partResetPhaseEnd p true bad rates) s = ok (setPhase p 5 (domainsOn (partDomains p) s)) := by
    refine (exec_phaseEnd_good hp (by omega) (by omega) (by omega)).trans ?_
    unfold phaseDone
    simp only [h]
    rfl
  refine ⟨_, he, resetPhase_setPhase hp (by decide) _, fun d hd hx => ?_⟩
  rw [domainIsOn, setPhase, rdB, rd_wrF_ne _ _ _ _ (by decide), ← rdB, ← domainIsOn]
  exact domainIsOn_domainsOn hd (partDomains_lt hp hd) hx

/-- Some tiles of a partition become ABSENT, the others IDLE. -/
def sortTiles (p : Nat) (absent : List Nat) (n : Nat) (s : State) : State :=
  (List.range n).foldl (fun s t => setTileState (128 * p + t) (if absent.contains t then 6 else 0) s) s

theorem sortTiles_succ (p : Nat) (absent : List Nat) (n : Nat) (s : State) : sortTiles p absent (n + 1) s
    = setTileState (128 * p + n) (if absent.contains n then 6 else 0) (sortTiles p absent n s) := by
  unfold sortTiles; rw [List.range_succ, List.foldl_append, List.foldl_cons, List.foldl_nil]

theorem tileState_sortTiles (p : Nat) (absent : List Nat) {n t : Nat} (ht : t < n) (s : State) :
    tileState (sortTiles p absent n s) (128 * p + t) = 0 ∨ tileState (sortTiles p absent n s) (128 * p + t) = 6 := by
  induction n with
  | zero => omega
  | succ n ih =>
    rw [sortTiles_succ, tileState_setTileState _ _ _ (by split <;> decide)]
    split
    · split
      · exact Or.inr rfl
      · exact Or.inl rfl
    · exact ih (by omega)

theorem keeps_sortTiles (p : Nat) (absent : List Nat) (n : Nat) (s : State) :
    rd (sortTiles p absent n s) Reg.resetStatus = rd s Reg.resetStatus ∧ MemKept s (sortTiles p absent n s) := by
  induction n with
  | zero => exact ⟨rfl, fun _ => rfl⟩
  | succ n ih =>
    rw [sortTiles_succ]
    have := tileStatus_high (128 * p + n)
    exact ⟨(rd_wrF_ne _ _ _ _ (by rw [Reg.resetStatus]; omega)).trans ih.1, ih.2⟩

theorem selfTestPart_sorted (hp : p < 4) (bad : List (Nat × Nat × Nat)) (s : State) :
    rd (selfTestPart p bad s) Reg.resetStatus = rd s Reg.resetStatus ∧ MemKept s (selfTestPart p bad s)
      ∧ ∀ t, t < 128 → tileState (selfTestPart p bad s) (128 * p + t) = 0 ∨ tileState (selfTestPart p bad s) (128 * p + t) = 6 := by
  obtain ⟨new, hnew⟩ : ∃ new, new = bad.filter (fun b => !(draffTiles s p).contains b.1 && decide (b.1 < 132)) := ⟨_, rfl⟩
  have hd : ∀ (b : Nat × Nat × Nat) v, rd (appendDraff p b.1 b.2.1 b.2.2 v) Reg.resetStatus = rd v Reg.resetStatus
      ∧ MemKept v (appendDraff p b.1 b.2.1 b.2.2 v) := fun b v => by
    unfold appendDraff
    dsimp only
    split
    · exact ⟨rd_orReg_ne _ _ (by decide), fun _ => rfl⟩
    · exact ⟨rfl, fun _ => rfl⟩
  have hx : rd (new.foldl (fun s b => appendDraff p b.1 b.2.1 b.2.2 s) s) Reg.resetStatus = rd s Reg.resetStatus
      ∧ MemKept s (new.foldl (fun s b => appendDraff p b.1 b.2.1 b.2.2 s) s) :=
    List.foldlRecOn (motive := fun v => rd v Reg.resetStatus = rd s Reg.resetStatus ∧ MemKept s v) _ _ ⟨rfl, fun _ => rfl⟩
      fun v hv b _ => ⟨(hd b v).1.trans hv.1, fun a => ((hd b v).2 a).trans (hv.2 a)⟩
  obtain ⟨w, n, absent, he⟩ : ∃ w n absent, selfTestPart p bad s = sortTiles p absent 128
      (wrF Reg.partResult (16 * p + 15) (16 * p) n (wrReg (Reg.spareMap p) w
        (new.foldl (fun s b => appendDraff p b.1 b.2.1 b.2.2 s) s))) := by
    rw [hnew]; exact ⟨_, _, _, rfl⟩
  have hk := keeps_sortTiles p absent 128 (wrF Reg.partResult (16 * p + 15) (16 * p) n (wrReg (Reg.spareMap p) w
        (new.foldl (fun s b => appendDraff p b.1 b.2.1 b.2.2 s) s)))
  rw [he]
  refine ⟨?_, fun a => (hk.2 a).trans (hx.2 a), fun t ht => tileState_sortTiles p absent ht _⟩
  rw [hk.1, rd_wrF_ne _ _ _ _ (by decide), rd_wrReg_ne _ _ (by simp only [Reg.resetStatus, Reg.spareMap]; omega), hx.1]

/-- What a partition's tiles show stays as its reset enters the next phase. -/
theorem tested_setPhase (hp : p < 4) (hm : MemKept s u)
    (ht : ∀ t, t < 128 → tileState u (128 * p + t) = 0 ∨ tileState u (128 * p + t) = 6) :
    resetPhase (setPhase p 6 u) p = 6
      ∧ (∀ t, t < 128 → tileState (setPhase p 6 u) (128 * p + t) = 0 ∨ tileState (setPhase p 6 u) (128 * p + t) = 6)
      ∧ MemKept s (setPhase p 6 u) := by
  refine ⟨resetPhase_setPhase hp (by decide) _, fun t h128 => ?_, hm⟩
  have := tileStatus_high (128 * p + t)
  have hk : tileState (setPhase p 6 u) (128 * p + t) = tileState u (128 * p + t) :=
    rdF_wrF_ne _ _ _ _ _ _ (by rw [Reg.resetStatus]; omega)
  rw [hk]; exact ht t h128

theorem exec_phaseEnd_tested {bad : List (Nat × Nat × Nat × Nat)} {rates : List Nat} (hp : p < 4) (h : resetPhase s p = 5) :
    ∃ b, exec (.partResetPhaseEnd p true bad rates) s = ok (setPhase p 6 (selfTestPart p b s)) := by
  refine ⟨(bad.filter (fun b => b.1 == p)).map (·.2), (exec_phaseEnd_good hp (by omega) (by omega) (by omega)).trans ?_⟩
  unfold phaseDone
  rw [if_neg (by omega), if_pos h]

theorem phaseEnd_tested {bad : List (Nat × Nat × Nat × Nat)} {rates : List Nat} (hp : p < 4) (h : resetPhase s p = 5) :
    Completes (.partResetPhaseEnd p true bad rates) s (fun u =>
      resetPhase u p = 6 ∧ (∀ t, t < 128 → tileState u (128 * p + t) = 0 ∨ tileState u (128 * p + t) = 6) ∧ MemKept s u) := by
  obtain ⟨b, he⟩ := exec_phaseEnd_tested (bad := bad) (rates := rates) hp h
  obtain ⟨-, hm, ht⟩ := selfTestPart_sorted hp b s
  exact ⟨_, he, tested_setPhase hp hm ht⟩

theorem phaseEnd_cleared {bad : List (Nat × Nat × Nat × Nat)} {rates : List Nat} (hp : p < 4) (h : resetPhase s p = 6) :
    Completes (.partResetPhaseEnd p true bad rates) s (fun u =>
      resetPhase u p = 7 ∧ (∀ t k, t < 128 → k < 0x200000 → memByte u (sramAddr (128 * p + t) k) = 0)
        ∧ RegsKept [Reg.resetStatus] s u) := by
  have he : exec (.partResetPhaseEnd p true bad rates) s = ok (setPhase p 7 (clearSram p s)) := by
    refine (exec_phaseEnd_good hp (by omega) (by omega) (by omega)).trans ?_
    unfold phaseDone
    simp only [h]
    rfl
  exact ⟨_, he, resetPhase_setPhase hp (by decide) _, fun t k ht hk => memByte_clearSram_tile ht hk p s,
    fun a ha => rd_wrF_ne _ _ _ _ (by simpa using ha)⟩

theorem phaseEnd_trained {bad : List (Nat × Nat × Nat × Nat)} {rates : List Nat} (hp : p < 4) (hc : s.boot.stackCount ≤ 4)
    (h : resetPhase s p = 7) (hr : ∀ i, i < s.boot.stackCount → nth rates i ≠ 0) :
    Completes (.partResetPhaseEnd p true bad rates) s (fun u =>
      resetPhase u p = 8 ∧ (∀ i, i < s.boot.stackCount → stackState u p i = 3) ∧ MemKept s u) := by
  have hall : allTrained s rates = true := by
    rw [allTrained, List.all_eq_true]
    intro i hi
    simpa using hr i (List.mem_range.1 hi)
  have he : exec (.partResetPhaseEnd p true bad rates) s = ok (setPhase p 8 (trainedPart p rates s)) := by
    refine (exec_phaseEnd_good hp (by omega) (by omega) (fun _ => hall)).trans ?_
    unfold phaseDone
    simp only [h]
    rfl
  obtain ⟨ho, hs⟩ := trainedStacks_spec p rates hc s
  rw [← trainedPart_eq] at ho hs
  refine ⟨_, he, resetPhase_setPhase hp (by decide) _, fun i hi => ?_, ho.mem⟩
  have := hbmStatus_high p i
  have hk : stackState (setPhase p 8 (trainedPart p rates s)) p i = stackState (trainedPart p rates s) p i :=
    rdF_wrF_ne _ _ _ _ _ _ (by rw [Reg.resetStatus]; omega)
  rw [hk, hs p i (by omega), if_pos ⟨rfl, hi⟩, if_neg (hr i hi)]

-- A phase that fails

theorem resetPhase_noteElapsed (hp : p < 4) (s : State) : resetPhase (noteElapsed p s) p = resetPhase s p :=
  rdF_wrF_other _ _ _ _ _ _ _ (by omega) (by omega) (by omega)

theorem failReset_spec (hp : p < 4) (s : State) : resetPhase (failReset p s) p = 9 ∧ fenceState (failReset p s) p = 2
    ∧ Kept [Reg.resetStatus, Reg.fenceStatus] s (failReset p s) := by
  refine ⟨?_, ?_, (((Kept.refl _ s).wrF (a := Reg.resetStatus) (by simp) _ _ _).wrF (a := Reg.fenceStatus) (by simp) _ _ _).wrF
    (a := Reg.resetStatus) (by simp) _ _ _⟩
  · have h1 : resetPhase (failReset p s) p = resetPhase (setFence p 2 (setPhase p 9 s)) p :=
      rdF_wrF_other _ _ _ _ _ _ _ (by omega) (by omega) (by omega)
    rw [h1, resetPhase_setFence, resetPhase_setPhase hp (by decide)]
  · have h1 : fenceState (failReset p s) p = fenceState (setFence p 2 (setPhase p 9 s)) p := rdF_wrF_ne _ _ _ _ _ _ (by decide)
    rw [h1, fenceState_setFence hp (by decide), if_pos rfl]

/-- Training that failed ends the reset (R179, R398). -/
theorem trainFailed_spec (hp : p < 4) (hc : s.boot.stackCount ≤ 4) (rates : List Nat) :
    let u := recordControl 16 true (some p) [] (failReset p (trainedPart p rates s))
    resetPhase u p = 9 ∧ fenceState u p = 2 ∧ Shows 16 u
      ∧ (∀ i, i < s.boot.stackCount → stackState u p i = (if nth rates i = 0 then 6 else 3)) ∧ MemKept s u := by
  obtain ⟨ho, hs⟩ := trainedStacks_spec p rates hc s
  rw [← trainedPart_eq] at ho hs
  obtain ⟨h1, h2, hk⟩ := failReset_spec hp (trainedPart p rates s)
  have hr := kept_recordControl 16 true (some p) [] (failReset p (trainedPart p rates s))
  refine ⟨?_, ?_, rdB_recordControl _ _ _ _ (by decide), fun i hi => ?_, fun a => by rw [hr.mem, hk.mem, ho.mem]⟩
  · rw [resetPhase, rdF, hr.regs _ (by decide)]; exact h1
  · rw [fenceState, rdF, hr.regs _ (by decide)]; exact h2
  · have := hbmStatus_high p i
    rw [stackState, rdF, hr.regs _ (by
        simp only [List.mem_cons, Reg.faultStatus, Reg.firstSource, List.not_mem_nil, or_false]; omega),
      hk.regs _ (by simp only [List.mem_cons, Reg.resetStatus, Reg.fenceStatus, List.not_mem_nil, or_false]; omega),
      ← rdF, ← stackState, hs p i (by omega), if_pos ⟨rfl, hi⟩]

theorem phaseEnd_stackFailed {bad : List (Nat × Nat × Nat × Nat)} {rates : List Nat} (good : Bool) (hp : p < 4)
    (hc : s.boot.stackCount ≤ 4) (h : resetPhase s p = 7) (hr : ∃ i, i < s.boot.stackCount ∧ nth rates i = 0) :
    Completes (.partResetPhaseEnd p good bad rates) s (fun u => resetPhase u p = 9 ∧ fenceState u p = 2 ∧ Shows 16 u
      ∧ (∀ i, i < s.boot.stackCount → stackState u p i = (if nth rates i = 0 then 6 else 3)) ∧ MemKept s u) := by
  have hall : allTrained s rates = false := by
    obtain ⟨i, hi, hz⟩ := hr
    rw [allTrained, List.all_eq_false]
    exact ⟨i, List.mem_range.2 hi, by simp [hz]⟩
  have he : exec (.partResetPhaseEnd p good bad rates) s
      = ok (recordControl 16 true (some p) [] (failReset p (trainedPart p rates s))) := by
    show execPartResetPhaseEnd p good bad rates s = _
    have h1 : ¬ (4 ≤ p ∨ resetPhase s p < 3 ∨ 8 < resetPhase s p) := by omega
    have h2 : ¬ (good && (resetPhase s p != 7 || allTrained s rates)) = true := by simp [h, hall]
    unfold execPartResetPhaseEnd
    dsimp only
    rw [if_neg h1, if_neg h2, if_pos h]
  exact ⟨_, he, trainFailed_spec hp hc rates⟩

theorem phaseEnd_failed {bad : List (Nat × Nat × Nat × Nat)} {rates : List Nat} (hp : p < 4) (hc : s.boot.stackCount ≤ 4)
    (h3 : 3 ≤ resetPhase s p) (h8 : resetPhase s p ≤ 8) : Completes (.partResetPhaseEnd p false bad rates) s (fun u =>
      resetPhase u p = 9 ∧ fenceState u p = 2 ∧ MemKept s u) := by
  have h1 : ¬ (4 ≤ p ∨ resetPhase s p < 3 ∨ 8 < resetPhase s p) := by omega
  have he : exec (.partResetPhaseEnd p false bad rates) s = ok (if resetPhase s p = 7
      then recordControl 16 true (some p) [] (failReset p (trainedPart p rates s)) else failReset p s) := by
    show execPartResetPhaseEnd p false bad rates s = _
    unfold execPartResetPhaseEnd
    dsimp only
    rw [if_neg h1, Bool.false_and, if_neg (by decide)]
  refine ⟨_, he, ?_⟩
  split
  · obtain ⟨h4, h5, -, -, h6⟩ := trainFailed_spec hp hc rates
    exact ⟨h4, h5, h6⟩
  · obtain ⟨h4, h5, h6⟩ := failReset_spec hp s
    exact ⟨h4, h5, h6.mem⟩

-- RESTORE (R154, R399)

/-- What RESTORE drops of a partition beside registers. -/
def dropPartition (p : Nat) (s : State) : State :=
  zeroRange (p * 0x1800000000) ((p + 1) * 0x1800000000) { s with
    tiles := s.tiles.filter (fun kv => kv.1 / 128 != p),
    rma := { s.rma with parts := s.rma.parts.filter (fun q => !heldIn p q.2.acc) } }

theorem restorePart_eq (p : Nat) (s : State) :
    ∃ x, restorePart p s = wrF Reg.fenceStatus (16 * p + 15) (16 * p) 0 (dropPartition p x) := ⟨_, rfl⟩

theorem mget_filter_key {α : Type} (f : Nat → Bool) (m : Map α) (d : α) (k : Nat) :
    mget d (m.filter fun kv => f kv.1) k = if f k then mget d m k else d := by
  have h := mget_mdrop d (fun a => !f a) m k
  simp only [mdrop, Bool.not_not] at h
  rw [h]
  cases f k <;> rfl

theorem tl_dropPartition {t : Nat} (ht : t < 128) (p : Nat) (s : State) : tl (dropPartition p s) (128 * p + t) = {} := by
  have h : ((128 * p + t) / 128 != p) = false := by
    rw [show (128 * p + t) / 128 = p by omega]; simp
  refine (mget_filter_key (fun k => k / 128 != p) s.tiles {} (128 * p + t)).trans ?_
  rw [h]; rfl

theorem memByte_dropPartition {a : Nat} (ha : a < 0x1800000000) (p : Nat) (s : State) :
    memByte (dropPartition p s) (p * 0x1800000000 + a) = 0 := by
  unfold dropPartition
  rw [memByte_zeroRange, if_pos (by omega)]

theorem phaseEnd_restored {bad : List (Nat × Nat × Nat × Nat)} {rates : List Nat} (hp : p < 4) (h : resetPhase s p = 8) :
    Completes (.partResetPhaseEnd p true bad rates) s (fun u =>
      resetPhase u p = 0 ∧ fenceState u p = 0 ∧ (∀ t, t < 128 → tl u (128 * p + t) = {})
        ∧ ∀ a, a < 0x1800000000 → memByte u (p * 0x1800000000 + a) = 0) := by
  obtain ⟨x, hx⟩ := restorePart_eq p s
  have he : exec (.partResetPhaseEnd p true bad rates) s = ok (noteElapsed p (setPhase p 0
      (wrF Reg.fenceStatus (16 * p + 15) (16 * p) 0 (dropPartition p x)))) := by
    rw [← hx]
    refine (exec_phaseEnd_good hp (by omega) (by omega) (by omega)).trans ?_
    unfold phaseDone
    simp only [h]
    rfl
  have htl := fun t (ht : t < 128) => tl_dropPartition ht p x
  have hmem := fun a (ha : a < 0x1800000000) => memByte_dropPartition ha p x
  generalize dropPartition p x = y at he htl hmem
  refine ⟨_, he, ?_, ?_, htl, hmem⟩
  · rw [resetPhase_noteElapsed hp, resetPhase_setPhase hp (by decide)]
  · have h1 : ∀ v, fenceState (noteElapsed p v) p = fenceState v p := fun v => rdF_wrF_ne _ _ _ _ _ _ (by decide)
    rw [h1, fenceState_setPhase, fenceState_wrF hp, if_pos rfl]

/-- Settles O52: a fence and everything it ends leave the fences' own record as it was marked (`fenceWork_spec`,
`fenceKept_answerHeld`), and each phase of a reset does its own part of R398. -/
theorem fencesAndPartitionResets : Obligations.FencesAndPartitionResets := by
  intro p s hp hc
  refine ⟨fun who hm => ⟨fun hf => ?_, fun hf => ?_⟩, fun hf => ⟨fun hb hr => fenceDrainDone_free hp hf hb hr, fun hb => ?_,
      fun hr h64 => drainExpired_completes hp hf hr h64⟩,
    fun who hm hh h9 hr => ⟨fun hf => partReset_inService hp hm hh h9 hr hf, fun hf => partReset_fenced hp hm hh h9 hr hf⟩,
    fun bad rates => ⟨phaseEnd_held hp, phaseEnd_domains hp, phaseEnd_tested hp, phaseEnd_cleared hp, phaseEnd_trained hp hc,
      fun good h hr => phaseEnd_stackFailed good hp hc h hr, phaseEnd_restored hp, phaseEnd_failed hp hc⟩⟩
  · obtain ⟨h1, h2, h3, -, -⟩ := startFence_spec (cause := 1) hp hf
    exact ⟨_, exec_fencePartition hp hm, by rw [h1, if_pos rfl], h2, h3,
      fun _ _ hi hb => handoverPending_startFence hp hc hf hi hb, fun q _ hq => by rw [h1, if_neg hq]⟩
  · exact ⟨_, exec_fencePartition hp hm, startFence_of_fenced hf⟩
  · have hn : ¬ (p < 4 ∧ fenceState s p = 1 ∧ (!busyPart s p) = true) := by simp [hb]
    have he : exec (.fenceDrainDone p) s = ok s := congrArg ok (if_neg hn)
    exact ⟨_, he, rfl⟩

end Sys2Proof.Machine
end

section
/-! PROOFS. Faults cleared, forced and reacted to, errors in protected tables, aborts of tenants and floods
(R385, R389–R394). -/

namespace Sys2Proof.Machine

variable {s u v : State} {who : Writer}

-- Clearing (R389)

theorem clearStatus_bit (v : Word) {i : Nat} (hi : i < 64) (s : State) : rdB (clearStatus v s) Reg.faultStatus i
    = (rdB s Reg.faultStatus i && !(bit v i && !faultPresent s i)) := by
  have hm : bit (wd (maskOf ((List.range 64).filter (fun i => faultPresent s i)))) i = faultPresent s i := by
    rw [bit_wd _ hi, testBit_maskOf]
    simp [hi]
  rw [clearStatus, rdB, rd_wrReg_self, bit, BitVec.getLsbD_and, BitVec.getLsbD_not, BitVec.getLsbD_and, BitVec.getLsbD_not,
    ← bit, ← bit, ← bit, hm, ← rdB, decide_eq_true hi, Bool.true_and, Bool.true_and]

theorem faultStatusClear_completes (v : Word) (hm : mayWrite s .operator who = true) :
    Completes (.faultStatusClear who v) s (fun u =>
      (∀ i, i < 64 → rdB u Reg.faultStatus i = (rdB s Reg.faultStatus i && !(bit v i && !faultPresent s i)))
        ∧ RegsKept [Reg.faultStatus] s u ∧ MemKept s u) := by
  have hk : Kept [Reg.faultStatus] s (clearStatus v s) := (Kept.refl _ s).wrReg (by simp) _
  exact ⟨_, congrArg ok (answered_operator hm (by decide) _), fun i hi => clearStatus_bit v hi s, hk.regs, hk.mem⟩

-- Forced occurrences (R390)

/-- The reactions from place `n` on become limited or not. -/
def limitFrom (n : Nat) (lim : Bool) (s : State) : State :=
  { s with flt := { s.flt with reactions := s.flt.reactions.zipIdx.map (fun r =>
      if n ≤ r.2 then { r.1 with limited := lim } else r.1) } }

/-- The occurrence that a force of a data source captures. -/
def forcedOcc (who : Writer) (s : State) : Occ :=
  { dev := writerDev s who, agent := (writerAgent s who).1, tenant := (writerAgent s who).2, access := 15 }

theorem forceOne_eq {i : Nat} (h : sourceExists i = true) : forceOne who i s
    = limitFrom s.flt.reactions.length
        (rdB (if i ≤ 6 then recordData i (forcedOcc who s) none s else recordControl i false none [] s) Reg.faultCtrl 63)
        (if i ≤ 6 then recordData i (forcedOcc who s) none s else recordControl i false none [] s) := by
  unfold forceOne
  rw [if_neg (by simp [h])]
  rfl

theorem limitFrom_appended {r : Reaction} {lim : Bool} (h : u.flt.reactions = s.flt.reactions ++ [r]) :
    (limitFrom s.flt.reactions.length lim u).flt.reactions = s.flt.reactions ++ [{ r with limited := lim }] := by
  show u.flt.reactions.zipIdx.map _ = _
  rw [h, List.zipIdx_append, List.map_append]
  congr 1
  · refine List.ext_getElem (by simp) fun k h1 h2 => ?_
    have : ¬ s.flt.reactions.length ≤ k := by simpa using h2
    simp [this]
  · simp

/-- The occurrence of a source, recorded, waits with its reactions. -/
structure OccWaits (src : Nat) (s u : State) : Prop where
  appended : ∃ r, u.flt.reactions = s.flt.reactions ++ [r] ∧ r.src = src
  shows : Shows src u

theorem occWaits_recordControl {src : Nat} (h : src < 64) (part : Option Nat) (tenants : List Nat) (s : State) :
    OccWaits src s (recordControl src false part tenants s) where
  appended := by
    refine ⟨{ src := src, agent := 0xFFF, tenants := tenants, part := part, limited := false }, ?_, rfl⟩
    unfold recordControl latchFirst
    rw [if_neg (by simp)]
    split <;> rfl
  shows := rdB_recordControl _ _ _ _ h

theorem firstSource_recordControl {src : Nat} (h : src < 64) (part : Option Nat) (tenants : List Nat)
    (hf : rdB s Reg.firstSource 63 = false) : rdF (recordControl src false part tenants s) Reg.firstSource 5 0 = src
      ∧ rdB (recordControl src false part tenants s) Reg.firstSource 63 = true := by
  have he : rd (recordControl src false part tenants s) Reg.firstSource = wd (2 ^ 63 + src) := by
    unfold recordControl latchFirst
    rw [if_neg (by simp), if_neg (by simp [hf])]
    exact (rd_wrReg_ne _ _ (by decide)).trans (rd_wrReg_self _ _ _)
  rw [rdF, rdB, he, fld_wd _ (by decide), bit_wd _ (by decide)]
  refine ⟨by omega, ?_⟩
  rw [Nat.testBit_two_pow_add_eq, Nat.testBit_lt_two_pow (by omega)]; rfl

theorem occWaits_recordData {src : Nat} (h : src < 64) (o : Occ) (part : Option Nat) (s : State) :
    OccWaits src s (recordData src o part s) where
  appended := by
    refine ⟨{ src := src, agent := o.agent, tenants := [o.tenant], part := part, limited := false }, ?_, rfl⟩
    unfold recordData
    dsimp only
    split <;> rfl
  shows := rdB_recordData_status _ o part h

theorem capture_fields {d a t c z : Nat} (hd : d < 2 ^ 14) (ha : a < 2 ^ 12) (ht : t < 2 ^ 8) (hc : c < 2 ^ 4) (hz : z < 2 ^ 12) :
    bit (wd (2 ^ 63 + d * 2 ^ 48 + a * 2 ^ 36 + t * 2 ^ 28 + c * 2 ^ 24 + z)) 63 = true
      ∧ fld (wd (2 ^ 63 + d * 2 ^ 48 + a * 2 ^ 36 + t * 2 ^ 28 + c * 2 ^ 24 + z)) 27 24 = c := by
  rw [bit_wd _ (by decide), fld_wd _ (by decide)]
  refine ⟨?_, by omega⟩
  rw [show 2 ^ 63 + d * 2 ^ 48 + a * 2 ^ 36 + t * 2 ^ 28 + c * 2 ^ 24 + z
      = 2 ^ 63 + (d * 2 ^ 48 + a * 2 ^ 36 + t * 2 ^ 28 + c * 2 ^ 24 + z) by omega,
    Nat.testBit_two_pow_add_eq, Nat.testBit_lt_two_pow (by omega)]
  rfl

theorem capture_captureWords (o : Occ) (t : Word) (src : Nat) (s : State) :
    rdB (captureWords o t s src) (Reg.dcap src 1) 63 = true
      ∧ rdF (captureWords o t s src) (Reg.dcap src 1) 27 24 = o.access % 16 ∧ rd (captureWords o t s src) (Reg.dcap src 2) = t := by
  have n32 : Reg.dcap src 2 ≠ Reg.dcap src 3 := by simp only [Reg.dcap]; omega
  have n13 : Reg.dcap src 1 ≠ Reg.dcap src 3 := by simp only [Reg.dcap]; omega
  have n12 : Reg.dcap src 1 ≠ Reg.dcap src 2 := by simp only [Reg.dcap]; omega
  obtain ⟨h1, h2⟩ := capture_fields (d := o.dev % 2 ^ 14) (a := o.agent % 2 ^ 12) (t := o.tenant % 256) (c := o.access % 16)
    (z := o.status % 2 ^ 12) (Nat.mod_lt _ (by decide)) (Nat.mod_lt _ (by decide)) (Nat.mod_lt _ (by decide))
    (Nat.mod_lt _ (by decide)) (Nat.mod_lt _ (by decide))
  unfold captureWords
  generalize wd (2 ^ 63 + o.dev % 2 ^ 14 * 2 ^ 48 + o.agent % 2 ^ 12 * 2 ^ 36 + o.tenant % 256 * 2 ^ 28
    + o.access % 16 * 2 ^ 24 + o.status % 2 ^ 12) = n at h1 h2 ⊢
  generalize wd (o.gen % 16 * 2 ^ 15 + o.tag % 2 ^ 15) = k
  rw [rdB, rdF, rd_wrReg_ne _ _ n13, rd_wrReg_ne _ _ n12, rd_wrReg_self, rd_wrReg_ne _ _ n32, rd_wrReg_self]
  exact ⟨h1, h2, rfl⟩

theorem capture_recordData {src : Nat} (h : src < 7) (o : Occ) (part : Option Nat) (hf : rdB s (Reg.dcap src 1) 63 = false) :
    rdB (recordData src o part s) (Reg.dcap src 1) 63 = true
      ∧ rdF (recordData src o part s) (Reg.dcap src 1) 27 24 = o.access % 16
      ∧ rd (recordData src o part s) (Reg.dcap src 2) = s.now := by
  have hne : Reg.dcap src 1 ≠ Reg.faultStatus := by simp only [Reg.dcap, Reg.faultStatus]; omega
  have hf' : rdB (orReg Reg.faultStatus (2 ^ src) s) (Reg.dcap src 1) 63 ≠ true := by
    rw [rdB, orReg, rd_wrReg_ne _ _ hne, ← rdB, hf]; decide
  unfold recordData
  dsimp only
  rw [if_neg hf', rdB, rdF, rd_queueReaction, rd_queueReaction]
  exact capture_captureWords o s.now src _

theorem kept_recordData (src : Nat) (o : Occ) (part : Option Nat) (s : State) :
    Kept [Reg.faultStatus, Reg.firstSource, Reg.dcap src 0, Reg.dcap src 1, Reg.dcap src 2, Reg.dcap src 3] s
      (recordData src o part s) := by
  refine ⟨fun a ha => ?_, fun a => memByte_recordData ..⟩
  simp only [List.mem_cons, List.not_mem_nil, or_false, not_or] at ha
  obtain ⟨hs, -, h0, h1, h2, h3⟩ := ha
  rw [rd_recordData s o part (fun w hw => by interval_cases w <;> assumption), rd_orReg_ne _ _ hs]

theorem maskBits_single64 : ∀ i < 64, maskBits (wd (2 ^ i)).toNat 64 = [i] := by decide

theorem faultForce_completes {i : Nat} (hm : mayWrite s .operator who = true) (hi : i < 64) (hx : sourceExists i = true) :
    Completes (.faultForce who (wd (2 ^ i))) s (fun u =>
      Shows i u ∧ (∃ r, u.flt.reactions = s.flt.reactions ++ [r] ∧ r.src = i ∧ r.limited = rdB s Reg.faultCtrl 63)
        ∧ (i ≤ 6 → rdB s (Reg.dcap i 1) 63 = false → rdB u (Reg.dcap i 1) 63 = true ∧ rdF u (Reg.dcap i 1) 27 24 = 15
            ∧ rd u (Reg.dcap i 2) = s.now)
        ∧ (16 ≤ i → rdB s Reg.firstSource 63 = false → rdF u Reg.firstSource 5 0 = i ∧ rdB u Reg.firstSource 63 = true)
        ∧ RegsKept [Reg.faultStatus, Reg.firstSource, Reg.dcap i 0, Reg.dcap i 1, Reg.dcap i 2, Reg.dcap i 3] s u
        ∧ MemKept s u) := by
  obtain ⟨x, hx'⟩ : ∃ x, x = if i ≤ 6 then recordData i (forcedOcc who s) none s else recordControl i false none [] s := ⟨_, rfl⟩
  have he : exec (.faultForce who (wd (2 ^ i))) s = ok (limitFrom s.flt.reactions.length (rdB x Reg.faultCtrl 63) x) := by
    refine congrArg ok ((answered_operator hm (by decide) _).trans ?_)
    rw [maskBits_single64 i hi, List.foldl_cons, List.foldl_nil, forceOne_eq hx, ← hx']
  have hw : OccWaits i s x := by
    rw [hx']; split
    · exact occWaits_recordData hi _ _ s
    · exact occWaits_recordControl hi _ _ s
  have hk : Kept [Reg.faultStatus, Reg.firstSource, Reg.dcap i 0, Reg.dcap i 1, Reg.dcap i 2, Reg.dcap i 3] s x := by
    rw [hx']; split
    · exact kept_recordData i _ _ s
    · exact (kept_recordControl _ _ _ _ s).mono (by simp)
  obtain ⟨r, hr, hsrc⟩ := hw.appended
  have hfc : rd x Reg.faultCtrl = rd s Reg.faultCtrl := hk.regs _ (by
    simp only [List.mem_cons, List.not_mem_nil, or_false, not_or, Reg.faultCtrl, Reg.faultStatus, Reg.firstSource, Reg.dcap]
    omega)
  refine ⟨_, he, hw.shows, ⟨_, limitFrom_appended hr, hsrc, ?_⟩, fun h6 hf => ?_, fun h16 hf => ?_, hk.regs, hk.mem⟩
  · exact congrArg (fun w => bit w 63) hfc
  · rw [if_pos h6] at hx'
    rw [hx']
    exact capture_recordData (by omega) _ none hf
  · rw [if_neg (by omega)] at hx'
    rw [hx']
    exact firstSource_recordControl hi none [] hf

-- Errors in protected tables

/-- A group after an error in entry `i` of the member store. -/
def withoutMember (i : Nat) (g : Nat × Group) : Nat × Group :=
  if g.2.valid && (g.2.holds i) then (g.1, { g.2 with w0 := setBit g.2.w0 63 false }) else g

/-- What an error spoils in a protected table. -/
def spoil (x : TableSpot) (s : State) : State :=
  let dead (g : Group) : Group := { g with w0 := setBit g.w0 63 false }
  match x with
  | .window i =>
    let w := winEntry s i
    { s with rma := { s.rma with windows := mset (0, 0) s.rma.windows i (setBit w.1 63 false, w.2) } }
  | .group gid => { s with coll := { s.coll with groups := mset {} s.coll.groups gid (dead (groupOf s gid)) } }
  | .member i =>
    { s with coll := { s.coll with groups := s.coll.groups.map (withoutMember i) } }
  | .completion tag =>
    if (cplOf s tag).st = .opened then setCpl tag { cplOf s tag with damaged := true } s else s

theorem damage_eq (x : TableSpot) (s : State) : damage x s = recordControl 23 false none [] (spoil x s) := by
  cases x <;> rfl

/-- An entry of a map whose values are changed one by one. -/
theorem mget_map_of_keys {α : Type} {d : α} {f : Nat × α → Nat × α} (hk : ∀ kv, (f kv).1 = kv.1) (hd : ∀ k, (f (k, d)).2 = d)
    (m : Map α) (k : Nat) : mget d (m.map f) k = (f (k, mget d m k)).2 := by
  induction m with
  | nil => exact (hd k).symm
  | cons kv m ih =>
    obtain ⟨k', v⟩ := kv
    have hf : f (k', v) = ((f (k', v)).1, (f (k', v)).2) := rfl
    rw [List.map_cons, hf, hk, mget, mget, ih]
    by_cases h : k' = k
    · rw [if_pos h, if_pos h, h]
    · rw [if_neg h, if_neg h]

theorem valid_spoil_member (i g : Nat) (s : State) :
    (groupOf (spoil (.member i) s) g).valid = ((groupOf s g).valid && !(groupOf s g).holds i) := by
  have he : groupOf (spoil (.member i) s) g = (withoutMember i (g, groupOf s g)).2 :=
    mget_map_of_keys (d := ({} : Group)) (f := withoutMember i) (fun kv => by unfold withoutMember; split <;> rfl)
      (fun k => by rw [withoutMember, show ({} : Group).valid = false by decide]; rfl) s.coll.groups g
  rw [he, withoutMember]
  split
  · next h =>
    obtain ⟨hv, hh⟩ := Bool.and_eq_true_iff.1 h
    rw [hv, hh]
    exact bit_setBit_self _ _ _ (by decide)
  · next h =>
    cases hv : (groupOf s g).valid
    · rfl
    · have : (groupOf s g).holds i = false := by simpa [hv] using h
      rw [this]; rfl

theorem damaged_completes (ecc : Syndrome) (x : TableSpot) (hq : s.net.routerQ = []) : Completes (.routePacket ⟨ecc, some x⟩) s (fun u =>
    Shows 23 u ∧ (∃ r, u.flt.reactions = s.flt.reactions ++ [r] ∧ r.src = 23)
      ∧ (∀ i, x = .window i → winEntry u i = (setBit (winEntry s i).1 63 false, (winEntry s i).2))
      ∧ (∀ g, x = .group g → (groupOf u g).valid = false)
      ∧ (∀ i, x = .member i → ∀ g, (groupOf u g).valid = ((groupOf s g).valid && !(groupOf s g).holds i))
      ∧ (∀ k, x = .completion k → (cplOf s k).st = .opened → (cplOf u k).damaged = true ∧ (cplOf u k).st = .opened)
      ∧ RegsKept [Reg.faultStatus, Reg.firstSource] s u ∧ MemKept s u) := by
  have hs : (spoil x s).regs = s.regs ∧ (spoil x s).flt = s.flt ∧ (spoil x s).net = s.net ∧ MemKept s (spoil x s) := by
    unfold spoil
    cases x <;> try exact ⟨rfl, rfl, rfl, fun _ => rfl⟩
    dsimp only
    split <;> exact ⟨rfl, rfl, rfl, fun _ => rfl⟩
  obtain ⟨hr, hf, hn, hm⟩ := hs
  have hw := occWaits_recordControl (src := 23) (by decide) none [] (spoil x s)
  have hk : Kept [Reg.faultStatus, Reg.firstSource] s (damage x s) := by
    rw [damage_eq]
    exact (Kept.mk (fun a _ => by rw [rd, hr, ← rd]) hm).trans (kept_recordControl _ _ _ _ _)
  have he : exec (.routePacket ⟨ecc, some x⟩) s = ok (damage x s) := by
    obtain ⟨r, rs, h⟩ := recordControl_frame 23 false none [] (spoil x s)
    have hq' : (damage x s).net.routerQ = [] := by rw [damage_eq, h]; exact (congrArg _ hn).trans hq
    show execRoutePacket ⟨ecc, some x⟩ s = _
    unfold execRoutePacket
    dsimp only
    rw [hq']
  obtain ⟨r, rs, h⟩ := recordControl_frame 23 false none [] (spoil x s)
  refine ⟨_, he, ?_, ?_, ?_, ?_, ?_, ?_, hk.regs, hk.mem⟩
  · rw [damage_eq]; exact hw.shows
  · rw [damage_eq, ← hf]; exact hw.appended
  · rintro i rfl
    have hx : winEntry (spoil (.window i) s) i = (setBit (winEntry s i).1 63 false, (winEntry s i).2) := mget_mset_self ..
    have hc : winEntry (damage (.window i) s) i = winEntry (spoil (.window i) s) i := by rw [damage_eq, h]; rfl
    rw [hc, hx]
  · rintro g rfl
    have hx : groupOf (spoil (.group g) s) g = { groupOf s g with w0 := setBit (groupOf s g).w0 63 false } := mget_mset_self ..
    have hc : groupOf (damage (.group g) s) g = groupOf (spoil (.group g) s) g := by rw [damage_eq, h]; rfl
    rw [hc, hx]
    exact bit_setBit_self _ _ _ (by decide)
  · rintro i rfl g
    have hc : groupOf (damage (.member i) s) g = groupOf (spoil (.member i) s) g := by rw [damage_eq, h]; rfl
    rw [hc]
    exact valid_spoil_member i g s
  · rintro k rfl ho
    have hx : cplOf (spoil (.completion k) s) k = { cplOf s k with damaged := true } := by
      have hsp : spoil (.completion k) s = setCpl k { cplOf s k with damaged := true } s := if_pos ho
      rw [hsp, cplOf_setCpl_self]
    have hc : cplOf (damage (.completion k) s) k = cplOf (spoil (.completion k) s) k := by rw [damage_eq, h]; rfl
    rw [hc, hx]
    exact ⟨rfl, ho⟩

-- Reactions (R391)

theorem exec_faultReaction {r : Reaction} {rest : List Reaction} (h : s.flt.reactions = r :: rest) :
    exec .faultReaction s = ok (react r { s with flt := { s.flt with reactions := rest } }) := by
  show execFaultReaction s = _
  unfold execFaultReaction
  rw [h]

theorem faultReaction_silent {r : Reaction} {rest : List Reaction} (h : s.flt.reactions = r :: rest)
    (hb : reactionBits s r = 0 ∨ reactionBits s r = 1) : Completes .faultReaction s (fun u =>
      u = { s with flt := { s.flt with reactions := rest } }) := by
  refine ⟨_, exec_faultReaction h, ?_⟩
  have hb' : reactionBits { s with flt := { s.flt with reactions := rest } } r = reactionBits s r := rfl
  unfold react
  dsimp only
  rw [hb']
  rcases hb with hb | hb <;> rw [hb] <;> rfl

theorem faultReaction_interrupts {r : Reaction} {rest : List Reaction} (h : s.flt.reactions = r :: rest)
    (hb : reactionBits s r = 2) (hx : bit (msixWord s 0 (2 * rdF s Reg.faultCtrl 7 0 + 1)) 32 = false) :
    Completes .faultReaction s (fun u => u.out = s.out ++ [.msix 0 (rdF s Reg.faultCtrl 7 0), .pldm r.src s.now]
      ∧ u.flt.reactions = rest ∧ RegsKept [] s u ∧ MemKept s u) := by
  obtain ⟨x, hx'⟩ : ∃ x : State, x = { s with flt := { s.flt with reactions := rest } } := ⟨_, rfl⟩
  have hr : react r x = raiseInterrupt r.src x := by
    have hb' : reactionBits x r = 2 := by rw [hx']; exact hb
    unfold react
    dsimp only
    rw [hb']
    rfl
  have hs : raiseInterrupt r.src x = { x with out := s.out ++ [.msix 0 (rdF s Reg.faultCtrl 7 0), .pldm r.src s.now] } := by
    have hv : rdF x Reg.faultCtrl 7 0 = rdF s Reg.faultCtrl 7 0 := by rw [hx']; rfl
    have hw : ∀ n, msixWord x 0 n = msixWord s 0 n := fun n => by rw [hx']; rfl
    have hc : ¬ msixCount 0 ≤ rdF s Reg.faultCtrl 7 0 := by
      have : rdF s Reg.faultCtrl 7 0 < 2 ^ (7 + 1 - 0) := fld_lt _ _ _
      have : msixCount 0 = 256 := rfl
      omega
    unfold raiseInterrupt sendMsix
    rw [hv, if_neg hc, hw, if_neg (by rw [hx]; decide), hx']
    simp [emit]
  refine ⟨_, (exec_faultReaction h).trans (congrArg ok (by rw [← hx', hr, hs])), rfl, ?_, fun a _ => ?_, fun a => ?_⟩
  · rw [hx']
  · rw [hx']; rfl
  · rw [hx']; rfl

theorem faultReaction_fences {r : Reaction} {rest : List Reaction} {p : Nat} (h : s.flt.reactions = r :: rest)
    (hb : reactionBits s r = 16) (h18 : r.src ≠ 18) (hpart : r.part = some p) (hp : p < 4) (hf : fenceState s p = 0) :
    Completes .faultReaction s (fun u =>
      fenceState u p = 1 ∧ rdF u Reg.fenceStatus (16 * p + 7) (16 * p + 4) = 2 ∧ mget 0 u.flt.fenceAt p = now s
        ∧ (∀ q, q < 4 → q ≠ p → fenceState u q = fenceState s q)) := by
  obtain ⟨x, hx⟩ : ∃ x : State, x = { s with flt := { s.flt with reactions := rest } } := ⟨_, rfl⟩
  have hr : react r x = startFence p 2 x := by
    have hb' : reactionBits x r = 16 := by rw [hx]; exact hb
    unfold react
    dsimp only
    rw [hb', hpart]
    simp only [show Nat.testBit 16 1 = false by decide, show Nat.testBit 16 2 = false by decide,
      show Nat.testBit 16 3 = false by decide, show Nat.testBit 16 4 = true by decide,
      show Nat.testBit 16 5 = false by decide, h18, Bool.false_and, Bool.false_eq_true, if_false, if_true]
  have hfx : ∀ q, fenceState x q = fenceState s q := fun q => by rw [hx]; rfl
  have hnx : now x = now s := by rw [hx]; rfl
  obtain ⟨h1, h2, h3, -⟩ := startFence_spec (cause := 2) hp ((hfx p).trans hf)
  refine ⟨_, (exec_faultReaction h).trans (congrArg ok (by rw [← hx, hr])), ?_, h2, h3.trans hnx, fun q _ hq => ?_⟩
  · rw [h1, if_pos rfl]
  · rw [h1, if_neg hq, hfx]

-- The abort of a tenant (R394)

/-- What a part of an abort leaves: all registers but the tiles' status, the fault record, the bonds and memory; idle
tiles stay idle, no job comes, nothing opens. -/
structure AbortKept (s u : State) : Prop where
  regs : ∀ a, (∀ t, a ≠ Reg.tileStatus t) → rd u a = rd s a
  idle : ∀ m, tileState s m = 0 → tileState u m = 0
  jobs : ∀ j ∈ u.host.jobs, j ∈ s.host.jobs
  now : u.now = s.now
  flt : u.flt = s.flt
  bonds : u.net.bonds = s.net.bonds
  mem : MemKept s u
  closed : NothingOpen s → NothingOpen u

theorem AbortKept.refl (s : State) : AbortKept s s :=
  ⟨fun _ _ => rfl, fun _ h => h, fun _ h => h, rfl, rfl, rfl, fun _ => rfl, fun h => h⟩

theorem AbortKept.trans (h : AbortKept s u) (h' : AbortKept u v) : AbortKept s v where
  regs a ha := (h'.regs a ha).trans (h.regs a ha)
  idle m hm := h'.idle m (h.idle m hm)
  jobs j hj := h.jobs j (h'.jobs j hj)
  now := h'.now.trans h.now
  flt := h'.flt.trans h.flt
  bonds := h'.bonds.trans h.bonds
  mem a := (h'.mem a).trans (h.mem a)
  closed hn := h'.closed (h.closed hn)

/-- A step that changes no register, job, fault or bond and opens nothing. -/
theorem AbortKept.of_same (hr : u.regs = s.regs) (hj : u.host.jobs = s.host.jobs) (hn : u.now = s.now) (hf : u.flt = s.flt)
    (hb : u.net.bonds = s.net.bonds) (hm : u.mem = s.mem) (hc : NothingOpen s → NothingOpen u) : AbortKept s u where
  regs a _ := by rw [rd, hr, ← rd]
  idle m h := by rw [tileState, rdF, rd, hr, ← rd, ← rdF]; exact h
  jobs j h := hj ▸ h
  now := hn
  flt := hf
  bonds := hb
  mem a := by rw [memByte, hm, ← memByte]
  closed := hc

theorem AbortKept.foldl {α : Type} {f : State → α → State} {l : List α} (hf : ∀ v, ∀ x ∈ l, AbortKept v (f v x)) (s : State) :
    AbortKept s (l.foldl f s) :=
  List.foldlRecOn _ _ (AbortKept.refl s) fun v hv x hx => hv.trans (hf v x hx)

theorem AbortKept.leaderOf (h : AbortKept s u) (m : Nat) : leaderOf u m = leaderOf s m :=
  congrArg (fun w => fld w 8 0) (h.regs _ (tileGang_ne_tileStatus m))

theorem AbortKept.members (h : AbortKept s u) (l : Nat) : membersOf u l = membersOf s l := membersOf_congr h.leaderOf l

theorem abortKept_idleMember (m : Nat) (s : State) : AbortKept s (idleMember m s) where
  regs a ha := (rd_wrF_ne _ _ _ _ (ha m)).trans (rd_wrF_ne _ _ _ _ (ha m))
  idle k hk := by
    by_cases h : k = m
    · rw [h]; exact tileState_idleMember_self s
    · rw [tileState_idleMember_ne h]; exact hk
  jobs _ h := h
  now := rfl
  flt := rfl
  bonds := rfl
  mem _ := rfl
  closed h := h

theorem abortKept_idleGang (l : Nat) (s : State) : AbortKept s (idleGang l s) :=
  AbortKept.foldl (fun v m _ => abortKept_idleMember m v) s

theorem abortKept_pushRecord (q i : Nat) (c e : Word) (s : State) : AbortKept s (pushRecord q i c e s) := by
  obtain ⟨x, hx, hj⟩ := pushRecord_frame q i c e s
  rw [hx]; exact .of_same rfl hj rfl rfl rfl rfl (fun h => h)

theorem abortKept_dropJob (l : Nat) (s : State) : AbortKept s (dropJob l s) where
  regs _ _ := rfl
  idle _ h := h
  jobs _ h := (List.mem_filter.1 h).1
  now := rfl
  flt := rfl
  bonds := rfl
  mem _ := rfl
  closed h := h

theorem abortKept_setCpl {tag : Nat} {e : Cpl} (h : (cplOf s tag).st ≠ .opened → e.st ≠ .opened) : AbortKept s (setCpl tag e s) :=
  .of_same rfl rfl rfl rfl rfl rfl fun ⟨hc, hi, hb⟩ => ⟨fun k => by
    by_cases hk : k = tag
    · rw [hk, cplOf_setCpl_self]; exact h (hc tag)
    · rw [cplOf_setCpl_ne _ _ hk]; exact hc k, hi, hb⟩

theorem abortKept_release (tag : Nat) (s : State) : AbortKept s (release tag s) := by
  unfold release
  dsimp only
  split
  · exact abortKept_setCpl (fun _ => by simp)
  · exact abortKept_setCpl (fun _ => by simp [freedEntry])

/-- An operation of a gang's tile that is open when the gang is aborted. -/
def orphaned (ms : List Nat) (kv : Nat × Cpl) : Nat × Cpl :=
  let own (e : Cpl) : Bool := match e.tile with | some t => ms.contains t | none => false
  if own kv.2 && kv.2.st == .opened then (kv.1, { kv.2 with orphan := true }) else kv

/-- The tiles of an aborted gang leave the barriers. -/
def leaveBars (l : Nat) (ms : List Nat) (s : State) : State :=
  let s := { s with coll := { s.coll with bars := s.coll.bars.map (fun (b : BarInst) =>
      if b.key = BarKey.gang l then b else { b with arrived := b.arrived.filter (fun t => !ms.contains t) }) } }
  { s with coll := { s.coll with bars := s.coll.bars.filter (fun (b : BarInst) =>
      b.key ≠ BarKey.gang l && b.arrived != []) } }

/-- The job of an aborted gang, if there is one, ends. -/
def endGangJob (l : Nat) (s : State) : State :=
  match jobOf s l with
  | none => idleGang l s
  | some j => s |> dropJob l |> idleGang l |> pushRecord j.q j.idx (statusWord stAborted 0 false false false) 0

/-- A gang aborted: its operations orphaned or let go, its barriers left, its job ended. -/
theorem abortGang_eq (l : Nat) (s : State) : ∃ done : List (Nat × Cpl), abortGang l s
    = endGangJob l (leaveBars l (membersOf s l) (done.foldl (fun s kv => release kv.1 s)
        { s with cpl := s.cpl.map (orphaned (membersOf s l)) })) := by
  unfold abortGang endGangJob
  exact ⟨_, rfl⟩

theorem abortKept_orphans (ms : List Nat) (s : State) : AbortKept s { s with cpl := s.cpl.map (orphaned ms) } := by
  refine .of_same rfl rfl rfl rfl rfl rfl fun ⟨hc, hi, hb⟩ => ⟨fun k => ?_, hi, hb⟩
  have he : mget {} (s.cpl.map (orphaned ms)) k = (orphaned ms (k, cplOf s k)).2 :=
    mget_map_of_keys (fun kv => by unfold orphaned; dsimp only; split <;> rfl) (fun k => rfl) s.cpl k
  have hst : (orphaned ms (k, cplOf s k)).2.st = (cplOf s k).st := by unfold orphaned; dsimp only; split <;> rfl
  exact fun h => hc k (hst.symm.trans ((congrArg Cpl.st he).symm.trans h))

theorem abortKept_leaveBars (l : Nat) (ms : List Nat) (s : State) : AbortKept s (leaveBars l ms s) := by
  refine .of_same rfl rfl rfl rfl rfl rfl fun ⟨hc, hi, hb⟩ => ⟨hc, hi, ?_⟩
  unfold leaveBars
  simp [hb]

theorem abortKept_endGangJob (l : Nat) (s : State) : AbortKept s (endGangJob l s) := by
  unfold endGangJob
  split
  · exact abortKept_idleGang l s
  · exact ((abortKept_dropJob l s).trans (abortKept_idleGang l _)).trans (abortKept_pushRecord _ _ _ _ _)

theorem abortKept_abortGang (l : Nat) (s : State) : AbortKept s (abortGang l s) := by
  obtain ⟨done, he⟩ := abortGang_eq l s
  have hr := AbortKept.foldl (f := fun s (kv : Nat × Cpl) => release kv.1 s) (l := done)
    (fun v kv _ => abortKept_release kv.1 v) { s with cpl := s.cpl.map (orphaned (membersOf s l)) }
  rw [he]
  exact (((abortKept_orphans (membersOf s l) s).trans hr).trans (abortKept_leaveBars l _ _)).trans (abortKept_endGangJob l _)

theorem abortKept_onHq (q : Nat) (f : HQueue → HQueue) (s : State) : AbortKept s (onHq q f s) :=
  .of_same rfl rfl rfl rfl rfl rfl (fun h => h)

theorem abortKept_onTl (m : Nat) (f : Tile → Tile) (s : State) : AbortKept s (onTl m f s) :=
  .of_same rfl rfl rfl rfl rfl rfl (fun h => h)

theorem abortKept_dropEntries (tenant : Nat) (s : State) : AbortKept s (dropEntries tenant s) := by
  unfold dropEntries
  refine AbortKept.foldl (fun v q _ => ?_) s
  exact (abortKept_onHq q _ v).trans (AbortKept.foldl (fun w e _ => abortKept_pushRecord _ _ _ _ w) _)

theorem abortKept_dropStreams (tenant : Nat) (s : State) : AbortKept s (dropStreams tenant s) := by
  unfold dropStreams
  exact AbortKept.foldl (fun v t _ => abortKept_onTl t _ v) s

/-- With no operation open, none is discarded. -/
theorem dropUninjected_closed (tenant : Nat) (h : NothingOpen s) : AbortKept s (dropUninjected tenant s) := by
  have h0 : AbortKept s { s with net := { s.net with routerQ := s.net.routerQ.filter (fun e => !notInjected s tenant e) } } :=
    .of_same rfl rfl rfl rfl rfl rfl (fun h => h)
  refine h0.trans ?_
  unfold dropUninjected
  dsimp only
  generalize ({ s with net := { s.net with routerQ := s.net.routerQ.filter (fun e => !notInjected s tenant e) } } : State) = x
    at h0 ⊢
  refine (List.foldlRecOn (motive := fun v => AbortKept x v ∧ NothingOpen v) _ _ ⟨AbortKept.refl x, h0.closed h⟩ ?_).1
  rintro v ⟨hv, hn⟩ tag -
  generalize ((cplOf v tag).sent && _) = b
  have hk : AbortKept v (setCpl tag { cplOf v tag with sent := b } v) := abortKept_setCpl (fun h => h)
  have hn' := hk.closed hn
  rw [failTag_of_closed (hn'.1 tag)]
  exact ⟨hv.trans hk, hn'⟩

theorem dropUnsent_closed (tenant : Nat) (h : NothingOpen s) : dropUnsent tenant s = s := by
  unfold dropUnsent
  refine List.foldlRecOn (motive := fun v => v = s) _ _ rfl ?_
  rintro v rfl tag -
  exact failTag_of_closed (h.1 tag)

theorem endInsts_none (f : Inst → Bool) (status : Nat) (h : s.coll.insts = []) : endInsts f status s = s := by
  rw [endInsts, h]; rfl

theorem failGroupBars_none (tenant : Nat) (h : s.coll.bars = []) : failGroupBars tenant s = s := by
  rw [failGroupBars, h]; rfl

/-- Where nothing is open, the abort of a tenant ends its jobs and leaves the rest. -/
theorem abortTenant_spec (tenant : Nat) (h : NothingOpen s) : AbortKept s (abortTenant tenant s)
    ∧ (∀ j ∈ (abortTenant tenant s).host.jobs, j.tenant ≠ tenant)
    ∧ ∀ l ∈ tenantJobs s tenant, ∀ m ∈ membersOf s l, tileState (abortTenant tenant s) m = 0 := by
  obtain ⟨x, hx⟩ : ∃ x, x = (tenantJobs s tenant).foldl (fun s l => abortGang l s) s := ⟨_, rfl⟩
  have h1 : AbortKept s x := by rw [hx]; exact AbortKept.foldl (fun v l _ => abortKept_abortGang l v) s
  have h2 := (abortKept_dropEntries tenant x).trans (abortKept_dropStreams tenant _)
  have hn2 := h2.closed (h1.closed h)
  have h3 := h2.trans (dropUninjected_closed tenant hn2)
  have hn3 := h3.closed (h1.closed h)
  have he : abortTenant tenant s = dropUninjected tenant (dropStreams tenant (dropEntries tenant x)) := by
    unfold abortTenant
    dsimp only
    rw [← hx, dropUnsent_closed tenant hn3, endInsts_none _ _ hn3.2.1, failGroupBars_none tenant hn3.2.2]
  have hend : ∀ l ∈ tenantJobs s tenant, (∀ j ∈ x.host.jobs, j.leader ≠ l) ∧ ∀ m ∈ membersOf s l, tileState x m = 0 := by
    intro l hl
    obtain ⟨ls, rs, hs⟩ := List.append_of_mem hl
    rw [hx, hs, List.foldl_append, List.foldl_cons]
    have ha : AbortKept s (ls.foldl (fun s l => abortGang l s) s) := AbortKept.foldl (fun v l _ => abortKept_abortGang l v) s
    generalize ls.foldl (fun s l => abortGang l s) s = y at ha ⊢
    have hb : AbortKept (abortGang l y) (rs.foldl (fun s l => abortGang l s) (abortGang l y)) :=
      AbortKept.foldl (fun v l _ => abortKept_abortGang l v) _
    have hj := jobEnded_abortGang l y
    refine ⟨fun j hj' hl => ?_, fun m hm => hb.idle m (hj.idle m (by rw [ha.members]; exact hm)).1⟩
    exact (List.find?_eq_none.1 hj.job) j (hb.jobs j hj') (by simpa using hl)
  rw [he]
  refine ⟨h1.trans h3, fun j hj ht => ?_, fun l hl m hm => h3.idle m ((hend l hl).2 m hm)⟩
  have hjx := h3.jobs j hj
  have hl : j.leader ∈ tenantJobs s tenant := by
    rw [tenantJobs]
    exact List.mem_map.2 ⟨j, List.mem_filter.2 ⟨h1.jobs j hjx, by simpa using ht⟩, rfl⟩
  exact (hend _ hl).1 j hjx rfl

-- The flood (R392, R393)

/-- A management packet to the neighbour of a port. -/
def vc7Packet (n op : Nat) (payload : List Byte) (s : State) : Packet :=
  { dst := rdF s (Reg.neighbour n) 13 0, src := ownDev s, vc := 7, epoch := injectEpoch s, opcode := op,
    len4 := payload.length / 4, payload := payload }

theorem sendVc7_of_bond {n op b : Nat} {payload : List Byte} (h : bondOf s n = some b) : sendVc7 n op payload s
    = onBnd b (fun x => { x with queue := x.queue ++ [(32, vc7Packet n op payload s)] }) s := by
  unfold sendVc7
  dsimp only
  rw [h]
  rfl

theorem sendVc7_of_no_bond {n op : Nat} {payload : List Byte} (h : bondOf s n = none) : sendVc7 n op payload s = s := by
  unfold sendVc7
  dsimp only
  rw [h]

/-- A packet sent to a neighbour changes the bonds' queues alone. -/
theorem sendVc7_frame (n op : Nat) (payload : List Byte) (s : State) :
    ∃ x, sendVc7 n op payload s = { s with net := { s.net with bonds := x } } := by
  cases h : bondOf s n with
  | none => exact ⟨s.net.bonds, sendVc7_of_no_bond h⟩
  | some b => exact ⟨_, sendVc7_of_bond h⟩

theorem bnd_sendVc7_ne {n op b : Nat} {payload : List Byte} (h : bondOf s n ≠ some b) :
    bnd (sendVc7 n op payload s) b = bnd s b := by
  cases hn : bondOf s n with
  | none => rw [sendVc7_of_no_bond hn]
  | some k =>
    rw [sendVc7_of_bond hn]
    exact mget_mset_ne _ _ _ (fun e => h (by rw [hn, e]))

theorem sendFlood_frame (l : List Nat) (payload : List Byte) (s : State) :
    ∃ x, l.foldl (fun s n => sendVc7 n 0x72 payload s) s = { s with net := { s.net with bonds := x } } := by
  refine List.foldlRecOn (motive := fun v : State => ∃ x : Map Bond, v = { s with net := { s.net with bonds := x } }) _ _ ⟨s.net.bonds, rfl⟩ ?_
  rintro _ ⟨x, rfl⟩ n -
  obtain ⟨y, hy⟩ := sendVc7_frame n 0x72 payload { s with net := { s.net with bonds := x } }
  exact ⟨y, hy⟩

theorem bnd_sendFlood_ne {l : List Nat} {b : Nat} {payload : List Byte} (h : ∀ n ∈ l, bondOf s n ≠ some b) :
    bnd (l.foldl (fun s n => sendVc7 n 0x72 payload s) s) b = bnd s b := by
  induction l generalizing s with
  | nil => rfl
  | cons n l ih =>
    obtain ⟨x, hx⟩ := sendVc7_frame n 0x72 payload s
    rw [List.foldl_cons, ih, bnd_sendVc7_ne (h n List.mem_cons_self)]
    intro m hm
    rw [hx]
    exact h m (List.mem_cons_of_mem _ hm)

theorem bnd_sendFlood {l : List Nat} {n b : Nat} {payload : List Byte} (hp : l.Pairwise (fun n m => bondOf s n ≠ bondOf s m))
    (hn : n ∈ l) (hb : bondOf s n = some b) : (bnd (l.foldl (fun s n => sendVc7 n 0x72 payload s) s) b).queue
      = (bnd s b).queue ++ [(32, vc7Packet n 0x72 payload s)] := by
  induction l generalizing s with
  | nil => cases hn
  | cons k l ih =>
    obtain ⟨hk, hl⟩ := List.pairwise_cons.1 hp
    obtain ⟨x, hx⟩ := sendVc7_frame k 0x72 payload s
    rw [List.foldl_cons]
    rcases List.mem_cons.1 hn with rfl | hnl
    · rw [bnd_sendFlood_ne, sendVc7_of_bond hb, bnd_onBnd_self]
      intro m hm
      rw [hx]
      exact fun e => hk m hm (hb.trans e.symm)
    · have hkb : bondOf s k ≠ some b := fun e => hk n hnl (e.trans hb.symm)
      have h := ih (s := sendVc7 k 0x72 payload s) (by rw [hx]; exact hl) hnl (by rw [hx]; exact hb)
      rw [h, bnd_sendVc7_ne hkb, hx]
      rfl

/-- A flood leaves by one port of each bond. -/
theorem pairwise_floodPorts (s : State) (except : Option Nat) :
    (floodPorts s except).Pairwise (fun n m => bondOf s n ≠ bondOf s m) := by
  have hb : ∀ b n, (bondPorts s b).find? (fun n => portState s n == 4) = some n → bondOf s n = some b := fun b n h => by
    simpa using (List.mem_filter.1 (List.mem_of_find?_eq_some h)).2
  unfold floodPorts
  refine List.Pairwise.filterMap _ (R := fun a b => a ≠ b) ?_ (List.nodup_range.filter _)
  intro a a' haa n hn m hm
  rw [hb a n hn, hb a' m hm]
  exact fun e => haa (Option.some.inj e)

theorem sendFlood_spec (except : Option Nat) (payload : List Byte) (s : State) : ∀ n ∈ floodPorts s except, ∀ b, bondOf s n = some b →
    (bnd (sendFlood except payload s) b).queue = (bnd s b).queue ++ [(32, vc7Packet n 0x72 payload s)] :=
  fun _ hn _ hb => bnd_sendFlood (pairwise_floodPorts s except) hn hb

/-- Two states with the same registers of routes and ports. -/
def SameLinks (s u : State) : Prop := ∀ a, 0x70000 ≤ a → a < 0x300000 → rd u a = rd s a

theorem SameLinks.bondOf {n : Nat} (h : SameLinks s u) (hn : n < 32) : bondOf u n = bondOf s n := by
  have h1 := h Reg.preset (by decide) (by decide)
  have h2 := h Reg.routeMachine (by decide) (by decide)
  have h3 := h Reg.deviceId (by decide) (by decide)
  have h4 := h (Reg.portBond n) (by simp only [Reg.portBond]; omega) (by simp only [Reg.portBond]; omega)
  simp only [Machine.bondOf, isSpare, presetBond, presetOf, hasExternal, ringLen, ownLocal, ownDev, rdF, h1, h2, h3, h4]
  rfl

theorem SameLinks.portState {n : Nat} (h : SameLinks s u) (hn : n < 32) : portState u n = portState s n :=
  congrArg (fun w => fld w 3 0) (h _ (by simp only [Reg.portStatus, Reg.portBase]; omega)
    (by simp only [Reg.portStatus, Reg.portBase]; omega))

theorem SameLinks.bondPorts (h : SameLinks s u) (b : Nat) : bondPorts u b = bondPorts s b :=
  List.filter_congr fun n hn => by rw [h.bondOf (List.mem_range.1 hn)]

theorem lt_of_mem_bondPorts {n b : Nat} (h : n ∈ bondPorts s b) : n < 32 := List.mem_range.1 (List.mem_filter.1 h).1

theorem find?_congr_mem {α : Type} {p q : α → Bool} {l : List α} (h : ∀ x ∈ l, p x = q x) : l.find? p = l.find? q := by
  induction l with
  | nil => rfl
  | cons x l ih =>
    rw [List.find?_cons, List.find?_cons, h x List.mem_cons_self, ih fun y hy => h y (List.mem_cons_of_mem _ hy)]

theorem SameLinks.floodPorts (h : SameLinks s u) (except : Option Nat) : floodPorts u except = floodPorts s except := by
  unfold Machine.floodPorts
  congr 1
  funext b
  rw [h.bondPorts]
  exact find?_congr_mem fun n hn => by rw [h.portState (lt_of_mem_bondPorts hn)]

theorem lt_of_mem_floodPorts {n : Nat} {except : Option Nat} (h : n ∈ floodPorts s except) : n < 32 := by
  obtain ⟨b, _, hb⟩ := List.mem_filterMap.1 h
  exact lt_of_mem_bondPorts (List.mem_of_find?_eq_some hb)

theorem SameLinks.neighbour {n : Nat} (h : SameLinks s u) (hn : n < 32) :
    rdF u (Reg.neighbour n) 13 0 = rdF s (Reg.neighbour n) 13 0 :=
  congrArg (fun w => fld w 13 0) (h _ (by simp only [Reg.neighbour, Reg.portBase]; omega)
    (by simp only [Reg.neighbour, Reg.portBase]; omega))

theorem SameLinks.ownDev (h : SameLinks s u) : ownDev u = ownDev s :=
  congrArg (fun w => fld w 13 0) (h Reg.deviceId (by decide) (by decide))

theorem fld_lor (v w : Word) (hi lo : Nat) : fld (v ||| w) hi lo = fld v hi lo ||| fld w hi lo := by
  apply Nat.eq_of_testBit_eq
  intro i
  have hb : bit (v ||| w) (lo + i) = (bit v (lo + i) || bit w (lo + i)) := BitVec.getLsbD_or
  simp only [fld_testBit, Nat.testBit_or, hb]
  cases decide (i < hi + 1 - lo) <;> simp

theorem noteFlood_spec {origin seq group tenant event : Nat} (he : event < 4) :
    (∀ i < 2, event.testBit i = true → rdB (noteFlood origin seq group tenant event s) Reg.abortStatus i = true)
      ∧ rdF (noteFlood origin seq group tenant event s) Reg.abortStatus 21 14 = tenant % 256 := by
  unfold noteFlood
  refine ⟨fun i hi h => ?_, ?_⟩
  · rw [rdB, rd_wrReg_self, bit, BitVec.getLsbD_or, ← bit, ← bit, bit_wd event (by omega), h, Bool.or_true]
  · have h1 := fld_lt (rd s Reg.abortStatus) 1 0
    rw [rdF, rd_wrReg_self, fld_lor, fld_lor, fld_wd _ (by decide), fld_wd _ (by decide), fld_wd _ (by decide),
      rdF, show fld (rd s Reg.abortStatus) 1 0 / 2 ^ 14 % 2 ^ (21 + 1 - 14) = 0 by omega,
      show event / 2 ^ 14 % 2 ^ (21 + 1 - 14) = 0 by omega, Nat.or_zero, Nat.or_zero]
    omega

theorem host_originate (tenant : Nat) (s : State) : (originate tenant s).host = s.host := by
  unfold originate
  dsimp only
  split
  · rfl
  · obtain ⟨x, hx⟩ := sendFlood_frame (floodPorts (noteFlood (ownDev s) ((s.flt.floodSeq + 1) % 65536)
      (fld (rd s (Reg.abortGroup tenant)) 11 0) tenant 2 (seeFlood (ownDev s) ((s.flt.floodSeq + 1) % 65536)
      { s with flt := { s.flt with floodSeq := (s.flt.floodSeq + 1) % 65536 } })) none) _ _
    exact (congrArg State.host hx).trans rfl

/-- A flood that originates here. -/
theorem originate_spec {tenant : Nat} (h : bit (rd s (Reg.abortGroup tenant)) 63 = true) :
    (originate tenant s).flt.floodSeq = (s.flt.floodSeq + 1) % 65536 ∧ rdB (originate tenant s) Reg.abortStatus 1 = true
      ∧ rdF (originate tenant s) Reg.abortStatus 21 14 = tenant % 256
      ∧ ∀ n ∈ floodPorts s none, ∀ b, bondOf s n = some b → ∃ p, (bnd (originate tenant s) b).queue = (bnd s b).queue ++ [(32, p)]
          ∧ p.opcode = 0x72 ∧ p.vc = 7 ∧ p.dst = rdF s (Reg.neighbour n) 13 0
          ∧ p.payload = floodBytes (ownDev s) ((s.flt.floodSeq + 1) % 65536) 63 (fld (rd s (Reg.abortGroup tenant)) 11 0) tenant
              (now s) := by
  obtain ⟨seq, hs⟩ : ∃ n, n = (s.flt.floodSeq + 1) % 65536 := ⟨_, rfl⟩
  obtain ⟨g, hg⟩ : ∃ g, g = fld (rd s (Reg.abortGroup tenant)) 11 0 := ⟨_, rfl⟩
  obtain ⟨y, hy⟩ : ∃ y, y = seeFlood (ownDev s) seq { s with flt := { s.flt with floodSeq := seq } } := ⟨_, rfl⟩
  obtain ⟨z, hz⟩ : ∃ z, z = noteFlood (ownDev s) seq g tenant 2 y := ⟨_, rfl⟩
  have he : originate tenant s = sendFlood none (floodBytes (ownDev s) seq 63 g tenant (now s)) z := by
    unfold originate
    rw [if_neg (by rw [h]; decide), hz, hy, hg, hs]
    rfl
  have hl : SameLinks s z := fun a h7 _ => by
    rw [hz, noteFlood, rd_wrReg_ne _ _ (by simp only [Reg.abortStatus]; omega), hy]; rfl
  have hb : ∀ b, bnd z b = bnd s b := fun b => by rw [hz, hy]; rfl
  have hseq : z.flt.floodSeq = seq := by rw [hz, hy]; rfl
  obtain ⟨h1, h2⟩ := noteFlood_spec (s := y) (origin := ownDev s) (seq := seq) (group := g) (tenant := tenant) (event := 2)
    (by decide)
  rw [← hz] at h1 h2
  obtain ⟨x, hx⟩ := sendFlood_frame (floodPorts z none) (floodBytes (ownDev s) seq 63 g tenant (now s)) z
  have hx' : sendFlood none (floodBytes (ownDev s) seq 63 g tenant (now s)) z = { z with net := { z.net with bonds := x } } := hx
  rw [← hs, ← hg, he]
  refine ⟨by rw [hx']; exact hseq, by rw [hx']; exact h1 1 (by decide) (by decide), by rw [hx']; exact h2, fun n hn b hnb => ?_⟩
  have hn32 := lt_of_mem_floodPorts hn
  refine ⟨_, (sendFlood_spec none _ z n (by rw [hl.floodPorts]; exact hn) b ((hl.bondOf hn32).trans hnb)).trans
    (by rw [hb]), rfl, rfl, hl.neighbour hn32, rfl⟩

theorem abortGo_completes {v : Word} {g : Word} (hm : mayWrite s .operator who = true)
    (hg : g = rd s (Reg.abortGroup (fld v 7 0))) (ho : NothingOpen s) :
    Completes (.abortGo who v) s (fun u =>
      (∀ j ∈ u.host.jobs, j.tenant ≠ fld v 7 0)
        ∧ (∀ l ∈ tenantJobs s (fld v 7 0), ∀ m ∈ membersOf s l, tileState u m = 0)
        ∧ (bit g 63 = true → u.flt.floodSeq = (s.flt.floodSeq + 1) % 65536 ∧ rdB u Reg.abortStatus 1 = true
            ∧ rdF u Reg.abortStatus 21 14 = fld v 7 0
            ∧ ∀ n ∈ floodPorts s none, ∀ b, bondOf s n = some b → ∃ p, (bnd u b).queue = (bnd s b).queue ++ [(32, p)]
                ∧ p.opcode = 0x72 ∧ p.vc = 7 ∧ p.dst = rdF s (Reg.neighbour n) 13 0
                ∧ p.payload = floodBytes (ownDev s) ((s.flt.floodSeq + 1) % 65536) 63 (fld g 11 0) (fld v 7 0) (now s))
        ∧ (bit g 63 = false → u.flt = s.flt ∧ u.net.bonds = s.net.bonds) ∧ MemKept s u) := by
  obtain ⟨t, ht⟩ : ∃ t, t = fld v 7 0 := ⟨_, rfl⟩
  have h8 : t < 2 ^ (7 + 1 - 0) := ht ▸ fld_lt v 7 0
  obtain ⟨x, hx⟩ : ∃ x, x = wrReg Reg.abortCtrl (wd t) s := ⟨_, rfl⟩
  have he : exec (.abortGo who v) s = ok (originate t (abortTenant t x)) := by
    refine congrArg ok ((answered_operator hm (by decide) _).trans ?_)
    have hb : bit (setBit v 63 true) 63 = true := bit_setBit_self _ _ _ (by decide)
    have hf : fld (setBit v 63 true) 7 0 = t := by rw [fld_setBit_lt v 0 true (by decide) (by decide), ht]
    rw [hf, ← hx]
    exact if_pos hb
  have hnx : NothingOpen x := by rw [hx]; exact ho
  obtain ⟨hk, hjobs, hidle⟩ := abortTenant_spec t hnx
  generalize abortTenant t x = y at he hk hjobs hidle
  have hl : SameLinks s y := fun a h7 h3 => by
    rw [hk.regs a (fun t => by simp only [Reg.tileStatus, Reg.tileBase]; omega), hx]
    exact rd_wrReg_ne _ _ (by simp only [Reg.abortCtrl]; omega)
  have hgy : rd y (Reg.abortGroup t) = g := by
    rw [hk.regs _ (fun t => by simp only [Reg.tileStatus, Reg.tileBase, Reg.abortGroup]; omega), hx,
      rd_wrReg_ne _ _ (by simp only [Reg.abortCtrl, Reg.abortGroup]; omega), ht, hg]
  have hflt : y.flt = s.flt := hk.flt.trans (by rw [hx]; rfl)
  have hbonds : y.net.bonds = s.net.bonds := hk.bonds.trans (by rw [hx]; rfl)
  have hnow : now y = now s := by rw [now, hk.now, hx]; rfl
  have hmem : MemKept s y := fun a => (hk.mem a).trans (by rw [hx]; rfl)
  have hmx : ∀ l, membersOf x l = membersOf s l := fun l => by
    rw [hx]
    exact membersOf_congr (fun m => congrArg (fun w => fld w 8 0)
      (rd_wrReg_ne _ _ (by simp only [Reg.tileGang, Reg.tileBase, Reg.abortCtrl]; omega))) l
  have hfl := flooded_originate t y
  have hst : ∀ m, tileState (originate t y) m = tileState y m := fun m =>
    congrArg (fun w => fld w 3 0) (hfl.regs _ (by simp only [Reg.tileStatus, Reg.tileBase, Reg.abortStatus]; omega))
  have hh : (originate t y).host = y.host := host_originate t y
  rw [← ht]
  refine ⟨_, he, by rw [hh]; exact hjobs, fun l h m hm => ?_, fun h => ?_, fun h => ?_, fun a => (hfl.mem a).trans (hmem a)⟩
  · rw [hst]
    exact hidle l (by rw [hx]; exact h) m (by rw [hmx]; exact hm)
  · obtain ⟨h1, h2, h3, h4⟩ := originate_spec (s := y) (tenant := t) (by rw [hgy]; exact h)
    refine ⟨by rw [h1, hflt], h2, by rw [h3]; omega, fun n hn b hb => ?_⟩
    have hn32 := lt_of_mem_floodPorts hn
    obtain ⟨p, hp, ho, hv, hd, hpl⟩ := h4 n (by rw [hl.floodPorts]; exact hn) b ((hl.bondOf hn32).trans hb)
    refine ⟨p, ?_, ho, hv, hd.trans (hl.neighbour hn32), ?_⟩
    · rw [hp, bnd, hbonds, ← bnd]
    · rw [hpl, hl.ownDev, hflt, hgy, hnow]
  · have : originate t y = y := by
      unfold originate
      exact if_pos (by rw [hgy, h]; decide)
    rw [this]
    exact ⟨hflt, hbonds⟩

-- A flood that arrives (R393)

theorem jobAbort_ignored {n : Nat} {p : Packet} {w : Word} {time : Nat} (hw : w = leWord (p.payload.take 8))
    (ht : time = leNat ((p.payload.drop 8).take 8))
    (h : s.flt.seen.contains (fld w 63 50, fld w 49 34) = true ∨ time + 1600000 < now s) :
    Completes (.jobAbort n p) s (fun u => u = s) := by
  refine ⟨_, rfl, ?_⟩
  split
  · unfold floodArrives
    exact if_pos (by rw [← hw, ← ht]; exact h)
  · rfl

/-- What a flood does that acts here: it aborts its tenant where its group is valid, and goes on with one hop less. -/
theorem exec_jobAbort {n : Nat} {p : Packet} {w : Word} {time : Nat} (hop : p.opcode = 0x72) (hlen : p.payload.length = 16)
    (hst : portState s n = 4) (hw : w = leWord (p.payload.take 8)) (ht : time = leNat ((p.payload.drop 8).take 8))
    (hseen : s.flt.seen.contains (fld w 63 50, fld w 49 34) = false) (hnow : now s ≤ time + 1600000) {x y : State}
    (hx : x = seeFlood (fld w 63 50) (fld w 49 34) s)
    (hy : y = if (groupOf s (fld w 27 16)).valid && (groupOf s (fld w 27 16)).tenant == fld w 7 0
      then noteFlood (fld w 63 50) (fld w 49 34) (fld w 27 16) (fld w 7 0) 1 (abortTenant (fld w 7 0) x) else x) :
    exec (.jobAbort n p) s = ok (if fld w 33 28 = 0 then y
      else sendFlood (bondOf y n) (floodBytes (fld w 63 50) (fld w 49 34) (fld w 33 28 - 1) (fld w 27 16) (fld w 7 0) time) y) := by
  refine congrArg ok ((if_pos ⟨hop, hlen, hst⟩).trans ?_)
  unfold floodArrives
  rw [← hw, ← ht, if_neg (by rw [hseen]; simp; omega), ← hx]
  have hg : groupOf x (fld w 27 16) = groupOf s (fld w 27 16) := by rw [hx]; rfl
  dsimp only
  rw [hg, ← hy]

theorem seeFlood_seen (origin seq : Nat) (s : State) :
    (origin, seq) ∈ (seeFlood origin seq s).flt.seen ∧ (seeFlood origin seq s).flt.seen.length ≤ 64 := by
  have hlen : (s.flt.seen ++ [(origin, seq)]).length = s.flt.seen.length + 1 := by simp
  refine ⟨?_, ?_⟩
  · show (origin, seq) ∈ (s.flt.seen ++ [(origin, seq)]).drop _
    rw [List.drop_append_of_le_length (by omega)]
    simp
  · show ((s.flt.seen ++ [(origin, seq)]).drop _).length ≤ 64
    rw [List.length_drop]
    omega

theorem jobAbort_passes {n : Nat} {p : Packet} {w : Word} {time : Nat} (hop : p.opcode = 0x72) (hlen : p.payload.length = 16)
    (hst : portState s n = 4) (hw : w = leWord (p.payload.take 8)) (ht : time = leNat ((p.payload.drop 8).take 8))
    (hseen : s.flt.seen.contains (fld w 63 50, fld w 49 34) = false) (hnow : now s ≤ time + 1600000)
    (hno : (groupOf s (fld w 27 16)).valid = false ∨ (groupOf s (fld w 27 16)).tenant ≠ fld w 7 0) :
    Completes (.jobAbort n p) s (fun u =>
      (fld w 63 50, fld w 49 34) ∈ u.flt.seen ∧ u.flt.seen.length ≤ 64 ∧ RegsKept [] s u ∧ MemKept s u
        ∧ (fld w 33 28 = 0 → u.net = s.net)
        ∧ (fld w 33 28 ≠ 0 → ∀ m ∈ floodPorts s (bondOf s n), ∀ b, bondOf s m = some b →
            ∃ q, (bnd u b).queue = (bnd s b).queue ++ [(32, q)] ∧ q.opcode = 0x72
              ∧ q.payload = floodBytes (fld w 63 50) (fld w 49 34) (fld w 33 28 - 1) (fld w 27 16) (fld w 7 0) time)) := by
  obtain ⟨x, hx⟩ : ∃ x, x = seeFlood (fld w 63 50) (fld w 49 34) s := ⟨_, rfl⟩
  have hc : ((groupOf s (fld w 27 16)).valid && (groupOf s (fld w 27 16)).tenant == fld w 7 0) = false := by
    rcases hno with h | h <;> simp [h]
  have he := exec_jobAbort hop hlen hst hw ht hseen hnow hx (y := x) (by rw [hc]; rfl)
  obtain ⟨hs1, hs2⟩ := seeFlood_seen (fld w 63 50) (fld w 49 34) s
  rw [← hx] at hs1 hs2
  have hr : ∀ a, rd x a = rd s a := fun a => by rw [hx]; rfl
  have hb : ∀ b, bnd x b = bnd s b := fun b => by rw [hx]; rfl
  have hm : MemKept s x := fun a => by rw [hx]; rfl
  by_cases h0 : fld w 33 28 = 0
  · rw [if_pos h0] at he
    exact ⟨x, he, hs1, hs2, fun a _ => hr a, hm, fun _ => by rw [hx]; rfl, fun h => absurd h0 h⟩
  · rw [if_neg h0] at he
    have hbo : bondOf x n = bondOf s n := by rw [hx]; rfl
    have hf : floodPorts x (bondOf x n) = floodPorts s (bondOf s n) := by rw [hx]; rfl
    generalize floodBytes (fld w 63 50) (fld w 49 34) (fld w 33 28 - 1) (fld w 27 16) (fld w 7 0) time = pl at he ⊢
    obtain ⟨c, hc'⟩ : ∃ c, sendFlood (bondOf x n) pl x = { x with net := { x.net with bonds := c } } := sendFlood_frame _ pl x
    refine ⟨_, he, by rw [hc']; exact hs1, by rw [hc']; exact hs2, fun a _ => by rw [hc']; exact hr a,
      fun a => by rw [hc']; exact hm a, fun h => absurd h h0, fun _ m hmf b hmb => ?_⟩
    have hmb' : bondOf x m = some b := by rw [hx]; exact hmb
    exact ⟨_, (sendFlood_spec _ pl x m (by rw [hf]; exact hmf) b hmb').trans (by rw [hb]), rfl, rfl⟩

theorem jobAbort_aborts {n : Nat} {p : Packet} {w : Word} {time : Nat} (hop : p.opcode = 0x72) (hlen : p.payload.length = 16)
    (hst : portState s n = 4) (hw : w = leWord (p.payload.take 8)) (ht : time = leNat ((p.payload.drop 8).take 8))
    (hseen : s.flt.seen.contains (fld w 63 50, fld w 49 34) = false) (hnow : now s ≤ time + 1600000) (ho : NothingOpen s)
    (hv : (groupOf s (fld w 27 16)).valid = true) (htn : (groupOf s (fld w 27 16)).tenant = fld w 7 0) :
    Completes (.jobAbort n p) s (fun u =>
      (∀ j ∈ u.host.jobs, j.tenant ≠ fld w 7 0) ∧ rdB u Reg.abortStatus 0 = true
        ∧ rdF u Reg.abortStatus 21 14 = fld w 7 0 ∧ MemKept s u) := by
  obtain ⟨x, hx⟩ : ∃ x, x = seeFlood (fld w 63 50) (fld w 49 34) s := ⟨_, rfl⟩
  obtain ⟨t, htt⟩ : ∃ t, t = fld w 7 0 := ⟨_, rfl⟩
  have h8 : t < 2 ^ (7 + 1 - 0) := htt ▸ fld_lt w 7 0
  obtain ⟨y, hy⟩ : ∃ y, y = noteFlood (fld w 63 50) (fld w 49 34) (fld w 27 16) t 1 (abortTenant t x) := ⟨_, rfl⟩
  have he := exec_jobAbort hop hlen hst hw ht hseen hnow hx (y := y) (by rw [hv, htn, hy, htt]; simp)
  have hnx : NothingOpen x := by rw [hx]; exact ho
  obtain ⟨hk, hjobs, -⟩ := abortTenant_spec t hnx
  generalize abortTenant t x = z at hy hk hjobs
  obtain ⟨h1, h2⟩ := noteFlood_spec (s := z) (origin := fld w 63 50) (seq := fld w 49 34) (group := fld w 27 16)
    (tenant := t) (event := 1) (by decide)
  rw [← hy] at h1 h2
  have hjy : y.host = z.host := by rw [hy]; rfl
  have hmy : MemKept s y := fun a => by
    rw [hy]
    exact (hk.mem a).trans (by rw [hx]; rfl)
  rw [← htt]
  have hend : (∀ j ∈ y.host.jobs, j.tenant ≠ t) ∧ rdB y Reg.abortStatus 0 = true ∧ rdF y Reg.abortStatus 21 14 = t ∧ MemKept s y :=
    ⟨by rw [hjy]; exact hjobs, h1 0 (by decide) (by decide), by rw [h2]; omega, hmy⟩
  refine ⟨_, he, ?_⟩
  split
  · exact hend
  · generalize floodBytes (fld w 63 50) (fld w 49 34) (fld w 33 28 - 1) (fld w 27 16) (fld w 7 0) time = pl
    obtain ⟨c, hc⟩ : ∃ c, sendFlood (bondOf y n) pl y = { y with net := { y.net with bonds := c } } := sendFlood_frame _ pl y
    rw [hc]
    exact hend

theorem exec_routePacket_damaged (ecc : Syndrome) (x : TableSpot) (s : State) :
    exec (.routePacket ⟨ecc, some x⟩) s = exec (.routePacket ⟨ecc, none⟩) (damage x s) := by
  show execRoutePacket ⟨ecc, some x⟩ s = execRoutePacket ⟨ecc, none⟩ (damage x s)
  unfold execRoutePacket
  rfl

theorem faultReaction_none (h : s.flt.reactions = []) : Completes .faultReaction s (fun u => u = s) := by
  have he : exec .faultReaction s = ok s := by
    show execFaultReaction s = _
    unfold execFaultReaction
    rw [h]
  exact ⟨s, he, rfl⟩

/-- Settles O51: a clear and a force from their registers, a damaged table from its entry, a reaction from its bits, an abort
from what its parts leave where nothing is open, a flood from the one port of each bond by which it goes on. -/
theorem faultsAndAborts : Obligations.FaultsAndAborts := by
  unfold Obligations.FaultsAndAborts
  intro s
  refine ⟨fun who v hm => faultStatusClear_completes v hm, fun who i hm hi hx => faultForce_completes hm hi hx,
    faultReaction_none, fun ecc x => exec_routePacket_damaged ecc x s, fun ecc x hq => damaged_completes ecc x hq, fun r rest h => ⟨fun hb => ?_, ?_, ?_⟩,
    fun who v g hm hg ho => abortGo_completes hm hg ho, fun n p w time hop hlen hst hw ht => ⟨?_, ?_, ?_⟩⟩
  · exact faultReaction_silent h hb
  · exact fun hb _ hx => faultReaction_interrupts h hb hx
  · exact fun p hb h18 hpart hp hf => faultReaction_fences h hb h18 hpart hp hf
  · exact jobAbort_ignored hw ht
  · exact jobAbort_passes hop hlen hst hw ht
  · exact jobAbort_aborts hop hlen hst hw ht

end Sys2Proof.Machine
end

section
/-! PROOFS. Groups: an update accepted, refused, committed, a group deleted, the old epoch aborted (R291, R292). -/

namespace Sys2Proof.Machine

variable {s u x : State} {who : Writer} {v : Word} {g : Nat}

-- A write of COLL.UPDATE_CTRL

/-- COLL.UPDATE_CTRL as a write of it leaves it. -/
def groupCtrlSet (v : Word) (s : State) : State := wrReg Reg.collUpdateCtrl (wd (fld v 59 48 * 2 ^ 48 + fld v 13 0)) s

/-- The command that a write of COLL.UPDATE_CTRL names. -/
def groupCommand (v : Word) (s : State) : Bool × State :=
  if bit v 63 then groupUpdate (fld v 59 48) (fld v 13 0) s
  else if bit v 62 then groupRemove (fld v 59 48) s else abortOldNow s

/-- The command with its entry in the log. -/
def groupLogged (who : Writer) (v : Word) (s : State) : State :=
  let g := fld v 59 48
  let old := groupContent s (groupOf s g)
  let r := groupCommand v s
  if bit v 61 then r.2
  else if r.1 then logWrite who (Reg.stageGroup 0) 0 old (groupContent r.2 (groupOf r.2 g)) r.2
  else logWrite who Reg.collUpdateCtrl 2 [] [] r.2

theorem groupLogged_frame (who : Writer) (v : Word) (s : State) :
    ∃ au n, groupLogged who v s = withAudit au n (groupCommand v s).2 := by
  unfold groupLogged
  dsimp only
  split
  · exact ⟨_, _, rfl⟩
  · split
    · obtain ⟨au, h⟩ := logWrite_frame who (Reg.stageGroup 0) 0 (groupContent s (groupOf s (fld v 59 48)))
        (groupContent (groupCommand v s).2 (groupOf (groupCommand v s).2 (fld v 59 48))) (groupCommand v s).2
      exact ⟨au, _, h⟩
    · obtain ⟨au, h⟩ := logWrite_frame who Reg.collUpdateCtrl 2 [] [] (groupCommand v s).2
      exact ⟨au, _, h⟩

theorem groupCtrlDo_eq (hm : mayWrite s .operator who = true) (hn : popCount (fld v 63 61) 3 = 1) :
    groupCtrlDo who v s = (stOk, logOutcome .operator who Reg.collUpdateCtrl true (groupLogged who v (groupCtrlSet v s))) := by
  unfold groupCtrlDo
  dsimp only
  rw [if_neg (by simp [hm]), hn]
  unfold withRoleDo withRole
  rw [if_pos hm]
  rfl

/-- A permitted write of one command leaves what the command leaves, but for the log and the writer's answer. -/
theorem answered_groupCtrl (hm : mayWrite s .operator who = true) (hn : popCount (fld v 63 61) 3 = 1) :
    ∃ au n o, answered who Reg.collUpdateCtrl (groupCtrlWrite who v s)
      = { withAudit au n (groupCommand v (groupCtrlSet v s)).2 with out := o } := by
  obtain ⟨au, n, h1⟩ := groupLogged_frame who v (groupCtrlSet v s)
  obtain ⟨au', n', h2⟩ := logOutcome_frame .operator who (a := Reg.collUpdateCtrl) (by decide) true
    (groupLogged who v (groupCtrlSet v s))
  have h3 := groupCtrlDo_eq hm hn
  rw [h2, h1] at h3
  unfold groupCtrlWrite unlicensedIf answered
  rw [h3]
  dsimp only
  split
  · split <;> exact ⟨au', n', _, rfl⟩
  · exact ⟨au', n', _, rfl⟩

theorem group_completes {c : Instr} {post : State → Prop} (hm : mayWrite s .operator who = true)
    (hn : popCount (fld v 63 61) 3 = 1)
    (hc : exec c s = ok (answered who Reg.collUpdateCtrl (groupCtrlWrite who v s)))
    (h : ∀ au n o, post { withAudit au n (groupCommand v (groupCtrlSet v s)).2 with out := o }) : Completes c s post := by
  obtain ⟨au, n, o, ha⟩ := answered_groupCtrl hm hn
  exact ⟨_, hc.trans (congrArg ok ha), h au n o⟩

theorem command_fields (v : Word) {k : Nat} (hk : k < 8) : fld (setFld v 63 61 k) 63 61 = k
    ∧ fld (setFld v 63 61 k) 59 48 = fld v 59 48 ∧ fld (setFld v 63 61 k) 13 0 = fld v 13 0
    ∧ bit (setFld v 63 61 k) 63 = k.testBit 2 ∧ bit (setFld v 63 61 k) 62 = k.testBit 1 := by
  refine ⟨?_, fld_setFld_other _ _ _ _ _ _ (by decide) (by decide) (by decide),
    fld_setFld_other _ _ _ _ _ _ (by decide) (by decide) (by decide), ?_, ?_⟩
  · rw [fld_setFld _ _ _ _ (by decide) (by decide)]; omega
  · rw [bit_setFld _ _ _ _ _ (by decide) (by decide)]; rfl
  · rw [bit_setFld _ _ _ _ _ (by decide) (by decide)]; rfl

theorem command_go (v : Word) (s : State) : groupCommand (setFld v 63 61 4) (groupCtrlSet (setFld v 63 61 4) s)
    = groupUpdate (fld v 59 48) (fld v 13 0) (groupCtrlSet v s) := by
  obtain ⟨-, h2, h3, h4, -⟩ := command_fields v (k := 4) (by decide)
  unfold groupCommand groupCtrlSet
  rw [h2, h3, h4, if_pos (by decide)]

theorem command_delete (v : Word) (s : State) : groupCommand (setFld v 63 61 2) (groupCtrlSet (setFld v 63 61 2) s)
    = groupRemove (fld v 59 48) (groupCtrlSet v s) := by
  obtain ⟨-, h2, h3, h4, h5⟩ := command_fields v (k := 2) (by decide)
  unfold groupCommand groupCtrlSet
  rw [h2, h3, h4, h5, if_neg (by decide), if_pos (by decide)]

theorem command_abortOld (v : Word) (s : State) : groupCommand (setFld v 63 61 1) (groupCtrlSet (setFld v 63 61 1) s)
    = abortOldNow (groupCtrlSet v s) := by
  obtain ⟨-, h2, h3, h4, h5⟩ := command_fields v (k := 1) (by decide)
  unfold groupCommand groupCtrlSet
  rw [h2, h3, h4, h5, if_neg (by decide), if_neg (by decide)]

theorem popCount_command {k : Nat} (hk : k = 4 ∨ k = 2 ∨ k = 1) : popCount (fld (setFld v 63 61 k) 63 61) 3 = 1 := by
  rw [(command_fields v (by omega)).1]
  rcases hk with rfl | rfl | rfl <;> rfl

-- The entry of an update (R290)

/-- The entry that an accepted update installs. -/
def newGroup (s : State) (g : Nat) (w0 w1 : Word) (list : List Nat) (first : Nat) : Group :=
  let shape := stagedShape w1 list.length
  { w0 := groupWord0 s g w0 (isCube s (shapeOf shape) list) list.length (pickEngine s) first,
    w1 := wd (max 64 (fld w1 63 48) * 2 ^ 48 + shape.toNat) }

theorem groupUpdate_accepts {m n first : Nat} {l list : List Nat} {w0 w1 : Word} (hw0 : w0 = rd s (Reg.stageGroup 0))
    (hw1 : w1 = rd s (Reg.stageGroup 1)) (hl : l = (List.range m).map (stagedMember s)) (hn : n = list.length)
    (hd : s.coll.drain = none) (hm1 : 1 ≤ m) (hm2 : m ≤ 8192) (hb : bit w0 63 = true) (hu1 : 1 ≤ fld w0 33 26)
    (hu2 : fld w0 33 26 ≤ 64) (hfine : ∀ y ∈ l, memberFine y = true) (ht : tenantOk s (fld w0 59 52) = true)
    (hf : flattenGroup s (fld w0 59 52) l = some list) (hn1 : n ≤ 65536) (hn2 : fld w1 31 0 = 0 → n ≤ 256)
    (hs : (shapeOf (stagedShape w1 n)).foldl (fun a b => a * b) 1 = n) (hr : freeRun s n = some first)
    (hold : (groupOf s g).valid = false) (he : fld w0 33 26 ≤ engineFree s (pickEngine s)) :
    groupUpdate g m s = (true, acceptGroup g (newGroup s g w0 w1 list first) (writeStore first list s)) := by
  have hany : l.any (fun y => !memberFine y) = false := by
    rw [List.any_eq_false]
    intro y hy
    simp [hfine y hy]
  unfold groupUpdate
  dsimp only
  rw [← hw0, ← hw1, ← hl, if_neg (by rw [hd]; simp), if_neg (by omega), if_neg (by rw [hb, hany]; simp; omega),
    if_neg (by rw [ht]; decide), hf]
  dsimp only
  rw [← hn, if_neg (by omega), if_neg (by rw [hs]; simp; intro h; exact hn2 h), hr]
  dsimp only
  rw [hold, Bool.false_and, if_neg (by simp; omega)]
  unfold newGroup
  dsimp only
  rw [← hn]

theorem pickEngine_lt (s : State) : pickEngine s < 4 :=
  List.foldlRecOn (motive := fun b => b < 4) _ _ (by decide) fun b hb e he => by
    split
    · exact List.mem_range.1 he
    · exact hb

theorem freeRun_le {n first : Nat} (h : freeRun s n = some first) : first + n ≤ 262144 := by
  have := List.find?_some h
  simp only [Bool.and_eq_true, decide_eq_true_eq] at this
  exact this.1

theorem groupWord_fields {e c t n k b f : Nat} (he : e < 2) (hc : c = 0 ∨ c = 2 ^ 61) (ht : t < 2 ^ 8) (hn : n < 2 ^ 16)
    (hk : k < 4) (hb : b < 2 ^ 8) (hf : f < 2 ^ 18) {w : Word}
    (hw : w = wd (2 ^ 63 + e * 2 ^ 62 + c + t * 2 ^ 52 + n * 2 ^ 36 + k * 2 ^ 34 + b * 2 ^ 26 + f)) :
    bit w 63 = true ∧ fld w 62 62 = e ∧ fld w 59 52 = t ∧ fld w 51 36 = n := by
  subst hw
  have h63 : (2 ^ 63 + e * 2 ^ 62 + c + t * 2 ^ 52 + n * 2 ^ 36 + k * 2 ^ 34 + b * 2 ^ 26 + f)
      = 2 ^ 63 + (e * 2 ^ 62 + c + t * 2 ^ 52 + n * 2 ^ 36 + k * 2 ^ 34 + b * 2 ^ 26 + f) := by omega
  refine ⟨?_, ?_, ?_, ?_⟩
  · rw [bit_wd _ (by decide), h63, Nat.testBit_two_pow_add_eq, Nat.testBit_lt_two_pow (by omega)]; rfl
  · rw [fld_wd _ (by decide)]; omega
  · rw [fld_wd _ (by decide)]; omega
  · rw [fld_wd _ (by decide)]; omega

theorem newGroup_fields {n first : Nat} {list : List Nat} {w0 w1 : Word} (hn : n = list.length) (h1 : 1 ≤ n) (h2 : n ≤ 65536)
    (hr : freeRun s n = some first) : (newGroup s g w0 w1 list first).valid = true
      ∧ (newGroup s g w0 w1 list first).epoch = 1 - (groupOf s g).epoch ∧ (newGroup s g w0 w1 list first).count = n
      ∧ (newGroup s g w0 w1 list first).tenant = fld w0 59 52 := by
  have hle := freeRun_le hr
  obtain ⟨q1, q2, q3, q4⟩ := groupWord_fields (e := 1 - (groupOf s g).epoch)
    (c := if isCube s (shapeOf (stagedShape w1 list.length)) list then 2 ^ 61 else 0) (t := fld w0 59 52) (n := n - 1)
    (k := pickEngine s) (b := fld w0 33 26) (f := first) (w := (newGroup s g w0 w1 list first).w0)
    (by omega) (by split <;> simp) (fld_lt w0 59 52) (by omega) (pickEngine_lt s) (fld_lt w0 33 26) (by omega)
    (by rw [hn]; rfl)
  refine ⟨q1, q2, ?_, q3⟩
  rw [Group.count, q4]
  omega

theorem mget_store_writeStore_lt {a k : Nat} (h : k < a) (l : List Nat) (s : State) :
    mget 0 (writeStore a l s).coll.store k = mget 0 s.coll.store k := by
  induction l generalizing a s with
  | nil => rfl
  | cons m l ih =>
    rw [writeStore, ih (by omega)]
    exact mget_mset_ne _ _ _ (by omega)

theorem mget_store_writeStore (a : Nat) (l : List Nat) (s : State) (k : Nat) (h : k < l.length) :
    mget 0 (writeStore a l s).coll.store (a + k) = BitVec.ofNat 32 l[k] := by
  induction l generalizing a s k with
  | nil => cases h
  | cons m l ih =>
    rw [writeStore]
    cases k with
    | zero =>
      rw [mget_store_writeStore_lt (by omega)]
      exact mget_mset_self ..
    | succ k =>
      rw [show a + (k + 1) = a + 1 + k by omega]
      exact ih _ _ _ (Nat.lt_of_succ_lt_succ h)

theorem writeStore_frame (a : Nat) (l : List Nat) (s : State) :
    ∃ y, writeStore a l s = { s with coll := { s.coll with store := y } } := by
  induction l generalizing a s with
  | nil => exact ⟨s.coll.store, rfl⟩
  | cons m l ih =>
    obtain ⟨y, h⟩ := ih (a + 1) { s with coll := { s.coll with store := mset 0 s.coll.store a (BitVec.ofNat 32 m) } }
    exact ⟨y, h⟩

/-- What the acceptance of an update leaves. -/
theorem acceptGroup_spec (g : Nat) (new : Group) (s : State) : groupOf (acceptGroup g new s) g = new
    ∧ (acceptGroup g new s).coll.drain = some (g, groupOf s g) ∧ (acceptGroup g new s).coll.store = s.coll.store
    ∧ rdF (acceptGroup g new s) Reg.collUpdateStatus 1 0 = 1 ∧ MemKept s (acceptGroup g new s) :=
  ⟨mget_mset_self .., rfl, rfl, rdF_wrF_fits _ _ (by decide) (by decide) (by decide), fun _ => rfl⟩

theorem stagedMember_groupCtrlSet {i : Nat} : stagedMember (groupCtrlSet v s) i = stagedMember s i := by
  unfold stagedMember groupCtrlSet
  rw [rd_wrReg_ne _ _ (by simp only [Reg.stageMember, Reg.collUpdateCtrl]; omega)]

/-- The end of an accepted update: its entry, its members, what drains (R292). -/
theorem groupGo_completes {m n first : Nat} {l list : List Nat} {w0 w1 : Word} (hmay : mayWrite s .operator who = true)
    (hg : g = fld v 59 48) (hm : m = fld v 13 0) (hw0 : w0 = rd s (Reg.stageGroup 0)) (hw1 : w1 = rd s (Reg.stageGroup 1))
    (hl : l = (List.range m).map (stagedMember s)) (hn : n = list.length) (hd : s.coll.drain = none) (hm1 : 1 ≤ m)
    (hm2 : m ≤ 8192) (hb : bit w0 63 = true) (hu1 : 1 ≤ fld w0 33 26)
    (hu2 : fld w0 33 26 ≤ 64) (hfine : ∀ y ∈ l, memberFine y = true) (ht : tenantOk s (fld w0 59 52) = true)
    (hf : flattenGroup s (fld w0 59 52) l = some list) (hn1 : n ≤ 65536) (hn2 : fld w1 31 0 = 0 → n ≤ 256)
    (hs : (shapeOf (stagedShape w1 n)).foldl (fun a b => a * b) 1 = n) (hr : freeRun s n = some first)
    (hold : (groupOf s g).valid = false) (he : fld w0 33 26 ≤ engineFree s (pickEngine s)) :
    Completes (.groupGo who v) s (fun u =>
      (groupOf u g).valid = true ∧ (groupOf u g).epoch = 1 - (groupOf s g).epoch ∧ (groupOf u g).count = n
        ∧ (groupOf u g).tenant = fld w0 59 52 ∧ (∀ k (h : k < list.length), mget 0 u.coll.store (first + k)
            = BitVec.ofNat 32 list[k])
        ∧ u.coll.drain = some (g, groupOf s g) ∧ rdF u Reg.collUpdateStatus 1 0 = 1 ∧ MemKept s u) := by
  refine group_completes hmay (popCount_command (Or.inl rfl)) rfl fun au k o => ?_
  rw [command_go, ← hg, ← hm]
  have h1n : 1 ≤ n := by
    have h : ∀ q : Nat, 1 ≤ q + 1 := fun q => by omega
    rw [← hs, shapeOf]
    simp only [List.foldl_cons, List.foldl_nil, Nat.one_mul]
    exact Nat.mul_pos (Nat.mul_pos (Nat.mul_pos (h _) (h _)) (h _)) (h _)
  obtain ⟨y, hy⟩ : ∃ y, y = groupCtrlSet v s := ⟨_, rfl⟩
  have hreg : ∀ a, a ≠ Reg.collUpdateCtrl → rd y a = rd s a := fun a ha => by rw [hy]; exact rd_wrReg_ne _ _ ha
  have hcoll : y.coll = s.coll := by rw [hy]; rfl
  have hgo : ∀ k, groupOf y k = groupOf s k := fun k => by rw [groupOf, hcoll, ← groupOf]
  have hef : ∀ e, engineFree y e = engineFree s e := fun e => by rw [hy]; rfl
  have hpe : pickEngine y = pickEngine s := by rw [hy]; rfl
  have hacc := groupUpdate_accepts (s := y) (g := g) (w0 := w0) (w1 := w1) (l := l) (list := list) (first := first)
    (hw0.trans (hreg _ (by decide)).symm) (hw1.trans (hreg _ (by decide)).symm)
    (hl.trans (List.map_congr_left fun i _ => by rw [hy, stagedMember_groupCtrlSet])) hn (by rw [hcoll]; exact hd) hm1 hm2 hb hu1
    hu2 hfine (by rw [tenantOk, rdF, hreg _ (by decide)]; exact ht) (by rw [hy]; exact hf) hn1 hn2 hs (by rw [hy]; exact hr)
    (by rw [hgo]; exact hold) (by rw [hef, hpe]; exact he)
  rw [← hy, hacc]
  obtain ⟨q1, q2, q3, q4⟩ := newGroup_fields (s := y) (g := g) (w0 := w0) (w1 := w1) hn h1n hn1 (by rw [hy]; exact hr)
  rw [hgo] at q2
  generalize newGroup y g w0 w1 list first = new at q1 q2 q3 q4
  obtain ⟨st, hst⟩ := writeStore_frame first list y
  obtain ⟨a1, a2, a3, a4, a5⟩ := acceptGroup_spec g new (writeStore first list y)
  have hgw : groupOf (writeStore first list y) g = groupOf s g := by rw [hst]; exact hgo g
  have hmw : MemKept s (writeStore first list y) := fun a => by rw [hst, hy]; rfl
  have hsw := mget_store_writeStore first list y
  rw [hgw] at a2
  generalize writeStore first list y = z at a1 a2 a3 a4 a5 hmw hsw
  generalize acceptGroup g new z = w at a1 a2 a3 a4 a5
  have hw : groupOf { withAudit au k w with out := o } g = new := a1
  rw [hw]
  exact ⟨q1, q2, q3, q4, fun k h => (congrArg (fun m => mget 0 m (first + k)) a3).trans (hsw k h), a2, a4,
    fun a => (a5 a).trans (hmw a)⟩

theorem groupGo_refused (hmay : mayWrite s .operator who = true) (hd : s.coll.drain ≠ none) :
    Completes (.groupGo who v) s (fun u =>
      u.coll = s.coll ∧ rdF u Reg.collUpdateStatus 11 8 = 1 ∧ rdB u Reg.collUpdateStatus 2 = true ∧ MemKept s u) := by
  refine group_completes hmay (popCount_command (Or.inl rfl)) rfl fun au k o => ?_
  obtain ⟨y, hy⟩ : ∃ y, y = groupCtrlSet v s := ⟨_, rfl⟩
  have hu : (groupUpdate (fld v 59 48) (fld v 13 0) y).2 = refuseGroup 1 y := by
    unfold groupUpdate
    rw [if_pos (by rw [hy]; exact hd)]
  rw [command_go, ← hy, hu]
  refine ⟨by rw [hy]; rfl, ?_, rdB_orReg_pow _ _ (i := 2) (by decide), fun a => by rw [hy]; rfl⟩
  have h2 : rdF (refuseGroup 1 y) Reg.collUpdateStatus 11 8 = rdF (wrF Reg.collUpdateStatus 11 8 1 y) Reg.collUpdateStatus 11 8 :=
    rdF_orReg_pow_other (i := 2) _ _ (by decide)
  exact h2.trans (rdF_wrF_fits _ _ (by decide) (by decide) (by decide))

theorem groupDelete_completes (hmay : mayWrite s .operator who = true) (hg : g = fld v 59 48) (hd : s.coll.drain = none)
    (hv : (groupOf s g).valid = true) : Completes (.groupDelete who v) s (fun u =>
      (groupOf u g).valid = false ∧ (groupOf u g).epoch = 1 - (groupOf s g).epoch
        ∧ u.coll.drain = some (g, groupOf s g) ∧ rdF u Reg.collUpdateStatus 1 0 = 1 ∧ MemKept s u) := by
  refine group_completes hmay (popCount_command (Or.inr (Or.inl rfl))) rfl fun au k o => ?_
  obtain ⟨y, hy⟩ : ∃ y, y = groupCtrlSet v s := ⟨_, rfl⟩
  have hgo : groupOf y g = groupOf s g := by rw [hy]; rfl
  have hu : (groupRemove g y).2 = acceptGroup g { w0 := wd ((1 - (groupOf s g).epoch) * 2 ^ 62) } y := by
    unfold groupRemove
    rw [hgo]
    dsimp only
    rw [if_neg (by rw [hy]; simpa [groupCtrlSet] using hd), if_neg (by rw [hv]; decide)]
  have hle : (groupOf s g).epoch < 2 := fld_lt _ 62 62
  have hnew : ∀ e < 2, ∀ x : Group, x = { w0 := wd (e * 2 ^ 62) } → x.valid = false ∧ x.epoch = e := by
    intro e he x hx
    subst hx
    interval_cases e <;> decide
  obtain ⟨n1, n2⟩ := hnew (1 - (groupOf s g).epoch) (by omega) _ rfl
  rw [command_delete, ← hg, ← hy, hu]
  generalize ({ w0 := wd ((1 - (groupOf s g).epoch) * 2 ^ 62) } : Group) = new at n1 n2
  obtain ⟨a1, a2, -, a4, a5⟩ := acceptGroup_spec g new y
  rw [hgo] at a2
  generalize acceptGroup g new y = w at a1 a2 a4 a5
  have hw : groupOf { withAudit au k w with out := o } g = new := a1
  rw [hw]
  exact ⟨n1, n2, a2, a4, fun a => (a5 a).trans (by rw [hy]; rfl)⟩

-- ABORT_OLD (R292)

theorem coll_endInst (i : Inst) (status : Nat) (s : State) : (endInst i status s).coll = (dropInst i s).coll := by
  by_cases h : i.sub = 6
  · unfold endInst; rw [if_pos h]
  · rw [endInst_eq h]
    have h1 : (tellOwed (owedPairs s i) i status s).coll = s.coll := (aside_tellOwed _ i status s).coll
    refine (aside_failTag i.tag status i.late _).coll.trans ?_
    unfold dropInst
    rw [← h1]
    rfl

theorem drain_endInst (i : Inst) (status : Nat) (s : State) : (endInst i status s).coll.drain = s.coll.drain :=
  (congrArg Coll.drain (coll_endInst i status s)).trans rfl

theorem sameInst_comm (i j : Inst) : sameInst i j = sameInst j i := by
  unfold sameInst
  rw [BEq.comm (a := i.gid), BEq.comm (a := i.num), BEq.comm (a := i.pos), BEq.comm (a := i.epoch), BEq.comm (a := i.sub == 6)]

theorem mem_insts_endInst {i j : Inst} {status : Nat} (h : j ∈ (endInst i status s).coll.insts) :
    j ∈ s.coll.insts ∧ sameInst i j = false := by
  rw [coll_endInst] at h
  obtain ⟨h1, h2⟩ := List.mem_filter.1 h
  refine ⟨h1, ?_⟩
  exact (sameInst_comm i j).trans (Bool.not_eq_true' _ ▸ h2)

theorem sameInst_self (i : Inst) : sameInst i i = true := by simp [sameInst]

/-- Instances that a test picks have ended; none is new. -/
theorem insts_endInsts (f : Inst → Bool) (status : Nat) (s : State) :
    (∀ j ∈ (endInsts f status s).coll.insts, j ∈ s.coll.insts ∧ f j = false)
      ∧ (endInsts f status s).coll.drain = s.coll.drain := by
  have hgen : ∀ (l : List Inst) (v : State), (∀ j ∈ (l.foldl (fun s i => endInst i status s) v).coll.insts,
      j ∈ v.coll.insts ∧ j ∉ l) ∧ (l.foldl (fun s i => endInst i status s) v).coll.drain = v.coll.drain := by
    intro l
    induction l with
    | nil => exact fun v => ⟨fun j hj => ⟨hj, by simp⟩, rfl⟩
    | cons i l ih =>
      intro v
      obtain ⟨h1, h2⟩ := ih (endInst i status v)
      rw [List.foldl_cons]
      refine ⟨fun j hj => ?_, h2.trans (drain_endInst i status v)⟩
      obtain ⟨h3, h4⟩ := h1 j hj
      obtain ⟨h5, h6⟩ := mem_insts_endInst h3
      refine ⟨h5, fun h => ?_⟩
      rcases List.mem_cons.1 h with rfl | h
      · rw [sameInst_self] at h6; cases h6
      · exact h4 h
  obtain ⟨h1, h2⟩ := hgen (s.coll.insts.filter f) s
  refine ⟨fun j hj => ?_, h2⟩
  obtain ⟨h3, h4⟩ := h1 j hj
  refine ⟨h3, ?_⟩
  cases hf : f j
  · rfl
  · exact absurd (List.mem_filter.2 ⟨h3, hf⟩) h4

theorem aside_failMember (t d pd : Nat) (s : State) : Aside s (failMember t d pd s) :=
  ((Aside.refl s).onTl t _).resume t

theorem aside_failWaiters (l : List Nat) (s : State) : Aside s (failWaiters l s) := by
  refine Aside.foldl l (fun v t => ?_) s
  split
  · split
    · exact aside_failMember _ _ _ v
    · exact (Aside.refl v).onTl t _
  · exact Aside.refl v

theorem insts_failOldBars (g epoch : Nat) (s : State) : (failOldBars g epoch s).coll.insts = s.coll.insts
    ∧ (failOldBars g epoch s).coll.drain = s.coll.drain := by
  refine List.foldlRecOn (motive := fun v : State => v.coll.insts = s.coll.insts ∧ v.coll.drain = s.coll.drain) _ _
    ⟨rfl, rfl⟩ fun v hv b _ => ?_
  have h := (aside_failWaiters b.arrived { v with coll := { v.coll with bars := v.coll.bars.erase b } }).coll
  exact ⟨(congrArg Coll.insts h).trans hv.1, (congrArg Coll.drain h).trans hv.2⟩

theorem abortOld_completes {old : Group} (hmay : mayWrite s .operator who = true) (hd : s.coll.drain = some (g, old)) :
    Completes (.abortOld who v) s (fun u =>
      (∀ i ∈ u.coll.insts, ¬ (i.gid = g ∧ i.epoch = old.epoch)) ∧ u.coll.drain = s.coll.drain) := by
  refine group_completes hmay (popCount_command (Or.inr (Or.inr rfl))) rfl fun au k o => ?_
  obtain ⟨y, hy⟩ : ∃ y, y = groupCtrlSet v s := ⟨_, rfl⟩
  have hdy : y.coll.drain = some (g, old) := by rw [hy]; exact hd
  have hu : (abortOldNow y).2 = failOldBars g old.epoch (endInsts (fun i => i.gid == g && i.epoch == old.epoch) 0x043 y) := by
    unfold abortOldNow
    rw [hdy]
  rw [command_abortOld, ← hy, hu]
  obtain ⟨h1, h2⟩ := insts_endInsts (fun i => i.gid == g && i.epoch == old.epoch) 0x043 y
  generalize endInsts (fun i => i.gid == g && i.epoch == old.epoch) 0x043 y = z at h1 h2
  obtain ⟨h3, h4⟩ := insts_failOldBars g old.epoch z
  generalize failOldBars g old.epoch z = w at h3 h4
  refine ⟨fun i hi => ?_, h4.trans (h2.trans (hdy.trans hd.symm))⟩
  have hi' : i ∈ z.coll.insts := h3 ▸ hi
  have := (h1 i hi').2
  intro ⟨ha, hb⟩
  rw [ha, hb] at this
  simp at this

-- The commit (R292)

theorem groupUpdateCommit_completes (hd : s.coll.drain ≠ none) (ho : oldInsts s = 0) : Completes .groupUpdateCommit s (fun u =>
    u.coll.drain = none ∧ u.coll.groups = s.coll.groups ∧ rdF u Reg.collUpdateStatus 1 0 = 2
      ∧ rdF u Reg.collUpdateStatus 63 48 = (rdF s Reg.collUpdateStatus 63 48 + 1) % 65536
      ∧ rdB u Reg.collEvent 0 = true ∧ MemKept s u) := by
  obtain ⟨c, hc, hc1, hc2⟩ : ∃ c : Coll, groupCommit s = orReg Reg.collEvent 1 (addWrap Reg.collUpdateStatus 63 48 1
      (wrF Reg.collUpdateStatus 1 0 2 { s with coll := c })) ∧ c.drain = none ∧ c.groups = s.coll.groups := by
    unfold groupCommit
    rw [if_neg (by rintro (h | h); exacts [hd h, h ho])]
    exact ⟨_, rfl, rfl, rfl⟩
  obtain ⟨y, hy⟩ : ∃ y, y = wrF Reg.collUpdateStatus 1 0 2 { s with coll := c } := ⟨_, rfl⟩
  rw [← hy] at hc
  have hy1 : rdF y Reg.collUpdateStatus 1 0 = 2 := by
    rw [hy]; exact rdF_wrF_fits _ _ (by decide) (by decide) (by decide)
  have hy2 : rdF y Reg.collUpdateStatus 63 48 = rdF s Reg.collUpdateStatus 63 48 := by
    rw [hy]; exact rdF_wrF_other _ _ _ _ _ _ _ (by decide) (by decide) (by decide)
  refine ⟨groupCommit s, rfl, ?_⟩
  rw [hc]
  refine ⟨by rw [hy]; exact hc1, by rw [hy]; exact hc2, ?_, ?_, rdB_orReg_pow _ _ (i := 0) (by decide), fun a => by rw [hy]; rfl⟩
  · rw [rdF_orReg_ne _ _ _ _ (by decide), addWrap, rdF_wrF_other _ _ _ _ _ _ _ (by decide) (by decide) (by decide), hy1]
  · rw [rdF_orReg_ne _ _ _ _ (by decide), rdF_addWrap_self _ _ _ _ _ (by decide) (by decide), hy2]; rfl

/-- Settles O40: a write of COLL.UPDATE_CTRL runs its command; GO and DELETE install an entry and begin the drain, ABORT_OLD
ends what the drain waits for, and the commit closes it. -/
theorem groupUpdates : Obligations.GroupUpdates := by
  unfold Obligations.GroupUpdates
  intro who s v g hmay hg
  refine ⟨?_, groupGo_refused hmay, groupDelete_completes hmay hg, fun old => abortOld_completes hmay, groupUpdateCommit_completes⟩
  intro m l list first w0 w1 n hm hw0 hw1 hl hn hd hm1 hm2 hb hu1 hu2 hfine ht hf hn1 hn2 hs hr hold he
  exact groupGo_completes hmay hg hm hw0 hw1 hl hn hd hm1 hm2 hb hu1 hu2 hfine ht hf hn1 hn2 hs hr hold he

end Sys2Proof.Machine
end

section
/-! PROOFS. Collective packets: a chunk joins its instance, an abort ends it, an early packet waits, a stale one is
discarded (R298–R306, R312). -/

namespace Sys2Proof.Machine

variable {s u : State} {p : Packet} {c : Instr} {op : Nat} {i : Inst} {x : Group}

theorem cpl_inject (p : Packet) (s : State) : (inject p s).cpl = s.cpl := by
  unfold inject
  dsimp only
  split <;> rfl

theorem cpl_tellOwed (owed : List (Group × Nat)) (i : Inst) (status : Nat) (s : State) :
    (tellOwed owed i status s).cpl = s.cpl := by
  have h1 : (owed.foldl (fun s xq => sendAbort xq.1 i status xq.2 s) s).cpl = s.cpl :=
    List.foldlRecOn (motive := fun v : State => v.cpl = s.cpl) _ _ rfl fun v hv q _ => (cpl_inject _ v).trans hv
  unfold tellOwed
  dsimp only
  split <;> split <;> exact h1

/-- An instance that ends completes its member's tag (R306). -/
theorem finished_endInst {status : Nat} (h6 : i.sub ≠ 6) (ho : (cplOf s i.tag).st = .opened) (hd : (cplOf s i.tag).damaged = false) :
    Finished i.tag (statusWord status 0 false false i.late) s (endInst i status s) := by
  rw [endInst_eq h6]
  obtain ⟨y, hy⟩ : ∃ y, y = dropStaged i (addSat Reg.collErrCount 15 0 1 (dropInst i (tellOwed (owedPairs s i) i status s))) :=
    ⟨_, rfl⟩
  have hc : cplOf y i.tag = cplOf s i.tag := by
    have : y.cpl = s.cpl := by rw [hy]; exact cpl_tellOwed _ i status s
    rw [cplOf, this, ← cplOf]
  rw [← hy]
  obtain ⟨h1, h2, h3⟩ := finished_failTag (s := y) (tag := i.tag) (status := status) (late := i.late) (by rw [hc]; exact ho)
    (by rw [hc]; exact hd)
  exact ⟨h1, h2, by rw [h3, hc]⟩

/-- The packets of the five collective opcodes go one way (R298). -/
theorem exec_collPacket (hc : (c, op) ∈ [(Instr.clReduce p, 0x40), (.clData p, 0x41), (.clBar p, 0x42), (.clCap p, 0x43),
    (.clAbort p, 0x44)]) (ho : p.opcode = op) (s : State) : exec c s = ok (collPacket (now s) p s) := by
  simp only [List.mem_cons, List.not_mem_nil, or_false, Prod.mk.injEq] at hc
  have h : ∀ o, p.opcode = o → ok (collArrives o p s) = ok (collPacket (now s) p s) := fun o h => congrArg ok (if_pos h)
  rcases hc with ⟨rfl, rfl⟩ | ⟨rfl, rfl⟩ | ⟨rfl, rfl⟩ | ⟨rfl, rfl⟩ | ⟨rfl, rfl⟩ <;> exact h _ ho

theorem collPacket_open {t : Nat} (hi : s.coll.insts.find? (isOf p) = some i) (hx : groupAt s i.gid i.epoch = some x) :
    collPacket t p s = instPacket x i t p s := by
  unfold collPacket
  rw [hi]
  dsimp only
  rw [hx]

theorem instPacket_joins {k : Chunk} {t : Nat} (h44 : p.opcode ≠ 0x44) (hk : chunkOf x i p = some k) (hp : p.poison = false)
    (hl : p.late = false) : instPacket x i t p s = putInst (joinChunk x ((freshInst s i).getD i) p k t) s := by
  unfold instPacket
  rw [if_neg h44, hk]
  dsimp only
  rw [if_neg (by simp [hp]), if_neg (by simp [hl])]

theorem chunk_joined {k : Chunk} (hc : (c, op) ∈ [(Instr.clReduce p, 0x40), (.clData p, 0x41), (.clBar p, 0x42), (.clCap p, 0x43),
    (.clAbort p, 0x44)]) (ho : p.opcode = op) (h44 : op ≠ 0x44) (hi : s.coll.insts.find? (isOf p) = some i)
    (hx : groupAt s i.gid i.epoch = some x) (hk : chunkOf x i p = some k) (hp : p.poison = false) (hl : p.late = false) :
    Completes c s (ChunkJoined x i p k s) := by
  have he := exec_collPacket hc ho s
  rw [collPacket_open hi hx, instPacket_joins (by omega) hk hp hl] at he
  exact ⟨_, he, rfl, fun _ _ => rfl, rfl, fun _ => rfl⟩

theorem clAbort_completes (ho : p.opcode = 0x44) (hi : s.coll.insts.find? (isOf p) = some i)
    (hx : groupAt s i.gid i.epoch = some x) (h6 : i.sub ≠ 6) (hopen : (cplOf s i.tag).st = .opened)
    (hd : (cplOf s i.tag).damaged = false) : Completes (.clAbort p) s (fun u =>
      (∀ j ∈ u.coll.insts, sameInst i j = false) ∧ Finished i.tag (statusWord p.status 0 false false i.late) s u) := by
  have he := exec_collPacket (c := .clAbort p) (p := p) (op := 0x44) (by simp) ho s
  have hend : instPacket x i (now s) p s = endInst i p.status s := if_pos ho
  rw [collPacket_open hi hx, hend] at he
  exact ⟨_, he, fun j hj => (mem_insts_endInst hj).2, finished_endInst h6 hopen hd⟩

theorem collPacket_early_held {t : Nat} (hi : s.coll.insts.find? (isOf p) = none) (he : isEarly s p = true)
    (hb : bufferBytes s (packetGid p) + p.payload.length ≤ (groupOf s (packetGid p)).buf * 65536) :
    collPacket t p s = { s with coll := { s.coll with early := s.coll.early ++ [{ p with heldFrom := t }] } } := by
  unfold collPacket
  rw [hi]
  dsimp only
  rw [if_neg (by simp [he]), if_pos hb]

theorem collPacket_early_full {t : Nat} (hi : s.coll.insts.find? (isOf p) = none) (he : isEarly s p = true)
    (hb : (groupOf s (packetGid p)).buf * 65536 < bufferBytes s (packetGid p) + p.payload.length) :
    collPacket t p s = { s with rma := { s.rma with deliverQ := s.rma.deliverQ ++ [p] } } := by
  unfold collPacket
  rw [hi]
  dsimp only
  rw [if_neg (by simp [he]), if_neg (by omega)]

theorem collPacket_stale {t : Nat} (hi : s.coll.insts.find? (isOf p) = none) (he : isEarly s p = false) :
    collPacket t p s = staleColl s := by
  unfold collPacket
  rw [hi]
  dsimp only
  rw [if_pos (by simp [he])]

theorem staleColl_spec (s : State) : (staleColl s).coll = s.coll ∧ rdB (staleColl s) Reg.collEvent 1 = true
    ∧ rdF (staleColl s) Reg.collErrCount 63 32 = min (rdF s Reg.collErrCount 63 32 + 1) (2 ^ 32 - 1)
    ∧ RegsKept [Reg.collEvent, Reg.collErrCount] s (staleColl s) ∧ MemKept s (staleColl s) := by
  have hk : Kept [Reg.collEvent, Reg.collErrCount] s (staleColl s) :=
    ((Kept.refl _ s).orReg (by simp) _).addSat (by simp) _ _ _
  refine ⟨rfl, ?_, ?_, hk.regs, hk.mem⟩
  · exact (rdB_wrReg_ne _ _ _ (by decide)).trans (rdB_orReg_pow s _ (i := 1) (by decide))
  · rw [staleColl, rdF_addSat_self _ _ _ _ _ (by decide) (by decide), rdF_orReg_ne _ _ _ _ (by decide)]

/-- Settles O41: the five opcodes share one way, and what it does goes by the instance that the packet names. -/
theorem collectivePackets : Obligations.CollectivePackets := by
  unfold Obligations.CollectivePackets
  intro p c op s hc ho
  refine ⟨fun i x k hi hx => ⟨fun hk hp hl => ⟨?_, ?_, ?_, ?_⟩, ?_⟩, fun hi he => ⟨fun hb => ?_, fun hb => ?_⟩, fun hi he => ?_⟩
  · rintro rfl; exact chunk_joined (op := 0x40) (by simp) ho (by decide) hi hx hk hp hl
  · rintro rfl; exact chunk_joined (op := 0x41) (by simp) ho (by decide) hi hx hk hp hl
  · rintro rfl; exact chunk_joined (op := 0x42) (by simp) ho (by decide) hi hx hk hp hl
  · rintro rfl; exact chunk_joined (op := 0x43) (by simp) ho (by decide) hi hx hk hp hl
  · rintro rfl h6 hopen hd
    exact clAbort_completes ho hi hx h6 hopen hd
  · exact ⟨_, (exec_collPacket hc ho s).trans (congrArg ok (collPacket_early_held hi he hb)), rfl, rfl, fun _ _ => rfl, fun _ => rfl⟩
  · exact ⟨_, (exec_collPacket hc ho s).trans (congrArg ok (collPacket_early_full hi he hb)), rfl, rfl, fun _ _ => rfl, fun _ => rfl⟩
  · exact ⟨_, (exec_collPacket hc ho s).trans (congrArg ok (collPacket_stale hi he)), staleColl_spec s⟩

end Sys2Proof.Machine
end

section
/-! PROOFS. An open instance sends what it can, goes late, and completes (R299–R309). -/

namespace Sys2Proof.Machine

variable {s u v : State} {i j : Inst} {x : Group} {gid num pos : Nat}

-- An instance advances (R299, R300)

/-- What an instance holds and what it has got may change; nothing else does. -/
def Advanced (i j : Inst) : Prop := ∃ h g, j = { i with hold := h, got := g }

theorem Advanced.refl (i : Inst) : Advanced i i := ⟨i.hold, i.got, rfl⟩

theorem Advanced.trans {k : Inst} (h : Advanced i j) (h' : Advanced j k) : Advanced i k := by
  obtain ⟨a, b, rfl⟩ := h
  obtain ⟨c, d, rfl⟩ := h'
  exact ⟨c, d, rfl⟩

theorem Advanced.foldl {α : Type} {f : Inst → α → Inst} (l : List α) (hf : ∀ k y, Advanced k (f k y)) (i : Inst) :
    Advanced i (l.foldl f i) :=
  List.foldlRecOn _ _ (Advanced.refl i) fun _ hk y _ => hk.trans (hf _ y)

theorem advanced_holdAt (share phase : Nat) (bs : List Byte) (i : Inst) : Advanced i (i.holdAt share phase bs) := ⟨_, i.got, rfl⟩

theorem advanced_clearGot (phase share : Nat) (i : Inst) : Advanced i (i.clearGot phase share) := ⟨i.hold, _, rfl⟩

theorem advanced_joinOwn (p : Plan) (i : Inst) : Advanced i (joinOwn p i) := by
  refine Advanced.foldl _ (fun k h => ?_) i
  split
  · exact Advanced.refl k
  · split
    · exact ⟨k.hold, _, rfl⟩
    · exact Advanced.refl k

theorem advanced_placeData (p : Plan) (sb : Nat) (i : Inst) : Advanced i (placeData p sb i) := by
  refine Advanced.foldl _ (fun k ph => ?_) i
  dsimp only
  split
  · exact Advanced.refl k
  · refine Advanced.foldl _ (fun m r => ?_) k
    split
    · exact (advanced_holdAt _ _ _ m).trans (advanced_clearGot _ _ _)
    · exact Advanced.refl m

theorem advanced_stepShare (p : Plan) (sb : Nat) (i : Inst) (h : Nat × Nat × List Byte) : Advanced i (stepShare p sb i h) := by
  unfold stepShare
  dsimp only
  split
  · exact Advanced.refl i
  · split
    · exact Advanced.refl i
    · split
      · split
        · exact advanced_holdAt _ _ _ i
        · split
          · exact (advanced_holdAt _ _ _ i).trans (advanced_clearGot _ _ _)
          · exact Advanced.refl i
      · exact advanced_holdAt _ _ _ i

theorem advanced_stepShares (p : Plan) (sb : Nat) (i : Inst) : Advanced i (stepShares p sb i) :=
  ((advanced_joinOwn p i).trans (advanced_placeData p sb _)).trans (Advanced.foldl _ (advanced_stepShare p sb) _)

theorem advanced_settleInst (p : Plan) (sb n : Nat) (i : Inst) : Advanced i (settleInst p sb n i) := by
  induction n generalizing i with
  | zero => exact Advanced.refl i
  | succ n ih => exact (advanced_stepShares p sb i).trans (ih _)

theorem advanced_goOn (x : Group) (i : Inst) : Advanced i (goOn x i) :=
  (advanced_settleInst _ _ _ i).trans (advanced_joinOwn _ _)

theorem Advanced.todo (h : Advanced i j) : j.todo = i.todo := by obtain ⟨a, b, rfl⟩ := h; rfl

theorem Advanced.same (h : Advanced i j) (k : Inst) : sameInst k j = sameInst k i := by obtain ⟨a, b, rfl⟩ := h; rfl

-- The present record of an instance

theorem freshInst_of_instsAt (h : instsAt s gid num pos = [i]) : freshInst s i = some i := by
  have hi : i ∈ instsAt s gid num pos := by rw [h]; simp
  obtain ⟨-, hp⟩ := List.mem_filter.1 hi
  simp only [Bool.and_eq_true, beq_iff_eq] at hp
  obtain ⟨⟨rfl, rfl⟩, rfl⟩ := hp
  have hf : (fun j : Inst => decide ((j.gid == i.gid && j.num == i.num && j.pos == i.pos) = true ∧ sameInst i j = true))
      = sameInst i := by
    funext j
    cases hs : sameInst i j
    · simp
    · have hs' := hs
      simp only [sameInst, Bool.and_eq_true, beq_iff_eq] at hs'
      obtain ⟨⟨⟨⟨h1, h2⟩, h3⟩, -⟩, -⟩ := hs'
      simp [h1, h2, h3]
  have hff := List.find?_filter (xs := s.coll.insts) (p := fun j : Inst => j.gid == i.gid && j.num == i.num && j.pos == i.pos)
    (q := sameInst i)
  rw [instsAt] at h
  rw [h, List.find?_cons, sameInst_self, hf] at hff
  exact hff.symm

/-- A change of records that keeps which instance each is of. -/
theorem freshInst_map {f : Inst → Inst} (hf : ∀ j, sameInst i (f j) = sameInst i j) (hs : freshInst s i = some j)
    (hu : u.coll.insts = s.coll.insts.map f) : freshInst u i = some (f j) := by
  rw [freshInst, hu, List.find?_map, show sameInst i ∘ f = sameInst i from funext hf, ← freshInst, hs]
  rfl

theorem sameInst_trans {k : Inst} (h : sameInst i j = true) : sameInst j k = sameInst i k := by
  simp only [sameInst, Bool.and_eq_true, beq_iff_eq] at h ⊢
  obtain ⟨⟨⟨⟨h1, h2⟩, h3⟩, h4⟩, h5⟩ := h
  rw [h1, h2, h3, h4, h5]

theorem freshInst_putInst (h : sameInst i j = true) (hs : freshInst s i = some i) : freshInst (putInst j s) i = some j := by
  have hf : ∀ k, sameInst i (if sameInst j k then j else k) = sameInst i k := fun k => by
    split
    · next hk => rw [h, ← sameInst_trans (k := k) h, hk]
    · rfl
  have := freshInst_map (u := putInst j s) hf hs rfl
  rwa [if_pos ((sameInst_comm j i).trans h)] at this

theorem withInst_of {f : Group → Inst → State → State} (hf : freshInst s i = some j) (hx : groupAt s i.gid i.epoch = some x) :
    withInst i f s = f x j s := by
  unfold withInst
  rw [hf, hx]

-- Sending (R299, R301)

theorem takeEarly_none (h : s.coll.early = []) (i : Inst) : takeEarly i s = s := by
  have hs : s = { s with coll := { s.coll with early := [] } } := by rw [← h]
  unfold takeEarly
  rw [h]
  exact hs.symm

/-- No chunk of a collective is a pitch packet. -/
theorem planOf_not_pitch {sub n count root p : Nat} {shape : List Nat} {wide : Bool} :
    ∀ ph ∈ (planOf sub shape n count root p wide).phases, isPitchOp ph.op = false := by
  have hsc : ∀ l cur, ∀ ph ∈ scatterPhases shape p l cur, isPitchOp ph.op = false := by
    intro l
    induction l with
    | nil => intro cur ph h; cases h
    | cons d r ih =>
      intro cur ph h
      rw [scatterPhases] at h
      rcases List.mem_cons.1 h with rfl | h
      · rfl
      · exact ih _ ph h
  have hga : ∀ l held, ∀ ph ∈ gatherPhases shape p l held, isPitchOp ph.op = false := by
    intro l
    induction l with
    | nil => intro held ph h; cases h
    | cons d r ih =>
      intro held ph h
      rw [gatherPhases] at h
      rcases List.mem_cons.1 h with rfl | h
      · rfl
      · exact ih _ ph h
  have hdi : ∀ op, isPitchOp op = false → ∀ ph ∈ (directPlan shape p op).phases, isPitchOp ph.op = false := by
    intro op hop ph h
    obtain ⟨d, -, rfl⟩ := List.mem_map.1 h
    exact hop
  have hal : ∀ op, isPitchOp op = false → ∀ ph ∈ (allToAllPlan n p op).phases, isPitchOp ph.op = false := by
    intro op hop ph h
    unfold allToAllPlan at h
    dsimp only at h
    split at h
    · cases h
    · rw [List.mem_singleton] at h; rw [h]; exact hop
  have hbr : ∀ ph ∈ broadcastPhases shape p root, isPitchOp ph.op = false := by
    intro ph h
    obtain ⟨d, -, rfl⟩ := List.mem_map.1 h
    dsimp only
    split
    · split <;> rfl
    · rfl
  intro ph h
  unfold planOf at h
  dsimp only at h
  split at h
  · exact hdi _ rfl ph h
  · split at h
    · exact hdi _ rfl ph h
    · split at h
      · rcases List.mem_append.1 h with h | h
        · exact hsc _ _ ph h
        · exact hga _ _ ph h
      · split at h
        · exact hsc _ _ ph h
        · split at h
          · exact hga _ _ ph h
          · split at h
            · exact hbr ph h
            · exact hal _ (by split <;> rfl) ph h

theorem chunkPacket_not_pitch (s : State) (x : Group) (i : Inst) (c : PlanPacket) (bs : List Byte) :
    isPitchOp (chunkPacket s x i c bs).opcode = false := by
  show isPitchOp (((instPlan x i).phases[c.phase]?).getD { op := 0, axis := 0, sends := [], recv := [] }).op = false
  cases h : (instPlan x i).phases[c.phase]? with
  | none => rfl
  | some ph => exact planOf_not_pitch ph (List.mem_of_getElem? h)

/-- A packet that goes its way joins a queue at its end. -/
def Sent (s u : State) : Prop := ∃ d r, u = { s with
  rma := { s.rma with deliverQ := s.rma.deliverQ ++ d }
  net := { s.net with routerQ := s.net.routerQ ++ r } }

theorem Sent.refl (s : State) : Sent s s := ⟨[], [], by simp⟩

theorem Sent.trans (h : Sent s u) (h' : Sent u v) : Sent s v := by
  obtain ⟨a, b, rfl⟩ := h
  obtain ⟨c, d, rfl⟩ := h'
  exact ⟨a ++ c, b ++ d, by simp⟩

theorem Sent.here {p : Packet} (h : Sent s u) (hp : p ∈ s.rma.deliverQ) : p ∈ u.rma.deliverQ := by
  obtain ⟨a, b, rfl⟩ := h
  exact List.mem_append_left _ hp

theorem Sent.away {e : Option Nat × Packet} (h : Sent s u) (hp : e ∈ s.net.routerQ) : e ∈ u.net.routerQ := by
  obtain ⟨a, b, rfl⟩ := h
  exact List.mem_append_left _ hp

theorem inject_of_not_pitch {p : Packet} (h : isPitchOp p.opcode = false) (s : State) : inject p s
    = if p.dst = ownDev s then { s with rma := { s.rma with deliverQ := s.rma.deliverQ ++ [stamped s p] } }
      else { s with net := { s.net with routerQ := s.net.routerQ ++ [(none, stamped s p)] } } := by
  unfold inject stamped
  rw [h]
  rfl

theorem sent_inject {p : Packet} (h : isPitchOp p.opcode = false) (s : State) : Sent s (inject p s)
    ∧ ((none, stamped s p) ∈ (inject p s).net.routerQ ∨ stamped s p ∈ (inject p s).rma.deliverQ) := by
  rw [inject_of_not_pitch h]
  split
  · exact ⟨⟨[stamped s p], [], by simp⟩, Or.inr (by simp)⟩
  · exact ⟨⟨[], [(none, stamped s p)], by simp⟩, Or.inl (by simp)⟩

theorem sendPlanned_off_pitch (hp : i.pitch = false) (c : PlanPacket) (s : State) :
    sendPlanned x i c s = inject (chunkPacket s x i c (mget (0, []) i.hold c.share).2) s := by
  unfold sendPlanned
  rw [hp]
  rfl

/-- Off pitch every chunk of a list goes its way. -/
theorem sent_planned (hp : i.pitch = false) (l : List PlanPacket) (s : State) :
    Sent s (l.foldl (fun s c => sendPlanned x i c s) s)
      ∧ ∀ c ∈ l, ∀ q, q = stamped s (chunkPacket s x i c (mget (0, []) i.hold c.share).2) →
          (none, q) ∈ (l.foldl (fun s c => sendPlanned x i c s) s).net.routerQ
            ∨ q ∈ (l.foldl (fun s c => sendPlanned x i c s) s).rma.deliverQ := by
  induction l using List.reverseRecOn with
  | nil => exact ⟨Sent.refl s, fun c hc => by cases hc⟩
  | append_singleton l c ih =>
    obtain ⟨h1, h2⟩ := ih
    rw [List.foldl_append, List.foldl_cons, List.foldl_nil, sendPlanned_off_pitch hp]
    generalize l.foldl (fun s c => sendPlanned x i c s) s = y at h1 h2 ⊢
    obtain ⟨h3, h4⟩ := sent_inject (chunkPacket_not_pitch y x i c (mget (0, []) i.hold c.share).2) y
    refine ⟨h1.trans h3, fun c' hc' q hq => ?_⟩
    rcases List.mem_append.1 hc' with h | h
    · exact (h2 c' h q hq).imp h3.away h3.here
    · rw [List.mem_singleton] at h
      obtain ⟨a, b, rfl⟩ := h1
      rw [hq, h]
      exact h4

/-- An instance that is loaded and whose group received nothing early only sends what it can. -/
theorem exec_collPhaseSend (hi : instsAt s gid num pos = [i]) (hx : groupAt s i.gid i.epoch = some x) (hl : i.loaded = true)
    (he : s.coll.early = []) : exec (.collPhaseSend gid num pos) s = ok (sendReady x i s) := by
  have hf := freshInst_of_instsAt hi
  show execCollPhaseSend gid num pos s = _
  unfold execCollPhaseSend
  rw [hi, List.foldl_cons, List.foldl_nil]
  have h1 : withInst i (fun _ i s => takeEarly i s) s = s := (withInst_of hf hx).trans (takeEarly_none he i)
  have h2 : withInst i askInput s = s := by
    rw [withInst_of hf hx]; unfold askInput; exact if_pos (by rw [hl]; rfl)
  have h3 : withInst i takeInput s = s := by
    rw [withInst_of hf hx]
    unfold takeInput
    split
    · rfl
    · exact if_pos hl
  rw [h1, h2, h3, withInst_of hf hx]

theorem collPhaseSend_completes (hi : instsAt s gid num pos = [i]) (hx : groupAt s i.gid i.epoch = some x)
    (hl : i.loaded = true) (he : s.coll.early = []) (hp : i.pitch = false) :
    Completes (.collPhaseSend gid num pos) s (fun u =>
      (∀ c ∈ sendable x i, ∀ q, q = stamped s (chunkPacket s x i c (mget (0, []) i.hold c.share).2) →
          (none, q) ∈ u.net.routerQ ∨ q ∈ u.rma.deliverQ)
        ∧ (∃ j ∈ u.coll.insts, sameInst i j = true ∧ j.todo = i.todo.filter (fun t => !(sendable x i).contains t))
        ∧ RegsKept [] s u ∧ MemKept s u) := by
  obtain ⟨h1, h2⟩ := sent_planned (x := x) hp (sendable x i) s
  have hf := freshInst_of_instsAt hi
  have hex := exec_collPhaseSend hi hx hl he
  unfold sendReady at hex
  dsimp only at hex
  generalize (sendable x i).foldl (fun s c => sendPlanned x i c s) s = y at h1 h2 hex
  obtain ⟨d, r, rfl⟩ := h1
  have hfy : freshInst { s with
      rma := { s.rma with deliverQ := s.rma.deliverQ ++ d }
      net := { s.net with routerQ := s.net.routerQ ++ r } } i = some i := hf
  rw [hfy] at hex
  obtain ⟨j, hj⟩ : ∃ j, j = goOn x { i with todo := i.todo.filter (fun t => !(sendable x i).contains t) } := ⟨_, rfl⟩
  have ha := advanced_goOn x { i with todo := i.todo.filter (fun t => !(sendable x i).contains t) }
  rw [← hj] at ha
  dsimp only at hex
  rw [← hj] at hex
  have hs : sameInst i j = true := (ha.same i).trans (sameInst_self i)
  refine ⟨_, hex, h2, ⟨j, ?_, hs, ha.todo⟩, fun _ _ => rfl, fun _ => rfl⟩
  have hmem : i ∈ s.coll.insts := List.mem_of_find?_eq_some hf
  refine List.mem_map.2 ⟨i, hmem, if_pos ?_⟩
  rw [sameInst_comm]; exact hs

-- Late sending (R52, R308, R309)

/-- What sending late leaves: this device's number, what is staged, memory; what waits at the routers keeps waiting. -/
structure WentLate (s u : State) : Prop where
  own : ownDev u = ownDev s
  staged : u.net.staged = s.net.staged
  away : ∀ e ∈ s.net.routerQ, e ∈ u.net.routerQ
  mem : MemKept s u

theorem WentLate.refl (s : State) : WentLate s s := ⟨rfl, rfl, fun _ h => h, fun _ => rfl⟩

theorem WentLate.trans (h : WentLate s u) (h' : WentLate u v) : WentLate s v :=
  ⟨h'.own.trans h.own, h'.staged.trans h.staged, fun e he => h'.away e (h.away e he), fun a => (h'.mem a).trans (h.mem a)⟩

theorem WentLate.foldl {α : Type} {f : State → α → State} (l : List α) (hf : ∀ v y, WentLate v (f v y)) (s : State) :
    WentLate s (l.foldl f s) :=
  List.foldlRecOn _ _ (WentLate.refl s) fun _ hv y _ => hv.trans (hf _ y)

theorem wentLate_inject (p : Packet) (s : State) : WentLate s (inject p s) := by
  unfold inject
  dsimp only
  split
  · exact ⟨rfl, rfl, fun _ h => h, fun _ => rfl⟩
  · exact ⟨rfl, rfl, fun _ h => List.mem_append_left _ h, fun _ => rfl⟩

theorem wentLate_lateNoteTo (p : Packet) (s : State) : WentLate s (lateNoteTo p s) := by
  unfold lateNoteTo
  split
  · exact wentLate_inject _ s
  · exact WentLate.refl s

theorem wentLate_noted (p : Packet) (s : State) : WentLate s (if p.late then s else lateNoteTo p s) := by
  split
  · exact WentLate.refl s
  · exact wentLate_lateNoteTo p s

theorem wentLate_sendLate (e : Option Nat) (p : Packet) (s : State) : WentLate s (sendLate e p s) := by
  have h := wentLate_noted p s
  unfold sendLate
  dsimp only
  generalize (if p.late then s else lateNoteTo p s) = y at h ⊢
  split
  · exact h.trans ⟨rfl, rfl, fun _ h => h, fun _ => rfl⟩
  · exact h.trans ⟨rfl, rfl, fun _ h => List.mem_append_left _ h, fun _ => rfl⟩

theorem mem_sendLate {p : Packet} (h : p.dst ≠ ownDev s) : (none, { p with late := true, vc := 1 }) ∈ (sendLate none p s).net.routerQ := by
  have hy := wentLate_noted p s
  unfold sendLate
  dsimp only
  generalize (if p.late then s else lateNoteTo p s) = y at hy ⊢
  rw [if_neg (by rw [hy.own]; exact h)]
  exact List.mem_append_right _ (List.mem_singleton.2 rfl)

theorem wentLate_pitchCount (n k : Nat) (s : State) : WentLate s (addSat (Reg.portPitch n) 31 16 k s) := by
  refine ⟨?_, rfl, fun _ h => h, fun _ => rfl⟩
  by_cases h : Reg.portPitch n = Reg.deviceId
  · have hf : rdF (addSat (Reg.portPitch n) 31 16 k s) (Reg.portPitch n) 13 0 = rdF s (Reg.portPitch n) 13 0 :=
      rdF_wrF_other _ _ _ _ _ _ _ (by decide) (by decide) (by decide)
    rw [h] at hf
    rw [ownDev, ownDev, ← hf, h]
  · exact rdF_wrF_ne _ _ _ _ _ _ (Ne.symm h)

theorem wentLate_lateForward (n : Nat) (e : Option Nat) (p : Packet) (s : State) : WentLate s (lateForward n e p s) :=
  (wentLate_pitchCount n _ s).trans (WentLate.foldl _ (fun v c => wentLate_sendLate e c v) _)

theorem recordData_frame (src : Nat) (o : Occ) (part : Option Nat) (s : State) :
    ∃ r rs, recordData src o part s = { s with regs := r, flt := { s.flt with reactions := rs } } := by
  unfold recordData
  dsimp only
  split <;> exact ⟨_, _, rfl⟩

theorem wentLate_recordData {src : Nat} (h : src < 7) (o : Occ) (part : Option Nat) (s : State) :
    WentLate s (recordData src o part s) := by
  obtain ⟨r, rs, hx⟩ := recordData_frame src o part s
  refine ⟨?_, by rw [hx], fun e he => by rw [hx]; exact he, fun a => memByte_recordData ..⟩
  have : rd (recordData src o part s) Reg.deviceId = rd s Reg.deviceId := by
    rw [rd_recordData s o part (fun w hw => by simp only [Reg.deviceId, Reg.dcap]; omega), rd_orReg_ne _ _ (by decide)]
  rw [ownDev, rdF, this, ← rdF, ← ownDev]

theorem wentLate_markLate (gid num pos : Nat) (s : State) : WentLate s (markLate gid num pos s) := by
  unfold markLate
  split
  · exact WentLate.refl s
  · split
    · exact WentLate.refl s
    · have hrec : ∀ y o part, WentLate s y → WentLate s (recordData srcDeadline o part y) := fun y o part h =>
        h.trans (wentLate_recordData (by decide) o part y)
      dsimp only
      exact hrec _ _ _ ⟨rfl, rfl, fun _ h => h, fun _ => rfl⟩

theorem missStaged_of_coll {h : Staged} {k : Nat × Nat × Nat} (hk : h.coll = some k) (s : State) :
    missStaged h s = lateForward h.port none h.pkt (markLate k.1 k.2.1 k.2.2 s) := by
  unfold missStaged
  rw [hk]

theorem mem_lateForward {p : Packet} (n : Nat) (hd : p.dst ≠ ownDev s) (ha : p.also = []) :
    (none, { p with late := true, vc := 1 }) ∈ (lateForward n none p s).net.routerQ := by
  have hc : copiesOf p = [p] := by
    unfold copiesOf
    rw [ha]
    cases p
    simp_all
  unfold lateForward
  rw [hc, List.foldl_cons, List.foldl_nil]
  exact mem_sendLate (by rw [(wentLate_pitchCount n _ s).own]; exact hd)

/-- Every packet of a list that is staged for a collective goes late. -/
theorem missStaged_all {l : List Staged} (hl : ∀ h ∈ l, h.coll = some (gid, num, pos)) (s : State) :
    WentLate s (l.foldl (fun s h => missStaged h s) s) ∧ ∀ h ∈ l, h.pkt.dst ≠ ownDev s → h.pkt.also = [] →
      (none, { h.pkt with late := true, vc := 1 }) ∈ (l.foldl (fun s h => missStaged h s) s).net.routerQ := by
  induction l using List.reverseRecOn with
  | nil => exact ⟨WentLate.refl s, fun h hh => by cases hh⟩
  | append_singleton l h ih =>
    obtain ⟨h1, h2⟩ := ih fun k hk => hl k (List.mem_append_left _ hk)
    rw [List.foldl_append, List.foldl_cons, List.foldl_nil, missStaged_of_coll (hl h (by simp))]
    generalize l.foldl (fun s h => missStaged h s) s = y at h1 h2 ⊢
    have hm := wentLate_markLate gid num pos y
    have hf := hm.trans (wentLate_lateForward h.port none h.pkt _)
    refine ⟨h1.trans hf, fun k hk hd ha => ?_⟩
    rcases List.mem_append.1 hk with hk | hk
    · exact hf.away _ (h2 k hk hd ha)
    · rw [List.mem_singleton] at hk
      subst hk
      exact mem_lateForward _ (by rw [hm.own, h1.own]; exact hd) ha

theorem collLateSend_completes (gid num pos : Nat) (s : State) : Completes (.collLateSend gid num pos) s (fun u =>
    (∀ h ∈ s.net.staged, h.coll = some (gid, num, pos) → h.tick < h.stagedAt + 24 → h.pkt.dst ≠ ownDev s → h.pkt.also = [] →
      (none, { h.pkt with late := true, vc := 1 }) ∈ u.net.routerQ ∧ h ∉ u.net.staged) ∧ MemKept s u) := by
  obtain ⟨l, hl⟩ : ∃ l, l = s.net.staged.filter (fun h => h.coll == some (gid, num, pos) && decide (h.tick < h.stagedAt + 24)) :=
    ⟨_, rfl⟩
  have he : exec (.collLateSend gid num pos) s = ok (l.foldl (fun s h => missStaged h s)
      { s with net := { s.net with staged := s.net.staged.filter (fun h => !l.contains h) } }) := by rw [hl]; rfl
  have hmem : ∀ h, h ∈ l ↔ h ∈ s.net.staged ∧ h.coll = some (gid, num, pos) ∧ h.tick < h.stagedAt + 24 := fun h => by
    rw [hl, List.mem_filter]; simp
  obtain ⟨h1, h2⟩ := missStaged_all (fun h hh => ((hmem h).1 hh).2.1)
    { s with net := { s.net with staged := s.net.staged.filter (fun h => !l.contains h) } }
  refine ⟨_, he, fun h hh hc ht hd ha => ?_, h1.mem⟩
  have hin := (hmem h).2 ⟨hh, hc, ht⟩
  refine ⟨h2 h hin hd ha, fun hs => ?_⟩
  rw [h1.staged] at hs
  have := (List.mem_filter.1 hs).2
  simp [hin] at this

-- An engine writes a result (R142, R152, R284)

theorem engineReach_sram {y : Access} {view t off : Nat} (h : engineReach s y = .found (.sram view t off)) :
    isFenced s y = false ∧ rangeCheck s y = .ok (.sram view t off)
      ∧ (banksAt (sramAddr t off) (max 1 y.len)).any
          (fun g => bankWaking s (g / 16) || handoverPending s (g / 16) (g % 16)) = false
      ∧ (banksAt (sramAddr t off) (max 1 y.len)).any (fun g => !bankOn s (g / 16)) = false
      ∧ (banksAt (sramAddr t off) (max 1 y.len)).all (fun g => owns s (g / 16) (g % 16) y.agent y.tenant) = true
      ∧ misaligned view y = false := by
  unfold engineReach at h
  cases hf : isFenced s y
  · rw [hf, if_neg (by decide)] at h
    cases hr : rangeCheck s y with
    | error e => rw [hr] at h; cases h
    | ok r =>
      rw [hr] at h
      cases r with
      | reg a => cases h
      | hbm p o => dsimp only at h; split at h <;> cases h
      | sram v t' off' =>
        dsimp only at h
        by_cases hw : (banksAt (sramAddr t' off') (max 1 y.len)).any
            (fun g => bankWaking s (g / 16) || handoverPending s (g / 16) (g % 16)) = true
        · rw [if_pos hw] at h; cases h
        rw [if_neg hw] at h
        by_cases ho : (banksAt (sramAddr t' off') (max 1 y.len)).any (fun g => !bankOn s (g / 16)) = true
        · rw [if_pos ho] at h; cases h
        rw [if_neg ho] at h
        by_cases hown : (!(banksAt (sramAddr t' off') (max 1 y.len)).all
            (fun g => owns s (g / 16) (g % 16) y.agent y.tenant)) = true
        · rw [if_pos hown] at h; cases h
        rw [if_neg hown] at h
        by_cases hm : misaligned v y = true
        · rw [if_pos hm] at h; cases h
        rw [if_neg hm] at h
        simp only [Reach.found.injEq, Region.sram.injEq] at h
        obtain ⟨rfl, rfl, rfl⟩ := h
        exact ⟨rfl, rfl, by simpa using hw, by simpa using ho, by simpa using hown, by simpa using hm⟩
  · rw [hf, if_pos rfl] at h; cases h

/-- A write that an engine has its memory perform: what it asks for. -/
structure EngineWrite (y : Access) (tag gen : Nat) : Prop where
  op : y.op = .write
  agent : 0x200 ≤ y.agent ∧ y.agent < 0x204
  reply : y.reply = .coll tag gen
  plain : y.poison = false
  len : y.len = y.data.length

theorem answerWrite_engineWrite {y : Access} {tag gen : Nat} (hy : EngineWrite y tag gen) (ho : (cplOf s tag).st = .opened)
    (hg : (cplOf s tag).gen = gen) (hd : (cplOf s tag).damaged = false) (hn : now s ≤ y.since) :
    answerWrite y ([] != ([] : List Nat)) s = ([], engineAnswered tag y stOk [] false s) := by
  have hcov : coverIncoming y y.data y.poison s = s := by
    unfold coverIncoming replyOf
    rw [hy.reply]
  unfold answerWrite
  rw [hy.plain] at hcov ⊢
  dsimp only
  rw [if_neg (by decide), if_neg (by decide), if_neg (by decide), hcov]
  unfold answer answerWhole
  rw [hy.reply]
  exact if_pos ⟨ho, hg, by simp [hd], Nat.le_trans hn (Nat.le_add_right _ _)⟩

theorem performSram_engineWrite {y : Access} {tag gen a : Nat} (hy : EngineWrite y tag gen) (ho : (cplOf s tag).st = .opened)
    (hg : (cplOf s tag).gen = gen) (hd : (cplOf s tag).damaged = false) (hn : now s ≤ y.since)
    (hc : ∀ u ∈ unitsOf a y.len, eccOf s u = .clean) : performSram 0 a y s
      = ([], engineAnswered tag y stOk [] false (settleBytes a y.len (writeMem true false a y.data s).2)) := by
  obtain ⟨hop, -, hr, hp, hl⟩ := id hy
  have hnote : (rmwUnits (0 == 0) a y.len).foldl (fun s u => noteErrors (32 * u) 32 (accOcc s y stPoisoned) s) s = s := by
    refine List.foldlRecOn (motive := fun w => w = s) _ _ rfl fun w hw j hj => ?_
    subst hw
    refine noteErrors_of_clean _ fun k hk => ?_
    rw [unitsOf_unit, List.mem_singleton] at hk
    rw [hk]; exact hc j (mem_rmwUnits hj)
  have hblocked : (writeMem true false a y.data s).1 = [] := blockedIn_of_clean s true _ _ (by rwa [← hl])
  obtain ⟨m, e, hw⟩ := writeMem_frame true false a y.data s
  obtain ⟨⟨ts, hts⟩, -⟩ := settleBytes_frame a y.len { s with mem := m, ecc := e }
  unfold performSram
  rw [hop]
  dsimp only
  rw [hnote, show (0 == 0) = true from rfl, hp, viewBytes, if_pos rfl, hblocked]
  have haft : afterWrite y a (memBytes s a y.len) (writeMem true false a y.data s).2
      = settleBytes a y.len (writeMem true false a y.data s).2 := by
    unfold afterWrite unsureFor replyOf
    rw [hr, memBytes_length]
  rw [haft, hw, hts]
  exact answerWrite_engineWrite hy ho hg hd hn

theorem accessPort_engineWrite {y : Access} {tag gen : Nat} (hy : EngineWrite y tag gen) (t : Nat) : accessPort s y t = 1 := by
  unfold accessPort replyOf
  rw [hy.op, hy.reply]
  split <;> rfl

theorem accLen_write {y : Access} (h : y.op = .write) : accLen y = max 1 y.len := by
  unfold accLen opWidth
  rw [h, Nat.max_comm]

theorem ownAccess_placed {y : Access} {tag gen t off : Nat} (hy : EngineWrite y tag gen) (h1 : isFenced s y = false)
    (h2 : rangeCheck s y = .ok (.sram 0 t off)) :
    ownAccess y s = placeSram 0 (sramAddr t off) { y with since := now s } s := by
  have hagent := hy.agent
  unfold ownAccess
  rw [if_neg (by omega), h1, Bool.false_and, if_neg (by decide), h2]
  dsimp only
  rw [if_pos (by simp), place]

/-- An access that no bank makes wait (R156, R159). The banks are taken as any list while the definition is unfolded: the
kernel would count down from the SRAM's base to find them. -/
theorem placeSram_of_passed {view a : Nat} {y : Access}
    (h : (banksAt a (accLen y)).find? (fun g => bankWaking s (g / 16) || handoverPending s (g / 16) (g % 16)) = none) :
    placeSram view a y s = if (banksAt a (accLen y)).any (fun g => !bankOn s (g / 16)) then failAccess y stBankOff s
      else if !(y.share && y.op == .read) && !(banksAt a (accLen y)).all (fun g => owns s (g / 16) (g % 16) y.agent y.tenant) then
        failAccess y stNotOwner s
      else if misaligned view y then failAccess y stMisaligned s else admitSram view a y s := by
  obtain ⟨place, hp⟩ : ∃ place, place = placeSram := ⟨_, rfl⟩
  rw [← hp]
  delta placeSram at hp
  generalize banksAt = banks at hp h ⊢
  rw [hp]
  dsimp only
  rw [h]

/-- A write that its banks let through is performed at once. -/
theorem placeSram_engineWrite {y : Access} {tag gen a n : Nat} (hy : EngineWrite y tag gen) (hn : n = max 1 y.len)
    (h3 : (banksAt a n).any (fun g => bankWaking s (g / 16) || handoverPending s (g / 16) (g % 16)) = false)
    (h4 : (banksAt a n).any (fun g => !bankOn s (g / 16)) = false)
    (h5 : (banksAt a n).all (fun g => owns s (g / 16) (g % 16) y.agent y.tenant) = true)
    (hb : banksClear s 1 a n = true) (hh : heldBefore s 1 (banksAt a n) = false) (ho : (cplOf s tag).st = .opened)
    (hg : (cplOf s tag).gen = gen) (hd : (cplOf s tag).damaged = false) (hnow : now s ≤ y.since)
    (hc : ∀ u ∈ unitsOf a y.len, eccOf s u = .clean) : ∃ b, placeSram 0 a y s
      = ([], engineAnswered tag y stOk [] false (settleBytes a y.len (writeMem true false a y.data { s with banks := b }).2)) := by
  have hlen : accLen y = n := by rw [accLen_write hy.op, hn]
  have hmis : misaligned 0 y = false := by unfold misaligned; rw [hy.op]; rfl
  have hfind : (banksAt a n).find? (fun g => bankWaking s (g / 16) || handoverPending s (g / 16) (g % 16)) = none :=
    List.find?_eq_none.2 (List.any_eq_false.1 h3)
  obtain ⟨b, hw, -⟩ := admitWords_frame s a n (sramEntry 1 0 y .spent)
  refine ⟨b, ?_⟩
  rw [placeSram_of_passed (by rw [hlen]; exact hfind), hlen, h4, if_neg (by decide), h5, Bool.not_true, Bool.and_false,
    if_neg (by decide), hmis, if_neg (by decide)]
  unfold admitSram
  rw [hlen]
  dsimp only
  rw [accessPort_engineWrite hy, hh, if_neg (by decide), hb, if_pos rfl, hw]
  exact performSram_engineWrite (s := { s with banks := b }) hy ho hg hd hnow hc

/-- An engine's write that finds its banks clear is performed at once. -/
theorem ownAccess_engineWrite {y : Access} {tag gen t off : Nat} (hy : EngineWrite y tag gen)
    (hf : engineReach s y = .found (.sram 0 t off)) (hb : banksClear s 1 (sramAddr t off) (max 1 y.len) = true)
    (hh : heldBefore s 1 (banksAt (sramAddr t off) (max 1 y.len)) = false) (ho : (cplOf s tag).st = .opened)
    (hg : (cplOf s tag).gen = gen) (hd : (cplOf s tag).damaged = false)
    (hc : ∀ u ∈ unitsOf (sramAddr t off) y.len, eccOf s u = .clean) : ∃ b y', y'.op = .write ∧ ownAccess y s
      = ([], engineAnswered tag y' stOk [] false
          (settleBytes (sramAddr t off) y.len (writeMem true false (sramAddr t off) y.data { s with banks := b }).2)) := by
  obtain ⟨h1, h2, h3, h4, h5, -⟩ := engineReach_sram hf
  have hyw : EngineWrite { y with since := now s } tag gen := ⟨hy.op, hy.agent, hy.reply, hy.plain, hy.len⟩
  rw [ownAccess_placed hy h1 h2]
  generalize sramAddr t off = a at hb hh hc h3 h4 h5 ⊢
  obtain ⟨b, he⟩ := placeSram_engineWrite hyw rfl h3 h4 h5 hb hh ho hg hd (Nat.le_refl _) hc
  exact ⟨b, _, hy.op, he⟩

-- Completion (R304)

theorem mem_release (tag : Nat) (s : State) : MemKept s (release tag s) := by
  obtain ⟨c, hc⟩ := release_frame tag s
  rw [hc]; exact fun _ => rfl

theorem noteJobError_frame (e : Cpl) (status : Nat) (s : State) : ∃ x, noteJobError e status s = { s with host := x } := by
  unfold noteJobError
  split
  · exact ⟨s.host, rfl⟩
  · split
    · exact ⟨_, rfl⟩
    · exact ⟨s.host, rfl⟩

/-- The end of an operation with remote acknowledgement keeps memory and what its tile waits for. -/
theorem afterAr_keeps (tag : Nat) (e : Cpl) (status : Nat) (s : State) : MemKept s (afterAr tag e status s)
    ∧ ∀ m, (tl (afterAr tag e status s) m).wait = (tl s m).wait := by
  unfold afterAr
  dsimp only
  split
  · refine ⟨fun a => ?_, fun m => ?_⟩
    · rw [mem_release, memByte_recordData]; rfl
    · rw [tl_release, tl_recordData]
      by_cases h : m = e.tile.getD 0
      · rw [h, tl_onTl_self]
      · rw [tl_onTl_ne _ _ h]
  · exact ⟨mem_release tag s, fun m => by rw [tl_release]⟩

/-- The completion of an operation without a destination, whose tile does not wait, keeps memory. -/
theorem mem_afterRecord {tag status : Nat} {e : Cpl} {word check : Word} (hs : e.sink = .none)
    (hw : ∀ w, e.tile = some w → (tl s w).wait = none) : MemKept s (afterRecord tag status e word check s) := by
  obtain ⟨x, hx⟩ := noteJobError_frame e status s
  have h1 : toSink tag e status word check s = s := by unfold toSink; rw [hs]
  obtain ⟨y, hy⟩ : ∃ y, y = if e.orphan then release tag { s with host := x } else if e.ar then afterAr tag e status { s with host := x }
      else { s with host := x } := ⟨_, rfl⟩
  have h2 : MemKept s y ∧ ∀ m, (tl y m).wait = (tl s m).wait := by
    rw [hy]
    split
    · exact ⟨fun a => mem_release tag { s with host := x } a, fun m => by rw [tl_release]; rfl⟩
    · split
      · exact ⟨fun a => (afterAr_keeps tag e status { s with host := x }).1 a, (afterAr_keeps tag e status { s with host := x }).2⟩
      · exact ⟨fun _ => rfl, fun _ => rfl⟩
  unfold afterRecord
  dsimp only
  rw [h1, hx, ← hy]
  split
  · exact h2.1
  · next w he => rw [settle_of_no_wait ((h2.2 w).trans (hw w he))]; exact h2.1

/-- An answered operation without an error, a channel or a destination completes (R198). -/
theorem concludeTag_spec {tag : Nat} {e : Cpl} (late : Bool) (he : e = cplOf s tag) (ho : e.st = .opened)
    (hd : e.damaged = false) (hf : e.firstErr = 0) (hc : e.cvu = none) (hs : e.sink = .none)
    (hw : ∀ w, e.tile = some w → (tl s w).wait = none) :
    Finished tag (statusWord 0 e.drops false e.inexact late) s (concludeTag tag late s) ∧ MemKept s (concludeTag tag late s)
      ∧ (concludeTag tag late s).coll = s.coll := by
  obtain ⟨y, hy⟩ : ∃ y, y = setCpl tag { e with answered := true, late := late } s := ⟨_, rfl⟩
  have hcy : cplOf y tag = { e with answered := true, late := late } := by rw [hy, cplOf_setCpl_self]
  have heq : concludeTag tag late s = finishTag tag 0 e.drops e.inexact late none y := by
    unfold concludeTag
    dsimp only
    rw [← he, ← hy, hf, if_neg (by decide), hc]
  have hoy : (cplOf y tag).st = .opened := by rw [hcy]; exact ho
  have hdy : (cplOf y tag).damaged = false := by rw [hcy]; exact hd
  obtain ⟨f1, f2, f3⟩ := finished_finishTag (s := y) (tag := tag) (status := 0) (drops := e.drops) (inexact := e.inexact)
    (late := late) (check := none) hoy hdy
  rw [heq]
  refine ⟨⟨f1, f2, by rw [f3, hcy, ← he]⟩, ?_, ?_⟩
  · rw [finishTag_of_open hoy hdy]
    intro a
    rw [mem_afterRecord (s := writeRecord tag (cplOf y tag) _ _ y) (by rw [hcy]; exact hs) (by rw [hcy, hy]; exact hw), hy]
    rfl
  · rw [(aside_finishTag tag 0 e.drops e.inexact late none y).coll, hy]; rfl

theorem wait_of_cleared {a b : Tile} (h : cleared a = cleared b) : a.wait = b.wait := by
  have := congrArg Tile.wait h
  exact this

theorem runAll_cons (n : Nat) (y : Access) (r : List Access) (s : State) :
    runAll (n + 1) (y :: r) s = runAll n ((ownAccess y s).1 ++ r) (ownAccess y s).2 := rfl

theorem runAll_nil (n : Nat) (s : State) : runAll n [] s = s := by cases n <;> rfl

/-- The write of a result, performed. -/
theorem submitAll_engineWrite {y : Access} {tag gen t off : Nat} (hy : EngineWrite y tag gen)
    (hf : engineReach s y = .found (.sram 0 t off)) (hb : banksClear s 1 (sramAddr t off) (max 1 y.len) = true)
    (hh : heldBefore s 1 (banksAt (sramAddr t off) (max 1 y.len)) = false) (ho : (cplOf s tag).st = .opened)
    (hg : (cplOf s tag).gen = gen) (hd : (cplOf s tag).damaged = false)
    (hc : ∀ u ∈ unitsOf (sramAddr t off) y.len, eccOf s u = .clean) : ∃ y' w, y'.op = .write
      ∧ submitAll [y] s = engineAnswered tag y' stOk [] false w
      ∧ (∃ b m e ts, w = { s with banks := b, mem := m, ecc := e, tiles := ts }) ∧ (∀ k, (tl w k).wait = (tl s k).wait)
      ∧ memBytes w (sramAddr t off) y.len = y.data ∧ MemKeptBut (sramAddr t off) y.len s w := by
  obtain ⟨b, y', hop, he⟩ := ownAccess_engineWrite hy hf hb hh ho hg hd hc
  generalize sramAddr t off = a at he hc ⊢
  obtain ⟨m, e, hw⟩ := writeMem_frame true false a y.data { s with banks := b }
  obtain ⟨⟨ts, hts⟩, htl⟩ := settleBytes_frame a y.len { s with banks := b, mem := m, ecc := e }
  refine ⟨y', settleBytes a y.len (writeMem true false a y.data { s with banks := b }).2, hop, ?_, ?_, ?_, ?_, ?_⟩
  · rw [submitAll, List.length_singleton, Nat.mul_one, runAll_cons, he, List.nil_append, runAll_nil]
  · exact ⟨b, m, e, ts, by rw [hw, hts]⟩
  · intro k
    rw [hw]
    exact wait_of_cleared (htl k)
  · have hm := memBytes_writeMem (s := { s with banks := b }) true false (a := a) (bs := y.data) (by rw [← hy.len]; exact hc)
    rw [← hy.len] at hm
    exact (memBytes_congr (fun c => memByte_settleBytes a y.len c) _ _).trans hm
  · intro c hcc
    rw [memByte_settleBytes, memByte_writeMem_out _ _ _ _ _ _ (by rw [← hy.len]; exact hcc)]
    rfl

theorem freshInst_engineAnswered {y : Access} {tag status : Nat} (hs : freshInst s i = some j) (h6 : j.sub ≠ 6)
    (ht : j.tag = tag) (hy : y.op = .write) : freshInst (engineAnswered tag y status [] false s) i
      = some { j with output := { made := true, status := some status, data := [], poison := false } } := by
  have h := freshInst_map (u := engineAnswered tag y status [] false s) (i := i) (j := j)
    (f := fun i => if i.sub ≠ 6 ∧ i.tag = tag then
      (if y.op = .read then { i with input := { made := true, status := some status, data := [], poison := false } }
       else { i with output := { made := true, status := some status, data := [], poison := false } }) else i)
    (fun k => by split; · split <;> rfl
                 · rfl) hs rfl
  rw [h, if_pos ⟨h6, ht⟩, if_neg (by rw [hy]; decide)]

/-- The end of an instance whose result is in DST: its record goes, its tag completes (R304). -/
theorem completeInst_spec {bs : List Byte} {e : Cpl} (hout : i.output.status = some 0) (hbs : finalBytes x i = some bs)
    (he : e = cplOf s i.tag) (ho : e.st = .opened)
    (hd : e.damaged = false) (hfe : e.firstErr = 0) (hcv : e.cvu = none) (hw : ∀ w, e.tile = some w → (tl s w).wait = none)
    (hsk : e.sink = .none) : MemKept s (completeInst x i s)
      ∧ (∀ j ∈ (completeInst x i s).coll.insts, sameInst i j = false)
      ∧ Finished i.tag (statusWord 0 i.drops false (decide (i.sub ≤ 1) && i.desc.exact_ && anySticky bs) i.late) s
          (completeInst x i s) := by
  obtain ⟨st, hst⟩ : ∃ b, b = (decide (i.sub ≤ 1) && i.desc.exact_ && anySticky bs) := ⟨_, rfl⟩
  obtain ⟨y, hy⟩ : ∃ y, y = dropInst i (noteLatest i (setCpl i.tag { e with drops := i.drops, inexact := st } s)) := ⟨_, rfl⟩
  have hcy : cplOf y i.tag = { e with drops := i.drops, inexact := st } := by
    rw [hy]; exact cplOf_setCpl_self ..
  have hcov : cvuCover i.tag 0 (resultOf x i bs) false y = y := by
    unfold cvuCover
    rw [hcy, hcv]
  have heq : completeInst x i s = concludeTag i.tag i.late y := by
    unfold completeInst
    rw [hout, hbs]
    dsimp only
    rw [if_neg (by decide), ← hst, ← he, ← hy, hcov]
  obtain ⟨f, hm, hcoll⟩ := concludeTag_spec (s := y) i.late rfl (by rw [hcy]; exact ho) (by rw [hcy]; exact hd)
    (by rw [hcy]; exact hfe) (by rw [hcy]; exact hcv) (by rw [hcy]; exact hsk) (by rw [hcy, hy]; exact hw)
  rw [hcy] at f
  obtain ⟨f1, f2, f3⟩ := f
  rw [heq, ← hst]
  refine ⟨fun a => (hm a).trans (by rw [hy]; rfl), fun j hj => ?_, f1, f2, by rw [f3, hcy, ← he]⟩
  rw [hcoll, hy] at hj
  have h2 := (List.mem_filter.1 hj).2
  exact (sameInst_comm i j).trans (Bool.not_eq_true' _ ▸ h2)

theorem collComplete_completes {bs out : List Byte} {t off : Nat} {e : Cpl} (hi : instsAt s gid num pos = [i])
    (hx : groupAt s i.gid i.epoch = some x) (hl : i.loaded = true) (hbs : finalBytes x i = some bs) (h6 : i.sub ≠ 6)
    (htodo : i.todo = []) (hst : ∀ h ∈ s.net.staged, h.coll ≠ some (i.gid, i.num, i.pos)) (hout : out = resultOf x i bs)
    (hio : i.output = {})
    (hf : engineReach s (engineAccess s x i .write i.desc.dst out out.length) = .found (.sram 0 t off))
    (hb : banksClear s 1 (sramAddr t off) (max 1 out.length) = true)
    (hh : heldBefore s 1 (banksAt (sramAddr t off) (max 1 out.length)) = false)
    (hc : ∀ v ∈ unitsOf (sramAddr t off) out.length, eccOf s v = .clean) (he : e = cplOf s i.tag) (ho : e.st = .opened)
    (hd : e.damaged = false) (hfe : e.firstErr = 0) (hcv : e.cvu = none) (hw : ∀ w, e.tile = some w → (tl s w).wait = none)
    (hsk : e.sink = .none) : Completes (.collComplete gid num pos) s (fun u =>
      memBytes u (sramAddr t off) out.length = out ∧ MemKeptBut (sramAddr t off) out.length s u
        ∧ (∀ j ∈ u.coll.insts, sameInst i j = false)
        ∧ Finished i.tag (statusWord 0 i.drops false (decide (i.sub ≤ 1) && i.desc.exact_ && anySticky bs) i.late) s u) := by
  have hfr := freshInst_of_instsAt hi
  obtain ⟨i', hi'⟩ : ∃ i', i' = { i with output := { i.output with made := true } } := ⟨_, rfl⟩
  obtain ⟨acc, hacc⟩ : ∃ a, a = engineAccess s x i .write i.desc.dst out out.length := ⟨_, rfl⟩
  have hask : askOutput x i s = submitAll [acc] (putInst i' s) := by
    have hfin : isFinal s x i = true := by
      have : s.net.staged.any i.staged = false := by
        rw [List.any_eq_false]
        intro h hh
        simp [Inst.staged, hst h hh]
      simp [isFinal, h6, hbs, htodo, this]
    unfold askOutput
    rw [hfin, hio, if_neg (by decide), hbs, hacc, hi', hout, hio]
    rfl
  have he6 : x.engine < 4 := fld_lt _ 35 34
  have hyw : EngineWrite acc i.tag (cplOf s i.tag).gen := by
    rw [hacc]
    exact ⟨rfl, ⟨Nat.le_add_right _ _, by show 0x200 + x.engine < 0x204; omega⟩, rfl, rfl, rfl⟩
  have hal : acc.len = out.length := by rw [hacc]; rfl
  have had : acc.data = out := by rw [hacc]; rfl
  rw [← hacc] at hf
  obtain ⟨y', z, hop, hsub, ⟨b, m, ec, ts, hz⟩, hwait, hmem, hbut⟩ := submitAll_engineWrite (s := putInst i' s) hyw
    (t := t) (off := off) hf (by rw [hal]; exact hb) (by rw [hal]; exact hh) (by rw [he] at ho; exact ho) rfl
    (by rw [he] at hd; exact hd) (by rw [hal]; exact hc)
  rw [hal] at hmem hbut
  rw [had] at hmem
  generalize sramAddr t off = a at hmem hbut ⊢
  have hsame : sameInst i i' = true := by rw [hi']; exact sameInst_self i
  have hfz : freshInst z i = some i' := by
    have := freshInst_putInst hsame hfr
    rw [hz]; exact this
  have hfq := freshInst_engineAnswered (tag := i.tag) (status := stOk) hfz (by rw [hi']; exact h6) (by rw [hi']) hop
  obtain ⟨q, hq⟩ : ∃ q, q = engineAnswered i.tag y' stOk [] false z := ⟨_, rfl⟩
  rw [← hq] at hfq hsub
  obtain ⟨k, hk⟩ : ∃ k : Inst, k = { i' with output := { made := true, status := some stOk, data := [], poison := false } } := ⟨_, rfl⟩
  rw [← hk] at hfq
  have hgq : groupAt q i.gid i.epoch = some x := by rw [hq, hz]; exact hx
  have hex : exec (.collComplete gid num pos) s = ok (completeInst x k q) := by
    show execCollComplete gid num pos s = _
    unfold execCollComplete
    rw [hi, List.foldl_cons, List.foldl_nil]
    have h1 : withInst i askInput s = s := by
      rw [withInst_of hfr hx]; unfold askInput; exact if_pos (by rw [hl]; rfl)
    have h2 : withInst i takeInput s = s := by
      rw [withInst_of hfr hx]
      unfold takeInput
      split
      · rfl
      · exact if_pos hl
    rw [h1, h2, withInst_of hfr hx, hask, hsub, withInst_of hfq hgq]
  have hkt : k.tag = i.tag := by rw [hk, hi']
  have hcq : cplOf q k.tag = cplOf s i.tag := by rw [hkt, hq, hz]; rfl
  have hks : k.output.status = some 0 := by rw [hk]; rfl
  have hkf : finalBytes x k = some bs := by rw [hk, hi']; exact hbs
  have hkw : ∀ w, e.tile = some w → (tl q w).wait = none := fun w hw' => by
    have h1 : tl q w = tl z w := by rw [hq]; rfl
    rw [h1, hwait]
    exact hw w hw'
  obtain ⟨c1, c2, c3⟩ := completeInst_spec (s := q) (x := x) (i := k) (e := e) hks hkf (by rw [hcq, he]) ho hd hfe hcv hkw hsk
  have hmq : ∀ c, memByte q c = memByte z c := fun c => by rw [hq]; rfl
  refine ⟨_, hex, ?_, fun c hc => ?_, fun j hj => ?_, ?_⟩
  · exact (memBytes_congr (fun c => (c1 c).trans (hmq c)) _ _).trans hmem
  · rw [c1, hmq, hbut c hc]; rfl
  · rw [← c2 j hj, hk, hi']; rfl
  · obtain ⟨f1, f2, f3⟩ := c3
    rw [hkt] at f1 f2 f3
    rw [hkt] at hcq
    refine ⟨f1, ?_, by rw [f3, hcq]⟩
    rw [f2, hk, hi']

/-- Settles O42: off pitch each chunk that can be sent is injected; a late one joins the routers' queue; a result is written
by an access that its banks let through, and the member's tag completes. -/
theorem collectivesSendAndComplete : Obligations.CollectivesSendAndComplete := by
  unfold Obligations.CollectivesSendAndComplete
  intro gid num pos s i x hi hx hl
  refine ⟨fun he hp => collPhaseSend_completes hi hx hl he hp, collLateSend_completes gid num pos s, ?_⟩
  intro bs out t off e hbs h6 htodo hst hout hio hf hb hh hc he ho hd hfe hcv hw hsk
  exact collComplete_completes hi hx hl hbs h6 htodo hst hout hio hf hb hh hc he ho hd hfe hcv hw hsk

end Sys2Proof.Machine
end

section
/-! PROOFS. What the bounds on entries and packets end (R30, R198, R200, R201). -/

namespace Sys2Proof.Machine

variable {s u : State} {tag : Nat} {e : Cpl}

-- Deadlines (R30)

/-- The instance of a tag goes with its deadline. -/
def dropInstOf (tag : Nat) (s : State) : State :=
  match s.coll.insts.find? (fun i => i.sub != 6 && i.tag == tag) with
  | some i => s |> dropInst i |> dropStaged i |> addSat Reg.collErrCount 15 0 1
  | none => s

theorem expireTag_eq (tag : Nat) (s : State) : expireTag tag s = failTag tag
    (if (cplOf s tag).firstErr = 0 then stTimeout else (cplOf s tag).firstErr) (cplOf s tag).late (dropInstOf tag s) := rfl

theorem dropInstOf_keeps (tag : Nat) (s : State) : (dropInstOf tag s).cpl = s.cpl ∧ (dropInstOf tag s).now = s.now := by
  unfold dropInstOf
  split <;> exact ⟨rfl, rfl⟩

theorem deadlineExpiry_open (he : e = cplOf s tag) (ho : e.st = .opened) (h64 : e.deadline < 2 ^ 64) (hd : e.damaged = false)
    (hp : e.kind = .pitch → e.late = true) (h0 : e.deadline ≠ 0) : Completes (.deadlineExpiry tag) s (fun u =>
      Finished tag (statusWord (if e.firstErr = 0 then 0x001 else e.firstErr) 0 false false e.late) s u
        ∧ e.deadline ≤ now u) := by
  obtain ⟨y, hy⟩ : ∃ y, y = clockTo e.deadline s := ⟨_, rfl⟩
  have hc : cplOf y tag = e := by rw [hy, cplOf_clockTo, he]
  have hex : exec (.deadlineExpiry tag) s = ok (expireTag tag y) := by
    have hk : (e.kind == .pitch && !e.late) = false := by
      by_cases h : e.kind = .pitch
      · rw [hp h, Bool.not_true, Bool.and_false]
      · rw [beq_eq_false_iff_ne.2 h, Bool.false_and]
    show execDeadlineExpiry tag s = _
    unfold execDeadlineExpiry
    dsimp only
    rw [← he, if_neg (by simp [hd]), if_pos ⟨ho, by rw [hk]; rfl, h0⟩, hy]
  obtain ⟨hcpl, hnow⟩ := dropInstOf_keeps tag y
  have hcd : cplOf (dropInstOf tag y) tag = e := by rw [cplOf, hcpl, ← cplOf, hc]
  refine ⟨_, hex, ?_⟩
  rw [expireTag_eq, hc]
  obtain ⟨f1, f2, f3⟩ := finished_failTag (s := dropInstOf tag y) (tag := tag)
    (status := if e.firstErr = 0 then stTimeout else e.firstErr) (late := e.late) (by rw [hcd]; exact ho) (by rw [hcd]; exact hd)
  refine ⟨⟨f1, f2, by rw [f3, hcd, ← he]⟩, ?_⟩
  rw [now, (aside_failTag tag _ e.late (dropInstOf tag y)).now, hnow, hy, ← now]
  exact now_clockTo s _ h64

theorem deadlineExpiry_damaged (he : e = cplOf s tag) (ho : e.st = .opened) (h64 : e.deadline < 2 ^ 64) (hd : e.damaged = true) :
    Completes (.deadlineExpiry tag) s (fun u =>
      Finished tag (statusWord 0x001 0 false false e.late) s u ∧ e.deadline ≤ now u) := by
  obtain ⟨y, hy⟩ : ∃ y, y = clockTo e.deadline s := ⟨_, rfl⟩
  obtain ⟨z, hz⟩ : ∃ z, z = setCpl tag { e with damaged := false, sent := true } y := ⟨_, rfl⟩
  have hc : cplOf y tag = e := by rw [hy, cplOf_clockTo, he]
  have hcz : cplOf z tag = { e with damaged := false, sent := true } := by rw [hz, cplOf_setCpl_self]
  have hex : exec (.deadlineExpiry tag) s = ok (failTag tag stTimeout e.late z) := by
    show execDeadlineExpiry tag s = _
    unfold execDeadlineExpiry
    dsimp only
    rw [← he, if_pos ⟨ho, hd⟩, ← hy, hz]
    unfold expireDamaged
    rw [hc]
  obtain ⟨f1, f2, f3⟩ := finished_failTag (s := z) (tag := tag) (status := stTimeout) (late := e.late) (by rw [hcz]; exact ho)
    (by rw [hcz])
  refine ⟨_, hex, ⟨f1, f2, by rw [f3, hcz, ← he]⟩, ?_⟩
  rw [now, (aside_failTag tag _ e.late z).now, hz]
  have h := now_clockTo s e.deadline h64
  rw [← hy, now] at h
  exact h

-- Quarantine (R198)

theorem quarantineExpiry_completes (hq : (cplOf s tag).st = .quarantine)
    (h64 : (cplOf s tag).doneAt + rdF s Reg.cplQuarantine 47 0 < 2 ^ 64) : Completes (.quarantineExpiry tag) s (fun u =>
      (cplOf u tag).st = .free ∧ (cplOf u tag).gen = (cplOf s tag).gen
        ∧ (cplOf s tag).doneAt + rdF s Reg.cplQuarantine 47 0 ≤ now u ∧ RegsKept [] s u ∧ MemKept s u) := by
  obtain ⟨y, hy⟩ : ∃ y, y = clockTo ((cplOf s tag).doneAt + rdF s Reg.cplQuarantine 47 0) s := ⟨_, rfl⟩
  have hex : exec (.quarantineExpiry tag) s = ok (setCpl tag (freedEntry (cplOf s tag)) y) := by
    show execQuarantineExpiry tag s = _
    unfold execQuarantineExpiry
    dsimp only
    rw [if_pos hq, hy]
  have hn := now_clockTo s _ h64
  rw [← hy] at hn
  have hk : Kept [] s y := by rw [hy]; exact (Kept.refl _ s).clockTo _
  refine ⟨_, hex, by rw [cplOf_setCpl_self]; rfl, by rw [cplOf_setCpl_self]; rfl, hn, hk.regs, hk.mem⟩

-- The hold limit (R201)

/-- Of two packets the one held longer. -/
def heldLonger (a : Option Packet) (p : Packet) : Option Packet :=
  match a with
  | none => some p
  | some q => if p.heldFrom < q.heldFrom then some p else some q

theorem longestHeld_eq (l : List Packet) : longestHeld l = (l.filter limited).foldl heldLonger none := rfl

/-- A packet that every other of a list has come after is the one held longest. -/
theorem foldl_heldLonger {p : Packet} {l : List Packet} (hfirst : ∀ x ∈ l, x ≠ p → p.heldFrom < x.heldFrom) :
    (p ∈ l → l.foldl heldLonger none = some p) ∧ ∀ q, l.foldl heldLonger none = some q → q ∈ l := by
  induction l using List.reverseRecOn with
  | nil => exact ⟨fun h => absurd h (by simp), fun q h => absurd h (by simp)⟩
  | append_singleton l y ih =>
    obtain ⟨h1, h2⟩ := ih fun x hx => hfirst x (List.mem_append_left _ hx)
    have hy := hfirst y (by simp)
    rw [List.foldl_append, List.foldl_cons, List.foldl_nil]
    generalize hr : l.foldl heldLonger none = r at h1 h2 ⊢
    cases r with
    | none =>
      refine ⟨fun hp => ?_, fun q hq => ?_⟩
      · rcases List.mem_append.1 hp with h | h
        · cases h1 h
        · rw [List.mem_singleton.1 h]; rfl
      · cases hq; simp
    | some q =>
      have hq := h2 q rfl
      have hpq : q ≠ p → p.heldFrom < q.heldFrom := hfirst q (List.mem_append_left _ hq)
      unfold heldLonger
      dsimp only
      split
      · next hlt =>
        refine ⟨fun hp => ?_, fun k hk => by cases hk; simp⟩
        by_cases hyp : y = p
        · rw [hyp]
        · have hpl : p ∈ l := by simpa [Ne.symm hyp] using hp
          have hqp : q = p := Option.some.inj (h1 hpl)
          have := hy hyp
          rw [hqp] at hlt
          omega
      · next hlt =>
        refine ⟨fun hp => ?_, fun k hk => by cases hk; exact List.mem_append_left _ hq⟩
        rcases List.mem_append.1 hp with h | h
        · exact h1 h
        · rw [← List.mem_singleton.1 h] at hlt
          by_contra hne
          exact hlt (hpq fun e => hne (by rw [e]))

theorem longestHeld_of_first {p : Packet} {l : List Packet} (hp : p ∈ l) (hl : limited p = true)
    (hfirst : ∀ x ∈ l, x ≠ p → limited x = true → p.heldFrom < x.heldFrom) : longestHeld l = some p :=
  (foldl_heldLonger fun x hx hne => hfirst x (List.mem_filter.1 hx).1 hne (List.mem_filter.1 hx).2).1
    (List.mem_filter.2 ⟨hp, hl⟩)

/-- A discard changes the ports, and the one queue that its place is. -/
structure Discarded (p : Packet) (place : HoldPlace) (s u : State) : Prop where
  regs : ∀ a, rd u a = rd s a
  mem : MemKept s u
  now : u.now = s.now
  cpl : u.cpl = s.cpl
  router : u.net.routerQ = (if place = .router then s.net.routerQ.eraseP (fun x => x.2 = p) else s.net.routerQ)
  deliver : u.rma.deliverQ = (if place = .deliver then s.rma.deliverQ.eraseP (fun x => x = p) else s.rma.deliverQ)
  bond : ∀ b, place = .bond b → (bnd u b).queue = (bnd s b).queue.eraseP (fun x => x.2 = p)
  pitch : ∀ n, place = .pitch n → u.net.pitchHeld = s.net.pitchHeld.eraseP (fun x => x.port = n && x.pkt = p)
  staged : ∀ n, place = .staged n → u.net.staged = s.net.staged.eraseP (fun x => x.port = n && x.pkt = p)

/-- What a packet's discard at a port or in a merge leaves. -/
structure Blanked (s u : State) : Prop where
  regs : ∀ a, rd u a = rd s a
  mem : MemKept s u
  now : u.now = s.now
  cpl : u.cpl = s.cpl
  router : u.net.routerQ = s.net.routerQ
  deliver : u.rma.deliverQ = s.rma.deliverQ

theorem Blanked.refl (s : State) : Blanked s s := ⟨fun _ => rfl, fun _ => rfl, rfl, rfl, rfl, rfl⟩

theorem Blanked.onPrt (h : Blanked s u) (n : Nat) (f : Port → Port) : Blanked s (onPrt n f u) :=
  ⟨h.regs, h.mem, h.now, h.cpl, h.router, h.deliver⟩

theorem Blanked.onBnd (h : Blanked s u) (n : Nat) (f : Bond → Bond) : Blanked s (onBnd n f u) :=
  ⟨h.regs, h.mem, h.now, h.cpl, h.router, h.deliver⟩

theorem Blanked.foldl (h : Blanked s u) (l : List Nat) {f : State → Nat → State} (hf : ∀ v n, Blanked s v → Blanked s (f v n)) :
    Blanked s (l.foldl f u) := List.foldlRecOn _ _ h fun v hv n _ => hf v n hv

theorem blanked_blankSent (n : Nat) (p : Packet) (s : State) : Blanked s (blankSent n p s) := by
  unfold blankSent
  dsimp only
  split
  · exact (Blanked.refl s).onPrt n _
  · split
    · exact (Blanked.refl s).onPrt n _
    · exact (((Blanked.refl s).onPrt n _).onBnd _ _).foldl _ fun _ m hv => hv.onPrt m _

theorem blanked_blankRx (b : Nat) (p : Packet) (s : State) : Blanked s (blankMerge.blankRx b p s) :=
  (Blanked.refl s).foldl _ fun _ m hv => hv.onPrt m _

theorem blanked_blankMerge (b : Nat) (p : Packet) (s : State) : Blanked s (blankMerge b p s) := by
  unfold blankMerge
  dsimp only
  split
  · split
    · exact (Blanked.refl s).onBnd b _
    · exact blanked_blankRx b p s
  · exact blanked_blankRx b p s

theorem Blanked.discarded {p : Packet} {place : HoldPlace} (h : Blanked s u) (hr : place ≠ .router) (hd : place ≠ .deliver)
    (hb : ∀ b, place ≠ .bond b) (hp : ∀ n, place ≠ .pitch n) (hs : ∀ n, place ≠ .staged n) : Discarded p place s u :=
  ⟨h.regs, h.mem, h.now, h.cpl, by rw [h.router, if_neg hr], by rw [h.deliver, if_neg hd], fun b e => absurd e (hb b),
    fun n e => absurd e (hp n), fun n e => absurd e (hs n)⟩

theorem discarded_discardFrom (p : Packet) (place : HoldPlace) (s : State) : Discarded p place s (discardFrom p s place) := by
  cases place with
  | router => exact ⟨fun _ => rfl, fun _ => rfl, rfl, rfl, rfl, rfl, nofun, nofun, nofun⟩
  | bond b =>
    refine ⟨fun _ => rfl, fun _ => rfl, rfl, rfl, rfl, rfl, fun b' h => ?_, nofun, nofun⟩
    cases h
    exact congrArg Bond.queue (bnd_onBnd_self _ b _)
  | pitch n => exact ⟨fun _ => rfl, fun _ => rfl, rfl, rfl, rfl, rfl, nofun, fun m h => by cases h; rfl, nofun⟩
  | staged n => exact ⟨fun _ => rfl, fun _ => rfl, rfl, rfl, rfl, rfl, nofun, nofun, fun m h => by cases h; rfl⟩
  | port n => exact (blanked_blankSent n p s).discarded nofun nofun nofun nofun nofun
  | merge b => exact (blanked_blankMerge b p s).discarded nofun nofun nofun nofun nofun
  | deliver => exact ⟨fun _ => rfl, fun _ => rfl, rfl, rfl, rfl, rfl, nofun, nofun, nofun⟩

theorem packetsIn_clock (place : HoldPlace) (c : Coll) (n : Word) (s : State) :
    packetsIn { s with coll := c, now := n } place = packetsIn s place := by cases place <;> rfl

theorem holdLimitDiscard_completes {place : HoldPlace} {p : Packet} (hp : p ∈ packetsIn s place) (hl : limited p = true)
    (hfirst : ∀ x ∈ packetsIn s place, x ≠ p → limited x = true → p.heldFrom < x.heldFrom)
    (h64 : p.heldFrom + 1600000 < 2 ^ 64) : Completes (.holdLimitDiscard place) s (fun u =>
      p.heldFrom + 1600000 ≤ now u
        ∧ rdF u Reg.routeDiscard 63 32 = min (rdF s Reg.routeDiscard 63 32 + 1) (2 ^ 32 - 1)
        ∧ u.net.routerQ = (if place = .router then s.net.routerQ.eraseP (fun x => x.2 = p) else s.net.routerQ)
        ∧ u.rma.deliverQ = (if place = .deliver then s.rma.deliverQ.eraseP (fun x => x = p) else s.rma.deliverQ)
        ∧ (∀ b, place = .bond b → (bnd u b).queue = (bnd s b).queue.eraseP (fun x => x.2 = p))
        ∧ (∀ n, place = .pitch n → u.net.pitchHeld = s.net.pitchHeld.eraseP (fun x => x.port = n && x.pkt = p))
        ∧ (∀ n, place = .staged n → u.net.staged = s.net.staged.eraseP (fun x => x.port = n && x.pkt = p))
        ∧ u.cpl = s.cpl ∧ RegsKept [Reg.routeDiscard] s u ∧ MemKept s u) := by
  obtain ⟨c, n, hx⟩ := clockTo_cases s (p.heldFrom + 1600000)
  have hn := now_clockTo s _ h64
  rw [hx] at hn
  have hex : exec (.holdLimitDiscard place) s = ok (countDiscard (discardFrom p { s with coll := c, now := n } place)) := by
    show execHoldLimitDiscard place s = _
    unfold execHoldLimitDiscard
    rw [longestHeld_of_first hp hl hfirst, ← hx]
  have hd := discarded_discardFrom p place { s with coll := c, now := n }
  generalize discardFrom p { s with coll := c, now := n } place = u at hex hd
  refine ⟨_, hex, ?_, ?_, hd.router, hd.deliver, hd.bond, hd.pitch, hd.staged, hd.cpl, fun a ha => ?_, hd.mem⟩
  · refine hn.trans (Nat.le_of_eq ?_)
    rw [now, ← hd.now]; rfl
  · rw [countDiscard, rdF_addSat_self _ _ _ _ _ (by decide) (by decide), rdF, hd.regs]; rfl
  · rw [countDiscard, rd_addSat_ne _ _ _ _ (by simpa using ha), hd.regs]; rfl

/-- Settles O32: an expired entry completes with its first error or TIMEOUT, a quarantined one is freed, and a place discards
the packet that it has held longest. -/
theorem remoteTimers : Obligations.RemoteTimers := by
  unfold Obligations.RemoteTimers
  refine ⟨fun tag s e he ho h64 => ⟨fun hd hp h0 => ?_, fun hd => ?_⟩, fun tag s hq h64 => ?_, fun s place p hp hl hf h64 => ?_⟩
  · exact deadlineExpiry_open he ho h64 hd hp h0
  · exact deadlineExpiry_damaged he ho h64 hd
  · exact quarantineExpiry_completes hq h64
  · exact holdLimitDiscard_completes hp hl hf h64

end Sys2Proof.Machine
end

section
/-! PROOFS. What a response does at its requester (R191–R199, R206). -/

namespace Sys2Proof.Machine

variable {s u : State} {tag t d : Nat} {e : Cpl} {p : Packet}

-- A response that matches nothing (R199)

theorem onResponse_stale {f : Cpl → State → State} (hp : packetOk p = true)
    (h : (cplOf s p.tag).st ≠ .opened ∨ (cplOf s p.tag).gen ≠ p.gen) :
    onResponse p f s = addSat Reg.staleCount 63 0 1 s := by
  unfold onResponse ifListed
  rw [if_pos hp]
  exact if_neg fun ⟨h1, h2, _⟩ => h.elim (fun h => h h1) (fun h => h h2)

theorem onResponse_open {f : Cpl → State → State} (hp : packetOk p = true) (ho : (cplOf s p.tag).st = .opened)
    (hg : (cplOf s p.tag).gen = p.gen) (hd : (cplOf s p.tag).damaged = false) :
    onResponse p f s = f (cplOf s p.tag) s := by
  unfold onResponse ifListed
  rw [if_pos hp]
  exact if_pos ⟨ho, hg, by simp [hd]⟩

/-- A stale response is counted and has no other effect. -/
theorem staleCounted (s : State) (u : State) (hu : u = addSat Reg.staleCount 63 0 1 s) :
    rdF u Reg.staleCount 63 0 = min (rdF s Reg.staleCount 63 0 + 1) (2 ^ 64 - 1)
      ∧ u.cpl = s.cpl ∧ RegsKept [Reg.staleCount] s u ∧ MemKept s u := by
  rw [hu]
  exact ⟨rdF_addSat_self _ _ _ _ _ (by decide) (by decide), rfl,
    fun a ha => rd_addSat_ne _ _ _ _ (by simpa using ha), fun _ => rfl⟩

theorem stale_completes (h : (cplOf s p.tag).st ≠ .opened ∨ (cplOf s p.tag).gen ≠ p.gen) {c : Instr} {op : Nat}
    (hc : (c, op) ∈ [(Instr.rdResp p, 0x60), (.atResp p, 0x62), (.copyDone p, 0x63), (.getData p, 0x64)])
    (hp : packetOk { p with opcode := op } = true) : Completes c s (fun u =>
      rdF u Reg.staleCount 63 0 = min (rdF s Reg.staleCount 63 0 + 1) (2 ^ 64 - 1)
        ∧ u.cpl = s.cpl ∧ RegsKept [Reg.staleCount] s u ∧ MemKept s u) := by
  simp only [List.mem_cons, List.not_mem_nil, or_false, Prod.mk.injEq] at hc
  rcases hc with ⟨rfl, rfl⟩ | ⟨rfl, rfl⟩ | ⟨rfl, rfl⟩ | ⟨rfl, rfl⟩ <;>
    exact ⟨_, rfl, staleCounted s _ (onResponse_stale (p := { p with opcode := _ }) hp h)⟩

-- Completion (R198)

/-- An answered operation without a channel completes with its first error, or with none. -/
theorem concludeTag_eq {late : Bool} (he : e = cplOf s tag) (hc : e.cvu = none) : concludeTag tag late s
    = finishTag tag e.firstErr (if e.firstErr = 0 then e.drops else 0) (decide (e.firstErr = 0) && e.inexact) late none
        (setCpl tag { e with answered := true, late := late } s) := by
  unfold concludeTag
  rw [← he]
  by_cases h : e.firstErr = 0
  · rw [if_neg (by simp [h]), hc, h]; rfl
  · rw [if_pos h, hc, if_neg h, decide_eq_false h]; rfl

/-- What an open operation without drops, a channel or an inexact result ends with. -/
theorem finished_concludeTag {late : Bool} (he : e = cplOf s tag) (hc : e.cvu = none) (ho : e.st = .opened)
    (hd : e.damaged = false) (hdr : e.drops = 0) (hi : e.inexact = false) :
    Finished tag (statusWord e.firstErr 0 false false late) s (concludeTag tag late s) := by
  have hy : cplOf (setCpl tag { e with answered := true, late := late } s) tag = { e with answered := true, late := late } :=
    cplOf_setCpl_self ..
  obtain ⟨f1, f2, f3⟩ := finished_finishTag (s := setCpl tag { e with answered := true, late := late } s) (tag := tag)
    (status := e.firstErr) (drops := if e.firstErr = 0 then e.drops else 0) (inexact := decide (e.firstErr = 0) && e.inexact)
    (late := late) (check := none) (by rw [hy]; exact ho) (by rw [hy]; exact hd)
  rw [concludeTag_eq he hc]
  refine ⟨f1, ?_, by rw [f3, hy, he]⟩
  rw [f2, hdr, hi, Bool.and_false, ite_self]
  rfl

/-- A register that awaited an answer: an error clears it (R196). -/
def answeredReg (d status : Nat) (x : Tile) : Tile :=
  let x := { x with pend := x.pend.erase d }
  if isError status then setG d 0 x else x

theorem greg_answeredReg (d status : Nat) (x : Tile) (r : Nat) :
    greg (answeredReg d status x) r = if isError status then greg (setG d 0 x) r else greg x r := by
  unfold answeredReg
  dsimp only
  split
  · unfold setG; split <;> rfl
  · rfl

theorem wait_answeredReg (d status : Nat) (x : Tile) : (answeredReg d status x).wait = x.wait := by
  unfold answeredReg
  dsimp only
  split
  · unfold setG; split <;> rfl
  · rfl

/-- The completion of an operation whose destination is a register of a tile that does not wait. -/
theorem afterRecord_reg {status : Nat} {word check : Word} (hs : e.sink = .reg t d) (ht : e.tile = some t)
    (hw : (tl s t).wait = none) (ho : e.orphan = false) (ha : e.ar = false) :
    ∃ x, afterRecord tag status e word check s = { onTl t (answeredReg d status) s with host := x } := by
  obtain ⟨y, hy⟩ : ∃ y, y = onTl t (answeredReg d status) s := ⟨_, rfl⟩
  have h1 : toSink tag e status word check s = y := by rw [hy]; unfold toSink; rw [hs]; rfl
  obtain ⟨x, hx⟩ := noteJobError_frame e status y
  have h2 : (tl y t).wait = none := by rw [hy, tl_onTl_self, wait_answeredReg, hw]
  refine ⟨x, ?_⟩
  unfold afterRecord
  dsimp only
  rw [h1, hx, ho, ha, ht, if_neg (by decide), if_neg (by decide), ← hy]
  exact settle_of_no_wait h2

/-- What an answered register operation leaves in the registers and memory. -/
theorem concludeTag_reg {late : Bool} (he : e = cplOf s tag) (hst : e.st = .opened) (hdm : e.damaged = false)
    (hc : e.cvu = none) (hs : e.sink = .reg t d) (ht : e.tile = some t)
    (hw : (tl s t).wait = none) (ho : e.orphan = false) (ha : e.ar = false) :
    MemKept s (concludeTag tag late s)
      ∧ ∀ r, greg (tl (concludeTag tag late s) t) r = if isError e.firstErr then greg (setG d 0 (tl s t)) r else greg (tl s t) r := by
  obtain ⟨y, hy⟩ : ∃ y, y = setCpl tag { e with answered := true, late := late } s := ⟨_, rfl⟩
  have hcy : cplOf y tag = { e with answered := true, late := late } := by rw [hy, cplOf_setCpl_self]
  rw [concludeTag_eq he hc, ← hy, finishTag_of_open (by rw [hcy]; exact hst) (by rw [hcy]; exact hdm)]
  obtain ⟨x, hx⟩ := afterRecord_reg (s := writeRecord tag (cplOf y tag)
    (statusWord e.firstErr (if e.firstErr = 0 then e.drops else 0) (none : Option Word).isSome
      (decide (e.firstErr = 0) && e.inexact) late) ((none : Option Word).getD 0) y) (tag := tag) (status := e.firstErr)
    (word := statusWord e.firstErr (if e.firstErr = 0 then e.drops else 0) (none : Option Word).isSome
      (decide (e.firstErr = 0) && e.inexact) late) (check := (none : Option Word).getD 0)
    (e := cplOf y tag) (t := t) (d := d) (by rw [hcy]; exact hs) (by rw [hcy]; exact ht) (by rw [hy]; exact hw)
    (by rw [hcy]; exact ho) (by rw [hcy]; exact ha)
  rw [hx]
  refine ⟨fun a => by rw [hy]; rfl, fun r => ?_⟩
  have htl : ∀ z : State, tl { onTl t (answeredReg d e.firstErr) z with host := x } t = answeredReg d e.firstErr (tl z t) :=
    fun z => tl_onTl_self ..
  rw [htl, greg_answeredReg, hy]
  rfl

-- Progress (R191, R196)

theorem noteError_none {status : Nat} (h : isError status = false) : noteError tag status s = s := by
  unfold noteError
  exact if_neg fun ⟨h1, _⟩ => by rw [h] at h1; cases h1

theorem noteError_first {status : Nat} (he : e = cplOf s tag) (h : isError status = true) (hf : e.firstErr = 0) :
    noteError tag status s = setCpl tag { e with firstErr := status } s := by
  unfold noteError
  rw [← he]
  exact if_pos ⟨h, hf⟩

theorem progress_on {n status : Nat} {late : Bool} (he : e = cplOf s tag) (ho : e.st = .opened) (h : isError status = false)
    (hn : e.got + n < e.expect) : progress tag n status late s = setCpl tag { e with got := e.got + n } s := by
  unfold progress
  rw [noteError_none h]
  dsimp only
  rw [← he, if_neg (by simp [ho])]
  exact if_neg (by omega)

theorem progress_last {n status : Nat} {late : Bool} (he : e = cplOf s tag) (ho : e.st = .opened) (hf : e.firstErr = 0)
    (hn : e.expect ≤ e.got + n) : ∃ z, progress tag n status late s = concludeTag tag late z
      ∧ cplOf z tag = { e with got := e.got + n, firstErr := if isError status then status else 0 }
      ∧ (∀ k, tl z k = tl s k) ∧ MemKept s z := by
  by_cases h : isError status = true
  · refine ⟨setCpl tag { e with firstErr := status, got := e.got + n } (setCpl tag { e with firstErr := status } s), ?_, ?_,
      fun k => rfl, fun a => rfl⟩
    · unfold progress
      rw [noteError_first he h hf]
      dsimp only
      rw [cplOf_setCpl_self, if_neg (by simp [ho])]
      exact if_pos hn
    · rw [cplOf_setCpl_self, if_pos h]
  · have h' : isError status = false := by simpa using h
    refine ⟨setCpl tag { e with got := e.got + n } s, ?_, ?_, fun k => rfl, fun a => rfl⟩
    · unfold progress
      rw [noteError_none h']
      dsimp only
      rw [← he, if_neg (by simp [ho])]
      exact if_pos hn
    · rw [cplOf_setCpl_self, if_neg h, ← hf]

/-- An open entry that no error, channel, drop or inexact result touches. -/
structure Plain (e : Cpl) : Prop where
  opened : e.st = .opened
  sound : e.damaged = false
  firstErr : e.firstErr = 0
  cvu : e.cvu = none
  drops : e.drops = 0
  exact_ : e.inexact = false

/-- The last part of an operation: it completes with the status of that part (R198). -/
theorem finished_progress {n status : Nat} {late : Bool} (he : e = cplOf s tag) (hp : Plain e) (hn : e.expect ≤ e.got + n) :
    Finished tag (statusWord (if isError status then status else 0) 0 false false late) s (progress tag n status late s) := by
  obtain ⟨z, hz, hc, -, -⟩ := progress_last (late := late) (status := status) he hp.opened hp.firstErr hn
  obtain ⟨f1, f2, f3⟩ := finished_concludeTag (s := z) (late := late) (e := cplOf z tag) rfl (by rw [hc]; exact hp.cvu)
    (by rw [hc]; exact hp.opened) (by rw [hc]; exact hp.sound) (by rw [hc]; exact hp.drops) (by rw [hc]; exact hp.exact_)
  rw [hz]
  rw [hc] at f2 f3
  exact ⟨f1, f2, by rw [f3, ← he]⟩

/-- The last part of a register operation: an error clears the register. -/
theorem progress_reg {n status : Nat} {late : Bool} (he : e = cplOf s tag) (hp : Plain e) (hn : e.expect ≤ e.got + n)
    (hs : e.sink = .reg t d) (ht : e.tile = some t) (hw : (tl s t).wait = none) (ho : e.orphan = false) (ha : e.ar = false) :
    MemKept s (progress tag n status late s) ∧ ∀ r, greg (tl (progress tag n status late s) t) r
      = if isError (if isError status then status else 0) then greg (setG d 0 (tl s t)) r else greg (tl s t) r := by
  obtain ⟨z, hz, hc, htl, hm⟩ := progress_last (late := late) (status := status) he hp.opened hp.firstErr hn
  obtain ⟨c1, c2⟩ := concludeTag_reg (s := z) (late := late) (e := cplOf z tag) (t := t) (d := d) rfl (by rw [hc]; exact hp.opened)
    (by rw [hc]; exact hp.sound) (by rw [hc]; exact hp.cvu) (by rw [hc]; exact hs) (by rw [hc]; exact ht)
    (by rw [htl]; exact hw) (by rw [hc]; exact ho) (by rw [hc]; exact ha)
  rw [hz]
  refine ⟨fun a => (c1 a).trans (hm a), fun r => ?_⟩
  rw [c2, hc, htl]

theorem Finished.st_ne {word : Word} (h : Finished tag word s u) : (cplOf u tag).st ≠ .opened := h.1

theorem ethReady_other (h : (cplOf s tag).kind ≠ .eth ∨ (cplOf s tag).st ≠ .opened) : ethReady tag s = s := by
  unfold ethReady
  exact if_neg fun ⟨h1, h2, _⟩ => h.elim (fun h => h h1) (fun h => h h2)

theorem follow_none (s : State) : follow ([], s) = s := rfl

theorem cvuCover_none {off : Nat} {bs : List Byte} {poison : Bool} (h : (cplOf s tag).cvu = none) : cvuCover tag off bs poison s = s := by
  unfold cvuCover
  rw [h]

-- A value comes back (R196)

/-- A value that reaches its register ends its operation. -/
theorem deliver_reg (he : e = cplOf s p.tag) (hp : Plain e) (hs : e.sink = .reg t d) (hd : d ≠ 0) (ht : e.tile = some t)
    (hw : (tl s t).wait = none) (ho : e.orphan = false) (ha : e.ar = false) (hst : p.status = 0) :
    RegisterAnswered p t d s (follow (deliver p.tag 0 e.expect p.status p.payload p.poison p.late s)) := by
  obtain ⟨y, hy⟩ : ∃ y, y = onTl t (setG d (leWord p.payload)) s := ⟨_, rfl⟩
  have hcy : cplOf y p.tag = e := by rw [hy, he]; rfl
  have hwy : (tl y t).wait = none := by
    rw [hy, tl_onTl_self, ← hw]
    unfold setG; split <;> rfl
  have heq : follow (deliver p.tag 0 e.expect p.status p.payload p.poison p.late s) = progress p.tag e.expect 0 p.late y := by
    unfold deliver
    rw [← he, if_neg (by simp [hp.opened]), hst, if_neg (by decide), hs]
    dsimp only
    rw [follow_none, ← hy, cvuCover_none (by rw [hcy]; exact hp.cvu)]
  have hn : e.expect ≤ e.got + e.expect := Nat.le_add_left _ _
  obtain ⟨f1, f2, f3⟩ := finished_progress (s := y) (status := 0) (late := p.late) (tag := p.tag) hcy.symm hp hn
  obtain ⟨m1, m2⟩ := progress_reg (s := y) (status := 0) (late := p.late) (tag := p.tag) hcy.symm hp hn hs ht hwy ho ha
  have hg : ∀ r, greg (tl (progress p.tag e.expect 0 p.late y) t) r = greg (setG d (leWord p.payload) (tl s t)) r := fun r => by
    rw [m2, if_neg (by decide), hy, tl_onTl_self]
  rw [heq]
  refine ⟨?_, fun r hr => ?_, ⟨f1, f2, by rw [f3, hcy, he]⟩, fun a => (m1 a).trans (by rw [hy]; rfl)⟩
  · rw [hg, greg_setG_self _ _ hd]
  · rw [hg, greg_setG_ne _ _ hr]

/-- An error that comes back in place of a value. -/
theorem deliver_reg_error (he : e = cplOf s p.tag) (hp : Plain e) (hs : e.sink = .reg t d) (hd : d ≠ 0) (ht : e.tile = some t)
    (hw : (tl s t).wait = none) (ho : e.orphan = false) (ha : e.ar = false) (hst : isError p.status = true) :
    greg (tl (follow (deliver p.tag 0 e.expect p.status p.payload p.poison p.late s)) t) d = 0
      ∧ Finished p.tag (statusWord p.status 0 false false p.late) s
          (follow (deliver p.tag 0 e.expect p.status p.payload p.poison p.late s))
      ∧ MemKept s (follow (deliver p.tag 0 e.expect p.status p.payload p.poison p.late s)) := by
  have hn : e.expect ≤ e.got + e.expect := Nat.le_add_left _ _
  have hf := finished_progress (status := p.status) (late := p.late) (tag := p.tag) he hp hn
  obtain ⟨m1, m2⟩ := progress_reg (status := p.status) (late := p.late) (tag := p.tag) he hp hn hs ht hw ho ha
  have heq : follow (deliver p.tag 0 e.expect p.status p.payload p.poison p.late s)
      = progress p.tag e.expect p.status p.late s := by
    unfold deliver
    rw [← he, if_neg (by simp [hp.opened]), if_pos hst, follow_none]
    exact ethReady_other (Or.inr hf.st_ne)
  rw [if_pos hst] at hf
  rw [heq]
  refine ⟨?_, hf, m1⟩
  rw [m2, if_pos hst, if_pos hst, greg_setG_self _ _ hd]

theorem exec_rdResp (hp : packetOk { p with opcode := 0x60 } = true) (he : e = cplOf s p.tag) (hst : e.st = .opened)
    (hg : e.gen = p.gen) (hd : e.damaged = false) (hk : e.kind ≠ .dmaOut) (hk' : e.kind ≠ .eth) : exec (.rdResp p) s
      = ok (follow (deliver p.tag 0 e.expect p.status p.payload p.poison p.late s)) := by
  subst he
  show execRdResp p s = _
  unfold execRdResp
  dsimp only
  rw [onResponse_open (p := { p with opcode := 0x60 }) hp hst hg hd]
  dsimp only
  rw [if_neg (by simp [hk, hk'])]

theorem exec_atResp (hp : packetOk { p with opcode := 0x62 } = true) (he : e = cplOf s p.tag) (hst : e.st = .opened)
    (hg : e.gen = p.gen) (hd : e.damaged = false) : exec (.atResp p) s
      = ok (follow (deliver p.tag 0 e.expect p.status p.payload p.poison p.late s)) := by
  subst he
  show execAtResp p s = _
  unfold execAtResp
  dsimp only
  rw [onResponse_open (p := { p with opcode := 0x62 }) hp hst hg hd]

-- Acknowledgements and the end of a copy (R191, R193)

theorem exec_ack (hp : packetOk { p with opcode := 0x61 } = true) (he : e = cplOf s p.tag) (hst : e.st = .opened)
    (hg : e.gen = p.gen) (hd : e.damaged = false) : exec (.ack p) s = ok (if p.status = stLinkDown then
        failTag p.tag (cplOf (noteError p.tag stLinkDown s) p.tag).firstErr (cplOf (noteError p.tag stLinkDown s) p.tag).late
          (noteError p.tag stLinkDown s)
      else progress p.tag (leNat p.payload % 2 ^ 33) p.status p.late s) := by
  subst he
  have hstale : decide ((cplOf s p.tag).st ≠ .opened ∨ (cplOf s p.tag).gen ≠ p.gen) = false := by simp [hst, hg]
  show execAck p s = _
  unfold execAck
  dsimp only
  rw [hstale, Bool.false_and, Bool.false_and, if_neg (by decide), onResponse_open (p := { p with opcode := 0x61 }) hp hst hg hd]
  rfl

theorem exec_copyDone (hp : packetOk { p with opcode := 0x63 } = true) (he : e = cplOf s p.tag) (hst : e.st = .opened)
    (hg : e.gen = p.gen) (hd : e.damaged = false) : exec (.copyDone p) s = ok (concludeTag p.tag p.late
      (noteError p.tag p.status (setCpl p.tag { e with got := leNat p.payload % 2 ^ 33 } s))) := by
  subst he
  show execCopyDone p s = _
  unfold execCopyDone
  dsimp only
  rw [onResponse_open (p := { p with opcode := 0x63 }) hp hst hg hd]

/-- The report of a third party ends the copy with its status. -/
theorem copyDone_completes (hp : packetOk { p with opcode := 0x63 } = true) (he : e = cplOf s p.tag) (hg : e.gen = p.gen)
    (hpl : Plain e) (hst : p.status = 0 ∨ isError p.status = true) :
    Completes (.copyDone p) s (Finished p.tag (statusWord p.status 0 false false p.late) s) := by
  refine ⟨_, exec_copyDone hp he hpl.opened hg hpl.sound, ?_⟩
  obtain ⟨y, hy⟩ : ∃ y, y = setCpl p.tag { e with got := leNat p.payload % 2 ^ 33 } s := ⟨_, rfl⟩
  rw [← hy]
  have hcy : cplOf y p.tag = { e with got := leNat p.payload % 2 ^ 33 } := by rw [hy, cplOf_setCpl_self]
  obtain ⟨z, hz⟩ : ∃ z, z = noteError p.tag p.status y := ⟨_, rfl⟩
  have hcz : cplOf z p.tag = { e with got := leNat p.payload % 2 ^ 33, firstErr := p.status } := by
    rcases hst with h | h
    · rw [hz, noteError_none (by rw [h]; decide), hcy, h, ← hpl.firstErr]
    · rw [hz, noteError_first rfl h (by rw [hcy]; exact hpl.firstErr), cplOf_setCpl_self, hcy]
  obtain ⟨f1, f2, f3⟩ := finished_concludeTag (s := z) (tag := p.tag) (late := p.late) rfl (by rw [hcz]; exact hpl.cvu)
    (by rw [hcz]; exact hpl.opened) (by rw [hcz]; exact hpl.sound) (by rw [hcz]; exact hpl.drops) (by rw [hcz]; exact hpl.exact_)
  rw [hcz] at f2 f3
  rw [← hz]
  exact ⟨f1, f2, by rw [f3, he]⟩

theorem ack_linkDown_completes (hp : packetOk { p with opcode := 0x61 } = true) (he : e = cplOf s p.tag) (hg : e.gen = p.gen)
    (hpl : Plain e) (hst : p.status = stLinkDown) :
    Completes (.ack p) s (Finished p.tag (statusWord 0x00E 0 false false e.late) s) := by
  have hex := exec_ack hp he hpl.opened hg hpl.sound
  have hn := noteError_first he (show isError stLinkDown = true from rfl) hpl.firstErr
  have hcz : cplOf (setCpl p.tag { e with firstErr := stLinkDown } s) p.tag = { e with firstErr := stLinkDown } := cplOf_setCpl_self ..
  rw [if_pos hst, hn, hcz] at hex
  obtain ⟨f1, f2, f3⟩ := finished_failTag (s := setCpl p.tag { e with firstErr := stLinkDown } s) (tag := p.tag)
    (status := stLinkDown) (late := e.late) (by rw [hcz]; exact hpl.opened) (by rw [hcz]; exact hpl.sound)
  exact ⟨_, hex, f1, f2, by rw [f3, hcz, he]⟩

theorem ack_completes (hp : packetOk { p with opcode := 0x61 } = true) (he : e = cplOf s p.tag) (hg : e.gen = p.gen)
    (hpl : Plain e) {n : Nat} (hn : n = leNat p.payload % 2 ^ 33) (hst : p.status = 0) :
    (e.got + n < e.expect → Completes (.ack p) s (fun u =>
          cplOf u p.tag = { e with got := e.got + n } ∧ RegsKept [] s u ∧ MemKept s u))
      ∧ (e.expect ≤ e.got + n → Completes (.ack p) s (Finished p.tag (statusWord 0 0 false false p.late) s)) := by
  have hex := exec_ack hp he hpl.opened hg hpl.sound
  rw [hst, if_neg (by decide), ← hn] at hex
  refine ⟨fun h => ⟨_, hex, ?_⟩, fun h => ⟨_, hex, ?_⟩⟩
  · rw [progress_on he hpl.opened (by decide) h]
    exact ⟨cplOf_setCpl_self .., fun a _ => rfl, fun a => rfl⟩
  · exact finished_progress (status := 0) he hpl h

-- A segment of a get (R192)

/-- Only registers and channels change. -/
def Covered (s u : State) : Prop := ∃ r c, u = { s with regs := r, cvu := c }

theorem Covered.refl (s : State) : Covered s s := ⟨_, _, rfl⟩

theorem Covered.trans {v : State} (h : Covered s u) (h' : Covered u v) : Covered s v := by
  obtain ⟨a, b, rfl⟩ := h
  obtain ⟨c, d, rfl⟩ := h'
  exact ⟨c, d, rfl⟩

theorem covered_cvuError (c : Nat) (s : State) : Covered s (cvuError c s) := ⟨_, _, rfl⟩

theorem covered_cvuFeed (c off : Nat) (bs : List Byte) (s : State) : Covered s (cvuFeed c off bs s) := by
  induction bs generalizing off s with
  | nil => exact Covered.refl s
  | cons b r ih =>
    rw [cvuFeed]
    refine Covered.trans ?_ (ih _ _)
    split
    · exact ⟨_, s.cvu, rfl⟩
    · exact ⟨s.regs, _, rfl⟩

theorem covered_cvuCount (c : Nat) (s : State) : Covered s (cvuCount c s) := ⟨_, s.cvu, rfl⟩

theorem covered_cvuIncoming (src tenant addr : Nat) (bs : List Byte) (poison : Bool) (s : State) :
    Covered s (cvuIncoming src tenant addr bs poison s) := by
  refine List.foldlRecOn (motive := fun v : State => Covered s v) _ _ (Covered.refl s) fun v hv c _ => hv.trans ?_
  dsimp only
  split
  · split
    · exact covered_cvuError c v
    · exact (covered_cvuFeed c _ _ v).trans (covered_cvuCount c _)
  · exact Covered.refl v

theorem covered_coverIncoming (y : Access) (bs : List Byte) (poison : Bool) (s : State) :
    Covered s (coverIncoming y bs poison s) := by
  unfold coverIncoming
  split
  · split
    · exact Covered.refl s
    · exact covered_cvuIncoming ..
  · dsimp only
    split
    · split
      · exact covered_cvuIncoming ..
      · exact Covered.refl s
    · exact Covered.refl s
  · exact Covered.refl s

/-- A write that lands is answered to its own entry, which goes on. -/
theorem answerWrite_landing {y : Access} (hop : y.op = .write) (hr : y.reply = .tag tag e.gen) (hpl : y.poison = false)
    (he : e = cplOf s tag) (hp : Plain e) (hn : e.got + y.len < e.expect) (hnow : now s ≤ y.since) : ∃ z, Covered s z
      ∧ answerWrite y ([] != ([] : List Nat)) s = ([], setCpl tag { e with got := e.got + y.len } z) := by
  obtain ⟨z, hz⟩ : ∃ z, z = coverIncoming y y.data y.poison s := ⟨_, rfl⟩
  have hcov := covered_coverIncoming y y.data y.poison s
  rw [← hz] at hcov
  have hcz : cplOf z tag = e ∧ now z = now s := by
    obtain ⟨a, b, h⟩ := hcov
    rw [h]; exact ⟨he.symm, rfl⟩
  obtain ⟨hcz, hnz⟩ := hcz
  have hown : answerOwn tag y stOk [] false z = ([], setCpl tag { e with got := e.got + y.len } z) := by
    unfold answerOwn
    rw [hop, hcz]
    dsimp only
    rw [cvuCover_none (by rw [hcz]; exact hp.cvu), ite_self, progress_on hcz.symm hp.opened (by decide) hn]
  refine ⟨z, hcov, ?_⟩
  unfold answerWrite
  rw [hpl] at hz ⊢
  dsimp only
  rw [if_neg (by decide), if_neg (by decide), if_neg (by decide), ← hz]
  unfold answer answerWhole
  rw [hr]
  dsimp only
  rw [ifCurrent, if_pos ⟨by rw [hcz]; exact hp.opened, by rw [hcz], by rw [hcz, hp.sound]; rfl,
    by rw [hnz]; exact Nat.le_trans hnow (Nat.le_add_right _ _)⟩]
  exact hown

theorem afterWrite_frame (y : Access) (a : Nat) (old : List Byte) (s : State) : ∃ ts, afterWrite y a old s = { s with tiles := ts } := by
  obtain ⟨⟨ts, hts⟩, -⟩ := settleBytes_frame a old.length s
  unfold afterWrite
  dsimp only
  rw [hts]
  split
  · split
    · exact ⟨_, rfl⟩
    · exact ⟨ts, rfl⟩
  · exact ⟨ts, rfl⟩

/-- A write to clean banks stores its bytes and is answered. -/
theorem performSram_write {y : Access} {a : Nat} (hop : y.op = .write) (hpl : y.poison = false) (hl : y.len = y.data.length)
    (hc : ∀ u ∈ unitsOf a y.len, eccOf s u = .clean) : ∃ ts, performSram 0 a y s
      = answerWrite y ([] != ([] : List Nat)) { (writeMem true false a y.data s).2 with tiles := ts } := by
  have hnote : (rmwUnits (0 == 0) a y.len).foldl (fun s u => noteErrors (32 * u) 32 (accOcc s y stPoisoned) s) s = s := by
    refine List.foldlRecOn (motive := fun w => w = s) _ _ rfl fun w hw j hj => ?_
    subst hw
    refine noteErrors_of_clean _ fun k hk => ?_
    rw [unitsOf_unit, List.mem_singleton] at hk
    rw [hk]; exact hc j (mem_rmwUnits hj)
  have hblocked : (writeMem true false a y.data s).1 = [] := blockedIn_of_clean s true _ _ (by rwa [← hl])
  obtain ⟨ts, hts⟩ := afterWrite_frame y a (memBytes s a y.len) (writeMem true false a y.data s).2
  refine ⟨ts, ?_⟩
  unfold performSram
  rw [hop]
  dsimp only
  rw [hnote, show (0 == 0) = true from rfl, hpl, viewBytes, if_pos rfl, hblocked, hts]

theorem accessPort_landing {y : Access} (hop : y.op = .write) (hr : y.reply = .tag tag e.gen) (hag : y.agent = t) :
    accessPort s y t = if (cplOf s tag).kind = .desc then 2 else 1 := by
  unfold accessPort replyOf
  rw [if_neg (by simp [hag]), hop, hr]

theorem headD_banksAt_sramAddr {off n : Nat} (h : off < 0x200000) : (banksAt (sramAddr t off) n).headD 0 / 16 = t := by
  unfold banksAt
  dsimp only
  rw [List.range_succ_eq_map, List.map_cons, List.headD_cons]
  simp only [sramAddr]
  omega

/-- What a segment that lands leaves: its bytes, and the entry that has got it. -/
theorem ownAccess_landing {y : Access} {off n : Nat} (he : e = cplOf s tag) (hp : Plain e) (hop : y.op = .write)
    (hr : y.reply = .tag tag e.gen) (hpl : y.poison = false) (ha : y.addr = sramAddr t off) (hag : y.agent = t)
    (htn : y.tenant = tileTenant s t) (hl : y.len = n) (hdl : n = y.data.length) (hserve : SramServes s t) (huse : MayUse s t off n)
    (hb : banksClear s (if e.kind = .desc then 2 else 1) (sramAddr t off) n = true)
    (hh : heldBefore s (if e.kind = .desc then 2 else 1) (banksAt (sramAddr t off) n) = false)
    (hc : ∀ u ∈ unitsOf (sramAddr t off) n, eccOf s u = .clean) (hn : 0 < n) (hgot : e.got + n < e.expect) :
    ∃ z, ownAccess y s = ([], setCpl tag { e with got := e.got + n } z)
      ∧ memBytes z (sramAddr t off) n = y.data ∧ MemKeptBut (sramAddr t off) n s z := by
  obtain ⟨ht, hf, hon, hwk⟩ := hserve
  have hreach := engineReach_own ht hn huse.1 huse hf hon hwk ha hl hag htn (Or.inr hop)
  obtain ⟨h1, h2, h3, h4, h5, h6⟩ := engineReach_sram hreach
  have hmax : max 1 n = n := by omega
  rw [hl, hmax] at h3 h4 h5
  obtain ⟨y', hy'⟩ : ∃ y', y' = { y with since := now s } := ⟨_, rfl⟩
  have hown : ownAccess y s = placeSram 0 (sramAddr t off) y' s := by
    unfold ownAccess
    rw [if_neg (by omega), h1, Bool.false_and, if_neg (by decide), h2]
    dsimp only
    rw [if_pos (by simp), place, hy']
  have hhead := headD_banksAt_sramAddr (t := t) (off := off) (n := n) (by have := huse.1; omega)
  rw [hown]
  generalize sramAddr t off = a at hhead hb hh hc h3 h4 h5 ⊢
  have hop' : y'.op = .write := by rw [hy']; exact hop
  have hr' : y'.reply = .tag tag e.gen := by rw [hy']; exact hr
  have hl' : y'.len = n := by rw [hy']; exact hl
  have hd' : y'.data = y.data := by rw [hy']
  have hlen : accLen y' = n := by rw [accLen_write hop', hl', hmax]
  have hfind : (banksAt a n).find? (fun g => bankWaking s (g / 16) || handoverPending s (g / 16) (g % 16)) = none :=
    List.find?_eq_none.2 (List.any_eq_false.1 h3)
  have hown5 : (banksAt a n).all (fun g => owns s (g / 16) (g % 16) y'.agent y'.tenant) = true := by rw [hy']; exact h5
  have hmis : misaligned 0 y' = false := by unfold misaligned; rw [hop']; rfl
  obtain ⟨b, hw, -⟩ := admitWords_frame s a n (sramEntry (if e.kind = .desc then 2 else 1) 0 y' .spent)
  have hport : accessPort s y' ((banksAt a n).headD 0 / 16) = if e.kind = .desc then 2 else 1 := by
    rw [accessPort_landing hop' hr' (by rw [hhead, hy']; exact hag), ← he]
  have hperf : placeSram 0 a y' s = performSram 0 a y' { s with banks := b } := by
    rw [placeSram_of_passed (by rw [hlen]; exact hfind), hlen, h4, if_neg (by decide), hown5, Bool.not_true, Bool.and_false,
      if_neg (by decide), hmis, if_neg (by decide)]
    unfold admitSram
    rw [hlen]
    dsimp only
    rw [hport, hh, if_neg (by decide), hb, if_pos rfl, hw]
  obtain ⟨ts, hts⟩ := performSram_write (s := { s with banks := b }) (a := a) hop' (by rw [hy']; exact hpl)
    (by rw [hl', hd', hdl]) (by rw [hl']; exact hc)
  rw [hd'] at hts
  obtain ⟨m, ec, hwm⟩ := writeMem_frame true false a y.data { s with banks := b }
  obtain ⟨w, hw'⟩ : ∃ w : State, w = { (writeMem true false a y.data { s with banks := b }).2 with tiles := ts } := ⟨_, rfl⟩
  obtain ⟨z, ⟨r, cv, hcov⟩, hans⟩ := answerWrite_landing (s := w) hop' hr' (by rw [hy']; exact hpl)
    (by rw [hw', hwm]; exact he) hp (by rw [hl']; exact hgot) (by rw [hw', hwm, hy']; exact Nat.le_refl _)
  have hmz : ∀ c, memByte z c = memByte (writeMem true false a y.data { s with banks := b }).2 c := fun c => by
    rw [hcov, hw']; rfl
  refine ⟨z, ?_, ?_, fun c hcc => ?_⟩
  · rw [hperf, hts, ← hw', hans, hl']
  · have hm := memBytes_writeMem (s := { s with banks := b }) true false (a := a) (bs := y.data) (by rw [← hdl]; exact hc)
    rw [← hdl] at hm
    exact (memBytes_congr hmz _ _).trans hm
  · rw [hmz, memByte_writeMem_out _ _ _ _ _ _ (by rw [← hdl]; exact hcc)]
    rfl

theorem exec_getData (hp : packetOk { p with opcode := 0x64 } = true) (he : e = cplOf s p.tag) (hst : e.st = .opened)
    (hg : e.gen = p.gen) (hd : e.damaged = false) (h0 : p.status = 0) : exec (.getData p) s
      = ok (follow (deliver p.tag (p.addr - e.base) p.payload.length 0 p.payload p.poison p.late s)) := by
  subst he
  show execGetData p s = _
  unfold execGetData
  dsimp only
  rw [onResponse_open (p := { p with opcode := 0x64 }) hp hst hg hd]
  dsimp only
  rw [h0, if_neg (by decide)]

/-- A segment of a get lands in the SRAM of its tile and is counted. -/
theorem getData_completes {o off n : Nat} (hp : packetOk { p with opcode := 0x64 } = true) (he : e = cplOf s p.tag)
    (hg : e.gen = p.gen) (hpl : Plain e) (hs : e.sink = .sram t o) (htn : e.tenant = tileTenant s t) (h0 : p.status = 0)
    (hpo : p.poison = false) (hn : n = p.payload.length) (hoff : off = o + (p.addr - e.base)) (hserve : SramServes s t)
    (huse : MayUse s t off n) (hb : banksClear s (if e.kind = .desc then 2 else 1) (sramAddr t off) n = true)
    (hh : heldBefore s (if e.kind = .desc then 2 else 1) (banksAt (sramAddr t off) n) = false) (hq : Quiet s t off n)
    (hpos : 0 < n) (hgot : e.got + n < e.expect) : Completes (.getData p) s (fun u =>
      memBytes u (sramAddr t off) n = p.payload ∧ MemKeptBut (sramAddr t off) n s u
        ∧ cplOf u p.tag = { e with got := e.got + n }) := by
  obtain ⟨y, hy⟩ : ∃ y : Access, y = { op := .write, addr := sramAddr t off, len := n, data := p.payload, poison := false,
                                       agent := t, tenant := e.tenant, since := now s, reply := .tag p.tag e.gen } := ⟨_, rfl⟩
  have hdel : deliver p.tag (p.addr - e.base) p.payload.length 0 p.payload p.poison p.late s = ([y], s) := by
    unfold deliver
    dsimp only
    rw [← he, if_neg (by simp [hpl.opened]), if_neg (by decide), hs, hpo, hy, hn, hoff, he]
    rfl
  obtain ⟨z, hz, hm, hbut⟩ := ownAccess_landing (y := y) (t := t) (off := off) (n := n) he hpl (by rw [hy]) (by rw [hy])
    (by rw [hy]) (by rw [hy]) (by rw [hy]) (by rw [hy]; exact htn) (by rw [hy]) (by rw [hy]; exact hn) hserve huse hb hh hq.1
    hpos hgot
  have hex := exec_getData hp he hpl.opened hg hpl.sound h0
  have hrun : follow ([y], s) = setCpl p.tag { e with got := e.got + n } z := by
    rw [follow, submitAll, List.length_singleton, Nat.mul_one, runAll_cons, hz, List.nil_append, runAll_nil]
  rw [hdel, hrun] at hex
  have hyd : y.data = p.payload := by rw [hy]
  rw [hyd] at hm
  generalize sramAddr t off = a at hm hbut ⊢
  exact ⟨_, hex, hm, hbut, cplOf_setCpl_self ..⟩

-- A late note (R206)

theorem cplOf_recordData (src : Nat) (o : Occ) (part : Option Nat) (s : State) : (recordData src o part s).cpl = s.cpl := by
  obtain ⟨r, rs, h⟩ := recordData_frame src o part s
  rw [h]

theorem lateNote_open_completes (hp : packetOk { p with opcode := 0x65 } = true) (he : e = cplOf s p.tag) (ho : e.st = .opened)
    (hg : e.gen = p.gen) (hk : e.kind = .pitch) : Completes (.lateNote p) s (fun u =>
      (cplOf u p.tag).late = true ∧ (cplOf u p.tag).st = .opened ∧ (cplOf u p.tag).deadline = e.lateBy
        ∧ rdB u Reg.faultStatus srcDeadline = true ∧ MemKept s u) := by
  obtain ⟨y, hy⟩ : ∃ y, y = setCpl p.tag { e with
      late := true, expect := if e.late then e.expect + e.base else e.base, deadline := e.lateBy } s := ⟨_, rfl⟩
  have hex : exec (.lateNote p) s = ok (lateFault p.tag y) := by
    show execLateNote p s = _
    unfold execLateNote ifListed
    dsimp only
    rw [if_pos hp, ← he, if_pos ⟨ho, hg, hk⟩, hy]
  have hc : cplOf (lateFault p.tag y) p.tag = { e with
      late := true, expect := if e.late then e.expect + e.base else e.base, deadline := e.lateBy } := by
    rw [lateFault, cplOf, cplOf_recordData, ← cplOf, hy, cplOf_setCpl_self]
  refine ⟨_, hex, by rw [hc], by rw [hc]; exact ho, by rw [hc], 
    rdB_recordData_status (src := srcDeadline) _ _ _ (by decide), fun a => ?_⟩
  rw [lateFault, memByte_recordData, hy]
  rfl

theorem lateNote_stale_completes (hp : packetOk { p with opcode := 0x65 } = true) (ho : (cplOf s p.tag).st ≠ .opened) :
    Completes (.lateNote p) s (fun u =>
      u.cpl = s.cpl ∧ rdF u Reg.staleCount 63 0 = min (rdF s Reg.staleCount 63 0 + 1) (2 ^ 64 - 1)
        ∧ rdB u Reg.faultStatus srcDeadline = true ∧ MemKept s u) := by
  obtain ⟨y, hy⟩ : ∃ y, y = addSat Reg.staleCount 63 0 1 s := ⟨_, rfl⟩
  have hex : exec (.lateNote p) s = ok (lateFault p.tag y) := by
    show execLateNote p s = _
    unfold execLateNote ifListed
    dsimp only
    rw [if_pos hp, if_neg (fun h => ho h.1), hy]
  obtain ⟨h1, h2, -, h4⟩ := staleCounted s y hy
  refine ⟨_, hex, (cplOf_recordData ..).trans h2, ?_, 
    rdB_recordData_status (src := srcDeadline) _ _ _ (by decide), fun a => ?_⟩
  · have hr : rd (lateFault p.tag y) Reg.staleCount = rd y Reg.staleCount := by
      rw [lateFault, rd_recordData _ _ _ (fun w hw => by simp only [Reg.staleCount, Reg.dcap, srcDeadline]; omega), rd_orReg_ne _ _ (by decide)]
    rw [rdF, hr, ← rdF, h1]
  · exact (memByte_recordData ..).trans (h4 a)

/-- Settles O31: a response that matches its entry is delivered and counted, the last one completes the operation; a stale one
is only counted. -/
theorem responsesAtTheRequester : Obligations.ResponsesAtTheRequester := by
  unfold Obligations.ResponsesAtTheRequester
  intro p s e he
  refine ⟨fun h c op hc hp => stale_completes (by rw [← he]; exact h) hc hp, fun ho hg hd hf hc hdr hi => ?_, fun hp =>
    ⟨fun ho hg hk => lateNote_open_completes hp he ho hg hk, fun ho => lateNote_stale_completes hp (by rw [← he]; exact ho)⟩⟩
  have hpl : Plain e := ⟨ho, hd, hf, hc, hdr, hi⟩
  refine ⟨fun t d hk hk' hs hd0 ht hw hor har => ⟨fun hp h0 => ?_, fun hp h0 => ?_, fun herr c op hcop hp => ?_⟩,
    fun hp n hn h0 => ack_completes hp he hg hpl hn h0, fun hp h => ack_linkDown_completes hp he hg hpl h,
    fun hp h => copyDone_completes hp he hg hpl h, fun t o off n hp hs htn h0 hpo hn hoff hserve huse hb hh hq hpos hgot =>
      getData_completes hp he hg hpl hs htn h0 hpo hn hoff hserve huse hb hh hq hpos hgot⟩
  · exact ⟨_, exec_rdResp hp he ho hg hd hk hk', deliver_reg he hpl hs hd0 ht hw hor har h0⟩
  · exact ⟨_, exec_atResp hp he ho hg hd, deliver_reg he hpl hs hd0 ht hw hor har h0⟩
  · have hdel := deliver_reg_error he hpl hs hd0 ht hw hor har herr
    simp only [List.mem_cons, List.not_mem_nil, or_false, Prod.mk.injEq] at hcop
    rcases hcop with ⟨rfl, rfl⟩ | ⟨rfl, rfl⟩
    · exact ⟨_, exec_rdResp hp he ho hg hd hk hk', hdel⟩
    · exact ⟨_, exec_atResp hp he ho hg hd, hdel⟩

end Sys2Proof.Machine
end

section
/-! PROOFS. Check-value channels (R317–R328). -/

namespace Sys2Proof.Machine

variable {s u v : State} {t c : Nat} {p : Path}

-- What a completion leaves alone of the units' registers

/-- The registers from 0x31000 below the tiles' blocks are kept, the record of the pair, the mark of a trip, and the ports. -/
structure UnitRegs (s u : State) : Prop where
  twin : u.twin = s.twin
  tripped : u.pwr.tripped = s.pwr.tripped
  ports : u.ports = s.ports
  regs : ∀ a, 0x31000 ≤ a → a < 0x1000000 → rd u a = rd s a

theorem UnitRegs.refl (s : State) : UnitRegs s s := ⟨rfl, rfl, rfl, fun _ _ _ => rfl⟩

theorem UnitRegs.trans (h : UnitRegs s u) (h' : UnitRegs u v) : UnitRegs s v :=
  ⟨h'.twin.trans h.twin, h'.tripped.trans h.tripped, h'.ports.trans h.ports, fun a h1 h2 => (h'.regs a h1 h2).trans (h.regs a h1 h2)⟩

theorem UnitRegs.of_same (h : UnitRegs s u) (hr : v.regs = u.regs) (ht : v.twin = u.twin)
    (hp : v.pwr.tripped = u.pwr.tripped := by rfl) (hl : v.ports = u.ports := by rfl) : UnitRegs s v :=
  h.trans ⟨ht, hp, hl, fun a _ _ => by rw [rd, rd, hr]⟩

theorem UnitRegs.onTl (h : UnitRegs s u) (t : Nat) (f : Tile → Tile) : UnitRegs s (onTl t f u) := h.of_same rfl rfl

theorem UnitRegs.wrReg (h : UnitRegs s u) {a : Nat} (ha : a < 0x31000 ∨ 0x1000000 ≤ a) (w : Word) : UnitRegs s (wrReg a w u) :=
  h.trans ⟨rfl, rfl, rfl, fun b h1 h2 => rd_wrReg_ne u w (by omega)⟩

theorem UnitRegs.foldl {α : Type} {f : State → α → State} (l : List α) (hf : ∀ v x, UnitRegs v (f v x)) (s : State) :
    UnitRegs s (l.foldl f s) :=
  List.foldlRecOn _ _ (UnitRegs.refl s) fun _ hv x _ => hv.trans (hf _ x)

theorem tileBase_high (t k : Nat) : Reg.tileBase t + k < 0x31000 ∨ 0x1000000 ≤ Reg.tileBase t + k :=
  Or.inr (by simp only [Reg.tileBase]; omega)

theorem unitRegs_recordData {src : Nat} (h : src < 64) (o : Occ) (part : Option Nat) (s : State) :
    UnitRegs s (recordData src o part s) := by
  obtain ⟨r, rs, hx⟩ := recordData_frame src o part s
  refine ⟨by rw [hx], by rw [hx], by rw [hx], fun a h1 h2 => ?_⟩
  rw [rd_recordData _ _ _ (fun w hw => by simp only [Reg.dcap]; omega), rd_orReg_ne _ _ (by simp only [Reg.faultStatus]; omega)]

theorem unitRegs_captureAt (t index code : Nat) (s : State) : UnitRegs s (captureAt t index code s) := by
  unfold captureAt
  split
  · exact UnitRegs.refl s
  · exact (UnitRegs.refl s).wrReg (tileBase_high t 0x20) _

theorem unitRegs_tileFaultAt (t index code : Nat) (s : State) : UnitRegs s (tileFaultAt t index code s) := by
  unfold tileFaultAt
  refine (((unitRegs_captureAt _ _ _ s).trans (UnitRegs.foldl _ (fun v m => unitRegs_captureAt _ _ _ v) _)).trans
    (UnitRegs.foldl _ (fun v m => ?_) _)).trans (unitRegs_recordData (by decide) _ _ _)
  exact (((UnitRegs.refl v).wrReg (tileBase_high m 0) _).wrReg (tileBase_high m 0) _).onTl _ _

theorem unitRegs_tileFault (t code : Nat) (s : State) : UnitRegs s (tileFault t code s) := unitRegs_tileFaultAt t _ code s

theorem unitRegs_localFault (t code off : Nat) (w : Bool) (s : State) : UnitRegs s (localFault t code off w s) := by
  unfold localFault
  dsimp only
  split
  · exact (unitRegs_tileFault _ _ s).trans (unitRegs_recordData (by decide) _ _ _)
  · exact unitRegs_tileFault _ _ s

theorem bankEcc_high (t b : Nat) : Reg.bankEcc t b < 0x31000 ∨ 0x1000000 ≤ Reg.bankEcc t b :=
  Or.inr (by simp only [Reg.bankEcc, Reg.tileBase]; omega)

theorem unitRegs_noteErrors (a n : Nat) (o : Occ) (s : State) : UnitRegs s (noteErrors a n o s) := by
  unfold noteErrors
  refine UnitRegs.foldl _ (fun v k => ?_) s
  dsimp only
  split
  · exact UnitRegs.refl v
  · exact ((UnitRegs.refl v).wrReg (bankEcc_high _ _) _).wrReg (bankEcc_high _ _) _
  · exact (((UnitRegs.refl v).wrReg (bankEcc_high _ _) _).wrReg (bankEcc_high _ _) _).trans
      (unitRegs_recordData (by decide) _ _ _)

theorem unitRegs_writeMem (whole poison : Bool) (a : Nat) (bs : List Byte) (s : State) :
    UnitRegs s (writeMem whole poison a bs s).2 := by
  obtain ⟨m, e, hw⟩ := writeMem_frame whole poison a bs s
  rw [hw]; exact ⟨rfl, rfl, rfl, fun _ _ _ => rfl⟩

theorem unitRegs_localStore (t view off : Nat) (bs : List Byte) (s : State) : UnitRegs s (localStore t view off bs s) := by
  unfold localStore
  exact ((UnitRegs.foldl _ (fun v _ => unitRegs_noteErrors _ _ _ v) s).trans (unitRegs_writeMem _ _ _ _ _)).onTl _ _

theorem unitRegs_resume (t : Nat) (s : State) : UnitRegs s (resume t s) := ⟨rfl, rfl, rfl, fun a h1 h2 =>
  rd_resume_ne (by simp only [Reg.tileStatus, Reg.tileBase]; omega) (by simp only [Reg.cycles, Reg.tileBase]; omega)
    (by simp only [Reg.stallWait, Reg.tileBase]; omega)⟩

theorem unitRegs_release (tag : Nat) (s : State) : UnitRegs s (release tag s) := by
  obtain ⟨c, h⟩ := release_frame tag s
  rw [h]; exact ⟨rfl, rfl, rfl, fun _ _ _ => rfl⟩

theorem unitRegs_idleGang (l : Nat) (s : State) : UnitRegs s (idleGang l s) :=
  UnitRegs.foldl _ (fun v m => (((UnitRegs.refl v).wrReg (tileBase_high m 0) _).wrReg (tileBase_high m 0) _).onTl _ _) s

theorem unitRegs_pushRecord (q i : Nat) (c e : Word) (s : State) : UnitRegs s (pushRecord q i c e s) := by
  obtain ⟨x, he, -⟩ := pushRecord_frame q i c e s
  rw [he]; exact ⟨rfl, rfl, rfl, fun _ _ _ => rfl⟩

theorem unitRegs_endJob (l status : Nat) (s : State) : UnitRegs s (endJob l status s) := by
  unfold endJob
  split
  · exact UnitRegs.refl s
  · exact (((UnitRegs.refl s).of_same (v := dropJob l s) rfl rfl).trans (unitRegs_idleGang l _)).trans (unitRegs_pushRecord _ _ _ _ _)

theorem unitRegs_admitWords (a n : Nat) (e : BankEntry) (s : State) : UnitRegs s (admitWords a n e s) := by
  obtain ⟨b, hb, -⟩ := admitWords_frame s a n e
  rw [hb]; exact ⟨rfl, rfl, rfl, fun _ _ _ => rfl⟩

/-- What asking for banks leaves, where it says anything. -/
theorem unitRegs_askBanks {port : Nat} {r two : Bool} {l : List (Nat × Nat)} :
    (∀ v, askBanks t port r two l s = .granted v → UnitRegs s v) ∧ (∀ v, askBanks t port r two l s = .waits v → UnitRegs s v) := by
  have hl : ∀ (l : List (Nat × Nat)) (e : BankEntry), UnitRegs s
      (onTl t (fun x => { x with asked := true }) (l.foldl (fun s r => admitWords (sramAddr t r.1) r.2 e s) s)) := fun l e =>
    (UnitRegs.foldl _ (fun v _ => unitRegs_admitWords _ _ _ v) s).onTl _ _
  have hc : ∀ z w : State, UnitRegs s z → (w = z ∨ w = s) → UnitRegs s w := fun z w hz h =>
    h.elim (fun h => h ▸ hz) (fun h => h ▸ UnitRegs.refl s)
  unfold askBanks
  dsimp only
  constructor <;> intro v h <;> split at h
  · split at h
    · cases h
    · cases h; exact UnitRegs.refl s
  · split at h
    · cases h
    · cases h
    · split at h
      · cases h; exact hl _ _
      · split at h <;> cases h
  · split at h
    · cases h; exact UnitRegs.refl s
    · cases h
  · split at h
    · cases h; exact UnitRegs.refl s
    · cases h
    · split at h
      · cases h
      · split at h
        · cases h; exact hl _ _
        · cases h; exact UnitRegs.refl s

theorem unitRegs_settleCplw (t : Nat) (w : Word) (d : Nat) (off : Option Nat) (s : State) :
    UnitRegs s (settleCplw t w d off s) := by
  have hdone : ∀ (z : State) f tag, UnitRegs s z → UnitRegs s (resume t (release tag (observe t f z))) := fun z f tag hz =>
    ((hz.onTl t _).trans (unitRegs_release tag _)).trans (unitRegs_resume t _)
  unfold settleCplw
  split
  · exact UnitRegs.refl s
  · exact ((UnitRegs.refl s).onTl t _).trans (unitRegs_resume t _)
  · split
    · exact hdone _ _ _ ((UnitRegs.refl s).onTl t _)
    · obtain ⟨hg, hw⟩ := unitRegs_askBanks (t := t) (s := s) (port := 4) (r := false) (two := false) (l := [(_, 32)])
      split
      · next h => exact hdone _ _ _ (((hg _ h).trans (unitRegs_localStore _ _ _ _ _)).onTl _ _)
      · next h => exact hw _ h
      · exact unitRegs_localFault _ _ _ _ s

theorem unitRegs_settle (t : Nat) (s : State) : UnitRegs s (settle t s) := by
  have hdone : ∀ (z : State) f, UnitRegs s z → UnitRegs s (resume t (observe t f z)) := fun z f hz =>
    (hz.onTl t _).trans (unitRegs_resume t _)
  unfold settle
  split
  · split
    · exact unitRegs_settleCplw _ _ _ _ s
    · unfold settleSwait
      dsimp only
      split
      · exact UnitRegs.refl s
      · exact hdone _ _ ((UnitRegs.refl s).onTl t _)
    · unfold settleFence
      split
      · exact UnitRegs.refl s
      · exact hdone _ _ ((UnitRegs.refl s).onTl t _)
    · unfold settleEnd
      dsimp only
      split
      · split
        · exact unitRegs_idleGang _ s
        · exact unitRegs_endJob _ _ s
      · exact UnitRegs.refl s
    · exact UnitRegs.refl s
  · exact UnitRegs.refl s

theorem unitRegs_formGang (tenant : Nat) (l : List Nat) (s : State) : UnitRegs s (formGang tenant l s).2 := by
  unfold formGang
  dsimp only
  split
  · exact UnitRegs.refl s
  · exact UnitRegs.foldl _ (fun v m => (UnitRegs.refl v).wrReg (tileBase_high _ 0x10) _) s

theorem unitRegs_jobLoaded (l status : Nat) (s : State) : UnitRegs s (jobLoaded l status s) := by
  unfold jobLoaded
  split
  · exact unitRegs_endJob _ _ s
  · split
    · exact UnitRegs.refl s
    · exact ((UnitRegs.refl s).of_same (v := onTl l _ (onJob l _ s)) rfl rfl).trans (UnitRegs.foldl _ (fun v m =>
        ((UnitRegs.refl v).wrReg (tileBase_high m 0) _).wrReg (tileBase_high m 0) _) _)

theorem unitRegs_membersLoaded (q i tenant status : Nat) (buf : Map Byte) (n : Nat) (s : State) :
    UnitRegs s (membersLoaded q i tenant status buf n s) := by
  unfold membersLoaded
  split
  · exact unitRegs_pushRecord _ _ _ _ s
  · exact (unitRegs_formGang _ _ s).trans (unitRegs_pushRecord _ _ _ _ _)

theorem unitRegs_inject (p : Packet) (s : State) : UnitRegs s (inject p s) := by
  unfold inject
  dsimp only
  split <;> exact ⟨rfl, rfl, rfl, fun _ _ _ => rfl⟩

theorem unitRegs_toSink (tag : Nat) (e : Cpl) (status : Nat) (word check : Word) (s : State) :
    UnitRegs s (toSink tag e status word check s) := by
  have hr := unitRegs_release tag s
  unfold toSink
  split
  · exact UnitRegs.refl s
  · exact UnitRegs.refl s
  · exact (UnitRegs.refl s).onTl _ _
  · exact (unitRegs_inject _ s).trans (unitRegs_release _ _)
  · split
    · exact UnitRegs.refl s
    · exact ((UnitRegs.refl s).onTl _ _).trans (unitRegs_release _ _)
  · split
    · exact hr.trans (unitRegs_membersLoaded _ _ _ _ _ _ _)
    · exact hr.trans (unitRegs_pushRecord _ _ _ _ _)
  · exact hr.trans (unitRegs_jobLoaded _ _ _)

theorem unitRegs_afterAr (tag : Nat) (e : Cpl) (status : Nat) (s : State) : UnitRegs s (afterAr tag e status s) := by
  unfold afterAr
  dsimp only
  split
  · exact (((UnitRegs.refl s).onTl _ _).trans (unitRegs_recordData (by decide) _ _ _)).trans
      (unitRegs_release _ _)
  · exact unitRegs_release _ _

theorem unitRegs_afterRecord (tag status : Nat) (e : Cpl) (word check : Word) (s : State) :
    UnitRegs s (afterRecord tag status e word check s) := by
  obtain ⟨x, hx⟩ := noteJobError_frame e status (toSink tag e status word check s)
  obtain ⟨y, hy⟩ : ∃ y : State, y = { toSink tag e status word check s with host := x } := ⟨_, rfl⟩
  have h : UnitRegs s y := (unitRegs_toSink tag e status word check s).of_same (by rw [hy]) (by rw [hy]) (by rw [hy]) (by rw [hy])
  have h' : UnitRegs s (if e.orphan then release tag y else if e.ar then afterAr tag e status y else y) := by
    split
    · exact h.trans (unitRegs_release tag _)
    · split
      · exact h.trans (unitRegs_afterAr _ _ _ _)
      · exact h
  unfold afterRecord
  dsimp only
  rw [hx, ← hy]
  split
  · exact h'
  · exact h'.trans (unitRegs_settle _ _)

theorem unitRegs_finishTag (tag status drops : Nat) (inexact late : Bool) (check : Option Word) (s : State) :
    UnitRegs s (finishTag tag status drops inexact late check s) := by
  by_cases h : (cplOf s tag).st = .opened ∧ (cplOf s tag).damaged = false
  · rw [finishTag_of_open h.1 h.2]
    exact ((UnitRegs.refl s).of_same (v := writeRecord tag _ _ _ s) rfl rfl).trans (unitRegs_afterRecord _ _ _ _ _ _)
  · have hn : (cplOf s tag).st ≠ .opened ∨ (cplOf s tag).damaged = true := by
      by_cases h1 : (cplOf s tag).st = .opened
      · exact Or.inr (by simpa [h1] using h)
      · exact Or.inl h1
    unfold finishTag
    rw [if_pos hn]
    exact UnitRegs.refl s

-- Configuration (R322, R325, R327)

/-- What a write of a channel's CFG by the physical function does. -/
def configureCvu (c : Nat) (v : Word) (s : State) : State :=
  let a := Reg.cvuCfg c
  let old := rd s a
  let v := v &&& wd (Reg.kind a).rw
  let refuse (s : State) : State := wrB (Reg.cvuStatus c) 7 true s
  if cvuState s c = 1 ∧ !(fld old 61 60 == 1 && !bit v 63) then refuse s
  else if 2 ≤ fld v 61 60 ∨ (fld v 9 8 = 0 ∧ (fld v 6 0 < 8 ∨ 64 < fld v 6 0)) ∨ !tenantOk s (fld v 55 48)
      ∨ (!true ∧ fld v 55 48 ≠ fld old 55 48) then
    (if cvuState s c = 1 ∧ !bit v 63 then wrF (Reg.cvuStatus c) 1 0 0 (refuse s) else refuse s)
  else
    let s := s |> wrReg a v |> wrF (Reg.cvuStatus c) 1 0 0
    if bit v 63 && fld v 61 60 == 1 then
      cvuStart c (rdF s (Reg.cvuRxMatch c) 47 0) (rdF s (Reg.cvuRxLen c) 32 0) none s
    else s

/-- A write of an operator that may go beyond a licence shows in the state but for what it answers. -/
theorem answered_unlicensed {who : Writer} {a : Nat} {beyond : State → Bool} (hm : mayWrite s .operator who = true)
    (ha : skipsLog a = false) (f : State → State) :
    ∃ o, answered who a (unlicensedIf .any who beyond (withRoleDo .operator who a f) s) = { f s with out := o } := by
  have h1 : withRoleDo .operator who a f s = (stOk, f s) := by
    have hl : logOutcome .operator who a true (f s) = f s := by
      have hn : (decide (2 ≤ needRole Reg.Class.operator) && !unlogged a) = false := rfl
      rw [logOutcome, ha, hn]; rfl
    unfold withRoleDo withRole
    rw [if_pos hm]
    exact congrArg (Prod.mk stOk) hl
  unfold unlicensedIf
  rw [h1]
  dsimp only
  split
  · exact ⟨_, rfl⟩
  · exact ⟨(f s).out, rfl⟩

/-- The physical function's write shows in the state but for what it answers. -/
theorem answered_cvuCfg {v : Word} (hm : mayWrite s .operator (.path p) = true) (hc : c < 64) :
    ∃ o, exec (.cvuCfgWrite (.path p) c v) s = ok { configureCvu c v s with out := o } := by
  have hskip : skipsLog (Reg.cvuCfg c) = false := by
    unfold skipsLog
    rw [decide_eq_false_iff_not]
    simp only [Reg.cvuCfg, Reg.powerCap, Reg.coolant, Reg.fwShelf]
    omega
  have hex : exec (.cvuCfgWrite (.path p) c v) s = ok (answered (.path p) (Reg.cvuCfg c) (unlicensedIf .any (.path p)
      (fun s => !tenantOk s (fld v 55 48)) (withRoleDo .operator (.path p) (Reg.cvuCfg c) (configureCvu c v)) s)) := by
    show execCvuCfgWrite (.path p) c v s = _
    unfold execCvuCfgWrite
    rw [if_pos hc]
    rfl
  rw [hex]
  obtain ⟨o, ho⟩ := answered_unlicensed (beyond := fun s => !tenantOk s (fld v 55 48)) hm hskip (configureCvu c v)
  exact ⟨o, congrArg ok ho⟩

theorem cvuCfg_ne_status (_ : c < 64) : Reg.cvuCfg c ≠ Reg.cvuStatus c := by
  simp only [Reg.cvuCfg, Reg.cvuStatus]; omega

theorem cvuState_wrF_units (n : Nat) (s : State) : cvuState (wrF (Reg.cvuStatus c) 63 32 n s) c = cvuState s c :=
  rdF_wrF_other _ _ _ _ _ _ _ (by decide) (by decide) (by decide)

theorem cvuState_wrF_self {n : Nat} (hn : n < 4) (s : State) : cvuState (wrF (Reg.cvuStatus c) 1 0 n s) c = n :=
  rdF_wrF_fits _ _ (by decide) (by decide) hn

section
variable {w v : Word} (hw : w = v &&& wd (Reg.kind (Reg.cvuCfg c)).rw) (hr : cvuState s c ≠ 1) (hp : fld w 9 8 ≠ 0)
  (ht : tenantOk s (fld w 55 48) = true)
include hw hr hp ht

theorem configureCvu_accepts (hd : fld w 61 60 < 2) : configureCvu c v s
    = (if bit w 63 && fld w 61 60 == 1 then
        cvuStart c (rdF (wrF (Reg.cvuStatus c) 1 0 0 (wrReg (Reg.cvuCfg c) w s)) (Reg.cvuRxMatch c) 47 0)
          (rdF (wrF (Reg.cvuStatus c) 1 0 0 (wrReg (Reg.cvuCfg c) w s)) (Reg.cvuRxLen c) 32 0) none
          (wrF (Reg.cvuStatus c) 1 0 0 (wrReg (Reg.cvuCfg c) w s))
       else wrF (Reg.cvuStatus c) 1 0 0 (wrReg (Reg.cvuCfg c) w s)) := by
  unfold configureCvu
  dsimp only
  rw [← hw, if_neg (fun h => hr h.1), if_neg (by simp only [hp, ht]; simp; omega)]

theorem cvuCfg_tx (hm : mayWrite s .operator (.path p) = true) (hc : c < 64) (hd : fld w 61 60 = 0) :
    Completes (.cvuCfgWrite (.path p) c v) s (fun u =>
      rd u (Reg.cvuCfg c) = w ∧ cvuState u c = 0 ∧ RegsKept [Reg.cvuCfg c, Reg.cvuStatus c] s u ∧ MemKept s u) := by
  obtain ⟨o, hex⟩ := answered_cvuCfg (v := v) hm hc
  have hconf := configureCvu_accepts hw hr hp ht (by rw [hd]; decide)
  rw [hd, show ((0 : Nat) == 1) = false from rfl, Bool.and_false, if_neg (by decide)] at hconf
  rw [hconf] at hex
  refine ⟨_, hex, ?_, cvuState_wrF_self (by decide) _, fun a ha => ?_, fun _ => rfl⟩
  · exact (rd_wrF_ne _ _ _ _ (cvuCfg_ne_status hc)).trans (rd_wrReg_self ..)
  · simp only [List.mem_cons, List.not_mem_nil, or_false, not_or] at ha
    exact (rd_wrF_ne _ _ _ _ ha.2).trans (rd_wrReg_ne _ _ ha.1)

theorem cvuCfg_rx (hm : mayWrite s .operator (.path p) = true) (hc : c < 64) (hd : fld w 61 60 = 1) (hv : bit w 63 = true) :
    Completes (.cvuCfgWrite (.path p) c v) s (fun u =>
      rd u (Reg.cvuCfg c) = w ∧ cvuState u c = 1 ∧ (cvuOf u c).base = rdF s (Reg.cvuRxMatch c) 47 0
        ∧ (cvuOf u c).total = rdF s (Reg.cvuRxLen c) 32 0 ∧ (cvuOf u c).counted = [] ∧ MemKept s u) := by
  obtain ⟨o, hex⟩ := answered_cvuCfg (v := v) hm hc
  have hconf := configureCvu_accepts hw hr hp ht (by rw [hd]; decide)
  rw [hd, hv, if_pos (by decide)] at hconf
  obtain ⟨y, hy⟩ : ∃ y, y = wrF (Reg.cvuStatus c) 1 0 0 (wrReg (Reg.cvuCfg c) w s) := ⟨_, rfl⟩
  have hread : ∀ a hi lo, a ≠ Reg.cvuCfg c → a ≠ Reg.cvuStatus c → rdF y a hi lo = rdF s a hi lo := fun a hi lo h1 h2 => by
    rw [hy, rdF_wrF_ne _ _ _ _ _ _ h2, rdF, rd_wrReg_ne _ _ h1, ← rdF]
  have hcfg : rd y (Reg.cvuCfg c) = w := by rw [hy, rd_wrF_ne _ _ _ _ (cvuCfg_ne_status hc), rd_wrReg_self]
  have hmem : MemKept s y := fun a => by rw [hy]; rfl
  rw [← hy, hread _ 47 0 (by simp only [Reg.cvuRxMatch, Reg.cvuCfg]; omega) (by simp only [Reg.cvuRxMatch, Reg.cvuStatus]; omega),
    hread _ 32 0 (by simp only [Reg.cvuRxLen, Reg.cvuCfg]; omega) (by simp only [Reg.cvuRxLen, Reg.cvuStatus]; omega)] at hconf
  generalize rdF s (Reg.cvuRxMatch c) 47 0 = base at hconf ⊢
  generalize rdF s (Reg.cvuRxLen c) 32 0 = total at hconf ⊢
  rw [hconf] at hex
  have hof : cvuOf (cvuStart c base total none y) c
      = { cvuOf y c with base := base, total := total, bytes := [], counted := [], tag := none } := mget_mset_self ..
  have hne := cvuCfg_ne_status hc
  have hcfg' : rd (cvuStart c base total none y) (Reg.cvuCfg c) = w :=
    (rd_wrF_ne _ _ _ _ hne).trans ((rd_wrF_ne _ _ _ _ hne).trans hcfg)
  have hst : cvuState (cvuStart c base total none y) c = 1 :=
    (cvuState_wrF_units _ _).trans (cvuState_wrF_self (by decide) _)
  have hmem' : MemKept s (cvuStart c base total none y) := fun a => hmem a
  generalize cvuStart c base total none y = z at hex hof hcfg' hst hmem'
  refine ⟨_, hex, hcfg', hst, ?_, ?_, ?_, hmem'⟩
  · exact congrArg Cvu.base hof
  · exact congrArg Cvu.total hof
  · exact congrArg Cvu.counted hof

end

/-- A running TX channel keeps its configuration. -/
theorem cvuCfg_running {v : Word} (hm : mayWrite s .operator (.path p) = true) (hc : c < 64) (hr : cvuState s c = 1)
    (hd : rdF s (Reg.cvuCfg c) 61 60 = 0) : Completes (.cvuCfgWrite (.path p) c v) s (fun u =>
      rd u (Reg.cvuCfg c) = rd s (Reg.cvuCfg c) ∧ cvuState u c = 1 ∧ rdB u (Reg.cvuStatus c) 7 = true
        ∧ RegsKept [Reg.cvuStatus c] s u ∧ MemKept s u) := by
  obtain ⟨o, hex⟩ := answered_cvuCfg (v := v) hm hc
  have hconf : configureCvu c v s = wrB (Reg.cvuStatus c) 7 true s := by
    rw [rdF] at hd
    unfold configureCvu
    dsimp only
    rw [hd, if_pos ⟨hr, rfl⟩]
  rw [hconf] at hex
  refine ⟨_, hex, rd_wrB_ne _ _ _ (cvuCfg_ne_status hc), ?_, rdB_wrB_self _ _ _ _ (by decide),
    fun a ha => rd_wrB_ne _ _ _ (by simpa using ha), fun _ => rfl⟩
  exact (rdF_wrB_other _ _ _ _ _ _ (by decide) (by decide)).trans hr

-- Results (R323, R324)

/-- A channel whose stream has ended: its result stands in its registers. -/
def cvuDelivered (c : Nat) (s : State) : State :=
  let g := rd s (Reg.cvuCfg c)
  let x := cvuOf s c
  let k := crcOf s c
  let r0 := if bit g 15 then (match x.remainder with | some r => r.toNat | none => k.init) else k.init
  let r := crcRun k r0 (cvuMessage (fld g 57 56) (bit g 15) (cvuAddr s c) x)
  let n := (cvuBlocks x).length
  s |> wrReg (Reg.cvuResult c) (wd (crcOut k r)) |> wrF (Reg.cvuStatus c) 1 0 2
    |> wrF (Reg.cvuStatus c) 63 32 (min n (2 ^ 32 - 1)) |> orReg Reg.cvuDone (2 ^ c)
    |> setCvu c { x with bytes := [], counted := [], tag := none, remainder := some (wd r),
                         unit0 := (if bit g 15 then x.unit0 else 0) + n }

/-- The result of a channel that does not chain (R319, R321). -/
def cvuResultOf (c : Nat) (s : State) : Word :=
  wd (crcOut (crcOf s c) (crcRun (crcOf s c) (crcOf s c).init
    (cvuMessage (fld (rd s (Reg.cvuCfg c)) 57 56) false (cvuAddr s c) (cvuOf s c))))

theorem cvuDelivered_reads (hc : c < 64) (hg : bit (rd s (Reg.cvuCfg c)) 15 = false) :
    rd (cvuDelivered c s) (Reg.cvuResult c) = cvuResultOf c s ∧ cvuState (cvuDelivered c s) c = 2
      ∧ rdB (cvuDelivered c s) Reg.cvuDone c = true := by
  have h1 : Reg.cvuResult c ≠ Reg.cvuStatus c := by simp only [Reg.cvuResult, Reg.cvuStatus]; omega
  have h2 : Reg.cvuResult c ≠ Reg.cvuDone := by simp only [Reg.cvuResult, Reg.cvuDone]; omega
  have h3 : Reg.cvuStatus c ≠ Reg.cvuDone := by simp only [Reg.cvuStatus, Reg.cvuDone]; omega
  obtain ⟨n, x, h⟩ : ∃ n x, cvuDelivered c s = setCvu c x (orReg Reg.cvuDone (2 ^ c) (wrF (Reg.cvuStatus c) 63 32 n
      (wrF (Reg.cvuStatus c) 1 0 2 (wrReg (Reg.cvuResult c) (cvuResultOf c s) s)))) := by
    unfold cvuDelivered cvuResultOf
    dsimp only
    rw [hg, if_neg (by decide)]
    exact ⟨_, _, rfl⟩
  rw [h]
  generalize cvuResultOf c s = r
  have hs : ∀ z a, rd (setCvu c x z) a = rd z a := fun _ _ => rfl
  refine ⟨?_, ?_, ?_⟩
  · rw [hs, rd_orReg_ne _ _ h2, rd_wrF_ne _ _ _ _ h1, rd_wrF_ne _ _ _ _ h1, rd_wrReg_self]
  · rw [cvuState, rdF, hs, ← rdF, rdF_orReg_ne _ _ _ _ h3, ← cvuState, cvuState_wrF_units, cvuState_wrF_self (by decide)]
  · rw [rdB, hs, ← rdB, rdB_orReg_pow _ _ hc]

theorem cvuFinish_eq (hg : bit (rd s (Reg.cvuCfg c)) 15 = false) : cvuFinish c s = match (cvuOf s c).tag with
    | none => cvuDelivered c s
    | some tag => if (cplOf s tag).answered && (cplOf s tag).cvu == some c then
        finishTag tag stOk (cplOf s tag).drops (cplOf s tag).inexact (cplOf s tag).late (some (cvuResultOf c s)) (cvuDelivered c s)
      else cvuDelivered c s := by
  unfold cvuFinish cvuResultOf cvuDelivered
  dsimp only
  rw [hg, if_neg (by decide), if_neg (by decide)]
  rfl

theorem cvuDelivery_completes {x : Cvu} (hc : c < 64) (hr : cvuState s c = 1) (hx : x = cvuOf s c)
    (hall : x.total ≤ x.counted.length) (hg : bit (rd s (Reg.cvuCfg c)) 15 = false) :
    Completes (.cvuResultDelivery c) s (fun u => rd u (Reg.cvuResult c) = cvuResultOf c s ∧ cvuState u c = 2
      ∧ rdB u Reg.cvuDone c = true ∧ ∀ tag, x.tag = some tag → (cplOf s tag).st = .opened → (cplOf s tag).answered = true →
        (cplOf s tag).cvu = some c → (cplOf s tag).damaged = false →
        Finished tag (statusWord 0 (cplOf s tag).drops true (cplOf s tag).inexact (cplOf s tag).late) s u) := by
  have hex : exec (.cvuResultDelivery c) s = ok (cvuFinish c s) := by
    show execCvuResultDelivery c s = _
    unfold execCvuResultDelivery
    rw [if_pos ⟨hc, hr, by rw [← hx]; exact hall⟩]
  obtain ⟨h1, h2, h3⟩ := cvuDelivered_reads hc hg
  have hcpl : ∀ k, cplOf (cvuDelivered c s) k = cplOf s k := fun _ => rfl
  refine ⟨_, hex, ?_⟩
  rw [cvuFinish_eq hg, ← hx]
  generalize cvuDelivered c s = y at h1 h2 h3 hcpl
  have hkept : ∀ z, UnitRegs y z → rd z (Reg.cvuResult c) = cvuResultOf c s ∧ cvuState z c = 2 ∧ rdB z Reg.cvuDone c = true := by
    intro z hz
    rw [cvuState, rdF, rdB, hz.regs _ (by simp only [Reg.cvuResult]; omega) (by simp only [Reg.cvuResult]; omega),
      hz.regs (Reg.cvuStatus c) (by simp only [Reg.cvuStatus]; omega) (by simp only [Reg.cvuStatus]; omega),
      hz.regs Reg.cvuDone (by decide) (by decide)]
    exact ⟨h1, h2, h3⟩
  cases hxt : x.tag with
  | none => exact ⟨h1, h2, h3, fun tag ht => by cases ht⟩
  | some tag =>
    dsimp only
    by_cases ha : ((cplOf s tag).answered && (cplOf s tag).cvu == some c) = true
    · rw [if_pos ha]
      obtain ⟨k1, k2, k3⟩ := hkept _ (unitRegs_finishTag tag stOk (cplOf s tag).drops (cplOf s tag).inexact (cplOf s tag).late
        (some (cvuResultOf c s)) y)
      refine ⟨k1, k2, k3, fun tag' ht' ho _ _ hd => ?_⟩
      cases ht'
      obtain ⟨f1, f2, f3⟩ := finished_finishTag (s := y) (tag := tag) (status := stOk) (drops := (cplOf s tag).drops)
        (inexact := (cplOf s tag).inexact) (late := (cplOf s tag).late) (check := some (cvuResultOf c s))
        (by rw [hcpl]; exact ho) (by rw [hcpl]; exact hd)
      exact ⟨f1, f2, by rw [f3, hcpl]⟩
    · rw [if_neg ha]
      refine ⟨h1, h2, h3, fun tag' ht' _ han hcv _ => absurd ?_ ha⟩
      cases ht'
      rw [han, hcv]
      simp

/-- Settles O43: a write of CFG is taken, starts an RX stream, or is refused while the channel runs; a stream that is whole
leaves its CRC in RESULT and completes its operation. -/
theorem checkValues : Obligations.CheckValues := by
  unfold Obligations.CheckValues
  intro c s hc
  refine ⟨fun p v w hm hw => ⟨fun hr hp ht => ⟨fun hd => cvuCfg_tx hw hr hp ht hm hc hd, fun hd hv =>
    cvuCfg_rx hw hr hp ht hm hc hd hv⟩, fun hr hd => cvuCfg_running hm hc hr hd⟩, fun x g hr hx hg hall hb => ?_⟩
  subst hg
  rw [hx]
  exact cvuDelivery_completes hc hr rfl (by rw [← hx]; exact hall) hb

end Sys2Proof.Machine
end

section
/-! PROOFS. The registers of a queue pair (R334–R341, R346, R347). -/

namespace Sys2Proof.Machine

variable {s u : State} {p : Path} {q k : Nat} {v w : Word}

-- Q_CTRL (R334, R335, R346)

/-- What a write of Q_CTRL by the physical function does. -/
def configureQueue (q : Nat) (v : Word) (s : State) : State :=
  let v := v &&& wd qCtrlMask
  let old := rd s (Reg.qCtrl q)
  if 2 ≤ fld v 60 59 ∨ (bit old 63 ∧ qCtrlDiffers old v) ∨ (!true ∧ fld v 55 48 ≠ fld old 55 48)
      ∨ !tenantOk s (fld v 55 48) then countRefused s
  else if bit old 63 then (if bit v 63 then s else stopQueue q 0 s)
  else if bit v 63 then enableQueue q v s else wrReg (Reg.qCtrl q) v s

theorem skipsLog_queue {a : Nat} (h1 : 0xA8000 ≤ a) (h2 : a < 0xB0000) : skipsLog a = false := by
  unfold skipsLog
  rw [decide_eq_false_iff_not]
  simp only [Reg.powerCap, Reg.coolant, Reg.fwShelf]
  omega

theorem answered_qCtrl (hm : mayWrite s .operator (.path p) = true) (hq : q < 512) :
    ∃ o, exec (.qCtrlWrite (.path p) q v) s = ok { configureQueue q v s with out := o } := by
  have hskip : skipsLog (Reg.qCtrl q) = false :=
    skipsLog_queue (by simp only [Reg.qCtrl]; omega) (by simp only [Reg.qCtrl]; omega)
  have hex : exec (.qCtrlWrite (.path p) q v) s = ok (answered (.path p) (Reg.qCtrl q) (unlicensedIf .any (.path p)
      (fun s => !tenantOk s (fld v 55 48)) (withRoleDo .operator (.path p) (Reg.qCtrl q) (configureQueue q v)) s)) := by
    show execQCtrlWrite (.path p) q v s = _
    unfold execQCtrlWrite
    rw [if_pos hq]
    rfl
  rw [hex]
  obtain ⟨o, ho⟩ := answered_unlicensed (beyond := fun s => !tenantOk s (fld v 55 48)) hm hskip (configureQueue q v)
  exact ⟨o, congrArg ok ho⟩

/-- A refused access of a queue is counted. -/
theorem countRefused_counts (s : State) : CountedRefused s (countRefused s) ∧ RegsKept [Reg.refusedCount] s (countRefused s) :=
  ⟨rdF_addSat_self _ _ _ _ _ (by decide) (by decide), fun _ ha => rd_addSat_ne _ _ _ _ (by simpa using ha)⟩

section
variable (hw : w = v &&& wd qCtrlMask) (h2 : fld w 60 59 < 2) (ht : tenantOk s (fld w 55 48) = true)
include hw h2 ht

/-- A write that passes the checks enables, stops, or sets the register. -/
theorem configureQueue_accepts (hd : bit (rd s (Reg.qCtrl q)) 63 = true → qCtrlDiffers (rd s (Reg.qCtrl q)) w = false) :
    configureQueue q v s = (if bit (rd s (Reg.qCtrl q)) 63 then (if bit w 63 then s else stopQueue q 0 s)
      else if bit w 63 then enableQueue q w s else wrReg (Reg.qCtrl q) w s) := by
  unfold configureQueue
  dsimp only
  rw [← hw, if_neg]
  rintro (h | ⟨h, h'⟩ | ⟨h, -⟩ | h)
  · omega
  · rw [hd h] at h'; cases h'
  · cases h
  · rw [ht] at h; cases h

variable (hm : mayWrite s .operator (.path p) = true) (hq : q < 512)
include hm hq

theorem qCtrl_set (he : qEnabled s q = false) (hb : bit w 63 = false) : Completes (.qCtrlWrite (.path p) q v) s (fun u =>
    rd u (Reg.qCtrl q) = w ∧ RegsKept [Reg.qCtrl q] s u ∧ MemKept s u) := by
  obtain ⟨o, hex⟩ := answered_qCtrl (v := v) hm hq
  have he' : bit (rd s (Reg.qCtrl q)) 63 = false := he
  rw [configureQueue_accepts hw h2 ht (by rw [he']; intro h; cases h), he', if_neg (by decide), hb, if_neg (by decide)] at hex
  exact ⟨_, hex, rd_wrReg_self .., fun a ha => rd_wrReg_ne _ _ (by simpa using ha), fun _ => rfl⟩

end

theorem setBit_of_bit {i : Nat} {b : Bool} (hi : i < 64) (h : bit w i = b) : setBit w i b = w := by
  refine BitVec.eq_of_getLsbD_eq fun j _ => ?_
  by_cases hj : j = i
  · rw [hj]
    exact (bit_setBit_self w i b hi).trans h.symm
  · exact bit_setBit_other w i j b hi hj

theorem onHq_same (q : Nat) (f : HQueue → HQueue) (s : State) : hq (onHq q f s) q = f (hq s q) := mget_mset_self ..

theorem queueReg_ne (q : Nat) : Reg.sqBase q ≠ Reg.qCtrl q ∧ Reg.cqBase q ≠ Reg.qCtrl q ∧ Reg.qCtrl q ≠ Reg.sqTail q
    ∧ Reg.qCtrl q ≠ Reg.cqHead q ∧ Reg.qCtrl q ≠ Reg.qStatus q ∧ Reg.sqTail q ≠ Reg.cqHead q ∧ Reg.sqTail q ≠ Reg.qStatus q
    ∧ Reg.cqHead q ≠ Reg.qStatus q := by
  simp only [Reg.sqBase, Reg.cqBase, Reg.qCtrl, Reg.sqTail, Reg.cqHead, Reg.qStatus]
  omega

/-- The state of a queue that is enabled with rings in host memory. -/
def queueEnabled (q : Nat) (w : Word) (s : State) : State :=
  let s := wrReg (Reg.qCtrl q) (setBit w 63 false) s
  s |> wrReg (Reg.qCtrl q) (setBit w 63 true) |> wrReg (Reg.sqTail q) 0 |> wrReg (Reg.cqHead q) 0
    |> wrReg (Reg.qStatus q) (wd ((if rdB s (Reg.qStatus q) 1 then 2 else 0) + 1)) |> onHq q (fun _ => {})

theorem enableQueue_host (h62 : bit w 62 = false) (h61 : bit w 61 = false) (hs : (rd s (Reg.sqBase q)).toNat % 4096 = 0)
    (hc : (rd s (Reg.cqBase q)).toNat % 4096 = 0) : enableQueue q w s = queueEnabled q w s := by
  obtain ⟨n1, n2, -⟩ := queueReg_ne q
  obtain ⟨y, hy⟩ : ∃ y, y = wrReg (Reg.qCtrl q) (setBit w 63 false) s := ⟨_, rfl⟩
  have h1 : qSqDevice y q = false := by
    rw [hy, qSqDevice, rdB_wrReg_self, bit_setBit_other _ _ _ _ (by decide) (by decide), h62]
  have h2 : qCqDevice y q = false := by
    rw [hy, qCqDevice, rdB_wrReg_self, bit_setBit_other _ _ _ _ (by decide) (by decide), h61]
  have h3 : (rd y (Reg.sqBase q)).toNat % 4096 = 0 := by rw [hy, rd_wrReg_ne _ _ n1]; exact hs
  have h4 : (rd y (Reg.cqBase q)).toNat % 4096 = 0 := by rw [hy, rd_wrReg_ne _ _ n2]; exact hc
  unfold enableQueue queueEnabled
  dsimp only
  rw [← hy, h1, h2]
  exact if_pos (by rw [h3, h4]; rfl)

theorem queueEnabled_reads (h63 : bit w 63 = true) {o : List Out} (u : State) (hu : u = { queueEnabled q w s with out := o }) :
    rd u (Reg.qCtrl q) = w ∧ sqHead u q = 0 ∧ cqTail u q = 0 ∧ rd u (Reg.sqTail q) = 0 ∧ rd u (Reg.cqHead q) = 0
      ∧ rdB u (Reg.qStatus q) 0 = true ∧ hq u q = {}
      ∧ RegsKept [Reg.qCtrl q, Reg.sqTail q, Reg.cqHead q, Reg.qStatus q] s u ∧ MemKept s u := by
  obtain ⟨-, -, n3, n4, n5, n6, n7, n8⟩ := queueReg_ne q
  obtain ⟨y, hy⟩ : ∃ y, y = wrReg (Reg.qCtrl q) (setBit w 63 false) s := ⟨_, rfl⟩
  obtain ⟨n, hn⟩ : ∃ n, n = (if rdB y (Reg.qStatus q) 1 then 2 else 0) + 1 := ⟨_, rfl⟩
  have hn' : n = 1 ∨ n = 3 := by rw [hn]; split <;> simp
  obtain ⟨z, hz⟩ : ∃ z, z = wrReg (Reg.qStatus q) (wd n) (wrReg (Reg.cqHead q) 0 (wrReg (Reg.sqTail q) 0
    (wrReg (Reg.qCtrl q) (setBit w 63 true) y))) := ⟨_, rfl⟩
  have huz : u = { onHq q (fun _ => {}) z with out := o } := by rw [hu, hz, hn, hy]; rfl
  have hr : ∀ a, rd u a = rd z a := fun a => by rw [huz]; rfl
  have hqu : hq u q = {} := by
    have h : ∀ z : State, hq { z with out := o } q = hq z q := fun _ => rfl
    rw [huz, h, onHq_same]
  have hst : rd u (Reg.qStatus q) = wd n := by rw [hr, hz, rd_wrReg_self]
  refine ⟨?_, ?_, ?_, ?_, ?_, ?_, hqu, fun a ha => ?_, fun a => ?_⟩
  · rw [hr, hz, rd_wrReg_ne _ _ n5, rd_wrReg_ne _ _ n4, rd_wrReg_ne _ _ n3, rd_wrReg_self, setBit_of_bit (by decide) h63]
  · rw [sqHead, rdF, hst, fld_wd _ (by decide)]
    rcases hn' with h | h <;> rw [h] <;> decide
  · rw [cqTail, rdF, hst, fld_wd _ (by decide)]
    rcases hn' with h | h <;> rw [h] <;> decide
  · rw [hr, hz, rd_wrReg_ne _ _ n7, rd_wrReg_ne _ _ n6, rd_wrReg_self]
  · rw [hr, hz, rd_wrReg_ne _ _ n8, rd_wrReg_self]
  · rw [rdB, hst, bit_wd _ (by decide)]
    rcases hn' with h | h <;> rw [h] <;> decide
  · simp only [List.mem_cons, List.not_mem_nil, or_false, not_or] at ha
    obtain ⟨a1, a2, a3, a4⟩ := ha
    rw [hr, hz, rd_wrReg_ne _ _ a4, rd_wrReg_ne _ _ a3, rd_wrReg_ne _ _ a2, rd_wrReg_ne _ _ a1, hy, rd_wrReg_ne _ _ a1]
  · rw [huz, hz, hy]; rfl

/-- The state of a queue that software stops. -/
theorem stopQueue_reads (he : qEnabled s q = true) (hq : q < 512) (u : State) (hu : u = stopQueue q 0 s) :
    qEnabled u q = false ∧ rdB u (Reg.qStatus q) 0 = false ∧ (Machine.hq u q).fetched = [] ∧ (Machine.hq u q).records = []
      ∧ (∀ j ∈ u.host.jobs, j.q ≠ q) ∧ RegsKept [Reg.qCtrl q, Reg.qStatus q] s u ∧ MemKept s u := by
  obtain ⟨-, -, -, -, n5, -⟩ := queueReg_ne q
  obtain ⟨y, hy⟩ : ∃ y, y = wrB (Reg.qStatus q) 0 false (wrB (Reg.qCtrl q) 63 false s) := ⟨_, rfl⟩
  have huy : u = onHq q (fun x => { x with reserved := 0, fetched := [], reading := false, records := [], armed := false })
      (orphanWork q y) := by
    rw [hu, hy]
    unfold stopQueue
    rw [he, if_neg (by decide), if_pos rfl]
  have hr : ∀ a, rd u a = rd y a := fun a => by rw [huy]; rfl
  have hq' : Machine.hq u q
      = { Machine.hq (orphanWork q y) q with reserved := 0, fetched := [], reading := false, records := [], armed := false } := by
    rw [huy, onHq_same]
  refine ⟨?_, ?_, by rw [hq'], by rw [hq'], fun j hj => ?_, fun a ha => ?_, fun a => ?_⟩
  · rw [qEnabled, rdB, hr, ← rdB, hy, rdB_wrB_ne _ _ _ _ n5, rdB_wrB_self _ _ _ _ (by decide)]
  · rw [rdB, hr, ← rdB, hy, rdB_wrB_self _ _ _ _ (by decide)]
  · rw [huy] at hj
    obtain ⟨i, -, rfl⟩ := List.mem_map.1 hj
    split
    · exact Nat.ne_of_gt hq
    · next h => exact h
  · simp only [List.mem_cons, List.not_mem_nil, or_false, not_or] at ha
    rw [hr, hy, rd_wrB_ne _ _ _ ha.2, rd_wrB_ne _ _ _ ha.1]
  · rw [huy, hy]; rfl

section
variable (hw : w = v &&& wd qCtrlMask) (h2 : fld w 60 59 < 2) (ht : tenantOk s (fld w 55 48) = true)
  (hm : mayWrite s .operator (.path p) = true) (hq : q < 512)
include hw h2 ht hm hq

theorem qCtrl_enable (he : qEnabled s q = false) (h63 : bit w 63 = true) (h62 : bit w 62 = false) (h61 : bit w 61 = false)
    (hs : (rd s (Reg.sqBase q)).toNat % 4096 = 0) (hc : (rd s (Reg.cqBase q)).toNat % 4096 = 0) :
    Completes (.qCtrlWrite (.path p) q v) s (fun u =>
      rd u (Reg.qCtrl q) = w ∧ sqHead u q = 0 ∧ cqTail u q = 0 ∧ rd u (Reg.sqTail q) = 0 ∧ rd u (Reg.cqHead q) = 0
        ∧ rdB u (Reg.qStatus q) 0 = true ∧ Machine.hq u q = {}
        ∧ RegsKept [Reg.qCtrl q, Reg.sqTail q, Reg.cqHead q, Reg.qStatus q] s u ∧ MemKept s u) := by
  obtain ⟨o, hex⟩ := answered_qCtrl (v := v) hm hq
  have he' : bit (rd s (Reg.qCtrl q)) 63 = false := he
  rw [configureQueue_accepts hw h2 ht (by rw [he']; intro h; cases h), he', if_neg (by decide), h63, if_pos rfl,
    enableQueue_host h62 h61 hs hc] at hex
  exact ⟨_, hex, queueEnabled_reads h63 _ rfl⟩

theorem qCtrl_stop (he : qEnabled s q = true) (hd : qCtrlDiffers (rd s (Reg.qCtrl q)) w = false) (h63 : bit w 63 = false) :
    Completes (.qCtrlWrite (.path p) q v) s (fun u =>
      qEnabled u q = false ∧ rdB u (Reg.qStatus q) 0 = false ∧ (Machine.hq u q).fetched = [] ∧ (Machine.hq u q).records = []
        ∧ (∀ j ∈ u.host.jobs, j.q ≠ q) ∧ RegsKept [Reg.qCtrl q, Reg.qStatus q] s u ∧ MemKept s u) := by
  obtain ⟨o, hex⟩ := answered_qCtrl (v := v) hm hq
  have he' : bit (rd s (Reg.qCtrl q)) 63 = true := he
  rw [configureQueue_accepts hw h2 ht (fun _ => hd), he', if_pos rfl, h63, if_neg (by decide)] at hex
  have h := stopQueue_reads he hq _ rfl
  generalize stopQueue q 0 s = z at hex h
  exact ⟨_, hex, h⟩

end

/-- A running queue keeps its configuration (R334). -/
theorem qCtrl_refused (hw : w = v &&& wd qCtrlMask) (hm : mayWrite s .operator (.path p) = true) (hq : q < 512)
    (he : qEnabled s q = true) (hd : qCtrlDiffers (rd s (Reg.qCtrl q)) w = true) : Completes (.qCtrlWrite (.path p) q v) s (fun u =>
      rd u (Reg.qCtrl q) = rd s (Reg.qCtrl q) ∧ CountedRefused s u ∧ RegsKept [Reg.refusedCount] s u ∧ MemKept s u) := by
  obtain ⟨o, hex⟩ := answered_qCtrl (v := v) hm hq
  have hc : configureQueue q v s = countRefused s := by
    unfold configureQueue
    dsimp only
    rw [← hw]
    exact if_pos (Or.inr (Or.inl ⟨he, hd⟩))
  rw [hc] at hex
  obtain ⟨h1, h2⟩ := countRefused_counts s
  exact ⟨_, hex, h2 _ (by simp only [List.mem_singleton, Reg.qCtrl, Reg.refusedCount]; omega), h1, h2, fun _ => rfl⟩

-- Doorbells and heads (R336, R340, R341)

/-- A write of a queue's register by the physical function is its effect. -/
theorem answered_queueWrite {a : Nat} (hm : mayWrite s .operator (.path p) = true) (h1 : 0xA8000 ≤ a) (h2 : a < 0xB0000)
    (f : State → State) : answered (.path p) a (queueWrite (.path p) q a f s) = f s :=
  answered_operator hm (skipsLog_queue h1 h2) f

/-- What a doorbell does. -/
def ringDoorbell (q : Nat) (v : Word) (s : State) : State :=
  let n := sqSize s q
  let t := fld v 18 0
  let gap (x : Nat) : Nat := (x + n - sqHead s q) % n
  if n ≤ t ∨ (qEnabled s q ∧ gap t < gap (rdF s (Reg.sqTail q) 18 0)) then badDoorbell s
  else wrReg (Reg.sqTail q) (wd t) s

theorem exec_sqTailWrite (hm : mayWrite s .operator (.path p) = true) (hq : q < 512) :
    exec (.sqTailWrite (.path p) q v) s = ok (ringDoorbell q v s) := by
  show execSqTailWrite (.path p) q v s = _
  unfold execSqTailWrite
  rw [if_pos hq]
  exact congrArg ok (answered_queueWrite hm (by simp only [Reg.sqTail]; omega) (by simp only [Reg.sqTail]; omega) (ringDoorbell q v))

theorem sqTail_set (hm : mayWrite s .operator (.path p) = true) (hq : q < 512) (hn : fld v 18 0 < sqSize s q)
    (hgap : ¬ (qEnabled s q = true ∧ (fld v 18 0 + sqSize s q - sqHead s q) % sqSize s q
      < (rdF s (Reg.sqTail q) 18 0 + sqSize s q - sqHead s q) % sqSize s q)) :
    Completes (.sqTailWrite (.path p) q v) s (fun u =>
      rd u (Reg.sqTail q) = wd (fld v 18 0) ∧ RegsKept [Reg.sqTail q] s u ∧ MemKept s u) := by
  have he : ringDoorbell q v s = wrReg (Reg.sqTail q) (wd (fld v 18 0)) s := by
    unfold ringDoorbell
    dsimp only
    exact if_neg fun h => h.elim (fun h => absurd hn (by omega)) hgap
  exact ⟨_, exec_sqTailWrite hm hq, by rw [he, rd_wrReg_self], fun a ha => by rw [he, rd_wrReg_ne _ _ (by simpa using ha)],
    fun a => by rw [he]; rfl⟩

/-- A doorbell or head outside its ring is refused and counted. -/
theorem badDoorbell_spec (s : State) : rdB (badDoorbell s) Reg.hostEvent 2 = true ∧ CountedRefused s (badDoorbell s)
    ∧ RegsKept [Reg.hostEvent, Reg.refusedCount] s (badDoorbell s) ∧ MemKept s (badDoorbell s) := by
  obtain ⟨y, hy⟩ : ∃ y, y = orReg Reg.hostEvent 4 s := ⟨_, rfl⟩
  obtain ⟨h1, h2⟩ := countRefused_counts y
  have hb : badDoorbell s = countRefused y := by rw [hy]; rfl
  have hr : ∀ a, a ≠ Reg.hostEvent → rd y a = rd s a := fun a ha => by rw [hy]; exact rd_orReg_ne _ _ ha
  rw [hb]
  refine ⟨?_, ?_, fun a ha => ?_, fun a => by rw [hy]; rfl⟩
  · rw [rdB, h2 _ (by decide), ← rdB, hy]
    exact rdB_orReg_pow _ _ (i := 2) (by decide)
  · rw [CountedRefused, h1, rdF, hr _ (by decide), ← rdF]
  · simp only [List.mem_cons, List.not_mem_nil, or_false, not_or] at ha
    rw [h2 _ (by simpa using ha.2), hr _ ha.1]

theorem sqTail_refused (hm : mayWrite s .operator (.path p) = true) (hq : q < 512) (hn : sqSize s q ≤ fld v 18 0) :
    Completes (.sqTailWrite (.path p) q v) s (fun u => rdB u Reg.hostEvent 2 = true ∧ CountedRefused s u
      ∧ RegsKept [Reg.hostEvent, Reg.refusedCount] s u ∧ MemKept s u) := by
  have he : ringDoorbell q v s = badDoorbell s := by
    unfold ringDoorbell
    dsimp only
    exact if_pos (Or.inl hn)
  exact ⟨_, exec_sqTailWrite hm hq, by rw [he]; exact badDoorbell_spec s⟩

/-- What a write of CQ_HEAD does. -/
def moveCqHead (q : Nat) (v : Word) (s : State) : State :=
  let n := cqSize s q
  let h := fld v 18 0
  let k := (h + n - cqHeadOf s q) % n
  if n ≤ h ∨ (hq s q).ready < k then badDoorbell s
  else
    let s := ((List.range k).map (fun i => (cqHeadOf s q + i) % n)).foldl (fun s i => returnSlot q i s) s
    let s := wrReg (Reg.cqHead q) (wd ((if bit v 63 then 2 ^ 63 else 0) + h)) s
    if bit v 63 then armQueue q s else s

theorem exec_cqHeadWrite (hm : mayWrite s .operator (.path p) = true) (hq : q < 512) :
    exec (.cqHeadWrite (.path p) q v) s = ok (moveCqHead q v s) := by
  show execCqHeadWrite (.path p) q v s = _
  unfold execCqHeadWrite
  rw [if_pos hq]
  exact congrArg ok (answered_queueWrite hm (by simp only [Reg.cqHead]; omega) (by simp only [Reg.cqHead]; omega) (moveCqHead q v))

theorem cqHead_refused (hm : mayWrite s .operator (.path p) = true) (hq : q < 512) (hn : cqSize s q ≤ fld v 18 0) :
    Completes (.cqHeadWrite (.path p) q v) s (fun u => rdB u Reg.hostEvent 2 = true ∧ CountedRefused s u
      ∧ RegsKept [Reg.hostEvent, Reg.refusedCount] s u ∧ MemKept s u) := by
  have he : moveCqHead q v s = badDoorbell s := by
    unfold moveCqHead
    dsimp only
    exact if_pos (Or.inl hn)
  exact ⟨_, exec_cqHeadWrite hm hq, by rw [he]; exact badDoorbell_spec s⟩

/-- What the return of slots of a ring in host memory leaves: their records and what is posted. -/
structure Returned (q k : Nat) (l : List Nat) (s u : State) : Prop where
  regs : u.regs = s.regs
  mem : u.mem = s.mem
  msix : u.host.msix = s.host.msix
  ready : (hq u q).ready = (hq s q).ready - k
  slots : ∀ i ∈ l, bit (mget 0 (hq u q).slots i) 31 = false
  out : u.out.length = s.out.length + k

theorem returnSlot_host (hd : qCqDevice s q = false) (i : Nat) : ∃ b w, bit w 31 = false ∧ returnSlot q i s
    = { onHq q (fun x => { x with slots := mset 0 x.slots i w, ready := x.ready - 1 }) s with out := s.out ++ [b] } := by
  obtain ⟨w, hw⟩ : ∃ w, w = setBit (mget 0 (hq s q).slots i) 31 false := ⟨_, rfl⟩
  obtain ⟨y, hy⟩ : ∃ y, y = onHq q (fun x => { x with slots := mset 0 x.slots i w, ready := x.ready - 1 }) s := ⟨_, rfl⟩
  have hdy : qCqDevice y q = false := by rw [hy]; exact hd
  have h : returnSlot q i s = emit (.hostWrite ((rd y (Reg.cqBase q)).toNat + 32 * i) (leBytes 8 w.toNat)) y := by
    unfold returnSlot
    dsimp only
    rw [← hw, ← hy, hdy, if_neg (by decide)]
    unfold ringWrite
    dsimp only
    rw [hdy]
    exact if_neg (by decide)
  exact ⟨.hostWrite ((rd y (Reg.cqBase q)).toNat + 32 * i) (leBytes 8 w.toNat), w,
    by rw [hw, bit_setBit_self _ _ _ (by decide)], by rw [h, hy]; rfl⟩

theorem returned_slots (hd : qCqDevice s q = false) (l : List Nat) :
    Returned q l.length l s (l.foldl (fun s i => returnSlot q i s) s) := by
  induction l using List.reverseRecOn with
  | nil => exact ⟨rfl, rfl, rfl, rfl, fun _ h => absurd h (by simp), rfl⟩
  | append_singleton l i ih =>
    rw [List.foldl_append, List.foldl_cons, List.foldl_nil, List.length_append]
    generalize l.foldl (fun s i => returnSlot q i s) s = y at ih
    have hdy : qCqDevice y q = false := by rw [qCqDevice, rdB, rd, ih.regs]; exact hd
    obtain ⟨b, w, hb, hr⟩ := returnSlot_host hdy i
    obtain ⟨z, hz⟩ : ∃ z, z = onHq q (fun x => { x with slots := mset 0 x.slots i w, ready := x.ready - 1 }) y := ⟨_, rfl⟩
    have hq' : hq z q = { hq y q with slots := mset 0 (hq y q).slots i w, ready := (hq y q).ready - 1 } := by rw [hz, onHq_same]
    have hro : Machine.hq (returnSlot q i y) q = Machine.hq z q := by rw [hr, ← hz]; rfl
    refine ⟨?_, ?_, ?_, ?_, fun j hj => ?_, ?_⟩
    · rw [hr]; exact ih.regs
    · rw [hr]; exact ih.mem
    · rw [hr]; exact ih.msix
    · rw [hro, hq']
      have := ih.ready
      simp only [List.length_singleton]
      omega
    · rw [hro, hq']
      dsimp only
      by_cases hji : j = i
      · rw [hji, mget_mset_self]; exact hb
      · rw [mget_mset_ne _ _ _ hji]
        rcases List.mem_append.1 hj with h | h
        · exact ih.slots j h
        · exact absurd (List.mem_singleton.1 h) hji
    · rw [hr]
      show (y.out ++ [b]).length = _
      rw [List.length_append, ih.out]
      rfl

/-- The distance between two places of a ring. -/
theorem ring_distance {n h k t : Nat} (hh : h < n) (hk : k < n) (ht : t = (h + k) % n) : (t + n - h) % n = k ∧ t < n := by
  have hn : 0 < n := by omega
  have hc : h + k < n ∨ n ≤ h + k := by omega
  rcases hc with hc | hc
  · rw [Nat.mod_eq_of_lt hc] at ht
    have h1 : t + n - h = k + n := by omega
    rw [h1, Nat.add_mod_right, Nat.mod_eq_of_lt hk]
    exact ⟨rfl, by omega⟩
  · have h2 : (h + k) % n = h + k - n := by
      rw [Nat.mod_eq_sub_mod hc, Nat.mod_eq_of_lt (by omega)]
    have h1 : t + n - h = k := by omega
    rw [h1, Nat.mod_eq_of_lt hk]
    exact ⟨rfl, by omega⟩

section
variable (hm : mayWrite s .operator (.path p) = true) (hq : q < 512) (hd : qCqDevice s q = false) (hh : cqHeadOf s q < cqSize s q)
include hm hq hd hh

theorem cqHead_returns (ht : fld v 18 0 = (cqHeadOf s q + k) % cqSize s q) (hk : k < cqSize s q) (hr : k ≤ (Machine.hq s q).ready)
    (hb : bit v 63 = false) : Completes (.cqHeadWrite (.path p) q v) s (fun u =>
      rd u (Reg.cqHead q) = wd (fld v 18 0) ∧ (Machine.hq u q).ready = (Machine.hq s q).ready - k
        ∧ (∀ j, j < k → bit (mget 0 (Machine.hq u q).slots ((cqHeadOf s q + j) % cqSize s q)) 31 = false)
        ∧ u.out.length = s.out.length + k ∧ RegsKept [Reg.cqHead q] s u ∧ MemKept s u) := by
  obtain ⟨h1, h2⟩ := ring_distance hh hk ht
  have hex := exec_cqHeadWrite (v := v) hm hq
  have hret := returned_slots hd ((List.range k).map (fun i => (cqHeadOf s q + i) % cqSize s q))
  unfold moveCqHead at hex
  dsimp only at hex
  rw [h1, if_neg (by omega), hb, if_neg (by decide), if_neg (by decide), Nat.zero_add] at hex
  rw [List.length_map, List.length_range] at hret
  generalize ((List.range k).map (fun i => (cqHeadOf s q + i) % cqSize s q)).foldl (fun s i => returnSlot q i s) s = y at hex hret
  refine ⟨_, hex, rd_wrReg_self .., hret.ready, fun j hj => hret.slots _ (List.mem_map.2 ⟨j, List.mem_range.2 hj, rfl⟩), hret.out,
    fun a ha => (rd_wrReg_ne _ _ (by simpa using ha)).trans (by rw [rd, rd, hret.regs]), fun a => ?_⟩
  show mget 0 y.mem a = mget 0 s.mem a
  rw [hret.mem]

end

/-- A write of CQ_HEAD that does not move the head arms the vector, or sends its message. -/
theorem moveCqHead_arms (hh : cqHeadOf s q < cqSize s q) (ht : fld v 18 0 = cqHeadOf s q) (hb : bit v 63 = true) :
    moveCqHead q v s = armQueue q (wrReg (Reg.cqHead q) (wd (2 ^ 63 + fld v 18 0)) s) := by
  obtain ⟨h1, h2⟩ := ring_distance (k := 0) hh (by omega) (t := fld v 18 0) (by rw [ht, Nat.add_zero, Nat.mod_eq_of_lt hh])
  unfold moveCqHead
  dsimp only
  rw [h1, if_neg (by omega), hb, if_pos rfl, if_pos rfl]
  rfl

theorem cqHead_arms (hm : mayWrite s .operator (.path p) = true) (hq : q < 512) (hh : cqHeadOf s q < cqSize s q)
    (ht : fld v 18 0 = cqHeadOf s q) (hb : bit v 63 = true) (h0 : (Machine.hq s q).ready = 0) :
    Completes (.cqHeadWrite (.path p) q v) s (fun u =>
      (Machine.hq u q).armed = true ∧ u.out = s.out ∧ RegsKept [Reg.cqHead q] s u ∧ MemKept s u) := by
  obtain ⟨y, hy⟩ : ∃ y, y = wrReg (Reg.cqHead q) (wd (2 ^ 63 + fld v 18 0)) s := ⟨_, rfl⟩
  have ha : armQueue q y = onHq q (fun x => { x with armed := true }) y := by
    unfold armQueue
    exact if_pos (by rw [hy]; exact h0)
  have hex := exec_cqHeadWrite (v := v) hm hq
  rw [moveCqHead_arms hh ht hb, ← hy, ha] at hex
  refine ⟨_, hex, by rw [onHq_same], by rw [hy]; rfl, fun a ha => ?_, fun a => by rw [hy]; rfl⟩
  exact (show rd (onHq q _ y) a = rd y a from rfl).trans (by rw [hy, rd_wrReg_ne _ _ (by simpa using ha)])

theorem cqHead_sends (hm : mayWrite s .operator (.path p) = true) (hq : q < 512) (hh : cqHeadOf s q < cqSize s q)
    (ht : fld v 18 0 = cqHeadOf s q) (hb : bit v 63 = true) (h0 : 0 < (Machine.hq s q).ready)
    (hc : rdF s (Reg.qCtrl q) 26 16 < msixCount (qFunction s q))
    (hmask : bit (msixWord s (qFunction s q) (2 * rdF s (Reg.qCtrl q) 26 16 + 1)) 32 = false) :
    Completes (.cqHeadWrite (.path p) q v) s (fun u => (Machine.hq u q).armed = false
      ∧ u.out = s.out ++ [.msix (qFunction s q) (rdF s (Reg.qCtrl q) 26 16)] ∧ MemKept s u) := by
  obtain ⟨-, -, -, n4, -⟩ := queueReg_ne q
  obtain ⟨y, hy⟩ : ∃ y, y = wrReg (Reg.cqHead q) (wd (2 ^ 63 + fld v 18 0)) s := ⟨_, rfl⟩
  have hr : rd y (Reg.qCtrl q) = rd s (Reg.qCtrl q) := by rw [hy, rd_wrReg_ne _ _ n4]
  have hfn : qFunction y q = qFunction s q := by
    rw [qFunction, qFunction, qTenant, qTenant, rdF, hr, ← rdF]
  have hvec : rdF y (Reg.qCtrl q) 26 16 = rdF s (Reg.qCtrl q) 26 16 := by rw [rdF, hr, ← rdF]
  obtain ⟨z, hz⟩ : ∃ z, z = onHq q (fun x => { x with armed := false }) y := ⟨_, rfl⟩
  have hmz : ∀ f k, msixWord z f k = msixWord s f k := fun f k => by rw [hz, hy]; rfl
  have ha : armQueue q y = emit (.msix (qFunction s q) (rdF s (Reg.qCtrl q) 26 16)) z := by
    unfold armQueue
    rw [if_neg (by rw [hy]; exact Nat.ne_of_gt h0), hfn, hvec, ← hz]
    unfold sendMsix
    rw [if_neg (by omega), hmz, hmask]
    exact if_neg (by decide)
  have hex := exec_cqHeadWrite (v := v) hm hq
  rw [moveCqHead_arms hh ht hb, ← hy, ha] at hex
  have hqz : Machine.hq z q = { Machine.hq y q with armed := false } := by rw [hz, onHq_same]
  refine ⟨_, hex, ?_, by rw [hz, hy]; rfl, fun a => by rw [hz, hy]; rfl⟩
  show (Machine.hq z q).armed = false
  rw [hqz]

-- CQ_RTC (R340)

theorem wordsBytes_length (l : List Word) : (wordsBytes l).length = 8 * l.length := by
  induction l with
  | nil => rfl
  | cons w r ih =>
    have h : (leBytes 8 w.toNat).length = 8 := by simp [leBytes]
    have hc : wordsBytes (w :: r) = leBytes 8 w.toNat ++ wordsBytes r := rfl
    rw [hc, List.length_append, ih, h, List.length_cons]
    omega

theorem exec_cqRtc (hq : q < 512) : exec (.cqRtc (.path p) q) s
    = ok (emit (.hostAnswer 0 stOk (leBytes 8 (cqRtcRead q s).1.toNat) false) (cqRtcRead q s).2) := by
  show execCqRtc (.path p) q s = _
  unfold execCqRtc
  rw [if_pos hq]
  exact congrArg ok (if_pos rfl)

theorem toStack_queues {x : Access} (h : StackTakes s (x.addr / 0x1800000000) (x.addr % 0x1800000000)) :
    toStack x s = onStk (x.addr / 0x1800000000) (stackOf s (x.addr % 0x1800000000)) (fun k => { k with queue := k.queue ++ [x] }) s := by
  obtain ⟨-, -, hl, hh⟩ := h
  unfold toStack
  dsimp only
  refine if_neg fun hc => ?_
  rcases hc with hc | hc
  · omega
  · obtain ⟨e, he, hk⟩ := List.any_eq_true.1 hc
    exact hh e he (by simpa [stackKey] using hk)

theorem cqRtc_valid {x : Access} {w0 : Word} (hq : q < 512) (hd : qCqDevice s q = true)
    (hw : w0 = mget 0 (Machine.hq s q).slots (cqHeadOf s q)) (hb : bit w0 31 = true)
    (hx : ringAccess s q ((rd s (Reg.cqBase q)).toNat + 32 * cqHeadOf s q) .write
      (wordsBytes [setBit w0 31 false, Config.freeWord s.free, Config.freeWord (s.free + 1), Config.freeWord (s.free + 2)]) 32
      .none = some x) (ht : StackTakes s (x.addr / 0x1800000000) (x.addr % 0x1800000000)) :
    Completes (.cqRtc (.path p) q) s (fun u => u.out = s.out ++ [.hostAnswer 0 stOk (leBytes 8 w0.toNat) false]
      ∧ cqHeadOf u q = (cqHeadOf s q + 1) % cqSize s q ∧ (Machine.hq u q).ready = (Machine.hq s q).ready - 1
      ∧ Queued (x.addr / 0x1800000000) (stackOf s (x.addr % 0x1800000000)) x s u
      ∧ RegsKept [Reg.cqHead q] s u ∧ MemKept s u) := by
  obtain ⟨l, hl⟩ : ∃ l, l = wordsBytes [setBit w0 31 false, Config.freeWord s.free, Config.freeWord (s.free + 1),
    Config.freeWord (s.free + 2)] := ⟨_, rfl⟩
  have hlen : l.length = 32 := by rw [hl, wordsBytes_length]; rfl
  rw [← hl] at hx
  obtain ⟨i, hi⟩ : ∃ i, i = cqHeadOf s q := ⟨_, rfl⟩
  rw [← hi] at hx hw ⊢
  obtain ⟨y, hy⟩ : ∃ y, y = { onHq q (fun x => { x with slots := mset 0 x.slots i (setBit w0 31 false), ready := x.ready - 1 }) s
    with free := s.free + 3 } := ⟨_, rfl⟩
  have hqy : Machine.hq y q = { Machine.hq s q with
      slots := mset 0 (Machine.hq s q).slots i (setBit w0 31 false), ready := (Machine.hq s q).ready - 1 } := by
    have h : ∀ z : State, Machine.hq { z with free := s.free + 3 } q = Machine.hq z q := fun _ => rfl
    rw [hy, h, onHq_same]
  have hdy : qCqDevice y q = true := by rw [hy]; exact hd
  have hxy : ringAccess y q ((rd y (Reg.cqBase q)).toNat + 32 * i) .write l l.length .none = some x := by
    rw [hlen, ← hx, hy]; rfl
  have hty : StackTakes y (x.addr / 0x1800000000) (x.addr % 0x1800000000) := by rw [hy]; exact ht
  have hret : returnSlot q i s = toStack x y := by
    have h1 : returnSlot q i s = ringWrite q (32 * i) l y := by
      unfold returnSlot
      dsimp only
      rw [← hw, hl, hy]
      exact if_pos hd
    rw [h1]
    unfold ringWrite
    dsimp only
    rw [hdy, if_pos rfl, hxy]
  have hst : stackOf y (x.addr % 0x1800000000) = stackOf s (x.addr % 0x1800000000) := by rw [hy]; rfl
  obtain ⟨z, hz⟩ : ∃ z, z = toStack x y := ⟨_, rfl⟩
  have hz' := hz.trans (toStack_queues hty)
  rw [hst] at hz'
  have hread : cqRtcRead q s = (w0, wrF (Reg.cqHead q) 18 0 ((i + 1) % cqSize s q) z) := by
    unfold cqRtcRead
    rw [hd, if_neg (by decide)]
    dsimp only
    rw [← hi, ← hw, hb, if_pos rfl, hret, ← hz]
  have hr : ∀ a, rd z a = rd s a := fun a => by rw [hz', hy]; rfl
  have hn : (i + 1) % cqSize s q < 2 ^ (18 + 1 - 0) := by
    have h1 : rdF s (Reg.qCtrl q) 43 40 < 16 := fld_lt _ 43 40
    have h2 : cqSize s q ≤ 2 ^ 19 := Nat.pow_le_pow_right (by decide) (by omega)
    exact lt_of_lt_of_le (Nat.mod_lt _ (by unfold cqSize; positivity)) h2
  have hex := exec_cqRtc (p := p) (s := s) hq
  rw [hread] at hex
  refine ⟨_, hex, by rw [hz', hy]; rfl, ?_, ?_, ?_, fun a ha => ?_, fun a => by rw [hz', hy]; rfl⟩
  · exact rdF_wrF_fits _ _ (by decide) (by decide) hn
  · show (Machine.hq z q).ready = _
    have : Machine.hq z q = Machine.hq y q := by rw [hz']; rfl
    rw [this, hqy]
  · show (stk z _ _).queue = _
    rw [hz', stk_onStk_self, hy]
    rfl
  · exact (rd_wrF_ne _ _ _ _ (by simpa using ha)).trans (hr a)

theorem cqRtc_invalid {w0 : Word} (hq : q < 512) (hd : qCqDevice s q = true)
    (hw : w0 = mget 0 (Machine.hq s q).slots (cqHeadOf s q)) (hb : bit w0 31 = false) :
    Completes (.cqRtc (.path p) q) s (fun u => u = { s with out := s.out ++ [.hostAnswer 0 stOk (leBytes 8 w0.toNat) false] }) := by
  have hread : cqRtcRead q s = (w0, s) := by
    unfold cqRtcRead
    rw [hd, if_neg (by decide)]
    dsimp only
    rw [← hw, hb]
    exact if_neg (by decide)
  have hex := exec_cqRtc (p := p) (s := s) hq
  rw [hread] at hex
  exact ⟨_, hex, rfl⟩

/-- Settles O44: Q_CTRL sets, enables, keeps or stops; a doorbell or head moves within its ring or is counted; CQ_RTC hands out
a valid head slot and returns it. -/
theorem queueRegisters : Obligations.QueueRegisters := by
  unfold Obligations.QueueRegisters
  intro p q v w s hq hm hw
  refine ⟨fun h2 ht => ⟨fun he hb => qCtrl_set hw h2 ht hm hq he hb, fun he h63 h62 h61 hs hc =>
      qCtrl_enable hw h2 ht hm hq he h63 h62 h61 hs hc, fun he hd => qCtrl_refused hw hm hq he hd, fun he hd h63 =>
      qCtrl_stop hw h2 ht hm hq he hd h63⟩,
    fun hn he => sqTail_set hm hq hn (by rw [he]; rintro ⟨h, -⟩; cases h), fun hn hg => sqTail_set hm hq hn (fun h => by omega),
    fun hn => sqTail_refused hm hq hn, fun hd hh => ⟨fun k ht hk hr hb => cqHead_returns hm hq hd hh ht hk hr hb,
      fun ht hb h0 => cqHead_arms hm hq hh ht hb h0, fun ht hb h0 hc hmask => cqHead_sends hm hq hh ht hb h0 hc hmask⟩,
    fun hn => cqHead_refused hm hq hn, fun hd x w0 hw0 => ⟨fun hb hx ht => cqRtc_valid hq hd hw0 hb hx ht,
      fun hb => cqRtc_invalid hq hd hw0 hb⟩⟩

end Sys2Proof.Machine
end

section
/-! PROOFS. Roles of a twin pair (R420–R424). -/

namespace Sys2Proof.Machine

variable {s u v : State} {who : Writer}

-- What the abort of a tenant leaves of the pair

/-- The record of the pair, the mark of a trip and the ports are kept, the registers of heat, time and routes, and every register from the twin unit's on, below
the tiles' blocks. -/
structure PairKept (s u : State) : Prop where
  twin : u.twin = s.twin
  tripped : u.pwr.tripped = s.pwr.tripped
  ports : u.ports = s.ports
  heat : ∀ a, 0x50000 ≤ a → a < 0x80000 → rd u a = rd s a
  regs : ∀ a, 0xC0000 ≤ a → a < 0x1000000 → rd u a = rd s a

theorem PairKept.refl (s : State) : PairKept s s := ⟨rfl, rfl, rfl, fun _ _ _ => rfl, fun _ _ _ => rfl⟩

theorem PairKept.trans (h : PairKept s u) (h' : PairKept u v) : PairKept s v :=
  ⟨h'.twin.trans h.twin, h'.tripped.trans h.tripped, h'.ports.trans h.ports, fun a h1 h2 => (h'.heat a h1 h2).trans (h.heat a h1 h2), fun a h1 h2 => (h'.regs a h1 h2).trans (h.regs a h1 h2)⟩

theorem PairKept.of_same (h : PairKept s u) (hr : v.regs = u.regs) (ht : v.twin = u.twin)
    (hp : v.pwr.tripped = u.pwr.tripped := by rfl) (hl : v.ports = u.ports := by rfl) : PairKept s v :=
  h.trans ⟨ht, hp, hl, fun a _ _ => by rw [rd, rd, hr], fun a _ _ => by rw [rd, rd, hr]⟩

theorem PairKept.onTl (h : PairKept s u) (t : Nat) (f : Tile → Tile) : PairKept s (onTl t f u) := h.of_same rfl rfl

theorem UnitRegs.pair (h : UnitRegs s u) : PairKept s u :=
  ⟨h.twin, h.tripped, h.ports, fun a h1 _ => h.regs a (by omega) (by omega), fun a h1 h2 => h.regs a (by omega) h2⟩

theorem PairKept.wrReg (h : PairKept s u) {a : Nat} (ha : a < 0xC0000 ∧ (a < 0x50000 ∨ 0x80000 ≤ a)) (w : Word) :
    PairKept s (wrReg a w u) :=
  h.trans ⟨rfl, rfl, rfl, fun b h1 _ => rd_wrReg_ne u w (by omega), fun b h1 _ => rd_wrReg_ne u w (by omega)⟩

theorem PairKept.foldl {α : Type} {f : State → α → State} (l : List α) (hf : ∀ v x, PairKept v (f v x)) (s : State) :
    PairKept s (l.foldl f s) :=
  List.foldlRecOn _ _ (PairKept.refl s) fun _ hv x _ => hv.trans (hf _ x)

theorem PairKept.ite {c : Prop} [Decidable c] (hu : PairKept s u) (hv : PairKept s v) : PairKept s (if c then u else v) := by
  split
  · exact hu
  · exact hv

theorem pairKept_cvuError (c : Nat) (s : State) : PairKept s (cvuError c s) :=
  (((PairKept.refl s).of_same (v := { s with cvu := mset {} s.cvu c {} }) rfl rfl).wrReg
    (by simp only [Reg.cvuStatus]; omega) _).wrReg (by decide) _

theorem pairKept_failTag (tag status : Nat) (late : Bool) (s : State) : PairKept s (failTag tag status late s) := by
  by_cases h : (cplOf s tag).st = .opened
  · rw [failTag_of_open h]
    refine PairKept.trans (u := dropChannel (cplOf s tag) s) ?_ (unitRegs_finishTag _ _ _ _ _ _ _).pair
    unfold dropChannel
    split
    · exact PairKept.refl s
    · exact ((PairKept.refl s).wrReg (by simp only [Reg.cvuStatus]; omega) _).ite (pairKept_cvuError _ s)
  · rw [failTag_of_closed h]
    exact PairKept.refl s

theorem pairKept_orReg (m : Nat) (s : State) : PairKept s (orReg Reg.collEvent m s) := (PairKept.refl s).wrReg (by decide) _

theorem pairKept_tellOwed (owed : List (Group × Nat)) (i : Inst) (status : Nat) (s : State) :
    PairKept s (tellOwed owed i status s) := by
  have h1 : PairKept s (owed.foldl (fun s xq => sendAbort xq.1 i status xq.2 s) s) :=
    PairKept.foldl owed (fun v _ => (unitRegs_inject _ v).pair) s
  unfold tellOwed
  dsimp only
  generalize owed.foldl (fun s xq => sendAbort xq.1 i status xq.2 s) s = y at h1 ⊢
  have h2 : PairKept s (if owed = [] then y else orReg Reg.collEvent (2 ^ 4) y) := h1.ite (h1.trans (pairKept_orReg _ y))
  exact (h2.trans (pairKept_orReg _ _)).ite h2

theorem pairKept_endInst (i : Inst) (status : Nat) (s : State) : PairKept s (endInst i status s) := by
  by_cases h : i.sub = 6
  · unfold endInst
    rw [if_pos h]
    exact (PairKept.refl s).of_same rfl rfl
  · rw [endInst_eq h]
    have h1 := pairKept_tellOwed (owedPairs s i) i status s
    generalize tellOwed (owedPairs s i) i status s = y at h1 ⊢
    have h2 : PairKept s (addSat Reg.collErrCount 15 0 1 (dropInst i y)) :=
      (h1.of_same (v := dropInst i y) rfl rfl).wrReg (by decide) _
    generalize addSat Reg.collErrCount 15 0 1 (dropInst i y) = z at h2 ⊢
    exact (h2.of_same (v := dropStaged i z) rfl rfl).trans (pairKept_failTag _ _ _ _)

theorem pairKept_endGangJob (l : Nat) (s : State) : PairKept s (endGangJob l s) := by
  unfold endGangJob
  split
  · exact (unitRegs_idleGang l s).pair
  · have h := ((UnitRegs.refl s).of_same (v := dropJob l s) rfl rfl).trans (unitRegs_idleGang l _)
    exact (h.trans (unitRegs_pushRecord _ _ _ _ _)).pair

theorem pairKept_abortGang (l : Nat) (s : State) : PairKept s (abortGang l s) := by
  obtain ⟨done, he⟩ := abortGang_eq l s
  rw [he]
  obtain ⟨x, hx⟩ : ∃ x : State, x = { s with cpl := s.cpl.map (orphaned (membersOf s l)) } := ⟨_, rfl⟩
  have h0 : PairKept s x := by rw [hx]; exact PairKept.of_same (PairKept.refl s) rfl rfl
  have h1 := h0.trans (PairKept.foldl done (fun v kv => (unitRegs_release kv.1 v).pair) x)
  rw [← hx]
  generalize done.foldl (fun s kv => release kv.1 s) x = y at h1 ⊢
  exact (h1.of_same (v := leaveBars l (membersOf s l) y) rfl rfl).trans (pairKept_endGangJob l _)

theorem pairKept_dropEntries (tenant : Nat) (s : State) : PairKept s (dropEntries tenant s) := by
  unfold dropEntries
  refine PairKept.foldl _ (fun v q => ?_) s
  exact ((PairKept.refl v).of_same (v := onHq q _ v) rfl rfl).trans
    (PairKept.foldl _ (fun w e => (unitRegs_pushRecord _ _ _ _ w).pair) _)

theorem pairKept_dropStreams (tenant : Nat) (s : State) : PairKept s (dropStreams tenant s) := by
  unfold dropStreams
  exact PairKept.foldl _ (fun v t => (PairKept.refl v).onTl t _) s

theorem pairKept_dropUninjected (tenant : Nat) (s : State) : PairKept s (dropUninjected tenant s) := by
  obtain ⟨x, hx⟩ : ∃ x : State, x = { s with net := { s.net with routerQ := s.net.routerQ.filter (fun e => !notInjected s tenant e) } } :=
    ⟨_, rfl⟩
  have h0 : PairKept s x := by rw [hx]; exact PairKept.of_same (PairKept.refl s) rfl rfl
  unfold dropUninjected
  dsimp only
  rw [← hx]
  refine h0.trans (PairKept.foldl _ (fun v tag => ?_) x)
  exact ((PairKept.refl v).of_same (v := setCpl tag _ v) rfl rfl).trans (pairKept_failTag _ _ _ _)

theorem pairKept_dropUnsent (tenant : Nat) (s : State) : PairKept s (dropUnsent tenant s) := by
  unfold dropUnsent
  exact PairKept.foldl _ (fun v tag => pairKept_failTag _ _ _ v) s

theorem pairKept_failWaiters (l : List Nat) (s : State) : PairKept s (failWaiters l s) := by
  refine PairKept.foldl _ (fun v t => ?_) s
  split
  · refine PairKept.ite ?_ ((PairKept.refl v).onTl t _)
    exact ((PairKept.refl v).onTl t _).trans (unitRegs_resume t _).pair
  · exact PairKept.refl v

theorem pairKept_abortTenant (tenant : Nat) (s : State) : PairKept s (abortTenant tenant s) := by
  have h1 := PairKept.foldl (tenantJobs s tenant) (fun v l => pairKept_abortGang l v) s
  unfold abortTenant
  dsimp only
  generalize (tenantJobs s tenant).foldl (fun s l => abortGang l s) s = y at h1 ⊢
  have h2 := (((h1.trans (pairKept_dropEntries tenant y)).trans (pairKept_dropStreams tenant _)).trans
    (pairKept_dropUninjected tenant _)).trans (pairKept_dropUnsent tenant _)
  generalize dropUnsent tenant _ = z at h2 ⊢
  refine (h2.trans (PairKept.foldl _ (fun v i => pairKept_endInst i _ v) z)).trans (PairKept.foldl _ (fun v b => ?_) _)
  exact ((PairKept.refl v).of_same (v := { v with coll := { v.coll with bars := v.coll.bars.erase b } }) rfl rfl).trans
    (pairKept_failWaiters _ _)

-- Commands (R421, R425)

/-- What a write of TWIN.CMD does. -/
def twinCommand (v : Word) (s : State) : Bool × State :=
  if 1 < popCount (fld v 2 0) 3 then (false, twinRefuse s)
  else if bit v 0 then promoteNow s
  else if bit v 1 then demoteNow s
  else if bit v 2 then resyncNow s else (true, s)

theorem twinCommand_promote (s : State) : twinCommand 1 s = promoteNow s := by
  unfold twinCommand
  rw [if_neg (by decide), if_pos (by decide)]

theorem twinCommand_demote (s : State) : twinCommand 2 s = demoteNow s := by
  unfold twinCommand
  rw [if_neg (by decide), if_neg (by decide), if_pos (by decide)]

theorem twinCommand_resync (s : State) : twinCommand 4 s = resyncNow s := by
  unfold twinCommand
  rw [if_neg (by decide), if_neg (by decide), if_neg (by decide), if_pos (by decide)]

/-- A command of TWIN.CMD shows in the state but for the log. -/
theorem answered_twinCmd (hm : mayWrite s .installer who = true) (v : Word) : ∃ au n,
    answered who Reg.twinCmd (twinCmdWrite who v s) = withAudit au n (twinCommand v s).2 :=
  answered_withRole hm (by decide) (twinCommand v)

/-- A refused command raises its event (R425). -/
theorem twinRefuse_refused (s : State) : TwinRefused s (twinRefuse s) :=
  ⟨rdB_orReg_pow _ _ (i := 7) (by decide), rfl, fun _ ha => rd_orReg_ne _ _ (by simpa using ha), fun _ => rfl⟩

/-- The registers of a beat master's clock. -/
structure MasterTaken (s u : State) : Prop where
  twin : u.twin = s.twin
  now : u.now = s.now
  ctrl : rdB u Reg.timeCtrl 5 = true
  status : rdB u Reg.timeStatus 2 = true
  kept : Kept [Reg.timeCtrl, Reg.timeStatus] s u

theorem takeMaster_taken (s : State) : MasterTaken s (takeMaster s) := by
  obtain ⟨y, hy⟩ : ∃ y, y = wrF Reg.timeStatus 55 48 0 (wrB Reg.timeStatus 2 true (wrB Reg.timeCtrl 5 true s)) := ⟨_, rfl⟩
  have hk : Kept [Reg.timeCtrl, Reg.timeStatus] s y := by
    rw [hy]
    exact (((Kept.refl _ s).wrB (by simp) _ _).wrB (by simp) _ _).wrF (by simp) _ _ _
  have hc : rdB y Reg.timeCtrl 5 = true := by
    rw [hy, rdB_wrF_ne _ _ _ _ _ (by decide), rdB_wrB_ne _ _ _ _ (by decide), rdB_wrB_self _ _ _ _ (by decide)]
  have hs : rdB y Reg.timeStatus 2 = true := by
    rw [hy, rdB_wrF_other _ _ _ _ _ _ (by decide) (by decide) (by decide), rdB_wrB_self _ _ _ _ (by decide)]
  have hu : takeMaster s = if timeState s = 3 then setTimeState 2 y else y := by
    rw [hy]
    unfold takeMaster
    split <;> rfl
  have ht : y.twin = s.twin ∧ y.now = s.now := by rw [hy]; exact ⟨rfl, rfl⟩
  rw [hu]
  split
  · exact ⟨ht.1, ht.2, (rdB_wrF_ne _ _ _ _ _ (by decide)).trans hc,
      (rdB_wrF_other _ _ _ _ _ _ (by decide) (by decide) (by decide)).trans hs, hk.wrF (by simp) _ _ _⟩
  · exact ⟨ht.1, ht.2, hc, hs, hk⟩

-- Promotion and demotion (R420, R421)

theorem twinRole_setRoleTwin {r : Nat} (hr : r < 8) (s : State) : twinRole (setRoleTwin r s) = r :=
  rdF_wrF_fits _ _ (by decide) (by decide) hr

/-- The clock stands at a tick that it had not passed. -/
theorem now_clockTo_eq {t : Nat} (h : now s ≤ t) (ht : t < 2 ^ 64) : now (clockTo t s) = t := by
  have h1 := now_clockTo s t ht
  have h2 := now_clockTo_le t s
  omega

theorem twin_clockTo (t : Nat) (s : State) : (clockTo t s).twin = s.twin := by
  obtain ⟨c, n, h⟩ := clockTo_cases s t
  rw [h]

/-- The clock at a round boundary and the role set there, with its event. -/
def roleAt (t r event : Nat) (s : State) : State := twinEvents event (setRoleTwin r (clockTo t s))

theorem roleAt_spec {t r i : Nat} (hr : r < 8) (hi : i < 64) (s : State) (f : Twin → Twin) (u : State)
    (hu : u = onTwin f (roleAt t r (2 ^ i) s)) : twinRole u = r ∧ rdB u Reg.twinEvent i = true ∧ u.now = (clockTo t s).now
      ∧ u.twin = f s.twin ∧ Kept [Reg.twinStatus, Reg.twinEvent] s u := by
  obtain ⟨y, hy⟩ : ∃ y, y = clockTo t s := ⟨_, rfl⟩
  have hk : Kept [Reg.twinStatus, Reg.twinEvent] s (roleAt t r (2 ^ i) s) :=
    (((Kept.refl _ s).clockTo t).wrF (by simp) _ _ _).orReg (by simp) _
  rw [hu]
  refine ⟨?_, ?_, rfl, congrArg f (twin_clockTo t s), hk.of_same rfl rfl⟩
  · exact (rdF_orReg_ne _ _ _ _ (by decide)).trans (twinRole_setRoleTwin hr _)
  · exact rdB_orReg_pow _ _ hi

/-- What the promotion of a standby unit leaves. -/
theorem promoteNow_spec (h : twinRole s = 2) (ht : (now s / 1024 + 1) * 1024 < 2 ^ 64) : TwinPromoted s (promoteNow s).2 := by
  obtain ⟨z, hz⟩ : ∃ z, z = onTwin (fun x => { x with swapAt := none }) (roleAt ((now s / 1024 + 1) * 1024) 3 (2 ^ 0) s) := ⟨_, rfl⟩
  obtain ⟨h1, h2, h3, h4, h5⟩ := roleAt_spec (by decide) (by decide) s (fun x => { x with swapAt := none }) z hz
  have hnow : now z = (now s / 1024 + 1) * 1024 := by
    rw [now, h3, ← now]
    exact now_clockTo_eq (by omega) ht
  have hp : (promoteNow s).2 = if twinTenant s = none then takeMaster z else z := by
    unfold promoteNow
    rw [if_neg (by simp [h]), hz]
    dsimp only
    split <;> rfl
  have hk := h5.mono (l' := [Reg.twinStatus, Reg.twinEvent, Reg.timeCtrl, Reg.timeStatus]) (by simp)
  rw [hp]
  split
  · have hm := takeMaster_taken z
    have hkm := hk.trans (hm.kept.mono (l' := [Reg.twinStatus, Reg.twinEvent, Reg.timeCtrl, Reg.timeStatus]) (by simp))
    refine ⟨?_, ?_, by rw [now, hm.now, ← now, hnow], by rw [hm.twin, h4], fun _ => ⟨hm.ctrl, hm.status⟩, hkm.regs, hkm.mem⟩
    · rw [twinRole, rdF, hm.kept.regs _ (by decide), ← rdF]; exact h1
    · rw [rdB, hm.kept.regs _ (by decide), ← rdB]; exact h2
  · next hn => exact ⟨h1, h2, hnow, by rw [h4], fun h => absurd h hn, hk.regs, hk.mem⟩

theorem promoteNow_refused (h : twinRole s ≠ 2) : (promoteNow s).2 = twinRefuse s := by
  unfold promoteNow
  rw [if_pos h]

theorem TwinPromoted.withAudit (h : TwinPromoted s u) (au : Map Audit) (n : Nat) : TwinPromoted s (withAudit au n u) := h

theorem TwinRefused.withAudit (h : TwinRefused s u) (au : Map Audit) (n : Nat) : TwinRefused s (withAudit au n u) := h

theorem TwinDemoted.withAudit (h : TwinDemoted u) (au : Map Audit) (n : Nat) : TwinDemoted (withAudit au n u) := h

/-- What a demotion leaves, whatever operations of the tenant it ends. -/
theorem demoteNow_spec (h : twinOn s = true) : TwinDemoted (demoteNow s).2 := by
  obtain ⟨y, hy⟩ : ∃ y, y = onTwin (fun x => { x with swapAt := none, copying := false, holdJobs := false }) (setRoleTwin 4 s) :=
    ⟨_, rfl⟩
  have h1 : twinRole y = 4 := by rw [hy]; exact twinRole_setRoleTwin (by decide) s
  have h2 : y.twin.swapAt = none ∧ y.twin.copying = false := by rw [hy]; exact ⟨rfl, rfl⟩
  obtain ⟨z, hyz, hd⟩ : ∃ z, PairKept y z ∧ (demoteNow s).2 = twinEvents 2 (dropMaster z) := by
    unfold demoteNow
    rw [h, Bool.not_true, if_neg (by decide)]
    dsimp only
    rw [← hy]
    cases twinTenant s with
    | none => exact ⟨y, PairKept.refl y, rfl⟩
    | some t => exact ⟨abortTenant t y, pairKept_abortTenant t y, rfl⟩
  obtain ⟨w, hw⟩ : ∃ w, w = dropMaster z := ⟨_, rfl⟩
  have hwt : w.twin = z.twin := by rw [hw]; rfl
  have hwr : rd w Reg.twinStatus = rd z Reg.twinStatus := by
    rw [hw, dropMaster, rd_wrB_ne _ _ _ (by decide), rd_wrB_ne _ _ _ (by decide)]
  have hwc : rdB w Reg.timeCtrl 5 = false := by
    rw [hw, dropMaster, rdB_wrB_ne _ _ _ _ (by decide), rdB_wrB_self _ _ _ _ (by decide)]
  rw [hd, ← hw]
  refine ⟨?_, rdB_orReg_pow _ _ (i := 1) (by decide), ?_, ?_, ?_⟩
  · rw [twinRole, twinEvents, rdF_orReg_ne _ _ _ _ (by decide), rdF, hwr, hyz.regs _ (by decide) (by decide), ← rdF]
    exact h1
  · exact (congrArg Twin.swapAt (hwt.trans hyz.twin)).trans h2.1
  · exact (congrArg Twin.copying (hwt.trans hyz.twin)).trans h2.2
  · rw [twinEvents, rdB_orReg_ne _ _ _ (by decide)]
    exact hwc

theorem demoteNow_refused (h : twinOn s = false) : (demoteNow s).2 = twinRefuse s := by
  unfold demoteNow
  rw [h, Bool.not_false, if_pos rfl]

theorem promote_completes (hm : mayWrite s .installer who = true) {post : State → Prop} (h : post (promoteNow s).2)
    (hk : ∀ u au n, post u → post (withAudit au n u)) :
    Completes (.promote who) s post ∧ Completes .twinPromote s post := by
  obtain ⟨au, n, ha⟩ := answered_twinCmd hm 1
  rw [twinCommand_promote] at ha
  exact ⟨⟨_, congrArg ok ha, hk _ au n h⟩, _, rfl, h⟩

theorem demote_completes (hm : mayWrite s .installer who = true) {post : State → Prop} (h : post (demoteNow s).2)
    (hk : ∀ u au n, post u → post (withAudit au n u)) :
    Completes (.demote who) s post ∧ Completes .twinDemote s post := by
  obtain ⟨au, n, ha⟩ := answered_twinCmd hm 2
  rw [twinCommand_demote] at ha
  exact ⟨⟨_, congrArg ok ha, hk _ au n h⟩, _, rfl, h⟩

theorem resync_asks (hm : mayWrite s .installer who = true) (h1 : twinRole s = 1) (h2 : s.twin.paired = true)
    (h3 : s.twin.resyncAsked = false) (h4 : s.twin.copying = false) : Completes (.resync who) s (fun u =>
      u.twin = { s.twin with resyncAsked := true } ∧ rd u Reg.syncRound = wd (now s / 1024 + 4)
        ∧ RegsKept [Reg.syncRound] s u ∧ MemKept s u) := by
  obtain ⟨au, n, ha⟩ := answered_twinCmd hm 4
  rw [twinCommand_resync] at ha
  have hr : (resyncNow s).2 = askResync s := by
    unfold resyncNow
    rw [if_neg (by simp [h1, h2, h3, h4])]
  rw [hr] at ha
  refine ⟨_, congrArg ok ha, ?_⟩
  exact ⟨rfl, rd_wrReg_self .., fun a ha => rd_wrReg_ne _ _ (by simpa using ha), fun _ => rfl⟩

theorem resync_refused (hm : mayWrite s .installer who = true) (h : twinRole s ≠ 1) :
    Completes (.resync who) s (TwinRefused s) := by
  obtain ⟨au, n, ha⟩ := answered_twinCmd hm 4
  rw [twinCommand_resync] at ha
  have hr : (resyncNow s).2 = twinRefuse s := by
    unfold resyncNow
    rw [if_pos (Or.inl h)]
  rw [hr] at ha
  refine ⟨_, congrArg ok ha, ?_⟩
  exact (twinRefuse_refused s).withAudit au n

-- Reversion (R423, R424)

theorem twinRevert_completes : (twinRole s = 3 → Completes .twinRevert s (fun u =>
      u = { s with twin := { s.twin with swapAt := some ((now s / 1024 + 4) * 1024) } }))
    ∧ (twinRole s ≠ 3 → Completes .twinRevert s (fun u => u = s)) :=
  ⟨fun h => ⟨_, congrArg ok (if_pos h), rfl⟩, fun h => ⟨_, congrArg ok (if_neg h), rfl⟩⟩

/-- A management packet toward a neighbour joins its bond's queue. -/
theorem sendToward_of_port {d op n b : Nat} {l : List Nat} {payload : List Byte} (hp : portsTo s d = n :: l)
    (hb : bondOf s n = some b) : ∃ q, sendToward d op payload s = onBnd b (fun x => { x with queue := x.queue ++ [(32, q)] }) s
      ∧ q.opcode = op ∧ q.vc = 7 ∧ q.payload = payload := by
  unfold sendToward
  rw [hp]
  dsimp only
  rw [hb]
  exact ⟨_, rfl, rfl, rfl, rfl⟩

theorem SameLinks.of_regs (h : u.regs = s.regs) : SameLinks s u := fun a _ _ => by rw [rd, rd, h]

theorem portsTo_congr (h : u.regs = s.regs) (d : Nat) : portsTo u d = portsTo s d := by
  simp only [portsTo, portState, rdF, rdB, rd, h]

theorem lt_of_mem_portsTo {n d : Nat} (h : n ∈ portsTo s d) : n < 32 := List.mem_range.1 (List.mem_filter.1 h).1

theorem holdoffExpiry_completes {n b : Nat} {l : List Nat} (h2 : twinRole s = 2) (hp : twinPreferred s = true)
    (hh : holdoff s ≠ 0) (hmiss : s.twin.misses < rdF s Reg.beatCtrl 35 32) (hs : s.twin.swapAt = none)
    (hports : portsTo s (twinPeer s) = n :: l) (hb : bondOf s n = some b)
    (h64 : s.twin.standbySince + holdoff s * 1600000000 < 2 ^ 64) : Completes .twinHoldoffExpiry s (fun u =>
      s.twin.standbySince + holdoff s * 1600000000 ≤ now u ∧ u.twin.swapAt = some ((now u / 1024 + 4) * 1024)
        ∧ (∃ p, (bnd u b).queue = (bnd s b).queue ++ [(32, p)] ∧ p.opcode = 0x76) ∧ RegsKept [] s u ∧ MemKept s u) := by
  obtain ⟨t, ht⟩ : ∃ t, t = s.twin.standbySince + holdoff s * 1600000000 := ⟨_, rfl⟩
  rw [← ht] at h64 ⊢
  obtain ⟨c, k, hclk⟩ := clockTo_cases s t
  have hnow := now_clockTo s t h64
  obtain ⟨y, hy⟩ : ∃ y, y = agreeSwap (clockTo t s) := ⟨_, rfl⟩
  have hregs : y.regs = s.regs := by rw [hy, hclk]; rfl
  have hn : n < 32 := lt_of_mem_portsTo (by rw [hports]; exact List.mem_cons_self)
  obtain ⟨q, hq, hop, -, -⟩ := sendToward_of_port (s := y) (op := 0x76) (payload := orderBytes s (twinPeer s))
    ((portsTo_congr hregs _).trans hports) (((SameLinks.of_regs hregs).bondOf hn).trans hb)
  have hex : exec .twinHoldoffExpiry s = ok (sendToward (twinPeer s) 0x76 (orderBytes s (twinPeer s)) y) := by
    show execTwinHoldoffExpiry s = _
    unfold execTwinHoldoffExpiry
    rw [if_pos (by simp [h2, hp, hh, hmiss, hs]), hy, ht]
  refine ⟨_, hex, ?_⟩
  rw [hq]
  refine ⟨?_, ?_, ⟨q, ?_, hop⟩, fun a _ => ?_, fun a => ?_⟩
  · show t ≤ now y
    rw [hy]; exact hnow
  · show y.twin.swapAt = some ((now y / 1024 + 4) * 1024)
    rw [hy]; rfl
  · rw [bnd_onBnd_self, hy, hclk]; rfl
  · show rd y a = rd s a
    rw [rd, rd, hregs]
  · show memByte y a = memByte s a
    rw [hy, hclk]; rfl

theorem twinRole_clockTo (t : Nat) (s : State) : twinRole (clockTo t s) = twinRole s := by
  rw [twinRole, rdF, rd_clockTo, ← rdF, ← twinRole]

/-- The round of an agreed swap comes. -/
theorem roleSwap_completes {t : Nat} (hs : s.twin.swapAt = some t) (ht : t < 2 ^ 64) : Completes .twinRoleSwap s (fun u =>
    u.twin.swapAt = none ∧ t ≤ now u
      ∧ (twinRole s = 2 → twinRole u = 3 ∧ rdB u Reg.twinEvent 2 = true)
      ∧ (twinRole s = 3 → twinRole u = 2 ∧ rdB u Reg.twinEvent 2 = true ∧ u.twin.standbySince = now u)
      ∧ MemKept s u) := by
  obtain ⟨y, hy⟩ : ∃ y, y = onTwin (fun x => { x with swapAt := none }) (clockTo t s) := ⟨_, rfl⟩
  have hrole : twinRole y = twinRole s := by rw [hy]; exact twinRole_clockTo t s
  have hnow : t ≤ now y := by rw [hy]; exact now_clockTo s t ht
  have hmem : MemKept s y := fun a => by rw [hy]; exact memByte_clockTo t a
  have hsw : y.twin.swapAt = none := by rw [hy]; rfl
  have hset : ∀ r, r < 8 → ∀ z, z = twinEvents 4 (setRoleTwin r y) → twinRole z = r ∧ rdB z Reg.twinEvent 2 = true := by
    rintro r hr z rfl
    exact ⟨(rdF_orReg_ne _ _ _ _ (by decide)).trans (twinRole_setRoleTwin hr y), rdB_orReg_pow _ _ (i := 2) (by decide)⟩
  have hex : exec .twinRoleSwap s = ok (if twinRole y = 2 then
        (if twinTenant y = none then takeMaster else id) (twinEvents 4 (setRoleTwin 3 y))
      else if twinRole y = 3 then
        (if twinTenant y = none then dropMaster else id) (onTwin (fun x => { x with standbySince := now y })
          (twinEvents 4 (setRoleTwin 2 y)))
      else y) := by
    show execTwinRoleSwap s = _
    unfold execTwinRoleSwap
    rw [hs, hy]
  rw [hrole] at hex
  by_cases h2 : twinRole s = 2
  · rw [if_pos h2] at hex
    obtain ⟨z, hz⟩ : ∃ z, z = twinEvents 4 (setRoleTwin 3 y) := ⟨_, rfl⟩
    obtain ⟨z1, z2⟩ := hset 3 (by decide) z hz
    have hzt : z.twin = y.twin ∧ z.now = y.now ∧ MemKept y z := by rw [hz]; exact ⟨rfl, rfl, fun _ => rfl⟩
    rw [← hz] at hex
    have hres : ∀ w : State, w.twin = z.twin → w.now = z.now → twinRole w = 3 → rdB w Reg.twinEvent 2 = true → MemKept z w →
        w.twin.swapAt = none ∧ t ≤ now w ∧ (twinRole s = 2 → twinRole w = 3 ∧ rdB w Reg.twinEvent 2 = true)
          ∧ (twinRole s = 3 → twinRole w = 2 ∧ rdB w Reg.twinEvent 2 = true ∧ w.twin.standbySince = now w) ∧ MemKept s w := by
      intro w w1 w2 w3 w4 w5
      exact ⟨by rw [w1, hzt.1]; exact hsw, by rw [now, w2, hzt.2.1]; exact hnow, fun _ => ⟨w3, w4⟩, fun h => by omega,
        fun a => (w5 a).trans ((hzt.2.2 a).trans (hmem a))⟩
    by_cases hn : twinTenant y = none
    · rw [if_pos hn] at hex
      have hm := takeMaster_taken z
      refine ⟨_, hex, hres _ hm.twin hm.now ?_ ?_ hm.kept.mem⟩
      · rw [twinRole, rdF, hm.kept.regs _ (by decide), ← rdF]; exact z1
      · rw [rdB, hm.kept.regs _ (by decide), ← rdB]; exact z2
    · rw [if_neg hn] at hex
      exact ⟨_, hex, hres z rfl rfl z1 z2 fun _ => rfl⟩
  · rw [if_neg h2] at hex
    by_cases h3 : twinRole s = 3
    · rw [if_pos h3] at hex
      obtain ⟨z, hz⟩ : ∃ z, z = twinEvents 4 (setRoleTwin 2 y) := ⟨_, rfl⟩
      obtain ⟨z1, z2⟩ := hset 2 (by decide) z hz
      have hzt : z.twin = y.twin ∧ z.now = y.now ∧ MemKept y z := by rw [hz]; exact ⟨rfl, rfl, fun _ => rfl⟩
      rw [← hz] at hex
      obtain ⟨v, hv⟩ : ∃ v, v = onTwin (fun x => { x with standbySince := now y }) z := ⟨_, rfl⟩
      have hvz : v.twin.swapAt = none ∧ v.twin.standbySince = now y ∧ v.now = y.now ∧ v.regs = z.regs ∧ MemKept s v := by
        rw [hv]
        exact ⟨(congrArg Twin.swapAt hzt.1).trans hsw, rfl, hzt.2.1, rfl, fun a => (hzt.2.2 a).trans (hmem a)⟩
      obtain ⟨v1, v2, v3, v4, v5⟩ := hvz
      rw [← hv] at hex
      have hres : ∀ w : State, w.twin = v.twin → w.now = v.now → rd w Reg.twinStatus = rd v Reg.twinStatus →
          rd w Reg.twinEvent = rd v Reg.twinEvent → MemKept v w →
          w.twin.swapAt = none ∧ t ≤ now w ∧ (twinRole s = 2 → twinRole w = 3 ∧ rdB w Reg.twinEvent 2 = true)
            ∧ (twinRole s = 3 → twinRole w = 2 ∧ rdB w Reg.twinEvent 2 = true ∧ w.twin.standbySince = now w) ∧ MemKept s w := by
        intro w w1 w2 w3 w4 w5
        refine ⟨by rw [w1]; exact v1, by rw [now, w2, v3]; exact hnow, fun h => absurd h h2, fun _ => ⟨?_, ?_, ?_⟩,
          fun a => (w5 a).trans (v5 a)⟩
        · rw [twinRole, rdF, w3, rd, v4, ← rd, ← rdF]; exact z1
        · rw [rdB, w4, rd, v4, ← rd, ← rdB]; exact z2
        · rw [w1, v2, now, now, w2, v3]
      by_cases hn : twinTenant y = none
      · rw [if_pos hn] at hex
        refine ⟨_, hex, hres _ rfl rfl ?_ ?_ fun _ => rfl⟩
        · rw [dropMaster, rd_wrB_ne _ _ _ (by decide), rd_wrB_ne _ _ _ (by decide)]
        · rw [dropMaster, rd_wrB_ne _ _ _ (by decide), rd_wrB_ne _ _ _ (by decide)]
      · rw [if_neg hn] at hex
        exact ⟨_, hex, hres v rfl rfl rfl rfl fun _ => rfl⟩
    · rw [if_neg h3] at hex
      exact ⟨_, hex, hsw, hnow, fun h => absurd h h2, fun h => absurd h h3, hmem⟩

-- Resynchronisation (R422)

/-- The state at the agreed round, its copy begun. -/
def resyncBegun (r : Nat) (s : State) : State := onTwin (fun x => { x with copying := true, resyncAsked := false }) (clockTo r s)

theorem resyncBegun_spec {r : Nat} (hr : r = max (rdF s Reg.syncRound 53 0 * 1024) ((now s + 1023) / 1024 * 1024)) (h64 : r < 2 ^ 64)
    (y : State) (hy : y = resyncBegun r s) : now y = r ∧ y.regs = s.regs ∧ y.mem = s.mem ∧ y.out = s.out
      ∧ y.twin = { s.twin with copying := true, resyncAsked := false } := by
  obtain ⟨c, n, hc⟩ := clockTo_cases s r
  have hn : now (clockTo r s) = r := now_clockTo_eq (by omega) h64
  rw [hy]
  refine ⟨hn, ?_, ?_, ?_, ?_⟩ <;> · unfold resyncBegun; rw [hc]; rfl

/-- The record of a region that an active unit sends, where the region is valid. -/
def copyRegion (s : State) (i : Nat) : State :=
  let w := rd s (Reg.syncRegion i 0)
  let lo := fld w 47 0
  let hi := rdF s (Reg.syncRegion i 1) 47 0
  if bit w 63 then emit (.twinCopy (twinPeer s) lo hi (cellsIn s lo hi)) s else s

theorem copyRegion_spec (s : State) (i : Nat) : ∃ o, copyRegion s i = { s with out := s.out ++ o }
    ∧ o.length = ([i].filter (fun i => rdB s (Reg.syncRegion i 0) 63)).length := by
  unfold copyRegion
  dsimp only
  by_cases hb : bit (rd s (Reg.syncRegion i 0)) 63 = true
  · rw [if_pos hb]
    exact ⟨[_], rfl, by simp [rdB, hb]⟩
  · rw [if_neg hb]
    exact ⟨[], by simp, by simp [rdB, hb]⟩

/-- What the active unit sends at the start of a copy: a record for every valid region, then its state. -/
theorem copyOut_spec (s : State) : ∃ l, copyOut s
      = { s with out := s.out ++ l ++ [.twinState (twinPeer s) s.twin.txSeq s.twin.windows] }
    ∧ l.length = ((List.range 16).filter (fun i => rdB s (Reg.syncRegion i 0) 63)).length := by
  have hfold : ∀ l : List Nat, ∃ o, l.foldl copyRegion s = { s with out := s.out ++ o }
      ∧ o.length = (l.filter (fun i => rdB s (Reg.syncRegion i 0) 63)).length := by
    intro l
    induction l using List.reverseRecOn with
    | nil => exact ⟨[], by simp, rfl⟩
    | append_singleton l i ih =>
      obtain ⟨o, ho, hl⟩ := ih
      obtain ⟨m, hm, hk⟩ := copyRegion_spec { s with out := s.out ++ o } i
      refine ⟨o ++ m, ?_, ?_⟩
      · rw [List.foldl_append, List.foldl_cons, List.foldl_nil, ho, hm, ← List.append_assoc]
      · rw [List.length_append, List.filter_append, List.length_append, hl, hk]
        rfl
  obtain ⟨o, ho, hl⟩ := hfold (List.range 16)
  have hc : copyOut s = emit (.twinState (twinPeer ((List.range 16).foldl copyRegion s))
      ((List.range 16).foldl copyRegion s).twin.txSeq ((List.range 16).foldl copyRegion s).twin.windows)
      ((List.range 16).foldl copyRegion s) := rfl
  refine ⟨o, ?_, hl⟩
  rw [hc, ho]
  rfl

section
variable {r : Nat} (hc : s.twin.copying = false) (hp : s.twin.paired = true)
  (hr : r = max (rdF s Reg.syncRound 53 0 * 1024) ((now s + 1023) / 1024 * 1024)) (h64 : r < 2 ^ 64)
include hc hp hr h64

theorem resyncStart_active (h3 : twinRole s = 3) (hj : twinJobRuns s = false) : Completes .twinResyncStart s (fun u =>
    u.twin.copying = true ∧ u.twin.holdJobs = true ∧ now u = r
      ∧ (∃ l, u.out = s.out ++ l ++ [.twinState (twinPeer s) s.twin.txSeq s.twin.windows]
          ∧ l.length = ((List.range 16).filter (fun i => rdB s (Reg.syncRegion i 0) 63)).length)
      ∧ RegsKept [] s u ∧ MemKept s u) := by
  obtain ⟨y, hy⟩ : ∃ y, y = resyncBegun r s := ⟨_, rfl⟩
  obtain ⟨y1, y2, y3, y4, y5⟩ := resyncBegun_spec hr h64 y hy
  obtain ⟨z, hz⟩ : ∃ z, z = onTwin (fun x => { x with holdJobs := true }) y := ⟨_, rfl⟩
  have hex : exec .twinResyncStart s = ok (copyOut z) := by
    show execTwinResyncStart s = _
    unfold execTwinResyncStart
    dsimp only
    rw [hc, hp, if_neg (by decide), h3, hj, if_pos (by decide), ← hr, hz, hy]
    rfl
  obtain ⟨l, hl, hn⟩ := copyOut_spec z
  have hzr : z.regs = s.regs := by rw [hz]; exact y2
  have hzt : z.twin = { s.twin with copying := true, resyncAsked := false, holdJobs := true } := by
    rw [hz]
    show { y.twin with holdJobs := true } = _
    rw [y5]
  have hrd : ∀ a, rd z a = rd s a := fun a => by rw [rd, rd, hzr]
  have hpe : twinPeer z = twinPeer s := by rw [twinPeer, rdF, hrd, ← rdF, ← twinPeer]
  have hzo : z.out = s.out := by rw [hz]; exact y4
  rw [hl] at hex
  refine ⟨_, hex, congrArg Twin.copying hzt, congrArg Twin.holdJobs hzt, ?_, ⟨l, ?_, ?_⟩, fun a _ => hrd a, fun a => ?_⟩
  · rw [← y1, hz]; rfl
  · dsimp only
    rw [hzo, hpe, hzt]
  · rw [hn]
    simp only [rdB, hrd]
  · show mget 0 z.mem a = mget 0 s.mem a
    rw [← y3, hz]; rfl

theorem resyncStart_syncing (h1 : twinRole s = 1) (ha : s.twin.resyncAsked = true) : Completes .twinResyncStart s (fun u =>
    u.twin = { s.twin with copying := true, resyncAsked := false } ∧ now u = r ∧ u.out = s.out ∧ RegsKept [] s u ∧ MemKept s u) := by
  obtain ⟨y, hy⟩ : ∃ y, y = resyncBegun r s := ⟨_, rfl⟩
  obtain ⟨y1, y2, y3, y4, y5⟩ := resyncBegun_spec hr h64 y hy
  have hex : exec .twinResyncStart s = ok y := by
    show execTwinResyncStart s = _
    unfold execTwinResyncStart
    dsimp only
    rw [hc, hp, if_neg (by decide), h1, ha, if_neg (by simp), if_pos (by decide), ← hr, hy]
    rfl
  exact ⟨_, hex, y5, y1, y4, fun a _ => by rw [rd, rd, y2], fun a => by rw [memByte, memByte, y3]⟩

end

theorem resyncDone_failed (hc : s.twin.copying = true) (c : ResyncCopy) : Completes (.resyncDone false c) s (fun u =>
    rdB u Reg.twinEvent 4 = true ∧ u.twin.copying = false ∧ u.twin.holdJobs = false ∧ twinRole u = twinRole s
      ∧ RegsKept [Reg.twinEvent] s u ∧ MemKept s u) := by
  have hex : exec (.resyncDone false c) s = ok (failResync s) := by
    show execResyncDone false c s = _
    unfold execResyncDone
    rw [hc, if_neg (by decide), if_pos (by decide)]
  refine ⟨_, hex, rdB_orReg_pow _ _ (i := 4) (by decide), rfl, rfl, ?_, fun a ha => ?_, fun _ => rfl⟩
  · exact rdF_orReg_ne (b := Reg.twinStatus) (a := Reg.twinEvent) s _ _ _ (by decide)
  · exact rd_orReg_ne s _ (by simpa using ha)

theorem resyncDone_good {a : Nat} {bs : List Byte} {q : List (Nat × Nat)} {w : List (Nat × BitVec 4096)} (hc : s.twin.copying = true) (h1 : twinRole s = 1)
    (he : ∀ v ∈ unitsOf a bs.length, eccOf s v = .clean) :
    Completes (.resyncDone true { mem := [(a, bs)], seqs := q, windows := w }) s (fun u =>
      twinRole u = 2 ∧ rdB u Reg.twinEvent 3 = true ∧ u.twin.copying = false ∧ u.twin.standbySince = now s
        ∧ memBytes u a bs.length = bs ∧ MemKeptBut a bs.length s u ∧ RegsKept [Reg.twinEvent, Reg.twinStatus] s u) := by
  obtain ⟨y, hy⟩ : ∃ y, y = onTwin (fun x => { x with copying := false, resyncAsked := false, holdJobs := false }) (twinEvents 8 s) :=
    ⟨_, rfl⟩
  have hry : twinRole y = twinRole s := by
    rw [hy]; exact rdF_orReg_ne (b := Reg.twinStatus) (a := Reg.twinEvent) s _ _ _ (by decide)
  obtain ⟨m, e, hw⟩ := writeMem_frame true false a bs y
  obtain ⟨z, hz⟩ : ∃ z, z = takeCopy { mem := [(a, bs)], seqs := q, windows := w } y := ⟨_, rfl⟩
  have hzm : ∀ b, memByte z b = memByte (writeMem true false a bs y).2 b := fun b => by rw [hz]; rfl
  have hzr : z.regs = y.regs := by
    rw [hz]
    show (writeMem true false a bs y).2.regs = y.regs
    rw [hw]
  have hzt : z.twin.copying = false := by
    have h : z.twin.copying = (writeMem true false a bs y).2.twin.copying := by rw [hz]; rfl
    rw [h, hw, hy]
    rfl
  have hny : now y = now s := by rw [hy]; rfl
  have hex : exec (.resyncDone true { mem := [(a, bs)], seqs := q, windows := w }) s
      = ok (onTwin (fun x => { x with standbySince := now y }) (setRoleTwin 2 z)) := by
    show execResyncDone true _ s = _
    unfold execResyncDone
    rw [hc, if_neg (by decide), if_neg (by decide)]
    dsimp only
    rw [← hy, hry, if_pos h1, ← hz]
  have hyr : ∀ b, b ≠ Reg.twinEvent → rd y b = rd s b := fun b hb => by rw [hy]; exact rd_orReg_ne s _ hb
  have hm := memBytes_writeMem (s := y) true false (a := a) (bs := bs) (by rw [hy]; exact he)
  refine ⟨_, hex, twinRole_setRoleTwin (by decide) z, ?_, hzt, hny, (memBytes_congr hzm _ _).trans hm, fun b hb => ?_,
    fun b hb => ?_⟩
  · have h : rdB (setRoleTwin 2 z) Reg.twinEvent 3 = true := by
      rw [setRoleTwin, rdB_wrF_ne _ _ _ _ _ (by decide), rdB, rd, hzr, ← rd, ← rdB, hy]
      exact rdB_orReg_pow _ _ (i := 3) (by decide)
    exact h
  · show memByte z b = memByte s b
    rw [hzm, memByte_writeMem_out _ _ _ _ _ _ hb, hy]
    rfl
  · simp only [List.mem_cons, List.not_mem_nil, or_false, not_or] at hb
    have h : rd (setRoleTwin 2 z) b = rd s b := by
      rw [setRoleTwin, rd_wrF_ne _ _ _ _ hb.2, rd, hzr, ← rd, hyr b hb.1]
    exact h

/-- Settles O55: each command and packet of a pair sets the role that it names where the unit's own role allows it, and is
refused otherwise; a copy begins at its round and ends in STANDBY or fails. -/
theorem twinRoles : Obligations.TwinRoles := by
  unfold Obligations.TwinRoles
  intro s who hm
  refine ⟨fun h ht => promote_completes hm (promoteNow_spec h ht) fun _ au n h => h.withAudit au n,
    fun h => promote_completes hm (by rw [promoteNow_refused h]; exact twinRefuse_refused s) fun _ au n h => h.withAudit au n,
    fun h => demote_completes hm (demoteNow_spec h) fun _ au n h => h.withAudit au n,
    fun h => demote_completes hm (by rw [demoteNow_refused h]; exact twinRefuse_refused s) fun _ au n h => h.withAudit au n,
    fun h1 h2 h3 h4 => resync_asks hm h1 h2 h3 h4, fun h => resync_refused hm h, twinRevert_completes.1, twinRevert_completes.2,
    fun n l b h2 hp hh hmiss hs hports hb h64 => holdoffExpiry_completes h2 hp hh hmiss hs hports hb h64,
    fun t hs ht => roleSwap_completes hs ht, fun r hc hp hr h64 => ⟨fun h3 hj => resyncStart_active hc hp hr h64 h3 hj,
      fun h1 ha => resyncStart_syncing hc hp hr h64 h1 ha⟩,
    fun hc => ⟨fun c => resyncDone_failed hc c, fun a bs q w h1 he => resyncDone_good hc h1 he⟩⟩

end Sys2Proof.Machine
end

section
/-! PROOFS. How a twin pair forms and loses its peer (R411–R413, R417, R419). -/

namespace Sys2Proof.Machine

variable {s u : State} {who : Writer} {v w : Word} {b : TwinBeat}

-- TWIN.CTRL (R411)

/-- What a write of TWIN.CTRL does. -/
def configurePair (v : Word) (s : State) : Bool × State :=
  let mask := Reg.bits 63 60 + Reg.bits 55 32 + Reg.bits 29 16 + Reg.bits 13 0
  let v := v &&& wd mask
  let old := rd s Reg.twinCtrl
  if twinOn s then
    (if setBit v 63 true ≠ old then (false, twinRefuse s)
     else if bit v 63 then (true, s)
     else (true, s |> wrReg Reg.twinCtrl v |> setRoleTwin 0 |> wrB Reg.twinStatus 3 false |> onTwin freshPair))
  else if !bit v 63 then (true, wrReg Reg.twinCtrl v s)
  else if (bit v 60 && (!twinLicensed s || !tenantOk s (fld v 55 48))) || portsTo s (fld v 13 0) = [] then
    (false, twinRefuse s)
  else (true, s |> wrReg Reg.twinCtrl v |> setRoleTwin 1 |> onTwin freshPair)

/-- A logged write that may go beyond a licence shows in the state but for the log and what it answers. -/
theorem answered_unlicensed_logged {c : Reg.Class} {a : Nat} {beyond : State → Bool} (hm : mayWrite s c who = true)
    (ha : skipsLog a = false) (f : State → Bool × State) :
    ∃ au n o, answered who a (unlicensedIf c who beyond (withRole c who a f) s) = { withAudit au n (f s).2 with out := o } := by
  obtain ⟨au, n, hl⟩ := logOutcome_frame c who ha (f s).1 (f s).2
  have h1 : withRole c who a f s = (stOk, withAudit au n (f s).2) := by
    unfold withRole
    rw [if_pos hm]
    exact congrArg (Prod.mk stOk) hl
  unfold unlicensedIf
  rw [h1]
  dsimp only
  split
  · exact ⟨au, n, _, rfl⟩
  · exact ⟨au, n, (f s).2.out, rfl⟩

theorem exec_twinCtrl (hm : mayWrite s .installer who = true) (v : Word) :
    ∃ au n o, exec (.twinCtrlWrite who v) s = ok { withAudit au n (configurePair v s).2 with out := o } := by
  obtain ⟨au, n, o, h⟩ := answered_unlicensed_logged (a := Reg.twinCtrl) (beyond := twinOver v) hm (by decide) (configurePair v)
  exact ⟨au, n, o, congrArg ok h⟩

/-- A refused write of TWIN.CTRL raises its event. -/
theorem twinCtrl_refused (hm : mayWrite s .installer who = true) (h : (configurePair v s).2 = twinRefuse s) :
    Completes (.twinCtrlWrite who v) s (fun u =>
      rdB u Reg.twinEvent 7 = true ∧ u.twin = s.twin ∧ RegsKept [Reg.twinEvent] s u ∧ MemKept s u) := by
  obtain ⟨au, n, o, hex⟩ := exec_twinCtrl hm v
  rw [h] at hex
  have hr := twinRefuse_refused s
  generalize twinRefuse s = y at hex hr
  exact ⟨_, hex, hr⟩

theorem twinCtrl_no_port (hw : w = v &&& wd (Reg.bits 63 60 + Reg.bits 55 32 + Reg.bits 29 16 + Reg.bits 13 0))
    (hoff : twinOn s = false) (h63 : bit w 63 = true) (hp : portsTo s (fld w 13 0) = []) :
    (configurePair v s).2 = twinRefuse s := by
  unfold configurePair
  dsimp only
  rw [← hw, hoff, if_neg (by decide), h63, if_neg (by decide), if_pos (by simp [hp])]

theorem twinCtrl_differs (hw : w = v &&& wd (Reg.bits 63 60 + Reg.bits 55 32 + Reg.bits 29 16 + Reg.bits 13 0))
    (hon : twinOn s = true) (hd : setBit w 63 true ≠ rd s Reg.twinCtrl) :
    (configurePair v s).2 = twinRefuse s := by
  unfold configurePair
  dsimp only
  rw [← hw, hon, if_pos rfl, if_pos hd]

section
variable (hm : mayWrite s .installer who = true)
  (hw : w = v &&& wd (Reg.bits 63 60 + Reg.bits 55 32 + Reg.bits 29 16 + Reg.bits 13 0))
include hm hw

theorem twinCtrl_on (hoff : twinOn s = false) (h63 : bit w 63 = true)
    (hl : bit w 60 = true → twinLicensed s = true ∧ tenantOk s (fld w 55 48) = true) (hp : portsTo s (fld w 13 0) ≠ []) :
    Completes (.twinCtrlWrite who v) s (fun u => rd u Reg.twinCtrl = w ∧ twinRole u = 1 ∧ u.twin = freshPair s.twin
      ∧ RegsKept [Reg.twinCtrl, Reg.twinStatus] s u ∧ MemKept s u) := by
  have hc : (configurePair v s).2 = onTwin freshPair (setRoleTwin 1 (wrReg Reg.twinCtrl w s)) := by
    have hn : ¬ ((bit w 60 && (!twinLicensed s || !tenantOk s (fld w 55 48))) || decide (portsTo s (fld w 13 0) = [])) = true := by
      by_cases h : bit w 60 = true
      · simp [h, hl h, hp]
      · simp [h, hp]
    unfold configurePair
    dsimp only
    rw [← hw, hoff, if_neg (by decide), h63, if_neg (by decide), if_neg hn]
  obtain ⟨au, n, o, hex⟩ := exec_twinCtrl hm v
  rw [hc] at hex
  obtain ⟨y, hy⟩ : ∃ y, y = setRoleTwin 1 (wrReg Reg.twinCtrl w s) := ⟨_, rfl⟩
  have hk : Kept [Reg.twinCtrl, Reg.twinStatus] s y := by
    rw [hy]; exact ((Kept.refl _ s).wrReg (by simp) _).wrF (by simp) _ _ _
  have h1 : rd y Reg.twinCtrl = w := by rw [hy, setRoleTwin, rd_wrF_ne _ _ _ _ (by decide), rd_wrReg_self]
  have h2 : twinRole y = 1 := by rw [hy]; exact twinRole_setRoleTwin (by decide) _
  have h3 : y.twin = s.twin := by rw [hy]; rfl
  rw [← hy] at hex
  exact ⟨_, hex, h1, h2, congrArg freshPair h3, hk.regs, hk.mem⟩

theorem twinCtrl_off (hon : twinOn s = true) (hd : setBit w 63 true = rd s Reg.twinCtrl) (h63 : bit w 63 = false) :
    Completes (.twinCtrlWrite who v) s (fun u => rd u Reg.twinCtrl = w ∧ twinRole u = 0 ∧ rdB u Reg.twinStatus 3 = false
      ∧ u.twin = freshPair s.twin ∧ RegsKept [Reg.twinCtrl, Reg.twinStatus] s u ∧ MemKept s u) := by
  obtain ⟨y, hy⟩ : ∃ y, y = wrB Reg.twinStatus 3 false (setRoleTwin 0 (wrReg Reg.twinCtrl w s)) := ⟨_, rfl⟩
  have hc : (configurePair v s).2 = onTwin freshPair y := by
    unfold configurePair
    dsimp only
    rw [← hw, hon, if_pos rfl, if_neg (by simp [hd]), h63, if_neg (by decide), hy]
  obtain ⟨au, n, o, hex⟩ := exec_twinCtrl hm v
  have hk : Kept [Reg.twinCtrl, Reg.twinStatus] s y := by
    rw [hy]; exact (((Kept.refl _ s).wrReg (by simp) _).wrF (by simp) _ _ _).wrB (by simp) _ _
  have h1 : rd y Reg.twinCtrl = w := by
    rw [hy, rd_wrB_ne _ _ _ (by decide), setRoleTwin, rd_wrF_ne _ _ _ _ (by decide), rd_wrReg_self]
  have h2 : twinRole y = 0 := by
    rw [hy, twinRole, rdF_wrB_other _ _ _ _ _ _ (by decide) (by decide)]
    exact twinRole_setRoleTwin (by decide) _
  have h3 : rdB y Reg.twinStatus 3 = false := by rw [hy, rdB_wrB_self _ _ _ _ (by decide)]
  have h4 : y.twin = s.twin := by rw [hy]; rfl
  rw [hc] at hex
  exact ⟨_, hex, h1, h2, h3, congrArg freshPair h4, hk.regs, hk.mem⟩

end

-- Beats sent (R417, R419)

theorem beatSend_completes {n : Nat} {l : List Nat} {k : Nat} (hon : twinOn s = true) (harb : rdB s Reg.twinCtrl 61 = false)
    (hh : s.twin.heard = none) (hp : portsTo s (twinPeer s) = n :: l) (hb : bondOf s n = some k)
    (h64 : beatRound s * 1024 < 2 ^ 64) : Completes .twinBeatSend s (fun u =>
      beatRound s * 1024 ≤ now u ∧ u.twin.digest = 0 ∧ (beatRound s, s.twin.digest) ∈ u.twin.sentDigest
        ∧ (∃ p, (bnd u k).queue = (bnd s k).queue ++ [(32, p)] ∧ p.opcode = 0x73 ∧ p.vc = 7
            ∧ p.payload = beatBytes (twinPeer s) { src := ownDev s, role := twinRole s, preferred := twinPreferred s,
                                                   round := beatRound s, digest := s.twin.digest })
        ∧ RegsKept [] s u ∧ MemKept s u) := by
  obtain ⟨r, hr⟩ : ∃ r, r = beatRound s := ⟨_, rfl⟩
  obtain ⟨y, hy⟩ : ∃ y, y = clockTo (r * 1024) s := ⟨_, rfl⟩
  obtain ⟨c, m, hclk⟩ := clockTo_cases s (r * 1024)
  rw [← hy] at hclk
  have hnow : r * 1024 ≤ now y := by rw [hy]; exact now_clockTo s _ (by rw [hr]; exact h64)
  obtain ⟨bt, hbt⟩ : ∃ bt : TwinBeat, bt = { src := ownDev s, role := twinRole s, preferred := twinPreferred s, round := r,
                                              digest := s.twin.digest } := ⟨_, rfl⟩
  have hregs : y.regs = s.regs := by rw [hclk]
  have hn : n < 32 := lt_of_mem_portsTo (by rw [hp]; exact List.mem_cons_self)
  obtain ⟨q, hq, hop, hvc, hpay⟩ := sendToward_of_port (s := y) (op := 0x73) (payload := beatBytes (twinPeer s) bt)
    ((portsTo_congr hregs _).trans hp) (((SameLinks.of_regs hregs).bondOf hn).trans hb)
  obtain ⟨z, hz⟩ : ∃ z, z = onBnd k (fun x => { x with queue := x.queue ++ [(32, q)] }) y := ⟨_, rfl⟩
  obtain ⟨d, hd⟩ : ∃ d, d = s.twin.sentDigest ++ [(r, s.twin.digest)] := ⟨_, rfl⟩
  have hzt : z.twin = s.twin := by rw [hz, hclk]; rfl
  have hcmp : ∀ x : State, x.twin.heard = none → compareDigests x = x := fun x hx => by unfold compareDigests; rw [hx]
  have hex : exec .twinBeatSend s = ok (onTwin (fun x => { x with digest := 0, sentDigest := d.drop (d.length - 4) }) z) := by
    have hby : ({ src := ownDev y, role := twinRole y, preferred := twinPreferred y, round := r,
                  digest := y.twin.digest } : TwinBeat) = bt := by rw [hbt, hclk]; rfl
    have hpy : twinPeer y = twinPeer s := by rw [hclk]; rfl
    have hay : rdB y Reg.twinCtrl 61 = false := by rw [hclk]; exact harb
    show execTwinBeatSend s = _
    unfold execTwinBeatSend
    rw [hon, Bool.not_true, if_neg (by decide)]
    dsimp only
    rw [← hr, ← hy, hby, hpy, hq, hay, if_neg (by decide), ← hz, id, hzt, ← hd]
    exact congrArg ok (hcmp _ (by show z.twin.heard = none; rw [hzt]; exact hh))
  have hmem : (r, s.twin.digest) ∈ d.drop (d.length - 4) := by
    rw [hd, List.length_append, List.length_singleton, List.drop_append]
    refine List.mem_append_right _ ?_
    rw [show s.twin.sentDigest.length + 1 - 4 - s.twin.sentDigest.length = 0 by omega]
    exact List.mem_singleton.2 rfl
  rw [← hr]
  refine ⟨_, hex, ?_, rfl, hmem, ⟨q, ?_, hop, hvc, by rw [hpay, hbt]⟩, fun a _ => ?_, fun a => ?_⟩
  · show r * 1024 ≤ now z
    rw [hz]; exact hnow
  · show (bnd z k).queue = _
    rw [hz, bnd_onBnd_self, hclk]; rfl
  · show rd z a = rd s a
    rw [hz, hclk]; rfl
  · show memByte z a = memByte s a
    rw [hz, hclk]; rfl

-- Beats received (R412, R413, R417, R419)

theorem refKey_congr (h : ∀ k, rd u (Reg.twinRef k) = rd s (Reg.twinRef k)) (d : Nat) : refKey u d = refKey s d := by
  unfold refKey
  simp only [h]

/-- A beat heard: the peer is there again. -/
def heardBeat (b : TwinBeat) (s : State) : State :=
  let lost := decide (rdF s Reg.beatCtrl 35 32 ≤ s.twin.misses)
  s |> wrB Reg.twinStatus 3 true
    |> onTwin (fun x => { x with misses := 0, heard := some b, standbySince := if lost then now s else x.standbySince })

/-- The registers that beats write. -/
def beatRegs : List Nat := [Reg.twinStatus, Reg.twinEvent, Reg.syncRound]

theorem twinRef_not_mem_beatRegs (k : Nat) : Reg.twinRef k ∉ beatRegs := by
  simp only [beatRegs, List.mem_cons, List.not_mem_nil, or_false, Reg.twinRef, Reg.twinStatus, Reg.twinEvent, Reg.syncRound]
  omega

/-- A beat of the peer, which this device does not referee. -/
theorem exec_twinBeat (hon : twinOn s = true) (hb : b.src = twinPeer s) (href : refKey s b.src = none)
    (hk : RegsKept beatRegs s (compareDigests (pairUp b (heardBeat b s)))) :
    exec (.twinBeat b) s = ok (compareDigests (pairUp b (heardBeat b s))) := by
  have hr : refKey (compareDigests (pairUp b (heardBeat b s))) b.src = none :=
    (refKey_congr (fun k => hk _ (twinRef_not_mem_beatRegs k)) _).trans href
  have hp : peerBeat b s = compareDigests (pairUp b (heardBeat b s)) := rfl
  show ok (beatArrives b s) = _
  unfold beatArrives refereeBeat
  rw [hon, hb, if_pos (by simp), hp, ← hb, hr]

theorem heardBeat_spec (b : TwinBeat) (s y : State) (hy : y = heardBeat b s) : y.now = s.now ∧ twinRole y = twinRole s
    ∧ twinPreferred y = twinPreferred s ∧ rdB y Reg.twinStatus 3 = true ∧ y.twin.conflict = s.twin.conflict
    ∧ y.twin.paired = s.twin.paired ∧ y.twin.misses = 0 ∧ y.twin.heard = some b ∧ y.twin.sentDigest = s.twin.sentDigest
    ∧ Kept [Reg.twinStatus] s y := by
  rw [hy]
  refine ⟨rfl, ?_, ?_, rdB_wrB_self _ _ _ _ (by decide), rfl, rfl, rfl, rfl, rfl, ?_⟩
  · exact rdF_wrB_other s Reg.twinStatus 3 2 0 true (by decide) (by decide)
  · exact rdB_wrB_ne (b := Reg.twinCtrl) (a := Reg.twinStatus) s _ _ _ (by decide)
  · exact ((Kept.refl [Reg.twinStatus] s).wrB (by simp) 3 true).of_same rfl rfl

/-- Digests of units whose roles do not pair, or that agree, change nothing but what is heard. -/
theorem compareDigests_quiet (h : ∀ b, s.twin.heard = some b → ∀ d, s.twin.sentDigest.find? (fun d => d.1 == b.round) = some d →
      ((twinRole s == 2 && b.role == 3) || (twinRole s == 3 && b.role == 2)) = false ∨ d.2 = b.digest) :
    ∃ x, compareDigests s = onTwin (fun t => { t with heard := x }) s := by
  have hs : s = onTwin (fun t => { t with heard := s.twin.heard }) s := rfl
  unfold compareDigests
  cases hh : s.twin.heard with
  | none => exact ⟨none, by dsimp only; rw [← hh]; rfl⟩
  | some b =>
    dsimp only
    cases hd : s.twin.sentDigest.find? (fun d => d.1 == b.round) with
    | none => exact ⟨some b, by dsimp only; rw [← hh]; rfl⟩
    | some d =>
      refine ⟨none, ?_⟩
      have hrole : twinRole (onTwin (fun t => { t with heard := none }) s) = twinRole s := rfl
      dsimp only
      rw [hrole]
      refine if_pos ?_
      rcases h b hh d hd with h1 | h1
      · rw [h1]; rfl
      · rw [h1]; simp

theorem beat_conflict (hon : twinOn s = true) (hb : b.src = twinPeer s) (href : refKey s b.src = none)
    (hp : b.preferred = twinPreferred s) (hc : s.twin.conflict = false) : Completes (.twinBeat b) s (fun u =>
      twinRole u = 1 ∧ u.twin.conflict = true ∧ u.twin.paired = false ∧ u.twin.misses = 0
        ∧ rdB u Reg.twinStatus 3 = true ∧ rdB u Reg.twinEvent 8 = true ∧ MemKept s u) := by
  obtain ⟨y, hy⟩ : ∃ y, y = heardBeat b s := ⟨_, rfl⟩
  obtain ⟨-, -, hpr, h3, hcf, -, hms, -, -, hk⟩ := heardBeat_spec b s y hy
  obtain ⟨z, hz⟩ : ∃ z, z = onTwin (fun x => { x with conflict := true, paired := false })
    (twinEvents (2 ^ 8 + 2 ^ 7) (setRoleTwin 1 y)) := ⟨_, rfl⟩
  have hup : pairUp b (heardBeat b s) = z := by
    rw [← hy, hz]
    unfold pairUp pairConflict
    rw [hp, hpr, if_pos (by simp), hcf, hc, if_neg (by decide)]
  have hkz : Kept beatRegs s z := by
    rw [hz]
    exact (((hk.mono (by simp [beatRegs])).wrF (by simp [beatRegs]) _ _ _).orReg (by simp [beatRegs]) _).of_same rfl rfl
  have hrole : twinRole z = 1 := by
    rw [hz]
    exact (rdF_orReg_ne _ _ _ _ (by decide)).trans (twinRole_setRoleTwin (by decide) y)
  have hst : rdB z Reg.twinStatus 3 = true := by
    have h : rdB (twinEvents (2 ^ 8 + 2 ^ 7) (setRoleTwin 1 y)) Reg.twinStatus 3 = true := by
      rw [twinEvents, rdB_orReg_ne _ _ _ (by decide), setRoleTwin,
        rdB_wrF_other _ _ _ _ _ _ (by decide) (by decide) (by decide), h3]
    rw [hz]; exact h
  have hev : rdB z Reg.twinEvent 8 = true := by
    have h : rdB (twinEvents (2 ^ 8 + 2 ^ 7) (setRoleTwin 1 y)) Reg.twinEvent 8 = true := by
      have h8 : (2 ^ 8 + 2 ^ 7).testBit 8 = true := by decide
      rw [twinEvents, rdB_orReg_self, bit_wd _ (by decide), h8, Bool.or_true]
    rw [hz]; exact h
  have htw : z.twin.conflict = true ∧ z.twin.paired = false ∧ z.twin.misses = 0 := by
    rw [hz]; exact ⟨rfl, rfl, hms⟩
  obtain ⟨x, hx⟩ := compareDigests_quiet (s := z) (fun _ _ _ _ => Or.inl (by rw [hrole]; rfl))
  have hex := exec_twinBeat hon hb href (by rw [hup, hx]; exact hkz.regs)
  rw [hup, hx] at hex
  exact ⟨_, hex, hrole, htw.1, htw.2.1, htw.2.2, hst, hev, hkz.mem⟩

theorem beat_pairs (hon : twinOn s = true) (hb : b.src = twinPeer s) (href : refKey s b.src = none)
    (hp : b.preferred ≠ twinPreferred s) (hup : s.twin.paired = false) (hd : s.twin.sentDigest = [(b.round, b.digest)]) :
    Completes (.twinBeat b) s (fun u =>
      twinRole u = (if twinPreferred s = true ∧ b.role ≠ 3 then 3 else 1) ∧ u.twin.paired = true
        ∧ u.twin.conflict = false ∧ u.twin.resyncAsked = true ∧ rd u Reg.syncRound = wd (now s / 1024 + 4)
        ∧ u.twin.heard = none ∧ RegsKept [Reg.twinStatus, Reg.syncRound] s u ∧ MemKept s u) := by
  obtain ⟨y, hy⟩ : ∃ y, y = heardBeat b s := ⟨_, rfl⟩
  obtain ⟨hnow, -, hpr, -, -, hpa, -, hhe, hse, hk⟩ := heardBeat_spec b s y hy
  obtain ⟨r, hr⟩ : ∃ r, r = if twinPreferred s && b.role != 3 then 3 else 1 := ⟨_, rfl⟩
  have hr8 : r < 8 := by rw [hr]; split <;> decide
  have hrif : r = if twinPreferred s = true ∧ b.role ≠ 3 then 3 else 1 := by
    rw [hr]
    refine if_congr ?_ rfl rfl
    simp
  obtain ⟨z, hz⟩ : ∃ z, z = askResync (onTwin (fun x => { x with paired := true, conflict := false }) (setRoleTwin r y)) := ⟨_, rfl⟩
  have hupz : pairUp b (heardBeat b s) = z := by
    rw [← hy, hz]
    unfold pairUp
    rw [hpr, if_neg (by simpa using hp), hpa, hup, if_neg (by decide), hse, hd, if_neg (by simp), hr]
  have hkz : Kept [Reg.twinStatus, Reg.syncRound] s z := by
    rw [hz]
    exact ((((hk.mono (by simp)).wrF (by simp) 2 0 r).of_same (v := onTwin _ (setRoleTwin r y)) rfl rfl).wrReg
      (by simp) _).of_same rfl rfl
  have hrole : twinRole z = r := by
    have h : twinRole (wrReg Reg.syncRound (wd (now y / 1024 + 4)) (setRoleTwin r y)) = r := by
      rw [twinRole, rdF, rd_wrReg_ne _ _ (by decide), ← rdF]
      exact twinRole_setRoleTwin hr8 y
    rw [hz]; exact h
  have hsr : rd z Reg.syncRound = wd (now s / 1024 + 4) := by
    have h : rd z Reg.syncRound = wd (now y / 1024 + 4) := by rw [hz]; exact rd_wrReg_self ..
    rw [h, now, hnow, ← now]
  have htw : z.twin = { y.twin with paired := true, conflict := false, resyncAsked := true } := by rw [hz]; rfl
  have hcmp : compareDigests z = onTwin (fun x => { x with heard := none }) z := by
    have h1 : z.twin.heard = some b := by rw [htw]; exact hhe
    have h2 : z.twin.sentDigest = [(b.round, b.digest)] := by rw [htw]; exact hse.trans hd
    unfold compareDigests
    rw [h1]
    dsimp only
    rw [h2, List.find?_cons_of_pos (by simp)]
    exact if_pos (by simp)
  have hex := exec_twinBeat hon hb href (by rw [hupz, hcmp]; exact (hkz.mono (l' := beatRegs) (by simp [beatRegs])).regs)
  rw [hupz, hcmp] at hex
  rw [← hrif]
  have hfields : z.twin.paired = true ∧ z.twin.conflict = false ∧ z.twin.resyncAsked = true := by rw [htw]; exact ⟨rfl, rfl, rfl⟩
  exact ⟨_, hex, hrole, hfields.1, hfields.2.1, hfields.2.2, hsr, rfl, hkz.regs, hkz.mem⟩

theorem beat_diverges {d : BitVec 32} (hon : twinOn s = true) (hb : b.src = twinPeer s) (href : refKey s b.src = none)
    (hp : b.preferred ≠ twinPreferred s) (hpair : s.twin.paired = true) (hd : s.twin.sentDigest = [(b.round, d)])
    (hne : d ≠ b.digest) (h2 : twinRole s = 2) (h3 : b.role = 3) : Completes (.twinBeat b) s (fun u =>
      twinRole u = 1 ∧ rdB u Reg.twinEvent 6 = true ∧ RegsKept [Reg.twinStatus, Reg.twinEvent] s u ∧ MemKept s u) := by
  obtain ⟨y, hy⟩ : ∃ y, y = heardBeat b s := ⟨_, rfl⟩
  obtain ⟨-, hro, hpr, -, -, hpa, -, hhe, hse, hk⟩ := heardBeat_spec b s y hy
  have hupy : pairUp b (heardBeat b s) = y := by
    rw [← hy]
    unfold pairUp
    rw [hpr, if_neg (by simpa using hp), hpa, hpair, if_pos rfl]
  obtain ⟨z, hz⟩ : ∃ z, z = setRoleTwin 1 (twinEvents (2 ^ 6) (onTwin (fun x => { x with heard := none }) y)) := ⟨_, rfl⟩
  have hcmp : compareDigests y = z := by
    have hrole : twinRole (onTwin (fun t => { t with heard := none }) y) = 2 := hro.trans h2
    unfold compareDigests
    rw [hhe]
    dsimp only
    rw [hse, hd, List.find?_cons_of_pos (by simp)]
    dsimp only
    rw [hrole, h3, if_neg (by simp [hne]), if_pos rfl, hz]
  have hkz : Kept [Reg.twinStatus, Reg.twinEvent] s z := by
    rw [hz]
    exact (((hk.mono (by simp)).of_same (v := onTwin (fun x => { x with heard := none }) y) rfl rfl).orReg (by simp) _).wrF
      (by simp) _ _ _
  have hex := exec_twinBeat hon hb href (by rw [hupy, hcmp]; exact (hkz.mono (l' := beatRegs) (by simp [beatRegs])).regs)
  rw [hupy, hcmp] at hex
  refine ⟨_, hex, by rw [hz]; exact twinRole_setRoleTwin (by decide) _, ?_, hkz.regs, hkz.mem⟩
  rw [hz, setRoleTwin, rdB_wrF_ne _ _ _ _ _ (by decide)]
  exact rdB_orReg_pow _ _ (by decide)

-- Beats missed (R419, R424)

theorem missed_counts {d : Nat} (hon : twinOn s = true) (hd : d = twinPeer s) (href : refKey s d = none)
    (hn : s.twin.misses + 1 < rdF s Reg.beatCtrl 35 32) : Completes (.twinBeatMissed d) s (fun u =>
      u.twin = { s.twin with misses := s.twin.misses + 1 } ∧ RegsKept [] s u ∧ MemKept s u) := by
  obtain ⟨y, hy⟩ : ∃ y, y = onTwin (fun x => { x with misses := s.twin.misses + 1 }) s := ⟨_, rfl⟩
  have hry : refKey y d = none := by rw [hy]; exact href
  have hex : exec (.twinBeatMissed d) s = ok y := by
    show execTwinBeatMissed d s = _
    unfold execTwinBeatMissed
    rw [hon, hd, if_pos (by simp)]
    dsimp only
    rw [if_neg (by omega), ← hy, ← hd, id, hry]
  exact ⟨_, hex, by rw [hy]; rfl, fun a _ => by rw [hy]; rfl, fun a => by rw [hy]; rfl⟩

/-- The peer is lost: a syncing unit gives its copy up. -/
theorem peerLost_spec (s u : State) (hu : u = peerLost s) : rdB u Reg.twinEvent 5 = true ∧ rdB u Reg.twinStatus 3 = false
    ∧ twinRole u = twinRole s ∧ u.twin.misses = s.twin.misses
    ∧ u.twin.copying = (if twinRole s = 1 then false else s.twin.copying) ∧ Kept [Reg.twinEvent, Reg.twinStatus] s u := by
  obtain ⟨y, hy⟩ : ∃ y, y = wrB Reg.twinStatus 3 false (twinEvents (2 ^ 5) s) := ⟨_, rfl⟩
  have hk : Kept [Reg.twinEvent, Reg.twinStatus] s y := by
    rw [hy]; exact ((Kept.refl _ s).orReg (by simp) _).wrB (by simp) _ _
  have h5 : rdB y Reg.twinEvent 5 = true := by
    rw [hy, rdB_wrB_ne _ _ _ _ (by decide)]; exact rdB_orReg_pow _ _ (by decide)
  have h3 : rdB y Reg.twinStatus 3 = false := by rw [hy, rdB_wrB_self _ _ _ _ (by decide)]
  have hro : twinRole y = twinRole s := by
    rw [hy, twinRole, rdF_wrB_other _ _ _ _ _ _ (by decide) (by decide)]
    exact rdF_orReg_ne (b := Reg.twinStatus) (a := Reg.twinEvent) s _ _ _ (by decide)
  have hty : y.twin = s.twin := by rw [hy]; rfl
  have hpl : u = if twinRole s = 1 && s.twin.copying then failResync y else y := by
    rw [hu, hy]
    unfold peerLost
    split <;> rfl
  by_cases h : (twinRole s = 1 && s.twin.copying) = true
  · rw [if_pos h] at hpl
    have h1 : twinRole s = 1 := by simp at h; exact h.1
    obtain ⟨z, hz⟩ : ∃ z, z = twinEvents (2 ^ 4) y := ⟨_, rfl⟩
    have huz : u = onTwin (fun x => { x with copying := false, resyncAsked := false, holdJobs := false }) z := by
      rw [hpl, hz]; rfl
    have hkz : Kept [Reg.twinEvent, Reg.twinStatus] s z := by rw [hz]; exact hk.orReg (by simp) _
    have hst : rd z Reg.twinStatus = rd y Reg.twinStatus := by rw [hz]; exact rd_orReg_ne y _ (by decide)
    have hzt : z.twin.misses = s.twin.misses := by rw [hz]; exact congrArg Twin.misses hty
    rw [huz]
    refine ⟨?_, ?_, ?_, hzt, by rw [if_pos h1]; rfl, hkz.of_same rfl rfl⟩
    · show rdB z Reg.twinEvent 5 = true
      rw [hz]; exact rdB_orReg_of_set h5
    · show rdB z Reg.twinStatus 3 = false
      rw [rdB, hst, ← rdB, h3]
    · show twinRole z = _
      rw [twinRole, rdF, hst, ← rdF, ← twinRole, hro]
  · rw [if_neg h] at hpl
    rw [hpl]
    refine ⟨h5, h3, hro, by rw [hty], ?_, hk⟩
    rw [hty]
    split
    · next h1 => simpa [h1] using h
    · rfl

theorem missed_loses {d : Nat} (hon : twinOn s = true) (hd : d = twinPeer s) (href : refKey s d = none)
    (hn : s.twin.misses + 1 = rdF s Reg.beatCtrl 35 32) : Completes (.twinBeatMissed d) s (fun u =>
      rdB u Reg.twinEvent 5 = true ∧ rdB u Reg.twinStatus 3 = false ∧ twinRole u = twinRole s
        ∧ u.twin.misses = s.twin.misses + 1 ∧ u.twin.copying = (if twinRole s = 1 then false else s.twin.copying)
        ∧ RegsKept [Reg.twinEvent, Reg.twinStatus] s u ∧ MemKept s u) := by
  obtain ⟨y, hy⟩ : ∃ y, y = onTwin (fun x => { x with misses := s.twin.misses + 1 }) s := ⟨_, rfl⟩
  obtain ⟨u, hu⟩ : ∃ u, u = peerLost y := ⟨_, rfl⟩
  obtain ⟨h5, h3, hro, hms, hcp, hk⟩ := peerLost_spec y u hu
  have hys : Kept [Reg.twinEvent, Reg.twinStatus] s y := by rw [hy]; exact (Kept.refl _ s).of_same rfl rfl
  have hroy : twinRole y = twinRole s := by rw [hy]; rfl
  have hty : y.twin.misses = s.twin.misses + 1 ∧ y.twin.copying = s.twin.copying := by rw [hy]; exact ⟨rfl, rfl⟩
  have hks := hys.trans hk
  have hru : refKey u d = none := by
    rw [refKey_congr (fun k => hks.regs _ (by
      simp only [List.mem_cons, List.not_mem_nil, or_false, Reg.twinRef, Reg.twinStatus, Reg.twinEvent]; omega)), href]
  have hex : exec (.twinBeatMissed d) s = ok u := by
    show execTwinBeatMissed d s = _
    unfold execTwinBeatMissed
    rw [hon, hd, if_pos (by simp)]
    dsimp only
    rw [if_pos hn, ← hy, ← hd, ← hu, hru]
  exact ⟨_, hex, h5, h3, hro.trans hroy, hms.trans hty.1, by rw [hcp, hroy, hty.2], hks.regs, hks.mem⟩

/-- Settles O54: TWIN.CTRL turns a unit on or off, or refuses; beats go to the peer, settle the pair or its conflict; misses
count up to the loss of the peer. -/
theorem twinPairing : Obligations.TwinPairing := by
  unfold Obligations.TwinPairing
  intro s
  refine ⟨fun who v w hm hw => ⟨fun hoff h63 hl hp => twinCtrl_on hm hw hoff h63 hl hp,
      fun hoff h63 hp => twinCtrl_refused hm (twinCtrl_no_port hw hoff h63 hp),
      fun hon hd => twinCtrl_refused hm (twinCtrl_differs hw hon hd), fun hon hd h63 => twinCtrl_off hm hw hon hd h63⟩,
    fun n l b hon harb hh hp hb h64 => beatSend_completes hon harb hh hp hb h64,
    fun b hon hb href => ⟨fun hp hc => beat_conflict hon hb href hp hc, fun hp hup hd => beat_pairs hon hb href hp hup hd,
      fun d hp hpair hd hne h2 h3 => beat_diverges hon hb href hp hpair hd hne h2 h3⟩,
    fun d hon hd href => ⟨fun hn => missed_counts hon hd href hn, fun hn => missed_loses hon hd href hn⟩⟩

end Sys2Proof.Machine
end

section
/-! PROOFS. Power domains on and off (R377–R380). -/

namespace Sys2Proof.Machine

variable {s u v : State} {d e t : Nat} {who : Writer} {p : Path}

-- What the checks of a domain read

theorem domainExists_congr (hr : ∀ a, a ≠ Reg.domainCtrl → rd u a = rd s a) (hb : u.boot = s.boot) (d : Nat) :
    domainExists u d = domainExists s d := by
  have h : ∀ q, fenceState u q = fenceState s q := fun q => by
    simp only [fenceState, rdF, hr Reg.fenceStatus (by decide)]
  simp only [domainExists, h, hb]

theorem domainIsOn_congr (h : rd u Reg.domainStatus = rd s Reg.domainStatus) (d : Nat) : domainIsOn u d = domainIsOn s d := by
  simp only [domainIsOn, rdB, h]

theorem offRefused_congr (hr : ∀ a, a ≠ Reg.domainCtrl → rd u a = rd s a) (hc : u.coll = s.coll) (d : Nat) :
    offRefused u d = offRefused s d := by
  have hf : ∀ q, fenceState u q = fenceState s q := fun q => by
    simp only [fenceState, rdF, hr Reg.fenceStatus (by decide)]
  have hp : ∀ n, portState u n = portState s n := fun n => by
    simp only [portState, rdF, hr (Reg.portStatus n) (by simp only [Reg.portStatus, Reg.portBase, Reg.domainCtrl]; omega)]
  have ht : ∀ t, tileState u t = tileState s t := fun t => by
    simp only [tileState, rdF, hr (Reg.tileStatus t) (by simp only [Reg.tileStatus, Reg.tileBase, Reg.domainCtrl]; omega)]
  have hd : ∀ e, domainIsOn u e = domainIsOn s e := domainIsOn_congr (hr _ (by decide))
  have hh : rdB u Reg.hostStatus 0 = rdB s Reg.hostStatus 0 := by simp only [rdB, hr Reg.hostStatus (by decide)]
  have he : rdB u Reg.ethCtrl 63 = rdB s Reg.ethCtrl 63 := by simp only [rdB, hr Reg.ethCtrl (by decide)]
  simp only [offRefused, hf, hp, ht, hd, hh, he, hc]

theorem offRefused_lt (s : State) (d : Nat) : offRefused s d < 4 := by
  unfold offRefused
  dsimp only
  repeat' split
  all_goals decide

theorem offRefused_stack (h : 36 ≤ d) (h' : d < 52) : offRefused s d = 0 := by
  unfold offRefused
  rw [if_neg (by omega), if_neg (by omega), if_neg (by omega), if_pos h]

-- Refusals

/-- What a refusal of DOMAIN_CTRL leaves: its reason, shown and counted as an event (R378). -/
theorem refuseDomain_spec {why : Nat} (h : why < 16) (s : State) :
    rdF (refuseDomain why s) Reg.domainCtrl 11 8 = why ∧ rdB (refuseDomain why s) Reg.powerEvent 6 = true
      ∧ (refuseDomain why s).pwr = s.pwr ∧ Kept [Reg.domainCtrl, Reg.powerEvent] s (refuseDomain why s) := by
  refine ⟨?_, ?_, rfl, ((Kept.refl _ s).wrF (by simp) _ _ _).orReg (by simp) _⟩
  · rw [refuseDomain, rdF_orReg_ne _ _ _ _ (by decide), rdF_wrF_fits _ _ (by decide) (by decide) h]
  · exact rdB_orReg_pow _ _ (by decide)

-- A domain goes off

/-- One domain is off, the others are as before, and memory is kept. -/
def OffAlone (d : Nat) (s u : State) : Prop :=
  domainIsOn u d = false ∧ (∀ e, e < 64 → e ≠ d → domainIsOn u e = domainIsOn s e) ∧ MemKept s u

theorem offAlone_domainsOff (h : d < 64) (s : State) : OffAlone d s (domainsOff [d] s) := by
  refine ⟨domainIsOn_domainsOff (List.mem_singleton_self d) h s, fun e he hne => ?_, fun _ => rfl⟩
  have hr : rd (domainsOff [d] s) Reg.domainStatus = rd s Reg.domainStatus &&& ~~~ wd (maskOf [d]) := rd_clrReg_self ..
  have hb : bit (wd (maskOf [d])) e = false := by rw [bit_wd _ he, testBit_maskOf]; simpa using hne
  rw [bit] at hb
  rw [domainIsOn, rdB, hr, bit, BitVec.getLsbD_and, BitVec.getLsbD_not, hb, domainIsOn, rdB, bit]
  simp [he]

theorem OffAlone.of_before (hr : rd u Reg.domainStatus = rd s Reg.domainStatus) (hm : MemKept s u)
    (h : OffAlone d u v) : OffAlone d s v :=
  ⟨h.1, fun e he hne => (h.2.1 e he hne).trans (domainIsOn_congr hr e), fun a => (h.2.2 a).trans (hm a)⟩

theorem OffAlone.onward (hr : rd v Reg.domainStatus = rd u Reg.domainStatus) (hm : MemKept u v)
    (h : OffAlone d s u) : OffAlone d s v :=
  ⟨(domainIsOn_congr hr d).trans h.1, fun e he hne => (domainIsOn_congr hr e).trans (h.2.1 e he hne),
    fun a => (hm a).trans (h.2.2 a)⟩

/-- The units of a bank are checked again after a handover (R147): the fault of a tile touches no domain and no memory. -/
theorem recheckUnits_keeps (t b : Nat) (s : State) : UnitRegs s (recheckUnits t b s) ∧ MemKept s (recheckUnits t b s) := by
  have hon : ∀ (g : Nat) (f : Bank → Bank) (x : State), UnitRegs x (onBank g f x) ∧ MemKept x (onBank g f x) :=
    fun g f x => ⟨(UnitRegs.refl x).of_same rfl rfl, fun _ => rfl⟩
  unfold recheckUnits
  dsimp only
  obtain ⟨x, hx⟩ : ∃ x, x = onBank (16 * t + b) (fun x => { x with later := [] }) s := ⟨_, rfl⟩
  have h0 : UnitRegs s x ∧ MemKept s x := hx ▸ hon _ _ s
  rw [← hx]
  split
  · exact h0
  · next w l _ =>
    split
    · have h1 := hon (16 * t + b) (fun y => { y with entries := y.entries ++ (bank s (16 * t + b)).later }) x
      exact ⟨h0.1.trans h1.1, fun a => (h1.2 a).trans (h0.2 a)⟩
    · refine ⟨(h0.1.trans (unitRegs_tileFaultAt _ _ _ x)).trans (unitRegs_recordData (by decide) _ _ _), fun a => ?_⟩
      rw [violation, memByte_recordData, memByte_tileFaultAt, h0.2]

theorem installOwner_keeps (t b : Nat) (s : State) :
    UnitRegs s (installOwner t b s) ∧ MemKept s (installOwner t b s) := by
  have ho : Reg.bankOwner t b < 0x31000 ∨ 0x1000000 ≤ Reg.bankOwner t b :=
    Or.inr (by simp only [Reg.bankOwner, Reg.tileBase]; omega)
  have hi : Reg.bankInflight t b < 0x31000 ∨ 0x1000000 ≤ Reg.bankInflight t b :=
    Or.inr (by simp only [Reg.bankInflight, Reg.tileBase]; omega)
  have hs : Reg.bankStatus t b < 0x31000 ∨ 0x1000000 ≤ Reg.bankStatus t b :=
    Or.inr (by simp only [Reg.bankStatus, Reg.tileBase]; omega)
  unfold installOwner
  have h := recheckUnits_keeps t b (s |> wrReg (Reg.bankOwner t b) (rd s (Reg.bankOwnerNext t b))
     |> wrB (Reg.bankInflight t b) 8 (!rdB s (Reg.bankInflight t b) 8)
     |> wrB (Reg.bankStatus t b) 2 false |> wrB (Reg.bankStatus t b) 0 true |> addWrap (Reg.bankStatus t b) 63 48 1)
  refine ⟨UnitRegs.trans ?_ h.1, h.2⟩
  exact (((((UnitRegs.refl s).wrReg ho _).wrReg hi _).wrReg hs _).wrReg hs _).wrReg hs _

theorem foldl_unit_mem {α : Type} {f : State → α → State} (hf : ∀ v x, UnitRegs v (f v x) ∧ MemKept v (f v x))
    (l : List α) (s : State) : UnitRegs s (l.foldl f s) ∧ MemKept s (l.foldl f s) :=
  List.foldlRecOn (motive := fun v => UnitRegs s v ∧ MemKept s v) _ _ ⟨UnitRegs.refl s, fun _ => rfl⟩
    fun v hv x _ => ⟨hv.1.trans (hf v x).1, fun a => ((hf v x).2 a).trans (hv.2 a)⟩

/-- The pending handovers of a cluster's banks are done. -/
def installPending (d : Nat) (s : State) : State :=
  (clusterTiles d).foldl (fun s t => (List.range 16).foldl (fun s b =>
    if handoverPending s t b then installOwner t b s else s) s) s

theorem installPending_keeps (d : Nat) (s : State) : UnitRegs s (installPending d s) ∧ MemKept s (installPending d s) :=
  foldl_unit_mem (fun v _ => foldl_unit_mem (fun w b => by
    split
    · exact installOwner_keeps _ b w
    · exact ⟨UnitRegs.refl w, fun _ => rfl⟩) _ v) _ s

theorem switchOff_cluster (h : d < 36) (h8 : d % 9 < 8) (s : State) :
    switchOff d s = domainsOff [d] (installPending d s) := by
  unfold switchOff installPending
  exact if_pos ⟨h, h8⟩

theorem OffAlone.onStk (h : OffAlone d s u) (q i : Nat) (f : Stack → Stack) : OffAlone d s (onStk q i f u) := h

theorem OffAlone.setStackState (h : OffAlone d s u) (q i n : Nat) : OffAlone d s (setStackState q i n u) := by
  have hh := hbmStatus_high q i
  exact h.onward (rd_wrF_ne _ _ _ _ (by rw [Reg.domainStatus]; omega)) fun a => memByte_wrF u _ _ _ _ a

theorem offAlone_phyOff {q i : Nat} (he : 36 + 4 * q + i = d) (h : d < 64) (s : State) : OffAlone d s (phyOff q i s) := by
  have h0 := offAlone_domainsOff h s
  unfold phyOff
  rw [he]
  refine OffAlone.onStk ?_ q i _
  split
  · exact h0
  · exact h0.setStackState q i 1

theorem switchOff_idle (h : d < 64)
    (hb : d < 36 ∨ 52 ≤ d ∨ stackBusy s ((d - 36) / 4) ((d - 36) % 4) = false) : OffAlone d s (switchOff d s) := by
  by_cases h1 : d < 36 ∧ d % 9 < 8
  · have hk := installPending_keeps d s
    rw [switchOff_cluster h1.1 h1.2]
    exact (offAlone_domainsOff h _).of_before (hk.1.regs _ (by decide) (by decide)) hk.2
  · unfold switchOff
    rw [if_neg h1]
    split
    · next h2 =>
      dsimp only
      rw [if_neg (by rw [(hb.resolve_left (by omega)).resolve_left (by omega)]; decide)]
      exact offAlone_phyOff (by omega) h s
    · exact offAlone_domainsOff h s

theorem switchOff_busy (h : 36 ≤ d) (h' : d < 52) (hb : stackBusy s ((d - 36) / 4) ((d - 36) % 4) = true) :
    switchOff d s = onStk ((d - 36) / 4) ((d - 36) % 4) (fun k => { k with offAfter := true }) s := by
  unfold switchOff
  rw [if_neg (by omega), if_pos ⟨h, h'⟩]
  exact if_pos hb

-- DOMAIN_CTRL

theorem onWord : ∀ d < 64, fld (wd (2 ^ 63 + d % 64)) 5 0 = d ∧ bit (wd (2 ^ 63 + d % 64)) 63 = true
    ∧ bit (wd (2 ^ 63 + d % 64)) 62 = false := by decide

theorem offWord : ∀ d < 64, fld (wd (2 ^ 62 + d % 64)) 5 0 = d ∧ bit (wd (2 ^ 62 + d % 64)) 63 = false
    ∧ bit (wd (2 ^ 62 + d % 64)) 62 = true := by decide

/-- The domain that a write names, in its field. -/
def namedDomain (d : Nat) (s : State) : State := wrF Reg.domainCtrl 5 0 d s

theorem rd_namedDomain (d : Nat) (s : State) : ∀ a, a ≠ Reg.domainCtrl → rd (namedDomain d s) a = rd s a :=
  fun _ ha => rd_wrF_ne _ _ _ _ ha

theorem exec_domainOn (h : d < 64) (hm : mayWrite s .operator who = true) :
    exec (.domainOn who d) s = ok (
      if domainExists s d = false then refuseDomain 4 (namedDomain d s)
      else if (domainIsOn s d || s.pwr.waitOn.contains d) = true then namedDomain d s
      else { namedDomain d s with pwr := { s.pwr with waitOn := s.pwr.waitOn ++ [d] } }) := by
  obtain ⟨hf, h63, h62⟩ := onWord d h
  refine congrArg ok ?_
  unfold domainCtrlWrite
  rw [hf, h63, h62, if_neg (by rw [hm]; decide)]
  refine (answered_operator hm (by decide) _).trans ?_
  have he : domainExists (namedDomain d s) d = domainExists s d := domainExists_congr (rd_namedDomain d s) rfl d
  have hi : domainIsOn (namedDomain d s) d = domainIsOn s d := domainIsOn_congr (rd_namedDomain d s _ (by decide)) d
  rw [show wrF Reg.domainCtrl 5 0 d s = namedDomain d s from rfl]
  rw [if_neg (by decide), if_neg (by decide), he, hi, if_pos rfl]
  cases domainExists s d <;> rfl

theorem exec_domainOff (h : d < 64) (hm : mayWrite s .operator who = true) :
    exec (.domainOff who d) s = ok (
      if domainExists s d = false then refuseDomain 4 (namedDomain d s)
      else if domainIsOn s d = false then namedDomain d s
      else if offRefused s d ≠ 0 then refuseDomain (offRefused s d) (namedDomain d s)
      else switchOff d (namedDomain d s)) := by
  obtain ⟨hf, h63, h62⟩ := offWord d h
  refine congrArg ok ?_
  unfold domainCtrlWrite
  rw [hf, h63, h62, if_neg (by rw [hm]; decide)]
  refine (answered_operator hm (by decide) _).trans ?_
  have he : domainExists (namedDomain d s) d = domainExists s d := domainExists_congr (rd_namedDomain d s) rfl d
  have hi : domainIsOn (namedDomain d s) d = domainIsOn s d := domainIsOn_congr (rd_namedDomain d s _ (by decide)) d
  have ho : offRefused (namedDomain d s) d = offRefused s d := offRefused_congr (rd_namedDomain d s) rfl d
  rw [show wrF Reg.domainCtrl 5 0 d s = namedDomain d s from rfl]
  rw [if_neg (by decide), if_neg (by decide), he, hi, ho]
  cases domainExists s d <;> cases domainIsOn s d <;> rfl

theorem kept_namedDomain (d : Nat) (s : State) : Kept [Reg.domainCtrl] s (namedDomain d s) :=
  (Kept.refl _ s).wrF (by simp) _ _ _

theorem refused_namedDomain {why : Nat} (h : why < 16) (d : Nat) (s : State) :
    rdF (refuseDomain why (namedDomain d s)) Reg.domainCtrl 11 8 = why
      ∧ rdB (refuseDomain why (namedDomain d s)) Reg.powerEvent 6 = true
      ∧ (refuseDomain why (namedDomain d s)).pwr = s.pwr
      ∧ Kept [Reg.domainCtrl, Reg.powerEvent] s (refuseDomain why (namedDomain d s)) := by
  obtain ⟨h1, h2, h3, h4⟩ := refuseDomain_spec h (namedDomain d s)
  exact ⟨h1, h2, h3, ((kept_namedDomain d s).mono (by simp)).trans h4⟩

theorem domainCtrl_unlicensed {w : Word} (hw : (bit w 63 || bit w 62) = true)
    (hm : mayWrite s .operator (.path p) = false) :
    ∃ u, answered (.path p) Reg.domainCtrl (domainCtrlWrite (.path p) w s) = u ∧
      rdF u Reg.domainCtrl 11 8 = 5 ∧ rdB u Reg.powerEvent 6 = true ∧ u.pwr = s.pwr
        ∧ Kept [Reg.domainCtrl, Reg.powerEvent, Reg.roleRefused] s u := by
  obtain ⟨h1, h2, h3, h4⟩ := refuseDomain_spec (why := 5) (by decide) s
  have hm' : mayWrite (refuseDomain 5 s) .operator (.path p) = false := by
    have hr : roleOf (refuseDomain 5 s) p = roleOf s p := by
      simp only [roleOf, rdF, h4.regs Reg.authStatus (by decide)]
    show decide (needRole .operator ≤ roleOf (refuseDomain 5 s) p) = false
    rw [hr]; exact hm
  obtain ⟨au, hau⟩ := logWrite_frame (.path p) Reg.domainCtrl 1 [] [] (addSat Reg.roleRefused 31 0 1 (refuseDomain 5 s))
  have he : answered (.path p) Reg.domainCtrl (domainCtrlWrite (.path p) w s)
      = logWrite (.path p) Reg.domainCtrl 1 [] [] (addSat Reg.roleRefused 31 0 1 (refuseDomain 5 s)) := by
    have hs : skipsLog Reg.domainCtrl = false := by decide
    simp only [answered, domainCtrlWrite, withRoleDo, withRole, hm, hm', hw, refuseRole, hs, Bool.not_false,
      Bool.false_eq_true, if_true, if_false]
  have hk : Kept [Reg.domainCtrl, Reg.powerEvent, Reg.roleRefused] s (addSat Reg.roleRefused 31 0 1 (refuseDomain 5 s)) :=
    (h4.mono (by simp)).addSat (by simp) _ _ _
  refine ⟨_, he, ?_⟩
  rw [hau]
  refine ⟨?_, ?_, h3, hk.withAudit _ _⟩
  · exact (rdF_wrF_ne _ _ _ _ _ _ (by decide)).trans h1
  · exact (rdB_wrF_ne _ _ _ _ _ (by decide)).trans h2

-- A domain comes on

/-- Only registers, memory, HBM stacks and bank records change when a domain comes on. -/
theorem domainCameOn_frame (b : Bool) (d : Nat) (s : State) :
    (domainCameOn b d s).pwr = s.pwr ∧ (domainCameOn b d s).rma = s.rma := by
  unfold domainCameOn
  dsimp only
  split
  · exact ⟨rfl, rfl⟩
  · split
    · split
      · exact ⟨rfl, rfl⟩
      · cases b <;> exact ⟨rfl, rfl⟩
    · split
      · refine List.foldlRecOn (motive := fun v : State => v.pwr = s.pwr ∧ v.rma = s.rma) _ _ ⟨rfl, rfl⟩ fun v hv k _ => ?_
        split
        · exact hv
        · exact hv
      · exact ⟨rfl, rfl⟩

theorem memByte_domainCameOn {k : Nat} (b : Bool) (hd : d < 36) (h8 : d % 9 < 8) (ht : t ∈ clusterTiles d)
    (hk : k < 0x200000) (s : State) : memByte (domainCameOn b d s) (sramAddr t k) = 0 := by
  unfold domainCameOn
  dsimp only
  rw [if_pos ⟨hd, h8⟩]
  refine (memByte_zeroRange _ _ _ _).trans (if_pos ?_)
  obtain ⟨i, hi, rfl⟩ := List.mem_map.mp ht
  have hi := List.mem_range.mp hi
  have hh : (clusterTiles d).headD 0 = d / 9 * 128 + d % 9 * 16 := rfl
  rw [hh]
  simp only [sramAddr]
  omega

theorem retryAt_none (h : s.rma.held = []) (f : Nat → Bool) :
    retryAt f s = { s with rma := { s.rma with held := [] } } := by
  unfold retryAt
  rw [h]; rfl

/-- The clock as a rail's next domain may come on (R379). -/
def railTime (rail : Nat) (s : State) : State :=
  match s.pwr.lastOn.find? (fun kv => kv.1 == rail) with
  | some kv => clockTo (kv.2 + 16000) s
  | none => s

theorem railTime_frame (rail : Nat) (s : State) : (railTime rail s).pwr = s.pwr ∧ (railTime rail s).rma = s.rma := by
  unfold railTime
  split
  · next kv _ =>
    obtain ⟨c, n, he⟩ := clockTo_cases s (kv.2 + 16000)
    rw [he]; exact ⟨rfl, rfl⟩
  · exact ⟨rfl, rfl⟩

/-- A rail's turn: the domain leaves those that wait, and the rail's time is noted. -/
def railTurn (rail d : Nat) (s : State) : State :=
  { railTime rail s with
    pwr := { (railTime rail s).pwr with
      waitOn := (railTime rail s).pwr.waitOn.erase d
      lastOn := mset 0 (railTime rail s).pwr.lastOn rail (now (railTime rail s)) } }

theorem pwr_railTurn (rail d : Nat) (s : State) : (railTurn rail d s).pwr =
    { s.pwr with
      waitOn := s.pwr.waitOn.erase d
      lastOn := mset 0 s.pwr.lastOn rail (now (railTime rail s)) } := by
  rw [railTurn, (railTime_frame rail s).1]

theorem exec_domainTurnOn {rail : Nat} (h : s.pwr.waitOn.find? (fun d => domainRail d == rail) = some d) :
    exec (.domainTurnOn rail) s = ok (retryAt (fun g => clusterDomain (g / 16) == d)
      (domainCameOn (inDomainUp (railTime rail s)) d (railTurn rail d s))) := by
  show execDomainTurnOn rail s = _
  unfold execDomainTurnOn
  rw [h]
  rfl

/-- Settles O50: what DOMAIN_CTRL checks, in order, is what its words say, and the domain's bit of DOMAIN_STATUS follows. -/
theorem powerDomains : Obligations.PowerDomains := by
  unfold Obligations.PowerDomains
  intro d who s hd
  refine ⟨fun hm => ⟨fun he hi hw => ?_, fun he c hc => ?_, fun he hi ho => ?_, fun he hi ho hb => ?_, fun he hi h1 h2 hb => ?_⟩,
    ?_, fun rail hf hheld => ?_⟩
  · have hex := exec_domainOn hd hm
    rw [if_neg (by rw [he]; decide), if_neg (by rw [hi, hw]; decide)] at hex
    refine ⟨_, hex, rfl, ?_, (kept_namedDomain d s).regs, (kept_namedDomain d s).mem⟩
    exact rdF_wrF_fits s _ (by decide) (by decide) hd
  · obtain ⟨h1, h2, h3, h4⟩ := refused_namedDomain (why := 4) (by decide) d s
    have hex : exec c s = ok (refuseDomain 4 (namedDomain d s)) := by
      simp only [List.mem_cons, List.not_mem_nil, or_false] at hc
      obtain rfl | rfl := hc
      · exact (exec_domainOn hd hm).trans (congrArg ok (if_pos he))
      · exact (exec_domainOff hd hm).trans (congrArg ok (if_pos he))
    exact ⟨_, hex, h1, h2, h3, h4.regs, h4.mem⟩
  · have hex := exec_domainOff hd hm
    rw [if_neg (by rw [he]; decide), if_neg (by rw [hi]; decide), if_pos ho] at hex
    have := offRefused_lt s d
    obtain ⟨h1, h2, h3, h4⟩ := refused_namedDomain (why := offRefused s d) (by omega) d s
    exact ⟨_, hex, h1, h2, (domainIsOn_congr (h4.regs _ (by decide)) d).trans hi, h4.regs, h4.mem⟩
  · have hex := exec_domainOff hd hm
    rw [if_neg (by rw [he]; decide), if_neg (by rw [hi]; decide), if_neg (by rw [ho]; decide)] at hex
    exact ⟨_, hex, (switchOff_idle (s := namedDomain d s) hd hb).of_before (rd_namedDomain d s _ (by decide)) fun _ => rfl⟩
  · have hex := exec_domainOff hd hm
    rw [if_neg (by rw [he]; decide), if_neg (by rw [hi]; decide), if_neg (by rw [offRefused_stack h1 h2]; decide),
      switchOff_busy (s := namedDomain d s) h1 h2 hb] at hex
    refine ⟨_, hex, ?_, ?_, (kept_namedDomain d s).regs, (kept_namedDomain d s).mem⟩
    · rw [stk_onStk_self]
    · exact (domainIsOn_congr (rd_namedDomain d s _ (by decide)) d).trans hi
  · rintro p rfl hm c hc
    have hb : ∃ w, (bit w 63 || bit w 62) = true
        ∧ exec c s = ok (answered (.path p) Reg.domainCtrl (domainCtrlWrite (.path p) w s)) := by
      simp only [List.mem_cons, List.not_mem_nil, or_false] at hc
      obtain rfl | rfl := hc
      · exact ⟨_, by rw [(onWord d hd).2.1]; rfl, rfl⟩
      · exact ⟨_, by rw [(offWord d hd).2.2]; simp, rfl⟩
    obtain ⟨w, hw, hex⟩ := hb
    obtain ⟨u, hu, h1, h2, h3, h4⟩ := domainCtrl_unlicensed hw hm
    rw [hu] at hex
    exact ⟨u, hex, h1, h2, h3, h4.regs, h4.mem⟩
  · have hex := exec_domainTurnOn hf
    obtain ⟨x, hx⟩ : ∃ x, x = railTurn rail d s := ⟨_, rfl⟩
    obtain ⟨y, hy⟩ : ∃ y, y = domainCameOn (inDomainUp (railTime rail s)) d x := ⟨_, rfl⟩
    have hpx : x.pwr =
        { s.pwr with
          waitOn := s.pwr.waitOn.erase d
          lastOn := mset 0 s.pwr.lastOn rail (now (railTime rail s)) } := by
      rw [hx]; exact pwr_railTurn rail d s
    have hnx : x.now = (railTime rail s).now := by rw [hx]; rfl
    have hrx : x.rma = s.rma := by rw [hx]; exact (railTime_frame rail s).2
    obtain ⟨hpy, hry⟩ := domainCameOn_frame (inDomainUp (railTime rail s)) d x
    have hc := cameOn_domainCameOn (inDomainUp (railTime rail s)) d x
    have hz := fun h1 h2 t ht k hk => memByte_domainCameOn (t := t) (k := k) (inDomainUp (railTime rail s)) (d := d) h1 h2 ht hk x
    rw [← hx, ← hy, retryAt_none (by rw [hy, hry, hrx, hheld])] at hex
    rw [← hy] at hpy hc hz
    have hn : y.now = (railTime rail s).now := hc.low.now.trans hnx
    refine ⟨_, hex, ?_, ?_, ?_, fun t ht hlt => ?_, hz⟩
    · refine (hc.isOn d).trans ?_
      rw [bit_wd _ hd, Nat.testBit_two_pow_self, Bool.or_true]
    · show y.pwr.waitOn = _
      rw [hpy, hpx]
    · show mget 0 y.pwr.lastOn rail = y.now.toNat
      rw [hpy, hpx, hn]
      exact mget_mset_self _ _ _ _
    · show t + 16000 ≤ y.now.toNat
      rw [hn, railTime, ht]
      exact now_clockTo s _ hlt

end Sys2Proof.Machine
end

section
/-! PROOFS. Heat, coolant and THROTTLE_IN_N (R372–R377). -/

namespace Sys2Proof.Machine

variable {s u v : State} {c p t : Nat} {who : Writer}

-- What a fence leaves alone of the thermal registers

/-- The mark of a trip and the thermal registers are kept. -/
structure HeatKept (s u : State) : Prop where
  tripped : u.pwr.tripped = s.pwr.tripped
  regs : ∀ a, 0x50000 ≤ a → a < 0x60000 → rd u a = rd s a

theorem HeatKept.refl (s : State) : HeatKept s s := ⟨rfl, fun _ _ _ => rfl⟩

theorem HeatKept.trans (h : HeatKept s u) (h' : HeatKept u v) : HeatKept s v :=
  ⟨h'.tripped.trans h.tripped, fun a h1 h2 => (h'.regs a h1 h2).trans (h.regs a h1 h2)⟩

theorem HeatKept.of_same (h : HeatKept s u) (hr : v.regs = u.regs) (hp : v.pwr.tripped = u.pwr.tripped) : HeatKept s v :=
  h.trans ⟨hp, fun a _ _ => by rw [rd, rd, hr]⟩

theorem HeatKept.wrReg (h : HeatKept s u) {a : Nat} (ha : a < 0x50000 ∨ 0x60000 ≤ a) (w : Word) : HeatKept s (wrReg a w u) :=
  h.trans ⟨rfl, fun _ _ _ => rd_wrReg_ne u w (by omega)⟩

theorem HeatKept.foldl {α : Type} {f : State → α → State} (l : List α) (hf : ∀ v x, HeatKept v (f v x)) (s : State) :
    HeatKept s (l.foldl f s) :=
  List.foldlRecOn _ _ (HeatKept.refl s) fun _ hv x _ => hv.trans (hf _ x)

theorem PairKept.heatKept (h : PairKept s u) : HeatKept s u := ⟨h.tripped, fun a h1 h2 => h.heat a h1 (by omega)⟩

theorem heatKept_stopQueue (q why : Nat) (s : State) : HeatKept s (stopQueue q why s) := by
  have h1 : Reg.qCtrl q < 0x50000 ∨ 0x60000 ≤ Reg.qCtrl q := Or.inr (by rw [Reg.qCtrl]; omega)
  have h2 : Reg.qStatus q < 0x50000 ∨ 0x60000 ≤ Reg.qStatus q := Or.inr (by rw [Reg.qStatus]; omega)
  unfold stopQueue
  split
  · exact HeatKept.refl s
  · obtain ⟨x, hx⟩ : ∃ x, x = wrB (Reg.qStatus q) 0 false (wrB (Reg.qCtrl q) 63 false s) := ⟨_, rfl⟩
    have h : HeatKept s x := by rw [hx]; exact ((HeatKept.refl s).wrReg h1 _).wrReg h2 _
    have h' : HeatKept s (onHq q (fun x => { x with reserved := 0, fetched := [], reading := false, records := [], armed := false })
        (orphanWork q x)) := h.of_same rfl rfl
    dsimp only
    rw [← hx]
    split
    · exact h'
    · exact (h'.wrReg h2 _).wrReg h2 _

theorem heatKept_stopSliceQueues (p : Nat) (s : State) : HeatKept s (stopSliceQueues p s) :=
  HeatKept.foldl _ (fun v _ => heatKept_stopQueue _ _ v) s

theorem heatKept_stopChannels (p : Nat) (s : State) : HeatKept s (stopChannels p s) := by
  refine HeatKept.foldl _ (fun v c => ?_) s
  split
  · split
    · exact (pairKept_cvuError c v).heatKept
    · exact HeatKept.refl v
  · exact HeatKept.refl v

theorem heatKept_abandonHandover (t b : Nat) (s : State) : HeatKept s (abandonHandover t b s) := by
  have h1 : Reg.bankStatus t b < 0x50000 ∨ 0x60000 ≤ Reg.bankStatus t b :=
    Or.inr (by simp only [Reg.bankStatus, Reg.tileBase]; omega)
  have h2 : Reg.bankOwner t b < 0x50000 ∨ 0x60000 ≤ Reg.bankOwner t b :=
    Or.inr (by simp only [Reg.bankOwner, Reg.tileBase]; omega)
  unfold abandonHandover
  split
  · exact ((((HeatKept.refl s).wrReg h1 _).wrReg h1 _).wrReg h2 _).of_same rfl rfl
  · exact HeatKept.refl s

theorem heatKept_abandonHandovers (p : Nat) (s : State) : HeatKept s (abandonHandovers p s) :=
  HeatKept.foldl _ (fun v _ => HeatKept.foldl _ (fun w _ => heatKept_abandonHandover _ _ w) v) s

theorem hbmStatus_not_heat (p i : Nat) : Reg.hbmStatus p i < 0x50000 ∨ 0x60000 ≤ Reg.hbmStatus p i :=
  Or.inr (by simp only [Reg.hbmStatus, Reg.stackBase]; omega)

theorem HeatKept.setStackState (h : HeatKept s u) (p i n : Nat) : HeatKept s (setStackState p i n u) :=
  h.wrReg (hbmStatus_not_heat p i) _

theorem heatKept_abandonRetrains (p : Nat) (s : State) : HeatKept s (abandonRetrains p s) := by
  refine HeatKept.foldl _ (fun v i => ?_) s
  have h : HeatKept v (if stackState v p i = 4 then setStackState p i 2 v else v) := by
    split
    · exact (HeatKept.refl v).setStackState p i 2
    · exact HeatKept.refl v
  dsimp only
  generalize (if stackState v p i = 4 then setStackState p i 2 v else v) = x at h ⊢
  exact (h.wrReg (hbmStatus_not_heat p i) _).of_same rfl rfl

theorem heatKept_startFence (p cause : Nat) (s : State) : HeatKept s (startFence p cause s) := by
  by_cases hf : fenceState s p = 0
  · obtain ⟨jobs, tenants, he⟩ := startFence_eq (p := p) (cause := cause) hf
    have h0 : HeatKept s (fenceMarked p cause tenants s) := by
      refine HeatKept.of_same (u := wrF Reg.fenceStatus (16 * p + 15) (16 * p) (cause * 16 + 1) s) ?_ rfl rfl
      exact (HeatKept.refl s).wrReg (Or.inl (by rw [Reg.fenceStatus]; omega)) _
    rw [he]
    generalize fenceMarked p cause tenants s = x at h0 ⊢
    unfold fenceWork
    dsimp only
    have h1 : HeatKept s (jobs.foldl (fun s j => abortGang j.leader s) x) :=
      h0.trans (HeatKept.foldl jobs (fun v j => (pairKept_abortGang j.leader v).heatKept) x)
    generalize jobs.foldl (fun s j => abortGang j.leader s) x = y at h1 ⊢
    have h2 := (((h1.trans (heatKept_stopSliceQueues p y)).trans (heatKept_stopChannels p _)).trans
      (heatKept_abandonHandovers p _)).trans (heatKept_abandonRetrains p _)
    exact h2.trans (HeatKept.foldl _ (fun v i => (pairKept_endInst i _ v).heatKept) _)
  · rw [startFence_of_fenced hf]
    exact HeatKept.refl s

theorem heatKept_haltAll (cause : Nat) (s : State) : HeatKept s (haltAll cause s) := by
  have h0 : ∀ (v : State) (j : Job), HeatKept v (abortGang j.leader v) := fun v j =>
    PairKept.heatKept (pairKept_abortGang j.leader v)
  have h1 : HeatKept s (s.host.jobs.foldl (fun s j => abortGang j.leader s) s) := HeatKept.foldl s.host.jobs h0 s
  unfold haltAll
  dsimp only
  generalize s.host.jobs.foldl (fun s j => abortGang j.leader s) s = x at h1 ⊢
  exact (h1.of_same (v := { x with flt := { x.flt with halted := true } }) rfl rfl).trans
    (HeatKept.foldl _ (fun v p => heatKept_startFence p cause v) _)

-- What the steps of the dies' frequencies leave (R355, R371)

/-- What was put out before is, what follows comes after it, and the tiles are as they were. -/
def SentOn (s u : State) : Prop := s.out <+: u.out ∧ u.tiles = s.tiles

theorem SentOn.trans (h : SentOn s u) (h' : SentOn u v) : SentOn s v := ⟨h.1.trans h'.1, h'.2.trans h.2⟩

theorem SentOn.of_same (ho : u.out = s.out) (ht : u.tiles = s.tiles) : SentOn s u := ⟨by rw [ho], ht⟩

theorem sentOn_noteBreach (p f : Nat) (s : State) : SentOn s (noteBreach p f s) := by
  unfold noteBreach
  split
  · split <;> exact .of_same rfl rfl
  · exact .of_same rfl rfl

theorem sentOn_doStep (p : Nat) (s : State) : SentOn s (doStep p s) := by
  obtain ⟨x, hx⟩ : ∃ x, x = (if (decideFreq s p).2 = freqOf s p then id
      else emit (.avs p (Config.voltageOf p (decideFreq s p).2))) s := ⟨_, rfl⟩
  have h0 : SentOn s x := by
    rw [hx]
    split
    · exact .of_same rfl rfl
    · exact ⟨List.prefix_append _ _, rfl⟩
  have h1 := (h0.trans (v := writeStatus p (decideFreq s p) x) (.of_same rfl rfl)).trans
    (sentOn_noteBreach p (decideFreq s p).2 _)
  rw [hx] at h1
  exact h1.trans (.of_same rfl rfl)

theorem sentOn_stepAll (s : State) : SentOn s (stepAll s) := by
  refine List.foldlRecOn (motive := SentOn s) _ _ (.of_same rfl rfl) fun v hv p _ => hv.trans ?_
  rcases stepOrWait_cases p v with ⟨-, he⟩ | he | he <;> rw [he]
  · exact .of_same rfl rfl
  · exact sentOn_doStep p v
  · exact .of_same rfl rfl

-- Each die has its frequency, or asks for it

/-- A die runs at the frequency that its limits name, or waits for quiet detectors. -/
def DieSettled (p : Nat) (s : State) : Prop := freqOf s p = (decideFreq s p).2 ∨ p ∈ s.pwr.request

theorem freqOf_doStep_ne {q : Nat} (_ : p < 4) (hq : q < 4) (h : q ≠ p) (s : State) : freqOf (doStep q s) p = freqOf s p := by
  obtain ⟨o, he⟩ := doStep_eq q s
  rw [he]
  refine (congrArg (fld · _ _) (rd_noteBreach_status _ _ _)).trans ?_
  exact (rdF_wrF_other _ _ _ _ _ _ _ (by omega) (by omega) (by omega)).trans
    (rdF_wrF_other _ _ _ _ _ _ _ (by omega) (by omega) (by omega))

theorem request_doStep (q : Nat) (s : State) : (doStep q s).pwr.request = s.pwr.request.filter (fun x => x != q) := by
  obtain ⟨o, he⟩ := doStep_eq q s
  have hn : ∀ f (v : State), (noteBreach q f v).pwr.request = v.pwr.request := fun f v => by
    unfold noteBreach
    split
    · split <;> rfl
    · rfl
  rw [he]
  exact congrArg (List.filter _) (hn _ _)

theorem DieSettled.stepOrWait {q : Nat} (hp : p < 4) (hq : q < 4) (h : q ≠ p) (hs : DieSettled p s) :
    DieSettled p (stepOrWait q s) := by
  have hm : p ∈ s.pwr.request → p ∈ s.pwr.request.filter (fun x => x != q) := fun hr =>
    List.mem_filter.mpr ⟨hr, by simpa using h.symm⟩
  unfold DieSettled
  rw [(stepOrWait_freqMoved q s).decideFreq]
  rcases stepOrWait_cases q s with ⟨-, he⟩ | he | he <;> rw [he]
  · exact hs
  · rw [freqOf_doStep_ne hp hq h, request_doStep]
    exact hs.imp_right hm
  · exact hs.imp_right fun hp => List.mem_append_left _ (hm hp)

/-- Every die is settled once its limits were looked at. -/
theorem dieSettled_stepAll (hp : p < 4) (s : State) : DieSettled p (stepAll s) := by
  have h : ∀ l : List Nat, (∀ q ∈ l, q < 4) → p ∈ l → DieSettled p (l.foldl (fun s p => stepOrWait p s) s) := by
    intro l
    induction l using List.reverseRecOn with
    | nil => intro _ hm; cases hm
    | append_singleton l q ih =>
      intro hl hm
      rw [List.foldl_append]
      by_cases hq : q = p
      · rw [hq]; exact freqOf_stepOrWait hp _
      · refine DieSettled.stepOrWait hp (hl q (by simp)) hq (ih (fun r hr => hl r (by simp [hr])) ?_)
        simpa [Ne.symm hq] using hm
  exact h _ (fun q hq => List.mem_range.mp hq) (List.mem_range.mpr hp)

-- Ballast and gates (R366, R372)

theorem tl_of_not_mem (h : t ∉ s.tiles.map (·.1)) : tl s t = {} := by
  unfold tl
  generalize s.tiles = l at h ⊢
  induction l with
  | nil => rfl
  | cons kv r ih =>
    obtain ⟨k, x⟩ := kv
    rw [List.map_cons, List.mem_cons, not_or] at h
    rw [mget, if_neg (fun he => h.1 he.symm)]
    exact ih h.2

/-- Protection of the whole device stops every tile's ballast (R366). -/
theorem ballast_stopBallast (h : s.pwr.extIn = true) (t : Nat) : (tl (stopBallast s) t).ballast = 0 := by
  have hst : ∀ (v : State) k, v.pwr.extIn = true → ballastStopped v k = true := fun v k hv => by
    simp only [ballastStopped, hv, Bool.true_or]
  have hself : ∀ (v : State) k, (tl v t).ballast = 0 → (tl (onTl k (fun x => { x with ballast := 0 }) v) t).ballast = 0 :=
    fun v k hv => by
      by_cases hk : t = k
      · subst hk; rw [tl_onTl_self]
      · rwa [tl_onTl_ne _ _ hk]
  unfold stopBallast
  by_cases hm : t ∈ s.tiles.map (·.1)
  · have := foldl_reaches (s := s) (f := fun s t => if ballastStopped s t then onTl t (fun x => { x with ballast := 0 }) s else s)
      (fun v => v.pwr.extIn = true) (fun v => v.pwr.extIn = true ∧ (tl v t).ballast = 0) hm
      (fun v k _ hv => by rw [if_pos (hst v k hv)]; exact hv)
      (fun v hv => by rw [if_pos (hst v t hv)]; exact ⟨hv, by rw [tl_onTl_self]⟩)
      (fun v k hv => by rw [if_pos (hst v k hv.1)]; exact ⟨hv.1, hself v k hv.2⟩) h
    exact this.2
  · refine (List.foldlRecOn (motive := fun v : State => v.pwr.extIn = true ∧ (tl v t).ballast = 0) _ _
      ⟨h, by rw [tl_of_not_mem hm]⟩ fun v hv k _ => ?_).2
    rw [if_pos (hst v k hv.1)]
    exact ⟨hv.1, hself v k hv.2⟩

theorem rd_setGate_ne {a : Nat} (h : a ≠ Reg.cluster c) (k : Nat) (s : State) : rd (setGate c k s) a = rd s a := by
  unfold setGate
  split
  · rfl
  · exact rd_wrF_ne _ _ _ _ h

theorem clusterTemp_setGate (c k : Nat) (s : State) : clusterTemp (setGate c k s) c = clusterTemp s c := by
  unfold setGate
  split
  · rfl
  · exact rdF_wrF_other _ _ _ _ _ _ _ (by decide) (by decide) (by decide)

theorem kept_setGate (c k : Nat) (s : State) : Kept [Reg.cluster c] s (setGate c k s) :=
  ⟨fun a ha => rd_setGate_ne (by simpa using ha) k s, (setGate_gatesMoved c k s).mem⟩

theorem kept_updateThermal (s : State) : Kept [Reg.thermalStatus] s (updateThermal s) := (Kept.refl _ s).wrReg (by simp) _

theorem gated_updateThermal (c : Nat) (s : State) : gated (updateThermal s) c = gated s c :=
  rdF_wrReg_ne _ _ _ _ (by simp only [Reg.cluster, Reg.thermalStatus]; omega)

theorem FreqMoved.gated (h : FreqMoved s u) (c : Nat) : gated u c = gated s c := by
  rw [Machine.gated, rdF, h.kept.regs _ (cluster_notMem_freqRegs c)]; rfl

-- SENSOR_READ (R372, R373)

/-- The hotter of two readings. -/
def hotterOf (a x : Nat × Nat) : Nat × Nat := if a.1 < x.1 then x else a

theorem foldl_hotterOf_ge (l : List (Nat × Nat)) (a : Nat × Nat) :
    a.1 ≤ (l.foldl hotterOf a).1 ∧ ∀ x ∈ l, x.1 ≤ (l.foldl hotterOf a).1 := by
  induction l generalizing a with
  | nil => exact ⟨le_refl _, fun _ h => by cases h⟩
  | cons y l ih =>
    obtain ⟨h1, h2⟩ := ih (hotterOf a y)
    have ha : a.1 ≤ (hotterOf a y).1 ∧ y.1 ≤ (hotterOf a y).1 := by
      unfold hotterOf
      split <;> omega
    refine ⟨ha.1.trans h1, fun x hx => ?_⟩
    obtain rfl | hx := List.mem_cons.mp hx
    · exact ha.2.trans h1
    · exact h2 x hx

theorem foldl_hotterOf_mem (l : List (Nat × Nat)) (a : Nat × Nat) : l.foldl hotterOf a = a ∨ l.foldl hotterOf a ∈ l := by
  refine List.foldlRecOn (motive := fun b => b = a ∨ b ∈ l) _ _ (Or.inl rfl) fun b hb x hx => ?_
  unfold hotterOf
  split
  · exact Or.inr hx
  · exact hb

/-- No cluster is hotter than the hottest reading. -/
theorem clusterTemp_le_hottest (hc : c < 32) (s : State) : clusterTemp s c ≤ (hottest s).1 := by
  refine (foldl_hotterOf_ge _ (0, 0)).2 (clusterTemp s c, c) ?_
  exact List.mem_append_left _ (List.mem_append_left _ (List.mem_map.mpr ⟨c, List.mem_range.mpr hc, rfl⟩))

/-- A cluster's reading, noted, and since when it has been cool. -/
def clusterNoted (c temp : Nat) (s : State) : State :=
  let limit := 8 * rdF s Reg.thermalLimits 7 0
  let s := wrF (Reg.cluster c) 27 16 (min 4095 temp) s
  let cool := if temp + 24 ≤ limit then
      (if mget 0 s.pwr.coolSince c = 0 then mset 0 s.pwr.coolSince c (max 1 (now s)) else s.pwr.coolSince)
    else mset 0 s.pwr.coolSince c 0
  { s with pwr := { s.pwr with coolSince := cool } }

/-- A cluster that is too hot begins to be gated. -/
def clusterGated (c : Nat) (s : State) : State :=
  { s with pwr := { s.pwr with hotSince := mset 0 s.pwr.hotSince c (now s) } } |> setGate c 1 |> orReg Reg.thermalEvent 1
    |> stopBallast

theorem gated_clusterNoted (temp k : Nat) (s : State) : gated (clusterNoted c temp s) k = gated s k := by
  by_cases h : k = c
  · subst h; exact rdF_wrF_other _ _ _ _ _ _ _ (by decide) (by decide) (by decide)
  · exact rdF_wrF_ne _ _ _ _ _ _ (by simp only [Reg.cluster]; omega)

theorem readCluster_eq (temp : Nat) (s : State) : readCluster c temp s
    = if 8 * rdF s Reg.thermalLimits 7 0 ≤ temp ∧ gated s c = 0 then clusterGated c (clusterNoted c temp s)
      else clusterNoted c temp s := by
  rw [← gated_clusterNoted (c := c) temp c s]
  rfl

theorem rd_readCluster_ne {a : Nat} (h : a ≠ Reg.cluster c) (h' : a ≠ Reg.thermalEvent) (temp : Nat) (s : State) :
    rd (readCluster c temp s) a = rd s a := by
  have hn : rd (clusterNoted c temp s) a = rd s a := rd_wrF_ne _ _ _ _ h
  rw [readCluster_eq]
  split
  · rw [clusterGated, rd_stopBallast, rd_orReg_ne _ _ h', rd_setGate_ne h, ← hn]; rfl
  · exact hn

theorem readCluster_keeps (c temp : Nat) (s : State) :
    (readCluster c temp s).boot = s.boot ∧ (readCluster c temp s).pwr.tripped = s.pwr.tripped := by
  have hg : ∀ v : State, (clusterGated c v).boot = v.boot ∧ (clusterGated c v).pwr.tripped = v.pwr.tripped := fun v => by
    unfold clusterGated
    dsimp only
    obtain ⟨ts, h⟩ := stopBallast_cases (orReg Reg.thermalEvent 1
      (setGate c 1 { v with pwr := { v.pwr with hotSince := mset 0 v.pwr.hotSince c (now v) } }))
    rw [h]
    unfold setGate
    split <;> exact ⟨rfl, rfl⟩
  rw [readCluster_eq]
  split
  · exact hg (clusterNoted c temp s)
  · exact ⟨rfl, rfl⟩

theorem event_readCluster {i : Nat} (temp : Nat) (h : rdB s Reg.thermalEvent i = true) :
    rdB (readCluster c temp s) Reg.thermalEvent i = true := by
  have hn : rdB (clusterNoted c temp s) Reg.thermalEvent i = true :=
    (rdB_wrF_ne _ _ _ _ _ (by simp only [Reg.cluster, Reg.thermalEvent]; omega)).trans h
  rw [readCluster_eq]
  split
  · rw [clusterGated, rdB, rd_stopBallast]
    refine rdB_orReg_of_set ?_
    rw [rdB, rd_setGate_ne (by simp only [Reg.cluster, Reg.thermalEvent]; omega)]
    exact hn
  · exact hn

theorem gated_clusterGated (c : Nat) (s : State) : gated (clusterGated c s) c = 1 := by
  rw [clusterGated, gated, rdF, rd_stopBallast, rd_orReg_ne _ _ (by simp only [Reg.cluster, Reg.thermalEvent]; omega)]
  exact gate_setGate_self c (by decide) _

theorem clusterTemp_readCluster (c temp : Nat) (s : State) : clusterTemp (readCluster c temp s) c = min 4095 temp := by
  have hn : clusterTemp (clusterNoted c temp s) c = min 4095 temp :=
    rdF_wrF_fits _ _ (by decide) (by decide) (by omega)
  rw [readCluster_eq]
  split
  · rw [clusterGated, clusterTemp, rdF, rd_stopBallast, rd_orReg_ne _ _ (by simp only [Reg.cluster, Reg.thermalEvent]; omega),
      ← rdF, ← clusterTemp, clusterTemp_setGate]
    exact hn
  · exact hn

/-- A cluster that was read too hot is gated, and its event is raised. -/
def HotGated (c : Nat) (s : State) : Prop := gated s c = 1 ∧ rdB s Reg.thermalEvent 0 = true

theorem hotGated_readCluster {temp : Nat} (hl : 8 * rdF s Reg.thermalLimits 7 0 ≤ temp) (hg : gated s c = 0) :
    HotGated c (readCluster c temp s) := by
  rw [readCluster_eq, if_pos ⟨hl, hg⟩]
  refine ⟨gated_clusterGated c _, ?_⟩
  rw [clusterGated, rdB, rd_stopBallast]
  exact rdB_orReg_pow _ _ (i := 0) (by decide)

theorem HotGated.readCluster (h : HotGated c s) (k temp : Nat) : HotGated c (readCluster k temp s) := by
  refine ⟨?_, event_readCluster temp h.2⟩
  by_cases hk : k = c
  · subst hk
    rw [readCluster_eq, if_neg (by rw [h.1]; omega), gated_clusterNoted]
    exact h.1
  · rw [gated, rdF, rd_readCluster_ne (by simp only [Reg.cluster]; omega) (by simp only [Reg.cluster, Reg.thermalEvent]; omega)]
    exact h.1

/-- The 32 clusters are read. -/
def clustersRead (temps : List Nat) (s : State) : State := (List.range 32).foldl (fun s c => readCluster c (nth temps c) s) s

/-- What the readings of the clusters leave. -/
structure ClustersRead (temps : List Nat) (s u : State) : Prop where
  boot : u.boot = s.boot
  tripped : u.pwr.tripped = s.pwr.tripped
  temp : ∀ c, c < 32 → clusterTemp u c = min 4095 (nth temps c)
  hot : ∀ c, c < 32 → gated s c = 0 → 8 * rdF s Reg.thermalLimits 7 0 ≤ nth temps c → HotGated c u

theorem clustersRead_spec (temps : List Nat) (s : State) : ClustersRead temps s (clustersRead temps s) where
  boot := List.foldlRecOn (motive := fun v : State => v.boot = s.boot) _ _ rfl fun v hv c _ =>
    (readCluster_keeps c _ v).1.trans hv
  tripped := List.foldlRecOn (motive := fun v : State => v.pwr.tripped = s.pwr.tripped) _ _ rfl fun v hv c _ =>
    (readCluster_keeps c _ v).2.trans hv
  temp c hc := by
    refine foldl_reaches (fun _ => True) (fun v => clusterTemp v c = min 4095 (nth temps c)) (List.mem_range.mpr hc)
      (fun _ _ _ _ => trivial) (fun v _ => clusterTemp_readCluster c _ v) (fun v k hv => ?_) trivial
    by_cases hk : k = c
    · subst hk; exact clusterTemp_readCluster k _ v
    · rw [clusterTemp, rdF, rd_readCluster_ne (by simp only [Reg.cluster]; omega)
        (by simp only [Reg.cluster, Reg.thermalEvent]; omega)]
      exact hv
  hot c hc hg hl := by
    refine foldl_reaches (fun v => rd v Reg.thermalLimits = rd s Reg.thermalLimits ∧ gated v c = gated s c) (HotGated c)
      (List.mem_range.mpr hc) (fun v k hk hv => ⟨?_, ?_⟩)
      (fun v hv => hotGated_readCluster (by rw [rdF, hv.1]; exact hl) (hv.2.trans hg)) (fun v k hv => hv.readCluster k _)
      ⟨rfl, rfl⟩
    · rw [rd_readCluster_ne (by simp only [Reg.cluster, Reg.thermalLimits]; omega) (by decide)]
      exact hv.1
    · rw [gated, rdF, rd_readCluster_ne (by simp only [Reg.cluster]; omega) (by simp only [Reg.cluster, Reg.thermalEvent]; omega)]
      exact hv.2

/-- A sensor of an I/O die is read. -/
def readIo (j temp : Nat) (s : State) : State :=
  s |> wrF (Reg.ioTemp j) 11 0 (min 4095 temp) |> (if 760 ≤ temp then orReg Reg.thermalEvent 4 else id)

theorem rd_readIo_ne {a j : Nat} (h : a ≠ Reg.ioTemp j) (h' : a ≠ Reg.thermalEvent) (temp : Nat) (s : State) :
    rd (readIo j temp s) a = rd s a := by
  unfold readIo
  split
  · exact (rd_orReg_ne _ _ h').trans (rd_wrF_ne _ _ _ _ h)
  · exact rd_wrF_ne _ _ _ _ h

theorem event_readIo {i j : Nat} (temp : Nat) (h : rdB s Reg.thermalEvent i = true) :
    rdB (readIo j temp s) Reg.thermalEvent i = true := by
  have hw : rdB (wrF (Reg.ioTemp j) 11 0 (min 4095 temp) s) Reg.thermalEvent i = true :=
    (rdB_wrF_ne _ _ _ _ _ (by simp only [Reg.ioTemp, Reg.thermalEvent]; omega)).trans h
  unfold readIo
  split
  · exact rdB_orReg_of_set hw
  · exact hw

theorem ioTemp_readIo (j temp : Nat) (s : State) : rdF (readIo j temp s) (Reg.ioTemp j) 11 0 = min 4095 temp := by
  have hw : rdF (wrF (Reg.ioTemp j) 11 0 (min 4095 temp) s) (Reg.ioTemp j) 11 0 = min 4095 temp :=
    rdF_wrF_fits _ _ (by decide) (by decide) (by omega)
  unfold readIo
  split
  · exact (rdF_orReg_ne _ _ _ _ (by simp only [Reg.ioTemp, Reg.thermalEvent]; omega)).trans hw
  · exact hw

theorem readIo_pwr (j temp : Nat) (s : State) : (readIo j temp s).pwr = s.pwr := by
  unfold readIo
  split <;> rfl

/-- The sensors of the I/O dies are read. -/
def iosRead (temps : List Nat) (n : Nat) (s : State) : State :=
  (List.range n).foldl (fun s j => readIo j (nth temps (32 + j)) s) s

/-- What the readings of the I/O dies leave. -/
structure IosRead (temps : List Nat) (n : Nat) (s u : State) : Prop where
  pwr : u.pwr = s.pwr
  cluster : ∀ c, c < 32 → rd u (Reg.cluster c) = rd s (Reg.cluster c)
  temp : ∀ j, j < n → rdF u (Reg.ioTemp j) 11 0 = min 4095 (nth temps (32 + j))
  event : ∀ i, rdB s Reg.thermalEvent i = true → rdB u Reg.thermalEvent i = true

theorem iosRead_spec (temps : List Nat) (n : Nat) (s : State) : IosRead temps n s (iosRead temps n s) where
  pwr := List.foldlRecOn (motive := fun v : State => v.pwr = s.pwr) _ _ rfl fun v hv j _ => (readIo_pwr j _ v).trans hv
  cluster c hc := foldl_keeps s (fun v => rd v (Reg.cluster c)) _ _ fun v j _ =>
    rd_readIo_ne (by simp only [Reg.cluster, Reg.ioTemp]; omega) (by simp only [Reg.cluster, Reg.thermalEvent]; omega) _ v
  temp j hj := by
    refine foldl_reaches (fun _ => True) (fun v => rdF v (Reg.ioTemp j) 11 0 = min 4095 (nth temps (32 + j)))
      (List.mem_range.mpr hj) (fun _ _ _ _ => trivial) (fun v _ => ioTemp_readIo j _ v) (fun v k hv => ?_) trivial
    by_cases hk : k = j
    · subst hk; exact ioTemp_readIo k _ v
    · rw [rdF, rd_readIo_ne (by simp only [Reg.ioTemp]; omega) (by simp only [Reg.ioTemp, Reg.thermalEvent]; omega)]
      exact hv
  event i h := List.foldlRecOn (motive := fun v : State => rdB v Reg.thermalEvent i = true) _ _ h fun v hv j _ =>
    event_readIo _ hv

-- The trip (R373)

/-- What the trip leaves of the thermal registers. -/
structure Tripped (s u : State) : Prop where
  tripped : u.pwr.tripped = true
  regs : ∀ a, 0x50000 ≤ a → a < 0x60000 → a ≠ Reg.thermalEvent → rd u a = rd s a
  event : ∀ i, rdB s Reg.thermalEvent i = true → rdB u Reg.thermalEvent i = true

theorem heatKept_setPhase (p n : Nat) (s : State) : HeatKept s (setPhase p n s) :=
  (HeatKept.refl s).wrReg (Or.inl (by rw [Reg.resetStatus]; omega)) _

theorem heatKept_setFence (p n : Nat) (s : State) : HeatKept s (setFence p n s) :=
  (HeatKept.refl s).wrReg (Or.inl (by rw [Reg.fenceStatus]; omega)) _

theorem heatKept_domainsOff (l : List Nat) (s : State) : HeatKept s (domainsOff l s) := by
  refine HeatKept.of_same (u := clrReg Reg.domainStatus (maskOf l) s) ?_ rfl rfl
  exact (HeatKept.refl s).wrReg (Or.inl (by rw [Reg.domainStatus]; omega)) _

/-- The trip as the state before its event, the event, its record and the steps of the dies. -/
theorem trip_eq (h : s.pwr.tripped = false) : ∃ x, HeatKept { s with pwr := { s.pwr with tripped := true } } x
    ∧ trip s = stepAll (recordControl 18 true none [] (orReg Reg.thermalEvent 2 x)) := by
  obtain ⟨x0, hx0⟩ : ∃ x0 : State, x0 = { s with pwr := { s.pwr with tripped := true } } := ⟨_, rfl⟩
  unfold trip
  rw [if_neg (by rw [h]; decide), ← hx0]
  dsimp only
  have h1 : HeatKept x0 ((List.range 4).foldl (fun s p =>
      if 2 ≤ resetPhase s p ∧ resetPhase s p ≤ 8 then s |> setPhase p 9 |> (if fenceState s p = 3 then setFence p 2 else id)
      else s) x0) := by
    refine HeatKept.foldl _ (fun v p => ?_) x0
    split
    · split
      · exact (heatKept_setPhase p 9 v).trans (heatKept_setFence p 2 _)
      · exact heatKept_setPhase p 9 v
    · exact HeatKept.refl v
  generalize (List.range 4).foldl (fun s p =>
      if 2 ≤ resetPhase s p ∧ resetPhase s p ≤ 8 then s |> setPhase p 9 |> (if fenceState s p = 3 then setFence p 2 else id)
      else s) x0 = x1 at h1 ⊢
  have h2 : HeatKept x0 (stopBallast (haltAll 3 x1)) := by
    obtain ⟨ts, ht⟩ := stopBallast_cases (haltAll 3 x1)
    rw [ht]
    exact (h1.trans (heatKept_haltAll 3 x1)).of_same rfl rfl
  generalize stopBallast (haltAll 3 x1) = x2 at h2 ⊢
  refine ⟨_, (h2.trans (heatKept_domainsOff _ x2)).trans (HeatKept.foldl _ (fun v k => ?_) _), rfl⟩
  exact (HeatKept.refl v).setStackState k.1 k.2 1

theorem trip_spec (h : s.pwr.tripped = false) : Tripped s (trip s) ∧ rdB (trip s) Reg.thermalEvent 1 = true
    ∧ rdB (trip s) Reg.faultStatus 18 = true := by
  obtain ⟨x, hx, he⟩ := trip_eq h
  rw [he]
  obtain ⟨y, hy⟩ : ∃ y, y = orReg Reg.thermalEvent 2 x := ⟨_, rfl⟩
  rw [← hy]
  obtain ⟨z, hz⟩ : ∃ z, z = recordControl 18 true none [] y := ⟨_, rfl⟩
  rw [← hz]
  have hm := stepAll_freqMoved z
  have hr : ∀ a, 0x50000 ≤ a → a < 0x60000 → rd (stepAll z) a = rd y a := fun a h1 h2 => by
    rw [hm.kept.regs a (by simp only [freqRegs, List.mem_cons, List.not_mem_nil, or_false, Reg.powerStatus, Reg.ffBreach, Reg.powerEvent]; omega),
      hz, (kept_recordControl 18 true none [] y).regs a (by
        simp only [List.mem_cons, List.not_mem_nil, or_false, Reg.faultStatus, Reg.firstSource]; omega)]
  refine ⟨⟨?_, fun a h1 h2 hne => ?_, fun i hi => ?_⟩, ?_, ?_⟩
  · rw [hm.pwr, hz, recordControl_pwr, hy]
    exact hx.tripped
  · rw [hr a h1 h2, hy, rd_orReg_ne _ _ hne, hx.regs a h1 h2]; rfl
  · rw [rdB, hr _ (by decide) (by decide), hy]
    refine rdB_orReg_of_set ?_
    rw [rdB, hx.regs _ (by decide) (by decide)]
    exact hi
  · rw [rdB, hr _ (by decide) (by decide), hy]
    exact rdB_orReg_pow _ _ (i := 1) (by decide)
  · rw [rdB, hm.kept.regs _ (by decide), hz]
    exact rdB_recordControl _ _ _ _ (by decide)

/-- The trip, where the hottest reading asks for it. -/
def tripped (s : State) : State := if 880 ≤ (hottest s).1 then trip s else s

theorem tripped_regs (s : State) : (∀ a, 0x50000 ≤ a → a < 0x60000 → a ≠ Reg.thermalEvent → rd (tripped s) a = rd s a)
    ∧ ∀ i, rdB s Reg.thermalEvent i = true → rdB (tripped s) Reg.thermalEvent i = true := by
  unfold tripped
  split
  · cases h : s.pwr.tripped with
    | true => rw [trip, if_pos h]; exact ⟨fun _ _ _ _ => rfl, fun _ hi => hi⟩
    | false => exact ⟨(trip_spec h).1.regs, (trip_spec h).1.event⟩
  · exact ⟨fun _ _ _ _ => rfl, fun _ hi => hi⟩

theorem tripped_hot (hc : c < 32) (h : 880 ≤ clusterTemp s c) : (tripped s).pwr.tripped = true
    ∧ (s.pwr.tripped = false → rdB (tripped s) Reg.faultStatus 18 = true ∧ rdB (tripped s) Reg.thermalEvent 1 = true) := by
  unfold tripped
  rw [if_pos (h.trans (clusterTemp_le_hottest hc s))]
  cases ht : s.pwr.tripped with
  | true => rw [trip, if_pos ht]; exact ⟨ht, fun hf => by cases hf⟩
  | false => exact ⟨(trip_spec ht).1.tripped, fun _ => ⟨(trip_spec ht).2.2, (trip_spec ht).2.1⟩⟩

theorem exec_sensorRead (temps : List Nat) (s : State) : exec (.sensorRead temps) s
    = ok (updateThermal (tripped (iosRead temps (2 * (clustersRead temps s).boot.ioDies) (clustersRead temps s)))) := rfl

theorem sensorRead_completes (temps : List Nat) (s : State) (h4 : s.boot.ioDies ≤ 4) :
    Completes (.sensorRead temps) s (fun u =>
      (∀ c, c < 32 → clusterTemp u c = min 4095 (nth temps c))
        ∧ (∀ c, c < 32 → gated s c = 0 → 8 * rdF s Reg.thermalLimits 7 0 ≤ nth temps c →
            gated u c = 1 ∧ rdB u Reg.thermalEvent 0 = true)
        ∧ (∀ j, j < 2 * s.boot.ioDies → rdF u (Reg.ioTemp j) 11 0 = min 4095 (nth temps (32 + j)))
        ∧ ((∃ c, c < 32 ∧ 880 ≤ nth temps c) → u.pwr.tripped = true)
        ∧ ((∃ c, c < 32 ∧ 880 ≤ nth temps c) → s.pwr.tripped = false → rdB u Reg.faultStatus 18 = true
            ∧ rdB u Reg.thermalEvent 1 = true)) := by
  have hex := exec_sensorRead temps s
  have hx := clustersRead_spec temps s
  generalize clustersRead temps s = x at hex hx
  have hy := iosRead_spec temps (2 * s.boot.ioDies) x
  rw [hx.boot] at hex
  generalize iosRead temps (2 * s.boot.ioDies) x = y at hex hy
  obtain ⟨hr, he⟩ := tripped_regs y
  have htr := fun c hc => tripped_hot (s := y) (c := c) hc
  generalize tripped y = z at hex hr he htr
  have hc : ∀ c, c < 32 → rd (updateThermal z) (Reg.cluster c) = rd x (Reg.cluster c) := fun c hc => by
    rw [(kept_updateThermal z).regs _ (by simp only [List.mem_singleton, Reg.cluster, Reg.thermalStatus]; omega),
      hr _ (by simp only [Reg.cluster]; omega) (by simp only [Reg.cluster]; omega)
        (by simp only [Reg.cluster, Reg.thermalEvent]; omega), hy.cluster c hc]
  have hev : rd (updateThermal z) Reg.thermalEvent = rd z Reg.thermalEvent := (kept_updateThermal z).regs _ (by decide)
  have htemp : ∀ c, c < 32 → clusterTemp y c = min 4095 (nth temps c) := fun c h => by
    rw [← hx.temp c h, clusterTemp, rdF, hy.cluster c h]; rfl
  refine ⟨_, hex, fun c h => ?_, fun c h hg hl => ⟨?_, ?_⟩, fun j h => ?_, ?_, ?_⟩
  · rw [clusterTemp, rdF, hc c h]
    exact hx.temp c h
  · rw [gated, rdF, hc c h]
    exact (hx.hot c h hg hl).1
  · rw [rdB, hev]
    exact he 0 (hy.event 0 (hx.hot c h hg hl).2)
  · rw [rdF, (kept_updateThermal z).regs _ (by simp only [List.mem_singleton, Reg.ioTemp, Reg.thermalStatus]; omega),
      hr _ (by simp only [Reg.ioTemp]; omega) (by simp only [Reg.ioTemp]; omega)
        (by simp only [Reg.ioTemp, Reg.thermalEvent]; omega)]
    exact hy.temp j h
  · rintro ⟨c, h, ht⟩
    exact (htr c h (by rw [htemp c h]; omega)).1
  · rintro ⟨c, h, ht⟩ hn
    obtain ⟨h1, h2⟩ := (htr c h (by rw [htemp c h]; omega)).2 (by rw [hy.pwr, hx.tripped, hn])
    refine ⟨?_, by rw [rdB, hev]; exact h2⟩
    rw [rdB, (kept_updateThermal z).regs _ (by decide)]
    exact h1

-- Throttling (R372)

theorem throttleAdjust_completes {aim : Nat} (hc : c < 32) (hg : gated s c ≠ 0) (ha : aim = 8 * rdF s Reg.thermalLimits 7 0 - 8) :
    Completes (.throttleAdjust c) s (fun u =>
      gated u c = (if aim < clusterTemp s c then min 15 (gated s c + 1)
        else if clusterTemp s c < aim then max (if s.pwr.floor || s.pwr.capFloor then 8 else 1) (gated s c - 1)
        else gated s c)
      ∧ RegsKept [Reg.cluster c, Reg.thermalStatus] s u ∧ MemKept s u) := by
  subst ha
  have hlt : gated s c < 16 := fld_lt _ 3 0
  obtain ⟨k, hk⟩ : ∃ k, k = (if 8 * rdF s Reg.thermalLimits 7 0 - 8 < clusterTemp s c then min 15 (gated s c + 1)
        else if clusterTemp s c < 8 * rdF s Reg.thermalLimits 7 0 - 8 then
          max (if s.pwr.floor || s.pwr.capFloor then 8 else 1) (gated s c - 1)
        else gated s c) := ⟨_, rfl⟩
  have hk16 : k < 16 := by
    rw [hk]
    split
    · omega
    · split
      · split <;> omega
      · exact hlt
  have hex : exec (.throttleAdjust c) s = ok (updateThermal (setGate c k s)) := by
    rw [hk]
    exact congrArg ok (if_pos ⟨hc, hg⟩)
  have hkept := ((kept_setGate c k s).mono (l' := [Reg.cluster c, Reg.thermalStatus]) (by simp)).trans
    ((kept_updateThermal (setGate c k s)).mono (by simp))
  refine ⟨_, hex, ?_, hkept.regs, hkept.mem⟩
  rw [gated_updateThermal, ← hk]
  exact gate_setGate_self c hk16 s

theorem throttleRelease_completes (hc : c < 32) (hg : gated s c ≠ 0) (hcool : mget 0 s.pwr.coolSince c ≠ 0)
    (hf : s.pwr.floor = false) (hcap : s.pwr.capFloor = false) (hlt : mget 0 s.pwr.coolSince c + 1600000 < 2 ^ 64) :
    Completes (.throttleRelease c) s (fun u =>
      gated u c = 0 ∧ mget 0 s.pwr.coolSince c + 1600000 ≤ now u ∧ u.out.take (s.out.length + 1) = s.out ++ [.gate c 0]
        ∧ RegsKept [Reg.cluster c, Reg.thermalStatus, Reg.powerStatus, Reg.ffBreach, Reg.powerEvent] s u ∧ MemKept s u) := by
  have hnow := now_clockTo s (mget 0 s.pwr.coolSince c + 1600000) hlt
  obtain ⟨x, hx⟩ : ∃ x, x = clockTo (mget 0 s.pwr.coolSince c + 1600000) s := ⟨_, rfl⟩
  have hex : exec (.throttleRelease c) s = ok (stepAll (updateThermal (setGate c 0 x))) := by
    rw [hx]
    exact congrArg ok (if_pos ⟨hc, hg, hcool, by rw [hf]; rfl, by rw [hcap]; rfl⟩)
  have hkx : Kept [Reg.cluster c, Reg.thermalStatus, Reg.powerStatus, Reg.ffBreach, Reg.powerEvent] s x := by
    rw [hx]; exact (Kept.refl _ s).clockTo _
  have hox : x.out = s.out := by
    obtain ⟨co, n, he⟩ := clockTo_cases s (mget 0 s.pwr.coolSince c + 1600000)
    rw [hx, he]
  have hgx : gated x c ≠ 0 := by rwa [hx, gated, rdF, rd_clockTo]
  rw [← hx] at hnow
  obtain ⟨y, hy⟩ : ∃ y, y = updateThermal (setGate c 0 x) := ⟨_, rfl⟩
  have hky := (hkx.trans ((kept_setGate c 0 x).mono (by simp))).trans ((kept_updateThermal (setGate c 0 x)).mono (by simp))
  have hgy : gated y c = 0 := by rw [hy, gated_updateThermal]; exact gate_setGate_self c (by decide) x
  have hny : y.now = x.now := by
    rw [hy]; exact (setGate_gatesMoved c 0 x).now
  have hoy : y.out = s.out ++ [.gate c 0] := by
    rw [hy, ← hox]
    show (setGate c 0 x).out = _
    rw [setGate, if_neg hgx]; rfl
  rw [← hy] at hex hky
  have hm := stepAll_freqMoved y
  have hk := hky.trans (hm.kept.mono (by simp [freqRegs]))
  refine ⟨_, hex, (hm.gated c).trans hgy, ?_, ?_, hk.regs, hk.mem⟩
  · rw [now, hm.now, hny]; exact hnow
  · have hp := List.prefix_iff_eq_take.mp (sentOn_stepAll y).1
    rw [hoy] at hp
    rw [← List.length_singleton (a := Out.gate c 0), ← List.length_append, ← hp]

-- The forecast (R374)

theorem kilnForecast_completes {f : Nat → Nat} {m : Nat}
    (hf : ∀ c, f c = Config.forecast c (clusterTemp s c) (mget 0 s.pwr.estimate (c / 8))
      ((hintsAhead s 16000000).foldl (fun a b => a + b) 0) (startsAhead s) (coolantUsed s))
    (hle : ∀ c, c < 32 → f c ≤ m) (hm : ∃ c, c < 32 ∧ f c = m) :
    Completes .kilnForecast s (fun u =>
      rdF u Reg.thermalForecast 63 52 = min 4095 m
        ∧ (8 * rdF s Reg.forecastCtrl 7 0 ≤ m → rdB u Reg.thermalEvent 3 = true
            ∧ u.out = s.out ++ [.pldm 65 (wd (Config.flowRequest m % 128))])
        ∧ (m < 8 * rdF s Reg.forecastCtrl 7 0 → u.out = s.out)
        ∧ RegsKept [Reg.thermalForecast, Reg.thermalEvent] s u ∧ MemKept s u) := by
  obtain ⟨h, hh⟩ : ∃ h, h = ((List.range 32).map (fun c => (f c, c))).foldl hotterOf (0, 0) := ⟨_, rfl⟩
  have h1 : h.1 = m ∧ h.2 < 32 := by
    have hge := (foldl_hotterOf_ge ((List.range 32).map (fun c => (f c, c))) (0, 0)).2
    rw [← hh] at hge
    obtain ⟨c, hc, rfl⟩ := hm
    have h0 : f c ≤ h.1 := hge (f c, c) (List.mem_map.mpr ⟨c, List.mem_range.mpr hc, rfl⟩)
    obtain hz | hin := foldl_hotterOf_mem ((List.range 32).map (fun c => (f c, c))) (0, 0)
    · rw [← hh] at hz
      rw [hz] at h0 ⊢
      exact ⟨(Nat.le_zero.mp h0).symm, by decide⟩
    · rw [← hh] at hin
      obtain ⟨k, hk, hke⟩ := List.mem_map.mp hin
      have := hle k (List.mem_range.mp hk)
      rw [← hke] at h0 ⊢
      exact ⟨le_antisymm this h0, List.mem_range.mp hk⟩
  obtain ⟨flow, hflow⟩ : ∃ n, n = if decide (8 * rdF s Reg.forecastCtrl 7 0 ≤ h.1) then Config.flowRequest h.1 % 128 else 0 := ⟨_, rfl⟩
  obtain ⟨x, hx⟩ : ∃ x, x = wrReg Reg.thermalForecast (wd (min 4095 h.1 * 2 ^ 52 + h.2 * 2 ^ 46 + flow)) s := ⟨_, rfl⟩
  have hex : exec .kilnForecast s = ok (if decide (8 * rdF s Reg.forecastCtrl 7 0 ≤ h.1) then
      x |> orReg Reg.thermalEvent (2 ^ 3) |> emit (.pldm 65 (wd flow)) else x) := by
    rw [hx, hflow, hh]
    simp only [hf]
    rfl
  have hlt : flow < 128 := by
    rw [hflow]
    split
    · exact Nat.mod_lt _ (by decide)
    · decide
  have hfld : rdF x Reg.thermalForecast 63 52 = min 4095 m := by
    rw [hx, rdF, rd_wrReg_self, fld_wd _ (by decide), h1.1]
    obtain ⟨-, h2⟩ := h1
    omega
  have hkx : Kept [Reg.thermalForecast, Reg.thermalEvent] s x := by rw [hx]; exact (Kept.refl _ s).wrReg (by simp) _
  have hox : x.out = s.out := by rw [hx]; rfl
  rw [h1.1] at hex hflow
  by_cases hhot : 8 * rdF s Reg.forecastCtrl 7 0 ≤ m
  · rw [if_pos (decide_eq_true hhot)] at hex hflow
    refine ⟨_, hex, ?_, fun _ => ⟨rdB_orReg_pow _ _ (i := 3) (by decide), ?_⟩, fun hc => absurd hhot (by omega),
      (hkx.orReg (by simp) _).regs, (hkx.orReg (by simp) (a := Reg.thermalEvent) 8).mem⟩
    · exact (rdF_orReg_ne _ _ _ _ (by decide)).trans hfld
    · rw [← hflow, ← hox]; rfl
  · rw [if_neg (by simpa using hhot)] at hex
    exact ⟨_, hex, hfld, fun hc => absurd hc hhot, fun _ => hox, hkx.regs, hkx.mem⟩

-- Coolant (R375)

/-- A write of the coolant's data shows in the state but for its count in the audit log (R375). -/
def coolantNoted (v : Word) (s : State) : State :=
  let inlet := fld v 63 56
  let flow := fld v 55 40
  let s := { s with pwr := { s.pwr with coolantAt := some (now s) } }
    |> wrReg Reg.coolant (wd (inlet * 2 ^ 56 + flow * 2 ^ 40))
  if coolantOut inlet flow then orReg Reg.thermalEvent (2 ^ 5) s else s

theorem coolantNoted_spec (v : Word) (s : State) :
    rdF (coolantNoted v s) Reg.coolant 63 56 = fld v 63 56 ∧ rdF (coolantNoted v s) Reg.coolant 55 40 = fld v 55 40
      ∧ (coolantNoted v s).pwr.coolantAt = some (now s) ∧ (coolantNoted v s).now = s.now
      ∧ (fld v 63 56 < 17 ∨ 45 < fld v 63 56 ∨ fld v 55 40 < 150 → rdB (coolantNoted v s) Reg.thermalEvent 5 = true)
      ∧ Kept [Reg.coolant, Reg.thermalEvent] s (coolantNoted v s) := by
  obtain ⟨x, hx⟩ : ∃ x, x = wrReg Reg.coolant (wd (fld v 63 56 * 2 ^ 56 + fld v 55 40 * 2 ^ 40))
    { s with pwr := { s.pwr with coolantAt := some (now s) } } := ⟨_, rfl⟩
  have he : coolantNoted v s = if coolantOut (fld v 63 56) (fld v 55 40) then orReg Reg.thermalEvent (2 ^ 5) x else x := by
    rw [hx]; rfl
  have hi : fld v 63 56 < 2 ^ 8 := fld_lt v 63 56
  have hfl : fld v 55 40 < 2 ^ 16 := fld_lt v 55 40
  have h1 : rdF x Reg.coolant 63 56 = fld v 63 56 ∧ rdF x Reg.coolant 55 40 = fld v 55 40 := by
    rw [hx, rdF, rdF, rd_wrReg_self, fld_wd _ (by decide), fld_wd _ (by decide)]
    constructor <;> omega
  have hk : Kept [Reg.coolant, Reg.thermalEvent] s x := by
    rw [hx]; exact ((Kept.refl _ s).withPwr _).wrReg (by simp) _
  have hp : x.pwr.coolantAt = some (now s) ∧ x.now = s.now := by rw [hx]; exact ⟨rfl, rfl⟩
  rw [he]
  split
  · exact ⟨(rdF_orReg_ne _ _ _ _ (by decide)).trans h1.1, (rdF_orReg_ne _ _ _ _ (by decide)).trans h1.2, hp.1, hp.2,
      fun _ => rdB_orReg_pow _ _ (i := 5) (by decide), hk.orReg (by simp) _⟩
  · next hout => exact ⟨h1.1, h1.2, hp.1, hp.2, fun hc => absurd (decide_eq_true hc) hout, hk⟩

theorem coolantWrite_completes (hm : mayWrite s .installer who = true) (v : Word) :
    Completes (.coolantWrite who v) s (fun u =>
      rdF u Reg.coolant 63 56 = fld v 63 56 ∧ rdF u Reg.coolant 55 40 = fld v 55 40 ∧ coolantAge u = 0
        ∧ (fld v 63 56 < 17 ∨ 45 < fld v 63 56 ∨ fld v 55 40 < 150 → rdB u Reg.thermalEvent 5 = true)
        ∧ RegsKept [Reg.coolant, Reg.thermalEvent, Reg.auditHead] s u ∧ MemKept s u) := by
  have hex : exec (.coolantWrite who v) s = ok (addSat Reg.auditHead 63 32 1 (coolantNoted v s)) := by
    refine congrArg ok ((answered_withRoleDo _ _ hm).trans ?_)
    rw [logOutcome, if_pos (by decide)]; rfl
  obtain ⟨h1, h2, h3, h4, h5, h6⟩ := coolantNoted_spec v s
  generalize coolantNoted v s = x at hex h1 h2 h3 h4 h5 h6
  have hk := (h6.mono (l' := [Reg.coolant, Reg.thermalEvent, Reg.auditHead]) (by simp)).addSat
    (a := Reg.auditHead) (by simp) 63 32 1
  refine ⟨_, hex, (rdF_wrF_ne _ _ _ _ _ _ (by decide)).trans h1, (rdF_wrF_ne _ _ _ _ _ _ (by decide)).trans h2, ?_,
    fun hc => (rdB_wrF_ne _ _ _ _ _ (by decide)).trans (h5 hc), hk.regs, hk.mem⟩
  show (match x.pwr.coolantAt with | none => 0 | some t => min (2 ^ 32 - 1) ((x.now.toNat - t) / 1600000)) = 0
  rw [h3, h4]
  simp [now]

theorem coolantAge_of_some (h : s.pwr.coolantAt = some t) : coolantAge s = min (2 ^ 32 - 1) ((now s - t) / 1600000) := by
  unfold coolantAge; rw [h]

theorem coolantUsed_of_stale (h : 10000 < coolantAge s) : coolantUsed s = 45 * 2 ^ 16 + 150 := by
  unfold coolantUsed; rw [if_pos (Or.inr h)]

theorem exec_coolantStale (hat : s.pwr.coolantAt = some t) : exec .coolantStale s
    = ok (orReg Reg.thermalEvent (2 ^ 4) (clockTo (t + 16000000000 + 1600000) s)) := by
  show execCoolantStale s = _
  unfold execCoolantStale
  rw [hat]

theorem pwr_clockTo (t : Nat) (s : State) : (clockTo t s).pwr = s.pwr := by
  obtain ⟨co, n, he⟩ := clockTo_cases s t
  rw [he]

/-- Data that is 10 s old or older is stale (R375). -/
theorem stale_of_now {x : State} (hp : x.pwr = s.pwr) (hat : s.pwr.coolantAt = some t) (h : t + 16001600000 ≤ now x) :
    10000 < coolantAge x := by
  rw [coolantAge_of_some ((congrArg Pwr.coolantAt hp).trans hat)]
  omega

theorem coolantStale_completes (hat : s.pwr.coolantAt = some t) (hlt : t + 16001600000 < 2 ^ 64) :
    Completes .coolantStale s (fun u =>
      rdB u Reg.thermalEvent 4 = true ∧ 10000 < coolantAge u ∧ coolantUsed u = 45 * 2 ^ 16 + 150
        ∧ RegsKept [Reg.thermalEvent] s u ∧ MemKept s u) := by
  have hex := exec_coolantStale hat
  obtain ⟨n, hn⟩ : ∃ n, n = t + 16000000000 + 1600000 := ⟨_, rfl⟩
  rw [← hn] at hex
  have hnow := now_clockTo s n (by omega)
  have hk := ((Kept.refl [Reg.thermalEvent] s).clockTo n).orReg (a := Reg.thermalEvent) (by simp) (2 ^ 4)
  have hage : 10000 < coolantAge (orReg Reg.thermalEvent (2 ^ 4) (clockTo n s)) :=
    stale_of_now (s := s) (pwr_clockTo n s) hat (le_trans (by omega) hnow)
  exact ⟨_, hex, rdB_orReg_pow _ _ (by decide), hage, coolantUsed_of_stale hage, hk.regs, hk.mem⟩

-- THROTTLE_IN_N (R376, R377)

theorem throttleInAssert_completes (chatter : Bool) (h : s.pwr.extIn = false) :
    Completes (.throttleInAssert chatter) s (fun u =>
      u.pwr.extIn = true ∧ rdB u Reg.powerEvent 3 = true ∧ (∀ t, (tl u t).ballast = 0)
        ∧ (∀ p, p < 4 → freqOf u p = (decideFreq u p).2 ∨ p ∈ u.pwr.request)
        ∧ RegsKept [Reg.powerStatus, Reg.ffBreach, Reg.powerEvent] s u ∧ MemKept s u) := by
  obtain ⟨x, hx⟩ : ∃ x, x = orReg Reg.powerEvent (2 ^ 3) { s with pwr := { s.pwr with extIn := true, extSince := now s } } :=
    ⟨_, rfl⟩
  have hex : exec (.throttleInAssert chatter) s = ok (stepAll (stopBallast x)) := by
    rw [hx]
    exact congrArg ok (if_neg (by rw [h]; decide))
  have he : x.pwr.extIn = true := by rw [hx]; rfl
  have hb : rdB x Reg.powerEvent 3 = true := by rw [hx]; exact rdB_orReg_pow _ _ (by decide)
  have hkx : Kept freqRegs s x := by
    rw [hx]; exact ((Kept.refl freqRegs s).withPwr _).orReg (a := Reg.powerEvent) (by decide) _
  have hm := stepAll_freqMoved (stopBallast x)
  have hk := hkx.stopBallast.trans hm.kept
  refine ⟨_, hex, ?_, ?_, fun t => ?_, fun p hp => dieSettled_stepAll hp _, hk.regs, hk.mem⟩
  · rw [hm.pwr, stopBallast_pwr]; exact he
  · exact hm.event 3 (by rw [rdB, rd_stopBallast]; exact hb)
  · rw [tl, (sentOn_stepAll (stopBallast x)).2]
    exact ballast_stopBallast he t

theorem throttleInDeassert_completes (s : State) : Completes .throttleInDeassert s (fun u => u.pwr.extIn = false
    ∧ (∀ p, p < 4 → freqOf u p = (decideFreq u p).2 ∨ p ∈ u.pwr.request)
    ∧ RegsKept [Reg.powerStatus, Reg.ffBreach, Reg.powerEvent] s u ∧ MemKept s u) := by
  obtain ⟨x, hx⟩ : ∃ x : State, x = { s with pwr := { s.pwr with extIn := false } } := ⟨_, rfl⟩
  have hex : exec .throttleInDeassert s = ok (stepAll x) := by rw [hx]; rfl
  have hm := stepAll_freqMoved x
  have hkx : Kept freqRegs s x := by rw [hx]; exact (Kept.refl freqRegs s).withPwr _
  have hk := hkx.trans hm.kept
  refine ⟨_, hex, ?_, fun p hp => dieSettled_stepAll hp _, hk.regs, hk.mem⟩
  rw [hm.pwr, hx]

theorem extLatched_completes (hin : s.pwr.extIn = true) (hf : s.pwr.floor = false) (hlt : s.pwr.extSince + 160000001 < 2 ^ 64) :
    Completes .extLatched s (fun u =>
      u.pwr.floor = true ∧ (∀ c, c < 32 → gated u c = 8) ∧ rdB u Reg.powerEvent 2 = true
        ∧ rdB u Reg.faultStatus 25 = true ∧ s.pwr.extSince + 160000001 ≤ now u ∧ MemKept s u) := by
  have hnow := now_clockTo s (s.pwr.extSince + 160000000 + 1) (by omega)
  have hkx := (Kept.refl [] s).clockTo (s.pwr.extSince + 160000000 + 1)
  obtain ⟨x, hx⟩ : ∃ x, x = clockTo (s.pwr.extSince + 160000000 + 1) s := ⟨_, rfl⟩
  obtain ⟨y, hy⟩ : ∃ y, y = orReg Reg.powerEvent (2 ^ 2) { x with pwr := { x.pwr with floor := true } } := ⟨_, rfl⟩
  have hex : exec .extLatched s = ok (updateThermal (stepAll (recordControl 25 true none [] (holdFloor y)))) := by
    rw [hy, hx]
    exact congrArg ok (if_pos ⟨hin, by rw [hf]; rfl⟩)
  rw [← hx] at hnow hkx
  have hyf : y.pwr.floor = true ∧ y.now = x.now := by rw [hy]; exact ⟨rfl, rfl⟩
  have hyb : rdB y Reg.powerEvent 2 = true := by rw [hy]; exact rdB_orReg_pow _ _ (by decide)
  have hym : MemKept s y := by rw [hy]; exact hkx.mem
  have hh := holdFloor_gatesMoved y
  have hg := fun c hc => gate_holdFloor (c := c) hc y
  generalize holdFloor y = z at hex hh hg
  have hr := kept_recordControl 25 true none [] z
  have hrp := recordControl_pwr 25 true none [] z
  have hrn := recordControl_now 25 true none [] z
  have hrb := rdB_recordControl (src := 25) true none [] z (by decide)
  generalize recordControl 25 true none [] z = r at hex hr hrp hrn hrb
  have hm := stepAll_freqMoved r
  have ht := kept_updateThermal (stepAll r)
  refine ⟨_, hex, ?_, fun c hc => ?_, ?_, ?_, ?_, fun a => ?_⟩
  · show (stepAll r).pwr.floor = true
    rw [hm.pwr, hrp, hh.pwr]; exact hyf.1
  · rw [gated_updateThermal, hm.gated, gated, rdF, hr.regs _ (by
      simp only [List.mem_cons, List.not_mem_nil, or_false, Reg.cluster, Reg.faultStatus, Reg.firstSource]; omega)]
    exact hg c hc
  · rw [rdB, ht.regs _ (by decide)]
    refine hm.event 2 ?_
    rw [rdB, hr.regs _ (by decide), hh.regs _ (fun c => by simp only [Reg.powerEvent, Reg.cluster]; omega)]
    exact hyb
  · rw [rdB, ht.regs _ (by decide), hm.kept.regs _ (by decide)]
    exact hrb
  · show _ ≤ (stepAll r).now.toNat
    rw [hm.now, hrn, hh.now, hyf.2]
    exact hnow
  · rw [ht.mem, hm.kept.mem, hr.mem, hh.mem, hym]

/-- Settles O49: each command's registers are read off its state, after the trip, the floor and the dies' steps. -/
theorem thermalControl : Obligations.ThermalControl := by
  unfold Obligations.ThermalControl
  intro s
  exact ⟨fun temps h4 _ => sensorRead_completes temps s h4, fun c aim hc hg ha => throttleAdjust_completes hc hg ha,
    fun c hc hg hcool hf hcap hlt => throttleRelease_completes hc hg hcool hf hcap hlt,
    fun f hf m hle hm => kilnForecast_completes hf hle hm, fun who v hm => coolantWrite_completes hm v,
    fun t hat hlt => coolantStale_completes hat hlt, fun chatter h => throttleInAssert_completes chatter h,
    throttleInDeassert_completes s, fun hin hf hlt => extLatched_completes hin hf hlt⟩

end Sys2Proof.Machine
end

section
/-! PROOFS. What sending, losing and retraining a port leave of its link (R227–R248, R259–R264). -/

namespace Sys2Proof.Machine

variable {s u v : State} {n m b : Nat}

-- The registers of a link

/-- The registers of a port that show its link, below those of its credits (R249). -/
def LowPort (n a : Nat) : Prop := Reg.portBase n ≤ a ∧ a < Reg.portBase n + 0x80

/-- The registers of a port's link are kept. -/
def LinkRegs (n : Nat) (s u : State) : Prop := ∀ a, LowPort n a → rd u a = rd s a

theorem LinkRegs.refl (n : Nat) (s : State) : LinkRegs n s s := fun _ _ => rfl

theorem LinkRegs.trans (h : LinkRegs n s u) (h' : LinkRegs n u v) : LinkRegs n s v := fun a ha => (h' a ha).trans (h a ha)

theorem LinkRegs.of_same (h : LinkRegs n s u) (hr : v.regs = u.regs) : LinkRegs n s v := h.trans fun a _ => by rw [rd, rd, hr]

theorem LinkRegs.wrReg (h : LinkRegs n s u) {a : Nat} (ha : ¬ LowPort n a) (w : Word) : LinkRegs n s (wrReg a w u) :=
  h.trans fun _ hb => rd_wrReg_ne u w fun he => ha (he ▸ hb)

theorem LinkRegs.foldl {α : Type} {f : State → α → State} (l : List α) (hf : ∀ v, ∀ x ∈ l, LinkRegs n v (f v x)) (s : State) :
    LinkRegs n s (l.foldl f s) :=
  List.foldlRecOn _ _ (LinkRegs.refl n s) fun _ hv x hx => hv.trans (hf _ x hx)

theorem lowPort_range (hn : n < 32) {a : Nat} (h : LowPort n a) : 0xC0000 ≤ a ∧ a < 0x1000000 := by
  obtain ⟨h1, h2⟩ := h
  rw [Reg.portBase] at h1 h2
  omega

theorem not_lowPort_of_lt {a : Nat} (h : a < 0x100000) : ¬ LowPort n a := fun ⟨h1, _⟩ => by
  rw [Reg.portBase] at h1
  omega

theorem not_lowPort_of_ne {a : Nat} (hm : m ≠ n) (h1 : Reg.portBase m ≤ a) (h2 : a < Reg.portBase m + 0x10000) :
    ¬ LowPort n a := fun ⟨h3, h4⟩ => by
  rw [Reg.portBase] at h1 h2 h3 h4
  omega

theorem PairKept.linkRegs (h : PairKept s u) (hn : n < 32) : LinkRegs n s u := fun a ha =>
  h.regs a (lowPort_range hn ha).1 (lowPort_range hn ha).2

theorem LinkRegs.portState (h : LinkRegs n s u) : portState u n = portState s n := by
  rw [Machine.portState, rdF, h _ ⟨by simp only [Reg.portStatus]; omega, by simp only [Reg.portStatus]; omega⟩]; rfl

theorem bondOf_lt (h : bondOf s n = some b) : b < 12 := by
  unfold bondOf at h
  split at h
  · next c hc =>
    cases h
    exact List.mem_range.mp (List.mem_of_find?_eq_some hc)
  · dsimp only at h
    split at h
    · split at h
      · next hlt => cases h; exact hlt
      · cases h
    · cases h

-- What sending leaves (R226–R241)

/-- A port's record but for what sending changes of it. -/
def linkOf (p : Port) : Port :=
  { p with txSeq := 0, replay := [], held := [], ackStart := 0, owed := [], lastOwed := 0, returned := [], stall := [] }

/-- A register that neither a port's link nor the fabric's time has. -/
def Apart (n a : Nat) : Prop := ¬ LowPort n a ∧ (a < 0x60000 ∨ 0x60400 ≤ a)

/-- What sending flits leaves alone of a port. -/
structure Sends (n : Nat) (s u : State) : Prop where
  link : LinkRegs n s u
  fabric : ∀ a, 0x60000 ≤ a → a < 0x60400 → rd u a = rd s a
  mem : MemKept s u
  now : u.now = s.now
  port : linkOf (prt u n) = linkOf (prt s n)
  out : ∀ o ∈ s.out, o ∈ u.out

theorem Sends.refl (n : Nat) (s : State) : Sends n s s :=
  ⟨LinkRegs.refl n s, fun _ _ _ => rfl, fun _ => rfl, rfl, rfl, fun _ h => h⟩

theorem Sends.trans (h : Sends n s u) (h' : Sends n u v) : Sends n s v where
  link := h.link.trans h'.link
  fabric a h1 h2 := (h'.fabric a h1 h2).trans (h.fabric a h1 h2)
  mem a := (h'.mem a).trans (h.mem a)
  now := h'.now.trans h.now
  port := h'.port.trans h.port
  out o ho := h'.out o (h.out o ho)

theorem Sends.wrReg (h : Sends n s u) {a : Nat} (ha : Apart n a) (w : Word) : Sends n s (wrReg a w u) :=
  h.trans ⟨(LinkRegs.refl n u).wrReg ha.1 w, fun _ h1 h2 => rd_wrReg_ne u w (by have := ha.2; omega), fun _ => rfl, rfl, rfl,
    fun _ ho => ho⟩

theorem Sends.onPrt (h : Sends n s u) {f : Port → Port} (hf : ∀ p, linkOf (f p) = linkOf p) (m : Nat) :
    Sends n s (onPrt m f u) := by
  refine h.trans ⟨fun _ _ => rfl, fun _ _ _ => rfl, fun _ => rfl, rfl, ?_, fun _ ho => ho⟩
  by_cases hm : n = m
  · subst hm; rw [prt_onPrt_self]; exact hf _
  · rw [prt_onPrt_ne _ _ hm]

theorem Sends.onBnd (h : Sends n s u) (b : Nat) (f : Bond → Bond) : Sends n s (onBnd b f u) :=
  h.trans ⟨fun _ _ => rfl, fun _ _ _ => rfl, fun _ => rfl, rfl, rfl, fun _ ho => ho⟩

theorem Sends.emit (h : Sends n s u) (o : Out) : Sends n s (emit o u) :=
  h.trans ⟨fun _ _ => rfl, fun _ _ _ => rfl, fun _ => rfl, rfl, rfl, fun _ ho => List.mem_append_left _ ho⟩

theorem Sends.foldl {α : Type} {f : State → α → State} (l : List α) (hf : ∀ v, ∀ x ∈ l, Sends n v (f v x)) (s : State) :
    Sends n s (l.foldl f s) :=
  List.foldlRecOn _ _ (Sends.refl n s) fun _ hv x hx => hv.trans (hf _ x hx)

/-- A channel whose counters do not reach into another port's registers, or the port's own. -/
def OwnChannel (n m v : Nat) : Prop := v < 8 ∨ m = n

theorem apart_creditState {c : Nat} (h : OwnChannel n m c) : Apart n (Reg.creditState m c) := by
  refine ⟨fun ⟨h1, h2⟩ => ?_, Or.inr ?_⟩
  · simp only [Reg.creditState, Reg.portBase] at h1 h2
    obtain h | rfl := h <;> omega
  · simp only [Reg.creditState, Reg.portBase]; omega

theorem apart_congLive {c w : Nat} (h : OwnChannel n m c) (hw : w < 2) : Apart n (Reg.congLive m c w) := by
  refine ⟨fun ⟨h1, h2⟩ => ?_, Or.inr ?_⟩
  · simp only [Reg.congLive, Reg.portBase] at h1 h2
    obtain h | rfl := h <;> omega
  · simp only [Reg.congLive, Reg.portBase]; omega

theorem apart_bond (hb : b < 12) : Apart n (Reg.bond b) :=
  ⟨not_lowPort_of_lt (by rw [Reg.bond]; omega), Or.inr (by rw [Reg.bond]; omega)⟩

theorem apart_routeEvent : Apart n Reg.routeEvent :=
  ⟨not_lowPort_of_lt (by rw [Reg.routeEvent]; omega), Or.inr (by rw [Reg.routeEvent]; omega)⟩

theorem linkOf_takeReturn (p : Port) : linkOf (takeReturn p).2.2 = linkOf p := by
  unfold takeReturn
  split <;> rfl

theorem sends_endStall {c : Nat} (h : OwnChannel n m c) (s : State) : Sends n s (endStall m c s) := by
  have hc : Sends n s (countStall m c s) := by
    unfold countStall
    split
    · exact Sends.refl n s
    · exact (Sends.refl n s).wrReg (apart_congLive h (by decide)) _
  exact hc.onPrt (f := fun x => { x with stall := mset 0 x.stall c 0 }) (fun _ => rfl) m

theorem sends_endStalls (n m : Nat) (s : State) : Sends n s (endStalls m s) :=
  Sends.foldl _ (fun _ _ hv => sends_endStall (Or.inl (List.mem_range.mp hv)) _) s

theorem prt_endStall_of_ne {c : Nat} (h : n ≠ m) (s : State) : prt (endStall m c s) n = prt s n := by
  unfold endStall
  rw [prt_onPrt_ne _ _ h]
  unfold countStall
  split <;> rfl

/-- A port's record once a new flit is sent (R226–R230). -/
def sentPort (x : SeqFlit) (now : Nat) (p : Port) (stall : Map Nat) : Port :=
  { (takeReturn p).2.2 with
    stall := stall
    txSeq := (p.txSeq + 1) % 4096
    replay := p.replay ++ [{ x with
      seq := p.txSeq
      flit := mkFlit x.flit.data (flitType x.flit) (ackSeq p) (takeReturn p).1 (takeReturn p).2.1 p.txSeq }]
    ackStart := if p.replay = [] then now else p.ackStart }

theorem linkOf_sentPort (x : SeqFlit) (now : Nat) (p : Port) (stall : Map Nat) :
    linkOf (sentPort x now p stall) = linkOf p := (Eq.refl (linkOf (takeReturn p).2.2)).trans (linkOf_takeReturn p)

theorem sends_sendSeq {x : SeqFlit} (h : OwnChannel n m x.vc) (s : State) : Sends n s (sendSeq m x s) := by
  obtain ⟨y, hy⟩ : ∃ y, y = endStall m x.vc s := ⟨_, rfl⟩
  have h0 : Sends n s y := hy ▸ sends_endStall h s
  obtain ⟨z, hz⟩ : ∃ z, z = onPrt m (fun y => sentPort x (now s) (prt s m) y.stall) y := ⟨_, rfl⟩
  have h1 : Sends n s z := by
    rw [hz]
    refine h0.trans ⟨fun _ _ => rfl, fun _ _ _ => rfl, fun _ => rfl, rfl, ?_, fun _ ho => ho⟩
    by_cases hm : n = m
    · subst hm
      rw [prt_onPrt_self, linkOf_sentPort]
      exact h0.port.symm
    · rw [prt_onPrt_ne _ _ hm]
  have he : sendSeq m x s = emit (.flit m (mkFlit x.flit.data (flitType x.flit) (ackSeq (prt s m)) (takeReturn (prt s m)).1
      (takeReturn (prt s m)).2.1 (prt s m).txSeq)) (addSat (Reg.congLive m x.vc 0) 63 0 1
      (wrF (Reg.creditState m x.vc) 31 16 (available s m x.vc - 1) z)) := by
    rw [hz, hy]; rfl
  rw [he]
  exact ((h1.wrReg (apart_creditState h) _).wrReg (apart_congLive h (by decide)) _).emit _

theorem sends_putFlit {x : SeqFlit} (h : OwnChannel n m x.vc) (s : State) : Sends n s (putFlit m x s) := by
  unfold putFlit
  split
  · exact sends_sendSeq h s
  · exact (Sends.refl n s).onPrt (f := fun p => { p with held := p.held ++ [x] }) (fun _ => rfl) m

theorem sends_beginStall (n m c : Nat) (s : State) : Sends n s (beginStall m c s) := by
  unfold beginStall startStall
  split
  · split
    · refine (Sends.refl n s).onPrt (f := fun x => if mget 0 x.stall c = 0 then { x with stall := mset 0 x.stall c (now s + 1) } else x)
        (fun p => ?_) m
      split <;> rfl
    · exact Sends.refl n s
  · exact Sends.refl n s

theorem sends_flushHeld (n k : Nat) (s : State) : Sends n s (flushHeld n k s) := by
  induction k generalizing s with
  | zero => exact Sends.refl n s
  | succ k ih =>
    unfold flushHeld
    split
    · exact Sends.refl n s
    · next x r _ =>
      split
      · have h1 := (Sends.refl n s).onPrt (f := fun p => { p with held := r }) (fun _ => rfl) n
        exact (h1.trans (sends_sendSeq (Or.inr rfl) _)).trans (ih _)
      · exact sends_beginStall n n _ s

theorem sends_sendIdle (n m : Nat) (s : State) : Sends n s (sendIdle m s) := by
  unfold sendIdle
  refine Sends.emit ?_ _
  refine ⟨fun _ _ => rfl, fun _ _ _ => rfl, fun _ => rfl, rfl, ?_, fun _ ho => ho⟩
  by_cases hm : n = m
  · subst hm; rw [prt_onPrt_self]; exact linkOf_takeReturn _
  · rw [prt_onPrt_ne _ _ hm]

theorem sends_returnCredits (n m k : Nat) (s : State) : Sends n s (returnCredits m k s) := by
  induction k generalizing s with
  | zero => exact Sends.refl n s
  | succ k ih =>
    unfold returnCredits
    split
    · exact (sends_sendIdle n m s).trans (ih _)
    · exact Sends.refl n s

theorem sends_sendCtrl (n m what : Nat) (s : State) : Sends n s (sendCtrl m what s) := by
  unfold sendCtrl
  refine Sends.emit ?_ _
  refine ⟨fun _ _ => rfl, fun _ _ _ => rfl, fun _ => rfl, rfl, ?_, fun _ ho => ho⟩
  by_cases hm : n = m
  · subst hm; rw [prt_onPrt_self]; exact linkOf_takeReturn _
  · rw [prt_onPrt_ne _ _ hm]

-- A bond's rotation is announced (R259, R262)

theorem Sends.setRot (h : Sends n s u) (hb : b < 12) (members full : Nat) : Sends n s (setRot b members full u) :=
  (h.wrReg (apart_bond hb) _).onBnd b _

/-- Flits of a bond's map are put on a port, at the place that the bond has reached. -/
theorem sends_putMap (m b : Nat) (l : List Flit) (s : State) : Sends n s (l.foldl (fun s f =>
    putFlit m { pos := some (bnd s b).pos, vc := 7, flit := f } s) s) :=
  Sends.foldl l (fun v _ _ => sends_putFlit (Or.inl (show 7 < 8 by decide)) v) s

theorem Sends.ite {c : Prop} [Decidable c] (hu : Sends n s u) (hv : Sends n s v) : Sends n s (if c then u else v) := by
  split
  · exact hu
  · exact hv

theorem sends_announceRot (hb : b < 12) (members full : Nat) (s : State) : Sends n s (announceRot b members full s) := by
  unfold announceRot
  split
  · split
    · exact Sends.refl n s
    · next m _ _ =>
      exact ((sends_putMap m b _ s).onBnd b _).setRot hb members full
  · exact (Sends.refl n s).onBnd b _

theorem sends_joinBond (n m : Nat) (s : State) : Sends n s (joinBond m s) := by
  unfold joinBond
  split
  · exact Sends.refl n s
  · next b hb =>
    exact Sends.ite ((Sends.refl n s).wrReg apart_routeEvent _)
      (Sends.ite (Sends.refl n s) (sends_announceRot (bondOf_lt hb) _ _ s))

theorem sends_leaveBond (n m : Nat) (s : State) : Sends n s (leaveBond m s) := by
  unfold leaveBond
  split
  · exact Sends.refl n s
  · next b hb => exact sends_announceRot (bondOf_lt hb) _ _ s

theorem sends_putPacket {p : Packet} (h : OwnChannel n m p.vc) (s : State) : Sends n s (putPacket m p s) := by
  refine Sends.foldl _ (fun v x hx => sends_putFlit ?_ v) s
  obtain ⟨f, _, rfl⟩ := List.mem_map.mp hx
  exact h

theorem checkLink_frame (n : Nat) (l : List Nat) (s : State) :
    ∃ r rs, checkLink n l s = { s with regs := r, flt := { s.flt with reactions := rs } } := by
  unfold checkLink
  split
  · exact recordControl_frame _ _ _ _ s
  · exact ⟨s.regs, s.flt.reactions, rfl⟩

theorem rd_checkLink (l : List Nat) {a : Nat} (h : 0x40000 ≤ a) (s : State) : rd (checkLink n l s) a = rd s a := by
  unfold checkLink
  split
  · exact (kept_recordControl _ _ _ _ s).regs a (by
      simp only [List.mem_cons, List.not_mem_nil, or_false, Reg.faultStatus, Reg.firstSource]; omega)
  · rfl

theorem sends_checkLink (n m : Nat) (l : List Nat) (s : State) : Sends n s (checkLink m l s) := by
  obtain ⟨r, rs, h⟩ := checkLink_frame m l s
  refine ⟨fun a ha => rd_checkLink l ?_ s, fun a h1 _ => rd_checkLink l (by omega) s, ?_, by rw [h], by rw [h]; rfl, ?_⟩
  · have := ha.1
    rw [Reg.portBase] at this
    omega
  · rw [h]; exact fun _ => rfl
  · rw [h]; exact fun _ ho => ho

-- Pitch packets that go on late (R57, R61)

/-- What pitch packets of a port going late leave alone. -/
structure LateWork (n : Nat) (s u : State) : Prop where
  ports : u.ports = s.ports
  now : u.now = s.now
  mem : MemKept s u
  regs : ∀ a, 0x60000 ≤ a → a < 0x1000000 → a ≠ Reg.portPitch n → rd u a = rd s a
  pitch : pitchState u n = pitchState s n

theorem LateWork.refl (n : Nat) (s : State) : LateWork n s s := ⟨rfl, rfl, fun _ => rfl, fun _ _ _ _ => rfl, rfl⟩

theorem LateWork.trans (h : LateWork n s u) (h' : LateWork n u v) : LateWork n s v where
  ports := h'.ports.trans h.ports
  now := h'.now.trans h.now
  mem a := (h'.mem a).trans (h.mem a)
  regs a h1 h2 h3 := (h'.regs a h1 h2 h3).trans (h.regs a h1 h2 h3)
  pitch := h'.pitch.trans h.pitch

theorem LateWork.of_same (h : LateWork n s u) (hp : v.ports = u.ports) (hn : v.now = u.now) (hm : v.mem = u.mem)
    (hr : v.regs = u.regs) : LateWork n s v :=
  h.trans ⟨hp, hn, fun a => by rw [memByte, memByte, hm], fun a _ _ _ => by rw [rd, rd, hr], by
    rw [pitchState, pitchState, rdF, rdF, rd, rd, hr]⟩

theorem LateWork.foldl {α : Type} {f : State → α → State} (l : List α) (hf : ∀ v x, LateWork n v (f v x)) (s : State) :
    LateWork n s (l.foldl f s) :=
  List.foldlRecOn _ _ (LateWork.refl n s) fun _ hv x _ => hv.trans (hf _ x)

theorem UnitRegs.lateWork (h : UnitRegs s u) (hn : n < 32) (hnow : u.now = s.now) (hm : MemKept s u) : LateWork n s u :=
  ⟨h.ports, hnow, hm, fun a h1 h2 _ => h.regs a (by omega) h2, by
    rw [pitchState, rdF, h.regs _ (by rw [Reg.portPitch]; omega) (by rw [Reg.portPitch]; omega)]; rfl⟩

theorem now_inject (p : Packet) (s : State) : (inject p s).now = s.now := by
  unfold inject
  dsimp only
  split <;> rfl

theorem mem_inject (p : Packet) (s : State) : MemKept s (inject p s) := by
  unfold inject
  dsimp only
  split <;> exact fun _ => rfl

theorem lateWork_sendLate (hn : n < 32) (e : Option Nat) (p : Packet) (s : State) : LateWork n s (sendLate e p s) := by
  have h0 : LateWork n s (if p.late then s else lateNoteTo p s) := by
    split
    · exact LateWork.refl n s
    · unfold lateNoteTo
      split
      · exact (unitRegs_inject _ s).lateWork hn (now_inject _ s) (mem_inject _ s)
      · exact LateWork.refl n s
  unfold sendLate
  dsimp only
  generalize (if p.late then s else lateNoteTo p s) = x at h0 ⊢
  split
  · exact h0.of_same rfl rfl rfl rfl
  · exact h0.of_same rfl rfl rfl rfl

theorem lateWork_lateForward (hn : n < 32) (e : Option Nat) (p : Packet) (s : State) : LateWork n s (lateForward n e p s) := by
  have h0 : LateWork n s (addSat (Reg.portPitch n) 31 16 (flitCount p) s) :=
    ⟨rfl, rfl, fun _ => rfl, fun a _ _ ha => rd_wrF_ne _ _ _ _ ha, rdF_wrF_other _ _ _ _ _ _ _ (by decide) (by decide) (by decide)⟩
  exact h0.trans (LateWork.foldl _ (fun v c => lateWork_sendLate hn e c v) _)

theorem lateWork_forwardAll (hn : n < 32) (l : List (Nat × Packet)) (s : State) :
    LateWork n s (l.foldl (fun s x => lateForward n none x.2 s) s) := by
  induction l using List.reverseRecOn with
  | nil => exact LateWork.refl n s
  | append_singleton l x ih =>
    rw [List.foldl_append]
    exact ih.trans (lateWork_lateForward hn none x.2 _)

theorem lateWork_markLate (hn : n < 32) (gid num pos : Nat) (s : State) : LateWork n s (markLate gid num pos s) := by
  have hm := (wentLate_markLate gid num pos s).mem
  have h : UnitRegs s (markLate gid num pos s) ∧ (markLate gid num pos s).now = s.now := by
    unfold markLate
    split
    · exact ⟨UnitRegs.refl s, rfl⟩
    · next i _ =>
      split
      · exact ⟨UnitRegs.refl s, rfl⟩
      · refine ⟨UnitRegs.trans ?_ (unitRegs_recordData (by decide) _ _ _), ?_⟩
        · exact (UnitRegs.refl s).of_same rfl rfl
        · obtain ⟨r, rs, hx⟩ := recordData_frame srcDeadline (deadlineOcc _ i.tag stOk) (some (i.tile / 128))
            { setCpl i.tag { cplOf s i.tag with deadline := i.lateBy, late := true } s with
              coll := { s.coll with insts := s.coll.insts.map (fun j =>
                if j.gid = gid ∧ j.num = num ∧ j.pos = pos ∧ j.sub ≠ 6 then { j with late := true } else j) } }
          exact (congrArg State.now hx).trans rfl
  exact h.1.lateWork hn h.2 hm

theorem lateWork_lateAll (hn : n < 32) (s : State) : LateWork n s (lateAll n s) := by
  have h1 : LateWork n s ((s.net.staged.filter (fun h => h.port = n)).foldl (fun s h =>
      match h.coll with | some k => markLate k.1 k.2.1 k.2.2 s | none => s) s) := by
    refine LateWork.foldl _ (fun v h => ?_) s
    split
    · exact lateWork_markLate hn _ _ _ v
    · exact LateWork.refl n v
  unfold lateAll
  dsimp only
  generalize (s.net.staged.filter (fun h => h.port = n)).foldl (fun s h =>
      match h.coll with | some k => markLate k.1 k.2.1 k.2.2 s | none => s) s = x at h1 ⊢
  obtain ⟨y, hy⟩ : ∃ y : State, y = { x with net := { x.net with
    pitchHeld := x.net.pitchHeld.filter (fun h => h.port ≠ n), staged := x.net.staged.filter (fun h => h.port ≠ n) } } := ⟨_, rfl⟩
  have h2 : LateWork n s y := h1.of_same (by rw [hy]) (by rw [hy]) (by rw [hy]) (by rw [hy])
  rw [← hy]
  refine h2.trans (lateWork_forwardAll hn _ y)

-- A retrain begins (R241)

/-- What the start of a retrain leaves. -/
structure RetrainBegun (n : Nat) (s u : State) : Prop where
  state : portState u n = 5
  pitch : pitchState u n = 0
  port : prt u n = { prt s n with since := now s, restPhase := 0 }
  now : u.now = s.now
  mem : MemKept s u
  regs : ∀ a, 0x60000 ≤ a → a < 0x1000000 → a ≠ Reg.portStatus n → a ≠ Reg.portPitch n → rd u a = rd s a

theorem portStatus_range (hn : n < 32) : 0x60000 ≤ Reg.portStatus n ∧ Reg.portStatus n < 0x1000000 := by
  simp only [Reg.portStatus, Reg.portBase]; omega

theorem portStatus_ne_portPitch (n m : Nat) (_ : m < 32) : Reg.portStatus n ≠ Reg.portPitch m := by
  simp only [Reg.portStatus, Reg.portBase, Reg.portPitch]; omega

theorem startRetrain_begun (hn : n < 32) (h : portState s n = 4) : RetrainBegun n s (startRetrain n s) := by
  have hne := portStatus_ne_portPitch n n hn
  obtain ⟨h60, h24⟩ := portStatus_range hn
  obtain ⟨x, hx⟩ : ∃ x, x = wrF (Reg.portPitch n) 63 16 0 (setPortState n 5 s) := ⟨_, rfl⟩
  have h1 : portState x n = 5 := by
    rw [hx]
    exact (rdF_wrF_ne _ _ _ _ _ _ hne).trans (rdF_wrF_fits _ _ (by decide) (by decide) (by decide))
  have h2 : ∀ a, a ≠ Reg.portStatus n → a ≠ Reg.portPitch n → rd x a = rd s a := fun a h3 h4 => by
    rw [hx, rd_wrF_ne _ _ _ _ h4]
    exact rd_wrF_ne _ _ _ _ h3
  have hp : x.ports = s.ports ∧ x.now = s.now ∧ MemKept s x := by rw [hx]; exact ⟨rfl, rfl, fun _ => rfl⟩
  have hl := lateWork_lateAll hn x
  unfold startRetrain
  rw [if_neg (by rw [h]; decide), ← hx]
  generalize lateAll n x = y at hl ⊢
  have hy : prt y n = prt s n := by rw [prt, hl.ports, hp.1]; rfl
  refine ⟨?_, ?_, ?_, hl.now.trans hp.2.1, fun a => (hl.mem a).trans (hp.2.2 a), fun a h3 h4 h5 h6 => ?_⟩
  · have : rd y (Reg.portStatus n) = rd x (Reg.portStatus n) := hl.regs _ h60 h24 hne
    refine (rdF_wrF_ne _ _ _ _ _ _ hne).trans ?_
    rw [rdF, this]
    exact h1
  · exact rdF_wrF_fits _ _ (by decide) (by decide) (by decide)
  · rw [← hy]
    exact prt_onPrt_self (wrF (Reg.portPitch n) 3 2 0 y) n (fun p => { p with since := now s, restPhase := 0 })
  · exact (rd_wrF_ne _ _ _ _ h6).trans ((hl.regs a h3 h4 h6).trans (h2 a h5 h6))

-- A port leaves service (R243, R244, R264)

theorem pairKept_linkDownAck (back : Nat) (p : Packet) (s : State) : PairKept s (linkDownAck back p s) := by
  unfold linkDownAck
  split
  · unfold linkDownOwn
    dsimp only
    split
    · refine PairKept.trans (u := noteError p.tag 0x00E s) ?_ (pairKept_failTag _ _ _ _)
      unfold noteError
      dsimp only
      split
      · exact (PairKept.refl s).of_same rfl rfl
      · exact PairKept.refl s
    · exact PairKept.refl s
  · exact (unitRegs_inject _ s).pair

theorem pairKept_answerDropped (p : Packet) (s : State) : PairKept s (answerDropped p s) := by
  unfold answerDropped
  split
  · exact pairKept_linkDownAck _ p s
  · split
    · split
      · exact PairKept.refl s
      · exact pairKept_linkDownAck _ p s
    · split
      · unfold linkDownColl
        dsimp only
        split
        · exact PairKept.refl s
        · exact ((unitRegs_inject _ s).trans (unitRegs_inject _ _)).pair
      · exact PairKept.refl s

theorem pairKept_answerAll (l : List Packet) (s : State) : PairKept s (l.foldl (fun s p => answerDropped p s) s) :=
  PairKept.foldl l (fun v p => pairKept_answerDropped p v) s

theorem linkRegs_onPrts (n : Nat) (f : Port → Port) (l : List Nat) (s : State) :
    LinkRegs n s (l.foldl (fun s m => onPrt m f s) s) :=
  LinkRegs.foldl (f := fun s m => onPrt m f s) l (fun v _ _ => (LinkRegs.refl n v).of_same rfl) s

/-- The bond of a port that is lost deals anew without it (R264). -/
theorem linkRegs_restartBond (hn : n < 32) (hb : b < 12) (m : Nat) (s : State) : LinkRegs n s (restartBond m b s) := by
  unfold restartBond
  dsimp only
  obtain ⟨x, hx⟩ : ∃ x, x = onBnd b (fun x => { x with queue := x.queue.map (mapWithout m) }) s := ⟨_, rfl⟩
  have h0 : LinkRegs n s x := by rw [hx]; exact fun _ _ => rfl
  rw [← hx]
  split
  · exact h0
  · generalize (firstUnacked (prt x m)).getD (bnd x b).pos = p0
    generalize without (rotMask x b) m = left
    generalize without (bnd x b).full m = full
    generalize dealtFrom (bnd x b) p0 = lost
    generalize (without (rotAhead x b).1 m, without (rotAhead x b).2 m) = want
    have h1 : LinkRegs n s ((maskBits left 32).foldl (fun s m => onPrt m (fun x => { x with
        held := x.held.filter (fun y => match y.pos with | some k => decide (k < cutAt lost p0) | none => true) }) s) x) :=
      h0.trans (linkRegs_onPrts n _ _ x)
    generalize (maskBits left 32).foldl (fun s m => onPrt m (fun x => { x with
        held := x.held.filter (fun y => match y.pos with | some k => decide (k < cutAt lost p0) | none => true) }) s) x = y
      at h1 ⊢
    obtain ⟨z, hz⟩ : ∃ z, z = setRot b left full (onBnd b (fun x => { x with
      base := x.pos, dealing := [], dealt := x.dealt.filter (fun d => decide (d.till ≤ p0)),
      queue := x.queue.filter (fun q => q.2.opcode != 0x70) }) y) := ⟨_, rfl⟩
    have h2 : LinkRegs n s z := by
      rw [hz]
      exact h1.trans (((Sends.refl n y).onBnd b _).setRot hb left full).link
    rw [← hz]
    have h3 : LinkRegs n s ((maskBits left 32).foldl (fun s m => putPacket m (bondPacket s 0x71 m full left) s) z) :=
      h2.trans (LinkRegs.foldl _ (fun v m _ => (sends_putPacket (Or.inl (show 7 < 8 by decide)) v).link) z)
    generalize (maskBits left 32).foldl (fun s m => putPacket m (bondPacket s 0x71 m full left) s) z = w at h3 ⊢
    have h4 : LinkRegs n s (lost.foldl (fun s d => answerDropped d.pkt s) (orReg Reg.routeEvent (2 ^ 7) w)) :=
      (h3.wrReg apart_routeEvent.1 _).trans (LinkRegs.foldl _ (fun v d _ => (pairKept_answerDropped d.pkt v).linkRegs hn) _)
    generalize lost.foldl (fun s d => answerDropped d.pkt s) (orReg Reg.routeEvent (2 ^ 7) w) = t at h4 ⊢
    split
    · exact h4
    · exact h4.trans (sends_announceRot hb _ _ t).link

/-- What a port's loss of everything queued leaves. -/
structure PortDropped (n : Nat) (s u : State) : Prop where
  link : LinkRegs n s u
  replay : (prt u n).replay = []
  held : (prt u n).held = []

theorem dropPort_spec (hn : n < 32) (s : State) : PortDropped n s (dropPort n s).2 := by
  obtain ⟨x, hx⟩ : ∃ x, x = (match bondOf s n with | some k => restartBond n k s | none => s) := ⟨_, rfl⟩
  have h0 : LinkRegs n s x := by
    rw [hx]
    split
    · next b hb => exact linkRegs_restartBond hn (bondOf_lt hb) n s
    · exact LinkRegs.refl n s
  have he : (dropPort n s).2 = lateAll n ((ownPackets (prt s n)).foldl (fun s p => (copiesOf p).foldl (fun s c => answerDropped c s) s)
      (onPrt n (fun x => { x with replay := [], held := [] }) x)) := by rw [hx]; rfl
  rw [he]
  obtain ⟨y, hy⟩ : ∃ y, y = onPrt n (fun x => { x with replay := [], held := [] }) x := ⟨_, rfl⟩
  have h1 : LinkRegs n s y ∧ (prt y n).replay = [] ∧ (prt y n).held = [] := by
    rw [hy, prt_onPrt_self]; exact ⟨h0, rfl, rfl⟩
  rw [← hy]
  have hp : PairKept y ((ownPackets (prt s n)).foldl (fun s p => (copiesOf p).foldl (fun s c => answerDropped c s) s) y) :=
    PairKept.foldl _ (fun v p => pairKept_answerAll (copiesOf p) v) y
  generalize (ownPackets (prt s n)).foldl (fun s p => (copiesOf p).foldl (fun s c => answerDropped c s) s) y = z at hp ⊢
  have hl := lateWork_lateAll hn z
  have hprt : prt (lateAll n z) n = prt y n := by rw [prt, hl.ports, hp.ports]; rfl
  refine ⟨(h1.1.trans (hp.linkRegs hn)).trans fun a ha => ?_, by rw [hprt]; exact h1.2.1, by rw [hprt]; exact h1.2.2⟩
  have hr := lowPort_range hn ha
  exact hl.regs a (by omega) (by omega) (by have := ha.1; rw [Reg.portBase] at this; rw [Reg.portPitch]; omega)

/-- What is kept of a port while its bond is told of its loss. -/
structure PortStays (n : Nat) (s u : State) : Prop where
  link : LinkRegs n s u
  pitch : rd u (Reg.portPitch n) = rd s (Reg.portPitch n)
  port : prt u n = prt s n

theorem PortStays.refl (n : Nat) (s : State) : PortStays n s s := ⟨LinkRegs.refl n s, rfl, rfl⟩

theorem PortStays.trans (h : PortStays n s u) (h' : PortStays n u v) : PortStays n s v :=
  ⟨h.link.trans h'.link, h'.pitch.trans h.pitch, h'.port.trans h.port⟩

theorem PairKept.portStays (h : PairKept s u) (hn : n < 32) : PortStays n s u :=
  ⟨h.linkRegs hn, h.heat _ (by rw [Reg.portPitch]; omega) (by rw [Reg.portPitch]; omega), by rw [prt, h.ports]; rfl⟩

theorem portStays_emptyBond (hn : n < 32) (b : Nat) (s : State) : PortStays n s (emptyBond b s) := by
  unfold emptyBond
  split
  · exact PortStays.refl n s
  · exact PortStays.trans (u := onBnd b (fun x => { x with queue := [] }) s) ⟨LinkRegs.refl n s, rfl, rfl⟩
      ((pairKept_answerAll _ _).portStays hn)

theorem portStays_forgetRx (n b : Nat) (s : State) : PortStays n s (forgetRx b s) := by
  unfold forgetRx
  dsimp only
  split
  · exact PortStays.refl n s
  · exact ⟨LinkRegs.refl n s, rfl, rfl⟩

theorem portStays_wakePort (h : m ≠ n) (hn : n < 32) (s : State) : PortStays n s (wakePort m s) := by
  unfold wakePort
  split
  · refine ⟨fun a ha => ?_, ?_, ?_⟩
    · refine rd_wrF_ne _ _ _ _ fun he => not_lowPort_of_ne h ?_ ?_ (he ▸ ha)
      · rw [Reg.portStatus]; omega
      · rw [Reg.portStatus]; omega
    · exact rd_wrF_ne _ _ _ _ (portStatus_ne_portPitch m n hn).symm
    · exact prt_onPrt_ne (wrF (Reg.portStatus m) 3 0 8 s) (fun p => { p with since := now s }) (Ne.symm h)
  · exact PortStays.refl n s

theorem portStays_wakeBond (h7 : portState s n ≠ 7) (hn : n < 32) (b : Nat) : PortStays n s (wakeBond b s) := by
  unfold wakeBond
  split
  · exact PortStays.refl n s
  · split
    · next m hm =>
      have h7m : portState s m = 7 := by simpa using List.find?_some hm
      refine portStays_wakePort (fun he => h7 ?_) hn s
      rw [← he]; exact h7m
    · exact PortStays.refl n s

/-- What a port that leaves service shows: its state, the reason, nothing queued, and its transmitters' silence. -/
structure PortLost (n st why : Nat) (s u : State) : Prop where
  state : portState u n = st
  reason : rdF u (Reg.portStatus n) 11 8 = why
  pitch : pitchState u n = 0
  replay : (prt u n).replay = []
  held : (prt u n).held = []
  silent : st = 1 → (prt u n).txOffUntil.isSome = true
  regs : ∀ a, LowPort n a → a ≠ Reg.portStatus n → a ≠ Reg.portEvent n → rd u a = rd s a

theorem PortLost.stays {st why : Nat} (h : PortLost n st why s u) (h' : PortStays n u v) : PortLost n st why s v := by
  have hst : LowPort n (Reg.portStatus n) := ⟨by rw [Reg.portStatus]; omega, by rw [Reg.portStatus]; omega⟩
  refine ⟨?_, ?_, ?_, ?_, ?_, ?_, fun a ha h1 h2 => (h'.link a ha).trans (h.regs a ha h1 h2)⟩
  · rw [h'.link.portState]; exact h.state
  · rw [rdF, h'.link _ hst]; exact h.reason
  · rw [pitchState, rdF, h'.pitch]; exact h.pitch
  · rw [h'.port]; exact h.replay
  · rw [h'.port]; exact h.held
  · rw [h'.port]; exact h.silent

/-- PORT.STATUS of a port that leaves service. -/
def lostStatus (n st why : Nat) (s : State) : State :=
  s |> wrF (Reg.portStatus n) 31 0 (why * 2 ^ 8 + st + (if rdB s (Reg.portStatus n) 14 then 2 ^ 14 else 0))
    |> wrF (Reg.portPitch n) 3 2 0

theorem lostStatus_spec {st why : Nat} (hn : n < 32) (hs : st < 16) (hw : why < 16) (s : State) :
    portState (lostStatus n st why s) n = st ∧ rdF (lostStatus n st why s) (Reg.portStatus n) 11 8 = why
      ∧ pitchState (lostStatus n st why s) n = 0
      ∧ ∀ a, a ≠ Reg.portStatus n → a ≠ Reg.portPitch n → rd (lostStatus n st why s) a = rd s a := by
  have hne := portStatus_ne_portPitch n n hn
  obtain ⟨k, hk⟩ : ∃ k, k = why * 2 ^ 8 + st + (if rdB s (Reg.portStatus n) 14 then 2 ^ 14 else 0) := ⟨_, rfl⟩
  have hk1 : k % 16 = st ∧ k / 256 % 16 = why := by
    rw [hk]
    split <;> omega
  have h : ∀ hi lo, rdF (lostStatus n st why s) (Reg.portStatus n) hi lo = rdF (wrF (Reg.portStatus n) 31 0 k s) (Reg.portStatus n) hi lo :=
    fun hi lo => by rw [lostStatus, hk]; exact rdF_wrF_ne _ _ _ _ _ _ hne
  refine ⟨?_, ?_, rdF_wrF_fits _ _ (by decide) (by decide) (by decide), fun a h1 h2 => ?_⟩
  · rw [portState, h, rdF_wrF_within _ _ (by decide) (by decide) (by decide) (by decide)]
    omega
  · rw [h, rdF_wrF_within _ _ (by decide) (by decide) (by decide) (by decide)]
    omega
  · exact (rd_wrF_ne _ _ _ _ h2).trans (rd_wrF_ne _ _ _ _ h1)

/-- LINK_DOWN of a port that leaves service. -/
def lostEvent (n was why : Nat) (s : State) : State := (if setsLinkDown was why then orReg (Reg.portEvent n) 2 else id) s

theorem rd_lostEvent (was why : Nat) {a : Nat} (h : a ≠ Reg.portEvent n) (s : State) : rd (lostEvent n was why s) a = rd s a := by
  unfold lostEvent
  split
  · exact rd_orReg_ne _ _ h
  · rfl

theorem prt_lostEvent (was why m : Nat) (s : State) : prt (lostEvent n was why s) m = prt s m := by
  unfold lostEvent
  split <;> rfl

/-- The record of a port that leaves service. -/
def lostPort (st now : Nat) (x : Port) : Port :=
  { x with
    rxq := []
    inPitch := false
    restPhase := 0
    replays := 0
    limitRetrain := false
    txOffUntil := if st = 1 then some (now + 1600000) else none }

/-- The bond of a port that has left service is told. -/
def tellBond (n : Nat) (s : State) : State :=
  match bondOf s n with
  | some b =>
    let s := s |> emptyBond b |> forgetRx b
    if (bnd s b).queue = [] then s else wakeBond b s
  | none => s

theorem portStays_tellBond (h7 : portState s n ≠ 7) (hn : n < 32) : PortStays n s (tellBond n s) := by
  unfold tellBond
  split
  · next b _ =>
    have h1 := (portStays_emptyBond hn b s).trans (portStays_forgetRx n b _)
    dsimp only
    generalize forgetRx b (emptyBond b s) = x at h1 ⊢
    split
    · exact h1
    · exact h1.trans (portStays_wakeBond (by rw [h1.link.portState]; exact h7) hn b)
  · exact PortStays.refl n s

theorem portStays_checkLink (hn : n < 32) (l : List Nat) (s : State) : PortStays n s (checkLink n l s) := by
  have h := sends_checkLink n n l s
  obtain ⟨r, rs, hx⟩ := checkLink_frame n l s
  exact ⟨h.link, h.fabric _ (by rw [Reg.portPitch]; omega) (by rw [Reg.portPitch]; omega), by rw [hx]; rfl⟩

theorem portOff_eq (n st why : Nat) (s : State) : ∃ t l, portOff n st why s = checkLink n l (tellBond n
    (onPrt n (lostPort st t) (lostEvent n (portState s n) why (lostStatus n st why (endStalls n (dropPort n s).2))))) := by
  refine ⟨now (endStalls n (dropPort n s).2), (dropPort n s).1, ?_⟩
  unfold portOff tellBond lostEvent lostStatus
  rfl

theorem queued_endStalls (f : Port → List SeqFlit) (hf : ∀ p c, f { p with stall := c } = f p) (n : Nat) (s : State) :
    f (prt (endStalls n s) n) = f (prt s n) := by
  refine List.foldlRecOn (motive := fun v : State => f (prt v n) = f (prt s n)) _ _ rfl fun v hv c _ => ?_
  refine (congrArg f (prt_onPrt_self _ n _)).trans ((hf _ _).trans ?_)
  unfold countStall
  split
  · exact hv
  · exact hv

theorem portOff_spec {st why : Nat} (hn : n < 32) (hs : st < 7) (hw : why < 16) (s : State) :
    PortLost n st why s (portOff n st why s) := by
  obtain ⟨t, l, he⟩ := portOff_eq n st why s
  rw [he]
  have h0 := dropPort_spec hn s
  generalize (dropPort n s).2 = x at h0 ⊢
  have h1 := sends_endStalls n n x
  have hq1 := (queued_endStalls Port.replay (fun _ _ => rfl) n x).trans h0.replay
  have hq2 := (queued_endStalls Port.held (fun _ _ => rfl) n x).trans h0.held
  generalize endStalls n x = y at h1 hq1 hq2 ⊢
  obtain ⟨s1, s2, s3, s4⟩ := lostStatus_spec hn (show st < 16 by omega) hw y
  have hpz : prt (lostStatus n st why y) n = prt y n := rfl
  generalize lostStatus n st why y = z at s1 s2 s3 s4 hpz ⊢
  have hst : Reg.portStatus n ≠ Reg.portEvent n := by simp only [Reg.portStatus, Reg.portEvent]; omega
  have hpi : Reg.portPitch n ≠ Reg.portEvent n := by simp only [Reg.portPitch, Reg.portEvent, Reg.portBase]; omega
  have hev : ∀ a, a ≠ Reg.portEvent n → rd (lostEvent n (portState s n) why z) a = rd z a := fun a ha => rd_lostEvent _ _ ha z
  have hpe := prt_lostEvent (n := n) (portState s n) why n z
  generalize lostEvent n (portState s n) why z = z' at hev hpe ⊢
  have hlost : PortLost n st why s (onPrt n (lostPort st t) z') := by
    refine ⟨?_, ?_, ?_, ?_, ?_, fun h => ?_, fun a ha h2 h3 => ?_⟩
    · exact (congrArg (fld · 3 0) (hev _ hst)).trans s1
    · exact (congrArg (fld · 11 8) (hev _ hst)).trans s2
    · exact (congrArg (fld · 3 2) (hev _ hpi)).trans s3
    · rw [prt_onPrt_self, hpe, hpz]; exact hq1
    · rw [prt_onPrt_self, hpe, hpz]; exact hq2
    · rw [prt_onPrt_self, lostPort, if_pos h]; rfl
    · have hne : a ≠ Reg.portPitch n := fun he => not_lowPort_of_lt (by rw [he, Reg.portPitch]; omega) ha
      exact (hev a h3).trans ((s4 a h2 hne).trans ((h1.link a ha).trans (h0.link a ha)))
  have h7 : portState (onPrt n (lostPort st t) z') n ≠ 7 := by rw [hlost.state]; omega
  exact (hlost.stays (portStays_tellBond h7 hn)).stays (portStays_checkLink hn _ _)

theorem portDown_wentDown {why : Nat} (hn : n < 32) (hw : why < 16) (s : State) : WentDown n why (portDown n why s) := by
  have h := portOff_spec (st := 1) hn (by decide) hw s
  exact ⟨h.state, h.reason, h.silent rfl, h.pitch, h.replay, h.held⟩

end Sys2Proof.Machine
end

section
/-! PROOFS. Retraining and FORCE_DOWN, rest and wake of a port (R241–R248). -/

namespace Sys2Proof.Machine

variable {s u v : State} {n : Nat} {who : Writer} {obs : TrainObs} {l l' : List Nat}

-- What is near a port

/-- A register of a port's link or of the fabric's time. -/
def Near (n a : Nat) : Prop := LowPort n a ∨ (0x60000 ≤ a ∧ a < 0x60400)

/-- Beside some registers, a port's link, the fabric's time, memory and the clock are kept. -/
structure LinkBut (l : List Nat) (n : Nat) (s u : State) : Prop where
  regs : ∀ a, Near n a → a ∉ l → rd u a = rd s a
  mem : MemKept s u
  now : u.now = s.now

theorem LinkBut.refl (l : List Nat) (n : Nat) (s : State) : LinkBut l n s s := ⟨fun _ _ _ => rfl, fun _ => rfl, rfl⟩

theorem LinkBut.trans (h : LinkBut l n s u) (h' : LinkBut l n u v) : LinkBut l n s v :=
  ⟨fun a h1 h2 => (h'.regs a h1 h2).trans (h.regs a h1 h2), fun a => (h'.mem a).trans (h.mem a), h'.now.trans h.now⟩

theorem LinkBut.mono (h : LinkBut l n s u) (hl : l ⊆ l') : LinkBut l' n s u :=
  ⟨fun a h1 h2 => h.regs a h1 fun hm => h2 (hl hm), h.mem, h.now⟩

theorem LinkBut.wrReg (h : LinkBut l n s u) {a : Nat} (ha : a ∈ l) (w : Word) : LinkBut l n s (wrReg a w u) :=
  h.trans ⟨fun _ _ hb => rd_wrReg_ne u w fun he => hb (he ▸ ha), fun _ => rfl, rfl⟩

theorem LinkBut.of_same (h : LinkBut l n s u) (hr : v.regs = u.regs) (hm : v.mem = u.mem) (hn : v.now = u.now) : LinkBut l n s v :=
  h.trans ⟨fun _ _ _ => by rw [rd, rd, hr], fun _ => by rw [memByte, memByte, hm], hn⟩

theorem LinkBut.onPrt (h : LinkBut l n s u) (m : Nat) (f : Port → Port) : LinkBut l n s (onPrt m f u) := h.of_same rfl rfl rfl

theorem LinkBut.emit (h : LinkBut l n s u) (o : Out) : LinkBut l n s (emit o u) := h.of_same rfl rfl rfl

theorem Sends.linkBut (h : Sends n s u) (l : List Nat) : LinkBut l n s u :=
  ⟨fun a ha _ => ha.elim (h.link a) fun hr => h.fabric a hr.1 hr.2, h.mem, h.now⟩

theorem LinkBut.rd (h : LinkBut l n s u) {a : Nat} (ha : Near n a) (hl : a ∉ l) : rd u a = rd s a := h.regs a ha hl

theorem near_portStatus (n : Nat) : Near n (Reg.portStatus n) :=
  Or.inl ⟨by rw [Reg.portStatus]; omega, by rw [Reg.portStatus]; omega⟩

theorem near_portEvent (n : Nat) : Near n (Reg.portEvent n) :=
  Or.inl ⟨by rw [Reg.portEvent]; omega, by rw [Reg.portEvent]; omega⟩

theorem near_neighbour (n : Nat) : Near n (Reg.neighbour n) :=
  Or.inl ⟨by rw [Reg.neighbour]; omega, by rw [Reg.neighbour]; omega⟩

theorem near_neighbourExp (n : Nat) : Near n (Reg.neighbourExp n) :=
  Or.inl ⟨by rw [Reg.neighbourExp]; omega, by rw [Reg.neighbourExp]; omega⟩

theorem near_linkctl (n : Nat) : Near n (Reg.linkctl n) :=
  Or.inl ⟨by rw [Reg.linkctl], by rw [Reg.linkctl]; omega⟩

theorem near_portErrCount (n : Nat) : Near n (Reg.portErrCount n) :=
  Or.inl ⟨by rw [Reg.portErrCount]; omega, by rw [Reg.portErrCount]; omega⟩

theorem near_portDelay (hn : n < 32) : Near n (Reg.portDelay n) := Or.inr ⟨by rw [Reg.portDelay]; omega, by rw [Reg.portDelay]; omega⟩

theorem near_portPitch (hn : n < 32) : Near n (Reg.portPitch n) := Or.inr ⟨by rw [Reg.portPitch]; omega, by rw [Reg.portPitch]; omega⟩

/-- The places of a port's registers in the address map, for comparing them. -/
theorem linkPlaces (n : Nat) : Reg.linkctl n = Reg.portBase n ∧ Reg.portStatus n = Reg.portBase n + 0x8
    ∧ Reg.portEvent n = Reg.portBase n + 0x10 ∧ Reg.neighbour n = Reg.portBase n + 0x18
    ∧ Reg.neighbourExp n = Reg.portBase n + 0x20 ∧ Reg.laneStatus n = Reg.portBase n + 0x28
    ∧ Reg.replayCtrl n = Reg.portBase n + 0x30 ∧ Reg.creditCtrl n = Reg.portBase n + 0x38
    ∧ Reg.portErrCount n = Reg.portBase n + 0x48 ∧ Reg.qual n = Reg.portBase n + 0x50
    ∧ Reg.portBase n = 0x100000 + 0x10000 * n ∧ Reg.portDelay n = 0x60100 + 8 * n ∧ Reg.portPitch n = 0x60300 + 8 * n :=
  ⟨rfl, rfl, rfl, rfl, rfl, rfl, rfl, rfl, rfl, rfl, rfl, rfl, rfl⟩

theorem portState_of_rd (h : rd u (Reg.portStatus n) = rd s (Reg.portStatus n)) : portState u n = portState s n := by
  rw [portState, rdF, h]; rfl

-- A port comes up (R239, R241, R259)

/-- The registers that a port's coming up writes. -/
def upRegs (n : Nat) : List Nat := [Reg.portStatus n, Reg.portEvent n, Reg.portPitch n]

/-- What a port that has come up shows. -/
structure CameUp (n : Nat) (s u : State) : Prop where
  but : LinkBut (upRegs n) n s u
  state : portState u n = 4
  width : rdF u (Reg.portStatus n) 13 12 = rdF s (Reg.portStatus n) 13 12
  event : ∀ i, rdB s (Reg.portEvent n) i = true → rdB u (Reg.portEvent n) i = true
  pitch : pitchState u n = 2
  rest : (prt u n).restPhase = 0
  qualified : (prt u n).qualified = true

/-- The state and the pitch of a port that comes up. -/
def upStatus (n : Nat) (s : State) : State :=
  s |> setPortState n 4 |> wrF (Reg.portPitch n) 3 2 2 |> wrB (Reg.portPitch n) 1 true
    |> onPrt n (fun p => { p with resyncRound := 0, resyncGood := 0, qualified := true, restPhase := 0, since := now s })

theorem comeUp_eq (n : Nat) (s : State) : comeUp n s = checkLink n [] (joinBond n
    ((if rdF s (Reg.portStatus n) 13 12 = 1 ∨ rdF s (Reg.portStatus n) 13 12 = 2 then portEvents n (2 ^ 5) else id)
      (upStatus n s))) := rfl

theorem upStatus_spec (n : Nat) (s : State) : CameUp n s (upStatus n s) := by
  obtain ⟨-, p1, p2, -, -, -, -, -, -, -, p3, -, p4⟩ := linkPlaces n
  have hr : ∀ a, a ≠ Reg.portStatus n → a ≠ Reg.portPitch n → rd (upStatus n s) a = rd s a := fun a h1 h2 =>
    (rd_wrB_ne _ _ _ h2).trans ((rd_wrF_ne _ _ _ _ h2).trans (rd_wrF_ne _ _ _ _ h1))
  have hs : ∀ hi lo, rdF (upStatus n s) (Reg.portStatus n) hi lo = rdF (setPortState n 4 s) (Reg.portStatus n) hi lo :=
    fun hi lo => by
      have h : rd (upStatus n s) (Reg.portStatus n) = rd (setPortState n 4 s) (Reg.portStatus n) :=
        (rd_wrB_ne _ _ _ (by omega)).trans (rd_wrF_ne _ _ _ _ (by omega))
      rw [rdF, h]; rfl
  have hp : prt (upStatus n s) n
      = { prt s n with resyncRound := 0, resyncGood := 0, qualified := true, restPhase := 0, since := now s } :=
    prt_onPrt_self _ n _
  refine ⟨⟨fun a _ h => ?_, fun _ => rfl, rfl⟩, ?_, ?_, fun i hi => ?_, ?_, by rw [hp], by rw [hp]⟩
  · simp only [upRegs, List.mem_cons, List.not_mem_nil, or_false, not_or] at h
    exact hr a h.1 h.2.2
  · rw [portState, hs]
    exact rdF_wrF_fits _ _ (by decide) (by decide) (by decide)
  · rw [hs]
    exact rdF_wrF_other _ _ _ _ _ _ _ (by decide) (by decide) (by decide)
  · rw [rdB, hr _ (by omega) (by omega)]
    exact hi
  · exact (rdF_wrB_other _ _ _ _ _ _ (by decide) (by decide)).trans (rdF_wrF_fits _ _ (by decide) (by decide) (by decide))

theorem CameUp.sends (hn : n < 32) (h : CameUp n s u) (h' : Sends n u v) : CameUp n s v := by
  have hs := h'.linkBut (upRegs n)
  have h0 := h'.linkBut []
  have hp := h'.port
  refine ⟨h.but.trans hs, ?_, ?_, fun i hi => ?_, ?_, ?_, ?_⟩
  · rw [portState_of_rd (h0.rd (near_portStatus n) (by simp))]; exact h.state
  · rw [rdF, h0.rd (near_portStatus n) (by simp)]; exact h.width
  · rw [rdB, h0.rd (near_portEvent n) (by simp)]; exact h.event i hi
  · rw [pitchState, rdF, h0.rd (near_portPitch hn) (by simp)]; exact h.pitch
  · have := congrArg Port.restPhase hp
    exact this.trans h.rest
  · have := congrArg Port.qualified hp
    exact this.trans h.qualified

theorem CameUp.events (h : CameUp n s u) (m : Nat) : CameUp n s (portEvents n m u) := by
  obtain ⟨-, p1, p2, -, -, -, -, -, -, -, p3, -, p4⟩ := linkPlaces n
  have hr : ∀ a, a ≠ Reg.portEvent n → rd (portEvents n m u) a = rd u a := fun a ha => rd_orReg_ne _ _ ha
  refine ⟨h.but.wrReg (by simp [upRegs]) _, ?_, ?_, fun i hi => rdB_orReg_of_set (h.event i hi), ?_, h.rest, h.qualified⟩
  · rw [portState_of_rd (hr _ (by omega))]; exact h.state
  · rw [rdF, hr _ (by omega)]; exact h.width
  · rw [pitchState, rdF, hr _ (by omega)]; exact h.pitch

theorem comeUp_cameUp (hn : n < 32) (s : State) : CameUp n s (comeUp n s) := by
  rw [comeUp_eq]
  have h : CameUp n s ((if rdF s (Reg.portStatus n) 13 12 = 1 ∨ rdF s (Reg.portStatus n) 13 12 = 2 then portEvents n (2 ^ 5) else id)
      (upStatus n s)) := by
    split
    · exact (upStatus_spec n s).events _
    · exact upStatus_spec n s
  exact (h.sends hn (sends_joinBond n n _)).sends hn (sends_checkLink n n [] _)

-- Credits and replays

/-- What a port tells and is told of credits (R38, R234, R241). -/
structure CreditsNoted (n : Nat) (obs : TrainObs) (s u : State) : Prop where
  but : LinkBut [Reg.portDelay n] n s u
  delay : rd u (Reg.portDelay n) = wd obs.delay16
  tx : (prt u n).txSeq = (prt s n).txSeq
  rx : (prt u n).rxSeq = (prt s n).rxSeq
  out : ∀ o ∈ s.out, o ∈ u.out

theorem near_creditState {a c : Nat} (h : Near n a) : a ≠ Reg.creditState n c := by
  rintro rfl
  rcases h with ⟨_, h2⟩ | ⟨_, h2⟩
  · simp only [Reg.creditState] at h2; omega
  · simp only [Reg.creditState, Reg.portBase] at h2; omega

theorem linkBut_creditStates (n : Nat) (f : Nat → Word) (cs : List Nat) (s : State) :
    LinkBut [] n s (cs.foldl (fun s v => wrReg (Reg.creditState n v) (f v) s) s) := by
  induction cs generalizing s with
  | nil => exact LinkBut.refl [] n s
  | cons c cs ih =>
    refine LinkBut.trans (u := wrReg (Reg.creditState n c) (f c) s) ?_ (ih _)
    exact ⟨fun a ha _ => rd_wrReg_ne _ _ (near_creditState ha), fun _ => rfl, rfl⟩

theorem creditStates_frame (n : Nat) (f : Nat → Word) (cs : List Nat) (s : State) :
    (cs.foldl (fun s v => wrReg (Reg.creditState n v) (f v) s) s).ports = s.ports
      ∧ (cs.foldl (fun s v => wrReg (Reg.creditState n v) (f v) s) s).out = s.out := by
  induction cs generalizing s with
  | nil => exact ⟨rfl, rfl⟩
  | cons c cs ih => exact ih _

/-- The credits of a port as a train makes them. -/
def freshCredits (obs : TrainObs) (now : Nat) (p : Port) : Port :=
  { p with
    adv := (List.range 8).map (nth obs.nbAlloc)
    returned := List.replicate 8 0
    received := List.replicate 8 0
    owed := List.replicate 8 0
    auditFrom := now / 1024 }

theorem numbers_freshCredits (obs : TrainObs) (t : Nat) (p : Port) :
    (freshCredits obs t p).txSeq = p.txSeq ∧ (freshCredits obs t p).rxSeq = p.rxSeq := ⟨rfl, rfl⟩

/-- The credits that the neighbour advertises (R234). -/
def creditWord (obs : TrainObs) (v : Nat) : Word := wd (nth obs.nbFree v % 65536 * 65536 + nth obs.nbAlloc v % 65536)

theorem noteCredits_eq (n : Nat) (obs : TrainObs) (s : State) : ∃ o t, noteCredits n obs s
    = emit o (onPrt n (freshCredits obs t) ((List.range 8).foldl (fun s v => wrReg (Reg.creditState n v) (creditWord obs v) s)
        (endStalls n (wrReg (Reg.portDelay n) (wd obs.delay16) (emit (.probe n 64) s))))) := by
  unfold noteCredits
  exact ⟨_, _, rfl⟩

theorem numbers_endStalls (f : Port → Nat) (hf : ∀ p c, f { p with stall := c } = f p) (n : Nat) (s : State) :
    f (prt (endStalls n s) n) = f (prt s n) := by
  refine List.foldlRecOn (motive := fun v : State => f (prt v n) = f (prt s n)) _ _ rfl fun v hv c _ => ?_
  refine (congrArg f (prt_onPrt_self _ n _)).trans ((hf _ _).trans ?_)
  unfold countStall
  split
  · exact hv
  · exact hv

/-- The port's own record of fresh credits changes nothing else that is near. -/
theorem CreditsNoted.fresh (h : CreditsNoted n obs s u) (t : Nat) (o : Out) :
    CreditsNoted n obs s (emit o (onPrt n (freshCredits obs t) u)) where
  but := (h.but.onPrt n _).emit o
  delay := by rw [rd_emit, rd_onPrt]; exact h.delay
  tx := by rw [prt_emit, prt_onPrt_self, (numbers_freshCredits obs t _).1]; exact h.tx
  rx := by rw [prt_emit, prt_onPrt_self, (numbers_freshCredits obs t _).2]; exact h.rx
  out q hq := List.mem_append_left _ (h.out q hq)

theorem creditsNoted_states (hn : n < 32) (obs : TrainObs) (s : State) : CreditsNoted n obs s
    ((List.range 8).foldl (fun s v => wrReg (Reg.creditState n v) (creditWord obs v) s)
      (endStalls n (wrReg (Reg.portDelay n) (wd obs.delay16) (emit (.probe n 64) s)))) := by
  obtain ⟨x, hx⟩ : ∃ x, x = wrReg (Reg.portDelay n) (wd obs.delay16) (emit (.probe n 64) s) := ⟨_, rfl⟩
  have h0 : LinkBut [Reg.portDelay n] n s x := by
    rw [hx]; exact ((LinkBut.refl _ n s).emit _).wrReg (by simp) _
  have hd : rd x (Reg.portDelay n) = wd obs.delay16 := by rw [hx]; exact rd_wrReg_self _ _ _
  have hpx : prt x n = prt s n ∧ ∀ o ∈ s.out, o ∈ x.out := by
    rw [hx]; exact ⟨rfl, fun _ ho => List.mem_append_left _ ho⟩
  rw [← hx]
  have h1 := sends_endStalls n n x
  have ht := numbers_endStalls Port.txSeq (fun _ _ => rfl) n x
  have hr := numbers_endStalls Port.rxSeq (fun _ _ => rfl) n x
  generalize endStalls n x = y at h1 ht hr ⊢
  have h2 := linkBut_creditStates n (creditWord obs) (List.range 8) y
  have hf := creditStates_frame n (creditWord obs) (List.range 8) y
  generalize (List.range 8).foldl (fun s v => wrReg (Reg.creditState n v) (creditWord obs v) s) y = z at h2 hf ⊢
  have hpz : prt z n = prt y n := by rw [prt, hf.1]; rfl
  refine ⟨(h0.trans (h1.linkBut _)).trans (h2.mono (by simp)), ?_, ?_, ?_, fun q hq => ?_⟩
  · rw [h2.rd (near_portDelay hn) (by simp), (h1.linkBut []).rd (near_portDelay hn) (by simp)]
    exact hd
  · rw [hpz, ht, hpx.1]
  · rw [hpz, hr, hpx.1]
  · rw [hf.2]
    exact h1.out q (hpx.2 q hq)

theorem noteCredits_noted (hn : n < 32) (obs : TrainObs) (s : State) : CreditsNoted n obs s (noteCredits n obs s) := by
  obtain ⟨o, t, he⟩ := noteCredits_eq n obs s
  rw [he]
  exact (creditsNoted_states hn obs s).fresh t o

/-- A flit of a replay (R230, R231). -/
def replayed (p : Port) (x : SeqFlit) : Flit :=
  mkFlit x.flit.data (replayType (flitType x.flit)) (ackSeq p) (fld x.flit.trailer 19 17) (fld x.flit.trailer 16 12) x.seq

theorem emitAll_eq (n : Nat) (p : Port) (r : List SeqFlit) (s : State) : r.foldl (fun s x => emit (.flit n (replayed p x)) s) s
    = { s with out := s.out ++ r.map (fun x => .flit n (replayed p x)) } := by
  induction r generalizing s with
  | nil => simp
  | cons x r ih =>
    rw [List.foldl_cons, ih, emit, List.map_cons, List.append_assoc]
    rfl

theorem replayAll_eq (n : Nat) (s : State) : replayAll n s = onPrt n (fun x => { x with ackStart := now s, replays := x.replays + 1 })
    { addSat (Reg.portErrCount n) 31 16 1 s with
      out := s.out ++ (prt s n).replay.map (fun x => .flit n (replayed (prt s n) x)) } := by
  have h := emitAll_eq n (prt s n) (prt s n).replay (addSat (Reg.portErrCount n) 31 16 1 s)
  have he : replayAll n s = (fun z => onPrt n (fun x => { x with ackStart := now z, replays := x.replays + 1 }) z)
      ((prt s n).replay.foldl (fun t x => emit (.flit n (replayed (prt s n) x)) t) (addSat (Reg.portErrCount n) 31 16 1 s)) := rfl
  rw [he, h]
  rfl

theorem replayAll_but (n : Nat) (s : State) : LinkBut [Reg.portErrCount n] n s (replayAll n s)
    ∧ rdF (replayAll n s) (Reg.portErrCount n) 15 0 = rdF s (Reg.portErrCount n) 15 0
    ∧ (prt (replayAll n s) n).restPhase = (prt s n).restPhase := by
  have h : LinkBut [Reg.portErrCount n] n s (addSat (Reg.portErrCount n) 31 16 1 s) := (LinkBut.refl _ n s).wrReg (by simp) _
  rw [replayAll_eq]
  refine ⟨h.of_same rfl rfl rfl, ?_, ?_⟩
  · exact rdF_wrF_other _ _ _ _ _ _ _ (by decide) (by decide) (by decide)
  · rw [prt_onPrt_self]; rfl

-- Back up (R227, R240, R241, R248)

/-- The neighbour's identity, recorded. -/
theorem linkBut_noteNeighbour (n : Nat) (obs : TrainObs) (s : State) :
    LinkBut [Reg.neighbour n, Reg.portStatus n] n s (noteNeighbour n obs s)
      ∧ rd (noteNeighbour n obs s) (Reg.neighbour n) = neighbourWord obs
      ∧ (∀ hi lo, hi < 14 → rdF (noteNeighbour n obs s) (Reg.portStatus n) hi lo = rdF s (Reg.portStatus n) hi lo) := by
  obtain ⟨-, p1, -, p2, -⟩ := linkPlaces n
  unfold noteNeighbour
  refine ⟨(((LinkBut.refl _ n s).emit _).wrReg (by simp) _).wrReg (by simp) _, ?_, fun hi lo h => ?_⟩
  · exact (rd_wrB_ne _ _ _ (by omega)).trans (rd_wrReg_self _ _ _)
  · refine (rdF_wrB_other _ _ _ _ _ _ (by decide) (Or.inl h)).trans ?_
    exact rdF_wrReg_ne _ _ _ _ (by omega)

/-- The registers that a port's coming back up writes. -/
def backRegs (n : Nat) : List Nat :=
  [Reg.portStatus n, Reg.portEvent n, Reg.portPitch n, Reg.neighbour n, Reg.portDelay n, Reg.portErrCount n]

/-- What a port that is back up shows. -/
structure BackUp (n : Nat) (obs : TrainObs) (s u : State) : Prop where
  but : LinkBut (backRegs n) n s u
  state : portState u n = 4
  width : rdF u (Reg.portStatus n) 13 12 = rdF s (Reg.portStatus n) 13 12
  event : rdB u (Reg.portEvent n) 0 = true
  errors : rdF u (Reg.portErrCount n) 15 0 = rdF s (Reg.portErrCount n) 15 0
  delay : rd u (Reg.portDelay n) = wd obs.delay16
  rest : (prt u n).restPhase = 0

theorem BackUp.sends (hn : n < 32) (h : BackUp n obs s u) (h' : Sends n u v) : BackUp n obs s v := by
  have h0 := h'.linkBut []
  have hp := h'.port
  refine ⟨h.but.trans (h'.linkBut _), ?_, ?_, ?_, ?_, ?_, ?_⟩
  · rw [portState_of_rd (h0.rd (near_portStatus n) (by simp))]; exact h.state
  · rw [rdF, h0.rd (near_portStatus n) (by simp)]; exact h.width
  · rw [rdB, h0.rd (near_portEvent n) (by simp)]; exact h.event
  · rw [rdF, h0.rd (near_portErrCount n) (by simp)]; exact h.errors
  · rw [h0.rd (near_portDelay hn) (by simp)]; exact h.delay
  · have := congrArg Port.restPhase hp
    exact this.trans h.rest

theorem BackUp.replays (hn : n < 32) (h : BackUp n obs s u) : BackUp n obs s (replayAll n u) := by
  obtain ⟨-, p1, p2, -, -, -, -, -, p3, -, p4, p5, -⟩ := linkPlaces n
  obtain ⟨h1, h2, h3⟩ := replayAll_but n u
  refine ⟨h.but.trans (h1.mono (by simp [backRegs])), ?_, ?_, ?_, h2.trans h.errors, ?_, h3.trans h.rest⟩
  · rw [portState_of_rd (h1.rd (near_portStatus n) (by simp only [List.mem_singleton]; omega))]; exact h.state
  · rw [rdF, h1.rd (near_portStatus n) (by simp only [List.mem_singleton]; omega)]; exact h.width
  · rw [rdB, h1.rd (near_portEvent n) (by simp only [List.mem_singleton]; omega)]; exact h.event
  · rw [h1.rd (near_portDelay hn) (by simp only [List.mem_singleton]; omega)]; exact h.delay

/-- A port is told of the neighbour and its credits, before it comes up. -/
def backNoted (n : Nat) (obs : TrainObs) (s : State) : State :=
  s |> noteNeighbour n obs |> release_ n obs.nbExpected |> noteCredits n obs |> portEvents n 1

theorem backUp_eq (h : expected s n obs = true) (hd : neighbourDiffers s n obs = false) :
    backUp n obs s = (fun z => flushHeld n (prt z n).held.length z)
      ((fun y => if (prt y n).replay = [] then y else replayAll n y) (comeUp n (backNoted n obs s))) := by
  unfold backUp
  dsimp only
  rw [h, hd]
  rfl

theorem backUp_spec (hn : n < 32) (h : expected s n obs = true) (hd : neighbourDiffers s n obs = false) :
    BackUp n obs s (backUp n obs s) := by
  obtain ⟨-, p1, p2, p3, -, -, -, -, p4, -, p5, p6, p7⟩ := linkPlaces n
  rw [backUp_eq h hd]
  obtain ⟨h1, -, h3⟩ := linkBut_noteNeighbour n obs s
  obtain ⟨x, hx⟩ : ∃ x, x = release_ n obs.nbExpected (noteNeighbour n obs s) := ⟨_, rfl⟩
  have hx1 : LinkBut [Reg.neighbour n, Reg.portStatus n] n s x ∧ ∀ hi lo, hi < 14 →
      rdF x (Reg.portStatus n) hi lo = rdF s (Reg.portStatus n) hi lo := by
    rw [hx]; exact ⟨h1.onPrt n _, h3⟩
  have hc := noteCredits_noted hn obs x
  have hbn : backNoted n obs s = portEvents n 1 (noteCredits n obs x) := by rw [hx]; rfl
  rw [hbn]
  generalize noteCredits n obs x = y at hc ⊢
  have hu := comeUp_cameUp hn (portEvents n 1 y)
  have he : ∀ a, a ≠ Reg.portEvent n → rd (portEvents n 1 y) a = rd y a := fun a ha => rd_orReg_ne _ _ ha
  have hev : rdB (portEvents n 1 y) (Reg.portEvent n) 0 = true := rdB_orReg_pow _ _ (i := 0) (by decide)
  have hwy : rdF y (Reg.portStatus n) 13 12 = rdF s (Reg.portStatus n) 13 12 := by
    rw [rdF, hc.but.rd (near_portStatus n) (by simp only [List.mem_singleton]; omega)]
    exact hx1.2 _ _ (by decide)
  have hby : LinkBut (backRegs n) n s (portEvents n 1 y) :=
    ((hx1.1.mono (by simp [backRegs])).trans (hc.but.mono (by simp [backRegs]))).wrReg (by simp [backRegs]) _
  have hey : rd (portEvents n 1 y) (Reg.portErrCount n) = rd s (Reg.portErrCount n) := by
    rw [he _ (by omega), hc.but.rd (near_portErrCount n) (by simp only [List.mem_singleton]; omega)]
    exact hx1.1.rd (near_portErrCount n) (by simp only [List.mem_cons, List.not_mem_nil, or_false]; omega)
  generalize comeUp n (portEvents n 1 y) = z at hu ⊢
  have hz : BackUp n obs s z := by
    have hnot : ∀ a, Near n a → a ≠ Reg.portStatus n → a ≠ Reg.portEvent n → a ≠ Reg.portPitch n →
        rd z a = rd (portEvents n 1 y) a := fun a ha h4 h5 h6 => hu.but.rd ha (by simp [upRegs, h4, h5, h6])
    refine ⟨hby.trans (hu.but.mono (by simp [upRegs, backRegs])), hu.state, ?_, hu.event 0 hev, ?_, ?_, hu.rest⟩
    · rw [hu.width, rdF, he _ (by omega)]; exact hwy
    · rw [rdF, hnot _ (near_portErrCount n) (by omega) (by omega) (by omega), hey]; rfl
    · rw [hnot _ (near_portDelay hn) (by omega) (by omega) (by omega), he _ (by omega)]
      exact hc.delay
  have hz' : BackUp n obs s ((fun y => if (prt y n).replay = [] then y else replayAll n y) z) := by
    dsimp only
    split
    · exact hz
    · exact hz.replays hn
  generalize (fun y => if (prt y n).replay = [] then y else replayAll n y) z = w at hz' ⊢
  exact hz'.sends hn (sends_flushHeld n _ w)

-- A train begins (R237, R238)

/-- What the start of a full train leaves. -/
structure TrainBegun (n : Nat) (s u : State) : Prop where
  state : portState u n = 2
  kept : Kept [Reg.portStatus n] s u
  out : u.out = s.out ++ [.train n]

theorem startTrain_begun (hl : n < licensedPorts s) (hb : (bondOf s n).isSome = true) (hf : rdB s (Reg.linkctl n) 4 = false) :
    TrainBegun n s (startTrain n s) := by
  have hne : bondOf s n ≠ none := fun h => by rw [h] at hb; cases hb
  unfold startTrain
  rw [if_neg (by omega), if_neg (by rw [hf]; simp [hne])]
  refine ⟨rdF_wrF_fits _ _ (by decide) (by decide) (by decide), ?_, rfl⟩
  exact ((Kept.refl _ s).wrF (a := Reg.portStatus n) (by simp) 3 0 2).of_same rfl rfl

-- Writes of LINKCTL (R250)

/-- What an admitted write of LINKCTL does. -/
def linkctlEffect (n : Nat) (v : Word) (s : State) : State :=
  let was := rdB s (Reg.linkctl n) 4
  let s := wrReg (Reg.linkctl n) (wd (fld v 4 3 * 8)) s
  let s := if bit v 4 && !was then forceDown n s else if was && !bit v 4 then startTrain n s else s
  s |> (if bit v 5 then startRetrain n else id) |> (if bit v 6 then askRest n else id) |> (if bit v 7 then askWake n else id)

theorem answered_linkctl (hw : LinkWriter s who n) {v : Word} (h1 : popCount (fld v 7 5) 3 ≤ 1) : ∃ au k,
    portCommand who n (Reg.linkctl n) (fun s => linkctlWrite who n v s) s = withAudit au k (linkctlEffect n v s) := by
  obtain ⟨hm, -, hp, -⟩ := hw
  have hs : skipsLog (Reg.linkctl n) = false := decide_eq_false (by
    simp only [Reg.linkctl, Reg.portBase, Reg.powerCap, Reg.coolant, Reg.fwShelf]; omega)
  obtain ⟨au, k, h⟩ := answered_withRole (s := s) hm hs (fun s =>
    if 1 < popCount (fld v 7 5) 3 then (false, s) else (true, linkctlEffect n v s))
  refine ⟨au, k, ?_⟩
  rw [if_neg (by omega)] at h
  unfold portCommand
  rw [if_pos hp]
  exact h

theorem fld_or (a b : Word) (hi lo : Nat) : fld (a ||| b) hi lo = fld a hi lo ||| fld b hi lo := by
  apply Nat.eq_of_testBit_eq
  intro i
  rw [Nat.testBit_or, fld_testBit, fld_testBit, fld_testBit, bit, bit, bit, BitVec.getLsbD_or]
  cases decide (i < hi + 1 - lo) <;> simp

/-- LINKCTL with one of its WO bits. -/
theorem linkctlWith_bits {i : Nat} (h : fld (rd s (Reg.linkctl n)) 7 5 = 0) (hi : i = 5 ∨ i = 6 ∨ i = 7) :
    popCount (fld (linkctlWith s n i) 7 5) 3 ≤ 1 ∧ (∀ j, j < 8 → 5 ≤ j → bit (linkctlWith s n i) j = decide (j = i))
      ∧ bit (linkctlWith s n i) 4 = rdB s (Reg.linkctl n) 4 := by
  have hz : ∀ j, j < 8 → 5 ≤ j → bit (rd s (Reg.linkctl n)) j = false := fun j h8 h5 => by
    have hb := congrArg (fun k => k.testBit (j - 5)) h
    simp only [fld_testBit, Nat.zero_testBit] at hb
    rw [show 5 + (j - 5) = j by omega] at hb
    simpa [show j - 5 < 7 + 1 - 5 by omega] using hb
  have hor : ∀ j, j < 64 → bit (linkctlWith s n i) j = (bit (rd s (Reg.linkctl n)) j || decide (j = i)) := fun j hj => by
    have hw : bit (wd (2 ^ i)) j = decide (j = i) := by
      rw [bit_wd _ hj, Nat.testBit_two_pow]
      exact decide_eq_decide.mpr ⟨fun h => h.symm, fun h => h.symm⟩
    rw [← hw, linkctlWith, bit, bit, bit, BitVec.getLsbD_or]
  refine ⟨?_, fun j h8 h5 => by rw [hor j (by omega), hz j h8 h5, Bool.false_or], ?_⟩
  · rw [linkctlWith, fld_or, h, Nat.zero_or]
    obtain rfl | rfl | rfl := hi <;> decide
  · rw [hor 4 (by decide), decide_eq_false (by omega), Bool.or_false]; rfl

end Sys2Proof.Machine
end

section
/-! PROOFS. The commands of retraining, FORCE_DOWN, rest and wake (R241–R248). -/

namespace Sys2Proof.Machine

variable {s u v : State} {n : Nat} {who : Writer} {obs : TrainObs}

-- What a write of LINKCTL does not touch

theorem bondOf_of_routes (h : ∀ a, 0x70000 ≤ a → a < 0x100000 → rd u a = rd s a) {m : Nat} (hm : m < 32) :
    bondOf u m = bondOf s m := by
  have h1 := h Reg.preset (by decide) (by decide)
  have h2 := h Reg.routeMachine (by decide) (by decide)
  have h3 := h Reg.deviceId (by decide) (by decide)
  have h4 := h (Reg.portBond m) (by simp only [Reg.portBond]; omega) (by simp only [Reg.portBond]; omega)
  simp only [bondOf, isSpare, presetBond, presetOf, hasExternal, ringLen, ownLocal, ownDev, rdF, h1, h2, h3, h4]
  rfl

theorem bondPorts_of_routes (h : ∀ a, 0x70000 ≤ a → a < 0x100000 → rd u a = rd s a) (b : Nat) : bondPorts u b = bondPorts s b :=
  List.filter_congr fun n hn => by rw [bondOf_of_routes h (List.mem_range.1 hn)]

/-- LINKCTL of a port, written. -/
def linkctlWritten (n : Nat) (v : Word) (s : State) : State := wrReg (Reg.linkctl n) (wd (fld v 4 3 * 8)) s

theorem rd_linkctlWritten {a : Nat} (h : a ≠ Reg.linkctl n) (v : Word) (s : State) : rd (linkctlWritten n v s) a = rd s a :=
  rd_wrReg_ne _ _ h

theorem forced_linkctlWritten (v : Word) (s : State) : rdB (linkctlWritten n v s) (Reg.linkctl n) 4 = bit v 4 := by
  rw [rdB, linkctlWritten, rd_wrReg_self, bit_wd _ (by decide), show fld v 4 3 * 8 = 2 ^ 3 * fld v 4 3 by omega,
    Nat.testBit_two_pow_mul, fld_testBit]
  rfl

theorem routes_linkctlWritten (n : Nat) (v : Word) (s : State) :
    ∀ a, 0x70000 ≤ a → a < 0x100000 → rd (linkctlWritten n v s) a = rd s a := fun a _ h2 =>
  rd_linkctlWritten (by rw [Reg.linkctl, Reg.portBase]; omega) v s

theorem portState_linkctlWritten (m : Nat) (v : Word) (s : State) : portState (linkctlWritten n v s) m = portState s m :=
  portState_of_rd (rd_linkctlWritten (by simp only [Reg.portStatus, Reg.linkctl, Reg.portBase]; omega) v s)

theorem mayNotRest_linkctlWritten (hn : n < 32) (v : Word) (s : State) : mayNotRest (linkctlWritten n v s) n = mayNotRest s n := by
  have hs : ∀ b e, portSched (linkctlWritten n v s) b n e = portSched s b n e := fun b e => by
    unfold portSched
    cases b
    · exact rd_linkctlWritten (by simp only [Bool.false_eq_true, if_false, Reg.schedA, Reg.linkctl]; omega) v s
    · exact rd_linkctlWritten (by simp only [if_true, Reg.schedB, Reg.linkctl]; omega) v s
  have ha : schedActive (linkctlWritten n v s) = schedActive s := by
    rw [schedActive, rdB, rd_linkctlWritten (by simp only [Reg.schedCtrl, Reg.linkctl, Reg.portBase]; omega)]; rfl
  simp only [mayNotRest, validEntries, bondOf_of_routes (routes_linkctlWritten n v s) hn,
    bondPorts_of_routes (routes_linkctlWritten n v s), portState_linkctlWritten, hs, ha]

/-- What LINKCTL does once it is written and its FORCE_DOWN has not changed. -/
theorem linkctlEffect_of_same {v : Word} (h : bit v 4 = rdB s (Reg.linkctl n) 4) : linkctlEffect n v s
    = ((fun x => (if bit v 7 then askWake n else id) ((if bit v 6 then askRest n else id) ((if bit v 5 then startRetrain n else id) x)))
      (linkctlWritten n v s)) := by
  unfold linkctlEffect
  dsimp only
  rw [h]
  cases rdB s (Reg.linkctl n) 4 <;> rfl

/-- A WO bit of LINKCTL, written by the one who may (R250). -/
theorem exec_linkctlWith {i : Nat} (hw : LinkWriter s who n) (hi : i = 5 ∨ i = 6 ∨ i = 7) (f : State → State)
    (hf : (fun x => (if decide (7 = i) then askWake n else id) ((if decide (6 = i) then askRest n else id)
      ((if decide (5 = i) then startRetrain n else id) x))) = f) : ∃ au k,
    portCommand who n (Reg.linkctl n) (fun t => linkctlWrite who n (linkctlWith s n i) t) s
      = withAudit au k (f (linkctlWritten n (linkctlWith s n i) s)) := by
  obtain ⟨h1, h2, h3⟩ := linkctlWith_bits hw.2.2.2 hi
  obtain ⟨au, k, h⟩ := answered_linkctl hw h1
  refine ⟨au, k, h.trans (congrArg _ ?_)⟩
  rw [linkctlEffect_of_same h3, h2 7 (by decide) (by decide), h2 6 (by decide) (by decide), h2 5 (by decide) (by decide)]
  exact congrFun hf _

theorem mem_linkctlWritten (v : Word) (s : State) : MemKept s (linkctlWritten n v s) := fun _ => rfl

theorem portState_withAudit (au : Map Audit) (k : Nat) (s : State) (m : Nat) : portState (withAudit au k s) m = portState s m := rfl

theorem prt_withAudit (au : Map Audit) (k : Nat) (s : State) (m : Nat) : prt (withAudit au k s) m = prt s m := rfl

-- Retraining (R241, R242)

theorem limitReached_of_none (h : (prt s n).limitDone = none) : limitReached n s
    = startRetrain n (onPrt n (fun p => { p with limitRetrain := true }) (portEvents n (2 ^ 2) s)) := by
  have hp : (prt (portEvents n (2 ^ 2) s) n).limitDone = none := h
  unfold limitReached
  generalize portEvents n (2 ^ 2) s = x at hp ⊢
  dsimp only
  rw [hp]
  rfl

theorem retrain_completes (hn : n < 32) (why : RetrainWhy) (h : portState s n = 4)
    (hl : why = .replayLimit → (prt s n).limitDone = none) : Completes (.retrain n why) s (fun u =>
      portState u n = 5 ∧ (prt u n).since = now s ∧ pitchState u n = 0 ∧ MemKept s u
        ∧ (∀ b, (retrainEvents why).testBit b = true → b < 64 → rdB u (Reg.portEvent n) b = true)) := by
  obtain ⟨x, f, hf, hex⟩ : ∃ x, ∃ f : Port → Port, x = onPrt n f (portEvents n (retrainEvents why) s)
      ∧ exec (.retrain n why) s = ok (startRetrain n x) := by
    by_cases hy : why = .replayLimit
    · subst hy
      refine ⟨_, fun p => { p with limitRetrain := true }, rfl, ?_⟩
      refine congrArg ok ((if_pos ⟨h, rfl⟩).trans ?_)
      exact limitReached_of_none (hl rfl)
    · refine ⟨_, fun p => { p with limitRetrain := p.limitRetrain || decide (why = .replayLimit) }, rfl, ?_⟩
      exact congrArg ok ((if_neg fun hc => hy hc.2).trans (if_pos (Or.inl h)))
  have hb : ∀ b, (retrainEvents why).testBit b = true → b < 64 → rdB x (Reg.portEvent n) b = true := fun b hb h64 => by
    rw [hf, rdB, rd_onPrt, ← rdB, portEvents, rdB_orReg_self, bit_wd _ h64, hb, Bool.or_true]
  have hs : portState x n = 4 := by
    rw [hf]
    refine (portState_of_rd ?_).trans h
    rw [rd_onPrt]
    exact rd_orReg_ne _ _ (by simp only [Reg.portStatus, Reg.portEvent]; omega)
  have hx : x.now = s.now ∧ MemKept s x := by rw [hf]; exact ⟨rfl, fun _ => rfl⟩
  have hr := startRetrain_begun hn hs
  refine ⟨_, hex, hr.state, ?_, hr.pitch, fun a => (hr.mem a).trans (hx.2 a), fun b h1 h2 => ?_⟩
  · rw [hr.port, now, hx.1]; rfl
  · rw [rdB, hr.regs _ (by simp only [Reg.portEvent, Reg.portBase]; omega) (by simp only [Reg.portEvent, Reg.portBase]; omega)
      (by simp only [Reg.portStatus, Reg.portEvent]; omega) (by simp only [Reg.portPitch, Reg.portEvent, Reg.portBase]; omega)]
    exact hb b h1 h2

theorem trainingPatternSeen_completes (hn : n < 32) (h : portState s n = 4) : Completes (.trainingPatternSeen n) s (fun u =>
    portState u n = 5 ∧ MemKept s u) :=
  ⟨_, congrArg ok (if_neg (by rw [h]; decide)), (startRetrain_begun hn h).state, (startRetrain_begun hn h).mem⟩

/-- What the steps of a training leave in STATUS and LANE_STATUS (R250, R252). -/
theorem noteWidth_spec {w : Nat} (hw : w < 4) (n : Nat) (obs : TrainObs) (s : State) :
    LinkBut [Reg.portStatus n, Reg.laneStatus n] n s (noteWidth n w obs s)
      ∧ rdF (noteWidth n w obs s) (Reg.portStatus n) 13 12 = w ∧ portState (noteWidth n w obs s) n = portState s n := by
  obtain ⟨-, p1, -, -, -, p2, -⟩ := linkPlaces n
  have hr : ∀ hi lo, hi < 15 → lo ≤ hi → rdF (noteWidth n w obs s) (Reg.portStatus n) hi lo
      = rdF (wrF (Reg.portStatus n) 11 8 0 (wrF (Reg.portStatus n) 13 12 w (wrB (Reg.portStatus n) 15 (obs.laneMap == 1)
          (wrF (Reg.portStatus n) 23 16 obs.polarity (wrF (Reg.portStatus n) 31 24 (lanesOf w) s))))) (Reg.portStatus n) hi lo :=
    fun hi lo _ _ => by
      unfold noteWidth
      rw [rdF, rd_onPrt]
      exact rdF_wrReg_ne _ _ _ _ (by omega)
  refine ⟨?_, ?_, ?_⟩
  · unfold noteWidth
    exact ((((((((LinkBut.refl _ n s).wrReg (by simp) _).wrReg (by simp) _).wrReg (by simp) _).wrReg (by simp) _).wrReg
      (by simp) _).wrReg (by simp) _).onPrt n _)
  · rw [hr 13 12 (by decide) (by decide), rdF_wrF_other _ _ _ _ _ _ _ (by decide) (by decide) (by decide)]
    exact rdF_wrF_fits _ _ (by decide) (by decide) hw
  · rw [portState, hr 3 0 (by decide) (by decide), rdF_wrF_other _ _ _ _ _ _ _ (by decide) (by decide) (by decide),
      rdF_wrF_other _ _ _ _ _ _ _ (by decide) (by decide) (by decide), rdF_wrB_other _ _ _ _ _ _ (by decide) (by decide),
      rdF_wrF_other _ _ _ _ _ _ _ (by decide) (by decide) (by decide), rdF_wrF_other _ _ _ _ _ _ _ (by decide) (by decide) (by decide)]
    rfl

/-- What a retrain leaves before the port is back up (R241, R242). -/
def retrained (n w : Nat) (obs : TrainObs) (s : State) : State :=
  s |> reportLanes n obs |> noteWidth n w obs
    |> onPrt n (fun p => { p with limitDone := if p.limitRetrain then some (now (reportLanes n obs s)) else p.limitDone, limitRetrain := false })
    |> noteAlloc n |> addSat (Reg.portErrCount n) 15 0 1

theorem exec_retrainDone {w : Nat} (h : portState s n = 5) (ht : trainWidth s n obs = .inl w) :
    exec (.retrainDone n obs) s = ok (backUp n obs (retrained n w obs s)) := by
  have hr : trainWidth (reportLanes n obs s) n obs = .inl w := by
    rw [← ht]
    unfold reportLanes
    split <;> rfl
  show execRetrainDone n obs s = _
  unfold execRetrainDone
  rw [if_neg (by rw [h]; decide)]
  dsimp only
  rw [hr]
  rfl

theorem linkBut_reportLanes (n : Nat) (obs : TrainObs) (s : State) : LinkBut [] n s (reportLanes n obs s) := by
  unfold reportLanes
  split
  · exact LinkBut.refl _ n s
  · exact (LinkBut.refl _ n s).emit _

theorem errorCounted {w e : Nat} {z : State} (hne : Reg.portStatus n ≠ Reg.portErrCount n)
    (h : LinkBut [Reg.portStatus n, Reg.laneStatus n, Reg.portErrCount n] n s z) (hw : rdF z (Reg.portStatus n) 13 12 = w)
    (he : rdF z (Reg.portErrCount n) 15 0 = e) :
    LinkBut [Reg.portStatus n, Reg.laneStatus n, Reg.portErrCount n] n s (addSat (Reg.portErrCount n) 15 0 1 z)
      ∧ rdF (addSat (Reg.portErrCount n) 15 0 1 z) (Reg.portStatus n) 13 12 = w
      ∧ rdF (addSat (Reg.portErrCount n) 15 0 1 z) (Reg.portErrCount n) 15 0 = min (e + 1) 65535 := by
  refine ⟨h.wrReg (by simp) _, (rdF_wrF_ne _ _ _ _ _ _ hne).trans hw, ?_⟩
  rw [rdF_addSat_self _ _ _ _ _ (by decide) (by decide), he]
  rfl

/-- What a retrain leaves near its port. -/
theorem retrained_spec {w : Nat} (hw : w < 4) (n : Nat) (obs : TrainObs) (s : State) :
    LinkBut [Reg.portStatus n, Reg.laneStatus n, Reg.portErrCount n] n s (retrained n w obs s)
      ∧ rdF (retrained n w obs s) (Reg.portStatus n) 13 12 = w
      ∧ rdF (retrained n w obs s) (Reg.portErrCount n) 15 0 = min (rdF s (Reg.portErrCount n) 15 0 + 1) 65535 := by
  obtain ⟨-, p1, -, -, -, p2, -, -, p3, -⟩ := linkPlaces n
  unfold retrained
  have h0 := linkBut_reportLanes n obs s
  generalize now (reportLanes n obs s) = t
  generalize reportLanes n obs s = x at h0 ⊢
  obtain ⟨h1, h2, -⟩ := noteWidth_spec hw n obs x
  generalize noteWidth n w obs x = y at h1 h2 ⊢
  have h3 : LinkBut [Reg.portStatus n, Reg.laneStatus n, Reg.portErrCount n] n s y := (h0.mono (by simp)).trans (h1.mono (by simp))
  have he : rd y (Reg.portErrCount n) = rd s (Reg.portErrCount n) := by
    rw [h1.rd (near_portErrCount n) (by simp only [List.mem_cons, List.not_mem_nil, or_false]; omega)]
    exact h0.rd (near_portErrCount n) (by simp)
  generalize hf : (fun p : Port => { p with limitDone := if p.limitRetrain then some t else p.limitDone, limitRetrain := false }) = f
  clear hf
  obtain ⟨z, hz⟩ : ∃ z, z = noteAlloc n (onPrt n f y) := ⟨_, rfl⟩
  have hrd : ∀ a, rd z a = rd y a := fun a => by rw [hz, noteAlloc, rd_onPrt, rd_onPrt]
  have h4 : LinkBut [Reg.portStatus n, Reg.laneStatus n, Reg.portErrCount n] n s z := by
    rw [hz]; exact (h3.onPrt n _).onPrt n _
  rw [← hz]
  exact errorCounted (by omega) h4 ((congrArg (fun w => fld w 13 12) (hrd _)).trans h2)
    ((congrArg (fun w => fld w 15 0) ((hrd _).trans he)))

theorem expected_of_rd (h : rd u (Reg.neighbourExp n) = rd s (Reg.neighbourExp n)) (obs : TrainObs) :
    expected u n obs = expected s n obs := by
  unfold expected
  rw [h]

theorem neighbourDiffers_of_rd (h : rd u (Reg.neighbour n) = rd s (Reg.neighbour n)) (obs : TrainObs) :
    neighbourDiffers u n obs = neighbourDiffers s n obs := by
  unfold neighbourDiffers
  rw [h]

theorem retrainDone_up (hn : n < 32) {w : Nat} (h : portState s n = 5) (ht : trainWidth s n obs = .inl w) (hw : w < 4)
    (he : expected s n obs = true) (hd : neighbourDiffers s n obs = false) : Completes (.retrainDone n obs) s (fun u =>
      portState u n = 4 ∧ rdF u (Reg.portStatus n) 13 12 = w ∧ rdB u (Reg.portEvent n) 0 = true
        ∧ rdF u (Reg.portErrCount n) 15 0 = min (rdF s (Reg.portErrCount n) 15 0 + 1) 65535 ∧ MemKept s u) := by
  obtain ⟨-, p1, -, p2, p3, p4, -, -, p5, -⟩ := linkPlaces n
  have hex := exec_retrainDone h ht
  obtain ⟨h1, h2, h3⟩ := retrained_spec hw n obs s
  generalize retrained n w obs s = x at hex h1 h2 h3
  have he' : expected x n obs = true := by
    rw [expected_of_rd (h1.rd (near_neighbourExp n) (by simp only [List.mem_cons, List.not_mem_nil, or_false]; omega))]; exact he
  have hd' : neighbourDiffers x n obs = false := by
    rw [neighbourDiffers_of_rd (h1.rd (near_neighbour n) (by simp only [List.mem_cons, List.not_mem_nil, or_false]; omega))]; exact hd
  have hb := backUp_spec hn he' hd'
  exact ⟨_, hex, hb.state, hb.width.trans h2, hb.event, hb.errors.trans h3, fun a => (hb.but.mem a).trans (h1.mem a)⟩

/-- The neighbour is not the one expected (R240): what the port shows. -/
structure Miswired (n : Nat) (obs : TrainObs) (u : State) : Prop where
  state : portState u n = 6
  event : rdB u (Reg.portEvent n) 6 = true
  neighbour : rd u (Reg.neighbour n) = neighbourWord obs

/-- A port becomes MISWIRED. -/
def toMiswired (n : Nat) (s : State) : State := s |> setPortState n 6 |> portEvents n (2 ^ 6) |> checkLink n []

theorem toMiswired_spec (obs : TrainObs) (h : rd s (Reg.neighbour n) = neighbourWord obs) :
    Miswired n obs (toMiswired n s) ∧ MemKept s (toMiswired n s) := by
  obtain ⟨-, p1, p2, p3, -⟩ := linkPlaces n
  obtain ⟨x, hx⟩ : ∃ x, x = portEvents n (2 ^ 6) (setPortState n 6 s) := ⟨_, rfl⟩
  have hm : Miswired n obs x := by
    rw [hx]
    refine ⟨?_, rdB_orReg_pow _ _ (by decide), ?_⟩
    · refine (portState_of_rd (rd_orReg_ne _ _ (by omega))).trans ?_
      exact rdF_wrF_fits _ _ (by decide) (by decide) (by decide)
    · exact (rd_orReg_ne _ _ (by omega)).trans ((rd_wrF_ne _ _ _ _ (by omega)).trans h)
  have hk : MemKept s x := by rw [hx]; exact fun _ => rfl
  have hc := (sends_checkLink n n [] x).linkBut []
  have he : toMiswired n s = checkLink n [] x := by rw [hx]; rfl
  rw [he]
  refine ⟨⟨?_, ?_, ?_⟩, fun a => (hc.mem a).trans (hk a)⟩
  · rw [portState_of_rd (hc.rd (near_portStatus n) (by simp))]; exact hm.state
  · rw [rdB, hc.rd (near_portEvent n) (by simp)]; exact hm.event
  · rw [hc.rd (near_neighbour n) (by simp)]; exact hm.neighbour

theorem backUp_miswired (he : expected s n obs = false) : Miswired n obs (backUp n obs s) := by
  have h : backUp n obs s = toMiswired n (noteNeighbour n obs (dropForNew n s)) := by
    unfold backUp
    dsimp only
    rw [he]
    rfl
  rw [h]
  exact (toMiswired_spec obs (linkBut_noteNeighbour n obs _).2.1).1

theorem retrainDone_miswired {w : Nat} (h : portState s n = 5) (ht : trainWidth s n obs = .inl w) (hw : w < 4)
    (he : expected s n obs = false) : Completes (.retrainDone n obs) s (fun u =>
      portState u n = 6 ∧ rdB u (Reg.portEvent n) 6 = true ∧ rd u (Reg.neighbour n) = neighbourWord obs) := by
  obtain ⟨-, p1, -, p2, p3, p4, -, -, p5, -⟩ := linkPlaces n
  have hex := exec_retrainDone h ht
  obtain ⟨h1, -, -⟩ := retrained_spec hw n obs s
  generalize retrained n w obs s = x at hex h1
  have he' : expected x n obs = false := by
    rw [expected_of_rd (h1.rd (near_neighbourExp n) (by simp only [List.mem_cons, List.not_mem_nil, or_false]; omega))]; exact he
  have hm := backUp_miswired he'
  exact ⟨_, hex, hm.state, hm.event, hm.neighbour⟩

theorem trainWidth_reason_lt {why : Nat} (h : trainWidth s n obs = .inr why) : why < 16 := by
  unfold trainWidth at h
  split at h
  · cases h; decide
  · dsimp only at h
    split at h
    · cases h; decide
    · split at h
      · cases h
      · cases h; decide

theorem retrainDone_down (hn : n < 32) {why : Nat} (h : portState s n = 5) (ht : trainWidth s n obs = .inr why) :
    Completes (.retrainDone n obs) s (WentDown n why) := by
  have hr : trainWidth (reportLanes n obs s) n obs = .inr why := by
    rw [← ht]
    unfold reportLanes
    split <;> rfl
  have hex : exec (.retrainDone n obs) s
      = ok (portDown n why (wrReg (Reg.laneStatus n) (laneWord 0 obs) (reportLanes n obs s))) := by
    show execRetrainDone n obs s = _
    unfold execRetrainDone
    rw [if_neg (by rw [h]; decide)]
    dsimp only
    rw [hr]
  exact ⟨_, hex, portDown_wentDown hn (trainWidth_reason_lt ht) _⟩

-- Writes of LINKCTL (R248, R250)

/-- What a command that writes LINKCTL leaves, when all of it lies outside the records of writes. -/
theorem completes_of_logged {c : Instr} {P : State → Prop} {x : State} (hex : ∃ au k, exec c s = ok (withAudit au k x))
    (h : ∀ au k, P (withAudit au k x)) : Completes c s P :=
  let ⟨au, k, he⟩ := hex
  ⟨_, he, h au k⟩

theorem portCommand_congr {a : Nat} {f g : State → Nat × State} (h : f s = g s) : portCommand who n a f s = portCommand who n a g s := by
  unfold portCommand
  rw [h]

theorem exec_retrainNowPort (hw : LinkWriter s who n) : ∃ au k, exec (.retrainNowPort who n) s
    = ok (withAudit au k (startRetrain n (linkctlWritten n (linkctlWith s n 5) s))) := by
  obtain ⟨au, k, h⟩ := exec_linkctlWith hw (i := 5) (Or.inl rfl) (startRetrain n) rfl
  refine ⟨au, k, ?_⟩
  show execRetrainNowPort who n s = _
  rw [execRetrainNowPort, ← h]
  exact congrArg ok (portCommand_congr rfl)

theorem retrainNowPort_completes (hw : LinkWriter s who n) (h : portState s n = 4) :
    Completes (.retrainNowPort who n) s (fun u => portState u n = 5 ∧ MemKept s u) := by
  have hr := startRetrain_begun (s := linkctlWritten n (linkctlWith s n 5) s) hw.2.1 (by rw [portState_linkctlWritten]; exact h)
  have hex := exec_retrainNowPort hw
  generalize startRetrain n (linkctlWritten n (linkctlWith s n 5) s) = x at hex hr
  refine completes_of_logged hex fun au k => ⟨?_, fun a => ?_⟩
  · rw [portState_withAudit]; exact hr.state
  · rw [memByte_withAudit]; exact hr.mem a

theorem forceDownSet_completes (hw : LinkWriter s who n) (hf : rdB s (Reg.linkctl n) 4 = false) :
    Completes (.forceDownSet who n) s (fun u =>
      portState u n = 0 ∧ rdF u (Reg.portStatus n) 11 8 = 3 ∧ rdB u (Reg.linkctl n) 4 = true) := by
  obtain ⟨p0, p1, p2, -⟩ := linkPlaces n
  obtain ⟨v, hv⟩ : ∃ v, v = linkctlWith s n 4 := ⟨_, rfl⟩
  have hbit : ∀ j, j < 64 → bit v j = (bit (rd s (Reg.linkctl n)) j || decide (j = 4)) := fun j hj => by
    have hb : bit (wd (2 ^ 4)) j = decide (j = 4) := by
      rw [bit_wd _ hj, Nat.testBit_two_pow]
      exact decide_eq_decide.mpr ⟨fun h => h.symm, fun h => h.symm⟩
    rw [hv, ← hb, linkctlWith, bit, bit, bit, BitVec.getLsbD_or]
  have hz : fld v 7 5 = 0 := by
    rw [hv, linkctlWith, fld_or, hw.2.2.2]; decide
  have h5 : ∀ j, 5 ≤ j → j < 8 → bit v j = false := fun j h1 h2 => by
    have hb := congrArg (fun k => k.testBit (j - 5)) hz
    simp only [fld_testBit, Nat.zero_testBit] at hb
    rw [show 5 + (j - 5) = j by omega] at hb
    simpa [show j - 5 < 7 + 1 - 5 by omega] using hb
  obtain ⟨au, k, hex⟩ := answered_linkctl hw (v := v) (by rw [hz]; decide)
  have he : linkctlEffect n v s = forceDown n (linkctlWritten n v s) := by
    unfold linkctlEffect
    dsimp only
    rw [h5 5 (by decide) (by decide), h5 6 (by decide) (by decide), h5 7 (by decide) (by decide), hbit 4 (by decide), hf]
    simp only [decide_true, Bool.or_true, Bool.not_false, Bool.and_true, if_true, Bool.false_eq_true, if_false, id]
    rfl
  have hl := portOff_spec (st := 0) (why := 3) hw.2.1 (by decide) (by decide) (linkctlWritten n v s)
  have hb : rdB (forceDown n (linkctlWritten n v s)) (Reg.linkctl n) 4 = true := by
    rw [rdB, forceDown, hl.regs _ ⟨by omega, by omega⟩ (by omega) (by omega), ← rdB, forced_linkctlWritten, hbit 4 (by decide)]
    simp
  have hex' : exec (.forceDownSet who n) s = ok (withAudit au k (forceDown n (linkctlWritten n v s))) := by
    show execForceDownSet who n s = _
    rw [execForceDownSet, ← he, ← hex, hv]
    exact congrArg ok (portCommand_congr rfl)
  rw [← forceDown] at hl
  generalize forceDown n (linkctlWritten n v s) = x at hl hb hex'
  refine completes_of_logged ⟨au, k, hex'⟩ fun au k => ⟨?_, ?_, ?_⟩
  · rw [portState_withAudit]; exact hl.state
  · rw [rdF_withAudit]; exact hl.reason
  · rw [rdB_withAudit]; exact hb

theorem forceDownClear_completes (hw : LinkWriter s who n) (hf : rdB s (Reg.linkctl n) 4 = true) (hl : n < licensedPorts s)
    (hb : (bondOf s n).isSome = true) : Completes (.forceDownClear who n) s (fun u =>
      portState u n = 2 ∧ rdB u (Reg.linkctl n) 4 = false ∧ MemKept s u) := by
  obtain ⟨p0, p1, p2, -⟩ := linkPlaces n
  obtain ⟨v, hv⟩ : ∃ v, v = setBit (rd s (Reg.linkctl n)) 4 false := ⟨_, rfl⟩
  have h4 : bit v 4 = false := by rw [hv]; exact bit_setBit_self _ _ _ (by decide)
  have hz : fld v 7 5 = 0 := by
    rw [hv, ← hw.2.2.2]
    exact fld_setBit_other _ _ _ _ _ (by decide) (Or.inr (by decide))
  have h5 : ∀ j, 5 ≤ j → j < 8 → bit v j = false := fun j h1 h2 => by
    have hb := congrArg (fun k => k.testBit (j - 5)) hz
    simp only [fld_testBit, Nat.zero_testBit] at hb
    rw [show 5 + (j - 5) = j by omega] at hb
    simpa [show j - 5 < 7 + 1 - 5 by omega] using hb
  obtain ⟨au, k, hex⟩ := answered_linkctl hw (v := v) (by rw [hz]; decide)
  have he : linkctlEffect n v s = startTrain n (linkctlWritten n v s) := by
    unfold linkctlEffect
    dsimp only
    rw [h5 5 (by decide) (by decide), h5 6 (by decide) (by decide), h5 7 (by decide) (by decide), h4, hf]
    rfl
  have ht := startTrain_begun (s := linkctlWritten n v s) (n := n)
    (by
      have : licensedPorts (linkctlWritten n v s) = licensedPorts s := by
        rw [licensedPorts, rdF, rd_linkctlWritten (by simp only [Reg.capability, Reg.linkctl, Reg.portBase]; omega)]; rfl
      omega)
    (by rw [bondOf_of_routes (routes_linkctlWritten n v s) hw.2.1]; exact hb)
    (by rw [forced_linkctlWritten, h4])
  have hb' : rdB (startTrain n (linkctlWritten n v s)) (Reg.linkctl n) 4 = false := by
    rw [rdB, ht.kept.regs _ (by simp only [List.mem_singleton]; omega), ← rdB, forced_linkctlWritten, h4]
  have hex' : exec (.forceDownClear who n) s = ok (withAudit au k (startTrain n (linkctlWritten n v s))) := by
    show execForceDownClear who n s = _
    rw [execForceDownClear, ← he, ← hex, hv]
    exact congrArg ok (portCommand_congr rfl)
  have hm : MemKept s (startTrain n (linkctlWritten n v s)) := ht.kept.mem
  have hs := ht.state
  generalize startTrain n (linkctlWritten n v s) = x at hs hb' hex' hm
  refine completes_of_logged ⟨au, k, hex'⟩ fun au k => ⟨?_, ?_, fun a => ?_⟩
  · rw [portState_withAudit]; exact hs
  · rw [rdB_withAudit]; exact hb'
  · rw [memByte_withAudit]; exact hm a

theorem linkRetraining : LinkRetraining := by
  unfold LinkRetraining
  intro n s hn
  exact ⟨fun why h hl => retrain_completes hn why h hl, fun h => trainingPatternSeen_completes hn h,
    fun obs w h ht hw => ⟨fun he hd => retrainDone_up hn h ht hw he hd, fun he => retrainDone_miswired h ht hw he⟩,
    fun obs why h ht => retrainDone_down hn h ht, fun who hw => ⟨fun h _ => retrainNowPort_completes hw h,
      fun hf => forceDownSet_completes hw hf, fun hf hl hb => forceDownClear_completes hw hf hl hb⟩⟩

end Sys2Proof.Machine
end

section
/-! PROOFS. Rest and wake of a port (R245–R247). -/

namespace Sys2Proof.Machine

variable {s u v : State} {n : Nat} {who : Writer} {obs : TrainObs}

/-- A port's turn to rest, by whether its bond has let it go and all it sent is acknowledged. -/
def restTurn (free : Bool) (n : Nat) (s : State) : State :=
  if free then
    if (prt s n).restPhase = 1 then sendCtrl n 1 (onPrt n (fun p => { p with restPhase := 2 }) s)
    else if (prt s n).restPhase = 3 then onPrt n (fun p => { p with restPhase := 0 }) (setPortState n 7 (sendCtrl n 2 s))
    else s
  else s

theorem restTurn_cases (free : Bool) (n : Nat) (s : State) : restTurn free n s = s
    ∨ ((prt s n).restPhase = 1 ∧ restTurn free n s = sendCtrl n 1 (onPrt n (fun p => { p with restPhase := 2 }) s))
    ∨ ((prt s n).restPhase = 3 ∧ restTurn free n s
        = onPrt n (fun p => { p with restPhase := 0 }) (setPortState n 7 (sendCtrl n 2 s))) := by
  unfold restTurn
  split
  · split
    · next h => exact Or.inr (Or.inl ⟨h, rfl⟩)
    · split
      · next h => exact Or.inr (Or.inr ⟨h, rfl⟩)
      · exact Or.inl rfl
  · exact Or.inl rfl

/-- The three things that a port on its way to rest may do next. -/
theorem restStep_cases (n : Nat) (s : State) : restStep n s = s
    ∨ ((prt s n).restPhase = 1 ∧ restStep n s = sendCtrl n 1 (onPrt n (fun p => { p with restPhase := 2 }) s))
    ∨ ((prt s n).restPhase = 3 ∧ restStep n s
        = onPrt n (fun p => { p with restPhase := 0 }) (setPortState n 7 (sendCtrl n 2 s))) := by
  exact restTurn_cases _ n s

theorem sendCtrl_out (n what : Nat) (s : State) : ∃ a v k, .ctrl n a v k what ∈ (sendCtrl n what s).out :=
  ⟨_, _, _, List.mem_append_right _ (List.mem_singleton_self _)⟩

theorem Sends.portState (h : Sends n s u) : portState u n = portState s n := h.link.portState

theorem Sends.restPhase (h : Sends n s u) : (prt u n).restPhase = (prt s n).restPhase :=
  (congrArg Port.restPhase h.port : _)

theorem Sends.since (h : Sends n s u) : (prt u n).since = (prt s n).since :=
  (congrArg Port.since h.port : _)

/-- A port that has begun to rest, before it looks whether it may. -/
structure Resting (n phase : Nat) (s u : State) : Prop where
  state : portState u n = portState s n
  phase : (prt u n).restPhase = phase
  since : (prt u n).since = now s
  mem : MemKept s u

theorem Resting.sends {phase : Nat} (h : Resting n phase s u) (h' : Sends n u v) : Resting n phase s v :=
  ⟨h'.portState.trans h.state, h'.restPhase.trans h.phase, h'.since.trans h.since, fun a => (h'.mem a).trans (h.mem a)⟩

theorem Resting.phaseTo {phase k : Nat} (h : Resting n phase s u) : Resting n k s (onPrt n (fun p => { p with restPhase := k }) u) :=
  ⟨h.state, congrArg Port.restPhase (prt_onPrt_self u n _), (congrArg Port.since (prt_onPrt_self u n _)).trans h.since, h.mem⟩

/-- A port that begins to rest leaves its bond first (R245). -/
theorem beginRest_eq (n phase : Nat) (s : State) : ∃ x, beginRest n phase s = restStep n x ∧ Resting n phase s x := by
  refine ⟨_, rfl, Resting.sends ?_ (sends_leaveBond n n _)⟩
  exact ⟨rfl, congrArg Port.restPhase (prt_onPrt_self s n _), congrArg Port.since (prt_onPrt_self s n _), fun _ => rfl⟩

/-- A port asks to rest (R245). -/
theorem beginRest_asks (n : Nat) (s : State) : ∃ k, Resting n k s (beginRest n 1 s)
    ∧ (k = 1 ∨ (k = 2 ∧ ∃ a v k, .ctrl n a v k 1 ∈ (beginRest n 1 s).out)) := by
  obtain ⟨x, hx, hr⟩ := beginRest_eq n 1 s
  rw [hx]
  rcases restStep_cases n x with h | ⟨-, h⟩ | ⟨h3, -⟩
  · exact ⟨1, by rw [h]; exact hr, Or.inl rfl⟩
  · rw [h]
    exact ⟨2, hr.phaseTo.sends (sends_sendCtrl n n 1 _), Or.inr ⟨rfl, sendCtrl_out n 1 _⟩⟩
  · rw [hr.phase] at h3; cases h3

/-- A port answers that its other end may rest (R245). -/
theorem beginRest_answers (n : Nat) (s : State) : MemKept s (beginRest n 3 s)
    ∧ ((portState (beginRest n 3 s) n = portState s n ∧ (prt (beginRest n 3 s) n).restPhase = 3)
      ∨ (portState (beginRest n 3 s) n = 7 ∧ ∃ a v k, .ctrl n a v k 2 ∈ (beginRest n 3 s).out)) := by
  obtain ⟨x, hx, hr⟩ := beginRest_eq n 3 s
  rw [hx]
  rcases restStep_cases n x with h | ⟨h1, -⟩ | ⟨-, h⟩
  · rw [h]; exact ⟨hr.mem, Or.inl ⟨hr.state, hr.phase⟩⟩
  · rw [hr.phase] at h1; cases h1
  · rw [h]
    have hs := sends_sendCtrl n n 2 x
    have ho := sendCtrl_out n 2 x
    generalize sendCtrl n 2 x = y at hs ho ⊢
    exact ⟨fun a => (hs.mem a).trans (hr.mem a), Or.inr ⟨rdF_wrF_fits _ _ (by decide) (by decide) (by decide), ho⟩⟩

theorem exec_rest (hw : LinkWriter s who n) : ∃ au k, exec (.rest who n) s
    = ok (withAudit au k (askRest n (linkctlWritten n (linkctlWith s n 6) s))) := by
  obtain ⟨au, k, h⟩ := exec_linkctlWith hw (i := 6) (Or.inr (Or.inl rfl)) (askRest n) rfl
  refine ⟨au, k, ?_⟩
  show execRest who n s = _
  rw [execRest, ← h]
  exact congrArg ok (portCommand_congr rfl)

theorem rest_begins (hw : LinkWriter s who n) (h : portState s n = 4) (hm : mayNotRest s n = false) (hp : (prt s n).restPhase = 0) :
    Completes (.rest who n) s (fun u => portState u n = 4 ∧ (prt u n).since = now s ∧ MemKept s u
      ∧ ((prt u n).restPhase = 1 ∨ ((prt u n).restPhase = 2 ∧ ∃ a v k, .ctrl n a v k 1 ∈ u.out))) := by
  have hex := exec_rest hw
  have ha : askRest n (linkctlWritten n (linkctlWith s n 6) s) = beginRest n 1 (linkctlWritten n (linkctlWith s n 6) s) :=
    if_neg (by rw [mayNotRest_linkctlWritten hw.2.1, hm, show prt (linkctlWritten n _ s) n = prt s n from rfl, hp]; decide)
  rw [ha] at hex
  obtain ⟨k, hr, hk⟩ := beginRest_asks n (linkctlWritten n (linkctlWith s n 6) s)
  have hs : portState (linkctlWritten n (linkctlWith s n 6) s) n = 4 := (portState_linkctlWritten n _ s).trans h
  generalize beginRest n 1 (linkctlWritten n (linkctlWith s n 6) s) = x at hex hr hk
  refine completes_of_logged hex fun au j => ⟨hr.state.trans hs, hr.since, hr.mem, ?_⟩
  rw [prt_withAudit, hr.phase]
  exact hk

theorem rest_refused (hw : LinkWriter s who n) (h : portState s n = 4) (hm : mayNotRest s n = true) :
    Completes (.rest who n) s (fun u => portState u n = 4 ∧ prt u n = prt s n ∧ rdB u (Reg.portEvent n) 8 = true ∧ MemKept s u) := by
  obtain ⟨-, p1, p2, -⟩ := linkPlaces n
  have hex := exec_rest hw
  have ha : askRest n (linkctlWritten n (linkctlWith s n 6) s) = portEvents n (2 ^ 8) (linkctlWritten n (linkctlWith s n 6) s) :=
    if_pos (by rw [mayNotRest_linkctlWritten hw.2.1, hm]; rfl)
  rw [ha] at hex
  have hs : portState (linkctlWritten n (linkctlWith s n 6) s) n = 4 := (portState_linkctlWritten n _ s).trans h
  refine completes_of_logged hex fun au k => ⟨?_, rfl, ?_, fun _ => rfl⟩
  · rw [portState_withAudit]
    exact (portState_of_rd (rd_orReg_ne _ _ (by omega))).trans hs
  · rw [rdB_withAudit]
    exact rdB_orReg_pow _ _ (by decide)

theorem exec_restReq (h : portState s n = 4) (hp : (prt s n).restPhase = 0) :
    exec (.restReq n) s = ok (if mayNotRest s n then sendCtrl n 3 s else beginRest n 3 s) := by
  show execRestReq n s = _
  unfold execRestReq
  rw [if_neg (by rw [h]; decide), if_neg (by rw [hp]; decide)]

theorem restReq_refused (h : portState s n = 4) (hp : (prt s n).restPhase = 0) (hm : mayNotRest s n = true) :
    Completes (.restReq n) s (fun u => u.out = s.out ++ [.ctrl n (ackSeq (prt s n)) (takeReturn (prt s n)).1 (takeReturn (prt s n)).2.1 3]
      ∧ prt u n = (takeReturn (prt s n)).2.2 ∧ RegsKept [] s u ∧ MemKept s u) := by
  have hex := exec_restReq h hp
  rw [hm, if_pos rfl] at hex
  exact ⟨_, hex, rfl, by rw [sendCtrl, prt_emit, prt_onPrt_self], fun _ _ => rfl, fun _ => rfl⟩

theorem restReq_accepted (h : portState s n = 4) (hp : (prt s n).restPhase = 0) (hm : mayNotRest s n = false) :
    Completes (.restReq n) s (fun u => MemKept s u
      ∧ ((portState u n = 4 ∧ (prt u n).restPhase = 3) ∨ (portState u n = 7 ∧ ∃ a v k, .ctrl n a v k 2 ∈ u.out))) := by
  have hex := exec_restReq h hp
  rw [hm, if_neg Bool.false_ne_true] at hex
  obtain ⟨h1, h2⟩ := beginRest_answers n s
  rw [h] at h2
  exact ⟨_, hex, h1, h2⟩

theorem restAck_completes (h : portState s n = 4) (hp : (prt s n).restPhase = 2) : Completes (.restAck n) s (fun u =>
    portState u n = 7 ∧ (prt u n).restPhase = 0 ∧ RegsKept [Reg.portStatus n] s u ∧ MemKept s u) := by
  refine ⟨_, congrArg ok (if_pos ⟨h, hp⟩), ?_, congrArg Port.restPhase (prt_onPrt_self _ n _), fun a ha => ?_, fun _ => rfl⟩
  · exact rdF_wrF_fits s (Reg.portStatus n) (by decide) (by decide) (by decide)
  · rw [rd_onPrt]
    exact rd_wrF_ne _ _ _ _ (by simpa using ha)

/-- A rest that is refused (R245). -/
theorem refuseRest_spec (n : Nat) (s : State) : portState (refuseRest n s) n = portState s n ∧ (prt (refuseRest n s) n).restPhase = 0
    ∧ rdB (refuseRest n s) (Reg.portEvent n) 8 = true ∧ MemKept s (refuseRest n s) ∧ (refuseRest n s).now = s.now := by
  obtain ⟨-, p1, p2, -⟩ := linkPlaces n
  obtain ⟨x, hx⟩ : ∃ x, x = onPrt n (fun p => { p with restPhase := 0 }) (portEvents n (2 ^ 8) s) := ⟨_, rfl⟩
  have he : refuseRest n s = (if (prt s n).restPhase = 0 then id else joinBond n) x := by rw [hx]; rfl
  have hs : Sends n x (refuseRest n s) := by
    rw [he]
    split
    · exact Sends.refl n x
    · exact sends_joinBond n n x
  have h1 : portState x n = portState s n := by
    rw [hx]
    exact portState_of_rd (rd_orReg_ne _ _ (by omega))
  have h2 : (prt x n).restPhase = 0 := by
    rw [hx]
    exact congrArg Port.restPhase (prt_onPrt_self _ n _)
  have h3 : rdB x (Reg.portEvent n) 8 = true := by
    rw [hx]
    rw [rdB, rd_onPrt, ← rdB]
    exact rdB_orReg_pow _ _ (by decide)
  have h4 : MemKept s x ∧ x.now = s.now := by rw [hx]; exact ⟨fun _ => rfl, rfl⟩
  refine ⟨hs.portState.trans h1, hs.restPhase.trans h2, ?_, fun a => (hs.mem a).trans (h4.1 a), hs.now.trans h4.2⟩
  rw [rdB, (hs.linkBut []).rd (near_portEvent n) (by simp)]
  exact h3

theorem restNak_completes (h : portState s n = 4) (hp : (prt s n).restPhase ≠ 0) : Completes (.restNak n) s (fun u =>
    portState u n = 4 ∧ (prt u n).restPhase = 0 ∧ rdB u (Reg.portEvent n) 8 = true ∧ MemKept s u) := by
  obtain ⟨h1, h2, h3, h4, -⟩ := refuseRest_spec n s
  exact ⟨_, congrArg ok (if_pos ⟨h, hp⟩), h1.trans h, h2, h3, h4⟩

theorem portState_clockTo (t m : Nat) (s : State) : portState (clockTo t s) m = portState s m := by
  obtain ⟨_, _, hc⟩ := clockTo_cases s t
  rw [hc]
  rfl

theorem restTimeout_completes (h : portState s n = 4) (hp : (prt s n).restPhase ≠ 0) (ht : (prt s n).since + 32000 < 2 ^ 64) :
    Completes (.restTimeout n) s (fun u => portState u n = 4 ∧ (prt u n).restPhase = 0 ∧ rdB u (Reg.portEvent n) 8 = true
      ∧ (prt s n).since + 32000 ≤ now u ∧ MemKept s u) := by
  have hex : exec (.restTimeout n) s = ok (refuseRest n (clockTo ((prt s n).since + 32000) s)) := congrArg ok (if_pos ⟨h, hp⟩)
  obtain ⟨k, hk⟩ : ∃ k, k = (prt s n).since + 32000 := ⟨_, rfl⟩
  rw [← hk] at hex ht ⊢
  have hc := now_clockTo s k ht
  have hs := portState_clockTo k n s
  have hm : MemKept s (clockTo k s) := fun a => by obtain ⟨_, _, he⟩ := clockTo_cases s k; rw [he]; rfl
  obtain ⟨h1, h2, h3, h4, h5⟩ := refuseRest_spec n (clockTo k s)
  refine ⟨_, hex, h1.trans (hs.trans h), h2, h3, ?_, fun a => (h4 a).trans (hm a)⟩
  rw [now, h5]
  exact hc

/-- A port that wakes (R246). -/
theorem wakePort_spec (h : portState s n = 7) : portState (wakePort n s) n = 8 ∧ (prt (wakePort n s) n).since = now s
    ∧ .train n ∈ (wakePort n s).out ∧ MemKept s (wakePort n s) := by
  unfold wakePort
  rw [if_pos h]
  refine ⟨?_, by rw [prt_emit, prt_onPrt_self], List.mem_append_right _ (List.mem_singleton_self _), fun _ => rfl⟩
  exact rdF_wrF_fits s (Reg.portStatus n) (by decide) (by decide) (by decide)

theorem exec_wakeWrite (hw : LinkWriter s who n) : ∃ au k, exec (.wake n (.write who)) s
    = ok (withAudit au k (askWake n (linkctlWritten n (linkctlWith s n 7) s))) := by
  obtain ⟨au, k, h⟩ := exec_linkctlWith hw (i := 7) (Or.inr (Or.inr rfl)) (askWake n) rfl
  refine ⟨au, k, ?_⟩
  show execWake n (.write who) s = _
  rw [execWake, ← h]
  exact congrArg ok (portCommand_congr rfl)

theorem wakeWrite_completes (hw : LinkWriter s who n) (h : portState s n = 7) : Completes (.wake n (.write who)) s (fun u =>
    portState u n = 8 ∧ (prt u n).since = now s ∧ .train n ∈ u.out ∧ MemKept s u) := by
  have hex := exec_wakeWrite hw
  have hs : portState (linkctlWritten n (linkctlWith s n 7) s) n = 7 := (portState_linkctlWritten n _ s).trans h
  have ha : askWake n (linkctlWritten n (linkctlWith s n 7) s) = wakePort n (linkctlWritten n (linkctlWith s n 7) s) :=
    if_neg fun hc => by rw [hs] at hc; cases hc.1
  rw [ha] at hex
  obtain ⟨h1, h2, h3, h4⟩ := wakePort_spec hs
  generalize wakePort n (linkctlWritten n (linkctlWith s n 7) s) = x at hex h1 h2 h3 h4
  exact completes_of_logged hex fun au k => ⟨h1, h2, h3, h4⟩

theorem wake_completes (h : portState s n = 7) (why : WakeWhy)
    (hy : why = .signal ∨ why = .packet ∨ ∃ who, why = .write who ∧ LinkWriter s who n ∧ rdB s (Reg.linkctl n) 4 = false) :
    Completes (.wake n why) s (fun u => portState u n = 8 ∧ (prt u n).since = now s ∧ .train n ∈ u.out ∧ MemKept s u) := by
  rcases hy with rfl | rfl | ⟨who, rfl, hw, -⟩
  · exact ⟨_, rfl, wakePort_spec h⟩
  · exact ⟨_, rfl, wakePort_spec h⟩
  · exact wakeWrite_completes hw h

theorem wakeDone_up (hn : n < 32) (h : portState s n = 8) (hl : obs.locked = true) (he : expected s n obs = true)
    (hd : neighbourDiffers s n obs = false) : Completes (.wakeDone n obs) s (fun u =>
      portState u n = 4 ∧ (prt u n).restPhase = 0 ∧ rd u (Reg.portDelay n) = wd obs.delay16 ∧ MemKept s u) := by
  have hex : exec (.wakeDone n obs) s = ok (backUp n obs s) := congrArg ok ((if_pos h).trans (if_pos hl))
  have hb := backUp_spec hn he hd
  exact ⟨_, hex, hb.state, hb.rest, hb.delay, hb.but.mem⟩

theorem wakeDone_down (hn : n < 32) (h : portState s n = 8) (hl : obs.locked = false) : Completes (.wakeDone n obs) s (WentDown n 9) :=
  ⟨_, congrArg ok ((if_pos h).trans (if_neg (by rw [hl]; exact Bool.false_ne_true))), portDown_wentDown hn (by decide) s⟩

theorem wakeTimeout_completes (hn : n < 32) (h : portState s n = 8) : Completes (.wakeTimeout n) s (WentDown n 9) :=
  ⟨_, congrArg ok (if_pos h), portDown_wentDown hn (by decide) _⟩

theorem linkRestAndWake : LinkRestAndWake := by
  unfold LinkRestAndWake
  intro n s hn
  refine ⟨fun who hw _ h => ⟨fun hm hp => rest_begins hw h hm hp, fun hm => rest_refused hw h hm⟩,
    fun h hp => ⟨?_, fun hm => restReq_accepted h hp hm⟩, fun h hp => restAck_completes h hp,
    fun h hp => ⟨restNak_completes h hp, fun ht => restTimeout_completes h hp ht⟩, fun h why hy => wake_completes h why hy,
    fun h => ⟨fun _ hl he hd => wakeDone_up hn h hl he hd, fun _ hl => wakeDone_down hn h hl, wakeTimeout_completes hn h⟩⟩
  rintro r hm rfl
  exact restReq_refused h hp hm

/-- Settles O36: retraining and FORCE_DOWN, then rest and wake, each with what a port's registers show after it. -/
theorem linkRetrainingRestAndWake : Obligations.LinkRetrainingRestAndWake := ⟨linkRetraining, linkRestAndWake⟩

end Sys2Proof.Machine
end

section
/-! PROOFS. Training and qualification of a port (R236–R243). -/

namespace Sys2Proof.Machine

variable {s u v : State} {n w : Nat} {who : Writer} {obs : TrainObs}

-- Signals and silence (R236, R237)

theorem prt_clockTo (t m : Nat) (s : State) : prt (clockTo t s) m = prt s m := by
  obtain ⟨_, _, hc⟩ := clockTo_cases s t
  rw [hc]
  rfl

theorem out_clockTo (t : Nat) (s : State) : (clockTo t s).out = s.out := by
  obtain ⟨_, _, hc⟩ := clockTo_cases s t
  rw [hc]

theorem laneLos_completes (hn : n < 32) (h : portState s n ∈ [2, 3, 4, 5, 6, 8]) : Completes (.laneLos n) s (WentDown n 1) := by
  have hex : exec (.laneLos n) s = ok (portDown n 1 s) := by
    show execLaneLos n s = _
    unfold execLaneLos
    simp only [List.mem_cons, List.not_mem_nil, or_false] at h
    rcases h with h | h | h | h | h | h <;> rw [h] <;> rfl
  exact ⟨_, hex, portDown_wentDown hn (by decide) s⟩

theorem txOffExpiry_completes {t : Nat} (h : (prt s n).txOffUntil = some t) (ht : t < 2 ^ 64) : Completes (.txOffExpiry n) s (fun u =>
    (prt u n).txOffUntil = none ∧ t ≤ now u ∧ u.out = s.out ++ [.train n] ∧ RegsKept [] s u ∧ MemKept s u) := by
  have hex : exec (.txOffExpiry n) s = ok (emit (.train n) (onPrt n (fun p => { p with txOffUntil := none }) (clockTo t s))) := by
    show execTxOffExpiry n s = _
    unfold execTxOffExpiry
    rw [h]
  refine ⟨_, hex, by rw [prt_emit, prt_onPrt_self], now_clockTo s t ht, ?_, fun a _ => ?_, fun a => ?_⟩
  · exact congrArg (· ++ [Out.train n]) (out_clockTo t s)
  · exact rd_clockTo s t a
  · exact memByte_clockTo t a

theorem signalDetect_completes (hc : n < portCount s) (h : portState s n = 1) (hd : domainIsOn s (52 + 2 * (n / 8)) = true)
    (hl : n < licensedPorts s) (hb : (bondOf s n).isSome = true) (hf : rdB s (Reg.linkctl n) 4 = false) :
    Completes (.signalDetect n) s (fun u =>
      portState u n = 2 ∧ u.out = s.out ++ [.train n] ∧ RegsKept [Reg.portStatus n] s u ∧ MemKept s u) :=
  have ht := startTrain_begun hl hb hf
  ⟨_, congrArg ok (if_pos ⟨hc, h, hd⟩), ht.state, ht.out, ht.kept.regs, ht.kept.mem⟩

theorem trainTimeout_completes (hn : n < 32) (h : portState s n = 2) : Completes (.trainTimeout n) s (WentDown n 8) :=
  ⟨_, congrArg ok (if_pos h), portDown_wentDown hn (by decide) _⟩

-- The train's own steps (R238–R240)

theorem trainWidth_lt (h : trainWidth s n obs = .inl w) : w < 4 := by
  have hw : ∀ lanes half, widthFor lanes half < 4 := fun lanes half => by
    unfold widthFor
    split
    · decide
    · split
      · decide
      · split
        · decide
        · split <;> decide
  unfold trainWidth at h
  split at h
  · cases h
  · dsimp only at h
    split at h
    · cases h
    · split at h
      · cases h; exact hw _ _
      · cases h

theorem laneMap_of_trainWidth (h : trainWidth s n obs = .inl w) : obs.laneMap < 2 := by
  unfold trainWidth at h
  split at h
  · cases h
  · omega

theorem trainWidth_reportLanes : trainWidth (reportLanes n obs s) n obs = trainWidth s n obs := by
  unfold reportLanes
  split <;> rfl

/-- What reporting the lanes leaves: one word out. -/
theorem reportLanes_eq (h : obs.laneMap < 2) : reportLanes n obs s = emit (.lanes n obs.rxLanes (rdB s (Reg.linkctl n) 3)) s :=
  if_neg (by omega)

theorem rd_noteWidth {a : Nat} (h1 : a ≠ Reg.portStatus n) (h2 : a ≠ Reg.laneStatus n) (s : State) : rd (noteWidth n w obs s) a = rd s a := by
  unfold noteWidth
  rw [rd_onPrt]
  exact (rd_wrReg_ne _ _ h2).trans ((rd_wrF_ne _ _ _ _ h1).trans ((rd_wrF_ne _ _ _ _ h1).trans ((rd_wrB_ne _ _ _ h1).trans
    ((rd_wrF_ne _ _ _ _ h1).trans (rd_wrF_ne _ _ _ _ h1)))))

theorem out_noteWidth (n w : Nat) (obs : TrainObs) (s : State) : (noteWidth n w obs s).out = s.out := rfl

theorem identity_of_rd (h1 : rd u Reg.deviceId = rd s Reg.deviceId) (h2 : rd u Reg.capability = rd s Reg.capability) :
    ownDev u = ownDev s ∧ maxDevices u = maxDevices s := by
  constructor
  · rw [ownDev, rdF, h1]; rfl
  · rw [maxDevices, rdF, h2]; rfl

/-- A port that has met its neighbour, before it is compared with the expected one. -/
def trainMet (n w : Nat) (obs : TrainObs) (s : State) : State := s |> reportLanes n obs |> noteWidth n w obs |> noteNeighbour n obs

/-- What a port that has met its neighbour shows. -/
structure TrainMet (n w : Nat) (obs : TrainObs) (s u : State) : Prop where
  but : LinkBut [Reg.portStatus n, Reg.laneStatus n, Reg.neighbour n] n s u
  width : rdF u (Reg.portStatus n) 13 12 = w
  neighbour : rd u (Reg.neighbour n) = neighbourWord obs
  lanes : .lanes n obs.rxLanes (rdB s (Reg.linkctl n) 3) ∈ u.out
  identity : .identity n (ownDev s) n (maxDevices s) ∈ u.out

theorem trainMet_spec (hw : w < 4) (hl : obs.laneMap < 2) (n : Nat) (s : State) : TrainMet n w obs s (trainMet n w obs s) := by
  unfold trainMet
  have h0 := linkBut_reportLanes n obs s
  rw [reportLanes_eq hl] at h0 ⊢
  obtain ⟨x, hx⟩ : ∃ x, x = emit (.lanes n obs.rxLanes (rdB s (Reg.linkctl n) 3)) s := ⟨_, rfl⟩
  have ho : .lanes n obs.rxLanes (rdB s (Reg.linkctl n) 3) ∈ x.out := by
    rw [hx]; exact List.mem_append_right _ (List.mem_singleton_self _)
  have hr : ∀ a, rd x a = rd s a := by rw [hx]; exact fun _ => rfl
  rw [← hx] at h0 ⊢
  obtain ⟨h1, h2, -⟩ := noteWidth_spec hw n obs x
  have hd := identity_of_rd ((rd_noteWidth (by simp only [Reg.deviceId, Reg.portStatus, Reg.portBase]; omega)
    (by simp only [Reg.deviceId, Reg.laneStatus, Reg.portBase]; omega) x).trans (hr _) : rd (noteWidth n w obs x) Reg.deviceId = _)
    ((rd_noteWidth (by simp only [Reg.capability, Reg.portStatus, Reg.portBase]; omega)
    (by simp only [Reg.capability, Reg.laneStatus, Reg.portBase]; omega) x).trans (hr _))
  have hoy := out_noteWidth n w obs x
  generalize noteWidth n w obs x = y at h1 h2 hd hoy ⊢
  obtain ⟨h3, h4, h5⟩ := linkBut_noteNeighbour n obs y
  have hz : (noteNeighbour n obs y).out = y.out ++ [.identity n (ownDev y) n (maxDevices y)] := rfl
  rw [hoy, hd.1, hd.2] at hz
  refine ⟨?_, (h5 13 12 (by decide)).trans h2, h4, ?_, ?_⟩
  · exact ((h0.mono (by simp)).trans (h1.mono (by simp))).trans (h3.mono (by simp))
  · rw [hz]; exact List.mem_append_left _ ho
  · rw [hz]; exact List.mem_append_right _ (List.mem_singleton_self _)

/-- The port's record at the start of a qualification. -/
def freshPort (p : Port) : Port :=
  { p with txSeq := 0, rxSeq := 0, replay := [], held := [], rxq := [], inPitch := false, replays := 0, limitDone := none }

/-- A port that has met the neighbour it expected goes into qualification (R240, R242). -/
def qualify (n : Nat) (obs : TrainObs) (s : State) : State :=
  s |> onPrt n freshPort |> noteAlloc n |> noteCredits n obs |> setPortState n 3 |> wrReg (Reg.qual n) 0 |> startQual n

/-- What the start of a qualification leaves. -/
structure Qualifying (n : Nat) (obs : TrainObs) (s u : State) : Prop where
  but : LinkBut [Reg.portStatus n, Reg.portDelay n, Reg.qual n] n s u
  state : portState u n = 3
  width : rdF u (Reg.portStatus n) 13 12 = rdF s (Reg.portStatus n) 13 12
  delay : rd u (Reg.portDelay n) = wd obs.delay16
  tx : (prt u n).txSeq = 0
  rx : (prt u n).rxSeq = 0
  out : ∀ o ∈ s.out, o ∈ u.out

/-- The state and the record of a port at the start of its qualification. -/
def qualState (n : Nat) (s : State) : State := s |> setPortState n 3 |> wrReg (Reg.qual n) 0 |> startQual n

theorem qualState_spec (n : Nat) (s : State) : LinkBut [Reg.portStatus n, Reg.qual n] n s (qualState n s)
    ∧ rd (qualState n s) (Reg.portStatus n) = setFld (rd s (Reg.portStatus n)) 3 0 3
    ∧ (prt (qualState n s) n).txSeq = (prt s n).txSeq ∧ (prt (qualState n s) n).rxSeq = (prt s n).rxSeq
    ∧ (qualState n s).out = s.out ++ [.test n 1953125000] := by
  obtain ⟨-, p1, -, -, -, -, -, -, -, p2, -⟩ := linkPlaces n
  unfold qualState startQual
  refine ⟨?_, ?_, ?_, ?_, rfl⟩
  · exact ((((LinkBut.refl _ n s).wrReg (by simp) _).wrReg (by simp) _).onPrt n _).emit _
  · rw [rd_emit, rd_onPrt, rd_wrReg_ne _ _ (by omega)]
    exact rd_wrReg_self _ _ _
  · rw [prt_emit, prt_onPrt_self]; rfl
  · rw [prt_emit, prt_onPrt_self]; rfl

theorem qualify_spec (hn : n < 32) (obs : TrainObs) (s : State) : Qualifying n obs s (qualify n obs s) := by
  obtain ⟨-, p1, -, -, -, -, -, -, -, p2, p3, p4, -⟩ := linkPlaces n
  obtain ⟨x, hx⟩ : ∃ x, x = noteAlloc n (onPrt n freshPort s) := ⟨_, rfl⟩
  have hq : qualify n obs s = qualState n (noteCredits n obs x) := by rw [hx]; rfl
  have h0 : LinkBut [] n s x ∧ (prt x n).txSeq = 0 ∧ (prt x n).rxSeq = 0 ∧ x.out = s.out := by
    rw [hx]
    refine ⟨((LinkBut.refl _ n s).onPrt n _).onPrt n _, ?_, ?_, rfl⟩
    · rw [noteAlloc, prt_onPrt_self, prt_onPrt_self]; rfl
    · rw [noteAlloc, prt_onPrt_self, prt_onPrt_self]; rfl
  have h1 := noteCredits_noted hn obs x
  rw [hq]
  generalize noteCredits n obs x = y at h1 ⊢
  obtain ⟨h2, h3, h4, h5, h6⟩ := qualState_spec n y
  have hsy : rd y (Reg.portStatus n) = rd s (Reg.portStatus n) := by
    rw [h1.but.rd (near_portStatus n) (by simp only [List.mem_singleton]; omega)]
    exact h0.1.rd (near_portStatus n) (by simp)
  refine ⟨?_, ?_, ?_, ?_, ?_, ?_, fun o ho => ?_⟩
  · exact ((h0.1.mono (by simp)).trans (h1.but.mono (by simp))).trans (h2.mono (by simp))
  · rw [portState, rdF, h3]
    exact fld_setFld _ _ _ _ (by decide) (by decide)
  · rw [rdF, h3, fld_setFld_other _ _ _ _ _ _ (by decide) (by decide) (by decide), hsy]; rfl
  · rw [h2.rd (near_portDelay hn) (by simp only [List.mem_cons, List.not_mem_nil, or_false]; omega)]
    exact h1.delay
  · rw [h4, h1.tx, h0.2.1]
  · rw [h5, h1.rx, h0.2.2.1]
  · rw [h6]
    exact List.mem_append_left _ (h1.out o (by rw [h0.2.2.2]; exact ho))

-- The end of a full train (R238–R240)

theorem fullTrain_qualifies (h : trainWidth s n obs = .inl w) (he : expected s n obs = true) : fullTrain n obs s
    = qualify n obs ((if rdB s (Reg.neighbour n) 63 && neighbourDiffers s n obs then portEvents n (2 ^ 9) else id) (trainMet n w obs s)) := by
  have hr : expected (reportLanes n obs s) n obs = true :=
    (expected_of_rd ((linkBut_reportLanes n obs s).rd (near_neighbourExp n) (by simp)) obs).trans he
  have hw := (trainWidth_reportLanes (s := s) (n := n)).trans h
  have hc : (rdB (reportLanes n obs s) (Reg.neighbour n) 63 && neighbourDiffers (reportLanes n obs s) n obs)
      = (rdB s (Reg.neighbour n) 63 && neighbourDiffers s n obs) := by
    have hn := (linkBut_reportLanes n obs s).rd (near_neighbour n) (by simp)
    rw [neighbourDiffers_of_rd hn, rdB, hn]; rfl
  have hm : ∀ a, Near n a → a ≠ Reg.portStatus n → a ≠ Reg.laneStatus n → a ≠ Reg.neighbour n → rd (trainMet n w obs s) a = rd s a :=
    fun a ha h1 h2 h3 => (trainMet_spec (trainWidth_lt h) (laneMap_of_trainWidth h) n s).but.rd ha (by simp [h1, h2, h3])
  obtain ⟨-, p1, -, p2, p3, p4, -⟩ := linkPlaces n
  have hx : expected (trainMet n w obs s) n obs = true :=
    (expected_of_rd (hm _ (near_neighbourExp n) (by omega) (by omega) (by omega)) obs).trans he
  unfold fullTrain
  dsimp only
  rw [hw]
  dsimp only
  rw [hc, show expected (noteNeighbour n obs (noteWidth n w obs (reportLanes n obs s))) n obs = true from hx]
  rfl

theorem fullTrain_miswired (h : trainWidth s n obs = .inl w) (he : expected s n obs = false) :
    fullTrain n obs s = toMiswired n (trainMet n w obs s) := by
  have hw := (trainWidth_reportLanes (s := s) (n := n)).trans h
  have hm : ∀ a, Near n a → a ≠ Reg.portStatus n → a ≠ Reg.laneStatus n → a ≠ Reg.neighbour n → rd (trainMet n w obs s) a = rd s a :=
    fun a ha h1 h2 h3 => (trainMet_spec (trainWidth_lt h) (laneMap_of_trainWidth h) n s).but.rd ha (by simp [h1, h2, h3])
  obtain ⟨-, p1, -, p2, p3, p4, -⟩ := linkPlaces n
  have hx : expected (trainMet n w obs s) n obs = false :=
    (expected_of_rd (hm _ (near_neighbourExp n) (by omega) (by omega) (by omega)) obs).trans he
  unfold fullTrain
  dsimp only
  rw [hw]
  dsimp only
  rw [show expected (noteNeighbour n obs (noteWidth n w obs (reportLanes n obs s))) n obs = false from hx]
  rfl

/-- What a full train that ends with the expected neighbour leaves. -/
structure Trained (n w : Nat) (obs : TrainObs) (s u : State) : Prop where
  state : portState u n = 3
  width : rdF u (Reg.portStatus n) 13 12 = w
  neighbour : rd u (Reg.neighbour n) = neighbourWord obs
  delay : rd u (Reg.portDelay n) = wd obs.delay16
  tx : (prt u n).txSeq = 0
  rx : (prt u n).rxSeq = 0
  mem : MemKept s u
  changed : rdB s (Reg.neighbour n) 63 = true → neighbourDiffers s n obs = true → rdB u (Reg.portEvent n) 9 = true
  lanes : .lanes n obs.rxLanes (rdB s (Reg.linkctl n) 3) ∈ u.out
  identity : .identity n (ownDev s) n (maxDevices s) ∈ u.out

theorem portEvents_frame (n m : Nat) (s : State) : (portEvents n m s).out = s.out ∧ MemKept s (portEvents n m s) := ⟨rfl, fun _ => rfl⟩

theorem fullTrain_trained (hn : n < 32) (h : trainWidth s n obs = .inl w) (he : expected s n obs = true) :
    Trained n w obs s (fullTrain n obs s) := by
  obtain ⟨-, p1, p2, p3, -, -, -, -, -, p4, p5, p6, -⟩ := linkPlaces n
  rw [fullTrain_qualifies h he]
  have hm := trainMet_spec (trainWidth_lt h) (laneMap_of_trainWidth h) n s
  generalize trainMet n w obs s = x at hm ⊢
  obtain ⟨c, hc⟩ : ∃ c, c = (rdB s (Reg.neighbour n) 63 && neighbourDiffers s n obs) := ⟨_, rfl⟩
  rw [← hc]
  obtain ⟨y, hy⟩ : ∃ y, y = (if c then portEvents n (2 ^ 9) else id) x := ⟨_, rfl⟩
  have hr : ∀ a, a ≠ Reg.portEvent n → rd y a = rd x a := fun a ha => by
    rw [hy]; split
    · exact rd_orReg_ne _ _ ha
    · rfl
  have hyf : y.out = x.out ∧ MemKept x y := by
    rw [hy]; split
    · exact portEvents_frame n _ x
    · exact ⟨rfl, fun _ => rfl⟩
  have hev : c = true → rdB y (Reg.portEvent n) 9 = true := fun ht => by
    rw [hy, if_pos ht]; exact rdB_orReg_pow _ _ (by decide)
  rw [← hy]
  have hq := qualify_spec hn obs y
  generalize qualify n obs y = z at hq ⊢
  refine ⟨hq.state, ?_, ?_, hq.delay, hq.tx, hq.rx, ?_, fun h1 h2 => ?_, ?_, ?_⟩
  · rw [hq.width, rdF, hr _ (by omega)]; exact hm.width
  · rw [hq.but.rd (near_neighbour n) (by simp only [List.mem_cons, List.not_mem_nil, or_false]; omega), hr _ (by omega)]
    exact hm.neighbour
  · exact fun a => (hq.but.mem a).trans ((hyf.2 a).trans (hm.but.mem a))
  · rw [rdB, hq.but.rd (near_portEvent n) (by simp only [List.mem_cons, List.not_mem_nil, or_false]; omega)]
    exact hev (by rw [hc, h1, h2]; rfl)
  · exact hq.out _ (by rw [hyf.1]; exact hm.lanes)
  · exact hq.out _ (by rw [hyf.1]; exact hm.identity)

theorem fullTrain_notExpected (h : trainWidth s n obs = .inl w) (he : expected s n obs = false) :
    Miswired n obs (fullTrain n obs s) ∧ MemKept s (fullTrain n obs s) := by
  rw [fullTrain_miswired h he]
  have hm := trainMet_spec (trainWidth_lt h) (laneMap_of_trainWidth h) n s
  obtain ⟨h1, h2⟩ := toMiswired_spec obs hm.neighbour
  exact ⟨h1, fun a => (h2 a).trans (hm.but.mem a)⟩

theorem exec_fullTrain (hn : n < 32) (h : portState s n = 2) : exec (.fullTrain n obs) s = ok (fullTrain n obs s) :=
  congrArg ok (if_pos ⟨hn, h⟩)

theorem fullTrain_up (hn : n < 32) (h : portState s n = 2) (ht : trainWidth s n obs = .inl w) (he : expected s n obs = true) :
    Completes (.fullTrain n obs) s (fun u =>
      portState u n = 3 ∧ rdF u (Reg.portStatus n) 13 12 = w ∧ rd u (Reg.neighbour n) = neighbourWord obs
        ∧ rd u (Reg.portDelay n) = wd obs.delay16 ∧ (prt u n).txSeq = 0 ∧ (prt u n).rxSeq = 0 ∧ MemKept s u
        ∧ (rdB s (Reg.neighbour n) 63 = true → neighbourDiffers s n obs = true → rdB u (Reg.portEvent n) 9 = true)
        ∧ .lanes n obs.rxLanes (rdB s (Reg.linkctl n) 3) ∈ u.out ∧ .identity n (ownDev s) n (maxDevices s) ∈ u.out) := by
  have hex := exec_fullTrain (obs := obs) hn h
  have hs := fullTrain_trained hn ht he
  generalize fullTrain n obs s = x at hex hs
  exact ⟨_, hex, hs.state, hs.width, hs.neighbour, hs.delay, hs.tx, hs.rx, hs.mem, hs.changed, hs.lanes, hs.identity⟩

theorem fullTrain_wrong (hn : n < 32) (h : portState s n = 2) (ht : trainWidth s n obs = .inl w) (he : expected s n obs = false) :
    Completes (.fullTrain n obs) s (fun u =>
      portState u n = 6 ∧ rdB u (Reg.portEvent n) 6 = true ∧ rd u (Reg.neighbour n) = neighbourWord obs ∧ MemKept s u) := by
  have hex := exec_fullTrain (obs := obs) hn h
  obtain ⟨hs, hm⟩ := fullTrain_notExpected ht he
  generalize fullTrain n obs s = x at hex hs hm
  exact ⟨_, hex, hs.state, hs.event, hs.neighbour, hm⟩

theorem fullTrain_fails (hn : n < 32) {why : Nat} (h : portState s n = 2) (ht : trainWidth s n obs = .inr why) :
    Completes (.fullTrain n obs) s (WentDown n why) := by
  have hx : fullTrain n obs s = portDown n why (wrReg (Reg.laneStatus n) (laneWord 0 obs) (reportLanes n obs s)) := by
    unfold fullTrain
    dsimp only
    rw [trainWidth_reportLanes, ht]
  have hex := exec_fullTrain (obs := obs) hn h
  rw [hx] at hex
  exact ⟨_, hex, portDown_wentDown hn (trainWidth_reason_lt ht) _⟩

-- A miswired port tries again (R240)

theorem miswiredRetry_up (hn : n < 32) (h : portState s n = 6) (ht : trainWidth s n obs = .inl w) (he : expected s n obs = true) :
    Completes (.miswiredRetry n obs) s (fun u => portState u n = 3 ∧ rd u (Reg.neighbour n) = neighbourWord obs ∧ MemKept s u) := by
  have hex : exec (.miswiredRetry n obs) s = ok (fullTrain n obs s) := by
    show execMiswiredRetry n obs s = _
    unfold execMiswiredRetry
    rw [if_neg (by rw [h]; decide), if_neg (by rw [he]; simp)]
  have hs := fullTrain_trained hn ht he
  generalize fullTrain n obs s = x at hex hs
  exact ⟨_, hex, hs.state, hs.neighbour, hs.mem⟩

theorem miswiredRetry_again (h : portState s n = 6) (ht : trainWidth s n obs = .inl w) (he : expected s n obs = false) :
    Completes (.miswiredRetry n obs) s (fun u => portState u n = 6 ∧ rd u (Reg.neighbour n) = neighbourWord obs
      ∧ RegsKept [Reg.neighbour n, Reg.portStatus n] s u ∧ MemKept s u) := by
  have hex : exec (.miswiredRetry n obs) s = ok (noteNeighbour n obs (reportLanes n obs s)) := by
    show execMiswiredRetry n obs s = _
    unfold execMiswiredRetry
    rw [if_neg (by rw [h]; decide), if_pos (by rw [ht, he]; rfl)]
  rw [reportLanes_eq (laneMap_of_trainWidth ht)] at hex
  obtain ⟨-, h2, h3⟩ := linkBut_noteNeighbour n obs (emit (.lanes n obs.rxLanes (rdB s (Reg.linkctl n) 3)) s)
  refine ⟨_, hex, (h3 3 0 (by decide)).trans h, h2, fun a ha => ?_, fun _ => rfl⟩
  simp only [List.mem_cons, List.not_mem_nil, or_false, not_or] at ha
  exact (rd_wrB_ne _ _ _ ha.2).trans (rd_wrReg_ne _ _ ha.1)

-- The expected neighbour, written (R240, R250)

/-- What a write of NEIGHBOUR_EXP does: a miswired port trains again. -/
def neighbourExpEffect (n : Nat) (v : Word) (s : State) : State :=
  let x := wrReg (Reg.neighbourExp n) (plainValue (Reg.kind (Reg.neighbourExp n)) (rd s (Reg.neighbourExp n)) v) s
  if portState x n = 6 then startTrain n x else x

theorem exec_neighbourExpWrite (hw : mayWrite s .installer who = true) (hc : n < portCount s) (v : Word) : ∃ au k,
    exec (.neighbourExpWrite who n v) s = ok (withAudit au k (neighbourExpEffect n v s)) := by
  have hs : skipsLog (Reg.neighbourExp n) = false := decide_eq_false (by
    simp only [Reg.neighbourExp, Reg.portBase, Reg.powerCap, Reg.coolant, Reg.fwShelf]; omega)
  obtain ⟨au, k, h⟩ := answered_withRole (s := s) hw hs (fun s => (true, neighbourExpEffect n v s))
  refine ⟨au, k, ?_⟩
  show execNeighbourExpWrite who n v s = _
  unfold execNeighbourExpWrite portCommand
  rw [if_pos hc]
  exact congrArg ok h

/-- What the start of a train leaves whether or not it may begin (R237). -/
theorem startTrain_kept (n : Nat) (s : State) : Kept [Reg.portStatus n] s (startTrain n s) := by
  unfold startTrain
  split
  · exact ((Kept.refl _ s).wrF (a := Reg.portStatus n) (by simp) 3 0 0).wrF (by simp) 11 8 7
  · split
    · exact Kept.refl _ s
    · exact ((Kept.refl _ s).wrF (a := Reg.portStatus n) (by simp) 3 0 2).of_same rfl rfl

theorem neighbourExpWrite_completes (hn : n < 32) (hw : mayWrite s .installer who = true) (hc : n < portCount s) (v : Word) :
    Completes (.neighbourExpWrite who n v) s (fun u =>
      rd u (Reg.neighbourExp n) = plainValue (Reg.kind (Reg.neighbourExp n)) (rd s (Reg.neighbourExp n)) v ∧ MemKept s u
        ∧ (portState s n = 6 → n < licensedPorts s → (bondOf s n).isSome = true → rdB s (Reg.linkctl n) 4 = false → portState u n = 2)
        ∧ (portState s n ≠ 6 → portState u n = portState s n)) := by
  obtain ⟨p0, p1, -, -, p2, -, -, -, -, -, p3, -⟩ := linkPlaces n
  have hex := exec_neighbourExpWrite hw hc v
  obtain ⟨y, hy⟩ : ∃ y, y = plainValue (Reg.kind (Reg.neighbourExp n)) (rd s (Reg.neighbourExp n)) v := ⟨_, rfl⟩
  obtain ⟨x, hx⟩ : ∃ x, x = wrReg (Reg.neighbourExp n) y s := ⟨_, rfl⟩
  have he : neighbourExpEffect n v s = if portState x n = 6 then startTrain n x else x := by rw [hx, hy]; rfl
  have hr : ∀ a, a ≠ Reg.neighbourExp n → rd x a = rd s a := fun a ha => by rw [hx]; exact rd_wrReg_ne _ _ ha
  have hv : rd x (Reg.neighbourExp n) = y := by rw [hx]; exact rd_wrReg_self _ _ _
  have hm : MemKept s x := by rw [hx]; exact fun _ => rfl
  have hs : portState x n = portState s n := portState_of_rd (hr _ (by omega))
  rw [he] at hex
  rw [← hy]
  clear hx hy he
  by_cases h6 : portState s n = 6
  · rw [if_pos (by rw [hs]; exact h6)] at hex
    have hk := startTrain_kept n x
    have hst : n < licensedPorts s → (bondOf s n).isSome = true → rdB s (Reg.linkctl n) 4 = false → portState (startTrain n x) n = 2 :=
      fun hl hb hf => by
        refine (startTrain_begun ?_ ?_ ?_).state
        · rw [licensedPorts, rdF, hr _ (by simp only [Reg.capability, Reg.neighbourExp, Reg.portBase]; omega)]; exact hl
        · rw [bondOf_of_routes (s := s) (fun a _ h => hr a (by omega)) hn]; exact hb
        · rw [rdB, hr _ (by omega)]; exact hf
    generalize startTrain n x = z at hex hk hst
    refine completes_of_logged hex fun au k => ⟨?_, fun a => ?_, fun _ hl hb hf => ?_, fun h => absurd h6 h⟩
    · rw [rd_withAudit, hk.regs _ (by simp only [List.mem_singleton]; omega)]; exact hv
    · rw [memByte_withAudit]; exact (hk.mem a).trans (hm a)
    · rw [portState_withAudit]; exact hst hl hb hf
  · rw [if_neg (by rw [hs]; exact h6)] at hex
    refine completes_of_logged hex fun au k => ⟨hv, hm, fun h => absurd h h6, fun _ => ?_⟩
    rw [portState_withAudit]; exact hs

-- The end of a qualification (R242, R243)

/-- What a port has seen by the end of its test. -/
def tested (n : Nat) (hist : List Nat) (lost failed : Nat) (lanes : List Nat) (s : State) : State :=
  onPrt n (addSeen hist lost failed lanes)
    (clockTo ((prt s n).since + 1953125000 * (if rdF s (Reg.portStatus n) 13 12 = 3 then 1 else 2)) s)

theorem tested_frame (n : Nat) (hist : List Nat) (lost failed : Nat) (lanes : List Nat) (s : State) :
    (∀ a, rd (tested n hist lost failed lanes s) a = rd s a) ∧ MemKept s (tested n hist lost failed lanes s)
      ∧ prt (tested n hist lost failed lanes s) n = addSeen hist lost failed lanes (prt s n) := by
  unfold tested
  generalize (prt s n).since + 1953125000 * (if rdF s (Reg.portStatus n) 13 12 = 3 then 1 else 2) = t
  refine ⟨fun a => ?_, fun a => memByte_clockTo t a, ?_⟩
  · rw [rd_onPrt]; exact rd_clockTo s t a
  · rw [prt_onPrt_self, prt_clockTo]

/-- The three ends of a qualification, by what the port has seen and the width it has. -/
def judged (n w : Nat) (s : State) : State :=
  if (prt s n).testFails = 0 ∧ 12 ≤ projExp (prt s n) then
    comeUp n (portEvents n (2 ^ 7) (wrReg (Reg.qual n) (qualWord (prt s n) (if w = 3 then 1 else 2)) s))
  else if w = 3 ∧ rdB s (Reg.linkctl n) 3 ∧ (prt s n).nbAllowHalf then
    startQual n (narrowTo n (betterHalf (prt s n)) (wrReg (Reg.qual n) (qualWord (prt s n) 0) s))
  else portOff n 0 6 (portEvents n (2 ^ 7) (wrReg (Reg.qual n) (qualWord (prt s n) 3) s))

theorem exec_qualDone (hist : List Nat) (lost failed : Nat) (lanes : List Nat) (h : portState s n = 3) :
    exec (.qualDone n hist lost failed lanes) s
      = ok (judged n (rdF s (Reg.portStatus n) 13 12) (tested n hist lost failed lanes s)) := by
  show execQualDone n hist lost failed lanes s = _
  unfold execQualDone
  rw [if_neg (by rw [h]; decide)]
  rfl

theorem qualWord_fields {r : Nat} (hr : r < 4) (p : Port) :
    fld (qualWord p r) 63 32 = min (2 ^ 32 - 1) p.testFlits ∧ fld (qualWord p r) 31 24 = min 255 p.testFails := by
  have h1 : min (2 ^ 32 - 1) p.testFlits < 2 ^ 32 := by omega
  have h2 : min 255 p.testFails < 256 := by omega
  have h3 : projExp p < 256 := by unfold projExp; omega
  unfold qualWord
  generalize min (2 ^ 32 - 1) p.testFlits = a at h1 ⊢
  generalize min 255 p.testFails = b at h2 ⊢
  generalize projExp p = c at h3 ⊢
  constructor
  · rw [fld_wd _ (by decide)]; omega
  · rw [fld_wd _ (by decide)]; omega

theorem judged_passes (hn : n < 32) (w : Nat) (hf : (prt s n).testFails = 0) (h12 : 12 ≤ projExp (prt s n)) :
    portState (judged n w s) n = 4 ∧ pitchState (judged n w s) n = 2 ∧ rdB (judged n w s) (Reg.portEvent n) 7 = true
      ∧ (prt (judged n w s) n).qualified = true ∧ rdF (judged n w s) (Reg.qual n) 63 32 = min (2 ^ 32 - 1) (prt s n).testFlits
      ∧ rdF (judged n w s) (Reg.qual n) 31 24 = 0 ∧ MemKept s (judged n w s) := by
  obtain ⟨-, p1, p2, -, -, -, -, -, -, p3, p4, -, p5⟩ := linkPlaces n
  unfold judged
  rw [if_pos ⟨hf, h12⟩]
  have hr : (if w = 3 then 1 else 2) < 4 := by split <;> decide
  generalize (if w = 3 then 1 else 2) = r at hr ⊢
  obtain ⟨hq1, hq2⟩ := qualWord_fields hr (prt s n)
  obtain ⟨x, hx⟩ : ∃ x, x = portEvents n (2 ^ 7) (wrReg (Reg.qual n) (qualWord (prt s n) r) s) := ⟨_, rfl⟩
  have hev : rdB x (Reg.portEvent n) 7 = true := by rw [hx]; exact rdB_orReg_pow _ _ (by decide)
  have hqx : rd x (Reg.qual n) = qualWord (prt s n) r := by
    rw [hx]; exact (rd_orReg_ne _ _ (by omega)).trans (rd_wrReg_self _ _ _)
  have hm : MemKept s x := by rw [hx]; exact fun _ => rfl
  rw [← hx]
  have hu := comeUp_cameUp hn x
  generalize comeUp n x = y at hu ⊢
  have hqy : rd y (Reg.qual n) = qualWord (prt s n) r := by
    rw [hu.but.rd (Or.inl ⟨by omega, by omega⟩) (by simp only [upRegs, List.mem_cons, List.not_mem_nil, or_false]; omega)]
    exact hqx
  refine ⟨hu.state, hu.pitch, hu.event 7 hev, hu.qualified, ?_, ?_, fun a => (hu.but.mem a).trans (hm a)⟩
  · rw [rdF, hqy, hq1]
  · rw [rdF, hqy, hq2, hf]; rfl

theorem judged_off (hn : n < 32) {w : Nat} (hf : 0 < (prt s n).testFails) (hw : w ≠ 3) :
    portState (judged n w s) n = 0 ∧ rdF (judged n w s) (Reg.portStatus n) 11 8 = 6 := by
  unfold judged
  rw [if_neg (by omega), if_neg (fun h => hw h.1)]
  have h := portOff_spec (st := 0) (why := 6) hn (by decide) (by decide)
    (portEvents n (2 ^ 7) (wrReg (Reg.qual n) (qualWord (prt s n) 3) s))
  exact ⟨h.state, h.reason⟩

/-- A port that is narrowed to half its lanes (R243). -/
theorem narrowTo_spec {k : Nat} (hk : k < 4) (n : Nat) (s : State) : rdF (narrowTo n k s) (Reg.portStatus n) 13 12 = k
    ∧ portState (narrowTo n k s) n = portState s n ∧ MemKept s (narrowTo n k s) := by
  obtain ⟨-, p1, -, -, -, p2, -⟩ := linkPlaces n
  obtain ⟨y, hy⟩ : ∃ y, narrowTo n k s = wrReg (Reg.laneStatus n) y (wrF (Reg.portStatus n) 31 24 (lanesOf k) (wrF (Reg.portStatus n) 13 12 k s)) :=
    ⟨_, rfl⟩
  rw [hy]
  have hr : ∀ hi lo, hi < 24 → rdF (wrReg (Reg.laneStatus n) y (wrF (Reg.portStatus n) 31 24 (lanesOf k) (wrF (Reg.portStatus n) 13 12 k s)))
      (Reg.portStatus n) hi lo = rdF (wrF (Reg.portStatus n) 13 12 k s) (Reg.portStatus n) hi lo := fun hi lo h =>
    (rdF_wrReg_ne _ _ _ _ (by omega)).trans (rdF_wrF_other _ _ _ _ _ _ _ (by decide) (by decide) (Or.inl h))
  refine ⟨?_, ?_, fun _ => rfl⟩
  · rw [hr _ _ (by decide)]
    exact rdF_wrF_fits _ _ (by decide) (by decide) hk
  · rw [portState, hr _ _ (by decide)]
    exact rdF_wrF_other _ _ _ _ _ _ _ (by decide) (by decide) (by decide)

theorem judged_narrowed {w : Nat} (hf : 0 < (prt s n).testFails) (hw : w = 3) (hl : rdB s (Reg.linkctl n) 3 = true)
    (ha : (prt s n).nbAllowHalf = true) : portState (judged n w s) n = portState s n ∧ (prt (judged n w s) n).testFlits = 0
      ∧ MemKept s (judged n w s) ∧ rdF (judged n w s) (Reg.portStatus n) 13 12 = betterHalf (prt s n) := by
  obtain ⟨-, p1, -, -, -, -, -, -, -, p2, -⟩ := linkPlaces n
  unfold judged
  rw [if_neg (by omega), if_pos ⟨hw, hl, ha⟩]
  have hb : betterHalf (prt s n) < 4 := by unfold betterHalf; split <;> decide
  obtain ⟨x, hx⟩ : ∃ x, x = wrReg (Reg.qual n) (qualWord (prt s n) 0) s := ⟨_, rfl⟩
  have hs : portState x n = portState s n := by rw [hx]; exact portState_of_rd (rd_wrReg_ne _ _ (by omega))
  have hm : MemKept s x := by rw [hx]; exact fun _ => rfl
  rw [← hx]
  obtain ⟨h1, h2, h3⟩ := narrowTo_spec hb n x
  generalize narrowTo n (betterHalf (prt s n)) x = y at h1 h2 h3 ⊢
  exact ⟨h2.trans hs, by rw [startQual, prt_emit, prt_onPrt_self], fun a => (h3 a).trans (hm a), h1⟩

theorem sumOf_eq_sum (l : List Nat) : sumOf l = l.sum := by
  rw [sumOf, List.sum_eq_foldl]

theorem qualDone_completes (hn : n < 32) (hist : List Nat) (lost failed : Nat) (lanes : List Nat) (h : portState s n = 3) {p : Port}
    (hp : p = addSeen hist lost failed lanes (prt s n)) :
    (p.testFails = 0 → Completes (.qualDone n hist lost failed lanes) s (fun u =>
      12 ≤ projExp p → portState u n = 4 ∧ pitchState u n = 2 ∧ rdB u (Reg.portEvent n) 7 = true
        ∧ (prt u n).qualified = true ∧ rdF u (Reg.qual n) 63 32 = min (2 ^ 32 - 1) p.testFlits
        ∧ rdF u (Reg.qual n) 31 24 = 0 ∧ MemKept s u))
    ∧ (0 < p.testFails → rdF s (Reg.portStatus n) 13 12 ≠ 3 → Completes (.qualDone n hist lost failed lanes) s (fun u =>
      portState u n = 0 ∧ rdF u (Reg.portStatus n) 11 8 = 6))
    ∧ (0 < p.testFails → rdF s (Reg.portStatus n) 13 12 = 3 → rdB s (Reg.linkctl n) 3 = true → (prt s n).nbAllowHalf = true →
      Completes (.qualDone n hist lost failed lanes) s (fun u => portState u n = 3 ∧ (prt u n).testFlits = 0 ∧ MemKept s u
        ∧ rdF u (Reg.portStatus n) 13 12 = (if (p.laneErr.drop 4).sum < (p.laneErr.take 4).sum then 2 else 1))) := by
  have hex := exec_qualDone hist lost failed lanes h
  obtain ⟨h1, h2, h3⟩ := tested_frame n hist lost failed lanes s
  generalize rdF s (Reg.portStatus n) 13 12 = w at hex ⊢
  generalize tested n hist lost failed lanes s = x at hex h1 h2 h3
  rw [← hp] at h3
  have ha : p.nbAllowHalf = (prt s n).nbAllowHalf := by rw [hp]; rfl
  refine ⟨fun hf => ⟨_, hex, fun h12 => ?_⟩, fun hf hw => ⟨_, hex, ?_⟩, fun hf hw hl hh => ⟨_, hex, ?_⟩⟩
  · obtain ⟨g1, g2, g3, g4, g5, g6, g7⟩ := judged_passes hn w (s := x) (by rw [h3]; exact hf) (by rw [h3]; exact h12)
    rw [h3] at g5
    exact ⟨g1, g2, g3, g4, g5, g6, fun a => (g7 a).trans (h2 a)⟩
  · exact judged_off hn (by rw [h3]; exact hf) hw
  · obtain ⟨g1, g2, g3, g4⟩ := judged_narrowed (s := x) (n := n) (by rw [h3]; exact hf) hw (by rw [rdB, h1]; exact hl) (by rw [h3, ha]; exact hh)
    rw [h3, betterHalf, sumOf_eq_sum, sumOf_eq_sum] at g4
    exact ⟨g1.trans ((portState_of_rd (h1 _)).trans h), g2, fun a => (g3 a).trans (h2 a), g4⟩

/-- Settles O35: the port's signals and silence, the two ends of a train, the miswired port and the expected neighbour,
and the three ends of a qualification. -/
theorem linkTraining : Obligations.LinkTraining := by
  unfold Obligations.LinkTraining
  intro n s hn
  exact ⟨fun h => laneLos_completes hn h, fun t h ht => txOffExpiry_completes h ht,
    fun hc h hd hl hb hf => signalDetect_completes hc h hd hl hb hf,
    fun obs w h ht _ => ⟨fun he => fullTrain_up hn h ht he, fun he => fullTrain_wrong hn h ht he⟩,
    fun obs why h ht => fullTrain_fails hn h ht, fun h => trainTimeout_completes hn h,
    fun obs w h ht => ⟨fun he => miswiredRetry_up hn h ht he, fun he => miswiredRetry_again h ht he⟩,
    fun who v hw hc => neighbourExpWrite_completes hn hw hc v,
    fun hist lost failed lanes p h hp => qualDone_completes hn hist lost failed lanes h hp⟩

end Sys2Proof.Machine
end

section
/-! PROOFS. Frames and flits, the acknowledgement timer and credit audits (R222–R236). -/

namespace Sys2Proof.Machine

variable {s u v : State} {n : Nat}

-- The number of the next flit (R228)

/-- A port's number of the next sequenced flit is left as it is. -/
def SeqKept (n : Nat) (s u : State) : Prop := (prt u n).rxSeq = (prt s n).rxSeq

theorem SeqKept.refl (n : Nat) (s : State) : SeqKept n s s := rfl

theorem SeqKept.trans (h : SeqKept n s u) (h' : SeqKept n u v) : SeqKept n s v := Eq.trans h' h

theorem SeqKept.of_ports (h : SeqKept n s u) (hp : v.ports = u.ports) : SeqKept n s v :=
  h.trans (by rw [SeqKept, prt, hp]; rfl)

theorem SeqKept.onPrt (h : SeqKept n s u) {f : Port → Port} (m : Nat) (hf : ∀ p, (f p).rxSeq = p.rxSeq := by exact fun _ => rfl) :
    SeqKept n s (onPrt m f u) := by
  refine h.trans ?_
  by_cases hm : n = m
  · subst hm; rw [SeqKept, prt_onPrt_self, hf]
  · rw [SeqKept, prt_onPrt_ne _ _ hm]

theorem SeqKept.foldl {α : Type} {f : State → α → State} (l : List α) (hf : ∀ v x, SeqKept n v (f v x)) (s : State) :
    SeqKept n s (l.foldl f s) :=
  List.foldlRecOn l f (motive := SeqKept n s) (SeqKept.refl n s) fun _ hv x _ => hv.trans (hf _ x)

theorem SeqKept.ite {c : Prop} [Decidable c] (hu : SeqKept n s u) (hv : SeqKept n s v) : SeqKept n s (if c then u else v) := by
  split
  · exact hu
  · exact hv

theorem Sends.seqKept (h : Sends n s u) : SeqKept n s u := (congrArg Port.rxSeq h.port : _)

theorem seqKept_owe (n m v : Nat) (s : State) : SeqKept n s (owe m v s) := (SeqKept.refl n s).onPrt m

theorem seqKept_mergeOut (n b m : Nat) (fs : List Flit) (s : State) : SeqKept n s (mergeOut b m fs s) := by
  unfold mergeOut
  dsimp only
  split
  · exact (SeqKept.refl n s).of_ports rfl
  · exact (SeqKept.refl n s).of_ports rfl

theorem seqKept_mergeTake (n b m : Nat) (r : RxFlit) (s : State) : SeqKept n s (mergeTake b m r s) := by
  unfold mergeTake
  dsimp only
  have h := (((SeqKept.refl n s).onPrt (f := fun x => { x with rxq := x.rxq.drop 1 }) m).trans
    (seqKept_owe n m (if isHead r.flit then (headOf r.flit).vc else (bnd s b).rxVc) _))
  split
  · exact (h.of_ports rfl).trans (seqKept_mergeOut n b m _ _)
  · exact h.of_ports rfl

theorem seqKept_merge (n b k : Nat) (s : State) : SeqKept n s (merge b k s) := by
  induction k generalizing s with
  | zero => exact SeqKept.refl n s
  | succ k ih =>
    unfold merge
    dsimp only
    split
    · exact SeqKept.refl n s
    · split
      · split
        · split
          · exact (seqKept_mergeTake n b _ _ s).trans (ih _)
          · exact SeqKept.refl n s
        · exact SeqKept.refl n s
      · split
        · exact SeqKept.refl n s
        · split
          · exact (seqKept_mergeTake n b _ _ s).trans (ih _)
          · exact SeqKept.refl n s

theorem seqKept_rxRestart (n m full members : Nat) (s : State) : SeqKept n s (rxRestart m full members s) := by
  unfold rxRestart
  split
  · exact SeqKept.refl n s
  · dsimp only
    have h : SeqKept n s (onPrt m (fun x => { x with rxq := [] }) ((prt s m).rxq.foldl (fun s (x : RxFlit) => owe m x.vc s) s)) :=
      (SeqKept.foldl (f := fun s (x : RxFlit) => owe m x.vc s) _ (fun v x => seqKept_owe n m x.vc v) s).onPrt m
    generalize onPrt m (fun x => { x with rxq := [] }) ((prt s m).rxq.foldl (fun s (x : RxFlit) => owe m x.vc s) s) = x at h ⊢
    exact SeqKept.ite ((h.of_ports rfl).trans (seqKept_merge n _ _ _)) (h.of_ports rfl)

theorem seqKept_takeAck (n m ack : Nat) (s : State) : SeqKept n s (takeAck m ack s) := by
  unfold takeAck
  dsimp only
  split
  · have h : ∀ l, SeqKept n s (onPrt m (fun p => { p with replay := l, replays := 0, ackStart := now s }) s) := fun l =>
      (SeqKept.refl n s).onPrt m
    split
    · exact (h _).of_ports rfl
    · exact h _
  · exact SeqKept.refl n s

theorem seqKept_takeCredits (n m v k : Nat) (s : State) : SeqKept n s (takeCredits m v k s) := by
  unfold takeCredits
  split
  · exact SeqKept.refl n s
  · exact ((SeqKept.refl n s).of_ports (v := wrF (Reg.creditState m v) 31 16 (available s m v + k) s) rfl).onPrt m

/-- A sequenced flit that is accepted counts one (R228). -/
theorem rxSeq_acceptFlit (n : Nat) (f : Flit) (s : State) : (prt (acceptFlit n f s) n).rxSeq = ((prt s n).rxSeq + 1) % 4096 := by
  obtain ⟨x, hx⟩ : ∃ x, x = onPrt n (fun p => { p with rxSeq := (p.rxSeq + 1) % 4096 }) s := ⟨_, rfl⟩
  have h0 : (prt x n).rxSeq = ((prt s n).rxSeq + 1) % 4096 := by rw [hx, prt_onPrt_self]
  rw [← h0]
  unfold acceptFlit
  dsimp only
  rw [← hx]
  split
  · exact ((((SeqKept.refl n x).onPrt (f := fun p => { p with inPitch := !isTail f }) n).trans
      (seqKept_owe n n 0 _)).of_ports rfl : SeqKept n x _)
  · split
    · exact (seqKept_owe n n 7 x).trans (seqKept_rxRestart n n _ _ _)
    · generalize hv : (if isHead f then (headOf f).vc else (prt x n).rxVc) = c
      have h : SeqKept n x (onPrt n (fun p => { p with rxq := p.rxq ++ [{ vc := c, flit := f, since := now x }], rxVc := c }) x) :=
        (SeqKept.refl n x).onPrt n
      split
      · exact (h.of_ports rfl).trans (seqKept_merge n _ _ _)
      · exact h.of_ports rfl

theorem seqKept_restStep (n : Nat) (s : State) : SeqKept n s (restStep n s) := by
  rcases restStep_cases n s with h | ⟨-, h⟩ | ⟨-, h⟩
  · rw [h]; exact SeqKept.refl n s
  · rw [h]; exact ((SeqKept.refl n s).onPrt n).trans (sends_sendCtrl n n 1 _).seqKept
  · rw [h]
    have hs := (sends_sendCtrl n n 2 s).seqKept
    generalize sendCtrl n 2 s = x at hs ⊢
    exact (hs.of_ports (v := setPortState n 7 x) rfl).onPrt n

/-- What a port sends after a frame, before it looks whether it may rest (R229, R235). -/
theorem afterFrame_eq (n : Nat) (s : State) : afterFrame n s = s ∨ ∃ x, Sends n s x ∧ afterFrame n s = restStep n x := by
  unfold afterFrame
  split
  · exact Or.inr ⟨_, ((sends_sendIdle n n s).trans (sends_returnCredits n n 1024 _)).trans (sends_flushHeld n _ _), rfl⟩
  · exact Or.inl rfl

theorem seqKept_afterFrame (n : Nat) (s : State) : SeqKept n s (afterFrame n s) := by
  rcases afterFrame_eq n s with h | ⟨x, hx, h⟩
  · rw [h]; exact SeqKept.refl n s
  · rw [h]; exact hx.seqKept.trans (seqKept_restStep n x)

/-- What a port may do after a frame leaves its error count and the memory alone. -/
theorem afterFrame_frame (n : Nat) (s : State) : rd (afterFrame n s) (Reg.portErrCount n) = rd s (Reg.portErrCount n)
    ∧ MemKept s (afterFrame n s) := by
  obtain ⟨-, p1, -, -, -, -, -, -, p2, -⟩ := linkPlaces n
  rcases afterFrame_eq n s with h | ⟨x, hx, h⟩
  · rw [h]; exact ⟨rfl, fun _ => rfl⟩
  · have h0 : rd x (Reg.portErrCount n) = rd s (Reg.portErrCount n) := (hx.linkBut []).rd (near_portErrCount n) (by simp)
    have hr : rd (restStep n x) (Reg.portErrCount n) = rd x (Reg.portErrCount n) ∧ MemKept x (restStep n x) := by
      rcases restStep_cases n x with h | ⟨-, h⟩ | ⟨-, h⟩
      · rw [h]; exact ⟨rfl, fun _ => rfl⟩
      · rw [h]
        have hs := sends_sendCtrl n n 1 (onPrt n (fun p => { p with restPhase := 2 }) x)
        exact ⟨(hs.linkBut []).rd (near_portErrCount n) (by simp), hs.mem⟩
      · rw [h]
        have hs := sends_sendCtrl n n 2 x
        generalize sendCtrl n 2 x = y at hs ⊢
        refine ⟨?_, hs.mem⟩
        rw [rd_onPrt]
        exact (rd_wrF_ne _ _ _ _ (by omega)).trans ((hs.linkBut []).rd (near_portErrCount n) (by simp))
    rw [h]
    exact ⟨hr.1.trans h0, fun a => (hr.2 a).trans (hx.mem a)⟩

-- Frames (R222, R223)

/-- The symbol errors of a frame, counted at its port (R223). -/
def frameCounted (n sym0 sym1 : Nat) (lanes : List Nat) (s : State) : State :=
  onPrt n (fun p => { p with hist := countSymbols (countSymbols p.hist sym0) sym1, laneErr := addLists p.laneErr lanes }) s

theorem exec_fecFrame_dropped {a b : Nat} (lanes : List Nat) (fl : List Flit) (hab : 18 < a ∨ 18 < b)
    (h : portState s n = 3 ∨ portState s n = 4) : exec (.fecFrame n a b lanes fl) s
      = ok ((if portState s n = 3 then countTest n 16 16 else id) (dropFlits n 16 s)) := by
  have hs : portState (dropFlits n 16 s) n = portState s n :=
    portState_of_rd (rd_wrF_ne _ _ _ _ (by simp only [Reg.portStatus, Reg.portErrCount]; omega))
  show execFecFrame n a b lanes fl s = _
  unfold execFecFrame
  rw [if_neg (by rcases h with h | h <;> rw [h] <;> decide), if_pos hab]

theorem dropFlits_count (n k : Nat) (s : State) : rdF (dropFlits n k s) (Reg.portErrCount n) 63 32
    = min (rdF s (Reg.portErrCount n) 63 32 + k) (2 ^ 32 - 1) :=
  rdF_addSat_self _ _ _ _ _ (by decide) (by decide)

theorem dropFlits_kept (n k : Nat) (s : State) : Kept [Reg.portErrCount n] s (dropFlits n k s) :=
  (Kept.refl _ s).addSat (by simp) 63 32 k

theorem portState_dropFlits (n k : Nat) (s : State) : portState (dropFlits n k s) n = portState s n :=
  portState_of_rd ((dropFlits_kept n k s).regs _ (by simp only [List.mem_singleton, Reg.portStatus, Reg.portErrCount]; omega))

theorem fecFrame_dropped {a b : Nat} (lanes : List Nat) (fl : List Flit) (hab : 18 < a ∨ 18 < b) (h : portState s n = 4) :
    Completes (.fecFrame n a b lanes fl) s (fun u => prt u n = prt s n ∧ portState u n = 4
      ∧ rdF u (Reg.portErrCount n) 63 32 = min (rdF s (Reg.portErrCount n) 63 32 + 16) (2 ^ 32 - 1)
      ∧ RegsKept [Reg.portErrCount n] s u ∧ MemKept s u) := by
  have hex := exec_fecFrame_dropped lanes fl hab (Or.inr h)
  rw [if_neg (by rw [h]; decide)] at hex
  have hk := dropFlits_kept n 16 s
  exact ⟨_, hex, rfl, (portState_dropFlits n 16 s).trans h, dropFlits_count n 16 s, hk.regs, hk.mem⟩

theorem fecFrame_testDropped {a b : Nat} (lanes : List Nat) (fl : List Flit) (hab : 18 < a ∨ 18 < b) (h : portState s n = 3) :
    Completes (.fecFrame n a b lanes fl) s (fun u =>
      prt u n = { prt s n with testFlits := (prt s n).testFlits + 16, testFails := (prt s n).testFails + 16 }
        ∧ RegsKept [Reg.portErrCount n] s u ∧ MemKept s u) := by
  have hex := exec_fecFrame_dropped lanes fl hab (Or.inl h)
  rw [if_pos h] at hex
  have hk := dropFlits_kept n 16 s
  have hp : prt (dropFlits n 16 s) n = prt s n := rfl
  generalize dropFlits n 16 s = x at hex hk hp
  refine ⟨_, hex, ?_, hk.regs, hk.mem⟩
  rw [countTest, prt_onPrt_self, hp]

theorem exec_fecFrame_up {a b : Nat} (lanes : List Nat) (f : Flit) (ha : a ≤ 18) (hb : b ≤ 18) (h : portState s n = 4) :
    exec (.fecFrame n a b lanes [f]) s = ok (afterFrame n (rxFlit n f (frameCounted n a b lanes s))) := by
  show execFecFrame n a b lanes [f] s = _
  unfold execFecFrame
  rw [if_neg (by rw [h]; decide), if_neg (by omega)]
  dsimp only
  rw [if_neg (by rw [show portState (onPrt n _ s) n = portState s n from rfl, h]; decide)]
  rfl

theorem exec_fecFrame_test {a b : Nat} (lanes : List Nat) (f : Flit) (ha : a ≤ 18) (hb : b ≤ 18) (h : portState s n = 3) :
    exec (.fecFrame n a b lanes [f]) s = ok (testFlit n f (frameCounted n a b lanes s)) := by
  show execFecFrame n a b lanes [f] s = _
  unfold execFecFrame
  rw [if_neg (by rw [h]; decide), if_neg (by omega)]
  dsimp only
  rw [if_pos (show portState (onPrt n _ s) n = 3 from h)]
  rfl

theorem frameCounted_spec (n a b : Nat) (lanes : List Nat) (s : State) :
    prt (frameCounted n a b lanes s) n
      = { prt s n with hist := countSymbols (countSymbols (prt s n).hist a) b, laneErr := addLists (prt s n).laneErr lanes }
      ∧ (∀ r, rd (frameCounted n a b lanes s) r = rd s r) ∧ MemKept s (frameCounted n a b lanes s) :=
  ⟨prt_onPrt_self s n _, fun _ => rfl, fun _ => rfl⟩

theorem sequenced_lt {t : Nat} (h : sequenced t = true) : t < 13 := by
  have h := of_decide_eq_true h
  omega

theorem fecFrame_accepted {a b : Nat} (lanes : List Nat) {f : Flit} (ha : a ≤ 18) (hb : b ≤ 18) (h : portState s n = 4)
    (hq : sequenced (flitType f) = true)
    (hc : fld f.trailer 63 32 = flitCrc (flitBytes f) (fld f.trailer 31 0) (prt s n).rxSeq) :
    Completes (.fecFrame n a b lanes [f]) s (fun u => (prt u n).rxSeq = ((prt s n).rxSeq + 1) % 4096) := by
  have hex := exec_fecFrame_up lanes f ha hb h
  obtain ⟨hx, -⟩ := frameCounted_spec n a b lanes s
  generalize frameCounted n a b lanes s = x at hex hx
  have hs : (prt x n).rxSeq = (prt s n).rxSeq := by rw [hx]
  have hg : flitGood x n f = true := by
    unfold flitGood
    dsimp only
    rw [if_pos hq, hs]
    exact decide_eq_true ⟨sequenced_lt hq, hc⟩
  have hr : (prt (rxFlit n f x) n).rxSeq = ((prt x n).rxSeq + 1) % 4096 := by
    unfold rxFlit
    dsimp only
    rw [if_neg (by rw [hg]; decide), if_pos hq, rxSeq_acceptFlit]
    have h1 := seqKept_takeAck n n (fld f.trailer 31 20) x
    generalize takeAck n (fld f.trailer 31 20) x = y at h1 ⊢
    have h2 : SeqKept n x (if returnsCredit (flitType f) then takeCredits n (fld f.trailer 19 17) (fld f.trailer 16 12) y else y) := by
      split
      · exact h1.trans (seqKept_takeCredits n n _ _ y)
      · exact h1
    rw [h2]
  exact ⟨_, hex, Eq.trans (seqKept_afterFrame n (rxFlit n f x)) (hr.trans (by rw [hs]))⟩

theorem fecFrame_badFlit {a b : Nat} (lanes : List Nat) {f : Flit} (ha : a ≤ 18) (hb : b ≤ 18) (h : portState s n = 4)
    (hc : fld f.trailer 63 32 ≠ flitCrc (flitBytes f) (fld f.trailer 31 0)
      (if sequenced (flitType f) then (prt s n).rxSeq else 0xFFFF)) :
    Completes (.fecFrame n a b lanes [f]) s (fun u => (prt u n).rxSeq = (prt s n).rxSeq
      ∧ rdF u (Reg.portErrCount n) 63 32 = min (rdF s (Reg.portErrCount n) 63 32 + 1) (2 ^ 32 - 1) ∧ MemKept s u) := by
  have hex := exec_fecFrame_up lanes f ha hb h
  obtain ⟨hx, hxr, hxm⟩ := frameCounted_spec n a b lanes s
  generalize frameCounted n a b lanes s = x at hex hx hxr hxm
  have hs : (prt x n).rxSeq = (prt s n).rxSeq := by rw [hx]
  have hg : flitGood x n f = false := by
    unfold flitGood
    dsimp only
    rw [hs]
    exact decide_eq_false fun hh => hc hh.2
  have hr : rxFlit n f x = dropFlits n 1 x := by
    unfold rxFlit
    dsimp only
    rw [if_pos (by rw [hg]; rfl)]
  rw [hr] at hex
  have hq : SeqKept n x (dropFlits n 1 x) := (SeqKept.refl n x).of_ports rfl
  have hk := dropFlits_kept n 1 x
  have hn := dropFlits_count n 1 x
  generalize dropFlits n 1 x = y at hex hq hk hn
  obtain ⟨h1, h2⟩ := afterFrame_frame n y
  refine ⟨_, hex, ?_, ?_, fun r => (h2 r).trans ((hk.mem r).trans (hxm r))⟩
  · exact Eq.trans (seqKept_afterFrame n y) (Eq.trans hq hs)
  · rw [rdF, h1]
    refine hn.trans ?_
    rw [rdF, rdF, hxr]

theorem fecFrame_test {a b : Nat} (lanes : List Nat) {f : Flit} (ha : a ≤ 18) (hb : b ≤ 18) (h : portState s n = 3)
    (ht : flitType f = 7) (hc : fld f.trailer 63 32 = flitCrc (flitBytes f) (fld f.trailer 31 0) 0xFFFF) :
    Completes (.fecFrame n a b lanes [f]) s (fun u => (prt u n).testFlits = (prt s n).testFlits + 1
      ∧ (prt u n).testFails = (prt s n).testFails
      ∧ (prt u n).hist = countSymbols (countSymbols (prt s n).hist a) b ∧ (prt u n).laneErr = addLists (prt s n).laneErr lanes
      ∧ RegsKept [] s u ∧ MemKept s u) := by
  have hex := exec_fecFrame_test lanes f ha hb h
  obtain ⟨hx, hxr, hxm⟩ := frameCounted_spec n a b lanes s
  generalize frameCounted n a b lanes s = x at hex hx hxr hxm
  have hg : flitGood x n f = true := by
    unfold flitGood
    dsimp only
    rw [ht]
    exact decide_eq_true ⟨by decide, hc⟩
  have hr : testFlit n f x = countTest n 1 0 x := by
    unfold testFlit
    rw [if_neg (by rw [hg]; decide), if_pos ht]
  rw [hr] at hex
  have hp : prt (countTest n 1 0 x) n = { prt x n with testFlits := (prt x n).testFlits + 1, testFails := (prt x n).testFails + 0 } :=
    prt_onPrt_self x n _
  rw [hx] at hp
  exact ⟨_, hex, by rw [hp], by rw [hp]; rfl, by rw [hp], by rw [hp], fun r _ => hxr r, hxm⟩

end Sys2Proof.Machine
end

section
/-! PROOFS. The acknowledgement timer and credit audits (R230, R231, R236). -/

namespace Sys2Proof.Machine

variable {s u v : State} {n : Nat}

-- The acknowledgement timer (R230, R231)

theorem regs_clockTo (t : Nat) (s : State) : RegsKept [] s (clockTo t s) ∧ MemKept s (clockTo t s) :=
  ⟨fun a _ => rd_clockTo s t a, fun a => memByte_clockTo t a⟩

theorem lastRound_clockTo (t : Nat) (s : State) : (clockTo t s).tim = s.tim := by
  obtain ⟨_, _, hc⟩ := clockTo_cases s t
  rw [hc]

theorem now_clockTo_max {t : Nat} (ht : t < 2 ^ 64) (s : State) : now (clockTo t s) = max (now s) t := by
  have h1 := now_clockTo s t ht
  have h2 := now_clockTo_le t s
  by_cases h : now s ≤ t
  · rw [now_clockTo_eq h ht]; omega
  · have h3 : clockTo t s = s := if_neg (by omega)
    rw [h3]; omega

theorem timeFirst_none (h : now s % 1024 ≠ 0 ∨ now s / 1024 = s.tim.lastRound) : timeFirst s = s :=
  if_neg fun hc => h.elim (fun h => h hc.1) hc.2

/-- The state in which an acknowledgement timer expires. -/
theorem exec_ackTimerExpiry (h4 : portState s n = 4) (hr : (prt s n).replay ≠ []) (ht : (prt s n).ackStart + ackTimeout s n < 2 ^ 64)
    (hq : ∀ t, t = max (now s) ((prt s n).ackStart + ackTimeout s n) → t % 1024 ≠ 0 ∨ t / 1024 = s.tim.lastRound) :
    exec (.ackTimerExpiry n) s = ok (if rdF s (Reg.replayCtrl n) 3 0 ≤ (prt s n).replays
      then limitReached n (clockTo ((prt s n).ackStart + ackTimeout s n) s)
      else replayAll n (clockTo ((prt s n).ackStart + ackTimeout s n) s)) := by
  have htf : timeFirst (clockTo ((prt s n).ackStart + ackTimeout s n) s) = clockTo ((prt s n).ackStart + ackTimeout s n) s :=
    timeFirst_none (by rw [lastRound_clockTo]; exact hq _ (now_clockTo_max ht s))
  show execAckTimerExpiry n s = _
  unfold execAckTimerExpiry
  dsimp only
  rw [if_neg (by rw [h4]; simp [hr]), htf, rdF, rd_clockTo]
  rfl

/-- A replay sends every flit that is not acknowledged (R230). -/
theorem replayAll_spec (n : Nat) (s : State) : (replayAll n s).out = s.out ++ (prt s n).replay.map (fun x => .flit n (replayed (prt s n) x))
    ∧ (prt (replayAll n s) n).replays = (prt s n).replays + 1 ∧ (prt (replayAll n s) n).replay = (prt s n).replay
    ∧ (replayAll n s).now = s.now ∧ RegsKept [Reg.portErrCount n] s (replayAll n s) ∧ MemKept s (replayAll n s) := by
  have hk : Kept [Reg.portErrCount n] s (addSat (Reg.portErrCount n) 31 16 1 s) := (Kept.refl _ s).addSat (by simp) 31 16 1
  have hp : prt (addSat (Reg.portErrCount n) 31 16 1 s) n = prt s n ∧ (addSat (Reg.portErrCount n) 31 16 1 s).now = s.now := ⟨rfl, rfl⟩
  rw [replayAll_eq]
  generalize addSat (Reg.portErrCount n) 31 16 1 s = x at hk hp ⊢
  obtain ⟨y, hy⟩ : ∃ y : State, y = { x with out := s.out ++ (prt s n).replay.map (fun x => .flit n (replayed (prt s n) x)) } := ⟨_, rfl⟩
  have hpy : prt y n = prt s n := by rw [hy]; exact hp.1
  have hf : y.out = s.out ++ (prt s n).replay.map (fun x => .flit n (replayed (prt s n) x)) ∧ y.regs = x.regs ∧ y.mem = x.mem
      ∧ y.now = s.now := by rw [hy]; exact ⟨rfl, rfl, rfl, hp.2⟩
  obtain ⟨f1, f2, f3, f4⟩ := hf
  rw [← hy]
  clear hy
  refine ⟨f1, ?_, ?_, f4, ?_, ?_⟩
  · rw [prt_onPrt_self, hpy]
  · rw [prt_onPrt_self, hpy]
  · have hz := hk.of_same (v := onPrt n (fun x => { x with ackStart := now s, replays := x.replays + 1 }) y) f2 f3
    exact hz.regs
  · have hz := hk.of_same (v := onPrt n (fun x => { x with ackStart := now s, replays := x.replays + 1 }) y) f2 f3
    exact hz.mem

theorem ackTimerExpiry_replays (h4 : portState s n = 4) (hr : (prt s n).replay ≠ []) (ht : (prt s n).ackStart + ackTimeout s n < 2 ^ 64)
    (hq : ∀ t, t = max (now s) ((prt s n).ackStart + ackTimeout s n) → t % 1024 ≠ 0 ∨ t / 1024 = s.tim.lastRound)
    (hl : (prt s n).replays < rdF s (Reg.replayCtrl n) 3 0) : Completes (.ackTimerExpiry n) s (fun u =>
      u.out = s.out ++ (prt s n).replay.map (fun x => .flit n (replayed (prt s n) x))
        ∧ (prt u n).replays = (prt s n).replays + 1 ∧ (prt u n).replay = (prt s n).replay
        ∧ (prt s n).ackStart + ackTimeout s n ≤ now u ∧ RegsKept [Reg.portErrCount n] s u ∧ MemKept s u) := by
  have hex := exec_ackTimerExpiry h4 hr ht hq
  rw [if_neg (by omega)] at hex
  generalize (prt s n).ackStart + ackTimeout s n = t at hex ht ⊢
  have hn := now_clockTo_max ht s
  have hp := prt_clockTo t n s
  have ho := out_clockTo t s
  obtain ⟨c1, c2⟩ := regs_clockTo t s
  generalize clockTo t s = x at hex hn hp ho c1 c2
  obtain ⟨h1, h2, h3, h5, h6, h7⟩ := replayAll_spec n x
  rw [hp] at h1 h2 h3
  rw [ho] at h1
  refine ⟨_, hex, h1, h2, h3, ?_, fun a ha => (h6 a ha).trans (c1 a (by simp)), fun a => (h7 a).trans (c2 a)⟩
  have hx : now (replayAll n x) = now x := by rw [now, h5]; rfl
  rw [hx, hn]
  exact Nat.le_max_right _ _

theorem ackTimerExpiry_retrains (hn : n < 32) (h4 : portState s n = 4) (hr : (prt s n).replay ≠ []) (ht : (prt s n).ackStart + ackTimeout s n < 2 ^ 64)
    (hq : ∀ t, t = max (now s) ((prt s n).ackStart + ackTimeout s n) → t % 1024 ≠ 0 ∨ t / 1024 = s.tim.lastRound)
    (hl : rdF s (Reg.replayCtrl n) 3 0 ≤ (prt s n).replays) (hd : (prt s n).limitDone = none) :
    Completes (.ackTimerExpiry n) s (fun u =>
      portState u n = 5 ∧ rdB u (Reg.portEvent n) 2 = true ∧ (prt u n).limitRetrain = true ∧ MemKept s u) := by
  obtain ⟨-, p1, p2, -, -, -, -, -, -, -, p3, -, p4⟩ := linkPlaces n
  have hex := exec_ackTimerExpiry h4 hr ht hq
  rw [if_pos hl] at hex
  generalize (prt s n).ackStart + ackTimeout s n = t at hex ht
  have hp := prt_clockTo t n s
  obtain ⟨c1, c2⟩ := regs_clockTo t s
  have hs := portState_clockTo t n s
  generalize clockTo t s = x at hex hp c1 c2 hs
  rw [limitReached_of_none (by rw [hp]; exact hd)] at hex
  obtain ⟨y, hy⟩ : ∃ y, y = portEvents n (2 ^ 2) x := ⟨_, rfl⟩
  have hev : rdB y (Reg.portEvent n) 2 = true := by rw [hy]; exact rdB_orReg_pow _ _ (by decide)
  have hm : MemKept x y := by rw [hy]; exact (portEvents_frame n _ x).2
  have hsy : portState y n = 4 := by
    rw [hy]
    exact (portState_of_rd (rd_orReg_ne _ _ (by omega))).trans (hs.trans h4)
  rw [← hy] at hex
  clear hy
  obtain ⟨z, hz⟩ : ∃ z, z = onPrt n (fun p => { p with limitRetrain := true }) y := ⟨_, rfl⟩
  have hzr : (∀ a, rd z a = rd y a) ∧ MemKept y z ∧ (prt z n).limitRetrain = true := by
    rw [hz]; exact ⟨fun _ => rfl, fun _ => rfl, by rw [prt_onPrt_self]⟩
  rw [← hz] at hex
  have hb := startRetrain_begun (s := z) hn ((portState_of_rd (hzr.1 _)).trans hsy)
  refine ⟨_, hex, hb.state, ?_, ?_, fun a => (hb.mem a).trans ((hzr.2.1 a).trans ((hm a).trans (c2 a)))⟩
  · rw [rdB, hb.regs _ (by omega) (by omega) (by omega) (by omega), hzr.1]
    exact hev
  · rw [hb.port]; exact hzr.2.2

theorem limitReached_of_soon {t : Nat} (h : (prt s n).limitDone = some t) (hs : now s ≤ t + 1600000000) :
    limitReached n s = portDown n 2 (portEvents n (2 ^ 2) s) := by
  have hp : (prt (portEvents n (2 ^ 2) s) n).limitDone = some t := h
  have hn : now (portEvents n (2 ^ 2) s) ≤ t + 1600000000 := hs
  unfold limitReached
  generalize portEvents n (2 ^ 2) s = x at hp hn ⊢
  dsimp only
  rw [hp]
  exact if_pos (decide_eq_true hn)

theorem ackTimerExpiry_downs (hn : n < 32) (h4 : portState s n = 4) (hr : (prt s n).replay ≠ []) (ht : (prt s n).ackStart + ackTimeout s n < 2 ^ 64)
    (hq : ∀ t, t = max (now s) ((prt s n).ackStart + ackTimeout s n) → t % 1024 ≠ 0 ∨ t / 1024 = s.tim.lastRound) {k : Nat}
    (hl : rdF s (Reg.replayCtrl n) 3 0 ≤ (prt s n).replays) (hd : (prt s n).limitDone = some k)
    (hk : max (now s) ((prt s n).ackStart + ackTimeout s n) ≤ k + 1600000000) : Completes (.ackTimerExpiry n) s (WentDown n 2) := by
  have hex := exec_ackTimerExpiry h4 hr ht hq
  rw [if_pos hl] at hex
  generalize (prt s n).ackStart + ackTimeout s n = t at hex ht hk
  rw [limitReached_of_soon ((congrArg Port.limitDone (prt_clockTo t n s)).trans hd) (by rw [now_clockTo_max ht]; exact hk)] at hex
  exact ⟨_, hex, portDown_wentDown hn (by decide) _⟩

-- Credit audits (R236)

theorem auditSend_completes (h : portState s n = 4) (ht : ((prt s n).auditFrom + rdF s (Reg.creditCtrl n) 15 8) * 1024 < 2 ^ 64) :
    Completes (.auditSend n) s (fun u =>
      u.out = s.out ++ [.audit n (ackSeq (prt s n)) (takeReturn (prt s n)).1 (takeReturn (prt s n)).2.1
          (takeReturn (prt s n)).2.2.returned (prt s n).txSeq]
        ∧ ((prt s n).auditFrom + rdF s (Reg.creditCtrl n) 15 8) * 1024 ≤ now u
        ∧ prt u n = { (takeReturn (prt s n)).2.2 with auditFrom := now u / 1024 } ∧ RegsKept [] s u ∧ MemKept s u) := by
  have hex : exec (.auditSend n) s = ok (sendAudit n (clockTo (((prt s n).auditFrom + rdF s (Reg.creditCtrl n) 15 8) * 1024) s)) :=
    congrArg ok (if_pos h)
  generalize ((prt s n).auditFrom + rdF s (Reg.creditCtrl n) 15 8) * 1024 = t at hex ht ⊢
  have hn := now_clockTo s t ht
  have hp := prt_clockTo t n s
  have ho := out_clockTo t s
  obtain ⟨c1, c2⟩ := regs_clockTo t s
  generalize clockTo t s = x at hex hn hp ho c1 c2
  have he : sendAudit n x = emit (.audit n (ackSeq (prt s n)) (takeReturn (prt s n)).1 (takeReturn (prt s n)).2.1
      (takeReturn (prt s n)).2.2.returned (prt s n).txSeq)
      (onPrt n (fun _ => { (takeReturn (prt s n)).2.2 with auditFrom := now x / 1024 }) x) := by
    rw [← hp]; rfl
  rw [he] at hex
  refine ⟨_, hex, ?_, hn, ?_, c1, c2⟩
  · rw [emit, ← ho]; rfl
  · rw [prt_emit, prt_onPrt_self]; rfl

/-- What an audit writes of one channel (R236). -/
def auditedOne (n : Nat) (lk wn : Nat → Nat) (s : State) (v : Nat) : State :=
  s |> wrF (Reg.creditState n v) 47 32 (lk v) |> wrF (Reg.creditState n v) 15 0 (wn v)

theorem creditState_inj {c d : Nat} (h : c ≠ d) : Reg.creditState n c ≠ Reg.creditState n d := by
  simp only [Reg.creditState]; omega

theorem auditedOne_ne (n : Nat) (lk wn : Nat → Nat) (c : Nat) {a : Nat} (h : a ≠ Reg.creditState n c) (s : State) :
    rd (auditedOne n lk wn s c) a = rd s a := (rd_wrF_ne _ _ _ _ h).trans (rd_wrF_ne _ _ _ _ h)

theorem auditedOne_self (n : Nat) (lk wn : Nat → Nat) (h1 : ∀ c, lk c < 65536) (h2 : ∀ c, wn c < 65536) (c : Nat) (s : State) :
    rdF (auditedOne n lk wn s c) (Reg.creditState n c) 47 32 = lk c
      ∧ rdF (auditedOne n lk wn s c) (Reg.creditState n c) 15 0 = wn c := by
  constructor
  · exact (rdF_wrF_other _ _ _ _ _ _ _ (by decide) (by decide) (by decide)).trans (rdF_wrF_fits _ _ (by decide) (by decide) (h1 c))
  · exact rdF_wrF_fits _ _ (by decide) (by decide) (h2 c)

/-- An audit's words of all the channels. -/
structure Audited (n : Nat) (lk wn : Nat → Nat) (s u : State) : Prop where
  fields : ∀ v, v < 8 → rdF u (Reg.creditState n v) 47 32 = lk v ∧ rdF u (Reg.creditState n v) 15 0 = wn v
  near : ∀ a, Near n a → rd u a = rd s a
  mem : MemKept s u

theorem auditedAll (n : Nat) (lk wn : Nat → Nat) (h1 : ∀ c, lk c < 65536) (h2 : ∀ c, wn c < 65536) (s : State) :
    Audited n lk wn s ((List.range 8).foldl (auditedOne n lk wn) s) := by
  refine ⟨fun v hv => ?_, fun a ha => ?_, fun a => ?_⟩
  · obtain ⟨x, -, hx⟩ := foldl_view (fun t => rd t (Reg.creditState n v)) (f := auditedOne n lk wn) (l := List.range 8) (m := v)
      List.nodup_range (List.mem_range.2 hv) (fun t k _ hk => auditedOne_ne n lk wn k (creditState_inj (Ne.symm hk)) t) s
    obtain ⟨g1, g2⟩ := auditedOne_self n lk wn h1 h2 v x
    exact ⟨(congrArg (fld · 47 32) hx).trans g1, (congrArg (fld · 15 0) hx).trans g2⟩
  · exact foldl_keeps s (fun t => rd t a) (auditedOne n lk wn) _ fun t k _ => auditedOne_ne n lk wn k (near_creditState ha) t
  · exact foldl_keeps s (fun t => memByte t a) (auditedOne n lk wn) _ fun t k _ => rfl

theorem unsignedOf_lt (v : Int) : unsignedOf 16 v < 65536 := by
  unfold unsignedOf
  omega

/-- Whether an audit finds too many credits, and too few (R236). -/
def auditExcess (p : Port) (totals : List Nat) : Bool := (List.range 8).any (fun v => decide (leaked p totals v < 0))

def auditLow (p : Port) (totals : List Nat) (floor : Nat) : Bool :=
  (List.range 8).any (fun v => decide (16 * auditWindow p totals v ≤ (nth p.adv v * floor : Nat)))

theorem exec_audit (totals : List Nat) (h : portState s n = 4) : ∃ x,
    Audited n (fun v => unsignedOf 16 (leaked (prt s n) totals v)) (fun v => unsignedOf 16 (auditWindow (prt s n) totals v)) s x
      ∧ exec (.audit n totals (prt s n).rxSeq) s = ok
        (if (auditExcess (prt s n) totals || auditLow (prt s n) totals (rdF s (Reg.creditCtrl n) 3 0)) = true then
          startRetrain n (portEvents n ((if auditExcess (prt s n) totals then 2 ^ 4 else 0)
            + (if auditLow (prt s n) totals (rdF s (Reg.creditCtrl n) 3 0) then 2 ^ 3 else 0)) x) else x) := by
  have ha := auditedAll n (fun v => unsignedOf 16 (leaked (prt s n) totals v)) (fun v => unsignedOf 16 (auditWindow (prt s n) totals v))
    (fun _ => unsignedOf_lt _) (fun _ => unsignedOf_lt _) s
  have hc := ha.near (Reg.creditCtrl n) (Or.inl ⟨by rw [Reg.creditCtrl]; omega, by rw [Reg.creditCtrl]; omega⟩)
  refine ⟨_, ha, ?_⟩
  show execAudit n totals (prt s n).rxSeq s = _
  unfold execAudit
  dsimp only
  rw [if_neg (by rw [h]; simp)]
  rw [← show rdF ((List.range 8).foldl (auditedOne n (fun v => unsignedOf 16 (leaked (prt s n) totals v))
    (fun v => unsignedOf 16 (auditWindow (prt s n) totals v))) s) (Reg.creditCtrl n) 3 0 = rdF s (Reg.creditCtrl n) 3 0 from
    congrArg (fld · 3 0) hc]
  rfl

theorem any_range_of_exists {p : Nat → Prop} [DecidablePred p] (h : ∃ v, v < 8 ∧ p v) : (List.range 8).any (fun v => decide (p v)) = true := by
  obtain ⟨v, hv, hp⟩ := h
  exact List.any_eq_true.2 ⟨v, List.mem_range.2 hv, decide_eq_true hp⟩

/-- A retrain that an audit begins (R236, R241). -/
theorem audit_retrains (hn : n < 32) (h : portState s n = 4) (mask : Nat) : portState (startRetrain n (portEvents n mask s)) n = 5
    ∧ (∀ b, b < 64 → mask.testBit b = true → rdB (startRetrain n (portEvents n mask s)) (Reg.portEvent n) b = true)
    ∧ (∀ v, v < 8 → rd (startRetrain n (portEvents n mask s)) (Reg.creditState n v) = rd s (Reg.creditState n v))
    ∧ MemKept s (startRetrain n (portEvents n mask s)) := by
  obtain ⟨-, p1, p2, -, -, -, -, -, -, -, p3, -, p4⟩ := linkPlaces n
  obtain ⟨x, hx⟩ : ∃ x, x = portEvents n mask s := ⟨_, rfl⟩
  have hr : ∀ a, a ≠ Reg.portEvent n → rd x a = rd s a := fun a ha => by rw [hx]; exact rd_orReg_ne _ _ ha
  have hev : ∀ b, b < 64 → mask.testBit b = true → rdB x (Reg.portEvent n) b = true := fun b hb hm => by
    rw [hx, portEvents, rdB_orReg_self, bit_wd _ hb, hm, Bool.or_true]
  have hm : MemKept s x := by rw [hx]; exact (portEvents_frame n mask s).2
  rw [← hx]
  have hb := startRetrain_begun (s := x) hn ((portState_of_rd (hr _ (by omega))).trans h)
  refine ⟨hb.state, fun b h64 hbit => ?_, fun v hv => ?_, fun a => (hb.mem a).trans (hm a)⟩
  · rw [rdB, hb.regs _ (by omega) (by omega) (by omega) (by omega)]
    exact hev b h64 hbit
  · have hc : Reg.creditState n v = Reg.portBase n + 0x80 + 8 * v := rfl
    rw [hb.regs _ (by omega) (by omega) (by omega) (by omega), hr _ (by omega)]

theorem audit_completes (hn : n < 32) (totals : List Nat) (h : portState s n = 4) :
    Completes (.audit n totals (prt s n).rxSeq) s (fun u =>
      (∀ v, v < 8 → rdF u (Reg.creditState n v) 47 32 = unsignedOf 16 (leaked (prt s n) totals v)
          ∧ rdF u (Reg.creditState n v) 15 0 = unsignedOf 16 (auditWindow (prt s n) totals v))
        ∧ ((∃ v, v < 8 ∧ 16 * auditWindow (prt s n) totals v ≤ (nth (prt s n).adv v * rdF s (Reg.creditCtrl n) 3 0 : Nat)) →
            portState u n = 5 ∧ rdB u (Reg.portEvent n) 3 = true)
        ∧ ((∃ v, v < 8 ∧ leaked (prt s n) totals v < 0) → portState u n = 5 ∧ rdB u (Reg.portEvent n) 4 = true)
        ∧ MemKept s u) := by
  obtain ⟨x, hx, hex⟩ := exec_audit totals h
  have hlow : (∃ v, v < 8 ∧ 16 * auditWindow (prt s n) totals v ≤ (nth (prt s n).adv v * rdF s (Reg.creditCtrl n) 3 0 : Nat)) →
      auditLow (prt s n) totals (rdF s (Reg.creditCtrl n) 3 0) = true := fun he => any_range_of_exists he
  have hexc : (∃ v, v < 8 ∧ leaked (prt s n) totals v < 0) → auditExcess (prt s n) totals = true := fun he => any_range_of_exists he
  generalize auditLow (prt s n) totals (rdF s (Reg.creditCtrl n) 3 0) = low at hex hlow
  generalize auditExcess (prt s n) totals = exc at hex hexc
  have hs : portState x n = 4 := (portState_of_rd (hx.near _ (near_portStatus n))).trans h
  by_cases hc : (exc || low) = true
  · rw [if_pos hc] at hex
    generalize hm : (if exc then 2 ^ 4 else 0) + (if low then 2 ^ 3 else 0) = mask at hex
    obtain ⟨g1, g2, g3, g4⟩ := audit_retrains hn hs mask
    refine ⟨_, hex, fun v hv => ?_, fun he => ⟨g1, g2 3 (by decide) ?_⟩, fun he => ⟨g1, g2 4 (by decide) ?_⟩,
      fun a => (g4 a).trans (hx.mem a)⟩
    · rw [rdF, rdF, g3 v hv]; exact hx.fields v hv
    · rw [← hm, hlow he]; cases exc <;> rfl
    · rw [← hm, hexc he]; cases low <;> rfl
  · rw [if_neg hc] at hex
    refine ⟨_, hex, hx.fields, fun he => absurd (by rw [hlow he, Bool.or_true]) hc, fun he => absurd (by rw [hexc he, Bool.true_or]) hc, hx.mem⟩

/-- Settles O34: frames that cannot be corrected, flits with their numbers and checks, the acknowledgement timer with its
limit, and the credit audits. -/
theorem framesAndAudits : Obligations.FramesAndAudits := by
  unfold Obligations.FramesAndAudits
  intro n s hn
  refine ⟨fun a b lanes fl hab => ⟨fun h => fecFrame_dropped lanes fl hab h, fun h => fecFrame_testDropped lanes fl hab h⟩,
    fun a b lanes f ha hb => ⟨fun h hq hc => fecFrame_accepted lanes ha hb h hq hc, fun h _ hc => fecFrame_badFlit lanes ha hb h hc,
      fun h ht hc => fecFrame_test lanes ha hb h ht hc⟩,
    fun h4 hr ht hq => ⟨fun hl => ackTimerExpiry_replays h4 hr ht hq hl, fun hl hd => ackTimerExpiry_retrains hn h4 hr ht hq hl hd,
      fun k hl hd hk => ackTimerExpiry_downs hn h4 hr ht hq hl hd hk⟩, ?_, fun totals h => audit_completes hn totals h⟩
  rintro r h ht rfl
  exact auditSend_completes h ht

end Sys2Proof.Machine
end

section
/-! PROOFS. The packet at the front of the routers (R266–R269, R278). -/

namespace Sys2Proof.Machine

variable {s u v : State} {came : Option Nat} {p : Packet} {r : List (Option Nat × Packet)} {ecc : Syndrome}

/-- The routers have taken the packet at their front. -/
def routerTook (r : List (Option Nat × Packet)) (ecc : Syndrome) (s : State) : State :=
  { s with net := { s.net with routerQ := r, eccFixed := s.net.eccFixed + (if ecc = .single then 1 else 0) } }

/-- Taking a packet leaves the registers, the memory, the ports, the bonds and what has been sent. -/
structure Took (r : List (Option Nat × Packet)) (s u : State) : Prop where
  queue : u.net.routerQ = r
  regs : u.regs = s.regs
  mem : u.mem = s.mem
  ports : u.ports = s.ports
  bonds : ∀ b, bnd u b = bnd s b
  deliver : u.rma.deliverQ = s.rma.deliverQ
  out : u.out = s.out

theorem routerTook_took (r : List (Option Nat × Packet)) (ecc : Syndrome) (s : State) : Took r s (routerTook r ecc s) :=
  ⟨rfl, rfl, rfl, rfl, fun _ => rfl, rfl, rfl⟩

theorem Took.rd (h : Took r s u) (a : Nat) : rd u a = rd s a := by rw [Machine.rd, Machine.rd, h.regs]

theorem Took.rdF (h : Took r s u) (a hi lo : Nat) : rdF u a hi lo = rdF s a hi lo := congrArg (fld · hi lo) (h.rd a)

theorem Took.memKept (h : Took r s u) : MemKept s u := fun a => by rw [memByte, memByte, h.mem]

theorem Took.ownDev (h : Took r s u) : ownDev u = ownDev s := h.rdF _ _ _

theorem Took.egressBond (h : Took r s u) (e d : Nat) : egressBond u e d = egressBond s e d := by
  unfold Machine.egressBond routeEntry
  rw [h.rd]

theorem Took.portState (h : Took r s u) (n : Nat) : portState u n = portState s n := h.rdF _ _ _

theorem Took.bondOf (h : Took r s u) {n : Nat} (hn : n < 32) : bondOf u n = bondOf s n := bondOf_of_routes (fun a _ _ => h.rd a) hn

theorem Took.bondPorts (h : Took r s u) (b : Nat) : bondPorts u b = bondPorts s b := bondPorts_of_routes (fun a _ _ => h.rd a) b

theorem exec_routePacket_double (hq : s.net.routerQ = (came, p) :: r) : exec (.routePacket ⟨.double, none⟩) s
    = ok (recordControl 22 false none [] (orReg Reg.routeEvent (2 ^ 4) (addSat Reg.routeDiscard 63 32 1 (routerTook r .double s)))) := by
  show execRoutePacket ⟨.double, none⟩ s = _
  unfold execRoutePacket
  dsimp only
  rw [hq]
  rfl

theorem exec_routePacket (hq : s.net.routerQ = (came, p) :: r) (he : ecc = .clean ∨ ecc = .single) (hm : isMgmt p.opcode = false) :
    exec (.routePacket ⟨ecc, none⟩) s = ok (if p.dst = ownDev (routerTook r ecc s) then
      { routerTook r ecc s with rma := { s.rma with deliverQ := s.rma.deliverQ ++ [p] } }
      else routeOut came p (routerTook r ecc s)) := by
  show execRoutePacket ⟨ecc, none⟩ s = _
  unfold execRoutePacket
  dsimp only
  rw [hq]
  dsimp only
  rw [if_neg (by rcases he with rfl | rfl <;> decide), if_neg (by rw [hm]; decide)]
  rfl

theorem net_addSat (s : State) (a hi lo k : Nat) : (addSat a hi lo k s).net = s.net := rfl

theorem mem_orReg (s : State) (a m : Nat) : MemKept s (orReg a m s) := fun _ => rfl

theorem net_orReg (s : State) (a m : Nat) : (orReg a m s).net = s.net := rfl

theorem routePacket_spoiled (hq : s.net.routerQ = (came, p) :: r) : Completes (.routePacket ⟨.double, none⟩) s (fun u =>
    u.net.routerQ = r ∧ rdB u Reg.routeEvent 4 = true
      ∧ rdF u Reg.routeDiscard 63 32 = min (rdF s Reg.routeDiscard 63 32 + 1) (2 ^ 32 - 1)
      ∧ rdB u Reg.faultStatus 22 = true ∧ MemKept s u) := by
  have hex := exec_routePacket_double hq
  have ht := routerTook_took r .double s
  generalize routerTook r .double s = x at hex ht
  have hc := rdF_addSat_self x Reg.routeDiscard 63 32 1 (by decide) (by decide)
  have hk : Kept [Reg.routeDiscard] x (addSat Reg.routeDiscard 63 32 1 x) := (Kept.refl _ x).addSat (by simp) 63 32 1
  have hn := net_addSat x Reg.routeDiscard 63 32 1
  have hm := mem_orReg (addSat Reg.routeDiscard 63 32 1 x) Reg.routeEvent (2 ^ 4)
  generalize addSat Reg.routeDiscard 63 32 1 x = y at hex hc hk hn hm
  have hz := kept_recordControl 22 false none [] (orReg Reg.routeEvent (2 ^ 4) y)
  have hf := rdB_recordControl (src := 22) false none [] (orReg Reg.routeEvent (2 ^ 4) y) (by decide)
  obtain ⟨g, rs, hg⟩ := recordControl_frame 22 false none [] (orReg Reg.routeEvent (2 ^ 4) y)
  have hq' : (recordControl 22 false none [] (orReg Reg.routeEvent (2 ^ 4) y)).net = y.net := by rw [hg]; exact net_orReg y Reg.routeEvent (2 ^ 4)
  generalize recordControl 22 false none [] (orReg Reg.routeEvent (2 ^ 4) y) = z at hex hz hf hq'
  refine ⟨_, hex, ?_, ?_, ?_, hf, fun a => (hz.mem a).trans ((hm a).trans ((hk.mem a).trans (ht.memKept a)))⟩
  · rw [hq', hn, ht.queue]
  · rw [rdB, hz.regs _ (by simp only [List.mem_cons, List.not_mem_nil, or_false, Reg.routeEvent, Reg.faultStatus, Reg.firstSource]; omega)]
    exact rdB_orReg_pow _ _ (by decide)
  · rw [rdF, hz.regs _ (by simp only [List.mem_cons, List.not_mem_nil, or_false, Reg.routeDiscard, Reg.faultStatus, Reg.firstSource]; omega), rd_orReg_ne _ _ (by rw [Reg.routeDiscard, Reg.routeEvent]; omega)]
    exact hc.trans (by rw [ht.rdF])

theorem routePacket_delivered (hq : s.net.routerQ = (came, p) :: r) (he : ecc = .clean ∨ ecc = .single) (hm : isMgmt p.opcode = false)
    (hd : p.dst = ownDev s) : Completes (.routePacket ⟨ecc, none⟩) s (fun u =>
      u.net.routerQ = r ∧ u.rma.deliverQ = s.rma.deliverQ ++ [p] ∧ RegsKept [] s u ∧ MemKept s u) := by
  have hex := exec_routePacket hq he hm
  have ht := routerTook_took r ecc s
  rw [if_pos (hd.trans ht.ownDev.symm)] at hex
  exact ⟨_, hex, rfl, rfl, fun _ _ => rfl, fun _ => rfl⟩

theorem exec_routePacket_away (hq : s.net.routerQ = (came, p) :: r) (he : ecc = .clean ∨ ecc = .single) (hm : isMgmt p.opcode = false)
    (hd : p.dst ≠ ownDev s) : exec (.routePacket ⟨ecc, none⟩) s = ok (routeOut came p (routerTook r ecc s)) := by
  have hex := exec_routePacket hq he hm
  rw [if_neg (by rw [(routerTook_took r ecc s).ownDev]; exact hd)] at hex
  exact hex

/-- A packet whose bond is alive joins the bond's queue, after the bond is woken (R248, R268). -/
theorem routeOut_bond {b : Nat} (he : egressBond s p.epoch p.dst = some b) (ha : bondAlive s b = true) : routeOut came p s
    = onBnd b (fun x => { x with queue := x.queue
        ++ [(came.getD 32, { p with vc := chooseVc s came p b (bit (routeEntry s p.epoch p.dst) 5) })] }) (wakeBond b s) := by
  unfold routeOut
  rw [he]
  dsimp only
  rw [ha]
  rfl

theorem chooseVc_of_took (h : Took r s u) (hc : ∀ n, came = some n → n < 32 ∨ bondOf u n = bondOf s n) (p : Packet) (b : Nat) :
    chooseVc u came p b (bit (routeEntry u p.epoch p.dst) 5) = chooseVc s came p b (bit (routeEntry s p.epoch p.dst) 5) := by
  have hr : routeEntry u p.epoch p.dst = routeEntry s p.epoch p.dst := h.rd _
  rw [hr]
  cases came with
  | none => rfl
  | some n =>
    have hb : bondOf u n = bondOf s n := (hc n rfl).elim (fun hn => h.bondOf hn) id
    unfold chooseVc
    dsimp only
    rw [hb]

theorem Took.bondAlive (h : Took r s u) (b : Nat) : bondAlive u b = bondAlive s b := by
  unfold Machine.bondAlive
  rw [h.bondPorts]
  simp only [h.portState]

theorem bondOf_of_regs (h : u.regs = s.regs) (n : Nat) : bondOf u n = bondOf s n := by
  have hr : ∀ a, rd u a = rd s a := fun a => by rw [rd, rd, h]
  simp only [bondOf, isSpare, presetBond, presetOf, hasExternal, ringLen, ownLocal, ownDev, rdF, hr]
  rfl

theorem routePacket_queued (hq : s.net.routerQ = (came, p) :: r) (he : ecc = .clean ∨ ecc = .single) (hm : isMgmt p.opcode = false)
    {b : Nat} (hd : p.dst ≠ ownDev s) (hb : egressBond s p.epoch p.dst = some b) (ha : bondAlive s b = true)
    (hw : (∃ n ∈ bondPorts s b, portState s n = 4) ∨ ∀ n ∈ bondPorts s b, portState s n ≠ 7) :
    Completes (.routePacket ⟨ecc, none⟩) s (fun u => u.net.routerQ = r ∧ RegsKept [] s u ∧ MemKept s u
      ∧ (bnd u b).queue = (bnd s b).queue
          ++ [(came.getD 32, { p with vc := chooseVc s came p b (bit (routeEntry s p.epoch p.dst) 5) })]) := by
  have hex := exec_routePacket_away hq he hm hd
  have ht := routerTook_took r ecc s
  generalize routerTook r ecc s = x at hex ht
  rw [routeOut_bond ((ht.egressBond _ _).trans hb) ((ht.bondAlive b).trans ha),
    chooseVc_of_took ht (fun n _ => Or.inr (bondOf_of_regs ht.regs n))] at hex
  have hx : wakeBond b x = x := by
    unfold wakeBond
    rw [ht.bondPorts]
    split
    · rfl
    · next h4 =>
      split
      · next n hf =>
        have hn := List.mem_of_find?_eq_some hf
        have h7 : portState x n = 7 := by simpa using List.find?_some hf
        rw [ht.portState] at h7
        rcases hw with ⟨m, hm1, hm2⟩ | hw
        · exact absurd (List.any_eq_true.2 ⟨m, hm1, by rw [ht.portState, hm2]; rfl⟩) h4
        · exact absurd h7 (hw n hn)
      · rfl
  rw [hx] at hex
  refine ⟨_, hex, ht.queue, fun a _ => ht.rd a, ht.memKept, ?_⟩
  rw [bnd_onBnd_self, ht.bonds]

theorem routePacket_wakes (hq : s.net.routerQ = (came, p) :: r) (he : ecc = .clean ∨ ecc = .single) (hm : isMgmt p.opcode = false)
    {b n : Nat} {l : List Nat} (hd : p.dst ≠ ownDev s) (hb : egressBond s p.epoch p.dst = some b)
    (h4 : ∀ m ∈ bondPorts s b, portState s m ≠ 4) (h7 : (bondPorts s b).filter (fun m => portState s m = 7) = n :: l) :
    Completes (.routePacket ⟨ecc, none⟩) s (fun u => portState u n = 8 ∧ .train n ∈ u.out ∧ MemKept s u
      ∧ (bnd u b).queue.length = (bnd s b).queue.length + 1) := by
  have hn : n ∈ bondPorts s b ∧ portState s n = 7 := by
    have := List.mem_filter.1 (h7 ▸ List.mem_cons_self : n ∈ (bondPorts s b).filter (fun m => portState s m = 7))
    exact ⟨this.1, of_decide_eq_true this.2⟩
  have ha : bondAlive s b = true := List.any_eq_true.2 ⟨n, hn.1, by rw [hn.2]; rfl⟩
  have hex := exec_routePacket_away hq he hm hd
  have ht := routerTook_took r ecc s
  generalize routerTook r ecc s = x at hex ht
  rw [routeOut_bond ((ht.egressBond _ _).trans hb) ((ht.bondAlive b).trans ha)] at hex
  have hx : wakeBond b x = wakePort n x := by
    have hf : (bondPorts s b).find? (fun m => portState x m == 7) = some n := by
      rw [← List.head?_filter]
      have hl : (bondPorts s b).filter (fun m => portState x m == 7) = n :: l := by
        rw [← h7]
        exact List.filter_congr fun m _ => by rw [ht.portState]; rfl
      rw [hl]; rfl
    unfold wakeBond
    rw [ht.bondPorts, if_neg, hf]
    intro hany
    obtain ⟨m, h1, h2⟩ := List.any_eq_true.1 hany
    exact h4 m h1 (by rw [← ht.portState]; exact eq_of_beq h2)
  rw [hx] at hex
  obtain ⟨g1, -, g3, g4⟩ := wakePort_spec ((ht.portState n).trans hn.2)
  have hbn : bnd (wakePort n x) b = bnd s b := by
    rw [← ht.bonds]
    unfold wakePort
    split <;> rfl
  generalize wakePort n x = y at hex g1 g3 g4 hbn
  refine ⟨_, hex, g1, g3, fun a => (g4 a).trans (ht.memKept a), ?_⟩
  rw [bnd_onBnd_self, hbn]
  exact List.length_append

theorem routePacket_unrouted (hq : s.net.routerQ = (came, p) :: r) (he : ecc = .clean ∨ ecc = .single) (hm : isMgmt p.opcode = false)
    {n : Nat} (hd : p.dst ≠ ownDev s) (hb : egressBond s p.epoch p.dst = none) (hc : came = some n) (hr : isRequest p.opcode = false) :
    Completes (.routePacket ⟨ecc, none⟩) s (fun u => u.net.routerQ = r ∧ rdB u Reg.routeEvent 5 = true
      ∧ rdF u Reg.routeDiscard 31 0 = min (rdF s Reg.routeDiscard 31 0 + 1) (2 ^ 32 - 1) ∧ MemKept s u) := by
  have hex := exec_routePacket_away hq he hm hd
  have ht := routerTook_took r ecc s
  generalize routerTook r ecc s = x at hex ht
  have hx : routeOut came p x = countNoRoute x := by
    unfold routeOut
    rw [ht.egressBond, hb, hc]
    dsimp only
    rw [hr]
    rfl
  rw [hx, countNoRoute] at hex
  have hs := rdF_addSat_self x Reg.routeDiscard 31 0 1 (by decide) (by decide)
  refine ⟨_, hex, ht.queue, rdB_orReg_pow _ _ (by decide), ?_, ht.memKept⟩
  rw [rdF, rd_orReg_ne _ _ (by decide)]
  exact hs.trans (by rw [ht.rdF])

/-- Settles O37: the packet at the front of the routers, by its check bits, its destination, its route and the state of
its bond. -/
theorem packetsAreRouted : Obligations.PacketsAreRouted := by
  unfold Obligations.PacketsAreRouted
  intro s came p r hq
  exact ⟨routePacket_spoiled hq, fun ecc he hm => ⟨fun hd => routePacket_delivered hq he hm hd,
    fun b hd hb ha hw => routePacket_queued hq he hm hd hb ha hw, fun b n l hd hb h4 h7 => routePacket_wakes hq he hm hd hb h4 h7,
    fun n hd hb hc hr => routePacket_unrouted hq he hm hd hb hc hr⟩⟩

end Sys2Proof.Machine
end

section
/-! PROOFS. A bond deals its stream, and its receiver follows (R260–R264, R270). -/

namespace Sys2Proof.Machine

variable {s u v : State} {b n i : Nat} {p : Packet}

-- What a port still has to send

/-- What a port keeps for sending and sending again is left as it is. -/
def QueueKept (n : Nat) (s u : State) : Prop := (prt u n).replay = (prt s n).replay ∧ (prt u n).held = (prt s n).held

theorem QueueKept.refl (n : Nat) (s : State) : QueueKept n s s := ⟨rfl, rfl⟩

theorem QueueKept.trans (h : QueueKept n s u) (h' : QueueKept n u v) : QueueKept n s v := ⟨h'.1.trans h.1, h'.2.trans h.2⟩

theorem QueueKept.of_ports (h : u.ports = s.ports) (n : Nat) : QueueKept n s u := by
  rw [QueueKept, prt, prt, h]
  exact ⟨rfl, rfl⟩

theorem QueueKept.queued (h : QueueKept n s u) : queued u n = queued s n := by rw [Machine.queued, Machine.queued, h.1, h.2]

theorem queueKept_onPrt {f : Port → Port} (m n : Nat) (s : State)
    (hf : ∀ p, (f p).replay = p.replay ∧ (f p).held = p.held := by exact fun _ => ⟨rfl, rfl⟩) : QueueKept n s (onPrt m f s) := by
  by_cases hm : n = m
  · subst hm; rw [QueueKept, prt_onPrt_self]; exact hf _
  · rw [QueueKept, prt_onPrt_ne _ _ hm]; exact ⟨rfl, rfl⟩

theorem queue_takeReturn (p : Port) : (takeReturn p).2.2.replay = p.replay ∧ (takeReturn p).2.2.held = p.held := by
  unfold takeReturn
  split <;> exact ⟨rfl, rfl⟩

theorem queueKept_sendCtrl (m what n : Nat) (s : State) : QueueKept n s (sendCtrl m what s) := by
  have h : QueueKept n s (onPrt m (fun _ => (takeReturn (prt s m)).2.2) s) := by
    by_cases hm : n = m
    · subst hm; rw [QueueKept, prt_onPrt_self]; exact queue_takeReturn _
    · rw [QueueKept, prt_onPrt_ne _ _ hm]; exact ⟨rfl, rfl⟩
  exact h.trans (QueueKept.of_ports rfl n)

/-- A port that stalls or rests keeps its queue, the bonds and the memory. -/
structure BondSame (s u : State) : Prop where
  queue : ∀ n, QueueKept n s u
  net : u.net = s.net
  mem : MemKept s u

theorem BondSame.refl (s : State) : BondSame s s := ⟨fun n => QueueKept.refl n s, rfl, fun _ => rfl⟩

theorem BondSame.trans (h : BondSame s u) (h' : BondSame u v) : BondSame s v :=
  ⟨fun n => (h.queue n).trans (h'.queue n), h'.net.trans h.net, fun a => (h'.mem a).trans (h.mem a)⟩

theorem BondSame.foldl {α : Type} {f : State → α → State} (l : List α) (hf : ∀ v x, BondSame v (f v x)) (s : State) :
    BondSame s (l.foldl f s) :=
  List.foldlRecOn l f (motive := BondSame s) (BondSame.refl s) fun _ hv x _ => hv.trans (hf _ x)

theorem bondSame_sendCtrl (m what : Nat) (s : State) : BondSame s (sendCtrl m what s) :=
  ⟨fun n => queueKept_sendCtrl m what n s, rfl, fun _ => rfl⟩

theorem bondSame_phase (m k : Nat) (s : State) : BondSame s (onPrt m (fun p => { p with restPhase := k }) s) :=
  ⟨fun n => queueKept_onPrt m n s, rfl, fun _ => rfl⟩

theorem bondSame_state (m k : Nat) (s : State) : BondSame s (setPortState m k s) :=
  ⟨fun n => QueueKept.of_ports rfl n, rfl, fun _ => rfl⟩

theorem bondSame_restStep (m : Nat) (s : State) : BondSame s (restStep m s) := by
  rcases restStep_cases m s with h | ⟨-, h⟩ | ⟨-, h⟩
  · rw [h]; exact BondSame.refl s
  · rw [h]; exact (bondSame_phase m 2 s).trans (bondSame_sendCtrl m 1 _)
  · rw [h]; exact ((bondSame_sendCtrl m 2 s).trans (bondSame_state m 7 _)).trans (bondSame_phase m 0 _)

-- One flit goes to a port (R228, R263)

theorem prt_endStall_queue (m c n : Nat) (s : State) : QueueKept n s (endStall m c s) := by
  have h : QueueKept n s (countStall m c s) := by
    unfold countStall
    split
    · exact QueueKept.refl n s
    · exact QueueKept.of_ports rfl n
  exact h.trans (queueKept_onPrt m n _)

/-- A flit put on a port is the last that the port still has to send. -/
structure Put (n : Nat) (d : BitVec 448) (s u : State) : Prop where
  queued : queued u n = queued s n ++ [d]
  others : ∀ m, m ≠ n → QueueKept m s u
  net : u.net = s.net
  mem : MemKept s u

/-- The counts and the flit itself that go with a flit that is sent. -/
def sentMarks (n : Nat) (x : SeqFlit) (k : Nat) (f : Flit) (s : State) : State :=
  s |> wrF (Reg.creditState n x.vc) 31 16 k |> addSat (Reg.congLive n x.vc 0) 63 0 1 |> emit (.flit n f)

theorem sentMarks_frame (n : Nat) (x : SeqFlit) (k : Nat) (f : Flit) (s : State) :
    (sentMarks n x k f s).ports = s.ports ∧ (sentMarks n x k f s).net = s.net ∧ (sentMarks n x k f s).mem = s.mem := ⟨rfl, rfl, rfl⟩

theorem sendSeq_eq (n : Nat) (x : SeqFlit) (s : State) : ∃ f, sendSeq n x s = sentMarks n x (available s n x.vc - 1) f
    (onPrt n (fun y => sentPort x (now s) (prt s n) y.stall) (endStall n x.vc s)) := ⟨_, rfl⟩

theorem net_endStall (m c : Nat) (s : State) : (endStall m c s).net = s.net ∧ MemKept s (endStall m c s) := by
  unfold endStall countStall
  split
  · exact ⟨rfl, fun _ => rfl⟩
  · exact ⟨rfl, fun _ => rfl⟩

/-- A flit as a port sends it for the first time (R225–R230). -/
def sentFlit (x : SeqFlit) (p : Port) : SeqFlit :=
  { x with
    seq := p.txSeq
    flit := mkFlit x.flit.data (flitType x.flit) (ackSeq p) (takeReturn p).1 (takeReturn p).2.1 p.txSeq }

theorem replay_sentPort (x : SeqFlit) (t : Nat) (p : Port) (stall : Map Nat) :
    (sentPort x t p stall).replay = p.replay ++ [sentFlit x p] := rfl

theorem data_mkFlit (d : BitVec 448) (type ack vc count seq : Nat) : (mkFlit d type ack vc count seq).data = d := by
  unfold mkFlit
  rfl

theorem data_sentFlit (x : SeqFlit) (p : Port) : (sentFlit x p).flit.data = x.flit.data := data_mkFlit ..

/-- A flit that is sent is the last that waits for its acknowledgement. -/
theorem queued_sentPort (x : SeqFlit) (t : Nat) (p : Port) (stall : Map Nat) (hh : p.held = []) :
    ((sentPort x t p stall).replay ++ (sentPort x t p stall).held).map (fun y => y.flit.data)
      = (p.replay ++ p.held).map (fun y => y.flit.data) ++ [x.flit.data] := by
  have h1 : (sentPort x t p stall).held = [] := (queue_takeReturn p).2.trans hh
  rw [h1, hh, List.append_nil, List.append_nil, replay_sentPort, ← data_sentFlit x p]
  generalize sentFlit x p = y
  exact List.map_append

theorem sendSeq_put (n : Nat) (x : SeqFlit) (s : State) (hh : (prt s n).held = []) : Put n x.flit.data s (sendSeq n x s) := by
  obtain ⟨f, he⟩ := sendSeq_eq n x s
  rw [he]
  have h0 := fun m => prt_endStall_queue n x.vc m s
  obtain ⟨g1, g2⟩ := net_endStall n x.vc s
  generalize endStall n x.vc s = y at h0 g1 g2 ⊢
  obtain ⟨z, hz⟩ : ∃ z, z = onPrt n (fun y => sentPort x (now s) (prt s n) y.stall) y := ⟨_, rfl⟩
  have hzp : prt z n = sentPort x (now s) (prt s n) (prt y n).stall := by rw [hz, prt_onPrt_self]
  have hzo : ∀ m, m ≠ n → QueueKept m s z := fun m hm => by
    refine (h0 m).trans ?_
    rw [hz, QueueKept, prt_onPrt_ne _ _ hm]
    exact ⟨rfl, rfl⟩
  have hzn : z.net = s.net ∧ MemKept s z := by rw [hz]; exact ⟨g1, g2⟩
  rw [← hz]
  obtain ⟨k1, k2, k3⟩ := sentMarks_frame n x (available s n x.vc - 1) f z
  have hq := fun m => QueueKept.of_ports k1 m
  refine ⟨?_, fun m hm => (hzo m hm).trans (hq m), k2.trans hzn.1, fun a => by rw [memByte, k3]; exact hzn.2 a⟩
  rw [(hq n).queued, queued, hzp]
  exact queued_sentPort x (now s) (prt s n) (prt y n).stall hh

theorem putFlit_put (n : Nat) (x : SeqFlit) (s : State) : Put n x.flit.data s (putFlit n x s) := by
  unfold putFlit
  split
  · next h =>
    have hh := of_decide_eq_true (Bool.and_eq_true_iff.1 h).1
    exact sendSeq_put n x s hh
  · refine ⟨?_, fun m hm => ?_, rfl, fun _ => rfl⟩
    · rw [queued, prt_onPrt_self, queued, ← List.append_assoc, List.map_append]; rfl
    · rw [QueueKept, prt_onPrt_ne _ _ hm]; exact ⟨rfl, rfl⟩

-- A position is dealt (R260, R263)

/-- What the end of a BOND_MAP leaves of a bond's stream. -/
structure Mapped (b : Nat) (s u : State) : Prop where
  pos : (bnd u b).pos = (bnd s b).pos
  dealing : (bnd u b).dealing = (bnd s b).dealing
  queue : (bnd u b).queue = (bnd s b).queue
  queues : ∀ n, QueueKept n s u
  mem : MemKept s u

theorem mapped_afterMap (b : Nat) (s : State) : Mapped b s (afterMap b s) := by
  have hs : Mapped b s s := ⟨rfl, rfl, rfl, fun n => QueueKept.refl n s, fun _ => rfl⟩
  unfold afterMap
  split
  · exact hs
  · next d _ =>
    split
    · dsimp only
      obtain ⟨x, hx⟩ : ∃ x, x = setRot b (bondMasks d.pkt).1 (bondMasks d.pkt).2 s := ⟨_, rfl⟩
      have h1 : Mapped b s x := by
        rw [hx, setRot]
        refine ⟨?_, ?_, ?_, fun n => QueueKept.of_ports rfl n, fun _ => rfl⟩
        · rw [bnd_onBnd_self]; rfl
        · rw [bnd_onBnd_self]; rfl
        · rw [bnd_onBnd_self]; rfl
      rw [← hx]
      have h2 := BondSame.foldl (f := fun s n => restStep n s) (bondPorts x b) (fun v m => bondSame_restStep m v) x
      generalize (bondPorts x b).foldl (fun s n => restStep n s) x = y at h2 ⊢
      have hb : bnd y b = bnd x b := by rw [bnd, h2.net]; rfl
      exact ⟨hb ▸ h1.pos, hb ▸ h1.dealing, hb ▸ h1.queue, fun n => (h1.queues n).trans (h2.queue n), fun a => (h2.mem a).trans (h1.mem a)⟩
    · exact hs

/-- One position of a bond's stream has been dealt. -/
structure Dealt1 (b n : Nat) (d : BitVec 448) (rest : List (Nat × Flit)) (s u : State) : Prop where
  pos : (bnd u b).pos = (bnd s b).pos + 1
  dealing : (bnd u b).dealing = rest
  queue : (bnd u b).queue = (bnd s b).queue
  queued : queued u n = queued s n ++ [d]
  others : ∀ m, m ≠ n → QueueKept m s u
  mem : MemKept s u

theorem dealFlit_dealt {vc : Nat} {f : Flit} {rest : List (Nat × Flit)} (n : Nat) (h : (bnd s b).dealing = (vc, f) :: rest) :
    Dealt1 b n f.data rest s (dealFlit b n s) := by
  obtain ⟨x, hx⟩ : ∃ x : SeqFlit, x = { pos := some (bnd s b).pos, vc := vc, flit := f } := ⟨_, rfl⟩
  have he : dealFlit b n s = afterMap b (onBnd b (fun y => countLosses (readyVcs s b) vc { y with dealing := rest, pos := y.pos + 1 })
      (putFlit n x s)) := by
    unfold dealFlit
    rw [h, hx]
  have hp := putFlit_put n x s
  rw [show x.flit.data = f.data by rw [hx]] at hp
  rw [he]
  generalize putFlit n x s = y at hp ⊢
  have hb : bnd y b = bnd s b := by rw [bnd, hp.net]; rfl
  generalize readyVcs s b = l
  have hm := mapped_afterMap b (onBnd b (fun y => countLosses l vc { y with dealing := rest, pos := y.pos + 1 }) y)
  have hz : bnd (onBnd b (fun y => countLosses l vc { y with dealing := rest, pos := y.pos + 1 }) y) b
      = countLosses l vc { bnd s b with dealing := rest, pos := (bnd s b).pos + 1 } := by rw [bnd_onBnd_self, hb]
  have hq : ∀ m, QueueKept m y (onBnd b (fun y => countLosses l vc { y with dealing := rest, pos := y.pos + 1 }) y) :=
    fun m => QueueKept.of_ports rfl m
  have hmem : MemKept y (onBnd b (fun y => countLosses l vc { y with dealing := rest, pos := y.pos + 1 }) y) := fun _ => rfl
  generalize onBnd b (fun y => countLosses l vc { y with dealing := rest, pos := y.pos + 1 }) y = z at hm hz hq hmem ⊢
  refine ⟨?_, ?_, ?_, ?_, fun m hne => ?_, fun a => (hm.mem a).trans ((hmem a).trans (hp.mem a))⟩
  · rw [hm.pos, hz]; rfl
  · rw [hm.dealing, hz]; rfl
  · rw [hm.queue, hz]; rfl
  · rw [((hq n).trans (hm.queues n)).queued]; exact hp.queued
  · exact ((hp.others m hne).trans (hq m)).trans (hm.queues m)

/-- Pruning what a bond has dealt leaves all but its record of it. -/
theorem pruneDealt_eq (b : Nat) (s : State) : ∃ f : Bond → List Dealt, pruneDealt b s = onBnd b (fun x => { x with dealt := f x }) s :=
  ⟨fun x => x.dealt.filter (fun d => decide (x.pos < d.till)
    || ((bondPorts s b).filterMap (fun n => firstUnacked (prt s n))).any (fun k => decide (k < d.till))), rfl⟩

theorem pruned_spec (b : Nat) (f : Bond → List Dealt) (s : State) :
    bnd (onBnd b (fun x => { x with dealt := f x }) s) b = { bnd s b with dealt := f (bnd s b) }
      ∧ (∀ m, QueueKept m s (onBnd b (fun x => { x with dealt := f x }) s))
      ∧ MemKept s (onBnd b (fun x => { x with dealt := f x }) s)
      ∧ ∀ p, shortOf (onBnd b (fun x => { x with dealt := f x }) s) b p = shortOf s b p := by
  have hb : bnd (onBnd b (fun x => { x with dealt := f x }) s) b = { bnd s b with dealt := f (bnd s b) } := bnd_onBnd_self ..
  refine ⟨hb, fun m => QueueKept.of_ports rfl m, fun _ => rfl, fun p => ?_⟩
  unfold shortOf shareOf dealtTo
  rw [hb]
  rfl

theorem dealtTo_of_turn (h : (rotList (rotMask s b) (bnd s b).full)[((bnd s b).pos - (bnd s b).base)
      % (rotList (rotMask s b) (bnd s b).full).length]? = some n) : dealtTo s b 0 = some n := by
  have hl : 0 < (rotList (rotMask s b) (bnd s b).full).length := by
    rw [List.getElem?_eq_some_iff] at h
    obtain ⟨h, -⟩ := h
    omega
  unfold dealtTo
  dsimp only
  rw [Nat.add_zero, Nat.max_eq_right hl]
  exact h

theorem exec_bondDeal (h : dealtTo s b 0 = some n) : exec (.bondDeal b) s = ok
    ((fun s => if (bnd s b).dealing = [] then stallBond b s else dealFlit b n s)
      ((fun s => if (bnd s b).dealing = [] then startPacket b s else s) (pruneDealt b s))) := by
  show execBondDeal b s = _
  unfold execBondDeal
  rw [h]

theorem bondDeal_goesOn {vc : Nat} {f : Flit} {rest : List (Nat × Flit)} (ht : dealtTo s b 0 = some n)
    (hd : (bnd s b).dealing = (vc, f) :: rest) : Completes (.bondDeal b) s (fun u =>
      (bnd u b).pos = (bnd s b).pos + 1 ∧ (bnd u b).dealing = rest ∧ queued u n = queued s n ++ [f.data]
        ∧ (∀ m, m ≠ n → (prt u m).replay = (prt s m).replay ∧ (prt u m).held = (prt s m).held) ∧ MemKept s u) := by
  have hex := exec_bondDeal ht
  obtain ⟨g, hg⟩ := pruneDealt_eq b s
  obtain ⟨p1, p2, p3, -⟩ := pruned_spec b g s
  rw [hg] at hex
  generalize onBnd b (fun x => { x with dealt := g x }) s = x at hex p1 p2 p3
  have hdx : (bnd x b).dealing = (vc, f) :: rest := by rw [p1]; exact hd
  have hx : (fun s => if (bnd s b).dealing = [] then startPacket b s else s) x = x := if_neg (by rw [hdx]; simp)
  have hy : (fun s => if (bnd s b).dealing = [] then stallBond b s else dealFlit b n s) x = dealFlit b n x := if_neg (by rw [hdx]; simp)
  rw [hx, hy] at hex
  have hr := dealFlit_dealt n hdx
  generalize dealFlit b n x = u at hex hr
  refine ⟨_, hex, hr.pos.trans (by rw [p1]), hr.dealing, ?_, fun m hm => (p2 m).trans (hr.others m hm), fun a => (hr.mem a).trans (p3 a)⟩
  rw [hr.queued, (p2 n).queued]

-- A packet begins (R270)

theorem nextIngress_one {x : Bond} (hq : x.queue = [(i, p)]) (hi : i ≤ 32) : nextIngress x p.vc = some i := by
  unfold nextIngress
  dsimp only
  generalize mget 0 x.turn (8 + p.vc) = last
  rw [hq]
  cases hf : ((List.range 33).map (fun i => (last + 1 + i) % 33)).find? (fun n => [(i, p)].any (fun q => q.1 == n && q.2.vc == p.vc)) with
  | none =>
    refine absurd (List.find?_eq_none.1 hf i (List.mem_map.2 ⟨(i + 33 - (last + 1) % 33) % 33, List.mem_range.2 (by omega), by omega⟩)) ?_
    simp
  | some k =>
    have hk := List.find?_some hf
    simp at hk
    rw [hk]

theorem nextPacket_one {x : Bond} (hq : x.queue = [(i, p)]) (hi : i ≤ 32) : nextPacket x p.vc = some (i, p) := by
  unfold nextPacket
  rw [nextIngress_one hq hi, hq]
  simp

theorem nextPacket_other {x : Bond} (hq : x.queue = [(i, p)]) {vc : Nat} (hv : vc ≠ p.vc) : nextPacket x vc = none := by
  unfold nextPacket
  rw [hq]
  cases nextIngress x vc with
  | none => rfl
  | some k => simp [Ne.symm hv]

/-- Whether a channel has a packet that its members have credit for. -/
def channelReady (s : State) (b v : Nat) : Bool :=
  match nextPacket (bnd s b) v with
  | some q => (shortOf s b q.2).isEmpty
  | none => false

theorem readyVcs_eq (s : State) (b : Nat) : readyVcs s b = (List.range 8).filter (channelReady s b) := rfl

theorem channelReady_one (hq : (bnd s b).queue = [(i, p)]) (hi : i ≤ 32) (v : Nat) :
    channelReady s b v = (decide (v = p.vc) && (shortOf s b p).isEmpty) := by
  unfold channelReady
  by_cases hv : v = p.vc
  · rw [hv, nextPacket_one hq hi]; simp
  · rw [nextPacket_other hq hv]; simp [hv]

theorem readyVcs_one (hq : (bnd s b).queue = [(i, p)]) (hi : i ≤ 32) (h8 : p.vc < 8) :
    readyVcs s b = if shortOf s b p = [] then [p.vc] else [] := by
  rw [readyVcs_eq, List.filter_congr fun v _ => channelReady_one hq hi v]
  split
  · next h =>
    rw [h]
    generalize p.vc = v at h8
    interval_cases v <;> rfl
  · next h => simp [h]

/-- The channel of a class whose turn it is (R270). -/
def classTurn (x : Bond) (ready : List Nat) (c : Nat) : Option Nat :=
  match (ready.filter (fun v => vcClass v == c)).find? (fun v => v != mget 0 x.turn c) with
  | some v => some v
  | none => (ready.filter (fun v => vcClass v == c)).head?

theorem winner_eq (x : Bond) (ready : List Nat) : winner x ready
    = (fun first : Option Nat => (fun k =>
        if ready.filter (fun v => vcClass v == 2) ≠ [] ∧ 15 < x.lostResp + k then classTurn x ready 2
        else if ready.filter (fun v => vcClass v == 4) ≠ [] ∧ 63 < x.lostMgmt + k then classTurn x ready 4 else first)
      (match first with | some v => nextFlits x v | none => 0))
      (((classTurn x ready 1).or (classTurn x ready 2)).or ((classTurn x ready 3).or (classTurn x ready 4))) := rfl

theorem classTurn_one (x : Bond) (vc c : Nat) : classTurn x [vc] c = if vcClass vc = c then some vc else none := by
  unfold classTurn
  by_cases h : vcClass vc = c
  · by_cases hl : vc = mget 0 x.turn c
    · simp [h, ← hl]
    · simp [h, hl]
  · simp [h]

theorem winner_one {x : Bond} {vc : Nat} (h0 : 0 < vc) (h8 : vc < 8) : winner x [vc] = some vc := by
  have hc : vcClass vc = 1 ∨ vcClass vc = 2 ∨ vcClass vc = 3 ∨ vcClass vc = 4 := by
    interval_cases vc <;> decide
  rw [winner_eq]
  simp only [classTurn_one]
  rcases hc with h | h | h | h <;> simp [h]

theorem winner_none (x : Bond) : winner x [] = none := by
  rw [winner_eq]
  simp [classTurn]

/-- A bond that begins a packet. -/
def begunWith (i : Nat) (p : Packet) (x : Bond) : Bond :=
  { x with
    queue := x.queue.erase (i, p)
    dealing := (packetFlits p).map (fun f => (p.vc, f))
    dealt := x.dealt ++ [{ till := x.pos + flitCount p, pkt := p }]
    turn := mset 0 (mset 0 x.turn (vcClass p.vc) p.vc) (8 + p.vc) i }

theorem startPacket_one (hq : (bnd s b).queue = [(i, p)]) (hi : i ≤ 32) (h0 : 0 < p.vc) (h8 : p.vc < 8) (hs : shortOf s b p = []) :
    ∃ d, startPacket b s = onBnd b (fun x => { begunWith i p x with dealt := x.dealt ++ [d] }) s := by
  unfold startPacket
  dsimp only
  rw [readyVcs_one hq hi h8, if_pos hs, winner_one h0 h8]
  dsimp only
  rw [nextPacket_one hq hi]
  exact ⟨_, rfl⟩

theorem startPacket_short (hq : (bnd s b).queue = [(i, p)]) (hi : i ≤ 32) (h8 : p.vc < 8) (hs : shortOf s b p ≠ []) :
    startPacket b s = s := by
  unfold startPacket
  dsimp only
  rw [readyVcs_one hq hi h8, if_neg hs, winner_none]

theorem packetFlits_cons (p : Packet) : ∃ f fs, packetFlits p = f :: fs := by
  obtain ⟨k, hk⟩ : ∃ k, flitCount p = k + 1 := by
    refine Nat.exists_eq_add_one.2 ?_
    unfold flitCount ceilDiv
    omega
  unfold packetFlits
  rw [hk]
  exact ⟨_, _, rfl⟩

theorem bondDeal_begins (ht : dealtTo s b 0 = some n) (h0 : 0 < p.vc) (h8 : p.vc < 8) (hi : i ≤ 32) (hd : (bnd s b).dealing = [])
    (hq : (bnd s b).queue = [(i, p)]) (hs : shortOf s b p = []) : Completes (.bondDeal b) s (fun u =>
      (bnd u b).queue = [] ∧ (bnd u b).pos = (bnd s b).pos + 1
        ∧ (bnd u b).dealing = ((packetFlits p).map (fun f => (p.vc, f))).tail
        ∧ queued u n = queued s n ++ ((packetFlits p).map (fun f => f.data)).take 1 ∧ MemKept s u) := by
  have hex := exec_bondDeal ht
  obtain ⟨g, hg⟩ := pruneDealt_eq b s
  obtain ⟨p1, p2, p3, p4⟩ := pruned_spec b g s
  rw [hg] at hex
  generalize onBnd b (fun x => { x with dealt := g x }) s = x at hex p1 p2 p3 p4
  obtain ⟨d, hst⟩ := startPacket_one (s := x) (b := b) (by rw [p1]; exact hq) hi h0 h8 (by rw [p4]; exact hs)
  have hx : (fun s => if (bnd s b).dealing = [] then startPacket b s else s) x
      = onBnd b (fun y => { begunWith i p y with dealt := y.dealt ++ [d] }) x := (if_pos (by rw [p1]; exact hd)).trans hst
  rw [hx] at hex
  have hby : bnd (onBnd b (fun y => { begunWith i p y with dealt := y.dealt ++ [d] }) x) b
      = { begunWith i p (bnd x b) with dealt := (bnd x b).dealt ++ [d] } := bnd_onBnd_self ..
  have hqy : ∀ m, QueueKept m x (onBnd b (fun y => { begunWith i p y with dealt := y.dealt ++ [d] }) x) := fun m => QueueKept.of_ports rfl m
  have hmy : MemKept x (onBnd b (fun y => { begunWith i p y with dealt := y.dealt ++ [d] }) x) := fun _ => rfl
  generalize onBnd b (fun y => { begunWith i p y with dealt := y.dealt ++ [d] }) x = y at hex hby hqy hmy
  obtain ⟨f, fs, hf⟩ := packetFlits_cons p
  have hdy : (bnd y b).dealing = (p.vc, f) :: fs.map (fun f => (p.vc, f)) := by rw [hby, begunWith, hf]; rfl
  have hy : (fun s => if (bnd s b).dealing = [] then stallBond b s else dealFlit b n s) y = dealFlit b n y := if_neg (by rw [hdy]; simp)
  rw [hy] at hex
  have hr := dealFlit_dealt n hdy
  generalize dealFlit b n y = u at hex hr
  refine ⟨_, hex, ?_, ?_, ?_, ?_, fun a => (hr.mem a).trans ((hmy a).trans (p3 a))⟩
  · rw [hr.queue, hby, begunWith, p1, hq]
    exact List.erase_cons_head ..
  · rw [hr.pos, hby, begunWith, p1]
  · rw [hr.dealing, hf]; rfl
  · rw [hr.queued, ((p2 n).trans (hqy n)).queued, hf]; rfl

/-- A port that waits for credit keeps all but its count of the wait. -/
structure StallKept (s u : State) : Prop where
  net : u.net = s.net
  out : u.out = s.out
  regs : u.regs = s.regs
  mem : u.mem = s.mem

theorem StallKept.foldl {α : Type} {f : State → α → State} (l : List α) (hf : ∀ v x, StallKept v (f v x)) (s : State) : StallKept s (l.foldl f s) :=
  List.foldlRecOn l f (motive := StallKept s) ⟨rfl, rfl, rfl, rfl⟩ fun _ hv x _ =>
    ⟨(hf _ x).net.trans hv.net, (hf _ x).out.trans hv.out, (hf _ x).regs.trans hv.regs, (hf _ x).mem.trans hv.mem⟩

theorem stalls_stallBond (b : Nat) (s : State) : StallKept s (stallBond b s) := by
  unfold stallBond
  refine StallKept.foldl _ (fun x v => ?_) s
  split
  · refine StallKept.foldl _ (fun y m => ?_) x
    unfold startStall
    split
    · exact ⟨rfl, rfl, rfl, rfl⟩
    · exact ⟨rfl, rfl, rfl, rfl⟩
  · exact ⟨rfl, rfl, rfl, rfl⟩

theorem bondDeal_waits (ht : dealtTo s b 0 = some n) (h8 : p.vc < 8) (hi : i ≤ 32) (hd : (bnd s b).dealing = [])
    (hq : (bnd s b).queue = [(i, p)]) (hs : shortOf s b p ≠ []) : Completes (.bondDeal b) s (fun u =>
      (bnd u b).queue = [(i, p)] ∧ (bnd u b).pos = (bnd s b).pos ∧ u.out = s.out ∧ RegsKept [] s u ∧ MemKept s u) := by
  have hex := exec_bondDeal ht
  obtain ⟨g, hg⟩ := pruneDealt_eq b s
  obtain ⟨p1, -, p3, p4⟩ := pruned_spec b g s
  have hr : (onBnd b (fun x => { x with dealt := g x }) s).regs = s.regs ∧ (onBnd b (fun x => { x with dealt := g x }) s).out = s.out :=
    ⟨rfl, rfl⟩
  rw [hg] at hex
  generalize onBnd b (fun x => { x with dealt := g x }) s = x at hex p1 p3 p4 hr
  have hdx : (bnd x b).dealing = [] := by rw [p1]; exact hd
  have hx : (fun s => if (bnd s b).dealing = [] then startPacket b s else s) x = x :=
    (if_pos hdx).trans (startPacket_short (by rw [p1]; exact hq) hi h8 (by rw [p4]; exact hs))
  have hy : (fun s => if (bnd s b).dealing = [] then stallBond b s else dealFlit b n s) x = stallBond b x := if_pos hdx
  rw [hx, hy] at hex
  have hw := stalls_stallBond b x
  generalize stallBond b x = y at hex hw
  have hb : bnd y b = bnd x b := by rw [bnd, hw.net]; rfl
  refine ⟨_, hex, ?_, ?_, hw.out.trans hr.2, fun a _ => ?_, fun a => ?_⟩
  · rw [hb, p1]; exact hq
  · rw [hb, p1]
  · rw [rd, hw.regs, hr.1]; rfl
  · rw [memByte, hw.mem]; exact p3 a

-- The receiver follows a rotation (R262, R264)

theorem mergeLoad_eq_zero (h : ∀ m ∈ bondPorts s b, (prt s m).rxq = []) : mergeLoad s b = 0 := by
  have hm : (bondPorts s b).map (fun n => (prt s n).rxq.length) = (bondPorts s b).map (fun _ => 0) :=
    List.map_congr_left fun m hm => by rw [h m hm]; rfl
  rw [mergeLoad, hm]
  generalize bondPorts s b = l
  induction l with
  | nil => rfl
  | cons m l ih => exact ih

theorem bondMap_completes (full members : Nat) (hb : b < 12) (hl : mergeLoad s b = 0) : Completes (.bondMap b full members) s (fun u =>
    bnd u b = { bnd s b with rxMembers := members, rxFull := full, rxPos := (bnd s b).rxPos + 1 } ∧ RegsKept [] s u ∧ MemKept s u) := by
  obtain ⟨x, hx⟩ : ∃ x, x = onBnd b (fun x => { x with rxMembers := members, rxFull := full, rxPos := x.rxPos + 1 }) s := ⟨_, rfl⟩
  have hex : exec (.bondMap b full members) s = ok (merge b (mergeLoad x b) x) := by
    rw [hx]; exact congrArg ok (if_pos hb)
  have hz : mergeLoad x b = 0 := by rw [hx]; exact hl
  rw [hz, merge, hx] at hex
  exact ⟨_, hex, bnd_onBnd_self .., fun _ _ => rfl, fun _ => rfl⟩

/-- The ports' own owed credits are all that counting them changes. -/
theorem owes_frame (n : Nat) (l : List RxFlit) (s : State) :
    (l.foldl (fun s x => owe n x.vc s) s).net = s.net ∧ (l.foldl (fun s x => owe n x.vc s) s).regs = s.regs
      ∧ (l.foldl (fun s x => owe n x.vc s) s).mem = s.mem ∧ ∀ m, (prt (l.foldl (fun s x => owe n x.vc s) s) m).rxq = (prt s m).rxq := by
  induction l generalizing s with
  | nil => exact ⟨rfl, rfl, rfl, fun _ => rfl⟩
  | cons x l ih =>
    obtain ⟨h1, h2, h3, h4⟩ := ih (owe n x.vc s)
    refine ⟨h1, h2, h3, fun m => (h4 m).trans ?_⟩
    by_cases hm : m = n
    · subst hm; rw [owe, prt_onPrt_self]
    · rw [owe, prt_onPrt_ne _ _ hm]

theorem bondPorts_routeEvent (m b : Nat) (s : State) : bondPorts (orReg Reg.routeEvent m s) b = bondPorts s b := by
  refine List.filter_congr fun k hk => ?_
  have hk := List.mem_range.1 hk
  have hr : ∀ a, a ≠ Reg.routeEvent → rd (orReg Reg.routeEvent m s) a = rd s a := fun a ha => rd_orReg_ne _ _ ha
  have h1 := hr Reg.preset (by rw [Reg.preset, Reg.routeEvent]; omega)
  have h2 := hr Reg.routeMachine (by rw [Reg.routeMachine, Reg.routeEvent]; omega)
  have h3 := hr Reg.deviceId (by rw [Reg.deviceId, Reg.routeEvent]; omega)
  have h4 := hr (Reg.portBond k) (by simp only [Reg.portBond, Reg.routeEvent]; omega)
  simp only [bondOf, isSpare, presetBond, presetOf, hasExternal, ringLen, ownLocal, ownDev, rdF, h1, h2, h3, h4]
  rfl

/-- The last member of a restart begins the new rotation (R264). -/
theorem rxRestart_last {full members : Nat} (hb : bondOf s n = some b) (ho : ∀ m ∈ bondPorts s b, m ≠ n → (prt s m).rxq = [])
    (hm : ((if (bnd s b).restartMask = members then (bnd s b).restartSeen else 0) ||| 2 ^ rdF s (Reg.neighbour n) 20 16)
      &&& members = members) :
    (bnd (rxRestart n full members s) b).rxMembers = members ∧ (bnd (rxRestart n full members s) b).rxFull = full
      ∧ (bnd (rxRestart n full members s) b).rxPos = 0 ∧ (bnd (rxRestart n full members s) b).restartMask = 0
      ∧ rdB (rxRestart n full members s) Reg.routeEvent 7 = true ∧ (prt (rxRestart n full members s) n).rxq = []
      ∧ MemKept s (rxRestart n full members s) := by
  obtain ⟨f1, f2, f3, f4⟩ := owes_frame n (prt s n).rxq s
  obtain ⟨x, hx⟩ : ∃ x, x = onPrt n (fun x => { x with rxq := [] }) ((prt s n).rxq.foldl (fun s x => owe n x.vc s) s) := ⟨_, rfl⟩
  have hxn : x.net = s.net ∧ x.regs = s.regs ∧ x.mem = s.mem := by rw [hx]; exact ⟨f1, f2, f3⟩
  have hxq : ∀ m ∈ bondPorts s b, (prt x m).rxq = [] := fun m hmb => by
    rw [hx]
    by_cases he : m = n
    · subst he; rw [prt_onPrt_self]
    · rw [prt_onPrt_ne _ _ he, f4]; exact ho m hmb he
  have hxs : (prt x n).rxq = [] := by rw [hx, prt_onPrt_self]
  have hbx : bnd x b = bnd s b := by rw [bnd, hxn.1]; rfl
  have hfx : rdF x (Reg.neighbour n) 20 16 = rdF s (Reg.neighbour n) 20 16 := by rw [rdF, rd, hxn.2.1]; rfl
  generalize hseen : ((if (bnd s b).restartMask = members then (bnd s b).restartSeen else 0) ||| 2 ^ rdF s (Reg.neighbour n) 20 16) = seen at hm
  obtain ⟨y, hy⟩ : ∃ y, y = onBnd b (fun x => { x with restartMask := 0, restartSeen := 0, rxMembers := members, rxFull := full, rxPos := 0 })
    (onBnd b (fun x => { x with merging := [], restartMask := members, restartSeen := seen }) x) := ⟨_, rfl⟩
  have hyb : (bnd y b).rxMembers = members ∧ (bnd y b).rxFull = full ∧ (bnd y b).rxPos = 0 ∧ (bnd y b).restartMask = 0 := by
    rw [hy, bnd_onBnd_self]; exact ⟨rfl, rfl, rfl, rfl⟩
  have hyf : y.regs = s.regs ∧ y.mem = s.mem ∧ y.ports = x.ports := by rw [hy]; exact ⟨hxn.2.1, hxn.2.2, rfl⟩
  have he : rxRestart n full members s = merge b (mergeLoad (orReg Reg.routeEvent (2 ^ 7) y) b) (orReg Reg.routeEvent (2 ^ 7) y) := by
    unfold rxRestart
    rw [hb]
    dsimp only
    rw [← hx, hbx, hfx, hseen, if_pos hm, hy]
  have hp : (orReg Reg.routeEvent (2 ^ 7) y).ports = x.ports := hyf.2.2
  have hl : mergeLoad (orReg Reg.routeEvent (2 ^ 7) y) b = 0 := mergeLoad_eq_zero fun m hm => by
    have hbp : bondPorts (orReg Reg.routeEvent (2 ^ 7) y) b = bondPorts s b :=
      (bondPorts_routeEvent (2 ^ 7) b y).trans (List.filter_congr fun k _ => by rw [bondOf_of_regs hyf.1])
    rw [hbp] at hm
    rw [prt, hp]
    exact hxq m hm
  rw [he, hl, merge]
  refine ⟨hyb.1, hyb.2.1, hyb.2.2.1, hyb.2.2.2, rdB_orReg_pow _ _ (by decide), ?_, fun a => ?_⟩
  · rw [prt, hp]; exact hxs
  · exact (mem_orReg y _ _ a).trans (by rw [memByte, hyf.2.1]; rfl)

theorem bondRestart_completes {full members : Nat} (h : portState s n = 4) (hb : bondOf s n = some b)
    (ho : ∀ m ∈ bondPorts s b, m ≠ n → (prt s m).rxq = [])
    (hm : ((if (bnd s b).restartMask = members then (bnd s b).restartSeen else 0) ||| 2 ^ rdF s (Reg.neighbour n) 20 16)
      &&& members = members) : Completes (.bondRestart n full members) s (fun u =>
      (bnd u b).rxMembers = members ∧ (bnd u b).rxFull = full ∧ (bnd u b).rxPos = 0 ∧ (bnd u b).restartMask = 0
        ∧ rdB u Reg.routeEvent 7 = true ∧ (prt u n).rxq = [] ∧ MemKept s u) :=
  ⟨_, congrArg ok (if_pos h), rxRestart_last hb ho hm⟩

/-- Settles O38: a position of a begun packet, a packet that begins or waits for credit, and the receiver's new rotation. -/
theorem bondsDealAndFollow : Obligations.BondsDealAndFollow := by
  unfold Obligations.BondsDealAndFollow
  refine ⟨fun b n vc f rest s _ ht hd => bondDeal_goesOn (dealtTo_of_turn ht) hd,
    fun b n i p s _ ht h0 h8 hi _ hd hq => ⟨fun hs => bondDeal_begins (dealtTo_of_turn ht) h0 h8 hi hd hq hs,
      fun hs => bondDeal_waits (dealtTo_of_turn ht) h8 hi hd hq hs⟩,
    fun b full members s hb hl => bondMap_completes full members hb hl,
    fun n b full members s h hb ho hm => bondRestart_completes h hb ho hm⟩

end Sys2Proof.Machine
end

section
/-! PROOFS. Route registers (R255, R258, R265, R273, R274) and the congestion map (R276). -/

namespace Sys2Proof.Machine

variable {s u v : State} {who : Writer} {n b : Nat} {p : Packet}

-- Route tables and epoch flips (R265, R273, R274)

/-- What a write of a route table does. -/
def routeTableEffect (tb : Bool) (d : Nat) (v : Word) (s : State) : Bool × State :=
  if tb = decide (injectEpoch s = 1) ∨ oldTotal s ≠ 0 then (false, orReg Reg.routeEvent (2 ^ 2) s)
  else (true, wrReg (Reg.routeTable tb d) (plainValue (Reg.kind (Reg.routeTable tb d)) (rd s (Reg.routeTable tb d)) v) s)

theorem exec_routeTableWrite (hm : mayWrite s .installer who = true) (tb : Bool) {d : Nat} (v : Word) (hd : d < 16384) : ∃ au k,
    exec (.routeTableWrite who tb d v) s = ok (withAudit au k (routeTableEffect tb d v s).2) := by
  have hs : skipsLog (Reg.routeTable tb d) = false := decide_eq_false (by
    simp only [Reg.routeTable, Reg.powerCap, Reg.coolant, Reg.fwShelf]; cases tb <;> simp <;> omega)
  obtain ⟨au, k, h⟩ := answered_withRole (s := s) hm hs (routeTableEffect tb d v)
  refine ⟨au, k, ?_⟩
  show execRouteTableWrite who tb d v s = _
  unfold execRouteTableWrite
  rw [if_pos hd]
  exact congrArg ok h

theorem routeTable_written (hm : mayWrite s .installer who = true) {tb : Bool} {d : Nat} (v : Word) (hd : d < 16384)
    (h1 : tb ≠ decide (injectEpoch s = 1)) (h2 : oldTotal s = 0) : Completes (.routeTableWrite who tb d v) s (fun u =>
      rd u (Reg.routeTable tb d) = plainValue (Reg.kind (Reg.routeTable tb d)) (rd s (Reg.routeTable tb d)) v
        ∧ RegsKept [Reg.routeTable tb d] s u ∧ MemKept s u) := by
  have hex := exec_routeTableWrite hm tb v hd
  have he : (routeTableEffect tb d v s).2
      = wrReg (Reg.routeTable tb d) (plainValue (Reg.kind (Reg.routeTable tb d)) (rd s (Reg.routeTable tb d)) v) s := by
    unfold routeTableEffect
    rw [if_neg (by simp [h1, h2])]
  rw [he] at hex
  refine completes_of_logged hex fun au k => ⟨rd_wrReg_self _ _ _, fun a ha => ?_, fun _ => rfl⟩
  exact rd_wrReg_ne _ _ (by simpa using ha)

/-- A refused write raises one event and leaves the rest. -/
theorem event_raised {i : Nat} (hi : i < 64) (s : State) : rdB (orReg Reg.routeEvent (2 ^ i) s) Reg.routeEvent i = true
    ∧ RegsKept [Reg.routeEvent] s (orReg Reg.routeEvent (2 ^ i) s) ∧ MemKept s (orReg Reg.routeEvent (2 ^ i) s) :=
  ⟨rdB_orReg_pow _ _ hi, fun _ ha => rd_orReg_ne _ _ (by simpa using ha), mem_orReg s _ _⟩

theorem routeTable_refused (hm : mayWrite s .installer who = true) {tb : Bool} {d : Nat} (v : Word) (hd : d < 16384)
    (h : tb = decide (injectEpoch s = 1) ∨ oldTotal s ≠ 0) : Completes (.routeTableWrite who tb d v) s (fun u =>
      rdB u Reg.routeEvent 2 = true ∧ RegsKept [Reg.routeEvent] s u ∧ MemKept s u) := by
  have hex := exec_routeTableWrite hm tb v hd
  have he : (routeTableEffect tb d v s).2 = orReg Reg.routeEvent (2 ^ 2) s := by
    unfold routeTableEffect
    rw [if_pos h]
  rw [he] at hex
  have hx := event_raised (i := 2) (by decide) s
  generalize orReg Reg.routeEvent (2 ^ 2) s = x at hex hx
  exact completes_of_logged hex fun au k => hx

/-- A logged write's entry lies outside what a write changes. -/
theorem logWrite_logged (who : Writer) (a outcome : Nat) (old new : List Word) (s : State) :
    ∃ au k, logWrite who a outcome old new s = withAudit au k s :=
  let ⟨au, h⟩ := logWrite_frame who a outcome old new s
  ⟨au, _, h⟩

theorem exec_flip (hm : mayWrite s .installer who = true) : ∃ au k, exec (.flip who) s
    = ok (withAudit au k (if oldTotal s ≠ 0 then orReg Reg.routeEvent (2 ^ 1) s
      else orReg Reg.routeEvent (2 ^ 0) (wrF Reg.routeEpoch 32 32 (1 - injectEpoch s) s))) := by
  have h63 : bit (wd (2 ^ 63)) 63 = true := by rw [bit_wd _ (by decide)]; exact Nat.testBit_two_pow_self
  by_cases ho : oldTotal s ≠ 0
  · obtain ⟨au, k, h⟩ := logWrite_logged who Reg.routeEpoch 2 [] [] (orReg Reg.routeEvent (2 ^ 1) s)
    refine ⟨au, k, ?_⟩
    rw [if_pos ho, ← h]
    show execFlip who s = _
    unfold execFlip routeEpochWrite
    rw [hm, h63]
    dsimp only
    rw [if_neg (by decide), if_neg (by decide), if_pos ho]
    rfl
  · obtain ⟨au, k, h⟩ := logWrite_logged who (Reg.routeTable (!decide (injectEpoch s = 1)) 0) 0 (tableWords s (decide (injectEpoch s = 1)))
      (tableWords s (!decide (injectEpoch s = 1))) (orReg Reg.routeEvent (2 ^ 0) (wrF Reg.routeEpoch 32 32 (1 - injectEpoch s) s))
    refine ⟨au, k, ?_⟩
    rw [if_neg ho, ← h]
    show execFlip who s = _
    unfold execFlip routeEpochWrite
    rw [hm, h63]
    dsimp only
    rw [if_neg (by decide), if_neg (by decide), if_neg ho]
    rfl

theorem flip_completes (hm : mayWrite s .installer who = true) (ho : oldTotal s = 0) : Completes (.flip who) s (fun u =>
    injectEpoch u = 1 - injectEpoch s ∧ rdB u Reg.routeEvent 0 = true
      ∧ RegsKept [Reg.routeEpoch, Reg.routeEvent] s u ∧ MemKept s u) := by
  obtain ⟨x, hx⟩ : ∃ x, x = wrF Reg.routeEpoch 32 32 (1 - injectEpoch s) s := ⟨_, rfl⟩
  have hex := exec_flip hm
  rw [if_neg (by simp [ho]), ← hx] at hex
  have he : injectEpoch x = 1 - injectEpoch s := by
    rw [hx]; exact rdF_wrF_fits _ _ (by decide) (by decide) (by omega)
  have hr : RegsKept [Reg.routeEpoch] s x ∧ MemKept s x := by
    rw [hx]; exact ⟨fun a ha => rd_wrF_ne _ _ _ _ (by simpa using ha), fun _ => rfl⟩
  clear hx
  obtain ⟨e1, e2, e3⟩ := event_raised (i := 0) (by decide) x
  generalize orReg Reg.routeEvent (2 ^ 0) x = y at hex e1 e2 e3
  refine completes_of_logged hex fun au k => ⟨?_, e1, fun a ha => ?_, fun a => (e3 a).trans (hr.2 a)⟩
  · rw [injectEpoch, rdF_withAudit, rdF, e2 _ (by simp only [List.mem_singleton, Reg.routeEpoch, Reg.routeEvent]; omega)]
    exact he
  · simp only [List.mem_cons, List.not_mem_nil, or_false, not_or] at ha
    rw [rd_withAudit, e2 _ (by simpa using ha.2), hr.1 _ (by simpa using ha.1)]

theorem flip_refused (hm : mayWrite s .installer who = true) (ho : oldTotal s ≠ 0) : Completes (.flip who) s (fun u =>
    injectEpoch u = injectEpoch s ∧ rdB u Reg.routeEvent 1 = true ∧ RegsKept [Reg.routeEvent] s u ∧ MemKept s u) := by
  have hex := exec_flip hm
  rw [if_pos ho] at hex
  obtain ⟨e1, e2, e3⟩ := event_raised (i := 1) (by decide) s
  generalize orReg Reg.routeEvent (2 ^ 1) s = y at hex e1 e2 e3
  refine completes_of_logged hex fun au k => ⟨?_, e1, e2, e3⟩
  rw [injectEpoch, rdF_withAudit, rdF, e2 _ (by simp only [List.mem_singleton, Reg.routeEpoch, Reg.routeEvent]; omega)]
  rfl

theorem routeDrained_completes (ho : oldTotal s = 0) : Completes .routeDrained s (fun u =>
    rdB u Reg.routeEvent 3 = true ∧ RegsKept [Reg.routeEvent] s u ∧ MemKept s u) :=
  ⟨_, congrArg ok (if_pos ho), event_raised (by decide) s⟩

-- The machine, the preset and the spare ports (R255, R258)

/-- A write of the machine within the licence and before LINK_TRAIN (R255). -/
def routeMachineEffect (v : Word) (s : State) : Bool × State :=
  if 6 ≤ reached s ∨ maxDevices s < 64 * machineCubes v then refusePreset s
  else
    (true, wrReg Reg.routeMachine (wd (fld v 18 16 * 2 ^ 16 + fld v 10 8 * 2 ^ 8 + fld v 1 0))
      { s with boot := { s.boot with routeWritten := true } })

theorem routeMachine_written (hm : mayWrite s .installer who = true) {v : Word} (h6 : reached s < 6) (hc : 64 * machineCubes v ≤ maxDevices s) :
    Completes (.routeMachineWrite who v) s (fun u =>
      rd u Reg.routeMachine = wd (fld v 18 16 * 2 ^ 16 + fld v 10 8 * 2 ^ 8 + fld v 1 0)
        ∧ RegsKept [Reg.routeMachine] s u ∧ MemKept s u) := by
  obtain ⟨au, k, o, h⟩ := answered_unlicensed_logged (a := Reg.routeMachine) (beyond := fun s => decide (maxDevices s < 64 * machineCubes v))
    hm (by decide) (routeMachineEffect v)
  have he : routeMachineEffect v s = (true, wrReg Reg.routeMachine (wd (fld v 18 16 * 2 ^ 16 + fld v 10 8 * 2 ^ 8 + fld v 1 0))
      { s with boot := { s.boot with routeWritten := true } }) := if_neg (by omega)
  rw [he] at h
  refine ⟨_, congrArg ok h, rd_wrReg_self _ _ _, fun a ha => ?_, fun _ => rfl⟩
  exact rd_wrReg_ne _ _ (by simpa using ha)

/-- A write beyond the licence is answered so (R56). -/
theorem answered_beyond {c : Reg.Class} {a : Nat} {beyond : State → Bool} (hm : mayWrite s c who = true)
    (hb : beyond s = true) (f : State → Bool × State) :
    .writeStatus who (Reg.spaceBase + a) stUnlicensed ∈ (answered who a (unlicensedIf c who beyond (withRole c who a f) s)).out := by
  have hr : (withRole c who a f s).1 = stOk := by
    unfold withRole
    rw [if_pos hm]
  have h : unlicensedIf c who beyond (withRole c who a f) s = (stUnlicensed, (withRole c who a f s).2) := by
    unfold unlicensedIf
    dsimp only
    rw [hm, hb, hr]
    rfl
  rw [h]
  exact List.mem_append_right _ (List.mem_singleton_self _)

theorem routeMachine_refused (hm : mayWrite s .installer who = true) {v : Word} (h : 6 ≤ reached s ∨ maxDevices s < 64 * machineCubes v) :
    Completes (.routeMachineWrite who v) s (fun u =>
      rd u Reg.routeMachine = rd s Reg.routeMachine ∧ rdB u Reg.routeEvent 6 = true ∧ MemKept s u
        ∧ (maxDevices s < 64 * machineCubes v → .writeStatus who (Reg.spaceBase + Reg.routeMachine) 0x010 ∈ u.out)) := by
  obtain ⟨au, k, o, hx⟩ := answered_unlicensed_logged (a := Reg.routeMachine) (beyond := fun s => decide (maxDevices s < 64 * machineCubes v))
    hm (by decide) (routeMachineEffect v)
  have hout := fun hb => answered_beyond (a := Reg.routeMachine) (beyond := fun s => decide (maxDevices s < 64 * machineCubes v)) hm hb
    (routeMachineEffect v)
  have he : routeMachineEffect v s = (false, orReg Reg.routeEvent (2 ^ 6) s) := if_pos h
  rw [he] at hx
  obtain ⟨e1, e2, e3⟩ := event_raised (i := 6) (by decide) s
  generalize orReg Reg.routeEvent (2 ^ 6) s = y at hx e1 e2 e3
  refine ⟨_, congrArg ok hx, ?_, e1, e3, fun hl => ?_⟩
  · exact e2 _ (by simp only [List.mem_singleton, Reg.routeMachine, Reg.routeEvent]; omega)
  · have := hout (decide_eq_true hl)
    rw [hx] at this
    exact this

/-- A write of the preset before the freeze (R258). -/
def presetEffect (v : Word) (s : State) : Bool × State :=
  if presetFrozen s || !presetFits s (fld v 1 0) then refusePreset s else (true, wrF Reg.preset 1 0 (fld v 1 0) s)

/-- A preset of 32 ports goes beyond a licence of 16 (R4, R258). -/
def presetBeyond (v : Word) (s : State) : Bool := decide (fld v 1 0 < 2 ∧ licensedPorts s ≠ 32)

theorem fld_1_0_lt (v : Word) : fld v 1 0 < 4 := fld_lt v 1 0

theorem preset_written (hm : mayWrite s .installer who = true) {v : Word} (hz : presetFrozen s = false)
    (hf : presetFits s (fld v 1 0) = true) : Completes (.presetWrite who v) s (fun u =>
      presetOf u = fld v 1 0 ∧ presetFrozen u = false ∧ RegsKept [Reg.preset] s u ∧ MemKept s u) := by
  obtain ⟨au, k, o, h⟩ := answered_unlicensed_logged (a := Reg.preset) (beyond := presetBeyond v) hm (by decide) (presetEffect v)
  have he : presetEffect v s = (true, wrF Reg.preset 1 0 (fld v 1 0) s) := if_neg (by rw [hz, hf]; decide)
  rw [he] at h
  have h1 : presetOf (wrF Reg.preset 1 0 (fld v 1 0) s) = fld v 1 0 :=
    rdF_wrF_fits _ _ (by decide) (by decide) (by have := fld_1_0_lt v; omega)
  have h2 : presetFrozen (wrF Reg.preset 1 0 (fld v 1 0) s) = false :=
    (rdB_wrF_other _ _ _ _ _ _ (by decide) (by decide) (by decide)).trans hz
  have h3 : RegsKept [Reg.preset] s (wrF Reg.preset 1 0 (fld v 1 0) s) := fun a ha => rd_wrF_ne _ _ _ _ (by simpa using ha)
  have h4 : MemKept s (wrF Reg.preset 1 0 (fld v 1 0) s) := fun _ => rfl
  generalize wrF Reg.preset 1 0 (fld v 1 0) s = x at h h1 h2 h3 h4
  exact ⟨_, congrArg ok h, h1, h2, h3, h4⟩

theorem preset_refused (hm : mayWrite s .installer who = true) {v : Word} (h : presetFrozen s = true ∨ presetFits s (fld v 1 0) = false) :
    Completes (.presetWrite who v) s (fun u =>
      presetOf u = presetOf s ∧ rdB u Reg.routeEvent 6 = true ∧ MemKept s u
        ∧ (fld v 1 0 < 2 → licensedPorts s ≠ 32 → .writeStatus who (Reg.spaceBase + Reg.preset) 0x010 ∈ u.out)) := by
  obtain ⟨au, k, o, hx⟩ := answered_unlicensed_logged (a := Reg.preset) (beyond := presetBeyond v) hm (by decide) (presetEffect v)
  have hout := fun hb => answered_beyond (a := Reg.preset) (beyond := presetBeyond v) hm hb (presetEffect v)
  have he : presetEffect v s = (false, orReg Reg.routeEvent (2 ^ 6) s) := if_pos (by
    rcases h with h | h
    · rw [h]; rfl
    · rw [h, Bool.not_false, Bool.or_true])
  rw [he] at hx
  obtain ⟨e1, e2, e3⟩ := event_raised (i := 6) (by decide) s
  generalize orReg Reg.routeEvent (2 ^ 6) s = y at hx e1 e2 e3
  refine ⟨_, congrArg ok hx, ?_, e1, e3, fun h1 h2 => ?_⟩
  · exact congrArg (fld · 1 0) (e2 Reg.preset (by simp only [List.mem_singleton, Reg.preset, Reg.routeEvent]; omega))
  · have := hout (decide_eq_true ⟨h1, h2⟩)
    rw [hx] at this
    exact this

/-- A write of a spare port's bond before the freeze (R258). -/
def portBondEffect (n : Nat) (v : Word) (s : State) : Bool × State :=
  if presetFrozen s || !isSpare s n || decide (12 ≤ fld v 3 0 ∧ fld v 3 0 < 15) then refusePreset s
  else (true, wrReg (Reg.portBond n) (wd (2 ^ 63 + fld v 3 0)) s)

theorem portBond_written (hm : mayWrite s .installer who = true) {v : Word} (hn : n < 32) (hp : n < portCount s) (hz : presetFrozen s = false)
    (hs : isSpare s n = true) (hv : fld v 3 0 < 12) : Completes (.portBondWrite who n v) s (fun u =>
      bondOf u n = some (fld v 3 0) ∧ RegsKept [Reg.portBond n] s u ∧ MemKept s u) := by
  have hl : skipsLog (Reg.portBond n) = false := decide_eq_false (by
    simp only [Reg.portBond, Reg.powerCap, Reg.coolant, Reg.fwShelf]; omega)
  obtain ⟨au, k, h⟩ := answered_withRole (s := s) hm hl (portBondEffect n v)
  have he : portBondEffect n v s = (true, wrReg (Reg.portBond n) (wd (2 ^ 63 + fld v 3 0)) s) :=
    if_neg (by rw [hz, hs]; simp; omega)
  rw [he] at h
  have hex : exec (.portBondWrite who n v) s = ok (withAudit au k (wrReg (Reg.portBond n) (wd (2 ^ 63 + fld v 3 0)) s)) := by
    show execPortBondWrite who n v s = _
    unfold execPortBondWrite portCommand
    rw [if_pos hp]
    exact congrArg ok h
  obtain ⟨x, hx⟩ : ∃ x, x = wrReg (Reg.portBond n) (wd (2 ^ 63 + fld v 3 0)) s := ⟨_, rfl⟩
  have hr : ∀ a, a ≠ Reg.portBond n → rd x a = rd s a := fun a ha => by rw [hx]; exact rd_wrReg_ne _ _ ha
  have hw : rd x (Reg.portBond n) = wd (2 ^ 63 + fld v 3 0) := by rw [hx]; exact rd_wrReg_self _ _ _
  have hmem : MemKept s x := by rw [hx]; exact fun _ => rfl
  rw [← hx] at hex
  clear hx h he
  have h1 := hr Reg.preset (by simp only [Reg.preset, Reg.portBond]; omega)
  have h2 := hr Reg.routeMachine (by simp only [Reg.routeMachine, Reg.portBond]; omega)
  have h3 := hr Reg.deviceId (by simp only [Reg.deviceId, Reg.portBond]; omega)
  have hpb : presetBond x n = presetBond s n := by
    simp only [presetBond, presetOf, hasExternal, ringLen, ownLocal, ownDev, rdF, h1, h2, h3]
    rfl
  have hsp : isSpare x n = true := by
    have : isSpare x n = isSpare s n := by simp only [isSpare, hpb, presetOf, rdF, h1]
    rw [this, hs]
  have hnone : presetBond x n = none := Option.isNone_iff_eq_none.1 (Bool.and_eq_true_iff.1 hsp).1
  have hbond : bondOf x n = some (fld v 3 0) := by
    have h63 : bit (wd (2 ^ 63 + fld v 3 0)) 63 = true := by
      rw [bit_wd _ (by decide), Nat.testBit_eq_decide_div_mod_eq]
      exact decide_eq_true (by omega)
    have hf : fld (wd (2 ^ 63 + fld v 3 0)) 3 0 = fld v 3 0 := by rw [fld_wd _ (by decide)]; omega
    unfold bondOf
    rw [hnone]
    dsimp only
    rw [hw, h63, hsp, hf, if_pos (by decide), if_pos hv]
  refine ⟨_, hex, ?_, fun a ha => hr a (by simpa using ha), hmem⟩
  exact (bondOf_of_regs rfl n).trans hbond

theorem routeRegisters : RouteRegisters := by
  unfold RouteRegisters
  intro who s hm
  exact ⟨fun tb d v hd => ⟨fun h1 h2 => routeTable_written hm v hd h1 h2, fun h => routeTable_refused hm v hd h⟩,
    fun ho => flip_completes hm ho, fun ho => flip_refused hm ho, fun ho => routeDrained_completes ho,
    fun v h6 hc => routeMachine_written hm h6 hc, fun v h => routeMachine_refused hm h, fun v hz hf => preset_written hm hz hf,
    fun v h => preset_refused hm h, fun n v hn hp hz hs hv => portBond_written hm hn hp hz hs hv⟩

end Sys2Proof.Machine
end

section
/-! PROOFS. The congestion map (R276, R283). -/

namespace Sys2Proof.Machine

variable {s u v : State} {n b : Nat} {p : Packet}

-- A snapshot of the counters (R276, R283)

/-- The counters of one channel are copied and cleared. -/
def snapOne (m c : Nat) (s : State) : State :=
  s |> splitStall m c |> wrReg (Reg.congSnap m c 0) (rd s (Reg.congLive m c 0)) |> wrReg (Reg.congSnap m c 1) (rd s (Reg.congLive m c 1))
    |> wrReg (Reg.congLive m c 0) 0 |> wrReg (Reg.congLive m c 1) 0

/-- The registers that a snapshot of a channel writes. -/
def snapRegs (m c : Nat) : List Nat := [Reg.congSnap m c 0, Reg.congSnap m c 1, Reg.congLive m c 0, Reg.congLive m c 1]

theorem rd_splitStall {m c a : Nat} (h : a ≠ Reg.congLive m c 1) (s : State) : rd (splitStall m c s) a = rd s a := by
  unfold splitStall countStall
  split
  · rfl
  · rw [rd_onPrt]
    split
    · rfl
    · exact rd_wrF_ne _ _ _ _ h

theorem rd_snapOne {m c a : Nat} (h : a ∉ snapRegs m c) (s : State) : rd (snapOne m c s) a = rd s a := by
  simp only [snapRegs, List.mem_cons, List.not_mem_nil, or_false, not_or] at h
  obtain ⟨h1, h2, h3, h4⟩ := h
  exact (rd_wrReg_ne _ _ h4).trans ((rd_wrReg_ne _ _ h3).trans ((rd_wrReg_ne _ _ h2).trans ((rd_wrReg_ne _ _ h1).trans
    (rd_splitStall h4 s))))

/-- The wait of a channel that a snapshot of another leaves alone. -/
theorem stall_snapOne {m c k : Nat} (h : m ≠ n ∨ c ≠ k) (s : State) : mget 0 (prt (snapOne m c s) n).stall k = mget 0 (prt s n).stall k := by
  have hp : prt (snapOne m c s) n = prt (splitStall m c s) n := rfl
  rw [hp]
  have hc : prt (countStall m c s) n = prt s n := by unfold countStall; split <;> rfl
  unfold splitStall
  split
  · rfl
  · by_cases hm : n = m
    · have hck : k ≠ c := fun he => h.elim (fun h => h hm.symm) (fun h => h he.symm)
      subst hm
      rw [prt_onPrt_self, hc]
      exact mget_mset_ne _ _ _ hck
    · rw [prt_onPrt_ne _ _ hm, hc]

theorem memKept_snapOne (m c : Nat) (s : State) : MemKept s (snapOne m c s) := fun a => by
  have h : memByte (snapOne m c s) a = memByte (splitStall m c s) a := rfl
  rw [h]
  unfold splitStall countStall
  split
  · rfl
  · split <;> rfl

/-- What a snapshot of its own channel leaves when nothing waits. -/
theorem snapOne_self {c : Nat} (h : mget 0 (prt s n).stall c = 0) :
    rd (snapOne n c s) (Reg.congSnap n c 0) = rd s (Reg.congLive n c 0) ∧ rd (snapOne n c s) (Reg.congSnap n c 1) = rd s (Reg.congLive n c 1)
      ∧ rd (snapOne n c s) (Reg.congLive n c 0) = 0 ∧ rd (snapOne n c s) (Reg.congLive n c 1) = 0 := by
  have hs : splitStall n c s = s := if_pos h
  have h1 : Reg.congSnap n c 0 = Reg.portBase n + 0x600 + 16 * c + 8 * 0 := rfl
  have h2 : Reg.congSnap n c 1 = Reg.portBase n + 0x600 + 16 * c + 8 * 1 := rfl
  have h3 : Reg.congLive n c 0 = Reg.portBase n + 0x400 + 16 * c + 8 * 0 := rfl
  have h4 : Reg.congLive n c 1 = Reg.portBase n + 0x400 + 16 * c + 8 * 1 := rfl
  unfold snapOne
  rw [hs]
  refine ⟨?_, ?_, ?_, rd_wrReg_self _ _ _⟩
  · exact (rd_wrReg_ne _ _ (by omega)).trans ((rd_wrReg_ne _ _ (by omega)).trans ((rd_wrReg_ne _ _ (by omega)).trans (rd_wrReg_self _ _ _)))
  · exact (rd_wrReg_ne _ _ (by omega)).trans ((rd_wrReg_ne _ _ (by omega)).trans (rd_wrReg_self _ _ _))
  · exact (rd_wrReg_ne _ _ (by omega)).trans (rd_wrReg_self _ _ _)

/-- What a snapshot changes of one channel. -/
def channelView (n k : Nat) (s : State) : Word × Word × Word × Word × Nat :=
  (rd s (Reg.congSnap n k 0), rd s (Reg.congSnap n k 1), rd s (Reg.congLive n k 0), rd s (Reg.congLive n k 1), mget 0 (prt s n).stall k)

theorem channelView_other {m c k : Nat} (hc : c < 8) (hk : k < 8) (h : m ≠ n ∨ c ≠ k) (s : State) :
    channelView n k (snapOne m c s) = channelView n k s := by
  have h0 : ∀ m c w, Reg.congSnap m c w = 0x100000 + 0x10000 * m + 0x600 + 16 * c + 8 * w := fun _ _ _ => rfl
  have h1 : ∀ m c w, Reg.congLive m c w = 0x100000 + 0x10000 * m + 0x400 + 16 * c + 8 * w := fun _ _ _ => rfl
  have hne : ∀ a, a ∈ snapRegs n k → a ∉ snapRegs m c := fun a ha hb => by
    simp only [snapRegs, List.mem_cons, List.not_mem_nil, or_false, h0, h1] at ha hb
    omega
  simp only [channelView]
  rw [rd_snapOne (hne _ (by simp [snapRegs])), rd_snapOne (hne _ (by simp [snapRegs])), rd_snapOne (hne _ (by simp [snapRegs])),
    rd_snapOne (hne _ (by simp [snapRegs])), stall_snapOne h]

/-- The channels of one port. -/
def snapPort (m : Nat) (s : State) : State := (List.range 8).foldl (fun s c => snapOne m c s) s

theorem snapCounters_eq (s : State) : snapCounters s = (List.range 32).foldl (fun s m => snapPort m s) s := rfl

theorem channelView_port {m k : Nat} (hk : k < 8) (h : m ≠ n) (s : State) : channelView n k (snapPort m s) = channelView n k s :=
  foldl_keeps s (channelView n k) (fun s c => snapOne m c s) (List.range 8) fun u _ hc =>
    channelView_other (List.mem_range.1 hc) hk (Or.inl h) u

theorem channelView_self {k : Nat} (hk : k < 8) (s : State) : ∃ x, channelView n k x = channelView n k s
    ∧ channelView n k (snapPort n s) = channelView n k (snapOne n k x) :=
  foldl_view (channelView n k) (f := fun s c => snapOne n c s) List.nodup_range (List.mem_range.2 hk)
    (fun u _ hc hne => channelView_other (List.mem_range.1 hc) hk (Or.inr hne) u) s

theorem snapCounters_channel {k : Nat} (hn : n < 32) (hk : k < 8) (h : mget 0 (prt s n).stall k = 0) :
    rd (snapCounters s) (Reg.congSnap n k 0) = rd s (Reg.congLive n k 0) ∧ rd (snapCounters s) (Reg.congSnap n k 1) = rd s (Reg.congLive n k 1)
      ∧ rd (snapCounters s) (Reg.congLive n k 0) = 0 ∧ rd (snapCounters s) (Reg.congLive n k 1) = 0 := by
  obtain ⟨x, hx, hy⟩ := foldl_view (channelView n k) (f := fun s m => snapPort m s) (l := List.range 32) List.nodup_range (List.mem_range.2 hn)
    (fun u m _ hne => channelView_port hk hne u) s
  obtain ⟨y, hyx, hz⟩ := channelView_self (n := n) hk x
  rw [hx] at hyx
  rw [hz, ← snapCounters_eq] at hy
  simp only [channelView, Prod.mk.injEq] at hyx hy
  obtain ⟨-, -, y3, y4, y5⟩ := hyx
  obtain ⟨g1, g2, g3, g4, -⟩ := hy
  obtain ⟨k1, k2, k3, k4⟩ := snapOne_self (s := y) (n := n) (c := k) (by rw [y5]; exact h)
  exact ⟨g1.trans (k1.trans y3), g2.trans (k2.trans y4), g3.trans k3, g4.trans k4⟩

/-- The registers outside the ports' counters, and the memory, that a snapshot leaves. -/
theorem snapCounters_frame (s : State) : (∀ a, a < 0x100000 → rd (snapCounters s) a = rd s a) ∧ MemKept s (snapCounters s) := by
  have h0 : ∀ m c w, 0x100000 ≤ Reg.congSnap m c w := fun _ _ _ => by simp only [Reg.congSnap, Reg.portBase]; omega
  have h1 : ∀ m c w, 0x100000 ≤ Reg.congLive m c w := fun _ _ _ => by simp only [Reg.congLive, Reg.portBase]; omega
  constructor
  · intro a ha
    refine foldl_keeps s (fun u => rd u a) (fun s m => snapPort m s) _ fun u m _ =>
      foldl_keeps u (fun u => rd u a) (fun s c => snapOne m c s) _ fun w c _ => rd_snapOne (fun hm => ?_) w
    simp only [snapRegs, List.mem_cons, List.not_mem_nil, or_false] at hm
    have g1 := h0 m c 0
    have g2 := h0 m c 1
    have g3 := h1 m c 0
    have g4 := h1 m c 1
    omega
  · intro a
    exact foldl_keeps s (fun u => memByte u a) (fun s m => snapPort m s) _ fun u m _ =>
      foldl_keeps u (fun u => memByte u a) (fun s c => snapOne m c s) _ fun w c _ => memKept_snapOne m c w a

theorem mem_wrF (s : State) (a hi lo k : Nat) : MemKept s (wrF a hi lo k s) := fun _ => rfl

theorem cmapSnapshot_completes {k : Nat} (hn : n < 32) (hk : k < 8) (h63 : rdB s Reg.cmapCtrl 63 = false)
    (hst : mget 0 (prt s n).stall k = 0) : Completes .cmapSnapshot s (fun u =>
      rd u (Reg.congSnap n k 0) = rd s (Reg.congLive n k 0) ∧ rd u (Reg.congSnap n k 1) = rd s (Reg.congLive n k 1)
        ∧ rd u (Reg.congLive n k 0) = 0 ∧ rd u (Reg.congLive n k 1) = 0 ∧ MemKept s u) := by
  obtain ⟨x, hx⟩ : ∃ x, x = clockTo (cmapRound s * 1024) s := ⟨_, rfl⟩
  obtain ⟨c1, c2⟩ := regs_clockTo (cmapRound s * 1024) s
  have c3 := prt_clockTo (cmapRound s * 1024) n s
  rw [← hx] at c1 c2 c3
  obtain ⟨g1, g2, g3, g4⟩ := snapCounters_channel (s := x) hn hk (by rw [c3]; exact hst)
  obtain ⟨f1, f2⟩ := snapCounters_frame x
  obtain ⟨z, hz⟩ : ∃ z, z = wrF Reg.cmapStatus 31 0 (cmapRound s) (snapCounters x) := ⟨_, rfl⟩
  have hr : ∀ a, a ≠ Reg.cmapStatus → rd z a = rd (snapCounters x) a := fun a ha => by rw [hz]; exact rd_wrF_ne _ _ _ _ ha
  have hm : MemKept (snapCounters x) z := by rw [hz]; exact mem_wrF _ _ _ _ _
  have hb : rdB z Reg.cmapCtrl 63 = false := by
    rw [rdB, hr _ (by rw [Reg.cmapCtrl, Reg.cmapStatus]; omega), f1 _ (by rw [Reg.cmapCtrl]; omega), c1 _ (by simp)]
    exact h63
  have hex : exec .cmapSnapshot s = ok z := by
    show execCmapSnapshot s = _
    unfold execCmapSnapshot
    dsimp only
    rw [← hx, ← hz, hb]
    rfl
  have hs0 : ∀ m c w, Reg.congSnap m c w ≠ Reg.cmapStatus := fun _ _ _ => by
    simp only [Reg.congSnap, Reg.portBase, Reg.cmapStatus]; omega
  have hs1 : ∀ m c w, Reg.congLive m c w ≠ Reg.cmapStatus := fun _ _ _ => by
    simp only [Reg.congLive, Reg.portBase, Reg.cmapStatus]; omega
  refine ⟨z, hex, ?_, ?_, ?_, ?_, fun a => (hm a).trans ((f2 a).trans (c2 a))⟩
  · rw [hr _ (hs0 _ _ _), g1, c1 _ (by simp)]
  · rw [hr _ (hs0 _ _ _), g2, c1 _ (by simp)]
  · rw [hr _ (hs1 _ _ _), g3]
  · rw [hr _ (hs1 _ _ _), g4]

-- A piece of a record (R276)

/-- A record's first piece ends the discard of its device's earlier snapshot. -/
def cmapOpened (p : Packet) (s : State) : State :=
  if p.addr % 4096 = 0 then { s with net := { s.net with cmapGone := s.net.cmapGone.filter (fun x => x != p.addr / 4096) } } else s

/-- What the opening of a record leaves. -/
structure Opened (s u : State) : Prop where
  regs : u.regs = s.regs
  mem : u.mem = s.mem
  bonds : ∀ b, bnd u b = bnd s b
  hbm : u.hbm = s.hbm
  rma : u.rma = s.rma
  boot : u.boot = s.boot
  now : u.now = s.now

theorem cmapOpened_spec (p : Packet) (s : State) : Opened s (cmapOpened p s) := by
  unfold cmapOpened
  split
  · exact ⟨rfl, rfl, fun _ => rfl, rfl, rfl, rfl, rfl⟩
  · exact ⟨rfl, rfl, fun _ => rfl, rfl, rfl, rfl, rfl⟩

theorem cmapOpened_notGone (h : p.addr % 4096 = 0 ∨ p.addr / 4096 ∉ s.net.cmapGone) :
    (cmapOpened p s).net.cmapGone.contains (p.addr / 4096) = false := by
  rw [← Bool.not_eq_true, List.contains_iff_mem]
  unfold cmapOpened
  split
  · simp
  · next h0 => exact h.resolve_left h0

theorem Opened.rd (h : Opened s u) (a : Nat) : rd u a = rd s a := by rw [Machine.rd, Machine.rd, h.regs]

theorem Opened.memKept (h : Opened s u) : MemKept s u := fun a => by rw [memByte, memByte, h.mem]

theorem Opened.egressBond (h : Opened s u) (e d : Nat) : egressBond u e d = egressBond s e d := by
  unfold Machine.egressBond routeEntry
  rw [h.rd]

theorem Opened.waiting (h : Opened s u) : cmapWaiting u = cmapWaiting s := by
  have hd : ownDev u = ownDev s := congrArg (fld · 13 0) (h.rd _)
  unfold cmapWaiting isRelay
  simp only [h.bonds, hd]

/-- What a piece of a record does once its record is open. -/
def cmapTakes (p : Packet) (s : State) : State :=
  if rdF s Reg.cmapCtrl 61 48 = ownDev s then cmapStore p.addr p.payload s
  else
    match egressBond s (injectEpoch s) (rdF s Reg.cmapCtrl 61 48) with
    | none => cmapDiscard (p.addr / 4096) s
    | some b => if 64 ≤ cmapWaiting s then cmapDiscard (p.addr / 4096) s else cmapSend b p.addr p.payload s

theorem exec_cmapRecord (h1 : p.payload.length = 256) (h2 : p.addr + 256 ≤ 16384 * 4096)
    (hg : p.addr % 4096 = 0 ∨ p.addr / 4096 ∉ s.net.cmapGone) :
    exec (.cmapRecord p) s = ok (cmapTakes p (cmapOpened p s)) := by
  have hn := cmapOpened_notGone hg
  show execCmapRecord p s = _
  unfold execCmapRecord
  rw [if_pos ⟨h1, h2⟩]
  have he : cmapArrives p.addr p.payload s = (fun x : State => if rdF x Reg.cmapCtrl 61 48 = ownDev x then cmapStore p.addr p.payload x
      else if x.net.cmapGone.contains (p.addr / 4096) then x
      else match egressBond x (injectEpoch x) (rdF x Reg.cmapCtrl 61 48) with
        | none => cmapDiscard (p.addr / 4096) x
        | some b => if 64 ≤ cmapWaiting x then cmapDiscard (p.addr / 4096) x else cmapSend b p.addr p.payload x) (cmapOpened p s) := rfl
  rw [he]
  generalize cmapOpened p s = x at hn
  dsimp only
  rw [hn]
  rfl

theorem regionOf_hbm {a pt off : Nat} (h : regionOf s a = some (.hbm pt off)) : pt = a / 0x1800000000 ∧ off = a % 0x1800000000 := by
  unfold regionOf at h
  split at h
  · split at h
    · cases h; exact ⟨rfl, rfl⟩
    · cases h
  · repeat' split at h
    all_goals cases h

theorem accessRange_of_boot (h : u.boot = s.boot) (a k : Nat) : accessRange u a k = accessRange s a k := by
  have hr : ∀ a, regionOf u a = regionOf s a := fun a => by
    unfold regionOf sliceSize absentBlock portCount
    rw [h]
  unfold accessRange
  rw [hr, hr]

theorem accessRange_hbm {a k pt off : Nat} (h : accessRange s a k = some (.hbm pt off)) : pt = a / 0x1800000000 ∧ off = a % 0x1800000000 := by
  refine regionOf_hbm (s := s) ?_
  unfold accessRange at h
  split at h
  · next r r' hr _ =>
    split at h
    · rw [hr]; exact h
    · cases h
  · cases h

theorem cmapRecord_stored (h1 : p.payload.length = 256) (h2 : p.addr + 256 ≤ 16384 * 4096)
    (hg : p.addr % 4096 = 0 ∨ p.addr / 4096 ∉ s.net.cmapGone) {pt off : Nat} (ho : rdF s Reg.cmapCtrl 61 48 = ownDev s)
    (hr : accessRange s ((rd s Reg.cmapBase).toNat + p.addr) 256 = some (.hbm pt off)) (ht : StackTakes s pt off) :
    Completes (.cmapRecord p) s (fun u =>
      Queued pt (stackOf s off) { op := .write, addr := (rd s Reg.cmapBase).toNat + p.addr, len := 256,
                                  data := p.payload, agent := 0x300, since := now s } s u ∧ RegsKept [] s u ∧ MemKept s u) := by
  have hex := exec_cmapRecord h1 h2 hg
  obtain ⟨rfl, rfl⟩ := accessRange_hbm hr
  obtain ⟨a, ha⟩ : ∃ a, a = (rd s Reg.cmapBase).toNat + p.addr := ⟨_, rfl⟩
  obtain ⟨x, hx⟩ : ∃ x : Access, x = { op := .write, addr := a, len := 256, data := p.payload, agent := 0x300, since := now s } := ⟨_, rfl⟩
  have hxa : x.addr = a := by rw [hx]
  have ho' := cmapOpened_spec p s
  generalize cmapOpened p s = y at hex ho'
  have hso : ∀ k, stackOf y k = stackOf s k := fun k => by rw [stackOf, ho'.boot]; rfl
  have hy : cmapTakes p y = toStack x y := by
    unfold cmapTakes
    rw [if_pos (show rdF y Reg.cmapCtrl 61 48 = ownDev y from
      (congrArg (fld · 61 48) (ho'.rd _)).trans (ho.trans (congrArg (fld · 13 0) (ho'.rd _)).symm))]
    have hl : accessRange y a p.payload.length = some (.hbm (a / 0x1800000000) (a % 0x1800000000)) := by
      rw [h1, ha, ← hr]
      exact accessRange_of_boot ho'.boot _ _
    unfold cmapStore
    rw [ho'.rd, ← ha]
    dsimp only
    rw [hl, hx, h1, now, ho'.now]
    rfl
  have hty : StackTakes y (x.addr / 0x1800000000) (x.addr % 0x1800000000) := by
    obtain ⟨t1, t2, t3, t4⟩ := ht
    rw [← ha] at t1 t2 t3 t4
    rw [StackTakes, hxa, hso]
    have h1 : ∀ i j, stackState y i j = stackState s i j := fun i j => congrArg (fld · _ _) (ho'.rd _)
    have h2 : ∀ i j, stk y i j = stk s i j := fun i j => by rw [stk, ho'.hbm]; rfl
    rw [h1, h2, ho'.rma]
    exact ⟨t1, t2, t3, t4⟩
  rw [hy, toStack_queues hty, hxa, hso] at hex
  rw [← ha, ← hx]
  refine ⟨_, hex, ?_, fun b _ => ho'.rd b, ho'.memKept⟩
  rw [Queued, stk_onStk_self, stk, ho'.hbm]
  rfl

/-- The pieces of a device's record leave a bond's queue. -/
def dropPieces (d b : Nat) (s : State) : State := onBnd b (fun x => { x with queue := x.queue.filter (fun q => !isPieceOf d q.2) }) s

theorem dropPieces_frame (d : Nat) (l : List Nat) (s : State) :
    (l.foldl (fun s b => dropPieces d b s) s).regs = s.regs ∧ (l.foldl (fun s b => dropPieces d b s) s).mem = s.mem := by
  induction l generalizing s with
  | nil => exact ⟨rfl, rfl⟩
  | cons b l ih => exact ih (dropPieces d b s)

theorem mem_addSat (s : State) (a hi lo k : Nat) : MemKept s (addSat a hi lo k s) := fun _ => rfl

/-- A snapshot that is discarded. -/
theorem cmapDiscard_spec (d : Nat) (s : State) :
    rdF (cmapDiscard d s) Reg.cmapStatus 63 32 = min (rdF s Reg.cmapStatus 63 32 + 1) (2 ^ 32 - 1) ∧ MemKept s (cmapDiscard d s)
      ∧ d ∈ (cmapDiscard d s).net.cmapGone
      ∧ ∀ b, b < 12 → ∀ q ∈ (bnd (cmapDiscard d s) b).queue, isPieceOf d q.2 = false := by
  obtain ⟨x, hx⟩ : ∃ x, x = (List.range 12).foldl (fun s b => dropPieces d b s) s := ⟨_, rfl⟩
  obtain ⟨y, hy⟩ : ∃ y : State, y = { x with net := { x.net with cmapGone := x.net.cmapGone ++ [d] } } := ⟨_, rfl⟩
  have he : cmapDiscard d s = addSat Reg.cmapStatus 63 32 1 y := by rw [hy, hx]; rfl
  obtain ⟨f1, f2⟩ := dropPieces_frame d (List.range 12) s
  rw [← hx] at f1 f2
  have hyf : y.regs = s.regs ∧ y.mem = s.mem ∧ d ∈ y.net.cmapGone ∧ ∀ b, bnd y b = bnd x b := by
    rw [hy]; exact ⟨f1, f2, List.mem_append_right _ (List.mem_singleton_self _), fun _ => rfl⟩
  obtain ⟨g1, g2, g3, g4⟩ := hyf
  have hc := rdF_addSat_self y Reg.cmapStatus 63 32 1 (by decide) (by decide)
  have hk := net_addSat y Reg.cmapStatus 63 32 1
  have hm := mem_addSat y Reg.cmapStatus 63 32 1
  rw [he]
  generalize addSat Reg.cmapStatus 63 32 1 y = z at hc hk hm ⊢
  refine ⟨?_, fun a => ?_, by rw [hk]; exact g3, fun b hb q hq => ?_⟩
  · rw [hc, rdF, rd, g1]; rfl
  · rw [hm a, memByte, g2]; rfl
  · obtain ⟨w, -, hw⟩ := foldl_view (fun s => (bnd s b).queue) (f := fun s b => dropPieces d b s) (l := List.range 12) List.nodup_range
      (List.mem_range.2 hb) (fun u k _ hne => congrArg Bond.queue (mget_mset_ne _ _ _ (Ne.symm hne))) s
    have hz : (bnd z b).queue = (bnd w b).queue.filter (fun q => !isPieceOf d q.2) := by
      have h1 : bnd z b = bnd x b := by rw [bnd, hk]; exact g4 b
      rw [h1, hx, hw, dropPieces, bnd_onBnd_self]
    rw [hz] at hq
    simpa using (List.mem_filter.1 hq).2

/-- The way that a piece takes at a device that is not the collector. -/
theorem cmapTakes_away (ho : Opened s u) (hn : rdF s Reg.cmapCtrl 61 48 ≠ ownDev s) : cmapTakes p u
    = match egressBond s (injectEpoch s) (rdF s Reg.cmapCtrl 61 48) with
      | none => cmapDiscard (p.addr / 4096) u
      | some b => if 64 ≤ cmapWaiting s then cmapDiscard (p.addr / 4096) u else cmapSend b p.addr p.payload u := by
  have h1 : rdF u Reg.cmapCtrl 61 48 = rdF s Reg.cmapCtrl 61 48 := congrArg (fld · 61 48) (ho.rd _)
  have h2 : ownDev u = ownDev s := congrArg (fld · 13 0) (ho.rd _)
  have h3 : injectEpoch u = injectEpoch s := congrArg (fld · 32 32) (ho.rd _)
  unfold cmapTakes
  rw [h1, h2, h3, ho.egressBond, ho.waiting, if_neg hn]

theorem cmapRecord_unrouted (h1 : p.payload.length = 256) (h2 : p.addr + 256 ≤ 16384 * 4096)
    (hg : p.addr % 4096 = 0 ∨ p.addr / 4096 ∉ s.net.cmapGone) (hn : rdF s Reg.cmapCtrl 61 48 ≠ ownDev s)
    (he : egressBond s (injectEpoch s) (rdF s Reg.cmapCtrl 61 48) = none) : Completes (.cmapRecord p) s (fun u =>
      rdF u Reg.cmapStatus 63 32 = min (rdF s Reg.cmapStatus 63 32 + 1) (2 ^ 32 - 1) ∧ MemKept s u) := by
  have hex := exec_cmapRecord h1 h2 hg
  have ho := cmapOpened_spec p s
  generalize cmapOpened p s = y at hex ho
  rw [cmapTakes_away ho hn, he] at hex
  obtain ⟨g1, g2, -⟩ := cmapDiscard_spec (p.addr / 4096) y
  exact ⟨_, hex, g1.trans (by rw [rdF, ho.rd]; rfl), fun a => (g2 a).trans (ho.memKept a)⟩

theorem cmapRecord_sent (h1 : p.payload.length = 256) (h2 : p.addr + 256 ≤ 16384 * 4096)
    (hg : p.addr % 4096 = 0 ∨ p.addr / 4096 ∉ s.net.cmapGone) (hn : rdF s Reg.cmapCtrl 61 48 ≠ ownDev s)
    (he : egressBond s (injectEpoch s) (rdF s Reg.cmapCtrl 61 48) = some b) (hw : cmapWaiting s < 64) :
    Completes (.cmapRecord p) s (fun u => (bnd u b).queue.length = (bnd s b).queue.length + 1 ∧ RegsKept [] s u ∧ MemKept s u) := by
  have hex := exec_cmapRecord h1 h2 hg
  have ho := cmapOpened_spec p s
  generalize cmapOpened p s = y at hex ho
  rw [cmapTakes_away ho hn, he] at hex
  dsimp only at hex
  rw [if_neg (by omega), cmapSend] at hex
  refine ⟨_, hex, ?_, fun a _ => ho.rd a, ho.memKept⟩
  rw [bnd_onBnd_self, ho.bonds]
  exact List.length_append

theorem egressBond_lt {e d : Nat} (h : egressBond s e d = some b) : b < 12 := by
  unfold egressBond at h
  dsimp only at h
  split at h
  · next hc =>
    cases h
    exact of_decide_eq_true (Bool.and_eq_true_iff.1 hc).2
  · cases h

theorem cmapRecord_full (h1 : p.payload.length = 256) (h2 : p.addr + 256 ≤ 16384 * 4096)
    (hg : p.addr % 4096 = 0 ∨ p.addr / 4096 ∉ s.net.cmapGone) (hn : rdF s Reg.cmapCtrl 61 48 ≠ ownDev s)
    (he : egressBond s (injectEpoch s) (rdF s Reg.cmapCtrl 61 48) = some b) (hw : 64 ≤ cmapWaiting s) :
    Completes (.cmapRecord p) s (fun u =>
      (∀ q ∈ (bnd u b).queue, isPieceOf (p.addr / 4096) q.2 = false) ∧ p.addr / 4096 ∈ u.net.cmapGone
        ∧ rdF u Reg.cmapStatus 63 32 = min (rdF s Reg.cmapStatus 63 32 + 1) (2 ^ 32 - 1) ∧ MemKept s u) := by
  have hex := exec_cmapRecord h1 h2 hg
  have ho := cmapOpened_spec p s
  generalize cmapOpened p s = y at hex ho
  rw [cmapTakes_away ho hn, he] at hex
  dsimp only at hex
  rw [if_pos hw] at hex
  obtain ⟨g1, g2, g3, g4⟩ := cmapDiscard_spec (p.addr / 4096) y
  exact ⟨_, hex, g4 b (egressBond_lt he), g3, g1.trans (by rw [rdF, ho.rd]; rfl), fun a => (g2 a).trans (ho.memKept a)⟩

theorem congestionMap : CongestionMap := by
  unfold CongestionMap
  exact ⟨fun s n k hn hk h63 hst => cmapSnapshot_completes hn hk h63 hst, fun s p h1 h2 hg =>
    ⟨fun pt off ho hr ht => cmapRecord_stored h1 h2 hg ho hr ht, fun hn he => cmapRecord_unrouted h1 h2 hg hn he,
      fun b hn he => ⟨fun hw => cmapRecord_sent h1 h2 hg hn he hw, fun hw => cmapRecord_full h1 h2 hg hn he hw⟩⟩⟩

/-- Settles O39: the installer's route registers, then the congestion map's snapshot and its records. -/
theorem routesAndCongestionMap : Obligations.RoutesAndCongestionMap := ⟨routeRegisters, congestionMap⟩

end Sys2Proof.Machine
end

section
/-! PROOFS. The transport of the ordinary network (R344). -/

namespace Sys2Proof.Machine

variable {s u v : State} {f port : Nat} {x : EthFrame}

theorem flowOf_onFlow (f : Nat) (g : EthFlow → EthFlow) (s : State) : flowOf (onFlow f g s) f = g (flowOf s f) := mget_mset_self ..

/-- The acknowledgement that a flow sends. -/
def ethAck (s : State) (f k : Nat) : Out := .eth (flowPort s f) (fld (flowWord s f 3) 55 40) 2 0 k 0 []

theorem ethAck_of_regs (h : ∀ w, rd u (Reg.ethFlow f w) = rd s (Reg.ethFlow f w)) (k : Nat) : ethAck u f k = ethAck s f k := by
  simp only [ethAck, flowPort, flowWord, rdF, h]

theorem sendEthAck_eq (f : Nat) (s : State) : sendEthAck f s = emit (ethAck s f (flowOf s f).rxSeq) s := rfl

-- Frames that are dropped (R344, R348)

/-- A drop counts and changes nothing else. -/
theorem addSat_one_spec {a hi lo : Nat} (h1 : lo ≤ hi) (h2 : hi < 64) (s : State) :
    rdF (addSat a hi lo 1 s) a hi lo = min (rdF s a hi lo + 1) (2 ^ (hi + 1 - lo) - 1)
      ∧ (addSat a hi lo 1 s).out = s.out ∧ RegsKept [a] s (addSat a hi lo 1 s)
      ∧ MemKept s (addSat a hi lo 1 s) ∧ (addSat a hi lo 1 s).host = s.host := by
  have hk : Kept [a] s (addSat a hi lo 1 s) := (Kept.refl _ s).addSat (by simp) hi lo 1
  exact ⟨rdF_addSat_self s _ hi lo 1 h1 h2, rfl, hk.regs, hk.mem, rfl⟩

theorem ethFrame_off (h : hostPowered s = false) : Completes (.ethFrame port x) s (fun u => u = s) :=
  ⟨_, congrArg ok (if_pos (by rw [h]; rfl)), rfl⟩

theorem ethFrame_malformed (h : hostPowered s = true) (hm : x.malformed = true) : Completes (.ethFrame port x) s (fun u =>
    rdF u Reg.ethDropCount 63 32 = min (rdF s Reg.ethDropCount 63 32 + 1) (2 ^ 32 - 1) ∧ u.out = s.out
      ∧ RegsKept [Reg.ethDropCount] s u ∧ MemKept s u) := by
  have hex : exec (.ethFrame port x) s = ok (addSat Reg.ethDropCount 63 32 1 s) :=
    congrArg ok ((if_neg (by rw [h]; decide)).trans (if_pos hm))
  obtain ⟨g1, g2, g3, g4, -⟩ := addSat_one_spec (a := Reg.ethDropCount) (hi := 63) (lo := 32) (by decide) (by decide) s
  exact ⟨_, hex, g1, g2, g3, g4⟩

theorem exec_ethFrame_refused (h : hostPowered s = true) (hm : x.malformed = false) (hc : rdB s Reg.ethCtrl 63 = false ∨ 256 ≤ x.flow) :
    exec (.ethFrame port x) s = ok (addSat Reg.ethDropCount 31 0 1 s) := by
  show execEthFrame port x s = _
  unfold execEthFrame
  rw [if_neg (by rw [h]; decide), if_neg (by rw [hm]; decide), if_pos]
  · rfl
  · rcases hc with hc | hc
    · exact Or.inl (by rw [hc]; decide)
    · exact Or.inr (Or.inl hc)

theorem ethFrame_refused (h : hostPowered s = true) (hm : x.malformed = false) (hc : rdB s Reg.ethCtrl 63 = false ∨ 256 ≤ x.flow) :
    Completes (.ethFrame port x) s (fun u =>
      rdF u Reg.ethDropCount 31 0 = min (rdF s Reg.ethDropCount 31 0 + 1) (2 ^ 32 - 1) ∧ u.out = s.out
        ∧ RegsKept [Reg.ethDropCount] s u ∧ MemKept s u) := by
  obtain ⟨g1, g2, g3, g4, -⟩ := addSat_one_spec (a := Reg.ethDropCount) (hi := 31) (lo := 0) (by decide) (by decide) s
  exact ⟨_, exec_ethFrame_refused h hm hc, g1, g2, g3, g4⟩

/-- A frame of an open flow on its port (R344). -/
structure FlowTakes (s : State) (port f : Nat) (x : EthFrame) : Prop where
  powered : hostPowered s = true
  sound : x.malformed = false
  flow : x.flow = f
  small : f < 256
  enabled : rdB s Reg.ethCtrl 63 = true
  opened : bit (flowWord s f 2) 63 = true
  port : flowPort s f = port

theorem FlowTakes.exec (h : FlowTakes s port f x) : exec (.ethFrame port x) s = ok (if x.kind = 1 then ethDataArrives f x s
    else if x.kind = 2 then ethAckArrives f x s else dropTransport s) := by
  obtain ⟨h1, h2, rfl, h4, h5, h6, h7⟩ := h
  show execEthFrame port x s = _
  unfold execEthFrame
  rw [if_neg (by rw [h1]; decide), if_neg (by rw [h2]; decide), if_neg]
  rintro (h | h | h | h)
  · rw [h5] at h; cases h
  · omega
  · rw [h6] at h; cases h
  · exact h h7

-- Data (R344)

theorem ethFlow_ne_ethDropCount (f w : Nat) : Reg.ethFlow f w ≠ Reg.ethDropCount := by
  simp only [Reg.ethFlow, Reg.ethDropCount]; omega

theorem ethData_outOfOrder (h : FlowTakes s port f x) (hk : x.kind = 1) (hs : x.seq ≠ (flowOf s f).rxSeq) :
    Completes (.ethFrame port x) s (fun u =>
      (flowOf u f).rxSeq = (flowOf s f).rxSeq ∧ u.out = s.out ++ [ethAck s f (flowOf s f).rxSeq]
        ∧ rdF u Reg.ethDropCount 31 0 = min (rdF s Reg.ethDropCount 31 0 + 1) (2 ^ 32 - 1)
        ∧ RegsKept [Reg.ethDropCount] s u ∧ MemKept s u) := by
  have hex := h.exec
  rw [if_pos hk, show ethDataArrives f x s = sendEthAck f (dropTransport s) from if_pos (Or.inl hs), sendEthAck_eq, dropTransport] at hex
  obtain ⟨g1, g2, g3, g4, g5⟩ := addSat_one_spec (a := Reg.ethDropCount) (hi := 31) (lo := 0) (by decide) (by decide) s
  generalize addSat Reg.ethDropCount 31 0 1 s = y at hex g1 g2 g3 g4 g5
  have hf : flowOf y f = flowOf s f := by rw [flowOf, g5]; rfl
  rw [hf, ethAck_of_regs (fun w => g3 _ (by simpa using ethFlow_ne_ethDropCount f w))] at hex
  exact ⟨_, hex, congrArg EthFlow.rxSeq hf, congrArg (· ++ [ethAck s f (flowOf s f).rxSeq]) g2, g1, g3, g4⟩

/-- A DATA packet in sequence goes to its payload's write and is acknowledged. -/
theorem FlowTakes.exec_data (h : FlowTakes s port f x) (hk : x.kind = 1) (hs : x.seq = (flowOf s f).rxSeq) (hl : x.payload.length ≤ 8192)
    (ho : x.offset + x.payload.length ≤ fld (flowWord s f 3) 15 0 * 65536) :
    Machine.exec (.ethFrame port x) s = ok (sendEthAck f (takePayload f x s)) := by
  rw [h.exec, if_pos hk]
  exact congrArg ok (if_neg (by omega))

/-- A flow that has taken a packet acknowledges the next number. -/
structure FlowAccepted (f : Nat) (s u : State) : Prop where
  seq : (flowOf u f).rxSeq = ((flowOf s f).rxSeq + 1) % 2 ^ 32
  out : u.out = s.out ++ [ethAck s f (((flowOf s f).rxSeq + 1) % 2 ^ 32)]

/-- A flow accepts the packet that it waits for. -/
def acceptPacket (f : Nat) (s : State) : State := onFlow f (fun y => { y with rxSeq := (y.rxSeq + 1) % 2 ^ 32 }) s

theorem flowAccepted_of (hr : ∀ w, rd u (Reg.ethFlow f w) = rd s (Reg.ethFlow f w)) (hh : u.host = s.host) (ho : u.out = s.out) :
    FlowAccepted f s (sendEthAck f (acceptPacket f u)) := by
  have hf : flowOf u f = flowOf s f := by rw [flowOf, hh]; rfl
  have hq : (flowOf (acceptPacket f u) f).rxSeq = ((flowOf s f).rxSeq + 1) % 2 ^ 32 := by rw [acceptPacket, flowOf_onFlow, hf]
  refine ⟨hq, ?_⟩
  have he : sendEthAck f (acceptPacket f u) = emit (ethAck u f (flowOf (acceptPacket f u) f).rxSeq) (acceptPacket f u) := rfl
  rw [he, hq, ethAck_of_regs hr]
  exact congrArg (· ++ [_]) ho

theorem ethData_empty (h : FlowTakes s port f x) (hk : x.kind = 1) (hs : x.seq = (flowOf s f).rxSeq) (hl : x.payload.length ≤ 8192)
    (ho : x.offset + x.payload.length ≤ fld (flowWord s f 3) 15 0 * 65536) (he : x.payload = []) :
    Completes (.ethFrame port x) s (fun u =>
      (flowOf u f).rxSeq = ((flowOf s f).rxSeq + 1) % 2 ^ 32
        ∧ u.out = s.out ++ [ethAck s f (((flowOf s f).rxSeq + 1) % 2 ^ 32)] ∧ RegsKept [] s u ∧ MemKept s u) := by
  have hex := h.exec_data hk hs hl ho
  rw [show takePayload f x s = acceptPacket f s from if_pos he] at hex
  have ha := flowAccepted_of (f := f) (s := s) (u := s) (fun _ => rfl) rfl rfl
  exact ⟨_, hex, ha.seq, ha.out, fun _ _ => rfl, fun _ => rfl⟩

/-- What admission to HBM says of an access (R209). -/
theorem admission_hbm {a y : Access} {p o : Nat} (h : admission s a = .ok (.hbm p o, y)) :
    y.op = a.op ∧ y.addr = a.addr ∧ p = a.addr / 0x1800000000 ∧ o = a.addr % 0x1800000000 := by
  unfold admission at h
  split at h
  · cases h
  · split at h
    · cases h
    · next r hr =>
      split at h
      · cases h
      · cases h
        have hac : accessRange s a.addr (max 1 a.len) = some (.hbm p o) := by
          unfold rangeCheck at hr
          split at hr
          · cases hr
          · next r' hr' =>
            split at hr
            · cases hr
            · split at hr
              · cases hr
              · cases hr; exact hr'
        obtain ⟨h1, h2⟩ := accessRange_hbm hac
        exact ⟨rfl, rfl, h1, h2⟩

/-- An aligned access of one line to a stack that takes it joins the stack's queue (R170, R171). -/
theorem placeHbm_queues {y : Access} {p o : Nat} (hm : misaligned 0 y = false) (hp : p = y.addr / 0x1800000000) (ho : o = y.addr % 0x1800000000)
    (ht : StackTakes s p o) (hl : OneLine y) :
    placeHbm p o y s = ([], onStk p (stackOf s o) (fun k => { k with queue := k.queue ++ [y] }) s) := by
  obtain ⟨g, hg, h0⟩ : ∃ g, linesOf y.addr (accLen y) = [g] ∧ g.1 = 0 := by
    refine ⟨segOf y.addr (accLen y) 0, ?_, ?_⟩
    · rw [linesOf, hl]; rfl
    · unfold segOf; simp
  have hs : toStack y s = onStk p (stackOf s o) (fun k => { k with queue := k.queue ++ [y] }) s := by
    rw [hp, ho] at ht ⊢
    exact toStack_queues ht
  obtain ⟨t1, t2, -⟩ := ht
  unfold placeHbm
  rw [hg]
  dsimp only
  rw [List.map_singleton, h0, Nat.add_zero, if_neg (by simp; omega), if_neg (by simpa using Ne.symm t2), if_neg (by rw [hm]; decide),
    if_pos (show [g].length ≤ 1 from Nat.le_refl 1), hs]

theorem ethData_written {p o : Nat} {y : Access} (h : FlowTakes s port f x) (hk : x.kind = 1) (hs : x.seq = (flowOf s f).rxSeq)
    (hl : x.payload.length ≤ 8192) (ho : x.offset + x.payload.length ≤ fld (flowWord s f 3) 15 0 * 65536) (hp : x.payload ≠ [])
    (ha : admission s (ethWrite s f x) = .ok (.hbm p o, y)) (hr : engineReach s (ethWrite s f x) = .found (.hbm p o))
    (ht : StackTakes s p o) (h1 : OneLine y) : Completes (.ethFrame port x) s (fun u =>
      Queued p (stackOf s o) y s u ∧ (flowOf u f).rxSeq = ((flowOf s f).rxSeq + 1) % 2 ^ 32
        ∧ u.out = s.out ++ [ethAck s f (((flowOf s f).rxSeq + 1) % 2 ^ 32)] ∧ RegsKept [] s u ∧ MemKept s u) := by
  have hex := h.exec_data hk hs hl ho
  obtain ⟨a1, a2, a3, a4⟩ := admission_hbm ha
  have hpl := placeHbm_queues (s := s) (y := y) (p := p) (o := o) (by unfold misaligned; rw [a1]; rfl) (by rw [a2]; exact a3) (by rw [a2]; exact a4) ht h1
  obtain ⟨z, hz⟩ : ∃ z, z = onStk p (stackOf s o) (fun k => { k with queue := k.queue ++ [y] }) s := ⟨_, rfl⟩
  have htp : takePayload f x s = acceptPacket f z := by
    unfold takePayload
    dsimp only
    rw [if_neg hp, ha]
    dsimp only
    rw [hr]
    dsimp only
    rw [show place (.hbm p o) y s = ([], z) by rw [hz]; exact hpl]
    rfl
  rw [htp] at hex
  have hzr : z.regs = s.regs ∧ z.host = s.host ∧ z.out = s.out ∧ z.mem = s.mem := by rw [hz]; exact ⟨rfl, rfl, rfl, rfl⟩
  obtain ⟨z1, z2, z3, z4⟩ := hzr
  have hfa := flowAccepted_of (f := f) (s := s) (u := z) (fun w => by rw [rd, rd, z1]) z2 z3
  have hq : Queued p (stackOf s o) y s z := by rw [hz, Queued, stk_onStk_self]
  refine ⟨_, hex, hq, hfa.seq, hfa.out, fun a _ => ?_, fun a => ?_⟩
  · show rd z a = rd s a
    rw [rd, rd, z1]
  · show memByte z a = memByte s a
    rw [memByte, memByte, z4]

-- Acknowledgements (R344)

/-- The packets of a flow that an acknowledgement covers. -/
def ackedBy (s : State) (f k : Nat) : List (Nat × Nat × List Byte) := (flowOf s f).unacked.filter (fun p => seqBefore p.1 k)

theorem unacked_of_none {k : Nat} (h : ackedBy s f k = []) :
    (flowOf s f).unacked.filter (fun p => !seqBefore p.1 k) = (flowOf s f).unacked := by
  refine List.filter_eq_self.2 fun p hp => ?_
  have := List.filter_eq_nil_iff.1 h p hp
  simpa using this

/-- A flow forgets what has been acknowledged. -/
def forgetAcked (f k : Nat) (s : State) : State :=
  onFlow f (fun y => { y with unacked := y.unacked.filter (fun p => !seqBefore p.1 k), sentAt := now s }) s

theorem forgetAcked_flow (f k : Nat) (s : State) : flowOf (forgetAcked f k s) f
    = { flowOf s f with unacked := (flowOf s f).unacked.filter (fun p => !seqBefore p.1 k), sentAt := now s } := flowOf_onFlow ..

theorem ethAckArrives_none (h : ackedBy s f x.ack = []) : ethAckArrives f x s = s := if_pos h

theorem ethAckArrives_idle (h : ackedBy s f x.ack ≠ []) (ht : (flowOf s f).tag = none) : ethAckArrives f x s = forgetAcked f x.ack s := by
  have hf := forgetAcked_flow f x.ack s
  have he : ethAckArrives f x s = (fun z : State => match (flowOf z f).tag with
      | none => z
      | some k =>
        if (cplOf z k).kind = .eth ∧ (cplOf z k).items = f then
          progress k (((ackedBy s f x.ack).map (fun p => p.2.2.length)).foldl (fun a b => a + b) 0) stOk false z
        else z) (forgetAcked f x.ack s) := if_neg h
  rw [he]
  dsimp only
  rw [hf, ht]

theorem ethAck_idle (h : FlowTakes s port f x) (hk : x.kind = 2) (ht : (flowOf s f).tag = none) :
    Completes (.ethFrame port x) s (fun u =>
      (flowOf u f).unacked = (flowOf s f).unacked.filter (fun p => !seqBefore p.1 x.ack) ∧ RegsKept [] s u ∧ MemKept s u) := by
  have hex := h.exec
  rw [if_neg (by rw [hk]; decide), if_pos hk] at hex
  by_cases hl : ackedBy s f x.ack = []
  · rw [ethAckArrives_none hl] at hex
    exact ⟨_, hex, (unacked_of_none hl).symm, fun _ _ => rfl, fun _ => rfl⟩
  · rw [ethAckArrives_idle hl ht] at hex
    exact ⟨_, hex, congrArg EthFlow.unacked (forgetAcked_flow f x.ack s), fun _ _ => rfl, fun _ => rfl⟩

theorem ethAckArrives_live {k : Nat} (h : ackedBy s f x.ack ≠ []) (ht : (flowOf s f).tag = some k) (hk : (cplOf s k).kind = .eth)
    (hi : (cplOf s k).items = f) : ethAckArrives f x s
      = progress k ((ackedBy s f x.ack).map (fun p => p.2.2.length)).sum stOk false (forgetAcked f x.ack s) := by
  have hf := forgetAcked_flow f x.ack s
  have he : ethAckArrives f x s = (fun z : State => match (flowOf z f).tag with
      | none => z
      | some k =>
        if (cplOf z k).kind = .eth ∧ (cplOf z k).items = f then
          progress k (((ackedBy s f x.ack).map (fun p => p.2.2.length)).foldl (fun a b => a + b) 0) stOk false z
        else z) (forgetAcked f x.ack s) := if_neg h
  have hc : cplOf (forgetAcked f x.ack s) k = cplOf s k := rfl
  rw [he]
  generalize forgetAcked f x.ack s = z at hf hc
  dsimp only
  rw [hf, ht]
  dsimp only
  rw [hc, if_pos ⟨hk, hi⟩, List.sum_eq_foldl]

/-- What an open operation without an error or a channel ends with. -/
theorem finished_concludeTag_ok {tag : Nat} {e : Cpl} {late : Bool} (he : e = cplOf s tag) (hc : e.cvu = none) (ho : e.st = .opened)
    (hd : e.damaged = false) (hf : e.firstErr = 0) :
    Finished tag (statusWord 0 e.drops false e.inexact late) s (concludeTag tag late s) := by
  have hy : cplOf (setCpl tag { e with answered := true, late := late } s) tag = { e with answered := true, late := late } :=
    cplOf_setCpl_self ..
  obtain ⟨f1, f2, f3⟩ := finished_finishTag (s := setCpl tag { e with answered := true, late := late } s) (tag := tag)
    (status := 0) (drops := e.drops) (inexact := e.inexact) (late := late) (check := none) (by rw [hy]; exact ho) (by rw [hy]; exact hd)
  have hx : concludeTag tag late s = finishTag tag 0 e.drops e.inexact late none (setCpl tag { e with answered := true, late := late } s) := by
    rw [concludeTag_eq he hc, hf]
    rfl
  rw [hx]
  exact ⟨f1, f2, by rw [f3, hy, he]⟩

theorem ethAck_completes {k : Nat} (h : FlowTakes s port f x) (h2 : x.kind = 2) (ht : (flowOf s f).tag = some k) (hst : (cplOf s k).st = .opened)
    (hk : (cplOf s k).kind = .eth) (hi : (cplOf s k).items = f) (hd : (cplOf s k).damaged = false)
    (hg : (cplOf s k).expect ≤ (cplOf s k).got + ((ackedBy s f x.ack).map (fun p => p.2.2.length)).sum)
    (hc : (cplOf s k).cvu = none) (hf : (cplOf s k).firstErr = 0) (hl : ackedBy s f x.ack ≠ []) :
    Completes (.ethFrame port x) s (fun u => Finished k (statusWord 0 (cplOf s k).drops false (cplOf s k).inexact false) s u) := by
  have hex := h.exec
  rw [if_neg (by rw [h2]; decide), if_pos h2, ethAckArrives_live hl ht hk hi] at hex
  have hcz : cplOf (forgetAcked f x.ack s) k = cplOf s k := rfl
  generalize forgetAcked f x.ack s = z at hex hcz
  obtain ⟨y, hy, hcy, -, -⟩ := progress_last (s := z) (late := false) (status := stOk)
    (n := ((ackedBy s f x.ack).map (fun p => p.2.2.length)).sum) (e := cplOf s k) (tag := k) hcz.symm hst hf hg
  have he : isError stOk = false := by decide
  rw [he] at hcy
  rw [hy] at hex
  have hfin := finished_concludeTag_ok (s := y) (tag := k) (late := false) rfl (by rw [hcy]; exact hc) (by rw [hcy]; exact hst)
    (by rw [hcy]; exact hd) (by rw [hcy]; rfl)
  rw [hcy] at hfin
  obtain ⟨f1, f2, f3⟩ := hfin
  rw [hcy] at f3
  exact ⟨_, hex, f1, f2, f3⟩

-- The retransmission timer (R344)

/-- What a flow sends of one of its packets. -/
def ethPacket (s : State) (f : Nat) (y : Nat × Nat × List Byte) : Out :=
  .eth (flowPort s f) (fld (flowWord s f 3) 55 40) 1 y.1 (flowOf s f).rxSeq y.2.1 y.2.2

theorem ethData_all (hc : rdB s Reg.ethCtrl 63 = true) (hp : hostPowered s = true) (l : List (Nat × Nat × List Byte)) :
    l.foldl (fun s p => ethData f p s) s = { s with out := s.out ++ l.map (ethPacket s f) } := by
  have hone : ∀ o y, ethData f y { s with out := o } = { s with out := o ++ [ethPacket s f y] } := fun o y =>
    if_pos (Bool.and_eq_true_iff.2 ⟨hc, hp⟩)
  have hall : ∀ o, l.foldl (fun s p => ethData f p s) { s with out := o } = { s with out := o ++ l.map (ethPacket s f) } := by
    induction l with
    | nil => intro o; simp
    | cons y l ih =>
      intro o
      rw [List.foldl_cons, hone, ih, List.map_cons, List.append_assoc]
      rfl
  exact hall s.out

theorem hostPowered_clockTo (t : Nat) (s : State) : hostPowered (clockTo t s) = hostPowered s :=
  domainIsOn_congr (rd_clockTo s t _) _

/-- A timer that finds its operation running sends everything again. -/
theorem ethRto_again {p : Nat × Nat × List Byte} {rest : List (Nat × Nat × List Byte)} {k : Nat} (hu : (flowOf s f).unacked = p :: rest)
    (hb : (flowOf s f).sentAt + fld (flowWord s f 3) 39 32 * 1600 < 2 ^ 64) (ht : (flowOf s f).tag = some k) (hst : (cplOf s k).st = .opened)
    (hk : (cplOf s k).kind = .eth) (hi : (cplOf s k).items = f) (hc : rdB s Reg.ethCtrl 63 = true) (hp : hostPowered s = true) :
    Completes (.ethRtoExpiry f) s (fun u => u.out = s.out ++ (p :: rest).map (ethPacket s f)
      ∧ (flowOf u f).unacked = p :: rest ∧ (flowOf u f).sentAt = now u
      ∧ (flowOf s f).sentAt + fld (flowWord s f 3) 39 32 * 1600 ≤ now u ∧ RegsKept [] s u ∧ MemKept s u) := by
  generalize hT : (flowOf s f).sentAt + fld (flowWord s f 3) 39 32 * 1600 = t at hb
  obtain ⟨z, hz⟩ : ∃ z, z = clockTo t s := ⟨_, rfl⟩
  obtain ⟨y, hy⟩ : ∃ y, y = onFlow f (fun y => { y with sentAt := now z }) z := ⟨_, rfl⟩
  have hex : exec (.ethRtoExpiry f) s = ok ((p :: rest).foldl (fun s p => ethData f p s) y) := by
    show execEthRtoExpiry f s = _
    unfold execEthRtoExpiry
    dsimp only
    rw [hu]
    dsimp only
    rw [ht]
    dsimp only
    rw [hT, ← hz, ← hy]
    exact congrArg ok (if_pos (by simp [hst, hk, hi]))
  have hzf : flowOf z f = flowOf s f := by
    obtain ⟨_, _, hc⟩ := clockTo_cases (s := s) t
    rw [hz, hc]
    rfl
  have hyf : flowOf y f = { flowOf s f with sentAt := now z } := by rw [hy, flowOf_onFlow, hzf]
  obtain ⟨c1, c2⟩ := regs_clockTo t s
  have c3 := now_clockTo s t hb
  have c4 := out_clockTo t s
  rw [← hz] at c1 c2 c3 c4
  have hyr : (∀ a, rd y a = rd z a) ∧ MemKept z y ∧ now y = now z ∧ y.out = z.out := by
    rw [hy]; exact ⟨fun _ => rfl, fun _ => rfl, rfl, rfl⟩
  obtain ⟨y1, y2, y3, y4⟩ := hyr
  have hr : ∀ a, rd y a = rd s a := fun a => (y1 a).trans (c1 a (by simp))
  have hpy : hostPowered y = true := (domainIsOn_congr (hr _) _).trans hp
  have hpk : ethPacket y f = ethPacket s f := by
    funext w
    simp only [ethPacket, flowPort, flowWord, rdF, hr, hyf]
  rw [ethData_all (by rw [rdB, hr]; exact hc) hpy, hpk, y4, c4] at hex
  refine ⟨_, hex, rfl, ?_, ?_, ?_, fun a _ => hr a, fun a => (y2 a).trans (c2 a)⟩
  · exact (congrArg EthFlow.unacked hyf).trans hu
  · exact (congrArg EthFlow.sentAt hyf).trans y3.symm
  · exact c3.trans (Nat.le_of_eq y3.symm)

/-- A timer that finds its operation ended forgets what it had sent. -/
theorem ethRto_ended {p : Nat × Nat × List Byte} {rest : List (Nat × Nat × List Byte)} (hu : (flowOf s f).unacked = p :: rest)
    (ht : (flowOf s f).tag = none) : Completes (.ethRtoExpiry f) s (fun u =>
      (flowOf u f).unacked = [] ∧ (flowOf u f).txSeq = p.1 ∧ u.out = s.out ∧ RegsKept [] s u ∧ MemKept s u) := by
  generalize hT : (flowOf s f).sentAt + fld (flowWord s f 3) 39 32 * 1600 = t
  have hex : exec (.ethRtoExpiry f) s
      = ok (onFlow f (fun y => { y with unacked := [], txSeq := p.1, tag := none }) (clockTo t s)) := by
    show execEthRtoExpiry f s = _
    unfold execEthRtoExpiry
    dsimp only
    rw [hu]
    dsimp only
    rw [ht, hT]
    exact congrArg ok (if_neg Bool.false_ne_true)
  obtain ⟨c1, c2⟩ := regs_clockTo t s
  have c4 := out_clockTo t s
  generalize clockTo t s = z at hex c1 c2 c4
  refine ⟨_, hex, ?_, ?_, c4, c1, c2⟩
  · rw [flowOf_onFlow]
  · rw [flowOf_onFlow]

/-- Settles O47: frames that are dropped, data in and out of sequence, acknowledgements, and the retransmission timer. -/
theorem ordinaryNetwork : Obligations.OrdinaryNetwork := by
  unfold Obligations.OrdinaryNetwork
  rintro s port f x ack rfl
  refine ⟨fun h => ethFrame_off h, fun h hm => ethFrame_malformed h hm, fun h hm hc => ethFrame_refused h hm hc,
    fun h1 h2 h3 h4 h5 h6 h7 => ?_, fun p rest k hu hb =>
    ⟨fun ht hst hk hi hc hp => ethRto_again hu hb ht hst hk hi hc hp, fun ht => ethRto_ended hu ht⟩⟩
  have h : FlowTakes s port f x := ⟨h1, h2, h3, h4, h5, h6, h7⟩
  exact ⟨fun hk hs => ethData_outOfOrder h hk hs, fun hk hs hl ho => ⟨fun he => ethData_empty h hk hs hl ho he,
    fun p o y hp ha hr ht hy => ethData_written h hk hs hl ho hp ha hr ht hy⟩, fun hk ht => ethAck_idle h hk ht,
    fun k h2 ht hst hk hi hd hg hc hf hl => ethAck_completes h h2 ht hst hk hi hd hg hc hf hl⟩

end Sys2Proof.Machine
end

section
/-! PROOFS. The host's accesses through its BARs, and writes of registers without a command of their own (R331–R333,
R12, R14). -/

namespace Sys2Proof.Machine

variable {s u : State} {id : Nat} {fn : HostFn}

-- What an access does

/-- What an access of a function does once the endpoint has numbered it. -/
def hostBar (fn : HostFn) (id bar off : Nat) (op : HostOp) (s : State) : State :=
  let known := match fn with | .pf => true | .vf v => tenantOk s v
  if !known then refuseBar fn id off stAddr op s
  else if bar = 0 then bar0 fn id off op s
  else if bar = 2 ∧ off < 0x8000 then bar2Queue fn id off op s
  else if bar = 2 ∧ off < 0x10000 then bar2Msix fn id off op s
  else refuseBar fn id off stAddr op s

/-- The endpoint numbers an access. -/
def numbered (s : State) : State := { s with host := { s.host with nextId := s.host.nextId + 1 } }

theorem exec_hostBar (hp : hostPowered s = true) (fn : HostFn) (bar off : Nat) (op : HostOp) :
    exec (.hostBarAccess fn bar off op) s = ok (hostBar fn s.host.nextId bar off op (numbered s)) := by
  show execHostBarAccess fn bar off op s = _
  unfold execHostBarAccess
  exact congrArg ok (if_neg (by rw [hp]; decide))

theorem hostBar_pf (id bar off : Nat) (op : HostOp) (s : State) : hostBar .pf id bar off op s
    = if bar = 0 then bar0 .pf id off op s
      else if bar = 2 ∧ off < 0x8000 then bar2Queue .pf id off op s
      else if bar = 2 ∧ off < 0x10000 then bar2Msix .pf id off op s
      else refuseBar .pf id off stAddr op s := by
  unfold hostBar
  dsimp only
  rw [if_neg]
  decide

theorem accessRange_hbm_lt {a k p o : Nat} (h : accessRange s a k = some (.hbm p o)) : a < 4 * 0x1800000000 := by
  have hr : regionOf s a = some (.hbm p o) := by
    unfold accessRange at h
    split at h
    · next r r' hr _ =>
      split at h
      · rw [hr]; exact h
      · cases h
    · cases h
  by_contra hc
  unfold regionOf at hr
  rw [if_neg hc] at hr
  repeat' split at hr
  all_goals cases hr

theorem hostAccess_off (h : hostPowered s = false) (fn : HostFn) (bar off : Nat) (op : HostOp) :
    Completes (.hostBarAccess fn bar off op) s (fun u => u = s) := by
  refine ⟨s, ?_, rfl⟩
  show execHostBarAccess fn bar off op s = _
  unfold execHostBarAccess
  exact congrArg ok (if_pos (by rw [h]; rfl))

-- Memory through BAR0

/-- A read of the physical function that lies in one line of a running stack joins its queue. -/
theorem bar0_reads {a n p o : Nat} {x : Access} (hp : hostPowered s = true) (ha : a < 2 ^ 48)
    (hr : accessRange s a n = some (.hbm p o)) (hn : 1 ≤ n) (hf : fenceState s p = 0) (ht : StackTakes s p o)
    (hx : x = { op := .read, addr := a, len := n, agent := 0x300, tenant := 0, since := now s, reply := .bar s.host.nextId })
    (hl : OneLine x) : Completes (.hostBarAccess .pf 0 a (.read n)) s (fun u =>
      Queued p (stackOf s o) x s u ∧ u.host.barReads = s.host.barReads ++ [{ id := s.host.nextId, fn := .pf, at_ := now s }]
        ∧ u.host.nextId = s.host.nextId + 1 ∧ RegsKept [] s u ∧ MemKept s u) := by
  have hex := exec_hostBar hp .pf 0 a (.read n)
  rw [hostBar_pf, if_pos rfl] at hex
  obtain ⟨y, hy⟩ : ∃ y : State, y = { numbered s with host := { (numbered s).host with
    barReads := s.host.barReads ++ [{ id := s.host.nextId, fn := .pf, at_ := now s }] } } := ⟨_, rfl⟩
  have hb : bar0 .pf s.host.nextId a (.read n) (numbered s) = follow (ownAccess x y) := by
    unfold bar0 bar0Address
    dsimp only
    rw [if_pos ha, hy, hx]
    rfl
  have hyf : y.regs = s.regs ∧ y.boot = s.boot ∧ y.hbm = s.hbm ∧ y.rma = s.rma ∧ y.mem = s.mem ∧ y.now = s.now
      ∧ y.host.barReads = s.host.barReads ++ [{ id := s.host.nextId, fn := .pf, at_ := now s }]
      ∧ y.host.nextId = s.host.nextId + 1 := by
    rw [hy]; exact ⟨rfl, rfl, rfl, rfl, rfl, rfl, rfl, rfl⟩
  rw [hb] at hex
  generalize y = y at hex hyf
  obtain ⟨y1, y2, y3, y4, y5, y6, y7, y8⟩ := hyf
  have hrd : ∀ b, rd y b = rd s b := fun b => by rw [rd, rd, y1]
  have hso : ∀ k, stackOf y k = stackOf s k := fun k => by rw [stackOf, y2]; rfl
  have hxa : x.addr = a := by rw [hx]
  have hxl : x.len = n := by rw [hx]
  obtain ⟨r1, r2⟩ := accessRange_hbm hr
  have hlt := accessRange_hbm_lt hr
  have hfen : isFenced y x = false := by
    unfold isFenced partOf
    rw [hxa, if_pos hlt, ← r1]
    have hfy : fenceState y p = fenceState s p := congrArg (fld · _ _) (hrd _)
    dsimp only
    rw [hfy, hf]
    rfl
  have hrc : rangeCheck y x = .ok (.hbm p o) := by
    have hm : max 1 n = n := by omega
    unfold rangeCheck
    rw [hxa, hxl, hm, accessRange_of_boot y2, hr]
    have h1 : badAtomic x (.hbm p o) = false := by rw [hx]; rfl
    have h2 : badSize x (.hbm p o) = false := rfl
    dsimp only
    rw [h1, h2]
    rfl
  have hty : StackTakes y p o := by
    obtain ⟨t1, t2, t3, t4⟩ := ht
    have h1 : ∀ i j, stackState y i j = stackState s i j := fun i j => congrArg (fld · _ _) (hrd _)
    have h2 : ∀ i j, stk y i j = stk s i j := fun i j => by rw [stk, y3]; rfl
    rw [StackTakes, hso, h1, h2, y4]
    exact ⟨t1, t2, t3, t4⟩
  have hpl := placeHbm_queues (s := y) (y := x) (p := p) (o := o) (by rw [hx]; rfl) (by rw [hxa, r1]) (by rw [hxa, r2]) hty hl
  have ho : ownAccess x y = ([], onStk p (stackOf y o) (fun k => { k with queue := k.queue ++ [x] }) y) := by
    have h8 : x.agent ≠ 0x800 := by rw [hx]; exact (by decide : (0x300 : Nat) ≠ 0x800)
    have h3 : (x.agent == 0x300) = true := by rw [hx]; rfl
    have hsn : ({ x with since := now y } : Access) = x := by rw [hx, now, now, y6]
    unfold ownAccess
    rw [if_neg h8, hfen, if_neg (by simp), hrc]
    dsimp only
    rw [h3, Bool.true_or, Bool.true_or, if_pos rfl, hsn]
    exact hpl
  rw [ho, hso] at hex
  refine ⟨_, hex, ?_, y7, y8, fun b _ => hrd b, fun b => ?_⟩
  · show (stk (onStk p (stackOf s o) (fun k => { k with queue := k.queue ++ [x] }) y) p (stackOf s o)).queue = _
    rw [stk_onStk_self, stk, y3]
    rfl
  · show memByte y b = memByte s b
    rw [memByte, memByte, y5]

-- Queue pages and the MSI-X table through BAR2

theorem countRefused_frame (s : State) : (countRefused s).out = s.out ∧ MemKept s (countRefused s) :=
  let ⟨_, h, _, h', _⟩ := addSat_one_spec (a := Reg.refusedCount) (hi := 63) (lo := 0) (by decide) (by decide) s
  ⟨h, h'⟩

/-- A page of another tenant reads 0 and ignores writes. -/
theorem queuePage_foreign {v off : Nat} (hp : hostPowered s = true) (hv : tenantOk s v = true) (ho : off < 0x8000) (h8 : off % 8 = 0)
    (hq : v ≠ qTenant s (off / 0x40)) :
    Completes (.hostBarAccess (.vf v) 2 off (.read 8)) s (fun u =>
        u.out = s.out ++ [.hostAnswer s.host.nextId stOk (leBytes 8 0) false] ∧ RegsKept [] s u ∧ MemKept s u)
      ∧ ∀ bs, bs.length = 8 → Completes (.hostBarAccess (.vf v) 2 off (.write bs)) s (fun u =>
          u.out = s.out ∧ CountedRefused s u ∧ RegsKept [Reg.refusedCount] s u ∧ MemKept s u) := by
  have hb : ∀ op, hostBar (.vf v) s.host.nextId 2 off op (numbered s) = bar2Queue (.vf v) s.host.nextId off op (numbered s) := fun op => by
    have hv' : tenantOk (numbered s) v = true := hv
    unfold hostBar
    dsimp only
    rw [hv', if_neg (by decide), if_neg (by decide), if_pos ⟨rfl, ho⟩]
  have hm : (v == qTenant (numbered s) (off / 0x40)) = false := beq_eq_false_iff_ne.2 hq
  refine ⟨?_, fun bs hl => ?_⟩
  · have hex := exec_hostBar hp (.vf v) 2 off (.read 8)
    have he : bar2Queue (.vf v) s.host.nextId off (.read 8) (numbered s) = answerHost s.host.nextId stOk (leBytes 8 0) (numbered s) := by
      unfold bar2Queue
      dsimp only
      rw [if_neg (by omega), hm, if_neg (by decide)]
    rw [hb, he] at hex
    exact ⟨_, hex, rfl, fun _ _ => rfl, fun _ => rfl⟩
  · have hex := exec_hostBar hp (.vf v) 2 off (.write bs)
    have he : bar2Queue (.vf v) s.host.nextId off (.write bs) (numbered s) = countRefused (numbered s) := by
      unfold bar2Queue
      dsimp only
      rw [if_neg (by omega), hm, if_neg (by decide)]
    rw [hb, he] at hex
    obtain ⟨h1, h2⟩ := countRefused_counts (numbered s)
    obtain ⟨h3, h4⟩ := countRefused_frame (numbered s)
    exact ⟨_, hex, h3, h1, h2, h4⟩

theorem take_drop_leBytes (n : Nat) : (List.drop 0 (leBytes 8 n)).take 8 = leBytes 8 n := by
  rw [List.drop_zero, List.take_of_length_le (by rw [leBytes_length])]

theorem msixWord_msixPut {w : Nat} (v : Word) (k : Nat) : msixWord (msixPut 0 w v s) 0 k = if k = w then v else msixWord s 0 k := by
  unfold msixWord msixPut msixKey
  dsimp only
  rw [Nat.zero_mul, Nat.zero_add, Nat.zero_add]
  split
  · next h => rw [h, mget_mset_self, BitVec.xor_assoc, BitVec.xor_self, BitVec.xor_zero]
  · next h => rw [mget_mset_ne _ _ _ h]

theorem msixTable_access {w : Nat} (hp : hostPowered s = true) (hw : w < 512) :
    Completes (.hostBarAccess .pf 2 (0x8000 + 8 * w) (.read 8)) s (fun u =>
        u.out = s.out ++ [.hostAnswer s.host.nextId stOk (leBytes 8 (msixWord s 0 w).toNat) false] ∧ RegsKept [] s u ∧ MemKept s u)
      ∧ ∀ bs, bs.length = 8 → (0, w / 2) ∉ s.host.pba → Completes (.hostBarAccess .pf 2 (0x8000 + 8 * w) (.write bs)) s
          (fun u => msixWord u 0 w = leWord bs ∧ (∀ k, k ≠ w → msixWord u 0 k = msixWord s 0 k) ∧ u.out = s.out
            ∧ RegsKept [] s u ∧ MemKept s u) := by
  have hb : ∀ op, hostBar .pf s.host.nextId 2 (0x8000 + 8 * w) op (numbered s)
      = bar2Msix .pf s.host.nextId (0x8000 + 8 * w) op (numbered s) := fun op => by
    rw [hostBar_pf, if_neg (by decide), if_neg (by omega), if_pos ⟨rfl, by omega⟩]
  have h0 : (0x8000 + 8 * w) % 8 = 0 := by omega
  have hd : (0x8000 + 8 * w) / 8 = 0x1000 + w := by omega
  have hin : 0x1000 ≤ 0x1000 + w ∧ 0x1000 + w < 0x1000 + 2 * msixCount 0 := by rw [msixCount, if_pos rfl]; omega
  have hword : bar2Word (numbered s) 0 (0x1000 + w) = (msixWord s 0 w).toNat := by
    unfold bar2Word
    rw [if_pos hin, Nat.add_sub_cancel_left]
    rfl
  refine ⟨?_, fun bs hl hpb => ?_⟩
  · have hex := exec_hostBar hp .pf 2 (0x8000 + 8 * w) (.read 8)
    have he : bar2Msix .pf s.host.nextId (0x8000 + 8 * w) (.read 8) (numbered s)
        = answerHost s.host.nextId stOk (leBytes 8 (msixWord s 0 w).toNat) (numbered s) := by
      unfold bar2Msix
      dsimp only [fnNumber]
      refine (if_pos (by rw [h0]; rfl)).trans ?_
      rw [h0, hd, hword, take_drop_leBytes]
    rw [hb, he] at hex
    exact ⟨_, hex, rfl, fun _ _ => rfl, fun _ => rfl⟩
  · have hex := exec_hostBar hp .pf 2 (0x8000 + 8 * w) (.write bs)
    have he : bar2Msix .pf s.host.nextId (0x8000 + 8 * w) (.write bs) (numbered s) = msixWrite 0 w (leWord bs) (numbered s) := by
      unfold bar2Msix
      dsimp only [fnNumber]
      refine (if_neg (by rw [hl, h0]; decide)).trans ?_
      rw [hl, h0, hd, if_pos hin, Nat.add_sub_cancel_left, List.take_zero, List.nil_append,
        List.drop_of_length_le (by rw [leBytes_length]), List.append_nil]
    have hw' : msixWrite 0 w (leWord bs) (numbered s) = msixPut 0 w (leWord bs) (numbered s) := by
      have hc : (msixPut 0 w (leWord bs) (numbered s)).host.pba.contains (0, w / 2) = false := by
        have : (msixPut 0 w (leWord bs) (numbered s)).host.pba = s.host.pba := rfl
        rw [this]
        simpa using hpb
      unfold msixWrite
      dsimp only
      rw [hc, Bool.false_and, if_neg (by decide)]
    rw [hb, he, hw'] at hex
    refine ⟨_, hex, ?_, fun k hk => ?_, rfl, fun _ _ => rfl, fun _ => rfl⟩
    · rw [msixWord_msixPut, if_pos rfl]
    · rw [msixWord_msixPut, if_neg hk]
      rfl

-- What has no place, and what nothing answers

theorem refuseBar_read (fn : HostFn) (id a status n : Nat) (s : State) : refuseBar fn id a status (.read n) s
    = answerHost id status [] (violation (barOcc s fn a status) a (countRefused s)) := by
  unfold refuseBar
  rfl

theorem hostBar_nowhere {bar off n : Nat} (hp : hostPowered s = true) (h0 : bar ≠ 0) (h2 : bar ≠ 2) :
    Completes (.hostBarAccess .pf bar off (.read n)) s (fun u =>
      u.out = s.out ++ [.hostAnswer s.host.nextId stAddr [] false] ∧ CountedRefused s u ∧ rdB u Reg.faultStatus 2 = true ∧ MemKept s u) := by
  have hex := exec_hostBar hp .pf bar off (.read n)
  obtain ⟨c1, -⟩ := countRefused_counts (numbered s)
  obtain ⟨c2, c3⟩ := countRefused_frame (numbered s)
  rw [hostBar_pf, if_neg h0, if_neg (fun h => h2 h.1), if_neg (fun h => h2 h.1),
    refuseBar_read, violation] at hex
  generalize barOcc (numbered s) .pf off stAddr = o at hex
  generalize countRefused (numbered s) = y at hex c1 c2 c3
  have hk := kept_recordData srcAccess o ((partOf off).or (agentPart o.agent)) y
  have hb := rdB_recordData_status (src := srcAccess) (s := y) o ((partOf off).or (agentPart o.agent)) (by decide)
  obtain ⟨r, rs, hz⟩ := recordData_frame srcAccess o ((partOf off).or (agentPart o.agent)) y
  have ho := congrArg State.out hz
  generalize recordData srcAccess o ((partOf off).or (agentPart o.agent)) y = z at hex hk hb ho
  refine ⟨_, hex, ?_, ?_, hb, fun a => (hk.mem a).trans (c3 a)⟩
  · exact congrArg (· ++ [_]) (ho.trans c2)
  · exact (congrArg (fld · 63 0) (hk.regs Reg.refusedCount (by decide))).trans c1

/-- A read is given up at a time. -/
def giveUp (t id : Nat) (s : State) : State :=
  let s := clockTo t s
  answerHost id stTimeout [] { s with host := { s.host with barReads := s.host.barReads.filter (fun x => x.id != id) } }

theorem giveUp_spec {t : Nat} (ht : t < 2 ^ 64) (id : Nat) (s : State) :
    (giveUp t id s).out = s.out ++ [.hostAnswer id stTimeout [] false] ∧ t ≤ now (giveUp t id s)
      ∧ (giveUp t id s).host.barReads = s.host.barReads.filter (fun x => x.id != id) ∧ RegsKept [] s (giveUp t id s)
      ∧ MemKept s (giveUp t id s) := by
  have hh : (clockTo t s).host = s.host := by
    obtain ⟨_, _, hc⟩ := clockTo_cases (s := s) t
    rw [hc]
  obtain ⟨c1, c2⟩ := regs_clockTo t s
  have c3 := now_clockTo s t ht
  have c4 := out_clockTo t s
  unfold giveUp
  generalize clockTo t s = z at hh c1 c2 c3 c4
  exact ⟨congrArg (· ++ [_]) c4, c3, congrArg (fun h => h.barReads.filter (fun x => x.id != id)) hh, c1, c2⟩

theorem barRead_timesOut {r : BarRead} (h : s.host.barReads.find? (fun r => r.id == id) = some r) (hb : r.at_ + 12800000 < 2 ^ 64) :
    Completes (.barReadTimeout id) s (fun u =>
      u.out = s.out ++ [.hostAnswer id stTimeout [] false] ∧ r.at_ + 12800000 ≤ now u
        ∧ u.host.barReads = s.host.barReads.filter (fun x => x.id != id) ∧ RegsKept [] s u ∧ MemKept s u) := by
  have hex : exec (.barReadTimeout id) s = ok (giveUp (r.at_ + 12800000) id s) := by
    show execBarReadTimeout id s = _
    unfold execBarReadTimeout
    rw [h]
    rfl
  exact ⟨_, hex, giveUp_spec hb id s⟩

-- Registers without a command of their own

/-- The registers of HostAccesses that take what their writer may write. -/
def plainRegs : List Nat := [Reg.faultCtrl, Reg.smdCtrl, Reg.fenceDrain, Reg.capLease, Reg.extThrottle, Reg.shiftCtrl,
  Reg.forecastCtrl, Reg.timeSyncWait, Reg.copyAllow]

theorem plainRegs_facts : ∀ a ∈ plainRegs, a % 8 = 0 ∧ a < 0x100000 ∧ Reg.isGap a = false ∧ skipsLog a = false ∧ a ≠ Reg.roleRefused := by
  decide

theorem writeReg_plain {a : Nat} (ha : a ∈ plainRegs) (who : Writer) (v : Word) (s : State) : writeReg who a v s = plainWrite who a v s := by
  fin_cases ha <;> rfl

/-- A write of a plain register is answered as its rule says. -/
theorem exec_registerWrite {a : Nat} (ha : a ∈ plainRegs) (p : Path) (v : Word) (s : State) :
    exec (.registerWrite (.path p) (Reg.spaceBase + a) v) s = ok (answered (.path p) a (plainWrite (.path p) a v s)) := by
  obtain ⟨h1, h2, h3, -, -⟩ := plainRegs_facts a ha
  have hreg : regionOf s (Reg.spaceBase + a) = some (.reg a) := by
    have hb : absentBlock s a = false := by
      unfold absentBlock
      exact decide_eq_false (by omega)
    have e1 : Reg.spaceBase = 0x7FF000000000 := rfl
    have e2 : Reg.spaceBase + a - Reg.spaceBase = a := by omega
    unfold regionOf
    rw [e2, if_neg (by rw [e1]; omega), if_neg (by rw [e1]; omega), if_neg (by rw [e1]; omega), if_neg (by rw [e1]; omega),
      if_neg (by rw [e1]; omega), if_pos (by rw [e1, Reg.spaceSize]; omega), h3, hb]
    rfl
  have hfen : regFenced s a = false := by
    have e1 : Reg.spaceBase = 0x7FF000000000 := rfl
    unfold regFenced partOf
    rw [if_neg (by rw [e1]; omega), if_neg (by rw [e1]; omega), if_neg (by omega), if_neg (by omega)]
  show execRegisterWrite (.path p) (Reg.spaceBase + a) v s = _
  unfold execRegisterWrite
  rw [hreg]
  dsimp only
  rw [if_neg (by omega), hfen, if_neg (by decide), writeReg_plain ha]

theorem registerWrite_plain {a : Nat} (ha : a ∈ plainRegs) {p : Path} {v : Word} (hm : mayWrite s (Reg.kind a).cls (.path p) = true) :
    Completes (.registerWrite (.path p) (Reg.spaceBase + a) v) s (fun u =>
      rd u a = plainValue (Reg.kind a) (rd s a) v ∧ RegsKept [a] s u ∧ MemKept s u) := by
  have hex := exec_registerWrite ha p v s
  obtain ⟨-, -, -, h4, -⟩ := plainRegs_facts a ha
  obtain ⟨au, n, he⟩ := answered_withRole hm h4 (fun s => (true, wrReg a (plainValue (Reg.kind a) (rd s a) v) s))
  rw [plainWrite, withRoleDo, he] at hex
  exact ⟨_, hex, rd_wrReg_self .., fun b hb => rd_wrReg_ne _ _ (by simpa using hb), fun _ => rfl⟩

theorem registerWrite_refused {a : Nat} (ha : a ∈ plainRegs) {p : Path} {v : Word} (hm : mayWrite s (Reg.kind a).cls (.path p) = false) :
    Completes (.registerWrite (.path p) (Reg.spaceBase + a) v) s (fun u =>
      rdF u Reg.roleRefused 31 0 = min (rdF s Reg.roleRefused 31 0 + 1) (2 ^ 32 - 1)
        ∧ u.boot.auditNext = s.boot.auditNext + 1 ∧ RegsKept [Reg.roleRefused] s u ∧ MemKept s u) := by
  have hex := exec_registerWrite ha p v s
  obtain ⟨-, -, -, h4, -⟩ := plainRegs_facts a ha
  obtain ⟨au, hau⟩ := logWrite_frame (.path p) a 1 [] [] (addSat Reg.roleRefused 31 0 1 s)
  have he : answered (.path p) a (plainWrite (.path p) a v s) = withAudit au (s.boot.auditNext + 1) (addSat Reg.roleRefused 31 0 1 s) := by
    refine Eq.trans ?_ hau
    simp only [answered, plainWrite, withRoleDo, withRole, hm, refuseRole, h4, Bool.false_eq_true, if_true, if_false]
  obtain ⟨g1, -, g3, g4, -⟩ := addSat_one_spec (a := Reg.roleRefused) (hi := 31) (lo := 0) (by decide) (by decide) s
  rw [he] at hex
  generalize addSat Reg.roleRefused 31 0 1 s = y at hex g1 g3 g4
  exact ⟨_, hex, g1, rfl, g3, g4⟩

/-- The accesses of the host of O46. -/
theorem hostAccesses : HostAccesses := by
  unfold HostAccesses
  rintro s id rfl
  exact ⟨fun c fn bar off op hp hc => by subst hc; exact hostAccess_off hp fn bar off op, fun hp =>
    ⟨fun a n p o x hn ha hr hf ht hx hl => bar0_reads hp ha hr hn hf ht hx hl, fun v off hv ho h8 hq => queuePage_foreign hp hv ho h8 hq,
      fun w hw => msixTable_access hp hw, fun bar off n h0 h2 => hostBar_nowhere hp h0 h2⟩,
    fun r hr hb => barRead_timesOut hr hb, fun a p v ha => ⟨fun hm => registerWrite_plain ha hm, fun hm => registerWrite_refused ha hm⟩⟩

end Sys2Proof.Machine
end
